-- ==== Sys2Proof/Word.lean ====
section
/-!
DEFINITION. The smallest pieces of data: the byte the spec addresses memory and payloads by, and the granule size.
-/
namespace Sys2Proof

/-- A byte: the unit of payloads, carrels and device memory (R4 orders multi-byte fields). -/
abbrev Byte := BitVec 8

/-- Bytes in a granule (00_scope, terms: 32 bytes). -/
abbrev granuleBytes : Nat := 32

end Sys2Proof
end

