-- ==== Sys2Proof/Machine/Parts/Basic.lean ====
section
/-!
DEFINITION. Plain data shared by the parts of the state: statuses, dictionary values, event records, commands and responses.
-/
namespace Sys2Proof.Machine
open Sys2Proof

/-- Completion statuses (R293, Table 14-13). -/
inductive Status where
  | ok | okRepeat | notReady | deferred | badOpcode | badLength | range | indexRange
  | authFail | noSession | fenced | stalled | timeout | noSpace | exhausted
  deriving DecidableEq, Repr

/-- A dictionary value (R424): a number at its type's width, or a block of bytes. -/
inductive DVal where
  | num (n : Nat)
  | blk (b : List Byte)
  deriving DecidableEq, Repr

/-- The kinds of event source (R418, Table 21-5). -/
inductive Source where
  | module | job | tile | dma | suesh | cxl | memory | keeper | security
  deriving DecidableEq, Repr

/-- An event record (R418, Table 21-5). `holder` is the job key of a job event, used only to decide who may read it. -/
structure EventRec where
  code : Nat
  source : Source
  unit : Nat
  seq : Nat
  step : Nat
  ms : Nat
  arg0 : Nat
  arg1 : Nat
  arg2 : Nat
  holder : Option Nat
  deriving DecidableEq, Repr

/-- What asked for an answer: a command on a queue, or a GDP request. -/
inductive Asker where
  | command (session queue seq : Nat)
  | gdp (session reqId : Nat)
  deriving DecidableEq, Repr

/-- One command as assembled from its packets (R274, Table 14-4). `hdrBad` holds a header field out of range (R278). -/
structure Command where
  queue : Nat
  session : Nat
  seq : Nat
  tag : Nat
  opcode : Nat
  step : Nat
  hdrBad : Bool
  payload : List Byte
  deriving DecidableEq, Repr

/-- Where a command in flight stands (R275, R360). -/
inductive Stage where
  /-- its chain is being assembled -/
  | chain
  /-- checked through step 8, to be checked at steps 9 and 10 and run by its own row -/
  | arrived
  /-- accepted, and its effect waits (R31, R281, R366) -/
  | waiting
  /-- its final response is decided and waits for its log record (R360) -/
  | done (status : Status) (payload : List Byte) (retry : Nat)
  /-- its final response is formed and not yet written to the ring (R294) -/
  | formed
  deriving DecidableEq, Repr

/-- A command in flight (R22): it holds its tag until its final response is written (R294). -/
structure InFlight where
  cmd : Command
  stage : Stage
  job : Option Nat
  accept : Option Nat
  logged : Bool
  /-- taken from the log of a position whose place this module fills: it is answered to nobody (R372) -/
  replayed : Bool := false
  deriving DecidableEq, Repr

/-- Response types (R290, Table 14-12). -/
inductive RspType where
  | completion | result | rowCall | event | depositChunk
  deriving DecidableEq, Repr

/-- A response waiting in a queue's store or written to a ring (R290). `seq` is 0 and `session` 0 when unauthenticated. -/
structure Response where
  typ : RspType
  status : Status
  queue : Nat
  session : Nat
  seq : Nat
  tag : Nat
  step : Nat
  retry : Nat
  payload : List Byte
  /-- first `SEQ` of the accepted command it answers -/
  cmd : Option Nat
  deriving DecidableEq, Repr

end Sys2Proof.Machine
end

