-- ==== Sys2Proof/Machine/Parts/Host.lean ====
section
/-!
DEFINITION. The host port: queues with their windows, rings and stores (14_host_interface), and sessions (20_security).
-/
namespace Sys2Proof.Machine
open Sys2Proof

/-- A chain being assembled on a queue (R274). `bad` records a fault of step 5 found so far. -/
structure Chain where
  tag : Nat
  opcode : Nat
  length : Nat
  next : Nat
  bad : Bool
  deriving DecidableEq, Repr

/-- One line group written to host memory: the response, its first ring entry and its ring (R291), and its header line as written (Table 14-12). -/
structure RingWrite where
  base : Nat
  entry : Nat
  header : List Byte
  rsp : Response
  deriving DecidableEq, Repr

/-- One command queue: its packet slots, its registers (Table 14-3), its chain, its bindings and its response store. -/
structure Queue where
  /-- bytes of the four packet slots (R272) -/
  slots : List (List Byte) := [[], [], [], []]
  /-- slots whose packet is ready: `SLOT_FREE` is 0 for them -/
  busy : BitVec 4 := 0
  /-- doorbells not yet served: slot and `PACKET_BYTES` (R273) -/
  bells : List (Nat × Nat) := []
  ringBase : BitVec 52 := 0
  eventEnable : Bool := false
  ringEnable : Bool := false
  ringLog2 : Nat := 8
  ringHead : BitVec 32 := 0
  ringTail : BitVec 32 := 0
  ringFull : Bool := false
  /-- seconds the front response has waited on the full ring (R291) -/
  fullSeconds : Nat := 0
  /-- session bound to the queue, 0 when none -/
  session : Nat := 0
  /-- job slot the queue is bound to -/
  job : Option Nat := none
  /-- last `SEQ` accepted from the bound session (R21) -/
  lastSeq : Nat := 0
  chain : Option Chain := none
  /-- tag of a refused chain whose later packets are discarded (R276) -/
  dropTag : Option Nat := none
  /-- last `RSP_SEQ` given in the bound session -/
  rspSeq : Nat := 0
  /-- responses formed and not yet written -/
  store : List Response := []
  /-- ring entries reserved for final responses not yet formed (R291) -/
  reserved : Nat := 0
  /-- events written or waiting that no `EVENT_ACK` covers (R292) -/
  events : List Nat := []
  /-- the last write made to the host ring: the port's output -/
  written : Option RingWrite := none
  deriving DecidableEq, Repr

/-- The CXL port (R269 to R271). -/
structure Port where
  /-- `PERST_N` as seen past its filter: true while asserted -/
  perst : Bool
  /-- lanes trained, 0 while the link is down -/
  width : Nat
  /-- GT/s, 0 while the link is down -/
  rate : Nat
  /-- 0 not keyed, 1 CXL.io keyed, 2 CXL.io and CXL.cache keyed -/
  ide : Nat
  queues : List (Nat × Queue)
  inFlight : List InFlight
  deriving DecidableEq, Repr

/-- Roles a session may have (R390). -/
inductive Role where
  | operator | tenant
  deriving DecidableEq, Repr

/-- The transport a session was formed over (R412). -/
inductive Transport where
  | doe | gdp
  deriving DecidableEq, Repr

/-- What a GDP response repeats of its request's header (R409, Table 21-1). -/
structure GdpAsk where
  service : Nat
  index : Nat
  subindex : Nat
  offset : Nat
  deriving DecidableEq, Repr

/-- A response kept for retransmitted GDP requests (R414). -/
structure KeptReply where
  reqId : Nat
  ask : GdpAsk
  status : Status
  data : List Byte
  total : Nat
  deriving DecidableEq, Repr

/-- A subscription (R420): filter, the records not yet framed, and the records sent and not acknowledged with the re-sends made. -/
structure Subscription where
  filter : Nat
  gather : List EventRec
  unacked : List (List EventRec × Nat)
  deriving DecidableEq, Repr

/-- An SPDM session (R390 to R393). `live` is false between `KEY_EXCHANGE` and `FINISH`. -/
structure Session where
  id : Nat
  live : Bool
  role : Role
  transport : Transport
  /-- SHA-512 of the requester's leaf key: the tenant identity, 64 bytes -/
  tenant : List Byte
  /-- SHA-512 of the requester's root key, 64 bytes, once its chain has been retrieved -/
  root : Option (List Byte)
  /-- keys of R392 or R411, as free values -/
  inKey : Nat
  outKey : Nat
  /-- generation of the secured-message keys (R392) -/
  spdmKeys : Nat
  /-- `HeartbeatPeriod` granted, s -/
  heartbeat : Nat
  /-- keeper times of recent decryption failures, ms -/
  failures : List Nat
  /-- *describe key* of the session (R433) -/
  describe : Nat
  /-- highest `UP_TO` acknowledged (R292) -/
  ackUpTo : Nat
  /-- highest GDP `SEQ` accepted, and last `SEQ` sent (R411) -/
  gdpIn : Nat
  gdpOut : Nat
  /-- GDP requests not yet answered, by `REQ_ID` (R413) -/
  asked : List (Nat × GdpAsk)
  /-- retransmissions that wait for the answer of their first copy, by `REQ_ID` (R422) -/
  again : List Nat
  kept : List KeptReply
  sub : Option Subscription
  deriving DecidableEq, Repr

/-- SPDM messages a responder answers, with what the exchange tells the module (R388 to R393). Requests outside Table 20-4 are `other`. -/
inductive SpdmMsg where
  | getVersion
  | getCapabilities
  | negotiateAlgorithms
  | getDigests
  | getCertificate (off len : Nat)
  | challenge
  | getMeasurements (index : Nat)
  | keyExchange
  /-- `FINISH` of a session, with the verdict of its verification -/
  | finish (session : Nat) (ok : Bool)
  /-- the encapsulated retrieval of the requester's chain: digests of its root key and of its leaf key (R390) -/
  | encapsulated (session : Nat) (root leaf : List Byte)
  | heartbeat (session : Nat)
  | keyUpdate (session : Nat)
  | endSession (session : Nat)
  | other
  deriving DecidableEq, Repr

/-- An SPDM message as a GDP frame carries it, with the frame's `REQ_ID` (R412). -/
structure FramedSpdm where
  reqId : Nat
  msg : SpdmMsg
  deriving DecidableEq, Repr

/-- What the patrol reads (R352): of a stack a burst with the check bytes beside it (R10), of a package the nine bursts of the group that holds a granule of the
far range (R11). -/
inductive PatrolRead where
  | near (burst : List Byte)
  | far (granule : Nat) (group : List Byte)
  deriving DecidableEq, Repr

/-- What the responder answers (R388, R391). -/
inductive SpdmAnswer where
  | version | capabilities | algorithms | digests | certificate | challengeAuth | measurements
  | keyExchangeRsp (session : Nat)
  | finishRsp | encapsulatedAck | heartbeatAck | keyUpdateAck | endSessionAck
  | unsupportedRequest | invalidRequest | sessionLimitExceeded
  deriving DecidableEq, Repr

/-- The last frame or SPDM message the module sent on the segment or through DOE: an output. -/
inductive Reply where
  | spdm (transport : Transport) (answer : SpdmAnswer) (data : List Byte)
  | gdp (session seq reqId : Nat) (ask : GdpAsk) (status : Status) (total : Nat) (data : List Byte)
  | gdpEvents (session seq : Nat) (records : List EventRec)
  /-- a header with `SESSION` 0 and a status, untagged (R413, R421) -/
  | gdpBare (reqId : Nat) (ask : GdpAsk) (status : Status) (total : Nat) (data : List Byte)
  /-- an SPDM message in a GDP frame (R412) -/
  | gdpSpdm (session reqId : Nat) (answer : SpdmAnswer) (data : List Byte)
  /-- an answer to a neighbour solicitation, or to an echo (R408) -/
  | neighbour
  | echo (data : List Byte)
  deriving DecidableEq, Repr

end Sys2Proof.Machine
end

