-- ==== Sys2Proof/Machine/Parts/Keeper.lean ====
section
/-!
DEFINITION. The keeper's state: bring-up, power and pins, ageing records, flash, the event log, open block writes and the management segment
(20_security, 21_geloro_protocol, 22_dictionary, 23_power_clocks, 24_ageing, 25_bring_up, 26_module_hardware).
-/
namespace Sys2Proof.Machine
open Sys2Proof

/-- How far phase 1 of bring-up has come (R465). -/
inductive Phase1 where
  | off | stopped | heldIdentity | heldSlots | heldSequence | done
  deriving DecidableEq, Repr

/-- Bring-up (R462 to R474). -/
structure BringUp where
  phase1 : Phase1
  /-- phase 2: the module is on the segment -/
  segment : Bool
  /-- every rail in regulation: `PWR_GOOD` is high -/
  pwrGood : Bool
  /-- phase 3 done: every stack and package trained -/
  trained : Bool
  /-- devices that failed all three attempts, 0 to 7 `H0` to `H7`, 8 to 25 `L0` to `L17` (R467) -/
  failedDevices : List Nat
  /-- retrains since event 0x7005 was last raised for the hold (R467: once an hour, a retrain every 60 s) -/
  retrains : Nat
  /-- phase 6 done -/
  initialised : Bool
  /-- the 45 s port window has ended or every port has trained (R469) -/
  windowOver : List Nat
  /-- `MODULE_READY` in BAR0 (R471) -/
  ready : Bool
  /-- the module holds dispatch and has announced its own failure (R368, R445, R448) -/
  announcedFailure : Bool
  /-- the module has raised `SELF_FENCED` and awaits a new position (R369, R474) -/
  selfFenced : Bool
  /-- what a restart from phase 3 waits for (R473) -/
  restartAfterBrownOut : Bool
  deriving DecidableEq, Repr

/-- The verdicts of the checks of phase 1 (R465): the keeper's own, identity, both delta copies, the base record, both halves of the conservation header,
and chain, signature and digest of each slot's image. -/
structure StartVerdicts where
  keeper : Bool
  identity : Bool
  deltaA : Bool
  deltaB : Bool
  base : Bool
  consA : Bool
  consB : Bool
  slotA : Bool × Bool × Bool
  slotB : Bool × Bool × Bool
  deriving DecidableEq, Repr

/-- Die power states (R441, Table 23-3); a die is `ACTIVE` when it is awake and one of its tiles has an instance in flight, so that state is not held. -/
inductive DieState where
  | sleep | waking | awake
  deriving DecidableEq, Repr

/-- The 54 V input, rails, sensors, dies and sideband pins (23_power_clocks, R477). -/
structure Power where
  /-- `VIN` as last measured, mV -/
  vin : Nat
  pwrEn : Bool
  /-- `POS_ADDR[5:0]` as debounced (R447) -/
  posAddr : BitVec 6
  /-- causes of `ALERT_N`: input low, input high, the input limit (R448) -/
  alertLow : Bool
  alertHigh : Bool
  alertLimit : Bool
  /-- keeper self-check failure asserts `ALERT_N` (R465 step 1) -/
  alertKeeper : Bool
  /-- sensors at or above the warning -/
  alertHot : List Nat
  /-- sensors whose block is throttled (R446) -/
  hotThrottle : List Nat
  /-- `THERM_TRIP_N` asserted -/
  thermTrip : Bool
  /-- phases remaining, per rail (R445) -/
  phases : List Nat
  /-- sensor readings, m°C -/
  temps : List Int
  /-- sensors that have raised 0xA004 within the running second, with milliseconds left -/
  tempQuiet : List (Nat × Nat)
  dies : List DieState
  deriving DecidableEq, Repr

/-- One copy of the delta record in flash (R429). -/
structure DeltaCopy where
  gen : Nat
  valid : Bool
  values : List (Nat × DVal)
  eventSeq : Option Nat
  activeSlot : Nat
  deriving DecidableEq, Repr

/-- The base record (R386): the retained values it carries, the digests of its key and of the successors it names. -/
structure BaseRecord where
  bytes : List Byte
  values : List (Nat × DVal)
  operator : List Byte
  successors : List (List Byte)
  deriving DecidableEq, Repr

/-- A half of the conservation header (R459). -/
structure ConsHalf where
  gen : Nat
  valid : Bool
  count : Nat
  eventSeq : Option Nat
  deriving DecidableEq, Repr

/-- The serial flash (R383, Table 20-2). -/
structure Flash where
  slotA : List Byte
  slotB : List Byte
  base : Option BaseRecord
  deltaA : DeltaCopy
  deltaB : DeltaCopy
  consA : ConsHalf
  consB : ConsHalf
  /-- daily records, oldest first (R459) -/
  daily : List (List Byte)
  deriving DecidableEq, Repr

/-- What the module accumulates towards the next daily record (R458, Table 24-3). -/
structure DayStats where
  correctedNear : Nat
  correctedFar : Nat
  retunes : Nat
  tempMax : Int
  pathMin : List Nat
  /-- keeper starts and lost phases since manufacture -/
  keeperStarts : Nat
  phasesLost : Nat
  /-- rate code each device's banks start from, 26 devices, and the banks that have moved on, by device and bank (R353, R467) -/
  refreshBase : List Nat
  refreshBanks : List ((Nat × Nat) × Nat)
  /-- least efficiency in the first daily record, in 0.1 % above 80 % (Table 24-2) -/
  firstEfficiency : Option Nat
  /-- lower band when `LIFE_LOW` was last raised (R458) -/
  lastLow : Option Nat
  deriving DecidableEq, Repr

/-- An open block write of a DOMAIN entry (R416, R426). -/
structure OpenBlock where
  key : Nat
  session : Nat
  overGdp : Bool
  job : Option Nat
  data : List Byte
  next : Nat
  deriving DecidableEq, Repr

/-- A RETAINED write that waits for its delta copy (R429). -/
structure PendingWrite where
  key : Nat
  value : DVal
  asker : Asker
  deriving DecidableEq, Repr

/-- Standby image states (R400). -/
inductive Standby where
  | empty | loading | verified | armed | rejected
  deriving DecidableEq, Repr

/-- Identity, images and records in force (20_security). Digests are 64 bytes. -/
structure Security where
  identityDigest : List Byte
  aliasDigest : List Byte
  /-- measurement blocks 1 to 6 (R389) -/
  measures : List (List Byte)
  runningSlot : Nat
  imageVersion : Nat
  securityVersion : Nat
  numericsGen : Nat
  standby : Standby
  /-- jobs held at a step boundary for an armed switch, with the Deposits taken (R401) -/
  switchHeld : List Nat
  switchDeposits : List Nat
  claimed : Bool
  deriving DecidableEq, Repr

/-- The management segment (21_geloro_protocol). -/
structure Segment where
  /-- node id in force, 0 when the module does not transmit (R406) -/
  node : Nat
  csma : Bool
  beaconSeen : Bool
  /-- link-local and static addresses found duplicated (R408) -/
  dupLinkLocal : Bool
  dupStatic : Bool
  deriving DecidableEq, Repr

/-- The event log and its numbering (R419). -/
structure EventLog where
  /-- last `SEQUENCE` given; none while the keeper numbers no event (R465) -/
  seq : Option Nat
  /-- events raised before the sequence is fixed (R465) -/
  held : List EventRec
  /-- the last 4,096 records, oldest first -/
  records : List EventRec
  /-- `SEQUENCE` at the last checkpoint -/
  checkpoint : Nat
  deriving DecidableEq, Repr

end Sys2Proof.Machine
end

