-- ==== Sys2Proof/Machine/Parts/Memory.lean ====
section
/-!
DEFINITION. Stored tiles and the tile directory (13_memory_tiers), DMA channels (15_dma), memory repair state (18_reliability).
-/
namespace Sys2Proof.Machine
open Sys2Proof

/-- Spaces of the directory (R258, Table 13-2). -/
inductive Space where
  | tensor | table | catalogue | feature
  deriving DecidableEq, Repr

/-- Scopes of a stored tile (R258, R491). -/
inductive Scope where
  | job | step | workItem
  deriving DecidableEq, Repr

/-- The name of a stored tile (R258): `step` is the whole step number, of which the key shows the number mod 4; `edition` counts editions of a table
from the one current at creation. -/
structure TileKey where
  space : Space
  id : Nat
  edition : Nat
  slot : Nat
  scope : Scope
  step : Nat
  mb : Nat
  piece : Nat
  row : Nat
  col : Nat
  deriving DecidableEq, Repr

/-- Where a tile lies (Table 13-3). -/
inductive Tier where
  | absent | near | far | annex
  deriving DecidableEq, Repr

/-- A directory entry with the stored image it names: the label granule and the body (R258, R145). `poison` lists the poisoned granules. -/
structure StoredTile where
  key : TileKey
  tier : Tier
  /-- stack pair of a near tile -/
  pair : Nat
  devGranule : Nat
  charge : Nat
  lastStep : Nat
  image : List Byte
  poison : List Nat
  promoting : Bool
  evicting : Bool
  pinned : Bool
  deriving DecidableEq, Repr

/-- The tiers (R252 to R265). -/
structure Tiers where
  tiles : List StoredTile
  /-- an eviction pass is running -/
  pass : Bool
  /-- bytes retired from the near and the far tier (R351) -/
  nearRetired : Nat
  farRetired : Nat
  /-- order in which weight tensors were first read in the previous and the running step, by job slot and group (R263) -/
  readOrder : List ((Nat × Nat) × List Nat)
  /-- table pages read from far, with job slot, table, edition and page, the last step and the run of consecutive steps (R263) -/
  pageRuns : List ((Nat × Nat × Nat × Nat) × (Nat × Nat))
  /-- tensor tiles of a step's or the job's scope that an instance has read from far and no trigger has taken up (R263) -/
  farReads : List TileKey
  deriving DecidableEq, Repr

/-- Triggers of a DMA descriptor (R299). -/
inductive Trigger where
  | immediate | timer | after
  deriving DecidableEq, Repr

/-- A DMA descriptor (R300, Table 15-2). -/
structure DmaDesc where
  func : Nat
  priority : Nat
  trigger : Trigger
  afterChannel : Nat
  srcKind : Nat
  dstKind : Nat
  layout : Nat
  length : Nat
  src : Nat
  dst : Nat
  ticks : Nat
  owner : Nat
  deriving DecidableEq, Repr

/-- Channel states (R300). -/
inductive ChanState where
  | idle | waiting | active | halted | acting
  deriving DecidableEq, Repr

/-- A DMA channel (R299, R302). Each descriptor is held with whether its trigger has fired. -/
structure Channel where
  state : ChanState := .idle
  current : Option (DmaDesc × Bool) := none
  posted : List (DmaDesc × Bool) := []
  /-- bursts of the current descriptor that have completed -/
  burst : Nat := 0
  attempts : Nat := 0
  /-- error record of the last halt (Table 15-4) -/
  kind : Nat := 0
  direction : Nat := 0
  failBurst : Nat := 0
  failAddr : Nat := 0
  haltCount : Nat := 0
  moved : Nat := 0
  deriving DecidableEq, Repr

/-- History of a DRAM row (R351): device 0 to 7 `H0` to `H7`, 8 to 25 `L0` to `L17`. `granules` are the granules with a corrected error, each with the
keeper time of the latest, ms. -/
structure RowHistory where
  device : Nat
  bank : Nat
  row : Nat
  granules : List (Nat × Nat)
  /-- it holds an uncorrectable granule -/
  bad : Bool
  /-- keeper time, ms, of its last soft repair -/
  repaired : Option Nat
  /-- a live repair is in progress -/
  repairing : Bool
  deriving DecidableEq, Repr

/-- Reliability state (18_reliability). `links` are the eleven internal links; each holds the replays of the granule refused. -/
structure Reliability where
  rows : List RowHistory
  /-- rows of repair resource left in the lowest bank, 26 devices -/
  resources : List Nat
  atManufacture : List Nat
  /-- rows of repair resource used, by device and bank -/
  bankUsed : List ((Nat × Nat) × Nat)
  /-- replays of the granule now refused, by link, and links retraining -/
  replays : List (Nat × Nat)
  retraining : List Nat
  deriving DecidableEq, Repr

end Sys2Proof.Machine
end

