-- ==== Sys2Proof/Machine/Parts/Fabric.lean ====
section
/-!
DEFINITION. The Suesh fabric (16_suesh_fabric), credits (17_flow_control) and recovery between positions (19_recovery).
-/
namespace Sys2Proof.Machine
open Sys2Proof

/-- Flit kinds (R312, Table 16-4). -/
inductive FlitKind where
  | null | hello | assoc | e2eAck | gatherReq | gatherData | scatterRaw | scatterPartial | endContrib | rangeReport | reduce | broadcast | handoff
  | logMirror | deposit | liveness | keyUpdate
  deriving DecidableEq, Repr

/-- A message as it arrives on a port (R310, R319): the header fields of its flits, of which `e2e` and `linkSeq` are those of the first and the others
follow on, and its payload granules in the clear. -/
structure Msg where
  src : Nat
  dst : Nat
  e2e : Nat
  linkSeq : Nat
  ackSeq : Nat
  creditClass : Nat
  creditCount : Nat
  nak : Bool
  phase : Bool
  body : List Byte
  deriving DecidableEq, Repr

/-- A Suesh port (R308 to R311, R332). -/
structure Suesh where
  /-- lanes in service now: 0 while the port is down -/
  width : Nat := 0
  /-- lanes that have failed -/
  failed : List Nat := []
  /-- next `LINK_SEQ` to send, and flits held in the retry buffer -/
  txSeq : Nat := 0
  retry : List Nat := []
  /-- last `LINK_SEQ` received in order, and whether the ACK and the NAK are owed -/
  rxSeq : Nat := 4095
  ackOwed : Nat := 0
  nakOwed : Bool := false
  replays : Nat := 0
  /-- flit credits held toward the peer, by class, and in the shared pool (R332) -/
  credits : List Nat := [32, 32, 32, 32]
  shared : Nat := 128
  /-- credits taken from the shared part, by class (R333) -/
  fromShared : List Nat := [0, 0, 0, 0]
  /-- the peer position its `HELLO` gave -/
  peer : Option Nat := none
  /-- flits of messages under way that wait for a credit, by class, and credits of received flits not yet returned, by class (R333) -/
  short : List Nat := [0, 0, 0, 0]
  owed : List Nat := [0, 0, 0, 0]
  /-- a hop serves strictly in class order (R334) -/
  strict : Bool := false
  deriving DecidableEq, Repr

/-- A message landed in the landing reserve and not yet moved (R336). -/
structure Landed where
  kind : FlitKind
  bytes : List Byte
  deriving DecidableEq, Repr

/-- A sealed message whose flits are held until an `E2E_ACK` covers them (R317). -/
structure Sent where
  seq : Nat
  flits : Nat
  phase : Bool
  kind : FlitKind
  body : List Byte
  port : Nat
  resends : Nat
  deriving DecidableEq, Repr

/-- What is kept of a peer's old key phase until every flit of it is received (R318): its key, its window, and its last `E2E_SEQ`. -/
structure OldPhase where
  key : Nat
  low : Nat
  above : List Nat
  last : Nat
  deriving DecidableEq, Repr

/-- An association with a peer position (R315 to R318, R336). -/
structure Assoc where
  peer : Nat
  /-- digest of the attested identity -/
  identity : Nat
  live : Bool
  txKey : Nat
  rxKey : Nat
  phase : Bool
  rxPhase : Bool
  /-- the key of the phase before, under which its messages are sent again (R318), and the peer's phase before -/
  oldTxKey : Nat
  oldRx : Option OldPhase
  /-- next `E2E_SEQ` to send -/
  txSeq : Nat
  store : List Sent
  /-- lowest `E2E_SEQ` not yet received, and those received above it -/
  rxLow : Nat
  rxAbove : List Nat
  ackOwed : Nat
  /-- keeper times of tag failures within the second, and of the last event 0x2306, ms (R316) -/
  fails : List Nat
  reported : Option Nat
  /-- granules of landing kinds sent, those reported freed, the quota, and those freed here (R336) -/
  sentGranules : Nat
  freedByPeer : Nat
  quota : Nat
  freedHere : Nat
  landing : List Landed
  /-- answered the last probe, and a `QUERY` is out about it (R368) -/
  heard : Bool
  queried : Bool
  /-- last step delivered to us as its liveness messages report -/
  delivered : Nat
  /-- it reported a later committed Deposit step (R364) -/
  depositStep : Nat
  deriving DecidableEq, Repr

/-- A message waiting for an association, a route or quota (R314, R315, R336). -/
structure Waiting where
  dst : Nat
  kind : FlitKind
  bytes : List Byte
  deriving DecidableEq, Repr

/-- What a buddy holds for its ward (R365, R377). -/
structure WardJob where
  key : Nat
  log : List Byte
  image : List Byte
  arriving : List Byte
  step : Nat
  depositId : Nat
  deriving DecidableEq, Repr

/-- The fabric as seen from this module. -/
structure Fabric where
  ports : List Suesh
  /-- position in force since the last link-up (R313) -/
  position : Nat
  assocs : List Assoc
  outbox : List Waiting
  /-- messages taken whose effect waits, with their sender: gather requests that wait for an update or an annex row, and what names a step not yet
  accepted here (R33, R96) -/
  requests : List (Nat × FlitKind × List Byte)
  /-- positions fenced, and where each is now held (R369, R371, R375) -/
  fenced : List Nat
  holders : List (Nat × Nat)
  /-- spares already assigned (R370) -/
  assigned : List Nat
  /-- positions this module has folded into itself (R375) -/
  folded : List Nat
  ward : Option Nat
  wardJobs : List WardJob
  /-- the position this module, a spare, is taking over and filling (R371) -/
  filling : Option Nat
  /-- the cause for which `UNPROTECTED` stands (R360): 0 no buddy named, 1 none reachable, 2 this position refused as a second ward -/
  unprotected : Option Nat
  /-- number of the last probe sent (R377) -/
  probe : Nat
  deriving DecidableEq, Repr

end Sys2Proof.Machine
end

