-- ==== Sys2Proof/Config.lean ====
section
/-!
DEFINITION. What one module fixes and the spec leaves open: free values with no body, which no proof can see (notes/assumptions).
-/
namespace Sys2Proof.Config
open Sys2Proof

/-- FREE VALUE. A number no rule fixes: keys, nonces, identifiers chosen inside the security engine (R392, R396, R397), hints such as
`RETRY_US` before clamping (R286), and every other value the spec calls timing-dependent. Applied to a counter of the state. -/
opaque freeNat (index : Nat) : Nat

/-- FREE VALUE. `KEEPER_MS` and *keeper uptime* at a point of the run (R418, 0xF000:01): the model has no clock. -/
opaque keeperMs (index : Nat) : Nat

/-- FREE VALUE. The digest SHA-512 gives a byte string: 64 bytes' worth, as a number; the spec names the function, not its values. -/
opaque sha512 (data : List Byte) : Nat

/-- FREE VALUE. SHA-512 of the module's identity public key (R381): differs per module. -/
opaque identityDigest : Nat

/-- FREE VALUE. The identity region of flash: the identity certificate and the Eovin chain, DER (R382, R383): differs per module. -/
opaque identityChain : List Byte

/-- FREE VALUE. The firmware image the factory leaves in slot A (R383, R384): Eovin's, and not given. -/
opaque factoryImage : List Byte

/-- FREE VALUE. *serial* 0x1018:04, 12 characters as one little-endian number: differs per module. -/
opaque serial : Nat

/-- FREE VALUE. The SPDM message body a responder answers with, for the exchange numbered `index` (R388): SPDM defines it. -/
opaque spdmBody (index : Nat) : Nat

/-- FREE VALUE. Which FP32 value within 2 units in the last place a transcendental function of R183 gives: by its operation code and its input, a sign, an odd
number and a power of two. -/
opaque funcFree (fn : Nat) (neg : Bool) (num : Nat) (exp : Int) : Nat

/-- FREE VALUE. Which FP32 value within 1 unit in the last place a bias correction of R227 is: by the coefficient's bits and the update count. -/
opaque biasFree (beta count : Nat) : Nat

/-- FREE VALUE. The device address the module's allocator gives stored bytes (R252): no rule fixes where free space is taken. -/
opaque placeAt (index : Nat) : Nat

/-- FREE VALUE. Bits a rule leaves open for these operands; `tag` says which rule (notes/assumptions). -/
opaque openBits (tag operand : Nat) : Nat

end Sys2Proof.Config
end

