-- ==== Sys2Proof/Machine/Bytes.lean ====
section
/-!
DEFINITION. Byte lists as little-endian fields (R4), and finite maps as association lists.
-/
namespace Sys2Proof.Machine
open Sys2Proof

/-- The unsigned number a byte list spells, least significant byte first (R4). -/
def leNat : List Byte → Nat
  | [] => 0
  | b :: bs => b.toNat + 256 * leNat bs

/-- `w` bytes of `n`, least significant first (R4). -/
def toLE : Nat → Nat → List Byte
  | 0, _ => []
  | w + 1, n => BitVec.ofNat 8 (n % 256) :: toLE w (n / 256)

/-- Bits `hi` down to `lo` of a number. -/
def bits (n hi lo : Nat) : Nat := (n >>> lo) % 2 ^ (hi + 1 - lo)

/-- One bit of a number. -/
def bit (n i : Nat) : Bool := n.testBit i

/-- `len` bytes from byte `off`. -/
def slice (b : List Byte) (off len : Nat) : List Byte := (b.drop off).take len

/-- The number that `len` bytes at `off` spell (R4). -/
def leAt (b : List Byte) (off len : Nat) : Nat := leNat (slice b off len)

/-- `n` zero bytes. -/
def zeros (n : Nat) : List Byte := List.replicate n 0

/-- A byte list cut or padded with zero bytes to `n` bytes. -/
def fitTo (n : Nat) (b : List Byte) : List Byte := b.take n ++ zeros (n - b.length)

/-- Overwrite bytes of `b` from `off` with `new`, padding with zeros as far as needed. -/
def overlay (b : List Byte) (off : Nat) (new : List Byte) : List Byte :=
  fitTo off b ++ new ++ b.drop (off + new.length)

/-- Two's complement reading of `w` bits. -/
def signed (w n : Nat) : Int := if n < 2 ^ (w - 1) then (n : Int) else (n : Int) - 2 ^ w

/-- Two's complement encoding of an integer in `w` bits. -/
def unsigned (w : Nat) (i : Int) : Nat := (i % (2 ^ w : Int)).toNat

/-- Division rounded up. -/
def ceilDiv (a b : Nat) : Nat := (a + b - 1) / b

/-- Cut a list into pieces of `w`; `fuel` bounds the number of pieces. -/
def chunks {α : Type} (w : Nat) : Nat → List α → List (List α)
  | 0, _ => []
  | fuel + 1, l => match l with
    | [] => []
    | _ => l.take w :: chunks w fuel (l.drop w)

/-- Records of `w` bytes, `n` of them. -/
def records (w n : Nat) (b : List Byte) : List (List Byte) := chunks w n b

/-- Numbers of `w` bytes each, `n` of them. -/
def leList (w n : Nat) (b : List Byte) : List Nat := (chunks w n b).map leNat

/-- Look a key up. -/
def aGet {κ α : Type} [DecidableEq κ] : List (κ × α) → κ → Option α
  | [], _ => none
  | (k, v) :: l, q => if k = q then some v else aGet l q

/-- Look a key up, with a value for a key that is not listed. -/
def aGetD {κ α : Type} [DecidableEq κ] (l : List (κ × α)) (k : κ) (d : α) : α := (aGet l k).getD d

/-- Set a key: replaced in its place, or added at the end. -/
def aSet {κ α : Type} [DecidableEq κ] : List (κ × α) → κ → α → List (κ × α)
  | [], q, a => [(q, a)]
  | (k, v) :: l, q, a => if k = q then (q, a) :: l else (k, v) :: aSet l q a

/-- Remove a key. -/
def aDel {κ α : Type} [DecidableEq κ] (l : List (κ × α)) (q : κ) : List (κ × α) :=
  l.filter fun p => p.1 ≠ q

/-- Change the value at a key, starting from `d` where it is not listed. -/
def aUpd {κ α : Type} [DecidableEq κ] (l : List (κ × α)) (k : κ) (d : α) (f : α → α) : List (κ × α) :=
  aSet l k (f (aGetD l k d))

/-- The number at a position of a list of numbers, zero past its end. -/
def nth (l : List Nat) (i : Nat) : Nat := l.getD i 0

/-- Replace the element at a position. -/
def setNth {α : Type} (l : List α) (i : Nat) (a : α) : List α := l.set i a

/-- Sum of a list of numbers. -/
def sum (l : List Nat) : Nat := l.foldl (· + ·) 0

/-- The least natural number below `n` that a predicate holds of. -/
def leastBelow (n : Nat) (p : Nat → Bool) : Option Nat := (List.range n).find? p

/-- Whether a list of numbers holds no value twice. -/
def noDup : List Nat → Bool
  | [] => true
  | a :: l => !l.contains a && noDup l

/-- Whether every neighbouring pair is in a relation. -/
def chainOk {α : Type} (r : α → α → Bool) : List α → Bool
  | [] => true
  | [_] => true
  | a :: b :: l => r a b && chainOk r (b :: l)

/-- A list of numbers is strictly rising. -/
def rising (l : List Nat) : Bool := chainOk (fun a b => decide (a < b)) l

/-- Insert into a list of numbers kept in rising order, once. -/
def insertOnce (a : Nat) : List Nat → List Nat
  | [] => [a]
  | b :: l => if a < b then a :: b :: l else if a = b then b :: l else b :: insertOnce a l

/-- A number written with `w` bits wraps (registers and counters of the spec have fixed widths). -/
def wrap (w n : Nat) : Nat := n % 2 ^ w

/-- Whether a number lies in a closed range. -/
def within (lo hi n : Nat) : Bool := decide (lo ≤ n) && decide (n ≤ hi)

end Sys2Proof.Machine
end

