-- ==== Sys2Proof/Machine/Operands.lean ====
section
/-!
DEFINITION. Element types, exact values, and the decoding of stored elements to exact values (R144, R180, R196, R197); exact arithmetic on them.
-/
namespace Sys2Proof.Machine
open Sys2Proof

/-- Element types (R144, Table 07-1). -/
inductive ElemType where
  | fp32 | bf16 | fp16 | e4m3 | e5m2 | int8 | int16 | int32 | u32 | u4 | u8 | em48 | fx128
  deriving DecidableEq, Repr

/-- Codes of Table 07-1. -/
def ElemType.code : ElemType → Nat
  | .fp32 => 0 | .bf16 => 1 | .fp16 => 2 | .e4m3 => 3 | .e5m2 => 4 | .int8 => 5 | .int16 => 6 | .int32 => 7 | .u32 => 8 | .u4 => 9 | .u8 => 10
  | .em48 => 11 | .fx128 => 12

def allTypes : List ElemType := [.fp32, .bf16, .fp16, .e4m3, .e5m2, .int8, .int16, .int32, .u32, .u4, .u8, .em48, .fx128]

/-- The type of a code; none for a code not listed. -/
def elemType? (n : Nat) : Option ElemType := allTypes[n]?

def elemType (n : Nat) : ElemType := (elemType? n).getD .fp32

/-- Bits of an element (Table 07-1). -/
def ElemType.bits : ElemType → Nat
  | .fp32 | .int32 | .u32 => 32 | .bf16 | .fp16 | .int16 => 16 | .e4m3 | .e5m2 | .int8 | .u8 => 8 | .u4 => 4 | .em48 => 48 | .fx128 => 128

/-- The IEEE-like types. -/
def ElemType.isFloat : ElemType → Bool
  | .fp32 | .bf16 | .fp16 | .e4m3 | .e5m2 | .em48 => true
  | _ => false

def ElemType.isFp8 : ElemType → Bool
  | .e4m3 | .e5m2 => true
  | _ => false

/-- Types whose tiles carry a scale: FP8 and INT8 (R145). -/
def ElemType.scaled : ElemType → Bool
  | .e4m3 | .e5m2 | .int8 => true
  | _ => false

/-- Integer types (R197). -/
def ElemType.isInt : ElemType → Bool
  | .int8 | .int16 | .int32 | .u8 | .u32 => true
  | _ => false

/-- Fraction bits of a float type (Table 10-1). -/
def ElemType.frac : ElemType → Nat
  | .fp32 => 23 | .bf16 => 7 | .fp16 => 10 | .e4m3 => 3 | .e5m2 => 2 | .em48 => 39 | _ => 0

/-- Exponent bias (Table 10-1). -/
def ElemType.bias : ElemType → Nat
  | .fp16 | .e5m2 => 15 | .e4m3 => 7 | _ => 127

/-- Exponent field bits. -/
def ElemType.expBits (t : ElemType) : Nat := t.bits - 1 - t.frac

/-- Bits of the largest finite magnitude (Table 10-1). -/
def ElemType.maxBits (t : ElemType) : Nat := if t = .e4m3 then 0x7E else (2 ^ t.expBits - 1) * 2 ^ t.frac - 1

/-- The quiet NaN written (Table 10-1). -/
def ElemType.nanBits (t : ElemType) : Nat := if t = .e4m3 then 0x7F else (2 ^ t.expBits - 1) * 2 ^ t.frac + 2 ^ (t.frac - 1)

/-- An exact value: `fin` is ±(num / den) × 2^exp with num and den positive. -/
inductive Val where
  | nan
  | inf (neg : Bool)
  | zero (neg : Bool)
  | fin (neg : Bool) (num den : Nat) (exp : Int)
  deriving DecidableEq, Repr

/-- The value of an integer. -/
def Val.ofInt (i : Int) : Val := if i = 0 then .zero false else .fin (decide (i < 0)) i.natAbs 1 0

/-- An integer times a power of two. -/
def Val.scaledInt (i : Int) (e : Int) : Val := if i = 0 then .zero false else .fin (decide (i < 0)) i.natAbs 1 e

/-- Decode a float element (R196, Table 10-1). -/
def decodeFloat (t : ElemType) (b : Nat) : Val :=
  let f := t.frac
  let neg := b.testBit (t.bits - 1)
  let e := (b >>> f) % 2 ^ t.expBits
  let m := b % 2 ^ f
  let top := 2 ^ t.expBits - 1
  if t = .e4m3 ∧ e = top ∧ m = 7 then .nan
  else if t ≠ .e4m3 ∧ e = top then (if m = 0 then .inf neg else .nan)
  else if e = 0 then (if m = 0 then .zero neg else .fin neg m 1 (1 - (t.bias : Int) - f))
  else .fin neg (2 ^ f + m) 1 ((e : Int) - t.bias - f)

/-- Decode an element to its exact value, scales apart (R180, R197). FX128 is decoded by its ledger window. -/
def decodeElem (t : ElemType) (b : Nat) : Val :=
  match t with
  | .fp32 | .bf16 | .fp16 | .e4m3 | .e5m2 | .em48 => decodeFloat t b
  | .int8 => .ofInt (signed 8 b)
  | .int16 => .ofInt (signed 16 b)
  | .int32 => .ofInt (signed 32 b)
  | .u4 | .u8 | .u32 => .ofInt b
  | .fx128 => .ofInt (signed 128 b)

/-- Multiply by a power of two. -/
def Val.shift (v : Val) (k : Int) : Val :=
  match v with
  | .fin n a d e => .fin n a d (e + k)
  | v => v

def Val.neg : Val → Val
  | .nan => .nan
  | .inf n => .inf (!n)
  | .zero n => .zero (!n)
  | .fin n a d e => .fin (!n) a d e

def Val.abs : Val → Val
  | .nan => .nan
  | .inf _ => .inf false
  | .zero _ => .zero false
  | .fin _ a d e => .fin false a d e

def Val.isNeg : Val → Bool
  | .nan => false
  | .inf n | .zero n | .fin n _ _ _ => n

def Val.isFinite : Val → Bool
  | .zero _ | .fin _ _ _ _ => true
  | _ => false

/-- The signed integer of a finite value over a common scale: numerator over d × 2^-e, at exponent e and denominator d. -/
def Val.at (v : Val) (d : Nat) (e : Int) : Int :=
  match v with
  | .fin n a den ex => let m : Int := ((a * (d / den) * 2 ^ (ex - e).toNat : Nat) : Int); if n then -m else m
  | _ => 0

def Val.den : Val → Nat
  | .fin _ _ d _ => d
  | _ => 1

def Val.exp : Val → Int
  | .fin _ _ _ e => e
  | _ => 0

/-- Exact sum (R181). A zero sum of unlike signs is +0. -/
def Val.add (a b : Val) : Val :=
  match a, b with
  | .nan, _ => .nan
  | _, .nan => .nan
  | .inf m, .inf n => if m = n then .inf m else .nan
  | .inf m, _ => .inf m
  | _, .inf n => .inf n
  | .zero m, .zero n => .zero (m && n)
  | .zero _, v => v
  | v, .zero _ => v
  | x, y =>
    let e := min x.exp y.exp
    let d := x.den * y.den
    let s := x.at d e + y.at d e
    if s = 0 then .zero false else .fin (decide (s < 0)) s.natAbs d e

def Val.sub (a b : Val) : Val := a.add b.neg

/-- Exact product. -/
def Val.mul (a b : Val) : Val :=
  match a, b with
  | .nan, _ => .nan
  | _, .nan => .nan
  | .inf m, .zero _ => let _ := m; .nan
  | .zero _, .inf _ => .nan
  | .inf m, v => .inf (m != v.isNeg)
  | v, .inf n => .inf (n != v.isNeg)
  | .zero m, v => .zero (m != v.isNeg)
  | v, .zero n => .zero (n != v.isNeg)
  | .fin m x d e, .fin n y c f => .fin (m != n) (x * y) (d * c) (e + f)

/-- Exact quotient, with IEEE 754 special cases. -/
def Val.div (a b : Val) : Val :=
  match a, b with
  | .nan, _ => .nan
  | _, .nan => .nan
  | .inf _, .inf _ => .nan
  | .zero _, .zero _ => .nan
  | .inf m, v => .inf (m != v.isNeg)
  | v, .inf n => .zero (n != v.isNeg)
  | .zero m, v => .zero (m != v.isNeg)
  | v, .zero n => .inf (n != v.isNeg)
  | .fin m x d e, .fin n y c f => .fin (m != n) (x * c) (d * y) (e - f)

/-- Order of two values that are not NaN; zeros are equal. -/
def Val.lt (a b : Val) : Bool :=
  match a, b with
  | .nan, _ => false
  | _, .nan => false
  | .inf m, .inf n => m && !n
  | .inf m, _ => m
  | _, .inf n => !n
  | x, y =>
    let e := min x.exp y.exp
    let d := x.den * y.den
    decide (x.at d e < y.at d e)

def Val.eq (a b : Val) : Bool :=
  match a, b with
  | .nan, _ => false
  | _, .nan => false
  | a, b => !a.lt b && !b.lt a

def Val.le (a b : Val) : Bool := a.lt b || a.eq b

/-- `MIN` (R181): NaN if either is, −0 below +0. -/
def Val.min (a b : Val) : Val :=
  match a, b with
  | .nan, _ => .nan
  | _, .nan => .nan
  | a, b => if a.lt b then a else if b.lt a then b else if a.isNeg then a else b

def Val.max (a b : Val) : Val :=
  match a, b with
  | .nan, _ => .nan
  | _, .nan => .nan
  | a, b => if a.lt b then b else if b.lt a then a else if a.isNeg then b else a

/-- Decode FP32 bits. -/
def f32 (b : Nat) : Val := decodeFloat .fp32 b

/-- Decode an FX128 element under its window exponent w: the weight of bit 0 is 2^(w − 96) (R104, R192). -/
def fxDecode (w : Int) (b : Nat) : Val := if b = 2 ^ 127 then .nan else .scaledInt (signed 128 b) (w - 96)

/-- Decode an element under the scales applied to it (R180): d × 2^(s − 127) for an FP8 or INT8 element with one, d × 2^(s1 + s2 − 254) for an INT32 element with
two; every other element is its value. -/
def decodeScaled (t : ElemType) (scales : List Int) (b : Nat) : Val :=
  if t.scaled || (t == .int32 && scales.length == 2) then scales.foldl Val.shift (decodeElem t b) else decodeElem t b

end Sys2Proof.Machine
end

