-- ==== Sys2Proof/Machine/Parts/Code.lean ====
section
/-!
DEFINITION. Programs as data: descriptors, loop registers, carrel ranges, and the sample summary (03_tiles, 04_sampler).
-/
namespace Sys2Proof.Machine
open Sys2Proof

/-- A descriptor: 512 bits (R50). -/
structure Desc where
  w : Nat
  deriving DecidableEq, Repr

/-- One program (R48). -/
structure Program where
  role : Nat
  carrel : Nat
  slips : Nat
  descs : List Desc
  deriving DecidableEq, Repr

/-- The loop registers of an instance (R60). -/
abbrev Regs := List Nat

/-- A carrel range an instance touches: first granule in the region, granules, and whether it is written. -/
structure Range where
  first : Nat
  len : Nat
  write : Bool
  deriving DecidableEq, Repr

/-- The sample summary (Table 04-5), as logged: what the `LOOP` counts draw on. -/
structure Summary where
  piece : Nat
  first : Nat
  seedCount : Nat
  last : Bool
  n : List Nat
  e : List Nat
  t : List Nat
  deriving DecidableEq, Repr


end Sys2Proof.Machine
end

