-- ==== Sys2Proof/Machine/Parts/Work.lean ====
section
/-!
DEFINITION. Steps in flight, work items, call slips, ledgers and tiles (03_tiles, 05_call_slips, 10_numerics, 12_pipeline).
-/
namespace Sys2Proof.Machine
open Sys2Proof

/-- The name of a work item (R50, R51). `endPass` marks the step-end pass, which counts as micro-batch 0, piece 0 (R59). -/
structure WorkId where
  slot : Nat
  step : Nat
  mb : Nat
  piece : Nat
  role : Nat
  group : Nat
  endPass : Bool
  /-- it is a backward item of its stage, where a role serves both directions (R241) -/
  back : Bool
  deriving DecidableEq, Repr

/-- A row segment a `GATHER` or `SCATTER` instance has still to ask for, or has asked for (R89, R93). -/
structure SlipReq where
  /-- row of the instance, from 0, and the space's row index; none where it lies out of table (R101) -/
  row : Nat
  index : Option Nat
  /-- it lies out of table: its slip is `ZEROED` at issue (R90, R101) -/
  out : Bool
  /-- segment of the stored image, the columns it covers and the position that is home to them -/
  seg : Nat
  first : Nat
  count : Nat
  home : Nat
  deriving DecidableEq, Repr

/-- An instance in flight (R52). -/
structure Inst where
  pos : Nat
  regs : Regs
  kind : Nat
  seq : Nat
  /-- carrel granules it touches, and whether it writes them -/
  ranges : List Range
  /-- slips still to issue (R93) -/
  reqs : List SlipReq
  /-- ready to complete: `GATHER`, `SCATTER`, `WAIT` and `SIGNAL` are not until their event -/
  ready : Bool
  /-- a `SIGNAL`'s targets not yet delivered to, and the step and micro-batch it addresses (R56, R59) -/
  targets : List Nat
  /-- order of issue on its tile -/
  ord : Nat
  deriving DecidableEq, Repr

/-- One enclosing loop under way: position, iterations left after the current one. -/
structure LoopAt where
  pos : Nat
  left : Nat
  deriving DecidableEq, Repr

/-- A work item on a tile. -/
structure Work where
  id : WorkId
  /-- program slot of the tile, 0 or 1, and the program it runs -/
  half : Nat
  prog : Nat
  pos : Nat
  regs : Regs
  loops : List LoopAt
  flying : List Inst
  /-- kind of rerun: effects delivered before are not sent again (R63, R108, R207) -/
  rerun : Bool
  /-- tensor key whose scatters alone take effect in a ledger raise's rerun (R108) -/
  only : Option (Nat × Nat)
  /-- effects delivered so far, by `SEQ`, loop registers, and 0 or 1 + 8 × row + segment of a scatter's slip (R63) -/
  delivered : List (Nat × Regs × Nat)
  /-- order of issue of the latest instance of each position (R52) -/
  latest : List (Nat × Nat) := []
  deriving DecidableEq, Repr

/-- A work item that is to run again and waits for a place on its tile (R51, R63). -/
structure Rerun where
  id : WorkId
  tile : Nat
  only : Option (Nat × Nat)
  delivered : List (Nat × Regs × Nat)
  deriving DecidableEq, Repr

/-- A role map entry that a rebalance has changed for a step: the tile, with the word and the count of changes the step was bound with (R245). -/
structure Moved where
  tile : Nat
  word : Nat
  epoch : Nat
  deriving DecidableEq, Repr

/-- States of a slip (Table 05-1). -/
inductive SlipState where
  | free | issued | partly | done | fenced | zeroed
  deriving DecidableEq, Repr

/-- A call slip (R89, Table 05-2). -/
structure Slip where
  state : SlipState
  work : WorkId
  pos : Nat
  regs : Regs
  seq : Nat
  scatter : Bool
  space : Nat
  id : Nat
  /-- row of the instance and the space's row -/
  at' : Nat
  row : Nat
  seg : Nat
  first : Nat
  count : Nat
  granules : Nat
  landed : Nat
  /-- first granule of its instance's range, and of its own -/
  carrel : Nat
  granule : Nat
  /-- 0 unresolved; 1 shelf; 2 near; 3 far; 4 peer; 5 annex; 6 ledger -/
  source : Nat
  remote : Bool
  peer : Nat
  deriving DecidableEq, Repr

/-- A ledger element (R104, R107): the exact integer and the sticky flags. -/
structure LedgerElem where
  sum : Int
  pos : Bool
  neg : Bool
  nan : Bool
  deriving DecidableEq, Repr

/-- One row segment's ledger (R106): where it lies, and its elements by column. -/
structure LedgerRow where
  row : Nat
  seg : Nat
  near : Bool
  elems : List (Nat × LedgerElem)
  deriving DecidableEq, Repr

/-- The ledger of a tensor or table in a step (R104, R116), keyed by space and id. -/
structure Ledger where
  space : Nat
  id : Nat
  /-- raises so far -/
  k : Nat
  rows : List LedgerRow
  /-- an addend or a partial lay outside the range (R108) -/
  excess : Bool
  /-- positions that have reported in range, and whether any has reported a raise (R108) -/
  reported : List Nat
  raising : Bool
  inRange : Bool
  /-- this position's share of it has been sent (R322) -/
  shared : Bool
  /-- messages of a `SLICE` share or sum received so far, by sender (R322) -/
  parts : List (Nat × Nat)
  deriving DecidableEq, Repr

/-- A row segment staged for another position (R111): the first addend rows, their count, and the sum. -/
structure Staged where
  owner : Nat
  space : Nat
  id : Nat
  row : Nat
  seg : Nat
  count : Nat
  /-- each of the first rows with its `SRC_TYPE` -/
  raws : List (Bool × List (Nat × Nat))
  elems : List (Nat × LedgerElem)
  /-- where it lies (R106) -/
  near : Bool
  sent : Bool
  deriving DecidableEq, Repr

/-- Additions accepted by a memory controller and not yet made (R106): columns with FP32 bits, or exact partial elements. -/
structure Addition where
  space : Nat
  id : Nat
  row : Nat
  seg : Nat
  raws : List (Nat × Nat)
  partials : List (Nat × LedgerElem)
  /-- position it is staged for; none when this position owns it -/
  owner : Option Nat
  bf16 : Bool
  /-- it opens a new addend row of its segment -/
  first : Bool
  deriving DecidableEq, Repr

/-- Counts over the writes of a tensor by one work item that take effect (R202 to R204). -/
structure HealthPart where
  tensor : Nat
  work : WorkId
  elements : Nat
  zeros : Nat
  saturated : Nat
  nonfinite : Nat
  amax : Val
  pruned : Int
  prunedBad : Bool
  deriving DecidableEq, Repr

/-- A layer's check for a micro-batch (R206 to R208): the rung, whether it has passed, whether it was released non-finite. -/
structure LayerCheck where
  layer : Nat
  mb : Nat
  rung : Nat
  passed : Bool
  nonfinite : Bool
  deriving DecidableEq, Repr

/-- A piece as formed and logged (R84, R85). -/
structure PieceRec where
  mb : Nat
  summary : Summary
  deriving DecidableEq, Repr

/-- A signal held by the module (R59, R206): who sent it, what it raises. -/
structure HeldSignal where
  src : WorkId
  srcTile : Nat
  /-- program slot it is sent from -/
  half : Nat
  pos : Nat
  regs : Regs
  desc : Desc
  ord : Nat
  toStep : Nat
  toMb : Int
  deriving DecidableEq, Repr

/-- What a step's update has come to, by layer; a table is the layer 4,096 + its id (R218, R219). -/
structure LayerUpdate where
  layer : Nat
  started : Bool
  released : Bool
  /-- parts of units updated, by (kind, unit, rank) (R234) -/
  done : List (Nat × Nat × Nat)
  /-- units that are not updated in the step: frozen, unnamed, or skipped for a non-finite gradient (R232, R233) -/
  skip : List (Nat × Nat)
  /-- `ORTH`: new m and direction of each parameter, row by row (R228) -/
  orth : List (Nat × List (List Val) × List (List Val))
  deriving DecidableEq, Repr

/-- A step accepted and not yet completed (R24 to R29). -/
structure StepRec where
  num : Nat
  accept : Nat
  asker : Asker
  /-- seeds with their times, by micro-batch (R25, R283) -/
  seeds : List (List (Nat × Nat))
  timed : Bool
  /-- the binding set: RWQ entries, editions, role map of the job's tiles (R29, R46) -/
  bind : List (Nat × DVal)
  editions : List (Nat × Nat)
  roles : List (Nat × Nat)
  pieces : List PieceRec
  /-- micro-batches whose last piece has been formed -/
  formed : List Nat
  /-- work items dispatched, with their tile, and those completed -/
  dispatched : List (WorkId × Nat)
  completed : List WorkId
  ledgers : List Ledger
  staged : List Staged
  adds : List Addition
  parts : List HealthPart
  checks : List LayerCheck
  /-- tiles that hold the work of a micro-batch in a role and group once a signal has named them (R56, R59) -/
  bound : List ((Nat × Nat × Nat) × Nat)
  updates : List LayerUpdate
  /-- rows gathered, by table and row (R126), on this position -/
  gathered : List (Nat × Nat)
  /-- positions whose end-of-contributions is in, and whether ours is sent (R33, R320) -/
  ended : List Nat
  ownEnd : Bool
  /-- messages of the step sent to each peer, those received from each, and the count a peer's marker carries (R320) -/
  sentTo : List (Nat × Nat)
  counts : List (Nat × Nat)
  promised : List (Nat × Nat)
  /-- parameters of other positions whose new working copy has arrived (R326) -/
  copies : List Nat
  /-- tensors whose writes are all in: amax appended (R202) -/
  scaled : List Nat
  /-- flags of its health record by tensor: seeded, rescaled, frozen (Table 10-5) -/
  seeded : List Nat
  rescaled : List Nat
  frozen : List Nat
  /-- stored tiles with `INDEX_RANGE` decoded so far (R155) -/
  rangeTiles : List TileKey
  /-- an out-of-table index occurred (R102); a layer was released non-finite (R208) -/
  outOfTable : Bool
  nonfinite : Bool
  /-- waits for space or annex beyond their marks (R98, R256) -/
  stalled : Bool
  /-- effects that completed work items delivered (R63, R207) -/
  effects : List (WorkId × List (Nat × Regs × Nat))
  /-- handoffs sent: stage they left, direction, micro-batch, piece (R241) -/
  handed : List (Nat × Bool × Nat × Nat)
  /-- handoffs received: stage, direction, micro-batch, piece (R241) -/
  handoffs : List (Nat × Bool × Nat × Nat)
  /-- the watch and the refresh that follow its update are done (R127, R209) -/
  watched : Bool
  /-- `ZERO_RUN` of each recorded tensor after this step, once watched (R209) -/
  runs : List (Nat × Nat) := []
  refreshed : Bool
  /-- its completion record is in the log -/
  recorded : Bool
  /-- reruns for poison, by work item and location (R348) -/
  poisonRuns : List ((WorkId × Nat) × Nat)
  /-- instances that wait at issue for space, by work item, position and loop registers, with the bytes each seeks (R256) -/
  spaceWait : List ((WorkId × Nat × Regs) × Nat)
  /-- what its work items have counted, by work item, `SEQ` and entry: an attempt whose effects are undone takes its counts with it (R63, R428) -/
  tallies : List ((WorkId × Nat × Nat) × Nat)
  /-- place among the steps accepted by the module, of any job (R46) -/
  order : Nat := 0
  /-- count of changes of each tile's role map entry, as bound (R46, R47) -/
  epochs : List (Nat × Nat) := []
  /-- entries a rebalance has changed for the step (R245) -/
  moved : List Moved := []
  /-- work items that wait for a place to run again (R51, R63) -/
  again : List Rerun := []
  deriving DecidableEq, Repr

/-- A logical tile (R40, R47, R55, R62). -/
structure Tile where
  /-- physical tile within its die -/
  phys : Nat
  lost : Bool := false
  /-- quarantined: the spare is being filled (R62) -/
  retiring : Option (Nat × Nat) := none
  works : List Work := []
  /-- program slot now running (R61) -/
  half : Nat := 0
  /-- result tiles for the vector engine, oldest first: the first 16 in the slots of the accumulator file, the rest of bands that wait for one (R170) -/
  queue : List (List Nat) := []
  /-- signal-board counts by program slot, phase, counter and micro-batch, non-zero ones (R55) -/
  board : List ((Nat × Nat × Nat × Nat) × Nat) := []
  /-- slips not `FREE`, by number (R89) -/
  slips : List (Nat × Slip) := []
  /-- role map word in force for its carrel and board (R46, R47) -/
  bound : Nat := 0
  /-- waits for a weight tile under way: work item, position, loop registers (R248) -/
  late : List (WorkId × Nat × Regs) := []
  /-- work items run since the last passing self-check (R64) -/
  unchecked : List WorkId := []
  /-- work items run in succession from the running program slot since it last switched (R61) -/
  streak : Nat := 0
  /-- work item whose result tiles stand in the queue (R171) -/
  queueBy : Option WorkId := none
  /-- order of issue of the next instance -/
  nextOrd : Nat := 0
  /-- changes of the role map entry, and the count of them its carrel and board stand for (R47) -/
  epoch : Nat := 0
  boundEpoch : Nat := 0
  deriving DecidableEq, Repr

end Sys2Proof.Machine
end

