-- ==== Sys2Proof/Machine/Parts/Job.lean ====
section
/-!
DEFINITION. A job and what it holds: its records, tables, parameters, annex calls, steps, results, log and Deposit (02_step_model, 05_call_slips,
06_embedding, 10_numerics, 11_update, 14_host_interface, 19_recovery).
-/
namespace Sys2Proof.Machine
open Sys2Proof

/-- Where a job stands (R22, R280, R281, R376). -/
inductive JobState where
  /-- accepts every command -/
  | running
  /-- opened with `RESTORE`, waiting for its import (R280) -/
  | restoring
  /-- a `JOB_CLOSE` was accepted at this acceptance index; `asker` is absent for a close by hold time or self-fencing -/
  | closing (accept : Nat) (asker : Option Asker) (silent : Bool)
  /-- its recovery is impossible (R376) -/
  | exhausted
  deriving DecidableEq, Repr

/-- A record of the Accession Log (R359, Tables 19-1 and 19-2). -/
structure LogRec where
  kind : Nat
  opcode : Nat
  mb : Nat
  step : Nat
  accept : Nat
  body : List Byte
  offset : Nat
  /-- it has been sent to the buddy -/
  mirrored : Bool
  committed : Bool
  /-- numerics generation it was written under (R37) -/
  gen : Nat := 0
  deriving DecidableEq, Repr

/-- A catalogue (R66 to R69). Its tiles stand in the directory. -/
structure GraphRec where
  id : Nat
  nodes : Nat
  edges : Nat
  pinned : Bool
  sections : List Nat
  isSealed : Bool
  deriving DecidableEq, Repr

/-- A feature tensor (R282). -/
structure FeatureRec where
  id : Nat
  graph : Nat
  elem : Nat
  width : Nat
  accept : Nat
  deriving DecidableEq, Repr

/-- A table row with its meta granule and state, as read or held (Table 06-4, R230). -/
structure RowData where
  cls : Nat
  elems : List Nat
  scale : Nat
  a : Nat
  b : Nat
  touch : Nat
  /-- `RULE_STATE` -/
  rule : Nat
  m : List Nat
  v : List Nat
  /-- `m` and `v` are BF16 and not FP32 (R230) -/
  mbf : Bool := false
  deriving DecidableEq, Repr

/-- A staged row (R132, R134): whether its load set `STATE`. -/
structure StagedRow where
  row : Nat
  data : RowData
  state : Bool
  deriving DecidableEq, Repr

/-- A table (R117 to R119, R132, R138). Its pages stand in the directory, keyed by the edition that made them. -/
structure Table where
  id : Nat
  accept : Nat
  grad : Nat
  hot8 : Nat
  hot16 : Nat
  hot32 : Nat
  positions : List Nat
  group : Nat
  rows : Nat
  width : Nat
  narrowest : Nat
  widest : Nat
  init : Nat
  placement : Nat
  /-- current edition, and the previous one while live -/
  edition : Nat
  previous : Option Nat
  /-- pages an edition replaced -/
  replaced : List (Nat × Nat)
  /-- class of pages that differs from `INIT_CLASS`, by edition and page -/
  classes : List ((Nat × Nat) × Nat)
  /-- moments stored per element of a page, and whether they are BF16, by edition and page (R230) -/
  layouts : List ((Nat × Nat) × (Nat × Bool)) := []
  /-- annex-held pages, each by the edition whose copy it is (R134, R267) -/
  annex : List (Nat × Nat)
  /-- staging area: pages with their class, and rows (R132) -/
  stagedPages : List (Nat × Nat)
  staged : List StagedRow
  /-- a publish is deferred (R136) -/
  deferred : Bool
  deriving DecidableEq, Repr

/-- A row on the shelf (R129, R130). -/
structure ShelfRow where
  table : Nat
  edition : Nat
  row : Nat
  data : RowData
  dirty : Bool
  /-- a refresh has removed it, and it stays until slips that it serves are done (R113) -/
  leaving : Bool := false
  deriving DecidableEq, Repr

/-- A dense parameter (R217): its record, and rows of master, m and v, zero where not listed. -/
structure Param where
  rec' : Nat
  master : List (Nat × List Nat)
  m : List (Nat × List Nat)
  v : List (Nat × List Nat)
  deriving DecidableEq, Repr

/-- The entry of a row in an annex call (R97, R284). -/
structure CallRow where
  row : Nat
  cls : Nat
  segFirst : Nat
  segCount : Nat
  supplied : Bool
  deriving DecidableEq, Repr

/-- An annex call (R97 to R99). `sends` is 0 while it is open. -/
structure Call where
  id : Nat
  table : Nat
  edition : Nat
  rows : List CallRow
  sends : Nat
  stalled : Bool
  /-- steps that waited on it -/
  steps : List Nat
  deriving DecidableEq, Repr

/-- An annex row held (R100): the call that supplied it, the steps that gathered it, and whether an update changed it. -/
structure HeldRow where
  call : Nat
  table : Nat
  edition : Nat
  row : Nat
  data : RowData
  steps : List Nat
  changed : Bool
  /-- the `RETURN`s that name it and are not acknowledged -/
  returns : List Nat
  /-- edition that the step which last changed it was bound to -/
  bound : Nat
  deriving DecidableEq, Repr

/-- The watch of a recorded tensor (R201, R202, R209 to R211): exponents by step, history newest last, zero run. -/
structure Watch where
  tensor : Nat
  exps : List (Nat × Int)
  history : List Val
  zeroRun : Nat
  /-- rescaling has reached its limit and waits for the run to return to 0 -/
  limited : Bool
  deriving DecidableEq, Repr

/-- A result image (R285, R286): byte ranges delivered before. -/
structure Result where
  step : Nat
  image : List Byte
  delivered : List (Nat × Nat)
  deriving DecidableEq, Repr

/-- A copy kept for a peer (R112, R362). -/
structure Retained where
  dst : Nat
  kind : Nat
  step : Nat
  bytes : List Byte
  deriving DecidableEq, Repr

/-- A `PARAM_WRITE`, `TABLE_LOAD` or `FEATURE_LOAD` accepted and not yet in effect, or a `PARAM_READ` not yet answered (R31, R133). -/
structure Deferred where
  accept : Nat
  asker : Asker
  opcode : Nat
  payload : List Byte
  /-- last step accepted before it, whose update it follows -/
  after : Option Nat
  /-- the edition that was current when it was accepted: the one a load with target `CURRENT` writes (R133) -/
  edition : Nat
  deriving DecidableEq, Repr

/-- What persists of a job and a Deposit holds (R363). -/
structure JobBody where
  graphs : List GraphRec
  features : List FeatureRec
  tables : List Table
  shelf : List ShelfRow
  shelfSet : List (Nat × Nat)
  suggestions : List (Nat × Nat)
  params : List Param
  held : List HeldRow
  calls : List Call
  nextCall : Nat
  watches : List Watch
  results : List Result
  dict : List (Nat × DVal)
  /-- acceptance indices of the writes of group rows, by entry (R223) -/
  rowWrites : List (Nat × Nat)
  /-- groups the watch has frozen after the last step accepted: written when the next is accepted (R223) -/
  freezes : List Nat
  /-- health records of the last completed step, by tensor (R205) -/
  health : List (Nat × List Byte)
  /-- counters accumulated by steps not yet completed, added to the entries when the step completes (R428): by step and entry -/
  counters : List ((Nat × Nat) × Nat)
  /-- next step number expected (R23), and last step completed -/
  nextStep : Nat
  lastDone : Option Nat
  deriving DecidableEq, Repr

/-- A Deposit of a job (R363 to R365): identifier, step it closes, log offset it covers, and contents. `committed` once the buddy has acknowledged it. -/
structure Deposit where
  id : Nat
  step : Option Nat
  cut : Nat
  accepted : Nat
  body : JobBody
  tiles : List StoredTile
  /-- retained sends then held (R362, R364) -/
  retained : List Retained
  committed : Bool
  /-- commands accepted by then whose effect was still to come, and steps accepted by then and not completed, as bound -/
  waiting : List Deferred := []
  steps : List StepRec := []
  deriving DecidableEq, Repr

/-- A response formed only when its room can be reserved: a fragment of a `RETURN`, or a `DEPOSIT_CHUNK` (R291). `last` is the asker to complete after it,
with the payload of its completion. -/
structure Fragment where
  session : Nat
  rsp : Response
  last : Option (Asker × List Byte)
  deriving DecidableEq, Repr

/-- A job on this module (Table 02-1, R22, R28, R279). -/
structure Job where
  slot : Nat
  key : Nat
  /-- tenant identity it belongs to -/
  tenant : List Byte
  /-- session holding it; none while orphaned -/
  holder : Option Nat
  state : JobState
  queues : List Nat
  eventQueue : Nat
  positions : List Nat
  /-- its position on this module is fenced or filling, or it is being restored in place (R275, R373) -/
  fenced : Bool
  /-- acceptance index of the last accepted command (R28) -/
  accepted : Nat
  programs : List Program
  setId : Nat
  /-- tensor, layer and parameter records, pipeline, stage and branch records, as their words (Tables 10-3, 10-4, 11-1, 12-1 to 12-3) -/
  tensors : List Nat
  layers : List Nat
  pipeline : Option Nat
  stages : List Nat
  branches : List Nat
  /-- result tensors (R285) -/
  resultTensors : List Nat
  body : JobBody
  /-- Accession Log records held, in order, and the next `LOG_OFFSET` (R359) -/
  log : List LogRec
  logEnd : Nat
  steps : List StepRec
  /-- signals sent and not yet delivered, oldest first (R59, R206) -/
  signals : List HeldSignal
  deferred : List Deferred
  retained : List Retained
  /-- working copies of other positions still to come for steps that have completed here, by parameter and step (R326) -/
  owed : List (Nat × Nat)
  deposit : Option Deposit
  taking : Option Deposit
  /-- keeper seconds at which the last Deposit committed and the one under way began, and the seconds the last eight took (R367) -/
  depositAt : Nat
  takingAt : Nat
  costs : List Nat
  /-- an early Deposit is due (R363) -/
  early : Bool
  /-- the next Deposit is a full one (R369, R378) -/
  full : Bool
  /-- next chunk an import expects (R288) -/
  nextChunk : Nat
  /-- responses waiting for room (R291), in order -/
  fragments : List Fragment
  /-- last Deposit exported (R366) -/
  exported : Option Nat
  /-- shelf capacity in force, MiB (R129) -/
  shelfCap : Nat
  /-- a Deposit interval in steps or seconds as evaluated last (R367) -/
  interval : Nat
  /-- the job of a position whose place this module fills: its log is being replayed (R371, R372) -/
  filling : Bool := false
  /-- commands of that log not yet taken again, with the step ends between them -/
  replay : List LogRec := []
  /-- decisions of that log, taken from their records and never afresh (R38, R359) -/
  decisions : List LogRec := []
  /-- a row supplied again differs from its logged digest (R361, R376) -/
  unlike : Bool := false
  deriving DecidableEq, Repr

/-- What a position fills a job from (R371, R372, R375): the job as opened, its last committed Deposit, the role map entries that served it, and the committed
records of its log that the Deposit left. -/
structure FillImage where
  job : Job
  deposit : Deposit
  roles : List (Nat × Nat)
  log : List LogRec
  deriving DecidableEq, Repr

/-- The spare that takes a position, with what it fills the position's jobs from (R371). -/
structure SpareFill where
  spare : Nat
  images : List FillImage
  deriving DecidableEq, Repr

end Sys2Proof.Machine
end

