-- ==== Sys2Proof/Syntax.lean ====
section
/-!
DEFINITION. The commands and events of the block: one constructor per row of the opcode table.
-/
namespace Sys2Proof
open Sys2Proof.Machine

/-- A GDP frame as received (R409, Table 21-1). `tagOk` says whether its tag verifies, `now` the keeper time in ms. -/
structure GdpFrame where
  version : Nat
  typ : Nat
  service : Nat
  resOk : Bool
  lenOk : Bool
  session : Nat
  seq : Nat
  reqId : Nat
  index : Nat
  subindex : Nat
  offset : Nat
  length : Nat
  last : Bool
  data : List Byte
  tagOk : Bool
  now : Nat
  deriving DecidableEq, Repr

/-- How a dictionary write that has a row of its own arrives: as the command at the front of a queue, or as a GDP frame (R415). -/
inductive Via where
  | queue (q : Nat)
  | frame (f : GdpFrame)
  deriving DecidableEq, Repr

/-- The commands and events (spec/opcode_table.json). -/
inductive Instr where
  /-- JOB_OPEN (R279): Command that opens a fresh or restored job, checks its sections, assigns a job slot and binds its queues. -/
  | jobOpen (q : Nat)
  /-- JOB_RESUME (R280): JOB_OPEN with RESUME set, which binds the listed queues to an orphaned job of the same tenant identity. -/
  | jobResume (q : Nat)
  /-- JOB_CLOSE (R281): Command that closes a job: it waits for earlier commands, abandons stalled steps, then frees storage and tiles and destroys keys. -/
  | jobClose (q : Nat)
  /-- TABLE_CREATE (R138): Command that defines an embedding table with its placement, classes, thresholds and gradient tensor. -/
  | tableCreate (q : Nat)
  /-- TABLE_LOAD (R139): Command that writes row records into the current edition or into the staging area of a table. -/
  | tableLoad (q : Nat)
  /-- TABLE_LOAD_ANNEX (R139): TABLE_LOAD with ANNEX set, which marks whole row pages annex-held and frees their storage. -/
  | tableLoadAnnex (q : Nat)
  /-- EDITION_PUBLISH (R136): EDITION_PUBLISH in mode PUBLISH, which makes the staged pages a new edition or defers the publish. -/
  | editionPublish (q : Nat)
  /-- DISCARD (R136): EDITION_PUBLISH in mode DISCARD, which empties the staging area and cancels any deferred publish. -/
  | discard (q : Nat)
  /-- SHELF_REPLACE (R141): SHELF_SET in mode REPLACE, which empties the shelf set and then appends the entries. -/
  | shelfReplace (q : Nat)
  /-- SHELF_ADD (R141): SHELF_SET in mode ADD, which appends entries to the shelf set. -/
  | shelfAdd (q : Nat)
  /-- SHELF_REMOVE (R141): SHELF_SET in mode REMOVE, which deletes entries from the shelf set. -/
  | shelfRemove (q : Nat)
  /-- GRAPH_LOAD (R282): Command that loads one segment of catalogue tiles and seals the catalogue at its final segment. -/
  | graphLoad (q : Nat)
  /-- FEATURE_LOAD (R282): Command that creates a feature tensor or replaces its tiles. -/
  | featureLoad (q : Nat)
  /-- STEP_SUBMIT (R283): Command that submits a step's seed lists; at acceptance it is bound to its binding set and logged. -/
  | stepSubmit (q : Nat)
  /-- ROW_SUPPLY (R99): ROW_SUPPLY in mode SUPPLY, which delivers annex rows for an outstanding call and resumes waiting slips. -/
  | rowSupply (q : Nat)
  /-- ROW_SUPPLY_ACK (R284): ROW_SUPPLY in mode ACK, which acknowledges a complete RETURN so that held annex rows can be freed. -/
  | rowSupplyAck (q : Nat)
  /-- RESULT_READ (R286): Command that returns a range of a step's result image, or NOT_READY, STALLED or RANGE. -/
  | resultRead (q : Nat)
  /-- RESULT_RELEASE (R286): Command that frees a completed step's result image. -/
  | resultRelease (q : Nat)
  /-- PARAM_READ (R287): Command that returns rows of a parameter's master, state or working copy as ordered by R31. -/
  | paramRead (q : Nat)
  /-- PARAM_WRITE (R31): Command that replaces rows of a parameter's master or state at its acceptance point. -/
  | paramWrite (q : Nat)
  /-- DEPOSIT_EXPORT (R366): Command that writes the job's last committed Deposit as DEPOSIT_CHUNK responses under a fresh export key. -/
  | depositExport (q : Nat)
  /-- DEPOSIT_IMPORT (R288): Command that feeds Deposit chunks into a job opened with RESTORE and checks the manifest on the final import. -/
  | depositImport (q : Nat) (tagsOk signed : Bool) (gen : Nat) (tenant : List Byte) (d : Deposit)
  /-- DICT_READ (R289): DICT_ACCESS with OP READ, which returns an entry's value. -/
  | dictRead (q : Nat)
  /-- DICT_WRITE (R289): DICT_ACCESS with OP WRITE, which range-checks and writes an entry that has no row of its own. -/
  | dictWrite (q : Nat)
  /-- DICT_READ_BLOCK (R289): DICT_ACCESS with OP READ_BLOCK, which returns part of a DOMAIN entry. -/
  | dictReadBlock (q : Nat)
  /-- DICT_WRITE_BLOCK (R426): DICT_ACCESS with OP WRITE_BLOCK, which writes a piece of a DOMAIN entry; the entry takes its value when the block ends. -/
  | dictWriteBlock (q : Nat)
  /-- EVENT_ACK (R292): Command that removes acknowledged events from the event store counts of the session's queues. -/
  | eventAck (q : Nat)
  /-- NOP (R278): Command that has no effect except its COMPLETION. -/
  | nop (q : Nat)
  /-- DOORBELL (R273): Write of a queue's doorbell register, which marks a slot's packet ready and clears its SLOT_FREE bit. -/
  | doorbell (q value : Nat)
  /-- PACKET_TAKE (R275): The module takes a slot's packet once response-store room is reserved, then checks it and assembles chains. -/
  | packetTake (q : Nat) (plain : Option (List Byte))
  /-- RING_ENABLE (R273): Write that sets RING_ENABLE, which resets RING_HEAD and RING_TAIL and starts ring writes. -/
  | ringEnable (q value : Nat)
  /-- RING_HEAD (R291): Write of RING_HEAD, which frees ring entries so that waiting responses can be written. -/
  | ringHead (q value : Nat)
  /-- QUEUE_REGISTER_WRITE (R273): Write of a queue register without behaviour of its own, such as RING_BASE or RING_LOG2. -/
  | queueRegisterWrite (q off value : Nat)
  /-- RESPONSE_WRITE (R291): A waiting response is written to its host ring once the ring has room, payload lines first and header last. -/
  | responseWrite (q : Nat)
  /-- RING_FULL (R291): Expiry of each second that a response waits on a full enabled ring, which raises event 0x2202. -/
  | ringFull (q : Nat)
  /-- CHAIN_GAP_TIMEOUT (R274): Expiry of the chain gap timeout, which discards an open chain and completes it with TIMEOUT. -/
  | chainGapTimeout (q : Nat)
  /-- PERST_ASSERT (R271): PERST_N asserted or CXL link lost, which resets only the port's configuration, IDE keys and queue registers. -/
  | perstAssert
  /-- CXL_LINK_TRAINED (R468): The CXL port completes training after PERST_N is deasserted with PWR_GOOD high. -/
  | cxlLinkTrained (width rate : Nat)
  /-- LINK_DEGRADED (R269): The CXL link retrains to a narrower width or lower rate. -/
  | linkDegraded (width rate : Nat)
  /-- GET_VERSION (R388): SPDM request that is answered with the supported version 1.3. -/
  | getVersion
  /-- GET_CAPABILITIES (R388): SPDM request that is answered with the responder capabilities. -/
  | getCapabilities
  /-- NEGOTIATE_ALGORITHMS (R388): SPDM request that is answered with the supported algorithms. -/
  | negotiateAlgorithms
  /-- GET_DIGESTS (R382): SPDM request that is answered with the certificate chain digest of slot 0. -/
  | getDigests
  /-- GET_CERTIFICATE (R382): SPDM request that is answered with the slot 0 certificate chain, in chunks. -/
  | getCertificate (off len : Nat)
  /-- CHALLENGE (R388): SPDM challenge that is answered with an alias-key signature. -/
  | challenge
  /-- GET_MEASUREMENTS (R389): SPDM request that is answered with the signed measurement blocks. -/
  | getMeasurements (index : Nat)
  /-- KEY_EXCHANGE (R391): SPDM key exchange that starts a session and assigns the lowest free session id. -/
  | keyExchange
  /-- FINISH (R390): SPDM FINISH, which completes mutual authentication, decides the session's role and derives the packet keys. -/
  | finish (id : Nat) (ok : Bool)
  /-- END_SESSION (R393): SPDM END_SESSION, which ends the session, unbinds its queues and orphans its jobs. -/
  | endSession (id : Nat)
  /-- HEARTBEAT (R393): SPDM heartbeat that keeps a session alive. -/
  | heartbeat (id : Nat)
  /-- SPDM_KEY_UPDATE (R392): SPDM KEY_UPDATE, which changes only the keys of the SPDM secured messages. -/
  | spdmKeyUpdate (id : Nat)
  /-- SESSION_HEARTBEAT_EXPIRED (R393): No secured message for twice the heartbeat period, which ends the session. -/
  | sessionHeartbeatExpired (id : Nat)
  /-- BASE_RECORD_WRITE (R386): Write of the base record, which verifies it, claims the module or replaces the settings, and empties the delta record. -/
  | baseRecordWrite (record : BaseRecord) (sigOk : Bool)
  /-- DELTA_RECORD_COMMIT (R429): The signed delta record copy is written to flash, which completes pending RETAINED writes. -/
  | deltaRecordCommit
  /-- STANDBY_IMAGE_WRITE (R400): Block write of a firmware image into the standby slot, filled in place. -/
  | standbyImageWrite (v : Via)
  /-- VERIFY (R400): Switch command VERIFY, which checks the standby image by R385 and sets VERIFIED or REJECTED. -/
  | verify (v : Via) (chainOk sigOk digestOk : Bool)
  /-- ARM (R400): Switch command ARM, which arms a verified standby image for a live switch. -/
  | arm (v : Via)
  /-- CANCEL (R400): Switch command CANCEL, which returns an armed switch to VERIFIED. -/
  | cancel (v : Via)
  /-- FIRMWARE_SWITCH (R401): Once every open job is held at a step boundary, the module takes Deposits and hands control to the new image. -/
  | firmwareSwitch (startOk : Bool) (now : Nat)
  /-- ROLE_MAP_WRITE (R45): Write of a tile's role map entry by the job's session, checked and bound at its acceptance index. -/
  | roleMapWrite (q : Nat)
  /-- FABRIC_POSITION_WRITE (R313): Write of the fabric position, which applies at the next link-up, or at once on a self-fenced module. -/
  | fabricPositionWrite (v : Via)
  /-- WORK_ITEM_DISPATCH (R51): The module dispatches a work item of a role and group to one tile holding them. -/
  | workItemDispatch (tile half : Nat) (w : WorkId)
  /-- STEP_END_PASS (R50): The module starts the once-per-step pass in which only STEP_END descriptors run. -/
  | stepEndPass (tile half : Nat) (w : WorkId)
  /-- INSTANCE_COMPLETE (R42): An engine completes a descriptor issue, which frees its dependants for issue. -/
  | instanceComplete (tile : Nat) (w : WorkId) (ord : Nat)
  /-- SAMPLE (R84): SAMPLE descriptor that forms a piece, draws neighbours and writes blocks, maps and summary. -/
  | sample (tile : Nat) (w : WorkId)
  /-- GATHER (R93): GATHER descriptor that issues call slips to land rows in the carrel. -/
  | gather (tile : Nat) (w : WorkId)
  /-- SCATTER (R93): SCATTER descriptor that issues call slips adding carrel values into ledgers. -/
  | scatter (tile : Nat) (w : WorkId)
  /-- MATMUL (R167): MATMUL descriptor that computes a dense product on the matrix arrays. -/
  | matmul (tile : Nat) (w : WorkId)
  /-- SPMM (R169): SPMM descriptor that multiplies adjacency block tiles by carrel rows. -/
  | spmm (tile : Nat) (w : WorkId)
  /-- COPY (R181): VECTOR operation COPY. -/
  | copy (tile : Nat) (w : WorkId)
  /-- ADD (R181): VECTOR operation ADD. -/
  | add (tile : Nat) (w : WorkId)
  /-- SUB (R181): VECTOR operation SUB. -/
  | sub (tile : Nat) (w : WorkId)
  /-- MUL (R181): VECTOR operation MUL. -/
  | mul (tile : Nat) (w : WorkId)
  /-- FMA (R181): VECTOR operation FMA, rounded once. -/
  | fma (tile : Nat) (w : WorkId)
  /-- MIN (R181): VECTOR operation MIN. -/
  | min (tile : Nat) (w : WorkId)
  /-- MAX (R181): VECTOR operation MAX. -/
  | max (tile : Nat) (w : WorkId)
  /-- ABS (R181): VECTOR operation ABS. -/
  | abs (tile : Nat) (w : WorkId)
  /-- NEG (R181): VECTOR operation NEG. -/
  | neg (tile : Nat) (w : WorkId)
  /-- EXP (R183): VECTOR operation EXP. -/
  | exp (tile : Nat) (w : WorkId)
  /-- LOG (R183): VECTOR operation LOG. -/
  | log (tile : Nat) (w : WorkId)
  /-- RECIP (R183): VECTOR operation RECIP. -/
  | recip (tile : Nat) (w : WorkId)
  /-- SQRT (R183): VECTOR operation SQRT. -/
  | sqrt (tile : Nat) (w : WorkId)
  /-- RSQRT (R183): VECTOR operation RSQRT. -/
  | rsqrt (tile : Nat) (w : WorkId)
  /-- TANH (R183): VECTOR operation TANH. -/
  | tanh (tile : Nat) (w : WorkId)
  /-- SIGMOID (R183): VECTOR operation SIGMOID. -/
  | sigmoid (tile : Nat) (w : WorkId)
  /-- CMP_LT (R181): VECTOR compare a < b into a mask. -/
  | cmpLt (tile : Nat) (w : WorkId)
  /-- CMP_LE (R181): VECTOR compare a <= b into a mask. -/
  | cmpLe (tile : Nat) (w : WorkId)
  /-- CMP_EQ (R181): VECTOR compare a = b into a mask. -/
  | cmpEq (tile : Nat) (w : WorkId)
  /-- CMP_NE (R181): VECTOR compare a != b into a mask. -/
  | cmpNe (tile : Nat) (w : WorkId)
  /-- RSUM (R184): VECTOR reduction RSUM by the fixed tree. -/
  | rsum (tile : Nat) (w : WorkId)
  /-- RSUMSQ (R184): VECTOR reduction of exact squares. -/
  | rsumsq (tile : Nat) (w : WorkId)
  /-- RMAX (R184): VECTOR reduction RMAX. -/
  | rmax (tile : Nat) (w : WorkId)
  /-- RMIN (R184): VECTOR reduction RMIN. -/
  | rmin (tile : Nat) (w : WorkId)
  /-- RAMAX (R184): VECTOR reduction of the largest magnitude. -/
  | ramax (tile : Nat) (w : WorkId)
  /-- PERM (R186): VECTOR permutation within a pass, by U8 indices. -/
  | perm (tile : Nat) (w : WorkId)
  /-- BCAST (R186): VECTOR broadcast of one pass element. -/
  | bcast (tile : Nat) (w : WorkId)
  /-- VCOMPRESS (R187): VECTOR packing of masked elements, with the count written. -/
  | vcompress (tile : Nat) (w : WorkId)
  /-- VEXPAND (R187): VECTOR placement of packed elements at set mask bits. -/
  | vexpand (tile : Nat) (w : WorkId)
  /-- SOFTMAX_ROW (R213): SOFTMAX_BLOCK in mode ROW, over whole rows. -/
  | softmaxRow (tile : Nat) (w : WorkId)
  /-- SOFTMAX_STATS (R213): SOFTMAX_BLOCK in mode STATS, which folds one block into row states. -/
  | softmaxStats (tile : Nat) (w : WorkId)
  /-- SOFTMAX_APPLY (R213): SOFTMAX_BLOCK in mode APPLY, which recomputes probabilities from a final row state. -/
  | softmaxApply (tile : Nat) (w : WorkId)
  /-- CONVERT (R189): CONVERT descriptor that converts elements between types with one rounding. -/
  | convert (tile : Nat) (w : WorkId)
  /-- COMPRESS (R153): COMPRESS descriptor that converts tiles and stores each in the format the choice rule selects. -/
  | compress (tile : Nat) (w : WorkId)
  /-- UPDATE (R234): UPDATE descriptor that applies a unit's update rule to this tile's share of rows or pages. -/
  | update (tile : Nat) (w : WorkId)
  /-- WAIT (R58): WAIT descriptor that completes when a signal-board count reaches its threshold. -/
  | wait (tile : Nat) (w : WorkId)
  /-- SIGNAL (R56): SIGNAL descriptor that is issued after its dependencies and sends a count increment to its targets. -/
  | signal (tile : Nat) (w : WorkId)
  /-- LOOP (R60): LOOP descriptor that fixes a count and runs its body that many times. -/
  | loop (tile : Nat) (w : WorkId)
  /-- SIGNAL_DELIVER (R59): A held or travelling signal arrives at its targets and raises their counts, completing any satisfied WAIT. -/
  | signalDeliver (slot index pick : Nat)
  /-- WAIT_LONG (R58): Expiry of each wait report interval while a WAIT stays open. -/
  | waitLong (tile : Nat) (w : WorkId) (ord : Nat)
  /-- TILE_RETIRE (R62): A retirement trigger quarantines a tile and starts copying it to a spare on the same die. -/
  | tileRetire (tile reason errors : Nat)
  /-- SPARE_START (R63): The copy to the spare completes, and the spare reruns the abandoned work items with delivered effects suppressed. -/
  | spareStart (tile : Nat)
  /-- SELF_CHECK (R354): Expiry of the self-check interval, which inserts a self-check between work items. -/
  | selfCheck (tile : Nat) (ok : Bool)
  /-- SLIP_ISSUE (R92): A call slip is issued once a free slip and its reservations are available. -/
  | slipIssue (tile : Nat) (w : WorkId)
  /-- SLIP_LAND (R90): A granule of a slip lands or is accepted, which moves the slip to PARTIAL or DONE. -/
  | slipLand (tile n : Nat)
  /-- SLIP_REISSUE (R90): A FENCED slip is issued again to the new holder or to the spare. -/
  | slipReissue (tile n : Nat)
  /-- ROW_CALL_CLOSE (R97): An annex call closes 2 µs after its first row and is written to the job's ring. -/
  | rowCallClose (slot call : Nat)
  /-- ROW_CALL_RESEND (R98): Expiry of the 2 ms re-send timer, which sends the call again naming unsupplied rows. -/
  | rowCallResend (slot call : Nat)
  /-- ANNEX_STALLED (R98): Expiry 2 ms after the eighth re-send, which marks the step stalled. -/
  | annexStalled (slot call : Nat)
  /-- LEDGER_ADD (R106): A ledger unit adds an addend or partial into a ledger element. -/
  | ledgerAdd (slot step index : Nat)
  /-- LEDGER_RANGE_CHECK (R108): Once all contributions to a tensor are in, the position reports in range or raise and all positions act on the reports. -/
  | ledgerRangeCheck (slot step space id : Nat)
  /-- UPDATE_APPLY (R219): A layer's update starts when every contribution to its owned units is in. -/
  | updateApply (slot step layer : Nat)
  /-- LAYER_RELEASE (R219): Every UPDATE issue of a layer completes, so its results are released and working copies broadcast. -/
  | layerRelease (slot step layer : Nat)
  /-- STEP_COMPLETE (R17): A step completes once its updates are applied and its log record committed, in step order. -/
  | stepComplete (slot step : Nat)
  /-- REFRESH (R127): After the update of a refresh step, the module writes back the shelf, reassigns widths, halves TOUCH and loads the shelf. -/
  | refresh (slot step : Nat)
  /-- LAYER_CHECK (R206): A layer is checked for a micro-batch once every piece has written it, and its held signals are released or discarded. -/
  | layerCheck (slot step layer mb : Nat)
  /-- SCALE_UPDATE (R202): When every write of a tensor for a step has taken effect, its amax is appended and the next step's exponent fixed. -/
  | scaleUpdate (slot step tensor : Nat)
  /-- STUCK_ZERO_WATCH (R209): After each step the zero run is updated, and on reaching the threshold the stuck-zero policy is applied. -/
  | stuckZeroWatch (slot step : Nat)
  /-- BRANCH_REBALANCE (R245): After every rebalance interval, branch tile targets are recomputed and tiles moved between branches. -/
  | branchRebalance (slot vstage : Nat) (work : List (Nat × Nat))
  /-- SPACE_STALLED (R256): Expiry of one second of an issue waiting for space, which marks the step stalled. -/
  | spaceStalled (slot step : Nat)
  /-- POOL_EVICTION_PASS (R262): Pool occupancy exceeds the high watermark, so an eviction pass moves aged tiles to the far tier. -/
  | poolEvictionPass
  /-- PROMOTION (R263): A table page, prefetch or tensor trigger promotes far tiles into the pool. -/
  | promotion (kind die group step : Nat) (k : TileKey)
  /-- MOVE_COMMIT (R265): A migration copy commits once no read of the source is outstanding, and the source space is freed. -/
  | moveCommit (k : TileKey)
  /-- DMA_POST (R299): A hub function posts a DMA descriptor to one of its channels; an IMMEDIATE descriptor starts at once. -/
  | dmaPost (c : Nat) (d : DmaDesc)
  /-- DMA_TIMER (R299): Expiry of a TIMER descriptor's ticks, which starts the descriptor. -/
  | dmaTimer (c i : Nat)
  /-- DMA_COMPLETE (R299): A channel completes its descriptor, which starts descriptors waiting AFTER it. -/
  | dmaComplete (c : Nat)
  /-- DMA_ACCESS_FAULT (R302): A source or destination reports an access failure, so the channel halts. -/
  | dmaAccessFault (c kind direction burst : Nat)
  /-- BURST_TIMEOUT (R302): A burst goes unanswered for the burst timeout, so the channel halts. -/
  | burstTimeout (c direction burst : Nat)
  /-- DMA_AUTO_ACTION (R304): Expiry of the halt resolve delay, after which the keeper resumes, skips or aborts the halted channel. -/
  | dmaAutoAction (c bank row : Nat)
  /-- RESUME (R303): Channel control RESUME, which issues the failing burst again. -/
  | resume (v : Via)
  /-- SKIP (R303): Channel control SKIP, which writes the failing burst's destination poisoned and continues. -/
  | skip (v : Via)
  /-- ABORT (R305): Channel control ABORT, which ends the descriptor and lets its function act as Table 15-5 states. -/
  | abort (v : Via)
  /-- NULL (R311): NULL flit, which carries credits and acknowledgements. -/
  | null (p : Nat) (m : Msg)
  /-- HELLO (R313): HELLO flit of the hop handshake, carrying position, port and width. -/
  | hello (p position : Nat) (m : Msg)
  /-- ASSOC (R315): ASSOC flit, carrying an SPDM message of association set-up. -/
  | assoc (p peer identity : Nat) (chainOk : Bool) (version : Nat) (sameOperator : Bool)
  /-- E2E_ACK (R317): E2E_ACK flit, which releases send-store flits and reports freed landing granules. -/
  | e2eAck (p : Nat) (m : Msg) (tagOk : Bool) (now : Nat)
  /-- GATHER_REQ (R95): GATHER_REQ message, which asks the home to serve one row segment. -/
  | gatherReq (port : Nat) (m : Msg) (tagOk : Bool) (now : Nat)
  /-- GATHER_DATA (R92): GATHER_DATA message, which lands a segment's granules in the requester's reserved landing. -/
  | gatherData (port : Nat) (m : Msg) (tagOk : Bool) (now : Nat)
  /-- SCATTER_RAW (R111): SCATTER_RAW message, which carries raw addend rows to the owner. -/
  | scatterRaw (p : Nat) (m : Msg) (tagOk : Bool) (now : Nat)
  /-- SCATTER_PARTIAL (R111): SCATTER_PARTIAL message, which carries FX128 partial rows to the owner. -/
  | scatterPartial (p : Nat) (m : Msg) (tagOk : Bool) (now : Nat)
  /-- END_CONTRIB (R320): END_CONTRIB message, which marks a sender's contributions for a step complete once its counted messages arrive. -/
  | endContrib (port : Nat) (m : Msg) (tagOk : Bool) (now : Nat)
  /-- RANGE_REPORT (R108): RANGE_REPORT message, which reports in-range or raise for a tensor. -/
  | rangeReport (port : Nat) (m : Msg) (tagOk : Bool) (now : Nat)
  /-- REDUCE (R324): REDUCE message, which carries reduction chunks into the receiver's sum. -/
  | reduce (p : Nat) (m : Msg) (tagOk : Bool) (now : Nat)
  /-- BROADCAST (R326): BROADCAST message, which stores a parameter's working copy and passes it down the tree. -/
  | broadcast (p : Nat) (m : Msg) (tagOk : Bool) (now : Nat)
  /-- HANDOFF (R241): HANDOFF message, which delivers a pipeline activation or gradient and piece counts. -/
  | handoff (p : Nat) (m : Msg) (tagOk : Bool) (now : Nat)
  /-- LOG_MIRROR (R360): LOG_MIRROR message, which carries Accession Log records to the buddy. -/
  | logMirror (p : Nat) (m : Msg) (tagOk : Bool) (now : Nat)
  /-- DEPOSIT (R365): DEPOSIT message, which carries Deposit granules and the manifest to the buddy. -/
  | deposit (p : Nat) (m : Msg) (tagOk : Bool) (now : Nat)
  /-- PROBE (R368): LIVENESS PROBE, which is answered. -/
  | probe (port : Nat) (m : Msg) (tagOk : Bool) (now : Nat)
  /-- ANSWER (R368): LIVENESS ANSWER to a probe. -/
  | answer (port : Nat) (m : Msg) (tagOk : Bool) (now : Nat)
  /-- QUERY (R368): LIVENESS QUERY, which asks whether a silent position has been heard. -/
  | query (port : Nat) (m : Msg) (tagOk : Bool) (now : Nat)
  /-- QUERY_ANSWER (R368): LIVENESS QUERY_ANSWER to a query. -/
  | queryAnswer (port : Nat) (m : Msg) (tagOk : Bool) (now : Nat)
  /-- FENCE (R369): LIVENESS FENCE, which fences a position, is relayed once and settles its leases. -/
  | fence (port : Nat) (m : Msg) (tagOk : Bool) (now : Nat)
  /-- KEY_UPDATE (R318): KEY_UPDATE flit, which updates an association's key within the association. -/
  | keyUpdate (p : Nat) (m : Msg) (tagOk : Bool) (now : Nat)
  /-- KEY_UPDATE_DUE (R318): E2E_SEQ to a peer reaches 2^40, so the sender updates its key and restarts the sequence. -/
  | keyUpdateDue (peer : Nat)
  /-- LINK_ACK_DUE (R311): Expiry of 64 flits or 1 µs, which makes the receiver return ACK_SEQ. -/
  | linkAckDue (p : Nat)
  /-- E2E_ACK_DUE (R317): Expiry of 256 flits or 10 µs, which makes the receiver send E2E_ACK to a source. -/
  | e2eAckDue (peer : Nat)
  /-- E2E_RESEND (R317): Expiry of the resend timeout, which sends an unacknowledged flit again unchanged. -/
  | e2eResend (peer seq : Nat)
  /-- LANE_FAULT (R309): A lane loses lock or exceeds its error limit, so its port retrains at a narrower width or goes down. -/
  | laneFault (p lane : Nat)
  /-- PORT_RETRY (R309): Expiry of 60 s, which makes a down or degraded port retry training. -/
  | portRetry (p : Nat) (failed : List Nat)
  /-- SUESH_PORT_TRAINED (R469): A Suesh port completes training and starts forming associations. -/
  | sueshPortTrained (p : Nat) (failed : List Nat)
  /-- PORT_WINDOW_EXPIRED (R469): The 45 s training window of an untrained port expires, so it no longer gates readiness. -/
  | portWindowExpired (p : Nat)
  /-- ROUTE_EMPTY (R314): Expiry of each second while a message waits for a destination with no port up. -/
  | routeEmpty (dst : Nat)
  /-- LANDING_MOVE (R336): The receiver moves landed contributions or tiles from the landing reserve into their storage. -/
  | landingMove (peer i : Nat)
  /-- CREDIT_STRICT_ORDER (R334): A message at a hop waits 256 network cycles, so the hop serves classes strictly in order. -/
  | creditStrictOrder (p : Nat)
  /-- CREDIT_WAIT_LONG (R340): A message waits at a hop longer than the credit wait report, which raises event 0xF321. -/
  | creditWaitLong (hop cls ticks : Nat)
  /-- LINK_REPLAY (R350): A receiver on an internal link refuses a granule in error and asks for replay. -/
  | linkReplay (link granules : Nat) (again carrel : Bool) (loc : Nat)
  /-- POISON_CONSUMED (R347): A consumer meets a poisoned operand, and the work is rerun or restored according to its scope. -/
  | poisonConsumed (row tile : Nat) (w : WorkId) (carrel : Bool) (space id loc : Nat)
  /-- ROW_REPAIR (R351): A row crosses the repair threshold or holds an uncorrectable granule, so its controller starts live repair. -/
  | rowRepair (device bank row loc bytes now : Nat)
  /-- ROW_REPAIRED (R351): A soft repair completes and held requests are served from the repaired row. -/
  | rowRepaired (device bank row loc now : Nat)
  /-- HARD_REPAIR (R351): A recurring row is hard-repaired in a refresh-idle window. -/
  | hardRepair (device bank row loc bytes now : Nat)
  /-- SCRUB (R352): The patrol reads granules, writes back corrections and poisons uncorrectable ones. -/
  | scrub (device bank row loc : Nat) (word : PatrolRead) (now : Nat)
  /-- LOG_COMMIT (R360): An Accession Log record is written locally and acknowledged by the buddy, which lets its command's final response go. -/
  | logCommit (slot : Nat) (refused : Bool)
  /-- DEPOSIT_INTERVAL_EVAL (R367): Hourly evaluation of each job's Deposit interval. -/
  | depositIntervalEval
  /-- DEPOSIT_START (R364): At the first step boundary at least the interval after the last Deposit, a Deposit of the job is taken. -/
  | depositStart (slot now : Nat)
  /-- DEPOSIT_COMMIT (R365): The buddy acknowledges the manifest, so the Deposit commits and log records and retained sends are freed. -/
  | depositCommit (slot now : Nat)
  /-- LIVENESS_PROBE_DUE (R368): Expiry of a quarter of the liveness timeout, which sends probes. -/
  | livenessProbeDue
  /-- LIVENESS_TIMEOUT (R368): A position's buddy hears nothing from it for a full timeout and sends QUERY to its peers. -/
  | livenessTimeout (pos : Nat)
  /-- POSITION_FAILED (R368): A position is declared failed and the declaring position sends FENCE. -/
  | positionFailed (pos : Nat) (announced : Bool)
  /-- TAKEOVER_STARTED (R371): The spare token holder assigns a spare to a fenced position, which takes it and fills from the buddy. -/
  | takeoverStarted (pos : Nat) (spare : SpareFill)
  /-- TAKEOVER_COMPLETE (R372): The spare finishes replay to the last committed step, which ends FENCED refusals. -/
  | takeoverComplete (pos holder : Nat) (jobs : List (Nat × Nat))
  /-- POSITION_FOLDED (R375): With no spare left, the next position able to hold the image folds the fenced position into itself. -/
  | positionFolded (pos folder : Nat) (images : List (Nat × Deposit))
  /-- RECOVERY_EXHAUSTED (R376): A job's recovery is impossible, so its unfinished steps complete with EXHAUSTED. -/
  | recoveryExhausted (slot : Nat)
  /-- RESTORE_IN_PLACE (R373): Persistent poison is rebuilt from the buddy's image and the log is replayed for that job alone. -/
  | restoreInPlace (slot : Nat)
  /-- SELF_FENCED (R369): A fenced module that reconnects is refused by every peer, so it closes its jobs. -/
  | selfFenced
  /-- GDP_SPDM (R412): GDP frame carrying one SPDM message, in the clear or as a secured message. -/
  | gdpSpdm (session now : Nat) (ok : Bool) (m : FramedSpdm)
  /-- GDP_READ (R415): GDP READ request of an entry. -/
  | gdpRead (f : GdpFrame)
  /-- GDP_WRITE (R415): GDP WRITE request of an entry. -/
  | gdpWrite (f : GdpFrame)
  /-- GDP_READ_BLOCK (R415): GDP READ_BLOCK request of a DOMAIN entry. -/
  | gdpReadBlock (f : GdpFrame)
  /-- GDP_WRITE_BLOCK (R416): GDP WRITE_BLOCK piece of a block write, applied whole at LAST. -/
  | gdpWriteBlock (f : GdpFrame)
  /-- SUBSCRIBE_START (R420): SUBSCRIBE with OP START, which subscribes the session to filtered module-wide events. -/
  | subscribeStart (f : GdpFrame)
  /-- SUBSCRIBE_STOP (R420): SUBSCRIBE with OP STOP, which ends the subscription. -/
  | subscribeStop (f : GdpFrame)
  /-- SUBSCRIBE_ACK (R420): SUBSCRIBE with OP ACK, which acknowledges event records up to UP_TO. -/
  | subscribeAck (f : GdpFrame)
  /-- EVENT_FRAME_SEND (R420): Expiry of the 10 ms gathering window, which sends an EVENT frame to a subscriber. -/
  | eventFrameSend (id : Nat)
  /-- EVENT_FRAME_RESEND (R420): An EVENT frame unacknowledged for 1 s is re-sent. -/
  | eventFrameResend (id : Nat)
  /-- BLOCK_GAP_TIMEOUT (R416): A block write with no request for the block gap timeout is abandoned. -/
  | blockGapTimeout (id key : Nat)
  /-- EVENT_CHECKPOINT (R419): Every 4,096 events, the event sequence counter is recorded in the conservation header and delta record. -/
  | eventCheckpoint
  /-- BEACON_LOST (R407): No PLCA beacon for 1 s, so the module sends under CSMA/CD. -/
  | beaconLost
  /-- BEACON_SEEN (R407): A PLCA beacon is seen again, so the module returns to PLCA. -/
  | beaconSeen
  /-- POS_ADDR_CHANGE (R406): The debounced POS_ADDR straps change, so the new PLCA node id applies from the next cycle. -/
  | posAddrChange (v : BitVec 6)
  /-- BROWN_OUT (R438): VIN below 40 V for 50 µs or at 60 V for 10 µs, so every rail but the keeper's switches off. -/
  | brownOut (vin : Nat)
  /-- INPUT_LOW (R436): VIN falls below the input low warning, which raises an event and asserts ALERT_N. -/
  | inputLow (vin : Nat)
  /-- INPUT_HIGH (R436): VIN rises above the input high warning, which raises an event and asserts ALERT_N. -/
  | inputHigh (vin : Nat)
  /-- PWR_EN_ASSERT (R448): PWR_EN asserted, which lets bring-up proceed or restarts it from phase 3. -/
  | pwrEnAssert
  /-- PWR_EN_DEASSERT (R448): PWR_EN deasserted after ready, so the module announces its failure and switches off its rails. -/
  | pwrEnDeassert
  /-- REFCLK_LOSS (R440): Loss of REFCLK, which is a loss of the CXL link. -/
  | refclkLoss
  /-- SUESH_REFCLK_LOSS (R440): Loss of the 156.25 MHz reference, which takes every Suesh port down. -/
  | sueshRefclkLoss
  /-- PHASE_LOST (R445): A converter phase is lost; the first loss is absorbed and a further loss caps power or fails the module. -/
  | phaseLost (rail phase : Nat)
  /-- THERMAL_SAMPLE (R446): Millisecond sensor reading that raises warnings, throttles at 105 °C and trips at 115 °C. -/
  | thermalSample (temps : List Int)
  /-- DIE_SLEEP (R442): An idle die reaches the sleep threshold and enters SLEEP. -/
  | dieSleep (d : Nat)
  /-- DIE_WAKE (R443): A dispatch or request reaches a sleeping die, which starts its wake. -/
  | dieWake (d : Nat)
  /-- DIE_WAKE_COMPLETE (R443): The die is AWAKE, and held requests and dispatch proceed. -/
  | dieWakeComplete (d waits : Nat)
  /-- PATH_MARGIN_EVAL (R452): A die's averaged path margin below the floor raises its voltage or derates its clock. -/
  | pathMarginEval (d margin : Nat)
  /-- EYE_SCAN (R455): A lane's eye scan below the floor retunes it, or removes it from service. -/
  | eyeScan (l margin after : Nat)
  /-- RETENTION_TEST (R456): A bank's retention margin below the floor moves it to the next refresh rate. -/
  | retentionTest (device bank failTime interval : Nat)
  /-- DAILY_PREDICTION (R458): Daily evaluation of wear quantities, which appends a conservation record and updates the prediction. -/
  | dailyPrediction (avgPower : Nat) (efficiency : List Nat)
  /-- KEEPER_START (R465): VIN above 46 V for 100 ms starts the keeper, which checks itself, derives identity, verifies records and firmware. -/
  | keeperStart (vin : Nat) (v : StartVerdicts)
  /-- SEGMENT_JOIN (R466): Phase 2, which takes the node id, forms addresses, runs duplicate detection and listens for the beacon. -/
  | segmentJoin (dupLinkLocal dupStatic beacon : Bool)
  /-- RAIL_UP (R482): Phase 3 starts: rails come up in order and memory devices start training. -/
  | railUp (vin : Nat)
  /-- MEMORY_TRAINED (R467): Every stack and package has trained, or a device has failed three attempts and phase 3 holds. -/
  | memoryTrained (failed : List Nat)
  /-- MEMORY_RETRAIN (R467): Expiry of 60 s in a phase 3 hold, which retrains the failed device. -/
  | memoryRetrain (still : List Nat)
  /-- MEMORY_INIT (R470): Phase 6, which initialises and tests both tiers, takes the retention baseline and self-checks the tiles. -/
  | memoryInit (rows : List (Nat × Nat × Nat × Nat × Nat)) (banks : List (Nat × Nat × Nat × Nat)) (tiles : List (Nat × Nat))
  /-- MODULE_READY (R471): With phase 6 done and nothing holding, the module raises the ready event and frees its slots. -/
  | moduleReady (ms : Nat)
  /-- ORPHAN_JOB_HOLD_TIME (R22): Expiry of the orphan job hold time closes an orphaned job as though by JOB_CLOSE and destroys its keys. -/
  | orphanJobHoldTime (slot : Nat)
  /-- PERST_DEASSERT (R468): PERST_N deasserted with PWR_GOOD high starts CXL port training. -/
  | perstDeassert
  /-- IDE_KM (R270): IDE_KM exchange from the host that keys IDE on CXL.io and CXL.cache, after which the port carries command traffic. -/
  | ideKm (both : Bool)
  /-- PACKET_SLOT_WRITE (R273): Host write into a packet slot, discarded and counted as a window overrun when the slot's SLOT_FREE bit is 0. -/
  | packetSlotWrite (q off : Nat) (data : List Byte)
  /-- ENCAPSULATED_EXCHANGE (R390): Encapsulated request and response messages by which the module retrieves the requester's chain for mutual authentication. -/
  | encapsulatedExchange (id : Nat) (root leaf : List Byte)
  /-- NEIGHBOUR_SOLICITATION (R408): ICMPv6 neighbour solicitation received on the segment, which the module answers, and which can reveal a duplicate address. -/
  | neighbourSolicitation (static duplicate : Bool)
  /-- ICMPV6_ECHO (R408): ICMPv6 echo request received on the segment, which the module answers. -/
  | icmpv6Echo (static : Bool) (data : List Byte)
  /-- INPUT_WARNING_CLEARED (R436): VIN returns 500 mV inside a warning threshold, which clears the input warning and releases ALERT_N. -/
  | inputWarningCleared (vin : Nat)
  /-- CURRENT_LIMIT (R437): Input current reaches 48 A or input power reaches the power cap, so issue is throttled and ALERT_N asserted until the limit stops binding. -/
  | currentLimit (amps watts ticks : Nat)
  /-- EXTERNAL_POWER_LOST (R438): VIN falls below 36 V, so the keeper also stops and the next start is a keeper start. -/
  | externalPowerLost (vin : Nat)
  /-- FLIT_DISCARDED (R311): A Suesh receiver gets a flit with an uncorrectable codeword or an unexpected LINK_SEQ, discards it and what follows, and sends NAK. -/
  | flitDiscarded (p : Nat)
  /-- LINK_RETRAINED (R350): An internal die-to-die, die-to-hub or crossbar link finishes its roughly 2 µs retrain and replays its held granules. -/
  | linkRetrained (link granules : Nat)
  deriving DecidableEq, Repr

end Sys2Proof
end

