-- ==== Sys2Proof/Machine/Flags.lean ====
section
/-!
DEFINITION. Rounding of exact values to element types, with the saturation and non-finite flags of Table 09-3 (R181 to R183, R190 to R192, R198), and
the keyed generator Philox4x32-10 (R73, R198).
-/
namespace Sys2Proof.Machine
open Sys2Proof

/-! ### Philox4x32-10 -/

/-- One round of Philox4x32 with its round keys (R73). -/
def philoxRound (c : Nat × Nat × Nat × Nat) (k0 k1 : Nat) : Nat × Nat × Nat × Nat :=
  let p0 := 0xD2511F53 * c.1
  let p1 := 0xCD9E8D57 * c.2.2.1
  let hi (p : Nat) := p / 2 ^ 32
  let lo (p : Nat) := p % 2 ^ 32
  (hi p1 ^^^ c.2.1 ^^^ k0, lo p1, hi p0 ^^^ c.2.2.2 ^^^ k1, lo p0)

/-- Ten rounds; the keys step by the Weyl constants. -/
def philoxRounds : Nat → Nat × Nat × Nat × Nat → Nat → Nat → Nat × Nat × Nat × Nat
  | 0, c, _, _ => c
  | n + 1, c, k0, k1 => philoxRounds n (philoxRound c k0 k1) ((k0 + 0x9E3779B9) % 2 ^ 32) ((k1 + 0xBB67AE85) % 2 ^ 32)

/-- Output words of a call. -/
def philox (k0 k1 c0 c1 c2 c3 : Nat) : List Nat :=
  let r := philoxRounds 10 (c0, c1, c2, c3) k0 k1
  [r.1, r.2.1, r.2.2.1, r.2.2.2]

/-- What keys a rounding, its column apart (R198, Table 10-2). -/
structure RoundKey where
  job : Nat
  step : Nat
  tensor : Nat
  row : Nat
  deriving DecidableEq, Repr

/-- The word u of a rounding at a column (R198). -/
def RoundKey.word (k : RoundKey) (col : Nat) : Nat :=
  nth (philox (bits k.job 31 0) (bits k.job 63 32 ^^^ bits k.step 63 32) (bits k.row 31 0) k.tensor (bits k.step 31 0)
    (bits k.row 39 32 * 2 ^ 24 + (col / 4) % 2 ^ 24)) (col % 4)

/-! ### Rounding -/

/-- Rounding modes (R191): `keyed` carries its word. -/
inductive Rnd where
  | nearest
  | keyed (u : Nat)
  | toZero
  deriving DecidableEq, Repr

/-- Floor of the base-2 logarithm of a positive fraction. -/
def log2Frac (n d : Nat) : Int :=
  let t : Int := (Nat.log2 n : Int) - Nat.log2 d
  let below := if 0 ≤ t then decide (n < d * 2 ^ t.toNat) else decide (n * 2 ^ (-t).toNat < d)
  if below then t - 1 else t

/-- A positive fraction in units of 2^q: numerator and denominator. -/
def inUnits (n d : Nat) (e q : Int) : Nat × Nat := if q ≤ e then (n * 2 ^ (e - q).toNat, d) else (n, d * 2 ^ (q - e).toNat)

/-- Magnitude to which a value of magnitude m + r/D, r < D, rounds, `neg` its sign. R198 draws for the greater of the two neighbours, which for a negative
value is the lesser magnitude. -/
def roundUnits (rnd : Rnd) (neg : Bool) (m r d : Nat) : Nat :=
  match rnd with
  | .nearest => if d < 2 * r ∨ (d = 2 * r ∧ m % 2 = 1) then m + 1 else m
  | .keyed u =>
    if r = 0 then m
    else if neg then (if u * d < (d - r) * 2 ^ 32 then m else m + 1)
    else if u * d < r * 2 ^ 32 then m + 1 else m
  | .toZero => m

/-- What a rounding yields: the element's bits, whether it was counted saturated, whether source or result is not finite (R190). -/
structure Rounded where
  bits : Nat
  sat : Bool
  bad : Bool
  deriving DecidableEq, Repr

/-- The exponent of a unit in the last place for a value of this binary logarithm. -/
def ElemType.ulp (t : ElemType) (log : Int) : Int := max log (1 - (t.bias : Int)) - t.frac

/-- Magnitude bits of a value of either sign rounded to a float type, unbounded above. -/
def magnitude (t : ElemType) (rnd : Rnd) (neg : Bool) (n d : Nat) (e : Int) : Nat :=
  let q := t.ulp (log2Frac n d + e)
  let (a, b) := inUnits n d e q
  let m := roundUnits rnd neg (a / b) (a % b) b
  (m + ((q + t.frac + t.bias - 1).toNat) * 2 ^ t.frac)

/-- Whether a positive fraction exceeds a float type's largest finite value. -/
def beyond (t : ElemType) (n d : Nat) (e : Int) : Bool := (decodeFloat t t.maxBits).lt (.fin false n d e)

/-- Round to a float type (R181, Table 09-3). Beyond the largest finite value, lo and hi of R198 are magnitudes, of either sign. -/
def toFloat (t : ElemType) (rnd : Rnd) (v : Val) : Rounded :=
  let sign (n : Bool) (m : Nat) : Nat := if n then m + 2 ^ (t.bits - 1) else m
  match v with
  | .nan => ⟨t.nanBits, false, true⟩
  | .inf n => if t = .e4m3 then ⟨sign n 0x7F, false, true⟩ else ⟨sign n (t.maxBits + 1), false, true⟩
  | .zero n => ⟨sign n 0, false, false⟩
  | .fin n a d e =>
    if beyond t a d e then
      if t.isFp8 then ⟨sign n t.maxBits, true, false⟩
      else
        let m := match rnd with
          | .toZero => t.maxBits
          | r => min (magnitude t r false a d e) (t.maxBits + 1)
        ⟨sign n m, false, decide (t.maxBits < m)⟩
    else ⟨sign n (magnitude t rnd n a d e), false, false⟩

/-- Range of an integer type. -/
def ElemType.intRange : ElemType → Int × Int
  | .int8 => (-128, 127) | .int16 => (-32768, 32767) | .int32 => (-2147483648, 2147483647) | .u8 => (0, 255) | .u32 => (0, 4294967295) | .u4 => (0, 15)
  | _ => (0, 0)

/-- Round to an integer, any size. -/
def roundInt (rnd : Rnd) (n : Bool) (a d : Nat) (e : Int) : Int :=
  let (x, y) := inUnits a d e 0
  let m : Int := (roundUnits rnd n (x / y) (x % y) y : Nat)
  if n then -m else m

/-- Round to an integer type (Table 09-3): INT8 counts a magnitude beyond 127 saturated (R197), the others a value outside their range. -/
def toInt (t : ElemType) (rnd : Rnd) (v : Val) : Rounded :=
  let (lo, hi) := t.intRange
  let enc (i : Int) : Nat := unsigned t.bits i
  match v with
  | .nan => ⟨0, false, true⟩
  | .inf n => ⟨enc (if n then lo else hi), false, true⟩
  | .zero _ => ⟨0, false, false⟩
  | .fin n a d e =>
    let x : Val := .fin n a d e
    let floor := if t = .int8 then -127 else lo
    if (Val.ofInt hi).lt x then ⟨enc hi, true, false⟩
    else if x.lt (Val.ofInt floor) then ⟨enc lo, true, false⟩
    else ⟨enc (roundInt rnd n a d e), false, false⟩

/-- The FX128 limit: a saturated value stops one unit inside the range (R192). -/
def fxLimit : Int := 2 ^ 127 - 1

/-- The non-finite marker (R192). -/
def fxMarker : Nat := 2 ^ 127

/-- Round to FX128 at window exponent w (R105, R192). -/
def toFx (w : Int) (rnd : Rnd) (v : Val) : Rounded :=
  match v with
  | .nan | .inf _ => ⟨fxMarker, false, true⟩
  | .zero _ => ⟨0, false, false⟩
  | .fin n a d e =>
    let i := roundInt rnd n a d (e - (w - 96))
    if fxLimit < i then ⟨unsigned 128 fxLimit, true, false⟩
    else if i < -fxLimit then ⟨unsigned 128 (-fxLimit), true, false⟩
    else ⟨unsigned 128 i, false, false⟩

/-- Round to an element type, the destination scale already divided out; FX128 at window `w`. -/
def toElem (t : ElemType) (w : Int) (rnd : Rnd) (v : Val) : Rounded :=
  match t with
  | .fp32 | .bf16 | .fp16 | .e4m3 | .e5m2 | .em48 => toFloat t rnd v
  | .int8 | .int16 | .int32 | .u8 | .u32 | .u4 => toInt t rnd v
  | .fx128 => toFx w rnd v

/-- Round to FP32, nearest even: bits. -/
def round32 (v : Val) : Nat := (toFloat .fp32 .nearest v).bits

/-- Round to FP32 and back. -/
def r32 (v : Val) : Val := f32 (round32 v)

/-! ### Roots -/

/-- Integer square root by bits: the greatest m below 2^fuel with m² ≤ n. -/
def isqrtAux : Nat → Nat → Nat → Nat
  | 0, _, m => m
  | k + 1, n, m => let t := m + 2 ^ k; isqrtAux k n (if t * t ≤ n then t else m)

def isqrt (n : Nat) : Nat := isqrtAux (Nat.log2 n / 2 + 1) n 0

/-- Round the square root of a positive fraction to a float type: the remainder is known only against nought and one half. -/
def rootMagnitude (t : ElemType) (rnd : Rnd) (n d : Nat) (e : Int) : Nat :=
  let log := (log2Frac n d + e) / 2
  let q := t.ulp log
  let (a, b) := inUnits n d e (2 * q)
  let m := isqrt (a / b)
  let r := if m * m * b = a then 0
    else if 4 * a < (2 * m + 1) * (2 * m + 1) * b then 1
    else if 4 * a = (2 * m + 1) * (2 * m + 1) * b then 2 else 3
  roundUnits rnd false m r 4 + ((q + t.frac + t.bias - 1).toNat) * 2 ^ t.frac

/-- A square root rounded to a destination type; `x` is not negative and not zero. Integer and FP8 destinations take the root to 64 places first, which
a root never reaches exactly half-way unless exact. -/
def rootTo (t : ElemType) (rnd : Rnd) (a d : Nat) (e : Int) : Rounded :=
  if t.isFloat && !t.isFp8 then
    let m := rootMagnitude t rnd a d e
    let m := match rnd with | .toZero => min m t.maxBits | _ => min m (t.maxBits + 1)
    ⟨m, false, decide (t.maxBits < m)⟩
  else
    let (x, y) := inUnits a d e (-128)
    let m := isqrt (x / y)
    toElem t 0 rnd (.fin false (if m * m * y = x then 2 * m else 2 * m + 1) 1 (-65))

end Sys2Proof.Machine
end

