-- ==== Sys2Proof/Machine/Functions.lean ====
section
/-!
DEFINITION. The transcendental functions (R183) and the bias corrections (R227): each is fixed by its input, and known to its stated error. The value is formed
here to about 150 binary places; which FP32 value within the error the module gives is free (Config).
-/
namespace Sys2Proof.Machine
open Sys2Proof

/-! ### Fixed point: numbers in units of 2^-160 -/

def unit160 : Int := 2 ^ 160

/-- A finite value in units of 2^-160, rounded down. -/
def toUnits (v : Val) : Int :=
  match v with
  | .fin n a d e => let m : Int := if n then -(a : Int) else a; let up := (e + 160).toNat; let down := (-e - 160).toNat; m * (2 ^ up : Nat) / (d * 2 ^ down : Nat)
  | _ => 0

/-- ln 2, from its series of 1 / (k 2^k). -/
def ln2 : Int := (List.range 170).foldl (fun s k => s + unit160 / ((k + 1) * 2 ^ (k + 1) : Nat)) 0

/-- Terms of the exponential series from x^n / n! on. -/
def expTerms (r : Int) : Nat → Nat → Int → Int
  | 0, _, t => t
  | fuel + 1, n, t => t + expTerms r fuel (n + 1) (t * r / unit160 / ((n : Int) + 1))

/-- e^x for x in units, as an exact value: x = k ln 2 + r with r below ln 2. -/
def expUnits (x : Int) : Val :=
  let k := x / ln2
  .scaledInt (expTerms (x - k * ln2) 48 0 unit160) (k - 160)

/-- Terms of 2 artanh z from z^n / n on. -/
def artanhTerms (z2 : Int) : Nat → Nat → Int → Int
  | 0, _, _ => 0
  | fuel + 1, n, t => 2 * t / (n : Int) + artanhTerms z2 fuel (n + 2) (t * z2 / unit160)

/-- ln of a positive fraction: of its part from 1 to 2 by artanh, and of its power of two. -/
def lnVal (a d : Nat) (e : Int) : Val :=
  let k := log2Frac a d + e
  let m := toUnits (.fin false a d (e - k))
  let z := (m - unit160) * unit160 / (m + unit160)
  .scaledInt (k * ln2 + artanhTerms (z * z / unit160) 60 1 z) (-160)

/-! ### The values, before the stated error -/

def oneVal : Val := .fin false 1 1 0

/-- A value held between -n and n: beyond them a function below does not differ within its error, or lies far outside every range. -/
def Val.clampTo (v : Val) (n : Nat) : Val := (v.min (.ofInt n)).max (.ofInt (-(n : Int)))

def expOf (v : Val) : Val := expUnits (toUnits (v.clampTo 400))

/-- The logistic function, as E / (1 + E) with E = e^x. -/
def sigmoidOf (v : Val) : Val := let E := expOf v; E.div (oneVal.add E)

/-- The hyperbolic tangent of a positive value: x - x³ / 3 where x is small, otherwise (E - 1) / (E + 1) with E = e^(2x). -/
def tanhOf (v : Val) : Val :=
  if v.lt (.fin false 1 1 (-32)) then v.sub ((v.mul (v.mul v)).div (.ofInt 3))
  else let E := expOf ((v.clampTo 64).shift 1); (E.sub oneVal).div (E.add oneVal)

/-! ### The stated error -/

/-- A positive number and its exponent with the number odd. -/
def oddPart : Nat → Nat → Int → Nat × Int
  | 0, a, e => (a, e)
  | fuel + 1, a, e => if a % 2 = 0 then oddPart fuel (a / 2) (e + 1) else (a, e)

/-- An FP32 value at most `below` units in the last place under a value rounded down, or `above` over it, as `free` picks. -/
def nearby (below above free : Nat) (v : Val) : Val :=
  match v with
  | .fin n a d e =>
    let q := ElemType.ulp .fp32 (log2Frac a d + e)
    let (x, y) := inUnits a d e q
    let m := min (x / y - below + free % (below + above + 1)) (2 ^ 24)
    if m = 0 then .zero n else .fin n m 1 q
  | v => v

/-- A function of R183 of a finite input whose value is `y`: within 2 units in the last place, the same for equal inputs. -/
def special (fn : Nat) (x y : Val) : Val :=
  match x with
  | .fin n a _ e => let p := oddPart (Nat.log2 a) a e; nearby 1 2 (Config.funcFree fn n p.1 p.2) y
  | _ => y

def vExp (v : Val) : Val :=
  match v with
  | .nan => .nan
  | .inf n => if n then .zero false else .inf false
  | .zero _ => oneVal
  | v => special 0x10 v (expOf v)

def vLog (v : Val) : Val :=
  match v with
  | .nan => .nan
  | .inf n => if n then .nan else .inf false
  | .zero _ => .inf true
  | .fin n a d e => if n then .nan else if (Val.fin false a d e).eq oneVal then .zero false else special 0x11 v (lnVal a d e)

def vTanh (v : Val) : Val :=
  match v with
  | .nan => .nan
  | .inf n => .fin n 1 1 0
  | .zero n => .zero n
  | .fin n a d e => let y := special 0x15 v (tanhOf (.fin false a d e)); if n then y.neg else y

def vSigmoid (v : Val) : Val :=
  match v with
  | .nan => .nan
  | .inf n => if n then .zero false else oneVal
  | v => special 0x16 v (sigmoidOf v)

/-! ### Bias corrections (R227) -/

/-- β^t for β in units, by the bits of t from the highest; never 0. -/
def powUnits (b t : Nat) : Nat → Nat
  | 0 => 2 ^ 160
  | k + 1 =>
    let r := powUnits b (t / 2) k
    max 1 (let r2 := r * r / 2 ^ 160; if t % 2 = 1 then r2 * b / 2 ^ 160 else r2)

/-- Bias correction factor (R227) of a coefficient's FP32 bits: exactly 1 where the coefficient is 0, otherwise an FP32 value within 1 unit in the last place of
1 - β^t. -/
def biasFactor (beta t : Nat) : Val :=
  if beta % 2 ^ 31 = 0 then oneVal
  else nearby 0 1 (Config.biasFree beta t) (oneVal.sub (.scaledInt (powUnits (toUnits (f32 beta)).toNat t 64) (-160)))

end Sys2Proof.Machine
end

