-- ==== Sys2Proof/Machine/DictTable.lean ====
section
/-!
DEFINITION. The object dictionary's catalogue: every entry of the tables that R431 names, with its type, access, persistence, scope, width,
default and range (22_dictionary, and the entry table of each chapter).
-/
namespace Sys2Proof.Machine
open Sys2Proof

/-- Entry types (R424, Table 22-1). -/
inductive DType where
  | bool | u8 | u16 | u32 | u64 | i32 | i64 | f32 | string | domain | record
  deriving DecidableEq, Repr

/-- Access classes (R427, Table 22-2). -/
inductive Access where
  | const | ro | rw | rwq | wo
  deriving DecidableEq, Repr

/-- The range a written value must lie in; relations between entries are checked where their chapter states them. -/
inductive Rng where
  | any
  | between (lo hi : Nat)
  | sint (lo hi : Int)
  /-- F32 between two non-negative values, given as their bits -/
  | f32 (lo hi : Nat)
  /-- length of a block -/
  | len (lo hi : Nat)
  /-- a working position, or 0xFFFF for none (Table 19-8) -/
  | position
  deriving DecidableEq, Repr

/-- One row of the catalogue; an array row covers a range of indices and subindices. -/
structure Entry where
  lo : Nat
  hi : Nat
  subLo : Nat
  subHi : Nat
  typ : DType
  access : Access
  retained : Bool
  jobScoped : Bool
  timing : Bool
  width : Nat
  dflt : DVal
  rng : Rng
  deriving DecidableEq, Repr

/-- Shorthand for a catalogue row. -/
def dictRow (lo hi subLo subHi : Nat) (typ : DType) (access : Access) (retained jobScoped timing : Bool) (width : Nat) (dflt : DVal) (rng : Rng) :
    Entry := ⟨lo, hi, subLo, subHi, typ, access, retained, jobScoped, timing, width, dflt, rng⟩

/-- A curve of one knot (0, +0.0): the default of *schedule curve* (R224, Table 11-6). -/
def oneKnot : List Byte := [1] ++ zeros 31

/-- Catalogue rows, part 1: dictionary format, product name, firmware version, identity entries, vendor code, product code, stepping, serial, numerics generation, PLCA node source, PLCA node id, PLCA node in use, PLCA opportunity timer, MAC address, GDP UDP port, static address, subscribers, block gap timeout, GDP frames dropped, GDP events dropped, link width, link rate, flit mode, IDE state, link degrades, chain gap timeout, packets refused, window overruns, ring-full waits, events not delivered, fabric position, port widths, lane error limit, lane degrades, flit retries, tag failures, replay drops, flits refused, resend timeout, end-to-end resends. -/
def catalogue1 : List Entry := [
  dictRow 0x1000 0x1000 1 1 .u16 .const false false false 2 (.num 1) (.any),
  dictRow 0x1008 0x1008 0 0 .string .const false false false 8 (.blk ([0x4B, 0x47, 0x54, 0x2D, 0x32, 0x33, 0x30, 0x34])) (.any),
  dictRow 0x100A 0x100A 0 0 .u32 .ro false false false 4 (.num 0) (.any),
  dictRow 0x1018 0x1018 0 0 .u8 .const false false false 1 (.num 5) (.any),
  dictRow 0x1018 0x1018 1 1 .u32 .const false false false 4 (.num 3648) (.any),
  dictRow 0x1018 0x1018 2 2 .u16 .const false false false 2 (.num 8964) (.any),
  dictRow 0x1018 0x1018 3 3 .u16 .const false false false 2 (.num 161) (.any),
  dictRow 0x1018 0x1018 4 4 .string .const false false false 12 (.blk []) (.any),
  dictRow 0x1018 0x1018 5 5 .u16 .ro false false false 2 (.num 1) (.any),
  dictRow 0x2100 0x2100 1 1 .u8 .rw true false false 1 (.num 0) (.between 0 1),
  dictRow 0x2100 0x2100 2 2 .u8 .rw true false false 1 (.num 0) (.between 0 254),
  dictRow 0x2100 0x2100 3 3 .u8 .ro false false true 1 (.num 0) (.any),
  dictRow 0x2100 0x2100 4 4 .u8 .rw true false false 1 (.num 32) (.between 1 255),
  dictRow 0x2100 0x2100 5 5 .domain .ro false false true 6 (.blk (zeros 6)) (.any),
  dictRow 0x2110 0x2110 1 1 .u16 .rw true false false 2 (.num 47650) (.between 1024 65535),
  dictRow 0x2110 0x2110 2 2 .domain .rw true false false 16 (.blk (zeros 16)) (.len 16 16),
  dictRow 0x2110 0x2110 3 3 .u8 .ro false false true 1 (.num 0) (.any),
  dictRow 0x2110 0x2110 4 4 .u32 .rw true false false 4 (.num 5000) (.between 100 600000),
  dictRow 0x2110 0x2110 5 5 .u64 .ro false false true 8 (.num 0) (.any),
  dictRow 0x2110 0x2110 6 6 .u64 .ro false false true 8 (.num 0) (.any),
  dictRow 0x2200 0x2200 1 1 .u8 .ro false false true 1 (.num 0) (.any),
  dictRow 0x2200 0x2200 2 2 .u8 .ro false false true 1 (.num 0) (.any),
  dictRow 0x2200 0x2200 3 3 .u8 .ro false false true 1 (.num 0) (.any),
  dictRow 0x2200 0x2200 4 4 .u8 .ro false false true 1 (.num 0) (.any),
  dictRow 0x2200 0x2200 5 5 .u64 .ro false false true 8 (.num 0) (.any),
  dictRow 0x2210 0x2210 1 1 .u32 .rw true false true 4 (.num 100) (.between 1 10000),
  dictRow 0x2210 0x2210 2 2 .u64 .ro false false true 8 (.num 0) (.any),
  dictRow 0x2210 0x2210 3 3 .u64 .ro false false true 8 (.num 0) (.any),
  dictRow 0x2210 0x2210 4 4 .u64 .ro false false true 8 (.num 0) (.any),
  dictRow 0x2210 0x2210 5 5 .u64 .ro false false true 8 (.num 0) (.any),
  dictRow 0x2300 0x2300 1 1 .u16 .rw true false true 2 (.num 3840) (.between 0 4095),
  dictRow 0x2300 0x2300 2 2 .domain .ro false false true 12 (.blk (zeros 12)) (.any),
  dictRow 0x2300 0x2300 3 3 .f32 .rw true false true 4 (.num 973279855) (.f32 897988541 1008981770),
  dictRow 0x2300 0x2300 4 4 .u64 .ro false false true 8 (.num 0) (.any),
  dictRow 0x2300 0x2300 5 5 .u64 .ro false false true 8 (.num 0) (.any),
  dictRow 0x2300 0x2300 6 6 .u64 .ro false false true 8 (.num 0) (.any),
  dictRow 0x2300 0x2300 7 7 .u64 .ro false false true 8 (.num 0) (.any),
  dictRow 0x2300 0x2300 8 8 .u64 .ro false false true 8 (.num 0) (.any),
  dictRow 0x2300 0x2300 9 9 .u32 .rw true false true 4 (.num 200) (.between 20 100000),
  dictRow 0x2300 0x2300 10 10 .u64 .ro false false true 8 (.num 0) (.any)]

/-- Catalogue rows, part 2: route table, associations, reduction list, landing reserve, landing reserve held, device capacity, near capacity, far capacity, near bytes stored, far bytes stored, pinned capacity, pinned bytes held, pool capacity, pool high watermark, pool low watermark, pool occupancy, evictions, evictions dropped, pool charge, job slots 0 to 3, promotions, promotion steps, prefetch distance, space waits, channel count, halt policy, halt resolve delay, burst timeout, halts, channel status, current descriptor, error record, channel control, channel priority, bursts moved, role map length, role map, wait report interval. -/
def catalogue2 : List Entry := [
  dictRow 0x2310 0x2310 1 1 .domain .rw true false true 8192 (.blk (zeros 8192)) (.len 8192 8192),
  dictRow 0x2320 0x2320 1 1 .u16 .ro false false true 2 (.num 0) (.any),
  dictRow 0x2340 0x2340 1 1 .domain .rwq false true false 4096 (.blk []) (.len 0 4096),
  dictRow 0x2350 0x2350 1 1 .u32 .rw true false true 4 (.num 16384) (.between 1024 131072),
  dictRow 0x2350 0x2350 2 2 .u64 .ro false false true 8 (.num 0) (.any),
  dictRow 0x3000 0x3000 1 1 .u64 .const false false true 8 (.num 2473901162496) (.any),
  dictRow 0x3000 0x3000 2 2 .u64 .const false false true 8 (.num 824633720832) (.any),
  dictRow 0x3000 0x3000 3 3 .u64 .const false false true 8 (.num 1649267441664) (.any),
  dictRow 0x3000 0x3000 4 4 .u64 .ro false false true 8 (.num 0) (.any),
  dictRow 0x3000 0x3000 5 5 .u64 .ro false false true 8 (.num 0) (.any),
  dictRow 0x3100 0x3100 1 1 .u32 .rw true false true 4 (.num 0) (.between 0 393216),
  dictRow 0x3100 0x3100 2 2 .u64 .ro false false true 8 (.num 0) (.any),
  dictRow 0x3110 0x3110 1 1 .u64 .ro false false true 8 (.num 824633720832) (.any),
  dictRow 0x3110 0x3110 2 2 .u8 .rw true false true 1 (.num 92) (.between 51 99),
  dictRow 0x3110 0x3110 3 3 .u8 .rw true false true 1 (.num 85) (.between 50 98),
  dictRow 0x3110 0x3110 4 4 .u64 .ro false false true 8 (.num 0) (.any),
  dictRow 0x3110 0x3110 5 5 .u64 .ro false false true 8 (.num 0) (.any),
  dictRow 0x3110 0x3110 6 6 .u64 .ro false false true 8 (.num 0) (.any),
  dictRow 0x3120 0x3120 1 4 .u64 .ro false false true 8 (.num 0) (.any),
  dictRow 0x3200 0x3200 1 1 .u64 .ro false false true 8 (.num 0) (.any),
  dictRow 0x3200 0x3200 2 2 .u8 .rw false false true 1 (.num 2) (.between 1 16),
  dictRow 0x3200 0x3200 3 3 .u8 .rw false false true 1 (.num 2) (.between 0 16),
  dictRow 0x3200 0x3200 4 4 .u64 .ro false false true 8 (.num 0) (.any),
  dictRow 0x3300 0x3300 1 1 .u8 .const false false true 1 (.num 64) (.any),
  dictRow 0x3300 0x3300 2 2 .u8 .rw true false true 1 (.num 0) (.between 0 1),
  dictRow 0x3300 0x3300 3 3 .u32 .rw true false true 4 (.num 1000) (.between 10 10000000),
  dictRow 0x3300 0x3300 4 4 .u32 .rw true false true 4 (.num 100) (.between 10 100000),
  dictRow 0x3300 0x3300 5 5 .u64 .ro false false true 8 (.num 0) (.any),
  dictRow 0x3301 0x3340 1 1 .u32 .ro false false true 4 (.num 0) (.any),
  dictRow 0x3301 0x3340 2 2 .domain .ro false false true 64 (.blk (zeros 64)) (.any),
  dictRow 0x3301 0x3340 3 3 .record .ro false false true 32 (.blk (zeros 32)) (.any),
  dictRow 0x3301 0x3340 4 4 .u8 .wo false false true 1 (.num 0) (.between 1 3),
  dictRow 0x3301 0x3340 5 5 .u8 .rw false false true 1 (.num 0) (.between 1 7),
  dictRow 0x3301 0x3340 6 6 .u64 .ro false false true 8 (.num 0) (.any),
  dictRow 0x4010 0x4010 0 0 .u8 .const false false false 1 (.num 64) (.any),
  dictRow 0x4010 0x4013 1 64 .u32 .rwq false false false 4 (.num 0) (.any),
  dictRow 0x4011 0x4011 0 0 .u8 .const false false false 1 (.num 64) (.any),
  dictRow 0x4012 0x4012 0 0 .u8 .const false false false 1 (.num 64) (.any),
  dictRow 0x4013 0x4013 0 0 .u8 .const false false false 1 (.num 64) (.any),
  dictRow 0x4020 0x4020 1 1 .u32 .rw false true false 4 (.num 1000) (.between 10 60000)]

/-- Catalogue rows, part 3: array ramp starts, NM axis decodes, operand type faults, vector status, lane-range elements, integer saturations, tile retirement threshold, spares remaining, pipeline step record, weight-late stalls, weight-late time, rebalance interval, rebalance moves, rebalance hysteresis, default fan-out, degree cap, edge budget, scale history length, default exponent, stuck-zero threshold, stuck-zero policy, overflow repeat enable, saturation threshold, overflow repeats, non-finite steps, masked rows, NM fallbacks, index-range decodes, pruned tiles, label check failures, health tensor, health record, group table base, frozen skips, frozen skips by group, non-finite updates, group rows per index, group row, curves written, curves per index. -/
def catalogue3 : List Entry := [
  dictRow 0x4030 0x4030 1 1 .u64 .ro false true true 8 (.num 0) (.any),
  dictRow 0x4030 0x4030 2 2 .u64 .ro false true false 8 (.num 0) (.any),
  dictRow 0x4030 0x4030 3 3 .u64 .ro false true false 8 (.num 0) (.any),
  dictRow 0x4040 0x4040 1 1 .u32 .ro false true false 4 (.num 0) (.any),
  dictRow 0x4040 0x4040 2 2 .u64 .ro false true false 8 (.num 0) (.any),
  dictRow 0x4040 0x4040 3 3 .u64 .ro false true false 8 (.num 0) (.any),
  dictRow 0x4100 0x4100 1 1 .u16 .rw true false true 2 (.num 32) (.between 1 4096),
  dictRow 0x4100 0x4100 2 5 .u8 .ro false false true 1 (.num 4) (.any),
  dictRow 0x4200 0x4200 1 1 .domain .ro false true true 64 (.blk (zeros 64)) (.any),
  dictRow 0x4200 0x4200 2 2 .u64 .ro false true true 8 (.num 0) (.any),
  dictRow 0x4200 0x4200 3 3 .u64 .ro false true true 8 (.num 0) (.any),
  dictRow 0x4210 0x4210 1 1 .u16 .rw false true true 2 (.num 16) (.between 0 4096),
  dictRow 0x4210 0x4210 2 2 .u8 .rw false true true 1 (.num 8) (.between 1 64),
  dictRow 0x4210 0x4210 3 3 .f32 .rw false true true 4 (.num 1028443341) (.f32 0 1065353216),
  dictRow 0x4820 0x4820 1 1 .u16 .rwq false true false 2 (.num 10) (.between 1 256),
  dictRow 0x4820 0x4820 2 2 .u16 .rwq false true false 2 (.num 64) (.between 1 4096),
  dictRow 0x4820 0x4820 3 3 .u32 .rwq false true false 4 (.num 8192) (.between 1 1048576),
  dictRow 0x5110 0x5110 1 1 .u8 .rwq false true false 1 (.num 16) (.between 1 64),
  dictRow 0x5110 0x5110 2 2 .i32 .rwq false true false 4 (.num 0) (.sint (-127) (127)),
  dictRow 0x5210 0x5210 1 1 .u16 .rwq false true false 2 (.num 64) (.between 1 65535),
  dictRow 0x5210 0x5210 2 2 .u8 .rwq false true false 1 (.num 1) (.between 0 2),
  dictRow 0x5220 0x5220 1 1 .bool .rwq false true false 1 (.num 1) (.between 0 1),
  dictRow 0x5220 0x5220 2 2 .f32 .rwq false true false 4 (.num 981467136) (.f32 0 1065353216),
  dictRow 0x5220 0x5220 3 3 .u64 .ro false true false 8 (.num 0) (.any),
  dictRow 0x5220 0x5220 4 4 .u64 .ro false true false 8 (.num 0) (.any),
  dictRow 0x5230 0x5230 1 1 .u64 .ro false true false 8 (.num 0) (.any),
  dictRow 0x5240 0x5240 1 1 .u64 .ro false true false 8 (.num 0) (.any),
  dictRow 0x5240 0x5240 2 2 .u64 .ro false true false 8 (.num 0) (.any),
  dictRow 0x5240 0x5240 3 3 .u64 .ro false true false 8 (.num 0) (.any),
  dictRow 0x5240 0x5240 4 4 .u64 .ro false true true 8 (.num 0) (.any),
  dictRow 0x5250 0x5250 1 1 .u32 .rw false true false 4 (.num 0) (.any),
  dictRow 0x5250 0x5250 2 2 .domain .ro false true false 64 (.blk (zeros 64)) (.any),
  dictRow 0x5400 0x5400 1 1 .u64 .ro false true true 8 (.num 0) (.any),
  dictRow 0x5400 0x5400 2 2 .u64 .ro false true false 8 (.num 0) (.any),
  dictRow 0x5400 0x5400 3 3 .domain .ro false true false 8192 (.blk (zeros 8192)) (.any),
  dictRow 0x5400 0x5400 4 4 .u64 .ro false true false 8 (.num 0) (.any),
  dictRow 0x5401 0x5408 0 0 .u8 .const false true false 1 (.num 128) (.any),
  dictRow 0x5401 0x5408 1 128 .record .rwq false true false 64 (.blk (zeros 64)) (.len 0 64),
  dictRow 0x5500 0x5500 1 1 .u16 .ro false true false 2 (.num 0) (.any),
  dictRow 0x5501 0x5510 0 0 .u8 .const false true false 1 (.num 128) (.any)]

/-- Catalogue rows, part 4: schedule curve, strict index mode, out-of-table gathers, dropped scatters, annex rows called, annex re-sends, ledger raises, raw contribution limit, shelf capacity, shelf bytes held, shelf rows refused, refresh interval, suggestion length, shelf suggestions, width reassignments, widths held, corrected granules, two-symbol corrections, uncorrectable granules, poison consumptions, poison reruns, rows repaired, repair resources, retired bytes, row repair threshold, scrub period, self-check interval, self-check failures, link replays, buddy Deposit space, annex log mode, liveness timeout, log bytes held, retained bytes held, last Deposit step, Deposit policy, fleet failure rate, Deposit cost estimate, retention budget, minimum interval. -/
def catalogue4 : List Entry := [
  dictRow 0x5501 0x5510 1 128 .domain .rwq false true false 1040 (.blk oneKnot) (.len 32 1040),
  dictRow 0x6000 0x6000 4 4 .bool .rwq false true false 1 (.num 0) (.between 0 1),
  dictRow 0x6020 0x6020 1 1 .u64 .ro false true false 8 (.num 0) (.any),
  dictRow 0x6020 0x6020 2 2 .u64 .ro false true false 8 (.num 0) (.any),
  dictRow 0x6020 0x6020 3 3 .u64 .ro false true true 8 (.num 0) (.any),
  dictRow 0x6020 0x6020 4 4 .u64 .ro false true true 8 (.num 0) (.any),
  dictRow 0x6020 0x6020 5 5 .u64 .ro false true false 8 (.num 0) (.any),
  dictRow 0x6020 0x6020 6 6 .u8 .const false true false 1 (.num 8) (.any),
  dictRow 0x6100 0x6100 1 1 .u32 .rw false true false 4 (.num 0) (.between 0 393216),
  dictRow 0x6100 0x6100 2 2 .u64 .ro false true false 8 (.num 0) (.any),
  dictRow 0x6100 0x6100 3 3 .u64 .ro false true false 8 (.num 0) (.any),
  dictRow 0x6110 0x6110 1 1 .u16 .rwq false true false 2 (.num 64) (.between 1 65535),
  dictRow 0x6110 0x6110 2 2 .u16 .rw false true false 2 (.num 4096) (.between 0 65535),
  dictRow 0x6110 0x6110 3 3 .domain .ro false true false 524280 (.blk []) (.any),
  dictRow 0x6120 0x6120 1 1 .u64 .ro false true false 8 (.num 0) (.any),
  dictRow 0x6120 0x6120 2 2 .u64 .ro false true false 8 (.num 0) (.any),
  dictRow 0x7000 0x7000 1 1 .u64 .ro false false true 8 (.num 0) (.any),
  dictRow 0x7000 0x7000 2 2 .u64 .ro false false true 8 (.num 0) (.any),
  dictRow 0x7000 0x7000 3 3 .u64 .ro false false true 8 (.num 0) (.any),
  dictRow 0x7000 0x7000 4 4 .u64 .ro false false true 8 (.num 0) (.any),
  dictRow 0x7000 0x7000 5 5 .u64 .ro false false true 8 (.num 0) (.any),
  dictRow 0x7010 0x7010 1 1 .u64 .ro true false true 8 (.num 0) (.any),
  dictRow 0x7010 0x7010 2 2 .domain .ro false false true 26 (.blk (zeros 26)) (.any),
  dictRow 0x7010 0x7010 3 3 .u64 .ro true false true 8 (.num 0) (.any),
  dictRow 0x7010 0x7010 4 4 .u8 .rw true false true 1 (.num 4) (.between 1 64),
  dictRow 0x7010 0x7010 5 5 .u32 .rw true false true 4 (.num 86400) (.between 3600 604800),
  dictRow 0x7020 0x7020 1 1 .u32 .rw true false true 4 (.num 10) (.between 1 1000),
  dictRow 0x7020 0x7020 2 2 .u64 .ro true false true 8 (.num 0) (.any),
  dictRow 0x7040 0x7040 1 1 .u64 .ro false false true 8 (.num 0) (.any),
  dictRow 0x7100 0x7100 1 1 .u32 .rw true false true 4 (.num 256) (.between 0 1024),
  dictRow 0x7100 0x7100 2 2 .u8 .rwq false true false 1 (.num 0) (.between 0 1),
  dictRow 0x7100 0x7100 3 3 .u32 .rw true false true 4 (.num 20) (.between 5 10000),
  dictRow 0x7100 0x7100 4 4 .u64 .ro false false true 8 (.num 0) (.any),
  dictRow 0x7100 0x7100 5 5 .u64 .ro false false true 8 (.num 0) (.any),
  dictRow 0x7100 0x7100 6 6 .u64 .ro false true true 8 (.num 0) (.any),
  dictRow 0x7120 0x7120 1 1 .u8 .rw true false true 1 (.num 0) (.between 0 2),
  dictRow 0x7120 0x7120 2 2 .f32 .rw true false true 4 (.num 1101004800) (.f32 0 1232348160),
  dictRow 0x7120 0x7120 3 3 .f32 .ro false false true 4 (.num 1114636288) (.any),
  dictRow 0x7120 0x7120 4 4 .u32 .rw true false true 4 (.num 128) (.between 16 512),
  dictRow 0x7120 0x7120 5 5 .u32 .rw true false true 4 (.num 600) (.between 60 86400)]

/-- Catalogue rows, part 5: maximum interval, current interval, service hours, own failures, buddy position, spare list, spares remaining, identity key digest, alias key digest, running slot, security version, minimum security version, sessions live, tenant admission, session heartbeat, orphan job hold time, own tenant identity, operator key digest, tenant list, base record, import key, standby image, standby state, switch command, switches, die voltage offset, C0 to C3, die clock, C0 to C3, path margin, C0 to C3, path margin floor, voltage ceiling offset, predicted days remaining, lower band, upper band, life warning, limiting mechanism, conservation record, record count, eye scan interval, lane margins, lane margin floor. -/
def catalogue5 : List Entry := [
  dictRow 0x7120 0x7120 6 6 .u32 .rw true false true 4 (.num 21600) (.between 600 604800),
  dictRow 0x7120 0x7120 7 7 .u32 .ro false false true 4 (.num 21600) (.any),
  dictRow 0x7120 0x7120 8 8 .u64 .ro true false true 8 (.num 0) (.any),
  dictRow 0x7120 0x7120 9 9 .u32 .ro true false true 4 (.num 0) (.any),
  dictRow 0x7130 0x7130 1 1 .u16 .rw true false true 2 (.num 65535) (.position),
  dictRow 0x7130 0x7130 2 2 .domain .rw true false true 512 (.blk []) (.len 0 512),
  dictRow 0x7130 0x7130 3 3 .u16 .ro false false true 2 (.num 0) (.any),
  dictRow 0x8000 0x8000 1 1 .domain .ro false false false 64 (.blk (zeros 64)) (.any),
  dictRow 0x8000 0x8000 2 2 .domain .ro false false false 64 (.blk (zeros 64)) (.any),
  dictRow 0x8000 0x8000 3 3 .u8 .ro false false false 1 (.num 0) (.any),
  dictRow 0x8000 0x8000 4 4 .u16 .ro false false false 2 (.num 0) (.any),
  dictRow 0x8000 0x8000 5 5 .u16 .rw true false false 2 (.num 0) (.any),
  dictRow 0x8010 0x8010 1 1 .u8 .ro false false false 1 (.num 0) (.any),
  dictRow 0x8010 0x8010 2 2 .u8 .rw true false false 1 (.num 0) (.between 0 1),
  dictRow 0x8010 0x8010 3 3 .u8 .rw true false false 1 (.num 60) (.between 0 255),
  dictRow 0x8010 0x8010 4 4 .u32 .rw true false false 4 (.num 3600) (.between 60 604800),
  dictRow 0x8010 0x8010 5 5 .domain .ro false false false 64 (.blk (zeros 64)) (.any),
  dictRow 0x8020 0x8020 1 1 .domain .ro true false false 64 (.blk (zeros 64)) (.any),
  dictRow 0x8020 0x8020 2 2 .domain .rw true false false 4096 (.blk []) (.len 0 4096),
  dictRow 0x8020 0x8020 3 3 .domain .wo true false false 1048576 (.blk []) (.len 0 1048576),
  dictRow 0x8030 0x8030 1 1 .domain .wo false true false 32 (.blk []) (.len 32 32),
  dictRow 0x8040 0x8040 1 1 .domain .wo false false false 25165824 (.blk []) (.len 0 25165824),
  dictRow 0x8040 0x8040 2 2 .u8 .ro false false false 1 (.num 0) (.any),
  dictRow 0x8040 0x8040 3 3 .u8 .wo false false false 1 (.num 0) (.between 1 3),
  dictRow 0x8040 0x8040 4 4 .u64 .ro true false false 8 (.num 0) (.any),
  dictRow 0x9000 0x9000 1 4 .u8 .ro true false true 1 (.num 0) (.any),
  dictRow 0x9000 0x9000 5 8 .u16 .ro true false true 2 (.num 2250) (.any),
  dictRow 0x9000 0x9000 9 12 .u16 .ro false false true 2 (.num 0) (.any),
  dictRow 0x9000 0x9000 13 13 .u16 .rw true false true 2 (.num 500) (.between 200 1500),
  dictRow 0x9000 0x9000 14 14 .u8 .rw true false true 1 (.num 50) (.between 0 50),
  dictRow 0x9010 0x9010 1 1 .u32 .ro false false true 4 (.num 0) (.any),
  dictRow 0x9010 0x9010 2 2 .u32 .ro false false true 4 (.num 0) (.any),
  dictRow 0x9010 0x9010 3 3 .u32 .ro false false true 4 (.num 0) (.any),
  dictRow 0x9010 0x9010 4 4 .u32 .rw true false true 4 (.num 180) (.between 0 3650),
  dictRow 0x9010 0x9010 5 5 .u8 .ro false false true 1 (.num 255) (.any),
  dictRow 0x9020 0x9020 1 1 .domain .ro true false true 8388608 (.blk []) (.any),
  dictRow 0x9020 0x9020 2 2 .u32 .ro true false true 4 (.num 0) (.any),
  dictRow 0x9030 0x9030 1 1 .u32 .rw true false true 4 (.num 86400) (.between 3600 604800),
  dictRow 0x9030 0x9030 2 2 .domain .ro false false true 56 (.blk (zeros 56)) (.any),
  dictRow 0x9030 0x9030 3 3 .u8 .rw true false true 1 (.num 20) (.between 5 100)]

/-- Catalogue rows, part 6: retention margin floor, converter efficiency, input voltage, input power, peak input power, brown-outs, die sleep threshold, die state, C0 to C3, die wakes, wake waits, input low warning, input high warning, power cap, throttled time, phases remaining, temperature warning, temperatures, thermal trips, keeper uptime, describe key, description, event log, newest event, oldest event, slip snapshot tile, slip snapshot, directory probe key, directory probe, credit waits, C0 to C3, strict-order episodes, longest credit wait, credit wait report. -/
def catalogue6 : List Entry := [
  dictRow 0x9040 0x9040 1 1 .u8 .rw true false true 1 (.num 4) (.between 2 16),
  dictRow 0x9050 0x9050 1 1 .domain .ro false false true 10 (.blk (zeros 10)) (.any),
  dictRow 0xA000 0xA000 1 1 .u32 .ro false false true 4 (.num 0) (.any),
  dictRow 0xA000 0xA000 2 2 .u32 .ro false false true 4 (.num 0) (.any),
  dictRow 0xA000 0xA000 3 3 .u32 .ro false false true 4 (.num 0) (.any),
  dictRow 0xA000 0xA000 4 4 .u32 .ro true false true 4 (.num 0) (.any),
  dictRow 0xA010 0xA010 1 1 .u32 .rw true false true 4 (.num 200) (.between 20 100000),
  dictRow 0xA010 0xA010 2 5 .u8 .ro false false true 1 (.num 0) (.any),
  dictRow 0xA010 0xA010 6 6 .u64 .ro false false true 8 (.num 0) (.any),
  dictRow 0xA010 0xA010 7 7 .u64 .ro false false true 8 (.num 0) (.any),
  dictRow 0xA020 0xA020 1 1 .u32 .rw true false true 4 (.num 47000) (.between 44000 48000),
  dictRow 0xA020 0xA020 2 2 .u32 .rw true false true 4 (.num 58500) (.between 58000 59500),
  dictRow 0xA030 0xA030 1 1 .u16 .rw true false true 2 (.num 2300) (.between 1000 2300),
  dictRow 0xA030 0xA030 2 2 .u64 .ro false false true 8 (.num 0) (.any),
  dictRow 0xA040 0xA040 1 1 .domain .ro false false true 10 (.blk (zeros 10)) (.any),
  dictRow 0xA050 0xA050 1 1 .i32 .rw true false true 4 (.num 95000) (.sint (80000) (100000)),
  dictRow 0xA050 0xA050 2 2 .domain .ro false false true 192 (.blk (zeros 192)) (.any),
  dictRow 0xA050 0xA050 3 3 .u32 .ro true false true 4 (.num 0) (.any),
  dictRow 0xF000 0xF000 1 1 .u64 .ro false false true 8 (.num 0) (.any),
  dictRow 0xF010 0xF010 1 1 .u32 .rw false false false 4 (.num 0) (.between 0 16777215),
  dictRow 0xF010 0xF010 2 2 .record .ro false false false 16 (.blk (zeros 16)) (.any),
  dictRow 0xF100 0xF100 1 1 .domain .ro false false true 131072 (.blk []) (.any),
  dictRow 0xF100 0xF100 2 2 .u64 .ro false false true 8 (.num 0) (.any),
  dictRow 0xF100 0xF100 3 3 .u64 .ro false false true 8 (.num 0) (.any),
  dictRow 0xF300 0xF300 1 1 .u8 .rw false false false 1 (.num 0) (.between 0 255),
  dictRow 0xF300 0xF300 2 2 .domain .ro false false true 32768 (.blk (zeros 32768)) (.any),
  dictRow 0xF310 0xF310 1 1 .domain .rw false false true 32 (.blk (zeros 32)) (.len 32 32),
  dictRow 0xF310 0xF310 2 2 .domain .ro false false true 32 (.blk (zeros 32)) (.any),
  dictRow 0xF320 0xF320 1 4 .u64 .ro false false true 8 (.num 0) (.any),
  dictRow 0xF320 0xF320 5 5 .u64 .ro false false true 8 (.num 0) (.any),
  dictRow 0xF320 0xF320 6 6 .u32 .ro false false true 4 (.num 0) (.any),
  dictRow 0xF320 0xF320 7 7 .u32 .rw true false true 4 (.num 1000) (.between 10 1000000)]

/-- The whole catalogue (R431). -/
def catalogue : List Entry := catalogue1 ++ catalogue2 ++ catalogue3 ++ catalogue4 ++ catalogue5 ++ catalogue6

end Sys2Proof.Machine
end

