-- ==== Sys2Proof/Machine/State.lean ====
section
/-!
DEFINITION. The whole state of the module, its faults and refusals, and the state at reset.
-/
namespace Sys2Proof.Machine
open Sys2Proof

/-- Why the block stops. No meaning of this model raises one: the spec gives every command an effect. -/
inductive Fault where
  /-- raised by nobody; kept so that the type of reasons is closed. Safe: a machine that stops proves nothing false. -/
  | none
  deriving DecidableEq, Repr

/-- Why a command has no meaning. -/
inductive Refusal where
  /-- raised by `exec` for a row not modelled yet. Safe: no claim follows from it. -/
  | notModelled (mnemonic : String)
  deriving DecidableEq, Repr

/-- The module. -/
structure State where
  port : Port
  sessions : List Session
  jobs : List Job
  bring : BringUp
  power : Power
  day : DayStats
  flash : Flash
  sec : Security
  seg : Segment
  log : EventLog
  /-- written values of module-wide entries, by 256 × index + subindex (R427) -/
  dict : List (Nat × DVal)
  blocks : List OpenBlock
  /-- block writes abandoned, by session and entry (R416) -/
  abandoned : List (Nat × Nat)
  retainedWrites : List PendingWrite
  /-- a base record received whole and not yet verified, with its asker (R386) -/
  baseStaged : Option (List Byte × Asker)
  tiers : Tiers
  dma : List (Nat × Channel)
  rel : Reliability
  fabric : Fabric
  /-- logical tiles 0 to 255 (R40) -/
  tileUnits : List Tile
  /-- physical numbers of the spares left, per die (R62) -/
  spares : List (List Nat)
  /-- carrel bytes, by 2^22 × logical tile + byte address, in canonical form; a byte not listed is zero (R47) -/
  carrel : List Host.Cell
  /-- carrel granules that are poisoned, by 2^17 × logical tile + granule, rising -/
  carrelPoison : List Nat
  /-- the diagnostics log: trace records, each a tile, a work item and a `SEQ` (R50) -/
  traces : List (Nat × WorkId × Nat)
  /-- the last answer sent over DOE or the segment -/
  reply : Option Reply
  /-- how many free values have been drawn: the model's own counter -/
  draws : Nat
  /-- commands waiting, first in first out -/
  pending : List Instr
  deriving DecidableEq, Repr

/-! ### Reset -/

/-- 64 zero bytes: a digest register before anything is derived. -/
def State.noDigest : List Byte := List.replicate 64 0

/-- The delta record copy the factory leaves (R384, R429). -/
def State.factoryDelta : DeltaCopy := { gen := 1, valid := true, values := [], eventSeq := some 0, activeSlot := 0 }

/-- A delta record copy that holds nothing. -/
def State.noDelta : DeltaCopy := { gen := 0, valid := false, values := [], eventSeq := none, activeSlot := 0 }

/-- The module unpowered, as manufactured: the keeper has not started, no rail is up, and flash holds what the factory left (R383, R384). Fields the
spec gives no reset value hold the value notes/assumptions name. -/
def State.reset : State :=
  { port := { perst := true, width := 0, rate := 0, ide := 0, queues := [], inFlight := [] }
    sessions := []
    jobs := []
    bring := { phase1 := .off, segment := false, pwrGood := false, trained := false, failedDevices := [], retrains := 0, initialised := false,
               windowOver := [], ready := false, announcedFailure := false, selfFenced := false, restartAfterBrownOut := false }
    power := { vin := 0, pwrEn := false, posAddr := 63, alertLow := false, alertHigh := false, alertLimit := false, alertKeeper := false, alertHot := [],
               hotThrottle := [], thermTrip := false, phases := [16, 16, 16, 16, 4, 3, 3, 3, 3, 2], temps := List.replicate 48 0, tempQuiet := [],
               dies := List.replicate 4 .sleep }
    day := { correctedNear := 0, correctedFar := 0, retunes := 0, tempMax := 0, pathMin := [], keeperStarts := 0, phasesLost := 0,
             refreshBase := List.replicate 26 0, refreshBanks := [], firstEfficiency := none, lastLow := none }
    flash := { slotA := Config.factoryImage, slotB := [], base := none, deltaA := State.factoryDelta, deltaB := State.noDelta,
               consA := { gen := 1, valid := true, count := 0, eventSeq := some 0 }, consB := { gen := 0, valid := false, count := 0, eventSeq := none },
               daily := [] }
    sec := { identityDigest := State.noDigest, aliasDigest := State.noDigest, measures := List.replicate 6 State.noDigest, runningSlot := 0,
             imageVersion := 0, securityVersion := 0, numericsGen := 1, standby := .empty, switchHeld := [], switchDeposits := [], claimed := false }
    seg := { node := 0, csma := false, beaconSeen := false, dupLinkLocal := false, dupStatic := false }
    log := { seq := none, held := [], records := [], checkpoint := 0 }
    dict := []
    blocks := []
    abandoned := []
    retainedWrites := []
    baseStaged := none
    tiers := { tiles := [], pass := false, nearRetired := 0, farRetired := 0, readOrder := [], pageRuns := [], farReads := [] }
    dma := []
    rel := { rows := [], resources := List.replicate 26 16, atManufacture := List.replicate 26 16, bankUsed := [], replays := [], retraining := [] }
    fabric := { ports := List.replicate 12 {}, position := 0x0F00, assocs := [], outbox := [], requests := [], fenced := [], holders := [], assigned := [], folded := [],
                ward := none, wardJobs := [], filling := none, unprotected := none, probe := 0 }
    tileUnits := (List.range 256).map fun t => { phys := t % 64 }
    spares := List.replicate 4 [64, 65, 66, 67]
    carrel := []
    carrelPoison := []
    traces := []
    reply := none
    draws := 0
    pending := [] }

end Sys2Proof.Machine
end

