-- ==== Sys2Proof/Machine/Ops.lean ====
section
/-!
DEFINITION. The named operations every meaning is written over: looking up and changing queues, sessions, jobs and entries; raising an event;
forming a response; refusing a command.
-/
namespace Sys2Proof.Machine
open Sys2Proof

/-! ### Free values -/

/-- Draw a free value: the index of the draw, and the state that has counted it. -/
def draw (s : State) : Nat × State := (s.draws, { s with draws := s.draws + 1 })

/-- 64 bytes of a free number. -/
def bytes64 (n : Nat) : List Byte := toLE 64 n

/-! ### Queues, sessions and jobs -/

def State.queue (s : State) (q : Nat) : Queue := aGetD s.port.queues q {}

def State.setQueue (s : State) (q : Nat) (v : Queue) : State :=
  { s with port := { s.port with queues := aSet s.port.queues q v } }

def State.updQueue (s : State) (q : Nat) (f : Queue → Queue) : State := s.setQueue q (f (s.queue q))

/-- Change every queue that has been touched. -/
def State.mapQueues (s : State) (f : Nat → Queue → Queue) : State :=
  { s with port := { s.port with queues := s.port.queues.map fun p => (p.1, f p.1 p.2) } }

def State.session? (s : State) (id : Nat) : Option Session := s.sessions.find? fun x => x.id == id

/-- A session that packets and frames may name (R18, R20). -/
def State.live? (s : State) (id : Nat) : Option Session := s.sessions.find? fun x => x.id == id && x.live

def State.updSession (s : State) (id : Nat) (f : Session → Session) : State :=
  { s with sessions := s.sessions.map fun x => if x.id = id then f x else x }

def State.job? (s : State) (slot : Nat) : Option Job := s.jobs.find? fun j => j.slot == slot

def State.updJob (s : State) (slot : Nat) (f : Job → Job) : State :=
  { s with jobs := s.jobs.map fun j => if j.slot = slot then f j else j }

def State.jobOfKey? (s : State) (key : Nat) : Option Job := s.jobs.find? fun j => j.key == key

/-! ### Dictionary values -/

/-- The key an entry's value is held under. -/
def entryKey (index sub : Nat) : Nat := 256 * index + sub

/-- The catalogue row of an entry (R431). -/
def findEntry (index sub : Nat) : Option Entry :=
  catalogue.find? fun r => within r.lo r.hi index && within r.subLo r.subHi sub

/-- The number a value holds. -/
def DVal.toNat : DVal → Nat
  | .num n => n
  | .blk b => leNat b

/-- The bytes a value holds. -/
def DVal.toBytes : DVal → List Byte
  | .num _ => []
  | .blk b => b

/-- The default of an entry. -/
def dfltOf (index sub : Nat) : DVal := ((findEntry index sub).map (·.dflt)).getD (.num 0)

/-- A module-wide value: written, or its default. -/
def State.entry (s : State) (index sub : Nat) : DVal :=
  aGetD s.dict (entryKey index sub) (dfltOf index sub)

def State.num (s : State) (index sub : Nat) : Nat := (s.entry index sub).toNat

def State.setEntry (s : State) (index sub : Nat) (v : DVal) : State :=
  { s with dict := aSet s.dict (entryKey index sub) v }

def State.setNum (s : State) (index sub n : Nat) : State := s.setEntry index sub (.num n)

/-- Add to a module-wide counter, which wraps at its width (R424). -/
def State.add (s : State) (index sub n : Nat) : State :=
  s.setNum index sub ((s.num index sub + n) % 2 ^ (8 * ((findEntry index sub).map (·.width)).getD 8))

/-- A job-scoped value: written, or its default (R428). -/
def Job.entry (j : Job) (index sub : Nat) : DVal := aGetD j.body.dict (entryKey index sub) (dfltOf index sub)

def Job.num (j : Job) (index sub : Nat) : Nat := (j.entry index sub).toNat

def Job.setEntry (j : Job) (index sub : Nat) (v : DVal) : Job := { j with body := { j.body with dict := aSet j.body.dict (entryKey index sub) v } }

def Job.setNum (j : Job) (index sub n : Nat) : Job := j.setEntry index sub (.num n)

/-- Add to a job-scoped counter. -/
def Job.add (j : Job) (index sub n : Nat) : Job :=
  j.setNum index sub ((j.num index sub + n) % 2 ^ (8 * ((findEntry index sub).map (·.width)).getD 8))

/-! ### Statuses and responses -/

/-- Table 14-13. -/
def Status.code : Status → Nat
  | .ok => 0x00 | .okRepeat => 0x01 | .notReady => 0x02 | .deferred => 0x03 | .badOpcode => 0x10 | .badLength => 0x11
  | .range => 0x12 | .indexRange => 0x13 | .authFail => 0x14 | .noSession => 0x15 | .fenced => 0x20 | .stalled => 0x21
  | .timeout => 0x22 | .noSpace => 0x30 | .exhausted => 0x3F

/-- Table 14-12. -/
def RspType.code : RspType → Nat
  | .completion => 0x81 | .result => 0x82 | .rowCall => 0x83 | .event => 0x84 | .depositChunk => 0x85

/-- Ring entries a response occupies (R291). -/
def Response.entries (r : Response) : Nat := 1 + ceilDiv r.payload.length 64

/-- The 64-byte header line of a response (Table 14-12), with its phase and tag. -/
def Response.header (r : Response) (phase tag : Nat) : List Byte :=
  toLE 64 (r.typ.code + r.status.code * 2 ^ 8 + r.queue % 2 ^ 16 * 2 ^ 16 + r.session % 2 ^ 16 * 2 ^ 32 + r.payload.length % 2 ^ 16 * 2 ^ 48
    + r.seq % 2 ^ 64 * 2 ^ 64 + r.tag % 2 ^ 32 * 2 ^ 128 + r.retry % 2 ^ 32 * 2 ^ 160 + r.step % 2 ^ 64 * 2 ^ 224 + r.entries % 2 ^ 16 * 2 ^ 304
    + tag % 2 ^ 128 * 2 ^ 320 + phase % 2 * 2 ^ 511)

/-- Ring entries reserved at take for a command's final response (R291). -/
def finalEntries (opcode : Nat) : Nat := if opcode = 0x22 ∨ opcode = 0x30 ∨ opcode = 0x40 then 256 else 2

/-- Ring entries of a queue's store in use, events apart (R291). -/
def Queue.used (q : Queue) : Nat :=
  sum ((q.store.filter fun r => r.typ ≠ .event).map Response.entries) + q.reserved

/-- Whether a queue's store has room for `n` more entries (R291). -/
def Queue.hasRoom (q : Queue) (n : Nat) : Bool := decide (q.used + n ≤ 4096)

/-- The type of a command's final response (R278). -/
def finalType (opcode : Nat) : RspType := if opcode = 0x22 then .result else .completion

/-- The `STEP` field of a final response (Table 14-12). -/
def finalStep (c : Command) : Nat := if c.opcode = 0x20 ∨ c.opcode = 0x22 then c.step else 0

/-- Put a response in a queue's store under the next `RSP_SEQ` of its session; it is discarded when the session has ended (R393). -/
def State.enqueue (s : State) (q : Nat) (session : Nat) (r : Response) : State :=
  if (s.live? session).isSome && (s.queue q).session == session then
    s.updQueue q fun x => { x with rspSeq := x.rspSeq + 1, store := x.store ++ [{ r with seq := x.rspSeq + 1, session := session, queue := q }] }
  else s

/-- Whether a command in flight is this one: session, queue and first sequence number name it. -/
def InFlight.is (f : InFlight) (session queue seq : Nat) : Bool :=
  f.cmd.session == session && f.cmd.queue == queue && f.cmd.seq == seq

/-- Take a command off the list of those in flight: its tag and its place free (R294). -/
def State.dropInFlight (s : State) (session queue seq : Nat) : State :=
  { s with port := { s.port with inFlight := s.port.inFlight.filter fun f => !f.is session queue seq } }

/-- A command in flight. -/
def State.inFlight? (s : State) (session queue seq : Nat) : Option InFlight :=
  s.port.inFlight.find? fun f => f.is session queue seq

def State.updInFlight (s : State) (session queue seq : Nat) (g : InFlight → InFlight) : State :=
  { s with port := { s.port with inFlight := s.port.inFlight.map fun f => if f.is session queue seq then g f else f } }

/-- Release the store room reserved for a command at take (R291); a command of a replayed log has none. -/
def State.releaseRoom (s : State) (q opcode : Nat) : State :=
  if 1024 ≤ q then s else s.updQueue q fun x => { x with reserved := x.reserved - finalEntries opcode }

/-- The final response of a command (Table 14-12). -/
def finalResponse (c : Command) (st : Status) (payload : List Byte) (retry : Nat) : Response :=
  { typ := finalType c.opcode, status := st, queue := c.queue, session := c.session, seq := 0, tag := c.tag, step := finalStep c, retry := retry,
    payload := payload, cmd := some c.seq }

/-- Form the final response of an accepted command (R278, R291): it holds its tag until the response is written to the ring (R294). With its session
ended the response is discarded (R393). -/
def State.answer (s : State) (c : Command) (st : Status) (payload : List Byte) (retry : Nat) : State :=
  let t := s.releaseRoom c.queue c.opcode
  if (t.live? c.session).isSome && (t.queue c.queue).session == c.session then
    (t.updInFlight c.session c.queue c.seq fun f => { f with stage := .formed }).enqueue c.queue c.session (finalResponse c st payload retry)
  else t.dropInFlight c.session c.queue c.seq

/-- Form the response of a command that is not accepted: it holds neither tag nor place any longer (R275, R294). -/
def State.refuseWith (s : State) (c : Command) (st : Status) (payload : List Byte) : State :=
  ((s.releaseRoom c.queue c.opcode).dropInFlight c.session c.queue c.seq).enqueue c.queue c.session (finalResponse c st payload 0)

/-- An unauthenticated response: `SESSION` 0 and `RSP_SEQ` 0 (R275). -/
def State.answerBare (s : State) (c : Command) (st : Status) (payload : List Byte) : State :=
  (s.releaseRoom c.queue c.opcode).updQueue c.queue fun x =>
    { x with store := x.store ++ [{ typ := finalType c.opcode, status := st, queue := c.queue, session := 0, seq := 0, tag := c.tag, step := 0, retry := 0,
                                    payload := payload, cmd := none }] }

/-- The payload of a failing `RANGE` response (R278). -/
def fieldOffset (off : Nat) : List Byte := toLE 4 off ++ zeros 4

/-- `FIELD_OFFSET` of a header fault (R278). -/
def headerField : Nat := 0xFFFFFFFF

/-- `FIELD_OFFSET` of a fault of the module's state (R278). -/
def stateField : Nat := 0xFFFFFFFE

/-- Refuse a command at steps 5 to 10 with a status; `RANGE` names the header. -/
def State.refuse (s : State) (c : Command) (st : Status) : State :=
  s.refuseWith c st (if st = .range then fieldOffset headerField else [])

/-- An accepted command's result is decided: its final response goes once its record has committed (R360). -/
def State.finish (s : State) (session queue seq : Nat) (st : Status) (payload : List Byte) (retry : Nat) : State :=
  match s.inFlight? session queue seq with
  | none => s
  | some f =>
    if f.logged then s.answer f.cmd st payload retry
    else s.updInFlight session queue seq fun f => { f with stage := .done st payload retry }

/-! ### Events -/

/-- `SOURCE_KIND` (Table 21-5). -/
def Source.code : Source → Nat
  | .module => 0 | .job => 1 | .tile => 2 | .dma => 3 | .suesh => 4 | .cxl => 5 | .memory => 6 | .keeper => 7 | .security => 8

/-- The 32 bytes of an event record (R418, Table 21-5). -/
def EventRec.bytes (e : EventRec) : List Byte :=
  toLE 32 (e.code % 2 ^ 16 + (e.unit % 2 ^ 12) * 2 ^ 16 + e.source.code * 2 ^ 28 + (e.seq % 2 ^ 48) * 2 ^ 32 + (e.step % 2 ^ 48) * 2 ^ 80
    + (e.ms % 2 ^ 32) * 2 ^ 128 + (e.arg0 % 2 ^ 32) * 2 ^ 160 + (e.arg1 % 2 ^ 32) * 2 ^ 192 + (e.arg2 % 2 ^ 32) * 2 ^ 224)

/-- A job event's record as a session that does not hold the job reads it (R419). -/
def EventRec.veiled (e : EventRec) : EventRec :=
  { e with code := 0, unit := 0, step := 0, ms := 0, arg0 := 0, arg1 := 0, arg2 := 0 }

/-- Put an event in a queue's event store, or count it as not delivered (R291, R292). -/
def State.storeEvent (s : State) (q : Nat) (e : EventRec) (session : Nat) : State :=
  if (s.queue q).events.length < 64 then
    s.updQueue q fun x =>
      let n := if session = 0 then 0 else x.rspSeq + 1
      { x with events := x.events ++ [e.seq], rspSeq := if session = 0 then x.rspSeq else n,
               store := x.store ++ [{ typ := .event, status := .ok, queue := q, session := session, seq := n, tag := 0, step := 0, retry := 0,
                                      payload := e.bytes, cmd := none }] }
  else s.add 0x2210 5 1

/-- Records a subscriber holds unacknowledged (R420). -/
def Subscription.held (u : Subscription) : Nat := u.gather.length + sum (u.unacked.map fun p => p.1.length)

/-- Offer a module-wide event to the GDP subscribers (R420). -/
def State.offer (s : State) (e : EventRec) : State :=
  s.sessions.foldl (fun t x =>
    match x.sub with
    | none => t
    | some u =>
      if u.filter.testBit (e.code / 2 ^ 12) then
        if u.held < 256 then t.updSession x.id fun y => { y with sub := some { u with gather := u.gather ++ [e] } }
        else t.add 0x2110 6 1
      else t) s

/-- Where an event goes beyond the event log (R290, R419, R420). -/
def State.deliver (s : State) (e : EventRec) (slot : Option Nat) : State :=
  match slot with
  | some j =>
    match s.job? j with
    | none => s
    | some job =>
      match job.holder with
      | none => s
      | some h => if (s.queue job.eventQueue).session = h then s.storeEvent job.eventQueue e h else s
  | none =>
    let t := (s.port.queues.filter fun p => p.2.eventEnable).foldl (fun t p => t.storeEvent p.1 e 0) s
    t.offer e

/-- Number an event, log it and deliver it (R419). While no sequence is fixed it is held (R465). -/
def State.record (s : State) (e : EventRec) (slot : Option Nat) : State :=
  match s.log.seq with
  | none => { s with log := { s.log with held := s.log.held ++ [e] } }
  | some n =>
    let e := { e with seq := n + 1 }
    let l := s.log.records ++ [e]
    ({ s with log := { s.log with seq := some (n + 1), records := l.drop (l.length - 4096) } }).deliver e slot

/-- The index of the free values a point of the run takes its times from: it differs from one event raised to the next. -/
def State.stamp (s : State) : Nat := s.draws + s.log.seq.getD 0 * 2 ^ 64 + s.log.held.length * 2 ^ 128

/-- Raise a module-wide event (R434). -/
def State.raise (s : State) (code : Nat) (src : Source) (unit arg0 arg1 arg2 : Nat) : State :=
  s.record ⟨code, src, unit, 0, 0, Config.keeperMs s.stamp, arg0, arg1, arg2, none⟩ none

/-- Raise a job event (R434). -/
def State.raiseJob (s : State) (code slot step arg0 arg1 arg2 : Nat) : State :=
  s.record ⟨code, .job, slot, 0, step, Config.keeperMs s.stamp, arg0, arg1, arg2, (s.job? slot).map (·.key)⟩ (some slot)

/-! ### Faults of a payload -/

/-- What a check of steps 9 and 10 finds (R275, R278): a wrong length, a field out of range at its offset, a relation among fields, a fault of
the module's state, a failed verification, or no space. -/
inductive Bad where
  | length
  | field (off : Nat)
  | rel (off : Nat)
  | header
  | state
  | auth
  | space
  deriving DecidableEq, Repr

/-- The least number of a list. -/
def least (l : List Nat) : Option Nat := l.foldl (fun a n => match a with | none => some n | some m => some (min m n)) none

/-- The status and payload that a list of faults gives: lengths first, then the header, then the lowest field, then relations, then state, then
space (R275, R278). -/
def verdict (l : List Bad) : Option (Status × List Byte) :=
  if l.contains .length then some (.badLength, [])
  else if l.contains .header then some (.range, fieldOffset headerField)
  else match least (l.filterMap fun b => match b with | .field o => some o | _ => none) with
    | some o => some (.range, fieldOffset o)
    | none =>
      match least (l.filterMap fun b => match b with | .rel o => some o | _ => none) with
      | some o => some (.range, fieldOffset o)
      | none =>
        if l.contains .state then some (.range, fieldOffset stateField)
        else if l.contains .auth then some (.authFail, [])
        else if l.contains .space then some (.noSpace, [])
        else none

/-- One fault when a condition fails. -/
def need (ok : Bool) (b : Bad) : List Bad := if ok then [] else [b]

/-! ### The Accession Log and acceptance -/

/-- Records of a replayed log for a step, of a kind (R359). -/
def Job.logged (j : Job) (kind step : Nat) : List LogRec := j.decisions.filter fun r => r.kind == kind && r.step == step

/-- Whether a step is replayed to its end: its decisions are those of the log, and no others (R38, R359). -/
def Job.replays (j : Job) (step : Nat) : Bool := !(j.logged 0x0B step).isEmpty

/-- Append a record to a job's Accession Log (R359). It is not committed until LOG_COMMIT (R360). A decision taken from a record is not recorded again. -/
def State.logRecord (s : State) (slot kind opcode mb step accept : Nat) (body : List Byte) : State :=
  s.updJob slot fun j =>
    if kind != 1 && j.decisions.any fun r => r.kind == kind && r.mb == mb && r.step == step && r.accept == accept && r.body == body then j else
    { j with log := j.log ++ [{ kind := kind, opcode := opcode, mb := mb, step := step, accept := accept, body := body, offset := j.logEnd, mirrored := false, committed := false, gen := s.sec.numericsGen }],
             logEnd := j.logEnd + 64 + body.length }

/-- The command of an opcode that is to be checked next on a queue. -/
def State.arrivedOn (s : State) (q : Nat) (opcode : Nat) : Option InFlight :=
  s.port.inFlight.find? fun f => f.cmd.queue == q && f.stage == .arrived && f.cmd.opcode == opcode

/-- Whether another command in flight of the session, begun before this one, holds its tag (R294). -/
def State.tagHeld (s : State) (f : InFlight) : Bool :=
  (s.port.inFlight.takeWhile fun g => !g.is f.cmd.session f.cmd.queue f.cmd.seq).any fun g =>
    g.cmd.session == f.cmd.session && g.cmd.tag == f.cmd.tag

/-- Header faults of step 10 (R278): a field out of range, a `STEP` on an opcode that has none, or a held tag. -/
def State.headerBad (s : State) (f : InFlight) : List Bad :=
  need (!f.cmd.hdrBad) .header
    ++ need (f.cmd.step == 0 || f.cmd.opcode == 0x20 || f.cmd.opcode == 0x22 || f.cmd.opcode == 0x23) .header
    ++ need (!s.tagHeld f) .header

/-- Whether a job takes an opcode in its present state (R280, R376). -/
def Job.takes (j : Job) (opcode : Nat) : Bool :=
  match j.state with
  | .running => true
  | .restoring => [0x39, 0x40, 0x41, 0x7F, 0x02].contains opcode
  | .closing _ _ _ => false
  | .exhausted => [0x38, 0x40, 0x41, 0x7F, 0x02].contains opcode

/-- Take the next command of a replayed log, once the steps that ended before it have completed (R372). Its queue is one no session has. -/
def State.releaseReplay (s : State) (slot : Nat) : State :=
  match s.job? slot with
  | none => s
  | some j =>
    let past (r : LogRec) : Bool := r.kind == 0x0B && (match j.body.lastDone with | some n => decide (r.step ≤ n) | none => false)
    match j.replay.dropWhile past with
    | [] => s.updJob slot fun j => { j with replay := [] }
    | r :: rest =>
      if r.kind = 1 then
        let c : Command := { queue := 1024 + slot, session := 0, seq := r.accept, tag := 0, opcode := r.opcode, step := r.step, hdrBad := false, payload := r.body }
        let f : InFlight := { cmd := c, stage := .arrived, job := some slot, accept := some r.accept, logged := true, replayed := true }
        let s := s.updJob slot fun j => { j with replay := rest }
        { s with port := { s.port with inFlight := s.port.inFlight ++ [f] } }
      else s.updJob slot fun j => { j with replay := r :: rest }

/-- Accept a command: the next acceptance index of its job, and its log record, a kind and a body, unless it is not logged (R28, R359, R360). A command
taken from a log has both there, and the next one follows it. -/
def State.accept (s : State) (f : InFlight) (rec' : Option (Nat × List Byte)) : State × InFlight :=
  match f.job.bind s.job? with
  | none => (s.updInFlight f.cmd.session f.cmd.queue f.cmd.seq fun _ => { f with logged := true }, { f with logged := true })
  | some j =>
    if f.replayed then
      let s := (s.updJob j.slot fun j => { j with accepted := max j.accepted (f.accept.getD 0) }).updInFlight f.cmd.session f.cmd.queue f.cmd.seq fun _ => f
      (s.releaseReplay j.slot, f)
    else
    let a := j.accepted + 1
    let g := { f with accept := some a, logged := rec'.isNone }
    let s := (s.updJob j.slot fun j => { j with accepted := a }).updInFlight f.cmd.session f.cmd.queue f.cmd.seq fun _ => g
    (match rec' with
     | some (k, b) => s.logRecord j.slot k (if k = 1 then f.cmd.opcode else 0) 0 f.cmd.step a b
     | none => s, g)

/-- Run the command of an opcode that stands first on a queue, where `form` holds of it: checks of steps 9 and 10, acceptance under the record `rec'`
gives, effect (R275). No such command: nothing happens. A command of a log was checked when it was recorded. -/
def State.runLogged (s : State) (q opcode : Nat) (form : Command → Bool) (check : State → InFlight → List Bad)
    (rec' : State → InFlight → Option (Nat × List Byte)) (effect : State → InFlight → State) : State :=
  match s.arrivedOn q opcode with
  | none => s
  | some f =>
    if form f.cmd then
      let stateBad := match f.job.bind s.job? with
        | some j => need (j.takes opcode) .state
        | none => []
      match (if f.replayed then none else verdict (s.headerBad f ++ stateBad ++ check s f)) with
      | some (st, p) => s.refuseWith f.cmd st p
      | none =>
        let (t, g) := s.accept { f with stage := .waiting } (rec' s f)
        effect t g
    else s

/-- Run a command that is logged with its payload (R359). -/
def State.runCommand (s : State) (q opcode : Nat) (form : Command → Bool) (check : State → InFlight → List Bad)
    (effect : State → InFlight → State) : State :=
  s.runLogged q opcode form check (fun _ f => some (1, f.cmd.payload)) effect

/-- The asker that a command in flight is. -/
def InFlight.asker (f : InFlight) : Asker := .command f.cmd.session f.cmd.queue f.cmd.seq

/-- Whether a step's `COMPLETION` waits for that of an earlier step of its job (R32). -/
def State.outOfStepOrder (s : State) (r : Response) : Bool :=
  match r.cmd.bind fun n => s.inFlight? r.session r.queue n with
  | some f => f.cmd.opcode == 0x20 && f.accept.isSome && s.port.inFlight.any fun g =>
      g.cmd.opcode == 0x20 && g.accept.isSome && g.job == f.job && decide (g.cmd.step < f.cmd.step)
  | none => false

/-- Finish the command an effect has run. -/
def State.done (s : State) (f : InFlight) (st : Status) (payload : List Byte) : State :=
  s.finish f.cmd.session f.cmd.queue f.cmd.seq st payload 0

/-- Decide the final response of what asked (R278). -/
def State.finishAsker (s : State) (a : Asker) (st : Status) (payload : List Byte) : State :=
  match a with
  | .command id q seq => s.finish id q seq st payload 0
  | .gdp _ _ => s

/-- Form the first response that a job holds back, as long as its queue has room or its session has ended; `fuel` bounds their number (R291, R393). -/
def flushFragments (slot : Nat) : Nat → State → State
  | 0, s => s
  | fuel + 1, s =>
    match s.job? slot with
    | none => s
    | some j =>
      match j.fragments with
      | [] => s
      | f :: rest =>
        if (s.queue f.rsp.queue).hasRoom f.rsp.entries || (s.queue f.rsp.queue).session != f.session then
          let s := (s.updJob slot fun j => { j with fragments := rest }).enqueue f.rsp.queue f.session f.rsp
          let s := match f.last with
            | some (a, p) => s.finishAsker a .ok p
            | none => s
          flushFragments slot fuel s
        else s

/-- Let every job form what it holds back. -/
def State.flushAll (s : State) : State := s.jobs.foldl (fun s j => flushFragments j.slot j.fragments.length s) s

/-- Hold responses back until their room can be reserved, and form those that can be formed. -/
def State.holdFragments (s : State) (slot : Nat) (l : List Fragment) : State :=
  (s.updJob slot fun j => { j with fragments := j.fragments ++ l }).flushAll

/-! ### The recovery region (R362, R363, Table 13-1) -/

/-- Bytes under the retention budget that a job holds: log records and retained sends (R362). -/
def Job.logBytes (j : Job) : Nat := sum (j.log.map fun r => 64 + r.body.length)
def Job.retainedBytes (j : Job) : Nat := sum (j.retained.map fun r => r.bytes.length)

/-- Whether the recovery region, twice the retention budget and the buddy's Deposit space, is full: this position's log and copies, its ward's log and its ward's
image. -/
def State.regionFull (s : State) : Bool :=
  decide ((2 * s.num 0x7120 4 + s.num 0x7100 1) * 2 ^ 30 ≤ sum (s.jobs.map fun j => j.logBytes + j.retainedBytes)
    + sum (s.fabric.wardJobs.map fun w => w.log.length + w.image.length + w.arriving.length))

end Sys2Proof.Machine
end

