-- ==== Sys2Proof/Machine/TileFormat.lean ====
section
/-!
DEFINITION. Stored tiles: the spine label, the four formats, the checks of carried tiles, the compressor's choice, and the skewed carrel layout
(07_tile_formats, R165).
-/
namespace Sys2Proof.Machine
open Sys2Proof

/-- Formats of a stored tile (Table 07-2). -/
inductive Format where
  | dense | sb | nm | cl
  deriving DecidableEq, Repr

def Format.code : Format → Nat
  | .dense => 0 | .sb => 1 | .nm => 2 | .cl => 3

def format? (n : Nat) : Option Format := [Format.dense, .sb, .nm, .cl][n]?

/-- Formats a type may be stored in (Table 07-1). -/
def ElemType.allows (t : ElemType) (f : Format) : Bool :=
  match f, t with
  | .dense, _ => true
  | .sb, .u4 | .sb, .u8 | .sb, .em48 | .sb, .fx128 => false
  | .sb, _ => true
  | .nm, .bf16 | .nm, .fp16 | .nm, .e4m3 | .nm, .e5m2 | .nm, .int8 => true
  | .nm, _ => false
  | .cl, .bf16 | .cl, .fp16 | .cl, .int16 => true
  | .cl, _ => false

/-- The fields of a spine label (Table 07-2). -/
structure Label where
  format : Format
  elem : ElemType
  nmAxis : Bool
  indexRange : Bool
  pruned : Bool
  scale : Nat
  rowsM1 : Nat
  colsM1 : Nat
  nnz : Nat
  tileCol : Nat
  tileRow : Nat
  tensor : Nat
  aux : Nat
  deriving DecidableEq, Repr

/-- One step of the CRC of R146. -/
def crcBit (crc : Nat) (b : Bool) : Nat :=
  let top := crc.testBit 15 != b
  let s := (2 * crc) % 65536
  if top then s ^^^ 0x1021 else s

/-- CRC-16, polynomial 0x1021, initial 0xFFFF, unreflected (R146). -/
def crc16 (b : List Byte) : Nat :=
  b.foldl (fun c x => (List.range 8).foldl (fun c i => crcBit c (x.toNat.testBit (7 - i))) c) 0xFFFF

/-- A label's granule, its check computed (R145, R146). -/
def Label.bytes (l : Label) : List Byte :=
  let b := toLE 30 (l.format.code + l.elem.code * 2 ^ 4 + (if l.nmAxis then 2 ^ 9 else 0) + (if l.indexRange then 2 ^ 10 else 0)
    + (if l.pruned then 2 ^ 11 else 0) + (l.scale % 256) * 2 ^ 24 + (l.rowsM1 % 32) * 2 ^ 67 + (l.colsM1 % 32) * 2 ^ 72 + (l.nnz % 2 ^ 11) * 2 ^ 77
    + (l.tileCol % 2 ^ 20) * 2 ^ 88 + (l.tileRow % 2 ^ 36) * 2 ^ 108 + (l.tensor % 2 ^ 32) * 2 ^ 144 + (l.aux % 2 ^ 64) * 2 ^ 176)
  b ++ toLE 2 (crc16 b)

/-- Whether a label granule passes `LABEL_CHECK` (R146). -/
def labelCheck (g : List Byte) : Bool := crc16 (g.take 30) == leAt g 30 2

/-- A label's fields, `LABEL_CHECK` aside: none where R6 or Table 07-1 fails. -/
def labelFields (g : List Byte) : Option Label :=
  let n := leNat (g.take 32)
  match format? (bits n 3 0), elemType? (bits n 8 4) with
  | some f, some t =>
    let l : Label := { format := f, elem := t, nmAxis := bit n 9, indexRange := bit n 10, pruned := bit n 11, scale := bits n 31 24, rowsM1 := bits n 71 67,
                       colsM1 := bits n 76 72, nnz := bits n 87 77, tileCol := bits n 107 88, tileRow := bits n 143 108, tensor := bits n 175 144,
                       aux := bits n 239 176 }
    if g.length = 32 ∧ t.allows f ∧ bits n 23 12 = 0 ∧ bits n 66 32 = 0 ∧ l.scale ≠ 255 ∧ within 1 1024 l.nnz
        ∧ (f = .nm ∨ l.nmAxis = false) ∧ (f = .sb ∨ (f = .cl ∧ l.aux ≤ 1024) ∨ l.aux = 0) then some l else none
  | _, _ => none

/-- Read a label: none where the check, R6 or Table 07-1 fails. -/
def readLabel (g : List Byte) : Option Label := if labelCheck g then labelFields g else none

/-- Present sub-blocks of a mask (R148). -/
def popcount64 (m : Nat) : Nat := ((List.range 64).filter fun i => m.testBit i).length

/-- Granules of a body (Table 07-3). -/
def bodyGranules (f : Format) (t : ElemType) (aux : Nat) : Nat :=
  match f with
  | .dense => 4 * t.bits
  | .sb => ceilDiv (popcount64 aux * t.bits) 16
  | .nm => 2 * t.bits + 4
  | .cl => ceilDiv aux 9

/-- Bytes of a stored tile from its label. -/
def Label.imageBytes (l : Label) : Nat := 32 * (1 + bodyGranules l.format l.elem l.aux)

/-! ### Packing elements -/

/-- Elements of `b` bits, packed from bit 0 of byte 0 (R147, R178). -/
def packElems (b : Nat) (l : List Nat) : List Byte :=
  if b % 8 = 0 then (l.map fun e => toLE (b / 8) (e % 2 ^ b)).flatten
  else (chunks 2 l.length l).map fun p => BitVec.ofNat 8 (nth p 0 % 16 + 16 * (nth p 1 % 16))

/-- `n` elements of `b` bits. -/
def unpackElems (b n : Nat) (d : List Byte) : List Nat :=
  if b % 8 = 0 then (List.range n).map fun i => leAt d (i * (b / 8)) (b / 8)
  else (List.range n).map fun i => ((d.getD (i / 2) 0).toNat / 16 ^ (i % 2)) % 16

/-- Element index of element (i, j) of sub-block m (R148). -/
def sbIndex (m k : Nat) : Nat := 32 * (4 * (m / 8) + k / 4) + 4 * (m % 8) + k % 4

/-- Elements of a sub-block. -/
def subBlock (t : List Nat) (m : Nat) : List Nat := (List.range 16).map fun k => nth t (sbIndex m k)

/-- The sub-block mask of a tile (R148). -/
def sbMask (t : List Nat) : Nat := sum ((List.range 64).map fun m => if (subBlock t m).any (· ≠ 0) then 2 ^ m else 0)

/-- Element index of position p of group g of line r, along the axis (R149). -/
def nmIndex (axis : Bool) (r g p : Nat) : Nat := if axis then 32 * (4 * g + p) + r else 32 * r + 4 * g + p

/-- The elements of an NM group. -/
def nmGroup (t : List Nat) (axis : Bool) (r g : Nat) : List Nat := (List.range 4).map fun p => nth t (nmIndex axis r g p)

/-- The two positions a group is stored at (R149). -/
def nmPositions (grp : List Nat) : Nat × Nat :=
  match (List.range 4).filter fun p => nth grp p ≠ 0 with
  | [] => (0, 1)
  | [p] => if p = 0 then (0, 1) else (0, p)
  | p :: q :: _ => (p, q)

/-- Elements whose stored bits are not all zero. -/
def nnzOf (t : List Nat) : Nat := (t.filter (· ≠ 0)).length

/-! ### Encoding and decoding bodies -/

/-- The body and `AUX` of a tile in a format. -/
def encodeBody (f : Format) (ty : ElemType) (axis : Bool) (t : List Nat) : List Byte × Nat :=
  let b := ty.bits
  match f with
  | .dense => (packElems b t, 0)
  | .sb =>
    let mask := sbMask t
    let d := packElems b (((List.range 64).filter fun m => mask.testBit m).map (subBlock t)).flatten
    (fitTo (32 * bodyGranules .sb ty mask) d, mask)
  | .nm =>
    let lines := (List.range 32).map fun r => (List.range 8).map fun g => let grp := nmGroup t axis r g; (grp, nmPositions grp)
    let vals := (lines.flatten.map fun x => [nth x.1 x.2.1, nth x.1 x.2.2]).flatten
    let pos := lines.map fun l => sum ((List.range 8).map fun g => match l[g]? with | some x => (x.2.1 + 4 * x.2.2) * 16 ^ g | none => 0)
    (packElems b vals ++ (pos.map (toLE 4)).flatten, 0)
  | .cl =>
    let es := ((List.range 1024).filter fun i => nth t i ≠ 0).map fun i => i * 65536 + nth t i % 65536
    let gr := (chunks 9 es.length es).map fun g => toLE 32 (sum ((List.range 9).map fun e => nth g e * 2 ^ (26 * e)))
    (gr.flatten, es.length)

/-- `CL` entries of a body: index and value. -/
def clEntries (n : Nat) (d : List Byte) : List (Nat × Nat) :=
  (List.range n).map fun i => let w := bits (leNat (slice d (32 * (i / 9)) 32)) (26 * (i % 9) + 25) (26 * (i % 9)); (w / 65536, w % 65536)

/-- `NM` groups of a body, by line and group: both positions and both values. -/
def nmEntries (b : Nat) (d : List Byte) : List (Nat × Nat × (Nat × Nat) × (Nat × Nat)) :=
  let vals := unpackElems b 512 d
  ((List.range 32).map fun r =>
    let w := leAt d (64 * b + 4 * r) 4
    (List.range 8).map fun g => (r, g, (bits w (4 * g + 1) (4 * g), bits w (4 * g + 3) (4 * g + 2)), (nth vals (16 * r + 2 * g), nth vals (16 * r + 2 * g + 1)))).flatten

/-- Elements as the body holds them, by element index, the extent not applied. -/
def rawElems (l : Label) (d : List Byte) : List Nat :=
  let z := List.replicate 1024 0
  match l.format with
  | .dense => unpackElems l.elem.bits 1024 d
  | .sb =>
    let ms := (List.range 64).filter fun m => l.aux.testBit m
    let es := unpackElems l.elem.bits (16 * ms.length) d
    (List.range ms.length).foldl (fun t i => (List.range 16).foldl (fun t k => t.set (sbIndex (nth ms i) k) (nth es (16 * i + k))) t) z
  | .nm =>
    (nmEntries l.elem.bits d).foldl (fun t x =>
      (t.set (nmIndex l.nmAxis x.1 x.2.1 x.2.2.1.1) x.2.2.2.1).set (nmIndex l.nmAxis x.1 x.2.1 x.2.2.1.2) x.2.2.2.2) z
  | .cl => (clEntries l.aux d).foldl (fun t x => t.set x.1 x.2) z

/-- Whether an element index lies within the extent (R155). -/
def Label.inside (l : Label) (i : Nat) : Bool := decide (i / 32 ≤ l.rowsM1) && decide (i % 32 ≤ l.colsM1)

/-- Zero every position beyond the extent (R155). -/
def clip (inside : Nat → Bool) (t : List Nat) : List Nat := (List.range 1024).map fun i => if inside i then nth t i else 0

/-- The 1,024 elements of a stored image (R155); a tile that is absent or cannot be read is all zero (R151). -/
def decodeTile (img : List Byte) : List Nat :=
  match readLabel (img.take 32) with
  | some l => clip l.inside (rawElems l (img.drop 32))
  | none => List.replicate 1024 0

/-! ### Carried tiles -/

/-- Whether a carried tile names a position out of its extent (R155). -/
def outOfExtent (l : Label) (d : List Byte) : Bool :=
  match l.format with
  | .cl => (clEntries l.aux d).any fun x => !l.inside x.1
  | .sb => (List.range 64).any fun m => l.aux.testBit m && (List.range 16).all fun k => !l.inside (sbIndex m k)
  | _ => false

/-- A carried tile as it is stored: `INDEX_RANGE` and the check recomputed (R156). -/
def storeCarried (l : Label) (d : List Byte) : List Byte := { l with indexRange := outOfExtent l d }.bytes ++ d

/-! ### The compressor's choice -/

/-- What a writer of tiles allows (R153). -/
structure Choice where
  sb : Bool
  cl : Bool
  nm : Bool
  nmOnly : Bool
  prune : Bool
  axis : Bool
  deriving DecidableEq, Repr

/-- No group holds more than two elements whose bits are not all zero (R153). -/
def nmValid (t : List Nat) (axis : Bool) : Bool :=
  (List.range 32).all fun r => (List.range 8).all fun g => decide (((nmGroup t axis r g).filter (· ≠ 0)).length ≤ 2)

/-- Whether element a has larger magnitude than b in the order of R154. -/
def magOver (ty : ElemType) (a b : Nat) : Bool :=
  match (decodeElem ty a).abs, (decodeElem ty b).abs with
  | .nan, .nan => false
  | .nan, _ => true
  | _, .nan => false
  | x, y => y.lt x

/-- The two positions kept of an over-full group: largest magnitude, ties to the lower position (R154). -/
def nmKeep (ty : ElemType) (grp : List Nat) : List Nat :=
  let best (skip : Option Nat) : Nat :=
    (List.range 4).foldl (fun b p => if some p = skip then b else if some b = skip ∨ magOver ty (nth grp p) (nth grp b) then p else b)
      (if skip = some 0 then 1 else 0)
  let a := best none
  [a, best (some a)]

/-- Prune a tile: the tile left and the elements dropped (R154). -/
def pruneTile (ty : ElemType) (axis : Bool) (t : List Nat) : List Nat × List Nat :=
  let groups := ((List.range 32).map fun r => (List.range 8).map fun g => (r, g)).flatten
  groups.foldl (fun (acc : List Nat × List Nat) rg =>
    let grp := nmGroup t axis rg.1 rg.2
    if (grp.filter (· ≠ 0)).length ≤ 2 then acc
    else
      let keep := nmKeep ty grp
      let drop := (List.range 4).filter fun p => !keep.contains p && nth grp p ≠ 0
      (drop.foldl (fun t p => t.set (nmIndex axis rg.1 rg.2 p) 0) acc.1, acc.2 ++ drop.map (nth grp))) (t, [])

/-- Granules stored of a tile in a format. -/
def storedSize (f : Format) (ty : ElemType) (t : List Nat) : Nat :=
  1 + bodyGranules f ty (match f with | .sb => sbMask t | .cl => nnzOf t | _ => 0)

/-- What the compressor makes of a tile (R153, R154): its image, empty when `ABSENT`; the elements stored; those dropped; whether it fell back. -/
structure Compressed where
  image : List Byte
  elems : List Nat
  dropped : List Nat
  fellBack : Bool
  deriving DecidableEq, Repr

/-- Where a tile is written: its label's fields. -/
structure TileAt where
  tensor : Nat
  row : Nat
  col : Nat
  rowsM1 : Nat
  colsM1 : Nat
  scale : Nat
  deriving DecidableEq, Repr

/-- Apply the choice rule to a converted tile (R153). -/
def compressTile (c : Choice) (ty : ElemType) (a : TileAt) (t0 : List Nat) : Compressed :=
  let t := clip (fun i => decide (i / 32 ≤ a.rowsM1) && decide (i % 32 ≤ a.colsM1)) t0
  if t.all (· = 0) then ⟨[], t, [], false⟩
  else
    let valid := nmValid t c.axis
    let nmCand := c.nm && (valid || c.prune)
    let cands := (if c.nmOnly then [] else [Format.dense]) ++ (if nmCand then [Format.nm] else []) ++ (if c.sb && !c.nmOnly then [Format.sb] else [])
      ++ (if c.cl && !c.nmOnly then [Format.cl] else [])
    let pick := cands.foldl (fun (b : Option Format) f => match b with
      | none => some f
      | some g => if storedSize f ty t < storedSize g ty t then some f else some g) none
    let f := pick.getD .dense
    let (u, dropped) := if f = .nm ∧ valid = false then pruneTile ty c.axis t else (t, [])
    let (body, aux) := encodeBody f ty c.axis u
    let l : Label := { format := f, elem := ty, nmAxis := f == .nm && c.axis, indexRange := false, pruned := !dropped.isEmpty, scale := a.scale,
                       rowsM1 := a.rowsM1, colsM1 := a.colsM1, nnz := nnzOf u, tileCol := a.col, tileRow := a.row, tensor := a.tensor, aux := aux }
    ⟨l.bytes ++ body, u, dropped, c.nm && !nmCand⟩

/-! ### The skewed carrel layout -/

/-- Granules per tile row of a decoded body (R165). -/
def partsOf (b : Nat) : Nat := b / 8

/-- Granule offset of part p of row r in a decoded body (R165). -/
def skew (parts r p : Nat) : Nat := parts * r + (p + parts * r / 16) % parts

/-- Bytes of a decoded body in the skewed layout: 8-, 16- and 32-bit elements; other widths are packed in element order (R165, R147). -/
def skewBody (b : Nat) (t : List Nat) : List Byte :=
  if b = 8 ∨ b = 16 ∨ b = 32 then
    let parts := partsOf b
    let lin := packElems b t
    (List.range (32 * parts)).map (fun g =>
      let r := g / parts
      let p := (g % parts + parts - (parts * r / 16) % parts) % parts
      slice lin (32 * (parts * r + p)) 32) |>.flatten
  else packElems b t

/-- Elements of a decoded body from the skewed layout. -/
def unskewBody (b : Nat) (d : List Byte) : List Nat :=
  if b = 8 ∨ b = 16 ∨ b = 32 then
    let parts := partsOf b
    unpackElems b 1024 ((List.range (32 * parts)).map (fun i => slice d (32 * skew parts (i / parts) (i % parts)) 32) |>.flatten)
  else unpackElems b 1024 d

end Sys2Proof.Machine
end

