-- ==== Sys2Proof/Machine/Program.lean ====
section
/-!
DEFINITION. Program sets: descriptors read by the bit ranges of their tables, the carrel ranges and tile coordinates an instance touches, and the
checks `JOB_OPEN` makes of a set (R48 to R50, R60, R71, R88, R114, R115, R158, R162, R167, R171, R188, R193, R214, R234).
-/
namespace Sys2Proof.Machine
open Sys2Proof

/-- A field of a descriptor, by its bit range. -/
def Desc.f (d : Desc) (hi lo : Nat) : Nat := bits d.w hi lo

/-- One bit of a descriptor. -/
def Desc.b (d : Desc) (i : Nat) : Bool := bit d.w i

def Desc.kind (d : Desc) : Nat := d.f 7 0
def Desc.fence (d : Desc) : Bool := d.b 8
def Desc.trace (d : Desc) : Bool := d.b 10
def Desc.keepRamp (d : Desc) : Bool := d.b 9
def Desc.mbSel (d : Desc) : Nat := d.f 31 16
def Desc.dep (d : Desc) : Nat := d.f 63 32
def Desc.seq (d : Desc) : Nat := d.f 127 64

def Program.at (p : Program) (i : Nat) : Desc := p.descs.getD i ⟨0⟩

/-! ### Loops (R60) -/

/-- Length of a `LOOP` body (Table 03-12). -/
def Desc.loopLen (d : Desc) : Nat := d.f 143 128
def Desc.loopLevel (d : Desc) : Nat := d.f 145 144

/-- Positions of the loops that enclose a position, outermost first. -/
def Program.enclosing (p : Program) (i : Nat) : List Nat :=
  (List.range i).filter fun q => (p.at q).kind == 0x0D && decide (i ≤ q + (p.at q).loopLen)

/-- Bounds on the counts a loop may take from data (R49, R83): most seeds of a piece, the edge budget, and the hops. -/
structure Bounds where
  seeds : Nat
  budget : Nat
  hops : Nat
  deriving DecidableEq, Repr

/-- Largest count of a `LOOP` (R49). -/
def Desc.maxCount (d : Desc) (b : Bounds) : Nat :=
  match d.f 151 148 with
  | 0 => d.f 191 160
  | 1 => if d.f 153 152 < b.hops then ceilDiv (b.seeds + 4 * b.budget) 32 else 0
  | 2 => if d.f 153 152 < b.hops then 4 * b.budget else 0
  | _ => ceilDiv b.seeds 32

/-- Registers at the largest counts; none where an enclosing loop never runs. -/
def Program.maxRegs (p : Program) (b : Bounds) (i : Nat) : Option Regs :=
  let ls := p.enclosing i
  if ls.any fun q => (p.at q).maxCount b == 0 then none
  else some (ls.foldl (fun r q => r.set (p.at q).loopLevel ((p.at q).maxCount b - 1)) [0, 0, 0, 0])

/-- base + stride × L(loop). -/
def Desc.addr (d : Desc) (r : Regs) (hi lo shi slo lhi llo : Nat) : Nat := d.f hi lo + d.f shi slo * nth r (d.f lhi llo)

/-! ### Operations of `VECTOR` (Table 09-1) -/

def vectorOps : List Nat :=
  [0x01, 0x02, 0x03, 0x04, 0x05, 0x06, 0x07, 0x08, 0x09, 0x10, 0x11, 0x12, 0x13, 0x14, 0x15, 0x16, 0x20, 0x21, 0x22, 0x23, 0x30, 0x31, 0x32, 0x33, 0x34,
   0x40, 0x41, 0x42, 0x43]

/-- Operations with a second operand B. -/
def vectorBinary (op : Nat) : Bool := within 0x02 0x07 op || within 0x20 0x23 op
def vectorCompare (op : Nat) : Bool := within 0x20 0x23 op
def vectorReduce (op : Nat) : Bool := within 0x30 0x34 op
def vectorPack (op : Nat) : Bool := op == 0x42 || op == 0x43

/-- Fields shared by `VECTOR` and `CONVERT`: shape, count and length register. -/
structure Shape where
  shape : Nat
  count : Nat
  len : Nat
  deriving DecidableEq, Repr

def Desc.vShape (d : Desc) : Shape := ⟨d.f 156 155, d.f 197 176, d.f 171 165⟩
def Desc.cShape (d : Desc) : Shape := ⟨d.f 141 140, d.f 181 160, d.f 154 148⟩

/-- 128-lane mode: every source and the destination are 16 bits or narrower (R176). -/
def Desc.vWide (d : Desc) : Bool :=
  let op := d.f 135 128
  let b := vectorBinary op && decide (d.f 158 157 ≠ 1)
  decide ((elemType (d.f 145 141)).bits ≤ 16) && decide ((elemType (d.f 140 136)).bits ≤ 16) && (!b || decide ((elemType (d.f 150 146)).bits ≤ 16))
    && (!(vectorBinary op && decide (d.f 158 157 = 1)))

def Desc.cWide (d : Desc) : Bool := decide ((elemType (d.f 132 128)).bits ≤ 16) && decide ((elemType (d.f 137 133)).bits ≤ 16)

/-- Elements of an instance (R177). -/
def Shape.elems (s : Shape) (wide : Bool) : Nat :=
  match s.shape with
  | 0 => if wide then 2 * s.len else s.len
  | 1 => s.count
  | _ => 1024 * s.count

/-- Elements of a pass in 64-lane or 128-lane mode (R177). -/
def passElems (wide : Bool) : Nat := if wide then 128 else 64

/-- Granules an operand of b-bit elements takes (R178). -/
def Shape.granules (s : Shape) (wide : Bool) (b : Nat) : Nat := if s.shape = 2 then s.count * 4 * b else ceilDiv (s.elems wide * b) 256

/-! ### Carrel ranges -/

/-- Granules of a streamed operand's body by its type code (Table 08-3). -/
def streamGranules (t : Nat) : Nat := if t ≤ 1 then 64 else 32

/-- An operand's carrel range, under the bit where the field that places it starts. -/
abbrev Placed := Nat × Range

/-- Index entries read from the carrel by `GATHER` and `SCATTER` (R114). -/
def Desc.indexRange (d : Desc) (r : Regs) : List Placed :=
  let first := d.f 295 256 + d.f 311 296 * nth r (d.f 137 136)
  let go (w : Nat) : List Placed := let a := first * w / 32; [(224, ⟨d.f 255 224 + a, ceilDiv ((first + d.f 154 144) * w) 32 - a, false⟩)]
  match d.f 131 128 with
  | 1 => go 4
  | 2 => go 8
  | _ => []

/-- Granules of the rows a `GATHER` lands or a `SCATTER` reads (R115). -/
def Desc.rowGranules (d : Desc) : Nat := ceilDiv (d.f 154 144) 32 * ceilDiv (d.f 188 176) 32 * (if d.b 134 then 64 else 128)

/-- The carrel operands of an instance of a descriptor under these loop registers (R49, R52). -/
def Desc.operands (d : Desc) (r : Regs) : List Placed :=
  match d.kind with
  | 0x01 =>
    let t := (List.range 4).any fun h => decide (h ≤ d.f 133 132) && d.f (138 + 3 * h) (136 + 3 * h) == 4
    [(208, ⟨d.f 225 208, 2 ^ d.f 188 184 * (if t then 16 else 8) / 32, true⟩), (336, ⟨d.f 353 336, 2, true⟩)]
  | 0x02 => d.indexRange r ++ [(312, ⟨d.addr r 328 312 351 336 139 138, d.rowGranules, true⟩)]
  | 0x03 => d.indexRange r ++ [(312, ⟨d.addr r 328 312 351 336 139 138, d.rowGranules, false⟩)]
  | 0x04 =>
    let rt := ceilDiv (d.f 159 144 + 1) 32
    let kt := d.f 166 160 + 1
    [(192, ⟨d.addr r 208 192 191 176 139 138, rt * kt * streamGranules (d.f 131 128), false⟩)]
      ++ (if d.b 136 then [] else [(320, ⟨d.addr r 336 320 239 224 141 140, kt * 64, false⟩)])
      ++ (if d.b 137 then [] else [(256, ⟨d.addr r 272 256 255 240 143 142, rt * 128, true⟩)])
  | 0x05 =>
    let ft := d.f 158 152 + 1
    [(192, ⟨d.addr r 208 192 191 176 139 138, (d.f 149 144 + 1) * ft * streamGranules (d.f 131 128), false⟩)]
      ++ (if d.b 137 then [] else [(256, ⟨d.addr r 272 256 255 240 143 142, ft * 128, true⟩)])
  | 0x06 =>
    let op := d.f 135 128
    let s := d.vShape
    let wide := d.vWide
    let n := s.elems wide
    let dst := d.addr r 290 274 306 291 205 204
    let bAt := d.addr r 257 241 273 258 203 202
    let bBits := (elemType (d.f 150 146)).bits
    (if d.b 159 then [] else [(208, ⟨d.addr r 224 208 240 225 201 200, s.granules wide (elemType (d.f 145 141)).bits, false⟩)])
      ++ (if vectorBinary op ∧ d.f 158 157 = 0 ∨ op = 0x40 then [(241, ⟨bAt, s.granules wide bBits, false⟩)] else [])
      ++ (if vectorBinary op ∧ d.f 158 157 = 2 then [(241, ⟨bAt, 1, false⟩)] else [])
      ++ (if op = 0x42 then [(241, ⟨bAt, 1, true⟩)] else [])
      ++ (if d.b 154 ∨ vectorPack op then [(307, ⟨d.addr r 323 307 339 324 207 206, ceilDiv n 256, false⟩)] else [])
      ++ [(274, ⟨dst, if vectorCompare op then ceilDiv n 256
                else if vectorReduce op then (if d.b 160 then ceilDiv (ceilDiv n 32) 8 else 1)
                else s.granules wide (elemType (d.f 140 136)).bits, true⟩)]
  | 0x07 =>
    let rows := d.f 154 148 + 1
    let cols := d.f 167 156 + 1
    let g (t : Nat) := ceilDiv rows 32 * ceilDiv cols 32 * (if t = 0 then 128 else 64)
    (if d.b 146 then [] else [(176, ⟨d.addr r 192 176 271 256 245 244, g (d.f 140 136), false⟩)])
      ++ [(193, ⟨d.addr r 209 193 287 272 247 246, g (d.f 145 141), true⟩)]
      ++ (if d.f 131 128 = 0 then [] else [(210, ⟨d.addr r 226 210 303 288 249 248, ceilDiv rows 2, d.f 131 128 == 1⟩)])
      ++ (if d.b 132 then [(227, ⟨d.addr r 243 227 319 304 251 250, ceilDiv (rows * cols) 256, false⟩)] else [])
  | 0x08 =>
    let s := d.cShape
    let wide := d.cWide
    let st := d.f 132 128
    let dt := d.f 137 133
    let aff := ceilDiv (ceilDiv (s.elems wide) 32) 8
    (if d.b 142 then [] else [(192, ⟨d.addr r 208 192 224 209 183 182, s.granules wide (elemType st).bits, false⟩)])
      ++ [(225, ⟨d.addr r 241 225 257 242 185 184, s.granules wide (elemType dt).bits, true⟩)]
      ++ (if st = 9 ∨ dt = 9 then [(258, ⟨d.f 274 258, aff, dt == 9⟩)] else [])
  | 0x09 =>
    let g := if d.f 143 141 = 0 ∨ d.f 143 141 = 3 then 128 else 64
    [(312, ⟨d.addr r 328 312 311 296 145 144, (d.f 153 148 + 1) * (d.f 159 154 + 1) * g, false⟩)]
  | 0x0A => [(160, ⟨d.f 176 160, 16384, true⟩)]
  | _ => []

/-- The carrel ranges an instance of a descriptor touches under these loop registers (R49, R52). -/
def Desc.ranges (d : Desc) (r : Regs) : List Range := (d.operands r).map (·.2)

/-- The largest tile coordinates an instance forms, each with its label field's width and the bit where the field that places it starts (R49, Table 07-2). -/
def Desc.coords (d : Desc) (r : Regs) : List (Nat × Nat × Nat) :=
  match d.kind with
  | 0x04 =>
    if d.b 136 then [(352, 36, d.f 387 352 + d.f 166 160), (388, 20, d.f 407 388 + d.f 239 224 * nth r (d.f 141 140))] else []
  | 0x05 => [(352, 36, d.f 387 352 + d.f 239 224 * nth r (d.f 141 140)), (388, 20, d.f 407 388 + d.f 149 144)]
  | 0x09 => [(224, 36, d.f 259 224 + d.f 295 280 * nth r (d.f 147 146) + d.f 153 148), (260, 20, d.f 279 260 + d.f 159 154)]
  | _ => []

/-- What an instance reaches that its program or the label has no room for: carrel granules and tile coordinates, each at its own field (R49). -/
def Desc.reachBads (d : Desc) (carrel : Nat) (r : Regs) (off : Nat) : List Bad :=
  ((d.operands r).map fun x => need (decide (x.2.first + x.2.len ≤ carrel)) (.rel (off + x.1 / 8))).flatten
    ++ ((d.coords r).map fun x => need (decide (x.2.2 < 2 ^ x.2.1)) (.rel (off + x.1 / 8))).flatten

/-! ### Field checks -/

/-- A field that must be zero. -/
def Desc.zero (d : Desc) (off hi lo : Nat) : List Bad := need (d.f hi lo == 0) (.field (off + lo / 8))

/-- Fields that must be zero, high bit and low bit each. -/
def Desc.res (d : Desc) (off : Nat) (l : List (Nat × Nat)) : List Bad := (l.map fun p => d.zero off p.1 p.2).flatten

/-- A field that must meet a condition. -/
def Desc.ok (off lo : Nat) (c : Bool) : List Bad := need c (.field (off + lo / 8))

/-- A relation among a descriptor's fields. -/
def Desc.rel (off : Nat) (c : Bool) : List Bad := need c (.rel off)

/-- The head (Tables 03-6 to 03-9). -/
def Desc.headBads (d : Desc) (off : Nat) : List Bad :=
  let v := d.mbSel % 4096
  let mode := d.mbSel / 4096
  Desc.ok off 0 (within 1 13 d.kind) ++ d.zero off 15 11
    ++ Desc.ok off 16 (if mode = 4 then within 1 8 (v % 16) && decide (v / 16 < 2 ^ (v % 16)) else decide (mode ≤ 6) && v == 0)

/-- Bodies of `GATHER` and `SCATTER` (Tables 05-7, 05-8, R115). -/
def Desc.moveBads (d : Desc) (off : Nat) : List Bad :=
  d.res off [(511, 352), (335, 329), (191, 189), (175, 172), (159, 155), (143, 140), (135, 135)]
    ++ Desc.ok off 128 (decide (d.f 131 128 ≤ 3)) ++ Desc.ok off 132 (decide (d.f 133 132 ≤ 2)) ++ Desc.ok off 144 (within 1 1024 (d.f 154 144))
    ++ Desc.ok off 176 (within 1 4096 (d.f 188 176)) ++ Desc.ok off 192 (decide (d.f 133 132 ≠ 0) || decide (d.f 223 192 ≤ 4095))
    ++ Desc.ok off 224 (decide (d.f 131 128 ≠ 3) || d.f 255 224 == 0) ++ Desc.rel (off + 20) (decide (d.f 171 160 + d.f 188 176 ≤ 4096))

/-- Scales of a source operand (R188): how many apply to a type. -/
def scalesOk (t : ElemType) (n : Nat) : Bool := if t.scaled then n == 1 else if t = .int32 then n == 0 || n == 2 else true

/-- A float operand: a float type, or an integer type with scales applied (R180). -/
def floatOperand (t : ElemType) (n : Nat) : Bool := t.isFloat || decide (0 < n)

/-- Shape fields (R188). -/
def Shape.ok (s : Shape) : Bool := if s.shape = 0 then within 1 64 s.len && s.count == 0 else s.len == 0 && decide (s.count ≠ 0)

/-- Types `VECTOR` takes (R188). -/
def vectorType (n : Nat) : Bool := decide (n ≤ 0x0A) && decide (n ≠ 9)

/-- The `VECTOR` body (Table 09-2, R182, R184, R187, R188). -/
def Desc.vectorBads (d : Desc) (off : Nat) : List Bad :=
  let op := d.f 135 128
  let a := elemType (d.f 145 141)
  let b := elemType (d.f 150 146)
  let t := elemType (d.f 140 136)
  let fa := floatOperand a (d.f 162 161)
  let fb := if d.f 158 157 = 1 then fa else floatOperand b (d.f 163 163)
  let usesB := vectorBinary op && decide (d.f 158 157 ≠ 1)
  d.res off [(511, 480), (351, 340), (199, 198), (175, 172), (164, 164)]
    ++ Desc.ok off 128 (vectorOps.contains op) ++ Desc.ok off 136 (vectorType (d.f 140 136) && !t.isFp8) ++ Desc.ok off 141 (vectorType (d.f 145 141))
    ++ Desc.ok off 146 (vectorType (d.f 150 146)) ++ Desc.ok off 151 (d.f 152 151 == 0 || d.f 152 151 == 2)
    ++ Desc.ok off 155 (decide (d.f 156 155 ≠ 3)) ++ Desc.ok off 157 (decide (d.f 158 157 ≠ 3)) ++ Desc.ok off 161 (decide (d.f 162 161 ≠ 3))
    ++ Desc.ok off 208 (!d.b 159 || d.f 224 208 == 0)
    ++ Desc.rel off (d.vShape.ok && (!d.b 159 || (d.f 156 155 == 2 && (a == .fp32 || a == .int32)))
        && scalesOk a (d.f 162 161) && (!usesB || scalesOk b (d.f 163 163)) && (!d.b 163 || (b.scaled && d.f 158 157 != 1))
        && (!within 0x02 0x07 op || fa == fb) && (!(op == 0x05) || t.isFloat == fa)
        && (!(within 0x10 0x16 op || op == 0x30 || op == 0x31) || fa)
        && (!vectorReduce op || (if fa then t == .fp32 else if op = 0x34 then t == .u32 else t == .int32))
        && (!vectorCompare op || t == .u8) && (!(op == 0x40) || (b == .u8 && d.f 158 157 == 0)) && (!vectorPack op || d.f 156 155 == 1))

/-- The `CONVERT` body (Table 09-4, R193). -/
def Desc.convertBads (d : Desc) (off : Nat) : List Bad :=
  let a := elemType (d.f 132 128)
  let t := elemType (d.f 137 133)
  let listed (n : Nat) := (elemType? n).isSome
  d.res off [(511, 497), (287, 275), (191, 186), (159, 155), (147, 147)]
    ++ Desc.ok off 128 (listed (d.f 132 128)) ++ Desc.ok off 133 (listed (d.f 137 133)) ++ Desc.ok off 138 (decide (d.f 139 138 ≠ 3))
    ++ Desc.ok off 140 (decide (d.f 141 140 ≠ 3)) ++ Desc.ok off 143 (decide (d.f 144 143 ≠ 3)) ++ Desc.ok off 192 (!d.b 142 || d.f 208 192 == 0)
    ++ Desc.ok off 258 (a == .u4 || t == .u4 || d.f 274 258 == 0)
    ++ Desc.rel off (!(d.f 139 138 == 1 && t == .fx128) && (d.b 145 == t.scaled) && scalesOk a (d.f 144 143) && d.cShape.ok
        && (!d.b 142 || (d.f 141 140 == 2 && (a == .fp32 || a == .int32))))

/-- The `SOFTMAX_BLOCK` body (Table 10-7, R214). -/
def Desc.softmaxBads (d : Desc) (off : Nat) : List Bad :=
  let ok (n : Nat) := n == 0 || n == 1
  let scale := f32 (d.f 351 320)
  d.res off [(511, 480), (255, 252), (175, 168), (155, 155), (147, 147), (135, 135)]
    ++ Desc.ok off 128 (decide (d.f 131 128 ≤ 2)) ++ Desc.ok off 136 (ok (d.f 140 136)) ++ Desc.ok off 141 (ok (d.f 145 141))
    ++ Desc.ok off 176 (!d.b 146 || d.f 192 176 == 0) ++ Desc.ok off 210 (decide (d.f 131 128 ≠ 0) || d.f 226 210 == 0)
    ++ Desc.ok off 320 (scale.isFinite && (Val.zero false).lt scale)
    ++ Desc.rel off ((d.f 131 128 == 0 || decide (d.f 167 156 < 128)) && (!d.b 146 || d.f 140 136 == 0))

/-- The `COMPRESS` body (Table 07-4, R158). -/
def Desc.compressBads (d : Desc) (off : Nat) : List Bad :=
  let t := elemType (d.f 140 136)
  let span (v n : Nat) := within (32 * n + 1) (32 * (n + 1)) (v + 1)
  d.res off [(511, 329), (191, 183), (171, 171), (135, 135)]
    ++ Desc.ok off 136 (elemType? (d.f 140 136)).isSome ++ Desc.ok off 141 (decide (d.f 143 141 ≤ 3))
    ++ Desc.ok off 128 ((!d.b 128 || t.allows .sb) && (!d.b 129 || t.allows .nm) && (!d.b 130 || t.allows .cl) && (!d.b 131 || (d.b 129 && d.b 132)))
    ++ Desc.ok off 160 (span (d.f 170 160) (d.f 153 148)) ++ Desc.ok off 172 (span (d.f 182 172) (d.f 159 154))

/-- The `MATMUL` body (Table 08-3, R162, R167). -/
def Desc.matmulBads (d : Desc) (off : Nat) : List Bad :=
  let x := d.f 131 128
  let ten := d.b 136
  d.res off [(511, 408), (287, 273), (223, 209), (175, 167)]
    ++ Desc.ok off 128 (decide (x ≤ 4)) ++ Desc.ok off 132 (if ten then d.f 135 132 == 0 else decide (d.f 135 132 ≤ 1))
    ++ Desc.ok off 144 (decide (d.f 159 144 ≠ 65535)) ++ Desc.ok off 256 (!d.b 137 || d.f 272 256 == 0)
    ++ Desc.ok off 288 (x == 2 || x == 3 || d.f 319 288 == 0) ++ Desc.ok off 320 (ten || decide (d.f 351 320 < 2 ^ 17))
    ++ Desc.ok off 352 (ten || d.f 387 352 == 0) ++ Desc.ok off 388 (ten || d.f 407 388 == 0) ++ Desc.rel off (ten || decide (x ≠ 4))

/-- The `SPMM` body (Table 08-4). -/
def Desc.spmmBads (d : Desc) (off : Nat) : List Bad :=
  let x := d.f 131 128
  d.res off [(511, 408), (287, 273), (223, 209), (175, 159), (151, 150), (136, 132)]
    ++ Desc.ok off 128 (decide (x ≤ 4)) ++ Desc.ok off 256 (!d.b 137 || d.f 272 256 == 0) ++ Desc.ok off 288 (x == 2 || x == 3 || d.f 319 288 == 0)

/-- Effective fan-out field of hop h + 1, and its mode (Table 04-6). -/
def Desc.fanField (d : Desc) (h : Nat) : Nat := d.f (156 + 9 * h) (148 + 9 * h)
def Desc.hopMode (d : Desc) (h : Nat) : Nat := d.f (138 + 3 * h) (136 + 3 * h)
def Desc.hops (d : Desc) : Nat := d.f 133 132 + 1

/-- The `SAMPLE` body (Table 04-6). -/
def Desc.sampleBads (d : Desc) (off : Nat) : List Bad :=
  d.res off [(511, 358), (356, 354), (335, 304), (239, 226), (207, 206), (191, 189)]
    ++ Desc.ok off 192 (within 1 8192 (d.f 205 192)) ++ Desc.ok off 184 (within 10 18 (d.f 188 184))
    ++ ((List.range 4).map fun h =>
        if h < d.hops then Desc.ok off (148 + 9 * h) (decide (d.fanField h ≤ 256)) ++ Desc.ok off (136 + 3 * h) (decide (d.hopMode h ≤ 4))
        else d.zero off (156 + 9 * h) (148 + 9 * h) ++ d.zero off (138 + 3 * h) (136 + 3 * h)).flatten

/-- The other bodies (Tables 03-10 to 03-12, 11-4). -/
def Desc.bodyBads (d : Desc) (off : Nat) : List Bad :=
  match d.kind with
  | 0x01 => d.sampleBads off
  | 0x02 | 0x03 => d.moveBads off
  | 0x04 => d.matmulBads off
  | 0x05 => d.spmmBads off
  | 0x06 => d.vectorBads off
  | 0x07 => d.softmaxBads off
  | 0x08 => d.convertBads off
  | 0x09 => d.compressBads off
  | 0x0A => d.res off [(511, 224), (191, 177), (159, 129)] ++ Desc.ok off 192 (!d.b 128 || decide (d.f 223 192 ≤ 4095))
  | 0x0B =>
    d.res off [(511, 176), (159, 149)] ++ Desc.ok off 160 (decide (0 < d.f 175 160)) ++ Desc.ok off 146 (d.f 147 146 == 0 || d.f 147 146 == 3)
  | 0x0C =>
    let m := d.f 149 148
    d.res off [(511, 176), (151, 150)] ++ Desc.ok off 146 (decide (d.f 147 146 ≤ 1))
      ++ Desc.ok off 152 (if m = 0 then d.f 155 152 == 0 else within 1 6 (d.f 155 152)) ++ Desc.ok off 160 (m == 1 || d.f 167 160 == 0)
      ++ Desc.ok off 168 (decide (0 < d.f 175 168))
  | 0x0D =>
    let src := d.f 151 148
    d.res off [(511, 192), (159, 154), (147, 146)] ++ Desc.ok off 128 (within 1 1023 d.loopLen) ++ Desc.ok off 148 (decide (src ≤ 3))
      ++ Desc.ok off 152 (src == 1 || src == 2 || d.f 153 152 == 0) ++ Desc.ok off 160 (if src = 0 then decide (0 < d.f 191 160) else d.f 191 160 == 0)
  | _ => []

/-! ### Checks of a program -/

/-- Tiles a producer delivers to the result queue (R170). -/
def Desc.produces (d : Desc) : Nat :=
  if d.b 137 then (if d.kind = 0x04 then ceilDiv (d.f 159 144 + 1) 32 else if d.kind = 0x05 then d.f 158 152 + 1 else 0) else 0

/-- Tiles a consumer takes from the result queue. -/
def Desc.takes (d : Desc) : Nat :=
  match d.kind with
  | 0x06 => if d.b 159 then d.f 197 176 else 0
  | 0x08 => if d.b 142 then d.f 181 160 else 0
  | 0x07 => if d.b 146 then ceilDiv (d.f 154 148 + 1) 32 * ceilDiv (d.f 167 156 + 1) 32 else 0
  | _ => 0

/-- The queue rule of R171 for a producer at a position. -/
def Program.producerOk (p : Program) (i : Nat) : Bool :=
  let d := p.at i
  let n := d.produces
  let body := p.enclosing i
  let after := (List.range p.descs.length).filter fun j => decide (i < j)
  let next := after.find? fun j => within 6 10 (p.at j).kind
  n == 0 ||
    match next with
    | none => false
    | some j =>
      let c := p.at j
      (p.enclosing j == body) && c.takes == n && !c.fence && !(decide (j - 1 - i < 32) && c.dep.testBit (j - 1 - i))
        && (after.filter fun k => decide (k < j) && ((p.at k).kind == 0x0B || decide (0 < (p.at k).produces))).isEmpty

/-- The queue rule of R171 for a consumer at a position. -/
def Program.consumerOk (p : Program) (i : Nat) : Bool :=
  (p.at i).takes == 0 ||
    match (List.range i).reverse.find? fun j => decide (0 < (p.at j).produces) || within 6 10 (p.at j).kind with
    | none => false
    | some j => decide (0 < (p.at j).produces) && p.enclosing j == p.enclosing i

/-- The bit that names the queue as a source. -/
def Desc.takesAt (d : Desc) : Nat := if d.kind = 0x06 then 159 else if d.kind = 0x08 then 142 else 146

/-- Largest per-seed edge count (R71). -/
def Desc.edgeCount (d : Desc) (fan cap : Nat) : Nat :=
  let f (h : Nat) := if d.hopMode h = 3 then cap else if d.fanField h = 0 then fan else d.fanField h
  ((List.range d.hops).foldl (fun (acc : Nat × Nat) h => let p := acc.1 * f h; (p, acc.2 + p)) (1, 0)).2

/-- The checks R49, R60, R71, R88, R171 and R234 make of one program: each at the first field of the descriptor that the rule names. -/
def Program.bads (p : Program) (off : Nat) (b : Bounds) (fan cap : Nat) (hasSample : Bool) : List Bad :=
  let n := p.descs.length
  let ix := List.range n
  let at' (i : Nat) := off + 64 + 64 * i
  need (p.role != 1 || p.descs.any fun d => d.kind == 0x01) (.rel off)
    ++ (ix.map fun i =>
    let d := p.at i
    let ls := p.enclosing i
    d.headBads (at' i) ++ d.bodyBads (at' i)
      ++ Desc.rel (at' i + 8) (i == 0 || decide ((p.at (i - 1)).seq < d.seq))
      ++ (if d.kind = 0x0D then
            Desc.rel (at' i + 16) (decide (i + d.loopLen < n) && (ls.all fun q => decide (i + d.loopLen ≤ q + (p.at q).loopLen)))
              ++ Desc.rel (at' i + 18) (decide (ls.length ≤ 3) && d.loopLevel == ls.length && (d.f 151 148 == 0 || hasSample))
          else [])
      ++ (if d.kind = 0x01 then
            Desc.rel (at' i) (p.role == 1 && ls.isEmpty && !((p.descs.take i).any fun d => d.kind == 0x01)) ++ Desc.rel (at' i + 2) (d.mbSel == 0)
              ++ Desc.rel (at' i + 18) (decide (d.edgeCount fan cap ≤ b.budget)) ++ Desc.rel (at' i + 23) (decide (2 * (d.f 205 192 + 4 * b.budget) ≤ 2 ^ d.f 188 184))
          else [])
      ++ (if d.kind = 0x0A then Desc.rel (at' i) (p.role == 5 && ls.isEmpty) ++ Desc.rel (at' i + 2) (d.mbSel / 4096 == 3) else [])
      ++ (match p.maxRegs b i with
          | none => []
          | some r => d.reachBads p.carrel r (at' i))
      ++ Desc.rel (at' i + 17) (p.producerOk i) ++ Desc.rel (at' i + d.takesAt / 8) (p.consumerOk i)).flatten

/-- Read one program at an offset of a set. -/
def readProgram (b : List Byte) (off : Nat) : Program :=
  let h := leAt b off 64
  { role := bits h 3 0, carrel := bits h 49 32, slips := bits h 74 64,
    descs := (List.range (bits h 18 8)).map fun i => ⟨leAt b (off + 64 + 64 * i) 64⟩ }

/-- Fields of a program header (Table 03-5). -/
def programHeadBads (b : List Byte) (off index : Nat) : List Bad :=
  let h := leAt b off 64
  need (within 1 6 (bits h 3 0)) (.field off) ++ need (bits h 7 4 == index) (.field off) ++ need (within 1 1024 (bits h 18 8)) (.field (off + 1))
    ++ need (bits h 31 19 == 0) (.field (off + 2)) ++ need (within 1 131072 (bits h 49 32)) (.field (off + 4)) ++ need (bits h 63 50 == 0) (.field (off + 6))
    ++ need (decide (bits h 74 64 ≤ 1024)) (.field (off + 8)) ++ need (bits h 511 75 == 0) (.field (off + 9))

/-- Programs of a set with their offsets, as far as the bytes go. -/
def readPrograms (b : List Byte) : Nat → Nat → List (Nat × Program)
  | 0, _ => []
  | n + 1, off => if b.length < off + 64 then [] else
    let p := readProgram b off
    (off, p) :: readPrograms b n (off + 64 + 64 * p.descs.length)

/-- The programs of a set's bytes (R48). -/
def programsOf (b : List Byte) : List (Nat × Program) := readPrograms b (leAt b 2 1) 64

/-- The one `SAMPLE` descriptor of a set, with its program index. -/
def sampleOf (ps : List Program) : Option Desc := (((ps.filter fun p => p.role == 1).map (·.descs)).flatten.find? fun d => d.kind == 0x01)

/-- Bounds a set's loops take (R49, R83). -/
def boundsOf (ps : List Program) (budget : Nat) : Bounds :=
  match sampleOf ps with
  | some d => ⟨d.f 205 192, budget, d.hops⟩
  | none => ⟨8192, budget, 0⟩

/-- The set header (Table 03-4). -/
def setHeadBads (b : List Byte) (base gen : Nat) : List Bad :=
  let h := leAt b 0 64
  need (bits h 15 0 == 1) (.field base) ++ need (within 1 16 (bits h 23 16)) (.field (base + 2)) ++ need (bits h 31 24 == 0) (.field (base + 3))
    ++ need (bits h 79 64 == gen) (.field (base + 8)) ++ need (bits h 127 80 == 0) (.field (base + 10)) ++ need (bits h 511 192 == 0) (.field (base + 24))

/-- `UPDATE` descriptors whose `PARAM` unit names no parameter record (R234). -/
def unitBads (b : List Byte) (base : Nat) (params : List Nat) : List Bad :=
  ((programsOf b).map fun (off, p) => ((List.range p.descs.length).map fun i =>
    let d := p.at i
    need (d.kind != 0x0A || d.b 128 || params.contains (d.f 223 192)) (.rel (base + off + 88 + 64 * i))).flatten).flatten

/-- Every check of a program set (R48, R49, R71, R88); `base` is the section's offset in the payload. -/
def setBads (b : List Byte) (base gen budget fan cap : Nat) : List Bad :=
  let ps := programsOf b
  let progs := ps.map (·.2)
  let total := 64 + sum (progs.map fun p => 64 + 64 * p.descs.length)
  let bd := boundsOf progs budget
  setHeadBads b base gen
    ++ need (ps.length == leAt b 2 1 && total == leAt b 4 4 && total == b.length) (.rel (base + 4))
    ++ ((List.range ps.length).map fun i =>
        match ps[i]? with
        | none => []
        | some (off, p) => (programHeadBads b off i).map (fun x => match x with | .field o => .field (base + o) | y => y)
            ++ p.bads (base + off) bd fan cap (sampleOf progs).isSome
            ++ need (p.role != 1 || !((progs.take i).any fun q => q.role == 1)) (.rel (base + off))).flatten

/-- Whether the checks of R49, R71 and R88 that depend on the sampler's entries still hold (R49, R71). -/
def samplerOk (ps : List Program) (budget fan cap : Nat) : Bool :=
  let bd := boundsOf ps budget
  (match sampleOf ps with
   | some d => decide (d.edgeCount fan cap ≤ budget) && decide (2 * (d.f 205 192 + 4 * budget) ≤ 2 ^ d.f 188 184)
   | none => true)
  && ps.all fun p => (List.range p.descs.length).all fun i =>
      match p.maxRegs bd i with
      | none => true
      | some r => (p.at i).reachBads p.carrel r 0 == []

end Sys2Proof.Machine
end

