-- ==== Sys2Proof/Machine/Engines.lean ====
section
/-!
DEFINITION. The arithmetic of the engines on lists of elements: the fixed trees, the matrix products, the vector operations, conversion, softmax
(08_matrix_arrays, 09_vector_engine, 10_numerics).
-/
namespace Sys2Proof.Machine
open Sys2Proof

/-! ### The fixed tree (R163, R184) -/

/-- One level of the tree: an empty child passes the other unchanged. -/
def pairUp {α : Type} (f : α → α → α) : List (Option α) → List (Option α)
  | a :: b :: l => (match a, b with | some x, some y => some (f x y) | some x, none => some x | none, y => y) :: pairUp f l
  | l => l

/-- The balanced tree of a number of levels. -/
def tree {α : Type} (f : α → α → α) : Nat → List (Option α) → Option α
  | 0, l => l.headD none
  | n + 1, l => tree f n (pairUp f l)

/-- Groups of leaves folded in ascending order. -/
def treeFold {α : Type} (f : α → α → α) (levels : Nat) (l : List (Option α)) : Option α :=
  ((chunks (2 ^ levels) l.length l).map (tree f levels)).foldl (fun a s => match a, s with | some x, some y => some (f x y) | none, y => y | x, none => x) none

/-- A sum rounded to FP32 at every node (R163). -/
def addR (a b : Val) : Val := r32 (a.add b)

/-- Σ over groups of 32 by the five-level tree, +0 when empty (R184). -/
def rsum (l : List (Option Val)) : Val := r32 ((treeFold addR 5 l).getD (.zero false))

/-! ### Matrix products (R163, R164) -/

/-- A product of two raw elements with their decoders, empty unless both are present. -/
def product (x y : Nat × Val) : Option Val := if x.1 = 0 ∨ y.1 = 0 then none else some (x.2.mul y.2)

/-- One result element from its products (R163). -/
def dotFloat (ps : List (Option Val)) : Nat :=
  match ((chunks 16 ps.length ps).map (tree addR 4)).foldl
      (fun a s => match a, s with | some x, some y => some (addR x y) | none, some y => some (r32 y) | x, none => x) none with
  | some v => round32 v
  | none => 0

/-- One INT8 result element, in INT32 (R164). -/
def dotInt (ps : List Int) : Nat := unsigned 32 (ps.foldl (· + ·) 0)

/-- An operand element: raw bits and value; `bad` marks an element of a tile whose type does not pair (R162). -/
structure Operand where
  raw : Nat
  val : Val
  bad : Bool
  deriving DecidableEq, Repr

/-- Whether a tile that cannot be multiplied feeds a result element (R162): through a product both of whose operands are present (DEDUCED). -/
def faulted (xs ws : List Operand) : Bool := (xs.zip ws).any fun p => (p.1.bad || p.2.bad) && decide (p.1.raw ≠ 0) && decide (p.2.raw ≠ 0)

/-- A result element over one row of the reduction (R162, R163). -/
def resultElem (int8 : Bool) (xs ws : List Operand) : Nat :=
  let ps := xs.zip ws
  if faulted xs ws then (if int8 then 2 ^ 31 else 0x7FC00000)
  else if int8 then dotInt (ps.map fun p => signed 8 p.1.raw * signed 8 p.2.raw)
  else dotFloat (ps.map fun p => product (p.1.raw, p.1.val) (p.2.raw, p.2.val))

/-! ### Vector arithmetic (R181 to R183) -/

/-- `SQRT` (R183): the root rounded once to the destination. -/
def vSqrt (t : ElemType) (rnd : Rnd) (v : Val) : Rounded :=
  match v with
  | .nan => toElem t 0 rnd .nan
  | .inf n => toElem t 0 rnd (if n then .nan else .inf false)
  | .zero n => toElem t 0 rnd (.zero n)
  | .fin n a d e => if n then toElem t 0 rnd .nan else rootTo t rnd a d e

/-- `RSQRT` (R183). -/
def vRsqrt (t : ElemType) (rnd : Rnd) (v : Val) : Rounded :=
  match v with
  | .nan => toElem t 0 rnd .nan
  | .inf n => toElem t 0 rnd (if n then .nan else .zero false)
  | .zero n => toElem t 0 rnd (.inf n)
  | .fin n a d e => if n then toElem t 0 rnd .nan else rootTo t rnd d a (-e)

/-- The exact result of an operation with one result (Table 09-1); roots apart. -/
def vecExact (op : Nat) (a b d : Val) : Val :=
  match op with
  | 0x02 => a.add b
  | 0x03 => a.sub b
  | 0x04 => a.mul b
  | 0x05 => (a.mul b).add d
  | 0x06 => a.min b
  | 0x07 => a.max b
  | 0x08 => a.abs
  | 0x09 => a.neg
  | 0x10 => vExp a
  | 0x11 => vLog a
  | 0x12 => (Val.fin false 1 1 0).div a
  | 0x15 => vTanh a
  | 0x16 => vSigmoid a
  | _ => a

/-- A value as an integer, for operations all of whose operands are integers. -/
def Val.toInt (v : Val) : Int :=
  match v with
  | .fin n a d e => roundInt .nearest n a d e
  | _ => 0

/-- Saturate an exact integer to a destination's range (R182). -/
def satInt (t : ElemType) (i : Int) : Rounded :=
  let (lo, hi) := t.intRange
  if hi < i then ⟨unsigned t.bits hi, true, false⟩ else if i < lo then ⟨unsigned t.bits lo, true, false⟩ else ⟨unsigned t.bits i, false, false⟩

/-- One element of an elementwise operation; `ints`: every operand is an integer (R182). -/
def vecElem (op : Nat) (t : ElemType) (rnd : Rnd) (ints : Bool) (a b d : Val) : Rounded :=
  if ints && t.isInt then satInt t (vecExact op a b d).toInt
  else if op = 0x13 then vSqrt t rnd a
  else if op = 0x14 then vRsqrt t rnd a
  else toElem t 0 rnd (vecExact op a b d)

/-- A compare (R183). -/
def vecCompare (op : Nat) (a b : Val) : Bool :=
  match op with
  | 0x20 => a.lt b
  | 0x21 => a.le b
  | 0x22 => a.eq b
  | _ => !a.eq b

/-- The two-operand function of a reduction (R184). -/
def reduceFn (op : Nat) (a b : Val) : Val :=
  match op with
  | 0x30 | 0x31 => addR a b
  | 0x33 => a.min b
  | _ => a.max b

/-- A leaf of a reduction. -/
def reduceLeaf (op : Nat) (a : Val) : Val :=
  match op with
  | 0x31 => a.mul a
  | 0x34 => a.abs
  | _ => a

/-- What an all-empty reduction gives (R184). -/
def reduceEmpty (op : Nat) (ints : Bool) : Val :=
  match op with
  | 0x32 => if ints then .fin true (2 ^ 31) 1 0 else .inf true
  | 0x33 => if ints then .fin false (2 ^ 31 - 1) 1 0 else .inf false
  | _ => .zero false

/-- A reduction's result elements, in its destination type (R184): a sum is rounded as its tree is, any other result under `ROUND` (R181). -/
def reduceAll (op : Nat) (t : ElemType) (rnd : Rnd) (ints group : Bool) (leaves : List (Option Val)) : List Rounded :=
  let ls := leaves.map fun o => o.map (reduceLeaf op)
  let out (o : Option Val) : Rounded := toElem t 0 (if op = 0x30 ∨ op = 0x31 then .nearest else rnd) (o.getD (reduceEmpty op ints))
  if group then ((chunks 32 ls.length ls).map fun g => out (tree (reduceFn op) 5 g)) else [out (treeFold (reduceFn op) 5 ls)]

/-! ### Affine groups (R124, R192) -/

/-- Round a value to BF16 toward −∞ or +∞. -/
def bf16Toward (up : Bool) (v : Val) : Nat :=
  let z := (toFloat .bf16 .toZero v).bits
  let zv := decodeFloat .bf16 z
  if zv.eq v then z
  else if v.isNeg = up then z
  else
    -- the next BF16 away from zero, with the sign of v
    if zv = .zero false ∨ zv = .zero true then (if v.isNeg then 0x8001 else 0x0001) else z + 1

/-- The pair (a, b) of R124 for values that are all finite. -/
def affinePair (xs : List Val) : Nat × Nat :=
  let lo := xs.foldl Val.min (xs.headD (.zero false))
  let hi := xs.foldl Val.max (xs.headD (.zero false))
  let b := bf16Toward false lo
  let a := bf16Toward true ((hi.sub (decodeFloat .bf16 b)).div (.fin false 15 1 0))
  (a, b)

/-- The q of one element under (a, b) (R124, R192). -/
def affineQ (rnd : Rnd) (a b : Nat) (x : Val) : Rounded :=
  let av := decodeFloat .bf16 a
  if av = .zero false ∨ av = .zero true then ⟨0, false, false⟩ else toInt .u4 rnd ((x.sub (decodeFloat .bf16 b)).div av)

/-- The value of a q. -/
def affineVal (a b q : Nat) : Val := (decodeFloat .bf16 b).add ((decodeFloat .bf16 a).mul (.ofInt q))

/-! ### Conversion (R189 to R193) -/

/-- What a conversion is told: types, source scale exponents, destination scale exponent, windows, rounding. -/
structure ConvertSpec where
  src : ElemType
  dst : ElemType
  srcScales : List Int
  dstScale : Int
  srcWindow : Int
  dstWindow : Int
  /-- the rounding of element e -/
  mode : Nat
  key : RoundKey
  rowFirst : Nat
  colFirst : Nat
  deriving DecidableEq, Repr

/-- Rounding of element e of an instance (R191). -/
def ConvertSpec.rnd (c : ConvertSpec) (e : Nat) : Rnd :=
  match c.mode with
  | 0 => .nearest
  | 2 => .toZero
  | _ => .keyed (({ c.key with row := c.rowFirst + e / 32 } : RoundKey).word (c.colFirst + e % 32))

/-- The exact value of a source element; affine sources take their group's word. -/
def ConvertSpec.decode (c : ConvertSpec) (words : List Nat) (e raw : Nat) : Val :=
  match c.src with
  | .u4 => let w := nth words (e / 32); affineVal (w % 65536) (w / 65536) raw
  | .fx128 => fxDecode c.srcWindow raw
  | t => decodeScaled t c.srcScales raw

/-- Convert elements: results with their counts, and the affine words of an affine destination. -/
def ConvertSpec.run (c : ConvertSpec) (words : List Nat) (raws : List Nat) : List Rounded × List Nat :=
  let vals := (List.range raws.length).map fun e => c.decode words e (nth raws e)
  match c.dst with
  | .u4 =>
    let gs := chunks 32 vals.length vals
    let outs := (List.range gs.length).map fun g =>
      let xs := gs.getD g []
      if xs.all Val.isFinite then
        let (a, b) := affinePair xs
        ((List.range xs.length).map (fun i => affineQ (c.rnd (32 * g + i)) a b (xs.getD i .nan)), a + 65536 * b)
      else (xs.map fun _ => ⟨0, false, true⟩, 0x7FC0)
    ((outs.map (·.1)).flatten, outs.map (·.2))
  | t =>
    ((List.range vals.length).map fun e =>
      let v := vals.getD e .nan
      let r := toElem t c.dstWindow (c.rnd e) (v.shift (-c.dstScale))
      { r with bad := r.bad || !v.isFinite }, [])

/-! ### Softmax (R212, R213) -/

/-- The row state (R213). -/
structure RowState where
  m : Nat
  l : Nat
  corr : Nat
  seen : Bool
  nan : Bool
  infs : Nat
  deriving DecidableEq, Repr

def RowState.read (n : Nat) : RowState :=
  { m := bits n 31 0, l := bits n 63 32, corr := bits n 95 64, seen := bit n 96, nan := bit n 97, infs := bits n 127 104 }

def RowState.bytes (r : RowState) : List Byte :=
  toLE 16 (r.m + r.l * 2 ^ 32 + r.corr * 2 ^ 64 + (if r.seen then 2 ^ 96 else 0) + (if r.nan then 2 ^ 97 else 0) + (r.infs % 2 ^ 24) * 2 ^ 104)

/-- exp of a difference, both rounded to FP32. -/
def expDiff (x m : Val) : Val := r32 (vExp (r32 (x.sub m)))

/-- Count of +inf among the unmasked values. -/
def infCount (xs : List (Option Val)) : Nat := (xs.filter fun x => x == some (.inf false)).length

/-- Fold one block of one row into its state (R213): p at every position, and the state. -/
def foldBlock (st : RowState) (xs : List (Option Val)) : List Val × RowState :=
  let hasNan := xs.any fun x => x == some .nan
  let infs := infCount xs
  let fins := xs.any fun x => match x with | some v => v.isFinite | none => false
  let st := { st with nan := st.nan || hasNan }
  let one : Val := .fin false 1 1 0
  if 0 < st.infs + infs then
    let corr := if st.infs = 0 then 0 else round32 one
    let n := st.infs + infs
    (xs.map fun x => if x = some (.inf false) then one else .zero false, { st with infs := n, corr := corr, l := round32 (.ofInt n) })
  else if fins then
    let r := (treeFold Val.max 5 xs).getD (.inf true)
    let mNew := if st.seen then (f32 st.m).max r else r
    let corr := if st.seen then expDiff (f32 st.m) mNew else .zero false
    let ps := xs.map fun x => x.map fun v => expDiff v mNew
    let l := addR (r32 ((f32 st.l).mul corr)) (rsum ps)
    (ps.map fun o => o.getD (.zero false), { st with l := round32 l, m := round32 mNew, seen := true, corr := round32 corr })
  else (xs.map fun _ => .zero false, { st with corr := round32 one })

/-- The initial row state. -/
def RowState.zero : RowState := ⟨0, 0, 0, false, false, 0⟩

/-- Probabilities of a row from its final state (R213, Table 10-6): values, whether it is a NaN row, whether it is a masked row. -/
def applyRow (st : RowState) (xs : List (Option Val)) : List Val × Bool × Bool :=
  if st.nan then (xs.map fun x => if x.isSome then .nan else .zero false, true, false)
  else if 0 < st.infs then
    (xs.map fun x => if x = some (.inf false) then (Val.fin false 1 1 0).div (.ofInt st.infs) else .zero false, false, false)
  else if st.seen = false then (xs.map fun _ => .zero false, false, true)
  else
    (xs.map fun x => match x with
      | some v => (expDiff v (f32 st.m)).div (f32 st.l)
      | none => .zero false, false, false)

/-- A whole row (mode `ROW`). -/
def softmaxRow (xs : List (Option Val)) : List Val × Bool × Bool :=
  let (_, st) := foldBlock RowState.zero xs
  applyRow st xs

end Sys2Proof.Machine
end

