-- ==== Sys2Proof/Machine/Rules.lean ====
section
/-!
DEFINITION. Schedule curves, update rules, and the encoding of table rows in the four width classes (R121 to R125, R225 to R230).
-/
namespace Sys2Proof.Machine
open Sys2Proof

/-! ### Exponents -/

/-- The smallest e from −127 to 127 with `a` ≤ F × 2^e; 127 where none is (R124, R201). -/
def leastExp (a : Val) (f : Nat) : Int :=
  match (List.range 255).find? fun (i : Nat) => a.le (.fin false f 1 (Int.ofNat i - 127)) with
  | some i => Int.ofNat i - 127
  | none => 127

/-- Largest magnitude of a list of values; zero when empty. -/
def largest (l : List Val) : Val := l.foldl (fun a v => a.max v.abs) (.zero false)

/-! ### Square roots inside an expression -/

/-- √v to within 2^−300, exact where the root is exact; sums with FP32 values round correctly (R226). -/
def sqrtVal (v : Val) : Val :=
  match v with
  | .nan => .nan
  | .inf n => if n then .nan else .inf false
  | .zero n => .zero n
  | .fin n a d e =>
    if n then .nan
    else
      let (x, y) := inUnits a d e (-600)
      let m := isqrt (x / y)
      .fin false (if m * m * y = x then 2 * m else 2 * m + 1) 1 (-301)

/-! ### Curves (R224, R225) -/

/-- Knots of a curve: step and FP32 bits. -/
def knots (b : List Byte) : List (Nat × Nat) := (List.range (leAt b 0 1)).map fun i => (leAt b (16 + 16 * i) 8, leAt b (24 + 16 * i) 4)

/-- Value between two knots, exact. -/
def between (p q : Nat × Nat) (s : Nat) : Val :=
  (f32 p.2).add (((f32 q.2).sub (f32 p.2)).mul ((Val.ofInt ((s - p.1 : Nat) : Int)).div (.ofInt ((q.1 - p.1 : Nat) : Int))))

/-- FP32 bits of a curve at a step (R225). -/
def curveAt (ks : List (Nat × Nat)) (s : Nat) : Nat :=
  match ks with
  | [] => 0
  | [k] => k.2
  | p :: q :: rest => if s ≤ p.1 then p.2 else if s < q.1 then round32 (between p q s) else curveAt (q :: rest) s

/-! ### The update rules (R226 to R228) -/

/-- A group row (Table 11-2). -/
structure GroupRow where
  w : Nat
  deriving DecidableEq, Repr

def GroupRow.rule (g : GroupRow) : Nat := bits g.w 3 0
def GroupRow.nesterov (g : GroupRow) : Bool := bit g.w 7
def GroupRow.frozen (g : GroupRow) : Bool := bit g.w 8
def GroupRow.skip (g : GroupRow) : Bool := bit g.w 9
def GroupRow.momentType (g : GroupRow) : ElemType := if bit g.w 20 then .bf16 else .fp32
def GroupRow.masterType (g : GroupRow) : ElemType := if bit g.w 21 then .fp32 else .em48
def GroupRow.workCode (g : GroupRow) : Nat := bits g.w 26 22
def GroupRow.workNm (g : GroupRow) : Nat := bits g.w 28 27
def GroupRow.lrCurve (g : GroupRow) : Nat := bits g.w 41 31
def GroupRow.wdCurve (g : GroupRow) : Nat := bits g.w 52 42
def GroupRow.momCurve (g : GroupRow) : Nat := bits g.w 63 53
def GroupRow.beta2 (g : GroupRow) : Nat := bits g.w 383 352
def GroupRow.eps (g : GroupRow) : Nat := bits g.w 415 384
def GroupRow.gradMul (g : GroupRow) : Nat := bits g.w 447 416
def GroupRow.baseStep (g : GroupRow) : Nat := bits g.w 511 448

/-- Per-element moments a rule keeps (R230). -/
def ruleMoments (rule : Nat) : Nat := match rule with | 0 | 3 => 1 | 1 => 2 | _ => 0

/-- What a rule is given for one unit and step. -/
structure RuleIn where
  row : GroupRow
  /-- FP32 bits of lr, wd and μ at the step -/
  lr : Nat
  wd : Nat
  mu : Nat
  step : Nat
  deriving DecidableEq, Repr

/-- a = r32(lr × wd), once per unit. -/
def RuleIn.decay (u : RuleIn) : Val := r32 ((f32 u.lr).mul (f32 u.wd))

/-- g = r32(k × g0), from the ledger element rounded to FP32 (R109, R226). -/
def RuleIn.grad (u : RuleIn) (g0 : Val) : Val := r32 ((f32 u.row.gradMul).mul g0)

/-- t of R227. -/
def RuleIn.t (u : RuleIn) : Nat := max 1 ((u.step + 1 + 2 ^ 64 - u.row.baseStep) % 2 ^ 64)

/-- New moments and the direction of one element for `MOM` and `ADW`, and m for `ORTH` (R226). -/
def RuleIn.moments (u : RuleIn) (g m v : Val) : Val × Val × Val :=
  let mu := f32 u.mu
  match u.row.rule with
  | 1 =>
    let b2 := f32 u.row.beta2
    let one : Val := .fin false 1 1 0
    let m1 := r32 ((mu.mul m).add ((one.sub mu).mul g))
    let v1 := r32 ((b2.mul v).add (((one.sub b2).mul g).mul g))
    let d := r32 ((r32 (m1.div (biasFactor u.mu u.t))).div (r32 ((sqrtVal (r32 (v1.div (biasFactor u.row.beta2 u.t)))).add (f32 u.row.eps))))
    (m1, v1, d)
  | _ =>
    let m1 := r32 ((mu.mul m).add g)
    (m1, v, if u.row.rule = 0 ∧ u.row.nesterov then r32 ((mu.mul m1).add g) else m1)

/-- `ROWAG`: the new accumulator and the directions of a row (R226). -/
def RuleIn.rowag (u : RuleIn) (acc : Val) (gs : List Val) (width : Nat) : Val × List Val :=
  let acc1 := r32 (acc.add (r32 ((rsum ((gs.take width).map fun g => some (g.mul g))).div (.ofInt width))))
  let q := r32 ((sqrtVal acc1).add (f32 u.row.eps))
  (acc1, gs.map fun g => r32 (g.div q))

/-- w − a × w − lr × d, exact (R226). -/
def RuleIn.next (u : RuleIn) (w d : Val) : Val := (w.sub (u.decay.mul w)).sub ((f32 u.lr).mul d)

/-! ### `ORTH` (R228) -/

abbrev Mat := List (List Val)

def transpose (rows cols : Nat) (x : Mat) : Mat := let _ := rows; (List.range cols).map fun j => x.map fun r => r.getD j (.zero false)

/-- BF16 rounding of an element. -/
def bf (v : Val) : Val := decodeFloat .bf16 (toFloat .bf16 .nearest v).bits

/-- A BF16 operand element as raw bits and value. -/
def bfOperand (v : Val) : Nat × Val := ((toFloat .bf16 .nearest v).bits, v)

/-- One product element, FP32 (R163). -/
def dotMat (xs ys : List Val) : Val := f32 (dotFloat ((xs.zip ys).map fun p => product (bfOperand p.1) (bfOperand p.2)))

/-- x · yᵀ. -/
def mulT (x y : Mat) : Mat := x.map fun r => y.map fun c => dotMat r c

/-- Combine two matrices elementwise. -/
def zipMat (f : Val → Val → Val) (x y : Mat) : Mat := (x.zip y).map fun p => (p.1.zip p.2).map fun q => f q.1 q.2

/-- One iteration of R228 on a p × q matrix. -/
def orthStep (p q : Nat) (x : Mat) : Mat :=
  let a := (mulT x x).map fun r => r.map bf
  let aa := mulT a (transpose p p a)
  let b := zipMat (fun u v => bf (((Val.fin true 16 5 0).mul u).add ((Val.fin false 6 5 0).mul v))) a aa
  let bx := mulT b (transpose p q x)
  zipMat (fun u v => bf (((Val.fin false 3 1 0).mul u).add v)) x bx

def iterate {α : Type} (f : α → α) : Nat → α → α
  | 0, x => x
  | n + 1, x => iterate f n (f x)

/-- The orthogonalised direction of m (R228). -/
def orth (rows cols : Nat) (m : Mat) : Mat :=
  let p := min rows cols
  let q := max rows cols
  let x0 := if cols < rows then transpose rows cols m else m
  let n := r32 (sqrtVal (rsum (m.flatten.map fun v => some (v.mul v))))
  let den := r32 (n.add (.fin false 1 1 (-24)))
  let x := iterate (orthStep p q) 5 (x0.map fun r => r.map fun v => bf (v.div den))
  let k := r32 (sqrtVal (.ofInt q))
  let d := x.map fun r => r.map fun v => r32 (k.mul v)
  if cols < rows then transpose cols rows d else d

/-! ### Table rows (R121 to R125) -/

/-- Element type of a width class (Table 06-3). -/
def classType (c : Nat) : ElemType := match c with | 0 => .fp32 | 1 => .bf16 | 2 => .e4m3 | _ => .u4

/-- A row as stored: elements and the parameters of its meta granule. -/
structure RowImage where
  elems : List Nat
  scale : Nat
  a : Nat
  b : Nat
  nonfinite : Bool
  deriving DecidableEq, Repr

/-- Values of a stored row (R121, R197). -/
def rowValues (cls : Nat) (r : RowImage) : List Val :=
  match cls with
  | 2 => r.elems.map fun e => decodeScaled .e4m3 [(r.scale : Int) - 127] e
  | 3 => r.elems.map fun e => affineVal r.a r.b e
  | c => r.elems.map fun e => decodeElem (classType c) e

/-- Write a row's new values in a class (R124, R125); `rnd` rounds the element of a column. Columns from `real` on are padding: they count as zero values and
are stored as zero (R117). -/
def encodeRow (cls : Nat) (rnd : Nat → Rnd) (real : Nat) (xs : List Val) : RowImage :=
  let xs := (List.range xs.length).map fun j => if j < real then xs.getD j (.zero false) else .zero false
  let bad := !(xs.all Val.isFinite)
  let col (f : Rnd → Val → Nat) : List Nat := (List.range xs.length).map fun j => if j < real then f (rnd j) (xs.getD j (.zero false)) else 0
  match cls with
  | 2 =>
    let e := if largest (xs.filter Val.isFinite) = .zero false then 0 else leastExp (largest (xs.filter Val.isFinite)) 448
    { elems := col fun r x => if x.isFinite then (toElem .e4m3 0 r (x.shift (-e))).bits else ElemType.nanBits .e4m3,
      scale := (e + 127).toNat, a := 0, b := 0, nonfinite := bad }
  | 3 =>
    if bad then
      let key := xs.foldl (fun n x => n * 2 ^ 32 + (toElem .fp32 0 .nearest x).bits) 1
      { elems := (List.range xs.length).map fun j => if j < real then Config.openBits 1 (key * 2 ^ 16 + j) % 16 else 0, scale := 0, a := 0x7FC0,
        b := Config.openBits 2 key % 65536, nonfinite := true }
    else
      let (a, b) := affinePair xs
      { elems := col fun r x => (affineQ r a b x).bits, scale := 0, a := a, b := b, nonfinite := false }
  | c => { elems := col fun r x => (toElem (classType c) 0 r x).bits, scale := 0, a := 0, b := 0, nonfinite := bad }

/-- Elements written again in a class: the same class and widening round to nearest, narrowing by the rounding given (R125). A row without parameters keeps its
bits in its class; one with parameters takes them from its values (R124). -/
def recodeRow (old new : Nat) (rnd : Nat → Rnd) (real : Nat) (r : RowImage) : RowImage :=
  if old = new ∧ new < 2 then r else encodeRow new (if new ≤ old then fun _ => .nearest else rnd) real (rowValues old r)

end Sys2Proof.Machine
end

