-- ==== Sys2Proof/Machine/Sampler.lean ====
section
/-!
DEFINITION. Neighbourhood sampling of one piece: draws, frontier, blocks, maps and summary (04_sampler).
-/
namespace Sys2Proof.Machine
open Sys2Proof

/-- What the sampler reads of a sealed catalogue, and the parameters of the step's binding set (R66, R70, R73). -/
structure SampleIn where
  desc : Desc
  jobKey : Nat
  step : Nat
  fan : Nat
  cap : Nat
  budget : Nat
  deriving DecidableEq, Repr

/-- Readers of a catalogue's sections. -/
structure Graph where
  off : Nat → Nat
  nbr : Nat → Nat
  weight : Nat → Nat
  time : Nat → Nat
  aliasOf : Nat → Nat

def SampleIn.temporal (i : SampleIn) : Bool := (List.range i.desc.hops).any fun h => i.desc.hopMode h == 4

/-- Effective fan-out of hop h + 1 (R70). -/
def SampleIn.fanOf (i : SampleIn) (h : Nat) : Nat :=
  if i.desc.hopMode h = 3 then i.cap else if i.desc.fanField h = 0 then i.fan else i.desc.fanField h

/-- Word k of a node's stream at a hop (R73, Table 04-3). -/
def SampleIn.word (i : SampleIn) (h node k : Nat) : Nat :=
  nth (philox (bits i.jobKey 31 0) (bits i.jobKey 63 32) (k / 4) node (bits i.step 31 0)
    (i.desc.f 131 128 * 2 ^ 28 + h * 2 ^ 26 + bits i.step 57 32)) (k % 4)

/-- A uniform integer below n (R74). -/
def uniform (w n : Nat) : Nat := w * n / 2 ^ 32

/-- Floyd's procedure: f of d positions, ascending (R76). -/
def floyd (word : Nat → Nat) (f d : Nat) : List Nat :=
  (List.range f).foldl (fun c i => let j := d - f + i; let t := uniform (word i) (j + 1); insertOnce (if c.contains t then j else t) c) []

/-- The f largest weights, ties to the lower position, in ascending position (R75). -/
def topK (w : Nat → Nat) (f d : Nat) : List Nat :=
  let heavier (a b : Nat) : Bool := let x := decodeFloat .bf16 (w a); let y := decodeFloat .bf16 (w b); y.lt x || (x.eq y && decide (a < b))
  (List.range d).filter fun a => decide (((List.range d).filter fun b => heavier b a).length < f)

/-- Selected positions of a node's list with their multiplicities, and the draws made (R75 to R77). -/
def SampleIn.select (i : SampleIn) (g : Graph) (h node time : Nat) : List (Nat × Nat) × Nat :=
  let lo := g.off node
  let d := g.off (node + 1) - lo
  let f := i.fanOf h
  let word := i.word h node
  let plain (l : List Nat) : List (Nat × Nat) × Nat := (l.map fun p => (p, 1), l.length)
  match i.desc.hopMode h with
  | 1 =>
    if d = 0 then ([], 0)
    else
      let hits := (List.range f).map fun k =>
        let p := uniform (word (2 * k)) d
        let a := g.aliasOf (lo + p)
        if word (2 * k + 1) / 65536 < a / 65536 then p else a % 65536
      let at' := hits.foldl (fun l p => insertOnce p l) []
      (at'.map fun p => (p, (hits.filter (· == p)).length), f)
  | 2 => plain (if d ≤ f then List.range d else topK (fun p => g.weight (lo + p)) f d)
  | 4 =>
    let ok := (List.range d).filter fun p => if i.desc.b 357 then decide (g.time (lo + p) < time) else decide (g.time (lo + p) ≤ time)
    plain (if ok.length ≤ f then ok else (floyd word f ok.length).map fun k => nth ok k)
  | _ => plain (if d ≤ f then List.range d else floyd word f d)

/-- One edge drawn: destination and source local ids, edge position in the catalogue, multiplicity. -/
structure Edge where
  dst : Nat
  src : Nat
  pos : Nat
  mult : Nat
  deriving DecidableEq, Repr

/-- A piece as sampled: local ids in order, the counts N0 to Nh, and each hop's edges and draws. -/
structure Piece where
  locals : List (Nat × Nat)
  counts : List Nat
  edges : List (List Edge)
  draws : List Nat
  seeds : List Nat
  deriving DecidableEq, Repr

/-- Position of an element, appended when new. -/
def localId (l : List (Nat × Nat)) (x : Nat × Nat) : List (Nat × Nat) × Nat :=
  match l.findIdx? (· == x) with
  | some k => (l, k)
  | none => (l ++ [x], l.length)

/-- Local ids of the seeds (R79): a repeated seed takes the id of its first occurrence. -/
def seedLocals (seeds : List (Nat × Nat)) : List (Nat × Nat) × List Nat :=
  seeds.foldl (fun acc x => let (l, k) := localId acc.1 x; (l, acc.2 ++ [k])) ([], [])

/-- Expand one hop over the local ids lo to hi − 1 (R79, R80). -/
def SampleIn.hop (i : SampleIn) (g : Graph) (h lo hi : Nat) (locals : List (Nat × Nat)) : List (Nat × Nat) × List Edge × Nat :=
  (List.range (hi - lo)).foldl (fun acc k =>
    let u := lo + k
    let (node, t) := locals.getD u (0, 0)
    let (sel, n) := i.select g h node t
    let (l, es) := sel.foldl (fun a p =>
      let (l, v) := localId a.1 (g.nbr (g.off node + p.1), t)
      (l, a.2 ++ [(⟨u, v, g.off node + p.1, p.2⟩ : Edge)])) (acc.1, acc.2.1)
    (l, es, acc.2.2 + n)) (locals, [], 0)

/-- Sample the piece of a list of seeds. -/
def SampleIn.piece (i : SampleIn) (g : Graph) (seeds : List (Nat × Nat)) : Piece :=
  let ss := if i.temporal then seeds else seeds.map fun s => (s.1, 0)
  let (l0, ids) := seedLocals ss
  (List.range i.desc.hops).foldl (fun p h =>
    let lo := if h = 0 then 0 else nth p.counts (h - 1)
    let (l, es, n) := i.hop g h lo (nth p.counts h) p.locals
    { p with locals := l, counts := p.counts ++ [l.length], edges := p.edges ++ [es], draws := p.draws ++ [n] })
    { locals := l0, counts := [l0.length], edges := [], draws := [], seeds := ids }

/-- Extend a piece seed by seed while it holds at most 4B draws (R84); `n` bounds the seeds tried. -/
def SampleIn.grow (i : SampleIn) (g : Graph) : Nat → List (Nat × Nat) → List (Nat × Nat) → Piece → List (Nat × Nat) × Piece
  | 0, taken, _, p => (taken, p)
  | _, taken, [], p => (taken, p)
  | n + 1, taken, s :: rest, p =>
    let q := i.piece g (taken ++ [s])
    if 4 * i.budget < sum q.draws then (taken, p) else i.grow g n (taken ++ [s]) rest q

/-- Form the piece that begins at a seed list's front (R84): its seeds and what they sample. -/
def SampleIn.form (i : SampleIn) (g : Graph) (seeds : List (Nat × Nat)) : List (Nat × Nat) × Piece :=
  i.grow g seeds.length [] seeds (i.piece g [])

/-- Sections and tiles of the catalogue that a piece reads, in order (R75 to R78, R80): the offsets of each node it expands, what its mode draws by, the
neighbours selected, and the weights its values are. -/
def SampleIn.reads (i : SampleIn) (g : Graph) (p : Piece) : List (Nat × Nat) :=
  let span (sec a n : Nat) : List (Nat × Nat) := if n = 0 then [] else (List.range ((a + n - 1) / 1024 + 1 - a / 1024)).map fun k => (sec, a / 1024 + k)
  let hop (h : Nat) : List (Nat × Nat) :=
    let lo := if h = 0 then 0 else nth p.counts (h - 1)
    let es := p.edges.getD h []
    ((List.range (nth p.counts h - lo)).map fun k =>
      let node := (p.locals.getD (lo + k) (0, 0)).1
      let o := g.off node
      let d := g.off (node + 1) - o
      span 0 (2 * node) 4
        ++ (match i.desc.hopMode h with
            | 1 => if d = 0 then [] else (List.range (i.fanOf h)).map fun k => (4, (o + uniform (i.word h node (2 * k)) d) / 1024)
            | 2 => span 2 o d
            | 4 => span 3 o d
            | _ => [])
        ++ (es.filter fun e => e.dst == lo + k).map fun (e : Edge) => (1, e.pos / 1024)).flatten
  (((List.range i.desc.hops).map hop).flatten ++ (if i.desc.f 135 134 = 1 then p.edges.flatten.map fun (e : Edge) => (2, e.pos / 1024) else [])).eraseDups

/-! ### What a piece writes -/

/-- A tile to be written: its tensor, coordinates and image, empty for `ABSENT`. -/
structure TileOut where
  tensor : Nat
  row : Nat
  col : Nat
  image : List Byte
  deriving DecidableEq, Repr

/-- The exact sum of some values; a value alone is itself, its sign with it. -/
def sumVals : List Val → Val
  | [] => .zero false
  | v :: l => l.foldl Val.add v

/-- BF16 value of a block element from its edges, and the destination's total multiplicity (R78, R82). DESIGN CHOICE: the weights of several edges on one element
whose exact sum is zero give +0, so the element is empty, unless every weight is -0, which gives -0; the rules give a zero sum no sign. -/
def SampleIn.value (i : SampleIn) (g : Graph) (es : List Edge) (total : Nat) : Nat :=
  let mults : Val := .ofInt (sum (es.map (·.mult)))
  let v := match i.desc.f 135 134 with
    | 0 => Val.ofInt es.length
    | 1 => sumVals (es.map fun e => decodeFloat .bf16 (g.weight e.pos))
    | 2 => mults
    | _ => mults.div (.ofInt total)
  (toFloat .bf16 .nearest v).bits

/-- Tiles of the block of hop h + 1 (R82). -/
def SampleIn.block (i : SampleIn) (g : Graph) (p : Piece) (h : Nat) : List TileOut :=
  let lo := if h = 0 then 0 else nth p.counts (h - 1)
  let rows := nth p.counts h - lo
  let cols := nth p.counts (h + 1)
  let es := p.edges.getD h []
  let tile (r c : Nat) : TileOut :=
    let mine := es.filter fun e => (e.dst - lo) / 32 == r && e.src / 32 == c
    let t := (List.range 1024).map fun k =>
      let here := mine.filter fun e => (e.dst - lo) % 32 == k / 32 && e.src % 32 == k % 32
      if here = [] then 0
      else i.value g here (sum ((es.filter fun e => decide (e.dst = lo + 32 * r + k / 32)).map (·.mult)))
    let a : TileAt := { tensor := i.desc.f 271 240 + h, row := r, col := c, rowsM1 := min 31 (rows - 1 - 32 * r), colsM1 := min 31 (cols - 1 - 32 * c), scale := 127 }
    { tensor := a.tensor, row := r, col := c,
      image := (compressTile { sb := true, cl := true, nm := false, nmOnly := false, prune := false, axis := false } .bf16 a t).image }
  ((List.range (ceilDiv rows 32)).map fun r => (List.range (ceilDiv cols 32)).map fun c => tile r c).flatten

/-- Tiles of a map of U32 entries (R83). -/
def mapTiles (tensor : Nat) (entries : List Nat) : List TileOut :=
  let ts := chunks 1024 entries.length entries
  (List.range ts.length).map fun k =>
    let e := ts.getD k []
    let a : TileAt := { tensor := tensor, row := k, col := 0, rowsM1 := (e.length - 1) / 32, colsM1 := 31, scale := 127 }
    { tensor := tensor, row := k, col := 0,
      image := (compressTile { sb := true, cl := false, nm := false, nmOnly := false, prune := false, axis := false } .u32 a
        (e ++ List.replicate (1024 - e.length) 0)).image }

/-- Every tile a piece writes (R82, R83). -/
def SampleIn.tiles (i : SampleIn) (g : Graph) (p : Piece) : List TileOut :=
  let m := i.desc.f 303 272
  ((List.range i.desc.hops).map fun h => i.block g p h).flatten ++ mapTiles m (p.locals.map (·.1))
    ++ (if i.temporal then mapTiles (m + 1) (p.locals.map (·.2)) else []) ++ mapTiles (m + 2) p.seeds

def Summary.bytes (s : Summary) : List Byte :=
  toLE 64 (s.piece + (if s.last then 2 ^ 16 else 0) + s.first * 2 ^ 32 + s.seedCount * 2 ^ 48
    + sum ((List.range 5).map fun h => nth s.n h * 2 ^ (64 + 32 * h)) + sum ((List.range 4).map fun h => nth s.e h * 2 ^ (224 + 32 * h))
    + sum ((List.range 4).map fun h => nth s.t h * 2 ^ (352 + 32 * h)))

/-- The count a `LOOP` takes from a summary (R60, R83). -/
def Desc.loopCount (d : Desc) (s : Option Summary) : Nat :=
  match d.f 151 148, s with
  | 0, _ => d.f 191 160
  | 1, some x => ceilDiv (nth x.n (d.f 153 152 + 1)) 32
  | 2, some x => nth x.t (d.f 153 152)
  | 3, some x => ceilDiv (nth x.n 0) 32
  | _, none => 0
  | _, _ => 0

end Sys2Proof.Machine
end

