-- ==== Sys2Proof/Machine/Store.lean ====
section
/-!
DEFINITION. The tile directory and the regions of the tiers: space, placement, reading and writing stored tiles (R252 to R260, R491); steps and
their binding sets, and counters that move when a step completes (R29, R428).
-/
namespace Sys2Proof.Machine
open Sys2Proof

/-! ### Steps -/

def Job.step? (j : Job) (n : Nat) : Option StepRec := j.steps.find? fun x => x.num == n

def State.step? (s : State) (slot n : Nat) : Option StepRec := (s.job? slot).bind fun j => j.step? n

def State.updStep (s : State) (slot n : Nat) (f : StepRec → StepRec) : State :=
  s.updJob slot fun j => { j with steps := j.steps.map fun x => if x.num = n then f x else x }

def State.updBody (s : State) (slot : Nat) (f : JobBody → JobBody) : State := s.updJob slot fun j => { j with body := f j.body }

/-- A value in a step's binding set (R29). -/
def StepRec.entry (x : StepRec) (index sub : Nat) : DVal := aGetD x.bind (entryKey index sub) (dfltOf index sub)

def StepRec.num' (x : StepRec) (index sub : Nat) : Nat := (x.entry index sub).toNat

/-- Add to what an instance of a work item of a step counts (R428). -/
def State.tally (s : State) (id : WorkId) (seq index sub n : Nat) : State :=
  if n = 0 then s else s.updStep id.slot id.step fun x => { x with tallies := aUpd x.tallies (id, seq, entryKey index sub) 0 (· + n) }

/-- Add to a job-scoped counter that reads as of the last completed step (R428). -/
def State.count (s : State) (slot step index sub n : Nat) : State :=
  if n = 0 then s else s.updBody slot fun b => { b with counters := aUpd b.counters (step, entryKey index sub) 0 (· + n) }

/-- Edition of a table bound by a step (R29, R101). -/
def StepRec.edition? (x : StepRec) (table : Nat) : Option Nat := aGet x.editions table

/-! ### Records -/

/-- Fields of a tensor record (Table 10-3). -/
def tRecTensor (w : Nat) : Nat := bits w 63 32
def tRecScope (w : Nat) : Nat := bits w 65 64
def tRecType (w : Nat) : ElemType := elemType (bits w 4 0)
def tRecLayer (w : Nat) : Option Nat := if bit w 19 then some (bits w 16 5) else none
def tRecStuck (w : Nat) : Bool := bit w 20
def tRecGroup (w : Nat) : Option Nat := if bit w 21 then some (bits w 31 22) else none

def Job.tensor? (j : Job) (t : Nat) : Option Nat := j.tensors.find? fun w => tRecTensor w == t

/-- Fields of a parameter record (Table 11-1). -/
def pRecTensor (w : Nat) : Nat := bits w 127 96
def pRecOwner (w : Nat) : Nat := bits w 95 80
def pRecCols (w : Nat) : Nat := bits w 79 64 + 1
def pRecRows (w : Nat) : Nat := bits w 63 48 + 1
def pRecLayer (w : Nat) : Nat := bits w 43 32
def pRecGroup (w : Nat) : Nat := bits w 31 22

def Job.param? (j : Job) (t : Nat) : Option Param := j.body.params.find? fun p => pRecTensor p.rec' == t

/-- Fields of a layer record (Table 10-4). -/
def lRecLayer (w : Nat) : Nat := bits w 11 0
def lRecTop (w : Nat) : Nat := bits w 49 48
def Job.layer? (j : Job) (l : Nat) : Option Nat := j.layers.find? fun w => lRecLayer w == l

/-- Fields of a stage record (Table 12-2). -/
def sRecStage (w : Nat) : Nat := bits w 15 0
def sRecFwd (w : Nat) : Option Nat := if bit w 16 then some (bits w 63 32) else none
def sRecBwd (w : Nat) : Option Nat := if bit w 17 then some (bits w 95 64) else none

/-- D, V and R of a job (R237). -/
def Job.replicas (j : Job) : Nat := match j.pipeline with | some w => bits w 23 16 + 1 | none => j.positions.length
def Job.vstages (j : Job) : Nat := match j.pipeline with | some w => bits w 10 8 + 1 | none => 1
def Job.ranks (j : Job) : Nat := match j.pipeline with | some w => bits w 5 0 + 1 | none => 1

/-- Records of a reduction list (R321, Table 16-6), as words. -/
def reductions (b : List Byte) : List Nat := (chunks 16 b.length b).map leNat
def redKind (w : Nat) : Nat := bits w 7 0
def redTensor (w : Nat) : Nat := bits w 95 64
def redTarget (w : Nat) : Nat := bits w 127 96

def Job.table? (j : Job) (t : Nat) : Option Table := j.body.tables.find? fun x => x.id == t

def JobBody.updTable (b : JobBody) (t : Nat) (f : Table → Table) : JobBody :=
  { b with tables := b.tables.map fun x => if x.id = t then f x else x }

/-- The scope a tensor lies in as a step reaches it, the reduction list being the one the step binds (R491, R321). A tensor no rule places lies in the job's scope. -/
def Job.scope (j : Job) (step t : Nat) : Scope :=
  let list := match j.step? step with | some x => x.entry 0x2340 1 | none => j.entry 0x2340 1
  match j.tensor? t with
  | some w => match tRecScope w with | 1 => .step | 2 => .workItem | _ => .job
  | none =>
    let sampled := match sampleOf j.programs with
      | some d => within (d.f 271 240) (d.f 271 240 + 3) t || within (d.f 303 272) (d.f 303 272 + 2) t
      | none => false
    if (j.param? t).isSome then .job
    else if j.resultTensors.contains t then .step
    else if sampled || (j.stages.any fun w => sRecFwd w == some t || sRecBwd w == some t)
        || (reductions list.toBytes).any (fun w => redKind w == 1 && redTensor w == t) then .workItem
    else .job

/-- The directory key of a tensor tile as a work item reaches it (R258, R491). -/
def Job.tensorKey (j : Job) (t step mb piece row col : Nat) : TileKey :=
  let sc := j.scope step t
  { space := .tensor, id := t, edition := 0, slot := j.slot, scope := sc, step := if sc = .job then 0 else step,
    mb := if sc = .workItem then mb else 0, piece := if sc = .workItem then piece else 0, row := row, col := col }

/-- The key of a tile of the job's scope in another space (R258). -/
def spaceKey (space : Space) (slot id edition row col : Nat) : TileKey :=
  { space := space, id := id, edition := edition, slot := slot, scope := .job, step := 0, mb := 0, piece := 0, row := row, col := col }

/-- The edition whose copy of a page an edition reads (R134). -/
def Table.owner (t : Table) (ed page : Nat) : Nat :=
  ((t.replaced.filter fun p => p.2 == page && decide (p.1 ≤ ed)).map (·.1)).foldl max 1

/-! ### Space -/

def mib : Nat := 2 ^ 20
def gib : Nat := 2 ^ 30

/-- Bytes of the shelf and pinned regions (Table 13-1). -/
def State.shelfRegion (s : State) : Nat := sum (s.jobs.map (·.shelfCap)) * mib
def State.pinnedRegion (s : State) : Nat := s.num 0x3100 1 * mib

/-- The pool's capacity (Table 13-1, R254). -/
def State.poolCapacity (s : State) : Nat := 768 * gib - s.tiers.nearRetired - s.shelfRegion - s.pinnedRegion

/-- The far general region's capacity: the far tier less the recovery region, twice the retention budget and the buddy Deposit space. -/
def State.farCapacity (s : State) : Nat := 1536 * gib - s.tiers.farRetired - (2 * s.num 0x7120 4 + s.num 0x7100 1) * gib

/-- Bytes of one step's ledgers in a tier (R106): 16 bytes an element, in rows of its own ledgers and in those staged for other positions (R111). -/
def StepRec.ledgerBytes (x : StepRec) (near : Bool) : Nat :=
  sum (x.ledgers.map fun l => sum (l.rows.map fun r => if r.near = near then 16 * r.elems.length else 0))
    + sum (x.staged.map fun g => if g.near = near then 16 * g.elems.length else 0)

/-- Bytes of a job's ledgers in a tier (R106). -/
def Job.ledgerBytes (j : Job) (near : Bool) : Nat := sum (j.steps.map fun x => x.ledgerBytes near)

/-- Bytes of all ledgers in a tier (R106). -/
def State.ledgerBytes (s : State) (near : Bool) : Nat := sum (s.jobs.map fun j => j.ledgerBytes near)

/-- Bytes of a stored row with its meta granule. -/
def RowData.bytes (r : RowData) : Nat := 32 + r.elems.length * (classType r.cls).bits / 8 + 4 * (r.m.length + r.v.length)

/-- Bytes of a parameter's master and state (R230). -/
def Job.paramBytes (j : Job) : Nat :=
  sum (j.body.params.map fun p =>
    let g : GroupRow := ⟨(j.entry (0x5401 + pRecGroup p.rec' / 128) (pRecGroup p.rec' % 128 + 1)).toNat⟩
    pRecRows p.rec' * pRecCols p.rec' * (g.masterType.bits / 8 + ruleMoments g.rule * (g.momentType.bits / 8)))

/-- Bytes of the group table, 64 bytes for each of 1,024 groups (R221). -/
def groupTableBytes : Nat := 64 * 1024

/-- Bytes of rows staged and not yet published (R132, R256). -/
def Job.stagedBytes (j : Job) : Nat := sum (j.body.tables.map fun t => sum (t.staged.map fun x => x.data.bytes))

/-- Bytes a job holds in the far general region beside its tiles: held annex rows, results, parameters, staged rows and the group table (R100, R221, R256,
R285). -/
def Job.farBytes (j : Job) : Nat :=
  sum (j.body.held.map fun h => h.data.bytes) + sum (j.body.results.map fun r => r.image.length) + j.paramBytes + j.stagedBytes + groupTableBytes

/-- Bytes of stored tiles in a tier that meet a condition. -/
def State.tileBytes (s : State) (p : StoredTile → Bool) : Nat := sum ((s.tiers.tiles.filter p).map fun t => t.image.length)

/-- Bytes of the three BF16 matrices an `ORTH` update iterates on, for each parameter under way in a job's steps (R228). -/
def Job.iterateBytes (j : Job) : Nat :=
  sum (j.steps.map fun x => sum (x.updates.map fun u => sum (u.orth.map fun o => sum (o.2.1.map fun r => 6 * r.length))))

/-- *pool occupancy* (R228, R264): near tiles outside the pinned region, tiles being promoted, near ledgers, matrices being iterated. -/
def State.poolUsed (s : State) : Nat :=
  s.tileBytes (fun t => (t.tier == .near && !t.pinned) || (t.tier == .far && t.promoting)) + s.ledgerBytes true + sum (s.jobs.map Job.iterateBytes)

def State.farUsed (s : State) : Nat :=
  s.tileBytes (fun t => t.tier == .far || (t.tier == .near && t.evicting)) + s.ledgerBytes false + sum (s.jobs.map Job.farBytes)

def State.pinnedUsed (s : State) : Nat := s.tileBytes fun t => t.pinned && t.tier == .near

/-- Free bytes of the pool and the far general region together (R256). -/
def State.freeBytes (s : State) : Nat := (s.poolCapacity - s.poolUsed) + (s.farCapacity - s.farUsed)

/-- Whether pool occupancy after adding bytes stays within the high watermark (R260). -/
def State.underHigh (s : State) (n : Nat) : Bool := decide (100 * (s.poolUsed + n) ≤ s.num 0x3110 2 * s.poolCapacity)

/-- Where bytes of a tile that is neither pinned nor a ledger go; none where nowhere (R260). `far` tries the far tier first, for a catalogue. -/
def State.place (s : State) (n : Nat) (far : Bool) : Option Tier :=
  let farOk := decide (s.farUsed + n ≤ s.farCapacity)
  if far ∧ farOk then some .far
  else if s.underHigh n then some .near
  else if farOk then some .far
  else if s.poolUsed + n ≤ s.poolCapacity then some .near
  else none

/-- Stack pair with the most free space: fewest bytes, ties to the lower (R260). -/
def State.freePair (s : State) : Nat :=
  let used (p : Nat) := s.tileBytes fun t => t.tier == .near && t.pair == p
  (List.range 4).foldl (fun b p => if used p < used b then p else b) 0

/-! ### Tiles -/

def State.tile? (s : State) (k : TileKey) : Option StoredTile := s.tiers.tiles.find? fun t => t.key == k

def State.updTiles (s : State) (f : List StoredTile → List StoredTile) : State := { s with tiers := { s.tiers with tiles := f s.tiers.tiles } }

def State.updTile (s : State) (k : TileKey) (f : StoredTile → StoredTile) : State :=
  s.updTiles fun l => l.map fun t => if t.key = k then f t else t

/-- The image of a stored tile; empty where it is absent. -/
def State.image (s : State) (k : TileKey) : List Byte := ((s.tile? k).map (·.image)).getD []

/-- Elements of a tile (R151, R155). -/
def State.elems (s : State) (k : TileKey) : List Nat := decodeTile (s.image k)

/-- A tile of a key with nothing stored: `ABSENT`, or annex-held. -/
def TileKey.empty (k : TileKey) (tier : Tier) : StoredTile :=
  { key := k, tier := tier, pair := 0, devGranule := 0, charge := k.slot, lastStep := 0, image := [], poison := [], promoting := false, evicting := false,
    pinned := false }

/-- Touch a tile in a step (R261). A tile that is not stored is touched as well: it has its entry (R258). -/
def State.touch (s : State) (k : TileKey) (step : Nat) : State :=
  if (s.tile? k).isSome then s.updTile k fun t => { t with lastStep := max t.lastStep step }
  else s.updTiles fun l => l ++ [{ k.empty .absent with lastStep := step }]

/-- Touch tiles in a step. -/
def State.touchAll (s : State) (ks : List TileKey) (step : Nat) : State := ks.foldl (fun s k => s.touch k step) s

/-- Note the tensor tiles of a step's or the job's scope that an instance reads from the far tier (R263). -/
def State.noteFar (s : State) (ks : List TileKey) : State :=
  let far := ks.filter fun k => k.space == .tensor && k.scope != .workItem && ((s.tile? k).map fun t => t.tier == .far && !t.promoting).getD false
  { s with tiers := { s.tiers with farReads := (s.tiers.farReads ++ far).eraseDups } }

/-- Granules of the device range (R252). -/
def deviceGranules : Nat := 2304 * gib / 32

/-- Whether granules from a device address on lie in the range and meet no stored tile's slot (R252). -/
def State.devFree (s : State) (g n : Nat) : Bool :=
  decide (g + n ≤ deviceGranules) && s.tiers.tiles.all fun t => t.image.isEmpty || decide (t.devGranule + t.image.length / 32 ≤ g) || decide (g + n ≤ t.devGranule)

/-- The slot a tile of n granules takes (R252): the allocator's choice where that is free, else the first free place at the start of the range or after
another tile. -/
def State.slotFor (s : State) (choice n : Nat) : Nat :=
  let wish := choice % deviceGranules
  ((wish :: 0 :: s.tiers.tiles.map fun t => t.devGranule + t.image.length / 32).find? fun g => s.devFree g n).getD wish

/-- Write a tile (R159, R258, R260): an empty image makes it `ABSENT`; a move under way is abandoned. The die that writes gives the stack pair, none for
a command. Nothing is written where no space is (R256); callers have made sure of it. -/
def State.putTile (s : State) (k : TileKey) (image : List Byte) (die : Option Nat) (pinned : Bool) : State :=
  let old := s.tile? k
  let t0 : StoredTile := old.getD (k.empty .absent)
  let keep := decide (image ≠ []) && image.length == t0.image.length && t0.tier != .absent
  let s' := s.updTiles fun l => l.filter fun t => t.key != k
  let (i, s') := draw s'
  let tier := if image = [] then Tier.absent else if keep then t0.tier else if pinned then .near else (s'.place image.length (k.space == .catalogue)).getD .far
  let t : StoredTile :=
    { t0 with tier := tier, image := image, poison := [], promoting := false, evicting := false, pinned := pinned,
              pair := if keep then t0.pair else if tier = .near then die.getD s'.freePair else 0,
              devGranule := if image = [] then 0 else if keep then t0.devGranule else s'.slotFor (Config.placeAt i) (image.length / 32) }
  s'.updTiles fun l => l ++ [t]

/-- Whether an image may be stored in place of what stands under a key (R256). -/
def State.roomFor (s : State) (k : TileKey) (n : Nat) : Bool :=
  n == 0 || n == (s.image k).length || ((s.updTiles fun l => l.filter fun t => t.key != k).place n (k.space == .catalogue)).isSome

/-- Put tiles, in order, from a die or a command. -/
def State.putAll (s : State) (l : List (TileKey × List Byte)) (die : Option Nat) : State := l.foldl (fun s p => s.putTile p.1 p.2 die false) s

/-- Whether tiles find room one after the other (R256). -/
def State.roomForAll (s : State) (l : List (TileKey × List Byte)) : Bool :=
  (l.foldl (fun (a : State × Bool) p => (a.1.putTile p.1 p.2 none false, a.2 && a.1.roomFor p.1 p.2.length)) (s, true)).2

/-- Free tiles (R257). -/
def State.freeTiles (s : State) (p : TileKey → Bool) : State := s.updTiles fun l => l.filter fun t => !p t.key

/-! ### The carrel -/

/-- Address of a carrel byte in the state's one list: logical tile and byte address (R41). -/
def carrelAt (tile addr : Nat) : Nat := tile * 2 ^ 22 + addr

/-- A carrel byte; one not listed is zero (R47). -/
def carrelByte (c : List Host.Cell) (a : Nat) : Byte := (c.find? fun p => p.1 == a).elim 0 (·.2)

/-- The canonical form of the carrel: addresses strictly rising, no zero byte. -/
def carrelWf (c : List Host.Cell) : Bool := rising (c.map (·.1)) && c.all fun p => p.2 != 0

/-- The cells from a byte address to another. -/
def cellsBetween (c : List Host.Cell) (lo hi : Nat) : List Host.Cell := c.filter fun p => decide (lo ≤ p.1) && decide (p.1 < hi)

/-- Bytes of a tile's carrel from a byte address. -/
def State.carrelRead (s : State) (tile addr n : Nat) : List Byte :=
  let c := cellsBetween s.carrel (carrelAt tile addr) (carrelAt tile addr + n)
  (List.range n).map fun i => carrelByte c (carrelAt tile addr + i)

/-- Put bytes over the cells from an address on: zero bytes are not listed. -/
def putCells (c : List Host.Cell) (a : Nat) (b : List Byte) : List Host.Cell :=
  c.filter (fun p => decide (p.1 < a)) ++ (((List.range' a b.length).zip b).filter fun p => p.2 != 0) ++ c.filter fun p => decide (a + b.length ≤ p.1)

/-- Write bytes of a tile's carrel: a granule written whole loses its poison. -/
def State.carrelWrite (s : State) (tile addr : Nat) (b : List Byte) : State :=
  { s with
    carrel := putCells s.carrel (carrelAt tile addr) b
    carrelPoison := s.carrelPoison.filter fun g => !(decide (tile * 2 ^ 17 * 32 + addr ≤ g * 32) && decide (g * 32 + 32 ≤ tile * 2 ^ 17 * 32 + addr + b.length)) }

/-- Zero a granule range of a tile's carrel (R47). -/
def State.carrelZero (s : State) (tile first len : Nat) : State :=
  let lo := carrelAt tile (32 * first)
  let hi := carrelAt tile (32 * (first + len))
  { s with
    carrel := s.carrel.filter fun p => !(decide (lo ≤ p.1) && decide (p.1 < hi))
    carrelPoison := s.carrelPoison.filter fun g => !(decide (tile * 2 ^ 17 + first ≤ g) && decide (g < tile * 2 ^ 17 + first + len)) }

/-! ### Tiles of the module -/

def State.unit (s : State) (t : Nat) : Tile := s.tileUnits.getD t { phys := 0 }

def State.updUnit (s : State) (t : Nat) (f : Tile → Tile) : State := { s with tileUnits := s.tileUnits.set t (f (s.unit t)) }

/-- The role map word of a tile as written (R44). -/
def State.roleWord (s : State) (t : Nat) : Nat := s.num (0x4010 + t / 64) (t % 64 + 1)

/-- Fields of a role map word (Table 03-3). -/
def roleA (w : Nat) : Nat := bits w 3 0
def roleB (w : Nat) : Nat := bits w 7 4
def progA (w : Nat) : Nat := bits w 11 8
def progB (w : Nat) : Nat := bits w 15 12
def groupA (w : Nat) : Nat := bits w 19 16
def groupB (w : Nat) : Nat := bits w 23 20
def roleSlot (w : Nat) : Nat := bits w 25 24

/-- Program slots of a role map word that hold a role and group, with their program index. -/
def halvesFor (w role group : Nat) : List (Nat × Nat) :=
  (if roleA w = role ∧ groupA w = group then [(0, progA w)] else []) ++ (if roleB w = role ∧ groupB w = group then [(1, progB w)] else [])

/-- The role map word of a tile that binds a step (R46); 0 for a tile of no role in it. -/
def StepRec.roleWord (x : StepRec) (t : Nat) : Nat := aGetD x.roles t 0

/-- Changes of a tile's entry before the word that binds a step was written (R46, R47). -/
def StepRec.epoch (x : StepRec) (t : Nat) : Nat := aGetD x.epochs t 0

/-- Tiles of a step that hold a role and group, in ascending order, lost tiles apart (R65). -/
def State.holders (s : State) (x : StepRec) (role group : Nat) : List Nat :=
  (x.roles.filter fun p => !(halvesFor p.2 role group).isEmpty && !(s.unit p.1).lost).map (·.1)

/-- First carrel granule of a program slot's region (R61). -/
def Job.regionBase (j : Job) (w half : Nat) : Nat :=
  if half = 0 then 0 else 131072 - ((j.programs[progB w]?).map (·.carrel)).getD 0

end Sys2Proof.Machine
end

