-- ==== Sys2Proof/Machine/Groups.lean ====
section
/-!
DEFINITION. The group table and the schedule curves of a job, and the relations that values of job-scoped entries must meet (R49, R71, R221 to R224,
R254, R321).
-/
namespace Sys2Proof.Machine
open Sys2Proof

/-- Entry of a group's row (R221). -/
def groupKey (g : Nat) : Nat × Nat := (0x5401 + g / 128, g % 128 + 1)

/-- Entry of a curve (R224). -/
def curveKey (c : Nat) : Nat × Nat := (0x5501 + c / 128, c % 128 + 1)

/-- A group's row as the job's entries hold it. -/
def Job.group (j : Job) (g : Nat) : GroupRow := ⟨(j.entry (groupKey g).1 (groupKey g).2).toNat⟩

/-- A group's row in a step's binding set. -/
def StepRec.group (x : StepRec) (g : Nat) : GroupRow := ⟨(x.entry (groupKey g).1 (groupKey g).2).toNat⟩

/-- Knots of a curve's value; one never written is one knot (0, +0.0) (R224). -/
def curveOf (v : DVal) : List (Nat × Nat) := if v.toBytes = [] then [(0, 0)] else knots v.toBytes

def Job.curve (j : Job) (c : Nat) : List (Nat × Nat) := curveOf (j.entry (curveKey c).1 (curveKey c).2)
def StepRec.curve (x : StepRec) (c : Nat) : List (Nat × Nat) := curveOf (x.entry (curveKey c).1 (curveKey c).2)

/-- Values fit for a learning rate or a weight decay, and for a momentum (R224). -/
def rateOk (ks : List (Nat × Nat)) : Bool := ks.all fun k => !(f32 k.2).lt (.zero false)
def momentumOk (ks : List (Nat × Nat)) : Bool := ks.all fun k => !(f32 k.2).lt (.zero false) && (f32 k.2).lt (.fin false 1 1 0)

/-- Listed fields of a group row (Table 11-2, R6): offsets of those at fault. -/
def GroupRow.fieldBads (g : GroupRow) (off : Nat) : List Bad :=
  need (decide (g.rule ≤ 3)) (.field off) ++ need (bits g.w 6 4 == 0) (.field off) ++ need (bits g.w 19 10 == 0) (.field (off + 1))
    ++ need (decide (g.workCode ≤ 4)) (.field (off + 2)) ++ need (decide (g.workNm ≤ 2)) (.field (off + 3)) ++ need (bits g.w 30 29 == 0) (.field (off + 3))
    ++ need (bits g.w 351 64 == 0) (.field (off + 8))

/-- Whether a group is in use (R224). -/
def Job.groupInUse (j : Job) (g : Nat) : Bool :=
  let k := groupKey g
  (aGet j.body.dict (entryKey k.1 k.2)).isSome || (j.body.params.any fun p => pRecGroup p.rec' == g) || (j.body.tables.any fun t => t.group == g)

/-- The rules of R222 for a row of a group, given the job's parameters and whether a table names the group; `off` is the row's place in the payload. -/
def Job.groupBads (j : Job) (g : Nat) (r : GroupRow) (byTable : Bool) (off : Nat) : List Bad :=
  let ps := j.body.params.filter fun p => pRecGroup p.rec' == g
  let tabled := byTable || j.body.tables.any fun t => t.group == g
  need ((r.rule != 2 || ps.isEmpty) && (r.rule != 3 || (!tabled && ps.all fun p => decide (pRecRows p.rec' ≤ 4096) && decide (pRecCols p.rec' ≤ 4096)))) (.field off)
    ++ need (!(f32 r.beta2).lt (.zero false) && (f32 r.beta2).lt (.fin false 1 1 0)) (.field (off + 44))
    ++ need ((r.rule != 1 && r.rule != 2) || ((f32 r.eps).isFinite && (Val.zero false).lt (f32 r.eps))) (.field (off + 48))
    ++ need (f32 r.gradMul).isFinite (.field (off + 52)) ++ need (r.workCode != 0 || r.workNm == 0) (.rel off)
    ++ need (rateOk (j.curve r.lrCurve)) (.field (off + 3)) ++ need (rateOk (j.curve r.wdCurve)) (.field (off + 5))
    ++ need (momentumOk (j.curve r.momCurve)) (.field (off + 6))

/-- The rules of R224 for a curve's bytes, `off` their place in the payload. -/
def Job.curveBads (j : Job) (c : Nat) (b : List Byte) (off : Nat) : List Bad :=
  let ks := knots b
  let used := (List.range 1024).filter j.groupInUse
  let ranges := used.map fun g => let r := j.group g; (r.lrCurve == c || r.wdCurve == c, r.momCurve == c)
  let fits (n : Nat) : Bool := (f32 n).isFinite && ranges.all fun x => (!x.1 || rateOk [(0, n)]) && (!x.2 || momentumOk [(0, n)])
  need (within 1 64 (leAt b 0 1) && b.length == 16 + 16 * leAt b 0 1) (.field off) ++ need (bits (leAt b 0 16) 127 8 == 0) (.field (off + 1))
    ++ ((List.range ks.length).map fun i =>
        let o := off + 16 + 16 * i
        need (leAt b (28 + 16 * i) 4 == 0) (.field (o + 12)) ++ need (fits (leAt b (24 + 16 * i) 4)) (.field (o + 8))
          ++ need (i == 0 || decide (leAt b (16 * i) 8 < leAt b (16 + 16 * i) 8)) (.rel o)).flatten

/-- The rules of R321 for a reduction list. -/
def Job.reductionOk (j : Job) (b : List Byte) : Bool :=
  let rs := reductions b
  b.length % 16 == 0 && noDup (rs.map redTensor) && rs.all fun w =>
    decide (redKind w ≤ 1) && decide (bits w 9 8 ≤ 2) && bits w 63 20 == 0 && decide (redTensor w < 0xFFFFF000)
      && (if redKind w = 0 then
            bits w 19 10 == 0 && j.body.params.any fun p => pRecTensor p.rec' == redTarget w
          else
            within 1 6 (bits w 13 10) && (j.body.tables.any fun t => t.id == redTarget w && t.placement == 1)
              && (match j.tensor? (redTensor w) with | some r => tRecScope r == 2 | none => true))

/-- The most a job's shelf region takes until its next refresh: its capacity in force, or as written (R129, R254). -/
def Job.shelfMost (j : Job) : Nat := max j.shelfCap (j.num 0x6100 1)

/-- Sampler entries of a job with one of them replaced (R49, R71). -/
def Job.samplerWrite (j : Job) (sub n : Nat) : Bool :=
  let v (i : Nat) := if i = sub then n else j.num 0x4820 i
  samplerOk j.programs (v 3) (v 1) (v 2)

/-- Relations a job-scoped value must meet beside its own range; `off` is its place in the payload. -/
def State.jobRelationBads (s : State) (j : Job) (index sub n : Nat) (data : List Byte) (off : Nat) : List Bad :=
  if index = 0x4820 then need (j.samplerWrite sub n) (.field off)
  else if index = 0x2340 then need (j.reductionOk data) (.field off)
  else if within 0x5401 0x5408 index then
    let r : GroupRow := ⟨leNat data⟩
    r.fieldBads off ++ j.groupBads ((index - 0x5401) * 128 + sub - 1) r false off
  else if within 0x5501 0x5510 index then j.curveBads ((index - 0x5501) * 128 + sub - 1) data off
  else if index = 0x6100 ∧ sub = 1 then
    let others := s.jobs.filter fun k => k.slot != j.slot
    need (decide (sum (others.map fun k => k.num 0x6100 1) + n ≤ 393216)
      && decide (sum (others.map Job.shelfMost) + max j.shelfCap n + s.num 0x3100 1 ≤ 524288)) (.field off)
  else []

end Sys2Proof.Machine
end

