-- ==== Sys2Proof/Machine/Channels.lean ====
section
/-!
DEFINITION. DMA channels: what they hold, how a descriptor is posted and ends, and what becomes of an aborted one (15_dma).
-/
namespace Sys2Proof.Machine
open Sys2Proof

/-- The function of a channel (R297, Table 15-1). -/
def chanFunction (c : Nat) : Nat := if c < 8 then 0 else if c < 16 then 1 else if c < 40 then 2 else if c < 56 then 3 else 4

def State.chan (s : State) (c : Nat) : Channel := aGetD s.dma c {}

def State.setChan (s : State) (c : Nat) (x : Channel) : State := { s with dma := aSet s.dma c x }

/-- Bursts of a descriptor: eight granules each (R298). -/
def DmaDesc.bursts (d : DmaDesc) : Nat := ceilDiv d.length 8

/-- Whether an address is one of its kind, its reserved bits zero (Table 15-3): 0 `NEAR`, 1 `FAR`, 2 `CARREL`, 3 `SLOT` or `HOST`, 4 `SUESH`, 5 `STORE`. -/
def dmaAddrOk (kind a : Nat) : Bool :=
  decide (a < 2 ^ 64) && match kind with
    | 0 => decide (bits a 63 59 ≤ 7)
    | 1 => decide (bits a 63 59 ≤ 17)
    | 2 => bits a 63 59 == 0 && bits a 50 17 == 0
    | 3 => bits a 63 59 == 0
    | 4 => bits a 63 20 == 0
    | _ => bits a 63 32 == 0

/-- Field ranges of a descriptor (Table 15-2): what one trigger alone uses is zero for the others, and a layout is that of a carrel (R301). -/
def DmaDesc.ok (d : DmaDesc) : Bool :=
  decide (d.func ≤ 4) && decide (d.priority ≤ 7) && (if d.trigger = .after then decide (d.afterChannel ≤ 63) else d.afterChannel == 0) &&
    (if d.trigger = .timer then decide (d.ticks < 2 ^ 32) else d.ticks == 0) && decide (d.srcKind ≤ 5) && decide (d.dstKind ≤ 4) &&
    decide (d.layout ≤ 3) && (d.layout == 0 || d.dstKind == 2) && within 1 16777215 d.length && dmaAddrOk d.srcKind d.src && dmaAddrOk d.dstKind d.dst &&
    decide (d.owner < 2 ^ 32)

/-- Let the descriptor first in line run, if its trigger has fired. -/
def Channel.settle (x : Channel) : Channel :=
  match x.current with
  | some (_, ready) => { x with state := if ready then .active else .waiting }
  | none =>
    match x.posted with
    | [] => { x with state := .idle }
    | (d, ready) :: rest => { x with current := some (d, ready), posted := rest, burst := 0, attempts := 0, state := if ready then .active else .waiting }

/-- A channel's descriptor has ended: the next in line moves up, and descriptors waiting `AFTER` it may start (R299). -/
def State.chanEnd (s : State) (c : Nat) : State :=
  let s := s.setChan c { s.chan c with current := none, state := .idle }
  let fire (p : DmaDesc × Bool) : DmaDesc × Bool := (p.1, p.2 || (p.1.trigger == .after && p.1.afterChannel == c))
  let upd (x : Channel) : Channel :=
    let y := { x with current := x.current.map fire, posted := x.posted.map fire }
    if y.state = .halted ∨ y.state = .acting then y else y.settle
  { s with dma := s.dma.map fun p => (p.1, upd p.2) }

/-- Post a descriptor (R297, R299): to a channel of its own function that is not halted and holds fewer than seven behind the one in execution. -/
def State.dmaPost (s : State) (c : Nat) (d : DmaDesc) : State :=
  let x := s.chan c
  if decide (c < 64) && d.func == chanFunction c && d.ok && x.state != .halted && x.state != .acting && decide (x.posted.length < 7) then
    let ready := match d.trigger with
      | .immediate => true
      | .timer => false
      | .after => (s.chan d.afterChannel).current.isNone
    s.setChan c ({ x with posted := x.posted ++ [(d, ready)] }).settle
  else s

/-- The channel of the same function that takes an aborted descriptor (R305): another one, or where none can, the same. -/
def State.takingChannel (s : State) (c : Nat) : Nat :=
  ((List.range 64).find? fun k => k != c && chanFunction k == chanFunction c && (s.chan k).state != .halted && (s.chan k).state != .acting
    && decide ((s.chan k).posted.length < 7)).getD c

/-- A slip whose landing is void is `FENCED` (R90, R305). -/
def Slip.void (p : Slip) : Slip := if p.state = .issued ∨ p.state = .partly then { p with state := .fenced, landed := 0 } else p

/-- The destination tile of a `LANDING` descriptor (Table 15-3). -/
def DmaDesc.tile (d : DmaDesc) : Nat := bits d.dst 58 51

/-- What the owning function does with an aborted descriptor (R305, Table 15-5). `OWNER_TAG` is taken as the slip's number, or as the low 32 bits of the tile's device
granule. A response stays in its store; with the port down its descriptor waits with it. -/
def State.abortOutcome (s : State) (c : Nat) (d : DmaDesc) : State :=
  let again (s : State) : State := s.dmaPost (s.takingChannel c) { d with trigger := .immediate, afterChannel := 0, ticks := 0 }
  match d.func with
  | 0 => if s.port.width = 0 then s else again s
  | 2 =>
    let u := s.tileUnits.getD d.tile { phys := 0 }
    { s with tileUnits := s.tileUnits.set d.tile { u with slips := u.slips.map fun p => if p.1 = d.owner % 1024 then (p.1, p.2.void) else p } }
  | 3 =>
    { s with tiers := { s.tiers with tiles := s.tiers.tiles.map fun t =>
        if t.devGranule % 2 ^ 32 = d.owner then { t with evicting := false, promoting := false } else t } }
  | _ => again s

/-- Descriptors ended as by `ABORT` when a channel meets another happening (R306): those posted that `f` picks leave, and one in execution ends. -/
def State.endDma (s : State) (st : ChanState → Bool) (f : DmaDesc → Bool) : State :=
  (s.dma.map (·.1)).foldl (fun s c =>
    let x := s.chan c
    if st x.state then
      let s := s.setChan c { x with posted := x.posted.filter fun p => !f p.1 }
      match x.current with
      | some (d, _) => if f d then (s.chanEnd c).abortOutcome c d else s
      | none => s
    else s) s

end Sys2Proof.Machine
end

