-- ==== Sys2Proof/Machine/HostPort.lean ====
section
/-!
DEFINITION. The host port: slots and doorbells, taking and checking packets, chains, rings, and the CXL link (14_host_interface).
-/
namespace Sys2Proof.Machine
open Sys2Proof

/-- The opcodes of Table 14-6. -/
def listedOpcodes : List Nat :=
  [0x01, 0x02, 0x10, 0x11, 0x12, 0x13, 0x14, 0x15, 0x20, 0x21, 0x22, 0x23, 0x30, 0x31, 0x38, 0x39, 0x40, 0x41, 0x7F]

/-- Opcodes a queue without a job may carry (R19). -/
def sessionOpcodes : List Nat := [0x01, 0x40, 0x41, 0x7F]

/-- `SLOT_FREE` of a slot: 1 once the module is ready and the slot holds no packet to be taken (R471, R472). -/
def State.slotFree (s : State) (q slot : Nat) : Bool := s.bring.ready && !(s.queue q).busy.getLsbD slot

/-- Whether BAR traffic reaches the module: the link is up and the queue exists. -/
def State.barUp (s : State) (q : Nat) : Bool := decide (0 < s.port.width) && decide (q < 1024)

/-- A write of bytes into a packet slot (R272, R273). -/
def State.slotWrite (s : State) (q off : Nat) (data : List Byte) : State :=
  if s.barUp q = false ∨ 0x10000 < off + data.length ∨ data = [] then s
  else
    let first := off / 0x4000
    let last := (off + data.length - 1) / 0x4000
    if (List.range (last + 1 - first)).all fun i => s.slotFree q (first + i) then
      s.updQueue q fun x =>
        let all := (x.slots.map (fitTo 0x4000)).flatten
        let new := overlay all off data
        { x with slots := (List.range 4).map fun i => slice new (0x4000 * i) 0x4000 }
    else s.add 0x2210 3 1

/-- A doorbell write (R273): the slot named is no longer free and its packet is ready. -/
def State.doorbell (s : State) (q value : Nat) : State :=
  if s.barUp q = false then s
  else
    let slot := bits value 31 30
    if s.slotFree q slot then
      s.updQueue q fun x => { x with busy := x.busy ||| BitVec.ofNat 4 (2 ^ slot), bells := x.bells ++ [(slot, bits value 14 0)] }
    else s.add 0x2210 3 1

/-- Step 7 of the check order: the queue's binding and the job's standing (R19, R281, R275). DEDUCED: a module that has raised `SELF_FENCED` joins no job (R369), so it
refuses `JOB_OPEN` as for a fenced position. DEDUCED: a job that is filling takes `ROW_SUPPLY`, since its replay calls
rows again and R361 has them supplied. -/
def State.gate7 (s : State) (q opcode : Nat) : Option Status :=
  if listedOpcodes.contains opcode = false then none
  else if opcode = 0x01 ∧ s.bring.selfFenced then some .fenced
  else match (s.queue q).job with
    | none => if sessionOpcodes.contains opcode then none else some .range
    | some slot =>
      match s.job? slot with
      | none => some .range
      | some j =>
        match j.state with
        | .closing _ _ _ => some .range
        | _ => if j.fenced || (j.filling && opcode != 0x21) then some .fenced else none

/-- Commands of an opcode that have passed step 8 and whose row has not run yet: they count against the room of step 8. -/
def State.untried (s : State) (opcode : Nat) : List InFlight :=
  s.port.inFlight.filter fun f => (f.stage == .arrived || f.stage == .chain) && f.cmd.opcode == opcode

/-- Step 8: room for the command among those in flight, for a new job, or for a step (R22, R24). A resume opens no further job. -/
def State.gate8 (s : State) (q opcode : Nat) (payload : List Byte) : Option Status :=
  if 4096 ≤ s.port.inFlight.length then some .noSpace
  else if opcode = 0x01 ∧ (leAt payload 8 1) % 2 = 0 ∧
    4 ≤ s.jobs.length + ((s.untried 0x01).filter fun f => (leAt f.cmd.payload 8 1) % 2 == 0).length then some .noSpace
  else if opcode = 0x20 ∧ 16 ≤ (((s.queue q).job.bind s.job?).map fun j =>
    j.steps.length + ((s.untried 0x20).filter fun f => f.job == some j.slot).length).getD 0 then some .noSpace
  else none

/-- Add an assembled or opened command to those in flight. -/
def State.addInFlight (s : State) (c : Command) (st : Stage) : State :=
  { s with port := { s.port with inFlight := s.port.inFlight ++ [{ cmd := c, stage := st, job := (s.queue c.queue).job, accept := none, logged := false }] } }

/-- Steps 5 to 8 of a whole command, unchained or assembled from a chain; then it waits for its own row (R275). -/
def State.wholeCommand (s : State) (c : Command) (bad chained : Bool) : State :=
  if bad then (s.refuse c .range)
  else if listedOpcodes.contains c.opcode = false then s.refuse c .badOpcode
  else match s.gate7 c.queue c.opcode with
    | some st => s.refuse c st
    | none =>
      if chained then
        s.updInFlight c.session c.queue c.seq fun f => { f with cmd := c, stage := .arrived, job := (s.queue c.queue).job }
      else match s.gate8 c.queue c.opcode c.payload with
        | some st => s.refuse c st
        | none => s.addInFlight c .arrived

/-- Whether steps 7 and 8 leave the sequence number of an unchained packet unconsumed (R275). -/
def State.keepsSeq (s : State) (c : Command) (bad : Bool) : Bool :=
  !bad && listedOpcodes.contains c.opcode && ((s.gate7 c.queue c.opcode).isSome || (s.gate8 c.queue c.opcode c.payload).isSome)

/-- The header of a packet as a command; `plain` is its decrypted payload (Table 14-4). -/
def headerCommand (q : Nat) (h : Nat) (plain : List Byte) : Command :=
  { queue := q, session := bits h 47 32, seq := bits h 127 64, tag := bits h 159 128, opcode := bits h 7 0, step := bits h 287 224,
    hdrBad := decide (bits h 383 288 ≠ 0 ∨ bits h 223 208 ≠ 0 ∨ bits h 15 9 ≠ 0), payload := plain }

/-- A packet refused at steps 1 to 4 (R275): its sequence number is not consumed; the first packet of a chain starts a discarding (R276). -/
def State.early (s : State) (c : Command) (more : Bool) (st : Status) : State :=
  let t := if more && ((s.queue c.queue).chain).isNone then s.updQueue c.queue fun x => { x with dropTag := some c.tag } else s
  t.answerBare c st (if st = .range then fieldOffset headerField else [])

/-- The command whose chain is open on a queue. -/
def State.chainCommand (s : State) (q : Nat) : Option Command :=
  (s.port.inFlight.find? fun f => f.cmd.queue == q && f.stage == .chain).map (·.cmd)

/-- The next packet of an open chain, past step 4 (R274, R275). -/
def State.chainPacket (s : State) (ch : Chain) (c : Command) (h : Nat) : State :=
  let q := c.queue
  let s := s.updQueue q fun x => { x with lastSeq := c.seq }
  match s.chainCommand q with
  | none => s
  | some c0 =>
    if c.tag ≠ ch.tag ∨ c.opcode ≠ ch.opcode then
      ((s.updQueue q fun x => { x with chain := none }).refuse c .range).refuse c0 .range
    else
      let s := s.releaseRoom q c.opcode
      let more := bit h 8
      let bad := ch.bad || decide (bits h 207 192 ≠ ch.next ∨ bits h 191 160 ≠ ch.length ∨ 1024 ≤ ch.next) || (more && decide (c.payload.length ≠ 16320))
      let c1 := { c0 with payload := c0.payload ++ c.payload, hdrBad := c0.hdrBad || c.hdrBad || decide (c.step ≠ c0.step) }
      if more then
        (s.updQueue q fun x => { x with chain := some { ch with next := ch.next + 1, bad := bad } }).updInFlight c0.session q c0.seq
          fun f => { f with cmd := c1 }
      else
        (s.updQueue q fun x => { x with chain := none }).wholeCommand c1 (bad || decide (c1.payload.length ≠ ch.length)) true

/-- The first packet of a chain, past step 4: steps 7 and 8, then the chain opens (R275). -/
def State.openChain (s : State) (c : Command) (h : Nat) : State :=
  let q := c.queue
  match (s.gate7 q c.opcode).or (s.gate8 q c.opcode c.payload) with
  | some st => (s.updQueue q fun x => { x with dropTag := some c.tag }).refuse c st
  | none =>
    let ch : Chain := { tag := c.tag, opcode := c.opcode, length := bits h 191 160, next := 1,
                        bad := decide (bits h 207 192 ≠ 0 ∨ c.payload.length ≠ 16320 ∨ 16711680 < bits h 191 160) }
    (s.updQueue q fun x => { x with lastSeq := c.seq, chain := some ch }).addInFlight c .chain

/-- Check a packet that has been copied out of its slot (R275, R276). `plain` is the payload its tag and key yield, none when the tag fails. -/
def State.checkPacket (s : State) (q nbytes : Nat) (data : List Byte) (plain : Option (List Byte)) : State :=
  let h := leNat (data.take 64)
  let plen := bits h 63 48
  let more := bit h 8
  let c := headerCommand q h (plain.getD [])
  let dropped := decide ((s.queue q).dropTag = some c.tag ∧ 0 < bits h 207 192)
  let s := if dropped then s else s.updQueue q fun x => { x with dropTag := none }
  if within 64 16384 nbytes = false ∨ nbytes ≠ 64 + plen ∨ bits h 31 16 ≠ q then s.early c more .badLength
  else if dropped then (s.releaseRoom q c.opcode).add 0x2210 2 1
  else
    if (s.sessions.any fun x => x.id == c.session && x.live && x.transport == .doe) = false then s.early c more .noSession
    else
      let bound := (s.queue q).session
      if bound ≠ 0 ∧ bound ≠ c.session then s.early c more .range
      else
        let last := if bound = 0 then 0 else (s.queue q).lastSeq
        if c.seq = 0 ∧ last = 0 then s.early c more .range
        else if c.seq ≤ last then s.early c more .authFail
        else if last + 1 < c.seq then s.early c more .range
        else match plain with
          | none => s.early c more .authFail
          | some _ =>
            let s := if bound = 0 then s.updQueue q fun x => { x with session := c.session, lastSeq := 0, rspSeq := 0, events := [] } else s
            match (s.queue q).chain with
            | some ch => s.chainPacket ch c h
            | none =>
              if more then s.openChain c h
              else
                let bad := decide (bits h 207 192 ≠ 0 ∨ bits h 191 160 ≠ plen)
                let s := if s.keepsSeq c bad then s else s.updQueue q fun x => { x with lastSeq := c.seq }
                s.wholeCommand c bad false

/-- Take the packet of the earliest doorbell once the store can hold its final response (R273, R291), and for a job's queue once the recovery region has room (R363);
then check it. -/
def State.packetTake (s : State) (q : Nat) (plain : Option (List Byte)) : State :=
  let x := s.queue q
  match x.bells with
  | [] => s
  | (slot, nbytes) :: rest =>
    let data := (x.slots.getD slot []).take (max 64 nbytes)
    let opcode := leAt data 0 1
    if x.hasRoom (finalEntries opcode) && decide (s.port.ide = 2) && !(x.job.isSome && s.regionFull) then
      (s.updQueue q fun x => { x with busy := x.busy &&& ~~~(BitVec.ofNat 4 (2 ^ slot)), bells := rest,
                                      reserved := x.reserved + finalEntries opcode }).checkPacket q nbytes data plain
    else s

/-- The chain gap timeout ends (R274): the open chain is discarded with one `TIMEOUT`. -/
def State.dropChain (s : State) (q : Nat) : State :=
  match (s.queue q).chain, s.chainCommand q with
  | some _, some c => (s.updQueue q fun x => { x with chain := none }).refuseWith c .timeout []
  | _, _ => s

/-! ### Rings -/

/-- A write of the control register at 0x10 (Table 14-3, R273). -/
def Queue.control (x : Queue) (value : Nat) : Queue :=
  let log2 := bits value 7 0
  let on := bit value 8
  let x := if !x.ringEnable && within 8 16 log2 then { x with ringLog2 := log2 } else x
  let x := { x with eventEnable := bit value 9 }
  let x := if on && !x.ringEnable then { x with ringHead := 0, ringTail := 0 } else x
  { x with ringEnable := on, ringFull := x.ringFull && on, fullSeconds := if on then x.fullSeconds else 0 }

/-- Whether a response of `n` entries fits in the ring (R291). -/
def Queue.fits (x : Queue) (n : Nat) : Bool := decide ((x.ringTail - x.ringHead).toNat + n ≤ 2 ^ x.ringLog2)

/-- A write of a queue register other than the doorbell, `RING_HEAD` and a setting of `RING_ENABLE` (Table 14-3). -/
def State.registerWrite (s : State) (q off value : Nat) : State :=
  if s.barUp q = false then s
  else if off = 0x08 then s.updQueue q fun x => if x.ringEnable then x else { x with ringBase := BitVec.ofNat 52 (value / 4096) }
  else if off = 0x10 ∧ bit value 8 = false then s.updQueue q fun x => x.control value
  else s

/-- A write of RING_HEAD (R291). -/
def State.headWrite (s : State) (q value : Nat) : State :=
  if s.barUp q = false then s
  else s.updQueue q fun x =>
    let y := { x with ringHead := BitVec.ofNat 32 value }
    match y.store with
    | [] => y
    | r :: _ => if y.fits r.entries then { y with ringFull := false, fullSeconds := 0 } else y

/-- `PHASE` of a response written at this tail (R291). -/
def Queue.phase (x : Queue) : Nat := if (x.ringTail.toNat / 2 ^ x.ringLog2) % 2 = 0 then 1 else 0

/-- `AUTH_TAG` of a response (R277): zero when unauthenticated, else a free function of the key and the nonce. -/
def State.rspTag (s : State) (r : Response) : Nat :=
  if r.session = 0 then 0 else Config.openBits 50 ((((s.session? r.session).map (·.outKey)).getD 0 * 2 ^ 64 + r.seq % 2 ^ 64) * 2 ^ 16 + r.queue)

/-- Write the front response to the host ring, or begin its wait on a full ring (R291, R294); steps' completions go in step order (R32). -/
def State.responseWrite (s : State) (q : Nat) : State :=
  let x := s.queue q
  match x.store with
  | [] => s
  | r :: rest =>
    if x.ringEnable = false ∨ s.port.ide ≠ 2 ∨ s.port.width = 0 ∨ s.outOfStepOrder r then s
    else if x.fits r.entries then
      let t := s.setQueue q { x with
        store := rest, ringTail := x.ringTail + BitVec.ofNat 32 r.entries, ringFull := false, fullSeconds := 0,
        written := some { base := 4096 * x.ringBase.toNat, entry := x.ringTail.toNat % 2 ^ x.ringLog2, header := r.header x.phase (s.rspTag r), rsp := r } }
      (match r.cmd with
       | some n => t.dropInFlight r.session q n
       | none => t).flushAll
    else if x.ringFull then s
    else (s.setQueue q { x with ringFull := true, fullSeconds := 0 }).add 0x2210 4 1

/-- Another second of the front response's wait on a full enabled ring (R291). -/
def State.ringFullSecond (s : State) (q : Nat) : State :=
  let x := s.queue q
  if x.ringFull && x.ringEnable then
    (s.setQueue q { x with fullSeconds := x.fullSeconds + 1 }).raise 0x2202 .cxl 0 q (x.fullSeconds + 1) 0
  else s

/-! ### What the host reads (R272) -/

/-- The bytes of BAR0 (Table 14-2): vendor code, product code and stepping, `MODULE_READY`, and the queue count. -/
def State.bar0 (s : State) : List Byte :=
  toLE 4 (s.num 0x1018 1) ++ toLE 2 (s.num 0x1018 2) ++ toLE 2 (s.num 0x1018 3) ++ toLE 4 (if s.bring.ready then 1 else 0) ++ toLE 4 1024 ++ zeros 65520

/-- The queue registers of a window (Table 14-3); the doorbell is write-only. -/
def State.queueRegisters (s : State) (q : Nat) : List Byte :=
  let x := s.queue q
  let flag (b : Bool) (n : Nat) : Nat := if b then 2 ^ n else 0
  toLE 4 0 ++ toLE 4 (sum ((List.range 4).map fun i => flag (s.slotFree q i) i)) ++ toLE 8 (4096 * x.ringBase.toNat)
    ++ toLE 8 (x.ringLog2 + flag x.ringEnable 8 + flag x.eventEnable 9) ++ toLE 4 x.ringHead.toNat ++ toLE 4 x.ringTail.toNat
    ++ toLE 4 (x.session + x.job.getD 0 * 2 ^ 16 + flag x.job.isSome 18 + flag x.chain.isSome 19 + flag x.ringFull 20)

/-- A window as the host reads it (Table 14-2): its packet slots read as zeros. -/
def State.window (s : State) (q : Nat) : List Byte := zeros 0x10000 ++ fitTo 0x10000 (s.queueRegisters q)

/-! ### The link -/

/-- What a port reset leaves of a queue (R271): its registers at reset, untaken packets gone; bindings and the response store stay. -/
def Queue.portReset (x : Queue) : Queue :=
  { x with busy := 0, bells := [], ringBase := 0, eventEnable := false, ringEnable := false, ringLog2 := 8, ringHead := 0, ringTail := 0,
           ringFull := false, fullSeconds := 0 }

/-- A reset of the CXL port or a loss of its link (R271, R440); an active `RING` descriptor ends (R306). -/
def State.portReset (s : State) : State :=
  let t := (s.port.queues.map (·.1)).foldl State.dropChain s
  let t := t.mapQueues fun _ x => x.portReset
  ({ t with port := { t.port with width := 0, rate := 0, ide := 0 } } : State).endDma (fun st => st == .active) fun d => d.func == 0

/-- Widths and rates of Table 14-1. -/
def linkForm (width rate : Nat) : Bool := [1, 2, 4, 8].contains width && [8, 16, 32, 64].contains rate

/-- The port trains (R269, R468), or retrains to no less than it had: `PWR_GOOD` high and `PERST_N` deasserted. -/
def State.linkTrained (s : State) (width rate : Nat) : State :=
  if s.bring.pwrGood && !s.port.perst && decide (s.port.width ≤ width ∧ s.port.rate ≤ rate) && linkForm width rate then
    { s with port := { s.port with width := width, rate := rate } }
  else s

/-- A retrain to a narrower width or a lower rate (R269): timing only, counted and reported. -/
def State.linkDegraded (s : State) (width rate : Nat) : State :=
  if linkForm width rate && decide (width < s.port.width ∨ rate < s.port.rate) then
    (({ s with port := { s.port with width := width, rate := rate } }).add 0x2200 5 1).raise 0x2201 .cxl 0 width rate 0
  else s

/-! ### The rows -/

/-- DOORBELL (R273). -/
def execDoorbell (q value : Nat) (s : State) : Host.Outcome State Fault Refusal := .next (s.doorbell q value)

/-- PACKET_SLOT_WRITE (R272, R273). -/
def execPacketSlotWrite (q off : Nat) (data : List Byte) (s : State) : Host.Outcome State Fault Refusal := .next (s.slotWrite q off data)

/-- PACKET_TAKE (R273, R275). -/
def execPacketTake (q : Nat) (plain : Option (List Byte)) (s : State) : Host.Outcome State Fault Refusal := .next (s.packetTake q plain)

/-- RING_ENABLE (R273): the write of the control register with `RING_ENABLE` set. -/
def execRingEnable (q value : Nat) (s : State) : Host.Outcome State Fault Refusal :=
  .next (if s.barUp q && bit value 8 then s.updQueue q fun x => x.control value else s)

/-- RING_HEAD (R291). -/
def execRingHead (q value : Nat) (s : State) : Host.Outcome State Fault Refusal := .next (s.headWrite q value)

/-- QUEUE_REGISTER_WRITE (R273). -/
def execQueueRegisterWrite (q off value : Nat) (s : State) : Host.Outcome State Fault Refusal := .next (s.registerWrite q off value)

/-- RESPONSE_WRITE (R291). -/
def execResponseWrite (q : Nat) (s : State) : Host.Outcome State Fault Refusal := .next (s.responseWrite q)

/-- RING_FULL (R291). -/
def execRingFull (q : Nat) (s : State) : Host.Outcome State Fault Refusal := .next (s.ringFullSecond q)

/-- CHAIN_GAP_TIMEOUT (R274). -/
def execChainGapTimeout (q : Nat) (s : State) : Host.Outcome State Fault Refusal := .next (s.dropChain q)

/-- PERST_ASSERT (R271). -/
def execPerstAssert (s : State) : Host.Outcome State Fault Refusal :=
  .next ({ s with port := { s.port with perst := true } }).portReset

/-- PERST_DEASSERT (R468): port training may start. -/
def execPerstDeassert (s : State) : Host.Outcome State Fault Refusal := .next { s with port := { s.port with perst := false } }

/-- CXL_LINK_TRAINED (R468). -/
def execCxlLinkTrained (width rate : Nat) (s : State) : Host.Outcome State Fault Refusal := .next (s.linkTrained width rate)

/-- LINK_DEGRADED (R269). -/
def execLinkDegraded (width rate : Nat) (s : State) : Host.Outcome State Fault Refusal := .next (s.linkDegraded width rate)

/-- IDE_KM (R270): the host keys CXL.io, then CXL.cache. -/
def execIdeKm (both : Bool) (s : State) : Host.Outcome State Fault Refusal :=
  .next (if 0 < s.port.width then { s with port := { s.port with ide := if both then 2 else 1 } } else s)

end Sys2Proof.Machine
end

