-- ==== Sys2Proof/Machine/Pages.lean ====
section
/-!
DEFINITION. Table rows: placement, row pages in the directory, the shelf, editions (R117 to R135).
-/
namespace Sys2Proof.Machine
open Sys2Proof

/-! ### Placement (R119, R120) -/

/-- Padded width (R117). -/
def Table.wp (t : Table) : Nat := 16 * ceilDiv t.width 16

/-- Positions this module answers for: its own and those folded into it (R375). -/
def State.mine (s : State) (p : Nat) : Bool := p == s.fabric.position || s.fabric.folded.contains p || s.fabric.filling == some p

/-- Home of a row under `ROW` placement (Table 06-1). -/
def rowHome (l : List Nat) (r : Nat) : Nat :=
  let h := (r / 32 * 0x9E3779B97F4A7C15) % 2 ^ 64
  nth l ((h / 2 ^ 32 * l.length) / 2 ^ 32)

/-- First column and column count of slice k (R120). -/
def Table.slice (t : Table) (k : Nat) : Nat × Nat :=
  let tiles := ceilDiv t.wp 32
  let p := t.positions.length
  let lo := min t.wp (32 * (k * tiles / p))
  (lo, min t.wp (32 * ((k + 1) * tiles / p)) - lo)

/-- Position that is home to a row and column (Table 06-1). -/
def Table.home (t : Table) (r c : Nat) : Nat :=
  match t.placement with
  | 0 => rowHome t.positions r
  | 1 => nth t.positions (((List.range t.positions.length).find? fun k => let s := t.slice k; decide (s.1 ≤ c) && decide (c < s.1 + s.2)).getD 0)
  | _ => nth t.positions 0

/-- Columns of each row this module holds: first and count; none where it holds no part of the row (R120, R139). -/
def State.columns (s : State) (t : Table) (r : Nat) : Option (Nat × Nat) :=
  if t.placement = 1 then ((List.range t.positions.length).find? fun k => s.mine (nth t.positions k)).map t.slice
  else if s.mine (t.home r 0) then some (0, t.wp) else none

/-! ### Pages (R122, R123, R230, R258) -/

/-- Class of a page in an edition (R122, R128). -/
def Table.cls (t : Table) (ed page : Nat) : Nat := aGetD t.classes (t.owner ed page, page) t.init

/-- A row of zeros in a class. -/
def RowData.zero (cls n : Nat) (moments : Nat) : RowData :=
  { cls := cls, elems := List.replicate n 0, scale := if cls = 2 then 127 else 0, a := 0, b := 0, touch := 0, rule := 0,
    m := if 1 ≤ moments then List.replicate n 0 else [], v := if 2 ≤ moments then List.replicate n 0 else [] }

/-- Moments kept per element of a table's rows under a group's row (R230). -/
def GroupRow.tableMoments (g : GroupRow) : Nat := if g.rule = 3 then 0 else ruleMoments g.rule

/-- A row with the per-element state that a group's row asks for (R230): state of another type is converted by round-to-nearest-even, state not kept before
is zero. -/
def RowData.under (d : RowData) (g : GroupRow) : RowData :=
  let n := d.elems.length
  let old : ElemType := if d.mbf then .bf16 else .fp32
  let fit (l : List Nat) : List Nat :=
    if l.length ≠ n then List.replicate n 0 else if old = g.momentType then l else l.map fun b => (toElem g.momentType 0 .nearest (decodeElem old b)).bits
  { d with m := if 1 ≤ g.tableMoments then fit d.m else [], v := if 2 ≤ g.tableMoments then fit d.v else [], mbf := g.momentType == .bf16 }

/-- The meta granule of a row (Table 06-4). -/
def RowData.meta (r : RowData) : Nat :=
  (if r.cls = 2 then r.scale else 0) + (if r.cls = 3 then r.a * 2 ^ 16 + r.b * 2 ^ 32 else 0) + r.touch * 2 ^ 48 + r.cls * 2 ^ 64 + r.rule * 2 ^ 128

/-- The image of one tile of a page: `DENSE`, or empty when all zero (R122). -/
def pageTile (table page col rowsM1 colsM1 : Nat) (ty : ElemType) (es : List Nat) : List Byte :=
  if es.all (· = 0) then []
  else
    let l : Label := { format := .dense, elem := ty, nmAxis := false, indexRange := false, pruned := false, scale := 127, rowsM1 := rowsM1, colsM1 := colsM1,
                       nnz := nnzOf es, tileCol := col, tileRow := page, tensor := table, aux := 0 }
    l.bytes ++ packElems ty.bits es

/-- Elements of tile j of columns held by 32 rows. -/
def columnTile (rows : List (List Nat)) (j : Nat) : List Nat :=
  ((List.range 32).map fun i => (List.range 32).map fun c => nth (rows.getD i []) (32 * j + c)).flatten

/-- Whether a page is stored at all (R122): some tile of it is not `ABSENT`. -/
def State.pageStored (s : State) (slot : Nat) (t : Table) (ed page : Nat) : Bool :=
  s.tiers.tiles.any fun x => x.key.space == .table && x.key.slot == slot && x.key.id == t.id && x.key.edition == t.owner ed page && x.key.row == page
    && (x.tier == .near || x.tier == .far)

/-- Moments stored in a page of an edition, and whether they are BF16. -/
def Table.layout (t : Table) (own page : Nat) : Nat × Bool := aGetD t.layouts (own, page) (0, false)

/-- Tiles of a page that hold columns `first` to `first + count - 1` of the part of it held here, with its meta tile (R258). -/
def Table.pageKeys (t : Table) (slot own page first count : Nat) : List TileKey :=
  (0 :: (List.range (ceilDiv (first + count) 32 - first / 32)).map fun k => 1 + first / 32 + k).map fun c => spaceKey .table slot t.id own page c

/-- The 32 rows of a page as an edition reads them, with the state they are stored with (R122); an absent page reads as zero rows of its class. -/
def State.readPage (s : State) (j : Job) (t : Table) (ed page : Nat) : List RowData :=
  let own := t.owner ed page
  let n := ((s.columns t (32 * page)).map (·.2)).getD 0
  let cls := t.cls ed page
  let tiles := ceilDiv n 32
  let (mo, bf) := t.layout own page
  let es (col : Nat) : List Nat := s.elems (spaceKey .table j.slot t.id own page col)
  let metas := es 0
  let elem := (List.range tiles).map fun k => es (1 + k)
  let st (w : Nat) := (List.range tiles).map fun k => es (1 + tiles + mo * k + w)
  let m := if 1 ≤ mo then st 0 else []
  let v := if 2 ≤ mo then st 1 else []
  let row (l : List (List Nat)) (i : Nat) : List Nat := (List.range n).map fun c => nth (l.getD (c / 32) []) (32 * i + c % 32)
  (List.range 32).map fun i =>
    let g := sum ((List.range 32).map fun b => nth metas (32 * i + b) * 256 ^ b)
    { cls := cls, elems := row elem i, scale := if cls = 2 then bits g 7 0 else 0, a := bits g 31 16, b := bits g 47 32, touch := bits g 63 48,
      rule := bits g 255 128, m := if 1 ≤ mo then row m i else [], v := if 2 ≤ mo then row v i else [], mbf := bf }

/-- The tiles that store the 32 rows of a page of an edition's own copy, in a class, with the state a group's row asks for (R122, R230). -/
def State.pageImages (s : State) (j : Job) (t : Table) (g : GroupRow) (own page cls : Nat) (rows : List RowData) : List (TileKey × List Byte) :=
  let n := ((s.columns t (32 * page)).map (·.2)).getD 0
  let tiles := ceilDiv n 32
  let mo := g.tableMoments
  let mt := g.momentType
  let rows := rows.map fun r => r.under g
  let rm := min 31 (t.rows - 1 - 32 * page)
  let cm (k : Nat) := min 31 (n - 1 - 32 * k)
  let tile (col : Nat) (cm : Nat) (ty : ElemType) (es : List Nat) : TileKey × List Byte :=
    (spaceKey .table j.slot t.id own page col, pageTile t.id page col rm cm ty es)
  let metas := (rows.map fun r => (toLE 32 r.meta).map (·.toNat)).flatten
  tile 0 31 .u8 metas
    :: (List.range tiles).map (fun k => tile (1 + k) (cm k) (classType cls) (columnTile (rows.map (·.elems)) k))
    ++ (if 1 ≤ mo then (List.range tiles).map (fun k => tile (1 + tiles + mo * k) (cm k) mt (columnTile (rows.map (·.m)) k)) else [])
    ++ (if 2 ≤ mo then (List.range tiles).map (fun k => tile (2 + tiles + mo * k) (cm k) mt (columnTile (rows.map (·.v)) k)) else [])

/-- Tiles of a page's copy. -/
def inPage (slot table own page : Nat) (k : TileKey) : Bool :=
  k.space == .table && k.slot == slot && k.id == table && k.edition == own && k.row == page

/-- Store the 32 rows of a page of an edition's own copy, in a class, from a die or a command (R122, R260). State tiles of a layout it no longer has are freed. -/
def State.writePage (s : State) (j : Job) (t : Table) (g : GroupRow) (own page cls : Nat) (rows : List RowData) (die : Option Nat) : State :=
  let new := s.pageImages j t g own page cls rows
  let s := s.freeTiles fun k => inPage j.slot t.id own page k && !new.any fun p => p.1 == k
  (s.putAll new die).updBody j.slot fun b => b.updTable t.id fun t =>
    { t with classes := aSet t.classes (own, page) cls, layouts := aSet t.layouts (own, page) (g.tableMoments, g.momentType == .bf16) }

/-- Remove a page's tiles. -/
def State.dropPage (s : State) (slot table own page : Nat) : State := s.freeTiles (inPage slot table own page)

/-- A page becomes annex-held: nothing of it is stored, and its tiles keep their last touch (R139, R261, R267). -/
def State.annexPage (s : State) (slot table own page : Nat) : State :=
  s.updTiles fun l => l.map fun t => if inPage slot table own page t.key then { t.key.empty .annex with lastStep := t.lastStep } else t

/-! ### Rows -/

/-- Whether a slip is a gather in flight that this module serves from a row of a table. -/
def Slip.serves (p : Slip) (table row : Nat) : Bool :=
  !p.scatter && !p.remote && p.space == 0 && p.id == table && p.row == row && (p.state == .issued || p.state == .partly)

/-- The shelf's copy of a row, for the edition it was loaded from (R130, R137). -/
def JobBody.shelved? (b : JobBody) (table ed row : Nat) : Option ShelfRow := b.shelf.find? fun x => x.table == table && x.edition == ed && x.row == row && !x.leaving

/-- A held copy of an annex row (R100). -/
def JobBody.held? (b : JobBody) (table ed row : Nat) : Option HeldRow := b.held.find? fun x => x.table == table && x.edition == ed && x.row == row

/-- Where a row stands on this module (Table 05-3): its source code and, unless it waits on the annex, its data. -/
def State.rowAt (s : State) (j : Job) (t : Table) (ed row : Nat) : Nat × Option RowData :=
  let own := t.owner ed (row / 32)
  match j.body.shelved? t.id own row with
  | some x => (1, some x.data)
  | none =>
    if t.annex.contains (own, row / 32) then (5, (j.body.held? t.id own row).map (·.data))
    else
      let far := s.tiers.tiles.any fun x => inPage j.slot t.id own (row / 32) x.key && x.tier == .far
      (if far then 3 else 2, some ((s.readPage j t ed (row / 32)).getD (row % 32) (RowData.zero 0 0 0)))

/-- Values of a row's elements. -/
def RowData.values (r : RowData) : List Val := rowValues r.cls ⟨r.elems, r.scale, r.a, r.b, false⟩

/-- Replace a row's elements, in its class. -/
def RowData.withImage (r : RowData) (cls : Nat) (i : RowImage) : RowData := { r with cls := cls, elems := i.elems, scale := i.scale, a := i.a, b := i.b }

/-- A row written again in a class, the columns from `real` on being padding (R124, R125). -/
def RowData.recode (r : RowData) (cls : Nat) (rnd : Nat → Rnd) (real : Nat) : RowData :=
  r.withImage cls (recodeRow r.cls cls rnd real ⟨r.elems, r.scale, r.a, r.b, false⟩)

/-- The columns of a row that this position holds and that lie within the table's width (R117, R120). -/
def State.realColumns (s : State) (t : Table) (row : Nat) : Nat :=
  match s.columns t row with
  | some (first, n) => min n (t.width - first)
  | none => 0

/-- Write one row of an edition in place: to the shelf copy, to the held copy of an annex row, or to its page, from a die (R130, R260). A held row that an
update writes is to be returned (R100); a rise of its `TOUCH` alone leaves it as it was in that. -/
def State.writeRow (s : State) (slot : Nat) (g : GroupRow) (die : Option Nat) (tid ed row : Nat) (update : Bool) (f : RowData → RowData) : State :=
  match s.job? slot with
  | none => s
  | some j =>
    match j.table? tid with
    | none => s
    | some t =>
      let page := row / 32
      let own := t.owner ed page
      if (j.body.shelved? tid own row).isSome then
        s.updBody slot fun b => { b with shelf := b.shelf.map fun x => if x.table = tid ∧ x.edition = own ∧ x.row = row ∧ x.leaving = false then { x with data := f x.data, dirty := true } else x }
      else if t.annex.contains (own, page) then
        s.updBody slot fun b => { b with held := b.held.map fun x => if x.table = tid ∧ x.edition = own ∧ x.row = row then { x with data := f x.data, changed := x.changed || update, bound := if update then ed else x.bound } else x }
      else
        let rows := s.readPage j t ed page
        s.writePage j t g own page (t.cls ed page) (rows.set (row % 32) (f (rows.getD (row % 32) (RowData.zero 0 0 0)))) die

/-- A tile of a Deposit stands on this module, placed by R260 as one a command writes (R364). -/
def State.standTile (s : State) (slot : Nat) (t : StoredTile) : State :=
  let k := { t.key with slot := slot }
  let s := if t.image = [] then s.updTiles fun l => l.filter (fun u => u.key != k) ++ [{ t with key := k }] else s.putTile k t.image none t.pinned
  s.updTile k fun u => { u with lastStep := t.lastStep, charge := slot }

/-- The dirty shelf rows of a Deposit are written to their homes (R130). -/
def State.standRows (s : State) (slot : Nat) (rows : List ShelfRow) : State :=
  (rows.filter fun x => x.dirty && !x.leaving).foldl (fun s x =>
    match s.job? slot with
    | some j => s.writeRow slot (j.group (((j.table? x.table).map (·.group)).getD 0)) none x.table x.edition x.row false fun _ => x.data
    | none => s) s

/-- Word of a table row's keyed rounding (R125, R198). -/
def rowRnd (j : Job) (step table row first : Nat) (c : Nat) : Rnd :=
  .keyed (({ job := j.key, step := step, tensor := 0xFFFFF000 + table, row := row } : RoundKey).word (first + c))

/-! ### Editions (R134, R135) -/

/-- Free an edition no longer current once no step is bound to it (R132, R135). -/
def State.retireEditions (s : State) (slot : Nat) : State :=
  match s.job? slot with
  | none => s
  | some j =>
    j.body.tables.foldl (fun s t =>
      match t.previous with
      | none => s
      | some p =>
        if (j.steps.any fun x => x.edition? t.id == some p)
            || j.deferred.any (fun d => d.opcode == 0x11 && bits (leAt d.payload 0 32) 11 0 == t.id && d.edition == p) then s
        else
          -- pages of the previous edition that the current one replaced were private to it
          let gone := (t.replaced.filter fun r => r.1 == t.edition).map (·.2)
          let s := gone.foldl (fun s page => s.dropPage slot t.id (t.owner p page) page) s
          s.updBody slot fun b =>
            { (b.updTable t.id fun t => { t with previous := none, annex := t.annex.filter fun a => !(gone.contains a.2 && a.1 != t.edition) }) with
              shelf := b.shelf.filter fun x => !(x.table == t.id && gone.contains (x.row / 32) && x.edition != t.edition) }) s

/-- Whether rows staged for a page keep it, or make it, device-held: the page is not annex-held in an edition, or every row of it is staged (R267). -/
def Table.stagedHeld (t : Table) (page : Nat) : Bool :=
  !t.annex.contains (t.owner t.edition page, page)
    || ((List.range 32).map fun i => 32 * page + i).all fun r => decide (t.rows ≤ r) || t.staged.any fun x => x.row == r

/-- A publish takes effect (R134). A page staged in part and made annex-held since stays annex-held, its staged rows dropped (R267). -/
def State.publish (s : State) (slot tid : Nat) : State :=
  match s.job? slot with
  | none => s
  | some j =>
    match j.table? tid with
    | none => s
    | some t =>
      let ed := t.edition + 1
      let pages := t.stagedPages.filter fun p => t.stagedHeld p.1
      let t1 : Table := { t with edition := ed, previous := some t.edition, replaced := t.replaced ++ pages.map fun p => (ed, p.1),
                                 stagedPages := [], staged := [], deferred := false }
      let s1 := s.updBody slot fun b => b.updTable tid fun _ => t1
      pages.foldl (fun s pg =>
        let old := (List.range 32).map fun i =>
          let row := 32 * pg.1 + i
          match (s.rowAt j t t.edition row).2 with
          | some d => d
          | none => RowData.zero pg.2 0 0
        let rows := (List.range 32).map fun i =>
          let o := old.getD i (RowData.zero pg.2 0 0)
          match t.staged.find? fun x => x.row == 32 * pg.1 + i with
          | some x =>
            { x.data with touch := o.touch, rule := if x.state then x.data.rule else 0, m := [], v := [] }
          | none => o.recode pg.2 (fun _ => .nearest) (s.realColumns t (32 * pg.1))
        s.writePage j t1 (j.group t.group) ed pg.1 pg.2 rows none) s1

/-- Deferred publishes that can now take effect, at the acceptance of a step (R30, R136). An edition that no step is bound to is freed at once (R132). A
replayed log says at which acceptance they did. -/
def State.runDeferredPublishes (s : State) (slot accept : Nat) : State :=
  match s.job? slot with
  | none => s
  | some j =>
    (j.body.tables.foldl (fun s t =>
      if t.deferred && (if j.filling then j.decisions.any fun r => r.kind == 0x0A && r.accept == accept else t.previous.isNone) then (s.publish slot t.id).logRecord slot 0x0A 0 0 0 accept (toLE 8 accept) else s) s).retireEditions slot

end Sys2Proof.Machine
end

