-- ==== Sys2Proof/Machine/LiveValues.lean ====
section
/-!
DEFINITION. Entries whose values the module forms from its state when they are read: counts of bytes held, channels, records in diagnostics
(R91, R205, R249, R259, R300, R394 and each chapter's entry table).
-/
namespace Sys2Proof.Machine
open Sys2Proof

/-! ### DMA channels as read -/

/-- The priority of a channel before any write (Table 15-1). -/
def chanPriority (c : Nat) : Nat := if c < 8 then 0 else if c < 16 then 5 else if c < 40 then 2 else if c < 56 then 4 else 6

def Trigger.code : Trigger → Nat
  | .immediate => 0 | .timer => 1 | .after => 2

/-- The 64 bytes of a descriptor (Table 15-2). -/
def DmaDesc.bytes (d : DmaDesc) : List Byte :=
  toLE 64 (d.func + d.priority * 2 ^ 11 + d.trigger.code * 2 ^ 14 + d.afterChannel * 2 ^ 16 + d.srcKind * 2 ^ 22 + d.dstKind * 2 ^ 25
    + d.layout * 2 ^ 28 + d.length * 2 ^ 32 + d.src * 2 ^ 64 + d.dst * 2 ^ 128 + d.ticks * 2 ^ 192 + d.owner * 2 ^ 224)

def ChanState.code : ChanState → Nat
  | .idle => 0 | .waiting => 1 | .active => 2 | .halted => 3 | .acting => 4

/-- *channel status* (R300). -/
def State.chanStatus (s : State) (c : Nat) : Nat :=
  let p := match (s.chan c).current with
    | some d => d.1.priority
    | none => (aGetD s.dict (entryKey (0x3301 + c) 5) (.num (chanPriority c))).toNat
  (s.chan c).state.code + 8 * p + 64 * (s.chan c).posted.length

/-- *error record* (Table 15-4). -/
def Channel.errorBytes (x : Channel) : List Byte :=
  toLE 32 (x.failAddr + (x.failBurst % 2 ^ 24) * 2 ^ 64 + x.direction * 2 ^ 88 + x.kind * 2 ^ 89 + (min x.attempts 15) * 2 ^ 92
    + (x.haltCount % 2 ^ 64) * 2 ^ 128)

/-- The job slot a descriptor serves; none where it serves no job. The form of `OWNER_TAG` is not given, so the slot is a free value of the tag. -/
def DmaDesc.serves (d : DmaDesc) : Option Nat := let n := Config.openBits 40 (d.func + 256 * d.owner) % 5; if n < 4 then some n else none

/-- Whether a session may see what a channel's descriptor shows (R394). -/
def State.chanSeen (s : State) (session c : Nat) : Bool :=
  match (s.chan c).current.bind fun d => d.1.serves with
  | some slot => s.jobs.any fun j => j.slot == slot && j.holder == some session
  | none => true

/-- The entries of channel c (Table 15-7). -/
def State.chanLive (s : State) (session c sub : Nat) : Option DVal :=
  match sub with
  | 1 => some (.num (s.chanStatus c))
  | 2 => some (.blk (if s.chanSeen session c then ((s.chan c).current.map fun d => d.1.bytes).getD (zeros 64) else zeros 64))
  | 3 => some (.blk (if s.chanSeen session c then (s.chan c).errorBytes else zeros 32))
  | 5 => some (.num (aGetD s.dict (entryKey (0x3301 + c) 5) (.num (chanPriority c))).toNat)
  | 6 => some (.num ((s.chan c).moved % 2 ^ 64))
  | _ => none

/-! ### Bytes held -/

/-- Bytes of a row on the shelf (R129). -/
def shelfBytes (r : RowData) : Nat := 32 + 32 * ceilDiv (r.elems.length * (classType r.cls).bits) 256

/-- *shelf bytes held* of a job (R129). -/
def Job.shelfHeld (j : Job) : Nat := sum (j.body.shelf.map fun x => shelfBytes x.data)

/-- *pool charge* of a job slot: the pool bytes charged to it (Table 13-3, R106, R228). -/
def State.poolCharge (s : State) (slot : Nat) : Nat :=
  s.tileBytes (fun t => t.charge == slot && ((t.tier == .near && !t.pinned) || (t.tier == .far && t.promoting)))
    + sum ((s.jobs.filter (·.slot == slot)).map fun j => j.ledgerBytes true + j.iterateBytes)

/-- *spares remaining*: spares of the list not yet assigned (R370). -/
def State.sparesCount (s : State) : Nat :=
  let b := (s.entry 0x7130 2).toBytes
  ((leList 2 b.length b).filter fun p => !s.fabric.assigned.contains p).length

/-! ### Records in diagnostics -/

/-- Whether a session holds the job in a slot (R394). -/
def State.holdsSlot (s : State) (session slot : Nat) : Bool := s.jobs.any fun j => j.slot == slot && j.holder == some session

def SlipState.code : SlipState → Nat
  | .free => 0 | .issued => 1 | .partly => 2 | .done => 3 | .fenced => 4 | .zeroed => 5

/-- Sends of the `ROW_CALL` that asks for a slip's row (Table 05-2). -/
def Job.rowSends (j : Job) (p : Slip) : Nat :=
  if p.scatter || p.remote || p.source != 5 then 0
  else ((j.body.calls.filter fun c => c.table == p.id && c.rows.any fun r => r.row == p.row).map (·.sends)).foldl max 0

/-- A slip record (R91, Table 05-2). -/
def Slip.record (p : Slip) (sends : Nat) : List Byte :=
  toLE 32 (p.state.code + (if p.scatter then 2 ^ 3 else 0) + (p.source % 8) * 2 ^ 4 + (p.granules % 128) * 2 ^ 8 + (p.landed % 128) * 2 ^ 16
    + (sends % 16) * 2 ^ 24 + (p.granule % 2 ^ 17) * 2 ^ 32 + (if p.remote then 2 ^ 63 + (p.peer % 2 ^ 16) * 2 ^ 64 else 0)
    + (p.work.mb % 2 ^ 16) * 2 ^ 80 + (p.work.piece % 2 ^ 16) * 2 ^ 96 + (p.seg % 256) * 2 ^ 112
    + (sum ((List.range 4).map fun i => nth p.regs i % 4 * 4 ^ i)) * 2 ^ 120 + (p.row % 2 ^ 40) * 2 ^ 128 + (p.id % 2 ^ 32) * 2 ^ 168
    + (p.seq % 2 ^ 32) * 2 ^ 200 + (p.work.step % 4) * 2 ^ 232)

/-- *slip snapshot* of a tile: 1,024 records, zero for a job the session does not hold (R91, R394). -/
def State.slipSnapshot (s : State) (session tile : Nat) : List Byte :=
  let l := (s.unit tile).slips
  ((List.range 1024).map fun i =>
    match aGet l i with
    | some p => if s.holdsSlot session p.work.slot then p.record (((s.job? p.work.slot).map fun j => j.rowSends p).getD 0) else zeros 32
    | none => zeros 32).flatten

def Scope.code : Scope → Nat
  | .job => 0 | .step => 1 | .workItem => 2

def Space.code : Space → Nat
  | .tensor => 0 | .table => 1 | .catalogue => 2 | .feature => 3

def Tier.code : Tier → Nat
  | .absent => 1 | .near => 2 | .far => 3 | .annex => 4

/-- The table and own edition a `TABLE` key names (Table 13-2): `EDITION` 0 the current edition, 1 the previous live one. -/
def Job.keyEdition (j : Job) (k : Nat) : Option (Table × Nat) :=
  (j.table? (bits k 31 0)).bind fun t => if bit k 34 then t.previous.map fun e => (t, e) else some (t, t.edition)

/-- Whether a stored tile is the one a key names (Table 13-2). A tile of the job's scope has step, micro-batch and piece zero, one of a step's micro-batch and
piece (R258). -/
def TileKey.matchesKey (x : TileKey) (k maker : Nat) : Bool :=
  x.slot == bits k 37 36 && x.space.code == bits k 33 32 && x.id == bits k 31 0 && x.scope.code == bits k 39 38
    && x.step % 4 == bits k 41 40 && x.mb == bits k 57 42 && x.piece == bits k 73 58
    && x.col == bits k 93 74 && x.row == bits k 129 94 && (x.space != .table || x.edition == maker)

/-- The steps of a job that hold ledger elements of a tile of a tensor or a table's page, with the bytes of them and whether they lie near (R106). -/
def Job.ledgerAt (j : Job) (table : Bool) (id row col : Nat) : List (Nat × Nat × Bool) :=
  (j.steps.map fun x => (x.ledgers.filter fun l => l.space == (if table then 0 else 2) && l.id == id).map fun l =>
    (l.rows.filter fun r => r.row / 32 == row).map fun r =>
      (x.num, 16 * (r.elems.filter fun e => (if table then 1 + e.1 / 32 else e.1 / 32) == col).length, r.near)).flatten.flatten.filter fun e => 0 < e.2.1

/-- The ledger elements of the tile a key names. -/
def Job.ledgerTile (j : Job) (k : Nat) : List (Nat × Nat × Bool) :=
  match bits k 33 32 with
  | 0 => j.ledgerAt false (bits k 31 0) (bits k 129 94) (bits k 93 74)
  | 1 => j.ledgerAt true (bits k 31 0) (bits k 129 94) (bits k 93 74)
  | _ => []

/-- Whether a stored tile holds ledger elements (Table 13-3). -/
def State.holdsLedger (s : State) (t : TileKey) : Bool :=
  match s.job? t.slot with
  | some j => (t.space == .tensor || t.space == .table) && j.ledgerAt (t.space == .table) t.id t.row t.col != []
  | none => false

/-- Whether a key of the job's scope names a tile that exists whether or not anything of it is stored (R258): of a table's page held here, of a feature
tensor, of a catalogue's loaded section, of a parameter's working copy. -/
def State.tileExists (s : State) (j : Job) (k : Nat) (te : Option (Table × Nat)) : Bool :=
  let id := bits k 31 0
  let row := bits k 129 94
  let col := bits k 93 74
  bits k 73 38 == 0 && match bits k 33 32 with
    | 0 => (match j.param? id with
      | some p => decide (row < ceilDiv (pRecRows p.rec') 32) && decide (col < ceilDiv (pRecCols p.rec') 32)
      | none => false)
    | 1 => (match te with
      | some (t, e) => (match s.columns t (32 * row) with
        | some (_, n) =>
          let mo := match aGet t.layouts (t.owner e row, row) with | some l => l.1 | none => (j.group t.group).tableMoments
          decide (row < ceilDiv t.rows 32) && decide (col < 1 + (1 + mo) * ceilDiv n 32)
        | none => false)
      | none => false)
    | 2 => (match j.body.graphs.find? fun g => g.id == id with
      | some g => g.sections.contains col && decide (row < ceilDiv (if col = 0 then 2 * (g.nodes + 1) else g.edges) 1024)
      | none => false)
    | _ => (match j.body.features.find? fun f => f.id == id with
      | some f =>
        decide (row < ceilDiv (((j.body.graphs.find? fun g => g.id == f.graph).map (·.nodes)).getD 0) 32) && decide (col < ceilDiv f.width 32)
      | none => false)

/-- *directory probe* (R259, Table 13-3). A ledger tile with no stored image stands where its ledger rows lie; its address and format are free values. -/
def State.probe (s : State) (session k : Nat) : List Byte :=
  match (s.jobs.find? fun j => j.slot == bits k 37 36 && j.holder == some session) with
  | none => zeros 32
  | some j =>
    let page := bits k 129 94
    let te := if bits k 33 32 = 1 then j.keyEdition k else none
    let maker := match te with | some (t, e) => t.owner e page | none => 0
    let shared := match te with
      | some (t, _) => (match t.previous with | some p => t.owner t.edition page == t.owner p page | none => false)
      | none => false
    let ledger := j.ledgerTile k
    let common := (if shared then 2 ^ 4 else 0) + (if ledger = [] then 0 else 2 ^ 8)
    let tile := s.tiers.tiles.find? fun t => t.key.matchesKey k maker
    let last := ((tile.map (·.lastStep)).getD 0 % 2 ^ 64) * 2 ^ 192
    let charge := ((tile.map (·.charge)).getD j.slot % 4) * 2 ^ 136
    let annexed := match te with | some (t, _) => t.annex.contains (maker, page) | none => false
    match tile with
    | some t =>
      if t.tier = .near ∨ t.tier = .far then
        toLE 32 (bits (leNat (t.image.take 32)) 3 0 + common + (if t.pinned then 2 ^ 5 else 0) + (if t.evicting then 2 ^ 6 else 0)
          + (if t.promoting then 2 ^ 7 else 0) + t.tier.code * 2 ^ 128 + (if t.tier = .near then (2 * t.pair) * 2 ^ 131 else 0) + charge
          + (t.image.length / 32 % 2 ^ 10) * 2 ^ 138 + (t.devGranule % 2 ^ 40) * 2 ^ 152 + last)
      else toLE 32 ((if annexed then 0 else 4) + common + (if annexed then 4 else 1) * 2 ^ 128 + charge + last)
    | none =>
      if annexed && s.tileExists j k te then toLE 32 (common + 4 * 2 ^ 128 + charge)
      else if s.tileExists j k te then toLE 32 (4 + common + 2 ^ 128 + charge)
      else match ledger with
        | [] => zeros 32
        | e :: _ =>
          toLE 32 (Config.openBits 41 k % 16 + common + (if e.2.2 then Tier.near.code else Tier.far.code) * 2 ^ 128
            + (if e.2.2 then Config.openBits 41 (k + 2 ^ 256) % 8 else 0) * 2 ^ 131 + charge + (sum (ledger.map (·.2.1)) / 32 % 2 ^ 10) * 2 ^ 138
            + (Config.openBits 41 (k + 2 ^ 257) % deviceGranules) * 2 ^ 152 + ((ledger.map (·.1)).foldl max 0 % 2 ^ 64) * 2 ^ 192)

/-- The suggestions in the entry layout of `SHELF_SET` (R131, Table 06-11). -/
def Job.suggested (j : Job) : List Byte := (j.body.suggestions.map fun p => toLE 8 (p.2 % 2 ^ 40 + p.1 % 2 ^ 12 * 2 ^ 40)).flatten

/-- Curves a job has written (Table 11-6). -/
def Job.curvesWritten (j : Job) : Nat := (j.body.dict.filter fun p => within 0x5501 0x5510 (p.1 / 256) && p.2.toBytes != []).length

/-- Entries of the job whose queue the access names; records of its data only for the session that holds it (R205, R236, R394). -/
def Job.liveEntry (j : Job) (session index sub : Nat) : Option DVal :=
  let own (b none' : List Byte) : DVal := .blk (if j.holder = some session then b else none')
  match index, sub with
  | 0x4200, 1 => some (own (j.entry 0x4200 1).toBytes (zeros 64))
  | 0x5250, 2 => some (own (aGetD j.body.health (j.num 0x5250 1) (zeros 64)) (zeros 64))
  | 0x5400, 1 => some (.num (Config.openBits 42 j.key % 0x1200000000 * 32))
  | 0x5500, 1 => some (.num j.curvesWritten)
  | 0x6100, 2 => some (.num j.shelfHeld)
  | 0x6110, 3 => some (own j.suggested (zeros j.suggested.length))
  | _, _ => none

/-- The values of this file. -/
def State.liveMore (s : State) (session : Nat) (job : Option Job) (index sub : Nat) : Option DVal :=
  if within 0x3301 0x3340 index then s.chanLive session (index - 0x3301) sub
  else
    match index, sub with
    | 0x2300, 2 => some (.blk (s.fabric.ports.map fun p => BitVec.ofNat 8 p.width))
    | 0x2320, 1 => some (.num (s.fabric.assocs.filter (·.live)).length)
    | 0x3000, 4 => some (.num (s.poolUsed + s.pinnedUsed + sum (s.jobs.map Job.shelfHeld)))
    | 0x3000, 5 => some (.num s.farUsed)
    | 0x3100, 2 => some (.num s.pinnedUsed)
    | 0x3110, 1 => some (.num s.poolCapacity)
    | 0x3110, 4 => some (.num s.poolUsed)
    | 0x3120, n => if within 1 4 n then some (.num (s.poolCharge (n - 1))) else none
    | 0x4100, n => if within 2 5 n then some (.num (s.spares.getD (n - 2) []).length) else none
    | 0x7010, 2 => some (.blk (s.rel.resources.map fun n => BitVec.ofNat 8 n))
    | 0x7100, 4 => some (.num (sum (s.jobs.map Job.logBytes)))
    | 0x7100, 5 => some (.num (sum (s.jobs.map Job.retainedBytes)))
    | 0x7130, 3 => some (.num s.sparesCount)
    | 0xF300, 2 => some (.blk (s.slipSnapshot session (s.num 0xF300 1)))
    | 0xF310, 2 => some (.blk (s.probe session (leNat (s.entry 0xF310 1).toBytes)))
    | _, _ => job.bind fun j => j.liveEntry session index sub

end Sys2Proof.Machine
end

