-- ==== Sys2Proof/Machine/Dictionary.lean ====
section
/-!
DEFINITION. The object dictionary's services: reads, writes, block reads and block writes, in band and over GDP (22_dictionary, R289, R415 to R417).
-/
namespace Sys2Proof.Machine
open Sys2Proof

/-- Who accesses an entry: a session, over which path, on a queue of which job. -/
structure Acc where
  session : Nat
  gdp : Bool
  job : Option Nat
  deriving DecidableEq, Repr

/-- Operator rights: the session's root key has the digest in 0x8020:01 (R390, R403). -/
def State.operatorRights (s : State) (id : Nat) : Bool :=
  match s.live? id with
  | some x => s.sec.claimed && x.root == some (s.entry 0x8020 1).toBytes
  | none => false

/-- The job an access reaches: the queue's, and never over GDP (R428, R415). -/
def State.accJob (s : State) (a : Acc) : Option Job := if a.gdp then none else a.job.bind s.job?

/-- Whether a session holds the job of this key (R394). -/
def State.holdsKey (s : State) (id key : Nat) : Bool := s.jobs.any fun j => j.key == key && j.holder == some id

/-- *MAC address*: six bytes of the identity digest, locally administered and unicast (R408). -/
def State.mac (s : State) : List Byte :=
  match s.sec.identityDigest.take 6 with
  | b :: rest => ((b ||| 2) &&& ~~~(1 : Byte)) :: rest
  | [] => []

/-- Whether a die is awake (R441). -/
def State.dieAwake (s : State) (d : Nat) : Bool := s.power.dies.getD d .sleep == .awake

/-- Whether an instance is in flight on a tile of a die (R441). -/
def State.dieBusy (s : State) (d : Nat) : Bool :=
  ((s.tileUnits.drop (64 * d)).take 64).any fun u => u.works.any fun w => !w.flying.isEmpty

/-- Die state code (Table 23-3); a die that is waking still reads `SLEEP`. -/
def State.dieCode (s : State) (d : Nat) : Nat := if s.dieAwake d then (if s.dieBusy d then 2 else 1) else 0

def Standby.code : Standby → Nat
  | .empty => 0 | .loading => 1 | .verified => 2 | .armed => 3 | .rejected => 4

/-- An event record as a session reads it from the event log (R419). -/
def State.logBytes (s : State) (a : Acc) : List Byte :=
  (s.log.records.map fun r =>
    match r.holder with
    | none => r.bytes
    | some k => if !a.gdp && s.holdsKey a.session k then r.bytes else r.veiled.bytes).flatten

/-- Type codes of Table 22-1. -/
def DType.code : DType → Nat
  | .bool => 1 | .u8 => 2 | .u16 => 3 | .u32 => 4 | .u64 => 5 | .i32 => 6 | .i64 => 7 | .f32 => 8 | .string => 9 | .domain => 10 | .record => 11

/-- Access codes of Table 22-6. -/
def Access.code : Access → Nat
  | .const => 0 | .ro => 1 | .rw => 2 | .rwq => 3 | .wo => 4

/-- Values that the module forms from its state when they are read; none where the value is the one held (each chapter's entry table). -/
def State.live (s : State) (a : Acc) (index sub : Nat) : Option DVal :=
  match index, sub with
  | 0x100A, 0 => some (.num s.sec.imageVersion)
  | 0x1018, 4 => some (.blk (toLE 12 Config.serial))
  | 0x1018, 5 => some (.num s.sec.numericsGen)
  | 0x2100, 3 => some (.num s.seg.node)
  | 0x2100, 5 => some (.blk s.mac)
  | 0x2110, 3 => some (.num (s.sessions.filter fun x => x.sub.isSome).length)
  | 0x2200, 1 => some (.num s.port.width)
  | 0x2200, 2 => some (.num s.port.rate)
  | 0x2200, 3 => some (.num (if s.port.rate = 64 then 1 else 0))
  | 0x2200, 4 => some (.num s.port.ide)
  | 0x8000, 1 => some (.blk s.sec.identityDigest)
  | 0x8000, 2 => some (.blk s.sec.aliasDigest)
  | 0x8000, 3 => some (.num s.sec.runningSlot)
  | 0x8000, 4 => some (.num s.sec.securityVersion)
  | 0x8010, 1 => some (.num (s.sessions.filter (·.live)).length)
  | 0x8010, 5 => some (.blk (((s.live? a.session).map (·.tenant)).getD (zeros 64)))
  | 0x8040, 2 => some (.num s.sec.standby.code)
  | 0xA000, 1 => some (.num s.power.vin)
  | 0xA010, 2 => some (.num (s.dieCode 0))
  | 0xA010, 3 => some (.num (s.dieCode 1))
  | 0xA010, 4 => some (.num (s.dieCode 2))
  | 0xA010, 5 => some (.num (s.dieCode 3))
  | 0xA040, 1 => some (.blk (s.power.phases.map fun n => BitVec.ofNat 8 n))
  | 0xA050, 2 => some (.blk ((s.power.temps.map fun t => toLE 4 (unsigned 32 t)).flatten))
  | 0x9020, 2 => some (.num s.flash.daily.length)
  | 0xF000, 1 => some (.num (Config.keeperMs s.stamp))
  | 0xF010, 1 => some (.num (((s.live? a.session).map (·.describe)).getD 0))
  | 0xF100, 1 => some (.blk (s.logBytes a))
  | 0xF100, 2 => some (.num ((s.log.records.getLast?.map (·.seq)).getD 0))
  | 0xF100, 3 => some (.num ((s.log.records.head?.map (·.seq)).getD 0))
  | _, _ => s.liveMore a.session (s.accJob a) index sub

/-- The value an entry reads as (R427). -/
def State.valueOf (s : State) (a : Acc) (r : Entry) (index sub : Nat) : DVal :=
  match s.live a index sub with
  | some v => v
  | none =>
    if r.jobScoped then
      match s.accJob a with
      | some j => j.entry index sub
      | none => r.dflt
    else s.entry index sub

/-- *description* 0xF010:02 (R433, Table 22-6). -/
def State.description (s : State) (a : Acc) : List Byte :=
  let k := ((s.live? a.session).map (·.describe)).getD 0
  let index := bits k 15 0
  let sub := bits k 23 16
  match findEntry index sub with
  | none => zeros 16
  | some r =>
    let size := if r.typ = .domain then
        if r.jobScoped ∧ (s.accJob a).isNone then r.width else (s.valueOf a r index sub).toBytes.length
      else r.width
    toLE 16 (r.typ.code + r.access.code * 2 ^ 8 + (if r.retained then 2 ^ 11 else 0) + (if r.jobScoped then 2 ^ 12 else 0)
      + (if r.timing then 2 ^ 13 else 0) + 2 ^ 14 + size * 2 ^ 32)

/-- Whether an access may read an entry: it exists, it is not write-only, and a job-scoped entry is named from its job's queue (R428, R431). -/
def State.readable (s : State) (a : Acc) (index sub : Nat) : Option Entry :=
  match findEntry index sub with
  | none => none
  | some r => if r.access = .wo ∨ (r.jobScoped ∧ (s.accJob a).isNone) then none else some r

/-- A `READ`: the value's bytes at its type's width; none where it completes with `RANGE` (R424, R425, R427). -/
def State.readEntry (s : State) (a : Acc) (index sub : Nat) : Option (List Byte) :=
  match s.readable a index sub with
  | none => none
  | some r =>
    if r.typ = .domain then none
    else if index = 0xF010 ∧ sub = 2 then some (s.description a)
    else match s.valueOf a r index sub with
      | .num n => some (toLE r.width n)
      | .blk b => some b

/-- Bytes of *conservation record* 0x9020:01: its header halves hold what no rule lays out bit by bit, its records follow at 0x1000 (R459). -/
def State.conservationSlice (s : State) (off len : Nat) : List Byte :=
  let recs := s.flash.daily.flatten
  (List.range (min len (8388608 - off))).map fun i =>
    let p := off + i
    if 0x1000 ≤ p ∧ p - 0x1000 < recs.length then recs.getD (p - 0x1000) 0 else BitVec.ofNat 8 (Config.openBits 48 (p + (s.flash.consA.gen + s.flash.consB.gen) * 2 ^ 32))

/-- The length of a DOMAIN entry as an access sees it. -/
def State.domainLength (s : State) (a : Acc) (r : Entry) (index sub : Nat) : Nat :=
  if index = 0x9020 ∧ sub = 1 then 8388608 else (s.valueOf a r index sub).toBytes.length

/-- A `READ_BLOCK` of an entry: its total length and the bytes asked for; none where it completes with `RANGE` at `OFFSET` (R289, R425). -/
def State.readBlock (s : State) (a : Acc) (r : Entry) (index sub off len : Nat) : Option (Nat × List Byte) :=
  let total := s.domainLength a r index sub
  if total < off then none
  else if index = 0x9020 ∧ sub = 1 then some (total, s.conservationSlice off len)
  else some (total, slice (s.valueOf a r index sub).toBytes off len)

/-! ### Writes -/

/-- F32 within non-negative bounds, NaN and infinities out of range (R424). -/
def f32Within (lo hi n : Nat) : Bool :=
  if n = 0x80000000 then decide (lo = 0) else within lo hi n && decide (n < 0x7F800000)

/-- Whether a number or block lies in its entry's range. -/
def Rng.ok (g : Rng) (w : Nat) (data : List Byte) : Bool :=
  match g with
  | .any => true
  | .between lo hi => within lo hi (leNat data)
  | .sint lo hi => decide (lo ≤ signed (8 * w) (leNat data)) && decide (signed (8 * w) (leNat data) ≤ hi)
  | .f32 lo hi => f32Within lo hi (leNat data)
  | .len lo hi => within lo hi data.length
  | .position => decide (leNat data ≤ 0x0EFF) || decide (leNat data = 0xFFFF)

/-- Whether a session may write an entry (R289, R428). -/
def State.mayWrite (s : State) (a : Acc) (r : Entry) (index sub : Nat) : Bool :=
  (r.access = .rw || r.access = .rwq || r.access = .wo) &&
    (if r.jobScoped then (s.accJob a).isSome
     else (index = 0xF010 && sub = 1) || (!within 0x4010 0x4013 index && s.operatorRights a.session) || (index = 0x8020 && sub = 3 && !s.sec.claimed))

/-- An entry whose block write another session or path holds open is not written (R417). -/
def State.blockElsewhere (s : State) (a : Acc) (key : Nat) : Bool :=
  s.blocks.any fun b => b.key == key && (b.job == none || b.job == a.job) && !(b.session == a.session && b.overGdp == a.gdp)

/-- The value a byte string spells at an entry's type. -/
def Entry.value (r : Entry) (data : List Byte) : DVal :=
  match r.typ with
  | .domain | .record | .string => .blk data
  | _ => .num (leNat data)

/-- The node id in force (R406): 0 where the chosen id is 0 and the module does not transmit. -/
def State.chosenNode (s : State) : Nat :=
  if s.num 0x2100 1 = 0 then s.power.posAddr.toNat else s.num 0x2100 2

/-- Take the chosen node id (R406). -/
def State.takeNode (s : State) : State :=
  let n := s.chosenNode
  if n = s.seg.node then s
  else
    let t := { s with seg := { s.seg with node := n } }
    let t := t.raise 0x2103 .keeper 0 s.seg.node n 0
    if n = 0 then t.raise 0x2101 .keeper 0 (if s.num 0x2100 1 = 0 then 0 else 1) 0 0 else t

/-- What follows the moment a module-wide value takes effect. -/
def State.afterWrite (s : State) (key : Nat) : State :=
  if key = entryKey 0x2100 1 ∨ key = entryKey 0x2100 2 then s.takeNode else s

/-! ### Answers -/

/-- What a GDP request not yet answered named. -/
def Session.ask (x : Session) (reqId : Nat) : GdpAsk := aGetD x.asked reqId ⟨0, 0, 0, 0⟩

/-- Bytes of a slot of flash. -/
def Flash.slot (f : Flash) (n : Nat) : List Byte := if n = 0 then f.slotA else f.slotB

/-- The entry's total bytes, as a response to a block service repeats them (Table 21-1): nought for an entry that no GDP session may name. -/
def State.blockTotal (s : State) (id : Nat) (a : GdpAsk) : Nat :=
  if a.service = 3 ∨ a.service = 4 then
    match findEntry a.index a.subindex with
    | none => 0
    | some r =>
      if r.typ ≠ .domain ∨ r.jobScoped then 0
      else if a.index = 0x8040 ∧ a.subindex = 1 then (s.flash.slot (1 - s.sec.runningSlot)).length
      else if a.index = 0x8020 ∧ a.subindex = 3 then ((s.flash.base.map fun b => b.bytes.length).getD 0)
      else s.domainLength ⟨id, true, none⟩ r a.index a.subindex
  else 0

/-- Answer a GDP request: the next `SEQ` of the session, the response kept by `REQ_ID` (R411, R414). Each retransmission that waited receives the kept
response under a `SEQ` of its own (R422). -/
def State.gdpAnswer (s : State) (id reqId : Nat) (st : Status) (data : List Byte) : State :=
  match s.live? id with
  | none => s
  | some x =>
    let total := s.blockTotal id (x.ask reqId)
    let k := x.kept ++ [{ reqId := reqId, ask := x.ask reqId, status := st, data := data, total := total }]
    let out := x.gdpOut + 1 + x.again.count reqId
    { s.updSession id fun y => { y with gdpOut := out, asked := aDel y.asked reqId, again := y.again.filter (· ≠ reqId), kept := k.drop (k.length - 16) } with
      reply := some (.gdp id out reqId (x.ask reqId) st total data) }

/-- Tell an asker the outcome of its request. `data` is the payload of a success; a `RANGE` in band names the field at `off`. -/
def State.tell (s : State) (a : Asker) (st : Status) (off : Nat) (data : List Byte) : State :=
  match a with
  | .command id q seq =>
    match st, s.inFlight? id q seq with
    | .ok, _ => s.finish id q seq .ok data 0
    | .range, some f => s.refuseWith f.cmd .range (fieldOffset off)
    | st, some f => s.refuseWith f.cmd st []
    | _, none => s
  | .gdp id reqId => s.gdpAnswer id reqId st (if st = .ok then data else [])

/-- Set an entry at once: a job's value, a session's *describe key*, or a module-wide value (R427, R433). -/
def State.store (s : State) (a : Acc) (r : Entry) (index sub : Nat) (v : DVal) : State :=
  if index = 0xF010 ∧ sub = 1 then s.updSession a.session fun x => { x with describe := v.toNat }
  else if r.jobScoped then
    match s.accJob a with
    | some j =>
      s.updJob j.slot fun j =>
        let j := j.setEntry index sub v
        if within 0x5401 0x5408 index then { j with body := { j.body with rowWrites := j.body.rowWrites ++ [(entryKey index sub, j.accepted)] } } else j
    | none => s
  else (s.setEntry index sub v).afterWrite (entryKey index sub)

/-- A write has passed its checks: a RETAINED value waits for its delta copy, any other takes effect and is answered (R427, R429). -/
def State.applyWrite (s : State) (a : Acc) (r : Entry) (index sub : Nat) (v : DVal) (asker : Asker) : State :=
  if r.retained then { s with retainedWrites := s.retainedWrites ++ [{ key := entryKey index sub, value := v, asker := asker }] }
  else (s.store a r index sub v).tell asker .ok 0 []

end Sys2Proof.Machine
end

