-- ==== Sys2Proof/Machine/Sessions.lean ====
section
/-!
DEFINITION. SPDM exchanges and sessions (R388 to R394), over Data Object Exchange and over GDP.
-/
namespace Sys2Proof.Machine
open Sys2Proof

/-- Record an SPDM answer. Its body is what SPDM defines: a free value, where the rules fix no bytes. -/
def State.spdmSay (s : State) (t : Transport) (a : SpdmAnswer) (data : List Byte) : State := { s with reply := some (.spdm t a data) }

/-- An answer whose bytes SPDM defines. -/
def State.spdmFree (s : State) (t : Transport) (a : SpdmAnswer) : State :=
  let (n, s) := draw s
  s.spdmSay t a (bytes64 (Config.spdmBody n))

/-- Discard what the ended session's responses and commands hold on a queue (R393, R295). -/
def Queue.unbind (x : Queue) (id : Nat) : Queue :=
  if x.session = id then
    { x with session := 0, job := none, lastSeq := 0, rspSeq := 0, chain := none, dropTag := none, events := [],
             store := x.store.filter fun r => r.session ≠ id }
  else x

/-- An asker of an ended session under the name that no session has. -/
def Asker.rename (id new : Nat) : Asker → Asker
  | .command i q n => .command (if i = id then new else i) q n
  | .gdp i r => .gdp (if i = id then new else i) r

/-- What a job holds for the commands of an ended session. -/
def Job.renameAskers (id new : Nat) (j : Job) : Job :=
  { j with
    state := match j.state with | .closing a who silent => .closing a (who.map (Asker.rename id new)) silent | st => st
    steps := j.steps.map fun x => { x with asker := x.asker.rename id new }
    deferred := j.deferred.map fun d => { d with asker := d.asker.rename id new }
    fragments := j.fragments.map fun f => { f with session := if f.session = id then new else f.session, last := f.last.map fun l => (l.1.rename id new, l.2) } }

/-- A name that no session has and no command in flight: above the session ids (R391). -/
def State.orphanName (s : State) : Nat := s.port.inFlight.foldl (fun m f => max m (f.cmd.session + 1)) 65

/-- The commands of an ended session run to completion and their responses are discarded (R22, R393): they keep apart from those of a session that is given
the same id later. -/
def State.orphanCommands (s : State) (id : Nat) : State :=
  let new := s.orphanName
  { s with
    port := { s.port with inFlight := s.port.inFlight.map fun f => if f.cmd.session = id then { f with cmd := { f.cmd with session := new } } else f }
    jobs := s.jobs.map (Job.renameAskers id new)
    retainedWrites := s.retainedWrites.map fun w => { w with asker := w.asker.rename id new }
    baseStaged := s.baseStaged.map fun b => (b.1, b.2.rename id new) }

/-- A session ends (R393): its queues are unbound, its jobs orphaned, its keys destroyed, its block writes and its subscription dropped. -/
def State.endSession (s : State) (id cause : Nat) : State :=
  match s.session? id with
  | none => s
  | some _ =>
    let chains := s.port.inFlight.filter fun f => f.cmd.session == id && f.stage == Stage.chain
    let s := chains.foldl (fun t f => t.releaseRoom f.cmd.queue f.cmd.opcode) s
    let s : State := { s with port := { s.port with inFlight := s.port.inFlight.filter fun f =>
      !(f.cmd.session == id && (f.stage == Stage.chain || f.stage == Stage.formed)) } }
    let s := s.mapQueues fun _ x => x.unbind id
    let standby : Standby := if s.sec.standby = .loading ∧ (s.blocks.any fun b => b.session == id && b.key == entryKey 0x8040 1) then .empty else s.sec.standby
    let s : State := { s with
      sessions := s.sessions.filter fun x => x.id ≠ id
      jobs := s.jobs.map fun j => if j.holder = some id then { j with holder := none } else j
      blocks := s.blocks.filter fun b => b.session ≠ id
      abandoned := s.abandoned.filter fun p => p.1 ≠ id
      sec := { s.sec with standby := standby } }
    (s.orphanCommands id).raise 0x8005 .security 0 id cause 0

/-- A secured message fails decryption; sixteen within one second end the session (R393, R413). -/
def State.failDecrypt (s : State) (id now : Nat) : State :=
  let s := s.updSession id fun x => { x with failures := (x.failures.filter fun t => decide (now < t + 1000)) ++ [now] }
  match s.session? id with
  | some x => if 16 ≤ x.failures.length then s.endSession id 2 else s
  | none => s

/-- `KEY_EXCHANGE`: the lowest free session id, or `SessionLimitExceeded` (R391). -/
def State.keyExchange (s : State) (t : Transport) : State :=
  match leastBelow 64 fun i => (s.session? (i + 1)).isNone with
  | none => s.spdmSay t .sessionLimitExceeded []
  | some i =>
    let x : Session := { id := i + 1, live := false, role := .tenant, transport := t, tenant := [], root := none, inKey := 0, outKey := 0, spdmKeys := 0,
                         heartbeat := s.num 0x8010 3, failures := [], describe := 0, ackUpTo := 0, gdpIn := 0, gdpOut := 0, asked := [], again := [], kept := [],
                         sub := none }
    { s with sessions := s.sessions ++ [x] }.spdmFree t (.keyExchangeRsp (i + 1))

/-- The role a requester's root key gives it (R390). -/
def State.roleOf (s : State) (root : List Byte) : Option Role :=
  if s.sec.claimed ∧ root = (s.entry 0x8020 1).toBytes then some .operator
  else if s.num 0x8010 2 = 0 then some .tenant
  else if (chunks 64 64 (s.entry 0x8020 2).toBytes).contains root then some .tenant
  else none

/-- Drop a session whose handshake fails. -/
def State.dropSession (s : State) (id : Nat) : State := { s with sessions := s.sessions.filter fun x => x.id ≠ id }

/-- `FINISH`: mutual authentication completes, the role is decided and the packet keys are derived (R390, R392). -/
def State.finishSession (s : State) (t : Transport) (id : Nat) (ok : Bool) : State :=
  match s.session? id with
  | none => s.spdmSay t .invalidRequest []
  | some x =>
    if x.live || x.transport != t then s.spdmSay t .invalidRequest []
    else match x.root.bind s.roleOf with
      | some r =>
        if ok then
          let (a, s) := draw s
          let (b, s) := draw s
          (s.updSession id fun y => { y with live := true, role := r, inKey := Config.freeNat a, outKey := Config.freeNat b }).spdmFree t .finishRsp
        else (s.dropSession id).spdmSay t .invalidRequest []
      | none => (s.dropSession id).spdmSay t .invalidRequest []

/-- The certificate chain of slot 0: the chain in flash, then the alias certificate (R382). -/
def State.certChain (s : State) : List Byte := Config.identityChain ++ s.sec.aliasDigest

/-- A measurement as returned: block 3 in the clear, the others as their digest (R389). -/
def State.measurement (s : State) (index : Nat) : List Byte :=
  if index = 3 then toLE 4 s.sec.imageVersion ++ toLE 2 s.sec.securityVersion ++ toLE 2 s.sec.numericsGen
  else s.sec.measures.getD (index - 1) (zeros 64)

/-- A live session of this transport. -/
def State.liveOver (s : State) (t : Transport) (id : Nat) : Bool := s.sessions.any fun x => x.id == id && x.live && x.transport == t

/-- Whether the responder answers: phase 1 done, and for DOE the link trained (R468). -/
def State.responds (s : State) (t : Transport) : Bool :=
  match t with
  | .doe => s.bring.phase1 == .done && decide (0 < s.port.width)
  | .gdp => s.bring.phase1 == .done && s.bring.segment

/-- One SPDM request (R388). -/
def State.spdm (s : State) (t : Transport) (m : SpdmMsg) : State :=
  match m with
  | .getVersion => s.spdmSay t .version [0x13]
  | .getCapabilities => s.spdmFree t .capabilities
  | .negotiateAlgorithms => s.spdmFree t .algorithms
  | .getDigests => s.spdmSay t .digests (bytes64 (Config.sha512 s.certChain))
  | .getCertificate off len => s.spdmSay t .certificate (slice s.certChain off len)
  | .challenge => s.spdmFree t .challengeAuth
  | .getMeasurements i => s.spdmSay t .measurements (s.measurement i)
  | .keyExchange => s.keyExchange t
  | .finish id ok => s.finishSession t id ok
  | .encapsulated id root leaf =>
    if s.sessions.any fun x => x.id == id && !x.live && x.transport == t then
      (s.updSession id fun x => { x with root := some root, tenant := leaf }).spdmSay t .encapsulatedAck []
    else s.spdmSay t .invalidRequest []
  | .heartbeat id => if s.liveOver t id then s.spdmSay t .heartbeatAck [] else s.spdmSay t .invalidRequest []
  | .keyUpdate id =>
    if s.liveOver t id then (s.updSession id fun x => { x with spdmKeys := x.spdmKeys + 1 }).spdmSay t .keyUpdateAck [] else s.spdmSay t .invalidRequest []
  | .endSession id => if s.liveOver t id then (s.endSession id 0).spdmSay t .endSessionAck [] else s.spdmSay t .invalidRequest []
  | .other => s.spdmSay t .unsupportedRequest []

/-- A request over Data Object Exchange, once the port answers (R468). -/
def State.doe (s : State) (m : SpdmMsg) : State := if s.responds .doe then s.spdm .doe m else s

/-- GET_VERSION (R388). -/
def execGetVersion (s : State) : Host.Outcome State Fault Refusal := .next (s.doe .getVersion)

/-- GET_CAPABILITIES (R388). -/
def execGetCapabilities (s : State) : Host.Outcome State Fault Refusal := .next (s.doe .getCapabilities)

/-- NEGOTIATE_ALGORITHMS (R388). -/
def execNegotiateAlgorithms (s : State) : Host.Outcome State Fault Refusal := .next (s.doe .negotiateAlgorithms)

/-- GET_DIGESTS (R382). -/
def execGetDigests (s : State) : Host.Outcome State Fault Refusal := .next (s.doe .getDigests)

/-- GET_CERTIFICATE (R382). -/
def execGetCertificate (off len : Nat) (s : State) : Host.Outcome State Fault Refusal := .next (s.doe (.getCertificate off len))

/-- CHALLENGE (R388). -/
def execChallenge (s : State) : Host.Outcome State Fault Refusal := .next (s.doe .challenge)

/-- GET_MEASUREMENTS (R389). -/
def execGetMeasurements (index : Nat) (s : State) : Host.Outcome State Fault Refusal := .next (s.doe (.getMeasurements index))

/-- KEY_EXCHANGE (R391). -/
def execKeyExchange (s : State) : Host.Outcome State Fault Refusal := .next (s.doe .keyExchange)

/-- FINISH (R390, R392). -/
def execFinish (id : Nat) (ok : Bool) (s : State) : Host.Outcome State Fault Refusal := .next (s.doe (.finish id ok))

/-- END_SESSION (R393). -/
def execEndSession (id : Nat) (s : State) : Host.Outcome State Fault Refusal := .next (s.doe (.endSession id))

/-- HEARTBEAT (R393). -/
def execHeartbeat (id : Nat) (s : State) : Host.Outcome State Fault Refusal := .next (s.doe (.heartbeat id))

/-- SPDM_KEY_UPDATE (R392): the keys of the secured messages only. -/
def execSpdmKeyUpdate (id : Nat) (s : State) : Host.Outcome State Fault Refusal := .next (s.doe (.keyUpdate id))

/-- ENCAPSULATED_EXCHANGE (R390). -/
def execEncapsulatedExchange (id : Nat) (root leaf : List Byte) (s : State) : Host.Outcome State Fault Refusal :=
  .next (s.doe (.encapsulated id root leaf))

/-- SESSION_HEARTBEAT_EXPIRED (R393): a granted period of 0 disables it. -/
def execSessionHeartbeatExpired (id : Nat) (s : State) : Host.Outcome State Fault Refusal :=
  .next (if s.sessions.any fun x => x.id == id && x.live && x.heartbeat != 0 then s.endSession id 1 else s)

end Sys2Proof.Machine
end

