-- ==== Sys2Proof/Machine/DictChecks.lean ====
section
/-!
DEFINITION. Checks of written values that relate an entry to others or to the module's state, and the checks every write makes.
-/
namespace Sys2Proof.Machine
open Sys2Proof

/-- Consecutive 16-bit numbers of a block. -/
def u16s (b : List Byte) : List Nat := leList 2 b.length b

/-- Relations a module-wide value must meet beside its own range. -/
def State.relationOk (s : State) (index sub n : Nat) (data : List Byte) : Bool :=
  match index, sub with
  | 0x3110, 2 => decide (s.num 0x3110 3 < n)
  | 0x3110, 3 => decide (n < s.num 0x3110 2)
  | 0x7120, 5 => decide (n ≤ s.num 0x7120 6)
  | 0x7120, 6 => decide (s.num 0x7120 5 ≤ n)
  | 0x3100, 1 => decide (n + sum (s.jobs.map Job.shelfMost) ≤ 524288) && decide (s.pinnedUsed ≤ n * mib)
  | 0x7120, 4 => decide (s.farUsed + (2 * n + s.num 0x7100 1) * gib ≤ 1536 * gib - s.tiers.farRetired)
  | 0x7100, 1 => decide (s.farUsed + (2 * s.num 0x7120 4 + n) * gib ≤ 1536 * gib - s.tiers.farRetired)
  | 0x2310, 1 => (u16s data).all fun m => decide (m < 4096)
  | 0x8000, 5 => decide (n ≤ s.sec.securityVersion) && decide (s.num 0x8000 5 ≤ n)
  | 0x8020, 2 => decide (data.length % 64 = 0)
  | 0x9000, 14 => (List.range 4).all fun d => decide (s.num 0x9000 (d + 1) ≤ n)
  | 0xF310, 1 => bits (leNat data) 255 130 == 0 && !bit (leNat data) 35 && decide (bits (leNat data) 39 38 ≤ 2)
  | 0x7130, 2 => decide (data.length % 2 = 0) && (u16s data).all (within 0x0F00 0x0FFF)
  | _, _ => if within 0x3301 0x3340 index && sub == 5 then (if index ≤ 0x3308 then decide (n = 0) else within 1 7 n) else true

/-- Relations of a value in the entry's scope: the job's where it is job-scoped. -/
def State.scopedBads (s : State) (a : Acc) (index sub n : Nat) (data : List Byte) (off : Nat) : List Bad :=
  need (s.relationOk index sub n data) (.field off) ++ (match s.accJob a with | some j => s.jobRelationBads j index sub n data off | none => [])

/-- The checks of a `WRITE` (R289, R424, R425, R427); `base` is the payload offset of the value. -/
def State.writeBads (s : State) (a : Acc) (index sub : Nat) (data : List Byte) (base : Nat) : List Bad :=
  match findEntry index sub with
  | none => [.field 0]
  | some r =>
    need (s.mayWrite a r index sub) (.field 0) ++ need (!s.blockElsewhere a (entryKey index sub)) (.field 0) ++
      (if r.typ = .domain then [.field 0]
       else need (data.length == r.width) .length ++ need (r.rng.ok r.width data) (.field base)
        ++ s.scopedBads a index sub (leNat data) data base)

/-- Entries whose `WRITE` has a row of its own: role map, fabric position, switch command and channel control. -/
def ownWrite (index sub : Nat) : Bool :=
  (within 0x4010 0x4013 index && decide (0 < sub)) || (index == 0x2300 && sub == 1) || (index == 0x8040 && sub == 3) ||
    (within 0x3301 0x3340 index && sub == 4)

/-- The entry whose `WRITE_BLOCK` has a row of its own: the standby image. -/
def ownBlock (index sub : Nat) : Bool := index == 0x8040 && sub == 1

/-! ### Block writes -/

/-- How long a block is in band: its fixed size, the length its content states, or none where the first request carries it whole (R426). -/
def blockLength (index sub : Nat) (data : List Byte) : Option Nat :=
  match index, sub with
  | 0x2310, 1 => some 8192
  | 0x8030, 1 => some 32
  | 0x2110, 2 => some 16
  | 0xF310, 1 => some 32
  | 0x8020, 3 =>
    let h := leNat (data.take 256)
    some (512 + 256 * ceilDiv (bits h 191 160) 256 + bits h 159 128)
  | _, _ => if within 0x5501 0x5510 index then some (16 + 16 * leAt data 0 1) else none

/-- The open block of this access on an entry. -/
def State.openBlock (s : State) (a : Acc) (key : Nat) : Option OpenBlock :=
  s.blocks.find? fun b => b.key == key && b.session == a.session && b.overGdp == a.gdp && b.job == a.job

/-- What a `WRITE_BLOCK` finds (R416, R417, R426). -/
inductive BlockStep where
  /-- out of place: `RANGE` at `OFFSET` -/
  | misplaced
  /-- the first request after an abandonment, not at 0 -/
  | timedOut
  /-- the bytes so far, and whether the block ends here -/
  | took (data : List Byte) (ends : Bool)
  deriving DecidableEq, Repr

/-- Place a `WRITE_BLOCK` against the open block. -/
def State.blockStep (s : State) (a : Acc) (index sub off : Nat) (data : List Byte) (last : Bool) : BlockStep :=
  let key := entryKey index sub
  let go (all : List Byte) : BlockStep :=
    let ends := if a.gdp then last else match blockLength index sub all with
      | none => true
      | some n => decide (n ≤ all.length)
    .took all ends
  match s.openBlock a key with
  | some b => if off = b.next then go (b.data ++ data) else .misplaced
  | none =>
    if off = 0 then go data
    else if s.abandoned.contains (a.session, key) then .timedOut else .misplaced

/-- Forget the open block of an access. -/
def State.closeBlock (s : State) (a : Acc) (key : Nat) : State :=
  { s with blocks := s.blocks.filter fun b => !(b.key == key && b.session == a.session && b.overGdp == a.gdp && b.job == a.job),
           abandoned := s.abandoned.filter fun p => p ≠ (a.session, key) }

/-- End the block that a failed check ends, where one does. -/
def State.endBlock (s : State) (o : Option (Acc × Nat)) : State :=
  match o with
  | some (a, key) => s.closeBlock a key
  | none => s

/-- Keep an open block. -/
def State.keepBlock (s : State) (a : Acc) (key : Nat) (data : List Byte) : State :=
  let t := s.closeBlock a key
  { t with blocks := t.blocks ++ [{ key := key, session := a.session, overGdp := a.gdp, job := a.job, data := data, next := data.length }] }

/-- The checks of a `WRITE_BLOCK` (R425, R426): the last request is range-checked over the whole new value. -/
def State.blockBads (s : State) (a : Acc) (index sub off : Nat) (data : List Byte) (last : Bool) : List Bad :=
  match findEntry index sub with
  | none => [.field 0]
  | some r =>
    need (s.mayWrite a r index sub) (.field 0) ++ need (r.typ == .domain) (.field 0) ++ need (!s.blockElsewhere a (entryKey index sub)) (.field 0) ++
      match s.blockStep a index sub off data last with
      | .misplaced => [.field 8]
      | .timedOut => []
      | .took all ends =>
        if ends then need (r.rng.ok r.width all) (.field 16) ++ s.scopedBads a index sub 0 all 16 else need (decide (all.length ≤ r.width)) (.field 16)

/-- Whether a `WRITE_BLOCK` takes its place in a block that then fails its check: the block ends there with the entry unchanged (R426). -/
def State.blockFails (s : State) (a : Acc) (index sub off : Nat) (data : List Byte) (last : Bool) : Bool :=
  match findEntry index sub, s.blockStep a index sub off data last with
  | some r, .took _ _ =>
    s.mayWrite a r index sub && r.typ == .domain && !s.blockElsewhere a (entryKey index sub) && s.blockBads a index sub off data last != []
  | _, _ => false

/-- Perform a `WRITE_BLOCK` that has passed its checks. -/
def State.blockWrite (s : State) (a : Acc) (index sub off : Nat) (data : List Byte) (last : Bool) (asker : Asker) : State :=
  let key := entryKey index sub
  match findEntry index sub, s.blockStep a index sub off data last with
  | some r, .took all true =>
    let s := s.closeBlock a key
    if index = 0x8020 ∧ sub = 3 then { s with baseStaged := some (all, asker) }
    else s.applyWrite a r index sub (.blk all) asker
  | some _, .took all false => (s.keepBlock a key all).tell asker .ok 0 []
  | some _, .timedOut =>
    ({ s with abandoned := s.abandoned.filter fun p => p ≠ (a.session, key) }).tell asker .timeout 0 []
  | _, _ => s

end Sys2Proof.Machine
end

