-- ==== Sys2Proof/Machine/Services.lean ====
section
/-!
DEFINITION. The dictionary commands in band (R289), GDP frames (R409 to R421), and writes of entries that have rows of their own.
-/
namespace Sys2Proof.Machine
open Sys2Proof

/-! ### In band -/

/-- The head of a `DICT_ACCESS` payload (R289). -/
structure DictHead where
  index : Nat
  sub : Nat
  op : Nat
  off : Nat
  len : Nat
  deriving DecidableEq, Repr

def dictHead (p : List Byte) : DictHead :=
  let h := leNat (p.take 16)
  ⟨bits h 15 0, bits h 23 16, bits h 25 24, bits h 95 64, bits h 111 96⟩

/-- Checks of the head itself: its length and its reserved fields. -/
def dictHeadBads (p : List Byte) : List Bad :=
  let h := leNat (p.take 16)
  need (decide (16 ≤ p.length)) .length ++ need (bits h 63 26 == 0) (.field 3) ++ need (bits h 127 112 == 0) (.field 14)

/-- The access of a command. -/
def InFlight.acc (f : InFlight) : Acc := ⟨f.cmd.session, false, f.job⟩

/-- DICT_READ: `OP` READ (R289). -/
def State.dictRead (s : State) (q : Nat) : State :=
  s.runCommand q 0x40 (fun c => decide ((dictHead c.payload).op = 0))
    (fun s f =>
      let h := dictHead f.cmd.payload
      dictHeadBads f.cmd.payload ++ need (f.cmd.payload.length == 16) .length ++ need ((s.readEntry f.acc h.index h.sub).isSome) (.field 0))
    (fun s f =>
      let h := dictHead f.cmd.payload
      s.done f .ok ((s.readEntry f.acc h.index h.sub).getD []))

/-- DICT_WRITE: `OP` WRITE of an entry that has no row of its own (R289, R427). -/
def State.dictWrite (s : State) (q : Nat) : State :=
  s.runCommand q 0x40 (fun c => let h := dictHead c.payload; decide (h.op = 1) && !ownWrite h.index h.sub)
    (fun s f =>
      let h := dictHead f.cmd.payload
      dictHeadBads f.cmd.payload ++ s.writeBads f.acc h.index h.sub (f.cmd.payload.drop 16) 16)
    (fun s f =>
      let h := dictHead f.cmd.payload
      match findEntry h.index h.sub with
      | some r => s.applyWrite f.acc r h.index h.sub (r.value (f.cmd.payload.drop 16)) f.asker
      | none => s)

/-- DICT_READ_BLOCK: `OP` READ_BLOCK (R289). -/
def State.dictReadBlock (s : State) (q : Nat) : State :=
  s.runCommand q 0x40 (fun c => decide ((dictHead c.payload).op = 2))
    (fun s f =>
      let h := dictHead f.cmd.payload
      dictHeadBads f.cmd.payload ++ need (f.cmd.payload.length == 16) .length ++ need (within 1 16320 h.len) (.field 12) ++
        match s.readable f.acc h.index h.sub with
        | none => [.field 0]
        | some r => need (r.typ == .domain) (.field 0) ++ need ((s.readBlock f.acc r h.index h.sub h.off h.len).isSome) (.field 8))
    (fun s f =>
      let h := dictHead f.cmd.payload
      match s.readable f.acc h.index h.sub with
      | some r => s.done f .ok (((s.readBlock f.acc r h.index h.sub h.off h.len).map (·.2)).getD [])
      | none => s)

/-- The block that a WRITE_BLOCK first on a queue ends by failing its check (R426). -/
def State.failedBlock (s : State) (q : Nat) : Option (Acc × Nat) :=
  match s.arrivedOn q 0x40 with
  | none => none
  | some f =>
    let h := dictHead f.cmd.payload
    if h.op = 3 ∧ ownBlock h.index h.sub = false ∧ s.headerBad f = [] ∧ dictHeadBads f.cmd.payload = [] ∧ 16 < f.cmd.payload.length
        ∧ s.blockFails f.acc h.index h.sub h.off (f.cmd.payload.drop 16) false then some (f.acc, entryKey h.index h.sub)
    else none

/-- DICT_WRITE_BLOCK: `OP` WRITE_BLOCK of an entry that has no row of its own (R289, R426). -/
def State.dictWriteBlock (s : State) (q : Nat) : State :=
  (s.runCommand q 0x40 (fun c => let h := dictHead c.payload; decide (h.op = 3) && !ownBlock h.index h.sub)
    (fun s f =>
      let h := dictHead f.cmd.payload
      dictHeadBads f.cmd.payload ++ need (decide (16 < f.cmd.payload.length)) .length
        ++ s.blockBads f.acc h.index h.sub h.off (f.cmd.payload.drop 16) false)
    (fun s f =>
      let h := dictHead f.cmd.payload
      s.blockWrite f.acc h.index h.sub h.off (f.cmd.payload.drop 16) false f.asker)).endBlock (s.failedBlock q)

/-! ### GDP frames -/

/-- Drop a frame (R413). -/
def State.dropFrame (s : State) : State := s.add 0x2110 5 1

/-- What a frame's answer repeats of it (Table 21-1). -/
def gdpAsk (f : GdpFrame) : GdpAsk := ⟨f.service, f.index, f.subindex, f.offset⟩

/-- Answer a frame with a bare header (R413, R421). -/
def State.bare (s : State) (f : GdpFrame) (st : Status) (total : Nat) (data : List Byte) : State :=
  { s with reply := some (.gdpBare f.reqId (gdpAsk f) st total data) }

/-- Whether phase 1 is held with the limited service of R421. -/
def State.limited (s : State) : Bool :=
  s.bring.phase1 == .heldIdentity || s.bring.phase1 == .heldSlots || s.bring.phase1 == .heldSequence

/-- A service listed for a frame's `TYPE` (Table 21-2). -/
def listedService (typ n : Nat) : Bool := typ == 0 && within 1 5 n

/-- `DATA_LENGTH` by service (Table 21-2); a `WRITE` is checked against its entry's width. -/
def dataLengthOk (f : GdpFrame) : Bool :=
  match f.service with
  | 1 | 3 => f.data.isEmpty
  | 4 => within 1 1024 f.data.length
  | 5 => decide (f.data.length = 16)
  | _ => true

/-- A request comes under way: it is unanswered, and no copy of it waits. -/
def State.beginFrame (s : State) (f : GdpFrame) : State :=
  s.updSession f.session fun y => { y with asked := aSet y.asked f.reqId (gdpAsk f), again := y.again.filter (· ≠ f.reqId) }

/-- Answer a frame under the session's next `SEQ`, keeping nothing of it. -/
def State.answerUnkept (s : State) (f : GdpFrame) (x : Session) (ask : GdpAsk) (st : Status) (total : Nat) (data : List Byte) : State :=
  { s.updSession f.session fun y => { y with gdpOut := y.gdpOut + 1 } with reply := some (.gdp f.session (x.gdpOut + 1) f.reqId ask st total data) }

/-- A frame of `TYPE` 3 that names a service other than `SPDM` (R412, R413): it carries no tag and no `SEQ` of R411, and is answered `BAD_OPCODE`; it is
no request, so nothing is kept of it. One that names `SPDM` is `GDP_SPDM`'s. -/
def State.spdmTyped (s : State) (f : GdpFrame) : State :=
  if f.service = 0 then s
  else if f.session = 0 then s.bare f .badOpcode 0 []
  else match s.live? f.session with
    | none => s.bare f .noSession 0 []
    | some x => if x.transport ≠ .gdp then s.bare f .noSession 0 [] else s.answerUnkept f x (gdpAsk f) .badOpcode 0 []

/-- The answer of the limited service (R421): the event log and its range can be read in the clear, and every other frame gets `NO_SESSION`. -/
def State.limitedAnswer (s : State) (f : GdpFrame) : State :=
  if f.typ = 0 ∧ f.session = 0 ∧ f.service = 3 ∧ f.index = 0xF100 ∧ within 1 3 f.subindex then
    let v := match s.live ⟨0, true, none⟩ f.index f.subindex with
      | some (.blk b) => b
      | some (.num n) => toLE 8 n
      | none => []
    if v.length < f.offset ∨ within 1 1024 f.length = false then s.bare f .range 0 [] else s.bare f .ok v.length (slice v f.offset f.length)
  else s.bare f .noSession 0 []

/-- A request of a session whose tag and `SEQ` have passed, through steps 5 to 7 of R413: one answered before is answered again, one whose first copy is
unanswered waits for that (R414, R422); `run` performs the service of the row. -/
def State.gdpAccept (s : State) (f : GdpFrame) (x : Session) (service : Nat) (run : State → Session → State) : State :=
  match x.kept.find? fun k => k.reqId == f.reqId with
  | some k => s.answerUnkept f x k.ask k.status k.total k.data
  | none =>
    if x.asked.any fun p => p.1 == f.reqId then s.updSession f.session fun y => { y with again := y.again ++ [f.reqId] }
    else if listedService f.typ f.service = false then (s.beginFrame f).gdpAnswer f.session f.reqId .badOpcode []
    else if f.service ≠ service then s
    else if 4 ≤ x.asked.length then s.answerUnkept f x (gdpAsk f) .noSpace (s.blockTotal f.session (gdpAsk f)) []
    else if dataLengthOk f = false then (s.beginFrame f).gdpAnswer f.session f.reqId .badLength []
    else run (s.beginFrame f) x

/-- A request frame of `TYPE` 0 to 2 through steps 2 to 4 of R413. -/
def State.gdpSealed (s : State) (f : GdpFrame) (service : Nat) (run : State → Session → State) : State :=
  match s.live? f.session with
  | none => s.bare f .noSession 0 []
  | some x =>
    if x.transport ≠ .gdp then s.bare f .noSession 0 []
    else if f.tagOk = false then s.dropFrame.failDecrypt f.session f.now
    else if f.seq ≤ x.gdpIn then s.dropFrame
    else (s.updSession f.session fun y => { y with gdpIn := f.seq }).gdpAccept f x service run

/-- A request frame through the checks of R413; `run` performs the service of a request that has passed steps 1 to 7. The segment carries no frame before
phase 2 of bring-up, but for the limited service of R421. -/
def State.gdpRequest (s : State) (f : GdpFrame) (service : Nat) (run : State → Session → State) : State :=
  if s.limited = false ∧ s.bring.segment = false then s
  else if f.version ≠ 1 ∨ 3 < f.typ ∨ f.resOk = false ∨ f.lenOk = false then s.dropFrame
  else if s.limited then s.limitedAnswer f
  else if f.typ = 3 then s.spdmTyped f
  else s.gdpSealed f service run

/-- The access and the asker of a frame. -/
def frameAcc (f : GdpFrame) : Acc := ⟨f.session, true, none⟩
def frameAsker (f : GdpFrame) : Asker := .gdp f.session f.reqId

/-- Answer a frame by its faults, or go on. -/
def State.gdpChecked (s : State) (f : GdpFrame) (bads : List Bad) (go : State → State) : State :=
  match verdict bads with
  | some (st, _) => s.gdpAnswer f.session f.reqId st []
  | none => go s

/-- GDP READ (R415). -/
def State.gdpRead (s : State) (f : GdpFrame) : State :=
  s.gdpRequest f 1 fun s _ =>
    match s.readEntry (frameAcc f) f.index f.subindex with
    | some d => s.gdpAnswer f.session f.reqId .ok d
    | none => s.gdpAnswer f.session f.reqId .range []

/-- GDP WRITE of an entry that has no row of its own (R415). -/
def State.gdpWrite (s : State) (f : GdpFrame) : State :=
  if ownWrite f.index f.subindex ∧ within 0x4010 0x4013 f.index = false then s
  else s.gdpRequest f 2 fun s _ =>
    s.gdpChecked f (s.writeBads (frameAcc f) f.index f.subindex f.data 0) fun s =>
      match findEntry f.index f.subindex with
      | some r => s.applyWrite (frameAcc f) r f.index f.subindex (r.value f.data) (frameAsker f)
      | none => s

/-- GDP READ_BLOCK (R415). -/
def State.gdpReadBlock (s : State) (f : GdpFrame) : State :=
  s.gdpRequest f 3 fun s _ =>
    match s.readable (frameAcc f) f.index f.subindex with
    | none => s.gdpAnswer f.session f.reqId .range []
    | some r =>
      if r.typ ≠ .domain ∨ within 1 1024 f.length = false then s.gdpAnswer f.session f.reqId .range []
      else match s.readBlock (frameAcc f) r f.index f.subindex f.offset f.length with
        | some (_, d) => s.gdpAnswer f.session f.reqId .ok d
        | none => s.gdpAnswer f.session f.reqId .range []

/-- GDP WRITE_BLOCK (R416). -/
def State.gdpWriteBlock (s : State) (f : GdpFrame) : State :=
  if ownBlock f.index f.subindex then s
  else s.gdpRequest f 4 fun s _ =>
    (s.gdpChecked f (s.blockBads (frameAcc f) f.index f.subindex f.offset f.data f.last) fun s =>
      s.blockWrite (frameAcc f) f.index f.subindex f.offset f.data f.last (frameAsker f)).endBlock
        (if s.blockFails (frameAcc f) f.index f.subindex f.offset f.data f.last then some (frameAcc f, entryKey f.index f.subindex) else none)

/-- A write of an entry with a row of its own, by either path: `check` finds its faults beyond those of every write, `effect` performs it. -/
def State.viaWrite (s : State) (v : Via) (mine : Nat → Nat → List Byte → Bool) (check : State → Acc → Nat → Nat → List Byte → Nat → List Bad)
    (effect : State → Acc → Asker → Nat → Nat → List Byte → State) : State :=
  match v with
  | .queue q =>
    s.runCommand q 0x40 (fun c => let h := dictHead c.payload; decide (h.op = 1) && mine h.index h.sub (c.payload.drop 16))
      (fun s f =>
        let h := dictHead f.cmd.payload
        dictHeadBads f.cmd.payload ++ check s f.acc h.index h.sub (f.cmd.payload.drop 16) 16)
      (fun s f =>
        let h := dictHead f.cmd.payload
        effect s f.acc f.asker h.index h.sub (f.cmd.payload.drop 16))
  | .frame f =>
    if mine f.index f.subindex f.data then
      s.gdpRequest f 2 fun s _ =>
        s.gdpChecked f (check s (frameAcc f) f.index f.subindex f.data 0) fun s => effect s (frameAcc f) (frameAsker f) f.index f.subindex f.data
    else s

/-! ### Subscriptions -/

/-- Fields of `SUBSCRIBE` data (Table 21-5). -/
def subscribeBads (d : List Byte) (op : Nat) : List Bad :=
  let n := leNat d
  need (bits n 1 0 == op) (.field 0) ++ need (bits n 15 2 == 0) (.field 0) ++ need (bits n 63 32 == 0) (.field 4)

/-- Whether a frame is one of a `SUBSCRIBE` row: `OP` is the row's own, or the reserved 3, which every row refuses. -/
def subscribes (f : GdpFrame) (op : Nat) : Bool := bits (leNat f.data) 1 0 == op || bits (leNat f.data) 1 0 == 3

/-- SUBSCRIBE with `OP` START (R420). -/
def State.subscribeStart (s : State) (f : GdpFrame) : State :=
  if !subscribes f 0 then s
  else s.gdpRequest f 5 fun s x =>
    s.gdpChecked f (subscribeBads f.data 0) fun s =>
      let filter := bits (leNat f.data) 31 16
      match x.sub with
      | some u => (s.updSession x.id fun y => { y with sub := some { u with filter := filter } }).gdpAnswer f.session f.reqId .ok []
      | none =>
        if 8 ≤ (s.sessions.filter fun y => y.sub.isSome).length then s.gdpAnswer f.session f.reqId .noSpace []
        else (s.updSession x.id fun y => { y with sub := some { filter := filter, gather := [], unacked := [] } }).gdpAnswer f.session f.reqId .ok []

/-- SUBSCRIBE with `OP` STOP (R420). -/
def State.subscribeStop (s : State) (f : GdpFrame) : State :=
  if !subscribes f 1 then s
  else s.gdpRequest f 5 fun s x =>
    s.gdpChecked f (subscribeBads f.data 1) fun s =>
      (s.updSession x.id fun y => { y with sub := none }).gdpAnswer f.session f.reqId .ok []

/-- SUBSCRIBE with `OP` ACK (R420): records at or below `UP_TO` leave the pending set. -/
def State.subscribeAck (s : State) (f : GdpFrame) : State :=
  if !subscribes f 2 then s
  else s.gdpRequest f 5 fun s x =>
    s.gdpChecked f (subscribeBads f.data 2) fun s =>
      let upTo := bits (leNat f.data) 127 64
      (s.updSession x.id fun y => { y with sub := y.sub.map fun u =>
        { u with unacked := (u.unacked.map fun p => (p.1.filter fun r => decide (upTo < r.seq), p.2)).filter fun p => !p.1.isEmpty } }
        ).gdpAnswer f.session f.reqId .ok []

/-- The gathering window of a subscriber ends (R420): one `EVENT` frame of at most 32 records. -/
def State.eventFrame (s : State) (id : Nat) : State :=
  match s.live? id with
  | none => s
  | some x =>
    match x.sub with
    | none => s
    | some u =>
      if u.gather = [] then s
      else
        let now := u.gather.take 32
        { s.updSession id fun y => { y with gdpOut := y.gdpOut + 1, sub := some { u with gather := u.gather.drop 32, unacked := u.unacked ++ [(now, 0)] } } with
          reply := some (.gdpEvents id (x.gdpOut + 1) now) }

/-- A frame is unacknowledged for 1 s (R420): re-sent at most 8 times, then its records leave the pending set and are counted. -/
def State.eventResend (s : State) (id : Nat) : State :=
  match s.live? id with
  | none => s
  | some x =>
    match x.sub with
    | none => s
    | some u =>
      match u.unacked with
      | [] => s
      | (recs, sends) :: rest =>
        if 8 ≤ sends then
          (s.updSession id fun y => { y with sub := some { u with unacked := rest } }).add 0x2110 6 recs.length
        else
          { s.updSession id fun y => { y with gdpOut := y.gdpOut + 1, sub := some { u with unacked := rest ++ [(recs, sends + 1)] } } with
            reply := some (.gdpEvents id (x.gdpOut + 1) recs) }

/-- The block gap timeout of a session's open block ends (R416): the sequence is abandoned. -/
def State.blockGap (s : State) (id key : Nat) : State :=
  if s.blocks.any fun b => b.session == id && b.key == key then
    { s with blocks := s.blocks.filter fun b => !(b.session == id && b.key == key), abandoned := s.abandoned ++ [(id, key)],
             sec := if key = entryKey 0x8040 1 ∧ s.sec.standby = .loading then { s.sec with standby := .empty } else s.sec }
  else s

/-- The SPDM answer just formed goes out in a GDP frame with the request's `SESSION` and `REQ_ID` (R412). -/
def State.frameSpdm (s : State) (session reqId : Nat) : State :=
  match s.reply with
  | some (.spdm .gdp a d) => { s with reply := some (.gdpSpdm session reqId a d) }
  | _ => s

/-- An SPDM frame answered with a bare header (R413, R421). -/
def State.spdmBare (s : State) (reqId : Nat) : State := { s with reply := some (.gdpBare reqId ⟨0, 0, 0, 0⟩ .noSession 0 []) }

/-- Messages that a frame with `SESSION` 0 carries in the clear (R412). -/
def SpdmMsg.clear : SpdmMsg → Bool
  | .getVersion | .getCapabilities | .negotiateAlgorithms | .getDigests | .getCertificate _ _ | .challenge | .getMeasurements _ | .keyExchange | .other => true
  | _ => false

/-- The session that a message names, where it names one. -/
def SpdmMsg.session? : SpdmMsg → Option Nat
  | .finish id _ | .encapsulated id _ _ | .heartbeat id | .keyUpdate id | .endSession id => some id
  | _ => none

/-- Whether a message may stand in a frame that names this `SESSION` (R412): in the clear under 0, else about the session whose secured message it is. -/
def SpdmMsg.inFrame (m : SpdmMsg) (session : Nat) : Bool :=
  if session = 0 then m.clear else match m.session? with | some id => id == session | none => true

/-- The answer to a message in a frame. -/
def State.frameSays (s : State) (session reqId : Nat) (m : SpdmMsg) : State :=
  (if m.inFrame session then s.spdm .gdp m else s.spdmSay .gdp .invalidRequest []).frameSpdm session reqId

/-- One SPDM message in a GDP frame (R412), under the limited service of R421 where phase 1 is held. -/
def State.gdpSpdm (s : State) (session reqId now : Nat) (ok : Bool) (m : SpdmMsg) : State :=
  if s.limited then
    match m with
    | .getVersion | .getCapabilities | .negotiateAlgorithms | .getDigests | .getCertificate _ _ =>
      if session = 0 then (s.spdm .gdp m).frameSpdm session reqId else s.spdmBare reqId
    | _ => s.spdmBare reqId
  else if s.responds .gdp = false then s
  else if session = 0 then s.frameSays session reqId m
  else if s.sessions.any fun x => x.id == session && x.transport == .gdp then
    if ok then s.frameSays session reqId m else s.failDecrypt session now
  else s.spdmBare reqId

/-! ### The bytes of frames (R409, Table 21-1) -/

/-- The header of a frame the module sends. -/
def gdpHeader (typ session seq reqId : Nat) (a : GdpAsk) (status : Status) (len total : Nat) : List Byte :=
  let block := a.service == 3 || a.service == 4
  toLE 32 (1 + typ * 2 ^ 8 + a.service % 2 ^ 8 * 2 ^ 16 + status.code * 2 ^ 24 + session % 2 ^ 16 * 2 ^ 32 + len % 2 ^ 16 * 2 ^ 48 + seq % 2 ^ 64 * 2 ^ 64
    + reqId % 2 ^ 32 * 2 ^ 128 + a.index % 2 ^ 16 * 2 ^ 160 + a.subindex % 2 ^ 8 * 2 ^ 176 + (if block then a.offset % 2 ^ 32 else 0) * 2 ^ 192
    + (if block then total % 2 ^ 32 else 0) * 2 ^ 224)

/-- The 16-byte tag of a sealed frame (R411): a free function of session and sequence number, which never repeat together. -/
def gdpTag (session seq : Nat) : List Byte := toLE 16 (Config.openBits 51 (seq * 2 ^ 16 + session))

/-- The bytes of a frame the module sends: its header, its data, and its tag where it is sealed. The data of an SPDM frame is the message, of which SPDM
defines the header. -/
def Reply.frame : Reply → List Byte
  | .gdp session seq reqId a st total data => gdpHeader 1 session seq reqId a st data.length total ++ data ++ gdpTag session seq
  | .gdpEvents session seq rs =>
    let d := (rs.map EventRec.bytes).flatten
    gdpHeader 2 session seq 0 ⟨6, 0, 0, 0⟩ .ok d.length 0 ++ d ++ gdpTag session seq
  | .gdpBare reqId a st total data => gdpHeader 1 0 0 reqId a st data.length total ++ data
  | .gdpSpdm session reqId _ data => gdpHeader 3 session 0 reqId ⟨0, 0, 0, 0⟩ .ok data.length 0 ++ data
  | _ => []

/-! ### The rows -/

/-- DICT_READ (R289). -/
def execDictRead (q : Nat) (s : State) : Host.Outcome State Fault Refusal := .next (s.dictRead q)
/-- DICT_WRITE (R289). -/
def execDictWrite (q : Nat) (s : State) : Host.Outcome State Fault Refusal := .next (s.dictWrite q)
/-- DICT_READ_BLOCK (R289). -/
def execDictReadBlock (q : Nat) (s : State) : Host.Outcome State Fault Refusal := .next (s.dictReadBlock q)
/-- DICT_WRITE_BLOCK (R426). -/
def execDictWriteBlock (q : Nat) (s : State) : Host.Outcome State Fault Refusal := .next (s.dictWriteBlock q)
/-- GDP_READ (R415). -/
def execGdpRead (f : GdpFrame) (s : State) : Host.Outcome State Fault Refusal := .next (s.gdpRead f)
/-- GDP_WRITE (R415). -/
def execGdpWrite (f : GdpFrame) (s : State) : Host.Outcome State Fault Refusal := .next (s.gdpWrite f)
/-- GDP_READ_BLOCK (R415). -/
def execGdpReadBlock (f : GdpFrame) (s : State) : Host.Outcome State Fault Refusal := .next (s.gdpReadBlock f)
/-- GDP_WRITE_BLOCK (R416). -/
def execGdpWriteBlock (f : GdpFrame) (s : State) : Host.Outcome State Fault Refusal := .next (s.gdpWriteBlock f)
/-- SUBSCRIBE_START (R420). -/
def execSubscribeStart (f : GdpFrame) (s : State) : Host.Outcome State Fault Refusal := .next (s.subscribeStart f)
/-- SUBSCRIBE_STOP (R420). -/
def execSubscribeStop (f : GdpFrame) (s : State) : Host.Outcome State Fault Refusal := .next (s.subscribeStop f)
/-- SUBSCRIBE_ACK (R420). -/
def execSubscribeAck (f : GdpFrame) (s : State) : Host.Outcome State Fault Refusal := .next (s.subscribeAck f)
/-- EVENT_FRAME_SEND (R420). -/
def execEventFrameSend (id : Nat) (s : State) : Host.Outcome State Fault Refusal := .next (s.eventFrame id)
/-- EVENT_FRAME_RESEND (R420). -/
def execEventFrameResend (id : Nat) (s : State) : Host.Outcome State Fault Refusal := .next (s.eventResend id)
/-- BLOCK_GAP_TIMEOUT (R416). -/
def execBlockGapTimeout (id key : Nat) (s : State) : Host.Outcome State Fault Refusal := .next (s.blockGap id key)
/-- GDP_SPDM (R412). -/
def execGdpSpdm (session now : Nat) (ok : Bool) (m : FramedSpdm) (s : State) : Host.Outcome State Fault Refusal :=
  .next (s.gdpSpdm session m.reqId now ok m.msg)

/-- NOP (R278): no effect but its completion. -/
def execNop (q : Nat) (s : State) : Host.Outcome State Fault Refusal :=
  .next (s.runCommand q 0x7F (fun _ => true) (fun _ f => need f.cmd.payload.isEmpty .length) (fun s f => s.done f .ok []))

/-- The events a session's acknowledgement covers leave the counts of its queues (R292). -/
def State.eventAck (s : State) (id upTo : Nat) : State :=
  match s.session? id with
  | none => s
  | some x =>
    if upTo < x.ackUpTo then s
    else (s.updSession id fun y => { y with ackUpTo := upTo }).mapQueues fun _ v =>
      if v.session = id then { v with events := v.events.filter fun n => decide (upTo < n) } else v

/-- EVENT_ACK (R292). -/
def execEventAck (q : Nat) (s : State) : Host.Outcome State Fault Refusal :=
  .next (s.runCommand q 0x41 (fun _ => true) (fun _ f => need (f.cmd.payload.length == 8) .length)
    (fun s f => (s.eventAck f.cmd.session (leNat f.cmd.payload)).done f .ok []))

end Sys2Proof.Machine
end

