-- ==== Sys2Proof/Machine/Dma.lean ====
section
/-!
DEFINITION. The rows of the DMA channels: posting, triggers, halts and the actions on them (15_dma).
-/
namespace Sys2Proof.Machine
open Sys2Proof

/-- The address of a burst's first byte (Table 15-3); far groups rotate across the packages (R255). -/
def burstAddr (kind addr n : Nat) : Nat :=
  match kind with
  | 0 => addr + 256 * n
  | 1 =>
    let g := (bits addr 58 0 / 288) * 18 + bits addr 63 59 + n
    (g % 18) * 2 ^ 59 + (g / 18) * 288
  | 2 => addr + 8 * n
  | 3 => addr + 256 * n
  | 5 => addr + 4 * n * 2 ^ 16
  | _ => addr

/-- The ticks of the i-th `TIMER` descriptor held by a channel have passed (R299). -/
def State.dmaTimer (s : State) (c i : Nat) : State :=
  let x := s.chan c
  let fire (p : DmaDesc × Bool) : DmaDesc × Bool := (p.1, p.2 || p.1.trigger == .timer)
  if x.current.isNone then s
  else if i = 0 then
    if x.state = .halted ∨ x.state = .acting then s else s.setChan c ({ x with current := x.current.map fire }).settle
  else match x.posted[i - 1]? with
    | some p => s.setChan c { x with posted := x.posted.set (i - 1) (fire p) }
    | none => s

/-- An active channel completes its descriptor (R299). -/
def State.dmaComplete (s : State) (c : Nat) : State :=
  let x := s.chan c
  match x.state, x.current with
  | .active, some (d, _) => (s.setChan c { x with moved := x.moved + (d.bursts - x.burst), burst := d.bursts }).chanEnd c
  | _, _ => s

/-- An access of an active channel fails at a burst: it halts and latches its error record (R302). -/
def State.dmaHalt (s : State) (c kind direction burst : Nat) : State :=
  let x := s.chan c
  match x.state, x.current with
  | .active, some (d, _) =>
    if within x.burst (d.bursts - 1) burst ∧ within 1 4 kind ∧ direction ≤ 1 then
      let again := decide (burst = x.failBurst) && decide (0 < x.attempts)
      ((s.setChan c { x with
          state := .halted, moved := x.moved + (burst - x.burst), burst := burst, attempts := if again then x.attempts else 0, kind := kind,
          direction := direction, failBurst := burst, haltCount := Config.openBits 47 s.stamp,
          failAddr := if direction = 0 then burstAddr d.srcKind d.src burst else burstAddr d.dstKind d.dst burst }).add 0x3300 5 1).raise
        0x3301 .dma c kind direction burst
    else s
  | _, _ => s

/-- Mark eight granules of a burst's destination poisoned (R303, R346): in a carrel, or in the stored tile the move owns. -/
def State.skipPoison (s : State) (d : DmaDesc) (burst : Nat) : State :=
  let n := min 8 (d.length - 8 * burst)
  if d.dstKind = 2 then
    let first := 2 ^ 17 * bits d.dst 58 51 + bits d.dst 16 0 + 8 * burst
    { s with carrelPoison := (List.range n).foldl (fun l i => insertOnce (first + i) l) s.carrelPoison }
  else
    { s with tiers := { s.tiers with tiles := s.tiers.tiles.map fun t =>
        if d.func = 3 ∧ t.devGranule % 2 ^ 32 = d.owner then
          { t with poison := (List.range n).foldl (fun l i => insertOnce (8 * burst + i) l) t.poison }
        else t } }

/-- Perform an action on a halted channel: 1 RESUME, 2 SKIP, 3 ABORT; `who` is 0 for an operator and 1 for the keeper (R303). -/
def State.dmaAct (s : State) (c action who : Nat) : State :=
  let x := s.chan c
  match x.current with
  | none => s
  | some (d, _) =>
    let s := match action with
      | 1 => s.setChan c { x with state := .active, attempts := x.attempts + 1 }
      | 2 =>
        let t := (s.skipPoison d x.failBurst).setChan c { x with state := .active, burst := x.failBurst + 1, moved := x.moved + 1, attempts := 0 }
        if d.bursts ≤ x.failBurst + 1 then t.chanEnd c else t
      | _ => (s.chanEnd c).abortOutcome c d
    s.raise 0x3302 .dma c action who 0

/-- Whether an action may be applied to a channel (R303). -/
def State.actAllowed (s : State) (c action : Nat) : Bool :=
  (s.chan c).state == .halted &&
    (action != 2 || match (s.chan c).current with | some (d, _) => decide (d.dstKind < 3) | none => false)

/-- The keeper's choice under `AUTO` (R304). -/
def Channel.autoAction (x : Channel) : Nat :=
  let dst := (x.current.map fun p => p.1.dstKind).getD 3
  if x.attempts < 3 ∧ x.kind ≠ 3 then 1 else if dst ≤ 2 then 2 else 3

/-- Ask for repair of the row an access failed in (R304, R351): no rule says in which bank and row an address lies, so the command names them. -/
def State.wantRepair (s : State) (device bank row : Nat) : State :=
  let l := s.rel.rows
  let known := l.any fun r => r.device == device && r.bank == bank && r.row == row
  let new : List RowHistory :=
    if known then l.map fun r => (if r.device = device ∧ r.bank = bank ∧ r.row = row then { r with bad := true } else r)
    else l ++ [{ device := device, bank := bank, row := row, granules := [], bad := true, repaired := none, repairing := false }]
  { s with rel := { s.rel with rows := new } }

/-- The keeper acts on a halt that nobody has resolved (R304): repair is asked for where the failed address is one of a tier. -/
def State.dmaAuto (s : State) (c bank row : Nat) : State :=
  let x := s.chan c
  if x.state = .halted ∧ (s.num 0x3300 2 = 0 ∨ c < 16) then
    let failed := match x.current with | some (d, _) => if x.direction = 0 then d.srcKind else d.dstKind | none => 5
    let s := if x.kind ≤ 2 ∧ failed ≤ 1 then s.wantRepair (8 * failed + bits x.failAddr 63 59) bank row else s
    s.dmaAct c x.autoAction 1
  else s

/-- Whether a written command value is this row's: a value that names no command is refused by the first row. -/
def ownCommand (code value : Nat) : Bool := value == code || (code == 1 && value != 2 && value != 3)

/-- A write of a channel's control entry that asks for an action (R303). -/
def State.dmaControl (s : State) (v : Via) (action : Nat) : State :=
  s.viaWrite v (fun index sub data => within 0x3301 0x3340 index && sub == 4 && ownCommand action (leNat data))
    (fun s a index sub data base =>
      s.writeBads a index sub data base ++ need (leNat data == action) (.field base) ++ need (s.actAllowed (index - 0x3301) action) (.field base))
    (fun s _ asker index _ _ => (s.dmaAct (index - 0x3301) action 0).tell asker .ok 0 [])

/-- DMA_POST (R299). -/
def execDmaPost (c : Nat) (d : DmaDesc) (s : State) : Host.Outcome State Fault Refusal := .next (s.dmaPost c d)
/-- DMA_TIMER (R299). -/
def execDmaTimer (c i : Nat) (s : State) : Host.Outcome State Fault Refusal := .next (s.dmaTimer c i)
/-- DMA_COMPLETE (R299). -/
def execDmaComplete (c : Nat) (s : State) : Host.Outcome State Fault Refusal := .next (s.dmaComplete c)
/-- DMA_ACCESS_FAULT (R302): kinds 1 to 3. -/
def execDmaAccessFault (c kind direction burst : Nat) (s : State) : Host.Outcome State Fault Refusal :=
  .next (if within 1 3 kind then s.dmaHalt c kind direction burst else s)
/-- BURST_TIMEOUT (R302): kind 4. -/
def execBurstTimeout (c direction burst : Nat) (s : State) : Host.Outcome State Fault Refusal := .next (s.dmaHalt c 4 direction burst)
/-- DMA_AUTO_ACTION (R304). -/
def execDmaAutoAction (c bank row : Nat) (s : State) : Host.Outcome State Fault Refusal := .next (s.dmaAuto c bank row)
/-- RESUME (R303). -/
def execResume (v : Via) (s : State) : Host.Outcome State Fault Refusal := .next (s.dmaControl v 1)
/-- SKIP (R303). -/
def execSkip (v : Via) (s : State) : Host.Outcome State Fault Refusal := .next (s.dmaControl v 2)
/-- ABORT (R303, R305). -/
def execAbort (v : Via) (s : State) : Host.Outcome State Fault Refusal := .next (s.dmaControl v 3)

end Sys2Proof.Machine
end

