-- ==== Sys2Proof/Machine/GranuleCode.lean ====
section
/-!
DEFINITION. The granule code: a Reed–Solomon code over GF(2^8) with 32 data and 4 check symbols, and its decoder (R341 to R345).
-/
namespace Sys2Proof.Machine
open Sys2Proof

/-- One step of multiplication by α = 2 under 0x11D (R341). -/
def gfDouble (a : Nat) : Nat := let b := 2 * a; if b < 256 then b else b ^^^ 0x11D

/-- Product in GF(2^8), by the bits of `b`. -/
def gfMulAux : Nat → Nat → Nat → Nat
  | 0, _, _ => 0
  | n + 1, a, b => (if b % 2 = 1 then a else 0) ^^^ gfMulAux n (gfDouble a) (b / 2)

def gfMul (a b : Nat) : Nat := gfMulAux 8 a b

/-- Powers of α. -/
def gfPow : Nat → Nat
  | 0 => 1
  | n + 1 => gfDouble (gfPow n)

/-- The first power from `x` = α^i on, of the next `n`, that is `a`. -/
def gfLogFrom : Nat → Nat → Nat → Nat → Option Nat
  | 0, _, _, _ => none
  | n + 1, x, i, a => if x = a then some i else gfLogFrom n (gfDouble x) (i + 1) a

/-- The discrete logarithm of a non-zero element, and its inverse. -/
def gfLog (a : Nat) : Option Nat := gfLogFrom 255 1 0 a

def gfInv (a : Nat) : Nat := match gfLog a with | some i => gfPow ((255 - i) % 255) | none => 0

/-- Value of a polynomial at a point, coefficients from the highest (Horner). -/
def gfEval (cs : List Nat) (x : Nat) : Nat := cs.foldl (fun acc c => gfMul acc x ^^^ c) 0

/-- Remainder of the data polynomial times x^4 by g(x): the check symbols from x^3 down (R341). -/
def rsRemainder (data : List Nat) : List Nat :=
  data.foldl (fun r d =>
    match r with
    | [r3, r2, r1, r0] =>
      let f := d ^^^ r3
      [gfMul f 0x0F ^^^ r2, gfMul f 0x36 ^^^ r1, gfMul f 0x78 ^^^ r0, gfMul f 0x40]
    | _ => r) [0, 0, 0, 0]

/-- The check bytes `CK0` to `CK3` of a granule: the coefficients of x^3 down to x^0 (R341). -/
def checkBytes (g : List Byte) : List Byte := (rsRemainder (g.map (·.toNat))).map (BitVec.ofNat 8)

/-- The poison pattern (R345). -/
def poisonPattern : List Byte := [0x50, 0x4F, 0x49, 0x53]

/-- The check bytes of a poisoned granule (R345). -/
def poisonedCheck (g : List Byte) : List Byte := (List.range 4).map fun i => (checkBytes g).getD i 0 ^^^ poisonPattern.getD i 0

/-- A 256-bit granule and its 32 check bits: one codeword of the granule code, the form in which it crosses every tier, link and buffer (R11, R341). -/
def codeword (poisoned : Bool) (g : List Byte) : List Byte := g ++ if poisoned then poisonedCheck g else checkBytes g

/-- A far-tier group of nine bursts: eight granules, then the ninth burst, whose bytes 4k to 4k + 3 are the check bytes of burst k (R11, R255). -/
def farGroup (gs : List (List Byte × Bool)) : List Byte := gs.flatMap (·.1) ++ gs.flatMap fun g => (codeword g.2 g.1).drop 32

/-- The codeword of burst `k` of a far-tier group (R255). -/
def farCodeword (group : List Byte) (k : Nat) : List Byte := (group.drop (32 * k)).take 32 ++ (group.drop (256 + 4 * k)).take 4

/-- The package that holds granule `far` of the far range: eight granules a group, and consecutive groups rotate over the eighteen packages, `L0` first
(R255). A stored tile's granules are consecutive granules of the far range, so they run through consecutive groups. Packages are devices 8 to 25. -/
def farDevice (far : Nat) : Nat := 8 + far / 8 % 18

/-- Syndromes S_0 to S_3 of a 36-byte word (R343). -/
def syndromes (w : List Byte) : List Nat := (List.range 4).map fun j => gfEval (w.map (·.toNat)) (gfPow j)

/-- The syndromes of the poison pattern (R345). -/
def poisonSyndromes : List Nat := syndromes (zeros 32 ++ poisonPattern)

/-- Decoder outcomes (R343, Table 18-1). A correction carries the corrected word and how many symbols it changed. -/
inductive Decoded where
  | clean
  | poisoned
  | corrected (word : List Byte) (symbols : Nat)
  | uncorrectable
  deriving DecidableEq, Repr

/-- A single-symbol error: position as an exponent of x, and value. -/
def oneError (s : List Nat) : Option (Nat × Nat) :=
  match s with
  | [s0, s1, s2, s3] =>
    if s0 = 0 ∨ s1 = 0 then none
    else
      let x := gfMul s1 (gfInv s0)
      match gfLog x with
      | some p => if p < 36 ∧ gfMul s1 x = s2 ∧ gfMul s2 x = s3 then some (p, s0) else none
      | none => none
  | _ => none

/-- A two-symbol error at positions p < q, by its values. -/
def twoErrorAt (s : List Nat) (p q : Nat) : Option (Nat × Nat) :=
  match s with
  | [s0, s1, s2, s3] =>
    let x := gfPow p
    let y := gfPow q
    let e2 := gfMul (s1 ^^^ gfMul s0 x) (gfInv (x ^^^ y))
    let e1 := s0 ^^^ e2
    if e1 ≠ 0 ∧ e2 ≠ 0 ∧ gfMul e1 (gfMul x x) ^^^ gfMul e2 (gfMul y y) = s2
        ∧ gfMul e1 (gfMul x (gfMul x x)) ^^^ gfMul e2 (gfMul y (gfMul y y)) = s3 then some (e1, e2) else none
  | _ => none

/-- The two-symbol error consistent with the syndromes, if any. -/
def twoError (s : List Nat) : Option ((Nat × Nat) × (Nat × Nat)) :=
  (List.range 36).findSome? fun p => (List.range 36).findSome? fun q =>
    if p < q then (twoErrorAt s p q).map fun e => ((p, e.1), (q, e.2)) else none

/-- Add an error value at a position: the coefficient of x^p is byte 35 − p of the word (R341). -/
def addError (w : List Byte) (p v : Nat) : List Byte := w.modify (35 - p) fun b => b ^^^ BitVec.ofNat 8 v

/-- Whether syndromes are consistent with an error in one or two symbols. -/
def nearCodeword (s : List Nat) : Bool := (oneError s).isSome || (twoError s).isSome

/-- Decode a word in correct mode (R343, R344). -/
def decodeGranule (w : List Byte) : Decoded :=
  let s := syndromes w
  if s = [0, 0, 0, 0] then .clean
  else if s = poisonSyndromes then .poisoned
  else match oneError s with
    | some (p, v) => .corrected (addError w p v) 1
    | none =>
      match twoError s with
      | some ((p, v), (q, u)) => .corrected (addError (addError w p v) q u) 2
      | none => if nearCodeword (List.zipWith (· ^^^ ·) s poisonSyndromes) then .poisoned else .uncorrectable

/-- Decode a word in detect mode (R343): false where the hop replays the granule. -/
def detectGranule (w : List Byte) : Bool := syndromes w = [0, 0, 0, 0] || syndromes w = poisonSyndromes

end Sys2Proof.Machine
end

