-- ==== Sys2Proof/Machine/Fabric.lean ====
section
/-!
DEFINITION. Suesh ports, routes, associations, and the sending and receiving of messages (16_suesh_fabric, 17_flow_control).
-/
namespace Sys2Proof.Machine
open Sys2Proof

/-! ### Kinds and heads -/

/-- `KIND` codes (Table 16-4). -/
def FlitKind.code : FlitKind → Nat
  | .null => 0x00 | .hello => 0x01 | .assoc => 0x02 | .e2eAck => 0x03 | .gatherReq => 0x04 | .gatherData => 0x05 | .scatterRaw => 0x06
  | .scatterPartial => 0x07 | .endContrib => 0x08 | .rangeReport => 0x09 | .reduce => 0x0A | .broadcast => 0x0B | .handoff => 0x0C
  | .logMirror => 0x0D | .deposit => 0x0E | .liveness => 0x0F | .keyUpdate => 0x10

/-- Traffic class of a kind (Table 16-4). -/
def FlitKind.cls : FlitKind → Nat
  | .null | .hello | .assoc | .e2eAck | .liveness | .keyUpdate => 0
  | .gatherReq => 2
  | _ => 1

/-- Kinds that land in the landing reserve first (R336). -/
def FlitKind.lands : FlitKind → Bool
  | .scatterRaw | .scatterPartial | .reduce | .broadcast | .handoff | .logMirror | .deposit => true
  | _ => false

/-- Kinds of which a copy is retained for the peer (R362): 0x05 to 0x0C. -/
def FlitKind.retained (k : FlitKind) : Bool := within 5 12 k.code

/-- Granules of a message, and its flits of seven granules (R310). -/
def granulesOf (b : List Byte) : Nat := ceilDiv b.length 32
def flitsOf (b : List Byte) : Nat := max 1 (ceilDiv (granulesOf b) 7)

/-- A message head (R319, Table 16-5). -/
structure MsgHead where
  jobKey : Nat
  step : Nat
  spaceId : Nat
  index : Nat
  mb : Nat
  piece : Nat
  tile : Nat
  slip : Nat
  segFirst : Nat
  segCount : Nat
  deriving DecidableEq, Repr

def MsgHead.bytes (h : MsgHead) : List Byte :=
  toLE 32 ((h.segCount % 16) * 2 ^ 3 + (h.segFirst % 8) * 2 ^ 7 + (h.slip % 2 ^ 10) * 2 ^ 10 + (h.tile % 2 ^ 8) * 2 ^ 20 + (h.piece % 2 ^ 12) * 2 ^ 28
    + (h.mb % 2 ^ 16) * 2 ^ 40 + (h.index % 2 ^ 40) * 2 ^ 56 + (h.spaceId % 2 ^ 32) * 2 ^ 96 + (h.step % 2 ^ 64) * 2 ^ 128 + (h.jobKey % 2 ^ 64) * 2 ^ 192)

def msgHead (b : List Byte) : MsgHead :=
  let n := leNat (b.take 32)
  { jobKey := bits n 255 192, step := bits n 191 128, spaceId := bits n 127 96, index := bits n 95 56, mb := bits n 55 40, piece := bits n 39 28,
    tile := bits n 27 20, slip := bits n 19 10, segFirst := bits n 9 7, segCount := bits n 6 3 }

/-- A recovery head (R377, Table 19-6). -/
structure RecHead where
  jobKey : Nat
  offset : Nat
  depositId : Nat
  step : Nat
  subject : Nat
  last : Bool
  op : Nat
  count : Nat
  deriving DecidableEq, Repr

def RecHead.bytes (h : RecHead) : List Byte :=
  toLE 32 (h.count % 2 ^ 32 + (h.op % 2 ^ 8) * 2 ^ 32 + (if h.last then 2 ^ 40 else 0) + (h.subject % 2 ^ 16) * 2 ^ 48 + (h.step % 2 ^ 32) * 2 ^ 64
    + (h.depositId % 2 ^ 32) * 2 ^ 96 + (h.offset % 2 ^ 64) * 2 ^ 128 + (h.jobKey % 2 ^ 64) * 2 ^ 192)

def recHead (b : List Byte) : RecHead :=
  let n := leNat (b.take 32)
  { jobKey := bits n 255 192, offset := bits n 191 128, depositId := bits n 127 96, step := bits n 95 64, subject := bits n 63 48, last := bit n 40,
    op := bits n 39 32, count := bits n 31 0 }

/-! ### Ports -/

def State.suesh (s : State) (p : Nat) : Suesh := s.fabric.ports.getD p {}

def State.setSuesh (s : State) (p : Nat) (x : Suesh) : State := { s with fabric := { s.fabric with ports := s.fabric.ports.set p x } }

/-- The width a port trains at with these lanes failed (R309). -/
def widthWith (failed : List Nat) : Nat :=
  if failed = [] then 4
  else if (!failed.contains 0 && !failed.contains 1) || (!failed.contains 2 && !failed.contains 3) then 2
  else if (List.range 4).any fun l => !failed.contains l then 1
  else 0

/-- A port as it retrains: both ends reset its credits (R339), and what is held is replayed (R311). -/
def Suesh.linkUp (x : Suesh) (failed : List Nat) : Suesh :=
  { x with width := widthWith failed, failed := failed, credits := [32, 32, 32, 32], shared := 128, fromShared := [0, 0, 0, 0], short := [0, 0, 0, 0],
           owed := [0, 0, 0, 0], strict := false, replays := 0 }

/-- A port as it comes up: its sequence begins anew. -/
def Suesh.fresh (x : Suesh) (failed : List Nat) : Suesh :=
  { x.linkUp failed with txSeq := 0, rxSeq := 4095, retry := [], ackOwed := 0, nakOwed := false }

/-- Mask of failed lanes. -/
def laneMask (l : List Nat) : Nat := sum ((List.range 4).map fun i => if l.contains i then 2 ^ i else 0)

/-- *port widths* 0x2300:02. -/
def State.portWidths (s : State) : List Byte := s.fabric.ports.map fun p => BitVec.ofNat 8 p.width

/-! ### Credits and routes -/

/-- A port's training window needs no more waiting for (R469). -/
def State.updBringWindow (s : State) (p : Nat) : State := { s with bring := { s.bring with windowOver := insertOnce p s.bring.windowOver } }

/-- Credits a class may draw on a port: its reserve and the shared part (R333). -/
def Suesh.creditsFor (x : Suesh) (c : Nat) : Nat := nth x.credits c + x.shared

/-- Take credits for the flits of a message: reserved first, shared otherwise (R333); flits for which there is none yet follow as credits come back. -/
def Suesh.takeCredits (x : Suesh) (c n : Nat) : Suesh :=
  let own := min n (nth x.credits c)
  let sh := min (n - own) x.shared
  { x with credits := x.credits.set c (nth x.credits c - own), shared := x.shared - sh, fromShared := x.fromShared.set c (nth x.fromShared c + sh),
           short := x.short.set c (nth x.short c + (n - own - sh)) }

/-- Credits returned go to the pool they came from (R333), and to flits that wait for one; a hop in strict order has moved on (R334). -/
def Suesh.giveCredits (x : Suesh) (c n : Nat) : Suesh :=
  let sh := min n (nth x.fromShared c)
  let y := { x with shared := x.shared + sh, fromShared := x.fromShared.set c (nth x.fromShared c - sh), credits := x.credits.set c (min 32 (nth x.credits c + (n - sh))),
                    strict := x.strict && n == 0 }
  (List.range 4).foldl (fun y k => ({ y with short := y.short.set k 0 } : Suesh).takeCredits k (nth y.short k)) y

/-- The credits that the next `NULL` flit returns: a class, and 1 to 63 of its credits (R333). -/
def Suesh.creditOut (x : Suesh) : Nat × Nat :=
  match (List.range 4).find? fun c => decide (0 < nth x.owed c) with
  | some c => (c, min 63 (nth x.owed c))
  | none => (0, 0)

/-- The ports that reach a destination (R314). -/
def State.routeMask (s : State) (dst : Nat) : Nat := bits (leAt (s.entry 0x2310 1).toBytes (2 * dst) 2) 11 0

/-- A masked port that is up and holds credit for the class of a message, with room in its retry buffer (R311, R314). The choice changes timing only. -/
def State.route (s : State) (dst cls : Nat) : Option Nat :=
  (List.range 12).find? fun p => (s.routeMask dst).testBit p && decide (0 < (s.suesh p).width) && decide (0 < (s.suesh p).creditsFor cls)
    && decide ((s.suesh p).retry.length < 1024)

/-- Whether any masked port is up. -/
def State.routed (s : State) (dst : Nat) : Bool := (List.range 12).any fun p => (s.routeMask dst).testBit p && decide (0 < (s.suesh p).width)

/-! ### Associations and sending -/

def State.assoc? (s : State) (peer : Nat) : Option Assoc := s.fabric.assocs.find? fun a => a.peer == peer && a.live

def State.updAssoc (s : State) (peer : Nat) (f : Assoc → Assoc) : State :=
  { s with fabric := { s.fabric with assocs := s.fabric.assocs.map fun a => if a.peer = peer then f a else a } }

/-- The position that now answers for another (R371, R375). -/
def State.holderOf (s : State) (pos : Nat) : Nat := aGetD s.fabric.holders pos pos

/-- Unacknowledged flits of a class toward a peer (R317). -/
def Assoc.unacked (a : Assoc) (c : Nat) : Nat := sum ((a.store.filter fun x => x.kind.cls == c).map (·.flits))

/-- Whether the send store has room for a flit of a class: 512 of 8,192 are the class's own, and 6,144 are shared (R317, R332, R333). -/
def Assoc.storeRoom (a : Assoc) (c : Nat) : Bool :=
  decide (a.unacked c < 512) || decide (sum ((List.range 4).map fun k => a.unacked k - 512) < 6144)

/-- Whether a message may be sealed toward a peer now: room in the send store and, for landing kinds, the quota (R317, R336). -/
def Assoc.maySend (a : Assoc) (k : FlitKind) (b : List Byte) : Bool :=
  a.storeRoom k.cls && (!k.lands || decide (a.sentGranules + granulesOf b - a.freedByPeer ≤ a.quota))

/-- The flits of a message go out on a port: they take credits and `LINK_SEQ`s, and are held in its retry buffer (R311, R333). -/
def State.onPort (s : State) (p : Nat) (k : FlitKind) (n : Nat) : State :=
  let x := s.suesh p
  s.setSuesh p { x.takeCredits k.cls n with txSeq := (x.txSeq + n) % 4096, retry := x.retry ++ (List.range n).map fun i => (x.txSeq + i) % 4096, ackOwed := 0 }

/-- Seal and send a message on a port (R316): it is held until acknowledged. -/
def State.seal (s : State) (a : Assoc) (k : FlitKind) (b : List Byte) (p : Nat) : State :=
  let n := flitsOf b
  (s.onPort p k n).updAssoc a.peer fun a =>
    { a with txSeq := a.txSeq + n, sentGranules := a.sentGranules + (if k.lands then granulesOf b else 0),
             store := a.store ++ [{ seq := a.txSeq, flits := n, phase := a.phase, kind := k, body := b, port := p, resends := 0 }] }

/-- Whether two waiting messages are one obligation of link and association control (R331): of one kind for one peer, and of one `OP` and subject. -/
def Waiting.sameControl (v w : Waiting) : Bool :=
  w.kind.cls == 0 && v.kind == w.kind && v.dst == w.dst && (w.kind != .liveness || leAt v.bytes 4 4 == leAt w.bytes 4 4)

/-- A message that waits: an obligation recorded again merges with the one held (R331). -/
def addWaiting (l : List Waiting) (w : Waiting) : List Waiting :=
  if l.any fun v => v.sameControl w then l.map fun v => if v.sameControl w then w else v else l ++ [w]

/-- Send a message to a position, or let it wait for an association, a route, credit or quota (R314, R315, R336). -/
def State.send (s : State) (dst : Nat) (k : FlitKind) (b : List Byte) : State :=
  let d := s.holderOf dst
  let wait : State := { s with fabric := { s.fabric with outbox := addWaiting s.fabric.outbox { dst := d, kind := k, bytes := b } } }
  match s.assoc? d with
  | none => wait
  | some a =>
    if a.maySend k b then
      match s.route d k.cls with
      | some p => s.seal a k b p
      | none => wait
    else wait

/-- Send what waits for a destination, in order. -/
def State.flush (s : State) (dst : Nat) : State :=
  let mine := s.fabric.outbox.filter fun w => w.dst == dst
  let s := { s with fabric := { s.fabric with outbox := s.fabric.outbox.filter fun w => w.dst != dst } }
  mine.foldl (fun t w => t.send w.dst w.kind w.bytes) s

/-- Send everything that waits and now may go. -/
def State.flushWaiting (s : State) : State := (s.fabric.outbox.map (·.dst)).eraseDups.foldl State.flush s

/-! ### Lanes and ports (R309, R469) -/

/-- A port goes down (R309): what its retry buffer held is sent again end to end (R327). -/
def State.portDown (s : State) (p : Nat) (failed : List Nat) : State :=
  (s.setSuesh p { s.suesh p with width := 0, failed := failed, retry := [], peer := none }).raise 0x2303 .suesh p (laneMask failed) 0 0

/-- A port comes up: its `HELLO` carries the position written last, which is now in force (R313). -/
def State.portUp (s : State) (p : Nat) (failed : List Nat) : State :=
  let t := s.setSuesh p ((s.suesh p).fresh failed)
  ({ t with fabric := { t.fabric with position := s.num 0x2300 1 } } : State).flushWaiting

/-- A lane leaves its port, which retrains at a narrower width, where held flits are replayed, or goes down (R309, R327). -/
def State.laneFault (s : State) (p lane : Nat) : State :=
  let x := s.suesh p
  if decide (p < 12) && decide (lane < 4) && decide (0 < x.width) && !x.failed.contains lane then
    let failed := insertOnce lane x.failed
    let w := widthWith failed
    if w = 0 then s.portDown p failed
    else ((((s.setSuesh p (x.linkUp failed)).add 0x2300 4 1).add 0x2300 5 x.retry.length).raise 0x2301 .suesh p w lane 0).flushWaiting
  else s

/-- The margin a lane's last scan found (Table 24-5). -/
def State.laneMargin (s : State) (l : Nat) : Nat := ((s.entry 0x9030 2).toBytes.getD l 0).toNat

/-- The retry of a down port, or of a degraded one at its full width, given the lanes the training still finds failed (R309). At full width it proceeds only
where every removed lane's margin stands at or above the floor (R455). -/
def State.portRetry (s : State) (p : Nat) (failed : List Nat) : State :=
  let x := s.suesh p
  let w := widthWith failed
  if decide (p < 12) && s.bring.pwrGood && decide (failed.all (· < 4)) then
    if x.width = 0 ∧ 0 < w then (s.portUp p failed).raise 0x2302 .suesh p w 0 0
    else if 0 < x.width ∧ x.width < 4 ∧ failed = [] ∧ (x.failed.all fun l => decide (s.num 0x9030 3 ≤ s.laneMargin (4 * p + l))) then
      (((s.setSuesh p (x.linkUp failed)).add 0x2300 5 x.retry.length).raise 0x2302 .suesh p w 0 0).flushWaiting
    else s
  else s

/-- A port trains (R469). -/
def State.portTrained (s : State) (p : Nat) (failed : List Nat) : State :=
  if decide (p < 12) && s.bring.pwrGood && decide ((s.suesh p).width = 0) && decide (0 < widthWith failed) then
    (s.portUp p failed).updBringWindow p
  else s

/-- The 45 s window of an untrained port ends (R469). -/
def State.portWindow (s : State) (p : Nat) : State :=
  if decide (p < 12) && s.bring.pwrGood && decide ((s.suesh p).width = 0) && !s.bring.windowOver.contains p then
    (s.updBringWindow p).raise 0x2303 .suesh p (laneMask (s.suesh p).failed) 0 0
  else s

/-! ### Forming associations -/

/-- The quota a forming association gives a peer: an equal share of the landing reserve, in granules (R336). -/
def State.quotaNow (s : State) (peer : Nat) : Nat := s.num 0x2350 1 * 2 ^ 20 / 32 / (1 + (s.fabric.assocs.filter fun a => a.live && a.peer != peer).length)

/-- Form an association with a peer under fresh keys, and send what waited for it (R315, R399). -/
def State.formAssoc (s : State) (peer identity : Nat) : State :=
  let (i, s) := draw s
  let (j, s) := draw s
  let old := s.fabric.assocs.find? fun a => a.peer == peer
  let a : Assoc :=
    { peer := peer, identity := identity, live := true, txKey := Config.freeNat i, rxKey := Config.freeNat j, phase := false, rxPhase := false, oldTxKey := 0, oldRx := none,
      txSeq := 1, store := [], rxLow := 1, rxAbove := [], ackOwed := 0, fails := [], reported := (old.map (·.reported)).getD none, sentGranules := 0, freedByPeer := 0,
      quota := s.quotaNow peer, freedHere := 0,
      landing := (old.map (·.landing)).getD [], heard := true, queried := false, delivered := (old.map (·.delivered)).getD 0,
      depositStep := (old.map (·.depositStep)).getD 0 }
  let held := ((old.map (·.store)).getD []).map fun x => ({ dst := peer, kind := x.kind, bytes := x.body } : Waiting)
  let s : State := { s with fabric := { s.fabric with assocs := s.fabric.assocs.filter (fun a => a.peer != peer) ++ [a],
                                                      outbox := held ++ s.fabric.outbox } }
  s.flush peer

/-- The outcome of association set-up with a peer (R315, R399): the chain, the security version and the operator key are checked in order. A fenced position is refused
until it is held anew, and for good under the identity it was fenced with (R369). -/
def State.assocSetup (s : State) (p peer identity : Nat) (chainOk : Bool) (version : Nat) (sameOperator : Bool) : State :=
  let old := s.fabric.assocs.find? fun a => a.peer == peer
  if s.fabric.fenced.contains peer ∧ ((old.map fun a => !a.live && a.identity == identity).getD false
      ∨ (s.fabric.holders.any (fun h => h.1 == peer) = false ∧ (u16s (s.entry 0x7130 2).toBytes).contains peer = false)) then s
  else if chainOk = false then s.raise 0x8006 .security 0 peer 0 0
  else if version < s.num 0x8000 5 then s.raise 0x8006 .security 0 peer 1 0
  else if sameOperator = false then s.raise 0x8006 .security 0 peer 2 0
  else match s.assoc? peer with
    | some a => if a.identity = identity then s.formAssoc peer identity else s.raise 0x2305 .suesh p peer 0 0
    | none => s.formAssoc peer identity

/-! ### Flits (R310) -/

/-- A flit's header (Table 16-3). -/
structure FlitHead where
  tag : Nat
  e2e : Nat
  dst : Nat
  src : Nat
  linkSeq : Nat
  ackSeq : Nat
  creditClass : Nat
  creditCount : Nat
  nak : Bool
  kind : FlitKind
  granules : Nat
  last : Bool
  phase : Bool
  deriving DecidableEq, Repr

/-- The header as codeword 0 carries it, its `res` bits zero (Table 16-3, R4, R5). -/
def FlitHead.bytes (h : FlitHead) : List Byte :=
  toLE 32 ((if h.phase then 2 ^ 27 else 0) + (if h.last then 2 ^ 28 else 0) + (h.granules % 2 ^ 3) * 2 ^ 29 + h.kind.cls * 2 ^ 32 + h.kind.code * 2 ^ 34
    + (if h.nak then 2 ^ 47 else 0) + (h.creditCount % 2 ^ 6) * 2 ^ 48 + (h.creditClass % 4) * 2 ^ 54 + (h.ackSeq % 2 ^ 12) * 2 ^ 56 + (h.linkSeq % 2 ^ 12) * 2 ^ 68
    + (h.src % 2 ^ 16) * 2 ^ 80 + (h.dst % 2 ^ 16) * 2 ^ 96 + (h.e2e % 2 ^ 48) * 2 ^ 112 + (if h.kind = .null then 0 else h.tag % 2 ^ 96) * 2 ^ 160)

/-- The eight codewords of a flit, each its granule and its check bytes; those above `GRANULES` are zero (R310). -/
def flitBytes (h : FlitHead) (payload : List Byte) : List Byte :=
  let word (g : List Byte) : List Byte := codeword false g
  (word h.bytes ++ ((List.range h.granules).map fun i => word (toLE 32 (leAt payload (32 * i) 32))).flatten ++ zeros 288).take 288

/-- The flits of a held message on its port, its payload in the clear (R310, R316): the first takes `link`, the others follow on. The tag is free. -/
def State.flitsOfSent (s : State) (a : Assoc) (link : Nat) (x : Sent) : List (List Byte) :=
  let port := s.suesh x.port
  (List.range x.flits).map fun i =>
    let payload := (x.body.drop (224 * i)).take 224
    let key := if x.phase = a.phase then a.txKey else a.oldTxKey
    flitBytes { tag := Config.openBits 52 ((leNat payload * 2 ^ 256 + key % 2 ^ 256) * 2 ^ 64 + x.seq + i), e2e := x.seq + i, dst := a.peer,
                src := s.fabric.position, linkSeq := (link + i) % 4096, ackSeq := port.rxSeq, creditClass := 0, creditCount := 0, nak := port.nakOwed, kind := x.kind, granules := granulesOf payload, last := i + 1 == x.flits, phase := x.phase }
      payload

/-- The `NULL` flit that a port owes (R311, R333): it repeats the last `LINK_SEQ`, acknowledges, and returns credits of one class. -/
def State.nullFlit (s : State) (p : Nat) : List Byte :=
  let x := s.suesh p
  flitBytes { tag := 0, e2e := 0, dst := x.peer.getD 0, src := s.fabric.position, linkSeq := (x.txSeq + 4095) % 4096, ackSeq := x.rxSeq,
              creditClass := x.creditOut.1, creditCount := x.creditOut.2, nak := x.nakOwed, kind := .null, granules := 0, last := false, phase := false } []

/-! ### Receiving -/

/-- The link layer's part of an arriving message: acknowledgements, credits, and the expected `LINK_SEQ` (R311, R333). The eighth replay without progress retrains the
port, and what waited for credit or room goes. -/
def State.linkIn (s : State) (p : Nat) (k : FlitKind) (m : Msg) : State × Bool :=
  let x := s.suesh p
  if x.width = 0 then (s, false)
  else
    let before := x.retry
    let after := if before.contains m.ackSeq then (before.dropWhile fun q => q != m.ackSeq).drop 1 else before
    let moved := decide (after.length < before.length)
    let x : Suesh := { x.giveCredits (m.creditClass % 4) m.creditCount with retry := after, replays := if moved then 0 else x.replays }
    let x := if m.nak then (if 7 ≤ x.replays then x.linkUp x.failed else { x with replays := x.replays + 1 }) else x
    let s := if m.nak then s.add 0x2300 5 after.length else s
    let n := flitsOf m.body
    let taken := decide (k ≠ .null ∧ m.linkSeq = (x.rxSeq + 1) % 4096)
    let x := if taken then { x with rxSeq := (x.rxSeq + n) % 4096, ackOwed := x.ackOwed + n, owed := x.owed.set k.cls (nth x.owed k.cls + n) }
      else if k = .null then x else { x with nakOwed := true }
    let s := s.setSuesh p x
    (if moved || decide (0 < m.creditCount) || m.nak then s.flushWaiting else s, taken)

/-- Slide the receive window over what has been received (R316). -/
def slideLow : Nat → Nat → List Nat → Nat × List Nat
  | 0, low, above => (low, above)
  | fuel + 1, low, above => if above.contains low then slideLow fuel (low + 1) (above.filter (· != low)) else (low, above)

/-- The receive window of a key phase: the present one, or what is kept of the one before (R316, R318). -/
def Assoc.window (a : Assoc) (phase : Bool) : Option (Nat × List Nat) :=
  if phase = a.rxPhase then some (a.rxLow, a.rxAbove) else a.oldRx.map fun o => (o.low, o.above)

/-- Mark the flits of a message received; the old phase goes once all of it is received. -/
def Assoc.took (a : Assoc) (phase : Bool) (seq n : Nat) : Assoc :=
  let slide (low : Nat) (above : List Nat) : Nat × List Nat :=
    let all := (List.range n).foldl (fun l i => insertOnce (seq + i) l) above
    slideLow (all.length + 1) low all
  let a := { a with ackOwed := a.ackOwed + n, heard := true }
  if phase = a.rxPhase then
    let w := slide a.rxLow a.rxAbove
    { a with rxLow := w.1, rxAbove := w.2 }
  else match a.oldRx with
    | none => a
    | some o =>
      let w := slide o.low o.above
      { a with oldRx := if o.last < w.1 then none else some { o with low := w.1, above := w.2 } }

/-- A tag failure from a peer (R316): counted, reported at most once per second, and sixteen in a second re-form the association. -/
def State.tagFail (s : State) (p : Nat) (a : Assoc) (now : Nat) : State :=
  let recent := a.fails.filter fun t => decide (now < t + 1000)
  let due := (a.reported.map fun t => decide (t + 1000 ≤ now)).getD true
  let s := (s.add 0x2300 6 1).updAssoc a.peer fun a => { a with fails := recent ++ [now], reported := if due then some now else a.reported }
  let s := if due then s.raise 0x2306 .suesh p a.peer (recent.length + 1) 0 else s
  if 16 ≤ recent.length + 1 then s.formAssoc a.peer a.identity else s

/-- Receive a sealed message (R311, R312, R316): its body when it is taken, none when it is discarded or dropped. One of a phase whose window is closed, or not yet
open, lies outside every window. -/
def State.receive (s : State) (p : Nat) (k : FlitKind) (m : Msg) (tagOk : Bool) (now : Nat) : State × Option (List Byte) :=
  match s.linkIn p k m with
  | (s, false) => (s, none)
  | (s, true) =>
    if m.dst ≠ s.fabric.position ∧ s.fabric.folded.contains m.dst = false then (s.add 0x2300 8 1, none)
    else match s.assoc? m.src with
      | none => (s, none)
      | some a =>
        match a.window m.phase with
        | none => (s.add 0x2300 7 1, none)
        | some (low, above) =>
          if m.e2e < low ∨ above.contains m.e2e then (s.add 0x2300 7 1, none)
          else if tagOk = false then (s.tagFail p a now, none)
          else (s.updAssoc m.src fun a => a.took m.phase m.e2e (flitsOf m.body), some m.body)

/-- A received message of a landing kind waits in the landing reserve (R336). -/
def State.land (s : State) (src : Nat) (k : FlitKind) (b : List Byte) : State :=
  (s.updAssoc src fun a => { a with landing := a.landing ++ [{ kind := k, bytes := b }] }).add 0x2350 2 (32 * granulesOf b)

/-- Receive a message of a landing kind. -/
def State.receiveLanding (s : State) (p : Nat) (k : FlitKind) (m : Msg) (tagOk : Bool) (now : Nat) : State :=
  match s.receive p k m tagOk now with
  | (s, some b) => s.land m.src k b
  | (s, none) => s

/-- Whether an acknowledgement covers a held message (R317, R318). One above every number of the present phase is of the phase before; one of the present phase comes only
once all of the phase before is received. -/
def Assoc.covers (a : Assoc) (upTo : Nat) (x : Sent) : Bool :=
  if x.phase = a.phase then decide (upTo ≤ a.txSeq) && decide (x.seq + x.flits ≤ upTo) else decide (upTo ≤ a.txSeq) || decide (x.seq + x.flits ≤ upTo)

/-- `E2E_ACK` (R317, R336): every message wholly below the acknowledged number leaves the send store; freed landing granules are noted. -/
def State.e2eAckIn (s : State) (p : Nat) (m : Msg) (tagOk : Bool) (now : Nat) : State :=
  match s.receive p .e2eAck m tagOk now with
  | (s, none) => s
  | (s, some b) =>
    let n := leNat (b.take 32)
    let t := s.updAssoc m.src fun a =>
      { a with store := a.store.filter (fun x => !a.covers (bits n 47 0) x),
               freedByPeer := a.freedByPeer + (bits n 95 64 + 2 ^ 32 - a.freedByPeer % 2 ^ 32) % 2 ^ 32 }
    t.flush m.src

/-- The acknowledgement due to a source (R317): the number below which every flit is received, of the phase before while that is open, and the granules freed (R336). -/
def State.e2eAckOut (s : State) (peer : Nat) : State :=
  match s.assoc? peer with
  | none => s
  | some a =>
    if a.ackOwed = 0 then s
    else (s.updAssoc peer fun a => { a with ackOwed := 0 }).send peer .e2eAck
      (toLE 32 (((a.oldRx.map (·.low)).getD a.rxLow) % 2 ^ 48 + (a.freedHere % 2 ^ 32) * 2 ^ 64))

/-- An unacknowledged message is sent again unchanged, on any masked port (R317, R339). -/
def State.e2eResend (s : State) (peer seq : Nat) : State :=
  match s.assoc? peer with
  | none => s
  | some a =>
    match a.store.find? fun x => x.seq == seq with
    | none => s
    | some x =>
      match s.route peer x.kind.cls with
      | none => s
      | some p =>
        ((s.onPort p x.kind x.flits).updAssoc peer fun a =>
          { a with store := a.store.map fun y => if y = x then { y with resends := y.resends + 1, port := p } else y }).add 0x2300 10 x.flits

/-- The sender's key update at 2^40 (R318), once its message can go under the old key. -/
def State.keyUpdateOut (s : State) (peer : Nat) : State :=
  match s.assoc? peer with
  | none => s
  | some a =>
    if a.txSeq < 2 ^ 40 ∨ a.maySend .keyUpdate (zeros 32) = false then s
    else match s.route peer FlitKind.keyUpdate.cls with
      | none => s
      | some p =>
        let (i, s) := draw s
        (s.seal a .keyUpdate (zeros 32) p).updAssoc peer fun a => { a with phase := !a.phase, oldTxKey := a.txKey, txKey := Config.freeNat i, txSeq := 1 }

/-- A peer's key update (R318): the new phase begins at sequence 1, and the old one stays open until all of it is received. -/
def State.keyUpdateIn (s : State) (p : Nat) (m : Msg) (tagOk : Bool) (now : Nat) : State :=
  match s.receive p .keyUpdate m tagOk now with
  | (s, none) => s
  | (s, some _) =>
    let (i, s) := draw s
    s.updAssoc m.src fun a =>
      { a with rxPhase := !a.rxPhase, rxKey := Config.freeNat i, rxLow := 1, rxAbove := [],
               oldRx := if m.e2e < a.rxLow then none else some { key := a.rxKey, low := a.rxLow, above := a.rxAbove, last := m.e2e } }

/-- A receiver discards a flit and what follows (R311). -/
def State.flitDiscarded (s : State) (p : Nat) : State :=
  if 0 < (s.suesh p).width then s.setSuesh p { s.suesh p with nakOwed := true } else s

/-- The link acknowledgement due on a port is returned in a `NULL` flit, with credits of one class (R311, R333). -/
def State.linkAckOut (s : State) (p : Nat) : State :=
  let x := s.suesh p
  s.setSuesh p { x with ackOwed := 0, nakOwed := false, owed := x.owed.set x.creditOut.1 (nth x.owed x.creditOut.1 - x.creditOut.2) }

/-- Another second passes while a message waits for a destination with no port up (R314). -/
def State.routeEmpty (s : State) (dst : Nat) : State :=
  if (s.fabric.outbox.any fun w => w.dst == dst) && !s.routed dst then s.raise 0x2304 .module 0 dst 0 0 else s

/-- A hop goes to strict order once a message has waited 256 cycles (R334). Timing only. -/
def State.strictOrder (s : State) (p : Nat) : State :=
  if p < 12 ∧ (s.suesh p).strict = false then (s.setSuesh p { s.suesh p with strict := true }).add 0xF320 5 1 else s

/-- A message has waited at a hop (R340): counted by class, the longest kept, and reported where it is longer than *credit wait report*, 25 ticks of 40 ns a µs. -/
def State.creditWait (s : State) (hop cls ticks : Nat) : State :=
  let s := s.add 0xF320 (1 + cls % 4) 1
  let s := if s.num 0xF320 6 < ticks then s.setNum 0xF320 6 (ticks % 2 ^ 32) else s
  if 25 * s.num 0xF320 7 < ticks then s.raise 0xF321 .module 0 hop cls ticks else s

/-- A write of *fabric position* (R313): refused while a job is open; it takes effect at the next link-up. -/
def State.positionWrite (s : State) (v : Via) : State :=
  s.viaWrite v (fun index sub _ => index == 0x2300 && sub == 1)
    (fun s a index sub data base => s.writeBads a index sub data base ++ need s.jobs.isEmpty (.field base))
    (fun s _ asker index sub data => { s with retainedWrites := s.retainedWrites ++ [{ key := entryKey index sub, value := .num (leNat data), asker := asker }] })

/-! ### The rows -/

/-- NULL (R311): credits and acknowledgements only. -/
def execNull (p : Nat) (m : Msg) (s : State) : Host.Outcome State Fault Refusal := .next (s.linkIn p .null m).1
/-- HELLO (R313): the peer's position on this port. -/
def execHello (p position : Nat) (m : Msg) (s : State) : Host.Outcome State Fault Refusal :=
  .next (match s.linkIn p .hello m with
    | (s, true) => s.setSuesh p { s.suesh p with peer := some position }
    | (s, false) => s)
/-- ASSOC (R315): the set-up completes with the peer's attestation. -/
def execAssoc (p peer identity : Nat) (chainOk : Bool) (version : Nat) (sameOperator : Bool) (s : State) : Host.Outcome State Fault Refusal :=
  .next (if 0 < (s.suesh p).width then s.assocSetup p peer identity chainOk version sameOperator else s)
/-- E2E_ACK (R317). -/
def execE2eAck (p : Nat) (m : Msg) (tagOk : Bool) (now : Nat) (s : State) : Host.Outcome State Fault Refusal := .next (s.e2eAckIn p m tagOk now)
/-- SCATTER_RAW (R111): lands first. -/
def execScatterRaw (p : Nat) (m : Msg) (tagOk : Bool) (now : Nat) (s : State) : Host.Outcome State Fault Refusal :=
  .next (s.receiveLanding p .scatterRaw m tagOk now)
/-- SCATTER_PARTIAL (R111): lands first. -/
def execScatterPartial (p : Nat) (m : Msg) (tagOk : Bool) (now : Nat) (s : State) : Host.Outcome State Fault Refusal :=
  .next (s.receiveLanding p .scatterPartial m tagOk now)
/-- REDUCE (R324): lands first. -/
def execReduce (p : Nat) (m : Msg) (tagOk : Bool) (now : Nat) (s : State) : Host.Outcome State Fault Refusal :=
  .next (s.receiveLanding p .reduce m tagOk now)
/-- BROADCAST (R326): lands first. -/
def execBroadcast (p : Nat) (m : Msg) (tagOk : Bool) (now : Nat) (s : State) : Host.Outcome State Fault Refusal :=
  .next (s.receiveLanding p .broadcast m tagOk now)
/-- HANDOFF (R241): lands first. -/
def execHandoff (p : Nat) (m : Msg) (tagOk : Bool) (now : Nat) (s : State) : Host.Outcome State Fault Refusal :=
  .next (s.receiveLanding p .handoff m tagOk now)
/-- LOG_MIRROR (R360): lands first. -/
def execLogMirror (p : Nat) (m : Msg) (tagOk : Bool) (now : Nat) (s : State) : Host.Outcome State Fault Refusal :=
  .next (s.receiveLanding p .logMirror m tagOk now)
/-- DEPOSIT (R365): lands first. -/
def execDeposit (p : Nat) (m : Msg) (tagOk : Bool) (now : Nat) (s : State) : Host.Outcome State Fault Refusal :=
  .next (s.receiveLanding p .deposit m tagOk now)
/-- KEY_UPDATE (R318). -/
def execKeyUpdate (p : Nat) (m : Msg) (tagOk : Bool) (now : Nat) (s : State) : Host.Outcome State Fault Refusal := .next (s.keyUpdateIn p m tagOk now)
/-- KEY_UPDATE_DUE (R318). -/
def execKeyUpdateDue (peer : Nat) (s : State) : Host.Outcome State Fault Refusal := .next (s.keyUpdateOut peer)
/-- LINK_ACK_DUE (R311). -/
def execLinkAckDue (p : Nat) (s : State) : Host.Outcome State Fault Refusal := .next (s.linkAckOut p)
/-- E2E_ACK_DUE (R317). -/
def execE2eAckDue (peer : Nat) (s : State) : Host.Outcome State Fault Refusal := .next (s.e2eAckOut peer)
/-- E2E_RESEND (R317). -/
def execE2eResend (peer seq : Nat) (s : State) : Host.Outcome State Fault Refusal := .next (s.e2eResend peer seq)
/-- LANE_FAULT (R309). -/
def execLaneFault (p lane : Nat) (s : State) : Host.Outcome State Fault Refusal := .next (s.laneFault p lane)
/-- PORT_RETRY (R309). -/
def execPortRetry (p : Nat) (failed : List Nat) (s : State) : Host.Outcome State Fault Refusal := .next (s.portRetry p failed)
/-- SUESH_PORT_TRAINED (R469). -/
def execSueshPortTrained (p : Nat) (failed : List Nat) (s : State) : Host.Outcome State Fault Refusal := .next (s.portTrained p failed)
/-- PORT_WINDOW_EXPIRED (R469). -/
def execPortWindowExpired (p : Nat) (s : State) : Host.Outcome State Fault Refusal := .next (s.portWindow p)
/-- ROUTE_EMPTY (R314). -/
def execRouteEmpty (dst : Nat) (s : State) : Host.Outcome State Fault Refusal := .next (s.routeEmpty dst)
/-- CREDIT_STRICT_ORDER (R334). -/
def execCreditStrictOrder (p : Nat) (s : State) : Host.Outcome State Fault Refusal := .next (s.strictOrder p)
/-- CREDIT_WAIT_LONG (R340). -/
def execCreditWaitLong (hop cls ticks : Nat) (s : State) : Host.Outcome State Fault Refusal := .next (s.creditWait hop cls ticks)
/-- FLIT_DISCARDED (R311). -/
def execFlitDiscarded (p : Nat) (s : State) : Host.Outcome State Fault Refusal := .next (s.flitDiscarded p)
/-- FABRIC_POSITION_WRITE (R313). -/
def execFabricPositionWrite (v : Via) (s : State) : Host.Outcome State Fault Refusal := .next (s.positionWrite v)

end Sys2Proof.Machine
end

