-- ==== Sys2Proof/Machine/Records.lean ====
section
/-!
DEFINITION. Flash: the delta record, the base record, the event checkpoint, firmware images and the live switch's commands (20_security, 22_dictionary).
-/
namespace Sys2Proof.Machine
open Sys2Proof

/-! ### The delta record -/

/-- The valid copy with the higher generation (R429). -/
def Flash.delta (f : Flash) : Option DeltaCopy :=
  match f.deltaA.valid, f.deltaB.valid with
  | true, true => some (if f.deltaA.gen < f.deltaB.gen then f.deltaB else f.deltaA)
  | true, false => some f.deltaA
  | false, true => some f.deltaB
  | false, false => none

/-- The valid half of the conservation header with the higher generation (R459). -/
def Flash.cons (f : Flash) : Option ConsHalf :=
  match f.consA.valid, f.consB.valid with
  | true, true => some (if f.consA.gen < f.consB.gen then f.consB else f.consA)
  | true, false => some f.consA
  | false, true => some f.consB
  | false, false => none

/-- Write a delta copy into the half that does not hold the newest valid one (R429). -/
def Flash.writeDelta (f : Flash) (values : List (Nat × DVal)) (eventSeq : Option Nat) (slot : Nat) : Flash :=
  let n : DeltaCopy := { gen := ((f.delta.map (·.gen)).getD 0) + 1, valid := true, values := values, eventSeq := eventSeq, activeSlot := slot }
  if f.delta = some f.deltaA then { f with deltaB := n } else { f with deltaA := n }

/-- Write a half of the conservation header, in turn (R459). -/
def Flash.writeCons (f : Flash) (count : Nat) (eventSeq : Option Nat) : Flash :=
  let n : ConsHalf := { gen := ((f.cons.map (·.gen)).getD 0) + 1, valid := true, count := count, eventSeq := eventSeq }
  if f.cons = some f.consA then { f with consB := n } else { f with consA := n }

/-- Whether the entry of a key is RETAINED. -/
def keyRetained (key : Nat) : Bool := ((findEntry (key / 256) (key % 256)).map (·.retained)).getD false

/-- The value the base record gives an entry. -/
def Flash.baseValue (f : Flash) (key : Nat) : Option DVal := f.base.bind fun b => aGet b.values key

/-- Every retained value that differs from the base record's (R429). -/
def State.deltaValues (s : State) : List (Nat × DVal) :=
  s.dict.filter fun p => keyRetained p.1 && decide (s.flash.baseValue p.1 ≠ some p.2)

/-- The slot the delta record marks active (R401). -/
def State.activeSlot (s : State) : Nat := ((s.flash.delta).map (·.activeSlot)).getD 0

/-- Rewrite the delta record whole (R429): measurement block 5 follows (Table 20-5). -/
def State.rewriteDelta (s : State) (slot : Nat) (eventSeq : Option Nat) : State :=
  let f := s.flash.writeDelta s.deltaValues eventSeq slot
  let (n, s) := draw { s with flash := f }
  { s with sec := { s.sec with measures := s.sec.measures.set 4 (bytes64 (Config.freeNat n)) } }

/-- A retrain of every port as at a link-up, by which a self-fenced module takes its new position (R474, R313). -/
def State.retrainPorts (s : State) : State :=
  ({ s with
    fabric := { s.fabric with
      position := s.num 0x2300 1
      ports := s.fabric.ports.map fun x => if 0 < x.width then x.fresh x.failed else x }
    bring := { s.bring with selfFenced := false } } : State).flushWaiting

/-- The delta copy is written and signed (R429): the waiting writes take effect and complete. -/
def State.deltaCommit (s : State) : State :=
  let waiting := s.retainedWrites
  let s := { s with retainedWrites := [] }
  let s := waiting.foldl (fun t w => { t with dict := aSet t.dict w.key w.value }) s
  let s := s.rewriteDelta s.activeSlot ((s.flash.delta).bind (·.eventSeq))
  waiting.foldl (fun t w =>
    let t := t.afterWrite w.key
    let t := if w.key = entryKey 0x2300 1 ∧ t.bring.selfFenced then t.retrainPorts else t
    let t := if w.key = entryKey 0x2310 1 then t.flushWaiting else t
    t.tell w.asker .ok 0 []) s

/-- Every 4,096 events the counter is recorded in two places (R419). -/
def State.eventCheckpoint (s : State) : State :=
  match s.log.seq with
  | none => s
  | some n =>
    if s.log.checkpoint + 4096 ≤ n then
      let s := { s with log := { s.log with checkpoint := n }, flash := s.flash.writeCons s.flash.daily.length (some n) }
      s.rewriteDelta s.activeSlot (some n)
    else s

/-! ### The base record -/

/-- `FORMAT`, `CHAIN_LENGTH` and `BODY_LENGTH` of a base record (R386, Table 20-3). -/
def baseFormatOk (b : List Byte) : Bool :=
  let h := leNat (b.take 256)
  bits h 15 0 == 0x0101 && b.length == 512 + 256 * ceilDiv (bits h 191 160) 256 + bits h 159 128

/-- Whether a retained value a base record carries lies in its entry's range. -/
def baseValueOk (p : Nat × DVal) : Bool :=
  match findEntry (p.1 / 256) (p.1 % 256) with
  | none => false
  | some r =>
    r.retained && (r.access == .rw || r.access == .rwq) &&
      (match p.2 with
       | .num n => decide (n < 2 ^ (8 * r.width)) && r.rng.ok r.width (toLE r.width n)
       | .blk b => r.rng.ok r.width b)

/-- Whether a base record's signer may replace the present settings (R386). -/
def State.mayClaim (s : State) (r : BaseRecord) : Bool :=
  !s.sec.claimed || r.operator == (s.entry 0x8020 1).toBytes
    || (match s.flash.base with | some b => b.successors.contains r.operator | none => false)

/-- The settings after a base record alone: its values; RO counters stay (R386, R429). -/
def State.baseSettings (s : State) (r : BaseRecord) : List (Nat × DVal) :=
  let keep := s.dict.filter fun p => !(keyRetained p.1 && (((findEntry (p.1 / 256) (p.1 % 256)).map fun e => e.access == .rw || e.access == .rwq).getD false))
  r.values.foldl (fun d p => aSet d p.1 p.2) keep

/-- A base record has arrived whole (R386). `record` is what its body says, `sigOk` whether its signature verifies against the key it presents. -/
def State.baseRecord (s : State) (record : BaseRecord) (sigOk : Bool) : State :=
  match s.baseStaged with
  | none => s
  | some (bytes, asker) =>
    let s := { s with baseStaged := none }
    let reject (cause : Nat) : State := (s.raise 0x8007 .security 0 0 cause 0).tell asker .authFail 0 []
    if baseFormatOk bytes = false then reject 1
    else if sigOk = false ∨ s.mayClaim record = false then reject 0
    else if (record.values.all baseValueOk) = false ∨ record.operator.length ≠ 64 then reject 2
    else
      let waiting := s.retainedWrites
      let s : State := { s with
        retainedWrites := []
        dict := aSet (s.baseSettings record) (entryKey 0x8020 1) (.blk record.operator)
        flash := { s.flash with base := some { record with bytes := bytes } }
        sec := { s.sec with claimed := true, measures := s.sec.measures.set 3 (bytes64 (Config.sha512 bytes)) } }
      let s := s.rewriteDelta s.activeSlot ((s.flash.delta).bind (·.eventSeq))
      let s := s.takeNode.flushWaiting
      (waiting.foldl (fun t w => t.tell w.asker .range 16 []) s).tell asker .ok 0 []

/-! ### Images -/

def Flash.setSlot (f : Flash) (n : Nat) (b : List Byte) : Flash := if n = 0 then { f with slotA := b } else { f with slotB := b }

/-- Fields of an image header (Table 20-3). -/
def imageField (img : List Byte) (hi lo : Nat) : Nat := bits (leNat (img.take 256)) hi lo

/-- The body of an image (R384). -/
def imageBody (img : List Byte) : List Byte :=
  slice img (512 + 256 * ceilDiv (imageField img 191 160) 256) (imageField img 159 128)

/-- The first check of R385 that an image fails, 1 to 5. The verdicts on its chain, its signature and its
digest are the security engine's. -/
def State.imageFails (s : State) (img : List Byte) (chainOk sigOk digestOk : Bool) : Option Nat :=
  if imageField img 15 0 ≠ 1 ∨ imageField img 31 16 ≠ 0x2304 ∨ imageField img 47 32 ≠ 0xA1 then some 1
  else if chainOk = false then some 2
  else if sigOk = false then some 3
  else if digestOk = false then some 4
  else if imageField img 79 64 < s.num 0x8000 5 then some 5
  else none

/-- Run an image: its versions, its measurement blocks 2 and 3, and a fresh alias key (R382, R385, R389). -/
def State.runImage (s : State) (slot : Nat) : State :=
  let img := s.flash.slot slot
  let (n, s) := draw s
  let m := (s.sec.measures.set 1 (bytes64 (Config.sha512 img))).set 2
    (toLE 4 (imageField img 127 96) ++ toLE 2 (imageField img 79 64) ++ toLE 2 (imageField img 63 48))
  { s with sec := { s.sec with runningSlot := slot, imageVersion := imageField img 127 96, securityVersion := imageField img 79 64,
                               numericsGen := imageField img 63 48, aliasDigest := bytes64 (Config.freeNat n), measures := m } }

/-- The slot that is not running (R400). -/
def State.otherSlot (s : State) : Nat := 1 - s.sec.runningSlot

/-- Faults of a standby block write (R400, R426): it fills the slot in place at rising offsets, never while a switch is armed. -/
def State.standbyBads (s : State) (a : Acc) (off : Nat) (data : List Byte) : List Bad :=
  let key := entryKey 0x8040 1
  need (s.operatorRights a.session) (.field 0) ++ need (!s.blockElsewhere a key) (.field 0) ++ need (s.sec.standby != .armed) (.field 0) ++
    need (match s.openBlock a key with | some b => off == b.next | none => off == 0 || s.abandoned.contains (a.session, key)) (.field 8)
    ++ need (decide (off + data.length ≤ 25165824)) (.field 16)

/-- Fill the standby slot (R400); the first request of a fresh sequence after an abandonment completes with `TIMEOUT` unless at 0 (R416). -/
def State.standbyWrite (s : State) (a : Acc) (off : Nat) (data : List Byte) (last : Bool) (asker : Asker) : State :=
  let key := entryKey 0x8040 1
  if (s.openBlock a key).isNone ∧ off ≠ 0 then
    ({ s with abandoned := s.abandoned.filter fun p => p ≠ (a.session, key) }).tell asker .timeout 0 []
  else
    let old := if off = 0 then [] else s.flash.slot s.otherSlot
    let s := s.closeBlock a key
    let s : State := { s with
      flash := s.flash.setSlot s.otherSlot (overlay old off data)
      sec := { s.sec with standby := .loading, measures := s.sec.measures.set 5 (zeros 64) }
      blocks := if a.gdp && last then s.blocks
        else s.blocks ++ [{ key := key, session := a.session, overGdp := a.gdp, job := a.job, data := [], next := off + data.length }] }
    s.tell asker .ok 0 []

/-- STANDBY_IMAGE_WRITE by either path. -/
def State.standbyVia (s : State) (v : Via) : State :=
  match v with
  | .queue q =>
    s.runCommand q 0x40 (fun c => let h := dictHead c.payload; decide (h.op = 3) && h.index == 0x8040 && h.sub == 1)
      (fun s f =>
        dictHeadBads f.cmd.payload ++ need (decide (16 < f.cmd.payload.length)) .length
          ++ s.standbyBads f.acc (dictHead f.cmd.payload).off (f.cmd.payload.drop 16))
      (fun s f => s.standbyWrite f.acc (dictHead f.cmd.payload).off (f.cmd.payload.drop 16) false f.asker)
  | .frame f =>
    if f.index = 0x8040 ∧ f.subindex = 1 then
      s.gdpRequest f 4 fun s _ =>
        s.gdpChecked f (s.standbyBads (frameAcc f) f.offset f.data) fun s => s.standbyWrite (frameAcc f) f.offset f.data f.last (frameAsker f)
    else s

/-- A write of *switch command* (R400). -/
def State.switchCommand (s : State) (v : Via) (code : Nat) (more : State → List Bad) (effect : State → State) : State :=
  s.viaWrite v (fun index sub data => index == 0x8040 && sub == 3 && ownCommand code (leNat data))
    (fun s a index sub data base =>
      s.writeBads a index sub data base ++ need (leNat data == code) (.field base) ++ (more s).map fun _ => Bad.field base)
    (fun s _ asker _ _ _ => (effect s).tell asker .ok 0 [])

/-- `VERIFY` (R400): the standby image is checked by R385. -/
def State.verifyImage (s : State) (chainOk sigOk digestOk : Bool) : State :=
  let img := s.flash.slot s.otherSlot
  match s.imageFails img chainOk sigOk digestOk with
  | none => { s with sec := { s.sec with standby := .verified, switchHeld := [], switchDeposits := [],
                                         measures := s.sec.measures.set 5 (bytes64 (Config.sha512 img)) } }
  | some step => ({ s with sec := { s.sec with standby := .rejected } }).raise 0x8002 .security 0 s.otherSlot step 0

/-- Whether any position of the module is fenced or filling (R400). -/
def State.anyFenced (s : State) : Bool :=
  s.fabric.fenced.contains s.fabric.position || s.fabric.filling.isSome || s.jobs.any (·.fenced)

/-- An armed switch is cancelled (R400, R403). -/
def State.disarm (s : State) : State :=
  if s.sec.standby = .armed then { s with sec := { s.sec with standby := .verified, switchHeld := [], switchDeposits := [] } } else s

/-! ### The rows -/

/-- BASE_RECORD_WRITE (R386). -/
def execBaseRecordWrite (record : BaseRecord) (sigOk : Bool) (s : State) : Host.Outcome State Fault Refusal := .next (s.baseRecord record sigOk)
/-- DELTA_RECORD_COMMIT (R429). -/
def execDeltaRecordCommit (s : State) : Host.Outcome State Fault Refusal := .next s.deltaCommit
/-- EVENT_CHECKPOINT (R419). -/
def execEventCheckpoint (s : State) : Host.Outcome State Fault Refusal := .next s.eventCheckpoint
/-- STANDBY_IMAGE_WRITE (R400). -/
def execStandbyImageWrite (v : Via) (s : State) : Host.Outcome State Fault Refusal := .next (s.standbyVia v)
/-- VERIFY (R400). -/
def execVerify (v : Via) (chainOk sigOk digestOk : Bool) (s : State) : Host.Outcome State Fault Refusal :=
  .next (s.switchCommand v 1 (fun _ => []) fun s => s.verifyImage chainOk sigOk digestOk)
/-- ARM (R400, R475). -/
def execArm (v : Via) (s : State) : Host.Outcome State Fault Refusal :=
  .next (s.switchCommand v 2 (fun s => need (s.sec.standby == .verified && !s.anyFenced && s.bring.ready) .state)
    fun s => { s with sec := { s.sec with standby := .armed, switchHeld := [], switchDeposits := [] } })
/-- CANCEL (R400). -/
def execCancel (v : Via) (s : State) : Host.Outcome State Fault Refusal := .next (s.switchCommand v 3 (fun _ => []) State.disarm)

end Sys2Proof.Machine
end

