-- ==== Sys2Proof/Machine/Ageing.lean ====
section
/-!
DEFINITION. Margins, re-planning and the prediction of end of life (24_ageing).
-/
namespace Sys2Proof.Machine
open Sys2Proof

/-! ### Dies -/

/-- PATH_MARGIN_EVAL (R452, R453): a margin below the floor raises the die's rail by 5 mV or lowers its clock by 25 MHz. -/
def State.pathMargin (s : State) (d margin : Nat) : State :=
  if d < 4 ∧ s.dieCode d = 2 then
    let s := (s.setNum 0x9000 (9 + d) (margin % 65536))
    let low := min (nth s.day.pathMin d) (margin % 65536)
    let s := { s with day := { s.day with pathMin := s.day.pathMin.set d low } }
    if s.num 0x9000 13 ≤ margin then s
    else
      let off := s.num 0x9000 (1 + d)
      let clock := s.num 0x9000 (5 + d)
      if off + 5 ≤ s.num 0x9000 14 then (s.setNum 0x9000 (1 + d) (off + 5)).raise 0x9001 .module 0 d 0 (off + 5)
      else if 2025 ≤ clock then (s.setNum 0x9000 (5 + d) (clock - 25)).raise 0x9002 .module 0 d (clock - 25) 0
      else s.raise 0x9003 .module 0 0 (s.num 0x9010 2) 0
  else s

/-! ### Lanes -/

/-- Lane group of a lane: the Suesh port, or 12 for the CXL port (R455). -/
def laneGroup (l : Nat) : Nat := if l < 48 then l / 4 else 12

def laneWithin (l : Nat) : Nat := if l < 48 then l % 4 else l - 48

/-- Whether a lane is in service. -/
def State.laneUp (s : State) (l : Nat) : Bool :=
  if l < 48 then decide (0 < (s.suesh (l / 4)).width) && !(s.suesh (l / 4)).failed.contains (l % 4) else decide (l < 56) && decide (l - 48 < s.port.width)

/-- A CXL lane is dropped: the link retrains to half its width, or is lost at x1 (R455, R269, R271). -/
def State.dropCxlLane (s : State) : State := if s.port.width ≤ 1 then s.portReset else s.linkDegraded (s.port.width / 2) s.port.rate

/-- Record a lane's margin (Table 24-5). -/
def State.setMargin (s : State) (l m : Nat) : State :=
  s.setEntry 0x9030 2 (.blk ((fitTo 56 (s.entry 0x9030 2).toBytes).set l (BitVec.ofNat 8 (min m 255))))

/-- Whether a lane is one removed from a Suesh port that runs without it: the scan before the port's retry takes it (R309, R455). -/
def State.laneRemoved (s : State) (l : Nat) : Bool :=
  decide (l < 48) && decide (0 < (s.suesh (l / 4)).width) && (s.suesh (l / 4)).failed.contains (l % 4)

/-- EYE_SCAN (R455): `after` is the margin once the equaliser has adapted again. -/
def State.eyeScan (s : State) (l margin after : Nat) : State :=
  if s.laneUp l = false ∧ s.laneRemoved l = false then s
  else if s.num 0x9030 3 ≤ margin then s.setMargin l margin
  else
    let s := (s.setMargin l after).raise 0x9001 .module 0 (4 + laneGroup l) 1 (laneWithin l)
    let s := { s with day := { s.day with retunes := s.day.retunes + 1 } }
    if s.num 0x9030 3 ≤ after ∨ s.laneUp l = false then s else if l < 48 then s.laneFault (l / 4) (l % 4) else s.dropCxlLane

/-! ### Banks -/

/-- The refresh rate code of a bank: 0, 1 or 2 for 1×, 2× and 4× (R353). -/
def DayStats.bankRate (d : DayStats) (device bank : Nat) : Nat := aGetD d.refreshBanks (device, bank) (nth d.refreshBase device)

/-- The highest rate code of a device's banks (Table 24-3). -/
def DayStats.deviceRate (d : DayStats) (device : Nat) : Nat :=
  (d.refreshBanks.filter fun p => p.1.1 == device).foldl (fun m p => max m p.2) (nth d.refreshBase device)

/-- RETENTION_TEST (R456, R353): the bank's measured failure time against its refresh interval, in one unit. -/
def State.retentionTest (s : State) (device bank failTime interval : Nat) : State :=
  let rate := s.day.bankRate device bank
  if device < 26 ∧ failTime < s.num 0x9040 1 * interval ∧ rate < 2 then
    ({ s with day := { s.day with refreshBanks := aSet s.day.refreshBanks (device, bank) (rate + 1) } }).raise 0x9001 .module 0 (17 + device) 2 (rate + 1)
  else s

/-! ### The daily record -/

/-- Bytes of a number field list, each (low bit, value). -/
def packFields (w : Nat) (l : List (Nat × Nat)) : List Byte := toLE w (sum (l.map fun p => p.2 * 2 ^ p.1))

/-- *repair resources* 0x7010:02: rows left in the lowest bank of each device. -/
def State.resourceBytes (s : State) : List Byte := s.rel.resources.map (BitVec.ofNat 8)

/-- The least of a list, 255 when empty. -/
def leastOr255 (l : List Nat) : Nat := l.foldl min 255

/-- Least margin of each lane group (Table 24-3). -/
def State.groupMargins (s : State) : List Nat :=
  (List.range 13).map fun g => leastOr255 (((List.range 56).filter fun l => laneGroup l == g && s.laneUp l).map fun l =>
    s.laneMargin l)

/-- The daily record (Table 24-3), given the day's averages and the prediction. -/
def State.dailyRecord (s : State) (avgPower : Nat) (efficiency : List Nat) (limiting c lo hi : Nat) : List Byte :=
  let f (w : Nat) (base : Nat) (l : List Nat) : List (Nat × Nat) := (List.range l.length).map fun i => (base + w * i, nth l i % 2 ^ w)
  packFields 128
    ([(0, s.flash.daily.length % 2 ^ 32), (32, s.num 0x7120 8 % 2 ^ 32), (64, s.day.keeperStarts % 2 ^ 16)]
      ++ f 8 96 ((List.range 4).map fun d => s.num 0x9000 (1 + d)) ++ f 16 128 ((List.range 4).map fun d => s.num 0x9000 (5 + d))
      ++ f 16 192 (s.day.pathMin.take 4) ++ [(256, s.day.retunes % 2 ^ 16)] ++ f 8 272 s.groupMargins
      ++ f 2 384 ((List.range 26).map s.day.deviceRate)
      ++ [(448, s.day.correctedNear % 2 ^ 32), (480, s.day.correctedFar % 2 ^ 32), (512, leastOr255 s.rel.resources)]
      ++ f 8 528 (efficiency.take 10)
      ++ [(608, s.day.phasesLost % 2 ^ 8), (616, (s.day.tempMax / 1000).toNat % 2 ^ 8), (624, avgPower % 2 ^ 16), (640, s.num 0x7010 3 % 2 ^ 64),
          (704, c % 2 ^ 16), (720, lo % 2 ^ 16), (736, hi % 2 ^ 16), (752, limiting % 2 ^ 8)])

/-! ### The prediction -/

/-- A field of a daily record. -/
def recField (r : List Byte) (hi lo : Nat) : Nat := bits (leNat r) hi lo

/-- Wear quantities of Table 24-2 as a daily record shows them, each rising with wear; `made` is the lowest bank's resource at manufacture. -/
def wearOf (made : Nat) (r : List Byte) : List Int :=
  let die (d : Nat) : Int := (recField r (103 + 8 * d) (96 + 8 * d) : Int) + 4 * ((2250 : Int) - recField r (143 + 16 * d) (128 + 16 * d)) / 25
  [max (max (die 0) (die 1)) (max (die 2) (die 3)), (made : Int) - recField r 519 512, recField r 703 640,
   -(leastOr255 ((List.range 13).map fun g => recField r (279 + 8 * g) (272 + 8 * g)) : Int),
   -(leastOr255 ((List.range 10).map fun k => recField r (535 + 8 * k) (528 + 8 * k)) : Int)]

/-- Sums of a least-squares line through equally spaced values: n, D = nΣx² − (Σx)², N = nΣxy − ΣxΣy, V = nΣy² − (Σy)². -/
structure Fit where
  n : Int
  d : Int
  slope : Int
  var : Int
  deriving DecidableEq, Repr

def isum (l : List Int) : Int := l.foldl (· + ·) 0

def fitLine (ys : List Int) : Fit :=
  let n : Int := ys.length
  let xs : List Int := (List.range ys.length).map Int.ofNat
  let sx := isum xs
  let sy := isum ys
  { n := n, d := n * isum (xs.map fun x => x * x) - sx * sx, slope := n * isum (List.zipWith (· * ·) xs ys) - sx * sy,
    var := n * isum (ys.map fun y => y * y) - sy * sy }

/-- n − 2 times the squared standard error of the slope, in units of 1 / D². -/
def Fit.err (f : Fit) : Int := f.var * f.d - f.slope * f.slope

/-- The greatest number at most 10,000 that a downward-closed predicate holds of; 0 where it holds of none. -/
def greatest (p : Int → Bool) : Nat :=
  min 10000 ((List.range 14).foldl (fun m i => let k : Nat := m + 2 ^ (13 - i); if p (Int.ofNat k) then k else m) (0 : Nat))

/-- Central, lower and upper days of one mechanism with `h` of wear left (R458): floors of exact quotients, 1.28² = 16384 / 10000. -/
def Fit.days (f : Fit) (h : Int) : Nat × Nat × Nat :=
  if f.slope ≤ 0 then (10000, 10000, 10000)
  else
    let c := greatest fun m => decide (m * f.slope ≤ h * f.d)
    let lo := greatest fun m => decide (0 ≤ h * f.d - m * f.slope) &&
      decide (m * m * 16384 * f.err ≤ 10000 * (f.n - 2) * (h * f.d - m * f.slope) * (h * f.d - m * f.slope))
    let hi := if 16384 * f.err < 10000 * (f.n - 2) * f.slope * f.slope then
        greatest fun m => decide (m * f.slope - h * f.d ≤ 0) ||
          decide (10000 * (f.n - 2) * (m * f.slope - h * f.d) * (m * f.slope - h * f.d) ≤ m * m * 16384 * f.err)
      else 10000
    (c, lo, hi)

/-- Whether c_a < c_b, the exact quotients (R458). -/
def sooner (a b : Fit × Int) : Bool :=
  match decide (a.1.slope ≤ 0), decide (b.1.slope ≤ 0) with
  | true, true => false
  | true, false => decide (10000 * b.1.slope < b.2 * b.1.d)
  | false, true => decide (a.2 * a.1.d < 10000 * a.1.slope)
  | false, false => decide (a.2 * a.1.d * b.1.slope < b.2 * b.1.d * a.1.slope)

/-- Code of the mechanism with the least c (Table 24-2). -/
def argSoonest (l : List (Fit × Int)) : Nat :=
  ((List.range l.length).foldl (fun (best : Option (Nat × (Fit × Int))) i =>
    match l[i]?, best with
    | some x, none => some (i, x)
    | some x, some (j, y) => if sooner x y then some (i, x) else some (j, y)
    | none, b => b) none).elim 255 (·.1)

/-- Retirement limit of the worse tier, bytes (Table 24-2, R351). -/
def State.retireLimit (s : State) : Nat :=
  if s.tiers.farRetired ≤ 2 * s.tiers.nearRetired then 8 * 2 ^ 30 else 16 * 2 ^ 30

/-- The prediction (R458): central, lower and upper days, and the limiting mechanism. -/
def State.predict (s : State) (efficiency : List Nat) : Nat × Nat × Nat × Nat :=
  let r := s.flash.daily
  if r.length < 14 then
    let c := 2557 - r.length
    (c, c / 2, min 10000 (c * 3 / 2), 255)
  else
    let made := leastOr255 s.rel.atManufacture
    let recent := r.drop (r.length - min 90 r.length)
    let now := wearOf made (s.dailyRecord 0 efficiency 0 0 0 0)
    let first : Int := ((s.day.firstEfficiency).getD 0 : Nat)
    let limits : List Int := [(s.num 0x9000 14 : Int) + 40, made, s.retireLimit, -(s.num 0x9030 3 : Int), -(first - 50)]
    let fits := (List.range 5).map fun k =>
      (fitLine (recent.map fun x => (wearOf made x).getD k 0), limits.getD k 0 - now.getD k 0)
    let all := fits.map fun p => p.1.days p.2
    (all.foldl (fun m x => min m x.1) 10000, all.foldl (fun m x => min m x.2.1) 10000, all.foldl (fun m x => min m x.2.2) 10000, argSoonest fits)

/-- DAILY_PREDICTION (R458, R459). -/
def State.daily (s : State) (avgPower : Nat) (efficiency : List Nat) : State :=
  if s.bring.phase1 = .done ∧ s.flash.daily.length < 65504 then
    let (c, lo, hi, k) := s.predict efficiency
    let s := (((s.setNum 0x9010 1 c).setNum 0x9010 2 lo).setNum 0x9010 3 hi).setNum 0x9010 5 k
    let s := s.setEntry 0x9050 1 (.blk (efficiency.map (BitVec.ofNat 8)))
    let r := s.dailyRecord avgPower efficiency k c lo hi
    let again := decide (lo < s.num 0x9010 4) && (match s.day.lastLow with | none => true | some l => decide (lo < l))
    let s := { s with
      flash := ({ s.flash with daily := s.flash.daily ++ [r] }).writeCons (s.flash.daily.length + 1) ((s.flash.cons).bind (·.eventSeq))
      day := { s.day with correctedNear := 0, correctedFar := 0, retunes := 0, tempMax := 0, pathMin := [65535, 65535, 65535, 65535],
                          firstEfficiency := some ((s.day.firstEfficiency).getD (leastOr255 efficiency)),
                          lastLow := if again then some lo else s.day.lastLow } }
    let s := s.setNum 0x9020 2 s.flash.daily.length
    if again then s.raise 0x9003 .module 0 c lo 0 else s
  else s

/-- PATH_MARGIN_EVAL (R452). -/
def execPathMarginEval (d margin : Nat) (s : State) : Host.Outcome State Fault Refusal := .next (s.pathMargin d margin)
/-- EYE_SCAN (R455). -/
def execEyeScan (l margin after : Nat) (s : State) : Host.Outcome State Fault Refusal := .next (s.eyeScan l margin after)
/-- RETENTION_TEST (R456). -/
def execRetentionTest (device bank failTime interval : Nat) (s : State) : Host.Outcome State Fault Refusal :=
  .next (s.retentionTest device bank failTime interval)
/-- DAILY_PREDICTION (R458). -/
def execDailyPrediction (avgPower : Nat) (efficiency : List Nat) (s : State) : Host.Outcome State Fault Refusal := .next (s.daily avgPower efficiency)

end Sys2Proof.Machine
end

