-- ==== Sys2Proof/Machine/Tables.lean ====
section
/-!
DEFINITION. The table commands: creation, loads, publishes and the shelf set (R136 to R141, R267).
-/
namespace Sys2Proof.Machine
open Sys2Proof

/-- The job of a command, or a placeholder no command reaches. -/
def State.jobOf (s : State) (f : InFlight) : Option Job := f.job.bind s.job?

/-- Stored bytes of the module in both tiers. -/
def State.storedBytes (s : State) : Nat := s.tileBytes (fun _ => true) + sum (s.jobs.map Job.farBytes)

/-- `NO_SPACE` where an effect would add more stored bytes than are free (R256). -/
def State.spaceBad (s : State) (after : State) : List Bad := need (decide (after.storedBytes ≤ s.storedBytes + s.freeBytes)) .space

/-! ### TABLE_CREATE (R138) -/

/-- `TENSOR`-space `SCATTER` targets of a job's programs. -/
def scatterTensors (ps : List Program) : List Nat :=
  ((ps.map (·.descs)).flatten.filter fun d => d.kind == 0x03 && d.f 133 132 == 2).map fun d => d.f 223 192

def State.tableCreateBads (s : State) (j : Job) (b : List Byte) : List Bad :=
  let h := leAt b 0 64
  let p := bits h 127 112
  let pos := leList 2 p (slice b 64 (2 * p))
  let w := bits h 44 32
  let g := bits h 105 96
  let grad := bits h 223 192
  if b.length < 64 ∨ b.length ≠ 64 + 2 * p then [.length]
  else
    need ((j.table? (bits h 11 0)).isNone) (.field 0) ++ need (bits h 15 12 == 0) (.field 1) ++ need (decide (bits h 17 16 ≤ 2)) (.field 2)
      ++ need (bits h 31 24 == 0) (.field 3) ++ need (within 1 4096 w) (.field 4) ++ need (bits h 47 45 == 0) (.field 5) ++ need (bits h 95 88 == 0) (.field 11)
      ++ need (j.groupBads g (j.group g) true 0 == []) (.field 12) ++ need (bits h 111 106 == 0) (.field 13) ++ need (bits h 143 128 == 0) (.field 16)
      ++ need (grad == 0xFFFFFFFF || ((j.tensor? grad).isSome && !(j.body.tables.any fun t => t.grad == grad) && !(scatterTensors j.programs).contains grad)) (.field 24)
      ++ need (bits h 511 224 == 0) (.field 28)
      ++ ((List.range p).map fun i => need (j.positions.contains (nth pos i)) (.field (64 + 2 * i))).flatten
      ++ need (decide (bits h 21 20 ≤ bits h 19 18) && decide (bits h 19 18 ≤ bits h 23 22)) (.rel 2)
      ++ need (match bits h 17 16 with | 0 => within 1 1024 p | 1 => within 1 (ceilDiv (16 * ceilDiv w 16) 32) p | _ => p == 1) (.field 14)
      ++ need (decide (bits h 175 160 ≤ bits h 159 144)) (.rel 18) ++ need (decide (bits h 191 176 ≤ bits h 175 160)) (.rel 20)
      ++ need (noDup pos) (.rel 64)
      ++ need (decide (sum (s.jobs.map fun j => j.body.tables.length) < 4096)) .space

/-- A table as created: edition 1 current, every page absent (R132). -/
def newTable (b : List Byte) (accept : Nat) : Table :=
  let h := leAt b 0 64
  let p := bits h 127 112
  { id := bits h 11 0, accept := accept, grad := bits h 223 192, hot8 := bits h 191 176, hot16 := bits h 175 160, hot32 := bits h 159 144,
    positions := leList 2 p (slice b 64 (2 * p)), group := bits h 105 96, rows := bits h 87 48 + 1, width := bits h 44 32, narrowest := bits h 23 22,
    widest := bits h 21 20, init := bits h 19 18, placement := bits h 17 16, edition := 1, previous := none, replaced := [], classes := [], annex := [],
    stagedPages := [], staged := [], deferred := false }

/-- Run a command that needs its job. -/
def State.jobCommand (s : State) (q opcode : Nat) (form : Command → Bool) (check : State → Job → List Byte → List Bad)
    (effect : State → Job → InFlight → State) : State :=
  s.runCommand q opcode form
    (fun s f => match s.jobOf f with | some j => check s j f.cmd.payload | none => [.header])
    (fun s f => match s.jobOf f with | some j => effect s j f | none => s)

/-- TABLE_CREATE (R138). -/
def execTableCreate (q : Nat) (s : State) : Host.Outcome State Fault Refusal :=
  .next (s.jobCommand q 0x10 (fun _ => true) State.tableCreateBads fun s j f =>
    (s.updBody j.slot fun b => { b with tables := b.tables ++ [newTable f.cmd.payload (f.accept.getD 0)] }).done f .ok [])

/-! ### TABLE_LOAD (R133, R139, R267) -/

/-- Fields of a `TABLE_LOAD` head (Table 06-8). -/
structure LoadHead where
  table : Nat
  cls : Nat
  staging : Bool
  state : Bool
  annex : Bool
  first : Nat
  count : Nat
  deriving DecidableEq, Repr

def loadHead (b : List Byte) : LoadHead :=
  let h := leAt b 0 32
  { table := bits h 11 0, cls := bits h 13 12, staging := bit h 15, state := bit h 16, annex := bit h 17, first := bits h 63 24, count := bits h 79 64 }

/-- Bytes of a row record (R139). -/
def recordBytes (wp cls : Nat) : Nat := 8 + wp * (classType cls).bits / 8

/-- A record's row, its state word in it; padding beyond the width is stored as zero (R117). -/
def readRecord (width wp : Nat) (h : LoadHead) (rule : Nat) (d : List Byte) : RowData :=
  let p := leAt d 0 4
  let es := (unpackElems (classType h.cls).bits wp (d.drop 8)).take width ++ List.replicate (wp - width) 0
  { cls := h.cls, elems := es, scale := if h.cls = 2 then p % 256 else 0, a := if h.cls = 3 then p % 65536 else 0, b := if h.cls = 3 then p / 65536 else 0,
    touch := 0, rule := if h.state && rule == 2 then leAt d 4 4 else 0, m := [], v := [] }

/-- Faults of the head of a record at an offset (R139, R197, R230). -/
def recordBads (h : LoadHead) (rule base : Nat) (d : List Byte) : List Bad :=
  let p := leAt d 0 4
  (match h.cls with
    | 2 => need (p % 256 != 255) (.field base) ++ need (p / 256 == 0) (.field (base + 1))
    | 3 => []
    | _ => need (p == 0) (.field base))
  ++ need (rule == 2 || leAt d 4 4 == 0) (.field (base + 4))

/-- Pages a load covers. -/
def LoadHead.pages (h : LoadHead) : List Nat := (List.range ((h.first + h.count - 1) / 32 - h.first / 32 + 1)).map fun i => h.first / 32 + i

def LoadHead.covers (h : LoadHead) (t : Table) (page : Nat) : Bool :=
  decide (h.first ≤ 32 * page) && decide (min t.rows (32 * page + 32) ≤ h.first + h.count)

/-- Apply a load, its target `CURRENT` being the edition current when it was accepted (R133, R134, R139, R267). -/
def State.applyLoad (s : State) (slot : Nat) (b : List Byte) (ed : Nat) : State :=
  let h := loadHead b
  match s.job? slot with
  | none => s
  | some j =>
    match j.table? h.table with
    | none => s
    | some t =>
      if h.annex then
        let marks := h.pages.map fun p => (t.owner ed p, p)
        let s := marks.foldl (fun s m => s.annexPage slot t.id m.1 m.2) s
        s.updBody slot fun b => { (b.updTable t.id fun t => { t with annex := (t.annex.filter fun a => !marks.contains a) ++ marks }) with
          shelf := b.shelf.filter fun x => !(x.table == t.id && marks.contains (x.edition, x.row / 32)) }
      else
        let rb := recordBytes t.wp h.cls
        let g := j.group t.group
        let rule := g.rule
        let recOf (r : Nat) : RowData := readRecord t.width t.wp h rule (slice b (32 + rb * (r - h.first)) rb)
        if h.staging then
          h.pages.foldl (fun s p =>
            let cls := t.cls t.edition p
            let rows := ((List.range 32).map fun i => 32 * p + i).filter fun r =>
              decide (h.first ≤ r) && decide (r < h.first + h.count) && (s.columns t r).isSome
            if rows = [] then s else
            s.updBody slot fun b => b.updTable t.id fun t =>
              let pc := (aGet t.stagedPages p).getD cls
              { t with stagedPages := aSet t.stagedPages p pc,
                       staged := t.staged.filter (fun x => !rows.contains x.row) ++ rows.map fun r =>
                         let (c0, n) := (s.columns t r).getD (0, 0)
                         let d := recOf r
                         let d := { d with elems := (d.elems.drop c0).take n, m := [], v := [] }
                         { row := r, state := h.state, data := d.recode pc (fun _ => .nearest) (s.realColumns t r) } }) s
        else
          -- a load of a whole annex-held page makes it device-held again
          let s := s.updBody slot fun b => b.updTable t.id fun t =>
            { t with annex := t.annex.filter fun a => !(h.pages.contains a.2 && h.covers t a.2 && a.1 == t.owner ed a.2) }
          h.pages.foldl (fun s p =>
            match s.job? slot with
            | none => s
            | some j =>
              match j.table? t.id with
              | none => s
              | some t =>
                let own := t.owner ed p
                let cls := t.cls ed p
                let here := ((List.range 32).map fun i => 32 * p + i).filter fun r =>
                  decide (h.first ≤ r) && decide (r < h.first + h.count) && (s.columns t r).isSome
                if here = [] then s
                else
                  let old := s.readPage j t ed p
                  let fresh (r : Nat) : RowData :=
                    let o := match j.body.shelved? t.id own r with | some x => x.data | none => old.getD (r % 32) (RowData.zero cls 0 0)
                    let (c0, n) := (s.columns t r).getD (0, 0)
                    let d := recOf r
                    let d := ({ d with elems := (d.elems.drop c0).take n } : RowData).recode cls (fun _ => .nearest) (s.realColumns t r)
                    { d with touch := o.touch, rule := if h.state then d.rule else if rule = 2 then o.rule else 0,
                                                 m := [], v := [] }
                  let rows := (List.range 32).map fun i => if here.contains (32 * p + i) then fresh (32 * p + i) else old.getD i (RowData.zero cls 0 0)
                  let s := s.writePage j t g own p cls rows none
                  let put (x : ShelfRow) : ShelfRow := if x.table = t.id ∧ x.edition = own ∧ here.contains x.row then { x with data := fresh x.row } else x
                  s.updBody slot fun b => { b with shelf := b.shelf.map put }) s

/-- Pages of the current edition of a table that are annex-held once every load accepted so far has taken effect (R267). -/
def State.annexAfter (_ : State) (j : Job) (t : Table) : List Nat :=
  let now := (t.annex.filter fun a => a.1 == t.owner t.edition a.2).map (·.2)
  (j.deferred.filter fun d => d.opcode == 0x11 && (loadHead d.payload).table == t.id && d.edition == t.edition).foldl (fun l d =>
    let h := loadHead d.payload
    if h.annex then (l.filter fun p => !h.pages.contains p) ++ h.pages else l.filter fun p => !(h.pages.contains p && h.covers t p)) now

/-- Whether a page that a load writes is being moved between tiers: the load writes after the move commits (R266). -/
def State.loadMoves (s : State) (j : Job) (b : List Byte) (ed : Nat) : Bool :=
  let h := loadHead b
  match j.table? h.table with
  | some t => !h.staging && h.pages.any fun p => s.tiers.tiles.any fun x => inPage j.slot t.id (t.owner ed p) p x.key && (x.promoting || x.evicting)
  | none => false

/-- Faults of a `TABLE_LOAD` (R139, R267, R275): the table is looked up first, since the length follows from its width. -/
def State.tableLoadBads (s : State) (j : Job) (b : List Byte) : List Bad :=
  let n := leAt b 0 32
  let h := loadHead b
  if b.length < 32 then [.length]
  else
    match j.table? h.table with
    | none => [.field 0]
    | some t =>
      let rb := recordBytes t.wp h.cls
      let rule := (j.group t.group).rule
      let held := s.annexAfter j t
      if b.length ≠ (if h.annex then 32 else 32 + h.count * rb) then [.length]
      else
        let fields := need (bits n 14 14 == 0) (.field 1) ++ need (bits n 23 18 == 0) (.field 2) ++ need (decide (h.first < t.rows)) (.field 3)
          ++ need (decide (0 < h.count)) (.field 8) ++ need (bits n 255 80 == 0) (.field 10)
          ++ (if h.annex then
                need (!h.staging) (.field 1) ++ need (h.first % 32 == 0) (.field 3) ++ need (h.count % 32 == 0 || decide (t.rows ≤ h.first + h.count)) (.field 8)
              else ((List.range h.count).map fun i => recordBads h rule (32 + rb * i) (slice b (32 + rb * i) rb)).flatten)
          ++ need (decide (h.first + h.count ≤ t.rows)) (.rel 3)
        if fields ≠ [] then fields
        else
          need (h.annex || h.pages.all fun p => !held.contains p || h.covers t p) (.rel 3)
            ++ need (!(h.staging && t.deferred)) .space ++ s.spaceBad (s.applyLoad j.slot b t.edition)

/-- Perform what was accepted for an acceptance point: at once where nothing earlier is in flight, else after the last step accepted before it and its refresh,
and for a load of a page that is being moved after the move too (R31, R133, R266). -/
def State.atPoint (s : State) (j : Job) (f : InFlight) (now : State → State) : State :=
  let ed := if f.cmd.opcode = 0x11 then ((j.table? (loadHead f.cmd.payload).table).map (·.edition)).getD 0 else 0
  if j.steps.isEmpty && j.deferred.isEmpty && !(f.cmd.opcode == 0x11 && s.loadMoves j f.cmd.payload ed) then (now s).done f .ok []
  else s.updJob j.slot fun j =>
    let d : Deferred :=
      { accept := f.accept.getD 0, asker := f.asker, opcode := f.cmd.opcode, payload := f.cmd.payload, after := (j.steps.getLast?).map (·.num), edition := ed }
    { j with deferred := j.deferred ++ [d] }

/-- Either target of a `TABLE_LOAD`: the staging area takes its rows at once. -/
def State.tableLoad (s : State) (q : Nat) (annex : Bool) : State :=
  s.jobCommand q 0x11 (fun c => (loadHead c.payload).annex == annex) State.tableLoadBads fun s j f =>
    let ed := ((j.table? (loadHead f.cmd.payload).table).map (·.edition)).getD 0
    if (loadHead f.cmd.payload).staging then (s.applyLoad j.slot f.cmd.payload ed).done f .ok []
    else s.atPoint j f fun s => s.applyLoad j.slot f.cmd.payload ed

/-- TABLE_LOAD (R139). -/
def execTableLoad (q : Nat) (s : State) : Host.Outcome State Fault Refusal := .next (s.tableLoad q false)

/-- TABLE_LOAD_ANNEX (R139, R267). -/
def execTableLoadAnnex (q : Nat) (s : State) : Host.Outcome State Fault Refusal := .next (s.tableLoad q true)

/-! ### EDITION_PUBLISH (R136, R140) -/

def publishMode (b : List Byte) : Nat := bits (leAt b 0 32) 17 16

def State.publishBads (_ : State) (j : Job) (b : List Byte) : List Bad :=
  let n := leAt b 0 32
  if b.length ≠ 32 then [.length]
  else
    need (bits n 15 12 == 0) (.field 1) ++ need (decide (publishMode b ≤ 1)) (.field 2) ++ need (bits n 255 18 == 0) (.field 2)
      ++ match j.table? (bits n 11 0) with
        | none => [.field 0]
        | some t => if publishMode b = 0 then need (!t.stagedPages.isEmpty && !t.deferred) .state else []

/-- EDITION_PUBLISH in mode PUBLISH (R136). -/
def execEditionPublish (q : Nat) (s : State) : Host.Outcome State Fault Refusal :=
  .next (s.jobCommand q 0x12 (fun c => publishMode c.payload != 1) State.publishBads fun s j f =>
    let t := bits (leAt f.cmd.payload 0 32) 11 0
    match (j.table? t).bind (·.previous) with
    | none => (s.publish j.slot t).retireEditions j.slot |>.done f .ok []
    | some _ =>
      ((s.updBody j.slot fun b => b.updTable t fun t => { t with deferred := true }).raiseJob 0x6006 j.slot 0 t (((j.table? t).map (·.edition)).getD 0 + 1) 0).done f .deferred [])

/-- EDITION_PUBLISH in mode DISCARD (R136). -/
def execDiscard (q : Nat) (s : State) : Host.Outcome State Fault Refusal :=
  .next (s.jobCommand q 0x12 (fun c => publishMode c.payload == 1) State.publishBads fun s j f =>
    (s.updBody j.slot fun b => b.updTable (bits (leAt f.cmd.payload 0 32) 11 0) fun t => { t with staged := [], stagedPages := [], deferred := false }).done f .ok [])

/-! ### SHELF_SET (R141) -/

def shelfMode (b : List Byte) : Nat := bits (leAt b 0 32) 1 0

def shelfEntries (b : List Byte) : List (Nat × Nat) :=
  (List.range (leAt b 4 2)).map fun i => let e := leAt b (32 + 8 * i) 8; (bits e 51 40, bits e 39 0)

def State.shelfBads (_ : State) (_ : Job) (b : List Byte) : List Bad :=
  let n := leAt b 0 32
  let c := bits n 47 32
  if b.length < 32 ∨ b.length ≠ 32 + 8 * c then [.length]
  else
    need (decide (shelfMode b ≤ 2)) (.field 0) ++ need (bits n 31 2 == 0) (.field 0) ++ need (within 1 2036 c) (.field 4) ++ need (bits n 255 48 == 0) (.field 6)
      ++ ((List.range c).map fun i => need (bits (leAt b (32 + 8 * i) 8) 63 52 == 0) (.field (38 + 8 * i))).flatten

def State.shelfSet (s : State) (q mode : Nat) (f : List (Nat × Nat) → List (Nat × Nat) → List (Nat × Nat)) : State :=
  s.jobCommand q 0x13 (fun c => shelfMode c.payload == mode || (mode == 0 && shelfMode c.payload == 3)) State.shelfBads fun s j g =>
    (s.updBody j.slot fun b => { b with shelfSet := f b.shelfSet (shelfEntries g.cmd.payload) }).done g .ok []

/-- SHELF_SET in mode REPLACE (R141). -/
def execShelfReplace (q : Nat) (s : State) : Host.Outcome State Fault Refusal := .next (s.shelfSet q 0 fun _ new => new)
/-- SHELF_SET in mode ADD (R141). -/
def execShelfAdd (q : Nat) (s : State) : Host.Outcome State Fault Refusal := .next (s.shelfSet q 1 fun old new => old ++ new)
/-- SHELF_SET in mode REMOVE (R141). -/
def execShelfRemove (q : Nat) (s : State) : Host.Outcome State Fault Refusal := .next (s.shelfSet q 2 fun old new => old.filter fun e => !new.contains e)

end Sys2Proof.Machine
end

