-- ==== Sys2Proof/Machine/JobOpen.lean ====
section
/-!
DEFINITION. Opening and resuming jobs: the payload's sections, every record check, and the job as opened (R45, R199, R200, R217, R222, R237 to R243, R279,
R280, R491).
-/
namespace Sys2Proof.Machine
open Sys2Proof

/-! ### The payload (Tables 14-7 and 14-8) -/

/-- A directory entry, with its own offset in the payload. -/
structure Section where
  at' : Nat
  kind : Nat
  count : Nat
  off : Nat
  len : Nat
  deriving DecidableEq, Repr

/-- Sections a payload's head counts. -/
def sectionCount (b : List Byte) : Nat := leAt b 12 1

/-- The directory. -/
def sectionsOf (b : List Byte) : List Section :=
  (List.range (sectionCount b)).map fun i =>
    let e := leAt b (64 + 16 * i) 16
    { at' := 64 + 16 * i, kind := bits e 7 0, count := bits e 63 32, off := bits e 95 64, len := bits e 127 96 }

def sectionOf? (b : List Byte) (kind : Nat) : Option Section := (sectionsOf b).find? fun x => x.kind == kind

/-- Bytes of a record, and the least and most records a section holds. -/
def sectionForm : Nat → Option (Nat × Nat × Nat)
  | 1 => some (2, 1, 1024)
  | 2 => some (2, 1, 4096)
  | 3 => some (4, 256, 256)
  | 4 => some (0, 1, 1)
  | 5 => some (32, 0, 65536)
  | 6 => some (32, 0, 4096)
  | 7 => some (32, 0, 65536)
  | 8 => some (72, 0, 1024)
  | 9 => some (32, 0, 1)
  | 10 => some (32, 0, 1024)
  | 11 => some (32, 0, 16)
  | 12 => some (4, 0, 16)
  | _ => none

/-- Records of a section as numbers, each with its offset in the payload. -/
def recordsOf (b : List Byte) (kind : Nat) : List (Nat × Nat) :=
  match sectionOf? b kind, sectionForm kind with
  | some x, some (w, _, _) => (List.range x.count).map fun i => (x.off + w * i, leAt b (x.off + w * i) w)
  | _, _ => []

def recordWords (b : List Byte) (kind : Nat) : List Nat := (recordsOf b kind).map (·.2)

/-- First byte of a section, zero where it is absent. -/
def sectionAt (b : List Byte) (kind : Nat) : Nat := ((sectionOf? b kind).map (·.off)).getD 0

/-- Bytes of the program set. -/
def setBytes (b : List Byte) : List Byte := match sectionOf? b 4 with | some x => slice b x.off x.len | none => []

def openKey (b : List Byte) : Nat := leAt b 0 8
def openResume (b : List Byte) : Bool := bit (leAt b 8 1) 0
def openRestore (b : List Byte) : Bool := bit (leAt b 8 1) 1
def openEventQueue (b : List Byte) : Nat := leAt b 10 2
def openQueues (b : List Byte) : List Nat := recordWords b 1
def openPositions (b : List Byte) : List Nat := recordWords b 2

/-- The directory's own rules (R279): lengths, listed kinds, counts, alignment, order and overlap. -/
def directoryBads (b : List Byte) : List Bad :=
  let n := sectionCount b
  let l := sectionsOf b
  if b.length < 64 then [.length]
  else if within 1 12 n = false then [.field 12]
  else if b.length < 64 + 16 * n then [.length]
  else
    (l.map fun x =>
      match sectionForm x.kind with
      | none => [Bad.field x.at']
      | some (w, lo, hi) =>
        let e := leAt b x.at' 16
        need (bits e 31 8 == 0) (.field (x.at' + 1)) ++ need (within lo hi x.count) (.field (x.at' + 4)) ++ need (x.off % 8 == 0) (.field (x.at' + 8))
          ++ need (decide (x.len = 0 ∨ 64 + 16 * n ≤ x.off)) (.rel x.at')
          ++ need (if x.kind = 4 then decide (64 ≤ x.len) && x.len == leAt b (x.off + 4) 4 else x.len == w * x.count) .length
          ++ need (decide (x.off + x.len ≤ b.length)) .length).flatten
      ++ ((List.range l.length).map fun i => (List.range i).map fun j =>
          match l[i]?, l[j]? with
          | some x, some y =>
            need (decide (x.kind ≠ y.kind)) (.rel x.at') ++ need (decide (x.len = 0 ∨ y.len = 0 ∨ x.off + x.len ≤ y.off ∨ y.off + y.len ≤ x.off)) (.rel x.at')
          | _, _ => []).flatten.flatten

/-- The head's fields (Table 14-7). -/
def openHeadBads (b : List Byte) : List Bad :=
  let h := leAt b 0 64
  need (bits h 79 66 == 0) (.field 8) ++ need (bits h 511 104 == 0) (.field 13)

/-- The queue list: ids in range, the arrival queue among them, the event queue among them, and none bound elsewhere (R279). -/
def State.queueListBads (s : State) (f : InFlight) (job : Option Nat) : List Bad :=
  let b := f.cmd.payload
  ((recordsOf b 1).map fun (o, q) =>
      need (decide (q < 1024)) (.field o)
        ++ need (decide ((s.queue q).job = none ∨ (s.queue q).job = job)
            && (decide ((s.queue q).session = 0) || decide ((s.queue q).session = f.cmd.session))) (.field o)).flatten
    ++ need ((openQueues b).contains (openEventQueue b)) (.rel 10) ++ need ((openQueues b).contains f.cmd.queue) (.rel (sectionAt b 1))

/-! ### The role map (R43 to R45, R238) -/

/-- Programs that a role map word names, by half: role and program index of each role held. -/
def roleHalves (w : Nat) : List (Nat × Nat) :=
  (if roleA w = 0 then [] else [(roleA w, progA w)]) ++ (if roleB w = 0 then [] else [(roleB w, progB w)])

/-- What is at fault in a word by itself, at its place in the payload: fields outside Tables 03-2 and 03-3, then R45's conditions given the programs of the
job it serves. Each field counts at its first byte, and the two sums at the entry's (R278). -/
def roleWordBads (ps : List Program) (w o : Nat) : List Bad :=
  need (decide (roleA w ≤ 6) && decide (roleB w ≤ 6)) (.field o) ++ need (bits w 31 26 == 0) (.field (o + 3))
    ++ (if roleA w = 0 then need (w == 0) (.rel o)
        else
          need ((roleHalves w).all fun (r, p) => match ps[p]? with | some g => g.role == r | none => false) (.rel (o + 1))
            ++ need (decide (sum ((roleHalves w).map fun h => (ps[h.2]?.map (·.carrel)).getD 0) ≤ 131072)
                && decide (sum ((roleHalves w).map fun h => (ps[h.2]?.map (·.slips)).getD 0) ≤ 1024)) (.rel o))

/-- R238 and R243 for one word: in a pipelined job an `AGGREGATE` or `TRANSFORM` tile holds one role and group in both halves, with a group below V; a
`BRANCH` tile holds role 6 in both halves with its branch's programs; `SAMPLER` and `GATHER` stand on rank 0 alone (R239). -/
def roleStageOk (pipelined : Bool) (v rank : Nat) (branches : List Nat) (w : Nat) : Bool :=
  let staged (r : Nat) := r == 3 || r == 4
  (!pipelined || !(staged (roleA w) || staged (roleB w)) || (roleA w == roleB w && groupA w == groupB w && decide (groupA w < v)))
    && (!(roleA w == 6 || roleB w == 6) || branches.isEmpty
        || (match branches.find? fun x => bits x 3 0 == groupA w with
            | some x => roleA w == roleB w && groupA w == groupB w && progA w == bits x 19 16 && progB w == bits x 23 20
            | none => false))
    && (rank == 0 || !((roleA w == 1 || roleA w == 2) || (roleB w == 1 || roleB w == 2)))

/-! ### Records of tensors, layers, parameters and groups -/

/-- Whether a type code is one a tensor record or a group may name as a float or integer stored type (Table 07-1). -/
def typeListed (n : Nat) : Bool := (elemType? n).isSome

/-- Rungs above a type (R200): 1 BF16, 2 FP32. -/
def rungsAbove (t : ElemType) : List Nat :=
  match t with
  | .fp32 => []
  | .bf16 | .fp16 => [2]
  | .e4m3 | .e5m2 | .int8 => [1, 2]
  | _ => []

def tensorBads (b : List Byte) : List Bad :=
  let rs := recordsOf b 5
  (rs.map fun (o, w) =>
      need (typeListed (bits w 4 0)) (.field o) ++ need (bits w 18 17 == 0) (.field (o + 2)) ++ need (decide (tRecTensor w < 0xFFFFF000)) (.field (o + 4))
        ++ need (decide (tRecScope w ≤ 2)) (.field (o + 8)) ++ need (bits w 255 66 == 0) (.field (o + 8))).flatten
    ++ need (noDup (rs.map fun r => tRecTensor r.2)) (.rel (sectionAt b 5))
    ++ (rs.map fun (o, w) =>
        let t := tRecTensor w
        need (!(recordWords b 12).contains t || tRecScope w == 1) (.rel o)
          ++ need (!((recordWords b 10).any fun x => sRecFwd x == some t || sRecBwd x == some t) || tRecScope w == 2) (.rel o)
          ++ need (!((recordWords b 7).any fun p => pRecTensor p == t) || tRecScope w == 0) (.rel o)
          ++ need ((rs.all fun r => tRecLayer r.2 != tRecLayer w || (tRecLayer w).isNone || tRecType r.2 == tRecType w)) (.rel o)).flatten

/-- Fields of a layer record (Table 10-4). -/
def lRecProd (w : Nat) : Nat × Nat := (bits w 19 16, bits w 23 20)
def lRecCons (w : Nat) : Nat × Nat := (bits w 35 32, bits w 39 36)
def lRecProdProg (w rung : Nat) : Nat := if rung = 1 then bits w 27 24 else bits w 31 28
def lRecConsProg (w rung : Nat) : Nat := if rung = 1 then bits w 43 40 else bits w 47 44

/-- Programs of a role and group on the tiles of a role map. -/
def programsHeld (words : List Nat) (role group : Nat) : List Nat := ((words.map fun w => (halvesFor w role group).map (·.2)).flatten)

/-- Whether a variant program may stand in for those a role and group run (R200). -/
def variantOk (ps : List Program) (words : List Nat) (rg : Nat × Nat) (p : Nat) : Bool :=
  match ps[p]? with
  | none => false
  | some g =>
    g.role == rg.1 && (programsHeld words rg.1 rg.2).all fun q =>
      match ps[q]? with
      | some old => decide (g.carrel ≤ old.carrel) && decide (g.slips ≤ old.slips)
      | none => true

def layerBads (b : List Byte) (ps : List Program) (words : List Nat) : List Bad :=
  let rs := recordsOf b 6
  (rs.map fun (o, w) =>
      let top := lRecTop w
      let work := ((recordWords b 5).find? fun t => tRecLayer t == some (lRecLayer w)).map tRecType
      let above := (work.map rungsAbove).getD [1, 2]
      need (bits w 15 12 == 0) (.field (o + 1)) ++ need (within 1 6 (lRecProd w).1) (.field (o + 2)) ++ need (decide ((lRecCons w).1 ≤ 6)) (.field (o + 4))
        ++ need (decide (top ≤ 2)) (.field (o + 6)) ++ need (bits w 255 50 == 0) (.field (o + 6))
        ++ need (top == 0 || above.contains top) (.rel o)
        ++ need ([1, 2].all fun r => decide (r ≤ top) || (lRecProdProg w r == 0 && lRecConsProg w r == 0)) (.rel o)
        ++ need ((above.filter fun r => decide (r ≤ top)).all fun r =>
              variantOk ps words (lRecProd w) (lRecProdProg w r) && ((lRecCons w).1 == 0 || variantOk ps words (lRecCons w) (lRecConsProg w r))) (.rel o)).flatten
    ++ need (noDup (rs.map fun r => lRecLayer r.2)) (.rel (sectionAt b 6))

/-- The row of a group that a `GROUPS` section carries; zeros where it has none (R221). -/
def openGroup (b : List Byte) (g : Nat) : GroupRow :=
  match (recordWords b 8).find? fun w => bits w 15 0 == g with
  | some w => ⟨bits w 575 64⟩
  | none => ⟨0⟩

def paramBads (b : List Byte) : List Bad :=
  let rs := recordsOf b 7
  (rs.map fun (o, w) =>
      need (bits w 21 0 == 0) (.field o) ++ need (bits w 47 44 == 0) (.field (o + 5)) ++ need ((openPositions b).contains (pRecOwner w)) (.rel o)
        ++ need (decide (pRecTensor w < 0xFFFFF000)) (.field (o + 12)) ++ need (bits w 255 128 == 0) (.field (o + 16))
        ++ need (match (recordWords b 5).find? fun t => tRecTensor t == pRecTensor w with
            | some t => tRecType t == elemType (openGroup b (pRecGroup w)).workCode
            | none => true) (.rel o)).flatten
    ++ need (noDup (rs.map fun r => pRecTensor r.2)) (.rel (sectionAt b 7))

/-- Group records: their number, their row's fields, and the rules of R222 against the job as it will open. -/
def openGroupBads (b : List Byte) (j : Job) : List Bad :=
  let rs := recordsOf b 8
  (rs.map fun (o, w) =>
      let r : GroupRow := ⟨bits w 575 64⟩
      need (decide (bits w 15 0 < 1024)) (.field o) ++ need (bits w 63 16 == 0) (.field (o + 2)) ++ r.fieldBads (o + 8)
        ++ j.groupBads (bits w 15 0) r false (o + 8)).flatten
    ++ need (noDup (rs.map fun r => bits r.2 15 0)) (.rel (sectionAt b 8))
    ++ ((recordsOf b 7).map fun (o, w) => need (j.groupBads (pRecGroup w) (openGroup b (pRecGroup w)) false 0 == []) (.rel o)).flatten

/-! ### Pipeline, stages and branches (R237 to R243) -/

def pipeRanks (w : Option Nat) : Nat := match w with | some w => bits w 5 0 + 1 | none => 1
def pipeStages (w : Option Nat) : Nat := match w with | some w => bits w 10 8 + 1 | none => 1
def pipeReplicas (w : Option Nat) (n : Nat) : Nat := match w with | some w => bits w 23 16 + 1 | none => n

def pipelineBads (b : List Byte) : List Bad :=
  let p := (recordWords b 9).head?
  let o := sectionAt b 9
  let s := pipeRanks p * pipeStages p
  let st := recordsOf b 10
  (match p with
   | some w => need (bits w 7 6 == 0) (.field o) ++ need (bits w 15 11 == 0) (.field (o + 1)) ++ need (bits w 255 24 == 0) (.field (o + 3))
       ++ need ((openPositions b).length == pipeRanks p * pipeReplicas p 1) (.rel o)
   | none => [])
    ++ (st.map fun (o, w) =>
        let n := sRecStage w
        need (decide (n < s)) (.rel o) ++ need (bits w 31 18 == 0) (.field (o + 2)) ++ need (bit w 16 || bits w 63 32 == 0) (.rel o)
          ++ need (bit w 17 || bits w 95 64 == 0) (.rel o) ++ need (bits w 255 96 == 0) (.field (o + 12))
          ++ need (bit w 16 == decide (n + 1 < s)) (.rel o) ++ need (bit w 17 == decide (0 < n)) (.rel o)).flatten
    ++ need (if p.isNone then st.isEmpty || (st.length == 1 && noDup (st.map fun r => sRecStage r.2))
             else st.length == s && noDup (st.map fun r => sRecStage r.2)) (.rel (sectionAt b 10))

def branchBads (b : List Byte) (ps : List Program) (words : List Nat) : List Bad :=
  let rs := recordsOf b 11
  let v := pipeStages (recordWords b 9).head?
  (rs.map fun (o, w) =>
      let fp := bits w 19 16
      let bp := bits w 23 20
      let held := words.filter fun x => (roleA x == 6 && groupA x == bits w 3 0) || (roleB x == 6 && groupB x == bits w 3 0)
      need (bits w 7 4 == 0) (.field o) ++ need (bits w 15 12 == 0) (.field (o + 1)) ++ need (bits w 31 24 == 0) (.field (o + 3))
        ++ need (bits w 47 44 == 0) (.field (o + 5)) ++ need (within 1 4096 (bits w 63 48)) (.field (o + 6)) ++ need (within 1 256 (bits w 72 64)) (.field (o + 8))
        ++ need (bits w 255 73 == 0) (.field (o + 9)) ++ need (decide (bits w 11 8 < v)) (.rel o)
        ++ need ([fp, bp].all fun p => match ps[p]? with | some g => g.role == 6 | none => false) (.rel o)
        ++ need ((recordWords b 6).any fun l => lRecLayer l == bits w 43 32) (.rel o)
        ++ need (decide (sum ([fp, bp].map fun p => (ps[p]?.map (·.carrel)).getD 0) ≤ 131072)
              && decide (sum ([fp, bp].map fun p => (ps[p]?.map (·.slips)).getD 0) ≤ 1024)) (.rel o)
        ++ need (decide (bits w 72 64 ≤ held.length)) (.rel o)).flatten
    ++ need (noDup (rs.map fun r => bits r.2 3 0)) (.rel (sectionAt b 11))

/-! ### The job as opened -/

/-- The lowest job slot free (R279). -/
def State.freeSlot (s : State) : Nat := ((List.range 4).find? fun i => (s.job? i).isNone).getD 0

/-- Role map words with the assigned slot written into them (R279). -/
def filledWords (b : List Byte) (slot : Nat) : List Nat :=
  (recordWords b 3).map fun w => if roleA w = 0 then w else w + slot * 2 ^ 24

/-- The empty body of a fresh job. -/
def JobBody.fresh (params : List Nat) (dict : List (Nat × DVal)) : JobBody :=
  { graphs := [], features := [], tables := [], shelf := [], shelfSet := [], suggestions := [],
    params := params.map fun w => { rec' := w, master := [], m := [], v := [] },
    held := [], calls := [], nextCall := 0, watches := [], results := [], dict := dict, rowWrites := [], freezes := [], health := [], counters := [], nextStep := 0, lastDone := none }

/-- The job that an open asks for, before its checks. -/
def State.jobAsked (s : State) (f : InFlight) : Job :=
  let b := f.cmd.payload
  let rows := (recordWords b 8).map fun w => (entryKey (groupKey (bits w 15 0)).1 (groupKey (bits w 15 0)).2, DVal.blk (toLE 64 (bits w 575 64)))
  { slot := s.freeSlot, key := openKey b, tenant := ((s.live? f.cmd.session).map (·.tenant)).getD [], holder := some f.cmd.session,
    state := if openRestore b then .restoring else .running, queues := openQueues b, eventQueue := openEventQueue b, positions := openPositions b,
    fenced := false, accepted := 0, programs := (programsOf (setBytes b)).map (·.2), setId := leAt (setBytes b) 16 8,
    tensors := recordWords b 5, layers := recordWords b 6, pipeline := (recordWords b 9).head?, stages := recordWords b 10,
    branches := recordWords b 11, resultTensors := recordWords b 12, body := JobBody.fresh (recordWords b 7) rows, log := [], logEnd := 0, steps := [], signals := [],
    deferred := [], retained := [], owed := [], deposit := none, taking := none, depositAt := 0, takingAt := 0, costs := [], early := false, full := true, nextChunk := 0, fragments := [], exported := none,
    shelfCap := (dfltOf 0x6100 1).toNat, interval := (dfltOf 0x7120 7).toNat }

/-- Where this module stands in a position list; rank 0 where it is not listed (R238). -/
def rankIn (positions : List Nat) (ranks p : Nat) : Nat := ((positions.findIdx? (· == p)).getD 0) % ranks

/-- R45 and R238 for the role map section. -/
def State.roleSectionBads (s : State) (b : List Byte) (ps : List Program) : List Bad :=
  let p := (recordWords b 9).head?
  let rank := rankIn (openPositions b) (pipeRanks p) s.fabric.position
  let piped := decide (1 < pipeRanks p ∨ 1 < pipeStages p)
  ((List.range 256).map fun t =>
      match (recordsOf b 3)[t]? with
      | none => []
      | some (o, w) =>
        need (roleSlot w == 0) (.field (o + 3)) ++ roleWordBads ps w o
          ++ need (roleStageOk piped (pipeStages p) rank (recordWords b 11) w) (.rel o)
          ++ need (roleA (s.roleWord t) == 0 || w == 0) (.field (o + 3))).flatten

/-- Every check of a fresh or restored `JOB_OPEN` (R279). -/
def State.openBads (s : State) (f : InFlight) : List Bad :=
  let b := f.cmd.payload
  let dir := directoryBads b
  if dir.contains .length || !within 1 12 (sectionCount b) then dir
  else
    let ps := (programsOf (setBytes b)).map (·.2)
    let words := recordWords b 3
    let d (i : Nat) := (dfltOf 0x4820 i).toNat
    let given (k : Nat) : Bool := (sectionOf? b k).isSome
    dir ++ openHeadBads b ++ need (given 1 && given 2 && given 4) (.rel 12) ++ (if given 1 then s.queueListBads f none else [])
      ++ ((recordsOf b 2).map fun (o, p) => need (decide (p ≤ 0x0EFF)) (.field o)).flatten
      ++ (if given 4 then
            setBads (setBytes b) (sectionAt b 4) s.sec.numericsGen (d 3) (d 1) (d 2) ++ unitBads (setBytes b) (sectionAt b 4) ((recordWords b 7).map pRecTensor)
              ++ s.roleSectionBads b ps ++ layerBads b ps words ++ branchBads b ps words
          else [])
      ++ tensorBads b ++ paramBads b ++ openGroupBads b (s.jobAsked f) ++ pipelineBads b
      ++ ((recordsOf b 12).map fun (o, t) => need (decide (t < 0xFFFFF000)) (.field o)).flatten

/-- Bind queues to a session and a job (R19, R279). -/
def State.bindQueues (s : State) (qs : List Nat) (session slot : Nat) : State :=
  qs.foldl (fun s q => s.updQueue q fun x =>
    if x.session = 0 then { x with session := session, lastSeq := 0, rspSeq := 0, events := [], job := some slot } else { x with job := some slot }) s

/-- Write a role map word (R46, R47): the new value binds the next steps, and a change is counted, so that the tile's carrel and board are zeroed before it works
under the new value. -/
def State.setRole (s : State) (t w : Nat) : State :=
  (if s.roleWord t = w then s else s.updUnit t fun u => { u with epoch := u.epoch + 1 }).setNum (0x4010 + t / 64) (t % 64 + 1) w

/-- The completion payload of an open (R280). -/
def openAnswer (slot first : Nat) : List Byte := toLE 8 slot ++ toLE 8 first

/-- Accept an opened or resumed job's command: its acceptance index and record (R28, R359). DESIGN CHOICE: a job's first acceptance index is 1, and the command
that opens or resumes it takes one; the spec gives no starting value and does not say whether that command counts. -/
def State.acceptOpen (s : State) (f : InFlight) (slot : Nat) : State × InFlight :=
  let s := s.updInFlight f.cmd.session f.cmd.queue f.cmd.seq fun g => { g with job := some slot, logged := false }
  s.accept { f with job := some slot, logged := false } (some (1, f.cmd.payload))

/-- Open the job (R279). -/
def State.openJob (s : State) (f : InFlight) : State :=
  let b := f.cmd.payload
  let j := s.jobAsked f
  let s : State := { s with jobs := s.jobs ++ [j] }
  let s := s.bindQueues j.queues f.cmd.session j.slot
  let ws := filledWords b j.slot
  let s := (List.range ws.length).foldl (fun s t => if nth ws t = 0 then s else s.setRole t (nth ws t)) s
  let (s, g) := s.acceptOpen f j.slot
  s.done g .ok (openAnswer j.slot 0)

/-- JOB_OPEN (R279): fresh or restored. -/
def execJobOpen (q : Nat) (s : State) : Host.Outcome State Fault Refusal :=
  .next (s.runCommand q 0x01 (fun c => !openResume c.payload) State.openBads State.openJob)

/-! ### JOB_RESUME (R280) -/

/-- The orphaned job a resume names (R22, R280). -/
def State.orphan? (s : State) (f : InFlight) : Option Job :=
  s.jobs.find? fun j => j.key == openKey f.cmd.payload && j.holder == none && ((s.live? f.cmd.session).map (·.tenant)) == some j.tenant

def State.resumeBads (s : State) (f : InFlight) : List Bad :=
  let b := f.cmd.payload
  let dir := directoryBads b
  if dir.contains .length || !within 1 12 (sectionCount b) then dir
  else
    let given := (sectionOf? b 1).isSome
    dir ++ openHeadBads b ++ need (!openRestore b) (.rel 8) ++ ((sectionsOf b).map fun x => need (x.kind == 1) (.field x.at')).flatten
      ++ need given (.rel 12) ++ (if given then s.queueListBads f ((s.orphan? f).map (·.slot)) else []) ++ need (s.orphan? f).isSome (.field 0)

def State.resumeJob (s : State) (f : InFlight) : State :=
  match s.orphan? f with
  | none => s
  | some j =>
    let b := f.cmd.payload
    let s := s.updJob j.slot fun j => { j with holder := some f.cmd.session, queues := openQueues b, eventQueue := openEventQueue b }
    let s := s.bindQueues (openQueues b) f.cmd.session j.slot
    let (s, g) := s.acceptOpen f j.slot
    s.done g .ok (openAnswer j.slot j.body.nextStep)

/-- JOB_RESUME (R280). -/
def execJobResume (q : Nat) (s : State) : Host.Outcome State Fault Refusal :=
  .next (s.runCommand q 0x01 (fun c => openResume c.payload) State.resumeBads State.resumeJob)

end Sys2Proof.Machine
end

