-- ==== Sys2Proof/Machine/Params.lean ====
section
/-!
DEFINITION. Dense parameters: their rows, the working copy and its broadcast, scale exponents, and messages kept for peers (R201, R217, R229 to R231, R323,
R326, R362).
-/
namespace Sys2Proof.Machine
open Sys2Proof

/-! ### Scale exponents -/

/-- e(t, s): the exponent fixed for the latest step up to s; *default exponent* of the step where no amax was appended before it; 0 for a tensor without a
record (R199, R201, R211). -/
def Job.exp (j : Job) (t step : Nat) : Int :=
  if (j.tensor? t).isNone then 0
  else
    let fixed := ((j.body.watches.find? fun w => w.tensor == t).map (·.exps)).getD []
    match (fixed.filter fun p => decide (p.1 ≤ step)).foldl (fun (b : Option (Nat × Int)) p => match b with | some q => if q.1 ≤ p.1 then some p else b | none => some p) none with
    | some p => p.2
    | none => signed 32 (match j.step? step with | some x => x.num' 0x5110 2 | none => j.num 0x5110 2)

/-! ### Rows -/

/-- A row of a part; zero where it is not listed. -/
def rowOf (l : List (Nat × List Nat)) (cols r : Nat) : List Nat := aGetD l r (List.replicate cols 0)

def Param.part (p : Param) : Nat → List (Nat × List Nat)
  | 1 => p.m
  | 2 => p.v
  | _ => p.master

def Param.setRow (p : Param) (part r : Nat) (es : List Nat) : Param :=
  match part with
  | 1 => { p with m := aSet p.m r es }
  | 2 => { p with v := aSet p.v r es }
  | _ => { p with master := aSet p.master r es }

/-- Element type of a part (R287). -/
def GroupRow.partType (g : GroupRow) (part : Nat) : ElemType :=
  match part with
  | 0 => g.masterType
  | 1 | 2 => g.momentType
  | _ => .fp32

/-- Whether a rule keeps a part (R230). -/
def GroupRow.hasPart (g : GroupRow) (part : Nat) : Bool :=
  match part with
  | 1 => decide (1 ≤ ruleMoments g.rule)
  | 2 => decide (2 ≤ ruleMoments g.rule)
  | _ => true

def State.updParam (s : State) (slot t : Nat) (f : Param → Param) : State :=
  s.updBody slot fun b => { b with params := b.params.map fun p => if pRecTensor p.rec' = t then f p else p }

/-- Whether this module owns a parameter. -/
def State.owns (s : State) (p : Param) : Bool := s.mine (pRecOwner p.rec')

/-! ### The working copy (R231) -/

def copyChoice (nm : Nat) : Choice := { sb := false, cl := false, nm := nm != 0, nmOnly := nm == 2, prune := nm == 2, axis := true }

/-- One tile of a working copy, with the conversions of its elements within extent. -/
def Param.copyTile (p : Param) (g : GroupRow) (e : Int) (row col : Nat) : Compressed × List Rounded :=
  let rows := pRecRows p.rec'
  let cols := pRecCols p.rec'
  let t := elemType g.workCode
  let at' : TileAt := { tensor := pRecTensor p.rec', row := row, col := col, rowsM1 := min 31 (rows - 1 - 32 * row), colsM1 := min 31 (cols - 1 - 32 * col),
                        scale := if t.scaled then (e + 127).toNat else 127 }
  let inside (i : Nat) : Bool := decide (32 * row + i / 32 < rows) && decide (32 * col + i % 32 < cols)
  let rs := (List.range 1024).map fun i =>
    let m := if inside i then nth (rowOf p.master cols (32 * row + i / 32)) (32 * col + i % 32) else 0
    let v := decodeElem g.masterType m
    toElem t 0 .nearest (if t.scaled then v.shift (-e) else v)
  (compressTile (copyChoice g.workNm) t at' (rs.map (·.bits)), ((List.range 1024).filter inside).map fun i => rs.getD i ⟨0, false, false⟩)

/-- Tiles of a parameter: row and column. -/
def Param.tiles (p : Param) : List (Nat × Nat) :=
  ((List.range (ceilDiv (pRecRows p.rec') 32)).map fun r => (List.range (ceilDiv (pRecCols p.rec') 32)).map fun c => (r, c)).flatten

/-- Write the tiles of one row of tiles of the working copy. -/
def State.writeCopyRow (s : State) (slot t : Nat) (g : GroupRow) (e : Int) (die : Option Nat) (row : Nat) : State :=
  match s.job? slot with
  | none => s
  | some j =>
    match j.param? t with
    | none => s
    | some p =>
      (p.tiles.filter fun rc => rc.1 == row).foldl (fun s rc =>
        s.putTile (j.tensorKey t 0 0 0 rc.1 rc.2) (p.copyTile g e rc.1 rc.2).1.image die false) s

/-- Count the fallbacks and prunings of one tile the compressor has written (R154, R160). -/
def State.countFormat (s : State) (slot step : Nat) (o : Compressed) : State :=
  (s.count slot step 0x5240 1 (if o.fellBack then 1 else 0)).count slot step 0x5240 3 (if o.dropped = [] then 0 else 1)

/-- Write the whole working copy for a command; its formats count with the step it comes before (R154). -/
def State.writeCopy (s : State) (slot t step : Nat) (g : GroupRow) (e : Int) : State :=
  match (s.job? slot).bind fun j => j.param? t with
  | none => s
  | some p =>
    let s := (List.range (ceilDiv (pRecRows p.rec') 32)).foldl (fun s r => s.writeCopyRow slot t g e none r) s
    p.tiles.foldl (fun s rc => s.countFormat slot step (p.copyTile g e rc.1 rc.2).1) s

/-! ### Peers -/

/-- Whether a step is covered by a reported one, of which only the low word travels (Table 19-6). -/
def coveredBy (low step : Nat) : Bool := decide ((low + 2 ^ 32 - step % 2 ^ 32) % 2 ^ 32 < 2 ^ 31)

/-- Whether a job is replayed and a peer reports a step delivered from this position: its messages are formed and discarded (R372). -/
def State.hadFrom (s : State) (slot dst step : Nat) : Bool :=
  ((s.job? slot).map (·.filling)).getD false && ((s.assoc? (s.holderOf dst)).map fun a => decide (0 < a.delivered) && coveredBy a.delivered step).getD false

/-- Send a message and keep a copy for its receiver (R112, R362). -/
def State.sendKept (s : State) (slot dst : Nat) (k : FlitKind) (step : Nat) (b : List Byte) : State :=
  let t := s.updJob slot fun j => { j with retained := j.retained ++ [{ dst := dst, kind := k.code, step := step, bytes := b }] }
  if s.hadFrom slot dst step then t else t.send dst k b

/-- Positions of the job that this module does not answer for. -/
def State.others (s : State) (j : Job) : List Nat := j.positions.filter fun p => !s.mine p

/-- The job's positions rotated so that one comes first (R323). -/
def rotated (l : List Nat) (first : Nat) : List Nat := let i := (l.findIdx? (· == first)).getD 0; l.drop i ++ l.take i

/-- Children of an index in the tree of R323. -/
def treeChildren (n i : Nat) : List Nat := [2 * i + 1, 2 * i + 2].filter fun c => decide (c < n)

/-- Positions to which an index passes a broadcast: its children, and those of a child this module answers for. -/
def State.broadcastTargets (s : State) (l : List Nat) : Nat → Nat → List Nat
  | 0, _ => []
  | fuel + 1, i => ((treeChildren l.length i).map fun c => if s.mine (nth l c) then s.broadcastTargets l fuel c else [nth l c]).flatten

/-- A message head for a job and step. -/
def Job.head (j : Job) (step space index : Nat) : MsgHead :=
  { jobKey := j.key, step := step, spaceId := space, index := index, mb := 0, piece := 0, tile := 0, slip := 0, segFirst := 0, segCount := 1 }

/-- The stored tiles of a working copy, absent ones omitted, in order. -/
def State.copyImages (s : State) (j : Job) (p : Param) : List Byte :=
  (p.tiles.map fun rc => s.image (j.tensorKey (pRecTensor p.rec') 0 0 0 rc.1 rc.2)).flatten

/-- Pass the working copy of a parameter down the tree from one of this module's positions (R326). The head's `INDEX` is 0 for the copy that a layer's
release sends and 1 for one that follows a command's write; the message's layout is the model's. -/
def State.broadcastFrom (s : State) (slot t step at' written : Nat) : State :=
  match s.job? slot with
  | none => s
  | some j =>
    match j.param? t with
    | none => s
    | some p =>
      let l := rotated j.positions (pRecOwner p.rec')
      let i := (l.findIdx? (· == at')).getD 0
      (s.broadcastTargets l (l.length + 1) i).foldl (fun s d => s.sendKept slot d .broadcast step ((j.head step t written).bytes ++ s.copyImages j p)) s

end Sys2Proof.Machine
end

