-- ==== Sys2Proof/Machine/Closing.lean ====
section
/-!
DEFINITION. Closing jobs: abandoned steps, the release of everything a job holds, and the wait for earlier commands (R22, R45, R47, R281).
-/
namespace Sys2Proof.Machine
open Sys2Proof

/-- Remove work items and their slips from every tile. -/
def State.dropWorks (s : State) (p : WorkId → Bool) : State :=
  { s with tileUnits := s.tileUnits.map fun u =>
      if u.works.any fun w => p w.id then
        { u with works := u.works.filter (fun w => !p w.id), slips := u.slips.filter (fun x => !p x.2.work), queue := [], queueBy := none,
                 unchecked := u.unchecked.filter fun w => !p w }
      else { u with slips := u.slips.filter fun x => !p x.2.work } }

/-- Free what a step stored for itself (R257). -/
def State.freeStepTiles (s : State) (slot n : Nat) : State :=
  s.freeTiles fun k => k.slot == slot && k.scope != .job && k.step == n

/-- Abandon a stalled step and every later one (R281): `STALLED` in step order, then for the commands that wait on one of them. -/
def State.abandonFrom (s : State) (slot n : Nat) : State :=
  match s.job? slot with
  | none => s
  | some j =>
    let gone := j.steps.filter fun x => decide (n ≤ x.num)
    let waits := j.deferred.filter fun d => match d.after with | some a => decide (n ≤ a) | none => false
    let s := gone.foldl (fun s x => s.finishAsker x.asker .stalled []) s
    let s := waits.foldl (fun s d => s.finishAsker d.asker .stalled []) s
    let s := gone.foldl (fun s x => s.freeStepTiles slot x.num) s
    let s := s.dropWorks fun w => w.slot == slot && decide (n ≤ w.step)
    s.updJob slot fun j =>
      { j with steps := j.steps.filter (fun x => decide (x.num < n)),
               signals := j.signals.filter (fun h => decide (h.src.step < n)),
               deferred := j.deferred.filter fun d => match d.after with | some a => decide (a < n) | none => true }

/-- A tile leaves its job: its entry is `IDLE`, and its carrel and board are zeroed (R45, R47). -/
def State.releaseTile (s : State) (t : Nat) : State :=
  ((s.setRole t 0).updUnit t fun u => { u with works := [], queue := [], board := [], slips := [], half := 0, bound := 0, boundEpoch := u.epoch, streak := 0, queueBy := none, unchecked := [] }).carrelZero t 0 131072

/-- Free everything a job holds and unbind its queues (R281). -/
def State.freeJob (s : State) (slot : Nat) : State :=
  let held := (List.range 256).filter fun t => roleA (s.roleWord t) != 0 && roleSlot (s.roleWord t) == slot
  let s := held.foldl State.releaseTile s
  let s := s.dropWorks fun w => w.slot == slot
  let s := s.freeTiles fun k => k.slot == slot
  let s := s.mapQueues fun _ x => if x.job = some slot then { x with job := none } else x
  let loose (f : InFlight) : InFlight := if f.job = some slot then { f with job := none } else f
  { s with
    port := { s.port with inFlight := s.port.inFlight.map loose }
    jobs := s.jobs.filter fun j => j.slot != slot
    blocks := s.blocks.filter fun b => b.job != some slot
    tiers := { s.tiers with
      readOrder := s.tiers.readOrder.filter fun r => r.1.1 != slot
      pageRuns := s.tiers.pageRuns.filter fun r => r.1.1 != slot
      farReads := s.tiers.farReads.filter fun k => k.slot != slot }
    sec := { s.sec with switchHeld := s.sec.switchHeld.filter (· != slot), switchDeposits := s.sec.switchDeposits.filter (· != slot) } }

/-- Whether every command a job accepted before its close has completed, and the close itself is in the log (R281, R360). -/
def State.closeReady (s : State) (j : Job) (asker : Option Asker) : Bool :=
  j.steps.isEmpty && j.deferred.isEmpty &&
    s.port.inFlight.all fun f =>
      f.job != some j.slot || f.accept.isNone || f.stage == .formed || (asker == some f.asker && f.logged)

/-- Complete a close that has nothing left to wait for, abandoning stalled steps first (R281). -/
def State.tryClose (s : State) (slot : Nat) : State :=
  match s.job? slot with
  | none => s
  | some j =>
    match j.state with
    | .closing _ asker _ =>
      let s := match j.steps.find? (·.stalled) with
        | some x => s.abandonFrom slot x.num
        | none => s
      match s.job? slot with
      | none => s
      | some j =>
        if s.closeReady j asker then
          let s := s.freeJob slot
          match asker with
          | some a => s.finishAsker a .ok []
          | none => s
        else s
    | _ => s

/-- JOB_CLOSE (R281): accepted, then completed when it can be. -/
def execJobClose (q : Nat) (s : State) : Host.Outcome State Fault Refusal :=
  .next (s.jobCommand q 0x02 (fun _ => true) (fun _ _ b => need b.isEmpty .length) fun s j f =>
    (s.updJob j.slot fun j => { j with state := .closing (f.accept.getD 0) (some f.asker) false }).tryClose j.slot)

/-- ORPHAN_JOB_HOLD_TIME (R22): a job no session has resumed closes as though by `JOB_CLOSE`. -/
def execOrphanJobHoldTime (slot : Nat) (s : State) : Host.Outcome State Fault Refusal :=
  .next (match s.job? slot with
    | none => s
    | some j =>
      let closing := match j.state with | .closing _ _ _ => true | _ => false
      if j.holder.isNone && !closing then
        (s.updJob slot fun j => { j with state := .closing j.accepted none false }).tryClose slot
      else s)

end Sys2Proof.Machine
end

