-- ==== Sys2Proof/Machine/Exec.lean ====
section
/-!
DEFINITION. Work items on tiles: selection, the walk of a program, the issue and completion of instances, the signal board, and the counts of a
tensor's health (R40 to R61, R194, R203).
-/
namespace Sys2Proof.Machine
open Sys2Proof

/-! ### Looking work up -/

/-- What an instance of a work item on a tile runs with. -/
structure Ctx where
  slot : Nat
  tile : Nat
  job : Job
  x : StepRec
  prog : Program
  w : Work
  d : Desc
  /-- first carrel granule of its program slot's region (R61) -/
  base : Nat
  deriving DecidableEq, Repr

def StepRec.piece? (x : StepRec) (mb piece : Nat) : Option Summary :=
  (x.pieces.find? fun p => p.mb == mb && p.summary.piece == piece).map (·.summary)

/-- Whether a piece is its micro-batch's last, as far as pieces have been formed (R26, R86). -/
def StepRec.lastPiece (x : StepRec) (mb piece : Nat) : Bool := ((x.piece? mb piece).map (·.last)).getD false

def StepRec.lastMb (x : StepRec) : Nat := x.seeds.length - 1

/-- Pieces of a micro-batch, once its last has been formed. -/
def StepRec.pieceCount (x : StepRec) (mb : Nat) : Nat := (x.pieces.filter fun p => p.mb == mb).length

/-- Whether a selector lets a descriptor run in a work item (Table 03-9). -/
def StepRec.selects (x : StepRec) (id : WorkId) (d : Desc) : Bool :=
  let v := d.mbSel % 4096
  let m := d.mbSel / 4096
  if id.endPass then m == 3
  else match m with
    | 0 => true
    | 1 => id.mb == 0 && id.piece == 0
    | 2 => id.mb == x.lastMb && x.lastPiece id.mb id.piece
    | 4 => id.mb % 2 ^ (v % 16) == v / 16
    | 5 => id.piece == 0
    | 6 => x.lastPiece id.mb id.piece
    | _ => false

/-- Carry a work item's position past ended loop bodies and excluded descriptors (R52, R60); `fuel` bounds the moves. -/
def normalise (x : StepRec) (p : Program) : Nat → Work → Work
  | 0, w => w
  | fuel + 1, w =>
    let ended := match w.loops.getLast? with
      | some l => if l.pos + (p.at l.pos).loopLen < w.pos then some l else none
      | none => none
    match ended with
    | some l =>
      let level := (p.at l.pos).loopLevel
      let useful := (List.range (p.at l.pos).loopLen).any fun k => x.selects w.id (p.at (l.pos + 1 + k))
      if 0 < l.left ∧ useful then
        normalise x p fuel { w with pos := l.pos + 1, loops := w.loops.dropLast ++ [{ l with left := l.left - 1 }],
                                    regs := w.regs.set level (nth w.regs level + 1) }
      else normalise x p fuel { w with loops := w.loops.dropLast, regs := w.regs.set level 0 }
    | none =>
      if w.pos < p.descs.length ∧ x.selects w.id (p.at w.pos) = false then normalise x p fuel { w with pos := w.pos + 1 }
      else w

def walkOn (x : StepRec) (p : Program) (w : Work) : Work := normalise x p (8 * p.descs.length + 16) w

def Tile.work? (u : Tile) (id : WorkId) : Option Work := u.works.find? fun w => w.id == id

def State.updWork (s : State) (tile : Nat) (id : WorkId) (f : Work → Work) : State :=
  s.updUnit tile fun u => { u with works := u.works.map fun w => if w.id = id then f w else w }

/-- What the next instance of a work item would run with; none where the tile runs no such work item or its program has ended. -/
def State.ctx? (s : State) (tile : Nat) (id : WorkId) : Option Ctx := do
  let w ← (s.unit tile).work? id
  let j ← s.job? id.slot
  let x ← j.step? id.step
  let p ← j.programs[w.prog]?
  if w.pos < p.descs.length then
    some { slot := id.slot, tile := tile, job := j, x := x, prog := p, w := w, d := p.at w.pos, base := j.regionBase (x.roleWord tile) w.half }
  else none

/-- A carrel granule of a field: base plus stride times a loop register, in the region (R114). -/
def Ctx.gran (c : Ctx) (hi lo shi slo lhi llo : Nat) : Nat := c.base + c.d.addr c.w.regs hi lo shi slo lhi llo

/-- Whether the effects of the next instance take effect: they were not delivered before a rerun, and no ledger raise's rerun suppresses them (R63, R108). -/
def Ctx.live (c : Ctx) : Bool := c.w.only.isNone && !c.w.delivered.contains (c.d.seq, c.w.regs, 0)

/-- The key of a tensor tile as the work item reaches it (R491). -/
def Ctx.key (c : Ctx) (t row col : Nat) : TileKey := c.job.tensorKey t c.x.num c.w.id.mb c.w.id.piece row col

/-! ### Issue (R51, R52) -/

/-- Engines of Table 03-1: arrays, vector engine, gather/scatter unit, sampler, sequencer. -/
def engineOf (kind : Nat) : Nat :=
  match kind with
  | 0x04 | 0x05 => 0
  | 0x06 | 0x07 | 0x08 | 0x09 | 0x0A => 1
  | 0x02 | 0x03 => 2
  | 0x01 => 3
  | _ => 4

def Tile.flying (u : Tile) : List Inst := (u.works.map (·.flying)).flatten

/-- Ranges of the next instance, in granules of the carrel. -/
def Ctx.ranges (c : Ctx) : List Range := (c.d.ranges c.w.regs).map fun r => { r with first := c.base + r.first }

def Range.meets (a b : Range) : Bool := (a.write || b.write) && decide (a.first < b.first + b.len) && decide (b.first < a.first + a.len)

/-- Whether a work item has issued an instance. -/
def Work.begun (w : Work) : Bool := !w.latest.isEmpty

/-- Whether a descriptor delivers to the result queue or takes from it (R170, R171). -/
def Desc.queues (d : Desc) : Bool := decide (0 < d.produces) || decide (0 < d.takes)

/-- Whether nothing of the module holds the tile or the job. -/
def State.tileRuns (s : State) (tile : Nat) (j : Job) : Bool :=
  let u := s.unit tile
  !u.lost && u.retiring.isNone && !j.fenced && s.bring.pwrGood

/-- Tensors whose step scale an instance applies or whose amax it feeds (R180, R189, R202). -/
def Ctx.scaleTensors (c : Ctx) : List Nat :=
  let d := c.d
  match d.kind with
  | 0x03 =>
    if d.f 133 132 = 0 then ((c.job.table? (d.f 223 192)).map fun t => [t.grad]).getD [] else [d.f 223 192]
  | 0x04 => [d.f 319 288] ++ (if d.b 136 then [d.f 351 320] else [])
  | 0x05 => [d.f 319 288, d.f 351 320]
  | 0x06 => (if d.f 162 161 = 0 then [] else [d.f 415 384]) ++ (if d.f 162 161 = 2 then [d.f 447 416] else []) ++ (if d.b 163 then [d.f 479 448] else [])
  | 0x08 => [d.f 319 288, d.f 351 320, d.f 383 352, d.f 415 384]
  | 0x09 => [d.f 223 192]
  | _ => []

/-- Whether a recorded tensor's exponent for a step is fixed: every earlier step still open has appended its amax (R202), and been watched where the watch may
rescale the tensor (R210). -/
def Job.scaleReady (j : Job) (t step : Nat) : Bool :=
  match j.tensor? t with
  | none => true
  | some r => (j.steps.filter fun y => decide (y.num < step)).all fun y => y.scaled.contains t && (!tRecStuck r || y.num' 0x5210 2 != 1 || y.watched)

/-- Whether the most recent instance at a position of a work item has completed; none issued there counts as completed (R52). -/
def Work.doneAt (w : Work) (pos : Nat) : Bool :=
  match aGet w.latest pos with
  | some ord => !(w.flying.any fun f => f.ord == ord)
  | none => true

/-- Whether an instance would use a poisoned granule of its carrel (R347). -/
def Ctx.poisonRead (c : Ctx) (s : State) : Bool :=
  c.ranges.any fun r => !r.write && s.carrelPoison.any fun g => decide (c.tile * 2 ^ 17 + r.first ≤ g) && decide (g < c.tile * 2 ^ 17 + r.first + r.len)

/-- Whether a stored tile holds a poisoned granule, or a label that fails its check (R157, R347). -/
def State.tilePoisoned (s : State) (k : TileKey) : Bool :=
  ((s.tile? k).map fun t => !t.poison.isEmpty || (!t.image.isEmpty && !labelCheck (t.image.take 32))).getD false

/-- The conditions of R52 on the next instance, the program slot apart; one whose operand is poisoned waits for the rerun that writes it anew, since it would write
none of its results (R347); and while tiles of one work item stand in the result queue no other uses it (R171). -/
def State.ready (s : State) (c : Ctx) : Bool :=
  let u := s.unit c.tile
  let e := engineOf c.d.kind
  s.tileRuns c.tile c.job && (c.scaleTensors.all fun t => c.job.scaleReady t c.x.num)
    && (e == 4 || decide ((u.flying.filter fun i => engineOf i.kind == e).length < 8))
    && ((List.range 32).all fun i => !c.d.dep.testBit i || decide (c.w.pos < i + 1) || c.w.doneAt (c.w.pos - 1 - i))
    && (!c.d.fence || c.w.flying.isEmpty)
    && (c.ranges.all fun r => u.flying.all fun f => f.ranges.all fun q => !r.meets q)
    && (u.queue.isEmpty || u.queueBy == some c.w.id || !c.d.queues) && !c.poisonRead s

/-- Whether some work item of a program slot could issue its next instance: none of R52 holds it and it does not wait for space. -/
def State.slotReady (s : State) (tile half : Nat) : Bool :=
  (s.unit tile).works.any fun w =>
    w.half == half && ((s.ctx? tile w.id).map fun c => s.ready c && !(c.x.spaceWait.any fun e => e.1 == (w.id, w.pos, w.regs))).getD false

/-- Whether the tile may issue a work item's next instance from its program slot (R61). From the slot that runs: a further work item does not begin after four
while the other slot has one ready, except in a stage's order (R238). From the other slot: only open `WAIT`s are in flight in the one that runs, and it stands at
a work-item boundary, or is suspended in such a `WAIT`, or has nothing ready. The queue is empty at a switch (R171). -/
def State.slotOpen (s : State) (c : Ctx) : Bool :=
  let u := s.unit c.tile
  let word := c.x.roleWord c.tile
  let run := u.works.filter fun w => w.half == u.half
  let flying := (run.map (·.flying)).flatten
  if u.half == c.w.half then
    c.w.begun || decide (u.streak < 4) || (roleA word == roleB word && groupA word == groupB word) || !s.slotReady c.tile (1 - u.half)
  else
    u.queue.isEmpty && (flying.all fun i => i.kind == 0x0B && !i.ready)
      && ((run.all fun w => !w.begun) || !flying.isEmpty || !s.slotReady c.tile u.half)

/-- The conditions of R52 and R61 on the next instance. -/
def State.canIssue (s : State) (c : Ctx) : Bool := s.ready c && s.slotOpen c

/-- The instance as it is issued. -/
def Ctx.inst (c : Ctx) (ord : Nat) : Inst :=
  { pos := c.w.pos, regs := c.w.regs, kind := c.d.kind, seq := c.d.seq, ranges := c.ranges, reqs := [], ready := true, targets := [], ord := ord }

/-- Whether a refresh follows a step (R127). -/
def StepRec.refreshDue (x : StepRec) : Bool := (x.num + 1) % x.num' 0x6110 1 == 0

/-- Whether everything that waited for an acceptance point before a step has been performed (R31, R133). -/
def Job.pointsPast (j : Job) (x : StepRec) : Bool := j.deferred.all fun d => decide (x.accept < d.accept)

/-- Whether every earlier step's update of what a read names has been applied here: a table's rows and a parameter this module owns once their layer is
released and the refresh due after it has ended, another position's parameter once its working copy has arrived (R16, R96, R137, R219, R326). -/
def State.updated (s : State) (j : Job) (space id step : Nat) : Bool :=
  let before := j.steps.filter fun y => decide (y.num < step)
  if ((j.step? step).map j.pointsPast).getD true = false then false
  else if space = 0 then before.all fun y => (y.updates.any fun u => u.layer == 4096 + id && u.released) && (!y.refreshDue || y.refreshed)
  else match (if space = 2 then j.param? id else none) with
    | none => true
    | some p =>
      if s.mine (pRecOwner p.rec') then before.all fun y => y.updates.any fun u => u.layer == pRecLayer p.rec' && u.released
      else (before.all fun y => y.copies.contains id) && j.owed.all fun o => !(o.1 == id && decide (o.2 < step))

/-! ### Completion -/

/-- Take a work item off its tile when its program has ended with nothing in flight (R50). -/
def State.settle (s : State) (tile : Nat) (id : WorkId) : State :=
  match (s.unit tile).work? id, s.job? id.slot with
  | some w, some j =>
    let len := ((j.programs[w.prog]?).map (·.descs.length)).getD 0
    if len ≤ w.pos ∧ w.flying = [] then
      let s := s.updUnit tile fun u =>
        { u with works := u.works.filter (fun v => v.id != id), unchecked := u.unchecked ++ [id], slips := u.slips.filter fun p => p.2.work != id }
      s.updStep id.slot id.step fun x =>
        { x with completed := x.completed ++ [id], effects := aUpd x.effects id [] fun l => (l ++ w.delivered).eraseDups }
    else s
  | _, _ => s

/-- The tile once a work item's next instance is issued from it: its program slot runs, and the items begun in succession are counted (R61). -/
def Tile.issued (u : Tile) (w : Work) : Tile :=
  { u with half := w.half, nextOrd := u.nextOrd + 1, streak := (if u.half = w.half then u.streak else 0) + (if w.begun then 0 else 1) }

/-- Issue the next instance of a work item where its descriptor is `ok` and R52 lets it: its effect, then the instance in flight as `mk` makes it. DESIGN CHOICE:
the effect takes place whole at issue, so a read that no `WAIT`, `SIGNAL` or `DEP_MASK` orders after its writer (R53: undefined) sees what the instances issued
before it have put in device memory or the carrel, a definite value. -/
def State.issue (s : State) (tile : Nat) (id : WorkId) (ok : Ctx → State → Bool) (effect : Ctx → State → State) (mk : Ctx → State → Inst → Inst) : State :=
  match s.ctx? tile id with
  | none => s
  | some c =>
    if ok c s && s.canIssue c then
      let ord := (s.unit tile).nextOrd
      let i := mk c s (c.inst ord)
      let s := effect c s
      let x := ((s.step? id.slot id.step)).getD c.x
      (s.updWork tile id fun w =>
        let w := { w with flying := w.flying ++ [i], delivered := if c.live then w.delivered ++ [(c.d.seq, w.regs, 0)] else w.delivered,
                          latest := aSet w.latest w.pos ord, pos := w.pos + 1 }
        walkOn x c.prog w).updUnit tile fun u => u.issued c.w
    else s

/-- The same, for an instance that completes by its engine alone. -/
def State.issuePlain (s : State) (tile : Nat) (id : WorkId) (ok : Desc → Bool) (effect : Ctx → State → State) : State :=
  s.issue tile id (fun c _ => ok c.d) effect fun _ _ i => i

/-- Write a trace record of a completed instance whose descriptor asks for one (R50). The spec gives a record no contents and the log no size: a record names the
tile, the work item and `SEQ`, and none is lost. -/
def State.trace (s : State) (tile : Nat) (id : WorkId) (d : Desc) : State := if d.trace then { s with traces := s.traces ++ [(tile, id, d.seq)] } else s

/-- The descriptor of an instance in flight. -/
def State.instDesc? (s : State) (tile : Nat) (id : WorkId) (ord : Nat) : Option Desc := do
  let w ← (s.unit tile).work? id
  let i ← w.flying.find? fun i => i.ord == ord
  let j ← s.job? id.slot
  let p ← j.programs[w.prog]?
  some (p.at i.pos)

/-- Remove an instance that has completed. -/
def State.complete (s : State) (tile : Nat) (id : WorkId) (ord : Nat) : State :=
  let s := match s.instDesc? tile id ord with | some d => s.trace tile id d | none => s
  (s.updWork tile id fun w => { w with flying := w.flying.filter fun i => i.ord != ord }).settle tile id

/-! ### Waits for space (R256) -/

/-- What names an instance that waits at issue. -/
def Ctx.instance' (c : Ctx) : WorkId × Nat × Regs := (c.w.id, c.w.pos, c.w.regs)

/-- An instance waits at issue for space: *space waits* rises once for it. -/
def Ctx.waitSpace (c : Ctx) (sought : Nat) (s : State) : State :=
  if c.x.spaceWait.any fun e => e.1 == c.instance' then s
  else (s.updStep c.slot c.x.num fun x => { x with spaceWait := x.spaceWait ++ [(c.instance', sought)] }).add 0x3200 4 1

/-- An instance has its space; its step goes on unless another wait or an annex call still stalls it. -/
def Ctx.spaceFound (c : Ctx) (s : State) : State :=
  if c.x.spaceWait.any fun e => e.1 == c.instance' then
    s.updStep c.slot c.x.num fun x =>
      let left := x.spaceWait.filter fun e => e.1 != c.instance'
      { x with spaceWait := left,
               stalled := x.stalled && (!left.isEmpty || c.job.body.calls.any fun k => k.stalled && k.steps.contains x.num && !(k.rows.all (·.supplied))) }
  else s

/-- Issue an instance that takes space: where `room` does not hold it waits for the bytes `sought` (R256). -/
def State.issueSpace (s : State) (tile : Nat) (id : WorkId) (ok room : Ctx → State → Bool) (sought : Ctx → State → Nat) (effect : Ctx → State → State) : State :=
  match s.ctx? tile id with
  | none => s
  | some c =>
    if ok c s && s.canIssue c && !room c s then c.waitSpace (sought c s) s
    else s.issue tile id (fun c s => ok c s && room c s) (fun c s => c.spaceFound (effect c s)) fun _ _ i => i

/-! ### The signal board (R55) -/

def Tile.boardCount (u : Tile) (half phase counter mb : Nat) : Nat := aGetD u.board (half, phase, counter, mb) 0

/-- Add to a count, which stays at 65,535 (R57): the tile, and whether it saturated. -/
def Tile.boardAdd (u : Tile) (half phase counter mb n : Nat) : Tile × Bool :=
  let v := u.boardCount half phase counter mb + n
  ({ u with board := aSet u.board (half, phase, counter, mb) (min v 65535) }, decide (65535 < v))

/-- Clear the counts of a phase on the job's tiles (R55). -/
def State.clearPhase (s : State) (slot phase : Nat) : State :=
  { s with tileUnits := (List.range s.tileUnits.length).map fun t =>
      let u := s.unit t
      if roleA u.bound != 0 && roleSlot u.bound == slot then { u with board := u.board.filter fun p => p.1.2.1 != phase } else u }

/-- Signed 16-bit micro-batch offset added to a micro-batch. -/
def Desc.addressedMb (d : Desc) (mb : Nat) : Int := (mb : Int) + signed 16 (d.f 143 128)

/-- The threshold of a `WAIT`: none while `PER_PIECE` waits for the last piece (R86). -/
def StepRec.threshold (x : StepRec) (d : Desc) (mb : Nat) : Option Nat :=
  if d.b 148 then (if x.formed.contains mb then some (d.f 175 160 * x.pieceCount mb) else none) else some (d.f 175 160)

/-- Whether a `WAIT` of a work item is satisfied (R58, R59). -/
def State.waitMet (s : State) (slot tile half : Nat) (id : WorkId) (d : Desc) : Bool :=
  match s.job? slot with
  | none => false
  | some j =>
    let m := d.addressedMb id.mb
    let stepNum : Option Nat := if d.f 147 146 = 3 then (if id.step = 0 then none else some (id.step - 1)) else some id.step
    match stepNum with
    | none => true
    | some n =>
      match j.step? n with
      | none => true
      | some x =>
        if m < 0 ∨ (x.lastMb : Int) < m then true
        else
          match x.threshold d m.toNat with
          | none => false
          | some t => decide (t ≤ (s.unit tile).boardCount half (n % 4) (d.f 145 144) m.toNat)

/-- Mark the open `WAIT`s of a tile that are satisfied ready to complete. -/
def State.wakeWaits (s : State) (tile : Nat) : State :=
  s.updUnit tile fun u =>
    { u with works := u.works.map fun w =>
        match (s.job? w.id.slot).bind fun j => j.programs[w.prog]? with
        | none => w
        | some p =>
          { w with flying := w.flying.map fun i =>
              if i.kind = 0x0B ∧ i.ready = false then { i with ready := s.waitMet w.id.slot tile w.half { w.id with mb := w.id.mb } (p.at i.pos) } else i } }

/-- The same on every tile. -/
def State.wakeAll (s : State) : State := (List.range s.tileUnits.length).foldl State.wakeWaits s

/-! ### Health (R202 to R204) -/

/-- What a write adds to a tensor's counts. -/
structure Counted where
  elements : Nat := 0
  zeros : Nat := 0
  saturated : Nat := 0
  nonfinite : Nat := 0
  amax : Val := .zero false
  pruned : Int := 0
  prunedBad : Bool := false
  deriving DecidableEq, Repr

/-- Add to the counts of a tensor by a work item. -/
def StepRec.report (x : StepRec) (t : Nat) (id : WorkId) (c : Counted) : StepRec :=
  let old : HealthPart := (x.parts.find? fun p => p.tensor == t && p.work == id).getD
    { tensor := t, work := id, elements := 0, zeros := 0, saturated := 0, nonfinite := 0, amax := .zero false, pruned := 0, prunedBad := false }
  let new : HealthPart :=
    { old with elements := old.elements + c.elements, zeros := old.zeros + c.zeros, saturated := old.saturated + c.saturated,
               nonfinite := old.nonfinite + c.nonfinite, amax := old.amax.max c.amax, pruned := old.pruned + c.pruned,
               prunedBad := old.prunedBad || c.prunedBad }
  { x with parts := (x.parts.filter fun p => !(p.tensor == t && p.work == id)) ++ [new] }

/-- Report for a recorded tensor, where the instance takes effect; nothing for a tensor without a record (R199). -/
def Ctx.report (c : Ctx) (t : Nat) (n : Counted) (s : State) : State :=
  if c.live && (c.job.tensor? t).isSome then s.updStep c.slot c.x.num fun x => x.report t c.w.id n else s

/-- A job counter that moves where the instance takes effect. -/
def Ctx.count (c : Ctx) (index sub n : Nat) (s : State) : State := if c.live then s.tally c.w.id c.d.seq index sub n else s

/-- Largest finite magnitude. -/
def amaxOf (l : List Val) : Val := largest (l.filter Val.isFinite)

/-! ### Stored operands -/

/-- Strict index mode of a step (R102). -/
def StepRec.strict (x : StepRec) : Bool := x.num' 0x6000 4 != 0

/-- The third argument of events 0x4031 and 0x5240: `SEQ`[11:0] and `TILE_COL`. -/
def Ctx.tileArg (c : Ctx) (col : Nat) : Nat := c.d.seq % 2 ^ 12 * 2 ^ 20 + col % 2 ^ 20

/-- Note the decode of a tile with `INDEX_RANGE` set (R155): counted once per tensor, step and tile; `first` raises the event in strict mode. -/
def Ctx.noteDecode (c : Ctx) (k : TileKey) (l : Label) (first : Bool) (s : State) : State :=
  if l.indexRange && c.live then
    let seen := ((s.step? c.slot c.x.num).map fun x => x.rangeTiles.contains k).getD true
    let s := if seen then s else (s.updStep c.slot c.x.num fun x => { x with rangeTiles := x.rangeTiles ++ [k] }).count c.slot c.x.num 0x5240 2 1
    if first && c.x.strict then s.raiseJob 0x5240 c.slot c.x.num k.id (k.row % 2 ^ 32) (c.tileArg k.col) else s
  else s

/-- Note a label that fails its check after the granule code has passed it, as a step reads it: its granule is poisoned (R157). -/
def State.poisonLabel (s : State) (slot step : Nat) (k : TileKey) : State :=
  match s.tile? k with
  | some t =>
    if t.image ≠ [] ∧ !labelCheck (t.image.take 32) ∧ !t.poison.contains 0 then
      ((s.updTile k fun t => { t with poison := insertOnce 0 t.poison }).count slot step 0x5240 4 1).raise 0x5241 .memory 0
        (t.devGranule % 2 ^ 32) (bits t.devGranule 39 32) (if t.tier = .far then 1 else 0)
    else s
  | none => s

/-- The same, for a read by an instance. -/
def Ctx.noteLabel (c : Ctx) (k : TileKey) (s : State) : State := s.poisonLabel c.slot c.x.num k

/-- Note the decodes of an instance, in order. -/
def Ctx.noteDecodes (c : Ctx) (ks : List TileKey) (s : State) : State :=
  (ks.foldl (fun (acc : State × Bool) k =>
    match readLabel ((s.image k).take 32) with
    | some l => (c.noteDecode k l (acc.2) acc.1, acc.2 && !l.indexRange)
    | none => (c.noteLabel k acc.1, acc.2)) (s, true)).1

/-- An instance that may issue, but whose stored operands are poisoned, writes no result (R347): a label that fails its check is poisoned on the way. -/
def State.unlessPoisoned (s : State) (tile : Nat) (id : WorkId) (ok : Ctx → State → Bool) (keys : Ctx → State → List TileKey) (run : State → State) : State :=
  match s.ctx? tile id with
  | none => run s
  | some c => if ok c s && s.canIssue c && (keys c s).any s.tilePoisoned then (keys c s).foldl (fun s k => c.noteLabel k s) s else run s

end Sys2Proof.Machine
end

