-- ==== Sys2Proof/Machine/ArrayRows.lean ====
section
/-!
DEFINITION. The matrix arrays' instances: `MATMUL` and `SPMM` (08_matrix_arrays).
-/
namespace Sys2Proof.Machine
open Sys2Proof

/-- Types of a streamed operand (Table 08-3). -/
def streamType (n : Nat) : ElemType := match n with | 0 => .bf16 | 1 => .fp16 | 2 => .e4m3 | 3 => .e5m2 | _ => .int8

/-- Whether two operand types pair (Table 08-1). -/
def typesPair (x w : ElemType) : Bool :=
  let sixteen (t : ElemType) := t == .bf16 || t == .fp16
  if x = .int8 then w == .int8 else sixteen w || w.isFp8

/-- A decoded body in the carrel: its raw elements (R165). -/
def State.body (s : State) (tile granule bits : Nat) : List Nat := unskewBody bits (s.carrelRead tile (32 * granule) (128 * bits))

/-- Write a decoded body. -/
def State.putBody (s : State) (tile granule bits : Nat) (es : List Nat) : State := s.carrelWrite tile (32 * granule) (skewBody bits es)

/-- An operand from the carrel, under the step scale its scale field names (R163). -/
def streamed (t : ElemType) (e : Int) (raw : Nat) : Operand := { raw := raw, val := decodeScaled t (if t.isFp8 then [e] else []) raw, bad := false }

/-- A stored operand tile: its elements with their values, and whether it cannot be multiplied (R162). -/
structure Stored where
  key : TileKey
  elems : List Operand
  bad : Bool
  /-- it is `NM` with its groups across the reduction's wrong dimension -/
  axisDecode : Bool
  deriving DecidableEq, Repr

/-- Read a stored operand against a streamed type; `axis` is the `NM_AXIS` the arrays run (R169). -/
def State.stored (s : State) (c : Ctx) (k : TileKey) (x : ElemType) (axis : Bool) : Stored :=
  match readLabel ((s.image k).take 32) with
  | none => { key := k, elems := List.replicate 1024 ⟨0, .zero false, false⟩, bad := false, axisDecode := false }
  | some l =>
    let raws := s.elems k
    let ok := typesPair x l.elem && (l.elem != .int8 || (l.scale : Int) == c.job.exp k.id c.x.num + 127)
    { key := k,
      elems := raws.map fun r => { raw := r, val := decodeScaled l.elem (if l.elem.isFp8 then [(l.scale : Int) - 127] else []) r, bad := !ok },
      bad := !ok, axisDecode := l.format == .nm && l.nmAxis != axis }

/-- What reading the stored operands of an array instance does beside the product: touches, counts and events (R155, R162, R169, R261). -/
def Ctx.readStored (c : Ctx) (ts : List Stored) (s : State) : State :=
  let s := (ts.foldl (fun s t => s.touch t.key c.x.num) s).noteFar (ts.map (·.key))
  let s := c.noteDecodes (ts.map (·.key)) s
  let s := c.count 0x4030 2 (ts.filter (·.axisDecode)).length s
  let bads := ts.filter (·.bad)
  let s := c.count 0x4030 3 bads.length s
  if c.live then bads.foldl (fun s t => s.raiseJob 0x4031 c.slot c.x.num t.key.id (t.key.row % 2 ^ 32) (c.tileArg t.key.col)) s else s

/-- Keys of the stored adjacency tiles an `SPMM` reads (R169). -/
def Ctx.adjacencyKeys (c : Ctx) : List TileKey :=
  let row := c.d.f 387 352 + c.d.f 239 224 * nth c.w.regs (c.d.f 141 140)
  (List.range (c.d.f 149 144 + 1)).map fun j => c.key (c.d.f 351 320) row (c.d.f 407 388 + j)

/-- The arrays wait for a weight tile or a free slot: past 64 cycles they ramp down and up again, which counts (R173). How long the wait is, is free. -/
def State.stallRamp (s : State) (slot step : Nat) : State :=
  let (i, s) := draw s
  s.count slot step 0x4030 1 (Config.freeNat i % 2)

/-- Whether the arrays of a tile stay at full share: an array instance is in flight on it, and the last one keeps the ramp (R173). -/
def Ctx.rampKept (c : Ctx) (s : State) : Bool :=
  let last := ((s.unit c.tile).works.map fun w => w.flying.map fun i => (i, w.prog)).flatten.foldl
    (fun (m : Option (Inst × Nat)) i => if engineOf i.1.kind = 0 then (match m with | some a => if a.1.ord < i.1.ord then some i else m | none => some i) else m) none
  match last with
  | some (i, p) => (((c.job.programs[p]?).map fun q => (q.at i.pos).keepRamp)).getD false
  | none => false

/-- The arrays start from below full share (R172, R173), counted each time, a rerun's start among them. -/
def Ctx.rampStart (c : Ctx) (s : State) : State := if c.rampKept s then s else s.count c.slot c.x.num 0x4030 1 1

/-- Deliver result tiles: to the carrel as 32-bit bodies, or to the result queue (R170), where those beyond its 16 slots belong to bands that wait for one: the
instance is complete once the slots hold what is left. A carrel tile's slot frees with its write. -/
def Ctx.deliver (c : Ctx) (tiles : List (List Nat)) (s : State) : State :=
  if c.d.b 137 then
    let s := s.updUnit c.tile fun u => { u with queue := u.queue ++ tiles, queueBy := some c.w.id }
    if 16 < (s.unit c.tile).queue.length then s.stallRamp c.slot c.x.num else s
  else
    let base := c.gran 272 256 255 240 143 142
    (List.range tiles.length).foldl (fun s i => s.putBody c.tile (base + 128 * i) 32 (tiles.getD i [])) s

/-- Result tiles of `MATMUL` (R163, R164, R167). -/
def matmulTiles (int8 : Bool) (rows : Nat) (x : Nat → Nat → Operand) (kTotal : Nat) (w : Nat → Nat → Operand) : List (List Nat) :=
  (List.range (ceilDiv rows 32)).map fun i =>
    ((List.range 32).map fun r =>
      (List.range 32).map fun n =>
        if 32 * i + r < rows then
          resultElem int8 ((List.range kTotal).map fun k => x (32 * i + r) k) ((List.range kTotal).map fun k => w k n)
        else 0).flatten

def noOperand : Operand := ⟨0, .zero false, false⟩

/-- The result elements a stored tile of another type makes NaN or -2^31 count as non-finite in the health record of the tensor that tile is of (R162).
DEDUCED: R162 says 'the tensor health record' and names no other tensor. -/
def Ctx.reportFaults (c : Ctx) (t n : Nat) (s : State) : State := if n = 0 then s else c.report t { nonfinite := n } s

/-- Result elements, of `rows` by `cols`, whose reduction over `k` positions a tile that is not multiplied feeds. -/
def faultCount (rows cols k : Nat) (x w : Nat → Nat → Operand) : Nat :=
  sum ((List.range rows).map fun r => ((List.range cols).filter fun n => faulted ((List.range k).map (x r)) ((List.range k).map fun i => w i n)).length)

/-- The effect of a `MATMUL` instance. -/
def Ctx.matmul (c : Ctx) (s : State) : State :=
  let d := c.d
  let xt := streamType (d.f 131 128)
  let g := streamGranules (d.f 131 128)
  let rows := d.f 159 144 + 1
  let kt := d.f 166 160 + 1
  let xAt := c.gran 208 192 191 176 139 138
  let xe := c.job.exp (d.f 319 288) c.x.num
  let bodies := (List.range (ceilDiv rows 32 * kt)).map fun i => (s.body c.tile (xAt + g * i) xt.bits).map (streamed xt xe)
  let x (r k : Nat) : Operand := (bodies.getD (r / 32 * kt + k / 32) []).getD (32 * (r % 32) + k % 32) noOperand
  let ws : List Stored :=
    if d.b 136 then
      let col := d.f 407 388 + d.f 239 224 * nth c.w.regs (d.f 141 140)
      (List.range kt).map fun j => s.stored c (c.key (d.f 351 320) (d.f 387 352 + j) col) xt true
    else
      let wt := streamType (d.f 135 132)
      let at' := c.base + d.addr c.w.regs 336 320 239 224 141 140
      (List.range kt).map fun j =>
        { key := c.key 0 0 0, elems := (s.body c.tile (at' + 64 * j) 16).map (streamed wt 0), bad := false, axisDecode := false }
  let w (k n : Nat) : Operand := ((ws.getD (k / 32) ⟨c.key 0 0 0, [], false, false⟩).elems).getD (32 * (k % 32) + n) noOperand
  let s := if d.b 136 then c.readStored ws s else s
  let t := d.f 351 320
  let key := (c.slot, c.w.id.group + 16 * (c.x.num % 8))
  let s : State :=
    if d.b 136 then
      { s with tiers := { s.tiers with readOrder := aUpd s.tiers.readOrder key [] fun l => if l.contains t then l else l ++ [t] } }
    else s
  let s := if ws.any (·.bad) then c.reportFaults t (faultCount rows 32 (32 * kt) x w) s else s
  c.deliver (matmulTiles (xt == .int8) rows x (32 * kt) w) (c.rampStart s)

/-- Whether the weight tensor an instance reads holds what earlier steps' updates left (R16). -/
def Ctx.weightReady (c : Ctx) (s : State) : Bool := !c.d.b 136 || s.updated c.job 2 (c.d.f 351 320) c.x.num

/-- Keys of the stored weight tiles a `MATMUL` reads. -/
def Ctx.weightKeys (c : Ctx) : List TileKey :=
  if c.d.b 136 then
    let col := c.d.f 407 388 + c.d.f 239 224 * nth c.w.regs (c.d.f 141 140)
    (List.range (c.d.f 166 160 + 1)).map fun j => c.key (c.d.f 351 320) (c.d.f 387 352 + j) col
  else []

/-- Whether a weight tile is still outside the near tier (R174, R248). -/
def Ctx.weightLate (c : Ctx) (s : State) : Bool := c.weightKeys.any fun k => ((s.tile? k).map fun t => t.tier == .far).getD false

/-- A wait for a weight tile has ended (R248): its keeper ticks are added, of a free number; where the arrays would have stayed at full share, they may have
ramped (R173). -/
def Ctx.lateEnded (c : Ctx) (s : State) : State :=
  let (i, t) := draw s
  let t := t.updJob c.slot fun j => j.add 0x4200 3 (Config.freeNat i)
  if c.rampKept s then t.stallRamp c.slot c.x.num else t

/-- MATMUL (R163, R167): it waits at issue for a weight tile that is not yet near, and the wait is counted once (R174, R248). -/
def execMatmul (tile : Nat) (w : WorkId) (s : State) : Host.Outcome State Fault Refusal :=
  .next (match s.ctx? tile w with
    | none => s
    | some c =>
      let waited := (s.unit tile).late.contains (w, c.w.pos, c.w.regs)
      if c.d.kind == 0x04 && c.weightReady s && s.canIssue c && c.weightLate s then
        if waited then s
        else (s.updJob w.slot fun j => j.add 0x4200 2 1).updUnit tile fun u => { u with late := u.late ++ [(w, c.w.pos, c.w.regs)] }
      else
        let s := if c.d.kind == 0x04 && c.weightReady s && s.canIssue c && waited && !c.weightKeys.any s.tilePoisoned then c.lateEnded s else s
        let ok (c : Ctx) (s : State) : Bool := c.d.kind == 0x04 && c.weightReady s && !c.weightLate s
        s.unlessPoisoned tile w ok (fun c _ => c.weightKeys) fun s =>
          (s.issue tile w ok Ctx.matmul fun _ _ i => i).updUnit tile fun u => { u with late := u.late.filter fun l => !(l.1 == w && l.2.1 == c.w.pos) })

/-- The effect of an `SPMM` instance (R169). -/
def Ctx.spmm (c : Ctx) (s : State) : State :=
  let d := c.d
  let bt := streamType (d.f 131 128)
  let g := streamGranules (d.f 131 128)
  let at' := d.f 149 144 + 1
  let ft := d.f 158 152 + 1
  let bAt := c.gran 208 192 191 176 139 138
  let be := c.job.exp (d.f 319 288) c.x.num
  let as := c.adjacencyKeys.map fun k => s.stored c k bt false
  let bodies := (List.range (at' * ft)).map fun i => (s.body c.tile (bAt + g * i) bt.bits).map (streamed bt be)
  let a (i k : Nat) : Operand := ((as.getD (k / 32) ⟨c.key 0 0 0, [], false, false⟩).elems).getD (32 * i + k % 32) noOperand
  let b (n k : Nat) : Operand := (bodies.getD (k / 32 * ft + n / 32) []).getD (32 * (k % 32) + n % 32) noOperand
  let tiles := (List.range ft).map fun f =>
    ((List.range 32).map fun i =>
      (List.range 32).map fun n =>
        resultElem (bt == .int8) ((List.range (32 * at')).map fun k => b (32 * f + n) k) ((List.range (32 * at')).map fun k => a i k)).flatten
  let s := c.readStored as s
  let s := if as.any (·.bad) then c.reportFaults (d.f 351 320) (faultCount 32 (32 * ft) (32 * at') a fun k n => b n k) s else s
  c.deliver tiles (c.rampStart s)

/-- SPMM (R169). -/
def execSpmm (tile : Nat) (w : WorkId) (s : State) : Host.Outcome State Fault Refusal :=
  .next (s.unlessPoisoned tile w (fun c _ => c.d.kind == 0x05) (fun c _ => c.adjacencyKeys) fun s => s.issuePlain tile w (fun d => d.kind == 0x05) Ctx.spmm)

end Sys2Proof.Machine
end

