-- ==== Sys2Proof/Machine/Loads.lean ====
section
/-!
DEFINITION. Catalogues and feature tensors (R66 to R69, R282), parameters (R287), results (R285, R286), and the end of a deferral (R31, R133).
-/
namespace Sys2Proof.Machine
open Sys2Proof

/-! ### Reading a catalogue -/

def Job.graph? (j : Job) (g : Nat) : Option GraphRec := j.body.graphs.find? fun x => x.id == g
def Job.feature? (j : Job) (t : Nat) : Option FeatureRec := j.body.features.find? fun x => x.id == t

/-- The readers the sampler takes (Table 04-1). -/
def State.graph (s : State) (slot g : Nat) : Graph :=
  let r := (s.job? slot).bind fun j => j.graph? g
  let n := ceilDiv (2 * ((r.map (·.nodes)).getD 0 + 1)) 1024
  let m := ceilDiv ((r.map (·.edges)).getD 0) 1024
  let tiles (sec n : Nat) : List (List Nat) := (List.range n).map fun t => s.elems (spaceKey .catalogue slot g 0 t sec)
  let (t0, t1, t2, t3, t4) := (tiles 0 n, tiles 1 m, tiles 2 m, tiles 3 m, tiles 4 m)
  let at' (t : List (List Nat)) (i : Nat) : Nat := nth (t.getD (i / 1024) []) (i % 1024)
  { off := fun v => at' t0 (2 * v) + 2 ^ 32 * at' t0 (2 * v + 1), nbr := at' t1, weight := at' t2, time := at' t3, aliasOf := at' t4 }

/-! ### Carried tiles (R156) -/

/-- Faults of the label of a tile carried at an offset, each at its field's first byte (R144 to R146, R156, R278); none of its fields is read where its
check fails. -/
def labelBads (at' : Nat) (g : List Byte) : List Bad :=
  let n := leNat (g.take 32)
  if labelCheck g = false then [.field (at' + 30)]
  else
    let f := format? (bits n 3 0)
    let t := elemType? (bits n 8 4)
    let aux := bits n 239 176
    need (match f, t with | some f, some t => t.allows f | _, _ => false) (.field at')
      ++ need ((f == some .nm || !bit n 9) && bits n 23 12 == 0) (.field (at' + 1))
      ++ need (bits n 31 24 == 127 || ((t.map (·.scaled)).getD true && bits n 31 24 != 255)) (.field (at' + 3)) ++ need (bits n 66 32 == 0) (.field (at' + 4))
      ++ need (within 1 1024 (bits n 87 77)) (.field (at' + 9)) ++ need (f == some .sb || (f == some .cl && decide (aux ≤ 1024)) || aux == 0) (.field (at' + 22))

/-- First non-zero byte at or beyond a position of a body. -/
def tailBad (d : List Byte) (pos : Nat) : Option Nat := (List.range (d.length - pos)).findSome? fun i => if d.getD (pos + i) 0 = 0 then none else some (pos + i)

/-- Faults of the body of a tile carried at an offset: unused space, positions and indices in order, and `NNZ` (R148 to R150, R156). -/
def bodyBads (at' : Nat) (l : Label) (d : List Byte) : List Bad :=
  let b := l.elem.bits
  let body (i : Nat) : Bad := .field (at' + 32 + i)
  match l.format with
  | .dense => need (l.nnz == nnzOf (rawElems l d)) (.field (at' + 9))
  | .sb => (match tailBad d (2 * b * popcount64 l.aux) with | some i => [body i] | none => []) ++ need (l.nnz == nnzOf (rawElems l d)) (.field (at' + 9))
  | .nm =>
    let es := nmEntries b d
    (es.map fun x => need (decide (x.2.2.1.1 < x.2.2.1.2)) (body (64 * b + 4 * x.1))).flatten
      ++ need (l.nnz == nnzOf (es.map fun x => [x.2.2.2.1, x.2.2.2.2]).flatten) (.field (at' + 9))
  | .cl =>
    let es := clEntries l.aux d
    let entry (i : Nat) : Bad := body (32 * (i / 9) + 26 * (i % 9) / 8)
    ((List.range (es.length - 1)).map fun i => match es[i]?, es[i + 1]? with | some x, some y => need (decide (x.1 < y.1)) (entry (i + 1)) | _, _ => []).flatten
      ++ ((List.range (d.length / 32)).map fun g =>
          let used := min 9 (l.aux - 9 * g)
          need (leAt d (32 * g) 32 / 2 ^ (26 * used) == 0) (body (32 * g + 26 * used / 8))).flatten
      ++ need (l.nnz == nnzOf (es.map (·.2))) (.field (at' + 9))

/-- Cut a payload into stored tiles from a byte offset, each as long as its label makes it: the tiles as offset, label and body, and what keeps it from being
cut, the fields of a label first (R156, R275). -/
def carried : Nat → Nat → List Byte → List (Nat × Label × List Byte) × List Bad
  | 0, _, d => ([], need d.isEmpty .length)
  | n + 1, off, d =>
    if d.length < 32 then ([], [.length])
    else
      match labelBads off (d.take 32), readLabel (d.take 32) with
      | [], some l =>
        let len := l.imageBytes
        if d.length < len then ([], [.length])
        else
          let (ts, bad) := carried n (off + len) (d.drop len)
          ((off, l, slice d 32 (len - 32)) :: ts, bad)
      | bad, _ => ([], bad)

/-- Faults of tiles that were cut: what `fields` says of a label at its offset, the bodies, and the order of the tiles (R156, R282). -/
def carriedBads (ts : List (Nat × Label × List Byte)) (fields : Nat → Label → List Bad) : List Bad :=
  (ts.map fun x => fields x.1 x.2.1 ++ bodyBads x.1 x.2.1 x.2.2).flatten
    ++ ((List.range (ts.length - 1)).map fun i =>
        match ts[i]?, ts[i + 1]? with
        | some x, some y => need (decide (x.2.1.tileRow < y.2.1.tileRow) || (x.2.1.tileRow == y.2.1.tileRow && decide (x.2.1.tileCol < y.2.1.tileCol))) (.field (y.1 + 13))
        | _, _ => []).flatten

/-! ### GRAPH_LOAD -/

/-- The head (Table 14-9). -/
structure GraphHead where
  graph : Nat
  sec : Nat
  final : Bool
  pinned : Bool
  tiles : Nat
  nodes : Nat
  edges : Nat
  deriving DecidableEq, Repr

def graphHead (b : List Byte) : GraphHead :=
  let h := leAt b 0 32
  { graph := bits h 3 0, sec := bits h 6 4, final := bit h 7, pinned := bit h 8, tiles := bits h 31 16, nodes := bits h 63 32, edges := bits h 103 64 }

/-- Elements of a section, in its element type. -/
def GraphHead.count (h : GraphHead) : Nat := if h.sec = 0 then 2 * (h.nodes + 1) else h.edges
def sectionType (sec : Nat) : ElemType := if sec = 2 then .bf16 else .u32

/-- Store a segment's tiles. -/
def State.putGraph (s : State) (slot : Nat) (b : List Byte) : State :=
  let h := graphHead b
  let ts := (carried h.tiles 32 (b.drop 32)).1
  let s := ts.foldl (fun s x => s.putTile (spaceKey .catalogue slot h.graph 0 x.2.1.tileRow h.sec) (storeCarried x.2.1 x.2.2) none h.pinned) s
  s.updBody slot fun j =>
    let old := (j.graphs.find? fun g => g.id == h.graph).getD { id := h.graph, nodes := h.nodes, edges := h.edges, pinned := h.pinned, sections := [], isSealed := false }
    { j with graphs := j.graphs.filter (fun g => g.id != h.graph) ++ [{ old with sections := insertOnce h.sec old.sections, isSealed := h.final }] }

/-- The first element, by section and index, that fails a check of R67 over the whole catalogue, made at its final segment. -/
def State.catalogueFault (s : State) (slot : Nat) (h : GraphHead) (hasAlias : Bool) : Option (Nat × Nat) :=
  let g := s.graph slot h.graph
  let ns := List.range h.nodes
  match ns.find? fun v => decide (g.off (v + 1) < g.off v) with
  | some v => some (0, 2 * (v + 1))
  | none =>
    if g.off h.nodes ≠ h.edges then some (0, 2 * h.nodes)
    else if h.nodes = 0 ∧ 0 < h.edges then some (1, 0)
    else if hasAlias then
      ns.findSome? fun v =>
        let d := g.off (v + 1) - g.off v
        if 65536 < d then some (4, g.off v)
        else ((List.range d).find? fun k => decide (d ≤ g.aliasOf (g.off v + k) % 65536)).map fun k => (4, g.off v + k)
    else none

/-- The checks of R67 that a tile of a segment allows, `prev` the tile before it where the segment carries that too. -/
def graphTileOk (h : GraphHead) (prev : Option (Label × List Byte)) (l : Label) (body : List Byte) : Bool :=
  let es := clip l.inside (rawElems l body)
  let valid (i : Nat) : Bool := decide (1024 * l.tileRow + i < h.count)
  match h.sec with
  | 0 =>
    let off (es : List Nat) (i : Nat) : Nat := nth es (2 * i) + 2 ^ 32 * nth es (2 * i + 1)
    let last : Nat := match prev with
      | some (k, d) => if k.tileRow + 1 = l.tileRow then off (clip k.inside (rawElems k d)) 511 else 0
      | none => 0
    (List.range 512).all fun i =>
      !valid (2 * i) || (decide (off es i ≤ h.edges) && (512 * l.tileRow + i != h.nodes || off es i == h.edges) && decide ((if i = 0 then last else off es (i - 1)) ≤ off es i))
  | 1 => (List.range 1024).all fun i => !valid i || decide (nth es i < h.nodes)
  | 2 => (List.range 1024).all fun i => !valid i || (decodeFloat .bf16 (nth es i)).isFinite
  | _ => true

/-- Faults of a `GRAPH_LOAD` (R67 to R69, R156, R275, R282): the labels are looked at first, since the length follows from them. -/
def State.graphBads (s : State) (j : Job) (b : List Byte) : List Bad :=
  let h := graphHead b
  let n := leAt b 0 32
  if b.length < 32 then [.length]
  else
    let (ts, cut) := carried h.tiles 32 (b.drop 32)
    if cut ≠ [] then cut
    else
      let old := j.graph? h.graph
      let fields := need (!((old.map (·.isSealed)).getD false)) (.field 0) ++ need (decide (h.sec ≤ 4)) (.field 0)
        ++ need ((old.map (·.pinned)).getD h.pinned == h.pinned) (.field 1) ++ need (bits n 15 9 == 0) (.field 1)
        ++ need ((old.map (·.nodes)).getD h.nodes == h.nodes) (.field 4) ++ need ((old.map (·.edges)).getD h.edges == h.edges) (.field 8)
        ++ need (bits n 255 104 == 0) (.field 13)
        ++ (carriedBads ts fun at' l =>
            need (l.elem == sectionType h.sec) (.field at') ++ need (l.tileCol == h.sec) (.field (at' + 11)) ++ need (decide (1024 * l.tileRow < h.count)) (.field (at' + 13))
              ++ need (l.tensor == h.graph) (.field (at' + 18)))
        ++ ((List.range ts.length).map fun i => match ts[i]? with
            | some x => need (graphTileOk h (if i = 0 then none else ts[i - 1]?.map (·.2)) x.2.1 x.2.2) (.field x.1)
            | none => []).flatten
      if fields ≠ [] then fields
      else
        let after := s.putGraph j.slot b
        let hasAlias := (((after.job? j.slot).bind fun j => j.graph? h.graph).map fun g => g.sections.contains 4).getD false
        let whole : List Bad := match (if h.final then after.catalogueFault j.slot h hasAlias else none) with
          | none => []
          | some (sec, e) => match (if sec = h.sec then ts.find? fun x => x.2.1.tileRow == e / 1024 else none) with
            | some x => [.rel x.1]
            | none => [.state]
        whole ++ (if h.pinned then (if h.final then need (decide (after.pinnedUsed ≤ s.pinnedRegion)) .space else []) else s.spaceBad after)

/-- GRAPH_LOAD (R282). -/
def execGraphLoad (q : Nat) (s : State) : Host.Outcome State Fault Refusal :=
  .next (s.jobCommand q 0x14 (fun _ => true) State.graphBads fun s j f => (s.putGraph j.slot f.cmd.payload).done f .ok [])

/-! ### FEATURE_LOAD -/

structure FeatureHead where
  id : Nat
  tiles : Nat
  graph : Nat
  elem : Nat
  create : Bool
  width : Nat
  deriving DecidableEq, Repr

def featureHead (b : List Byte) : FeatureHead :=
  let h := leAt b 0 32
  { id := bits h 31 0, tiles := bits h 63 48, graph := bits h 67 64, elem := bits h 72 68, create := bit h 73, width := bits h 89 77 }

/-- Replace a feature tensor's tiles (R282). -/
def State.applyFeature (s : State) (slot : Nat) (b : List Byte) : State :=
  let h := featureHead b
  let ts := (carried h.tiles 32 (b.drop 32)).1
  ts.foldl (fun s x => s.putTile (spaceKey .feature slot h.id 0 x.2.1.tileRow x.2.1.tileCol) (storeCarried x.2.1 x.2.2) none false) s

/-- Faults of a `FEATURE_LOAD` (R156, R275, R282): the labels are looked at first, since the length follows from them. -/
def State.featureBads (s : State) (j : Job) (b : List Byte) : List Bad :=
  let h := featureHead b
  let n := leAt b 0 32
  if b.length < 32 then [.length]
  else
    let (ts, cut) := carried h.tiles 32 (b.drop 32)
    if cut ≠ [] then cut
    else
      let old := j.feature? h.id
      let g := j.graph? h.graph
      let nodes := (g.map (·.nodes)).getD 0
      let fields := need (decide (h.id < 0xFFFFF000) && old.isNone == h.create) (.field 0) ++ need (bits n 47 32 == 0) (.field 4)
        ++ need (g.isSome && (old.map (·.graph)).getD h.graph == h.graph) (.field 8)
        ++ need (decide (h.elem ≤ 4) && (old.map (·.elem)).getD h.elem == h.elem) (.field 8) ++ need (bits n 76 74 == 0) (.field 9)
        ++ need (within 1 4096 h.width && (old.map (·.width)).getD h.width == h.width) (.field 9) ++ need (bits n 255 90 == 0) (.field 11)
        ++ (carriedBads ts fun at' l =>
            need (l.elem == elemType h.elem) (.field at') ++ need (decide (32 * l.tileCol < h.width)) (.field (at' + 11)) ++ need (decide (32 * l.tileRow < nodes)) (.field (at' + 13))
              ++ need (l.tensor == h.id) (.field (at' + 18)))
      if fields ≠ [] then fields else s.spaceBad (s.applyFeature j.slot b)

/-- FEATURE_LOAD (R282): the tensor exists from its acceptance, its tiles change at its acceptance point. -/
def execFeatureLoad (q : Nat) (s : State) : Host.Outcome State Fault Refusal :=
  .next (s.jobCommand q 0x15 (fun _ => true) State.featureBads fun s j f =>
    let h := featureHead f.cmd.payload
    let r : FeatureRec := { id := h.id, graph := h.graph, elem := h.elem, width := h.width, accept := f.accept.getD 0 }
    let s := if h.create then s.updBody j.slot fun b => { b with features := b.features ++ [r] } else s
    s.atPoint j f fun s => s.applyFeature j.slot f.cmd.payload)

/-! ### PARAM_READ and PARAM_WRITE (R31, R287) -/

structure ParamHead where
  param : Nat
  part : Nat
  first : Nat
  rows : Nat
  deriving DecidableEq, Repr

def paramHead (b : List Byte) : ParamHead :=
  let h := leAt b 0 32
  { param := bits h 31 0, part := bits h 33 32, first := bits h 63 48, rows := bits h 79 64 + 1 }

/-- Bytes of the rows a head names. -/
def Job.partBytes (j : Job) (p : Param) (h : ParamHead) : Nat := h.rows * pRecCols p.rec' * ((j.group (pRecGroup p.rec')).partType h.part).bits / 8

def State.paramBads (s : State) (write : Bool) (j : Job) (b : List Byte) : List Bad :=
  let h := paramHead b
  let n := leAt b 0 32
  if b.length < 32 || (!write && b.length != 32) then [.length]
  else
    let res := need (bits n 47 34 == 0) (.field 4) ++ need (bits n 255 80 == 0) (.field 10)
    match j.param? h.param with
    | none => .field 0 :: res
    | some p =>
      let g := j.group (pRecGroup p.rec')
      let own := need (s.owns p) (.field 0) ++ need (g.hasPart h.part && !(write && h.part == 3)) (.field 4) ++ res
      if own ≠ [] then own
      else
        need (decide (h.first + h.rows ≤ pRecRows p.rec')) (.rel 6)
          ++ (if write then need (b.length == 32 + j.partBytes p h) .length else need (decide (j.partBytes p h ≤ 16320)) (.rel 6))

/-- The data a read returns (R287). -/
def State.paramData (s : State) (j : Job) (b : List Byte) : List Byte :=
  let h := paramHead b
  match j.param? h.param with
  | none => []
  | some p =>
    let g := j.group (pRecGroup p.rec')
    let cols := pRecCols p.rec'
    if h.part = 3 then
      ((List.range h.rows).map fun i =>
        let r := h.first + i
        ((List.range cols).map fun c =>
          let img := s.image (j.tensorKey h.param 0 0 0 (r / 32) (c / 32))
          let v := match readLabel (img.take 32) with
            | some l => decodeScaled l.elem (if l.elem.scaled then [(l.scale : Int) - 127] else []) (nth (decodeTile img) (32 * (r % 32) + c % 32))
            | none => .zero false
          toLE 4 (round32 v)).flatten).flatten
    else
      ((List.range h.rows).map fun i => packElems (g.partType h.part).bits (rowOf (p.part h.part) cols (h.first + i))).flatten

/-- Replace rows of a part; a master's working copy follows, here and on the job's other positions (R31, R231, R326). -/
def State.applyParam (s : State) (slot step : Nat) (b : List Byte) : State :=
  let h := paramHead b
  match (s.job? slot) with
  | none => s
  | some j =>
    match j.param? h.param with
    | none => s
    | some p =>
      let g := j.group (pRecGroup p.rec')
      let cols := pRecCols p.rec'
      let w := (g.partType h.part).bits
      let data := b.drop 32
      let s := s.updParam slot h.param fun p =>
        (List.range h.rows).foldl (fun (p : Param) i => p.setRow h.part (h.first + i) (unpackElems w cols (data.drop (i * cols * w / 8)))) p
      if h.part = 0 then (s.writeCopy slot h.param step g (j.exp h.param step)).broadcastFrom slot h.param step (pRecOwner p.rec') 1 else s

/-- PARAM_READ (R31, R287): answered after the update of the last step accepted before it. -/
def execParamRead (q : Nat) (s : State) : Host.Outcome State Fault Refusal :=
  .next (s.jobCommand q 0x30 (fun _ => true) (fun s => s.paramBads false) fun s j f =>
    if j.steps.isEmpty && j.deferred.isEmpty then s.done f .ok (s.paramData j f.cmd.payload) else s.atPoint j f id)

/-- PARAM_WRITE (R31, R287). -/
def execParamWrite (q : Nat) (s : State) : Host.Outcome State Fault Refusal :=
  .next (s.jobCommand q 0x31 (fun _ => true) (fun s => s.paramBads true) fun s j f =>
    s.atPoint j f fun s => s.applyParam j.slot j.body.nextStep f.cmd.payload)

/-- Perform what waited for an acceptance point (R31, R133). -/
def State.runDeferred (s : State) (slot : Nat) (d : Deferred) : State :=
  match s.job? slot with
  | none => s
  | some j =>
    match d.opcode with
    | 0x11 => (s.applyLoad slot d.payload d.edition).finishAsker d.asker .ok []
    | 0x15 => (s.applyFeature slot d.payload).finishAsker d.asker .ok []
    | 0x31 => (s.applyParam slot ((d.after.getD 0) + 1) d.payload).finishAsker d.asker .ok []
    | _ => s.finishAsker d.asker .ok (s.paramData j d.payload)

/-- Whether nothing that a deferred command waits for is left: a step accepted before it, or a move of a page it writes (R31, R133, R266). -/
def State.pointReached (s : State) (j : Job) (d : Deferred) : Bool :=
  (match d.after with | some n => j.steps.all fun y => decide (n < y.num) | none => true) && !(d.opcode == 0x11 && s.loadMoves j d.payload d.edition)

/-- Perform in acceptance order what a job has deferred, up to the first that must still wait; `fuel` bounds their number. -/
def runDeferredsOf (slot : Nat) : Nat → State → State
  | 0, s => s
  | fuel + 1, s =>
    match s.job? slot with
    | none => s
    | some j =>
      match j.deferred with
      | d :: rest => if s.pointReached j d then runDeferredsOf slot fuel ((s.updJob slot fun j => { j with deferred := rest }).runDeferred slot d) else s
      | [] => s

/-- Perform in acceptance order what a job has deferred, up to the first that must still wait. -/
def State.runDeferreds (s : State) (slot : Nat) : State := runDeferredsOf slot (((s.job? slot).map fun j => j.deferred.length).getD 0) s

/-! ### RESULT_READ and RESULT_RELEASE (R286) -/

def Job.result? (j : Job) (n : Nat) : Option Result := j.body.results.find? fun r => r.step == n

/-- Header faults of a step number no result answers (R278, R286). -/
def Job.stepBad (j : Job) (n : Nat) : List Bad := need ((j.result? n).isSome || (j.step? n).isSome) .header

def State.resultBads (s : State) (f : InFlight) : List Bad :=
  let b := f.cmd.payload
  let h := leAt b 0 16
  match s.jobOf f with
  | none => [.header]
  | some j =>
    need (b.length == 16) .length ++ j.stepBad f.cmd.step ++ need (within 1 16320 (bits h 47 32)) (.field 4) ++ need (bits h 127 48 == 0) (.field 6)
      ++ match j.result? f.cmd.step with
        | some r => need (decide (bits h 31 0 < r.image.length)) (.field 0)
        | none => []

/-- The estimate with `NOT_READY`: a hint within 1 to 1,000,000 (R286). -/
def retryHint (n : Nat) : Nat := Config.freeNat n % 1000000 + 1

/-- Answer a step that is not complete (R286). -/
def State.notReady (s : State) (f : InFlight) : State :=
  let (i, s) := draw s
  s.finish f.cmd.session f.cmd.queue f.cmd.seq .notReady [] (retryHint i)

/-- RESULT_READ (R286). -/
def execResultRead (q : Nat) (s : State) : Host.Outcome State Fault Refusal :=
  .next (s.runCommand q 0x22 (fun _ => true) State.resultBads fun s f =>
    match s.jobOf f with
    | none => s
    | some j =>
      match j.result? f.cmd.step with
      | some r =>
        let h := leAt f.cmd.payload 0 16
        let off := bits h 31 0
        let n := min (bits h 47 32) (r.image.length - off)
        let again := r.delivered.any fun d => decide (off < d.1 + d.2) && decide (d.1 < off + n)
        let mark (x : Result) : Result := if x.step = r.step then { x with delivered := x.delivered ++ [(off, n)] } else x
        (s.updBody j.slot fun b => { b with results := b.results.map mark }).done f (if again then .okRepeat else .ok) (slice r.image off n)
      | none => if ((j.step? f.cmd.step).map (·.stalled)).getD false then s.done f .stalled [] else s.notReady f)

/-- RESULT_RELEASE (R286). -/
def execResultRelease (q : Nat) (s : State) : Host.Outcome State Fault Refusal :=
  .next (s.runCommand q 0x23 (fun _ => true)
    (fun s f => match s.jobOf f with | none => [.header] | some j => need f.cmd.payload.isEmpty .length ++ j.stepBad f.cmd.step)
    fun s f =>
      match s.jobOf f with
      | none => s
      | some j =>
        if (j.result? f.cmd.step).isSome then
          (s.updBody j.slot fun b => { b with results := b.results.filter fun r => r.step != f.cmd.step }).done f .ok []
        else s.notReady f)

end Sys2Proof.Machine
end

