-- ==== Sys2Proof/Machine/Submit.lean ====
section
/-!
DEFINITION. Submitting steps (R23 to R30, R68, R72, R283), supplying annex rows (R99, R100, R284), writing role map entries (R45, R46), and exporting and
importing Deposits (R288, R366, R397, R398).
-/
namespace Sys2Proof.Machine
open Sys2Proof

/-! ### STEP_SUBMIT -/

/-- The payload as read (R283). -/
structure SubmitHead where
  mbs : Nat
  times : Bool
  total : Nat
  /-- first byte of the seed ids -/
  seedAt : Nat
  deriving DecidableEq, Repr

def submitHead (b : List Byte) : SubmitHead :=
  let h := leAt b 0 32
  { mbs := bits h 15 0, times := bit h 16, total := bits h 63 32, seedAt := 32 + 8 * ceilDiv (bits h 15 0) 4 }

def submitCounts (b : List Byte) : List Nat := leList 2 (submitHead b).mbs (slice b 32 (2 * (submitHead b).mbs))

/-- Seeds of every micro-batch with their times, zero without seed times. -/
def submitSeeds (b : List Byte) : List (List (Nat × Nat)) :=
  let h := submitHead b
  let one (i : Nat) : Nat × Nat := (leAt b (h.seedAt + 4 * i) 4, if h.times then leAt b (h.seedAt + 4 * h.total + 4 * i) 4 else 0)
  ((submitCounts b).foldl (fun (acc : Nat × List (List (Nat × Nat))) n => (acc.1 + n, acc.2 ++ [(List.range n).map fun i => one (acc.1 + i)])) (0, [])).2

/-- Sections that a `SAMPLE` descriptor needs of its catalogue (Table 04-1). -/
def Desc.needsSections (d : Desc) : List Nat :=
  let modes := (List.range d.hops).map d.hopMode
  [0, 1] ++ (if modes.contains 2 ∨ d.f 135 134 = 1 then [2] else []) ++ (if modes.contains 4 then [3] else []) ++ (if modes.contains 1 then [4] else [])

/-- Role map words of the job's tiles as they stand (R29). -/
def State.jobRoles (s : State) (slot : Nat) : List (Nat × Nat) :=
  ((List.range 256).filter fun t => roleA (s.roleWord t) != 0 && roleSlot (s.roleWord t) == slot).map fun t => (t, s.roleWord t)

def State.submitBads (s : State) (f : InFlight) : List Bad :=
  let b := f.cmd.payload
  match s.jobOf f with
  | none => [.header]
  | some j =>
    let n := leAt b 0 32
    let h := submitHead b
    let cs := submitCounts b
    let sam := sampleOf j.programs
    let most := (sam.map fun d => d.f 205 192).getD 8192
    if b.length < 32 then [.length]
    else if within 1 4096 h.mbs = false then [.field 0]
    else
      let g := sam.bind fun d => j.graph? (d.f 131 128)
      need (b.length == h.seedAt + 4 * h.total * (if h.times then 2 else 1)) .length ++ need (f.cmd.step == j.body.nextStep) .header
        ++ need (bits n 31 17 == 0) (.field 2) ++ need (bits n 255 64 == 0) (.field 8)
        ++ ((List.range cs.length).map fun i => need (within 1 most (nth cs i)) (.field (32 + 2 * i))).flatten
        ++ need ((slice b (32 + 2 * h.mbs) (h.seedAt - 32 - 2 * h.mbs)).all (· == 0)) (.field (32 + 2 * h.mbs))
        ++ need (sum cs == h.total) (.rel 4)
        ++ (match sam, g with
            | some _, some g => ((List.range h.total).map fun i => need (decide (leAt b (h.seedAt + 4 * i) 4 < g.nodes)) (.field (h.seedAt + 4 * i))).flatten
            | _, _ => [])
        ++ (match sam with
            | some d =>
              need (h.times || !((List.range d.hops).any fun k => d.hopMode k == 4)) (.field 2)
                ++ need (match g with | some g => g.isSealed && (d.needsSections.all fun x => g.sections.contains x) | none => false) .state
            | none => [])
        ++ need (!(j.programs.any fun p => p.role == 1) || (s.jobRoles j.slot).any fun p => roleA p.2 == 1 || roleB p.2 == 1) .state

/-- The piece of a micro-batch that is not sampled (R72). -/
def wholePiece (mb seeds : Nat) : PieceRec :=
  { mb := mb, summary := { piece := 0, first := 0, seedCount := seeds, last := true, n := [], e := [], t := [] } }

/-- The step as accepted (R29): bound to the entries, editions and roles that stand now. -/
def State.newStep (s : State) (j : Job) (f : InFlight) : StepRec :=
  let seeds := submitSeeds f.cmd.payload
  let free := (sampleOf j.programs).isNone
  { num := f.cmd.step, accept := f.accept.getD 0, asker := f.asker, seeds := seeds, timed := (submitHead f.cmd.payload).times, bind := j.body.dict,
    editions := j.body.tables.map fun t => (t.id, t.edition), roles := s.jobRoles j.slot,
    pieces := if free then (List.range seeds.length).map fun m => wholePiece m (seeds.getD m []).length else [],
    formed := if free then List.range seeds.length else [],
    dispatched := [], completed := [], ledgers := [], staged := [], adds := [], parts := [], checks := [], bound := [], updates := [], gathered := [],
    ended := [], ownEnd := false, sentTo := [], counts := [], promised := [], copies := [], scaled := [], seeded := [], rescaled := [], frozen := [], rangeTiles := [], outOfTable := false,
    nonfinite := false, stalled := false, effects := [], handed := [], handoffs := [], watched := false, refreshed := false, recorded := false, poisonRuns := [], spaceWait := [], tallies := [],
    order := 1 + (s.jobs.map fun k => k.steps.foldl (fun m y => max m y.order) 0).foldl max 0,
    epochs := (s.jobRoles j.slot).map fun p => (p.1, (s.unit p.1).epoch), moved := [], again := [] }

/-- Freezes of the watch take effect as a write at the acceptance of the next step (R223). -/
def State.runFreezes (s : State) (slot : Nat) : State :=
  s.updJob slot fun j =>
    let j := j.body.freezes.foldl (fun (j : Job) g =>
      let w := (j.group g).w
      if bit w 8 then j else j.setEntry (groupKey g).1 (groupKey g).2 (.blk (toLE 64 (w + 256)))) j
    { j with body := { j.body with freezes := [] } }

/-- An exponent from a history (R201): the largest of its last entries against F; it stays where that is zero. -/
def exponentOf (history : List Val) (len f : Nat) (last : Int) : Int :=
  let a := largest (history.drop (history.length - len))
  if a.eq (.zero false) then last else leastExp a f

/-- F of R201. -/
def ElemType.top (t : ElemType) : Nat := match t with | .e4m3 => 448 | .e5m2 => 57344 | .int8 => 127 | _ => 256

/-- Histories cut to the length a step binds, and its exponents fixed from them, where the steps before it are already accounted for; otherwise the last of
those does both (R201, R202). -/
def State.bindScales (s : State) (slot step : Nat) : State :=
  s.updJob slot fun j =>
    let h := ((j.step? step).map fun x => x.num' 0x5110 1).getD 16
    let fix (w : Watch) : Watch :=
      if !(j.steps.filter fun y => decide (y.num < step)).all fun y => y.scaled.contains w.tensor then w else
      let hist := w.history.drop (w.history.length - h)
      let f := ElemType.top (((j.tensor? w.tensor).map tRecType).getD .fp32)
      let last := if step = 0 then 0 else j.exp w.tensor (step - 1)
      { w with history := hist, exps := w.exps.map fun p => if p.1 = step then (p.1, exponentOf hist h f last) else p }
    { j with body := { j.body with watches := j.body.watches.map fix } }

/-- Body of a `BINDING` record: the entries that differ from the previous step's set, then editions and roles (R29, R359). -/
def bindingBody (prev : Option StepRec) (x : StepRec) : List Byte :=
  let new := x.bind.filter fun p => match prev with | some y => aGet y.bind p.1 != some p.2 | none => true
  (new.map fun p => toLE 8 p.1 ++ (match p.2 with | .num n => toLE 8 n | .blk b => b)).flatten
    ++ (x.editions.map fun e => toLE 8 e.1 ++ toLE 8 e.2).flatten ++ (x.roles.map fun r => toLE 4 r.1 ++ toLE 4 r.2).flatten

/-! ### ROW_SUPPLY -/

structure SupplyHead where
  call : Nat
  table : Nat
  ack : Bool
  count : Nat
  deriving DecidableEq, Repr

def supplyHead (b : List Byte) : SupplyHead :=
  let h := leAt b 0 32
  { call := bits h 31 0, table := bits h 43 32, ack := bit h 44, count := bits h 79 64 }

/-- A row record's data (R284): its meta granule, elements and per-element state. -/
def readRowRecord (wp moments mbits : Nat) (d : List Byte) : Nat × RowData :=
  let m := leAt d 8 32
  let cls := bits m 65 64
  let eb := wp * (classType cls).bits / 8
  let st (k : Nat) := unpackElems mbits wp (d.drop (40 + eb + k * (wp * mbits / 8)))
  (bits (leAt d 0 8) 39 0,
   { cls := cls, elems := unpackElems (classType cls).bits wp (d.drop 40), scale := if cls = 2 then bits m 7 0 else 0, a := if cls = 3 then bits m 31 16 else 0,
     b := if cls = 3 then bits m 47 32 else 0, touch := bits m 63 48, rule := bits m 255 128, m := if 1 ≤ moments then st 0 else [],
     v := if 2 ≤ moments then st 1 else [], mbf := mbits == 16 })

/-- Bytes of a row record. -/
def rowRecordBytes (wp moments mbits cls : Nat) : Nat := 40 + wp * (classType cls).bits / 8 + moments * (wp * mbits / 8)

def Job.call? (j : Job) (id : Nat) : Option Call := j.body.calls.find? fun c => c.id == id && decide (0 < c.sends)

/-- Offsets and rows of the records of a supply, each as long as the class in its meta granule makes it (R284). -/
def Job.supplyRecords (j : Job) (t : Table) (b : List Byte) : List (Nat × Nat) × Nat :=
  let mo := (j.group t.group).tableMoments
  let mb := (j.group t.group).momentType.bits
  (List.range (supplyHead b).count).foldl (fun (acc : List (Nat × Nat) × Nat) _ =>
    (acc.1 ++ [(acc.2, bits (leAt b acc.2 8) 39 0)], acc.2 + rowRecordBytes t.wp mo mb (bits (leAt b (acc.2 + 8) 32) 65 64))) ([], 32)

/-- Faults of a row record at an offset, `called` the class its call gives the row (Table 06-4, R99, R197, R230, R284). -/
def rowRecordBads (rule : Nat) (called : Option Nat) (base : Nat) (d : List Byte) : List Bad :=
  let m := leAt d 8 32
  let cls := bits m 65 64
  let at' := base + 8
  need called.isSome (.field base) ++ need (bits (leAt d 0 8) 63 40 == 0) (.field (base + 5))
    ++ need (if cls = 2 then bits m 7 0 != 255 else bits m 7 0 == 0) (.field at') ++ need (bits m 15 8 == 0) (.field (at' + 1))
    ++ need (cls == 3 || bits m 31 16 == 0) (.field (at' + 2)) ++ need (cls == 3 || bits m 47 32 == 0) (.field (at' + 4))
    ++ need (called.getD cls == cls && bits m 127 66 == 0) (.field (at' + 8))
    ++ need (decide (bits m 255 128 < (if rule = 2 then 2 ^ 32 else 1))) (.field (at' + 16))

/-- Faults of a `ROW_SUPPLY` (R99, R275, R284): the table and the records' fields are looked at first, since the length follows from them. A record that the
payload cuts short is a row of another length than its call's; bytes beyond the last record make the payload's length wrong. -/
def State.supplyBads (s : State) (f : InFlight) : List Bad :=
  let b := f.cmd.payload
  let n := leAt b 0 32
  let h := supplyHead b
  match s.jobOf f with
  | none => [.header]
  | some j =>
    let res := need (bits n 47 45 == 0) (.field 5) ++ need (bits n 63 48 == 0) (.field 6) ++ need (bits n 95 80 == 0) (.field 10) ++ need (bits n 255 96 == 0) (.field 12)
    if b.length < 32 then [.length]
    else if h.ack then
      if b.length ≠ 32 then [.length]
      else
        res ++ need (h.count == 0) (.field 8) ++ need (j.body.held.any fun r => r.returns.contains h.call) (.field 0)
          ++ need (j.body.held.any fun r => r.returns.contains h.call && r.table == h.table) (.field 4)
    else
      match j.table? h.table with
      | none => [.field 4]
      | some t =>
        let rs := j.supplyRecords t b
        let ends := rs.1.drop 1 |>.map (·.1) |>.append [rs.2]
        let fields := res ++ need (within 1 64 h.count) (.field 8)
          ++ match j.call? h.call with
            | none => [.field 0]
            | some c =>
              need (c.table == h.table) (.field 4)
                ++ (rs.1.map fun r => rowRecordBads (j.group t.group).rule ((c.rows.find? fun x => x.row == r.2).map (·.cls)) r.1 (b.drop r.1)).flatten
                ++ ((rs.1.zip ends).map fun r => need (decide (r.2 ≤ b.length)) (.field r.1.1)).flatten
        if fields ≠ [] then fields else need (b.length == rs.2) .length

/-- Rows of a supply not supplied before: row and data; a second record of a row is discarded (R99). -/
def Job.newRows (j : Job) (b : List Byte) : List (Nat × RowData × List Byte) :=
  let h := supplyHead b
  match j.call? h.call, j.table? h.table with
  | some c, some t =>
    let mo := (j.group t.group).tableMoments
    let mb := (j.group t.group).momentType.bits
    ((j.supplyRecords t b).1.map fun r =>
      let d := (readRowRecord t.wp mo mb (b.drop r.1)).2
      (r.2, d, slice b r.1 (rowRecordBytes t.wp mo mb d.cls))).foldl
        (fun l x => if (c.rows.any fun y => y.row == x.1 && !y.supplied) && !(l.any fun y => y.1 == x.1) then l ++ [x] else l) []
  | _, _ => []

/-- What a supply is logged as (R361): whole, as digests, or not at all where it brings nothing new (R99). -/
def State.supplyRecord (s : State) (f : InFlight) : Option (Nat × List Byte) :=
  match s.jobOf f with
  | none => none
  | some j =>
    let rows := j.newRows f.cmd.payload
    if rows = [] then none
    else if j.num 0x7100 2 = 0 then some (1, f.cmd.payload)
    else some (2, (rows.map fun r => toLE 8 r.1 ++ toLE 32 (Config.sha512 r.2.2)).flatten)

/-- Free held rows that nothing needs any longer (R100), and calls whose rows are supplied and whose steps have completed (R99). -/
def State.freeHeld (s : State) (slot : Nat) : State :=
  s.updJob slot fun j =>
    let live (x : Nat) : Bool := j.steps.any fun y => y.num == x
    { j with body := { j.body with
      held := (j.body.held.map fun r => { r with steps := r.steps.filter live }).filter fun r => !(r.steps.isEmpty && !r.changed && r.returns.isEmpty)
      calls := j.body.calls.filter fun c => !(decide (0 < c.sends) && (c.rows.all (·.supplied)) && !(c.steps.any live)) } }

/-- Whether a supplied row's record has another digest than a replayed log has for that row (R361). -/
def Job.unlikeRow (j : Job) (row : Nat) (record : List Byte) : Bool :=
  let logged := ((j.decisions.filter fun r => r.kind == 2).map fun r => (chunks 40 r.body.length r.body).filter fun e => leAt e 0 8 == row).flatten
  !logged.isEmpty && logged.all fun e => leAt e 8 32 != Config.sha512 record % 2 ^ 256

/-- Take supplied rows (R99, R100): they are held, once for the editions that share their page (R134), and a step they stalled runs on. In a replay a row that
differs from its logged digest makes the job's recovery impossible (R361, R376). -/
def State.takeSupply (s : State) (slot : Nat) (b : List Byte) : State :=
  match s.job? slot with
  | none => s
  | some j =>
    let h := supplyHead b
    match j.call? h.call with
    | none => s
    | some c =>
      let rows := j.newRows b
      let own (row : Nat) : Nat := ((j.table? c.table).map fun t => t.owner c.edition (row / 32)).getD c.edition
      let fresh := rows.filter fun r => (j.body.held? c.table (own r.1) r.1).isNone
      let held := fresh.map fun r => ({ call := c.id, table := c.table, edition := own r.1, row := r.1, data := r.2.1, steps := c.steps, changed := false, returns := [], bound := c.edition } : HeldRow)
      let join (x : HeldRow) : HeldRow :=
        if x.table = c.table ∧ rows.any fun r => r.1 == x.row && own r.1 == x.edition then { x with steps := (x.steps ++ c.steps).eraseDups } else x
      let supply (x : CallRow) : CallRow := if rows.any fun r => r.1 == x.row then { x with supplied := true } else x
      let upd (x : Call) : Call := if x.id = c.id then { x with rows := x.rows.map supply } else x
      let s := s.updBody slot fun b => { b with held := b.held.map join ++ held, calls := b.calls.map upd }
      let s := if rows.any fun r => j.unlikeRow r.1 r.2.2 then s.updJob slot fun j => { j with unlike := true } else s
      s.updJob slot fun j =>
        let waiting := (j.body.calls.filter fun c => c.stalled && !(c.rows.all (·.supplied))).map (·.steps) |>.flatten
        { j with steps := j.steps.map fun x => if c.stalled && c.steps.contains x.num && !waiting.contains x.num && x.spaceWait.isEmpty then { x with stalled := false } else x }

/-- Rows of a supply taken from a log (R361): they are held for the steps now open, whether or not the replay has called them yet. -/
def State.replaySupply (s : State) (slot : Nat) (b : List Byte) : State :=
  match s.job? slot with
  | none => s
  | some j =>
    let h := supplyHead b
    match j.table? h.table with
    | none => s
    | some t =>
      let mo := (j.group t.group).tableMoments
      let mb := (j.group t.group).momentType.bits
      let rows := (j.supplyRecords t b).1.map fun r => (r.2, (readRowRecord t.wp mo mb (b.drop r.1)).2)
      let open' := j.steps.map (·.num)
      let eds := (j.steps.map fun x => (x.edition? t.id).getD t.edition).eraseDups
      let held := (rows.map fun r => (eds.map fun e => (t.owner e (r.1 / 32), e)).foldl (fun (l : List (Nat × Nat)) o => if l.any fun p => p.1 == o.1 then l else l ++ [o]) []
        |>.map fun o => ({ call := h.call, table := t.id, edition := o.1, row := r.1, data := r.2, steps := open', changed := false, returns := [], bound := o.2 } : HeldRow)).flatten
      s.updBody slot fun b =>
        { b with held := b.held ++ held.filter fun x => (b.held? x.table x.edition x.row).isNone,
                 calls := b.calls.map fun c => if c.table = t.id then { c with rows := c.rows.map fun x => if rows.any fun r => r.1 == x.row then { x with supplied := true } else x } else c }

/-- ROW_SUPPLY_ACK (R284): the return is acknowledged, so its rows can go. -/
def execRowSupplyAck (q : Nat) (s : State) : Host.Outcome State Fault Refusal :=
  .next (s.runCommand q 0x21 (fun c => (supplyHead c.payload).ack) State.supplyBads fun s f =>
    match f.job with
    | none => s
    | some slot =>
      let id := (supplyHead f.cmd.payload).call
      let ack (r : HeldRow) : HeldRow := { r with returns := r.returns.filter (· != id) }
      ((s.updBody slot fun b => { b with held := b.held.map ack }).freeHeld slot).done f .ok [])

/-! ### ROLE_MAP_WRITE -/

/-- Checks of a role map write (R45, R238). -/
def State.roleWriteBads (s : State) (f : InFlight) : List Bad :=
  let h := dictHead f.cmd.payload
  let data := f.cmd.payload.drop 16
  let w := leNat data
  let t := 64 * (h.index - 0x4010) + h.sub - 1
  let cur := s.roleWord t
  dictHeadBads f.cmd.payload ++ need (within 1 64 h.sub) (.field 0) ++ need (data.length == 4) .length
    ++ match f.job.bind s.job? with
       | none => [.field 0]
       | some j =>
         roleWordBads j.programs w 16
           ++ need (roleA cur == 0 || roleSlot cur == j.slot) (.field 19)
           ++ (if roleA w = 0 then []
               else
                 need (roleSlot w == j.slot) (.field 19)
                   ++ need (roleStageOk (decide (1 < pipeRanks j.pipeline ∨ 1 < pipeStages j.pipeline)) (pipeStages j.pipeline)
                         (rankIn j.positions (pipeRanks j.pipeline) s.fabric.position) j.branches w) (.rel 16))

/-- Whether work of a virtual stage has been dispatched in a step: of its tile group or of its branches (R238, R243). -/
def Job.stageBegun (j : Job) (x : StepRec) (vstage : Nat) : Bool :=
  x.dispatched.any fun p =>
    if p.1.role = 6 then j.branches.any fun w => bits w 3 0 == p.1.group && bits w 11 8 == vstage
    else (p.1.role == 3 || p.1.role == 4) && p.1.group == vstage

/-- Cancel a rebalance's move of a tile where no step it binds has begun its stage's work: those steps are bound as before it (R245, R250). -/
def State.cancelMove (s : State) (slot tile : Nat) : State :=
  s.updJob slot fun j =>
    let vstage (x : StepRec) : Nat := ((j.branches.find? fun w => bits w 3 0 == groupA (x.roleWord tile)).map fun w => bits w 11 8).getD 0
    let moved := j.steps.filter fun x => x.moved.any fun m => m.tile == tile
    if moved.any fun x => j.stageBegun x (vstage x) then j
    else { j with steps := j.steps.map fun x =>
      match x.moved.find? fun m => m.tile == tile with
      | none => x
      | some m => { x with roles := x.roles.map (fun p => if p.1 = tile then (tile, m.word) else p), epochs := aSet x.epochs tile m.epoch,
                           moved := x.moved.filter fun m => m.tile != tile } }

/-- ROLE_MAP_WRITE (R45): it binds steps accepted after it (R46), and cancels a rebalance's move of the tile not yet applied (R245). -/
def execRoleMapWrite (q : Nat) (s : State) : Host.Outcome State Fault Refusal :=
  .next (s.runCommand q 0x40 (fun c => let h := dictHead c.payload; h.op == 1 && within 0x4010 0x4013 h.index && decide (0 < h.sub))
    State.roleWriteBads fun s f =>
      let h := dictHead f.cmd.payload
      let tile := 64 * (h.index - 0x4010) + h.sub - 1
      ((match f.job with | some slot => s.cancelMove slot tile | none => s).setRole tile (leNat (f.cmd.payload.drop 16))).done f .ok [])

/-! ### DEPOSIT_EXPORT -/

/-- Bytes no rule fixes: ciphertext, tags and signatures. -/
def openBytes (seed n : Nat) : List Byte := (List.range n).map fun k => BitVec.ofNat 8 (Config.openBits 16 (seed * 2 ^ 24 + k))

/-- A chunk head (R288). -/
def chunkHead (id chunk : Nat) (last : Bool) (n : Nat) : List Byte := toLE 32 (id + chunk * 2 ^ 32 + (if last then 2 ^ 64 else 0) + n * 2 ^ 96)

/-- The manifest of an export (Table 20-8), its digest and signature free, with a chain of the alias and identity certificates. -/
def State.manifest (s : State) (j : Job) (d : Deposit) (full : Bool) (chunks seed : Nat) : List Byte :=
  let n := leNat (j.tenant.take 32) + j.key * 2 ^ 256 + (d.step.getD 0) * 2 ^ 320 + d.id * 2 ^ 384 + (if full then 0 else j.exported.getD 0) * 2 ^ 416
    + chunks * 2 ^ 448 + s.sec.numericsGen * 2 ^ 480 + s.fabric.position * 2 ^ 496
  let chain := s.certChain
  toLE 64 n ++ openBytes seed 196 ++ toLE 4 chain.length ++ zeros 248 ++ chain

/-- The chunk responses of an export (R288, R397): whole chunks of at most 16,288 bytes, then the manifest. -/
def State.exportChunks (s : State) (j : Job) (f : InFlight) (d : Deposit) (full : Bool) (seed : Nat) : List Response × Nat :=
  let size := sum (d.tiles.map fun t => t.image.length)
  let n := max 1 (ceilDiv size 16256) + 1
  let rsp (b : List Byte) : Response :=
    { typ := .depositChunk, status := .ok, queue := f.cmd.queue, session := 0, seq := 0, tag := f.cmd.tag, step := 0, retry := 0, payload := b, cmd := none }
  let data (i : Nat) : List Byte := let k := min 16256 (size - 16256 * i) + 16; chunkHead d.id i false k ++ openBytes (seed + i) k
  let m := s.manifest j d full n seed
  ((List.range (n - 1)).map (fun i => rsp (data i)) ++ [rsp (chunkHead d.id (n - 1) true (m.length + 16) ++ m ++ openBytes (seed + n) 16)], n)

/-- DEPOSIT_EXPORT (R366): the last committed Deposit, as it stands at acceptance. -/
def execDepositExport (q : Nat) (s : State) : Host.Outcome State Fault Refusal :=
  .next (s.jobCommand q 0x38 (fun _ => true) (fun _ _ b => need (b.length == 16) .length ++ need (bits (leNat b) 127 1 == 0) (.field 0)) fun s j f =>
    match j.deposit with
    | none => s.done f .ok (zeros 64)
    | some d =>
      let (i, s) := draw s
      let full := bit (leNat f.cmd.payload) 0 || j.exported.isNone
      let (rs, n) := s.exportChunks j f d full i
      let answer := toLE 8 (d.id + n * 2 ^ 32) ++ toLE 8 (d.step.getD 0) ++ zeros 16 ++ toLE 32 (Config.freeNat i)
      let frags := (List.range rs.length).map fun k =>
        ({ session := f.cmd.session, rsp := rs.getD k (finalResponse f.cmd .ok [] 0), last := if k + 1 = rs.length then some (f.asker, answer) else none } : Fragment)
      (s.updJob j.slot fun j => { j with exported := some d.id }).holdFragments j.slot frags)

/-! ### DEPOSIT_IMPORT -/

/-- What the chunks of an import hold, once decrypted and verified: the verdicts of their tags, and for a final import of the manifest's chain and
signature, the generation and tenant it names, and the Deposit (R288, R398). -/
def importHead (b : List Byte) : Nat := leAt b 0 32

/-- Faults of the chunks after the head, from a chunk number and a payload offset on: they are whole and as many as it says, in order, and the `res` fields of their
heads are zero (R6, R288). -/
def chunkBads : Nat → Nat → Nat → List Byte → List Bad
  | 0, _, _, d => need d.isEmpty .length
  | n + 1, k, base, d =>
    let len := 32 + leAt d 12 4
    if d.length < 32 ∨ d.length < len then [.length]
    else need (leAt d 4 4 == k) (.field (base + 4)) ++ need (bits (leAt d 8 4) 31 1 == 0) (.field (base + 8)) ++ need (leAt d 16 16 == 0) (.field (base + 16))
      ++ chunkBads n (k + 1) (base + len) (d.drop len)

def State.importBads (s : State) (tagsOk signed : Bool) (gen : Nat) (tenant : List Byte) (d : Deposit) (f : InFlight) : List Bad :=
  let b := f.cmd.payload
  let h := importHead b
  match s.jobOf f with
  | none => [.header]
  | some j =>
    let final := bit h 1
    if b.length < 32 then [.length]
    else
      chunkBads (bits h 95 64) (bits h 63 32) 32 (b.drop 32) ++ need (j.state == .restoring) .state
        ++ need (bits h 31 2 == 0) (.field 0) ++ need (bits h 63 32 == j.nextChunk) (.field 4) ++ need (bits h 255 96 == 0) (.field 12)
        ++ need (tagsOk && decide ((j.entry 0x8030 1).toBytes ≠ [])) .auth
        ++ (if final then
              need (signed && tenant == (j.tenant.take 32)) .auth ++ need (gen == s.sec.numericsGen || bit h 0) (.rel 0)
                ++ need (decide (sum (d.tiles.map fun t => t.image.length) ≤ s.freeBytes)) .space
            else [])

/-- Restore a job from a Deposit (R23, R364): its tiles placed again, and its dirty shelf rows written to their homes (R130). DEDUCED: the shelf then holds no row
until a refresh loads it, since a Deposit holds no clean row of it. -/
def State.restoreJob (s : State) (slot : Nat) (d : Deposit) : State :=
  let next := match d.step with | some n => n + 1 | none => 0
  let kept := d.body.dict.filter fun p => ((findEntry (p.1 / 256) (p.1 % 256)).map fun r => r.access != .rw && r.access != .wo).getD false
  let s := s.updJob slot fun j =>
    { j with state := .running, body := { d.body with dict := kept, nextStep := next, lastDone := d.step, shelf := [] }, accepted := max j.accepted d.accepted }
  (d.tiles.foldl (fun s t => s.standTile slot t) s).standRows slot d.body.shelf

/-- DEPOSIT_IMPORT (R288). -/
def execDepositImport (q : Nat) (tagsOk signed : Bool) (gen : Nat) (tenant : List Byte) (d : Deposit) (s : State) : Host.Outcome State Fault Refusal :=
  .next (s.runCommand q 0x39 (fun _ => true) (fun s f => s.importBads tagsOk signed gen tenant d f) fun s f =>
    match f.job with
    | none => s
    | some slot =>
      let h := importHead f.cmd.payload
      let s := s.updJob slot fun j => { j with nextChunk := bits h 63 32 + bits h 95 64 }
      (if bit h 1 then s.restoreJob slot d else s).done f .ok [])

end Sys2Proof.Machine
end

