-- ==== Sys2Proof/Machine/VectorRows.lean ====
section
/-!
DEFINITION. The vector engine's instances: `VECTOR`, `SOFTMAX_BLOCK`, `CONVERT`, `COMPRESS` (09_vector_engine, R153 to R159, R212 to R214).
-/
namespace Sys2Proof.Machine
open Sys2Proof

/-! ### Operands in the carrel (R178) -/

/-- Raw elements of an operand from a granule: in `TILE` shape, bodies; otherwise in element order. -/
def State.operand (s : State) (tile granule bits n : Nat) (tiles : Bool) : List Nat :=
  if tiles then ((List.range (n / 1024)).map fun i => s.body tile (granule + 4 * bits * i) bits).flatten
  else unpackElems bits n (s.carrelRead tile (32 * granule) (ceilDiv (n * bits) 8))

/-- Write `n` elements, leaving every position beyond them as it was. -/
def State.putOperand (s : State) (tile granule bits : Nat) (tiles : Bool) (es : List Nat) : State :=
  if tiles then
    (List.range (es.length / 1024)).foldl (fun s i => s.putBody tile (granule + 4 * bits * i) bits ((es.drop (1024 * i)).take 1024)) s
  else
    let n := es.length
    let bytes := ceilDiv (n * bits) 8
    let old := leNat (s.carrelRead tile (32 * granule) bytes)
    let new := sum ((List.range n).map fun i => nth es i * 2 ^ (bits * i))
    s.carrelWrite tile (32 * granule) (toLE bytes (old / 2 ^ (bits * n) * 2 ^ (bits * n) + new))

/-- Mask bits of an instance (R185). -/
def State.maskBits (s : State) (tile granule n : Nat) : List Bool :=
  let m := leNat (s.carrelRead tile (32 * granule) (ceilDiv n 8))
  (List.range n).map fun e => m.testBit e

/-- Take tiles from the result queue, as raw elements. -/
def State.takeQueue (s : State) (tile n : Nat) : List Nat × State :=
  (((s.unit tile).queue.take n).flatten.take (1024 * n), s.updUnit tile fun u => { u with queue := u.queue.drop n })

/-! ### `VECTOR` -/

/-- Scale exponents of operand A and of operand B. -/
def Ctx.aScales (c : Ctx) : List Int := (([c.d.f 415 384, c.d.f 447 416]).take (c.d.f 162 161)).map fun t => c.job.exp t c.x.num
def Ctx.bScales (c : Ctx) : List Int := if c.d.b 163 then [c.job.exp (c.d.f 479 448) c.x.num] else []

/-- The rounding of a `VECTOR` instance (Table 09-2). -/
def Desc.vRnd (d : Desc) : Rnd := if d.f 152 151 = 2 then .toZero else .nearest

/-- What a `VECTOR` instance reads: A, B and the old destination, decoded; the mask; the old destination's raw bits. -/
structure VecIn where
  n : Nat
  a : List Val
  b : List Val
  bRaw : List Nat
  old : List Nat
  mask : List Bool
  ints : Bool
  deriving DecidableEq, Repr

/-- Read the operands; the state has taken what the queue gave. -/
def Ctx.vecRead (c : Ctx) (s : State) : VecIn × State :=
  let d := c.d
  let op := d.f 135 128
  let ta := elemType (d.f 145 141)
  let tb := elemType (d.f 150 146)
  let td := elemType (d.f 140 136)
  let sh := d.vShape
  let n := sh.elems d.vWide
  let tiles := sh.shape == 2
  let (aRaw, s) := if d.b 159 then s.takeQueue c.tile sh.count else (s.operand c.tile (c.gran 224 208 240 225 201 200) ta.bits n tiles, s)
  let bAt := c.gran 257 241 273 258 203 202
  let fa := floatOperand ta (d.f 162 161)
  let useB := vectorBinary op || op == 0x40
  let bRaw := if !useB then [] else match d.f 158 157 with
    | 0 => s.operand c.tile bAt tb.bits n tiles
    | 2 => List.replicate n (nth (s.operand c.tile bAt tb.bits 1 false) 0)
    | _ => List.replicate n (d.f 383 352)
  let b := bRaw.map fun r =>
    if d.f 158 157 = 1 then (if fa then f32 r else Val.ofInt (signed 32 r)) else decodeScaled tb c.bScales r
  let fb := if d.f 158 157 = 1 then fa else floatOperand tb c.bScales.length
  let mAt := c.gran 323 307 339 324 207 206
  let dAt := c.gran 290 274 306 291 205 204
  let old := if vectorCompare op || vectorReduce op then [] else s.operand c.tile dAt td.bits n tiles
  ({ n := n, a := aRaw.map (decodeScaled ta c.aScales), b := b, bRaw := bRaw, old := old,
     mask := if d.b 154 || vectorPack op then s.maskBits c.tile mAt n else List.replicate n true,
     ints := !fa && (!vectorBinary op || !fb) }, s)

/-- An element the mask shuts out: kept or zero (R185). -/
def Desc.masked (d : Desc) (old : Nat) : Nat := if d.b 153 then 0 else old

/-- A moved element as the destination holds it. -/
def Desc.convertTo (d : Desc) (ints : Bool) (v : Val) : Rounded := vecElem 0x01 (elemType (d.f 140 136)) d.vRnd ints v (.zero false) (.zero false)

/-- First element and length of the pass an element lies in (R177). -/
def passOf (n wide e : Nat) : Nat × Nat := let lo := e / wide * wide; (lo, min wide (n - lo))

/-- Index of the element that a `PERM` or `BCAST` destination takes, with the pass's element count. -/
def Desc.pick (d : Desc) (v : VecIn) (e : Nat) : Nat × Nat × Nat :=
  let (lo, len) := passOf v.n (passElems d.vWide) e
  (if d.f 135 128 = 0x40 then nth v.bRaw e else d.f 383 352 % 256, lo, len)

/-- Results of an operation with one destination element per position, rounded; none where the mask shuts the position out. -/
def Desc.vecResults (d : Desc) (v : VecIn) : List (Option Rounded) :=
  let op := d.f 135 128
  let td := elemType (d.f 140 136)
  let z : Val := .zero false
  (List.range v.n).map fun e =>
    if v.mask.getD e true then
      if op = 0x40 ∨ op = 0x41 then
        let (i, lo, len) := d.pick v e
        some (if i < len then d.convertTo v.ints (v.a.getD (lo + i) z) else ⟨0, false, false⟩)
      else some (vecElem op td d.vRnd v.ints (v.a.getD e z) (v.b.getD e z) (decodeElem td (nth v.old e)))
    else none

/-- Positions of a `PERM` or `BCAST` that name no element of their pass (R186). -/
def Desc.outOfLane (d : Desc) (v : VecIn) : List Nat :=
  (List.range v.n).filter fun e => v.mask.getD e true && (let (i, _, len) := d.pick v e; decide (len ≤ i))

/-- Count out-of-lane elements and raise the event in strict mode (R186). -/
def Ctx.laneRange (c : Ctx) (v : VecIn) (s : State) : State :=
  let l := c.d.outOfLane v
  match l with
  | [] => s
  | e :: _ =>
    let s := c.count 0x4040 2 l.length (c.count 0x4040 1 1 s)
    if c.x.strict && c.live then
      let (i, _, len) := c.d.pick v e
      s.raiseJob 0x4041 c.slot c.x.num (c.d.seq % 2 ^ 32) (i * 2 ^ 24 + c.w.id.mb % 2 ^ 12 * 2 ^ 12 + c.w.id.piece % 2 ^ 12) ((len - 1) * 2 ^ 22 + e % 2 ^ 22)
    else s

/-- Destination of `VCOMPRESS` and `VEXPAND`: rounded elements, none where the destination follows the mask mode (R187). -/
def Desc.packed (d : Desc) (v : VecIn) : List (Option Rounded) :=
  let z : Val := .zero false
  let at' := (List.range v.n).filter fun e => v.mask.getD e false
  if d.f 135 128 = 0x42 then
    (List.range v.n).map fun e => (at'[e]?).map fun i => d.convertTo v.ints (v.a.getD i z)
  else
    (List.range v.n).map fun e => (at'.findIdx? (· == e)).map fun k => d.convertTo v.ints (v.a.getD k z)

/-- Write elementwise results and count integer saturations (R182). -/
def Ctx.vecWrite (c : Ctx) (v : VecIn) (rs : List (Option Rounded)) (s : State) : State :=
  let td := elemType (c.d.f 140 136)
  let es := (List.range v.n).map fun e => match rs.getD e none with | some r => r.bits | none => c.d.masked (nth v.old e)
  let sat := (rs.filter fun r => match r with | some x => x.sat | none => false).length
  let s := s.putOperand c.tile (c.gran 290 274 306 291 205 204) td.bits (c.d.vShape.shape == 2) es
  if v.ints && td.isInt then c.count 0x4040 3 sat s else s

/-- The effect of a `VECTOR` instance. -/
def Ctx.vector (c : Ctx) (s : State) : State :=
  let d := c.d
  let op := d.f 135 128
  let td := elemType (d.f 140 136)
  let (v, s) := c.vecRead s
  let dAt := c.gran 290 274 306 291 205 204
  if vectorCompare op then
    let old := s.maskBits c.tile dAt v.n
    let z : Val := .zero false
    let new := (List.range v.n).map fun e =>
      if v.mask.getD e true then (if vecCompare op (v.a.getD e z) (v.b.getD e z) then 1 else 0) else d.masked (if old.getD e false then 1 else 0)
    s.putOperand c.tile dAt 1 false new
  else if vectorReduce op then
    let rs := reduceAll op td d.vRnd v.ints (d.b 160) ((List.range v.n).map fun e => if v.mask.getD e true then some (v.a.getD e (.zero false)) else none)
    let s := s.putOperand c.tile dAt td.bits false (rs.map (·.bits))
    if v.ints && td.isInt then c.count 0x4040 3 (rs.filter (·.sat)).length s else s
  else if vectorPack op then
    let s := c.vecWrite v (d.packed v) s
    if op = 0x42 then s.carrelWrite c.tile (32 * c.gran 257 241 273 258 203 202) (toLE 4 (v.mask.filter (·)).length) else s
  else
    let s := c.vecWrite v (d.vecResults v) s
    if op = 0x40 ∨ op = 0x41 then c.laneRange v s else s

/-- A `VECTOR` row: the next instance of the work item, where it has this operation code. -/
def State.vector (s : State) (tile : Nat) (w : WorkId) (op : Nat) : State :=
  s.issuePlain tile w (fun d => d.kind == 0x06 && d.f 135 128 == op) Ctx.vector

/-- COPY (Table 09-1). -/
def execCopy (tile : Nat) (w : WorkId) (s : State) : Host.Outcome State Fault Refusal := .next (s.vector tile w 0x01)
/-- ADD. -/
def execAdd (tile : Nat) (w : WorkId) (s : State) : Host.Outcome State Fault Refusal := .next (s.vector tile w 0x02)
/-- SUB. -/
def execSub (tile : Nat) (w : WorkId) (s : State) : Host.Outcome State Fault Refusal := .next (s.vector tile w 0x03)
/-- MUL. -/
def execMul (tile : Nat) (w : WorkId) (s : State) : Host.Outcome State Fault Refusal := .next (s.vector tile w 0x04)
/-- FMA: rounded once. -/
def execFma (tile : Nat) (w : WorkId) (s : State) : Host.Outcome State Fault Refusal := .next (s.vector tile w 0x05)
/-- MIN. -/
def execMin (tile : Nat) (w : WorkId) (s : State) : Host.Outcome State Fault Refusal := .next (s.vector tile w 0x06)
/-- MAX. -/
def execMax (tile : Nat) (w : WorkId) (s : State) : Host.Outcome State Fault Refusal := .next (s.vector tile w 0x07)
/-- ABS. -/
def execAbs (tile : Nat) (w : WorkId) (s : State) : Host.Outcome State Fault Refusal := .next (s.vector tile w 0x08)
/-- NEG. -/
def execNeg (tile : Nat) (w : WorkId) (s : State) : Host.Outcome State Fault Refusal := .next (s.vector tile w 0x09)
/-- EXP (R183). -/
def execExp (tile : Nat) (w : WorkId) (s : State) : Host.Outcome State Fault Refusal := .next (s.vector tile w 0x10)
/-- LOG (R183). -/
def execLog (tile : Nat) (w : WorkId) (s : State) : Host.Outcome State Fault Refusal := .next (s.vector tile w 0x11)
/-- RECIP (R183). -/
def execRecip (tile : Nat) (w : WorkId) (s : State) : Host.Outcome State Fault Refusal := .next (s.vector tile w 0x12)
/-- SQRT (R183). -/
def execSqrt (tile : Nat) (w : WorkId) (s : State) : Host.Outcome State Fault Refusal := .next (s.vector tile w 0x13)
/-- RSQRT (R183). -/
def execRsqrt (tile : Nat) (w : WorkId) (s : State) : Host.Outcome State Fault Refusal := .next (s.vector tile w 0x14)
/-- TANH (R183). -/
def execTanh (tile : Nat) (w : WorkId) (s : State) : Host.Outcome State Fault Refusal := .next (s.vector tile w 0x15)
/-- SIGMOID (R183). -/
def execSigmoid (tile : Nat) (w : WorkId) (s : State) : Host.Outcome State Fault Refusal := .next (s.vector tile w 0x16)
/-- CMP_LT (R183). -/
def execCmpLt (tile : Nat) (w : WorkId) (s : State) : Host.Outcome State Fault Refusal := .next (s.vector tile w 0x20)
/-- CMP_LE. -/
def execCmpLe (tile : Nat) (w : WorkId) (s : State) : Host.Outcome State Fault Refusal := .next (s.vector tile w 0x21)
/-- CMP_EQ. -/
def execCmpEq (tile : Nat) (w : WorkId) (s : State) : Host.Outcome State Fault Refusal := .next (s.vector tile w 0x22)
/-- CMP_NE. -/
def execCmpNe (tile : Nat) (w : WorkId) (s : State) : Host.Outcome State Fault Refusal := .next (s.vector tile w 0x23)
/-- RSUM (R184). -/
def execRsum (tile : Nat) (w : WorkId) (s : State) : Host.Outcome State Fault Refusal := .next (s.vector tile w 0x30)
/-- RSUMSQ (R184). -/
def execRsumsq (tile : Nat) (w : WorkId) (s : State) : Host.Outcome State Fault Refusal := .next (s.vector tile w 0x31)
/-- RMAX (R184). -/
def execRmax (tile : Nat) (w : WorkId) (s : State) : Host.Outcome State Fault Refusal := .next (s.vector tile w 0x32)
/-- RMIN (R184). -/
def execRmin (tile : Nat) (w : WorkId) (s : State) : Host.Outcome State Fault Refusal := .next (s.vector tile w 0x33)
/-- RAMAX (R184). -/
def execRamax (tile : Nat) (w : WorkId) (s : State) : Host.Outcome State Fault Refusal := .next (s.vector tile w 0x34)
/-- PERM (R186). -/
def execPerm (tile : Nat) (w : WorkId) (s : State) : Host.Outcome State Fault Refusal := .next (s.vector tile w 0x40)
/-- BCAST (R186). -/
def execBcast (tile : Nat) (w : WorkId) (s : State) : Host.Outcome State Fault Refusal := .next (s.vector tile w 0x41)
/-- VCOMPRESS (R187). -/
def execVcompress (tile : Nat) (w : WorkId) (s : State) : Host.Outcome State Fault Refusal := .next (s.vector tile w 0x42)
/-- VEXPAND (R187). -/
def execVexpand (tile : Nat) (w : WorkId) (s : State) : Host.Outcome State Fault Refusal := .next (s.vector tile w 0x43)

/-! ### `SOFTMAX_BLOCK` -/

/-- Logits of a block: scaled, none at masked positions, row by row (R212). -/
def Ctx.logits (c : Ctx) (bodies : List (List Nat)) (mask : List Bool) : List (List (Option Val)) :=
  let d := c.d
  let rows := d.f 154 148 + 1
  let cols := d.f 167 156 + 1
  let ct := ceilDiv cols 32
  let ts := elemType (d.f 140 136)
  let scale := f32 (d.f 351 320)
  (List.range rows).map fun (i : Nat) => (List.range cols).map fun (k : Nat) =>
    let causal := d.b 133 && decide (((d.f 415 384 + i : Nat) : Int) + signed 32 (d.f 383 352) < ((d.f 447 416 + k : Nat) : Int))
    if causal || !(mask.getD (i * cols + k) true) then none
    else some (r32 ((decodeElem ts (nth (bodies.getD (i / 32 * ct + k / 32) []) (32 * (i % 32) + k % 32))).mul scale))

/-- The effect of a `SOFTMAX_BLOCK` instance (R213). -/
def Ctx.softmax (c : Ctx) (s : State) : State :=
  let d := c.d
  let mode := d.f 131 128
  let rows := d.f 154 148 + 1
  let cols := d.f 167 156 + 1
  let ct := ceilDiv cols 32
  let n := ceilDiv rows 32 * ct
  let ts := elemType (d.f 140 136)
  let td := elemType (d.f 145 141)
  let (bodies, s) :=
    if d.b 146 then let (q, s) := s.takeQueue c.tile n; (chunks 1024 n q, s)
    else let a := c.gran 192 176 271 256 245 244; ((List.range n).map fun i => s.body c.tile (a + 4 * ts.bits * i) ts.bits, s)
  let mask := if d.b 132 then s.maskBits c.tile (c.gran 243 227 319 304 251 250) (rows * cols) else []
  let xs := c.logits bodies mask
  let stAt := 32 * c.gran 226 210 303 288 249 248
  let sts := if mode = 0 then [] else (List.range rows).map fun i => RowState.read (leNat (s.carrelRead c.tile (stAt + 16 * i) 16))
  let st (i : Nat) : RowState := sts.getD i RowState.zero
  let outs := (List.range rows).map fun i =>
    let x := xs.getD i []
    match mode with
    | 0 => let (y, nan, masked) := softmaxRow x; (y, nan, masked, RowState.zero)
    | 1 => let (y, t) := foldBlock (st i) x; (y, false, false, t)
    | _ => let (y, nan, masked) := applyRow (st i) x; (y, nan, masked, st i)
  let val (i k : Nat) : Nat :=
    if i < rows ∧ k < cols then (toElem td 0 .nearest (((outs.getD i ([], false, false, RowState.zero)).1).getD k (.zero false))).bits else 0
  let dAt := c.gran 209 193 287 272 247 246
  let s := (List.range n).foldl (fun s b =>
    s.putBody c.tile (dAt + 4 * td.bits * b) td.bits ((List.range 1024).map fun e => val (32 * (b / ct) + e / 32) (32 * (b % ct) + e % 32))) s
  let s := if mode = 1 then (List.range rows).foldl (fun s i => s.carrelWrite c.tile (stAt + 16 * i) (outs.getD i ([], false, false, RowState.zero)).2.2.2.bytes) s else s
  let nan := sum ((List.range rows).map fun i => if (outs.getD i ([], false, false, RowState.zero)).2.1 then ((xs.getD i []).filter (·.isSome)).length else 0)
  let maskedRows := (outs.filter fun o => o.2.2.1).length
  let s := if 0 < nan then c.report (d.f 479 448) { nonfinite := nan } s else s
  if mode = 0 ∨ (mode = 2 ∧ d.b 134) then c.count 0x5230 1 maskedRows s else s

def State.softmax (s : State) (tile : Nat) (w : WorkId) (mode : Nat) : State :=
  s.issuePlain tile w (fun d => d.kind == 0x07 && d.f 131 128 == mode) Ctx.softmax

/-- SOFTMAX_ROW (R213). -/
def execSoftmaxRow (tile : Nat) (w : WorkId) (s : State) : Host.Outcome State Fault Refusal := .next (s.softmax tile w 0)
/-- SOFTMAX_STATS (R213). -/
def execSoftmaxStats (tile : Nat) (w : WorkId) (s : State) : Host.Outcome State Fault Refusal := .next (s.softmax tile w 1)
/-- SOFTMAX_APPLY (R213). -/
def execSoftmaxApply (tile : Nat) (w : WorkId) (s : State) : Host.Outcome State Fault Refusal := .next (s.softmax tile w 2)

/-! ### `CONVERT` -/

/-- Ledger raises of a tensor in a step (R104, R116). -/
def Ctx.raises (c : Ctx) (t : Nat) : Nat :=
  let table := (c.job.body.tables.find? fun b => b.grad == t).map (·.id)
  sum ((c.x.ledgers.filter fun l => (l.space == 2 && l.id == t) || (l.space == 0 && some l.id == table)).map (·.k))

/-- The ledger window of a tensor in the step (R104). -/
def Ctx.window (c : Ctx) (t : Nat) : Int := c.job.exp t c.x.num + 16 * (c.raises t : Int)

/-- The effect of a `CONVERT` instance (R189 to R193). -/
def Ctx.convert (c : Ctx) (s : State) : State :=
  let d := c.d
  let ts := elemType (d.f 132 128)
  let td := elemType (d.f 137 133)
  let sh := d.cShape
  let n := sh.elems d.cWide
  let tiles := sh.shape == 2
  let tensor := d.f 415 384
  let (raws, s) := if d.b 142 then s.takeQueue c.tile sh.count else (s.operand c.tile (c.gran 208 192 224 209 183 182) ts.bits n tiles, s)
  let affAt := 32 * (c.base + d.f 274 258)
  let groups := ceilDiv n 32
  let words := if ts = .u4 then (List.range groups).map fun k => leNat (s.carrelRead c.tile (affAt + 4 * k) 4) else []
  let spec : ConvertSpec :=
    { src := ts, dst := td, srcScales := ([d.f 319 288, d.f 351 320].take (d.f 144 143)).map (fun t => c.job.exp t c.x.num),
      dstScale := if d.b 145 then c.job.exp (d.f 383 352) c.x.num else 0, srcWindow := c.window (d.f 319 288), dstWindow := c.window (d.f 383 352),
      mode := d.f 139 138, key := { job := c.job.key, step := c.x.num, tensor := tensor, row := 0 },
      rowFirst := d.f 455 416 + d.f 471 456 * nth c.w.regs (d.f 183 182), colFirst := d.f 496 472 }
  let (rs, aff) := spec.run words raws
  let s := s.putOperand c.tile (c.gran 241 225 257 242 185 184) td.bits tiles (rs.map (·.bits))
  let s := (List.range aff.length).foldl (fun s k => s.carrelWrite c.tile (affAt + 4 * k) (toLE 4 (nth aff k))) s
  if d.b 146 then
    let vals := (List.range raws.length).map fun e => spec.decode words e (nth raws e)
    let stored (e : Nat) : Val :=
      let r := (rs.getD e ⟨0, false, false⟩).bits
      if td = .u4 then affineVal (nth aff (e / 32) % 65536) (nth aff (e / 32) / 65536) r else decodeElem td r
    c.report tensor { elements := n, zeros := ((List.range n).filter fun e => (stored e).eq (.zero false)).length, saturated := (rs.filter (·.sat)).length,
                      nonfinite := (rs.filter (·.bad)).length, amax := amaxOf vals } s
  else s

/-- CONVERT (R189). -/
def execConvert (tile : Nat) (w : WorkId) (s : State) : Host.Outcome State Fault Refusal :=
  .next (s.issuePlain tile w (fun d => d.kind == 0x08) Ctx.convert)

/-! ### `COMPRESS` -/

/-- Source type of `COMPRESS` (Table 07-4). -/
def compressSource (n : Nat) : ElemType := match n with | 0 => .fp32 | 1 => .bf16 | 2 => .fp16 | _ => .int32

/-- A tile a `COMPRESS` instance writes: its key, what the compressor made of it, and its counts. -/
structure Written where
  key : TileKey
  out : Compressed
  counted : Counted
  deriving DecidableEq, Repr

/-- The tiles of an instance (R153, R154, R159, R204). -/
def Ctx.compressed (c : Ctx) (s : State) : List Written :=
  let d := c.d
  let t := d.f 223 192
  let ts := compressSource (d.f 143 141)
  let ty := elemType (d.f 140 136)
  let e := c.job.exp t c.x.num
  let cols := d.f 159 154 + 1
  let src := c.gran 328 312 311 296 145 144
  let row0 := d.f 259 224 + d.f 295 280 * nth c.w.regs (d.f 147 146)
  let choice : Choice := { sb := d.b 128, cl := d.b 130, nm := d.b 129, nmOnly := d.b 131, prune := d.b 132, axis := d.b 133 }
  (List.range ((d.f 153 148 + 1) * cols)).map fun k =>
    let i := k / cols
    let j := k % cols
    let row := row0 + i
    let col := d.f 279 260 + j
    let at' : TileAt := { tensor := t, row := row, col := col, rowsM1 := min 31 (d.f 170 160 - 32 * i), colsM1 := min 31 (d.f 182 172 - 32 * j),
                          scale := if ty.scaled then (e + 127).toNat else 127 }
    let raws := s.body c.tile (src + 4 * ts.bits * k) ts.bits
    let val (n : Nat) : Val := decodeElem ts (nth raws n)
    let rnd (n : Nat) : Rnd :=
      if d.b 134 then .keyed (({ job := c.job.key, step := c.x.num, tensor := t, row := 32 * row + n / 32 } : RoundKey).word (32 * col + n % 32)) else .nearest
    let rs := (List.range 1024).map fun n => toElem ty (c.window t) (rnd n) (if ty.scaled then (val n).shift (-e) else val n)
    let inside := (List.range 1024).filter fun n => decide (n / 32 ≤ at'.rowsM1) && decide (n % 32 ≤ at'.colsM1)
    let o := compressTile choice ty at' (rs.map (·.bits))
    let dec (r : Nat) : Val := if ty.scaled then (decodeElem ty r).shift e else decodeElem ty r
    let drops := o.dropped.map fun r => (dec r).abs
    { key := c.key t row col, out := o,
      counted := { elements := inside.length, zeros := (inside.filter fun n => (decodeElem ty (nth o.elems n)).eq (.zero false)).length,
                   saturated := (inside.filter fun n => (rs.getD n ⟨0, false, false⟩).sat).length,
                   nonfinite := (inside.filter fun n => (rs.getD n ⟨0, false, false⟩).bad).length, amax := amaxOf (inside.map val),
                   pruned := (drops.filter Val.isFinite).foldl (fun a v => a + signed 128 (toFx e .nearest v).bits) 0,
                   prunedBad := drops.any fun v => !v.isFinite } }

/-- Whether every tile of a `COMPRESS` can be placed (R256). -/
def Ctx.hasRoom (c : Ctx) (s : State) : Bool := !c.live || s.roomForAll ((c.compressed s).map fun w => (w.key, w.out.image))

/-- Bytes sought by a `COMPRESS` that waits for space. -/
def Ctx.sought (c : Ctx) (s : State) : Nat := sum ((c.compressed s).map fun w => w.out.image.length)

/-- The effect of a `COMPRESS` instance (R159). -/
def Ctx.compress (c : Ctx) (s : State) : State :=
  if c.live then
    let ws := c.compressed s
    let s := ws.foldl (fun s w => ((s.putTile w.key w.out.image (some (c.tile / 64)) false).touch w.key c.x.num)) s
    let s := ws.foldl (fun s w => c.report w.key.id w.counted s) s
    let s := c.count 0x5240 1 (ws.filter fun w => w.out.fellBack).length s
    c.count 0x5240 3 (ws.filter fun w => w.out.dropped ≠ []).length s
  else s

/-- COMPRESS (R153, R159): where no tier has room it waits, and the wait is counted once (R256). -/
def execCompress (tile : Nat) (w : WorkId) (s : State) : Host.Outcome State Fault Refusal :=
  .next (s.issueSpace tile w (fun c _ => c.d.kind == 0x09) Ctx.hasRoom Ctx.sought Ctx.compress)

end Sys2Proof.Machine
end

