-- ==== Sys2Proof/Machine/WorkRows.lean ====
section
/-!
DEFINITION. Dispatch of work items and step-end passes, the sampler's instance, and the sequencer's: `WAIT`, `SIGNAL`, `LOOP` (R46, R50 to R60, R83 to R86,
R240 to R244).
-/
namespace Sys2Proof.Machine
open Sys2Proof

/-! ### Stages and slots (R240 to R244) -/

/-- Index of a slot; none while an earlier micro-batch is not wholly formed. -/
def StepRec.slotIndex (x : StepRec) (mb piece : Nat) : Option Nat :=
  if (List.range mb).all fun m => x.formed.contains m then some (sum ((List.range mb).map x.pieceCount) + piece) else none

/-- The micro-batch and piece of a slot, once formed. -/
def StepRec.slotAt (x : StepRec) (i : Nat) : Option (Nat × Nat) :=
  ((List.range x.seeds.length).map fun m => (List.range (x.pieceCount m)).map fun p => (m, p)).flatten[i]?

def branchRec? (j : Job) (b : Nat) : Option Nat := j.branches.find? fun w => bits w 3 0 == b

/-- Global stage that a role and group serve on this module's rank; none outside pipelines and branches (R238, R243). -/
def State.stageOf (s : State) (j : Job) (role group : Nat) : Option Nat :=
  let r := rankIn j.positions j.ranks s.fabric.position
  if role = 6 then (branchRec? j group).map fun w => bits w 11 8 * j.ranks + r
  else if (role = 3 ∨ role = 4) ∧ (1 < j.ranks ∨ 1 < j.vstages) then some (group * j.ranks + r)
  else none

/-- Items of a role, group and direction that a step has dispatched, and those it has completed. -/
def StepRec.sent (x : StepRec) (role group : Nat) (back : Bool) : Nat :=
  (x.dispatched.filter fun p => p.1.role == role && p.1.group == group && p.1.back == back && !p.1.endPass).length
def StepRec.finished (x : StepRec) (role group : Nat) (back : Bool) : Nat :=
  (x.completed.filter fun p => p.role == role && p.group == group && p.back == back && !p.endPass).length

/-- Whether the tensor a stage's item reads across stages is readable (R241). -/
def StepRec.stageInput (x : StepRec) (stage stages mb piece : Nat) (id : WorkId) (back : Bool) : Bool :=
  if back then
    if stage + 1 < stages then x.handoffs.contains (stage, true, mb, piece) else x.completed.contains { id with back := false }
  else stage == 0 || x.handoffs.contains (stage, false, mb, piece)

/-- The order of R242, with the lead of R244. -/
def State.stageOrder (s : State) (j : Job) (x : StepRec) (id : WorkId) : Bool :=
  match s.stageOf j id.role id.group with
  | none => true
  | some st =>
    let stages := j.vstages * j.ranks
    match x.slotIndex id.mb id.piece with
    | none => false
    | some n =>
      let nf := x.sent id.role id.group false
      let nb := x.sent id.role id.group true
      let backReady : Bool := decide (nb < nf) &&
        (match x.slotAt nb with
         | some (m, p) => x.stageInput st stages m p { id with mb := m, piece := p } true
         | none => false)
      if id.back then n == nb && backReady
      else
        n == nf && !backReady && decide (nf - x.finished id.role id.group true < stages - st) && x.stageInput st stages id.mb id.piece id false
          && (match if id.role = 6 then branchRec? j id.group else none with
              | none => true
              | some b =>
                let lead := bits b 63 48
                decide (n < lead) ||
                  (match x.slotAt (n - lead), j.layer? (bits b 43 32) with
                   | some (m, p), some l => x.completed.any fun w => w.role == bits l 19 16 && w.group == bits l 23 20 && w.mb == m && w.piece == p && !w.back && !w.endPass
                   | _, _ => false))

/-! ### Rungs (R200, R207, R211) -/

/-- Tensors of a layer. -/
def Job.layerTensors (j : Job) (l : Nat) : List Nat := (j.tensors.filter fun w => tRecLayer w == some l).map tRecTensor

def Job.watch? (j : Job) (t : Nat) : Option Watch := j.body.watches.find? fun w => w.tensor == t

/-- Rungs above the working type, up to `TOP`, with the format each runs in: 1 BF16, 2 FP32 (R200). -/
def Job.rungs (j : Job) (l : Nat) : List Nat :=
  match j.layer? l, (j.tensors.find? fun w => tRecLayer w == some l) with
  | some w, some t =>
    let ty := tRecType t
    let all := if ty.scaled then [1, 2] else if ty = .bf16 ∨ ty = .fp16 then [2] else []
    all.filter fun f => decide (f ≤ lRecTop w)
  | _, _ => []

/-- Whether a layer runs at the BF16 rung for want of a scale history (R211). -/
def Job.unseeded (j : Job) (l : Nat) : Bool :=
  decide (0 < (j.rungs l).length) && (j.layerTensors l).any fun t =>
    ((j.tensor? t).map fun w => (tRecType w).scaled).getD false && ((j.watch? t).map fun w => w.history.isEmpty).getD true

/-- The rung of a layer for a micro-batch. -/
def StepRec.rung (x : StepRec) (j : Job) (l mb : Nat) : Nat :=
  match x.checks.find? fun c => c.layer == l && c.mb == mb with
  | some c => c.rung
  | none => if j.unseeded l then 1 else 0

/-- The program a work item runs: the variant for its layers' rungs, or its own (R199, R207). -/
def Job.programFor (j : Job) (x : StepRec) (id : WorkId) (own : Nat) : Nat :=
  j.layers.foldl (fun p w =>
    let l := lRecLayer w
    let r := x.rung j l id.mb
    if id.endPass || r == 0 then p
    else
      let fp32 := nth (j.rungs l) (r - 1) == 2
      if bits w 19 16 = id.role ∧ bits w 23 20 = id.group then (if fp32 then bits w 31 28 else bits w 27 24)
      else if bits w 35 32 = id.role ∧ bits w 35 32 ≠ 0 ∧ bits w 39 36 = id.group then (if fp32 then bits w 47 44 else bits w 43 40)
      else p) own

/-! ### Dispatch (R46, R50, R51, R86) -/

/-- Counts of a tile's board that stand when it starts under a role map word: those raised for the steps of its job that the word binds, whose signals may
come before the tile's first work under it (R46, R47, R59). A phase belongs to the first open step that has it. -/
def State.boardFor (s : State) (slot tile word epoch : Nat) : List ((Nat × Nat × Nat × Nat) × Nat) :=
  (s.unit tile).board.filter fun p =>
    match (s.job? slot).bind fun j => j.steps.find? fun x => x.num % 4 == p.1.2.1 with
    | some x => x.roleWord tile == word && x.epoch tile == epoch
    | none => false

/-- Start a tile under a role map word: its carrel and board are zeroed first where the entry has changed since, be it to another value and back (R47). -/
def State.bindTile (s : State) (slot tile word epoch : Nat) : State :=
  if (s.unit tile).bound = word ∧ (s.unit tile).boundEpoch = epoch then s
  else ((s.updUnit tile fun u => { u with bound := word, boundEpoch := epoch, board := s.boardFor slot tile word epoch }).carrelZero tile 0 131072)

/-- Put a work item on a tile. -/
def State.startWork (s : State) (tile half : Nat) (id : WorkId) : State :=
  match s.job? id.slot with
  | none => s
  | some j =>
    match j.step? id.step with
    | none => s
    | some x =>
      let word := x.roleWord tile
      let prog := j.programFor x id (if half = 0 then progA word else progB word)
      let s := s.bindTile id.slot tile word (x.epoch tile)
      let w0 : Work := { id := id, half := half, prog := prog, pos := 0, regs := [0, 0, 0, 0], loops := [], flying := [], rerun := false, only := none, delivered := [] }
      let w := match j.programs[prog]? with | some p => walkOn x p w0 | none => w0
      let s := s.updUnit tile fun u => { u with works := u.works ++ [w] }
      (s.updStep id.slot id.step fun x => { x with dispatched := x.dispatched ++ [(id, tile)] }).settle tile id

/-- Whether the module dispatches work of a job now: nothing fences or holds it. -/
def State.dispatchOpen (s : State) (j : Job) : Bool :=
  !j.fenced && !s.bring.announcedFailure && s.bring.pwrGood

/-- The program slot in which a tile runs a work item of a role and group. -/
def halfOf (word : Nat) (id : WorkId) : Nat :=
  let hs := halvesFor word id.role id.group
  if 1 < hs.length then (if id.back then 1 else 0) else (hs.head?.map (·.1)).getD 0

/-- The program a work item runs on a tile, at the rung in force. -/
def Job.progOn (j : Job) (x : StepRec) (tile : Nat) (id : WorkId) : Nat :=
  let word := x.roleWord tile
  j.programFor x id (if halfOf word id = 0 then progA word else progB word)

/-- Whether a slip holds a C0 credit: from its issue to its completion (R92). -/
def Slip.holdsCredit (p : Slip) : Bool := p.state == .issued || p.state == .partly || p.state == .fenced

/-- Whether a tile works and has a place free in a program slot (R51, R65). -/
def State.placeOpen (s : State) (tile half : Nat) : Bool :=
  let u := s.unit tile
  !u.lost && u.retiring.isNone && s.dieAwake (tile / 64) && decide ((u.works.filter fun w => w.half == half).length < 4)

/-- A work item runs again from its start on a tile (R63, R108, R207): only scatters into `only` take effect, where one is given; what it `delivered` is not sent
again, and what an effect sent anew has counted is taken back. Its slips in flight stay fenced until the rerun issues them (R90). Where the program slot holds
four work items already it waits for a place (R51). -/
def State.restart (s : State) (tile : Nat) (id : WorkId) (only : Option (Nat × Nat)) (delivered : List (Nat × Regs × Nat)) : State :=
  match s.job? id.slot, s.step? id.slot id.step with
  | some j, some x =>
    let half := halfOf (x.roleWord tile) id
    let prog := j.progOn x tile id
    let same := ((s.unit tile).work? id).map (·.prog) == some prog
    let w0 : Work := { id := id, half := half, prog := prog, pos := 0, regs := [0, 0, 0, 0], loops := [], flying := [], rerun := true, only := only, delivered := delivered }
    let w := match j.programs[prog]? with | some p => walkOn x p w0 | none => w0
    let room := decide (((s.unit tile).works.filter fun v => v.half == half && v.id != id).length < 4)
    let fence (p : Nat × Slip) : Option (Nat × Slip) :=
      if p.2.work != id then some p
      else if same && p.2.holdsCredit then some (p.1, { p.2 with state := .fenced })
      else none
    let s := s.updUnit tile fun u =>
      { u with works := u.works.filter (fun v => v.id != id) ++ (if room then [w] else []), slips := u.slips.filterMap fence,
               queue := if u.queueBy = some id then [] else u.queue, queueBy := if u.queueBy = some id then none else u.queueBy }
    let s := s.updStep id.slot id.step fun x =>
      { x with completed := x.completed.erase id
               again := (x.again.filter fun a => a.id != id || a.tile != tile)
                 ++ (if room then [] else [{ id := id, tile := tile, only := only, delivered := delivered }])
               tallies := if only.isSome then x.tallies else x.tallies.filter fun t => t.1.1 != id || delivered.any fun e => e.1 == t.1.2.1 && e.2.2 == 0 }
    if room then s.settle tile id else s
  | _, _ => s

/-- Whether a work item waits for a place on a tile to run again, and the tile has one. -/
def State.againOpen (s : State) (j : Job) (x : StepRec) (tile : Nat) (id : WorkId) : Bool :=
  x.again.any (fun a => a.id == id && a.tile == tile) && s.dispatchOpen j && s.placeOpen tile (halfOf (x.roleWord tile) id)

/-- Run again a work item that waited for a place. -/
def State.runAgain (s : State) (tile : Nat) (id : WorkId) : State :=
  match (s.step? id.slot id.step).bind fun x => x.again.find? fun a => a.id == id && a.tile == tile with
  | some a => s.restart tile id a.only a.delivered
  | none => s

/-- Whether work of a step may be dispatched while a job is held for a firmware switch: only that of steps already begun (R401). -/
def State.notHeld (s : State) (j : Job) (x : StepRec) : Bool := !s.sec.switchHeld.contains j.slot || !x.dispatched.isEmpty

/-- Whether a tile may work under a step's role map: it does so already or holds no work, and every step accepted before, of any job, whose work it was bound to
under another value of its entry has completed, so that nothing of one can run there again (R46). -/
def State.bindOpen (s : State) (x : StepRec) (tile : Nat) : Bool :=
  let u := s.unit tile
  ((u.bound == x.roleWord tile && u.boundEpoch == x.epoch tile) || u.works.isEmpty)
    && s.jobs.all fun k => k.steps.all fun y => decide (x.order ≤ y.order) || y.roleWord tile == 0 || y.epoch tile == x.epoch tile

/-- Whether a tile can take a work item of a role and group in a program slot under a step's role map (R46, R51, R65). -/
def State.tileOpen (s : State) (x : StepRec) (tile half : Nat) (id : WorkId) : Bool :=
  let word := x.roleWord tile
  (halvesFor word id.role id.group).any (fun h => h.1 == half) && s.placeOpen tile half && s.bindOpen x tile
    && (!(decide (1 < (halvesFor word id.role id.group).length)) || (id.back == (half == 1)))
    && (decide (1 < (halvesFor word id.role id.group).length) || !id.back)

/-- Whether the `SAMPLE` instance of a piece is in flight: a piece follows it only once it has completed with `LAST` clear (R86). -/
def State.sampling (s : State) (slot step mb piece : Nat) : Bool :=
  s.tileUnits.any fun u => u.works.any fun k =>
    k.id.slot == slot && k.id.step == step && k.id.mb == mb && k.id.piece == piece && k.flying.any fun i => i.kind == 0x01

/-- Whether a piece may be worked on by a role: a sampler forms it now, after the one before; every other role finds it formed (R84, R86). -/
def State.pieceOpen (s : State) (j : Job) (x : StepRec) (w : WorkId) : Bool :=
  if w.role = 1 ∧ (sampleOf j.programs).isSome then
    !x.formed.contains w.mb && w.piece == x.pieceCount w.mb && !(decide (0 < w.piece) && s.sampling w.slot w.step w.mb (w.piece - 1))
  else (x.piece? w.mb w.piece).isSome

/-- Whether the rungs of the layers that a work item produces or consumes are known: where a layer has no scale history yet, an earlier step may still give it one
(R211). -/
def Job.rungsKnown (j : Job) (w : WorkId) : Bool :=
  j.layers.all fun l =>
    !((bits l 19 16 == w.role && bits l 23 20 == w.group) || (bits l 35 32 == w.role && bits l 39 36 == w.group)) || !j.unseeded (lRecLayer l)
      || (j.layerTensors (lRecLayer l)).all fun t => j.scaleReady t w.step

/-- WORK_ITEM_DISPATCH (R50, R51): one tile that holds the role and group. -/
def execWorkItemDispatch (tile half : Nat) (w : WorkId) (s : State) : Host.Outcome State Fault Refusal :=
  .next (match s.job? w.slot with
    | none => s
    | some j =>
      match j.step? w.step with
      | none => s
      | some x =>
        let bound := (x.bound.filter fun b => b.1 == (w.mb, w.role, w.group)).map (·.2)
        let boundOk := bound.contains tile || bound.all fun t => (s.unit t).lost
        if s.againOpen j x tile w then s.runAgain tile w
        else if !w.endPass && decide (w.mb < x.seeds.length) && s.pieceOpen j x w && s.dispatchOpen j && s.notHeld j x
            && !(j.steps.any fun y => decide (y.num + 4 ≤ w.step)) && !(x.dispatched.any fun p => p.1 == w) && s.tileOpen x tile half w && boundOk
            && j.rungsKnown w && s.stageOrder j x w then
          s.startWork tile half w
        else s)

/-- Whether every work item of a role and group of a step has completed (R50). -/
def StepRec.roleDone (x : StepRec) (role group : Nat) (both : Bool) : Bool :=
  (List.range x.seeds.length).all fun m => x.formed.contains m && (List.range (x.pieceCount m)).all fun p =>
    [false, true].all fun b => (b && !both) || x.completed.any fun w => w.role == role && w.group == group && w.mb == m && w.piece == p && w.back == b && !w.endPass

/-- Roles and groups of a step with whether a tile holds them in both program slots. -/
def StepRec.roleGroups (x : StepRec) : List (Nat × Nat × Bool) :=
  (x.roles.map fun p =>
    (if roleA p.2 = 0 then [] else [(roleA p.2, groupA p.2, roleA p.2 == roleB p.2 && groupA p.2 == groupB p.2)])
      ++ (if roleB p.2 = 0 then [] else [(roleB p.2, groupB p.2, roleA p.2 == roleB p.2 && groupA p.2 == groupB p.2)])).flatten.eraseDups

/-- Whether the step-end passes of a role and group have run on the tiles that hold it. -/
def StepRec.passesDone (x : StepRec) (holders : List Nat) (role group : Nat) : Bool :=
  let is (w : WorkId) : Bool := w.endPass && w.role == role && w.group == group
  (holders.all fun t =>
      let hs := halvesFor (x.roleWord t) role group
      hs.all fun h => x.dispatched.any fun p => p.2 == t && is p.1 && (p.1.back == (decide (1 < hs.length) && h.1 == 1)))
    && decide ((x.dispatched.filter fun p => is p.1).length ≤ (x.completed.filter is).length)

/-- Whether all work items of a step but its update are done: items and step-end passes of every role but `UPDATE`. -/
def State.contributed (s : State) (x : StepRec) : Bool :=
  x.roleGroups.all fun g => g.1 == 5 ||
    (x.roleDone g.1 g.2.1 g.2.2 && x.passesDone (s.holders x g.1 g.2.1) g.1 g.2.1)

/-! ### The sampler (R83 to R86) -/

/-- What the sampler draws with for a step (R29, R70). -/
def Ctx.sampleIn (c : Ctx) : SampleIn :=
  { desc := c.d, jobKey := c.job.key, step := c.x.num, fan := c.x.num' 0x4820 1, cap := c.x.num' 0x4820 2, budget := c.x.num' 0x4820 3 }

/-- Seeds of a piece as a replayed log splits its micro-batch (R85): none where no `SPLIT` record of it is replayed. -/
def Job.loggedPiece (j : Job) (step mb piece : Nat) (seeds : List (Nat × Nat)) : Option (List (Nat × Nat)) :=
  ((j.logged 4 step).find? fun r => r.mb == mb).map fun r =>
    let first (p : Nat) : Nat := if p < leAt r.body 0 4 then leAt r.body (4 + 2 * p) 2 else seeds.length
    (seeds.drop (first piece)).take (first (piece + 1) - first piece)

/-- The piece a work item samples, and its summary (R84): formed now, as it was recorded, or as a replayed log has it (R85). -/
def Ctx.formPiece (c : Ctx) (s : State) : Piece × Summary :=
  let i := c.sampleIn
  let g := s.graph c.slot (c.d.f 131 128)
  let seeds := c.x.seeds.getD c.w.id.mb []
  let done := c.x.pieces.filter fun p => p.mb == c.w.id.mb && decide (p.summary.piece < c.w.id.piece)
  let first := sum (done.map fun p => p.summary.seedCount)
  let (taken, p) := match c.x.piece? c.w.id.mb c.w.id.piece with
    | some m => let l := (seeds.drop m.first).take m.seedCount; (l, i.piece g l)
    | none =>
      match c.job.loggedPiece c.x.num c.w.id.mb c.w.id.piece seeds with
      | some l => (l, i.piece g l)
      | none => i.form g (seeds.drop first)
  let pad (n : Nat) (l : List Nat) : List Nat := l ++ List.replicate (n - l.length) 0
  (p, { piece := c.w.id.piece, first := first, seedCount := taken.length, last := first + taken.length == seeds.length, n := pad 5 p.counts,
        e := pad 4 p.draws, t := pad 4 ((List.range i.desc.hops).map fun h => ((i.block g p h).filter fun t => t.image ≠ []).length) })

/-- Contents of the hash table after a piece: no rule fixes them (R81). -/
def hashBytes (seed n : Nat) : List Byte := (List.range n).map fun k => BitVec.ofNat 8 (Config.openBits 20 (seed * 2 ^ 24 + k))

/-- Log a formed micro-batch and raise the split (R85). -/
def Ctx.logSplit (c : Ctx) (s : State) : State :=
  match s.step? c.slot c.x.num with
  | none => s
  | some x =>
    let ps := x.pieces.filter fun p => p.mb == c.w.id.mb
    let s := s.logRecord c.slot 4 0 c.w.id.mb c.x.num c.x.accept (toLE 4 ps.length ++ (ps.map fun p => toLE 2 p.summary.first).flatten)
    if 1 < ps.length then s.raiseJob 0x4801 c.slot c.x.num c.w.id.mb ps.length 0 else s

/-- The catalogue tiles that a `SAMPLE` reads for its piece. -/
def Ctx.sampleReads (c : Ctx) (s : State) : List TileKey :=
  (c.sampleIn.reads (s.graph c.slot (c.d.f 131 128)) (c.formPiece s).1).map fun r => spaceKey .catalogue c.slot (c.d.f 131 128) 0 r.2 r.1

/-- The effect of a `SAMPLE` instance (R79 to R86). DESIGN CHOICE: the logged summary of R83 stands in the step's record of its pieces; Table 19-1 has no record kind
for it, and the `SPLIT` record holds the count and the first seeds alone. -/
def Ctx.sample (c : Ctx) (s : State) : State :=
  let d := c.d
  let g := s.graph c.slot (d.f 131 128)
  let (p, m) := c.formPiece s
  let tiles := c.sampleIn.tiles g p
  let reads := c.sampleReads s
  let s := reads.foldl (fun s k => s.touch k c.x.num) s
  let s := c.noteDecodes reads s
  let s := if c.live then
      tiles.foldl (fun s t => let k := c.key t.tensor t.row t.col; (s.putTile k t.image (some (c.tile / 64)) false).touch k c.x.num) s
    else s
  let (n, s) := draw s
  let s := s.carrelWrite c.tile (32 * (c.base + d.f 225 208)) (hashBytes n (2 ^ d.f 188 184 * (if c.sampleIn.temporal then 16 else 8)))
  let s := s.carrelWrite c.tile (32 * (c.base + d.f 353 336)) m.bytes
  if (c.x.piece? c.w.id.mb c.w.id.piece).isSome then s
  else
    let s := s.updStep c.slot c.x.num fun x =>
      { x with pieces := x.pieces ++ [{ mb := c.w.id.mb, summary := m }], formed := if m.last then x.formed ++ [c.w.id.mb] else x.formed }
    if m.last then (c.logSplit s).wakeAll else s

/-- The tiles a piece writes, by key. -/
def Ctx.sampleTiles (c : Ctx) (s : State) : List (TileKey × List Byte) :=
  (c.sampleIn.tiles (s.graph c.slot (c.d.f 131 128)) (c.formPiece s).1).map fun t => (c.key t.tensor t.row t.col, t.image)

/-- Whether the tiles a piece writes can be placed (R256). -/
def Ctx.sampleRoom (c : Ctx) (s : State) : Bool := !c.live || s.roomForAll (c.sampleTiles s)

/-- Bytes sought by a `SAMPLE` that waits for space. -/
def Ctx.sampleSought (c : Ctx) (s : State) : Nat := sum ((c.sampleTiles s).map fun t => t.2.length)

/-- SAMPLE (R79, R83): where no tier has room for its tiles it waits, and the wait is counted once (R256). -/
def execSample (tile : Nat) (w : WorkId) (s : State) : Host.Outcome State Fault Refusal :=
  .next (s.unlessPoisoned tile w (fun c _ => c.d.kind == 0x01) Ctx.sampleReads fun s =>
    s.issueSpace tile w (fun c _ => c.d.kind == 0x01) Ctx.sampleRoom Ctx.sampleSought Ctx.sample)

/-! ### `WAIT` and `LOOP` -/

/-- WAIT (R58): issued, and ready to complete when the count is reached. -/
def execWait (tile : Nat) (w : WorkId) (s : State) : Host.Outcome State Fault Refusal :=
  .next (s.issue tile w (fun c _ => c.d.kind == 0x0B) (fun _ s => s) fun c s i => { i with ready := s.waitMet c.slot tile c.w.half c.w.id c.d })

/-- LOOP (R60): the count is fixed; none skips the body, otherwise it runs from 0. -/
def execLoop (tile : Nat) (w : WorkId) (s : State) : Host.Outcome State Fault Refusal :=
  .next (match s.ctx? tile w with
    | none => s
    | some c =>
      if c.d.kind == 0x0D && s.canIssue c then
        let n := c.d.loopCount (c.x.piece? w.mb w.piece)
        let ord := (s.unit tile).nextOrd
        (((s.trace tile w c.d).updWork tile w fun k =>
          let k := { k with latest := aSet k.latest k.pos ord }
          walkOn c.x c.prog (if n = 0 then { k with pos := k.pos + 1 + c.d.loopLen }
            else { k with pos := k.pos + 1, loops := k.loops ++ [{ pos := k.pos, left := n - 1 }] })).updUnit tile fun u => u.issued c.w).settle tile w
      else s)

/-- WAIT_LONG (R58): a wait still open at a report interval. -/
def execWaitLong (tile : Nat) (w : WorkId) (ord : Nat) (s : State) : Host.Outcome State Fault Refusal :=
  .next (
    match (s.unit tile).work? w, s.job? w.slot with
    | some k, some j =>
      match k.flying.find? fun i => i.ord == ord && i.kind == 0x0B && !i.ready with
      | none => s
      | some i =>
        let d := (((j.programs[k.prog]?).map fun p => p.at i.pos)).getD ⟨0⟩
        let step := if d.f 147 146 = 3 then w.step - 1 else w.step
        let n := (s.unit tile).boardCount k.half (step % 4) (d.f 145 144) (d.addressedMb w.mb).toNat
        s.raiseJob 0x4005 w.slot w.step tile (i.seq % 2 ^ 32) n
    | _, _ => s)

/-! ### `SIGNAL` (R56, R57, R59) -/

/-- Whether a descriptor writes a tensor of a layer (R206). -/
def Job.writesLayer (j : Job) (d : Desc) (l : Nat) : Bool :=
  let t := if d.kind = 0x09 then some (d.f 223 192) else if d.kind = 0x08 ∧ d.b 146 then some (d.f 415 384) else none
  match t with
  | some t => ((j.tensor? t).map fun w => tRecLayer w == some l).getD false
  | none => false

/-- Layers whose check holds a signal at a position of a work item: its producer's, once a write of the layer stands before it (R206). -/
def Job.gates (j : Job) (p : Program) (pos : Nat) (id : WorkId) : List Nat :=
  if id.endPass then []
  else (j.layers.filter fun w => bits w 19 16 == id.role && bits w 23 20 == id.group
      && (List.range pos).any fun i => j.writesLayer (p.at i) (lRecLayer w)).map lRecLayer

def StepRec.layerPassed (x : StepRec) (l mb : Nat) : Bool := x.checks.any fun c => c.layer == l && c.mb == mb && c.passed

/-- Whether a signal still to be delivered was sent by an earlier run of the instance that is next (R63). -/
def Ctx.sentAs (c : Ctx) (h : HeldSignal) : Bool := h.src == c.w.id && h.desc.seq == c.d.seq && h.regs == c.w.regs

/-- SIGNAL (R56): issued; SIGNAL_DELIVER raises the counts. A rerun does not send again what was sent (R63): its instance completes with the delivery of the first
sending, at once where that has been delivered. -/
def execSignal (tile : Nat) (w : WorkId) (s : State) : Host.Outcome State Fault Refusal :=
  .next (s.issue tile w (fun c _ => c.d.kind == 0x0C)
    (fun c s =>
      let ord := (s.unit tile).nextOrd
      if c.live then
        let h : HeldSignal := { src := w, srcTile := tile, half := c.w.half, pos := c.w.pos, regs := c.w.regs, desc := c.d, ord := ord,
                                toStep := if c.d.f 147 146 = 1 then c.x.num + 1 else c.x.num, toMb := c.d.addressedMb w.mb }
        s.updJob c.slot fun j => { j with signals := j.signals ++ [h] }
      else s.updJob c.slot fun j => { j with signals := j.signals.map fun h => if c.sentAs h then { h with srcTile := tile, half := c.w.half, pos := c.w.pos, ord := ord } else h })
    fun c _ i => { i with ready := !c.live && !(c.job.signals.any c.sentAs) })

/-- Mark a signal's instance ready to complete. -/
def State.signalDone (s : State) (h : HeldSignal) : State :=
  s.updWork h.srcTile h.src fun w => { w with flying := w.flying.map fun i => if i.ord = h.ord ∧ i.kind = 0x0C then { i with ready := true } else i }

/-- Program slots of a role map word that hold a role, of any group. -/
def halvesOf (w role : Nat) : List Nat := (if roleA w = role then [0] else []) ++ (if roleB w = role then [1] else [])

/-- Raise one count of one tile (R55, R57). -/
def State.raiseCount (s : State) (slot step tile half counter mb n : Nat) : State :=
  let (u, sat) := (s.unit tile).boardAdd half (step % 4) counter mb n
  let s := s.updUnit tile fun _ => u
  let s := if sat then s.raiseJob 0x4003 slot step tile (counter * 2 ^ 16 + mb % 2 ^ 12) 0 else s
  s.wakeWaits tile

/-- Tiles and program slots a signal reaches, and the binding a `HOLDER` makes: `pick` is the tile bound where no dispatch has bound one (R59). DESIGN CHOICE: a
tile that holds the target role in both halves has its count raised in both program slots, as R57 and R59 name neither; a `TILE` signal that names a lost tile
raises the lost tile's board, since R65 sends only its work items elsewhere. -/
def State.signalTargets (s : State) (h : HeldSignal) (x : StepRec) (half pick : Nat) : List (Nat × Nat) × List ((Nat × Nat × Nat) × Nat) :=
  let d := h.desc
  let role := d.f 155 152
  let group := d.f 159 156
  let mb := h.toMb.toNat
  match d.f 149 148 with
  | 0 => ([(h.srcTile, half)], [])
  | 1 => ((halvesOf (x.roleWord (d.f 167 160)) role).map fun k => (d.f 167 160, k), [])
  | 2 =>
    let held := s.holders x role group
    let known := ((x.bound.filter fun b => b.1 == (mb, role, group)).map (·.2)
      ++ (x.dispatched.filter fun p => p.1.mb == mb && p.1.role == role && p.1.group == group && !p.1.endPass).map (·.2)).eraseDups
    let ts := if known ≠ [] then known else if held.contains pick then [pick] else held.take 1
    ((ts.map fun t => (halvesFor (x.roleWord t) role group).map fun k => (t, k.1)).flatten, ts.map fun t => ((mb, role, group), t))
  | _ => (((s.holders x role group).map fun t => (halvesFor (x.roleWord t) role group).map fun k => (t, k.1)).flatten, [])

/-- Whether a signal is dropped, with the target tile its event names (R57). DEDUCED: what a `TILE` target holds "when the signal arrives" is read from the role
map that binds the addressed step, not from the entry as it stands then, since R57 has the event recur identically on replay while entries may differ (R39). -/
def State.signalDrops (s : State) (h : HeldSignal) (x : StepRec) : Option Nat :=
  let d := h.desc
  let role := d.f 155 152
  if h.toMb < 0 ∨ (x.lastMb : Int) < h.toMb then some (if d.f 149 148 = 1 then d.f 167 160 else if d.f 149 148 = 0 then h.srcTile else 0xFFFFFFFF)
  else match d.f 149 148 with
    | 0 => none
    | 1 => if halvesOf (x.roleWord (d.f 167 160)) role = [] then some (d.f 167 160) else none
    | _ => if s.holders x role (d.f 159 156) = [] then some 0xFFFFFFFF else none

/-- SIGNAL_DELIVER (R56, R57, R59): the signal at an index of those the job holds arrives, unless a check, a phase still held or a step not accepted
holds it back; a signal to a step not accepted lets its instance complete meanwhile. DESIGN CHOICE: events 0x4003 and 0x4004 name the addressed step, whose
counts they concern; R57 does not say which step. -/
def execSignalDeliver (slot index pick : Nat) (s : State) : Host.Outcome State Fault Refusal :=
  .next (match s.job? slot with
    | none => s
    | some j =>
      match j.signals[index]? with
      | none => s
      | some h =>
        let srcWork := (s.unit h.srcTile).work? h.src
        let prog := ((srcWork.bind fun w => j.programs[w.prog]?)).getD { role := 0, carrel := 0, slips := 0, descs := [] }
        let passed := match j.step? h.src.step with
          | some y => (j.gates prog h.pos h.src).all fun l => y.layerPassed l h.src.mb
          | none => true
        let phaseFree := !(j.steps.any fun y => y.num + 4 == h.toStep)
        if passed && phaseFree then
          match j.step? h.toStep with
          | none => s.signalDone h
          | some x =>
            let s := s.updJob slot fun j => { j with signals := j.signals.eraseIdx index }
            let s := match s.signalDrops h x with
              | some t => s.raiseJob 0x4004 slot h.toStep (h.desc.seq % 2 ^ 32) t (h.desc.f 155 152)
              | none =>
                let (ts, bs) := s.signalTargets h x h.half pick
                let s := ts.foldl (fun (s : State) (t : Nat × Nat) => s.raiseCount slot h.toStep t.1 t.2 (h.desc.f 145 144) h.toMb.toNat (h.desc.f 175 168)) s
                s.updStep slot h.toStep fun x => { x with bound := (x.bound ++ bs).eraseDups }
            s.signalDone h
        else s)

end Sys2Proof.Machine
end

