-- ==== Sys2Proof/Machine/Ledger.lean ====
section
/-!
DEFINITION. Ledger accumulation: windows, additions, staging for other positions, and the close of a position's contributions (R104 to R112, R320 to R325).
-/
namespace Sys2Proof.Machine
open Sys2Proof

/-! ### Elements (R104, R105, R107) -/

def LedgerElem.zero : LedgerElem := { sum := 0, pos := false, neg := false, nan := false }

/-- Whether an integer lies in the range of R104. -/
def ledgerOk (q : Int) : Bool := decide (-(2 ^ 127) ≤ q) && decide (q < 2 ^ 127)

/-- The integer a finite addend becomes under a window (R105). -/
def ledgerInt (w : Int) (v : Val) : Int :=
  match v with
  | .fin n a d e => roundInt .nearest n a d (e + 96 - w)
  | _ => 0

/-- Add one addend: the element, and whether the addend's integer lay outside the range. -/
def LedgerElem.addVal (l : LedgerElem) (w : Int) (v : Val) : LedgerElem × Bool :=
  match v with
  | .nan => ({ l with nan := true }, false)
  | .inf n => (if n then { l with neg := true } else { l with pos := true }, false)
  | v => let q := ledgerInt w v; ({ l with sum := l.sum + q }, !ledgerOk q)

/-- Add another element whole: a partial or a share (R111, R324). -/
def LedgerElem.merge (a b : LedgerElem) : LedgerElem := { sum := a.sum + b.sum, pos := a.pos || b.pos, neg := a.neg || b.neg, nan := a.nan || b.nan }

def LedgerElem.isZero (l : LedgerElem) : Bool := l.sum == 0 && !l.pos && !l.neg && !l.nan

/-- The value an element is rounded from (R107). -/
def LedgerElem.val (l : LedgerElem) (w : Int) : Val :=
  if l.nan || (l.pos && l.neg) then .nan else if l.pos then .inf false else if l.neg then .inf true else .scaledInt l.sum (w - 96)

/-! ### Ledgers of a step -/

/-- The space a `SLICE` tensor's ledger of one piece is keyed under (R322); 0 is `TABLE`, 2 `TENSOR`. -/
def sliceSpace (mb piece : Nat) : Nat := 3 + mb * 4096 + piece

/-- The tensor whose exponent, raises, amax and health a space's gradient takes; none for a table without one (R116). -/
def Job.gradTensor (j : Job) (space id : Nat) : Option Nat :=
  if space = 0 then (match j.table? id with | some t => if t.grad = 0xFFFFFFFF then none else some t.grad | none => none) else some id

/-- The tensor component its raises are logged under (R116). -/
def Job.raiseTensor (j : Job) (space id : Nat) : Nat := (j.gradTensor space id).getD (0xFFFFF000 + id)

def StepRec.ledger? (x : StepRec) (space id : Nat) : Option Ledger := x.ledgers.find? fun l => l.space == space && l.id == id

def Ledger.fresh (space id k : Nat) : Ledger :=
  { space := space, id := id, k := k, rows := [], excess := false, reported := [], raising := false, inRange := false, shared := false, parts := [] }

/-- Window exponent of a space's gradient in a step (R104). -/
def Job.gradWindow (j : Job) (x : StepRec) (space id : Nat) : Int :=
  let e := match j.gradTensor space id with | some t => j.exp t x.num | none => 0
  e + 16 * ((((x.ledger? space id).map (·.k)).getD 0 : Nat) : Int)

def StepRec.updLedger (x : StepRec) (space id : Nat) (f : Ledger → Ledger) : StepRec :=
  match x.ledger? space id with
  | some _ => { x with ledgers := x.ledgers.map fun l => if l.space = space ∧ l.id = id then f l else l }
  | none => { x with ledgers := x.ledgers ++ [f (Ledger.fresh space id 0)] }

/-- Change elements of one row segment of a ledger; a segment first touched is zero (R106). -/
def Ledger.updRow (l : Ledger) (row seg : Nat) (near : Bool) (f : List (Nat × LedgerElem) → List (Nat × LedgerElem)) : Ledger :=
  if l.rows.any fun r => r.row == row && r.seg == seg then
    { l with rows := l.rows.map fun r => if r.row = row ∧ r.seg = seg then { r with elems := f r.elems } else r }
  else { l with rows := l.rows ++ [{ row := row, seg := seg, near := near, elems := f [] }] }

/-- Add raw addends, by column, to elements: the elements, and whether any addend lay outside the range. -/
def addRaws (w : Int) (ty : ElemType) (raws : List (Nat × Nat)) (es : List (Nat × LedgerElem)) : List (Nat × LedgerElem) × Bool :=
  raws.foldl (fun acc r =>
    let (e, excess) := (aGetD acc.1 r.1 LedgerElem.zero).addVal w (decodeElem ty r.2)
    (aSet acc.1 r.1 e, acc.2 || excess)) (es, false)

def addPartials (ps : List (Nat × LedgerElem)) (es : List (Nat × LedgerElem)) : List (Nat × LedgerElem) :=
  ps.foldl (fun es p => aUpd es p.1 LedgerElem.zero fun e => e.merge p.2) es

/-- A ledger's element; zero where nothing touched it (R220). -/
def Ledger.elem (l : Ledger) (row col : Nat) : LedgerElem :=
  match l.rows.find? fun r => r.row == row && r.elems.any fun e => e.1 == col with
  | some r => aGetD r.elems col LedgerElem.zero
  | none => LedgerElem.zero

/-- A work item's name for counts that belong to no work item. -/
def WorkId.none (slot step : Nat) : WorkId := { slot := slot, step := step, mb := 0, piece := 0, role := 0, group := 0, endPass := true, back := false }

/-- Type of raw addends. -/
def Addition.type (a : Addition) : ElemType := if a.bf16 then .bf16 else .fp32

/-- Make one addition (R105, R106, R111): into the position's own ledger, or into what it stages for another position. -/
def State.addAddition (s : State) (slot step : Nat) (a : Addition) : State :=
  match s.job? slot with
  | none => s
  | some j =>
    match j.step? step with
    | none => s
    | some x =>
      let w := j.gradWindow x a.space a.id
      let near := s.underHigh (16 * (a.raws.length + a.partials.length))
      let amax := amaxOf (a.raws.map fun r => decodeElem a.type r.2)
      let count (x : StepRec) : StepRec :=
        match j.gradTensor a.space a.id with
        | some t => if (j.tensor? t).isSome then x.report t (WorkId.none slot step) { amax := amax } else x
        | none => x
      match a.owner with
      | none =>
        s.updStep slot step fun x => count (x.updLedger a.space a.id fun l =>
          let old := ((l.rows.find? fun r => r.row == a.row).map (·.elems)).getD []
          let excess := (addRaws w a.type a.raws old).2 || a.partials.any fun p => !ledgerOk p.2.sum
          let l := l.updRow a.row 0 near fun es => addPartials a.partials (addRaws w a.type a.raws es).1
          { l with excess := l.excess || excess })
      | some o =>
        s.updStep slot step fun x =>
          let is (t : Staged) : Bool := t.owner == o && t.space == a.space && t.id == a.id && t.row == a.row && t.seg == a.seg
          let old : Staged := (x.staged.find? is).getD { owner := o, space := a.space, id := a.id, row := a.row, seg := a.seg, count := 0, raws := [], elems := [],
                                                         near := near, sent := false }
          let n := if a.first then old.count + 1 else old.count
          let raws := if a.first then (if n < 8 then old.raws ++ [(a.bf16, a.raws)] else old.raws)
            else (match old.raws.getLast? with | some r => if n < 8 then old.raws.dropLast ++ [(r.1, r.2 ++ a.raws)] else old.raws | none => [(a.bf16, a.raws)])
          let (es, excess) := addRaws w a.type a.raws old.elems
          let new : Staged := { old with count := n, raws := raws, elems := es }
          let x : StepRec := { x with staged := (x.staged.filter fun t => !is t) ++ [new] }
          count (if excess then x.updLedger a.space a.id fun l => { l with excess := true } else x)

/-! ### Messages to owners (R111, R320 to R325) -/

/-- Count a contribution message sent to a position (R320). -/
def StepRec.counted (x : StepRec) (dst : Nat) : StepRec := { x with sentTo := aUpd x.sentTo dst 0 (· + 1) }

/-- Message head for a row segment of a space. -/
def Job.rowHead (j : Job) (step space id row seg : Nat) : MsgHead :=
  { (j.head step id row) with mb := space, segFirst := seg, segCount := 1 }

/-- A staged row segment as it is sent: raw addends under 8, otherwise one partial (R111). The body's layout is the model's: a count,
then for each addend row its columns' count, its type (1 for BF16), and its columns with their bits; or for a partial its columns with their elements. -/
def Staged.message (t : Staged) (j : Job) (step : Nat) : FlitKind × List Byte :=
  let h := (j.rowHead step t.space t.id t.row t.seg).bytes
  if t.count < 8 then
    (.scatterRaw, h ++ toLE 4 t.raws.length
      ++ (t.raws.map fun r => toLE 4 r.2.length ++ toLE 4 (if r.1 then 1 else 0) ++ (r.2.map fun p => toLE 4 p.1 ++ toLE 4 p.2).flatten).flatten)
  else
    (.scatterPartial, h ++ toLE 4 t.elems.length
      ++ (t.elems.map fun p => toLE 4 p.1 ++ toLE 4 ((if p.2.pos then 1 else 0) + (if p.2.neg then 2 else 0) + (if p.2.nan then 4 else 0))
            ++ toLE 24 (unsigned 192 p.2.sum)).flatten)

/-- Read the elements of a partial. -/
def readPartials : Nat → List Byte → List (Nat × LedgerElem)
  | 0, _ => []
  | n + 1, b =>
    let f := leAt b 4 4
    (leAt b 0 4, { sum := signed 192 (leAt b 8 24), pos := bit f 0, neg := bit f 1, nan := bit f 2 }) :: readPartials n (b.drop 32)

/-- Read raw addend rows, each with whether it is BF16. -/
def readRaws : Nat → List Byte → List (Bool × List (Nat × Nat))
  | 0, _ => []
  | n + 1, b =>
    let k := leAt b 0 4
    (leAt b 4 4 == 1, (List.range k).map fun i => (leAt b (8 + 8 * i) 4, leAt b (12 + 8 * i) 4)) :: readRaws n (b.drop (8 + 8 * k))

/-- Whether a partial is outside the range of R104 when it is formed (R108). -/
def Staged.excess (t : Staged) : Bool := decide (8 ≤ t.count) && t.elems.any fun e => !ledgerOk e.2.sum

/-- Send a staged row segment. -/
def State.sendStaged (s : State) (slot step : Nat) (t : Staged) : State :=
  match s.job? slot with
  | none => s
  | some j =>
    let (k, b) := t.message j step
    (s.updStep slot step fun x => x.counted t.owner).sendKept slot t.owner k step b

/-- Whether the whole of a reduction goes by a chain (R323). -/
def useRing (algorithm elements : Nat) : Bool := algorithm == 1 || (algorithm == 0 && decide (65536 < elements))

/-- Parent and children of an index in an `OWNER` reduction (R323). -/
def reduceParent (ring : Bool) (i : Nat) : Nat := if ring then i - 1 else (i - 1) / 2
def reduceChildren (ring : Bool) (n i : Nat) : List Nat := if ring then (if i + 1 < n then [i + 1] else []) else treeChildren n i

/-- Packed width code and granules of a chunk (Table 16-7). -/
def chunkWidth (es : List LedgerElem) : Nat × Nat :=
  let fits (w : Nat) : Bool := es.all fun e => decide (-(2 ^ (w - 1) : Int) ≤ e.sum) && decide (e.sum < 2 ^ (w - 1))
  if es.all fun e => e.isZero then (0, 0)
  else if fits 32 then (1, 32) else if fits 64 then (2, 64) else if fits 96 then (3, 96) else if fits 128 then (4, 128) else (5, 192)

/-- One chunk of a `REDUCE` message: its head entry and its bytes (R324). -/
def reduceChunk (es : List LedgerElem) : Nat × List Byte :=
  let (code, w) := chunkWidth es
  let flagged := es.any fun e => e.pos || e.neg || e.nan
  let flags := sum ((List.range es.length).map fun i =>
    match es[i]? with | some e => ((if e.pos then 1 else 0) + (if e.neg then 2 else 0) + (if e.nan then 4 else 0)) * 2 ^ (3 * i) | none => 0)
  (code + (if flagged then 16 else 0), (es.map fun e => toLE (w / 8) (unsigned w e.sum)).flatten ++ (if flagged then toLE 32 flags else []))

/-- Messages that carry a share of some chunks from chunk 0, up to eight chunks each; one message with no chunk where all are zero (R322, R324). -/
def reduceMessages (h : MsgHead) (chunks' : List (List LedgerElem)) : List (List Byte) :=
  if chunks'.all fun c => c.all LedgerElem.isZero then [({ h with index := 0xFFFFFFFFFF } : MsgHead).bytes]
  else
    let gs := chunks 8 chunks'.length chunks'
    (List.range gs.length).map fun k =>
      let cs := (gs.getD k []).map reduceChunk
      ({ h with index := 8 * k } : MsgHead).bytes ++ toLE 32 (sum ((List.range cs.length).map fun i => ((cs.getD i (0, [])).1) * 2 ^ (32 * i)))
        ++ (cs.map (·.2)).flatten

/-- Read the chunks of a message. -/
def readChunks : List Nat → List Byte → List (List LedgerElem)
  | [], _ => []
  | c :: cs, b =>
    let w := nth [0, 32, 64, 96, 128, 192] (c % 16)
    let n := 32 * (w / 8)
    let f := if bit c 4 then leAt b n 32 else 0
    ((List.range 32).map fun i =>
      ({ sum := if w = 0 then 0 else signed w (leAt b (i * (w / 8)) (w / 8)), pos := bit f (3 * i), neg := bit f (3 * i + 1), nan := bit f (3 * i + 2) } : LedgerElem))
      :: readChunks cs (b.drop (n + if bit c 4 then 32 else 0))

/-- Chunks of 32 columns in a row of a reduced tensor: as many as a parameter's columns take, 128 for a `SLICE` tensor. -/
def Job.rowChunks (j : Job) (rec' : Nat) : Nat :=
  if redKind rec' = 0 then (match j.param? (redTarget rec') with | some p => ceilDiv (pRecCols p.rec') 32 | none => 128) else 128

/-- This position's ledger of a reduced tensor as chunks, from the first row. -/
def Job.shareChunks (j : Job) (l : Ledger) (rec' : Nat) : List (List LedgerElem) :=
  let n := j.rowChunks rec'
  let rows := if redKind rec' = 0 then ((j.param? (redTarget rec')).map fun p => pRecRows p.rec').getD 0 else l.rows.foldl (fun m r => max m (r.row + 1)) 0
  (List.range (rows * n)).map fun c => (List.range 32).map fun i => l.elem (c / n) (32 * (c % n) + i)

/-- Add received chunks into a ledger. -/
def Ledger.addChunks (l : Ledger) (n first : Nat) (cs : List (List LedgerElem)) : Ledger :=
  (List.range cs.length).foldl (fun l k =>
    let c := first + k
    let es := cs.getD k []
    if es.all LedgerElem.isZero then l
    else l.updRow (c / n) 0 true fun old => addPartials ((List.range 32).map fun i => (32 * (c % n) + i, es.getD i LedgerElem.zero)) old) l

/-- Reduction records of a step (R321). -/
def StepRec.reductions (x : StepRec) : List Nat := Sys2Proof.Machine.reductions (x.entry 0x2340 1).toBytes

/-- Index of a position in an `OWNER` reduction, and the list it counts in. -/
def Job.ownerList (j : Job) (rec' : Nat) : List Nat := rotated j.positions (((j.param? (redTarget rec')).map fun p => pRecOwner p.rec').getD 0)

/-- First of a list's positions this module answers for. -/
def State.myIndex (s : State) (l : List Nat) : Option Nat := l.findIdx? s.mine

/-- Elements of the tensor an `OWNER` record reduces. -/
def Job.reduceSize (j : Job) (rec' : Nat) : Nat := ((j.param? (redTarget rec')).map fun p => pRecRows p.rec' * pRecCols p.rec').getD 0

/-- Whether the shares this position passes on are in: its children have sent all theirs (R322, R323). -/
def State.childrenIn (s : State) (j : Job) (x : StepRec) : Bool :=
  x.reductions.all fun r => redKind r != 0 ||
    (let l := j.ownerList r
     match s.myIndex l with
     | none => true
     | some i => (reduceChildren (useRing (bits r 9 8) (j.reduceSize r)) l.length i).all fun c => s.mine (nth l c) || x.ended.contains (nth l c))

/-- Send this position's share of one `OWNER` tensor to its parent (R322, R323); the owner keeps its own. -/
def State.sendShare (s : State) (slot step rec' : Nat) : State :=
  match s.job? slot with
  | none => s
  | some j =>
    match j.step? step with
    | none => s
    | some x =>
      let l := j.ownerList rec'
      match s.myIndex l with
      | none => s
      | some i =>
        let dst := nth l (reduceParent (useRing (bits rec' 9 8) (j.reduceSize rec')) i)
        if i = 0 ∨ s.mine dst then s
        else
          let led := (x.ledger? 2 (redTensor rec')).getD (Ledger.fresh 2 (redTensor rec') 0)
          let h : MsgHead := { (j.head step (redTensor rec') 0) with mb := 0xFFFF }
          (reduceMessages h (j.shareChunks led rec')).foldl (fun s b => (s.updStep slot step fun x => x.counted dst).sendKept slot dst .reduce step b) s

/-- Positions of a `SLICE` reduction, L[0] first (R322, R323). -/
def Job.sliceList (j : Job) (rec' : Nat) : List Nat := ((j.table? (redTarget rec')).map (·.positions)).getD []

/-- Whether every `SLICE` sum of a step has been formed and delivered here, so that no message of one is still to be sent (R320, R322). -/
def State.slicesDone (s : State) (j : Job) (x : StepRec) : Bool :=
  x.reductions.all fun r => redKind r != 1 || !(j.sliceList r).any s.mine ||
    x.pieces.all fun p => ((x.ledger? (sliceSpace p.mb p.summary.piece) (redTensor r)).map (·.inRange)).getD false

/-- Report to every other position that a ledger of this one must be raised (R108); once. -/
def State.reportRaise (s : State) (slot step space id : Nat) : State :=
  match s.job? slot with
  | none => s
  | some j =>
    match (j.step? step).bind fun x => x.ledger? space id with
    | none => s
    | some l =>
      if l.reported.contains s.fabric.position then s
      else
        let s := (s.others j).foldl (fun s p => s.sendKept slot p .rangeReport step (j.head step (j.raiseTensor space id) 1).bytes) s
        s.updStep slot step fun x => x.updLedger space id fun l => { l with reported := l.reported ++ [s.fabric.position], raising := true }

/-- Close this position's contributions to a step once all its work but the update is done and every addition made: staged rows, shares, then the
markers (R33, R111, R320, R322). -/
def State.closeContributions (s : State) (slot step : Nat) : State :=
  match s.job? slot with
  | none => s
  | some j =>
    match j.step? step with
    | none => s
    | some x =>
      if !x.ownEnd && s.contributed x && x.adds.isEmpty && s.childrenIn j x && s.slicesDone j x then
        let s := (x.staged.filter fun t => !t.sent).foldl (fun s t => s.sendStaged slot step t) s
        let s := s.updStep slot step fun x =>
          (x.staged.filter fun t => !t.sent && t.excess).foldl (fun x t => x.updLedger t.space t.id fun l => { l with excess := true }) x
        let x := (s.step? slot step).getD x
        let due (r : Nat) : Bool := redKind r == 0 && !(((x.ledger? 2 (redTensor r)).map (·.shared)).getD false)
        let s := (x.ledgers.filter fun l => l.excess).foldl (fun s l => s.reportRaise slot step l.space l.id) s
        let s := (x.reductions.filter due).foldl (fun s r => (s.sendShare slot step r).updStep slot step fun x =>
          x.updLedger 2 (redTensor r) fun l => { l with shared := true }) s
        let s := s.updStep slot step fun x => { x with ownEnd := true, staged := x.staged.map fun t => { t with sent := true } }
        match s.step? slot step with
        | none => s
        | some x =>
          (s.others j).foldl (fun s p => s.sendKept slot p .endContrib step (j.head step 0 (aGetD x.sentTo p 0)).bytes) s
      else s

/-- R15: every contribution of a step is in. -/
def State.contributionsIn (s : State) (j : Job) (x : StepRec) : Bool := x.ownEnd && x.adds.isEmpty && (s.others j).all fun p => x.ended.contains p

/-- A message whose effect waits. -/
def State.holdRequest (s : State) (src : Nat) (k : FlitKind) (b : List Byte) : State :=
  { s with fabric := { s.fabric with requests := s.fabric.requests ++ [(src, k, b)] } }

/-- A peer has ended its contributions once its marker is held and as many messages have arrived as it counts (R320). -/
def StepRec.settlePeer (x : StepRec) (src : Nat) : StepRec :=
  match aGet x.promised src with
  | some n => if n ≤ aGetD x.counts src 0 ∧ x.ended.contains src = false then { x with ended := x.ended ++ [src] } else x
  | none => x

/-- The effect of a message that names a step: at once where the step is accepted here, later where it is still to come, none where it is past (R33). -/
def State.forStep (s : State) (src : Nat) (k : FlitKind) (b : List Byte) (f : Nat → Nat → State → State) : State :=
  let h := msgHead b
  match s.jobOfKey? h.jobKey with
  | none => s.holdRequest src k b
  | some j =>
    match j.step? h.step with
    | some _ => f j.slot h.step s
    | none => if j.body.nextStep ≤ h.step then s.holdRequest src k b else s

/-- A marker is held (R320). -/
def State.takeMarker (s : State) (src : Nat) (b : List Byte) : State :=
  s.forStep src .endContrib b fun slot step s =>
    if ((s.step? slot step).map fun x => (aGet x.promised src).isSome).getD false then s.holdRequest src .endContrib b
    else s.updStep slot step fun x => ({ x with promised := aSet x.promised src (msgHead b).index } : StepRec).settlePeer src

/-- Space and id of the gradient that a raise tensor names (R116): a table by its gradient tensor or its own component, otherwise the tensor. -/
def Job.gradOf (j : Job) (t : Nat) : Nat × Nat :=
  if 0xFFFFF000 ≤ t then (0, t - 0xFFFFF000)
  else match j.body.tables.find? fun x => x.grad == t with
    | some x => (0, x.id)
    | none => (2, t)

/-- A peer's report of a tensor's range is held (R108): bit 0 of `INDEX` says raise. -/
def State.takeReport (s : State) (src : Nat) (b : List Byte) : State :=
  s.forStep src .rangeReport b fun slot step s =>
    match s.job? slot with
    | none => s
    | some j =>
      let h := msgHead b
      let (space, id) := j.gradOf h.spaceId
      if (((j.step? step).bind fun x => x.ledger? space id).map fun l => l.reported.contains src).getD false then s.holdRequest src .rangeReport b
      else s.updStep slot step fun x => x.updLedger space id fun l => { l with reported := l.reported ++ [src], raising := l.raising || bit h.index 0 }

end Sys2Proof.Machine
end

