-- ==== Sys2Proof/Machine/MoveRows.lean ====
section
/-!
DEFINITION. `GATHER` and `SCATTER`: their indices, call slips, landing and acceptance, annex calls, and gathers served for peers (R89 to R102, R110 to R115).
-/
namespace Sys2Proof.Machine
open Sys2Proof

/-! ### Spaces (R101, R114) -/

/-- Where the rows of an instance lie. -/
structure SpaceInfo where
  space : Nat
  id : Nat
  rows : Nat
  width : Nat
  /-- bits of a stored element of the row, for cutting segments (R89) -/
  bits : Nat
  deriving DecidableEq, Repr

/-- The space a descriptor names, as it stands for a step (R101), its element bits those of a row's page (R89, R123). -/
def State.spaceInfo (_s : State) (j : Job) (x : StepRec) (space id row : Nat) : SpaceInfo :=
  match space with
  | 0 =>
    match j.table? id with
    | some t =>
      if t.accept < x.accept then
        { space := 0, id := id, rows := t.rows, width := t.width, bits := (classType (t.cls ((x.edition? id).getD t.edition) (row / 32))).bits }
      else { space := 0, id := id, rows := 0, width := 0, bits := 32 }
    | none => { space := 0, id := id, rows := 0, width := 0, bits := 32 }
  | 1 =>
    match j.feature? id with
    | some f =>
      if f.accept < x.accept then
        { space := 1, id := id, rows := ((j.graph? f.graph).map (·.nodes)).getD 0, width := f.width, bits := (elemType f.elem).bits }
      else { space := 1, id := id, rows := 0, width := 0, bits := 32 }
    | none => { space := 1, id := id, rows := 0, width := 0, bits := 32 }
  | _ =>
    match j.param? id with
    | some p => { space := 2, id := id, rows := pRecRows p.rec', width := pRecCols p.rec', bits := (elemType (x.group (pRecGroup p.rec')).workCode).bits }
    | none => { space := 2, id := id, rows := 2 ^ 40, width := 4096, bits := ((j.tensor? id).map fun w => (tRecType w).bits).getD 32 }

/-- Index of a row of an instance: none where its position names no node (R101, R114). -/
def Ctx.index (c : Ctx) (s : State) (row : Nat) : Option Nat :=
  let d := c.d
  let at' := d.f 295 256 + d.f 311 296 * nth c.w.regs (d.f 137 136) + row
  match d.f 131 128 with
  | 0 =>
    let n : Nat := match c.x.piece? c.w.id.mb c.w.id.piece, sampleOf c.job.programs with
      | some m, some sd =>
        if d.f 255 224 = sd.f 303 272 + 2 then m.seedCount else nth m.n sd.hops
      | _, _ => 0
    if at' < n then some (nth (s.elems (c.key (d.f 255 224) (at' / 1024) 0)) (at' % 1024)) else none
  | 1 => some (leNat (s.carrelRead c.tile (32 * (c.base + d.f 255 224) + 4 * at') 4))
  | 2 => some (leNat (s.carrelRead c.tile (32 * (c.base + d.f 255 224) + 8 * at') 8))
  | _ => some at'

/-- Columns of an instance that lie within its space's width. -/
def SpaceInfo.cut (i : SpaceInfo) (d : Desc) : Nat × Nat :=
  let first := d.f 171 160
  (first, min (d.f 188 176) (i.width - first))

/-- Segments of a row that cover some columns: segment, first column, count, home (R89, R110, R120). -/
def State.segments (s : State) (j : Job) (i : SpaceInfo) (row first count : Nat) : List (Nat × Nat × Nat × Nat) :=
  let per := max 1 (16384 / i.bits)
  let here := s.fabric.position
  let cut (lo n home base : Nat) : List (Nat × Nat × Nat × Nat) :=
    -- columns lo to lo + n − 1 of an image that begins at column `base`
    ((List.range (ceilDiv (lo + n - base) per)).filter fun g => decide (lo < base + (g + 1) * per) && decide (0 < n)).map fun g =>
      let a := max lo (base + g * per)
      (g, a, min (lo + n) (base + (g + 1) * per) - a, home)
  match i.space, j.table? i.id with
  | 0, some t =>
    if t.placement = 1 then
      ((List.range t.positions.length).map fun k =>
        let (lo, n) := t.slice k
        let a := max first lo
        cut a (min (first + count) (lo + n) - a) (nth t.positions k) lo).flatten
    else cut first count (t.home row 0) 0
  | _, _ => cut first count here 0

/-- The slips of an instance, in order of row and then segment (R93); an out-of-table row has one slip (R101). -/
def Ctx.requests (c : Ctx) (s : State) : List SlipReq :=
  let d := c.d
  ((List.range (d.f 154 144)).map fun r =>
    let n := (c.index s r).getD 0
    let i := s.spaceInfo c.job c.x (d.f 133 132) (d.f 223 192) n
    let (first, count) := i.cut d
    if (c.index s r).isSome && decide (n < i.rows) && decide (n < 2 ^ 40) then
      (s.segments c.job i n first count).map fun g => ({ row := r, index := some n, out := false, seg := g.1, first := g.2.1, count := g.2.2.1, home := g.2.2.2 } : SlipReq)
    else [{ row := r, index := c.index s r, out := true, seg := 0, first := first, count := 0, home := s.fabric.position }]).flatten

/-- Count out-of-table rows and, in strict mode, note the step and raise the first (R101, R102). DESIGN CHOICE: for a `MAP` position that names no node the
event carries the index 2^40 - 1, the greatest a row index can be; the spec gives none. -/
def Ctx.outOfTable (c : Ctx) (reqs : List SlipReq) (sub : Nat) (s : State) : State :=
  let out := (reqs.filter (·.out)).map (·.index)
  match out with
  | [] => s
  | o :: _ =>
    let s := c.count 0x6020 sub out.length s
    if c.x.strict && c.live then
      let n := o.getD (2 ^ 40 - 1)
      let s := s.updStep c.slot c.x.num fun x => { x with outOfTable := true }
      s.raiseJob 0x6001 c.slot c.x.num (c.d.f 223 192) (n % 2 ^ 32) (n / 2 ^ 32 % 2 ^ 8 * 2 ^ 24 + c.w.id.mb % 2 ^ 12 * 2 ^ 12 + c.w.id.piece % 2 ^ 12)
    else s

/-- First granule of the landing or source range. -/
def Ctx.moveAt (c : Ctx) : Nat := c.gran 328 312 351 336 139 138

/-- Whether no refresh due after an earlier step is still to come: it may give a page of a table another class (R89, R127, R137). -/
def Ctx.refreshPast (c : Ctx) : Bool :=
  c.d.f 133 132 != 0 || (c.job.steps.filter fun y => decide (y.num < c.x.num)).all fun y => !y.refreshDue || y.refreshed

/-- Whether a gather of table rows or a scatter into a table may run here: only on rank 0 of a pipeline (R238). -/
def Ctx.tableRank (c : Ctx) (s : State) : Bool :=
  c.d.f 133 132 != 0 || rankIn c.job.positions c.job.ranks s.fabric.position == 0

/-- GATHER (R93, R94): the landing range reads zero until rows land; slips are issued by SLIP_ISSUE. -/
def execGather (tile : Nat) (w : WorkId) (s : State) : Host.Outcome State Fault Refusal :=
  .next (s.issue tile w (fun c s => c.d.kind == 0x02 && c.refreshPast && c.tableRank s)
    (fun c s => c.outOfTable (c.requests s) 1 (s.carrelWrite tile (32 * c.moveAt) (zeros (32 * c.d.rowGranules))))
    fun c s i => { i with reqs := c.requests s })

/-- SCATTER (R93): dropped rows are counted; slips are issued by SLIP_ISSUE. -/
def execScatter (tile : Nat) (w : WorkId) (s : State) : Host.Outcome State Fault Refusal :=
  .next (s.issue tile w (fun c s => c.d.kind == 0x03 && c.refreshPast && c.tableRank s)
    (fun c s => c.outOfTable (c.requests s) 2 s)
    fun c s i => { i with reqs := c.requests s })

/-! ### Slips (R90 to R93) -/

def State.updSlip (s : State) (tile n : Nat) (f : Slip → Slip) : State :=
  s.updUnit tile fun u => { u with slips := u.slips.map fun p => if p.1 = n then (p.1, f p.2) else p }

def Tile.slip? (u : Tile) (n : Nat) : Option Slip := aGet u.slips n

/-- Granules of a segment's elements. -/
def segGranules (bits count : Nat) : Nat := max 1 (min 64 (ceilDiv (count * bits) 256))

/-- A row that is read of a table on this module: source and data (Table 05-3). -/
def State.served (s : State) (j : Job) (x : StepRec) (space id row : Nat) : Nat × Option RowData :=
  match space, j.table? id with
  | 0, some t => s.rowAt j t ((x.edition? id).getD t.edition) row
  | _, _ =>
    let k := if space = 1 then spaceKey .feature j.slot id 0 (row / 32) 0 else j.tensorKey id x.num 0 0 (row / 32) 0
    (match s.tile? k with | some t => if t.tier = .near then 2 else 3 | none => 3, none)

/-- Values of some columns of a row, exact. -/
def State.rowVals (s : State) (j : Job) (x : StepRec) (id : WorkId) (space sid row first count : Nat) : Option (List Val) :=
  match space, j.table? sid with
  | 0, some t =>
    match (s.rowAt j t ((x.edition? sid).getD t.edition) row).2 with
    | some d =>
      let base := ((s.columns t row).map (·.1)).getD 0
      let vs := d.values
      some ((List.range count).map fun k => vs.getD (first + k - base) (.zero false))
    | none => none
  | _, _ =>
    some ((List.range count).map fun k =>
      let col := first + k
      let key := if space = 1 then spaceKey .feature j.slot sid 0 (row / 32) (col / 32) else j.tensorKey sid x.num id.mb id.piece (row / 32) (col / 32)
      match readLabel ((s.image key).take 32) with
      | some l => decodeScaled l.elem (if l.elem.scaled then [(l.scale : Int) - 127] else []) (nth (s.elems key) (32 * (row % 32) + col % 32))
      | none => .zero false)

/-- Open or join the annex call for a row (R97). DESIGN CHOICE: a step that joins a call already stalled is not marked stalled itself, since R98 marks steps
when the call stalls. The answer is false where the event queue's store has no room for a new call. -/
def State.callRow (s : State) (slot step tid ed row seg : Nat) : State × Bool :=
  match s.job? slot with
  | none => (s, false)
  | some j =>
    let upd (f : Call → Call) (id : Nat) : State := s.updBody slot fun b => { b with calls := b.calls.map fun c => if c.id = id then f c else c }
    let mark (c : Call) : Call := if c.steps.contains step then c else { c with steps := c.steps ++ [step] }
    let widen (r : CallRow) : CallRow :=
      if r.row = row then
        let lo := min r.segFirst seg
        { r with segFirst := lo, segCount := max (r.segFirst + r.segCount) (seg + 1) - lo }
      else r
    match j.body.calls.find? fun c => c.table == tid && c.edition == ed && c.rows.any fun r => r.row == row && !r.supplied with
    | some c => (upd (fun c => if c.sends = 0 then mark { c with rows := c.rows.map widen } else mark c) c.id, true)
    | none =>
      let cls := ((j.table? tid).map fun t => t.cls ed (row / 32)).getD 0
      let new : CallRow := { row := row, cls := cls, segFirst := seg, segCount := 1, supplied := false }
      match j.body.calls.find? fun c => c.table == tid && c.edition == ed && c.sends == 0 && decide (c.rows.length < 64) with
      | some c => (upd (fun c => mark { c with rows := c.rows ++ [new] }) c.id, true)
      | none =>
        if (s.queue j.eventQueue).hasRoom 18 then
          let c : Call := { id := j.body.nextCall, table := tid, edition := ed, rows := [new], sends := 0, stalled := false, steps := [step] }
          ((s.updBody slot fun b => { b with calls := b.calls ++ [c], nextCall := (b.nextCall + 1) % 2 ^ 32 }).updQueue j.eventQueue fun q => { q with reserved := q.reserved + 18 }, true)
        else (s, false)

/-- Note that a slip of a step reads columns of a row from its page: the tiles are touched (R261), and a read from the far tier lengthens the run of
consecutive steps that have read the page from there (R263). -/
def State.notePage (s : State) (slot step tid ed row first count : Nat) : State :=
  match (s.job? slot).bind fun j => j.table? tid with
  | none => s
  | some t =>
    let page := row / 32
    let own := t.owner ed page
    let base := ((s.columns t row).map (·.1)).getD 0
    let keys := t.pageKeys slot own page (first - base) count
    let far := keys.any fun k => ((s.tile? k).map fun x => x.tier == .far).getD false
    let s := s.touchAll keys step
    if far then
      let runs := aUpd s.tiers.pageRuns (slot, tid, own, page) (step, 0) fun r => if r.1 = step ∧ 0 < r.2 then r else if r.1 + 1 = step then (step, r.2 + 1) else (step, 1)
      { s with tiers := { s.tiers with pageRuns := runs } }
    else s

/-- Note a row gathered by a step, and its hold on an annex copy (R100, R126). -/
def State.noteGather (s : State) (slot step tid ed row : Nat) : State :=
  let s := s.updStep slot step fun x => if x.gathered.contains (tid, row) then x else { x with gathered := x.gathered ++ [(tid, row)] }
  let own := (((s.job? slot).bind fun j => j.table? tid).map fun t => t.owner ed (row / 32)).getD ed
  s.updBody slot fun b => { b with held := b.held.map fun h =>
    if h.table = tid ∧ h.edition = own ∧ h.row = row ∧ h.steps.contains step = false then { h with steps := h.steps ++ [step] } else h }

/-- The source columns of a scatter's segment, as raw bits (R115). -/
def State.scatterRaws (s : State) (tile : Nat) (base : Nat) (d : Desc) (row first count : Nat) : List (Nat × Nat) :=
  let bits := if d.b 134 then 16 else 32
  let ct := ceilDiv (d.f 188 176) 32
  (List.range count).map fun k =>
    let col := first + k - d.f 171 160
    (first + k, nth (s.body tile (base + 4 * bits * (row / 32 * ct + col / 32)) bits) (32 * (row % 32) + col % 32))

/-- Ask for an annex row, where the row must be asked for: the state, and whether the slip may go on. -/
def State.callRowIf (s : State) (ask : Bool) (slot step tid ed row seg : Nat) : State × Bool :=
  if ask then s.callRow slot step tid ed row seg else (s, true)

/-- Class C0 credits a gather/scatter unit has for completions and acknowledgements of its slips: one for each of its 1,024 slips, as 17_flow_control's worked
example has every slip of a tile issued at once (R92). -/
def slipCredits : Nat := 1024

/-- A free slip number of a tile, under 1,024 (R89). -/
def Tile.freeSlip (u : Tile) : Option Nat := leastBelow 1024 fun n => !(u.slips.any fun p => p.1 == n)

/-- The slip that an instance issues for a row segment: one fenced by its work item's abandonment keeps its identity, `SEQ`, loop registers and segment (R63,
R90); otherwise a free one, or where none is free a fenced one of the work item that its rerun has not come to. -/
def Tile.slipFor (u : Tile) (w : WorkId) (i : Inst) (r : SlipReq) : Option Nat :=
  let fenced := u.slips.filter fun q => q.2.state == .fenced && q.2.work == w
  match fenced.find? fun q => q.2.seq == i.seq && q.2.regs == i.regs && q.2.at' == r.row && q.2.seg == r.seg with
  | some q => some q.1
  | none => match u.freeSlip with
    | some n => some n
    | none => fenced.head?.map (·.1)

/-- The position that a sum is reduced rather than scattered to its owner (R322). -/
def StepRec.reduced (x : StepRec) (space id : Nat) : Option Nat := if space = 2 then x.reductions.find? fun r => redTensor r == id else none

/-- Byte address of an element of a decoded body (R165). -/
def elemAddr (granule bits i : Nat) : Nat :=
  let parts := bits / 8
  let col := i % 32
  let p := col * parts / 32
  32 * (granule + skew parts (i / 32) p) + (col % (32 / parts)) * (bits / 8)

/-- Byte address, from the start of an instance's range, of the element at a row of the instance and a column of its space (R94, R115). -/
def Desc.landAt (d : Desc) (base row col : Nat) : Nat :=
  let bits := if d.b 134 then 16 else 32
  let c := col - d.f 171 160
  elemAddr (base + 4 * bits * (row / 32 * ceilDiv (d.f 188 176) 32 + c / 32)) bits (32 * (row % 32) + c % 32)

/-- First granule of a slip's own landing or source range, from the start of its instance's (Table 05-2). -/
def slipGranule (d : Desc) (row first : Nat) : Nat := d.landAt 0 row first / 32

/-- Whether a scatter's slip finds room for the ledger elements it touches first, near or far, in this position's ledger or in what it stages for another
(R106, R111). -/
def State.ledgerRoom (s : State) (x : StepRec) (space id row seg first count : Nat) (remote : Bool) (home : Nat) : Bool :=
  let held : List Nat :=
    if remote then ((x.staged.find? fun t => t.owner == home && t.space == space && t.id == id && t.row == row && t.seg == seg).map fun t => t.elems.map (·.1)).getD []
    else (((x.ledgers.find? fun l => l.space == space && l.id == id).map fun l => (l.rows.filter fun r => r.row == row).map fun r => r.elems.map (·.1)).getD []).flatten
  let new := ((List.range count).filter fun k => !held.contains (first + k)).length
  let far := decide (s.farUsed + 16 * new ≤ s.farCapacity)
  new == 0 || s.underHigh (16 * new) || far || decide (s.poolUsed + 16 * new ≤ s.poolCapacity)

/-- Tiles that hold columns of a row of a feature tensor or a device tensor (R258). -/
def Job.rowKeys (j : Job) (x : StepRec) (w : WorkId) (space id row first count : Nat) : List TileKey :=
  (List.range (ceilDiv (first + count) 32 - first / 32)).map fun k =>
    if space = 1 then spaceKey .feature j.slot id 0 (row / 32) (first / 32 + k) else j.tensorKey id x.num w.mb w.piece (row / 32) (first / 32 + k)

/-- What the read of a row segment by a gather's slip leaves: touches, the run of far reads, the row's hold (R100, R126, R261, R263). -/
def State.noteRead (s : State) (j : Job) (x : StepRec) (w : WorkId) (space id row first count source : Nat) : State :=
  if space = 0 then
    let ed := (x.edition? id).getD 0
    let s := if source = 2 ∨ source = 3 then s.notePage j.slot x.num id ed row first count else s
    s.noteGather j.slot x.num id ed row
  else s.touchAll (j.rowKeys x w space id row first count) x.num

/-- SLIP_ISSUE (R92, R93): the next row segment of the oldest gathering or scattering instance of a work item takes a free slip; its request leaves once
the reservations are made. -/
def execSlipIssue (tile : Nat) (w : WorkId) (s : State) : Host.Outcome State Fault Refusal :=
  .next (
    match (s.unit tile).work? w, s.job? w.slot, s.step? w.slot w.step with
    | some k, some j, some x =>
      match k.flying.find? fun i => i.reqs ≠ [] with
      | none => s
      | some i =>
        let u := s.unit tile
        let p := (j.programs[k.prog]?).getD { role := 0, carrel := 0, slips := 0, descs := [] }
        let d := p.at i.pos
        let half := j.programs[k.prog]?
        let mine := (u.slips.filter fun q => q.2.state != .fenced && match u.work? q.2.work with | some v => v.half == k.half | none => false).length
        match i.reqs, i.reqs.head?.bind fun r => u.slipFor w i r, half with
        | r :: rest, some n, some _ =>
          if p.slips ≤ mine ∨ s.tileRuns tile j = false ∨ slipCredits ≤ (u.slips.filter fun q => q.2.holdsCredit && q.1 != n).length then s
          else
            let row := r.index.getD 0 % 2 ^ 40
            let sc := i.kind == 0x03
            let space := d.f 133 132
            let sid := d.f 223 192
            let info := s.spaceInfo j x space sid row
            let base := j.regionBase (x.roleWord tile) k.half + d.addr i.regs 328 312 351 336 139 138
            let local' := sc && ((x.reduced space sid).isSome || ((j.table? sid).map fun t => t.placement == 1).getD false)
            let remote := space == 0 && !s.mine r.home && !local' && !r.out
            let dup := k.delivered.contains (i.seq, i.regs, 1 + 8 * r.row + r.seg)
            let suppressed := sc && (dup || (match k.only with | some o => o != (space, sid) | none => false))
            let ed := (x.edition? sid).getD 0
            let src := if r.out then 0 else if sc then 6 else if remote then 4 else (s.served j x space sid row).1
            let new : Slip :=
              { state := if r.out then .zeroed else if suppressed then .done else .issued, work := w, pos := i.pos, regs := i.regs, seq := i.seq, scatter := sc, space := space, id := sid,
                at' := r.row, row := row, seg := r.seg, first := r.first, count := r.count, granules := segGranules info.bits r.count,
                landed := 0, carrel := base, granule := base + slipGranule d r.row r.first, source := src, remote := remote, peer := if remote then r.home else 0 }
            let roomOk := !sc || r.out || suppressed || s.ledgerRoom x space sid row r.seg r.first r.count remote r.home
            if roomOk = false then s.raiseJob 0x6004 w.slot w.step (16 * r.count % 2 ^ 32) (16 * r.count / 2 ^ 32) 0
            else
              let held := space == 0 && src == 5 && (match j.table? sid with | some t => (j.body.held? sid (t.owner ed (row / 32)) row).isSome | none => false)
              let (s, ok) := s.callRowIf (!sc && src == 5 && !held && !remote && !r.out) w.slot w.step sid ed row r.seg
              if ok then
                let s := s.updUnit tile fun u => { u with slips := u.slips.filter (fun q => q.1 != n) ++ [(n, new)] }
                let s := s.updWork tile w fun v => { v with flying := v.flying.map fun f => if f.ord = i.ord then { f with reqs := rest } else f }
                if r.out then s
                else if remote && !sc then
                  s.send r.home .gatherReq ({ (j.head w.step sid row) with mb := w.mb, piece := w.piece, tile := tile, slip := n, segFirst := r.seg, segCount := 1 } : MsgHead).bytes
                else if !sc then s.noteRead j x w space sid row r.first r.count src
                else s
              else s
        | _, _, _ => s
    | _, _, _ => s)

/-- Land some columns of a row (R94). -/
def State.landVals (s : State) (tile : Nat) (base : Nat) (d : Desc) (row first : Nat) (vs : List Val) : State :=
  let ty : ElemType := if d.b 134 then .bf16 else .fp32
  (List.range vs.length).foldl (fun s k =>
    s.carrelWrite tile (d.landAt base row (first + k)) (toLE (if d.b 134 then 2 else 4) (toElem ty 0 .nearest (vs.getD k (.zero false))).bits)) s

/-- Some columns of a row land poisoned (R113, R346). -/
def State.landPoison (s : State) (tile : Nat) (base : Nat) (d : Desc) (row first count : Nat) : State :=
  { s with carrelPoison := (List.range count).foldl (fun l k => insertOnce (tile * 2 ^ 17 + d.landAt base row (first + k) / 32) l) s.carrelPoison }

/-- Whether a granule that holds columns of a row is poisoned: of a table's page the row's own granules with its meta granule, of any other tile any granule,
since the whole tile is decoded. -/
def State.rowPoison (s : State) (j : Job) (x : StepRec) (w : WorkId) (space id row first count : Nat) : Bool :=
  match space, j.table? id with
  | 0, some t =>
    let ed := (x.edition? id).getD t.edition
    let own := t.owner ed (row / 32)
    let base := ((s.columns t row).map (·.1)).getD 0
    let b := (classType (t.cls ed (row / 32))).bits
    let r := row % 32
    (t.pageKeys j.slot own (row / 32) (first - base) count).any fun k => ((s.tile? k).map fun y => y.poison.any fun g =>
      g == 0 || (if k.col = 0 then g == 1 + r else decide (1 + r * b / 8 ≤ g) && decide (g ≤ 1 + (32 * r + 31) * b / 256))).getD false
  | _, _ => (j.rowKeys x w space id row first count).any fun k => ((s.tile? k).map fun y => !y.poison.isEmpty).getD false

/-- The addition a scatter's slip makes (R110, R111, R322). -/
def State.scatterAdd (s : State) (x : StepRec) (tile : Nat) (w : WorkId) (d : Desc) (p : Slip) : Addition :=
  let red := x.reduced p.space p.id
  let space := match red with | some r => if redKind r = 1 then sliceSpace w.mb w.piece else 2 | none => p.space
  { space := space, id := p.id, row := p.row, seg := p.seg, raws := s.scatterRaws tile p.carrel d p.at' p.first p.count, partials := [],
    owner := if p.remote then some p.peer else none, bf16 := d.b 134, first := true }

/-- Whether a gather slip in flight takes a row from the shelf (R113). -/
def State.shelfServes (s : State) (slot tid row : Nat) : Bool :=
  s.tileUnits.any fun u => u.slips.any fun p =>
    p.2.work.slot == slot && p.2.serves tid row && p.2.source == 1

/-- Drop from the shelf a row that a refresh has removed and no slip takes any longer (R113). -/
def State.leaveShelf (s : State) (slot tid row : Nat) : State :=
  if s.shelfServes slot tid row then s
  else s.updBody slot fun b => { b with shelf := b.shelf.filter fun x => !(x.leaving && x.table == tid && x.row == row) }

/-- Note the decode of feature or tensor tiles by a gather's slip: a tile with entries out of extent is counted once per tensor, step and tile and raises its
event in strict mode (R155), a label that fails its check is poisoned and counted (R157). -/
def State.noteDecoded (s : State) (j : Job) (x : StepRec) (w : WorkId) (space id row first count : Nat) : State :=
  if space = 0 then
    match j.table? id with
    | some t =>
      let base := ((s.columns t row).map (·.1)).getD 0
      (t.pageKeys j.slot (t.owner ((x.edition? id).getD t.edition) (row / 32)) (row / 32) (first - base) count).foldl (fun s k => s.poisonLabel j.slot x.num k) s
    | none => s
  else (j.rowKeys x w space id row first count).foldl (fun s k =>
    match readLabel ((s.image k).take 32) with
    | some l =>
      if l.indexRange && !(((s.step? j.slot x.num).map fun x => x.rangeTiles.contains k).getD true) then
        let s := (s.updStep j.slot x.num fun x => { x with rangeTiles := x.rangeTiles ++ [k] }).count j.slot x.num 0x5240 2 1
        if x.strict then s.raiseJob 0x5240 j.slot x.num k.id (k.row % 2 ^ 32) (k.col % 2 ^ 20) else s
      else s
    | none => s.poisonLabel j.slot x.num k) s

/-- SLIP_LAND (R90, R93): the next granule of a slip lands, or is accepted; the last makes it `DONE`. A gather waits for the update it must see and for its
annex row, and calls a row whose page has become annex-held since its issue (R97); one served by a peer lands by GATHER_DATA. -/
def execSlipLand (tile n : Nat) (s : State) : Host.Outcome State Fault Refusal :=
  .next (
    match (s.unit tile).slip? n with
    | none => s
    | some p =>
      match s.job? p.work.slot, s.step? p.work.slot p.work.step, (s.unit tile).work? p.work with
      | some j, some x, some k =>
        let d := (((j.programs[k.prog]?).map fun q => q.at p.pos)).getD ⟨0⟩
        let open' := p.state == .issued || p.state == .partly
        if !open' || (p.remote && !p.scatter) then s
        else
          let last := decide (p.granules ≤ p.landed + 1)
          let st : SlipState := if last then .done else .partly
          let step (s : State) : State := s.updSlip tile n fun p => { p with landed := p.landed + 1, state := st }
          if p.scatter then
            let s := step s
            if last then
              let a := s.scatterAdd x tile p.work d p
              (s.updStep p.work.slot p.work.step fun x => { x with adds := x.adds ++ [a] }).updWork tile p.work fun k =>
                { k with delivered := k.delivered ++ [(p.seq, p.regs, 1 + 8 * p.at' + p.seg)] }
            else s
          else if s.updated j p.space p.id p.work.step then
            match s.rowVals j x p.work p.space p.id p.row p.first p.count with
            | none => (s.callRow p.work.slot p.work.step p.id ((x.edition? p.id).getD 0) p.row p.seg).1
            | some vs =>
              let per := ceilDiv p.count p.granules
              let at' := p.first + per * p.landed
              let vs := (vs.drop (per * p.landed)).take per
              let s := if p.source = 1 then s else s.noteDecoded j x p.work p.space p.id p.row at' vs.length
              let bad := p.source != 1 && s.rowPoison j x p.work p.space p.id p.row at' vs.length
              let s := s.landVals tile p.carrel d p.at' at' vs
              let s := if bad then s.landPoison tile p.carrel d p.at' at' vs.length else s
              let s := if p.space = 0 then s.noteGather p.work.slot p.work.step p.id ((x.edition? p.id).getD 0) p.row else s
              (step s).leaveShelf p.work.slot p.id p.row
          else s
      | _, _, _ => s)

/-- Head of the request a gather's slip sends to its peer (Table 16-5). -/
def Job.slipHead (j : Job) (tile n : Nat) (p : Slip) : MsgHead :=
  let h := j.head p.work.step p.id p.row
  { h with mb := p.work.mb, piece := p.work.piece, tile := tile, slip := n, segFirst := p.seg, segCount := 1 }

/-- Whether the instance that a slip belongs to is in flight and does not have it still to issue: a slip fenced with its work item is issued again by the rerun. -/
def Work.holds (k : Work) (p : Slip) : Bool :=
  k.flying.any fun i => i.pos == p.pos && i.regs == p.regs && !(i.reqs.any fun r => r.row == p.at' && r.seg == p.seg)

/-- SLIP_REISSUE (R90, R113): a `FENCED` slip is issued again, to the position that now holds its peer's place, under its old identity. -/
def execSlipReissue (tile n : Nat) (s : State) : Host.Outcome State Fault Refusal :=
  .next (
    match (s.unit tile).slip? n with
    | none => s
    | some p =>
      match s.job? p.work.slot with
      | none => s
      | some j =>
        if p.state == .fenced && (((s.unit tile).work? p.work).map fun k => k.holds p).getD false && s.tileRuns tile j && !(p.remote && s.fabric.fenced.contains (s.holderOf p.peer)) then
          let remote := p.remote && !s.mine p.peer
          let s := s.updSlip tile n fun p => let peer := if remote then p.peer else 0; { p with state := .issued, landed := 0, remote := remote, peer := peer }
          if remote && !p.scatter then
            s.send p.peer .gatherReq (j.slipHead tile n p).bytes
          else s
        else s)

/-! ### Annex calls (R97, R98, R284) -/

/-- Head of a `ROW_CALL` of kind `CALL` (Table 14-10). -/
def callHead (c : Call) (send count : Nat) : List Byte := toLE 32 (c.id + c.table * 2 ^ 32 + send * 2 ^ 44 + c.edition * 2 ^ 64 + count * 2 ^ 96)

def callEntry (wp : Nat) (r : CallRow) : List Byte :=
  toLE 16 (r.row + r.cls * 2 ^ 40 + r.segFirst * 2 ^ 42 + r.segCount * 2 ^ 45 + wp * 2 ^ 64)

/-- The `ROW_CALL` of a call's rows not yet supplied. -/
def Job.callResponse (j : Job) (c : Call) (send : Nat) : Response :=
  let rows := c.rows.filter fun r => !r.supplied
  let wp := ((j.table? c.table).map (·.wp)).getD 0
  { typ := .rowCall, status := .ok, queue := j.eventQueue, session := 0, seq := 0, tag := 0, step := 0, retry := 0,
    payload := callHead c send rows.length ++ (rows.map (callEntry wp)).flatten, cmd := none }

def State.updCall (s : State) (slot id : Nat) (f : Call → Call) : State :=
  s.updBody slot fun b => { b with calls := b.calls.map fun c => if c.id = id then f c else c }

/-- Release the store room a call holds once every row is supplied (R291). -/
def State.sendCall (s : State) (slot : Nat) (j : Job) (r : Response) : State :=
  let _ := slot
  match j.holder with
  | some h => (s.updQueue j.eventQueue fun q => { q with reserved := q.reserved - r.entries }).enqueue j.eventQueue h r
  | none => s

/-- Count for a call, under the first step that waits on it (R103, R428). -/
def State.countCall (s : State) (slot : Nat) (c : Call) (sub n : Nat) : State :=
  match least (c.steps.filter fun k => (s.step? slot k).isSome) with
  | some step => s.count slot step 0x6020 sub n
  | none => s.updBody slot fun b => { b with dict := aUpd b.dict (entryKey 0x6020 sub) (.num 0) fun v => .num ((v.toNat + n) % 2 ^ 64) }

/-- ROW_CALL_CLOSE (R97): the call closes at 64 rows or after 2 µs and is sent. -/
def execRowCallClose (slot call : Nat) (s : State) : Host.Outcome State Fault Refusal :=
  .next (match s.job? slot with
    | none => s
    | some j =>
      match j.body.calls.find? fun c => c.id == call && c.sends == 0 with
      | none => s
      | some c =>
        ((s.updCall slot call fun c => { c with sends := 1 }).sendCall slot j (j.callResponse c 0)).countCall slot c 3 c.rows.length)

/-- Replace a call's earlier send that still waits in the store (R291). -/
def State.replaceCall (s : State) (q : Nat) (call : Nat) (r : Response) : State × Bool :=
  let is (x : Response) : Bool := x.typ == .rowCall && leAt x.payload 0 4 == call && bits (leAt x.payload 0 32) 48 48 == 0
  if (s.queue q).store.any is then
    (s.updQueue q fun x => { x with store := x.store.map fun y => if is y then { y with payload := r.payload } else y }, true)
  else (s, false)

/-- ROW_CALL_RESEND (R98): the rows not supplied 2 ms later, at most eight times. -/
def execRowCallResend (slot call : Nat) (s : State) : Host.Outcome State Fault Refusal :=
  .next (match s.job? slot with
    | none => s
    | some j =>
      match j.body.calls.find? fun c => c.id == call && within 1 8 c.sends && c.rows.any fun r => !r.supplied with
      | none => s
      | some c =>
        let r := j.callResponse c c.sends
        let (s, done) := s.replaceCall j.eventQueue call r
        let s := if done then s else s.sendCall slot j r
        (s.updCall slot call fun c => { c with sends := c.sends + 1 }).countCall slot c 4 1)

/-- ANNEX_STALLED (R98): the waiting steps are marked stalled; a late supply resumes them. DESIGN CHOICE: with several steps waiting on the call the event names
the least of them. -/
def execAnnexStalled (slot call : Nat) (s : State) : Host.Outcome State Fault Refusal :=
  .next (match s.job? slot with
    | none => s
    | some j =>
      match j.body.calls.find? fun c => c.id == call && c.sends == 9 && !c.stalled && c.rows.any fun r => !r.supplied with
      | none => s
      | some c =>
        let row := ((c.rows.find? fun r => !r.supplied).map (·.row)).getD 0
        let step := (c.steps.foldl (fun m n => match m with | some k => some (min k n) | none => some n) (none : Option Nat)).getD 0
        let s := s.updCall slot call fun c => { c with stalled := true }
        let s := s.updJob slot fun j => { j with steps := j.steps.map fun x => if c.steps.contains x.num then { x with stalled := true } else x }
        (s.raiseJob 0x6002 slot step (row / 2 ^ 32 % 2 ^ 8 * 2 ^ 24 + c.table) (row % 2 ^ 32) c.id).tryClose slot)

/-! ### Gathers between positions (R92, R95, R319) -/

/-- A `GATHER_REQ` at the home: it answers with the segment's exact values once the row is readable; an annex row is called first. The data granules' layout is
the model's: FP32 bits by column. -/
def State.serveGather (s : State) (src : Nat) (b : List Byte) : State :=
  let wait (s : State) : State := s.holdRequest src .gatherReq b
  let h := msgHead b
  match s.jobOfKey? h.jobKey with
  | none => wait s
  | some j =>
    match j.step? h.step with
    | none => if j.body.nextStep ≤ h.step then wait s else s
    | some x =>
      let info := s.spaceInfo j x 0 h.spaceId h.index
      let ed := (x.edition? h.spaceId).getD 0
      let ready := s.updated j 0 h.spaceId h.step
      match s.rowVals j x (WorkId.none j.slot h.step) 0 h.spaceId h.index 0 info.width with
      | some vs =>
        let seg := ((s.segments j info h.index 0 info.width).find? fun g => g.1 == h.segFirst && s.mine g.2.2.2).getD (0, 0, 0, 0)
        let w := WorkId.none j.slot h.step
        let far := (s.served j x 0 h.spaceId h.index).1
        let s := if ready && far != 1 then s.noteDecoded j x w 0 h.spaceId h.index seg.2.1 seg.2.2.1 else s
        if ready && (far == 1 || !s.rowPoison j x w 0 h.spaceId h.index seg.2.1 seg.2.2.1) then
          let vals := (vs.drop seg.2.1).take seg.2.2.1
          (s.noteRead j x w 0 h.spaceId h.index seg.2.1 seg.2.2.1 far).send src .gatherData
            (h.bytes ++ toLE 32 (seg.2.1 + seg.2.2.1 * 2 ^ 32) ++ (vals.map fun v => toLE 4 (round32 v)).flatten)
        else s.holdRequest src .gatherReq b
      | none => wait (s.callRow j.slot h.step h.spaceId ed h.index h.segFirst).1

/-- The effect of a message of a kind that does not land first. -/
def State.serveMsg (s : State) (src : Nat) (k : FlitKind) (b : List Byte) : State :=
  match k with
  | .gatherReq => s.serveGather src b
  | .endContrib => s.takeMarker src b
  | .rangeReport => s.takeReport src b
  | _ => s

/-- Try again every message whose effect waits here (R33, R96). -/
def State.serveWaiting (s : State) : State :=
  s.fabric.requests.foldl (fun s r => s.serveMsg r.1 r.2.1 r.2.2) { s with fabric := { s.fabric with requests := [] } }

/-- GATHER_REQ (R95). -/
def execGatherReq (port : Nat) (m : Msg) (tagOk : Bool) (now : Nat) (s : State) : Host.Outcome State Fault Refusal :=
  .next (match s.receive port .gatherReq m tagOk now with
    | (s, some b) => s.serveGather m.src b
    | (s, none) => s)

/-- GATHER_DATA (R92): the segment lands in the requester's reserved range, unless its slip has moved on. -/
def execGatherData (port : Nat) (m : Msg) (tagOk : Bool) (now : Nat) (s : State) : Host.Outcome State Fault Refusal :=
  .next (match s.receive port .gatherData m tagOk now with
    | (s, none) => s
    | (s, some b) =>
      let h := msgHead b
      match (s.unit h.tile).slip? h.slip with
      | none => s
      | some p =>
        match s.job? p.work.slot, (s.unit h.tile).work? p.work with
        | some j, some k =>
          if j.key == h.jobKey && p.work.step == h.step && p.id == h.spaceId && p.row == h.index && p.seg == h.segFirst && p.remote && !p.scatter
              && (p.state == .issued || p.state == .partly) then
            let d := (((j.programs[k.prog]?).map fun q => q.at p.pos)).getD ⟨0⟩
            let first := leAt b 32 4
            let n := leAt b 36 4
            let vs := (List.range p.count).map fun i =>
              let c := p.first + i
              if first ≤ c ∧ c < first + n then f32 (leAt b (64 + 4 * (c - first)) 4) else .zero false
            (s.landVals h.tile p.carrel d p.at' p.first vs).updSlip h.tile h.slip fun p => { p with landed := p.granules, state := .done }
          else s
        | _, _ => s)

/-- The space and id that a `RAISE` record's tensor names (R116). -/
def Job.raisedSpace (j : Job) (t : Nat) : Nat × Nat :=
  if 0xFFFFF000 ≤ t then (0, t - 0xFFFFF000) else match j.body.tables.find? fun b => b.grad == t with | some b => (0, b.id) | none => (2, t)

/-- A step of a replayed log (R38, R372): bound as it was, where it was accepted before the Deposit; its windows and rungs are from the start those its records
give (R108, R207). -/
def StepRec.replayed (x : StepRec) (j : Job) : StepRec :=
  let x := match (if j.filling then j.deposit.bind fun d => d.steps.find? fun y => y.num == x.num else none) with
    | some y => { x with bind := y.bind, editions := y.editions, roles := y.roles }
    | none => x
  let rung (l : List LayerCheck) (r : LogRec) : List LayerCheck :=
    let c : LayerCheck := { layer := leAt r.body 4 4, mb := leAt r.body 0 4, rung := leAt r.body 8 4, passed := false, nonfinite := false }
    (l.filter fun d => !(d.layer == c.layer && d.mb == c.mb)) ++ [c]
  let window (l : List Ledger) (r : LogRec) : List Ledger :=
    let g := j.raisedSpace (leAt r.body 0 4)
    (l.filter fun a => !(a.space == g.1 && a.id == g.2)) ++ [Ledger.fresh g.1 g.2 (leAt r.body 4 4)]
  { x with checks := (j.logged 6 x.num).foldl rung x.checks, ledgers := (j.logged 5 x.num).foldl window x.ledgers }

/-- The events and counts of the raises and repeats that a replayed step begins with: they are deterministic outputs (Table 02-3). -/
def State.replayRises (s : State) (slot step : Nat) : State :=
  match s.job? slot with
  | none => s
  | some j =>
    let s := (j.logged 5 step).foldl (fun s r => (s.raiseJob 0x6003 slot step (leAt r.body 0 4) (leAt r.body 4 4) 0).count slot step 0x6020 5 1) s
    (j.logged 6 step).foldl (fun s r => (s.raiseJob 0x5221 slot step (leAt r.body 0 4) (leAt r.body 4 4) (leAt r.body 8 4)).count slot step 0x5220 3 1) s

/-- STEP_SUBMIT (R283): deferred publishes that can take effect do, then the step is bound and logged. -/
def execStepSubmit (q : Nat) (s : State) : Host.Outcome State Fault Refusal :=
  .next (s.runCommand q 0x20 (fun _ => true) State.submitBads fun s f =>
    match f.job with
    | none => s
    | some slot =>
      let s := (s.runDeferredPublishes slot (f.accept.getD 0)).runFreezes slot
      match s.job? slot with
      | none => s
      | some j =>
        let x := (s.newStep j f).replayed j
        ((((s.updJob slot fun j => { j with steps := j.steps ++ [x], body := { j.body with nextStep := x.num + 1 } }).bindScales slot x.num).logRecord
          slot 3 0 0 x.num x.accept (bindingBody j.steps.getLast? x)).replayRises slot x.num).serveWaiting)

/-- ROW_SUPPLY (R99, R284). -/
def execRowSupply (q : Nat) (s : State) : Host.Outcome State Fault Refusal :=
  .next (s.runLogged q 0x21 (fun c => !(supplyHead c.payload).ack) State.supplyBads State.supplyRecord fun s f =>
    match f.job with
    | none => s
    | some slot => ((if f.replayed then s.replaySupply slot f.cmd.payload else s.takeSupply slot f.cmd.payload).serveWaiting.done f .ok []))

end Sys2Proof.Machine
end

