-- ==== Sys2Proof/Machine/Exchange.lean ====
section
/-!
DEFINITION. What follows the completion of work: stage outputs handed to the next rank, `SLICE` sums formed and delivered, and with them the completion of
instances and the additions of ledgers (R42, R52, R106, R240, R241, R322 to R325).
-/
namespace Sys2Proof.Machine
open Sys2Proof

/-! ### Handoffs (R240, R241) -/

/-- Tensors a program writes (R199). -/
def Program.writes (p : Program) (t : Nat) : Bool := p.descs.any fun d => (d.kind == 0x09 && d.f 223 192 == t) || (d.kind == 0x08 && d.b 146 && d.f 415 384 == t)

/-- The program that stands under the index a work item runs. -/
def Job.program? (j : Job) (x : StepRec) (tile : Nat) (id : WorkId) : Option Program := j.programs[j.progOn x tile id]?

/-- The tensor a stage hands on, forward or backward. -/
def Job.stageOut (j : Job) (stage : Nat) (back : Bool) : Option Nat :=
  (j.stages.find? fun w => sRecStage w == stage).bind fun w => if back then sRecBwd w else sRecFwd w

/-- Whether the layer that writes a tensor has passed its check for a micro-batch (R241). -/
def Job.tensorPassed (j : Job) (x : StepRec) (t mb : Nat) : Bool :=
  match (j.tensor? t).bind tRecLayer with
  | some l => (j.layer? l).isNone || x.layerPassed l mb
  | none => true

/-- Body of a handoff after its head: direction, the summaries of the micro-batch's pieces, and the tiles. The layout is the model's. -/
def State.handoffBody (s : State) (j : Job) (x : StepRec) (t mb piece : Nat) (back : Bool) : List Byte :=
  let ps := (x.pieces.filter fun p => p.mb == mb).map (·.summary)
  let tiles := s.tiers.tiles.filter fun u => u.key.space == .tensor && u.key.slot == j.slot && u.key.id == t && u.key.scope == .workItem && u.key.step == x.num
    && u.key.mb == mb && u.key.piece == piece && u.image ≠ []
  toLE 32 ((if back then 1 else 0) + ps.length * 2 ^ 16) ++ (ps.map Summary.bytes).flatten ++ (tiles.map (·.image)).flatten

/-- Hand on what a completed work item of a stage wrote, once its layer has passed (R241). -/
def State.handOn (s : State) (slot step : Nat) (id : WorkId) (tile : Nat) : State :=
  match s.job? slot, s.step? slot step with
  | some j, some x =>
    match s.stageOf j id.role id.group with
    | none => s
    | some st =>
      match j.stageOut st id.back with
      | none => s
      | some t =>
        let name := (st, id.back, id.mb, id.piece)
        let writes := ((j.program? x tile id).map fun p => p.writes t).getD false
        if x.handed.contains name || !writes || !j.tensorPassed x t id.mb || !x.formed.contains id.mb then s
        else
          let next := if id.back then st - 1 else st + 1
          let d := ((j.positions.findIdx? (· == s.fabric.position)).getD 0) / j.ranks
          let dst := nth j.positions (d * j.ranks + next % j.ranks)
          let s := s.updStep slot step fun x => { x with handed := x.handed ++ [name] }
          if s.mine dst then s.updStep slot step fun x => { x with handoffs := x.handoffs ++ [(next, id.back, id.mb, id.piece)] }
          else
            let h : MsgHead := { (j.head step t (x.pieceCount id.mb)) with mb := id.mb, piece := id.piece, tile := next % 256, slip := next / 256 }
            s.sendKept slot dst .handoff step (h.bytes ++ s.handoffBody j x t id.mb id.piece id.back)
  | _, _ => s

/-- Hand on everything of a step that can go. -/
def State.handAll (s : State) (slot step : Nat) : State :=
  match s.step? slot step with
  | none => s
  | some x => (x.dispatched.filter fun p => !p.1.endPass && x.completed.contains p.1).foldl (fun s p => s.handOn slot step p.1 p.2) s

/-! ### `SLICE` sums (R322, R323, R325) -/

/-- Whether every work item of a piece that scatters into a tensor has completed, and its additions are made. -/
def State.sliceReady (s : State) (j : Job) (x : StepRec) (t mb piece : Nat) : Bool :=
  let roles := x.roles.filter fun p => !(s.unit p.1).lost
  let scatters (k : Nat) : Bool := ((j.programs[k]?).map fun p => p.descs.any fun d => d.kind == 0x03 && d.f 133 132 == 2 && d.f 223 192 == t).getD false
  let need := (roles.map fun p =>
    let both := roleA p.2 == roleB p.2 && groupA p.2 == groupB p.2
    (if scatters (progA p.2) then [(roleA p.2, groupA p.2, false)] else []) ++ (if scatters (progB p.2) then [(roleB p.2, groupB p.2, both)] else [])).flatten.eraseDups
  (need.all fun n => n.1 == 0 || x.completed.any fun w => w.role == n.1 && w.group == n.2.1 && w.back == n.2.2 && w.mb == mb && w.piece == piece && !w.endPass)
    && x.adds.all fun a => !(a.space == sliceSpace mb piece && a.id == t)

/-- Messages that carry a `SLICE` share or sum: the number of messages stands in the head's `TILE` and `SLIP` fields, which `REDUCE` does not use. -/
def Job.sliceMessages (j : Job) (x : StepRec) (l : Ledger) (rec' mb piece : Nat) : List (List Byte) :=
  let h : MsgHead := { (j.head x.num (redTensor rec') 0) with mb := mb, piece := piece }
  let cs := j.shareChunks l rec'
  let n := (reduceMessages h cs).length
  reduceMessages { h with tile := n / 1024, slip := n } cs

/-- Send messages of a reduction to a position, counted toward its marker (R320). -/
def State.sendReduce (s : State) (slot step dst : Nat) (ms : List (List Byte)) : State :=
  ms.foldl (fun s b => (s.updStep slot step fun x => x.counted dst).sendKept slot dst .reduce step b) s

/-- Write a `SLICE` sum as `DENSE` FP32 tiles and deliver its increments (R325). -/
def State.deliverSlice (s : State) (slot step rec' mb piece : Nat) : State :=
  match s.job? slot, s.step? slot step with
  | some j, some x =>
    let t := redTensor rec'
    let l := (x.ledger? (sliceSpace mb piece) t).getD (Ledger.fresh (sliceSpace mb piece) t 0)
    let w := j.exp t step
    let tiles := ((l.rows.map fun r => r.elems.map fun e => (r.row / 32, e.1 / 32)).flatten).eraseDups
    let s := tiles.foldl (fun s rc =>
      let es := (List.range 1024).map fun i => round32 ((l.elem (32 * rc.1 + i / 32) (32 * rc.2 + i % 32)).val w)
      s.putTile (j.tensorKey t step mb piece rc.1 rc.2) (pageTile t rc.1 rc.2 31 31 .fp32 es) none false) s
    let s := s.updStep slot step fun x => x.updLedger (sliceSpace mb piece) t fun l => { l with inRange := true, rows := [] }
    let role := bits rec' 13 10
    let group := bits rec' 17 14
    (((s.holders x role group).map fun k => (halvesFor (x.roleWord k) role group).map fun h => (k, h.1)).flatten).foldl
      (fun (s : State) (t : Nat × Nat) => s.raiseCount slot step t.1 t.2 (bits rec' 19 18) mb 1) s
  | _, _ => s

/-- Carry a `SLICE` reduction of a piece on: the share goes up the tree once this position's own part and its children's are in; at the root, or with the
sum from above, it goes down the tree and takes effect here. A `RING` gives the same sum (R323) and is carried out the same way. -/
def State.sliceOn (s : State) (slot step rec' mb piece : Nat) : State :=
  match s.job? slot, s.step? slot step with
  | some j, some x =>
    let l := j.sliceList rec'
    match s.myIndex l with
    | none => s
    | some i =>
      let t := redTensor rec'
      let led := (x.ledger? (sliceSpace mb piece) t).getD (Ledger.fresh (sliceSpace mb piece) t 0)
      let kids := s.broadcastTargets l (l.length + 1) i
      let childrenIn := kids.all led.reported.contains
      if led.inRange || led.shared || !childrenIn || !s.sliceReady j x t mb piece then s
      else if i = 0 then
        let s := kids.foldl (fun s k => s.sendReduce slot step k (j.sliceMessages x led rec' mb piece)) s
        s.deliverSlice slot step rec' mb piece
      else
        let up := nth l ((i - 1) / 2)
        (s.updStep slot step fun x => x.updLedger (sliceSpace mb piece) t fun l => { l with shared := true }).sendReduce slot step up (j.sliceMessages x led rec' mb piece)
  | _, _ => s

/-- The sum of a piece has come down the tree. -/
def State.sliceDown (s : State) (slot step rec' mb piece : Nat) : State :=
  match s.job? slot, s.step? slot step with
  | some j, some x =>
    let l := j.sliceList rec'
    match s.myIndex l, x.ledger? (sliceSpace mb piece) (redTensor rec') with
    | some i, some led =>
      let s := (s.broadcastTargets l (l.length + 1) i).foldl (fun s k => s.sendReduce slot step k (j.sliceMessages x led rec' mb piece)) s
      s.deliverSlice slot step rec' mb piece
    | _, _ => s
  | _, _ => s

/-- Carry on every `SLICE` reduction of a step. -/
def State.slicesOn (s : State) (slot step : Nat) : State :=
  match s.step? slot step with
  | none => s
  | some x => (x.reductions.filter fun r => redKind r == 1).foldl (fun s r =>
      x.pieces.foldl (fun s p => s.sliceOn slot step r p.mb p.summary.piece) s) s

/-- What follows a completion. -/
def State.afterWork (s : State) (slot step : Nat) : State := (s.handAll slot step).slicesOn slot step

/-! ### Completion and additions -/

/-- INSTANCE_COMPLETE (R42, R52): an instance whose effects are all visible completes, in its engine's order; its slips are free again (R93). One on a quarantined
tile does not: its work item reruns on the spare (R63, R174). -/
def execInstanceComplete (tile : Nat) (w : WorkId) (ord : Nat) (s : State) : Host.Outcome State Fault Refusal :=
  .next (
    let u := s.unit tile
    match (u.work? w).bind fun k => k.flying.find? fun i => i.ord == ord with
    | none => s
    | some i =>
      let e := engineOf i.kind
      let first := e == 4 || !(u.flying.any fun f => engineOf f.kind == e && decide (f.ord < ord))
      let drained := e != 0 || decide (u.queue.length ≤ 16)
      let mine (x : Slip) : Bool := x.work == w && x.pos == i.pos && x.regs == i.regs
      let landed := i.reqs.isEmpty && (u.slips.filter fun p => mine p.2).all fun p => p.2.state == .done || p.2.state == .zeroed
      if first && drained && i.ready && landed && i.targets.isEmpty && u.retiring.isNone then
        ((s.updUnit tile fun u => { u with slips := u.slips.filter fun p => !mine p.2 }).complete tile w ord).afterWork w.slot w.step
      else s)

/-- LEDGER_ADD (R106): one of the additions a memory controller has accepted, in any order. -/
def execLedgerAdd (slot step index : Nat) (s : State) : Host.Outcome State Fault Refusal :=
  .next (match (s.step? slot step).bind fun x => x.adds[index]? with
    | none => s
    | some a => ((s.addAddition slot step a).updStep slot step fun x => { x with adds := x.adds.eraseIdx index }).afterWork slot step)

end Sys2Proof.Machine
end

