-- ==== Sys2Proof/Machine/UpdateRows.lean ====
section
/-!
DEFINITION. The end of a step on this position: step-end passes, the range check and its raises, the update of units, and the release of layers (R50, R108,
R126, R216 to R236, R320, R326).
-/
namespace Sys2Proof.Machine
open Sys2Proof

/-! ### Units (R217 to R220) -/

/-- A unit of the update: a parameter (kind 0) or a table (kind 1). -/
structure Unit' where
  kind : Nat
  id : Nat
  deriving DecidableEq, Repr

/-- Tables that take part in a step: those created before it was accepted (R232). -/
def Job.tablesOf (j : Job) (x : StepRec) : List Table := j.body.tables.filter fun t => decide (t.accept < x.accept)

/-- Units of a step (R232). -/
def Job.units (j : Job) (x : StepRec) : List Unit' :=
  j.body.params.map (fun p => ⟨0, pRecTensor p.rec'⟩) ++ (j.tablesOf x).map fun t => ⟨1, t.id⟩

def Job.unitGroup (j : Job) (u : Unit') : Nat :=
  if u.kind = 0 then ((j.param? u.id).map fun p => pRecGroup p.rec').getD 0 else ((j.table? u.id).map (·.group)).getD 0

/-- Layer of a unit; a table is the layer 4,096 + its id (R218). -/
def Job.unitLayer (j : Job) (u : Unit') : Nat := if u.kind = 0 then ((j.param? u.id).map fun p => pRecLayer p.rec').getD 0 else 4096 + u.id

/-- Space and id under which a unit's gradient is held: its table, or the tensor whose `OWNER` reduction it is the target of (R220). -/
def Job.unitGrad (_j : Job) (x : StepRec) (u : Unit') : Option (Nat × Nat) :=
  if u.kind = 1 then some (0, u.id)
  else (x.reductions.find? fun r => redKind r == 0 && redTarget r == u.id).map fun r => (2, redTensor r)

/-- Whether this position owns a unit, or is home to rows of it. -/
def State.ownsUnit (s : State) (j : Job) (u : Unit') : Bool :=
  if u.kind = 0 then ((j.param? u.id).map s.owns).getD false
  else ((j.table? u.id).map fun t => t.positions.any s.mine).getD false

/-- Whether a descriptor is an `UPDATE` of a unit (R234). -/
def Desc.updates (d : Desc) (u : Unit') : Bool := d.kind == 0x0A && d.b 128 == (u.kind == 1) && d.f 223 192 == u.id

/-- Whether some `UPDATE` descriptor of the job names a unit (R232). -/
def Job.named (j : Job) (u : Unit') : Bool := j.programs.any fun p => p.descs.any fun d => d.updates u

/-- Units that a step does not update: frozen, or named by no descriptor (R232). -/
def Job.still (j : Job) (x : StepRec) (u : Unit') : Bool := (x.group (j.unitGroup u)).frozen || !j.named u

/-- The unit a gradient belongs to. -/
def Job.unitOfGrad (j : Job) (x : StepRec) (space id : Nat) : Option Unit' := (j.units x).find? fun u => j.unitGrad x u == some (space, id)

/-- Spaces of the gradients of a step's units. -/
def Job.gradSpaces (j : Job) (x : StepRec) : List (Nat × Nat) := (j.units x).filterMap (j.unitGrad x)

/-! ### Step-end passes (R50) -/

/-- STEP_END_PASS (R50): on a tile that holds a role and group, once their work items are done, and in role `UPDATE` once every contribution is in. -/
def execStepEndPass (tile half : Nat) (w : WorkId) (s : State) : Host.Outcome State Fault Refusal :=
  .next (
    let s := s.afterWork w.slot w.step
    let s := if w.role = 5 then s.closeContributions w.slot w.step else s
    match s.job? w.slot, s.step? w.slot w.step with
    | some j, some x =>
      let hs := halvesFor (x.roleWord tile) w.role w.group
      let named := w.endPass && w.mb == 0 && w.piece == 0 && hs.any (fun h => h.1 == half) && w.back == (decide (1 < hs.length) && half == 1)
      let ready := if w.role = 5 then s.contributionsIn j x else x.roleDone w.role w.group (decide (1 < hs.length))
      let u := s.unit tile
      let fresh := !(x.dispatched.any fun p => p.1 == w && p.2 == tile)
      let open' := s.dispatchOpen j && (u.work? w).isNone
        && s.placeOpen tile half && s.bindOpen x tile
      if w.endPass && s.againOpen j x tile w then s.runAgain tile w else if named && ready && fresh && open' then s.startWork tile half w else s
    | _, _ => s)

/-! ### END_CONTRIB and RANGE_REPORT -/

/-- END_CONTRIB (R320). -/
def execEndContrib (port : Nat) (m : Msg) (tagOk : Bool) (now : Nat) (s : State) : Host.Outcome State Fault Refusal :=
  .next (match s.receive port .endContrib m tagOk now with
    | (s, some b) => s.takeMarker m.src b
    | (s, none) => s)

/-- RANGE_REPORT (R108). -/
def execRangeReport (port : Nat) (m : Msg) (tagOk : Bool) (now : Nat) (s : State) : Host.Outcome State Fault Refusal :=
  .next (match s.receive port .rangeReport m tagOk now with
    | (s, some b) => s.takeReport m.src b
    | (s, none) => s)

/-! ### The range check and its raises (R108, R232) -/

/-- Whether a program scatters into a space. -/
def Program.scattersInto (p : Program) (space id : Nat) : Bool := p.descs.any fun d => d.kind == 0x03 && d.f 133 132 == space && d.f 223 192 == id

/-- The tile that reruns what another ran: itself, or where it is lost a tile that holds the role and group. -/
def State.runner (s : State) (x : StepRec) (tile : Nat) (id : WorkId) : Nat :=
  if (s.unit tile).lost then ((s.holders x id.role id.group).head?).getD tile else tile

/-- Effects a work item has delivered, completed or not. -/
def State.effectsOf (s : State) (x : StepRec) (p : WorkId × Nat) : List (Nat × Regs × Nat) :=
  match (s.unit p.2).work? p.1, x.again.find? fun a => a.id == p.1 && a.tile == p.2 with
  | some w, _ => w.delivered
  | none, some a => a.delivered
  | none, none => aGetD x.effects p.1 []

/-- The descriptor of a program with a `SEQ`. -/
def Program.bySeq (p : Program) (seq : Nat) : Desc := (p.descs.find? fun d => d.seq == seq).getD ⟨0⟩

/-- Whether an effect is a scatter's slip into a space. -/
def Program.scattered (p : Program) (space id : Nat) (e : Nat × Regs × Nat) : Bool :=
  let d := p.bySeq e.1
  e.2.2 != 0 && d.kind == 0x03 && d.f 133 132 == space && d.f 223 192 == id

/-- Spaces that delivered effects from a `SEQ` on scatter into. -/
def Program.scatteredFrom (p : Program) (seq : Nat) (es : List (Nat × Regs × Nat)) : List (Nat × Nat) :=
  (es.filter fun e => decide (seq ≤ e.1) && e.2.2 != 0).map fun e => ((p.bySeq e.1).f 133 132, (p.bySeq e.1).f 223 192)

/-- Raises so far of a gradient's window in a step (R108). -/
def State.raises (s : State) (slot step space id : Nat) : Nat := (((s.step? slot step).bind fun x => x.ledger? space id).map (·.k)).getD 0

/-- A work item runs again for its scatters into a space alone (R108): one that has completed, with every other effect suppressed; one under way from its start,
with what it has delivered suppressed but for them. -/
def State.rescatter (s : State) (j : Job) (x : StepRec) (p : WorkId × Nat) (space id : Nat) : State :=
  let r := s.runner x p.2 p.1
  let only := ((s.unit p.2).work? p.1).bind (·.only)
  if x.completed.contains p.1 ∨ only = some (space, id) then s.restart r p.1 (some (space, id)) []
  else
    let prog := (j.program? x p.2 p.1).getD { role := 0, carrel := 0, slips := 0, descs := [] }
    let lost (e : Nat × Regs × Nat) : Bool := prog.scattered space id e || (match only with | some o => prog.scattered o.1 o.2 e | none => false)
    let done := if only.isSome then aGetD x.effects p.1 [] else s.effectsOf x p
    s.restart r p.1 none (done.filter fun e => !lost e)

/-- Discard a gradient's ledgers and what is staged for it, and run again what scatters into it, at a window (R108, R347). -/
def State.discardLedger (s : State) (slot step space id k : Nat) : State :=
  match s.job? slot, s.step? slot step with
  | some j, some x =>
    let s := s.updStep slot step fun x =>
      { x with ledgers := (x.ledgers.filter fun l => !(l.space == space && l.id == id)) ++ [Ledger.fresh space id k],
               staged := x.staged.filter (fun t => !(t.space == space && t.id == id)), adds := x.adds.filter (fun a => !(a.space == space && a.id == id)),
               ended := [], promised := [], ownEnd := false }
    let again := x.dispatched.filter fun p => p.1.role != 5 && ((j.program? x p.2 p.1).map fun q => q.scattersInto space id).getD false
    (again.foldl (fun s p => match s.step? slot step with | some x => s.rescatter j x p space id | none => s) s).serveWaiting
  | _, _ => s

/-- The raise of a tensor's window: log, event and count, then the discard and the reruns (R108). -/
def State.raiseWindow (s : State) (slot step space id : Nat) : State :=
  match s.job? slot, s.step? slot step with
  | some j, some x =>
    let k := (((x.ledger? space id).map (·.k)).getD 0) + 1
    let t := j.raiseTensor space id
    let s := s.logRecord slot 5 0 0 step x.accept (toLE 4 t ++ toLE 4 k)
    ((s.raiseJob 0x6003 slot step t k 0).count slot step 0x6020 5 1).discardLedger slot step space id k
  | _, _ => s

/-- Positions that own part of a gradient (R108). -/
def Job.gradOwners (j : Job) (x : StepRec) (space id : Nat) : List Nat :=
  if space = 0 then ((j.table? id).map fun t => if t.placement = 2 then t.positions.take 1 else t.positions).getD []
  else match x.reductions.find? fun r => redKind r == 0 && redTensor r == id with
    | some r => ((j.param? (redTarget r)).map fun p => [pRecOwner p.rec']).getD []
    | none => []

/-- Whether a ledger must be raised: an addend, a partial or a total outside the range. -/
def Ledger.out (l : Ledger) : Bool := l.excess || l.rows.any fun r => r.elems.any fun e => !ledgerOk e.2.sum

/-- LEDGER_RANGE_CHECK (R108, R232): the report once every contribution is in and the freeze is known; then, with every owner's report, the raise or
its end. -/
def execLedgerRangeCheck (slot step space id : Nat) (s : State) : Host.Outcome State Fault Refusal :=
  .next (
    let s := s.closeContributions slot step
    match s.job? slot, s.step? slot step with
    | some j, some x =>
      match j.unitOfGrad x space id with
      | none => s
      | some u =>
        let l := (x.ledger? space id).getD (Ledger.fresh space id 0)
        let frozenKnown := (j.steps.filter fun y => decide (y.num < step)).all (·.watched)
        if s.contributionsIn j x && frozenKnown && !l.inRange then
          let still := j.still x u
          let owners := j.gradOwners x space id
          let bad := !still && l.out
          let owes := owners.any s.mine && !l.reported.contains s.fabric.position
          let s := if owes then
              let s := (s.others j).foldl (fun s p => s.sendKept slot p .rangeReport step (j.head step (j.raiseTensor space id) (if bad then 1 else 0)).bytes) s
              s.updStep slot step fun x => x.updLedger space id fun l => { l with reported := l.reported ++ [s.fabric.position], raising := l.raising || bad }
            else s
          match (s.step? slot step).bind fun x => x.ledger? space id with
          | none => if owners.isEmpty then s.updStep slot step fun x => x.updLedger space id fun l => { l with inRange := true } else s
          | some l =>
            if owners.all fun p => if s.mine p then l.reported.contains s.fabric.position else l.reported.contains p then
              if l.raising && !still then s.raiseWindow slot step space id
              else s.updStep slot step fun x => x.updLedger space id fun l => { l with inRange := true }
            else s
        else s
    | _, _ => s)

/-! ### The arithmetic of a unit (R225 to R230) -/

/-- What a unit's rule is given in a step. -/
def StepRec.ruleIn (x : StepRec) (g : Nat) : RuleIn :=
  let r := x.group g
  { row := r, lr := curveAt (x.curve r.lrCurve) x.num, wd := curveAt (x.curve r.wdCurve) x.num, mu := curveAt (x.curve r.momCurve) x.num, step := x.num }

/-- A ledger element rounded once to FP32 (R107, R109). -/
def Job.g0 (j : Job) (x : StepRec) (space id row col : Nat) : Val :=
  r32 ((((x.ledger? space id).map fun l => l.elem row col).getD LedgerElem.zero).val (j.gradWindow x space id))

/-- g of R226 over a row. -/
def Job.gradRow (j : Job) (x : StepRec) (u : Unit') (row first count : Nat) : List Val :=
  let r := x.ruleIn (j.unitGroup u)
  (List.range count).map fun c =>
    r.grad (match j.unitGrad x u with | some (sp, id) => j.g0 x sp id row (first + c) | none => .zero false)

/-- Store a moment state's element (R229): `k` is 1 for m and 2 for v. -/
def encodeMoment (ty : ElemType) (key : RoundKey) (col k : Nat) (v : Val) : Nat :=
  (toElem ty 0 (if ty = .bf16 then .keyed (key.word (col + 2 ^ 20 * k)) else .nearest) v).bits

/-- New moments and directions of a list of elements under `MOM` and `ADW`, and m for `ORTH`. -/
def RuleIn.row' (u : RuleIn) (gs ms vs : List Val) : List (Val × Val × Val) :=
  (List.range gs.length).map fun i => u.moments (gs.getD i (.zero false)) (ms.getD i (.zero false)) (vs.getD i (.zero false))

/-! ### Dense parameters -/

/-- m for every element and the orthogonalised direction of a parameter (R228). -/
def Job.orthOf (j : Job) (x : StepRec) (p : Param) : Mat × Mat :=
  let u : Unit' := ⟨0, pRecTensor p.rec'⟩
  let r := x.ruleIn (pRecGroup p.rec')
  let rows := pRecRows p.rec'
  let cols := pRecCols p.rec'
  let m := (List.range rows).map fun i =>
    (r.row' (j.gradRow x u i 0 cols) ((rowOf p.m cols i).map (decodeElem r.row.momentType)) []).map (·.1)
  (m, orth rows cols m)

/-- Whether a gradient of a parameter is infinite or NaN anywhere (R233). -/
def Job.paramBad (j : Job) (x : StepRec) (p : Param) : Bool :=
  (List.range (pRecRows p.rec')).any fun i => (j.gradRow x ⟨0, pRecTensor p.rec'⟩ i 0 (pRecCols p.rec')).any fun g => !g.isFinite

/-- One row of a parameter updated (R226, R229): master, m and v. -/
def Job.updateRow (j : Job) (x : StepRec) (p : Param) (orths : Option (Mat × Mat)) (i : Nat) : Param :=
  let t := pRecTensor p.rec'
  let cols := pRecCols p.rec'
  let r := x.ruleIn (pRecGroup p.rec')
  let g := r.row
  let gs := j.gradRow x ⟨0, t⟩ i 0 cols
  let key : RoundKey := { job := j.key, step := x.num, tensor := t, row := i }
  let dec (l : List (Nat × List Nat)) : List Val := (rowOf l cols i).map (decodeElem g.momentType)
  let new := match orths with
    | some (m, d) => (List.range cols).map fun c => ((m.getD i []).getD c (.zero false), Val.zero false, (d.getD i []).getD c (.zero false))
    | none => r.row' gs (dec p.m) (dec p.v)
  let w := (rowOf p.master cols i).map (decodeElem g.masterType)
  let enc (k : Nat) (f : Val × Val × Val → Val) : List Nat := (List.range new.length).map fun c => encodeMoment g.momentType key c k (f (new.getD c (.zero false, .zero false, .zero false)))
  let ws := (List.range cols).map fun c => (toElem g.masterType 0 .nearest (r.next (w.getD c (.zero false)) (new.getD c (.zero false, .zero false, .zero false)).2.2)).bits
  let p := p.setRow 0 i ws
  let p := if g.hasPart 1 then p.setRow 1 i (enc 1 (·.1)) else p
  if g.hasPart 2 then p.setRow 2 i (enc 2 (·.2.1)) else p

/-- What a tile of a working copy counts toward its tensor's health (R203, R204, R231). -/
def copyCounted (g : GroupRow) (e : Int) (p : Param) (row col : Nat) : Counted × Compressed :=
  let (o, rs) := p.copyTile g e row col
  let t := elemType g.workCode
  let inside := (List.range 1024).filter fun i => decide (32 * row + i / 32 < pRecRows p.rec') && decide (32 * col + i % 32 < pRecCols p.rec')
  let src := inside.map fun i => decodeElem g.masterType (nth (rowOf p.master (pRecCols p.rec') (32 * row + i / 32)) (32 * col + i % 32))
  let drops := o.dropped.map fun r => ((if t.scaled then (decodeElem t r).shift e else decodeElem t r)).abs
  ({ elements := inside.length, zeros := (inside.filter fun n => (decodeElem t (nth o.elems n)).eq (.zero false)).length,
     saturated := (rs.filter (·.sat)).length, nonfinite := (rs.filter (·.bad)).length, amax := amaxOf src,
     pruned := (drops.filter Val.isFinite).foldl (fun a v => a + signed 128 (toFx e .nearest v).bits) 0, prunedBad := drops.any fun v => !v.isFinite }, o)

/-- Update one row tile of a parameter and its working copy, and count the copy's writes (R226 to R231). -/
def State.updateRowTile (s : State) (slot step t die tile : Nat) : State :=
  match s.job? slot, s.step? slot step with
  | some j, some x =>
    match j.param? t with
    | none => s
    | some p =>
      let orths := (x.updates.find? fun u => u.layer == pRecLayer p.rec').bind fun u => (u.orth.find? fun o => o.1 == t).map (·.2)
      let rows := (List.range 32).map (32 * tile + ·) |>.filter (· < pRecRows p.rec')
      let p1 := rows.foldl (fun p i => j.updateRow x p orths i) p
      let g := x.group (pRecGroup p.rec')
      let e := j.exp t step
      let s := (s.updParam slot t fun _ => p1).writeCopyRow slot t g e (some die) tile
      (p1.tiles.filter fun rc => rc.1 == tile).foldl (fun s rc =>
        let (c, o) := copyCounted g e p1 rc.1 rc.2
        let s := if (j.tensor? t).isSome then s.updStep slot step fun x => x.report t (WorkId.none slot step) c else s
        (s.touch (j.tensorKey t 0 0 0 rc.1 rc.2) step).countFormat slot step o) s
  | _, _ => s

/-! ### Tables -/

/-- Rows of a table that received an addend in a step, and that this position holds (R218). -/
def State.touchedRows (s : State) (x : StepRec) (t : Table) : List Nat :=
  (((x.ledger? 0 t.id).map fun l => (l.rows.map (·.row)).eraseDups).getD []).filter fun r => (s.columns t r).isSome

/-- g over the columns of a row this position holds; padding is zero (R117). -/
def State.tableGrad (s : State) (j : Job) (x : StepRec) (t : Table) (row : Nat) : List Val :=
  let (first, n) := (s.columns t row).getD (0, 0)
  let gs := j.gradRow x ⟨1, t.id⟩ row first (min n (t.width - first))
  gs ++ List.replicate (n - gs.length) (.zero false)

/-- Whether a row's update is skipped for a gradient that is not finite (R233). -/
def State.rowSkipped (s : State) (j : Job) (x : StepRec) (t : Table) (row : Nat) : Bool :=
  (x.group t.group).skip && (s.tableGrad j x t row).any fun v => !v.isFinite

/-- Count the elements of a row just written that a non-finite value leaves not finite, in the health of the table's gradient tensor (R124). DEDUCED: R116 makes
that tensor's health the table's, and R203 counts positions. -/
def State.countRow (s : State) (j : Job) (step : Nat) (t : Table) (real : Nat) (d : RowData) : State :=
  let bad := if 2 ≤ d.cls then ((d.values.take real).filter fun v => !v.isFinite).length else 0
  match (j.gradTensor 0 t.id).filter fun g => (j.tensor? g).isSome with
  | none => s
  | some g => if bad = 0 then s else s.updStep j.slot step fun x => x.report g (WorkId.none j.slot step) { nonfinite := bad }

/-- A table row updated (R226, R229, R230). -/
def State.updatedRow (s : State) (j : Job) (x : StepRec) (t : Table) (row : Nat) (d : RowData) : RowData :=
  let (first, n) := (s.columns t row).getD (0, 0)
  let r := x.ruleIn t.group
  let g := r.row
  let d := d.under g
  let real := min n (t.width - first)
  let gs := s.tableGrad j x t row
  if s.rowSkipped j x t row then d
  else
    let key : RoundKey := { job := j.key, step := x.num, tensor := 0xFFFFF000 + t.id, row := row }
    let dec (l : List Nat) : List Val := l.map (decodeElem g.momentType)
    let (acc, ds, new) : Val × List Val × List (Val × Val × Val) :=
      if g.rule = 2 then let (a, ds) := r.rowag (f32 (d.rule % 2 ^ 32)) gs real; (a, ds, [])
      else let l := r.row' gs (dec d.m) (dec d.v); (.zero false, l.map (·.2.2), l)
    let old := d.values
    let vals := (List.range n).map fun c => if c < real then r.next (old.getD c (.zero false)) (ds.getD c (.zero false)) else .zero false
    let img := if d.cls = 0 then encodeRow 0 (fun _ => .nearest) real vals else encodeRow d.cls (rowRnd j x.num t.id row first) real (vals.map r32)
    let enc (k : Nat) (f : Val × Val × Val → Val) : List Nat :=
      (List.range n).map fun c => encodeMoment g.momentType key (first + c) k (f (new.getD c (.zero false, .zero false, .zero false)))
    let rule := if g.rule = 2 then round32 acc else d.rule
    let m := if d.m = [] then [] else enc 1 (·.1)
    let v := if d.v = [] then [] else enc 2 (·.2.1)
    { d.withImage d.cls img with rule := rule, m := m, v := v }

/-- Touch every stored tile of a page in a step (R261). -/
def State.touchPage (s : State) (slot table own page step : Nat) : State :=
  s.touchAll ((s.tiers.tiles.filter fun t => inPage slot table own page t.key).map (·.key)) step

/-- Update the touched rows of a table that lie in pages of some ranks, from a die. -/
def State.updatePages (s : State) (slot step id die n : Nat) (ranks : List Nat) : State :=
  match s.job? slot, s.step? slot step with
  | some j, some x =>
    match j.table? id with
    | none => s
    | some t =>
      let ed := (x.edition? id).getD t.edition
      ((s.touchedRows x t).filter fun r => ranks.contains (r / 32 % n)).foldl (fun s' r =>
        let s' := (s'.writeRow slot (x.group t.group) (some die) id ed r true (s.updatedRow j x t r)).touchPage slot id (t.owner ed (r / 32)) (r / 32) step
        if s.rowSkipped j x t r then s'
        else match (s.rowAt j t ed r).2 with
          | some d => s'.countRow j step t (s.realColumns t r) (s.updatedRow j x t r d)
          | none => s') s
  | _, _ => s

/-! ### UPDATE_APPLY (R219, R233) -/

/-- Units this position owns in a layer. -/
def State.layerUnits (s : State) (j : Job) (x : StepRec) (layer : Nat) : List Unit' := (j.units x).filter fun u => j.unitLayer u == layer && s.ownsUnit j u

/-- Call the annex rows of a layer that have addends and no held copy (R100): the state, and whether every such row is held. -/
def State.callTouched (s : State) (slot step : Nat) (us : List Unit') : State × Bool :=
  us.foldl (fun (acc : State × Bool) u =>
    match acc.1.job? slot, acc.1.step? slot step with
    | some j, some x =>
      match (if u.kind = 1 ∧ j.still x u = false then j.table? u.id else none) with
      | none => acc
      | some t =>
        let ed := (x.edition? t.id).getD t.edition
        let missing := (acc.1.touchedRows x t).filter fun r => (acc.1.rowAt j t ed r).2.isNone
        ((missing.foldl (fun (s : State) r => (s.callRow slot step t.id ed r 0).1) acc.1), acc.2 && missing.isEmpty)
    | _, _ => acc) (s, true)

/-- Count the rounded ledger elements of a unit in the health of its gradient's tensor (R107, R116, R203). -/
def State.countGrad (s : State) (slot step : Nat) (u : Unit') : State :=
  match s.job? slot, s.step? slot step with
  | some j, some x =>
    match j.unitGrad x u with
    | none => s
    | some (sp, id) =>
      match (j.gradTensor sp id).filter fun t => (j.tensor? t).isSome with
      | none => s
      | some t =>
        let vals : List Val :=
          if u.kind = 0 then
            match j.param? u.id with
            | some p => ((List.range (pRecRows p.rec')).map fun r => (List.range (pRecCols p.rec')).map fun c => j.g0 x sp id r c).flatten
            | none => []
          else match j.table? u.id with
            | some tb => ((s.touchedRows x tb).map fun r =>
                let (first, n) := (s.columns tb r).getD (0, 0)
                (List.range (min n (tb.width - first))).map fun c => j.g0 x sp id r (first + c)).flatten
            | none => []
        s.updStep slot step fun x => x.report t (WorkId.none slot step)
          { elements := vals.length, zeros := (vals.filter fun v => v.eq (.zero false)).length, nonfinite := (vals.filter fun v => !v.isFinite).length }
  | _, _ => s

/-- Whether a unit's gradient is not finite somewhere (R233). -/
def State.unitBad (s : State) (j : Job) (x : StepRec) (u : Unit') : Bool :=
  if u.kind = 0 then ((j.param? u.id).map fun p => j.paramBad x p).getD false
  else ((j.table? u.id).map fun t => (s.touchedRows x t).any fun r => (s.tableGrad j x t r).any fun g => !g.isFinite).getD false

/-- Begin the update of a unit: what its rule needs before its parts, and its report where a gradient is not finite. -/
def State.beginUnit (s : State) (slot step layer : Nat) (u : Unit') : State :=
  match s.job? slot, s.step? slot step with
  | some j, some x =>
    let upd (f : LayerUpdate → LayerUpdate) (s : State) : State :=
      s.updStep slot step fun x => { x with updates := x.updates.map fun l => if l.layer = layer then f l else l }
    if j.still x u then upd (fun l => { l with skip := l.skip ++ [(u.kind, u.id)] }) s
    else
      let g := x.group (j.unitGroup u)
      let bad := s.unitBad j x u
      let s := s.countGrad slot step u
      let s := if bad then (s.raiseJob 0x5401 slot step u.id u.kind (if g.skip then 1 else 0)).count slot step 0x5400 4 1 else s
      if u.kind = 0 ∧ bad = true ∧ g.skip = true then upd (fun l => { l with skip := l.skip ++ [(u.kind, u.id)] }) s
      else if u.kind = 0 ∧ g.rule = 3 then
        match j.param? u.id with
        | some p => let o := j.orthOf x p; upd (fun l => { l with orth := l.orth ++ [(u.id, o.1, o.2)] }) s
        | none => s
      else s
  | _, _ => s

/-- UPDATE_APPLY (R219): a layer's update starts once every contribution to it is in and in range, the layers of earlier steps are released, a refresh before
it has ended, and what it writes has its scale. -/
def execUpdateApply (slot step layer : Nat) (s : State) : Host.Outcome State Fault Refusal :=
  .next (
    let s := s.closeContributions slot step
    match s.job? slot, s.step? slot step with
    | some j, some x =>
      let us := s.layerUnits j x layer
      let earlier := j.steps.filter fun y => decide (y.num < step)
      let inRange (u : Unit') : Bool := j.still x u || (match j.unitGrad x u with
        | some (sp, id) => ((x.ledger? sp id).map (·.inRange)).getD false
        | none => true)
      let ready := us ≠ [] && !(x.updates.any fun l => l.layer == layer) && s.contributionsIn j x && us.all inRange
        && earlier.all (fun y => y.watched && y.updates.any fun l => l.layer == layer && l.released)
        && earlier.all (fun y => !y.refreshDue || y.refreshed) && j.pointsPast x
        && us.all (fun u => u.kind == 1 || j.scaleReady u.id step) && s.dispatchOpen j
      if ready then
        let (s, held) := s.callTouched slot step us
        if held then
          let s := s.updStep slot step fun x => { x with updates := x.updates ++ [{ layer := layer, started := true, released := false, done := [], skip := [], orth := [] }] }
          us.foldl (fun s u => s.beginUnit slot step layer u) s
        else s
      else s
    | _, _ => s)

/-! ### UPDATE (R234) -/

/-- Tiles that run a unit's `UPDATE` descriptor in a step, in ascending order (R234). -/
def Job.updateTiles (j : Job) (x : StepRec) (u : Unit') : List Nat :=
  (x.roles.filter fun p =>
    ([(roleA p.2, progA p.2), (roleB p.2, progB p.2)]).any fun h =>
      h.1 == 5 && ((j.programs[h.2]?).map fun q => q.descs.any fun d => d.updates u).getD false).map (·.1)

/-- Ranks whose part a tile takes: its own, and on the first tile still working those of tiles lost (R65, R234). -/
def State.ranksFor (s : State) (tiles : List Nat) (tile : Nat) : List Nat :=
  let live := tiles.filter fun t => !(s.unit t).lost
  (List.range tiles.length).filter fun r =>
    nth tiles r == tile || ((s.unit (nth tiles r)).lost && live.head? == some tile)

/-- The unit an `UPDATE` descriptor names. -/
def Desc.unit (d : Desc) : Unit' := ⟨if d.b 128 then 1 else 0, d.f 223 192⟩

/-- Whether an `UPDATE` has nothing to do: its unit is not this position's, or is not updated in the step. -/
def Ctx.updateIdle (c : Ctx) (s : State) : Bool :=
  !s.ownsUnit c.job c.d.unit || (!(c.job.units c.x).contains c.d.unit)
    || ((c.x.updates.find? fun l => l.layer == c.job.unitLayer c.d.unit).map fun l => l.skip.contains (c.d.unit.kind, c.d.unit.id)).getD false

/-- Whether an `UPDATE` may run: its layer's update has started. -/
def Ctx.updateReady (c : Ctx) (s : State) : Bool :=
  c.updateIdle s || c.x.updates.any fun l => l.layer == c.job.unitLayer c.d.unit && l.started

/-- The effect of an `UPDATE` on this tile's part of the unit. -/
def Ctx.update (c : Ctx) (s : State) : State :=
  if c.updateIdle s then s
  else
    let u := c.d.unit
    let layer := c.job.unitLayer u
    let tiles := c.job.updateTiles c.x u
    let done := ((c.x.updates.find? fun l => l.layer == layer).map (·.done)).getD []
    let ranks := (s.ranksFor tiles c.tile).filter fun r => !done.contains (u.kind, u.id, r)
    let s :=
      if u.kind = 0 then
        match c.job.param? u.id with
        | some p => ((List.range (ceilDiv (pRecRows p.rec') 32)).filter fun i => ranks.contains (i % tiles.length)).foldl
            (fun s i => s.updateRowTile c.slot c.x.num u.id (c.tile / 64) i) s
        | none => s
      else s.updatePages c.slot c.x.num u.id (c.tile / 64) tiles.length ranks
    s.updStep c.slot c.x.num fun x =>
      { x with updates := x.updates.map fun l => if l.layer = layer then { l with done := l.done ++ ranks.map fun r => (u.kind, u.id, r) } else l }

/-- The stored tiles of the rows that an `UPDATE` of a table reads on this tile. -/
def Ctx.updateReads (c : Ctx) (s : State) : List TileKey :=
  let u := c.d.unit
  if c.updateIdle s || u.kind == 0 then []
  else match c.job.table? u.id with
    | none => []
    | some t =>
      let n := (c.job.updateTiles c.x u).length
      let ranks := s.ranksFor (c.job.updateTiles c.x u) c.tile
      let ed := (c.x.edition? u.id).getD t.edition
      let pages := (((s.touchedRows c.x t).filter fun r => ranks.contains (r / 32 % n)).map (· / 32)).eraseDups
      (s.tiers.tiles.filter fun x => x.key.space == .table && x.key.slot == c.slot && x.key.id == u.id
        && pages.contains x.key.row && x.key.edition == t.owner ed x.key.row).map (·.key)

/-- Whether what an `UPDATE` writes finds room: nothing goes to a far tier that is full (R256, R260). -/
def Ctx.updateRoom (c : Ctx) (s : State) : Bool := decide ((c.update s).farUsed ≤ max s.farUsed s.farCapacity)

/-- Bytes sought by an `UPDATE` that waits for space. -/
def Ctx.updateSought (c : Ctx) (s : State) : Nat := (c.update s).farUsed - s.farUsed

/-- UPDATE (R234): where no tier has room for the pages it writes it waits, and the wait is counted once (R256). -/
def execUpdate (tile : Nat) (w : WorkId) (s : State) : Host.Outcome State Fault Refusal :=
  .next (s.unlessPoisoned tile w (fun c s => c.d.kind == 0x0A && c.updateReady s) Ctx.updateReads fun s =>
    s.issueSpace tile w (fun c s => c.d.kind == 0x0A && c.updateReady s) Ctx.updateRoom Ctx.updateSought Ctx.update)

/-! ### LAYER_RELEASE (R126, R219, R326) -/

/-- Whether every part of a unit has been updated, or none has to be. -/
def Job.unitDone (j : Job) (x : StepRec) (l : LayerUpdate) (u : Unit') : Bool :=
  l.skip.contains (u.kind, u.id) || (List.range (j.updateTiles x u).length).all fun r => l.done.contains (u.kind, u.id, r)

/-- `TOUCH` of the rows of a table that a step gathered rises by one (R126). -/
def State.touchRows (s : State) (slot step id : Nat) : State :=
  match s.job? slot, s.step? slot step with
  | some j, some x =>
    match j.table? id with
    | none => s
    | some t =>
      ((x.gathered.filter fun g => g.1 == id && (s.columns t g.2).isSome).map (·.2)).foldl (fun s r =>
        s.writeRow slot (x.group t.group) none id ((x.edition? id).getD t.edition) r false fun d => { d with touch := min 65535 (d.touch + 1) }) s
  | _, _ => s

/-- LAYER_RELEASE (R219): the results of a layer can be read; its ledgers are freed, touch counters rise, and working copies go to the job's other
positions. -/
def execLayerRelease (slot step layer : Nat) (s : State) : Host.Outcome State Fault Refusal :=
  .next (match s.job? slot, s.step? slot step with
    | some j, some x =>
      match x.updates.find? fun l => l.layer == layer && !l.released with
      | none => s
      | some l =>
        let us := s.layerUnits j x layer
        let flying := s.tileUnits.any fun u => u.works.any fun w => w.id.slot == slot && w.id.step == step && w.flying.any fun i => i.kind == 0x0A
        if us.all (j.unitDone x l) && !flying then
          let gone := us.filterMap (j.unitGrad x)
          let s := s.updStep slot step fun x =>
            { x with updates := x.updates.map fun l => if l.layer = layer then { l with released := true, orth := [] } else l
                     ledgers := x.ledgers.map fun l => if gone.contains (l.space, l.id) then { l with rows := [] } else l }
          let s := us.foldl (fun s u => if u.kind = 1 then s.touchRows slot step u.id else s) s
          let s := us.foldl (fun s u => match j.param? u.id with
            | some p => if u.kind = 0 then s.broadcastFrom slot u.id step (pRecOwner p.rec') 0 else s
            | none => s) s
          s.serveWaiting
        else s
    | _, _ => s)

end Sys2Proof.Machine
end

