-- ==== Sys2Proof/Machine/StepRows.lean ====
section
/-!
DEFINITION. The checks and records that follow a step's work: overflow repeats, scales, the stuck-zero watch, the refresh, and the completion of the step
(R17, R32, R127 to R131, R201 to R211, R223, R285, R428).
-/
namespace Sys2Proof.Machine
open Sys2Proof

/-! ### LAYER_CHECK (R206 to R208) -/

/-- Positions of a program at which a tensor of a layer is written. -/
def Job.writersOf (j : Job) (p : Program) (l : Nat) : List Nat := (List.range p.descs.length).filter fun i => j.writesLayer (p.at i) l

/-- Whether a work item has written every tensor of a layer: it has completed, or stands past its last write with none in flight. -/
def State.wroteLayer (s : State) (j : Job) (x : StepRec) (tile : Nat) (id : WorkId) (l : Nat) : Bool :=
  x.completed.contains id ||
    match (s.unit tile).work? id with
    | none => false
    | some w =>
      match j.programs[w.prog]? with
      | none => false
      | some p =>
        (j.writersOf p l).all fun i => !x.selects id (p.at i) ||
          (decide (i < w.pos) && !(w.flying.any fun f => f.pos == i)
            && w.loops.all fun k => !(decide (k.pos < i) && decide (i ≤ k.pos + (p.at k.pos).loopLen)))

/-- Dispatched work items of a role, group and micro-batch, with their tiles. -/
def StepRec.worksOf (x : StepRec) (role group mb : Nat) : List (WorkId × Nat) :=
  x.dispatched.filter fun p => p.1.role == role && p.1.group == group && p.1.mb == mb && !p.1.endPass

/-- Whether every piece of a micro-batch has written a layer. -/
def State.layerWritten (s : State) (j : Job) (x : StepRec) (rec' mb : Nat) : Bool :=
  let l := lRecLayer rec'
  let role := bits rec' 19 16
  let group := bits rec' 23 20
  let held := s.holders x role group
  let both := held.any fun t => decide (1 < (halvesFor (x.roleWord t) role group).length)
  x.formed.contains mb && (List.range (x.pieceCount mb)).all fun piece =>
    (if both then [false, true] else [false]).all fun back =>
      let id : WorkId := { slot := j.slot, step := x.num, mb := mb, piece := piece, role := role, group := group, endPass := false, back := back }
      match x.dispatched.find? fun p => p.1 == id with
      | some p => s.wroteLayer j x p.2 id l
      | none => held.all fun t => ((j.program? x t id).map fun p => (j.writersOf p l).isEmpty).getD true

/-- Counts of a tensor over the writes of a micro-batch by a role and group. -/
def StepRec.mbCounts (x : StepRec) (t role group mb : Nat) : Nat × Nat × Nat :=
  let ps := x.parts.filter fun p => p.tensor == t && p.work.mb == mb && p.work.role == role && p.work.group == group && !p.work.endPass
  (sum (ps.map (·.elements)), sum (ps.map (·.saturated)), sum (ps.map (·.nonfinite)))

/-- The trip of R206. -/
def Job.layerTrips (j : Job) (x : StepRec) (rec' mb : Nat) : Bool :=
  (j.layerTensors (lRecLayer rec')).any fun t =>
    let (n, sat, bad) := x.mbCounts t (bits rec' 19 16) (bits rec' 23 20) mb
    decide (0 < bad) || ((f32 (x.num' 0x5220 2)).mul (.ofInt n)).lt (.ofInt sat)

def Job.layerNonfinite (j : Job) (x : StepRec) (rec' mb : Nat) : Bool :=
  (j.layerTensors (lRecLayer rec')).any fun t => decide (0 < (x.mbCounts t (bits rec' 19 16) (bits rec' 23 20) mb).2.2)

/-- Set the check of a layer and micro-batch. -/
def StepRec.setCheck (x : StepRec) (c : LayerCheck) : StepRec :=
  { x with checks := (x.checks.filter fun d => !(d.layer == c.layer && d.mb == c.mb)) ++ [c] }

/-- An overflow repeat (R207): producers run again at the next rung, without effects delivered before their first write of the layer; the writes after it are
discarded, which for a scatter means that its ledger is formed anew, since a sum holds no part alone; consumers start again without the effects they
delivered. -/
def State.repeatLayer (s : State) (slot step rec' mb rung : Nat) : State :=
  match s.job? slot, s.step? slot step with
  | some j, some x =>
    let l := lRecLayer rec'
    let prods := x.worksOf (bits rec' 19 16) (bits rec' 23 20) mb
    let cons := if bits rec' 35 32 = 0 then [] else x.worksOf (bits rec' 35 32) (bits rec' 39 36) mb
    let first (p : WorkId × Nat) : Nat := (((j.program? x p.2 p.1).map fun q => (((j.writersOf q l).head?).map fun i => (q.at i).seq).getD (2 ^ 64))).getD 0
    let written (p : WorkId × Nat) (t : Nat) : Bool :=
      ((j.program? x p.2 p.1).map fun q => (List.range q.descs.length).any fun i =>
        decide (first p ≤ (q.at i).seq) && ((q.at i).kind == 0x09 && (q.at i).f 223 192 == t || (q.at i).kind == 0x08 && (q.at i).f 415 384 == t
          || (q.at i).kind == 0x07 && (q.at i).f 479 448 == t)).getD true
    let drop (h : HealthPart) : Bool := prods.any fun p => p.1 == h.work && written p h.tensor
    let held (h : HeldSignal) : Bool := prods.any fun p => p.1 == h.src && decide (first p < h.desc.seq)
    let keep (p : WorkId × Nat) : List (Nat × Regs × Nat) := (s.effectsOf x p).filter fun e => decide (e.1 < first p)
    let undone := (prods.map fun p => ((j.program? x p.2 p.1).map fun q => q.scatteredFrom (first p) (s.effectsOf x p)).getD []).flatten.eraseDups
    let s := s.logRecord slot 6 0 mb step x.accept (toLE 4 mb ++ toLE 4 l ++ toLE 4 rung)
    let s := (s.raiseJob 0x5221 slot step mb l rung).count slot step 0x5220 3 1
    let s := s.updJob slot fun j => { j with signals := j.signals.filter fun h => !(h.src.step == step && held h) }
    let s := s.updStep slot step fun x =>
      ({ x with parts := x.parts.filter fun h => !drop h } : StepRec).setCheck { layer := l, mb := mb, rung := rung, passed := false, nonfinite := false }
    let s := prods.foldl (fun s' p => s'.restart (s.runner x p.2 p.1) p.1 none (keep p)) s
    let s := cons.foldl (fun s' p => s'.restart (s.runner x p.2 p.1) p.1 none (s.effectsOf x p)) s
    undone.foldl (fun s g => s.discardLedger slot step g.1 g.2 (s.raises slot step g.1 g.2)) s
  | _, _ => s

/-- LAYER_CHECK (R206 to R208). -/
def execLayerCheck (slot step layer mb : Nat) (s : State) : Host.Outcome State Fault Refusal :=
  .next (match s.job? slot, s.step? slot step with
    | some j, some x =>
      match j.layer? layer with
      | none => s
      | some r =>
        let rung := x.rung j layer mb
        if decide (mb < x.seeds.length) && !x.layerPassed layer mb && s.layerWritten j x r mb then
          if j.layerTrips x r mb && decide (rung < (j.rungs layer).length) && x.num' 0x5220 1 != 0 then s.repeatLayer slot step r mb (rung + 1)
          else
            let bad := j.layerNonfinite x r mb
            let s := s.updStep slot step fun x => x.setCheck { layer := layer, mb := mb, rung := rung, passed := true, nonfinite := bad }
            let s := if bad then
                let s := s.raiseJob 0x5222 slot step mb layer rung
                let s := if x.nonfinite then s else s.count slot step 0x5220 4 1
                s.updStep slot step fun x => { x with nonfinite := true }
              else s
            s.afterWork slot step
        else s
    | _, _ => s)

/-! ### SCALE_UPDATE (R201, R202, R211) -/

/-- The watch of a recorded tensor as it stands, empty where none is held yet. -/
def Job.watchOf (j : Job) (t : Nat) : Watch := (j.watch? t).getD { tensor := t, exps := [], history := [], zeroRun := 0, limited := false }

def State.setWatch (s : State) (slot : Nat) (w : Watch) : State :=
  s.updBody slot fun b => { b with watches := b.watches.filter (fun v => v.tensor != w.tensor) ++ [w] }

/-- Amax of a tensor in a step (R202), and its counts (R203). -/
def StepRec.amax (x : StepRec) (t : Nat) : Val := largest ((x.parts.filter fun p => p.tensor == t).map (·.amax))
def StepRec.elements (x : StepRec) (t : Nat) : Nat := sum ((x.parts.filter fun p => p.tensor == t).map (·.elements))

/-- Layers of the units this position owns in a step. -/
def State.ownedLayers (s : State) (j : Job) (x : StepRec) : List Nat := (((j.units x).filter (s.ownsUnit j)).map j.unitLayer).eraseDups

/-- Whether the update of a step has been applied to everything this position owns (R17). -/
def State.allReleased (s : State) (j : Job) (x : StepRec) : Bool := (s.ownedLayers j x).all fun l => x.updates.any fun u => u.layer == l && u.released

/-- Whether every write of a step's tensors has taken effect: its work and contributions are done, its layers checked, its layers released. -/
def State.allWritten (s : State) (j : Job) (x : StepRec) : Bool :=
  s.contributed x && s.slicesDone j x && x.adds.isEmpty && s.allReleased j x
    && j.layers.all fun w => (List.range x.seeds.length).all fun m => x.layerPassed (lRecLayer w) m

/-- The exponents kept once one more is fixed: those that a step from the first open one on may ask for. -/
def keepExps (first : Nat) (l : List (Nat × Int)) (p : Nat × Int) : List (Nat × Int) :=
  let l := l.filter fun q => q.1 != p.1
  (l.filter fun q => decide (first < q.1) || !(l.any fun r => decide (q.1 < r.1) && decide (r.1 ≤ first))) ++ [p]

/-- SCALE_UPDATE (R202, R211). -/
def execScaleUpdate (slot step tensor : Nat) (s : State) : Host.Outcome State Fault Refusal :=
  .next (match s.job? slot, s.step? slot step with
    | some j, some x =>
      match j.tensor? tensor with
      | none => s
      | some r =>
        let earlier := j.steps.filter fun y => decide (y.num < step)
        if s.allWritten j x && !x.scaled.contains tensor && earlier.all (fun y => y.scaled.contains tensor) then
          let w := j.watchOf tensor
          let a := x.amax tensor
          let h := match j.step? (step + 1) with | some y => y.num' 0x5110 1 | none => j.num 0x5110 1
          let e := j.exp tensor step
          let wrote := x.parts.any fun p => p.tensor == tensor
          let seeds := w.history.isEmpty && wrote
          let hist := if seeds then List.replicate h a else if w.history.isEmpty then [] else w.history ++ [a]
          let hist := hist.drop (hist.length - h)
          let e1 := match (j.logged 7 step).find? fun r => leAt r.body 0 4 == tensor with
            | some r => signed 32 (leAt r.body 4 4)
            | none => if hist = [] then e else exponentOf hist h (ElemType.top (tRecType r)) e
          let s := s.updStep slot step fun x => { x with scaled := x.scaled ++ [tensor], seeded := if seeds then x.seeded ++ [tensor] else x.seeded }
          if hist = [] then s
          else
            let s := s.setWatch slot { w with history := hist, exps := keepExps (((j.steps.head?).map (·.num)).getD step) w.exps (step + 1, e1) }
            let s := if seeds then
                (s.logRecord slot 7 0 0 step x.accept (toLE 4 tensor ++ toLE 4 (unsigned 32 e1) ++ toLE 4 1)).raiseJob 0x5102 slot step tensor (unsigned 32 e1) 0
              else if e1 ≠ e then s.logRecord slot 7 0 0 step x.accept (toLE 4 tensor ++ toLE 4 (unsigned 32 e1) ++ toLE 4 0)
              else s
            s
        else s
    | _, _ => s)

/-! ### STUCK_ZERO_WATCH (R209, R210, R223) -/

/-- The stuck-zero rescale of a tensor after a step (R210). -/
def State.rescale (s : State) (slot step t : Nat) : State :=
  match s.job? slot, s.step? slot step with
  | some j, some x =>
    let w := j.watchOf t
    let e := j.exp t step
    let low := decide (e - 4 < -127)
    let e1 := if low then -127 else e - 4
    let f := ElemType.top (((j.tensor? t).map tRecType).getD .fp32)
    let w1 : Watch := { w with history := w.history.map (fun _ => Val.fin false f 1 e1), limited := low,
                               exps := w.exps.filter (fun p => p.1 != step + 1) ++ [(step + 1, e1)] }
    let s := (s.setWatch slot w1).updStep slot step fun x => { x with rescaled := x.rescaled ++ [t] }
    let s := s.logRecord slot 8 0 0 step x.accept (toLE 4 t ++ toLE 4 1 ++ toLE 4 (unsigned 32 e1))
    if low then s.raiseJob 0x5201 slot step t 1 1 else s
  | _, _ => s

/-- A freeze after a step (R210, R223): as a write at the acceptance of the next step, beneath writes accepted later. -/
def State.freeze (s : State) (slot step t g : Nat) : State :=
  match s.job? slot, s.step? slot step with
  | some j, some x =>
    let k := groupKey g
    let key := entryKey k.1 k.2
    let s := s.logRecord slot 8 0 0 step x.accept (toLE 4 t ++ toLE 4 2 ++ toLE 4 g)
    let s := s.updStep slot step fun x => { x with frozen := x.frozen ++ [t] }
    match j.step? (step + 1) with
    | none => s.updBody slot fun b => { b with freezes := insertOnce g b.freezes }
    | some n =>
      let later (limit : Nat) : Bool := j.body.rowWrites.any fun w => w.1 == key && decide (n.accept < w.2) && decide (w.2 < limit)
      let set (v : DVal) : DVal := let m := v.toNat; .blk (toLE 64 (if bit m 8 then m else m + 256))
      let bindStep (y : StepRec) : StepRec :=
        if n.num ≤ y.num ∧ later y.accept = false then { y with bind := aSet y.bind key (set (y.entry k.1 k.2)) } else y
      let s := s.updJob slot fun j => { j with steps := j.steps.map bindStep }
      if later (j.accepted + 1) then s
      else s.updJob slot fun j => j.setEntry k.1 k.2 (set (j.entry k.1 k.2))
  | _, _ => s

/-- The watch of one tensor. In a replayed step its action is the one recorded. -/
def State.watchOne (s : State) (slot step t : Nat) : State :=
  match s.job? slot, s.step? slot step with
  | some j, some x =>
    let r := (j.tensor? t).getD 0
    let w := j.watchOf t
    let ps := x.parts.filter fun p => p.tensor == t
    let n := sum (ps.map (·.elements))
    let z := sum (ps.map (·.zeros))
    let run := if n = 0 then w.zeroRun else if z = n then min 65535 (w.zeroRun + 1) else 0
    let w1 : Watch := { w with zeroRun := run, limited := w.limited && run != 0 }
    let s := (s.setWatch slot w1).updStep slot step fun x => { x with runs := aSet x.runs t run }
    let limit := x.num' 0x5210 1
    let policy := x.num' 0x5210 2
    let reached := run == limit && run != w.zeroRun
    if (if j.replays step then (j.logged 8 step).any fun q => leAt q.body 0 4 == t else tRecStuck r && decide (limit ≤ run)) then
      let s := if reached then s.raiseJob 0x5201 slot step t policy 0 else s
      if policy = 1 then (if w1.limited then s else s.rescale slot step t)
      else if reached then
        match (if policy = 2 then tRecGroup r else none) with
        | some g => s.freeze slot step t g
        | none => s.logRecord slot 8 0 0 step x.accept (toLE 4 t ++ toLE 4 0 ++ toLE 4 0)
      else s
    else s
  | _, _ => s

/-- STUCK_ZERO_WATCH (R209): once every recorded tensor of a step is accounted for. -/
def execStuckZeroWatch (slot step : Nat) (s : State) : Host.Outcome State Fault Refusal :=
  .next (match s.job? slot, s.step? slot step with
    | some j, some x =>
      if !x.watched && s.allWritten j x && (j.tensors.all fun w => x.scaled.contains (tRecTensor w))
          && (j.steps.filter fun y => decide (y.num < step)).all (·.watched) then
        (j.tensors.foldl (fun s w => s.watchOne slot step (tRecTensor w)) s).updStep slot step fun x => { x with watched := true }
      else s
    | _, _ => s)

/-! ### REFRESH (R127 to R131) -/

/-- Write every dirty shelf row back to its home, and clear the shelf but for rows that a slip still takes from it (R113, R130). -/
def State.shelfBack (s : State) (slot : Nat) (row : Nat → GroupRow) : State :=
  match s.job? slot with
  | none => s
  | some j =>
    let dirty := j.body.shelf.filter fun x => x.dirty && !x.leaving
    let stay := (j.body.shelf.filter fun x => s.shelfServes slot x.table x.row).map fun x => { x with leaving := true, dirty := false }
    dirty.foldl (fun s x => s.writeRow slot (row (((j.table? x.table).map (·.group)).getD 0)) none x.table x.edition x.row false fun _ => x.data)
      (s.updBody slot fun b => { b with shelf := stay })

/-- The class a page takes (R128). -/
def Table.classFor (t : Table) (m : Nat) : Nat :=
  max t.widest (min t.narrowest (if t.hot32 ≤ m then 0 else if t.hot16 ≤ m then 1 else if t.hot8 ≤ m then 2 else 3))

/-- Pages of a table that this module is home to and holds. -/
def State.homePages (s : State) (t : Table) : List Nat :=
  (List.range (ceilDiv t.rows 32)).filter fun p => (s.columns t (32 * p)).isSome && !t.annex.contains (t.owner t.edition p, p)

/-- Pages that a refresh after a step reassigns: those of the current edition, but for the pages a publish has replaced since the step was bound (R128, R137). -/
def State.widthPages (s : State) (t : Table) (x : StepRec) : List Nat :=
  (s.homePages t).filter fun p => t.owner t.edition p == t.owner ((x.edition? t.id).getD t.edition) p

/-- Reassign the width of one page: the state, and what is logged (R125, R128). A replayed step takes changes and holds from its record. -/
def State.widthOf (s : State) (slot step tid page : Nat) (g : GroupRow) : State × List Byte :=
  match s.job? slot with
  | none => (s, [])
  | some j =>
    match j.table? tid with
    | none => (s, [])
    | some t =>
      let own := t.owner t.edition page
      let cls := t.cls t.edition page
      let rows := s.readPage j t t.edition page
      let want := t.classFor (rows.foldl (fun m r => max m r.touch) 0)
      let logged := (((j.logged 9 step).map fun r => (chunks 16 r.body.length r.body).filter fun e => leAt e 0 4 == tid && leAt e 4 8 == page).flatten.head?).map
        fun e => leAt e 12 4
      let c := if j.replays step then (match logged with | some k => if k = cls then want else k | none => cls) else want
      let entry (k : Nat) : List Byte := toLE 4 tid ++ toLE 8 page ++ toLE 4 k
      if c = cls then (s, [])
      else if s.pageStored slot t t.edition page = false then
        ((s.updBody slot fun b => b.updTable tid fun t => { t with classes := aSet t.classes (own, page) c }).count slot step 0x6120 1 1, entry c)
      else
        let first := ((s.columns t (32 * page)).map (·.1)).getD 0
        let rows' := (List.range 32).map fun i =>
          let r := rows.getD i (RowData.zero cls 0 0)
          r.recode c (rowRnd j step tid (32 * page + i) first) (s.realColumns t (32 * page))
        let after := (rows'.foldl (fun s r => s.countRow j step t (s.realColumns t (32 * page)) r) s).writePage j t g own page c rows' none
        if c < cls ∧ (if j.replays step then logged = some cls else s.spaceBad after ≠ []) then
          ((s.raiseJob 0x6005 slot step tid (page % 2 ^ 32) (page / 2 ^ 32 % 8 * 2 ^ 29 + c)).count slot step 0x6120 2 1, entry cls)
        else (after.count slot step 0x6120 1 1, entry c)

/-- Halve every `TOUCH` of a table's pages, those of a live previous edition among them. -/
def State.halve (s : State) (slot tid : Nat) (g : GroupRow) : State :=
  match s.job? slot with
  | none => s
  | some j =>
    match j.table? tid with
    | none => s
    | some t =>
      let pages := (s.tiers.tiles.filter fun x => x.key.space == .table && x.key.slot == slot && x.key.id == tid && x.key.col == 0 && x.image != []).map
        fun x => (x.key.edition, x.key.row)
      pages.foldl (fun s p =>
        let cls := aGetD t.classes (p.1, p.2) t.init
        s.writePage j t g p.1 p.2 cls ((s.readPage j { t with replaced := [(p.1, p.2)] } p.1 p.2).map fun r => { r with touch := r.touch / 2 }) none) s

/-- Load the shelf set in list order (R129). -/
def State.loadShelf (s : State) (slot step : Nat) (set : List (Nat × Nat)) : State :=
  set.foldl (fun s e =>
    match s.job? slot with
    | none => s
    | some j =>
      let refuse := s.count slot step 0x6100 3 1
      match j.table? e.1 with
      | none => refuse
      | some t =>
        let own := t.owner t.edition (e.2 / 32)
        if t.rows ≤ e.2 ∨ (s.columns t e.2).isNone ∨ t.annex.contains (own, e.2 / 32) ∨ (j.body.shelved? e.1 own e.2).isSome then refuse
        else
          match (s.rowAt j t t.edition e.2).2 with
          | none => refuse
          | some d =>
            if j.shelfHeld + shelfBytes d ≤ j.shelfCap * mib then
              s.updBody slot fun b => { b with shelf := b.shelf ++ [{ table := e.1, edition := own, row := e.2, data := d, dirty := false }] }
            else refuse) s

/-- Insert into a list in descending `TOUCH`, ties to the earlier. -/
def insertTouch (x : Nat × Nat × Nat) : List (Nat × Nat × Nat) → List (Nat × Nat × Nat)
  | [] => [x]
  | y :: l => if y.1 < x.1 then x :: y :: l else y :: insertTouch x l

/-- The shelf suggestions (R131). -/
def State.suggest (s : State) (slot : Nat) : State :=
  match s.job? slot with
  | none => s
  | some j =>
    let tables := j.body.tables.foldl (fun (l : List Table) t => (l.filter fun u => decide (u.id < t.id)) ++ [t] ++ l.filter fun u => decide (t.id < u.id)) []
    let rows := (tables.map fun t => ((s.homePages t).map fun p => ((List.range 32).zip (s.readPage j t t.edition p)).map fun r => (r.2.touch, t.id, 32 * p + r.1)).flatten.filter
      fun r => decide (r.2.2 < t.rows)).flatten
    let best := (rows.foldl (fun l r => insertTouch r l) []).take (j.num 0x6110 2)
    s.updBody slot fun b => { b with suggestions := best.map fun r => (r.2.1, r.2.2) }

/-- REFRESH (R127): after the update of a step due for it, in the order the rule gives. -/
def execRefresh (slot step : Nat) (s : State) : Host.Outcome State Fault Refusal :=
  .next (match s.job? slot, s.step? slot step with
    | some j, some x =>
      if x.refreshDue && !x.refreshed && s.allReleased j x && x.updates.length == (s.ownedLayers j x).length && s.contributionsIn j x
          && (j.steps.filter fun y => decide (y.num < step)).all (fun y => !y.refreshDue || y.refreshed) then
        let kept := (j.body.shelf.filter fun r => !r.leaving).map fun r => (r.table, r.row)
        let s := s.shelfBack slot x.group
        let (s, log) := (j.tablesOf x).foldl (fun (acc : State × List Byte) t =>
          (acc.1.widthPages t x).foldl (fun acc p => let r := acc.1.widthOf slot step t.id p (x.group t.group); (r.1, acc.2 ++ r.2)) acc) (s, [])
        let s := if log = [] then s else s.logRecord slot 9 0 0 step x.accept log
        let s := (j.tablesOf x).foldl (fun s t => s.halve slot t.id (x.group t.group)) s
        let s := s.suggest slot
        let set := if j.body.shelfSet = [] then kept else j.body.shelfSet
        let s := (s.updJob slot fun j => { j with shelfCap := j.num 0x6100 1, body := { j.body with shelfSet := [] } }).loadShelf slot step set
        s.updStep slot step fun x => { x with refreshed := true }
      else s
    | _, _ => s)

/-! ### STEP_COMPLETE (R17, R32, R205, R232, R284, R285, R428) -/

/-- The health record of a tensor for a step (R203 to R205, Table 10-5). -/
def Job.healthRecord (j : Job) (x : StepRec) (t : Nat) : List Byte :=
  let ps := x.parts.filter fun p => p.tensor == t
  let layer := (j.tensor? t).bind tRecLayer
  let pruned := ps.foldl (fun (a : Int) p => a + p.pruned) 0
  let mass := round32 (.scaledInt (max (-(2 ^ 127)) (min (2 ^ 127 - 1) pruned)) (j.exp t x.num - 96))
  let raises := (x.ledgers.filter fun l => j.gradTensor l.space l.id == some t && decide (l.space < 3)).foldl (fun m l => max m l.k) 0
  let repeats := (x.checks.filter fun c => some c.layer == layer && decide (0 < c.rung)).length
  let marked := x.checks.any fun c => some c.layer == layer && c.nonfinite && (ps.any fun p => p.work.mb == c.mb && !p.work.endPass && decide (0 < p.nonfinite))
  let flags := (if marked then 1 else 0) + (if ps.any (·.prunedBad) then 2 else 0) + (if x.frozen.contains t then 4 else 0) + (if x.rescaled.contains t then 8 else 0)
    + (if x.seeded.contains t then 16 else 0)
  toLE 64 (flags + min 65535 repeats * 2 ^ 48 + min 255 raises * 2 ^ 64 + (j.exp t x.num + 127).toNat * 2 ^ 72 + aGetD x.runs t (j.watchOf t).zeroRun * 2 ^ 80 + mass * 2 ^ 96
    + round32 (x.amax t) * 2 ^ 128 + t * 2 ^ 160 + x.num % 2 ^ 64 * 2 ^ 192 + sum (ps.map (·.nonfinite)) % 2 ^ 64 * 2 ^ 256
    + sum (ps.map (·.saturated)) % 2 ^ 64 * 2 ^ 320 + sum (ps.map (·.zeros)) % 2 ^ 64 * 2 ^ 384 + sum (ps.map (·.elements)) % 2 ^ 64 * 2 ^ 448)

/-- Insert a tile in ascending row and column. -/
def insertTile (x : StoredTile) : List StoredTile → List StoredTile
  | [] => [x]
  | y :: l => if x.key.row < y.key.row ∨ (x.key.row = y.key.row ∧ x.key.col < y.key.col) then x :: y :: l else y :: insertTile x l

/-- Result tiles of a tensor in a step (R285). -/
def State.resultTiles (s : State) (j : Job) (step t : Nat) : List StoredTile :=
  (s.tiers.tiles.filter fun u => u.key.space == .tensor && u.key.slot == j.slot && u.key.id == t && u.key.scope == .step && u.key.step == step
    && u.image ≠ []).foldl (fun l u => insertTile u l) []

/-- The summary of Table 14-11. -/
def StepRec.summary (x : StepRec) (len status tensors : Nat) : List Byte :=
  toLE 64 (x.num % 2 ^ 64 + len * 2 ^ 64 + x.pieces.length * 2 ^ 96 + x.seeds.length % 2 ^ 16 * 2 ^ 128 + status * 2 ^ 144 + (if x.nonfinite then 2 ^ 152 else 0)
    + (if x.outOfTable then 2 ^ 153 else 0) + tensors * 2 ^ 160)

/-- The result image of a step (R285). -/
def State.resultImage (s : State) (j : Job) (x : StepRec) (status : Nat) : List Byte :=
  let parts := j.resultTensors.map fun t => (t, s.resultTiles j x.num t)
  let base := 64 + 16 * parts.length
  let (dir, body) := parts.foldl (fun (acc : List Byte × List Byte) p =>
    let b := (p.2.map (·.image)).flatten
    (acc.1 ++ toLE 16 (p.1 + p.2.length * 2 ^ 32 + (base + acc.2.length) * 2 ^ 64 + b.length * 2 ^ 96), acc.2 ++ b)) ([], [])
  x.summary (base + body.length) status parts.length ++ dir ++ body

/-- The record of a row as a `RETURN` carries it (R139, R230, R284). -/
def rowRecord (mbits row : Nat) (d : RowData) : List Byte :=
  toLE 8 row ++ toLE 32 d.meta ++ packElems (classType d.cls).bits d.elems ++ packElems mbits d.m ++ packElems mbits d.v

/-- Return the annex rows that the update of a step changed (R100, R284), in fragments of at most 16,288 bytes. -/
def State.returnRows (s : State) (slot : Nat) : State :=
  match s.job? slot with
  | none => s
  | some j =>
    let groups := ((j.body.held.filter (·.changed)).map fun h => (h.table, h.bound)).eraseDups
    groups.foldl (fun s g =>
      match s.job? slot with
      | none => s
      | some j =>
        let id := j.body.nextCall
        let is (h : HeldRow) : Bool := h.changed && h.table == g.1 && h.bound == g.2
        let rows := (j.body.held.filter is).foldl (fun (l : List HeldRow) h => (l.filter fun x => decide (x.row < h.row)) ++ [h] ++ l.filter fun x => decide (h.row < x.row)) []
        let image := (rows.map fun h => rowRecord (if h.data.mbf then 16 else 32) h.row h.data).flatten
        let n := max 1 (ceilDiv image.length 16288)
        let frag (i : Nat) : Fragment :=
          let b := slice image (16288 * i) (min 16288 (image.length - 16288 * i))
          let head := toLE 32 (id + g.1 * 2 ^ 32 + 2 ^ 48 + (if i + 1 = n then 2 ^ 49 else 0) + g.2 * 2 ^ 64 + rows.length * 2 ^ 96 + b.length * 2 ^ 128
            + 16288 * i * 2 ^ 160 + image.length * 2 ^ 192)
          { session := (j.holder).getD 0, last := none,
            rsp := { typ := .rowCall, status := .ok, queue := j.eventQueue, session := 0, seq := 0, tag := 0, step := 0, retry := 0, payload := head ++ b, cmd := none } }
        let s := s.updBody slot fun b =>
          { b with nextCall := (b.nextCall + 1) % 2 ^ 32, held := b.held.map fun h => if is h then { h with changed := false, returns := h.returns ++ [id] } else h }
        s.holdFragments slot ((List.range n).map frag)) s

/-- Add what a step counted to the entries of its job (R428); vector status is the union of its flags. -/
def State.settleCounters (s : State) (slot step : Nat) : State :=
  let tallies := ((s.step? slot step).map fun x => x.tallies.map fun t => (t.1.2.2, t.2)).getD []
  s.updBody slot fun b =>
    let mine := (b.counters.filter fun c => c.1.1 == step).map (fun c => (c.1.2, c.2)) ++ tallies
    let dict := mine.foldl (fun d c => aUpd d c.1 (.num 0) fun v =>
      .num (if c.1 = entryKey 0x4040 1 then v.toNat ||| min c.2 1 else (v.toNat + c.2) % 2 ^ 64)) b.dict
    { b with dict := dict, counters := b.counters.filter fun c => c.1.1 != step }

/-- *frozen skips by group* with one added to a group's count. -/
def bumpGroup (g : Nat) (v : DVal) : DVal :=
  let l := v.toBytes ++ zeros (8192 - v.toBytes.length)
  .blk (l.take (8 * g) ++ toLE 8 ((leAt l (8 * g) 8 + 1) % 2 ^ 64) ++ l.drop (8 * g + 8))

/-- Count the units a step did not update for a freeze or for want of a descriptor (R232). -/
def State.countSkips (s : State) (slot step : Nat) : State :=
  match s.job? slot, s.step? slot step with
  | some j, some x =>
    let us := (j.units x).filter (j.still x)
    let s := s.count slot step 0x5400 2 us.length
    us.foldl (fun s u =>
      let g := j.unitGroup u
      s.updBody slot fun b => { b with dict := aUpd b.dict (entryKey 0x5400 3) (.blk []) (bumpGroup g) }) s
  | _, _ => s

/-- Whether everything of a step is done on this module (R17). -/
def State.stepDone (s : State) (j : Job) (x : StepRec) : Bool :=
  (j.steps.head?.map (·.num)) == some x.num && !j.fenced && s.contributionsIn j x && s.allWritten j x && x.updates.length == (s.ownedLayers j x).length
    && x.watched && (!x.refreshDue || x.refreshed) && ((j.gradSpaces x).all fun g => ((x.ledger? g.1 g.2).map (·.inRange)).getD false
        || (match j.unitOfGrad x g.1 g.2 with | some u => j.still x u | none => true))
    && (x.roleGroups.filter fun g => g.1 == 5).all (fun g => x.passesDone (s.holders x g.1 g.2.1) g.1 g.2.1)
    && (s.tileUnits.all fun u => u.works.all fun w => !(w.id.slot == j.slot && w.id.step == x.num))
    && j.signals.all fun h => h.toStep != x.num

/-- *pipeline step record* of a step (R249, Table 12-4): its times are free values, `BUBBLE` is `TILES` × `SPAN` − `BUSY`. -/
def StepRec.pipelineRecord (x : StepRec) (free : Nat) : List Byte :=
  let tiles := ((x.dispatched.filter fun p => p.1.role == 3 || p.1.role == 4 || p.1.role == 6).map (·.2)).eraseDups.length
  let span := Config.openBits 43 free % 2 ^ 32
  let busy := Config.openBits 44 free % (tiles * span + 1)
  let slots := x.pieces.length
  toLE 64 (slots % 2 ^ 32 * 2 ^ 96 + (slots - x.seeds.length) % 2 ^ 32 * 2 ^ 64 + Config.openBits 45 free % 2 ^ 64 * 2 ^ 128
    + Config.openBits 46 free % 2 ^ 64 * 2 ^ 192 + (tiles * span - busy) % 2 ^ 64 * 2 ^ 256 + busy % 2 ^ 64 * 2 ^ 320 + tiles % 2 ^ 32 * 2 ^ 384
    + span * 2 ^ 416 + x.num % 2 ^ 64 * 2 ^ 448)

/-- Put the record of a step in its entry (R249). -/
def State.recordPipeline (s : State) (slot : Nat) (x : StepRec) : State :=
  let (free, s) := draw s
  s.updJob slot fun j => j.setEntry 0x4200 1 (.blk (x.pipelineRecord free))

/-- The next command of a replayed log, where none is waiting to be run. -/
def State.nextReplay (s : State) (slot : Nat) : State :=
  if s.port.inFlight.any fun f => f.replayed && f.stage == .arrived && f.job == some slot then s else s.releaseReplay slot

/-- Everything that follows the completion of a step: counters, records, the result, and what it held freed. -/
def State.completeStep (s : State) (slot step : Nat) : State :=
  match s.job? slot, s.step? slot step with
  | some j, some x =>
    let st := if x.outOfTable then .indexRange else .ok
    let s := (s.countSkips slot step).settleCounters slot step
    let health := j.tensors.map fun w => (tRecTensor w, j.healthRecord x (tRecTensor w))
    let image := s.resultImage j x st.code
    let s := s.recordPipeline slot x
    let s := s.updBody slot fun b => { b with health := health, lastDone := some step, results := b.results ++ [{ step := step, image := image, delivered := [] }] }
    let s := s.finishAsker x.asker st []
    let s := s.freeStepTiles slot step
    let owed := (j.body.params.map fun p => pRecTensor p.rec').filter fun t => !x.copies.contains t && ((j.param? t).map fun p => !s.owns p).getD false
    let s := (s.updJob slot fun j => { j with steps := j.steps.filter (fun y => y.num != step), owed := j.owed ++ owed.map fun t => (t, step) }).clearPhase slot (step % 4)
    let s := ((s.freeHeld slot).runDeferreds slot).retireEditions slot
    let s := (s.updJob slot fun j => { j with decisions := j.decisions.filter fun r => r.step != step }).nextReplay slot
    let s : State := { s with tiers := { s.tiers with readOrder := s.tiers.readOrder.filter fun r => !(r.1.1 == slot && r.1.2 / 16 == (step + 4) % 8) } }
    (s.serveWaiting.tryClose slot).wakeAll
  | _, _ => s

/-- A step that cannot complete ends `EXHAUSTED` (R35, R376): its result image is the summary alone, and none of its values is applied. -/
def State.exhaustStep (s : State) (slot step : Nat) : State :=
  match s.step? slot step with
  | none => s
  | some x =>
    let image := x.summary 64 Status.exhausted.code 0
    let s := s.updBody slot fun b => { b with results := b.results ++ [{ step := step, image := image, delivered := [] }], counters := b.counters.filter fun c => c.1.1 != step }
    let s := (s.finishAsker x.asker .exhausted []).freeStepTiles slot step
    ((s.updJob slot fun j => { j with steps := j.steps.filter fun y => y.num != step }).clearPhase slot (step % 4)).tryClose slot

/-- Complete a step of which everything is done: the annex rows its update changed are returned (R100) and its end is logged; the step completes once that
record has committed. -/
def State.finishStep (s : State) (slot step : Nat) : State :=
  match s.job? slot, s.step? slot step with
  | some j, some x =>
    if s.stepDone j x then
      if !x.recorded then ((s.returnRows slot).logRecord slot 0x0B 0 0 step x.accept []).updStep slot step fun x => { x with recorded := true }
      else if j.log.all fun r => r.committed || r.kind != 0x0B || r.step != step then s.completeStep slot step
      else s
    else s
  | _, _ => s

/-- STEP_COMPLETE (R15, R17, R32): in step order. This position's contributions to the step are closed first, where that has not happened yet. -/
def execStepComplete (slot step : Nat) (s : State) : Host.Outcome State Fault Refusal := .next ((s.closeContributions slot step).finishStep slot step)

end Sys2Proof.Machine
end

