-- ==== Sys2Proof/Machine/TileRows.lean ====
section
/-!
DEFINITION. Tiles that fail: retirement to a spare, loss, self-checks; poison that is consumed; and tiles moved between branches (R62 to R65, R245, R347, R348, R354).
-/
namespace Sys2Proof.Machine
open Sys2Proof

/-- `LANDING` descriptors to a tile end as by `ABORT` when the tile is quarantined, in any state of their channel (R306). -/
def State.endLandings (s : State) (tile : Nat) : State := s.endDma (fun _ => true) fun d => d.func == 2 && d.tile == tile

/-! ### Loss (R65) -/

/-- A reduced mean of the last eight durations, in seconds (R367). -/
def Job.depositCost (j : Job) : Nat × Nat := if j.costs.isEmpty then (60, 1) else (sum j.costs, j.costs.length)

/-- The exact interval of R367, whole seconds: its square is 144,000 c (50,000 + hours) / (rate + 20 failures). -/
def State.adaptive (s : State) (j : Job) : Nat :=
  let lo := s.num 0x7120 5
  let hi := s.num 0x7120 6
  let (cn, cd) := j.depositCost
  let h := 50000 + s.num 0x7120 8
  let rate : Val := (decodeFloat .fp32 (s.num 0x7120 2)).add (.ofInt ((20 * s.num 0x7120 9 : Nat) : Int))
  match rate with
  | .fin _ a d e =>
    let num := 144000 * cn * h * d * 2 ^ (-e).toNat
    let den := cd * a * 2 ^ e.toNat
    max lo (if den = 0 then hi else min hi (isqrt (num / den)))
  | _ => hi

/-- Set every job's interval (R367). -/
def State.setIntervals (s : State) : State :=
  let t (j : Job) : Nat := match s.num 0x7120 1 with | 0 => s.adaptive j | 1 => s.num 0x7120 5 | _ => j.interval
  let l := s.jobs.map fun j => { j with interval := t j }
  match l.head? with
  | some j => ({ s with jobs := l }).setNum 0x7120 7 j.interval
  | none => s

/-- An own failure is recorded, and the intervals are set anew (R367). -/
def State.ownFailure (s : State) : State := (s.add 0x7120 9 1).setIntervals

/-- The module announces its own failure: it holds dispatch and no longer answers probes, and counts the failure (R65, R367, R445, R448). -/
def State.announceFailure (s : State) : State :=
  if s.bring.announcedFailure then s else ({ s with bring := { s.bring with announcedFailure := true } } : State).ownFailure

/-- Role, group and program of a program slot under a role map word. -/
def halfHolds (w half : Nat) : Nat × Nat × Nat := if half = 0 then (roleA w, groupA w, progA w) else (roleB w, groupB w, progB w)

/-- Another working tile that holds, in a program slot, the role, group and program that a program slot of a tile has under a role map: the tile and its slot (R65). -/
def State.heirOf (s : State) (roles : List (Nat × Nat)) (tile half : Nat) : Option (Nat × Nat) :=
  let want := halfHolds (aGetD roles tile 0) half
  ((roles.filter fun p => p.1 != tile && !(s.unit p.1).lost).map fun p =>
    (if halfHolds p.2 half = want then [(p.1, half)] else []) ++ (if halfHolds p.2 (1 - half) = want then [(p.1, 1 - half)] else [])).flatten.head?

/-- Program slots of a role map word that hold a role. -/
def heldHalves (w : Nat) : List Nat := [0, 1].filter fun h => (halfHolds w h).1 != 0

/-- Take over the signal-board counts of a lost tile's program slot: what was signalled to it alone reaches the slot that runs its work; counts that every tile of
the role received are held once. -/
def mergeBoard (a b : List ((Nat × Nat × Nat × Nat) × Nat)) (half heir : Nat) : List ((Nat × Nat × Nat × Nat) × Nat) :=
  (b.filter fun p => p.1.1 == half).foldl (fun l p => let k := (heir, p.1.2); aSet l k (max (aGetD l k 0) p.2)) a

/-- Work items whose effects are not trusted after a failed self-check are treated as though they had consumed poison: their ledgers are discarded, and they run
again with every write made anew, but no signal is sent twice; what an update pass wrote is persistent, and the position is restored in place (R64, R347). -/
def State.distrust (s : State) (tile : Nat) (ids : List WorkId) : State :=
  ids.eraseDups.foldl (fun s id =>
    match s.job? id.slot, s.step? id.slot id.step with
    | some j, some x =>
      match x.dispatched.find? fun p => p.1 == id && (p.2 == tile || !id.endPass) with
      | none => s
      | some p =>
        let prog := (j.program? x p.2 id).getD { role := 0, carrel := 0, slips := 0, descs := [] }
        let es := s.effectsOf x p
        let s := (s.add 0x7000 4 1).raiseJob 0x7002 id.slot id.step 0 0 p.2
        if id.role = 5 ∧ es ≠ [] then s.updJob id.slot fun j => { j with fenced := true }
        else
        let s := s.updStep id.slot id.step fun x => { x with parts := x.parts.filter fun h => h.work != id }
        let s := (s.restart (s.runner x p.2 id) id none (es.filter fun e => e.2.2 == 0 && (prog.bySeq e.1).kind == 0x0C)).add 0x7000 5 1
        (prog.scatteredFrom 0 es).eraseDups.foldl (fun s g => s.discardLedger id.slot id.step g.1 g.2 (s.raises id.slot id.step g.1 g.2)) s
    | _, _ => s) s

/-- A tile is lost with no spare on its die: its work goes to a tile of the same role, group and program, or the module announces its failure (R65). -/
def State.loseTile (s : State) (tile reason : Nat) : State :=
  let u := s.unit tile
  let slot := roleSlot (s.roleWord tile)
  let halves := heldHalves (s.roleWord tile)
  let s := s.raise 0x4002 .tile tile reason u.phys 0
  let s := s.updUnit tile fun u =>
    { u with lost := true, retiring := none, works := [], queue := [], queueBy := none, board := [], slips := [], late := [], unchecked := [] }
  let s := s.endLandings tile
  if halves = [] then s
  else if halves.any fun h => (s.heirOf (s.jobRoles slot) tile h).isNone then s.announceFailure
  else
    let s := halves.foldl (fun s h => match s.heirOf (s.jobRoles slot) tile h with
      | some (t, k) => s.updUnit t fun v => { v with board := mergeBoard v.board u.board h k }
      | none => s) s
    -- each step's work goes to a tile that holds its role, group and program under the step's role map
    let heirIn (x : StepRec) (half : Nat) : Nat := ((s.heirOf x.roles tile half).map (·.1)).getD tile
    let heirFor (x : StepRec) (role group : Nat) : Nat := (((halvesFor (x.roleWord tile) role group).head?).map fun h => heirIn x h.1).getD tile
    let steps := s.jobs.map fun j => (j.slot, j.steps)
    let s : State := { s with jobs := s.jobs.map fun j => { j with steps := j.steps.map fun x =>
      { x with bound := (x.bound.map fun b => if b.2 = tile then (b.1, heirFor x b.1.2.1 b.1.2.2) else b).eraseDups
               dispatched := (x.dispatched.filter fun p => !(p.2 == tile && p.1.endPass)).map fun p => if p.2 = tile then (p.1, heirIn x (halfOf (x.roleWord tile) p.1)) else p
               again := x.again.map fun a => if a.tile = tile then { a with tile := heirIn x (halfOf (x.roleWord tile) a.id) } else a } } }
    let s := u.works.foldl (fun s w =>
      match s.step? w.id.slot w.id.step with
      | none => s
      | some x =>
        let h := heirIn x w.half
        if w.id.endPass then
          -- the pass of the tile that takes the parts runs again, without what it delivered
          if x.dispatched.any fun p => p.2 == h && p.1 == w.id then s.restart h w.id none (s.effectsOf x (w.id, h)) else s
        else s.restart h w.id w.only w.delivered) s
    -- parts of an update that were the lost tile's fall to a working tile (R234): passes that have completed run again for them
    let s := steps.foldl (fun s js => js.2.foldl (fun s y =>
      match s.step? js.1 y.num with
      | none => s
      | some x =>
        if (heldHalves (x.roleWord tile)).all fun h => (halfHolds (x.roleWord tile) h).1 != 5 then s
        else (x.dispatched.filter fun p => p.1.endPass && p.1.role == 5 && ((s.unit p.2).work? p.1).isNone).foldl
          (fun s p => s.restart p.2 p.1 none (aGetD x.effects p.1 [])) s) s) s
    if reason = 1 then s.distrust tile (u.unchecked ++ u.works.map (·.id)) else s

/-! ### Retirement (R62, R63, R64) -/

/-- Quarantine a tile (R62): its slips in flight are fenced; with no spare on its die it is lost. -/
def State.retire (s : State) (tile reason : Nat) : State :=
  let u := s.unit tile
  if u.lost || u.retiring.isSome then s
  else match (s.spares.getD (tile / 64) []) with
    | [] => s.loseTile tile reason
    | sp :: _ =>
      (s.updUnit tile fun u =>
        { u with retiring := some (reason, sp),
                 slips := u.slips.map fun p => if p.2.state = .issued ∨ p.2.state = .partly then (p.1, { p.2 with state := .fenced }) else p }).endLandings tile

/-- TILE_RETIRE (R62): reason 0 with the corrected errors of the hour, 1 a failed self-check, 2 the sequencer's state. DEDUCED: a count crosses the threshold when
it rises above it. -/
def execTileRetire (tile reason errors : Nat) (s : State) : Host.Outcome State Fault Refusal :=
  .next (if decide (tile < 256) && decide (reason ≤ 2) && (reason != 0 || decide (s.num 0x4100 1 < errors)) then s.retire tile reason else s)

/-- SPARE_START (R62, R63): the spare stands in for the tile, and abandoned work items run again from their start. -/
def execSpareStart (tile : Nat) (s : State) : Host.Outcome State Fault Refusal :=
  .next (
    let u := s.unit tile
    match u.retiring with
    | none => s
    | some (reason, sp) =>
      let s : State := { s with spares := s.spares.set (tile / 64) ((s.spares.getD (tile / 64) []).filter (· != sp)) }
      let s := s.updUnit tile fun v => { v with phys := sp, retiring := none, queue := [], queueBy := none, late := [] }
      let s := u.works.foldl (fun s w => s.restart tile w.id w.only w.delivered) s
      let s := if reason = 1 then (s.distrust tile (u.unchecked ++ u.works.map (·.id))).updUnit tile fun v => { v with unchecked := [] } else s
      s.raise 0x4001 .tile tile reason u.phys sp)

/-- SELF_CHECK (R354): between two work items, with its outcome. -/
def execSelfCheck (tile : Nat) (ok : Bool) (s : State) : Host.Outcome State Fault Refusal :=
  .next (
    let u := s.unit tile
    if decide (tile < 256) && !u.lost && u.retiring.isNone && u.flying.isEmpty then
      if ok then s.updUnit tile fun u => { u with unchecked := [] }
      else (s.add 0x7020 2 1).retire tile 1
    else s)

/-! ### Poison (R347, R348) -/

/-- A work item runs again for poison at a location; the fifth time the location is treated as failed (R348). -/
def State.poisonRerun (s : State) (tile : Nat) (w : WorkId) (loc : Nat) (carrel : Bool) : State :=
  match s.step? w.slot w.step with
  | none => s
  | some x =>
    let n := aGetD x.poisonRuns (w, loc) 0
    let s := s.updStep w.slot w.step fun x => { x with poisonRuns := aSet x.poisonRuns (w, loc) (n + 1) }
    let again (s : State) : State := (s.restart tile w (((s.unit tile).work? w).bind (·.only)) (s.effectsOf x (w, tile))).add 0x7000 5 1
    if n < 4 then again s
    else if carrel then s.retire tile 0
    else if n = 4 then again s
    else s

/-- Work items of a step that wrote a stored tensor tile, with their tiles. -/
def Job.producersOf (j : Job) (x : StepRec) (k : TileKey) : List (WorkId × Nat) :=
  x.dispatched.filter fun p => (k.scope != .workItem || (p.1.mb == k.mb && p.1.piece == k.piece)) && ((j.program? x p.2 p.1).map fun q => q.writes k.id).getD false

/-- The stored tile that holds a device granule, where that granule is poisoned. -/
def State.poisonedAt (s : State) (loc : Nat) : Option StoredTile :=
  s.tiers.tiles.find? fun t => t.tier != .absent && decide (t.devGranule ≤ loc) && t.poison.contains (loc - t.devGranule)

/-- POISON_CONSUMED (R347, Table 18-2): `row` is the table's row, 0 to 3; `loc` a carrel granule of the tile where `carrel` holds, otherwise a device granule;
`space` and `id` name the ledger of row 1. -/
def execPoisonConsumed (row tile : Nat) (w : WorkId) (carrel : Bool) (space id loc : Nat) (s : State) : Host.Outcome State Fault Refusal :=
  .next (
    let known := if carrel then s.carrelPoison.contains (tile * 2 ^ 17 + loc) else row == 1 || row == 3 || (s.poisonedAt loc).isSome
    if known = false ∨ (s.job? w.slot).isNone then s
    else
      let arg := if carrel ∨ row = 3 then tile else loc % 2 ^ 32
      let s := (s.add 0x7000 4 1).raiseJob 0x7002 w.slot w.step row id arg
      match row with
      | 0 =>
        match s.job? w.slot, s.step? w.slot w.step with
        | some j, some x =>
          let s := match (if carrel then none else s.poisonedAt loc) with
            | some t => (j.producersOf x t.key).foldl (fun (s : State) (p : WorkId × Nat) =>
                -- the producer runs again, and writes that tile anew
                let keep := (s.effectsOf x p).filter fun (e : Nat × Regs × Nat) => ((j.program? x p.2 p.1).map fun (q : Program) => !((q.bySeq e.1).kind == 0x09 && (q.bySeq e.1).f 223 192 == t.key.id)).getD true
                let s := s.updStep w.slot w.step fun x => { x with parts := x.parts.filter fun h => !(h.work == p.1 && h.tensor == t.key.id) }
                (s.restart (s.runner x p.2 p.1) p.1 none keep).add 0x7000 5 1) s
            | none => s
          s.poisonRerun tile w loc carrel
        | _, _ => s
      | 1 =>
        let k := (((s.step? w.slot w.step).bind fun x => x.ledger? space id).map (·.k)).getD 0
        s.discardLedger w.slot w.step space id k
      | 2 => s.updJob w.slot fun j => { j with fenced := true }
      | _ => s.retire tile 2)

/-! ### Branches (R245) -/

/-- Tiles of a branch on this rank, lost tiles apart. -/
def State.branchTiles (s : State) (slot b : Nat) : List Nat :=
  (List.range 256).filter fun t => !(s.unit t).lost && roleA (s.roleWord t) == 6 && roleSlot (s.roleWord t) == slot && groupA (s.roleWord t) == b

/-- A branch under rebalance: its number, fewest tiles, tiles now, work, target, and remainder over the sum of work. -/
structure BranchAt where
  b : Nat
  least : Nat
  now : Nat
  work : Nat
  tgt : Nat
  rem : Nat
  deriving DecidableEq, Repr

/-- Lower targets until they fit (R245). -/
def takeBack (n : Nat) : Nat → List BranchAt → List BranchAt
  | 0, l => l
  | fuel + 1, l =>
    if sum (l.map (·.tgt)) ≤ n then l
    else
      let best := (l.filter fun x => decide (x.least < x.tgt)).foldl (fun (m : Option BranchAt) x => match m with
        | none => some x
        | some y => if x.rem < y.rem ∨ (x.rem = y.rem ∧ y.b < x.b) then some x else some y) none
      match best with
      | none => l
      | some y => takeBack n fuel (l.map fun x => if x.b = y.b then { x with tgt := x.tgt - 1 } else x)

/-- Hand out what is left, largest remainder first, each branch once (R245). -/
def handOut : Nat → List Nat → List BranchAt → List BranchAt
  | 0, _, l => l
  | k + 1, given, l =>
    let best := (l.filter fun x => !given.contains x.b).foldl (fun (m : Option BranchAt) x => match m with
      | none => some x
      | some y => if y.rem < x.rem ∨ (x.rem = y.rem ∧ x.b < y.b) then some x else some y) none
    match best with
    | none => l
    | some y => handOut k (y.b :: given) (l.map fun x => if x.b = y.b then { x with tgt := x.tgt + 1 } else x)

/-- Largest work per tile. -/
def mostLoad (l : List BranchAt) (f : BranchAt → Nat) : Val :=
  l.foldl (fun a x => a.max ((Val.ofInt (x.work : Int)).div (.ofInt (max 1 (f x) : Nat)))) (.zero false)

/-- The branch furthest by a measure, ties to the lower branch; none where no measure is above 0. -/
def furthest (l : List BranchAt) (f : BranchAt → Nat) : Option BranchAt :=
  l.foldl (fun (m : Option BranchAt) x =>
    if f x = 0 then m else match m with | none => some x | some y => if f y < f x ∨ (f y = f x ∧ x.b < y.b) then some x else some y) none

/-- Move one tile from the branch furthest above its target to the one furthest below (R245); it binds the accepted steps that have begun none of the stage's work.
DESIGN CHOICE: of branches equally far above, the lower; the rule breaks ties only for those below. -/
def State.moveBranch (s : State) (slot vstage : Nat) (j : Job) (l : List BranchAt) : State × List BranchAt × Bool :=
  let above := furthest l fun x => x.now - x.tgt
  let below := furthest l fun x => x.tgt - x.now
  match above, below with
  | some a, some b =>
    match (s.branchTiles slot a.b).getLast?, branchRec? j b.b with
    | some t, some r =>
      let old := s.roleWord t
      let w := bits old 7 0 + bits r 19 16 * 2 ^ 8 + bits r 23 20 * 2 ^ 12 + b.b * 2 ^ 16 + b.b * 2 ^ 20 + old / 2 ^ 24 * 2 ^ 24
      let s := s.setRole t w
      let epoch := (s.unit t).epoch
      let bindStep (x : StepRec) : StepRec :=
        if j.stageBegun x vstage || x.roleWord t == 0 then x
        else
          { x with roles := x.roles.map fun p => if p.1 = t then (t, w) else p
                   epochs := aSet x.epochs t epoch
                   moved := if x.moved.any fun m => m.tile == t then x.moved else x.moved ++ [{ tile := t, word := x.roleWord t, epoch := x.epoch t }] }
      (s.updJob slot fun j => { j with steps := j.steps.map bindStep },
       l.map fun x => if x.b = a.b then { x with now := x.now - 1 } else if x.b = b.b then { x with now := x.now + 1 } else x, true)
    | _, _ => (s, l, false)
  | _, _ => (s, l, false)

/-- Up to so many moves: the state and the moves made. -/
def State.moveBranches (slot vstage : Nat) (j : Job) : Nat → State → List BranchAt → Nat → State × Nat
  | 0, s, _, n => (s, n)
  | fuel + 1, s, l, n =>
    let (s, l, moved) := s.moveBranch slot vstage j l
    if moved then State.moveBranches slot vstage j fuel s l (n + 1) else (s, n)

/-- The branches of a virtual stage with their targets for the work of a window, by branch number (R245): all its tiles shared out; none without work to weigh, or
with fewer tiles than the branches' fewest. -/
def State.branchAims (s : State) (slot vstage : Nat) (j : Job) (work : List (Nat × Nat)) : List BranchAt :=
  let bs := (j.branches.filter fun w => bits w 11 8 == vstage).map fun w => (bits w 3 0, bits w 72 64)
  let total := sum (bs.map fun b => aGetD work b.1 0)
  let n := sum (bs.map fun b => (s.branchTiles slot b.1).length)
  if total = 0 ∨ n < sum (bs.map (·.2)) then []
  else
    let l : List BranchAt := bs.map fun b =>
      let w := aGetD work b.1 0
      { b := b.1, least := b.2, now := (s.branchTiles slot b.1).length, work := w, tgt := max b.2 (n * w / total), rem := n * w % total }
    if n < sum (l.map (·.tgt)) then takeBack n (sum (l.map (·.tgt))) l else handOut (n - sum (l.map (·.tgt))) [] l

/-- Whether the targets lower the most work per tile by more than the job's hysteresis (R245). -/
def Job.worthMoving (j : Job) (l : List BranchAt) : Bool :=
  (mostLoad l (·.tgt)).lt (((Val.fin false 1 1 0).sub (f32 (j.num 0x4210 3))).mul (mostLoad l (·.now)))

/-- BRANCH_REBALANCE (R245): after a step due for it, with the work of each branch over the window, by branch number. -/
def execBranchRebalance (slot vstage : Nat) (work : List (Nat × Nat)) (s : State) : Host.Outcome State Fault Refusal :=
  .next (match s.job? slot with
    | none => s
    | some j =>
      let interval := j.num 0x4210 1
      match j.body.lastDone with
      | none => s
      | some step =>
        let l := s.branchAims slot vstage j work
        if interval = 0 ∨ (step + 1) % interval ≠ 0 ∨ j.worthMoving l = false then s
        else
          let (s, m) := State.moveBranches slot vstage j (j.num 0x4210 2) s l 0
          if m = 0 then s else s.raiseJob 0x4202 slot step vstage m 0)

end Sys2Proof.Machine
end

