-- ==== Sys2Proof/Machine/TierRows.lean ====
section
/-!
DEFINITION. Space waits, eviction, promotion and the commit of moves between tiers (R256, R261 to R266).
-/
namespace Sys2Proof.Machine
open Sys2Proof

/-- SPACE_STALLED (R256): one second of a wait for space. -/
def execSpaceStalled (slot step : Nat) (s : State) : Host.Outcome State Fault Refusal :=
  .next (match (s.step? slot step).bind fun x => if x.stalled then none else x.spaceWait.head? with
    | none => s
    | some (_, n) =>
      ((s.updStep slot step fun x => { x with stalled := true }).raiseJob 0x3103 slot step (n % 2 ^ 32) (n / 2 ^ 32) 0).tryClose slot)

/-- The highest step number a job has accepted. -/
def State.highest (s : State) (slot : Nat) : Nat := ((s.job? slot).map fun j => j.body.nextStep - 1).getD 0

/-- Age of a tile (R261). -/
def State.age (s : State) (t : StoredTile) : Nat := s.highest t.key.slot - t.lastStep

/-- Whether a pass may take a tile of the pool (R262). A tile whose promotion is under way is in the pool and may be taken while it has an age: the promotion
wins, and the tile is not moved (R264). -/
def State.evictable (s : State) (t : StoredTile) : Bool :=
  !t.pinned && !t.evicting && (if t.promoting then decide (0 < s.age t) else t.tier == .near)
    && !s.holdsLedger t.key && !(t.key.scope != .job && ((s.step? t.key.slot t.key.step).map (·.recorded)).getD false)

/-- The next tile a pass takes: greatest age, then lower job slot, then lower granule (R262). -/
def State.nextEvicted (s : State) : Option StoredTile :=
  (s.tiers.tiles.filter s.evictable).foldl (fun (m : Option StoredTile) t => match m with
    | none => some t
    | some u =>
      let a := s.age t
      let b := s.age u
      if b < a ∨ (a = b ∧ (t.key.slot < u.key.slot ∨ (t.key.slot = u.key.slot ∧ t.devGranule < u.devGranule))) then some t else some u) none

/-- Bytes on their way out of the pool. -/
def State.leaving (s : State) : Nat := s.tileBytes fun t => t.tier == .near && t.evicting

/-- Whether the pool is down to its low watermark once what is leaving has left. -/
def State.atLow (s : State) : Bool := decide (100 * (s.poolUsed - s.leaving) ≤ s.num 0x3110 3 * s.poolCapacity)

/-- A promotion and an eviction meet on a tile: the promotion wins, the tile's age is zero and it is charged to the job of the promotion (R264). The descriptor of an
eviction that has halted ends as by `ABORT` (R306). -/
def State.dropEviction (s : State) (t : StoredTile) (slot : Nat) : State :=
  let s := (s.updTile t.key fun u => { u with evicting := false, lastStep := s.highest t.key.slot, charge := slot }).add 0x3110 6 1
  if t.evicting then s.endDma (fun st => st == .halted) fun d => d.func == 3 && d.owner == t.devGranule % 2 ^ 32 && d.srcKind == 0 else s

/-- Select tiles until the low watermark is reached, nothing is eligible, or the far tier is full (R262). -/
def State.evict : Nat → State → State
  | 0, s => s
  | fuel + 1, s =>
    if s.atLow then s
    else match s.nextEvicted with
      | none => s
      | some t =>
        if t.promoting then State.evict fuel (s.dropEviction t t.charge)
        else if s.farUsed + t.image.length ≤ s.farCapacity then
          State.evict fuel (s.updTile t.key fun t => { t with evicting := true })
        else s.raise 0x3102 .module 0 (t.image.length % 2 ^ 32) (t.image.length / 2 ^ 32) 0

/-- POOL_EVICTION_PASS (R262): begun by occupancy above the high watermark, or one under way goes on. -/
def execPoolEvictionPass (s : State) : Host.Outcome State Fault Refusal :=
  .next (if s.tiers.pass || !s.underHigh 0 then
      let s : State := { s with tiers := { s.tiers with pass := true } }
      let s := State.evict (2 * s.tiers.tiles.length) s
      if s.atLow && s.leaving == 0 then { s with tiers := { s.tiers with pass := false } } else s
    else s)

/-- Weight tensors in the order a group reads them: that of the previous step, or ascending layer in the job's first (R263). -/
def State.readOrderOf (s : State) (j : Job) (group step : Nat) : List Nat :=
  if (j.body.lastDone.isNone && step == 0) || step == 0 then
    let ls := ((j.body.params.map fun p => pRecLayer p.rec').foldl (fun l x => insertOnce x l) [])
    (ls.map fun l => (j.body.params.filter fun p => pRecLayer p.rec' == l).map fun p => pRecTensor p.rec').flatten
  else aGetD s.tiers.readOrder (j.slot, group + 16 * ((step - 1) % 8)) []

/-- Tensors to be fetched ahead for a group in a step (R263). -/
def State.ahead (s : State) (j : Job) (group step : Nat) : List Nat :=
  let order := s.readOrderOf j group step
  let dist := s.num 0x3200 3
  ((aGetD s.tiers.readOrder (j.slot, group + 16 * (step % 8)) []).map fun t =>
    match order.findIdx? (· == t) with
    | some i => (order.drop (i + 1)).take dist
    | none => []).flatten

/-- Tiles a trigger promotes (R263): kind 0 a page read from far in enough consecutive steps; 1 a weight tensor to be read next by a group in a step; 2 a tile
of the job's or a step's scope that an instance has read from the far tier. -/
def State.triggered (s : State) (kind group step : Nat) (k : TileKey) : List StoredTile :=
  match kind with
  | 0 =>
    let run := (aGetD s.tiers.pageRuns (k.slot, k.id, k.edition, k.row) (0, 0)).2
    if k.space == .table && decide (s.num 0x3200 2 ≤ run) then
      s.tiers.tiles.filter fun t => t.key.space == .table && t.key.slot == k.slot && t.key.id == k.id && t.key.edition == k.edition && t.key.row == k.row
    else []
  | 1 =>
    match s.job? k.slot with
    | some j => if (s.ahead j group step).contains k.id then s.tiers.tiles.filter fun t => t.key.space == .tensor && t.key.slot == k.slot && t.key.id == k.id else []
    | none => []
  | _ => if s.tiers.farReads.contains k then s.tiers.tiles.filter fun t => t.key == k else []

/-- Promote one tile (R263, R264): it counts in the pool from now on; one on its way out stays, its age zero. -/
def State.promote (s : State) (die slot : Nat) (t : StoredTile) : State :=
  if t.tier == .near && t.evicting then s.dropEviction t slot
  else if t.tier == .far && !t.promoting && (s.underHigh t.image.length || (s.tiers.pass && decide (s.poolUsed + t.image.length ≤ s.poolCapacity))) then
    s.updTile t.key fun t => { t with promoting := true, pair := die, charge := slot }
  else s

/-- PROMOTION (R263). -/
def execPromotion (kind die group step : Nat) (k : TileKey) (s : State) : Host.Outcome State Fault Refusal :=
  .next (
    let s := (s.triggered kind group step k).foldl (fun s t => s.promote (die % 4) k.slot t) s
    if kind = 2 then { s with tiers := { s.tiers with farReads := s.tiers.farReads.filter fun r => r != k } } else s)

/-- Whether a gather's slip in flight reads a tile where it lies (R265): a row of a table's page, of a feature tensor or of a device tensor. -/
def Slip.readsTile (p : Slip) (j : Job) (k : TileKey) : Bool :=
  !p.scatter && !p.remote && (p.state == .issued || p.state == .partly) && p.work.slot == k.slot && p.id == k.id && p.row / 32 == k.row
    && (match p.space with
      | 0 => k.space == .table && (p.source == 2 || p.source == 3)
      | 1 => k.space == .feature && decide (p.first / 32 ≤ k.col) && decide (32 * k.col < p.first + p.count)
      | _ => k.space == .tensor && decide (p.first / 32 ≤ k.col) && decide (32 * k.col < p.first + p.count)
          && k == j.tensorKey k.id p.work.step p.work.mb p.work.piece k.row k.col)

/-- Whether an array instance in flight reads a tile (R174, R265). -/
def Job.arrayReads (j : Job) (tile : Nat) (w : Work) (i : Inst) (k : TileKey) : Bool :=
  match j.step? w.id.step, j.programs[w.prog]? with
  | some x, some p =>
    let c : Ctx := { slot := j.slot, tile := tile, job := j, x := x, prog := p, w := { w with regs := i.regs }, d := p.at i.pos, base := j.regionBase (x.roleWord tile) w.half }
    (i.kind == 0x04 && c.weightKeys.contains k) || (i.kind == 0x05 && c.adjacencyKeys.contains k)
  | _, _ => false

/-- Whether a read of a tile is outstanding (R174, R265). -/
def State.pageRead (s : State) (k : TileKey) : Bool :=
  match s.job? k.slot with
  | none => false
  | some j =>
    (List.range s.tileUnits.length).any fun t =>
      (s.unit t).slips.any (fun p => p.2.readsTile j k)
        || (s.unit t).works.any fun w => w.id.slot == k.slot && w.flying.any fun i => j.arrayReads t w i k

/-- MOVE_COMMIT (R265): the copy is complete and no read of the source is outstanding. A load that waited for the move then writes (R266). -/
def execMoveCommit (k : TileKey) (s : State) : Host.Outcome State Fault Refusal :=
  .next (match s.tile? k with
    | none => s
    | some t =>
      if s.pageRead k then s
      else if t.promoting then (((s.updTile k fun t => { t with tier := .near, promoting := false }).add 0x3200 1 1).runDeferreds k.slot).tryClose k.slot
      else if t.evicting then
        let s := (s.updTile k fun t => { t with tier := .far, evicting := false, pair := 0 }).add 0x3110 5 1
        let s := if s.atLow && s.leaving == 0 then { s with tiers := { s.tiers with pass := false } } else s
        (s.runDeferreds k.slot).tryClose k.slot
      else s)

end Sys2Proof.Machine
end

