-- ==== Sys2Proof/Machine/LandingRows.lean ====
section
/-!
DEFINITION. What landed messages become: contributions, shares, working copies, handoffs, and what a buddy keeps for its ward (R241, R320 to R326, R336,
R360, R365, R377).
-/
namespace Sys2Proof.Machine
open Sys2Proof

/-- Summary granules of a handoff, as `Summary.bytes` writes them. -/
def readSummary (b : List Byte) : Summary :=
  let n := leNat (b.take 64)
  { piece := bits n 15 0, last := bit n 16, first := bits n 47 32, seedCount := bits n 63 48, n := (List.range 5).map fun h => bits n (95 + 32 * h) (64 + 32 * h),
    e := (List.range 4).map fun h => bits n (255 + 32 * h) (224 + 32 * h), t := (List.range 4).map fun h => bits n (383 + 32 * h) (352 + 32 * h) }

/-- Stored tiles that follow one another in a message: row, column and image. A label that fails its check alone still says where the next tile is; nothing
is read beyond one whose fields do not. -/
def readTiles : Nat → List Byte → List (Nat × Nat × List Byte)
  | 0, _ => []
  | n + 1, b =>
    match labelFields (b.take 32) with
    | none => []
    | some l => (l.tileRow, l.tileCol, b.take l.imageBytes) :: readTiles n (b.drop l.imageBytes)

/-- The message of a peer counts toward its marker (R320). -/
def StepRec.tookFrom (x : StepRec) (src : Nat) : StepRec := ({ x with counts := aUpd x.counts src 0 (· + 1) } : StepRec).settlePeer src

/-! ### Contributions (R111, R324) -/

/-- Raw addend rows or a partial become additions the memory controller has accepted. -/
def State.landScatter (s : State) (slot step src : Nat) (raw : Bool) (b : List Byte) : State :=
  let h := msgHead b
  let d := b.drop 32
  let base : Addition := { space := h.mb, id := h.spaceId, row := h.index, seg := h.segFirst, raws := [], partials := [], owner := none, bf16 := false, first := true }
  let adds : List Addition :=
    if raw then (readRaws (leAt d 0 4) (d.drop 4)).map fun r => { base with raws := r.2, bf16 := r.1 }
    else [{ base with partials := readPartials (leAt d 0 4) (d.drop 4) }]
  s.updStep slot step fun x => ({ x with adds := x.adds ++ adds } : StepRec).tookFrom src

/-- The chunks of a `REDUCE` message, none for a share of zero (R322, R324). -/
def reduceBody (b : List Byte) : List (List LedgerElem) :=
  if (msgHead b).index = 0xFFFFFFFFFF then []
  else readChunks ((List.range 8).map fun i => leAt b (32 + 4 * i) 4) (b.drop 64)

/-- Elements of a share added into this position's ledger. A share outside the range of R104 raises nothing of itself: its owner checks the total (R108). -/
def State.addShare (s : State) (slot step space rec' : Nat) (b : List Byte) : State :=
  match s.job? slot with
  | none => s
  | some j =>
    let h := msgHead b
    let cs := reduceBody b
    s.updStep slot step fun x => x.updLedger space (redTensor rec') fun l => l.addChunks (j.rowChunks rec') (if cs = [] then 0 else h.index) cs

/-- A `SLICE` message: a child's share is added in; the sum from above replaces what stands here. Once all messages of a sender are in, the reduction
goes on (R322, R325). -/
def State.landSlice (s : State) (slot step src rec' : Nat) (b : List Byte) : State :=
  match s.job? slot with
  | none => s
  | some j =>
    let h := msgHead b
    let space := sliceSpace h.mb h.piece
    let l := j.sliceList rec'
    let kids := match s.myIndex l with | some i => s.broadcastTargets l (l.length + 1) i | none => []
    let child := kids.contains src
    let due := if h.index = 0xFFFFFFFFFF then 1 else h.tile * 1024 + h.slip
    let s := s.updStep slot step fun x => x.updLedger space (redTensor rec') fun l =>
      let got := aGetD l.parts src 0 + 1
      let l : Ledger := { l with parts := aSet l.parts src got, reported := if got = due then insertOnce src l.reported else l.reported }
      if !child && got == 1 then { l with rows := [], excess := false } else l
    let s := s.addShare slot step space rec' b
    let whole := (((s.step? slot step).bind fun x => x.ledger? space (redTensor rec')).map fun l => l.reported.contains src).getD false
    if whole then (if child then s.sliceOn slot step rec' h.mb h.piece else s.sliceDown slot step rec' h.mb h.piece) else s

/-- A `REDUCE` message (R322 to R325). `MICRO_BATCH` 0xFFFF stands for an `OWNER` share. -/
def State.landReduce (s : State) (slot step src : Nat) (b : List Byte) : State :=
  match s.step? slot step with
  | none => s
  | some x =>
    let h := msgHead b
    let s := match x.reductions.find? fun r => redTensor r == h.spaceId with
      | none => s
      | some r => if redKind r = 0 then s.addShare slot step 2 r b else s.landSlice slot step src r b
    s.updStep slot step fun x => x.tookFrom src

/-! ### Working copies and handoffs (R241, R326) -/

/-- Tiles of a message land (R157, R260): a label that fails its check lands as a poisoned granule, with its count and event. DESIGN CHOICE: the event names
granule 0, since a flit has no device address. -/
def State.landTiles (s : State) (slot step : Nat) (l : List (TileKey × List Byte)) : State :=
  (l.filter fun p => !labelCheck (p.2.take 32)).foldl (fun s p =>
    ((s.updTile p.1 fun t => { t with poison := insertOnce 0 t.poison }).count slot step 0x5240 4 1).raise 0x5241 .memory 0 0 0 3) (s.putAll l none)

/-- Tiles of a working copy under their keys. -/
def Job.copyTiles (j : Job) (b : List Byte) : List (TileKey × List Byte) :=
  (readTiles b.length (b.drop 32)).map fun t => (j.tensorKey (msgHead b).spaceId 0 0 0 t.1 t.2.1, t.2.2)

/-- A working copy replaces the one that stands here and goes on to this position's children (R326). -/
def State.landCopy (s : State) (slot : Nat) (b : List Byte) : State :=
  match s.job? slot with
  | none => s
  | some j =>
    let h := msgHead b
    let new := j.copyTiles b
    let s := s.freeTiles fun k => k.space == .tensor && k.slot == slot && k.id == h.spaceId && k.scope == .job && !(new.any fun p => p.1 == k)
    let s := s.landTiles slot h.step new
    let s := if h.index = 0 then
        (s.updStep slot h.step fun x => { x with copies := insertOnce h.spaceId x.copies }).updJob slot fun j =>
          { j with owed := j.owed.filter fun o => o != (h.spaceId, h.step) }
      else s
    match (j.param? h.spaceId).bind fun p => (s.myIndex (rotated j.positions (pRecOwner p.rec'))).map fun i => nth (rotated j.positions (pRecOwner p.rec')) i with
    | some at' => (s.broadcastFrom slot h.spaceId h.step at' h.index).serveWaiting
    | none => s.serveWaiting

/-- Tiles of a handoff under their keys. -/
def Job.handoffTiles (j : Job) (b : List Byte) : List (TileKey × List Byte) :=
  let h := msgHead b
  let d := b.drop 64
  (readTiles d.length (d.drop (64 * leAt b 34 2))).map fun t => (j.tensorKey h.spaceId h.step h.mb h.piece t.1 t.2.1, t.2.2)

/-- A handoff: its tiles, the pieces of its micro-batch, and the readiness of the stage it names (R240, R241). -/
def State.landHandoff (s : State) (slot step : Nat) (b : List Byte) : State :=
  match s.job? slot, s.step? slot step with
  | some j, some x =>
    let h := msgHead b
    let n := leAt b 34 2
    let ps := (List.range n).map fun i => readSummary (slice b (64 + 64 * i) 64)
    let s := s.landTiles slot step (j.handoffTiles b)
    let news := ps.filter fun p => !(x.pieces.any fun q => q.mb == h.mb && q.summary.piece == p.piece)
    let split := !x.formed.contains h.mb
    let s := s.updStep slot step fun x =>
      { x with pieces := x.pieces ++ news.map (fun p => { mb := h.mb, summary := p }), formed := insertOnce h.mb x.formed
               handoffs := (x.handoffs ++ [(h.tile + 256 * h.slip, bit (leAt b 32 1) 0, h.mb, h.piece)]).eraseDups }
    let s := if split then s.logRecord slot 4 0 h.mb step x.accept (toLE 4 n ++ (ps.map fun p => toLE 2 p.first).flatten) else s
    s.wakeAll
  | _, _ => s

/-! ### A buddy's holdings (R360, R365, R377) -/

/-- Log records that a Deposit of a step leaves, from their heads (Table 19-2): those of later steps, and those of no step that follow that step's `STEP_END`;
`past` is whether it has been met. -/
def keepLog : Nat → Nat → Bool → List Byte → List Byte
  | 0, _, _, b => b
  | fuel + 1, n, past, b =>
    if b.length < 64 then b
    else
      let len := 64 + leAt b 12 4
      let past := past || (leAt b 8 1 == 0x0B && leAt b 16 8 == n)
      (if n < leAt b 16 8 ∨ (past ∧ leAt b 8 1 = 1 ∧ leAt b 16 8 = 0) then b.take len else []) ++ keepLog fuel n past (b.drop len)

def WardJob.fresh (key : Nat) : WardJob := { key := key, log := [], image := [], arriving := [], step := 0, depositId := 0 }

/-- Change what is held of one job of the ward. -/
def State.updWard (s : State) (key : Nat) (f : WardJob → WardJob) : State :=
  let l := if s.fabric.wardJobs.any fun w => w.key == key then s.fabric.wardJobs else s.fabric.wardJobs ++ [WardJob.fresh key]
  { s with fabric := { s.fabric with wardJobs := l.map fun w => if w.key = key then f w else w } }

/-- A peer's Deposit of a step has committed: what is kept for it up to that step is freed (R362, R364). -/
def State.freeKept (s : State) (key peer low : Nat) : State :=
  let jobs := s.jobs.map fun j =>
    if j.key = key then { j with retained := j.retained.filter fun r => !(r.dst == peer && coveredBy low r.step) } else j
  let assocs := s.fabric.assocs.map fun a => if a.peer = peer then { a with depositStep := low } else a
  { s with jobs := jobs, fabric := { s.fabric with assocs := assocs } }

/-- Log records or Deposit granules of the ward, or a peer's report of a committed Deposit, which is a head with `LAST` and no body. A second ward is refused (R377). An image is held as its parts, in the order of their Deposits, since
its layout is not given; a full Deposit replaces it. -/
def State.landWard (s : State) (k : FlitKind) (b : List Byte) : State :=
  let h := recHead b
  let body := slice b 32 h.count
  if k = .deposit ∧ h.last ∧ h.count = 0 then s.freeKept h.jobKey h.subject h.step
  else if s.fabric.ward.isSome && s.fabric.ward != some h.subject then s
  else
    let s : State := { s with fabric := { s.fabric with ward := some h.subject } }
    s.updWard h.jobKey fun w =>
      if k = .logMirror then { w with log := w.log ++ body }
      else if h.last then
        let full := leAt body 52 4 == 0
        { w with image := (if full then [] else w.image) ++ w.arriving, arriving := [], step := h.step, depositId := h.depositId,
                 log := keepLog w.log.length h.step false w.log }
      else { w with arriving := (if h.offset = 0 then [] else w.arriving) ++ body }

/-! ### LANDING_MOVE (R336) -/

/-- Whether a landed message can be moved now: its step has been accepted here and its tiles find room; a peer's further contributions to a step it has
ended belong to the rerun of a raise, and wait for it (R108, R320). -/
def State.movable (s : State) (src : Nat) (m : Landed) : Bool :=
  match m.kind with
  | .logMirror | .deposit => true
  | k =>
    let h := msgHead m.bytes
    match s.jobOfKey? h.jobKey with
    | none => false
    | some j =>
      if k = .broadcast then (decide (h.step < j.body.nextStep) || h.index != 0) && s.roomForAll (j.copyTiles m.bytes)
      else match j.step? h.step with
        | none => decide (h.step < j.body.nextStep)
        | some x => if k = .handoff then s.roomForAll (j.handoffTiles m.bytes) else !x.ended.contains src

/-- The effect of a landed message. One that names a step completed here already has none. -/
def State.moveLanded (s : State) (src : Nat) (m : Landed) : State :=
  match m.kind with
  | .logMirror | .deposit => s.landWard m.kind m.bytes
  | k =>
    let h := msgHead m.bytes
    match s.jobOfKey? h.jobKey with
    | none => s
    | some j =>
      if k = .broadcast then s.landCopy j.slot m.bytes
      else if (j.step? h.step).isNone then s
      else match k with
        | .scatterRaw => s.landScatter j.slot h.step src true m.bytes
        | .scatterPartial => s.landScatter j.slot h.step src false m.bytes
        | .reduce => s.landReduce j.slot h.step src m.bytes
        | .handoff => s.landHandoff j.slot h.step m.bytes
        | _ => s

/-- Free a landed message's granules (R336): they are reported with the next acknowledgement. -/
def State.freeLanded (s : State) (src i : Nat) (m : Landed) : State :=
  let n := granulesOf m.bytes
  let s : State := { s with fabric := { s.fabric with assocs := s.fabric.assocs.map fun a =>
    if a.peer = src then { a with landing := a.landing.eraseIdx i, freedHere := a.freedHere + n, ackOwed := max 1 a.ackOwed } else a } }
  s.setNum 0x2350 2 (s.num 0x2350 2 - 32 * n)

/-- LANDING_MOVE (R336): the `i`-th message landed from a peer moves into storage. Messages of one kind and job move in the order they came. -/
def execLandingMove (peer i : Nat) (s : State) : Host.Outcome State Fault Refusal :=
  .next (match (s.fabric.assocs.find? fun a => a.peer == peer).bind fun a => (a.landing[i]?).map fun m => (a, m) with
    | none => s
    | some (a, m) =>
      let key (x : Landed) : Nat := leAt x.bytes 24 8
      let first := (a.landing.take i).all fun x => !(x.kind == m.kind && key x == key m)
      if first && s.movable peer m then (s.moveLanded peer m).freeLanded peer i m else s)

end Sys2Proof.Machine
end

