-- ==== Sys2Proof/Machine/ReliabilityRows.lean ====
section
/-!
DEFINITION. Faults of links and of memory inside the module: replays, row repair and retirement, and the patrol (R342 to R346, R350 to R352).
-/
namespace Sys2Proof.Machine
open Sys2Proof

/-! ### Poisoned granules (R346) -/

/-- Write a granule as poisoned: a carrel granule, numbered over all tiles, or a device granule of a stored tile. -/
def State.poisonGranule (s : State) (carrel : Bool) (loc : Nat) : State :=
  if carrel then { s with carrelPoison := insertOnce loc s.carrelPoison }
  else s.updTiles fun l => l.map fun t =>
    if t.tier ≠ .absent ∧ t.devGranule ≤ loc ∧ loc < t.devGranule + t.image.length / 32 then { t with poison := insertOnce (loc - t.devGranule) t.poison } else t

/-! ### Internal links (R350) -/

/-- A granule is refused and the granules from it on are to be replayed, or after 16 replays it is delivered poisoned where it was bound and the link
retrains (R350). `again` says that it is the granule refused last. -/
def State.linkReplay (s : State) (link granules : Nat) (again carrel : Bool) (loc : Nat) : State :=
  let n := if again then aGetD s.rel.replays link 0 else 0
  if 10 < link ∨ granules = 0 ∨ 128 < granules ∨ s.rel.retraining.contains link then s
  else if n < 16 then ({ s with rel := { s.rel with replays := aSet s.rel.replays link (n + 1) } }).add 0x7040 1 granules
  else
    let s := (s.poisonGranule carrel loc).raise 0x7006 .module 0 link 0 0
    { s with rel := { s.rel with replays := aSet s.rel.replays link 0, retraining := s.rel.retraining ++ [link] } }

/-- LINK_REPLAY (R350). -/
def execLinkReplay (link granules : Nat) (again carrel : Bool) (loc : Nat) (s : State) : Host.Outcome State Fault Refusal :=
  .next (s.linkReplay link granules again carrel loc)

/-- LINK_RETRAINED (R350, R357): the granules held replay. -/
def execLinkRetrained (link granules : Nat) (s : State) : Host.Outcome State Fault Refusal :=
  .next (if s.rel.retraining.contains link ∧ granules ≤ 128 then
      ({ s with rel := { s.rel with retraining := s.rel.retraining.filter (· != link) } }).add 0x7040 1 granules
    else s)

/-! ### Row repair (R351) -/

/-- The tier of a device: 0 near for `H0` to `H7`, 1 far for `L0` to `L17`. -/
def tierOf (device : Nat) : Nat := if device < 8 then 0 else 1

/-- Usable bytes of a tier (R351): what remains after retirement. -/
def State.usable (s : State) (tier : Nat) : Nat := if tier = 0 then 768 * gib - s.tiers.nearRetired else 1536 * gib - s.tiers.farRetired

/-- The floor of a tier's usable bytes (R351). -/
def usableFloor (tier : Nat) : Nat := if tier = 0 then 760 * gib else 1520 * gib

def State.rowHistory? (s : State) (device bank row : Nat) : Option RowHistory :=
  s.rel.rows.find? fun h => h.device == device && h.bank == bank && h.row == row

/-- Change the history of a row. -/
def State.updRow (s : State) (device bank row : Nat) (f : RowHistory → RowHistory) : State :=
  let old := (s.rowHistory? device bank row).getD { device := device, bank := bank, row := row, granules := [], bad := false, repaired := none, repairing := false }
  { s with rel := { s.rel with rows := (s.rel.rows.filter fun h => !(h.device == device && h.bank == bank && h.row == row)) ++ [f old] } }

/-- Rows of repair resource a bank has left. -/
def State.bankLeft (s : State) (device bank : Nat) : Nat := nth s.rel.atManufacture device - aGetD s.rel.bankUsed (device, bank) 0

/-- Use one row of a bank's repair resource. -/
def State.useResource (s : State) (device bank : Nat) : State :=
  let used := aGetD s.rel.bankUsed (device, bank) 0 + 1
  { s with rel := { s.rel with bankUsed := aSet s.rel.bankUsed (device, bank) used
                               resources := s.rel.resources.set device (min (nth s.rel.resources device) (nth s.rel.atManufacture device - used)) } }

/-- A row is retired, unless its tier would fall below its floor (R351). -/
def State.retireRow (s : State) (device bank row loc bytes : Nat) : State :=
  let tier := tierOf device
  if s.usable tier < usableFloor tier + bytes then s.raise 0x7005 .memory 0 tier (s.usable tier / mib) 0
  else
    let s : State := { s with tiers := if tier = 0 then { s.tiers with nearRetired := s.tiers.nearRetired + bytes }
                                       else { s.tiers with farRetired := s.tiers.farRetired + bytes } }
    let s := (s.add 0x7010 3 bytes).updRow device bank row fun h => { h with granules := [], bad := false, repairing := false }
    s.raise 0x7003 .memory 0 (loc % 2 ^ 32) (loc / 2 ^ 32) 2

/-- Whether a row is due for repair at a time, ms: more granules corrected within 24 hours than the threshold, or an uncorrectable one. -/
def State.rowDue (s : State) (h : RowHistory) (now : Nat) : Bool :=
  h.bad || decide (s.num 0x7010 4 < (h.granules.filter fun g => decide (now < g.2 + 86400000)).length)

/-- Whether a soft repair of the row lies less than 30 days back: the next one is a hard repair (Table 18-3). -/
def RowHistory.recurs (h : RowHistory) (now : Nat) : Bool := match h.repaired with | some t => decide (now < t + 30 * 86400000) | none => false

/-- ROW_REPAIR (R351): live repair starts, or with no repair resource left the row of `bytes` bytes at device granule `loc` is retired. -/
def execRowRepair (device bank row loc bytes now : Nat) (s : State) : Host.Outcome State Fault Refusal :=
  .next (match s.rowHistory? device bank row with
    | none => s
    | some h =>
      if device < 26 ∧ s.rowDue h now = true ∧ h.repairing = false ∧ h.recurs now = false then
        if s.bankLeft device bank = 0 then s.retireRow device bank row loc bytes
        else s.updRow device bank row fun h => { h with repairing := true }
      else s)

/-- ROW_REPAIRED (R351): the soft repair is complete. -/
def execRowRepaired (device bank row loc now : Nat) (s : State) : Host.Outcome State Fault Refusal :=
  .next (match s.rowHistory? device bank row with
    | none => s
    | some h =>
      if h.repairing then
        let s := (s.useResource device bank).updRow device bank row fun h => { h with granules := [], bad := false, repaired := some now, repairing := false }
        (s.add 0x7010 1 1).raise 0x7003 .memory 0 (loc % 2 ^ 32) (loc / 2 ^ 32) 0
      else s)

/-- HARD_REPAIR (R351): a soft-repaired row that recurs within 30 days. -/
def execHardRepair (device bank row loc bytes now : Nat) (s : State) : Host.Outcome State Fault Refusal :=
  .next (match s.rowHistory? device bank row with
    | none => s
    | some h =>
      if device < 26 ∧ s.rowDue h now = true ∧ h.repairing = false ∧ h.recurs now = true then
        if s.bankLeft device bank = 0 then s.retireRow device bank row loc bytes
        else
          let s := (s.useResource device bank).updRow device bank row fun h => { h with granules := [], bad := false, repaired := none }
          (s.add 0x7010 1 1).raise 0x7003 .memory 0 (loc % 2 ^ 32) (loc / 2 ^ 32) 1
      else s)

/-! ### The patrol (R352) -/

/-- Count a correction of a tier for the daily record (Table 24-3). -/
def State.countCorrected (s : State) (tier : Nat) : State :=
  { s with day := if tier = 0 then { s.day with correctedNear := s.day.correctedNear + 1 } else { s.day with correctedFar := s.day.correctedFar + 1 } }

/-- The codeword in what the patrol reads: of a stack, a burst with the four check bytes that come beside it (R10); of a package, burst `granule` mod 8 of a
288-byte group and its check bytes in the ninth burst, where the package is the one that holds the granule (R11, R255). -/
def PatrolRead.codeword (device : Nat) : PatrolRead → Option (List Byte)
  | .near burst => if device < 8 ∧ burst.length = 36 then some burst else none
  | .far granule group => if device = farDevice granule ∧ group.length = 288 then some (farCodeword group (granule % 8)) else none

/-- SCRUB (R343, R352): the patrol reads the codeword of a device granule: a correction is written back and charged to its row, an uncorrectable granule
is written poisoned. -/
def execScrub (device bank row loc : Nat) (word : PatrolRead) (now : Nat) (s : State) : Host.Outcome State Fault Refusal :=
  .next (match word.codeword device with
    | none => s
    | some word =>
      match decodeGranule word with
      | .clean | .poisoned => s
      | .corrected _ n =>
        let s := (s.add 0x7000 1 1).countCorrected (tierOf device)
        let s := if n = 2 then s.add 0x7000 2 1 else s
        s.updRow device bank row fun h => { h with granules := aSet h.granules loc now }
      | .uncorrectable =>
        let s := ((s.add 0x7000 3 1).poisonGranule false loc).updRow device bank row fun h => { h with bad := true }
        s.raise 0x7001 .memory 0 (loc % 2 ^ 32) (loc / 2 ^ 32) 0)

end Sys2Proof.Machine
end

