-- ==== Sys2Proof/Machine/RecoveryRows.lean ====
section
/-!
DEFINITION. Recovery: the commit of log records, Deposits, liveness, fencing, takeover, folding and restore (R359 to R379).
-/
namespace Sys2Proof.Machine
open Sys2Proof

/-! ### The log (R359, R360) -/

/-- A log record with its head (Table 19-2). -/
def LogRec.bytes (r : LogRec) : List Byte :=
  toLE 64 (r.offset % 2 ^ 64 + (r.kind % 2 ^ 8) * 2 ^ 64 + (r.opcode % 2 ^ 8) * 2 ^ 72 + (r.mb % 2 ^ 16) * 2 ^ 80 + (r.body.length % 2 ^ 32) * 2 ^ 96
    + (r.step % 2 ^ 64) * 2 ^ 128 + (r.accept % 2 ^ 64) * 2 ^ 192) ++ r.body

/-- The buddy's position, where it is reachable: named, associated, and with a port up (R360). -/
def State.buddy? (s : State) : Option Nat :=
  let b := s.num 0x7130 1
  if b = 0xFFFF then none
  else
    let d := s.holderOf b
    if (s.assoc? d).isSome && s.routed d then some d else none

/-- Whether a message sent to a peer has been covered by its `E2E_ACK` (R317). -/
def State.acked (s : State) (peer : Nat) (b : List Byte) : Bool :=
  !(s.fabric.outbox.any fun w => w.dst == peer && w.bytes == b) && ((s.assoc? peer).map fun a => a.store.all fun x => x.body != b).getD true

/-- The `LOG_MIRROR` message of a record (R377). -/
def State.mirrorMsg (s : State) (j : Job) (r : LogRec) : List Byte :=
  ({ jobKey := j.key, offset := r.offset, depositId := 0, step := r.step, subject := s.fabric.position, last := false, op := 0, count := 64 + r.body.length } : RecHead).bytes
    ++ r.bytes

/-- A job whose bytes under the budget exceed its share makes an early Deposit once the budget is reached (R363). -/
def State.earlyDeposits (s : State) : State :=
  let held (j : Job) := j.logBytes + j.retainedBytes
  let all := sum (s.jobs.map held)
  if s.num 0x7120 4 * gib ≤ all then
    { s with jobs := s.jobs.map fun j => if all < held j * s.jobs.length ∨ s.jobs.length = 1 then { j with early := true } else j }
  else s

/-- What the commit of a record lets go: the final response of its command (R360), and a close that waited for it. -/
def State.committed (s : State) (slot : Nat) (r : LogRec) : State :=
  let s := s.updJob slot fun j => { j with log := j.log.map fun x => if x.offset = r.offset then { x with committed := true } else x }
  if r.kind = 1 ∨ r.kind = 2 then
    match s.port.inFlight.find? fun f => f.job == some slot && f.accept == some r.accept && !f.logged with
    | none => s
    | some f =>
      let s := s.updInFlight f.cmd.session f.cmd.queue f.cmd.seq fun f => { f with logged := true }
      match f.stage with
      | .done st p retry => (s.answer f.cmd st p retry).tryClose slot
      | _ => s.tryClose slot
  else s

/-- LOG_COMMIT (R360, R363): a job's first record that has not committed. It goes to the buddy, and commits once the buddy has acknowledged it; with no
reachable buddy, or one that has refused this position as a second ward, the local write alone commits it. -/
def execLogCommit (slot : Nat) (refused : Bool) (s : State) : Host.Outcome State Fault Refusal :=
  .next (match s.job? slot with
    | none => s
    | some j =>
      match j.log.find? fun r => !r.committed with
      | none => s
      | some r =>
        match (if refused then none else s.buddy?) with
        | some b =>
          let m := s.mirrorMsg j r
          if !r.mirrored then
            (s.updJob slot fun j => { j with log := j.log.map fun x => if x.offset = r.offset then { x with mirrored := true } else x }).send b .logMirror m
          else if s.acked b m then
            (({ s with fabric := { s.fabric with unprotected := none } }).committed slot r).earlyDeposits
          else s
        | none =>
          let p := s.num 0x7130 1
          let cause := if p = 0xFFFF then 0 else if refused then 2 else 1
          let s := if s.fabric.unprotected.isSome then s
            else ({ s with fabric := { s.fabric with unprotected := some cause } }).raise 0x7109 .module 0 p cause 0
          (s.committed slot r).earlyDeposits)

/-! ### Deposits (R363 to R367) -/

/-- Bytes of a Deposit's image: its tiles, retained sends, results, and masters and state. -/
def Deposit.imageBytes (d : Deposit) : Nat :=
  sum (d.tiles.map fun t => t.image.length) + sum (d.retained.map fun r => r.bytes.length) + sum (d.body.results.map fun r => r.image.length)
    + sum (d.body.params.map fun p => 4 * sum ((p.master ++ p.m ++ p.v).map fun r => r.2.length)) + sum (d.body.held.map fun h => h.data.bytes)

/-- The Deposit of a job as it stands now (R364). Counts of steps still open are not part of it. -/
def State.depositOf (s : State) (j : Job) : Deposit :=
  { id := ((j.deposit.map (·.id)).getD 0 + 1) % 2 ^ 32, step := j.body.lastDone, cut := j.logEnd, accepted := j.accepted,
    body := { j.body with counters := [] }, waiting := j.deferred, steps := j.steps,
    tiles := s.tiers.tiles.filter fun t => t.key.slot == j.slot && t.key.scope == .job, retained := j.retained, committed := false }

/-- Tiles of a Deposit that the last one did not hold as they are: all of them in a full Deposit (R364). -/
def Job.newTiles (j : Job) (d : Deposit) : List StoredTile :=
  match j.deposit with
  | some o => if j.full then d.tiles else d.tiles.filter fun t => !(o.tiles.any fun u => u.key == t.key && u.image == t.image)
  | none => d.tiles

/-- The `DEPOSIT` messages of a Deposit, the manifest last (R365, R377). The image's layout is not given: here tile after tile. -/
def State.depositMsgs (s : State) (j : Job) (d : Deposit) (seed : Nat) : List (List Byte) :=
  let head (off n : Nat) (last : Bool) : List Byte :=
    ({ jobKey := j.key, offset := off, depositId := d.id, step := d.step.getD 0, subject := s.fabric.position, last := last, op := 0, count := n } : RecHead).bytes
  let tiles := (j.newTiles d).map (·.image)
  let man := s.manifest j d (j.full || j.deposit.isNone) (tiles.length + 1) seed
  (tiles.foldl (fun (acc : Nat × List (List Byte)) b => (acc.1 + b.length, acc.2 ++ [head acc.1 b.length false ++ b])) (0, [])).2 ++ [head 0 man.length true ++ man]

/-- Whether a job stands at a step boundary (R364): every step before the boundary has completed, and no update of a later one has begun. -/
def Job.atBoundary (j : Job) : Bool := j.steps.all fun x => x.updates.isEmpty

/-- Take a Deposit of a job and send it to the buddy (R364, R365). -/
def State.startDeposit (s : State) (slot now : Nat) : State :=
  match s.job? slot with
  | none => s
  | some j =>
    let d := s.depositOf j
    let (i, s) := draw s
    let s := s.updJob slot fun j => { j with taking := some d, takingAt := now, early := false }
    match s.buddy? with
    | some b => (s.depositMsgs j d i).foldl (fun s m => s.send b .deposit m) s
    | none => s

/-- DEPOSIT_START (R363, R364, R367): `now` in keeper seconds. -/
def execDepositStart (slot now : Nat) (s : State) : Host.Outcome State Fault Refusal :=
  .next (match s.job? slot with
    | none => s
    | some j =>
      let due := j.early || (s.num 0x7120 1 != 2 && decide (j.depositAt + j.interval ≤ now))
      if due && j.atBoundary && j.taking.isNone && !j.fenced && !j.filling && j.state == .running then
        let n := (s.depositOf j).imageBytes
        if s.num 0x7130 1 ≠ 0xFFFF ∧ s.num 0x7100 1 * gib < n then
          (s.updJob slot fun j => { j with early := false, depositAt := now }).raiseJob 0x7108 slot 0 (n % 2 ^ 32) (n / 2 ^ 32) 0
        else s.startDeposit slot now
      else s)

/-- Log records that a committed Deposit leaves: those of later steps, those appended after it was taken, and those of commands not yet performed. -/
def Job.keptLog (j : Job) (d : Deposit) : List LogRec :=
  j.log.filter fun r =>
    !r.committed || decide (d.cut ≤ r.offset) || (match d.step with | some n => decide (n < r.step) | none => decide (0 < r.step))
      || j.deferred.any (fun x => x.accept == r.accept) || j.steps.any fun x => x.accept == r.accept

/-- DEPOSIT_COMMIT (R364, R365): once the buddy has acknowledged the manifest; with no buddy reachable, once it stands in this position's own storage. Log
and retained copies are freed, and peers are told: a `DEPOSIT` head with `LAST` and no body. -/
def execDepositCommit (slot now : Nat) (s : State) : Host.Outcome State Fault Refusal :=
  .next (match s.job? slot with
    | none => s
    | some j =>
      match j.taking with
      | none => s
      | some d =>
        let waiting (b : List Byte) : Bool := (recHead b).jobKey == j.key && (recHead b).depositId == d.id && (recHead b).subject == s.fabric.position
        let out := (s.fabric.outbox.any fun w => w.kind == .deposit && waiting w.bytes)
          || s.fabric.assocs.any fun a => a.store.any fun x => x.kind == .deposit && waiting x.body
        if out then s
        else
          let s := s.updJob slot fun j =>
            { j with deposit := some { d with committed := true }, taking := none, depositAt := now, full := false,
                     costs := (j.costs ++ [now - j.takingAt]).drop (j.costs.length - 7), log := j.keptLog d }
          let s := match s.job? slot with | some j => s.setNum 0x7120 3 (round32 (.fin false (j.depositCost).1 (j.depositCost).2 0)) | none => s
          let s := s.updJob slot fun j => j.setNum 0x7100 6 (d.step.getD 0)
          let told : List Byte := ({ jobKey := j.key, offset := 0, depositId := d.id, step := d.step.getD 0, subject := s.fabric.position, last := true, op := 0,
                                     count := 0 } : RecHead).bytes
          let s := if d.step.isSome then (s.others j).foldl (fun s p => s.send p .deposit told) s else s
          s.earlyDeposits)

/-- DEPOSIT_INTERVAL_EVAL (R360, R367): hourly. -/
def execDepositIntervalEval (s : State) : Host.Outcome State Fault Refusal :=
  .next (
    let s := (s.add 0x7120 8 1).setIntervals
    match s.fabric.unprotected with
    | some cause => s.raise 0x7109 .module 0 (s.num 0x7130 1) cause 0
    | none => s)

/-! ### Liveness (R368) -/

/-- The last step delivered here from a peer: over the jobs it shares, the least of the steps whose contributions from it are all in (R372). -/
def State.deliveredFrom (s : State) (peer : Nat) : Nat :=
  let mine := s.jobs.filter fun j => j.positions.contains peer
  let last (j : Job) : Nat := (j.steps.filter fun x => x.ended.contains peer).foldl (fun m x => max m x.num) ((j.body.lastDone).getD 0)
  match mine with
  | [] => 0
  | j :: l => l.foldl (fun m j => min m (last j)) (last j)

/-- Send a `LIVENESS` message (R377). -/
def State.liveness (s : State) (dst op number subject : Nat) : State :=
  s.send dst .liveness
    ({ jobKey := 0, offset := number, depositId := 0, step := s.deliveredFrom dst, subject := subject, last := false, op := op, count := 0 } : RecHead).bytes

/-- Positions probed: the buddy and every associated position of a job. -/
def State.probed (s : State) : List Nat :=
  let b := s.num 0x7130 1
  (((if b = 0xFFFF then [] else [b]) ++ (s.jobs.map (·.positions)).flatten).eraseDups.filter fun p => !s.mine p && (s.assoc? p).isSome)

/-- LIVENESS_PROBE_DUE (R368): every quarter of *liveness timeout*. -/
def execLivenessProbeDue (s : State) : Host.Outcome State Fault Refusal :=
  .next (
    let n := (s.fabric.probe + 1) % 2 ^ 64
    let s : State := { s with fabric := { s.fabric with probe := n } }
    s.probed.foldl (fun s p => (s.updAssoc p fun a => { a with heard := false }).liveness p 0 n 0) s)

/-- Receive a `LIVENESS` message: the effect sees its head, and what its sender reports delivered. -/
def State.livenessIn (s : State) (p : Nat) (m : Msg) (tagOk : Bool) (now : Nat) (f : RecHead → State → State) : State :=
  match s.receive p .liveness m tagOk now with
  | (s, some b) => f (recHead b) (s.updAssoc m.src fun a => { a with delivered := (recHead b).step })
  | (s, none) => s

/-- PROBE (R368, R471): answered once the module is ready, unless it announces its own failure. -/
def execProbe (port : Nat) (m : Msg) (tagOk : Bool) (now : Nat) (s : State) : Host.Outcome State Fault Refusal :=
  .next (s.livenessIn port m tagOk now fun h s =>
    if s.bring.ready && !s.bring.announcedFailure then s.liveness m.src 1 h.offset 0 else s)

/-- ANSWER (R368): its sender has been heard. -/
def execAnswer (port : Nat) (m : Msg) (tagOk : Bool) (now : Nat) (s : State) : Host.Outcome State Fault Refusal :=
  .next (s.livenessIn port m tagOk now fun _ s => s.updAssoc m.src fun a => { a with heard := true, queried := false })

/-- QUERY (R368): answered where the position has been heard within the timeout. -/
def execQuery (port : Nat) (m : Msg) (tagOk : Bool) (now : Nat) (s : State) : Host.Outcome State Fault Refusal :=
  .next (s.livenessIn port m tagOk now fun h s =>
    if ((s.assoc? h.subject).map (·.heard)).getD false then s.liveness m.src 3 h.offset h.subject else s)

/-- QUERY_ANSWER (R368): another peer has heard from the position. -/
def execQueryAnswer (port : Nat) (m : Msg) (tagOk : Bool) (now : Nat) (s : State) : Host.Outcome State Fault Refusal :=
  .next (s.livenessIn port m tagOk now fun h s => s.updAssoc h.subject fun a => { a with heard := true, queried := false })

/-- LIVENESS_TIMEOUT (R368): a position associated here has been silent for a full timeout; its other associated peers are asked. -/
def execLivenessTimeout (pos : Nat) (s : State) : Host.Outcome State Fault Refusal :=
  .next (match s.assoc? pos with
    | none => s
    | some a =>
      if a.heard then s
      else
        let s := s.updAssoc pos fun a => { a with queried := true }
        (s.fabric.assocs.filter fun a => a.live && a.peer != pos).foldl (fun s a => s.liveness a.peer 2 s.fabric.probe pos) s)

/-! ### Fencing (R369) -/

/-- Settle what a fenced position held and drop its association (R369, Table 19-3). -/
def State.fence (s : State) (pos declarer : Nat) : State :=
  let held := ((s.fabric.assocs.filter fun a => a.peer == pos).map fun a => a.store.map fun x => ({ dst := pos, kind := x.kind, bytes := x.body } : Waiting)).flatten
  let kept := (held ++ s.fabric.outbox).filter fun w => !(w.dst == pos && (w.kind == .liveness || w.kind == .logMirror || w.kind == .deposit || w.kind == .gatherReq || w.kind.retained))
  let s : State := { s with
    fabric := { s.fabric with
      fenced := insertOnce pos s.fabric.fenced
      holders := s.fabric.holders.filter fun h => h.1 != pos
      assocs := s.fabric.assocs.map fun a => if a.peer = pos then { a with live := false, store := [], heard := false, queried := false } else a
      outbox := kept }
    tileUnits := s.tileUnits.map fun u =>
      { u with slips := u.slips.map fun p =>
          if p.2.remote ∧ p.2.peer = pos ∧ (p.2.state = .issued ∨ p.2.state = .partly) then (p.1, { p.2 with state := .fenced }) else p } }
  let s := if s.num 0x7130 1 = pos then
      { s with jobs := s.jobs.map fun j => { j with taking := none, full := true, log := j.log.map fun r => if r.committed then r else { r with mirrored := false } } }
    else s
  s.raise 0x7102 .module 0 pos declarer 0

/-- Send `FENCE` about a position to every associated one but some. -/
def State.sendFence (s : State) (pos : Nat) (but : List Nat) : State :=
  (s.fabric.assocs.filter fun a => a.live && !but.contains a.peer && a.peer != pos).foldl (fun s a => s.liveness a.peer 4 0 pos) s

/-- FENCE (R369): the first one about a position is passed on once and settled. -/
def execFence (port : Nat) (m : Msg) (tagOk : Bool) (now : Nat) (s : State) : Host.Outcome State Fault Refusal :=
  .next (s.livenessIn port m tagOk now fun h s =>
    if s.fabric.fenced.contains h.subject ∨ h.subject = s.fabric.position then s
    else (s.sendFence h.subject [m.src]).fence h.subject m.src)

/-- POSITION_FAILED (R368): the position announces its own failure, or has been heard neither here nor by any peer asked. -/
def execPositionFailed (pos : Nat) (announced : Bool) (s : State) : Host.Outcome State Fault Refusal :=
  .next (
    let silent := ((s.assoc? pos).map fun a => a.queried && !a.heard).getD false
    if (announced && (s.assoc? pos).isSome || silent) && pos != s.fabric.position && !s.fabric.fenced.contains pos then
      (s.sendFence pos []).fence pos s.fabric.position
    else s)

/-- SELF_FENCED (R369): every peer refuses this module, so each job is closed without a response. -/
def execSelfFenced (s : State) : Host.Outcome State Fault Refusal :=
  .next (
    if s.bring.selfFenced ∨ s.bring.ready = false then s
    else
      let s := if s.bring.announcedFailure then s else s.ownFailure
      let slots := s.jobs.map (·.slot)
      let s := s.raise 0x7107 .module 0 s.fabric.position 0 0
      let mine (f : InFlight) : Bool := match f.job with | some j => slots.contains j | none => false
      let gone := s.port.inFlight.filter fun f => mine f && f.stage != .formed
      let s := gone.foldl (fun s f => s.releaseRoom f.cmd.queue f.cmd.opcode) s
      let s : State := { s with port := { s.port with inFlight := s.port.inFlight.filter fun f => !(mine f && f.stage != .formed) } }
      let s := slots.foldl State.freeJob s
      { s with bring := { s.bring with selfFenced := true } })

/-! ### Takeover and folding (R370 to R375) -/

/-- *spare list*. -/
def State.spareList (s : State) : List Nat := u16s (s.entry 0x7130 2).toBytes

/-- Spares left (R370). -/
def State.sparesLeft (s : State) : List Nat := s.spareList.filter fun p => !s.fabric.assigned.contains p

/-- Opcodes of a log that change a job's state: the others are not performed again, since nobody waits for their answers (R372). -/
def replayedOpcodes : List Nat := [0x10, 0x11, 0x12, 0x13, 0x14, 0x15, 0x20, 0x21, 0x23, 0x30, 0x40]

/-- Whether a record of a log is to be taken again after a Deposit: a command of a later step, one accepted since, or the end of a later step. -/
def Deposit.replays (d : Deposit) (r : LogRec) : Bool :=
  let later := match d.step with | some n => decide (n < r.step) | none => true
  if r.kind = 0x0B then later
  else r.kind == 1 && replayedOpcodes.contains r.opcode && (if r.opcode = 0x20 then later else decide (d.cut ≤ r.offset))
    && (r.opcode != 0x40 || (let h := dictHead r.body
          (h.op == 1 || h.op == 3) && (within 0x4010 0x4013 h.index || ((findEntry h.index h.sub).map (·.jobScoped)).getD false)))

/-- Fill a job from its Deposit, and begin the replay of what its log holds beyond, but for records of another numerics generation (R37, R371, R372). DEDUCED: its
place among the module's jobs is the one it had, where that is free. -/
def State.fillJob (s : State) (m : FillImage) : State :=
  if (s.jobOfKey? m.job.key).isSome ∨ 4 ≤ s.jobs.length then s
  else
    let slot := if m.job.slot < 4 ∧ (s.job? m.job.slot).isNone then m.job.slot else s.freeSlot
    let d := { m.deposit with committed := true }
    let log := (m.log.filter fun r => r.gen == s.sec.numericsGen).map fun r => { r with committed := true, mirrored := true }
    let j : Job := { m.job with
      slot := slot, holder := none, queues := [], fenced := false, filling := true, steps := [], fragments := [], signals := [], owed := [], taking := none, unlike := false,
      deferred := d.waiting.map fun w => { w with asker := .command 0 (1024 + slot) w.accept }, retained := d.retained, accepted := d.accepted, deposit := some d, log := log,
      logEnd := log.foldl (fun n r => max n (r.offset + 64 + r.body.length)) d.cut, replay := log.filter d.replays, decisions := log.filter fun r => r.kind != 1 && r.kind != 3 }
    let s : State := { s with jobs := s.jobs ++ [j] }
    let s := m.roles.foldl (fun s p => s.setRole (p.1 % 256) (p.2 - roleSlot p.2 * 2 ^ 24 + slot * 2 ^ 24)) s
    (s.restoreJob slot d).releaseReplay slot

/-- TAKEOVER_STARTED (R370, R371): the next spare of the list takes a fenced position. The spare itself fills the position from the buddy's images and replays; a module so taken over keeps no
session (R393); an armed switch of the module that fills is cancelled (Table 20-9). -/
def execTakeoverStarted (pos : Nat) (spare : SpareFill) (s : State) : Host.Outcome State Fault Refusal :=
  .next (
    let self := s.fabric.position == spare.spare
    if s.sparesLeft.head? ≠ some spare.spare ∧ self = false then s
    else if s.fabric.fenced.contains pos = false ∧ self = false ∧ s.fabric.position ≠ pos then s
    else
      let s : State := { s with fabric := { s.fabric with assigned := s.fabric.assigned ++ [spare.spare] } }
      let s := s.raise 0x7103 .module 0 pos spare.spare 0
      if self then
        let s := s.disarm
        let s : State := { s with fabric := { s.fabric with position := pos, filling := some pos, fenced := s.fabric.fenced.filter (· != pos) } }
        spare.images.foldl State.fillJob s
      else if s.fabric.position = pos then s.sessions.foldl (fun s x => s.endSession x.id 3) s
      else { s with fabric := { s.fabric with holders := aSet s.fabric.holders pos pos } })

/-- Send a position's new holder what is kept for it (R362, R372). DEDUCED: of a job of which it reports a last step replayed, only messages of later steps, as
R372 has of the messages the holder itself sends. -/
def State.resendKept (s : State) (pos : Nat) (reached : List (Nat × Nat)) : State :=
  s.jobs.foldl (fun s j =>
    (j.retained.filter fun r => r.dst == pos && (reached.all fun p => p.1 != j.key || decide (p.2 < r.step))).foldl (fun s r =>
      match [FlitKind.gatherData, .scatterRaw, .scatterPartial, .endContrib, .rangeReport, .reduce, .broadcast, .handoff].find? fun k => k.code == r.kind with
      | some k => s.send pos k r.bytes
      | none => s) s) s

/-- Whether the replay of a job has come to the last step with a committed `STEP_END` (R372). -/
def Job.replayDone (j : Job) : Bool := !j.filling || (j.replay.isEmpty && !(j.steps.any fun x => j.replays x.num))

/-- TAKEOVER_COMPLETE (R372): on the spare, once its replays have come to the last committed steps; elsewhere, what is kept for the position goes to its new
holder, which reports of jobs the last step it has replayed. -/
def execTakeoverComplete (pos holder : Nat) (jobs : List (Nat × Nat)) (s : State) : Host.Outcome State Fault Refusal :=
  .next (
    if s.fabric.filling = some pos then
      if s.jobs.all Job.replayDone && !(s.port.inFlight.any fun f => f.replayed && f.stage == .arrived) then
        let s : State := { s with fabric := { s.fabric with filling := none }, jobs := s.jobs.map fun j => { j with filling := false } }
        s.raise 0x7104 .module 0 pos holder 0
      else s
    else if s.fabric.fenced.contains pos && s.fabric.holders.any (fun h => h.1 == pos) then
      let s : State := { s with fabric := { s.fabric with fenced := s.fabric.fenced.filter (· != pos), holders := s.fabric.holders.filter fun h => h.1 != pos,
                                                          folded := s.fabric.folded.filter (· != pos) } }
      (s.resendKept pos jobs).raise 0x7104 .module 0 pos holder 0
    else s)

/-- Entries of two lists by key, the first's where both have one. -/
def aMerge {α β : Type} [BEq α] (a b : List (α × β)) : List (α × β) := a ++ b.filter fun p => !(a.any fun q => q.1 == p.1)

/-- What a position knew of its part of a table joins what the folder knows of its own (R375). -/
def Table.join (t u : Table) : Table :=
  { t with classes := aMerge t.classes u.classes, layouts := aMerge t.layouts u.layouts, annex := t.annex ++ u.annex.filter fun a => !t.annex.contains a,
           stagedPages := aMerge t.stagedPages u.stagedPages, staged := t.staged ++ u.staged.filter fun x => !(t.staged.any fun y => y.row == x.row) }

/-- What a folder takes on of a job: the fenced position's tiles and tables, the parameters it owned, and its dirty shelf rows (R130, R375). -/
def State.foldIn (s : State) (pos slot : Nat) (d : Deposit) : State :=
  let theirs (p : Param) : Param := if pRecOwner p.rec' = pos then (d.body.params.find? fun q => q.rec' == p.rec').getD p else p
  let s := s.updBody slot fun b =>
    { b with params := b.params.map theirs, held := b.held ++ d.body.held,
             tables := b.tables.map fun t => ((d.body.tables.find? fun u => u.id == t.id).map t.join).getD t }
  ((d.tiles.filter fun t => (s.tile? { t.key with slot := slot }).isNone).foldl (fun s t => s.standTile slot t) s).standRows slot d.body.shelf

/-- Whether the free near and far space can hold the images of a fenced position (R375). -/
def State.canHold (s : State) (images : List (Nat × Deposit)) : Bool :=
  decide (sum (images.map fun p => p.2.imageBytes) ≤ (s.poolCapacity - s.poolUsed) + (s.farCapacity - s.farUsed))

/-- POSITION_FOLDED (R375): with no spare left, the folder answers for the fenced position as well; a position that cannot hold the images is no folder. -/
def execPositionFolded (pos folder : Nat) (images : List (Nat × Deposit)) (s : State) : Host.Outcome State Fault Refusal :=
  .next (
    if s.fabric.fenced.contains pos = false ∨ s.sparesLeft ≠ [] ∨ s.fabric.holders.any (fun h => h.1 == pos)
        ∨ (folder = s.fabric.position ∧ s.canHold images = false) then s
    else
      let s : State := { s with fabric := { s.fabric with holders := aSet s.fabric.holders pos folder } }
      let s := s.raise 0x7105 .module 0 pos folder 0
      if folder = s.fabric.position then
        let s : State := { s with fabric := { s.fabric with folded := insertOnce pos s.fabric.folded } }
        images.foldl (fun s p => s.foldIn pos p.1 p.2) s
      else s.resendKept pos [])

/-! ### Restore and its limits (R373, R376) -/

/-- RESTORE_IN_PLACE (R373): the poisoned tiles of a job stand again as its log leaves them, and its commands are taken again. -/
def execRestoreInPlace (slot : Nat) (s : State) : Host.Outcome State Fault Refusal :=
  .next (match s.job? slot with
    | none => s
    | some j =>
      if j.fenced then
        let mine := (List.range 256).filter fun t => roleA (s.roleWord t) != 0 && roleSlot (s.roleWord t) == slot
        let s := s.updTiles fun l => l.map fun t => if t.key.slot = slot then { t with poison := [] } else t
        (({ s with carrelPoison := s.carrelPoison.filter fun g => !mine.contains (g / 2 ^ 17) }).updJob slot fun j => { j with fenced := false }).serveWaiting
      else s)

/-- RECOVERY_EXHAUSTED (R376): a job with a position that cannot be recovered. -/
def execRecoveryExhausted (slot : Nat) (s : State) : Host.Outcome State Fault Refusal :=
  .next (match s.job? slot with
    | none => s
    | some j =>
      let lost := j.fenced || j.unlike || j.positions.any fun p => s.fabric.fenced.contains p
      let ended := match j.state with | .exhausted | .closing _ _ _ => true | _ => false
      if lost && !ended then
        let first := ((j.steps.head?).map (·.num)).getD j.body.nextStep
        let s := s.raiseJob 0x7106 slot first (j.key % 2 ^ 32) (j.key / 2 ^ 32) 0
        let s := (s.dropWorks fun w => w.slot == slot).updJob slot fun j => { j with state := .exhausted, fenced := false, filling := false, unlike := false, replay := [], decisions := [], signals := [] }
        j.steps.foldl (fun s x => s.exhaustStep slot x.num) s
      else s)

end Sys2Proof.Machine
end

