-- ==== Sys2Proof/Machine/PowerRows.lean ====
section
/-!
DEFINITION. Input power, rails, phases, temperature, die sleep, and the sideband inputs (R436 to R450, R477 to R483).
-/
namespace Sys2Proof.Machine
open Sys2Proof

def State.updPower (s : State) (f : Power → Power) : State := { s with power := f s.power }
def State.updBring (s : State) (f : BringUp → BringUp) : State := { s with bring := f s.bring }

/-! ### Rails down (R438, R483) -/

/-- A tile that has lost its carrel and everything held in it; its physical place and its loss stand. -/
def Tile.cleared (u : Tile) : Tile := { phys := u.phys, lost := u.lost }

/-- A Suesh port without power; the lanes found failed stand. -/
def Suesh.down (x : Suesh) : Suesh := { failed := x.failed }

/-- A queue whose port, store and bindings to a job are lost; its session and sequence numbers, which the keeper's side holds, stand. -/
def Queue.lost (x : Queue) : Queue := { ({} : Queue) with session := x.session, lastSeq := x.lastSeq, rspSeq := x.rspSeq }

/-- `PWR_GOOD` goes low and every rail but the keeper's is switched off: carrels, both tiers and all state held in them are lost (R438, R483). -/
def State.railsOff (s : State) : State :=
  let dict := s.dict.filter fun p => !within (entryKey 0x4010 0) (entryKey 0x4013 255) p.1
  { s with
    port := { s.port with width := 0, rate := 0, ide := 0, queues := s.port.queues.map fun p => (p.1, p.2.lost), inFlight := [] }
    jobs := []
    dict := dict
    blocks := s.blocks.filter fun b => b.job.isNone
    bring := { s.bring with pwrGood := false, trained := false, failedDevices := [], retrains := 0, initialised := false, windowOver := [], ready := false }
    power := { s.power with dies := List.replicate 4 .sleep }
    sec := { s.sec with switchHeld := [], switchDeposits := [] }
    tiers := { s.tiers with tiles := [], pass := false, readOrder := [], pageRuns := [], farReads := [] }
    dma := []
    rel := { s.rel with replays := [], retraining := [] }
    fabric := { s.fabric with ports := s.fabric.ports.map Suesh.down, assocs := [], outbox := [], requests := [], fenced := [], holders := [], folded := [],
                              ward := none, wardJobs := [], filling := none, unprotected := none }
    tileUnits := s.tileUnits.map Tile.cleared
    carrel := []
    carrelPoison := [] }

/-! ### The input (R436 to R438) -/

/-- BROWN_OUT (R436, R438): below 40.0 V for 50 µs, or at 60.0 V for 10 µs. -/
def execBrownOut (vin : Nat) (s : State) : Host.Outcome State Fault Refusal :=
  .next (if s.bring.pwrGood ∧ (vin < 40000 ∨ 60000 ≤ vin) then
      ((s.railsOff.updPower fun p => { p with vin := vin }).updBring fun b => { b with restartAfterBrownOut := true }).add 0xA000 4 1
    else s)

/-- EXTERNAL_POWER_LOST (R429, R438, R473): below 36 V the keeper stops too. What flash holds stands: retained values, of which the counters are in the
delta record as they last changed, and the conservation record. -/
def execExternalPowerLost (vin : Nat) (s : State) : Host.Outcome State Fault Refusal :=
  .next (if vin < 36000 ∧ s.bring.phase1 ≠ .off then
      let s := s.railsOff
      let counters := s.dict.filter fun p => keyRetained p.1 && (((findEntry (p.1 / 256) (p.1 % 256)).map fun e => e.access == .ro).getD false)
      { s with
        sessions := []
        port := { s.port with queues := [] }
        dict := counters
        blocks := []
        abandoned := []
        retainedWrites := []
        baseStaged := none
        bring := { s.bring with phase1 := .off, segment := false, announcedFailure := false, selfFenced := false, restartAfterBrownOut := false }
        power := { s.power with vin := vin, alertLow := false, alertHigh := false, alertLimit := false, alertKeeper := false, alertHot := [], hotThrottle := [],
                                thermTrip := false, tempQuiet := [] }
        sec := { s.sec with standby := .empty }
        seg := { s.seg with node := 0, csma := false, beaconSeen := false, dupLinkLocal := false, dupStatic := false }
        log := { seq := none, held := [], records := [], checkpoint := 0 }
        reply := none }
    else s)

/-- INPUT_LOW (R436). -/
def execInputLow (vin : Nat) (s : State) : Host.Outcome State Fault Refusal :=
  .next (if s.bring.phase1 ≠ .off ∧ s.power.alertLow = false ∧ vin < s.num 0xA020 1 then
      (s.updPower fun p => { p with vin := vin, alertLow := true }).raise 0xA001 .keeper 0 vin (s.num 0xA020 1) 0
    else s)

/-- INPUT_HIGH (R436). -/
def execInputHigh (vin : Nat) (s : State) : Host.Outcome State Fault Refusal :=
  .next (if s.bring.phase1 ≠ .off ∧ s.power.alertHigh = false ∧ s.num 0xA020 2 < vin then
      (s.updPower fun p => { p with vin := vin, alertHigh := true }).raise 0xA002 .keeper 0 vin (s.num 0xA020 2) 0
    else s)

/-- INPUT_WARNING_CLEARED (R436): each warning clears once the input is back 500 mV inside its threshold. -/
def execInputWarningCleared (vin : Nat) (s : State) : Host.Outcome State Fault Refusal :=
  .next (
    let low := s.power.alertLow && !decide (s.num 0xA020 1 + 500 ≤ vin)
    let high := s.power.alertHigh && !decide (vin + 500 ≤ s.num 0xA020 2)
    if low = s.power.alertLow ∧ high = s.power.alertHigh then s
    else s.updPower fun p => { p with vin := vin, alertLow := low, alertHigh := high })

/-- CURRENT_LIMIT (R437): what the input draws, mA and W, and for how many ticks a limit has bound; `ALERT_N` stands while one binds. -/
def execCurrentLimit (amps watts ticks : Nat) (s : State) : Host.Outcome State Fault Refusal :=
  .next (if s.bring.phase1 = .off then s
    else
      let binds := decide (48000 ≤ amps ∨ s.num 0xA030 1 ≤ watts)
      let s := (s.setNum 0xA000 2 (watts % 2 ^ 32)).setNum 0xA000 3 (max (s.num 0xA000 3) (watts % 2 ^ 32))
      (if binds then s.add 0xA030 2 ticks else s).updPower fun p => { p with alertLimit := binds })

/-! ### Phases (R445) -/

/-- Phases a rail needs (Table 23-5). -/
def phasesNeeded (rail : Nat) : Nat := nth [15, 15, 15, 15, 3, 2, 2, 2, 2, 1] rail

/-- Whether a rail with these phases left ends the module's service: below 13 on a compute rail, short of its need on any other. -/
def phasesFail (rail left : Nat) : Bool := if rail < 4 then decide (left < 13) else decide (left < phasesNeeded rail)

/-- PHASE_LOST (R445). -/
def execPhaseLost (rail phase : Nat) (s : State) : Host.Outcome State Fault Refusal :=
  .next (
    let n := nth s.power.phases rail
    if rail < 10 ∧ 0 < n then
      let s : State := { s with power := { s.power with phases := s.power.phases.set rail (n - 1) }, day := { s.day with phasesLost := s.day.phasesLost + 1 } }
      let s := s.raise 0xA003 .keeper 0 rail phase (n - 1)
      if phasesFail rail (n - 1) then s.announceFailure else s
    else s)

/-! ### Temperature (R446) -/

/-- Sensors of a reading that meet a condition, in order. -/
def sensorsWhere (temps : List Int) (p : Int → Bool) : List Nat := (List.range temps.length).filter fun i => p (temps.getD i 0)

/-- THERMAL_SAMPLE (R446): the millisecond's reading of the 48 sensors, m°C. -/
def execThermalSample (temps : List Int) (s : State) : Host.Outcome State Fault Refusal :=
  .next (if temps.length ≠ 48 ∨ s.bring.phase1 = .off then s
    else
      let warn := signed 32 (s.num 0xA050 1)
      let hot := sensorsWhere temps fun t => decide (warn ≤ t)
      let quiet := (s.power.tempQuiet.map fun p => (p.1, p.2 - 1)).filter fun p => decide (0 < p.2)
      let news := hot.filter fun i => !(quiet.any fun p => p.1 == i)
      let throttle := (List.range 48).filter fun i =>
        decide (105000 ≤ temps.getD i 0) || (s.power.hotThrottle.contains i && decide (100000 ≤ temps.getD i 0))
      let s : State := { s with
        power := { s.power with temps := temps, alertHot := hot, hotThrottle := throttle, tempQuiet := quiet ++ news.map fun i => (i, 1000) }
        day := { s.day with tempMax := temps.foldl max s.day.tempMax } }
      let s := news.foldl (fun s i => s.raise 0xA004 .keeper 0 i (unsigned 32 (temps.getD i 0)) 0) s
      if (temps.any fun t => decide (115000 ≤ t)) && !s.power.thermTrip then
        (s.railsOff.updPower fun p => { p with thermTrip := true }).add 0xA050 3 1
      else s)

/-! ### Outputs (R446, R448, R477) -/

/-- `PWR_GOOD` is high: every rail is in regulation. -/
def State.pwrGoodPin (s : State) : Bool := s.bring.pwrGood

/-- `ALERT_N` is asserted: a warning or a limit stands, or the keeper has failed its own check (R465). -/
def State.alertPin (s : State) : Bool :=
  s.power.alertLow || s.power.alertHigh || s.power.alertLimit || s.power.alertKeeper || !s.power.alertHot.isEmpty || !s.power.hotThrottle.isEmpty

/-- `THERM_TRIP_N` is asserted. -/
def State.thermTripPin (s : State) : Bool := s.power.thermTrip

/-! ### Dies (R441 to R444) -/

/-- Whether a DMA address lies in a die's near stacks or its tiles' carrels (Table 15-3). -/
def dmaOnDie (kind a d : Nat) : Bool := (kind == 0 && bits a 63 59 / 2 == d) || (kind == 2 && bits a 58 51 / 64 == d)

/-- Whether a request is outstanding to a die's stacks or across its links (R442): a tile moving to or from them, or a descriptor under way. -/
def State.dieAsked (s : State) (d : Nat) : Bool :=
  (s.tiers.tiles.any fun t => t.pair == d && (t.promoting || t.evicting)) ||
    s.dma.any fun p => p.2.state == .active && match p.2.current with
      | some (x, _) => dmaOnDie x.srcKind x.src d || dmaOnDie x.dstKind x.dst d
      | none => false

/-- Whether a die may sleep: no work item on its tiles, no weight-late wait, no request outstanding, no retirement (R442). -/
def State.dieIdle (s : State) (d : Nat) : Bool :=
  !s.dieAsked d && ((s.tileUnits.drop (64 * d)).take 64).all fun u =>
    u.works.isEmpty && u.late.isEmpty && u.retiring.isNone && u.queue.isEmpty && u.slips.all fun p => p.2.state != .issued && p.2.state != .partly

/-- The module is keeper-only (R444): every die sleeps, and no command, descriptor, migration or fabric message is in progress. -/
def State.keeperOnly (s : State) : Bool :=
  s.power.dies.all (· == .sleep) && s.port.inFlight.isEmpty && (s.dma.all fun p => p.2.current.isNone && p.2.posted.isEmpty) &&
    (s.tiers.tiles.all fun t => !t.promoting && !t.evicting) && s.fabric.outbox.isEmpty && s.fabric.requests.isEmpty &&
    s.fabric.assocs.all fun a => a.store.isEmpty && a.landing.isEmpty

/-- DIE_SLEEP (R442). -/
def execDieSleep (d : Nat) (s : State) : Host.Outcome State Fault Refusal :=
  .next (if decide (d < 4) && s.dieAwake d && s.dieIdle d then s.updPower fun p => { p with dies := p.dies.set d .sleep } else s)

/-- DIE_WAKE (R443): a dispatch or a request has reached the sleeping die. -/
def execDieWake (d : Nat) (s : State) : Host.Outcome State Fault Refusal :=
  .next (if d < 4 ∧ s.bring.pwrGood ∧ s.power.dies.getD d .sleep = .sleep then
      (s.updPower fun p => { p with dies := p.dies.set d .waking }).add 0xA010 6 1
    else s)

/-- DIE_WAKE_COMPLETE (R443): `waits` work items had their inputs ready before. -/
def execDieWakeComplete (d waits : Nat) (s : State) : Host.Outcome State Fault Refusal :=
  .next (if d < 4 ∧ s.power.dies.getD d .sleep = .waking then
      (s.updPower fun p => { p with dies := p.dies.set d .awake }).add 0xA010 7 waits
    else s)

/-! ### Clocks and sideband inputs (R440, R447, R448) -/

/-- REFCLK_LOSS (R440): a loss of the CXL link (R271). -/
def execRefclkLoss (s : State) : Host.Outcome State Fault Refusal := .next (if 0 < s.port.width then s.portReset else s)

/-- SUESH_REFCLK_LOSS (R440, R309): every port that is up goes down. -/
def execSueshRefclkLoss (s : State) : Host.Outcome State Fault Refusal :=
  .next ((List.range 12).foldl (fun s p =>
    if (s.suesh p).width = 0 then s else s.portDown p (s.suesh p).failed) s)

/-- PWR_EN_ASSERT (R448). -/
def execPwrEnAssert (s : State) : Host.Outcome State Fault Refusal := .next (s.updPower fun p => { p with pwrEn := true })

/-- PWR_EN_DEASSERT (R448, R475, Table 23-7): after ready the module announces its failure; an armed switch is cancelled; the rails go down. -/
def execPwrEnDeassert (s : State) : Host.Outcome State Fault Refusal :=
  .next (
    let s := s.updPower fun p => { p with pwrEn := false }
    if s.bring.ready then s.announceFailure.disarm.railsOff
    else if s.bring.pwrGood then s.disarm.railsOff
    else s)

/-- POS_ADDR_CHANGE (R406, R447): the debounced straps. -/
def execPosAddrChange (v : BitVec 6) (s : State) : Host.Outcome State Fault Refusal :=
  .next (
    let s := s.updPower fun p => { p with posAddr := v }
    if s.bring.segment then s.takeNode else s)

end Sys2Proof.Machine
end

