-- ==== Sys2Proof/Machine/BringUpRows.lean ====
section
/-!
DEFINITION. From power to ready: keeper start, the management segment, rails, memory, the ready event (R405 to R408, R462 to R475), and the live firmware
switch (R400 to R402).
-/
namespace Sys2Proof.Machine
open Sys2Proof

/-! ### Phase 1 (R465) -/

/-- Retained values at keeper start (R429): the delta record, else the base record, else none; with no delta record, the counters are lost too. -/
def State.startValues (s : State) (delta : Option DeltaCopy) (base : Option BaseRecord) : List (Nat × DVal) :=
  let b := match base with | some r => r.values ++ [(entryKey 0x8020 1, DVal.blk r.operator)] | none => []
  let d := match delta with | some c => c.values | none => []
  let d := d.filter fun p => !(base.isNone && p.1 == entryKey 0x8020 1)
  let counters := if delta.isSome then s.dict else []
  counters.foldl (fun l p => aSet l p.1 p.2) (d.foldl (fun l p => aSet l p.1 p.2) (b.foldl (fun l p => aSet l p.1 p.2) []))

/-- Number the events held until the sequence was fixed, in the order they were raised (R465). -/
def State.releaseHeld (s : State) : State :=
  let l := s.log.held
  l.foldl (fun s e => s.record e none) { s with log := { s.log with held := [] } }

/-- Try the slots in order (R385): a rejected one raises 0x8002; the first that passes runs. -/
def State.trySlots (s : State) : List (Nat × Bool × Bool × Bool) → State
  | [] => s.updBring fun b => { b with phase1 := .heldSlots }
  | (slot, chainOk, sigOk, digestOk) :: rest =>
    match s.imageFails (s.flash.slot slot) chainOk sigOk digestOk with
    | none => (s.runImage slot).updBring fun b => { b with phase1 := .done }
    | some k => (s.raise 0x8002 .security 0 slot k 0).trySlots rest

/-- Step 6 (R385, R465): the active slot, then the other. -/
def State.startFirmware (s : State) (v : StartVerdicts) : State :=
  let a := s.activeSlot
  let of (n : Nat) : Bool × Bool × Bool := if n = 0 then v.slotA else v.slotB
  s.trySlots [(a, of a), (1 - a, of (1 - a))]

/-- Steps 3 to 5 (R465): the records in force, the retained values, the event sequence; the rest only with a sequence. -/
def State.startRecords (s : State) (v : StartVerdicts) : State :=
  let f : Flash := { s.flash with
    deltaA := { s.flash.deltaA with valid := s.flash.deltaA.valid && v.deltaA }, deltaB := { s.flash.deltaB with valid := s.flash.deltaB.valid && v.deltaB },
    consA := { s.flash.consA with valid := s.flash.consA.valid && v.consA }, consB := { s.flash.consB with valid := s.flash.consB.valid && v.consB },
    base := if v.base then s.flash.base else none }
  let badBase := s.flash.base.isSome && !v.base
  let f : Flash := { f with daily := match f.cons with | some c => f.daily.take c.count | none => [] }
  let dict := s.startValues f.delta f.base
  let (n, s) := draw s
  let m4 := match f.base with | some b => bytes64 (Config.sha512 b.bytes) | none => State.noDigest
  let m := ((s.sec.measures.set 0 (bytes64 (Config.openBits 31 0))).set 3 m4).set 4 (bytes64 (Config.freeNat n))
  let s : State := { s with flash := f, dict := dict, sec := { s.sec with claimed := f.base.isSome, measures := m } }
  let s := if f.delta.isNone then s.raise 0x8007 .security 0 1 0 0 else s
  let s := if badBase then s.raise 0x8007 .security 0 0 0 0 else s
  match ((f.cons.bind (·.eventSeq)).toList ++ (f.delta.bind (·.eventSeq)).toList).max? with
  | none => s.updBring fun b => { b with phase1 := .heldSequence }
  | some c =>
    let s : State := { s with log := { s.log with seq := some (c + 4096), checkpoint := c } }
    s.releaseHeld.startFirmware v

/-- KEEPER_START (R463, R465): `VIN` has stood above 46 V for 100 ms. -/
def execKeeperStart (vin : Nat) (v : StartVerdicts) (s : State) : Host.Outcome State Fault Refusal :=
  .next (if s.bring.phase1 = .off ∧ 46000 < vin then
      let s : State := { s with power := { s.power with vin := vin }, day := { s.day with keeperStarts := s.day.keeperStarts + 1, pathMin := [65535, 65535, 65535, 65535] } }
      if v.keeper = false then (s.updBring fun b => { b with phase1 := .stopped }).updPower fun p => { p with alertKeeper := true }
      else if v.identity = false then (s.updBring fun b => { b with phase1 := .heldIdentity }).raise 0x8001 .security 0 0 0 0
      else ({ s with sec := { s.sec with identityDigest := bytes64 Config.identityDigest } }).startRecords v
    else s)

/-! ### Phase 2: the segment (R405 to R408, R466) -/

def State.updSeg (s : State) (f : Segment → Segment) : State := { s with seg := f s.seg }

/-- Whether the static address is set (R408). -/
def State.hasStatic (s : State) : Bool := (s.entry 0x2110 2).toBytes.any (· != 0)

/-- An address is found duplicated: it is not used (R408). -/
def State.duplicate (s : State) (static : Bool) : State :=
  (s.updSeg fun g => if static then { g with dupStatic := true } else { g with dupLinkLocal := true }).raise 0x2104 .keeper 0 (if static then 1 else 0) 0 0

/-- Whether the module uses an address of its own: link-local, or `static` (R408). -/
def State.usesAddress (s : State) (static : Bool) : Bool :=
  s.bring.segment && s.seg.node != 0 && (if static then s.hasStatic && !s.seg.dupStatic else !s.seg.dupLinkLocal)

/-- No beacon for 1 s (R407). -/
def State.beaconLost (s : State) : State := (s.updSeg fun g => { g with csma := true, beaconSeen := false }).raise 0x2102 .keeper 0 0 0 0

/-- SEGMENT_JOIN (R466): the node id, duplicate detection on each address, and the beacon. -/
def execSegmentJoin (dupLinkLocal dupStatic beacon : Bool) (s : State) : Host.Outcome State Fault Refusal :=
  .next (if s.bring.phase1 = .done ∧ s.bring.segment = false then
      let n := s.chosenNode
      let s := (s.updSeg fun _ => { node := n, csma := false, beaconSeen := beacon, dupLinkLocal := false, dupStatic := false }).updBring fun b =>
        { b with segment := true }
      let s := if n = 0 then s.raise 0x2101 .keeper 0 (if s.num 0x2100 1 = 0 then 0 else 1) 0 0 else s
      let s := if dupLinkLocal then s.duplicate false else s
      let s := if dupStatic && s.hasStatic then s.duplicate true else s
      if beacon then s else s.beaconLost
    else s)

/-- BEACON_LOST (R407). -/
def execBeaconLost (s : State) : Host.Outcome State Fault Refusal := .next (if s.bring.segment && !s.seg.csma then s.beaconLost else s)

/-- BEACON_SEEN (R407): back to PLCA. -/
def execBeaconSeen (s : State) : Host.Outcome State Fault Refusal :=
  .next (if s.bring.segment then s.updSeg fun g => { g with csma := false, beaconSeen := true } else s)

/-- NEIGHBOUR_SOLICITATION (R408): for one of the module's addresses; another node's own solicitation for it reveals a duplicate. -/
def execNeighbourSolicitation (static duplicate : Bool) (s : State) : Host.Outcome State Fault Refusal :=
  .next (if s.usesAddress static then (if duplicate then s.duplicate static else { s with reply := some .neighbour }) else s)

/-- ICMPV6_ECHO (R408). -/
def execIcmpv6Echo (static : Bool) (data : List Byte) (s : State) : Host.Outcome State Fault Refusal :=
  .next (if s.usesAddress static then { s with reply := some (.echo data) } else s)

/-! ### Phase 3: rails and memory (R467, R482) -/

/-- Offsets, clocks and refresh rates of the newest daily record (R353, R453, R467). -/
def State.resumePlan (s : State) : State :=
  match s.flash.daily.getLast? with
  | none => s
  | some r =>
    let s := (List.range 4).foldl (fun (s : State) (d : Nat) =>
      (s.setNum 0x9000 (1 + d) (recField r (103 + 8 * d) (96 + 8 * d))).setNum 0x9000 (5 + d) (recField r (143 + 16 * d) (128 + 16 * d))) s
    { s with day := { s.day with refreshBase := (List.range 26).map (fun d => recField r (385 + 2 * d) (384 + 2 * d)), refreshBanks := [] } }

/-- RAIL_UP (R463, R473, R482): phase 1 done, `PWR_EN` asserted, `VIN` above 46 V for 100 ms, and after a thermal trip every sensor below 85 °C. -/
def execRailUp (vin : Nat) (s : State) : Host.Outcome State Fault Refusal :=
  .next (
    let cool := !s.power.thermTrip || s.power.temps.all fun t => decide (t < 85000)
    if s.bring.phase1 = .done ∧ s.power.pwrEn ∧ s.bring.pwrGood = false ∧ 46000 < vin ∧ cool then
      let s := (s.updPower fun p => { p with vin := vin, thermTrip := false, dies := List.replicate 4 .awake }).resumePlan
      let failed := (List.range 10).any fun r => phasesFail r (nth s.power.phases r)
      s.updBring fun b => { b with pwrGood := true, restartAfterBrownOut := false, announcedFailure := failed, windowOver := [] }
    else s)

/-- Usable MiB of the devices of a tier that have trained (R10, R11, R467). -/
def trainedMib (tier : Nat) (failed : List Nat) : Nat :=
  let n := (failed.filter fun d => tierOf d == tier).length
  if tier = 0 then 98304 * (8 - n) else 1536 * 1024 * (18 - n) / 18

/-- Report each tier that devices have failed in (R467). -/
def State.wornTiers (s : State) (failed : List Nat) : State :=
  ([0, 1].filter fun t => failed.any fun d => tierOf d == t).foldl (fun s t => s.raise 0x7005 .memory 0 t (trainedMib t failed) 0) s

/-- MEMORY_TRAINED (R467): the devices, 0 to 7 `H0` to `H7` and 8 to 25 `L0` to `L17`, that failed all three attempts; none ends phase 3. -/
def execMemoryTrained (failed : List Nat) (s : State) : Host.Outcome State Fault Refusal :=
  .next (if s.bring.pwrGood ∧ s.bring.trained = false ∧ s.bring.failedDevices = [] ∧ failed.all (· < 26) then
      (s.updBring fun b => { b with trained := failed.isEmpty, failedDevices := failed, retrains := 0 }).wornTiers failed
    else s)

/-- MEMORY_RETRAIN (R467): the failed devices train again, every 60 s; those still failing are reported once an hour. -/
def execMemoryRetrain (still : List Nat) (s : State) : Host.Outcome State Fault Refusal :=
  .next (if s.bring.pwrGood ∧ s.bring.failedDevices ≠ [] then
      let left := s.bring.failedDevices.filter still.contains
      let n := s.bring.retrains + 1
      let s := s.updBring fun b => { b with trained := left.isEmpty, failedDevices := left, retrains := n % 60 }
      if n % 60 = 0 then s.wornTiers left else s
    else s)

/-! ### Phase 6 (R470) -/

/-- A row that fails the memory test is repaired or retired (R351, R470): device, bank, row, device granule and bytes. -/
def State.repairRow (s : State) (r : Nat × Nat × Nat × Nat × Nat) : State :=
  let (device, bank, row, loc, bytes) := r
  if 26 ≤ device then s
  else if s.bankLeft device bank = 0 then s.retireRow device bank row loc bytes
  else ((s.useResource device bank).add 0x7010 1 1).raise 0x7003 .memory 0 (loc % 2 ^ 32) (loc / 2 ^ 32) 0

/-- Whether a retirement still owed would take a tier below its floor. -/
def State.mustHold (s : State) (r : Nat × Nat × Nat × Nat × Nat) : Bool :=
  decide (r.1 < 26) && s.bankLeft r.1 r.2.1 == 0 && decide (s.usable (tierOf r.1) < usableFloor (tierOf r.1) + r.2.2.2.2)

/-- Repair every failing row; whether a tier holds bring-up. -/
def State.repairRows (s : State) (l : List (Nat × Nat × Nat × Nat × Nat)) : State × Bool :=
  l.foldl (fun (acc : State × Bool) r => (acc.1.repairRow r, acc.2 || acc.1.mustHold r)) (s, false)

/-- A physical tile fails its self-check vectors (R470): a spare leaves the spares, an active tile is replaced or lost (R62, R65). -/
def State.failTile (s : State) (die phys : Nat) : State :=
  let s := s.add 0x7020 2 1
  let spares := s.spares.getD die []
  if spares.contains phys then { s with spares := s.spares.set die (spares.filter (· != phys)) }
  else match (List.range 64).find? fun i => (s.unit (64 * die + i)).phys == phys && !(s.unit (64 * die + i)).lost with
    | none => s
    | some i =>
      match spares with
      | [] => s.loseTile (64 * die + i) 1
      | sp :: rest =>
        ({ s with spares := s.spares.set die rest }).updUnit (64 * die + i) (fun u => { u with phys := sp }) |>.raise 0x4001 .tile (64 * die + i) 1 phys sp

/-- MEMORY_INIT (R470): both tiers are written with zeros and tested; `rows` fail the test, `banks` are the retention baseline as device, bank, failure
time and refresh interval, and `tiles` fail their self-check, as die and physical tile. -/
def execMemoryInit (rows : List (Nat × Nat × Nat × Nat × Nat)) (banks : List (Nat × Nat × Nat × Nat)) (tiles : List (Nat × Nat)) (s : State) :
    Host.Outcome State Fault Refusal :=
  .next (if s.bring.trained ∧ s.bring.initialised = false then
      let s : State := { s with tiers := { s.tiers with tiles := [], pass := false, readOrder := [], pageRuns := [], farReads := [] }, carrel := [], carrelPoison := [],
                                rel := { s.rel with rows := [] } }
      let (s, hold) := s.repairRows rows
      if hold then s
      else
        let s := banks.foldl (fun s b => s.retentionTest b.1 b.2.1 b.2.2.1 b.2.2.2) s
        let s := tiles.foldl (fun s t => if t.1 < 4 then s.failTile t.1 t.2 else s) s
        s.updBring fun b => { b with initialised := true }
    else s)

/-- MODULE_READY (R471): no phase is holding, and every Suesh port has trained or its window has ended (R469). -/
def execModuleReady (ms : Nat) (s : State) : Host.Outcome State Fault Refusal :=
  .next (if s.bring.phase1 = .done ∧ s.bring.pwrGood ∧ s.bring.trained ∧ s.bring.initialised ∧ s.bring.ready = false
        ∧ (List.range 12).all fun p => decide (0 < (s.suesh p).width) || s.bring.windowOver.contains p then
      let s := (s.mapQueues fun _ x => { x with busy := 0 }).updBring fun b => { b with ready := true }
      s.raise 0x1001 .keeper 0 ms s.sec.numericsGen 0
    else s)

/-! ### The live switch (R401, R402) -/

/-- Whether a job has come to its step boundary: no step accepted and not completed has begun. -/
def Job.drained (j : Job) : Bool := j.steps.all fun x => x.dispatched.isEmpty

/-- A job's log starts anew at the Deposit its module took before a switch to another numerics generation (R37, R401). DEDUCED: what was accepted after that Deposit,
and every step it left to come, belongs to the new log, since nothing of it has been performed under the old generation. -/
def Job.newLog (j : Job) (gen : Nat) : Job :=
  let kept := match j.deposit with | some d => j.keptLog d | none => j.log
  { j with log := kept.map fun r => { r with gen := gen } }

/-- The new image passes its start checks or is rejected; dispatch resumes either way (R401, R402). -/
def State.switchOver (s : State) (startOk : Bool) : State :=
  let old := s.sec.runningSlot
  let new := s.otherSlot
  let oldVersion := s.sec.imageVersion
  let oldGen := s.sec.numericsGen
  let version := imageField (s.flash.slot new) 127 96
  let gen := imageField (s.flash.slot new) 63 48
  let s : State := { s with sec := { s.sec with switchHeld := [], switchDeposits := [] } }
  if startOk then
    let s := s.runImage new
    let s : State := { s with sec := { s.sec with standby := .empty, measures := s.sec.measures.set 5 (zeros 64) } }
    let s := s.add 0x8040 4 1
    let s := s.rewriteDelta new ((s.flash.delta).bind (·.eventSeq))
    let s : State := if gen = oldGen then s else { s with jobs := s.jobs.map fun j => j.newLog gen }
    s.raise 0x8003 .security 0 oldVersion version (oldGen * 2 ^ 16 + gen)
  else
    ({ s with sec := { s.sec with standby := .rejected, runningSlot := old } }).raise 0x8004 .security 0 version 0 0

/-- FIRMWARE_SWITCH (R401, R402): an armed switch holds every job at its next step boundary, takes a Deposit of each, and once these allow it hands control to
the new image. -/
def execFirmwareSwitch (startOk : Bool) (now : Nat) (s : State) : Host.Outcome State Fault Refusal :=
  .next (if s.sec.standby ≠ .armed then s
    else
      let s : State := { s with sec := { s.sec with switchHeld := s.jobs.map (·.slot) } }
      if !(s.jobs.all Job.drained) then s
      else
        let due := (s.jobs.filter fun j => !s.sec.switchDeposits.contains j.slot).map (·.slot)
        if due ≠ [] then
          if s.jobs.any fun j => due.contains j.slot && j.taking.isSome then s
          else
            let s := due.foldl (fun s i => s.startDeposit i now) s
            { s with sec := { s.sec with switchDeposits := s.jobs.map (·.slot) } }
        else
          let gen := imageField (s.flash.slot s.otherSlot) 63 48
          if gen ≠ s.sec.numericsGen && s.jobs.any (·.taking.isSome) then s
          else s.switchOver startOk)

end Sys2Proof.Machine
end

