-- ==== Sys2Proof/Machine/Dispatch.lean ====
section
/-!
DEFINITION. One arm per command: which meaning runs it.
-/
namespace Sys2Proof.Machine
open Sys2Proof

/-- The effect of a command on everything but the queue of commands. -/
def exec (i : Instr) (s : State) : Host.Outcome State Fault Refusal :=
  match i with
  | .jobOpen q => Sys2Proof.Machine.execJobOpen q s
  | .jobResume q => Sys2Proof.Machine.execJobResume q s
  | .jobClose q => Sys2Proof.Machine.execJobClose q s
  | .tableCreate q => Sys2Proof.Machine.execTableCreate q s
  | .tableLoad q => Sys2Proof.Machine.execTableLoad q s
  | .tableLoadAnnex q => Sys2Proof.Machine.execTableLoadAnnex q s
  | .editionPublish q => Sys2Proof.Machine.execEditionPublish q s
  | .discard q => Sys2Proof.Machine.execDiscard q s
  | .shelfReplace q => Sys2Proof.Machine.execShelfReplace q s
  | .shelfAdd q => Sys2Proof.Machine.execShelfAdd q s
  | .shelfRemove q => Sys2Proof.Machine.execShelfRemove q s
  | .graphLoad q => Sys2Proof.Machine.execGraphLoad q s
  | .featureLoad q => Sys2Proof.Machine.execFeatureLoad q s
  | .stepSubmit q => Sys2Proof.Machine.execStepSubmit q s
  | .rowSupply q => Sys2Proof.Machine.execRowSupply q s
  | .rowSupplyAck q => Sys2Proof.Machine.execRowSupplyAck q s
  | .resultRead q => Sys2Proof.Machine.execResultRead q s
  | .resultRelease q => Sys2Proof.Machine.execResultRelease q s
  | .paramRead q => Sys2Proof.Machine.execParamRead q s
  | .paramWrite q => Sys2Proof.Machine.execParamWrite q s
  | .depositExport q => Sys2Proof.Machine.execDepositExport q s
  | .depositImport q tagsOk signed gen tenant d => Sys2Proof.Machine.execDepositImport q tagsOk signed gen tenant d s
  | .dictRead q => Sys2Proof.Machine.execDictRead q s
  | .dictWrite q => Sys2Proof.Machine.execDictWrite q s
  | .dictReadBlock q => Sys2Proof.Machine.execDictReadBlock q s
  | .dictWriteBlock q => Sys2Proof.Machine.execDictWriteBlock q s
  | .eventAck q => Sys2Proof.Machine.execEventAck q s
  | .nop q => Sys2Proof.Machine.execNop q s
  | .doorbell q value => Sys2Proof.Machine.execDoorbell q value s
  | .packetTake q plain => Sys2Proof.Machine.execPacketTake q plain s
  | .ringEnable q value => Sys2Proof.Machine.execRingEnable q value s
  | .ringHead q value => Sys2Proof.Machine.execRingHead q value s
  | .queueRegisterWrite q off value => Sys2Proof.Machine.execQueueRegisterWrite q off value s
  | .responseWrite q => Sys2Proof.Machine.execResponseWrite q s
  | .ringFull q => Sys2Proof.Machine.execRingFull q s
  | .chainGapTimeout q => Sys2Proof.Machine.execChainGapTimeout q s
  | .perstAssert => Sys2Proof.Machine.execPerstAssert s
  | .cxlLinkTrained width rate => Sys2Proof.Machine.execCxlLinkTrained width rate s
  | .linkDegraded width rate => Sys2Proof.Machine.execLinkDegraded width rate s
  | .getVersion => Sys2Proof.Machine.execGetVersion s
  | .getCapabilities => Sys2Proof.Machine.execGetCapabilities s
  | .negotiateAlgorithms => Sys2Proof.Machine.execNegotiateAlgorithms s
  | .getDigests => Sys2Proof.Machine.execGetDigests s
  | .getCertificate off len => Sys2Proof.Machine.execGetCertificate off len s
  | .challenge => Sys2Proof.Machine.execChallenge s
  | .getMeasurements index => Sys2Proof.Machine.execGetMeasurements index s
  | .keyExchange => Sys2Proof.Machine.execKeyExchange s
  | .finish id ok => Sys2Proof.Machine.execFinish id ok s
  | .endSession id => Sys2Proof.Machine.execEndSession id s
  | .heartbeat id => Sys2Proof.Machine.execHeartbeat id s
  | .spdmKeyUpdate id => Sys2Proof.Machine.execSpdmKeyUpdate id s
  | .sessionHeartbeatExpired id => Sys2Proof.Machine.execSessionHeartbeatExpired id s
  | .baseRecordWrite record sigOk => Sys2Proof.Machine.execBaseRecordWrite record sigOk s
  | .deltaRecordCommit => Sys2Proof.Machine.execDeltaRecordCommit s
  | .standbyImageWrite v => Sys2Proof.Machine.execStandbyImageWrite v s
  | .verify v chainOk sigOk digestOk => Sys2Proof.Machine.execVerify v chainOk sigOk digestOk s
  | .arm v => Sys2Proof.Machine.execArm v s
  | .cancel v => Sys2Proof.Machine.execCancel v s
  | .firmwareSwitch startOk now => Sys2Proof.Machine.execFirmwareSwitch startOk now s
  | .roleMapWrite q => Sys2Proof.Machine.execRoleMapWrite q s
  | .fabricPositionWrite v => Sys2Proof.Machine.execFabricPositionWrite v s
  | .workItemDispatch tile half w => Sys2Proof.Machine.execWorkItemDispatch tile half w s
  | .stepEndPass tile half w => Sys2Proof.Machine.execStepEndPass tile half w s
  | .instanceComplete tile w ord => Sys2Proof.Machine.execInstanceComplete tile w ord s
  | .sample tile w => Sys2Proof.Machine.execSample tile w s
  | .gather tile w => Sys2Proof.Machine.execGather tile w s
  | .scatter tile w => Sys2Proof.Machine.execScatter tile w s
  | .matmul tile w => Sys2Proof.Machine.execMatmul tile w s
  | .spmm tile w => Sys2Proof.Machine.execSpmm tile w s
  | .copy tile w => Sys2Proof.Machine.execCopy tile w s
  | .add tile w => Sys2Proof.Machine.execAdd tile w s
  | .sub tile w => Sys2Proof.Machine.execSub tile w s
  | .mul tile w => Sys2Proof.Machine.execMul tile w s
  | .fma tile w => Sys2Proof.Machine.execFma tile w s
  | .min tile w => Sys2Proof.Machine.execMin tile w s
  | .max tile w => Sys2Proof.Machine.execMax tile w s
  | .abs tile w => Sys2Proof.Machine.execAbs tile w s
  | .neg tile w => Sys2Proof.Machine.execNeg tile w s
  | .exp tile w => Sys2Proof.Machine.execExp tile w s
  | .log tile w => Sys2Proof.Machine.execLog tile w s
  | .recip tile w => Sys2Proof.Machine.execRecip tile w s
  | .sqrt tile w => Sys2Proof.Machine.execSqrt tile w s
  | .rsqrt tile w => Sys2Proof.Machine.execRsqrt tile w s
  | .tanh tile w => Sys2Proof.Machine.execTanh tile w s
  | .sigmoid tile w => Sys2Proof.Machine.execSigmoid tile w s
  | .cmpLt tile w => Sys2Proof.Machine.execCmpLt tile w s
  | .cmpLe tile w => Sys2Proof.Machine.execCmpLe tile w s
  | .cmpEq tile w => Sys2Proof.Machine.execCmpEq tile w s
  | .cmpNe tile w => Sys2Proof.Machine.execCmpNe tile w s
  | .rsum tile w => Sys2Proof.Machine.execRsum tile w s
  | .rsumsq tile w => Sys2Proof.Machine.execRsumsq tile w s
  | .rmax tile w => Sys2Proof.Machine.execRmax tile w s
  | .rmin tile w => Sys2Proof.Machine.execRmin tile w s
  | .ramax tile w => Sys2Proof.Machine.execRamax tile w s
  | .perm tile w => Sys2Proof.Machine.execPerm tile w s
  | .bcast tile w => Sys2Proof.Machine.execBcast tile w s
  | .vcompress tile w => Sys2Proof.Machine.execVcompress tile w s
  | .vexpand tile w => Sys2Proof.Machine.execVexpand tile w s
  | .softmaxRow tile w => Sys2Proof.Machine.execSoftmaxRow tile w s
  | .softmaxStats tile w => Sys2Proof.Machine.execSoftmaxStats tile w s
  | .softmaxApply tile w => Sys2Proof.Machine.execSoftmaxApply tile w s
  | .convert tile w => Sys2Proof.Machine.execConvert tile w s
  | .compress tile w => Sys2Proof.Machine.execCompress tile w s
  | .update tile w => Sys2Proof.Machine.execUpdate tile w s
  | .wait tile w => Sys2Proof.Machine.execWait tile w s
  | .signal tile w => Sys2Proof.Machine.execSignal tile w s
  | .loop tile w => Sys2Proof.Machine.execLoop tile w s
  | .signalDeliver slot index pick => Sys2Proof.Machine.execSignalDeliver slot index pick s
  | .waitLong tile w ord => Sys2Proof.Machine.execWaitLong tile w ord s
  | .tileRetire tile reason errors => Sys2Proof.Machine.execTileRetire tile reason errors s
  | .spareStart tile => Sys2Proof.Machine.execSpareStart tile s
  | .selfCheck tile ok => Sys2Proof.Machine.execSelfCheck tile ok s
  | .slipIssue tile w => Sys2Proof.Machine.execSlipIssue tile w s
  | .slipLand tile n => Sys2Proof.Machine.execSlipLand tile n s
  | .slipReissue tile n => Sys2Proof.Machine.execSlipReissue tile n s
  | .rowCallClose slot call => Sys2Proof.Machine.execRowCallClose slot call s
  | .rowCallResend slot call => Sys2Proof.Machine.execRowCallResend slot call s
  | .annexStalled slot call => Sys2Proof.Machine.execAnnexStalled slot call s
  | .ledgerAdd slot step index => Sys2Proof.Machine.execLedgerAdd slot step index s
  | .ledgerRangeCheck slot step space id => Sys2Proof.Machine.execLedgerRangeCheck slot step space id s
  | .updateApply slot step layer => Sys2Proof.Machine.execUpdateApply slot step layer s
  | .layerRelease slot step layer => Sys2Proof.Machine.execLayerRelease slot step layer s
  | .stepComplete slot step => Sys2Proof.Machine.execStepComplete slot step s
  | .refresh slot step => Sys2Proof.Machine.execRefresh slot step s
  | .layerCheck slot step layer mb => Sys2Proof.Machine.execLayerCheck slot step layer mb s
  | .scaleUpdate slot step tensor => Sys2Proof.Machine.execScaleUpdate slot step tensor s
  | .stuckZeroWatch slot step => Sys2Proof.Machine.execStuckZeroWatch slot step s
  | .branchRebalance slot vstage work => Sys2Proof.Machine.execBranchRebalance slot vstage work s
  | .spaceStalled slot step => Sys2Proof.Machine.execSpaceStalled slot step s
  | .poolEvictionPass => Sys2Proof.Machine.execPoolEvictionPass s
  | .promotion kind die group step k => Sys2Proof.Machine.execPromotion kind die group step k s
  | .moveCommit k => Sys2Proof.Machine.execMoveCommit k s
  | .dmaPost c d => Sys2Proof.Machine.execDmaPost c d s
  | .dmaTimer c i0 => Sys2Proof.Machine.execDmaTimer c i0 s
  | .dmaComplete c => Sys2Proof.Machine.execDmaComplete c s
  | .dmaAccessFault c kind direction burst => Sys2Proof.Machine.execDmaAccessFault c kind direction burst s
  | .burstTimeout c direction burst => Sys2Proof.Machine.execBurstTimeout c direction burst s
  | .dmaAutoAction c bank row => Sys2Proof.Machine.execDmaAutoAction c bank row s
  | .resume v => Sys2Proof.Machine.execResume v s
  | .skip v => Sys2Proof.Machine.execSkip v s
  | .abort v => Sys2Proof.Machine.execAbort v s
  | .null p m => Sys2Proof.Machine.execNull p m s
  | .hello p position m => Sys2Proof.Machine.execHello p position m s
  | .assoc p peer identity chainOk version sameOperator => Sys2Proof.Machine.execAssoc p peer identity chainOk version sameOperator s
  | .e2eAck p m tagOk now => Sys2Proof.Machine.execE2eAck p m tagOk now s
  | .gatherReq port m tagOk now => Sys2Proof.Machine.execGatherReq port m tagOk now s
  | .gatherData port m tagOk now => Sys2Proof.Machine.execGatherData port m tagOk now s
  | .scatterRaw p m tagOk now => Sys2Proof.Machine.execScatterRaw p m tagOk now s
  | .scatterPartial p m tagOk now => Sys2Proof.Machine.execScatterPartial p m tagOk now s
  | .endContrib port m tagOk now => Sys2Proof.Machine.execEndContrib port m tagOk now s
  | .rangeReport port m tagOk now => Sys2Proof.Machine.execRangeReport port m tagOk now s
  | .reduce p m tagOk now => Sys2Proof.Machine.execReduce p m tagOk now s
  | .broadcast p m tagOk now => Sys2Proof.Machine.execBroadcast p m tagOk now s
  | .handoff p m tagOk now => Sys2Proof.Machine.execHandoff p m tagOk now s
  | .logMirror p m tagOk now => Sys2Proof.Machine.execLogMirror p m tagOk now s
  | .deposit p m tagOk now => Sys2Proof.Machine.execDeposit p m tagOk now s
  | .probe port m tagOk now => Sys2Proof.Machine.execProbe port m tagOk now s
  | .answer port m tagOk now => Sys2Proof.Machine.execAnswer port m tagOk now s
  | .query port m tagOk now => Sys2Proof.Machine.execQuery port m tagOk now s
  | .queryAnswer port m tagOk now => Sys2Proof.Machine.execQueryAnswer port m tagOk now s
  | .fence port m tagOk now => Sys2Proof.Machine.execFence port m tagOk now s
  | .keyUpdate p m tagOk now => Sys2Proof.Machine.execKeyUpdate p m tagOk now s
  | .keyUpdateDue peer => Sys2Proof.Machine.execKeyUpdateDue peer s
  | .linkAckDue p => Sys2Proof.Machine.execLinkAckDue p s
  | .e2eAckDue peer => Sys2Proof.Machine.execE2eAckDue peer s
  | .e2eResend peer seq => Sys2Proof.Machine.execE2eResend peer seq s
  | .laneFault p lane => Sys2Proof.Machine.execLaneFault p lane s
  | .portRetry p failed => Sys2Proof.Machine.execPortRetry p failed s
  | .sueshPortTrained p failed => Sys2Proof.Machine.execSueshPortTrained p failed s
  | .portWindowExpired p => Sys2Proof.Machine.execPortWindowExpired p s
  | .routeEmpty dst => Sys2Proof.Machine.execRouteEmpty dst s
  | .landingMove peer i0 => Sys2Proof.Machine.execLandingMove peer i0 s
  | .creditStrictOrder p => Sys2Proof.Machine.execCreditStrictOrder p s
  | .creditWaitLong hop cls ticks => Sys2Proof.Machine.execCreditWaitLong hop cls ticks s
  | .linkReplay link granules again carrel loc => Sys2Proof.Machine.execLinkReplay link granules again carrel loc s
  | .poisonConsumed row tile w carrel space id loc => Sys2Proof.Machine.execPoisonConsumed row tile w carrel space id loc s
  | .rowRepair device bank row loc bytes now => Sys2Proof.Machine.execRowRepair device bank row loc bytes now s
  | .rowRepaired device bank row loc now => Sys2Proof.Machine.execRowRepaired device bank row loc now s
  | .hardRepair device bank row loc bytes now => Sys2Proof.Machine.execHardRepair device bank row loc bytes now s
  | .scrub device bank row loc word now => Sys2Proof.Machine.execScrub device bank row loc word now s
  | .logCommit slot refused => Sys2Proof.Machine.execLogCommit slot refused s
  | .depositIntervalEval => Sys2Proof.Machine.execDepositIntervalEval s
  | .depositStart slot now => Sys2Proof.Machine.execDepositStart slot now s
  | .depositCommit slot now => Sys2Proof.Machine.execDepositCommit slot now s
  | .livenessProbeDue => Sys2Proof.Machine.execLivenessProbeDue s
  | .livenessTimeout pos => Sys2Proof.Machine.execLivenessTimeout pos s
  | .positionFailed pos announced => Sys2Proof.Machine.execPositionFailed pos announced s
  | .takeoverStarted pos spare => Sys2Proof.Machine.execTakeoverStarted pos spare s
  | .takeoverComplete pos holder jobs => Sys2Proof.Machine.execTakeoverComplete pos holder jobs s
  | .positionFolded pos folder images => Sys2Proof.Machine.execPositionFolded pos folder images s
  | .recoveryExhausted slot => Sys2Proof.Machine.execRecoveryExhausted slot s
  | .restoreInPlace slot => Sys2Proof.Machine.execRestoreInPlace slot s
  | .selfFenced => Sys2Proof.Machine.execSelfFenced s
  | .gdpSpdm session now ok m => Sys2Proof.Machine.execGdpSpdm session now ok m s
  | .gdpRead f => Sys2Proof.Machine.execGdpRead f s
  | .gdpWrite f => Sys2Proof.Machine.execGdpWrite f s
  | .gdpReadBlock f => Sys2Proof.Machine.execGdpReadBlock f s
  | .gdpWriteBlock f => Sys2Proof.Machine.execGdpWriteBlock f s
  | .subscribeStart f => Sys2Proof.Machine.execSubscribeStart f s
  | .subscribeStop f => Sys2Proof.Machine.execSubscribeStop f s
  | .subscribeAck f => Sys2Proof.Machine.execSubscribeAck f s
  | .eventFrameSend id => Sys2Proof.Machine.execEventFrameSend id s
  | .eventFrameResend id => Sys2Proof.Machine.execEventFrameResend id s
  | .blockGapTimeout id key => Sys2Proof.Machine.execBlockGapTimeout id key s
  | .eventCheckpoint => Sys2Proof.Machine.execEventCheckpoint s
  | .beaconLost => Sys2Proof.Machine.execBeaconLost s
  | .beaconSeen => Sys2Proof.Machine.execBeaconSeen s
  | .posAddrChange v => Sys2Proof.Machine.execPosAddrChange v s
  | .brownOut vin => Sys2Proof.Machine.execBrownOut vin s
  | .inputLow vin => Sys2Proof.Machine.execInputLow vin s
  | .inputHigh vin => Sys2Proof.Machine.execInputHigh vin s
  | .pwrEnAssert => Sys2Proof.Machine.execPwrEnAssert s
  | .pwrEnDeassert => Sys2Proof.Machine.execPwrEnDeassert s
  | .refclkLoss => Sys2Proof.Machine.execRefclkLoss s
  | .sueshRefclkLoss => Sys2Proof.Machine.execSueshRefclkLoss s
  | .phaseLost rail phase => Sys2Proof.Machine.execPhaseLost rail phase s
  | .thermalSample temps => Sys2Proof.Machine.execThermalSample temps s
  | .dieSleep d => Sys2Proof.Machine.execDieSleep d s
  | .dieWake d => Sys2Proof.Machine.execDieWake d s
  | .dieWakeComplete d waits => Sys2Proof.Machine.execDieWakeComplete d waits s
  | .pathMarginEval d margin => Sys2Proof.Machine.execPathMarginEval d margin s
  | .eyeScan l margin after => Sys2Proof.Machine.execEyeScan l margin after s
  | .retentionTest device bank failTime interval => Sys2Proof.Machine.execRetentionTest device bank failTime interval s
  | .dailyPrediction avgPower efficiency => Sys2Proof.Machine.execDailyPrediction avgPower efficiency s
  | .keeperStart vin v => Sys2Proof.Machine.execKeeperStart vin v s
  | .segmentJoin dupLinkLocal dupStatic beacon => Sys2Proof.Machine.execSegmentJoin dupLinkLocal dupStatic beacon s
  | .railUp vin => Sys2Proof.Machine.execRailUp vin s
  | .memoryTrained failed => Sys2Proof.Machine.execMemoryTrained failed s
  | .memoryRetrain still => Sys2Proof.Machine.execMemoryRetrain still s
  | .memoryInit rows banks tiles => Sys2Proof.Machine.execMemoryInit rows banks tiles s
  | .moduleReady ms => Sys2Proof.Machine.execModuleReady ms s
  | .orphanJobHoldTime slot => Sys2Proof.Machine.execOrphanJobHoldTime slot s
  | .perstDeassert => Sys2Proof.Machine.execPerstDeassert s
  | .ideKm both => Sys2Proof.Machine.execIdeKm both s
  | .packetSlotWrite q off data => Sys2Proof.Machine.execPacketSlotWrite q off data s
  | .encapsulatedExchange id root leaf => Sys2Proof.Machine.execEncapsulatedExchange id root leaf s
  | .neighbourSolicitation static duplicate => Sys2Proof.Machine.execNeighbourSolicitation static duplicate s
  | .icmpv6Echo static data => Sys2Proof.Machine.execIcmpv6Echo static data s
  | .inputWarningCleared vin => Sys2Proof.Machine.execInputWarningCleared vin s
  | .currentLimit amps watts ticks => Sys2Proof.Machine.execCurrentLimit amps watts ticks s
  | .externalPowerLost vin => Sys2Proof.Machine.execExternalPowerLost vin s
  | .flitDiscarded p => Sys2Proof.Machine.execFlitDiscarded p s
  | .linkRetrained link granules => Sys2Proof.Machine.execLinkRetrained link granules s

end Sys2Proof.Machine
end

