-- ==== Sys2Proof/Safety.lean ====
section
/-!
DEFINITION. What claims are stated in: the invariant of every state, the wear that only grows, the parts of the state a command may change, and a
command that runs.
-/
namespace Sys2Proof.Machine
open Sys2Proof

/-- The command answers a next state, and that state is as `p` says. -/
def Runs (c : Instr) (s : State) (p : State → Prop) : Prop := ∃ t, exec c s = .next t ∧ p t

/-- The event a state has raised last, numbered one above the last of the state before (R419): its code, source, unit, step and arguments. -/
def Raised (s t : State) (code : Nat) (src : Source) (unit step a0 a1 a2 : Nat) : Prop :=
  ∀ n, s.log.seq = some n → t.log.seq = some (n + 1) ∧
    ∃ ms holder, t.log.records.getLast? = some ⟨code, src, unit, n + 1, step, ms, a0, a1, a2, holder⟩

/-- A module-wide counter has risen by `n`, wrapping at its width (R424). -/
def Added (s t : State) (index sub n : Nat) : Prop :=
  t.num index sub = (s.num index sub + n) % 2 ^ (8 * ((findEntry index sub).map (·.width)).getD 8)

/-- A counter of a job has risen by `n`, wrapping at its width (R424). -/
def JobAdded (s t : State) (slot index sub n : Nat) : Prop :=
  ((t.job? slot).map fun j => j.num index sub) =
    (s.job? slot).map fun j => (j.num index sub + n) % 2 ^ (8 * ((findEntry index sub).map (·.width)).getD 8)

/-- A decision of a step has been logged (R38): its record is the log's last, unless the log that is replayed holds it already. -/
def Logged (j k : Job) (kind mb step accept : Nat) (body : List Byte) : Prop :=
  if (j.decisions.any fun r => r.kind == kind && r.mb == mb && r.step == step && r.accept == accept && r.body == body) = true then k.log = j.log
  else ∃ z, k.log = j.log ++ [z] ∧ z.kind = kind ∧ z.mb = mb ∧ z.step = step ∧ z.accept = accept ∧ z.body = body

/-- The four packet slots of a queue as one window of bytes (R272). -/
def State.slotBytes (s : State) (q : Nat) : List Byte := ((s.queue q).slots.map (fitTo 0x4000)).flatten

/-! ### Commands of the host -/

/-- Command `f`, sent by the host, is the next of its opcode on a queue, its header passes, and a job it serves takes it (R275, R278, R280). -/
structure State.Front (s : State) (q opcode : Nat) (f : InFlight) : Prop where
  front : s.arrivedOn q opcode = some f
  sent : f.replayed = false
  header : s.headerBad f = []
  takes : ∀ j, f.job.bind s.job? = some j → j.takes opcode = true

/-- Such a command serves job `j`, which takes it in its present state (R275, R280). -/
structure State.Ready (s : State) (q opcode : Nat) (f : InFlight) (j : Job) : Prop where
  front : s.arrivedOn q opcode = some f
  sent : f.replayed = false
  header : s.headerBad f = []
  job : f.job.bind s.job? = some j
  takes : j.takes opcode = true

/-- The Accession Log record of a command that a job accepts next (R37, R359). -/
def State.commandRecord (s : State) (j : Job) (f : InFlight) : LogRec :=
  { kind := 1, opcode := f.cmd.opcode, mb := 0, step := f.cmd.step, accept := j.accepted + 1, body := f.cmd.payload, offset := j.logEnd, mirrored := false,
    committed := false, gen := s.sec.numericsGen }

/-- Job `j` of the first state is `k` in the second and has accepted `f`: the next acceptance index and the command's record at its log's end (R28,
R359). The command stands at `stage`, and no other job has changed. -/
structure Accepted (s t : State) (f : InFlight) (j k : Job) (stage : Stage) : Prop where
  job : t.job? j.slot = some k
  index : k.accepted = j.accepted + 1
  record : k.log = j.log ++ [s.commandRecord j f]
  others : ∀ n, n ≠ j.slot → t.job? n = s.job? n
  stands : t.inFlight? f.cmd.session f.cmd.queue f.cmd.seq = some { f with stage := stage, accept := some (j.accepted + 1), logged := false }

/-- A command that serves no job is answered at once (R278): its final response is the last of its queue's store, after the module-wide events its effect
raised. -/
def Answered (s t : State) (f : InFlight) (st : Status) (p : List Byte) : Prop :=
  (s.live? f.cmd.session).isSome = true → (s.queue f.cmd.queue).session = f.cmd.session →
    ∃ l, (∀ r ∈ l, r.typ = .event ∧ r.session = 0) ∧
      (t.queue f.cmd.queue).store = (s.queue f.cmd.queue).store ++ l ++
        [{ finalResponse f.cmd st p 0 with seq := (s.queue f.cmd.queue).rspSeq + 1, session := f.cmd.session }]

/-- A command with its outcome: accepted by its job with the final response held until its record commits (R360), or answered where it has none. -/
def Completes (s t : State) (f : InFlight) (st : Status) (p : List Byte) : Prop :=
  match f.job.bind s.job? with
  | some j => ∃ k, Accepted s t f j k (.done st p 0)
  | none => Answered s t f st p

/-- The state in which an accepted command takes effect: its acceptance index is taken and it is logged. -/
def State.begun (s : State) (f : InFlight) : State := (s.accept { f with stage := .waiting } (some (1, f.cmd.payload))).1

/-- A GDP request frame that passes steps 1 to 6 of R413 with a fresh `REQ_ID`, on a session with a request to spare. -/
structure State.Serves (s : State) (g : GdpFrame) (service : Nat) (x : Session) : Prop where
  version : g.version = 1
  typ : g.typ = 0
  form : g.resOk = true ∧ g.lenOk = true ∧ dataLengthOk g = true
  service : g.service = service
  up : s.limited = false ∧ s.bring.segment = true
  live : s.live? g.session = some x
  own : x.transport = .gdp
  tag : g.tagOk = true
  seq : x.gdpIn < g.seq
  fresh : (x.kept.find? fun k => k.reqId == g.reqId) = none
  first : (x.asked.any fun p => p.1 == g.reqId) = false
  room : x.asked.length < 4

/-- The module answers a frame with this status and data under the next `SEQ` of its session, repeating what its header names and, for a block service, the
entry's total bytes (R409, R411, R414). -/
def Replies (t : State) (g : GdpFrame) (x : Session) (st : Status) (data : List Byte) : Prop :=
  t.reply = some (.gdp g.session (x.gdpOut + 1) g.reqId (gdpAsk g) st (t.blockTotal g.session (gdpAsk g)) data)

/-- The state in which a served frame takes effect: its `SEQ` is taken and one more request is open (R411, R413). -/
def State.frameBegun (s : State) (g : GdpFrame) : State :=
  (s.updSession g.session fun y => { y with gdpIn := g.seq }).beginFrame g

/-- A write of an entry with a row of its own has arrived, by a queue or as a frame: the access it makes, the state `c` in which it is checked and the
state `u` in which it takes effect. -/
def Arrives (v : Via) (s : State) (op service index sub off : Nat) (data : List Byte) (a : Acc) (c u : State) : Prop :=
  match v with
  | .queue q => ∃ f, s.Front q 0x40 f ∧ dictHeadBads f.cmd.payload = [] ∧ (dictHead f.cmd.payload).op = op ∧ (dictHead f.cmd.payload).index = index ∧
      (dictHead f.cmd.payload).sub = sub ∧ (dictHead f.cmd.payload).off = off ∧ f.cmd.payload.drop 16 = data ∧ a = f.acc ∧ c = s ∧ u = s.begun f
  | .frame g => ∃ x, s.Serves g service x ∧ g.index = index ∧ g.subindex = sub ∧ g.offset = off ∧ g.data = data ∧ a = frameAcc g ∧ c = s.frameBegun g ∧
      u = s.frameBegun g

/-- Payload offset of the value in a write, which a `RANGE` names. -/
def viaBase : Via → Nat
  | .queue _ => 16
  | .frame _ => 0

/-- The write is answered `OK`. -/
def Succeeds (v : Via) (s t : State) : Prop :=
  match v with
  | .queue q => ∀ f, s.arrivedOn q 0x40 = some f → Completes s t f .ok []
  | .frame g => ∀ x, s.live? g.session = some x → Replies t g x .ok []

/-! ### Messages of peers -/

/-- A message arrives in order on a port that is up, for a position this module answers for, from a live association that has not taken it yet (R311,
R312, R316). -/
structure State.Hears (s : State) (p : Nat) (m : Msg) (a : Assoc) : Prop where
  up : 0 < (s.suesh p).width
  order : m.linkSeq = ((s.suesh p).rxSeq + 1) % 4096
  mine : m.dst = s.fabric.position ∨ s.fabric.folded.contains m.dst = true
  assoc : s.assoc? m.src = some a
  phase : m.phase = a.rxPhase
  fresh : a.rxLow ≤ m.e2e ∧ a.rxAbove.contains m.e2e = false

/-- A message for a position is sealed and held until it is acknowledged, or waits for its association, route or quota (R314, R316, R317). -/
def OnItsWay (t : State) (dst : Nat) (k : FlitKind) (b : List Byte) : Prop :=
  (∃ a, t.assoc? dst = some a ∧ ∃ x ∈ a.store, x.kind = k ∧ x.body = b) ∨ ∃ w ∈ t.fabric.outbox, w.dst = dst ∧ w.kind = k ∧ w.bytes = b

/-- A `LIVENESS` message of this module to a peer (R368, R377): its operation, its number, the position it is about, and the last step delivered here. -/
def State.livenessTo (s : State) (dst op number subject : Nat) : List Byte :=
  ({ jobKey := 0, offset := number, depositId := 0, step := s.deliveredFrom dst, subject := subject, last := false, op := op, count := 0 } : RecHead).bytes

/-! ### Instances of engines -/

/-- The next instance of a work item can be issued (R52): `c` is what it runs with, its descriptor is well formed, and the
carrel is in its canonical form, as every step leaves it (`StepsKeepTheInvariant`). -/
structure State.Can (s : State) (tile : Nat) (w : WorkId) (c : Ctx) : Prop where
  ctx : s.ctx? tile w = some c
  free : s.canIssue c = true
  form : c.d.bodyBads 0 = []
  wf : carrelWf s.carrel = true

/-- A carrel byte lies in a range the instance writes (R49, R52). -/
def Ctx.Writes (c : Ctx) (a : Nat) : Prop :=
  ∃ r ∈ c.ranges, r.write = true ∧ carrelAt c.tile (32 * r.first) ≤ a ∧ a < carrelAt c.tile (32 * (r.first + r.len))

/-- Instance `i` of `c` has been issued (R52): it stands in flight behind every other of its tile, with its ranges; its work item stands at the next
descriptor the selectors let run; nothing else on any tile has moved, and no carrel byte outside the ranges it writes has changed. -/
structure Issued (s t : State) (w : WorkId) (c : Ctx) (i : Inst) : Prop where
  inst : i.pos = c.w.pos ∧ i.regs = c.w.regs ∧ i.kind = c.d.kind ∧ i.seq = c.d.seq ∧ i.ranges = c.ranges
  last : i.ord = (s.unit c.tile).nextOrd
  work : (t.unit c.tile).work? w = some (walkOn ((t.step? w.slot w.step).getD c.x) c.prog
    { c.w with flying := c.w.flying ++ [i], delivered := if c.live then c.w.delivered ++ [(c.d.seq, c.w.regs, 0)] else c.w.delivered,
               latest := aSet c.w.latest c.w.pos i.ord, pos := c.w.pos + 1 })
  half : (t.unit c.tile).half = c.w.half
  works : ∀ v, v ≠ w → (t.unit c.tile).work? v = (s.unit c.tile).work? v
  others : ∀ r, r ≠ c.tile → t.unit r = s.unit r
  carrel : ∀ a, ¬ c.Writes a → carrelByte t.carrel a = carrelByte s.carrel a

/-- The rows of `VECTOR`, by operation code (Table 09-1). -/
def vectorRows (tile : Nat) (w : WorkId) : List (Nat × Instr) :=
  [(0x01, .copy tile w), (0x02, .add tile w), (0x03, .sub tile w), (0x04, .mul tile w), (0x05, .fma tile w), (0x06, .min tile w), (0x07, .max tile w),
    (0x08, .abs tile w), (0x09, .neg tile w), (0x10, .exp tile w), (0x11, .log tile w), (0x12, .recip tile w), (0x13, .sqrt tile w), (0x14, .rsqrt tile w),
    (0x15, .tanh tile w), (0x16, .sigmoid tile w), (0x20, .cmpLt tile w), (0x21, .cmpLe tile w), (0x22, .cmpEq tile w), (0x23, .cmpNe tile w),
    (0x30, .rsum tile w), (0x31, .rsumsq tile w), (0x32, .rmax tile w), (0x33, .rmin tile w), (0x34, .ramax tile w), (0x40, .perm tile w),
    (0x41, .bcast tile w), (0x42, .vcompress tile w), (0x43, .vexpand tile w)]

/-- The rows whose instance completes by its engine alone, each with whether a descriptor is its. -/
def plainRows (tile : Nat) (w : WorkId) (d : Desc) : List (Bool × Instr) :=
  ((vectorRows tile w).map fun r => (d.kind == 0x06 && d.f 135 128 == r.1, r.2)) ++
    [(d.kind == 0x07 && d.f 131 128 == 0, .softmaxRow tile w), (d.kind == 0x07 && d.f 131 128 == 1, .softmaxStats tile w),
      (d.kind == 0x07 && d.f 131 128 == 2, .softmaxApply tile w), (d.kind == 0x08, .convert tile w), (d.kind == 0x05, .spmm tile w)]

/-- What a work item's instances of one sequence number have added to a counter of their step so far (R63, R428). -/
def State.tallied (s : State) (w : WorkId) (seq index sub : Nat) : Nat :=
  ((s.step? w.slot w.step).map fun x => aGetD x.tallies (w, seq, entryKey index sub) 0).getD 0

/-- What a job's counter has been moved by within a step (R428). -/
def State.counted (s : State) (slot step index sub : Nat) : Nat := ((s.job? slot).map fun j => aGetD j.body.counters (step, entryKey index sub) 0).getD 0

/-! ### Invariant and wear -/

/-- What every state of the module meets: the carrel and the list of its poisoned granules in canonical form, 256 logical tiles (R9), twelve fabric
ports (R308) and four compute dies (R9). -/
def State.Inv (s : State) : Prop :=
  carrelWf s.carrel = true ∧ rising s.carrelPoison = true ∧ s.tileUnits.length = 256 ∧ s.fabric.ports.length = 12 ∧ s.power.dies.length = 4

/-- The second list is as long as the first and nowhere larger. -/
def Worn (a b : List Nat) : Prop := b.length = a.length ∧ ∀ i, nth b i ≤ nth a i

/-- The second list has as many dies as the first, and every spare of a die was one before. -/
def Fewer (a b : List (List Nat)) : Prop := b.length = a.length ∧ ∀ d x, x ∈ b.getD d [] → x ∈ a.getD d []

/-- Wear from one state to a later one: no spare tile comes back (R62), no regulator phase is repaired (R445), no repair resource is regained, and
retired bytes stay retired (R351). -/
def Wear (s t : State) : Prop :=
  Fewer s.spares t.spares ∧ Worn s.power.phases t.power.phases ∧ Worn s.rel.resources t.rel.resources ∧
    s.tiers.nearRetired ≤ t.tiers.nearRetired ∧ s.tiers.farRetired ≤ t.tiers.farRetired

/-- The parts of the state, one to a field of `State`. -/
inductive Part where
  | port
  | sessions
  | jobs
  | bring
  | power
  | day
  | flash
  | sec
  | seg
  | log
  | dict
  | blocks
  | abandoned
  | retainedWrites
  | baseStaged
  | tiers
  | dma
  | rel
  | fabric
  | tileUnits
  | spares
  | carrel
  | carrelPoison
  | traces
  | reply
  | draws
  | pending
  deriving DecidableEq, Repr

/-- The part is the same in both states. -/
def Part.same (s t : State) : Part → Prop
  | .port => t.port = s.port
  | .sessions => t.sessions = s.sessions
  | .jobs => t.jobs = s.jobs
  | .bring => t.bring = s.bring
  | .power => t.power = s.power
  | .day => t.day = s.day
  | .flash => t.flash = s.flash
  | .sec => t.sec = s.sec
  | .seg => t.seg = s.seg
  | .log => t.log = s.log
  | .dict => t.dict = s.dict
  | .blocks => t.blocks = s.blocks
  | .abandoned => t.abandoned = s.abandoned
  | .retainedWrites => t.retainedWrites = s.retainedWrites
  | .baseStaged => t.baseStaged = s.baseStaged
  | .tiers => t.tiers = s.tiers
  | .dma => t.dma = s.dma
  | .rel => t.rel = s.rel
  | .fabric => t.fabric = s.fabric
  | .tileUnits => t.tileUnits = s.tileUnits
  | .spares => t.spares = s.spares
  | .carrel => t.carrel = s.carrel
  | .carrelPoison => t.carrelPoison = s.carrelPoison
  | .traces => t.traces = s.traces
  | .reply => t.reply = s.reply
  | .draws => t.draws = s.draws
  | .pending => t.pending = s.pending

/-- Only the parts named differ. -/
structure Only (w : List Part) (s t : State) : Prop where
  same : ∀ p, p ∉ w → p.same s t

/-- The parts of the state a command may change: its own effect, and what that effect raises (events, responses, dictionary counters). -/
def writes (c : Instr) : List Part :=
  match c with
  | .jobOpen _ => [.port, .jobs, .dict, .tileUnits]
  | .jobResume _ => [.port, .jobs]
  | .jobClose _ => [.port, .jobs, .sec, .dict, .blocks, .tiers, .tileUnits, .carrel, .carrelPoison]
  | .tableCreate _ => [.port, .jobs]
  | .tableLoad _ => [.port, .jobs, .tiers, .draws]
  | .tableLoadAnnex _ => [.port, .jobs, .tiers, .draws]
  | .editionPublish _ => [.port, .sessions, .jobs, .log, .dict, .tiers, .draws]
  | .discard _ => [.port, .jobs]
  | .shelfReplace _ => [.port, .jobs]
  | .shelfAdd _ => [.port, .jobs]
  | .shelfRemove _ => [.port, .jobs]
  | .graphLoad _ => [.port, .jobs, .tiers, .draws]
  | .featureLoad _ => [.port, .jobs, .tiers, .draws]
  | .stepSubmit _ => [.port, .sessions, .jobs, .log, .dict, .tiers, .fabric, .draws]
  | .rowSupply _ => [.port, .sessions, .jobs, .log, .dict, .tiers, .fabric]
  | .rowSupplyAck _ => [.port, .jobs]
  | .resultRead _ => [.port, .jobs, .draws]
  | .resultRelease _ => [.port, .jobs, .draws]
  | .paramRead _ => [.port, .jobs]
  | .paramWrite _ => [.port, .jobs, .tiers, .fabric, .draws]
  | .depositExport _ => [.port, .jobs, .draws]
  | .depositImport _ _ _ _ _ _ => [.port, .jobs, .tiers, .draws]
  | .dictRead _ => [.port, .jobs]
  | .dictWrite _ => [.port, .sessions, .jobs, .seg, .log, .dict, .retainedWrites, .reply]
  | .dictReadBlock _ => [.port, .jobs]
  | .dictWriteBlock _ => [.port, .sessions, .jobs, .seg, .log, .dict, .blocks, .abandoned, .retainedWrites, .baseStaged, .reply]
  | .eventAck _ => [.port, .sessions, .jobs]
  | .nop _ => [.port, .jobs]
  | .doorbell _ _ => [.port, .dict]
  | .packetTake _ _ => [.port, .dict]
  | .ringEnable _ _ => [.port]
  | .ringHead _ _ => [.port]
  | .queueRegisterWrite _ _ _ => [.port]
  | .responseWrite _ => [.port, .jobs, .dict]
  | .ringFull _ => [.port, .sessions, .log, .dict]
  | .chainGapTimeout _ => [.port]
  | .perstAssert => [.port, .dma]
  | .cxlLinkTrained _ _ => [.port]
  | .linkDegraded _ _ => [.port, .sessions, .log, .dict]
  | .getVersion => [.port, .sessions, .jobs, .sec, .log, .dict, .blocks, .abandoned, .retainedWrites, .baseStaged, .reply, .draws]
  | .getCapabilities => [.port, .sessions, .jobs, .sec, .log, .dict, .blocks, .abandoned, .retainedWrites, .baseStaged, .reply, .draws]
  | .negotiateAlgorithms => [.port, .sessions, .jobs, .sec, .log, .dict, .blocks, .abandoned, .retainedWrites, .baseStaged, .reply, .draws]
  | .getDigests => [.port, .sessions, .jobs, .sec, .log, .dict, .blocks, .abandoned, .retainedWrites, .baseStaged, .reply, .draws]
  | .getCertificate _ _ => [.port, .sessions, .jobs, .sec, .log, .dict, .blocks, .abandoned, .retainedWrites, .baseStaged, .reply, .draws]
  | .challenge => [.port, .sessions, .jobs, .sec, .log, .dict, .blocks, .abandoned, .retainedWrites, .baseStaged, .reply, .draws]
  | .getMeasurements _ => [.port, .sessions, .jobs, .sec, .log, .dict, .blocks, .abandoned, .retainedWrites, .baseStaged, .reply, .draws]
  | .keyExchange => [.port, .sessions, .jobs, .sec, .log, .dict, .blocks, .abandoned, .retainedWrites, .baseStaged, .reply, .draws]
  | .finish _ _ => [.port, .sessions, .jobs, .sec, .log, .dict, .blocks, .abandoned, .retainedWrites, .baseStaged, .reply, .draws]
  | .endSession _ => [.port, .sessions, .jobs, .sec, .log, .dict, .blocks, .abandoned, .retainedWrites, .baseStaged, .reply, .draws]
  | .heartbeat _ => [.port, .sessions, .jobs, .sec, .log, .dict, .blocks, .abandoned, .retainedWrites, .baseStaged, .reply, .draws]
  | .spdmKeyUpdate _ => [.port, .sessions, .jobs, .sec, .log, .dict, .blocks, .abandoned, .retainedWrites, .baseStaged, .reply, .draws]
  | .sessionHeartbeatExpired _ => [.port, .sessions, .jobs, .sec, .log, .dict, .blocks, .abandoned, .retainedWrites, .baseStaged]
  | .baseRecordWrite _ _ => [.port, .sessions, .flash, .sec, .seg, .log, .dict, .retainedWrites, .baseStaged, .fabric, .reply, .draws]
  | .deltaRecordCommit => [.port, .sessions, .bring, .flash, .sec, .seg, .log, .dict, .retainedWrites, .fabric, .reply, .draws]
  | .standbyImageWrite _ => [.port, .sessions, .jobs, .flash, .sec, .log, .dict, .blocks, .abandoned, .retainedWrites, .baseStaged, .reply]
  | .verify _ _ _ _ => [.port, .sessions, .jobs, .sec, .log, .dict, .blocks, .abandoned, .retainedWrites, .baseStaged, .reply]
  | .arm _ => [.port, .sessions, .jobs, .sec, .log, .dict, .blocks, .abandoned, .retainedWrites, .baseStaged, .reply]
  | .cancel _ => [.port, .sessions, .jobs, .sec, .log, .dict, .blocks, .abandoned, .retainedWrites, .baseStaged, .reply]
  | .firmwareSwitch _ _ => [.port, .sessions, .jobs, .flash, .sec, .log, .dict, .fabric, .draws]
  | .roleMapWrite _ => [.port, .jobs, .dict, .tileUnits]
  | .fabricPositionWrite _ => [.port, .sessions, .jobs, .sec, .log, .dict, .blocks, .abandoned, .retainedWrites, .baseStaged, .reply]
  | .workItemDispatch _ _ _ => [.jobs, .tileUnits, .carrel, .carrelPoison]
  | .stepEndPass _ _ _ => [.port, .sessions, .jobs, .log, .dict, .tiers, .fabric, .tileUnits, .carrel, .carrelPoison, .draws]
  | .instanceComplete _ _ _ => [.port, .sessions, .jobs, .log, .dict, .tiers, .fabric, .tileUnits, .traces, .draws]
  | .sample _ _ => [.port, .sessions, .jobs, .log, .dict, .tiers, .tileUnits, .carrel, .carrelPoison, .draws]
  | .gather _ _ => [.port, .sessions, .jobs, .log, .dict, .tileUnits, .carrel, .carrelPoison]
  | .scatter _ _ => [.port, .sessions, .jobs, .log, .dict, .tileUnits]
  | .matmul _ _ => [.port, .sessions, .jobs, .log, .dict, .tiers, .tileUnits, .carrel, .carrelPoison, .draws]
  | .spmm _ _ => [.port, .sessions, .jobs, .log, .dict, .tiers, .tileUnits, .carrel, .carrelPoison, .draws]
  | .copy _ _ => [.port, .sessions, .jobs, .log, .dict, .tileUnits, .carrel, .carrelPoison]
  | .add _ _ => [.port, .sessions, .jobs, .log, .dict, .tileUnits, .carrel, .carrelPoison]
  | .sub _ _ => [.port, .sessions, .jobs, .log, .dict, .tileUnits, .carrel, .carrelPoison]
  | .mul _ _ => [.port, .sessions, .jobs, .log, .dict, .tileUnits, .carrel, .carrelPoison]
  | .fma _ _ => [.port, .sessions, .jobs, .log, .dict, .tileUnits, .carrel, .carrelPoison]
  | .min _ _ => [.port, .sessions, .jobs, .log, .dict, .tileUnits, .carrel, .carrelPoison]
  | .max _ _ => [.port, .sessions, .jobs, .log, .dict, .tileUnits, .carrel, .carrelPoison]
  | .abs _ _ => [.port, .sessions, .jobs, .log, .dict, .tileUnits, .carrel, .carrelPoison]
  | .neg _ _ => [.port, .sessions, .jobs, .log, .dict, .tileUnits, .carrel, .carrelPoison]
  | .exp _ _ => [.port, .sessions, .jobs, .log, .dict, .tileUnits, .carrel, .carrelPoison]
  | .log _ _ => [.port, .sessions, .jobs, .log, .dict, .tileUnits, .carrel, .carrelPoison]
  | .recip _ _ => [.port, .sessions, .jobs, .log, .dict, .tileUnits, .carrel, .carrelPoison]
  | .sqrt _ _ => [.port, .sessions, .jobs, .log, .dict, .tileUnits, .carrel, .carrelPoison]
  | .rsqrt _ _ => [.port, .sessions, .jobs, .log, .dict, .tileUnits, .carrel, .carrelPoison]
  | .tanh _ _ => [.port, .sessions, .jobs, .log, .dict, .tileUnits, .carrel, .carrelPoison]
  | .sigmoid _ _ => [.port, .sessions, .jobs, .log, .dict, .tileUnits, .carrel, .carrelPoison]
  | .cmpLt _ _ => [.port, .sessions, .jobs, .log, .dict, .tileUnits, .carrel, .carrelPoison]
  | .cmpLe _ _ => [.port, .sessions, .jobs, .log, .dict, .tileUnits, .carrel, .carrelPoison]
  | .cmpEq _ _ => [.port, .sessions, .jobs, .log, .dict, .tileUnits, .carrel, .carrelPoison]
  | .cmpNe _ _ => [.port, .sessions, .jobs, .log, .dict, .tileUnits, .carrel, .carrelPoison]
  | .rsum _ _ => [.port, .sessions, .jobs, .log, .dict, .tileUnits, .carrel, .carrelPoison]
  | .rsumsq _ _ => [.port, .sessions, .jobs, .log, .dict, .tileUnits, .carrel, .carrelPoison]
  | .rmax _ _ => [.port, .sessions, .jobs, .log, .dict, .tileUnits, .carrel, .carrelPoison]
  | .rmin _ _ => [.port, .sessions, .jobs, .log, .dict, .tileUnits, .carrel, .carrelPoison]
  | .ramax _ _ => [.port, .sessions, .jobs, .log, .dict, .tileUnits, .carrel, .carrelPoison]
  | .perm _ _ => [.port, .sessions, .jobs, .log, .dict, .tileUnits, .carrel, .carrelPoison]
  | .bcast _ _ => [.port, .sessions, .jobs, .log, .dict, .tileUnits, .carrel, .carrelPoison]
  | .vcompress _ _ => [.port, .sessions, .jobs, .log, .dict, .tileUnits, .carrel, .carrelPoison]
  | .vexpand _ _ => [.port, .sessions, .jobs, .log, .dict, .tileUnits, .carrel, .carrelPoison]
  | .softmaxRow _ _ => [.jobs, .tileUnits, .carrel, .carrelPoison]
  | .softmaxStats _ _ => [.jobs, .tileUnits, .carrel, .carrelPoison]
  | .softmaxApply _ _ => [.jobs, .tileUnits, .carrel, .carrelPoison]
  | .convert _ _ => [.jobs, .tileUnits, .carrel, .carrelPoison]
  | .compress _ _ => [.jobs, .dict, .tiers, .tileUnits, .draws]
  | .update _ _ => [.port, .sessions, .jobs, .log, .dict, .tiers, .tileUnits, .draws]
  | .wait _ _ => [.tileUnits]
  | .signal _ _ => [.jobs, .tileUnits]
  | .loop _ _ => [.jobs, .tileUnits, .traces]
  | .signalDeliver _ _ _ => [.port, .sessions, .jobs, .log, .dict, .tileUnits]
  | .waitLong _ _ _ => [.port, .sessions, .log, .dict]
  | .tileRetire _ _ _ => [.port, .sessions, .jobs, .bring, .log, .dict, .tiers, .dma, .fabric, .tileUnits]
  | .spareStart _ => [.port, .sessions, .jobs, .log, .dict, .tiers, .fabric, .tileUnits, .spares]
  | .selfCheck _ _ => [.port, .sessions, .jobs, .bring, .log, .dict, .tiers, .dma, .fabric, .tileUnits]
  | .slipIssue _ _ => [.port, .sessions, .jobs, .log, .dict, .tiers, .fabric, .tileUnits]
  | .slipLand _ _ => [.port, .sessions, .jobs, .log, .dict, .tiers, .tileUnits, .carrel, .carrelPoison]
  | .slipReissue _ _ => [.fabric, .tileUnits]
  | .rowCallClose _ _ => [.port, .jobs]
  | .rowCallResend _ _ => [.port, .jobs]
  | .annexStalled _ _ => [.port, .sessions, .jobs, .sec, .log, .dict, .blocks, .tiers, .tileUnits, .carrel, .carrelPoison]
  | .ledgerAdd _ _ _ => [.port, .sessions, .jobs, .log, .dict, .tiers, .fabric, .tileUnits, .draws]
  | .ledgerRangeCheck _ _ _ _ => [.port, .sessions, .jobs, .log, .dict, .tiers, .fabric, .tileUnits]
  | .updateApply _ _ _ => [.port, .sessions, .jobs, .log, .dict, .fabric]
  | .layerRelease _ _ _ => [.port, .sessions, .jobs, .log, .dict, .tiers, .fabric, .draws]
  | .stepComplete _ _ => [.port, .sessions, .jobs, .sec, .log, .dict, .blocks, .tiers, .fabric, .tileUnits, .carrel, .carrelPoison, .draws]
  | .refresh _ _ => [.port, .sessions, .jobs, .log, .dict, .tiers, .draws]
  | .layerCheck _ _ _ _ => [.port, .sessions, .jobs, .log, .dict, .tiers, .fabric, .tileUnits, .draws]
  | .scaleUpdate _ _ _ => [.port, .sessions, .jobs, .log, .dict]
  | .stuckZeroWatch _ _ => [.port, .sessions, .jobs, .log, .dict]
  | .branchRebalance _ _ _ => [.port, .sessions, .jobs, .log, .dict, .tileUnits]
  | .spaceStalled _ _ => [.port, .sessions, .jobs, .sec, .log, .dict, .blocks, .tiers, .tileUnits, .carrel, .carrelPoison]
  | .poolEvictionPass => [.port, .sessions, .log, .dict, .tiers, .dma]
  | .promotion _ _ _ _ _ => [.dict, .tiers, .dma]
  | .moveCommit _ => [.port, .jobs, .sec, .dict, .blocks, .tiers, .fabric, .tileUnits, .carrel, .carrelPoison, .draws]
  | .dmaPost _ _ => [.dma]
  | .dmaTimer _ _ => [.dma]
  | .dmaComplete _ => [.dma]
  | .dmaAccessFault _ _ _ _ => [.port, .sessions, .log, .dict, .dma]
  | .burstTimeout _ _ _ => [.port, .sessions, .log, .dict, .dma]
  | .dmaAutoAction _ _ _ => [.port, .sessions, .log, .dict, .tiers, .dma, .rel, .tileUnits, .carrelPoison]
  | .resume _ => [.port, .sessions, .jobs, .sec, .log, .dict, .blocks, .abandoned, .retainedWrites, .baseStaged, .tiers, .dma, .tileUnits, .carrelPoison, .reply]
  | .skip _ => [.port, .sessions, .jobs, .sec, .log, .dict, .blocks, .abandoned, .retainedWrites, .baseStaged, .tiers, .dma, .tileUnits, .carrelPoison, .reply]
  | .abort _ => [.port, .sessions, .jobs, .sec, .log, .dict, .blocks, .abandoned, .retainedWrites, .baseStaged, .tiers, .dma, .tileUnits, .carrelPoison, .reply]
  | .null _ _ => [.dict, .fabric]
  | .hello _ _ _ => [.dict, .fabric]
  | .assoc _ _ _ _ _ _ => [.port, .sessions, .log, .dict, .fabric, .draws]
  | .e2eAck _ _ _ _ => [.port, .sessions, .log, .dict, .fabric, .draws]
  | .gatherReq _ _ _ _ => [.port, .sessions, .jobs, .log, .dict, .tiers, .fabric, .draws]
  | .gatherData _ _ _ _ => [.port, .sessions, .log, .dict, .fabric, .tileUnits, .carrel, .carrelPoison, .draws]
  | .scatterRaw _ _ _ _ => [.port, .sessions, .log, .dict, .fabric, .draws]
  | .scatterPartial _ _ _ _ => [.port, .sessions, .log, .dict, .fabric, .draws]
  | .endContrib _ _ _ _ => [.port, .sessions, .jobs, .log, .dict, .fabric, .draws]
  | .rangeReport _ _ _ _ => [.port, .sessions, .jobs, .log, .dict, .fabric, .draws]
  | .reduce _ _ _ _ => [.port, .sessions, .log, .dict, .fabric, .draws]
  | .broadcast _ _ _ _ => [.port, .sessions, .log, .dict, .fabric, .draws]
  | .handoff _ _ _ _ => [.port, .sessions, .log, .dict, .fabric, .draws]
  | .logMirror _ _ _ _ => [.port, .sessions, .log, .dict, .fabric, .draws]
  | .deposit _ _ _ _ => [.port, .sessions, .log, .dict, .fabric, .draws]
  | .probe _ _ _ _ => [.port, .sessions, .log, .dict, .fabric, .draws]
  | .answer _ _ _ _ => [.port, .sessions, .log, .dict, .fabric, .draws]
  | .query _ _ _ _ => [.port, .sessions, .log, .dict, .fabric, .draws]
  | .queryAnswer _ _ _ _ => [.port, .sessions, .log, .dict, .fabric, .draws]
  | .fence _ _ _ _ => [.port, .sessions, .jobs, .log, .dict, .fabric, .tileUnits, .draws]
  | .keyUpdate _ _ _ _ => [.port, .sessions, .log, .dict, .fabric, .draws]
  | .keyUpdateDue _ => [.fabric, .draws]
  | .linkAckDue _ => [.fabric]
  | .e2eAckDue _ => [.fabric]
  | .e2eResend _ _ => [.dict, .fabric]
  | .laneFault _ _ => [.port, .sessions, .log, .dict, .fabric]
  | .portRetry _ _ => [.port, .sessions, .log, .dict, .fabric]
  | .sueshPortTrained _ _ => [.bring, .fabric]
  | .portWindowExpired _ => [.port, .sessions, .bring, .log, .dict]
  | .routeEmpty _ => [.port, .sessions, .log, .dict]
  | .landingMove _ _ => [.port, .sessions, .jobs, .log, .dict, .tiers, .fabric, .tileUnits, .draws]
  | .creditStrictOrder _ => [.dict, .fabric]
  | .creditWaitLong _ _ _ => [.port, .sessions, .log, .dict]
  | .linkReplay _ _ _ _ _ => [.port, .sessions, .log, .dict, .tiers, .rel, .carrelPoison]
  | .poisonConsumed _ _ _ _ _ _ _ => [.port, .sessions, .jobs, .bring, .log, .dict, .tiers, .dma, .fabric, .tileUnits]
  | .rowRepair _ _ _ _ _ _ => [.port, .sessions, .log, .dict, .tiers, .rel]
  | .rowRepaired _ _ _ _ _ => [.port, .sessions, .log, .dict, .rel]
  | .hardRepair _ _ _ _ _ _ => [.port, .sessions, .log, .dict, .tiers, .rel]
  | .scrub _ _ _ _ _ _ => [.port, .sessions, .day, .log, .dict, .tiers, .rel, .carrelPoison]
  | .logCommit _ _ => [.port, .sessions, .jobs, .sec, .log, .dict, .blocks, .tiers, .fabric, .tileUnits, .carrel, .carrelPoison]
  | .depositIntervalEval => [.port, .sessions, .jobs, .log, .dict]
  | .depositStart _ _ => [.port, .sessions, .jobs, .log, .dict, .fabric, .draws]
  | .depositCommit _ _ => [.jobs, .dict, .fabric]
  | .livenessProbeDue => [.fabric]
  | .livenessTimeout _ => [.fabric]
  | .positionFailed _ _ => [.port, .sessions, .jobs, .log, .dict, .fabric, .tileUnits]
  | .takeoverStarted _ _ => [.port, .sessions, .jobs, .sec, .log, .dict, .blocks, .abandoned, .retainedWrites, .baseStaged, .tiers, .fabric, .tileUnits, .draws]
  | .takeoverComplete _ _ _ => [.port, .sessions, .jobs, .log, .dict, .fabric]
  | .positionFolded _ _ _ => [.port, .sessions, .jobs, .log, .dict, .tiers, .fabric, .draws]
  | .recoveryExhausted _ => [.port, .sessions, .jobs, .sec, .log, .dict, .blocks, .tiers, .tileUnits, .carrel, .carrelPoison]
  | .restoreInPlace _ => [.port, .sessions, .jobs, .log, .dict, .tiers, .fabric, .carrelPoison]
  | .selfFenced => [.port, .sessions, .jobs, .bring, .sec, .log, .dict, .blocks, .tiers, .tileUnits, .carrel, .carrelPoison]
  | .gdpSpdm _ _ _ _ => [.port, .sessions, .jobs, .sec, .log, .dict, .blocks, .abandoned, .retainedWrites, .baseStaged, .reply, .draws]
  | .gdpRead _ => [.port, .sessions, .jobs, .sec, .log, .dict, .blocks, .abandoned, .retainedWrites, .baseStaged, .reply]
  | .gdpWrite _ => [.port, .sessions, .jobs, .sec, .seg, .log, .dict, .blocks, .abandoned, .retainedWrites, .baseStaged, .reply]
  | .gdpReadBlock _ => [.port, .sessions, .jobs, .sec, .log, .dict, .blocks, .abandoned, .retainedWrites, .baseStaged, .reply]
  | .gdpWriteBlock _ => [.port, .sessions, .jobs, .sec, .seg, .log, .dict, .blocks, .abandoned, .retainedWrites, .baseStaged, .reply]
  | .subscribeStart _ => [.port, .sessions, .jobs, .sec, .log, .dict, .blocks, .abandoned, .retainedWrites, .baseStaged, .reply]
  | .subscribeStop _ => [.port, .sessions, .jobs, .sec, .log, .dict, .blocks, .abandoned, .retainedWrites, .baseStaged, .reply]
  | .subscribeAck _ => [.port, .sessions, .jobs, .sec, .log, .dict, .blocks, .abandoned, .retainedWrites, .baseStaged, .reply]
  | .eventFrameSend _ => [.sessions, .reply]
  | .eventFrameResend _ => [.sessions, .dict, .reply]
  | .blockGapTimeout _ _ => [.sec, .blocks, .abandoned]
  | .eventCheckpoint => [.flash, .sec, .log, .draws]
  | .beaconLost => [.port, .sessions, .seg, .log, .dict]
  | .beaconSeen => [.seg]
  | .posAddrChange _ => [.port, .sessions, .power, .seg, .log, .dict]
  | .brownOut _ => [.port, .jobs, .bring, .power, .sec, .dict, .blocks, .tiers, .dma, .rel, .fabric, .tileUnits, .carrel, .carrelPoison]
  | .inputLow _ => [.port, .sessions, .power, .log, .dict]
  | .inputHigh _ => [.port, .sessions, .power, .log, .dict]
  | .pwrEnAssert => [.power]
  | .pwrEnDeassert => [.port, .jobs, .bring, .power, .sec, .dict, .blocks, .tiers, .dma, .rel, .fabric, .tileUnits, .carrel, .carrelPoison]
  | .refclkLoss => [.port, .dma]
  | .sueshRefclkLoss => [.port, .sessions, .log, .dict, .fabric]
  | .phaseLost _ _ => [.port, .sessions, .jobs, .bring, .power, .day, .log, .dict]
  | .thermalSample _ => [.port, .sessions, .jobs, .bring, .power, .day, .sec, .log, .dict, .blocks, .tiers, .dma, .rel, .fabric, .tileUnits, .carrel, .carrelPoison]
  | .dieSleep _ => [.power]
  | .dieWake _ => [.power, .dict]
  | .dieWakeComplete _ _ => [.power, .dict]
  | .pathMarginEval _ _ => [.port, .sessions, .day, .log, .dict]
  | .eyeScan _ _ _ => [.port, .sessions, .day, .log, .dict, .dma, .fabric]
  | .retentionTest _ _ _ _ => [.port, .sessions, .day, .log, .dict]
  | .dailyPrediction _ _ => [.port, .sessions, .day, .flash, .log, .dict]
  | .keeperStart _ _ => [.port, .sessions, .bring, .power, .day, .flash, .sec, .log, .dict, .draws]
  | .segmentJoin _ _ _ => [.port, .sessions, .bring, .seg, .log, .dict]
  | .railUp _ => [.bring, .power, .day, .dict]
  | .memoryTrained _ => [.port, .sessions, .bring, .log, .dict]
  | .memoryRetrain _ => [.port, .sessions, .bring, .log, .dict]
  | .memoryInit _ _ _ => [.port, .sessions, .jobs, .bring, .day, .log, .dict, .tiers, .dma, .rel, .fabric, .tileUnits, .spares, .carrel, .carrelPoison]
  | .moduleReady _ => [.port, .sessions, .bring, .log, .dict]
  | .orphanJobHoldTime _ => [.port, .jobs, .sec, .dict, .blocks, .tiers, .tileUnits, .carrel, .carrelPoison]
  | .perstDeassert => [.port]
  | .ideKm _ => [.port]
  | .packetSlotWrite _ _ _ => [.port, .dict]
  | .encapsulatedExchange _ _ _ => [.port, .sessions, .jobs, .sec, .log, .dict, .blocks, .abandoned, .retainedWrites, .baseStaged, .reply, .draws]
  | .neighbourSolicitation _ _ => [.port, .sessions, .seg, .log, .dict, .reply]
  | .icmpv6Echo _ _ => [.reply]
  | .inputWarningCleared _ => [.power]
  | .currentLimit _ _ _ => [.power, .dict]
  | .externalPowerLost _ => [.port, .sessions, .jobs, .bring, .power, .sec, .seg, .log, .dict, .blocks, .abandoned, .retainedWrites, .baseStaged, .tiers, .dma, .rel, .fabric, .tileUnits, .carrel, .carrelPoison, .reply]
  | .flitDiscarded _ => [.fabric]
  | .linkRetrained _ _ => [.dict, .rel]

end Sys2Proof.Machine
end

