-- ==== Sys2Proof/WellFormed.lean ====
section
/-!
DEFINITION. Well-formed commands: every operand lies in the range the spec gives identifiers, fields and counts (R18, Table 02-1). Meanings are total:
a command that is not well formed still has the outcome its rules give a wrong number.
-/
namespace Sys2Proof
open Sys2Proof.Machine

/-- Host queues are 0x000 to 0x3FF (Table 02-1). -/
def queueOk (q : Nat) : Bool := decide (q < 0x400)
/-- Logical tiles are 0 to 255 (R9, R40). -/
def tileOk (t : Nat) : Bool := decide (t < 256)
/-- A tile runs two program slots (R61). -/
def halfOk (h : Nat) : Bool := decide (h < 2)
/-- Job slots are 0 to 3 (Table 02-1). -/
def slotOk (n : Nat) : Bool := decide (n < 4)
/-- Micro-batches are 0 to 4,095 (Table 02-1). -/
def mbOk (n : Nat) : Bool := decide (n < 4096)
/-- A field of so many bits. -/
def fieldOk (w n : Nat) : Bool := decide (n < 2 ^ w)
def byteOk (n : Nat) : Bool := decide (n < 256)
/-- Sessions are named by 16 bits (Table 02-1, R391). -/
def sessionOk (n : Nat) : Bool := decide (n < 0x10000)
/-- Slips are 0 to 1,023 of a tile (R89). -/
def slipOk (n : Nat) : Bool := decide (n < 1024)
/-- Layers are 0 to 4,095, and a table is the layer 4,096 + its id, below 4,096 (R218). -/
def layerOk (n : Nat) : Bool := decide (n < 4096)
/-- Loop groups of the role map are 0 to 15 (R44). -/
def groupOk (n : Nat) : Bool := decide (n < 16)
/-- Fabric positions are 0x0000 to 0x0FFF (R313). -/
def positionOk (n : Nat) : Bool := decide (n ≤ 0x0FFF)
/-- Suesh ports are 0 to 11, of four lanes (R308). -/
def portOk (n : Nat) : Bool := decide (n < 12)
def laneOk (n : Nat) : Bool := decide (n < 4)
/-- Traffic classes C0 to C3 (R329). -/
def classOk (n : Nat) : Bool := decide (n < 4)
/-- DMA channels are 0 to 63 (R297). -/
def channelOk (n : Nat) : Bool := decide (n < 64)
/-- A halt is a read's or a write's (Table 15-4); its kinds with an access failure are 1 to 3 (R302). -/
def directionOk (n : Nat) : Bool := decide (n < 2)
def faultKindOk (n : Nat) : Bool := decide (1 ≤ n) && decide (n ≤ 3)
/-- Devices are `H0` to `H7` and `L0` to `L17` (R8). -/
def deviceOk (n : Nat) : Bool := decide (n < 26)
/-- Compute dies are 0 to 3 (R9). -/
def dieOk (n : Nat) : Bool := decide (n < 4)
/-- Rails with phases are the ten of 0xA040:01 (Table 23-4). -/
def railOk (n : Nat) : Bool := decide (n < 10)
/-- Internal links that replay are eleven (R350). -/
def internalLinkOk (n : Nat) : Bool := decide (n < 11)
/-- Links scanned in service: the 56 of 0x9030:02 (R455). -/
def scanLinkOk (n : Nat) : Bool := decide (n < 56)
/-- Widths a CXL link trains at, and rates in GT/s (R269). -/
def linkWidthOk (n : Nat) : Bool := n == 8 || n == 4 || n == 2 || n == 1
def linkRateOk (n : Nat) : Bool := n == 64 || n == 32 || n == 16 || n == 8
/-- Reasons of a retirement (R62), rows of Table 18-2, reasons of a promotion (R263). -/
def reasonOk (n : Nat) : Bool := decide (n < 3)
def poisonRowOk (n : Nat) : Bool := decide (n < 4)
def promotionKindOk (n : Nat) : Bool := decide (n < 3)
/-- Queue registers lie in 64 bytes (Table 14-3). -/
def registerOffOk (n : Nat) : Bool := decide (n < 64) && n % 4 == 0
/-- A write of the packet window stays in it: four slots of 16,384 bytes (R272). -/
def windowOk (off : Nat) (data : List Byte) : Bool := decide (off + data.length ≤ 4 * 16384)
/-- An opened packet is at most 16,336 bytes of header and payload (Table 14-4). -/
def plainOk (p : Option (List Byte)) : Bool := match p with | some b => decide (b.length ≤ 16384) | none => true
/-- A SHA-512 digest is 64 bytes. -/
def digestOk (b : List Byte) : Bool := b.length == 64

/-- A work item's name (R50). -/
def Machine.WorkId.ok (w : WorkId) : Bool :=
  slotOk w.slot && fieldOk 64 w.step && mbOk w.mb && decide (w.piece < 2 ^ 16) && decide (w.role ≤ 6) && groupOk w.group

/-- A frame's fields (Table 21-1). -/
def GdpFrame.ok (f : GdpFrame) : Bool :=
  byteOk f.version && byteOk f.typ && byteOk f.service && fieldOk 16 f.session && fieldOk 64 f.seq && fieldOk 32 f.reqId && fieldOk 16 f.index
    && byteOk f.subindex && fieldOk 32 f.offset && fieldOk 32 f.length && decide (f.data.length ≤ 1024)

def Via.ok : Via → Bool
  | .queue q => queueOk q
  | .frame f => f.ok

/-- A message's header fields (Table 16-3). -/
def Machine.Msg.ok (m : Msg) : Bool :=
  positionOk m.src && positionOk m.dst && fieldOk 48 m.e2e && decide (m.linkSeq < 4096) && decide (m.ackSeq < 4096) && classOk m.creditClass
    && decide (m.creditCount < 64)

/-- A descriptor's fields fit their widths (Table 15-2). -/
def Machine.DmaDesc.shapeOk (d : DmaDesc) : Bool :=
  byteOk d.func && decide (d.priority < 8) && decide (d.afterChannel < 64) && decide (d.srcKind < 8) && decide (d.dstKind < 8)
    && decide (d.layout < 4) && fieldOk 24 d.length && fieldOk 64 d.src && fieldOk 64 d.dst && fieldOk 32 d.ticks && fieldOk 32 d.owner

/-- A directory key's fields (Table 13-2). -/
def Machine.TileKey.ok (k : TileKey) : Bool :=
  fieldOk 32 k.id && slotOk k.slot && fieldOk 64 k.step && decide (k.mb < 65536) && decide (k.piece < 65536) && fieldOk 36 k.row && fieldOk 20 k.col

/-- A well-formed command. -/
def Instr.wf : Instr → Bool
  | .jobOpen q => queueOk q
  | .jobResume q => queueOk q
  | .jobClose q => queueOk q
  | .tableCreate q => queueOk q
  | .tableLoad q => queueOk q
  | .tableLoadAnnex q => queueOk q
  | .editionPublish q => queueOk q
  | .discard q => queueOk q
  | .shelfReplace q => queueOk q
  | .shelfAdd q => queueOk q
  | .shelfRemove q => queueOk q
  | .graphLoad q => queueOk q
  | .featureLoad q => queueOk q
  | .stepSubmit q => queueOk q
  | .rowSupply q => queueOk q
  | .rowSupplyAck q => queueOk q
  | .resultRead q => queueOk q
  | .resultRelease q => queueOk q
  | .paramRead q => queueOk q
  | .paramWrite q => queueOk q
  | .depositExport q => queueOk q
  | .depositImport q _ _ _ tenant _ => queueOk q && digestOk tenant
  | .dictRead q => queueOk q
  | .dictWrite q => queueOk q
  | .dictReadBlock q => queueOk q
  | .dictWriteBlock q => queueOk q
  | .eventAck q => queueOk q
  | .nop q => queueOk q
  | .doorbell q value => queueOk q && fieldOk 32 value
  | .packetTake q plain => queueOk q && plainOk plain
  | .ringEnable q value => queueOk q && fieldOk 32 value
  | .ringHead q value => queueOk q && fieldOk 32 value
  | .queueRegisterWrite q off value => queueOk q && registerOffOk off && fieldOk 64 value
  | .responseWrite q => queueOk q
  | .ringFull q => queueOk q
  | .chainGapTimeout q => queueOk q
  | .perstAssert => true
  | .cxlLinkTrained width rate => linkWidthOk width && linkRateOk rate
  | .linkDegraded width rate => linkWidthOk width && linkRateOk rate
  | .getVersion => true
  | .getCapabilities => true
  | .negotiateAlgorithms => true
  | .getDigests => true
  | .getCertificate off len => fieldOk 16 off && fieldOk 16 len
  | .challenge => true
  | .getMeasurements index => byteOk index
  | .keyExchange => true
  | .finish id _ => sessionOk id
  | .endSession id => sessionOk id
  | .heartbeat id => sessionOk id
  | .spdmKeyUpdate id => sessionOk id
  | .sessionHeartbeatExpired id => sessionOk id
  | .baseRecordWrite _ _ => true
  | .deltaRecordCommit => true
  | .standbyImageWrite v => v.ok
  | .verify v _ _ _ => v.ok
  | .arm v => v.ok
  | .cancel v => v.ok
  | .firmwareSwitch _ _ => true
  | .roleMapWrite q => queueOk q
  | .fabricPositionWrite v => v.ok
  | .workItemDispatch tile half w => tileOk tile && halfOk half && w.ok
  | .stepEndPass tile half w => tileOk tile && halfOk half && w.ok
  | .instanceComplete tile w _ => tileOk tile && w.ok
  | .sample tile w => tileOk tile && w.ok
  | .gather tile w => tileOk tile && w.ok
  | .scatter tile w => tileOk tile && w.ok
  | .matmul tile w => tileOk tile && w.ok
  | .spmm tile w => tileOk tile && w.ok
  | .copy tile w => tileOk tile && w.ok
  | .add tile w => tileOk tile && w.ok
  | .sub tile w => tileOk tile && w.ok
  | .mul tile w => tileOk tile && w.ok
  | .fma tile w => tileOk tile && w.ok
  | .min tile w => tileOk tile && w.ok
  | .max tile w => tileOk tile && w.ok
  | .abs tile w => tileOk tile && w.ok
  | .neg tile w => tileOk tile && w.ok
  | .exp tile w => tileOk tile && w.ok
  | .log tile w => tileOk tile && w.ok
  | .recip tile w => tileOk tile && w.ok
  | .sqrt tile w => tileOk tile && w.ok
  | .rsqrt tile w => tileOk tile && w.ok
  | .tanh tile w => tileOk tile && w.ok
  | .sigmoid tile w => tileOk tile && w.ok
  | .cmpLt tile w => tileOk tile && w.ok
  | .cmpLe tile w => tileOk tile && w.ok
  | .cmpEq tile w => tileOk tile && w.ok
  | .cmpNe tile w => tileOk tile && w.ok
  | .rsum tile w => tileOk tile && w.ok
  | .rsumsq tile w => tileOk tile && w.ok
  | .rmax tile w => tileOk tile && w.ok
  | .rmin tile w => tileOk tile && w.ok
  | .ramax tile w => tileOk tile && w.ok
  | .perm tile w => tileOk tile && w.ok
  | .bcast tile w => tileOk tile && w.ok
  | .vcompress tile w => tileOk tile && w.ok
  | .vexpand tile w => tileOk tile && w.ok
  | .softmaxRow tile w => tileOk tile && w.ok
  | .softmaxStats tile w => tileOk tile && w.ok
  | .softmaxApply tile w => tileOk tile && w.ok
  | .convert tile w => tileOk tile && w.ok
  | .compress tile w => tileOk tile && w.ok
  | .update tile w => tileOk tile && w.ok
  | .wait tile w => tileOk tile && w.ok
  | .signal tile w => tileOk tile && w.ok
  | .loop tile w => tileOk tile && w.ok
  | .signalDeliver slot _ _ => slotOk slot
  | .waitLong tile w _ => tileOk tile && w.ok
  | .tileRetire tile reason _ => tileOk tile && reasonOk reason
  | .spareStart tile => tileOk tile
  | .selfCheck tile _ => tileOk tile
  | .slipIssue tile w => tileOk tile && w.ok
  | .slipLand tile n => tileOk tile && slipOk n
  | .slipReissue tile n => tileOk tile && slipOk n
  | .rowCallClose slot call => slotOk slot && fieldOk 32 call
  | .rowCallResend slot call => slotOk slot && fieldOk 32 call
  | .annexStalled slot call => slotOk slot && fieldOk 32 call
  | .ledgerAdd slot step _ => slotOk slot && fieldOk 64 step
  | .ledgerRangeCheck slot step _ id => slotOk slot && fieldOk 64 step && fieldOk 32 id
  | .updateApply slot step _ => slotOk slot && fieldOk 64 step
  | .layerRelease slot step _ => slotOk slot && fieldOk 64 step
  | .stepComplete slot step => slotOk slot && fieldOk 64 step
  | .refresh slot step => slotOk slot && fieldOk 64 step
  | .layerCheck slot step layer mb => slotOk slot && fieldOk 64 step && layerOk layer && mbOk mb
  | .scaleUpdate slot step tensor => slotOk slot && fieldOk 64 step && fieldOk 32 tensor
  | .stuckZeroWatch slot step => slotOk slot && fieldOk 64 step
  | .branchRebalance slot _ _ => slotOk slot
  | .spaceStalled slot step => slotOk slot && fieldOk 64 step
  | .poolEvictionPass => true
  | .promotion kind die group step k => promotionKindOk kind && dieOk die && groupOk group && fieldOk 64 step && k.ok
  | .moveCommit k => k.ok
  | .dmaPost c d => channelOk c && d.shapeOk
  | .dmaTimer c _ => channelOk c
  | .dmaComplete c => channelOk c
  | .dmaAccessFault c kind direction _ => channelOk c && faultKindOk kind && directionOk direction
  | .burstTimeout c direction _ => channelOk c && directionOk direction
  | .dmaAutoAction c _ _ => channelOk c
  | .resume v => v.ok
  | .skip v => v.ok
  | .abort v => v.ok
  | .null p m => portOk p && m.ok
  | .hello p position m => portOk p && positionOk position && m.ok
  | .assoc p peer _ _ _ _ => portOk p && positionOk peer
  | .e2eAck p m _ _ => portOk p && m.ok
  | .gatherReq port m _ _ => portOk port && m.ok
  | .gatherData port m _ _ => portOk port && m.ok
  | .scatterRaw p m _ _ => portOk p && m.ok
  | .scatterPartial p m _ _ => portOk p && m.ok
  | .endContrib port m _ _ => portOk port && m.ok
  | .rangeReport port m _ _ => portOk port && m.ok
  | .reduce p m _ _ => portOk p && m.ok
  | .broadcast p m _ _ => portOk p && m.ok
  | .handoff p m _ _ => portOk p && m.ok
  | .logMirror p m _ _ => portOk p && m.ok
  | .deposit p m _ _ => portOk p && m.ok
  | .probe port m _ _ => portOk port && m.ok
  | .answer port m _ _ => portOk port && m.ok
  | .query port m _ _ => portOk port && m.ok
  | .queryAnswer port m _ _ => portOk port && m.ok
  | .fence port m _ _ => portOk port && m.ok
  | .keyUpdate p m _ _ => portOk p && m.ok
  | .keyUpdateDue peer => positionOk peer
  | .linkAckDue p => portOk p
  | .e2eAckDue peer => positionOk peer
  | .e2eResend peer _ => positionOk peer
  | .laneFault p lane => portOk p && laneOk lane
  | .portRetry p failed => portOk p && failed.all laneOk
  | .sueshPortTrained p failed => portOk p && failed.all laneOk
  | .portWindowExpired p => portOk p
  | .routeEmpty dst => positionOk dst
  | .landingMove peer _ => positionOk peer
  | .creditStrictOrder p => portOk p
  | .creditWaitLong _ cls _ => classOk cls
  | .linkReplay link _ _ _ _ => internalLinkOk link
  | .poisonConsumed row tile w _ _ id _ => poisonRowOk row && tileOk tile && w.ok && fieldOk 32 id
  | .rowRepair device _ _ _ _ _ => deviceOk device
  | .rowRepaired device _ _ _ _ => deviceOk device
  | .hardRepair device _ _ _ _ _ => deviceOk device
  | .scrub device _ _ _ word _ => deviceOk device && (match word with
      | .near burst => decide (device < 8) && burst.length == 36
      | .far _ group => decide (8 ≤ device) && group.length == 288)
  | .logCommit slot _ => slotOk slot
  | .depositIntervalEval => true
  | .depositStart slot _ => slotOk slot
  | .depositCommit slot _ => slotOk slot
  | .livenessProbeDue => true
  | .livenessTimeout pos => positionOk pos
  | .positionFailed pos _ => positionOk pos
  | .takeoverStarted pos spare => positionOk pos && positionOk spare.spare
  | .takeoverComplete pos holder _ => positionOk pos && positionOk holder
  | .positionFolded pos folder _ => positionOk pos && positionOk folder
  | .recoveryExhausted slot => slotOk slot
  | .restoreInPlace slot => slotOk slot
  | .selfFenced => true
  | .gdpSpdm session _ _ m => sessionOk session && decide (m.reqId < 2 ^ 32)
  | .gdpRead f => f.ok
  | .gdpWrite f => f.ok
  | .gdpReadBlock f => f.ok
  | .gdpWriteBlock f => f.ok
  | .subscribeStart f => f.ok
  | .subscribeStop f => f.ok
  | .subscribeAck f => f.ok
  | .eventFrameSend id => sessionOk id
  | .eventFrameResend id => sessionOk id
  | .blockGapTimeout id _ => sessionOk id
  | .eventCheckpoint => true
  | .beaconLost => true
  | .beaconSeen => true
  | .posAddrChange _ => true
  | .brownOut _ => true
  | .inputLow _ => true
  | .inputHigh _ => true
  | .pwrEnAssert => true
  | .pwrEnDeassert => true
  | .refclkLoss => true
  | .sueshRefclkLoss => true
  | .phaseLost rail _ => railOk rail
  | .thermalSample temps => temps.length == 48
  | .dieSleep d => dieOk d
  | .dieWake d => dieOk d
  | .dieWakeComplete d _ => dieOk d
  | .pathMarginEval d _ => dieOk d
  | .eyeScan l _ _ => scanLinkOk l
  | .retentionTest device _ _ _ => deviceOk device
  | .dailyPrediction _ _ => true
  | .keeperStart _ _ => true
  | .segmentJoin _ _ _ => true
  | .railUp _ => true
  | .memoryTrained failed => failed.all deviceOk
  | .memoryRetrain still => still.all deviceOk
  | .memoryInit _ _ _ => true
  | .moduleReady _ => true
  | .orphanJobHoldTime slot => slotOk slot
  | .perstDeassert => true
  | .ideKm _ => true
  | .packetSlotWrite q off data => queueOk q && windowOk off data
  | .encapsulatedExchange id root leaf => sessionOk id && digestOk root && digestOk leaf
  | .neighbourSolicitation _ _ => true
  | .icmpv6Echo _ _ => true
  | .inputWarningCleared _ => true
  | .currentLimit _ _ _ => true
  | .externalPowerLost _ => true
  | .flitDiscarded p => portOk p
  | .linkRetrained link _ => internalLinkOk link

end Sys2Proof
end

