-- ==== Sys2Proof/Certificates/Slice0/Obligations.lean ====
section
/-!
DEFINITION. The statements about the model, for the provers. `Runs c s p` says that command `c` answers a next state from `s` and that `p` holds of it.
`Claims.<Name>` is one clause of a statement; a statement of several clauses is their conjunction.
-/
open Sys2Proof Sys2Proof.Machine

/-! ### The block -/

/-- The block runs the command at the front of its queue on the state with the queue's rest. -/
def Claims.FrontCommandRuns : Prop :=
  ∀ (c : Instr) (rest : List Instr) (s : State), s.pending = c :: rest → step s = exec c { s with pending := rest }

/-- With no command waiting a step leaves the state as it is (log entry 1: the model's choice). -/
def Claims.EmptyQueueIdles : Prop :=
  ∀ s : State, s.pending = [] → step s = .next s

/-- Every command answers a next state: none ends in a fault or a refusal, whatever the state and the operands. Readings and choices of the model in it: log entries 111, 112. -/
def Obligations.EveryCommandAnswers : Prop :=
  ∀ (c : Instr) (s : State), ∃ t, exec c s = .next t

/-- The state after reset meets the invariant: no command waits, no session or job exists, no event has been numbered and the position is
the default of *fabric position*, 0x0F00 (0x2300:01). Readings and choices of the model in it: log entries 6, 8, 9, 11. -/
def Obligations.ResetMeetsTheInvariant : Prop :=
  State.reset.Inv ∧ State.reset.pending = [] ∧ State.reset.sessions = [] ∧ State.reset.jobs = [] ∧ State.reset.log.seq = none ∧
    State.reset.fabric.position = 0x0F00

/-- The invariant is kept by every step: the carrel and its poison stay in canonical form, and tiles, ports and dies keep their number. Readings and choices of the model in it: log entry 11. -/
def Obligations.StepsKeepTheInvariant : Prop :=
  ∀ s t : State, s.Inv → step s = .next t → t.Inv


/-- Wear only grows, whatever runs: no spare tile comes back, no regulator phase is regained, no repair resource returns and no retired byte is used
again (R62, R445, R351). Readings and choices of the model in it: log entries 7, 8, 9, 104. -/
def Obligations.WearOnlyGrows : Prop :=
  ∀ s t : State, step s = .next t → Wear s t

/-- The frame of every command: it changes only the parts of the state that `writes` lists for it. No engine row touches flash or sessions' keys, no
security row touches a carrel, and so on through the table. Readings and choices of the model in it: log entries 4, 15. -/
def Obligations.CommandsChangeOnlyTheirParts : Prop :=
  ∀ (c : Instr) (s t : State), exec c s = .next t → Only (writes c) s t

/-- A byte written to a tile's carrel is the byte read, every other byte reads as before, and the canonical form stays (the model's carrel; R40, R41). -/
def Claims.CarrelReadsWhatWasWritten : Prop :=
  ∀ (s : State) (tile addr : Nat) (b : List Byte), carrelWf s.carrel = true →
    (s.carrelWrite tile addr b).carrelRead tile addr b.length = b ∧
      (∀ a, (a < carrelAt tile addr ∨ carrelAt tile addr + b.length ≤ a) → carrelByte (s.carrelWrite tile addr b).carrel a = carrelByte s.carrel a) ∧
      carrelWf (s.carrelWrite tile addr b).carrel = true

/-! ### The host port -/

/-- A packet's bytes land in its queue's window and nowhere else, a doorbell takes the slot and makes its packet ready; one for a slot that is not free,
or any write there, is discarded and counted in *window overruns* 0x2210:03 (R272, R273). -/
def Claims.SlotsAndDoorbells : Prop :=
  (∀ (s : State) (q off : Nat) (data : List Byte), s.barUp q = true → data ≠ [] → off + data.length ≤ 0x10000 →
    (∀ k < 4, s.slotFree q k = true) →
    Runs (.packetSlotWrite q off data) s fun t =>
      (∀ i < data.length, (t.slotBytes q).getD (off + i) 0 = data.getD i 0) ∧
        (∀ a, (a < off ∨ off + data.length ≤ a) → a < 0x10000 → (s.queue q).slots.length = 4 → (t.slotBytes q).getD a 0 = (s.slotBytes q).getD a 0) ∧
        (∀ r, r ≠ q → t.queue r = s.queue r)) ∧
  (∀ (s : State) (q value : Nat), s.barUp q = true → s.slotFree q (bits value 31 30) = true →
    Runs (.doorbell q value) s fun t =>
      t.slotFree q (bits value 31 30) = false ∧ (t.queue q).bells = (s.queue q).bells ++ [(bits value 31 30, bits value 14 0)] ∧
        t = s.updQueue q fun x => { x with busy := x.busy ||| BitVec.ofNat 4 (2 ^ bits value 31 30), bells := (t.queue q).bells }) ∧
  (∀ (s : State) (q value : Nat), s.barUp q = true → s.slotFree q (bits value 31 30) = false →
    exec (.doorbell q value) s = .next (s.add 0x2210 3 1))

/-- Before the module is ready no slot is free, so a doorbell is discarded and counted (R472). -/
def Claims.NoDoorbellBeforeReady : Prop :=
  ∀ (s : State) (q value : Nat), s.bring.ready = false → s.barUp q = true → exec (.doorbell q value) s = .next (s.add 0x2210 3 1)

/-- Ring registers (Table 14-3, R273, R291): enabling a ring starts it at head and tail 0, a disabled ring takes a base, a write of the head frees
entries, and disabling clears `RING_FULL`. -/
def Claims.RingRegisters : Prop :=
  (∀ (s : State) (q value : Nat), s.barUp q = true → bit value 8 = true →
    Runs (.ringEnable q value) s fun t =>
      (t.queue q).ringEnable = true ∧ (t.queue q).eventEnable = bit value 9 ∧
        ((s.queue q).ringEnable = false → (t.queue q).ringHead = 0 ∧ (t.queue q).ringTail = 0 ∧
          ((t.queue q).ringLog2 = if within 8 16 (bits value 7 0) then bits value 7 0 else (s.queue q).ringLog2)) ∧
        ((s.queue q).ringEnable = true → (t.queue q).ringHead = (s.queue q).ringHead ∧ (t.queue q).ringTail = (s.queue q).ringTail ∧
          (t.queue q).ringLog2 = (s.queue q).ringLog2) ∧
        (t.queue q).ringBase = (s.queue q).ringBase ∧ (t.queue q).store = (s.queue q).store ∧ ∀ r, r ≠ q → t.queue r = s.queue r) ∧
  (∀ (s : State) (q value : Nat), s.barUp q = true →
    Runs (.ringHead q value) s fun t =>
      (t.queue q).ringHead = BitVec.ofNat 32 value ∧ (t.queue q).ringTail = (s.queue q).ringTail ∧ (t.queue q).store = (s.queue q).store ∧
        ∀ r, r ≠ q → t.queue r = s.queue r) ∧
  (∀ (s : State) (q value : Nat), s.barUp q = true → (s.queue q).ringEnable = false →
    exec (.queueRegisterWrite q 0x08 value) s = .next (s.updQueue q fun x => { x with ringBase := BitVec.ofNat 52 (value / 4096) })) ∧
  (∀ (s : State) (q value : Nat), s.barUp q = true → bit value 8 = false →
    Runs (.queueRegisterWrite q 0x10 value) s fun t =>
      (t.queue q).ringEnable = false ∧ (t.queue q).ringFull = false ∧ (t.queue q).eventEnable = bit value 9 ∧ ∀ r, r ≠ q → t.queue r = s.queue r)

/-- A packet whose session id names no live session is answered `NO_SESSION` unauthenticated, whatever its sequence number, and consumes none (R20). -/
def Obligations.NoSessionWithoutSequenceCheck : Prop :=
  ∀ (s : State) (q nbytes : Nat) (data : List Byte) (plain : Option (List Byte)),
    let h := leNat (data.take 64)
    within 64 16384 nbytes = true → nbytes = 64 + bits h 63 48 → bits h 31 16 = q →
    ¬ ((s.queue q).dropTag = some (bits h 159 128) ∧ 0 < bits h 207 192) →
    (∀ x ∈ s.sessions, ¬ (x.id = bits h 47 32 ∧ x.live = true)) →
    let t := s.checkPacket q nbytes data plain
    let r : Response := { typ := finalType (bits h 7 0), status := .noSession, queue := q, session := 0, seq := 0, tag := bits h 159 128, step := 0,
                          retry := 0, payload := [], cmd := none }
    (t.queue q).lastSeq = (s.queue q).lastSeq ∧ t.port.inFlight = s.port.inFlight ∧
      (t.queue q).store = (s.queue q).store ++ [r]

/-- The packet of a queue's first doorbell is taken once the store can hold its final response: the slot is free again, and a whole command that passes
steps 1 to 8 stands in flight with its sequence number consumed (R273, R275, R291). The packets of a job's queue wait while its recovery region is full (R363). -/
def Claims.PacketTakenAndChecked : Prop :=
  (∀ (s : State) (q : Nat) (plain : Option (List Byte)), (s.queue q).job ≠ none → s.regionFull = true → exec (.packetTake q plain) s = .next s) ∧
  ∀ (s : State) (q slot : Nat) (rest : List (Nat × Nat)) (plain : List Byte) (x : Session),
    let data := ((s.queue q).slots.getD slot []).take (64 + plain.length)
    let h := leNat (data.take 64)
    let c := headerCommand q h plain
    (s.queue q).bells = (slot, 64 + plain.length) :: rest → plain.length ≤ 16320 → s.port.ide = 2 →
    (s.queue q).hasRoom (finalEntries (leAt data 0 1)) = true →
    bits h 63 48 = plain.length → bits h 31 16 = q → bits h 191 160 = plain.length → bits h 207 192 = 0 → bit h 8 = false →
    x ∈ s.sessions → x.id = c.session → x.live = true → x.transport = .doe → (s.queue q).session = c.session → c.session ≠ 0 →
    c.seq = (s.queue q).lastSeq + 1 → (s.queue q).chain = none → listedOpcodes.contains c.opcode = true →
    s.gate7 q c.opcode = none → s.gate8 q c.opcode plain = none → ((s.queue q).job ≠ none → s.regionFull = false) →
    Runs (.packetTake q (some plain)) s fun t =>
      (t.queue q).lastSeq = c.seq ∧ (t.queue q).bells = rest ∧
        t.port.inFlight = s.port.inFlight ++ [{ cmd := c, stage := .arrived, job := (s.queue q).job, accept := none, logged := false }] ∧
        (t.queue q).store = (s.queue q).store ∧ (t.queue q).reserved = (s.queue q).reserved + finalEntries (leAt data 0 1) ∧
        ∀ r, r ≠ q → t.queue r = s.queue r

/-- A `STEP_SUBMIT` beyond 16 steps not yet completed (R24, R275) completes with `NO_SPACE` and has no side effect: its sequence number is not consumed
and nothing stands in flight. -/
def Claims.SixteenStepsAtMost : Prop :=
  ∀ (s : State) (q slot : Nat) (rest : List (Nat × Nat)) (plain : List Byte) (x : Session) (j : Job),
    let data := ((s.queue q).slots.getD slot []).take (64 + plain.length)
    let h := leNat (data.take 64)
    let c := headerCommand q h plain
    (s.queue q).bells = (slot, 64 + plain.length) :: rest → plain.length ≤ 16320 → s.port.ide = 2 →
    (s.queue q).hasRoom (finalEntries (leAt data 0 1)) = true →
    bits h 63 48 = plain.length → bits h 31 16 = q → bits h 191 160 = plain.length → bits h 207 192 = 0 → bit h 8 = false →
    x ∈ s.sessions → x.id = c.session → x.live = true → x.transport = .doe → (s.queue q).session = c.session → c.session ≠ 0 →
    c.seq = (s.queue q).lastSeq + 1 → (s.queue q).chain = none → c.opcode = 0x20 → s.gate7 q 0x20 = none →
    (s.queue q).job.bind s.job? = some j → 16 ≤ j.steps.length → s.inFlight? c.session q c.seq = none → s.regionFull = false →
    Runs (.packetTake q (some plain)) s fun t =>
      (t.queue q).lastSeq = (s.queue q).lastSeq ∧ t.port.inFlight = s.port.inFlight ∧ t.jobs = s.jobs ∧ t.sessions = s.sessions ∧
        (t.queue q).store = (s.queue q).store ++ [{ finalResponse c .noSpace [] 0 with seq := (s.queue q).rspSeq + 1 }]

/-- The front response is written to its ring entry under the ring's phase and its session's tag, and the tail moves by the entries it takes (R291, R294); a
response that does not fit sets `RING_FULL` and is counted, and each further second raises 0x2202. The completion of a step waits for those of earlier steps (R32). -/
def Claims.ResponsesReachTheRing : Prop :=
  (∀ (s : State) (q : Nat) (r : Response) (rest : List Response), (s.queue q).store = r :: rest → (s.queue q).ringEnable = true →
    s.port.ide = 2 → s.port.width ≠ 0 → s.outOfStepOrder r = false → (s.queue q).fits r.entries = true →
    Runs (.responseWrite q) s fun t =>
      (t.queue q).written = some { base := 4096 * (s.queue q).ringBase.toNat, entry := (s.queue q).ringTail.toNat % 2 ^ (s.queue q).ringLog2,
                                   header := r.header (s.queue q).phase (s.rspTag r), rsp := r } ∧
        (t.queue q).ringTail = (s.queue q).ringTail + BitVec.ofNat 32 r.entries ∧ (t.queue q).ringFull = false ∧
        rest <+: (t.queue q).store) ∧
  (∀ (s : State) (q : Nat) (r : Response) (rest : List Response), (s.queue q).store = r :: rest → (s.queue q).ringEnable = true →
    s.port.ide = 2 → s.port.width ≠ 0 → s.outOfStepOrder r = false → (s.queue q).fits r.entries = false → (s.queue q).ringFull = false →
    Runs (.responseWrite q) s fun t =>
      (t.queue q).ringFull = true ∧ (t.queue q).store = r :: rest ∧ (t.queue q).ringTail = (s.queue q).ringTail ∧ Added s t 0x2210 4 1) ∧
  (∀ (s : State) (q : Nat) (r : Response) (rest : List Response), (s.queue q).store = r :: rest → s.outOfStepOrder r = true →
    exec (.responseWrite q) s = .next s) ∧
  (∀ (s : State) (q : Nat), (s.queue q).ringFull = true → (s.queue q).ringEnable = true →
    Runs (.ringFull q) s fun t => Raised s t 0x2202 .cxl 0 0 q ((s.queue q).fullSeconds + 1) 0)

/-- A chain whose next packet does not come is discarded with one `TIMEOUT` (R274). -/
def Claims.ChainGapEndsTheChain : Prop :=
  ∀ (s : State) (q : Nat) (ch : Chain) (c : Command), (s.queue q).chain = some ch → s.chainCommand q = some c → c.queue = q →
    (s.live? c.session).isSome = true → (s.queue q).session = c.session →
    Runs (.chainGapTimeout q) s fun t =>
      (t.queue q).chain = none ∧ t.inFlight? c.session q c.seq = none ∧
        (t.queue q).store = (s.queue q).store ++ [{ finalResponse c .timeout [] 0 with seq := (s.queue q).rspSeq + 1 }]

/-- The link (R268 to R271, R468): it trains with power good and `PERST_N` released, and again to more, degrades to fewer lanes or a lower rate with a count and event 0x2201, is keyed by the host, and
goes down with every queue's ring registers at reset when `PERST_N` or the reference clock goes. Readings and choices of the model in it: log entry 107. -/
def Obligations.LinkAndPortReset : Prop :=
  (∀ (s : State) (width rate : Nat), s.bring.pwrGood = true → s.port.perst = false → s.port.width ≤ width → s.port.rate ≤ rate → linkForm width rate = true →
    exec (.cxlLinkTrained width rate) s = .next { s with port := { s.port with width := width, rate := rate } }) ∧
  (∀ (s : State) (width rate : Nat), linkForm width rate = true → (width < s.port.width ∨ rate < s.port.rate) →
    Runs (.linkDegraded width rate) s fun t =>
      t.port.width = width ∧ t.port.rate = rate ∧ Added s t 0x2200 5 1 ∧ Raised s t 0x2201 .cxl 0 0 width rate 0) ∧
  (∀ (s : State) (both : Bool), 0 < s.port.width → exec (.ideKm both) s = .next { s with port := { s.port with ide := if both then 2 else 1 } }) ∧
  (∀ s : State, exec .perstDeassert s = .next { s with port := { s.port with perst := false } }) ∧
  (∀ s : State, Runs .perstAssert s fun t =>
    t.port.perst = true ∧ t.port.width = 0 ∧ t.port.ide = 0 ∧
      (∀ q, (t.queue q).ringEnable = false ∧ (t.queue q).ringHead = 0 ∧ (t.queue q).ringTail = 0 ∧ (t.queue q).ringBase = 0 ∧
        (t.queue q).ringLog2 = 8 ∧ (t.queue q).bells = [] ∧ (t.queue q).busy = 0 ∧ (t.queue q).session = (s.queue q).session)) ∧
  (∀ s : State, 0 < s.port.width → Runs .refclkLoss s fun t =>
    t.port.width = 0 ∧ t.port.rate = 0 ∧ t.port.ide = 0 ∧ ∀ q, (t.queue q).ringEnable = false ∧ (t.queue q).session = (s.queue q).session)

/-! ### Sessions -/

/-- The responder answers each request of Table 20-4 over DOE once phase 1 is done and the link is up, changing nothing but its last answer and the free
values drawn (R382, R388, R389, R468). Readings and choices of the model in it: log entries 15, 17, 40. -/
def Obligations.SpdmRequestsAnswered : Prop :=
  ∀ s : State, s.responds .doe = true →
    exec .getVersion s = .next { s with reply := some (.spdm .doe .version [0x13]) } ∧
    (Runs .getCapabilities s fun t => Only [.reply, .draws] s t ∧ ∃ d, t.reply = some (.spdm .doe .capabilities d)) ∧
    (Runs .negotiateAlgorithms s fun t => Only [.reply, .draws] s t ∧ ∃ d, t.reply = some (.spdm .doe .algorithms d)) ∧
    (Runs .challenge s fun t => Only [.reply, .draws] s t ∧ ∃ d, t.reply = some (.spdm .doe .challengeAuth d)) ∧
    exec .getDigests s = .next { s with reply := some (.spdm .doe .digests (bytes64 (Config.sha512 s.certChain))) } ∧
    (∀ off len, exec (.getCertificate off len) s = .next { s with reply := some (.spdm .doe .certificate (slice s.certChain off len)) }) ∧
    (∀ i, exec (.getMeasurements i) s = .next { s with reply := some (.spdm .doe .measurements (s.measurement i)) }) ∧
    (∀ id, s.liveOver .doe id = true → exec (.heartbeat id) s = .next { s with reply := some (.spdm .doe .heartbeatAck []) })

/-- A session forms in three steps (R390 to R392): `KEY_EXCHANGE` takes the lowest free id of 1 to 64, the encapsulated exchange gives the requester's
root and tenant identity, and `FINISH` makes it live in the role the root gives. With every id in use the answer is `SessionLimitExceeded`. -/
def Claims.SessionsForm : Prop :=
  (∀ (s : State) (i : Nat), s.responds .doe = true → i < 64 → s.session? (i + 1) = none → (∀ k < i, (s.session? (k + 1)).isSome = true) →
    Runs .keyExchange s fun t =>
      ∃ x d, t.sessions = s.sessions ++ [x] ∧ x.id = i + 1 ∧ x.live = false ∧ x.transport = .doe ∧
        t.reply = some (.spdm .doe (.keyExchangeRsp (i + 1)) d) ∧ Only [.sessions, .reply, .draws] s t) ∧
  (∀ s : State, s.responds .doe = true → (∀ k < 64, (s.session? (k + 1)).isSome = true) →
    exec .keyExchange s = .next { s with reply := some (.spdm .doe .sessionLimitExceeded []) }) ∧
  (∀ (s : State) (id : Nat) (root leaf : List Byte) (x : Session), s.responds .doe = true → s.session? id = some x → x.live = false →
    x.transport = .doe →
    exec (.encapsulatedExchange id root leaf) s =
      .next { s.updSession id (fun x => { x with root := some root, tenant := leaf }) with reply := some (.spdm .doe .encapsulatedAck []) }) ∧
  (∀ (s : State) (id : Nat) (x : Session) (root : List Byte) (r : Role), s.responds .doe = true → s.session? id = some x → x.live = false →
    x.transport = .doe → x.root = some root → s.roleOf root = some r →
    Runs (.finish id true) s fun t =>
      ∃ y, t.session? id = some y ∧ y.live = true ∧ y.role = r ∧ y.tenant = x.tenant ∧ Only [.sessions, .reply, .draws] s t ∧
        ∀ k, k ≠ id → t.session? k = s.session? k)

/-- A key update over a live session renews the keys of its secured messages and nothing else (R392). -/
def Claims.SpdmKeyUpdateRenewsKeys : Prop :=
  ∀ (s : State) (id : Nat), s.responds .doe = true → s.liveOver .doe id = true →
    exec (.spdmKeyUpdate id) s =
      .next { s.updSession id (fun x => { x with spdmKeys := x.spdmKeys + 1 }) with reply := some (.spdm .doe .keyUpdateAck []) }

/-- A session ends by `END_SESSION` or by its heartbeat (R22, R393): it is gone, its queues hold neither it nor its job, what it had in flight answers to nobody,
the jobs it held are orphaned and stay, event 0x8005 names it and the cause, and other sessions keep their place. -/
def Claims.SessionsEnd : Prop :=
  (∀ (s : State) (id : Nat), s.responds .doe = true → s.liveOver .doe id = true →
    Runs (.endSession id) s fun t =>
      t.session? id = none ∧ (∀ q, (t.queue q).session ≠ id ∨ id = 0) ∧ (∀ j ∈ t.jobs, j.holder ≠ some id) ∧ (∀ f ∈ t.port.inFlight, f.cmd.session ≠ id) ∧
        t.jobs.map (·.key) = s.jobs.map (·.key) ∧ Raised s t 0x8005 .security 0 0 id 0 0 ∧ t.carrel = s.carrel ∧ t.tiers = s.tiers) ∧
  (∀ (s : State) (id : Nat) (x : Session), x ∈ s.sessions → x.id = id → x.live = true → x.heartbeat ≠ 0 →
    Runs (.sessionHeartbeatExpired id) s fun t =>
      t.session? id = none ∧ (∀ q, (t.queue q).session ≠ id ∨ id = 0) ∧ (∀ j ∈ t.jobs, j.holder ≠ some id) ∧ (∀ f ∈ t.port.inFlight, f.cmd.session ≠ id) ∧
        t.jobs.map (·.key) = s.jobs.map (·.key) ∧ Raised s t 0x8005 .security 0 0 id 1 0 ∧ t.carrel = s.carrel ∧ t.tiers = s.tiers)

/-! ### Jobs and tables -/

/-- `JOB_OPEN` (R279): the job stands in the lowest free slot with acceptance index 1 and its command logged, every listed queue is bound to it and a free
one to the session too, and each `ROLE_MAP` word that holds a role is in the role map with the slot. -/
def Claims.JobsOpen : Prop :=
  ∀ (s : State) (q : Nat) (f : InFlight), s.Front q 0x01 f → f.job = none → openResume f.cmd.payload = false → s.openBads f = [] →
    s.job? s.freeSlot = none →
    let j := s.jobAsked f
    Runs (.jobOpen q) s fun t =>
      (∃ k, Accepted s t { f with job := some j.slot } j k (.done .ok (openAnswer j.slot 0) 0) ∧
        k = { j with accepted := 1, log := k.log, logEnd := k.logEnd }) ∧
      (∀ p ∈ openQueues f.cmd.payload, (t.queue p).job = some j.slot ∧ ((s.queue p).session = 0 → (t.queue p).session = f.cmd.session)) ∧
      (∀ i < 256, let w := nth (filledWords f.cmd.payload j.slot) i
        t.roleWord i = if w = 0 then s.roleWord i else w)

/-- `JOB_RESUME` (R280): an orphaned job of the same tenant identity is held by the session, through the queues it lists, as it was otherwise. -/
def Claims.JobsResume : Prop :=
  ∀ (s : State) (q : Nat) (f : InFlight) (j : Job), s.Front q 0x01 f → f.job = none → openResume f.cmd.payload = true → s.resumeBads f = [] →
    s.orphan? f = some j → s.job? j.slot = some j →
    Runs (.jobResume q) s fun t =>
      ∃ k, Accepted s t { f with job := some j.slot } j k (.done .ok (openAnswer j.slot j.body.nextStep) 0) ∧
        k = { j with holder := some f.cmd.session, queues := openQueues f.cmd.payload, eventQueue := openEventQueue f.cmd.payload,
                     accepted := j.accepted + 1, log := k.log, logEnd := k.logEnd }

/-- Closing (R22, R45, R47, R281): `JOB_CLOSE` takes its acceptance index and waits for what came before it and for its record; a job whose hold time
ends with nothing in flight is gone with its tiles, and every tile it held is `IDLE` with a carrel of zeros. -/
def Claims.JobsClose : Prop :=
  (∀ (s : State) (q : Nat) (f : InFlight) (j : Job), s.Ready q 0x02 f j → f.cmd.payload = [] → j.steps.find? (·.stalled) = none →
    Runs (.jobClose q) s fun t =>
      ∃ k, Accepted s t f j k .waiting ∧ k.state = .closing (j.accepted + 1) (some f.asker) false ∧ k.body = j.body ∧ k.steps = j.steps) ∧
  (∀ (s : State) (slot : Nat) (j : Job), s.job? slot = some j → j.holder = none → j.state = .running → j.steps = [] → j.deferred = [] →
    (∀ f ∈ s.port.inFlight, f.job ≠ some slot) →
    Runs (.orphanJobHoldTime slot) s fun t =>
      t.job? slot = none ∧ (∀ n, n ≠ slot → t.job? n = s.job? n) ∧ (∀ x ∈ t.tiers.tiles, x.key.slot ≠ slot) ∧
        (∀ q, (t.queue q).job ≠ some slot) ∧
        ∀ i < 256, roleA (s.roleWord i) ≠ 0 → roleSlot (s.roleWord i) = slot →
          t.roleWord i = 0 ∧ ∀ a < 2 ^ 22, carrelByte t.carrel (carrelAt i a) = 0)

/-- `TABLE_CREATE` and the three modes of `SHELF_SET` (R132, R138, R141): the table stands with edition 1 current and every page absent; the shelf set is
replaced, appended to, or loses the entries listed. Each takes effect at once and changes nothing else of its job. -/
def Claims.TablesAndShelfSets : Prop :=
  ∀ (s : State) (q : Nat) (f : InFlight) (j : Job),
    (s.Ready q 0x10 f j → s.tableCreateBads j f.cmd.payload = [] →
      Runs (.tableCreate q) s fun t => ∃ k, Accepted s t f j k (.done .ok [] 0) ∧
        k.body = { j.body with tables := j.body.tables ++ [newTable f.cmd.payload (j.accepted + 1)] }) ∧
    (s.Ready q 0x13 f j → s.shelfBads j f.cmd.payload = [] →
      let es := shelfEntries f.cmd.payload
      (shelfMode f.cmd.payload = 0 → Runs (.shelfReplace q) s fun t => ∃ k, Accepted s t f j k (.done .ok [] 0) ∧
        k.body = { j.body with shelfSet := es }) ∧
      (shelfMode f.cmd.payload = 1 → Runs (.shelfAdd q) s fun t => ∃ k, Accepted s t f j k (.done .ok [] 0) ∧
        k.body = { j.body with shelfSet := j.body.shelfSet ++ es }) ∧
      (shelfMode f.cmd.payload = 2 → Runs (.shelfRemove q) s fun t => ∃ k, Accepted s t f j k (.done .ok [] 0) ∧
        k.body = { j.body with shelfSet := j.body.shelfSet.filter fun e => !es.contains e }))

/-- `TABLE_LOAD` (R133, R139, R267): rows for the staging area are staged at once; a load of the current edition takes effect
at once where no step is in flight, no earlier load waits and no page of it moves between tiers, and a whole annex-held page it covers is device-held again,
or with `ANNEX` its pages are annex-held; otherwise it waits, for the edition current now, and nothing has changed yet. -/
def Claims.TableLoads : Prop :=
  ∀ (s : State) (q : Nat) (f : InFlight) (j : Job) (a : Table), s.Ready q 0x11 f j → s.tableLoadBads j f.cmd.payload = [] →
    let h := loadHead f.cmd.payload
    j.table? h.table = some a →
    (h.annex = false → h.staging = true →
      Runs (.tableLoad q) s fun t => ∃ k b, Accepted s t f j k (.done .ok [] 0) ∧ k.table? h.table = some b ∧ b.edition = a.edition ∧ b.annex = a.annex ∧
        ∀ r, h.first ≤ r → r < h.first + h.count → (s.columns a r).isSome = true → ∃ x ∈ b.staged, x.row = r) ∧
    (h.annex = false → h.staging = false → j.steps = [] → j.deferred = [] → s.loadMoves j f.cmd.payload a.edition = false →
      Runs (.tableLoad q) s fun t => ∃ k b, Accepted s t f j k (.done .ok [] 0) ∧ k.table? h.table = some b ∧ b.edition = a.edition ∧ b.staged = a.staged ∧
        ∀ p ∈ h.pages, h.covers a p = true → (a.owner a.edition p, p) ∉ b.annex) ∧
    (h.annex = true → h.staging = false → j.steps = [] → j.deferred = [] → s.loadMoves j f.cmd.payload a.edition = false →
      Runs (.tableLoadAnnex q) s fun t => ∃ k b, Accepted s t f j k (.done .ok [] 0) ∧ k.table? h.table = some b ∧ b.staged = a.staged ∧
        (∀ p ∈ h.pages, (a.owner a.edition p, p) ∈ b.annex) ∧ ∀ m ∈ a.annex, m ∈ b.annex) ∧
    (h.staging = false → j.steps ≠ [] ∨ j.deferred ≠ [] ∨ s.loadMoves j f.cmd.payload a.edition = true →
      Runs (if h.annex then .tableLoadAnnex q else .tableLoad q) s fun t => ∃ k, Accepted s t f j k .waiting ∧ k.body = j.body ∧ t.tiers = s.tiers ∧
        k.deferred = j.deferred ++ [{ accept := j.accepted + 1, asker := f.asker, opcode := f.cmd.opcode, payload := f.cmd.payload,
                                      after := (j.steps.getLast?).map (·.num), edition := a.edition }])

/-- `EDITION_PUBLISH` (R134 to R136, R140): with one live edition the staged pages become a new one and the staging area is empty; with two the publish is
deferred with event 0x6006; `DISCARD` empties the staging area and cancels what is deferred. -/
def Claims.PublishAndDiscard : Prop :=
  ∀ (s : State) (q : Nat) (f : InFlight) (j : Job) (a : Table), s.Ready q 0x12 f j → s.publishBads j f.cmd.payload = [] →
    let id := bits (leAt f.cmd.payload 0 32) 11 0
    j.table? id = some a →
    (publishMode f.cmd.payload = 0 → a.previous = none →
      Runs (.editionPublish q) s fun t => ∃ k b, Accepted s t f j k (.done .ok [] 0) ∧ k.table? id = some b ∧ b.edition = a.edition + 1 ∧ b.staged = [] ∧
        b.stagedPages = [] ∧ b.deferred = false ∧ b.previous =
          if j.steps.any (fun x => x.edition? id == some a.edition)
              || j.deferred.any (fun d => d.opcode == 0x11 && bits (leAt d.payload 0 32) 11 0 == id && d.edition == a.edition) then some a.edition else none) ∧
    (publishMode f.cmd.payload = 0 → a.previous ≠ none →
      Runs (.editionPublish q) s fun t => ∃ k, Accepted s t f j k (.done .deferred [] 0) ∧ Raised s t 0x6006 .job j.slot 0 id (a.edition + 1) 0 ∧
        k.body = j.body.updTable id fun b => { b with deferred := true }) ∧
    (publishMode f.cmd.payload = 1 →
      Runs (.discard q) s fun t => ∃ k, Accepted s t f j k (.done .ok [] 0) ∧
        k.body = j.body.updTable id fun b => { b with staged := [], stagedPages := [], deferred := false })

/-! ### Loads, parameters, results and steps -/

/-- `GRAPH_LOAD` and `FEATURE_LOAD` (R31, R282): a segment's catalogue record names its section and is sealed by the final one; a feature tensor exists
from its acceptance, and its tiles change once no earlier step is in flight and no earlier load waits. -/
def Claims.CataloguesAndFeatures : Prop :=
  ∀ (s : State) (q : Nat) (f : InFlight) (j : Job),
    (s.Ready q 0x14 f j → s.graphBads j f.cmd.payload = [] →
      let h := graphHead f.cmd.payload
      Runs (.graphLoad q) s fun t => ∃ k g, Accepted s t f j k (.done .ok [] 0) ∧ k.graph? h.graph = some g ∧ g.isSealed = h.final ∧ h.sec ∈ g.sections ∧
        ((j.graph? h.graph).map (·.nodes)).getD h.nodes = g.nodes ∧ ∀ n, n ≠ h.graph → k.graph? n = j.graph? n) ∧
    (s.Ready q 0x15 f j → s.featureBads j f.cmd.payload = [] →
      let h := featureHead f.cmd.payload
      Runs (.featureLoad q) s fun t => ∃ k, Accepted s t f j k (if j.steps = [] ∧ j.deferred = [] then .done .ok [] 0 else .waiting) ∧
        k.body.features = (if h.create then j.body.features ++ [⟨h.id, h.graph, h.elem, h.width, j.accepted + 1⟩] else j.body.features) ∧
        (j.steps ≠ [] ∨ j.deferred ≠ [] → t.tiers = s.tiers))

/-- Writing a stored tile: its image is the bytes written, an empty image leaves it `ABSENT`, and every other tile is as it was (R155, R159, R258). -/
def Claims.TilesReadWhatWasWritten : Prop :=
  ∀ (s : State) (k : TileKey) (image : List Byte) (die : Option Nat) (pinned : Bool),
    let t := s.putTile k image die pinned
    t.image k = image ∧ (∃ x, t.tile? k = some x ∧ (x.tier = .absent ↔ image = [])) ∧
      ∀ l, l ≠ k → t.tile? l = s.tile? l

/-- `PARAM_READ` and `PARAM_WRITE` with no step in flight (R31, R217, R287): a read answers with the rows' bytes and changes nothing, a write replaces the
rows of its part and no other row or part; with steps in flight, or an earlier command of these waiting, either waits. -/
def Claims.ParametersReadAndWritten : Prop :=
  ∀ (s : State) (q : Nat) (f : InFlight) (j : Job) (p : Param),
    let h := paramHead f.cmd.payload
    j.param? h.param = some p →
    (s.Ready q 0x30 f j → s.paramBads false j f.cmd.payload = [] →
      Runs (.paramRead q) s fun t => ∃ k, k.body = j.body ∧ t.tiers = s.tiers ∧
        Accepted s t f j k (if j.steps = [] ∧ j.deferred = [] then .done .ok (s.paramData j f.cmd.payload) 0 else .waiting)) ∧
    (s.Ready q 0x31 f j → s.paramBads true j f.cmd.payload = [] →
      let cols := pRecCols p.rec'
      let w := ((j.group (pRecGroup p.rec')).partType h.part).bits
      Runs (.paramWrite q) s fun t => ∃ k r, k.param? h.param = some r ∧ r.rec' = p.rec' ∧
        (∀ n, n ≠ h.param → k.param? n = j.param? n) ∧
        if j.steps = [] ∧ j.deferred = [] then
          Accepted s t f j k (.done .ok [] 0) ∧
            (∀ i < h.rows, rowOf (r.part h.part) cols (h.first + i) = unpackElems w cols (f.cmd.payload.drop (32 + i * cols * w / 8))) ∧
            (∀ n, n < h.first ∨ h.first + h.rows ≤ n → rowOf (r.part h.part) cols n = rowOf (p.part h.part) cols n) ∧
            ∀ u < 3, u ≠ h.part → r.part u = p.part u
        else Accepted s t f j k .waiting ∧ r = p)

/-- `RESULT_READ` and `RESULT_RELEASE` (R286): a completed step answers with the bytes asked for, marked `OK_REPEAT` where some were delivered before, and
is released once; a step still in flight answers `NOT_READY` with a hint of 1 to 1,000,000 μs, a stalled one `STALLED`. -/
def Claims.ResultsReadAndReleased : Prop :=
  ∀ (s : State) (q : Nat) (f : InFlight) (j : Job),
    (∀ r, s.Ready q 0x22 f j → s.resultBads f = [] → j.result? f.cmd.step = some r →
      let off := bits (leAt f.cmd.payload 0 16) 31 0
      let n := min (bits (leAt f.cmd.payload 0 16) 47 32) (r.image.length - off)
      Runs (.resultRead q) s fun t => ∃ k, (∃ u, k.result? f.cmd.step = some u ∧ u.image = r.image ∧ u.delivered = r.delivered ++ [(off, n)]) ∧
        Accepted s t f j k (.done (if r.delivered.any (fun d => decide (off < d.1 + d.2) && decide (d.1 < off + n)) then .okRepeat else .ok)
          (slice r.image off n) 0)) ∧
    (s.Ready q 0x22 f j → s.resultBads f = [] → j.result? f.cmd.step = none →
      Runs (.resultRead q) s fun t => ∃ k, k.body = j.body ∧
        if ((j.step? f.cmd.step).map (·.stalled)).getD false then Accepted s t f j k (.done .stalled [] 0)
        else ∃ n, 1 ≤ n ∧ n ≤ 1000000 ∧ Accepted s t f j k (.done .notReady [] n)) ∧
    (s.Ready q 0x23 f j → f.cmd.payload = [] → (j.result? f.cmd.step).isSome = true →
      Runs (.resultRelease q) s fun t => ∃ k, Accepted s t f j k (.done .ok [] 0) ∧ k.result? f.cmd.step = none ∧
        ∀ n, n ≠ f.cmd.step → k.result? n = j.result? n)

/-- `STEP_SUBMIT` (R24, R28, R29, R283), no message of a peer waiting: the step is bound to the seeds it carries, the editions and entries that stand
after what its acceptance lets take effect, and the role map; the next step number follows it, and its command waits for the step. Taken from the log of a
job whose place the module fills, it is bound as it was where the Deposit holds its binding (R38, R372). -/
def Claims.StepsAreBoundWhenAccepted : Prop :=
  (∀ (s : State) (q : Nat) (f : InFlight) (j : Job), s.Ready q 0x20 f j → s.submitBads f = [] → s.fabric.requests = [] → j.filling = false →
    (∀ r ∈ j.decisions, r.step ≠ f.cmd.step) →
    Runs (.stepSubmit q) s fun t => ∃ k x, t.job? j.slot = some k ∧ k.steps = j.steps ++ [x] ∧ k.accepted = j.accepted + 1 ∧
      k.body.nextStep = f.cmd.step + 1 ∧ f.cmd.step = j.body.nextStep ∧ s.commandRecord j f ∈ k.log ∧
      x.num = f.cmd.step ∧ x.accept = j.accepted + 1 ∧ x.asker = f.asker ∧ x.seeds = submitSeeds f.cmd.payload ∧
      x.editions = k.body.tables.map (fun a => (a.id, a.edition)) ∧ x.bind = k.body.dict ∧ x.roles = s.jobRoles j.slot ∧
      (∃ r, k.log.getLast? = some r ∧ r.kind = 3 ∧ r.step = x.num) ∧
      t.inFlight? f.cmd.session f.cmd.queue f.cmd.seq = some { f with stage := .waiting, accept := some (j.accepted + 1), logged := false }) ∧
  (∀ (s : State) (q : Nat) (f : InFlight) (j : Job), s.arrivedOn q 0x20 = some f → f.replayed = true → f.job.bind s.job? = some j → j.filling = true →
    s.fabric.requests = [] →
    Runs (.stepSubmit q) s fun t => ∃ k x, t.job? j.slot = some k ∧ k.steps = j.steps ++ [x] ∧ x.num = f.cmd.step ∧ x.seeds = submitSeeds f.cmd.payload ∧
      k.accepted = max j.accepted (f.accept.getD 0) ∧
      ∀ d y, j.deposit = some d → d.steps.find? (fun z => z.num == f.cmd.step) = some y → x.bind = y.bind ∧ x.editions = y.editions ∧ x.roles = y.roles)

/-- `ROW_SUPPLY` (R99, R100, R284), no message of a peer waiting: each row not supplied before is held with the data supplied, where no copy of it was held
already, and its call has it; the acknowledgement of a `RETURN` lets its rows go. -/
def Claims.SuppliedRowsAreHeld : Prop :=
  (∀ (s : State) (q : Nat) (f : InFlight) (j : Job), s.Ready q 0x21 f j → s.supplyBads f = [] → s.fabric.requests = [] →
    (supplyHead f.cmd.payload).ack = false →
    Runs (.rowSupply q) s fun t => ∃ k, t.job? j.slot = some k ∧ k.accepted = j.accepted + 1 ∧
      ∀ r ∈ j.newRows f.cmd.payload,
        ((∃ y ∈ j.body.held, y.table = (supplyHead f.cmd.payload).table ∧ y.row = r.1) ∨
          ∃ x ∈ k.body.held, x.call = (supplyHead f.cmd.payload).call ∧ x.row = r.1 ∧ x.data = r.2.1) ∧
        ∀ c ∈ k.body.calls, c.id = (supplyHead f.cmd.payload).call → ∀ y ∈ c.rows, y.row = r.1 → y.supplied = true) ∧
  (∀ (s : State) (q : Nat) (f : InFlight) (j : Job), s.Ready q 0x21 f j → s.supplyBads f = [] → (supplyHead f.cmd.payload).ack = true →
    Runs (.rowSupplyAck q) s fun t => ∃ k, Accepted s t f j k (.done .ok [] 0) ∧
      (∀ x ∈ k.body.held, (supplyHead f.cmd.payload).call ∉ x.returns) ∧
      ∀ x ∈ k.body.held, ∃ y ∈ j.body.held, x.call = y.call ∧ x.row = y.row ∧ x.data = y.data)

/-- Deposits over the host port (R288, R366): an export of no Deposit answers 64 zero bytes, one of a Deposit is noted as exported; a final import sets the
job running from the Deposit's contents at the step after it, and any other only counts its chunks. Readings and choices of the model in it: log entries 17, 36, 37, 38. -/
def Obligations.DepositsExportAndImport : Prop :=
  ∀ (s : State) (q : Nat) (f : InFlight) (j : Job),
    (s.Ready q 0x38 f j → f.cmd.payload.length = 16 → bits (leNat f.cmd.payload) 127 1 = 0 →
      Runs (.depositExport q) s fun t => ∃ k, k.body = j.body ∧ match j.deposit with
        | none => Accepted s t f j k (.done .ok (zeros 64) 0)
        | some d => t.job? j.slot = some k ∧ k.exported = some d.id ∧ k.accepted = j.accepted + 1 ∧ k.log = j.log ++ [s.commandRecord j f]) ∧
    (∀ tagsOk signed gen tenant d, s.Ready q 0x39 f j → s.importBads tagsOk signed gen tenant d f = [] →
      let h := importHead f.cmd.payload
      Runs (.depositImport q tagsOk signed gen tenant d) s fun t => ∃ k, t.job? j.slot = some k ∧ k.nextChunk = bits h 63 32 + bits h 95 64 ∧
        k.log = j.log ++ [s.commandRecord j f] ∧
        if bit h 1 then
          k.state = .running ∧ k.accepted = max (j.accepted + 1) d.accepted ∧ k.body.nextStep = (match d.step with | some n => n + 1 | none => 0) ∧
            k.body.lastDone = d.step ∧ k.body.tables.map (fun a => (a.id, a.edition)) = d.body.tables.map (fun a => (a.id, a.edition)) ∧
            k.body.params = d.body.params ∧ k.body.shelf = [] ∧
            ∀ p, p ∈ k.body.dict ↔ p ∈ d.body.dict ∧ ∃ r, findEntry (p.1 / 256) (p.1 % 256) = some r ∧ r.access ≠ .rw ∧ r.access ≠ .wo
        else k.state = j.state ∧ k.body = j.body ∧ k.accepted = j.accepted + 1 ∧ t.tiers = s.tiers)

/-! ### The dictionary in band -/

/-- `NOP` completes and does nothing else; `EVENT_ACK` keeps the greatest `UP_TO` of its session and frees the events it covers on the session's queues
(R278, R292). -/
def Claims.NopAndEventAck : Prop :=
  ∀ (s : State) (q : Nat) (f : InFlight),
    (s.Front q 0x7F f → f.cmd.payload = [] → Runs (.nop q) s fun t => Completes s t f .ok [] ∧ t.jobs.map (·.body) = s.jobs.map (·.body)) ∧
    (∀ x, s.Front q 0x41 f → f.cmd.payload.length = 8 → s.session? f.cmd.session = some x →
      let n := leNat f.cmd.payload
      Runs (.eventAck q) s fun t => Completes s t f .ok [] ∧ (t.session? f.cmd.session).map (·.ackUpTo) = some (max x.ackUpTo n) ∧
        (∀ r, (s.queue r).session = f.cmd.session → (t.queue r).events =
          (if x.ackUpTo ≤ n then (s.queue r).events.filter (fun e => decide (n < e)) else (s.queue r).events)) ∧
        ∀ r, (s.queue r).session ≠ f.cmd.session → (t.queue r).events = (s.queue r).events)

/-- Reads in band answer with the entry's bytes, or the bytes asked of a `DOMAIN`, as they stand once the command is accepted (R289, R425, R427). -/
def Claims.DictionaryReadsInBand : Prop :=
  ∀ (s : State) (q : Nat) (f : InFlight), s.Front q 0x40 f → dictHeadBads f.cmd.payload = [] → f.cmd.payload.length = 16 →
    let h := dictHead f.cmd.payload
    (∀ d, h.op = 0 → (s.readEntry f.acc h.index h.sub).isSome = true → (s.begun f).readEntry f.acc h.index h.sub = some d →
      Runs (.dictRead q) s fun t => Completes s t f .ok d) ∧
    (∀ r n d, h.op = 2 → within 1 16320 h.len = true → s.readable f.acc h.index h.sub = some r → r.typ = .domain →
      (s.readBlock f.acc r h.index h.sub h.off h.len).isSome = true → (s.begun f).readBlock f.acc r h.index h.sub h.off h.len = some (n, d) →
      Runs (.dictReadBlock q) s fun t => Completes s t f .ok d)

/-- R425: a `DOMAIN` is read and written only by the block services, and every other type only by `READ` and `WRITE`; the other service completes with
`RANGE`, in band at `INDEX` and with no effect, and over GDP as the answer of the frame. -/
def Obligations.TypesChooseTheirService : Prop :=
  (∀ (s : State) (q : Nat) (f : InFlight) (r : Entry), s.Front q 0x40 f → dictHeadBads f.cmd.payload = [] →
    let h := dictHead f.cmd.payload
    let turnedAway : Host.Outcome State Fault Refusal := .next (s.refuseWith f.cmd .range (fieldOffset 0))
    findEntry h.index h.sub = some r →
    (r.typ = .domain → (h.op = 0 → f.cmd.payload.length = 16 → exec (.dictRead q) s = turnedAway) ∧ (h.op = 1 → exec (.dictWrite q) s = turnedAway)) ∧
    (r.typ ≠ .domain → (h.op = 2 → f.cmd.payload.length = 16 → exec (.dictReadBlock q) s = turnedAway) ∧
      (h.op = 3 → 16 < f.cmd.payload.length → exec (.dictWriteBlock q) s = turnedAway))) ∧
  (∀ (s : State) (g : GdpFrame) (x : Session) (r : Entry), findEntry g.index g.subindex = some r →
    (r.typ = .domain → (s.Serves g 1 x → Runs (.gdpRead g) s fun t => Replies t g x .range [] ∧ t.dict = s.dict) ∧
      (s.Serves g 2 x → Runs (.gdpWrite g) s fun t => Replies t g x .range [] ∧ t.dict = s.dict ∧ t.retainedWrites = s.retainedWrites)) ∧
    (r.typ ≠ .domain → (s.Serves g 3 x → Runs (.gdpReadBlock g) s fun t => Replies t g x .range [] ∧ t.dict = s.dict) ∧
      (s.Serves g 4 x → Runs (.gdpWriteBlock g) s fun t => Replies t g x .range [] ∧ t.dict = s.dict ∧ t.retainedWrites = s.retainedWrites ∧
        t.blocks = s.blocks)))

/-- A write in band of an entry without a row of its own (R289, R427, R428): a retained value waits for the delta record, any other takes effect at once, in
the module or in the job of the queue. A block's last piece does the same with the whole block, an earlier one is kept. -/
def Claims.DictionaryWritesInBand : Prop :=
  ∀ (s : State) (q : Nat) (f : InFlight) (r : Entry), s.Front q 0x40 f → dictHeadBads f.cmd.payload = [] →
    let h := dictHead f.cmd.payload
    let data := f.cmd.payload.drop 16
    let key := entryKey h.index h.sub
    let stored (t : State) (v : DVal) : Prop :=
      if r.retained then t.retainedWrites = s.retainedWrites ++ [{ key := key, value := v, asker := f.asker }] ∧ t.dict = s.dict
      else Completes s t f .ok [] ∧
        if h.index = 0xF010 ∧ h.sub = 1 then ∀ x ∈ t.sessions, x.id = f.cmd.session → x.describe = v.toNat
        else if r.jobScoped then ∃ j k, f.job.bind s.job? = some j ∧ t.job? j.slot = some k ∧ k.entry h.index h.sub = v
        else t.entry h.index h.sub = v
    findEntry h.index h.sub = some r → (h.op = 1 → ownWrite h.index h.sub = false → s.writeBads f.acc h.index h.sub data 16 = [] → Runs (.dictWrite q) s fun t => stored t (r.value data)) ∧
    (h.op = 3 → ownBlock h.index h.sub = false → data ≠ [] → s.blockBads f.acc h.index h.sub h.off data false = [] →
      (∀ all, s.blockStep f.acc h.index h.sub h.off data false = .took all false →
        Runs (.dictWriteBlock q) s fun t => Completes s t f .ok [] ∧ ∃ b, t.openBlock f.acc key = some b ∧ b.data = all ∧ b.next = all.length) ∧
      (∀ all, s.blockStep f.acc h.index h.sub h.off data false = .took all true →
        Runs (.dictWriteBlock q) s fun t => t.openBlock f.acc key = none ∧
          if h.index = 0x8020 ∧ h.sub = 3 then t.baseStaged = some (all, f.asker) else stored t (.blk all)))

/-- A write of a role map entry stands in the entry from its acceptance, and no other tile's entry changes (R44, R45). -/
def Claims.RoleMapWrites : Prop :=
  ∀ (s : State) (q : Nat) (f : InFlight), s.Front q 0x40 f → s.roleWriteBads f = [] →
    let h := dictHead f.cmd.payload
    h.op = 1 → within 0x4010 0x4013 h.index = true →
    Runs (.roleMapWrite q) s fun t => Completes s t f .ok [] ∧
      ∀ i < 256, t.roleWord i = if i = 64 * (h.index - 0x4010) + h.sub - 1 then leNat (f.cmd.payload.drop 16) else s.roleWord i

/-! ### GDP over the segment -/

/-- `READ` and `READ_BLOCK` frames are answered with the entry's bytes as they stand once the frame is taken, or `RANGE`; the session's `SEQ` numbers move
by one each way (R411, R413, R415, R425). -/
def Claims.GdpReads : Prop :=
  ∀ (s : State) (g : GdpFrame) (x : Session),
    let u := s.frameBegun g
    (s.Serves g 1 x → Runs (.gdpRead g) s fun t =>
      (match u.readEntry (frameAcc g) g.index g.subindex with
        | some d => Replies t g x .ok d
        | none => Replies t g x .range []) ∧ t.dict = s.dict ∧ ∀ y ∈ t.sessions, y.id = g.session → y.gdpIn = g.seq) ∧
    (s.Serves g 3 x → Runs (.gdpReadBlock g) s fun t =>
      (∀ r n d, u.readable (frameAcc g) g.index g.subindex = some r → r.typ = .domain → within 1 1024 g.length = true →
        u.readBlock (frameAcc g) r g.index g.subindex g.offset g.length = some (n, d) →
          Replies t g x .ok d ∧ t.blockTotal g.session (gdpAsk g) = n) ∧
      (∀ r, (u.readable (frameAcc g) g.index g.subindex = none ∨ within 1 1024 g.length = false ∨
          (u.readable (frameAcc g) g.index g.subindex = some r ∧ r.typ ≠ .domain)) → Replies t g x .range []) ∧ t.dict = s.dict)

/-- `WRITE` and `WRITE_BLOCK` frames of an entry without a row of its own (R415, R416): a retained value waits for the delta record, any other takes effect
and is answered `OK`; a block that goes on is kept open. -/
def Claims.GdpWrites : Prop :=
  ∀ (s : State) (g : GdpFrame) (x : Session) (r : Entry), g.subindex < 256 → findEntry g.index g.subindex = some r →
    let u := s.frameBegun g
    let a := frameAcc g
    let key := entryKey g.index g.subindex
    let stored (t : State) (v : DVal) : Prop :=
      if r.retained then t.retainedWrites = s.retainedWrites ++ [{ key := key, value := v, asker := frameAsker g }] ∧ t.dict = s.dict ∧ t.reply = s.reply
      else Replies t g x .ok [] ∧
        if g.index = 0xF010 ∧ g.subindex = 1 then ∀ y ∈ t.sessions, y.id = g.session → y.describe = v.toNat
        else t.entry g.index g.subindex = v
    (s.Serves g 2 x → ownWrite g.index g.subindex = false → u.writeBads a g.index g.subindex g.data 0 = [] → Runs (.gdpWrite g) s fun t => stored t (r.value g.data)) ∧
    (s.Serves g 4 x → ownBlock g.index g.subindex = false → u.blockBads a g.index g.subindex g.offset g.data g.last = [] →
      (∀ all, u.blockStep a g.index g.subindex g.offset g.data g.last = .took all false →
        Runs (.gdpWriteBlock g) s fun t => Replies t g x .ok [] ∧ ∃ b, t.openBlock a key = some b ∧ b.data = all ∧ b.next = all.length) ∧
      (∀ all, u.blockStep a g.index g.subindex g.offset g.data g.last = .took all true →
        Runs (.gdpWriteBlock g) s fun t => t.openBlock a key = none ∧
          if g.index = 0x8020 ∧ g.subindex = 3 then t.baseStaged = some (all, frameAsker g) else stored t (.blk all)))

/-- A malformed frame is dropped and counted, one of a session that is not live or not of GDP is answered with a bare `NO_SESSION`, a `SEQ` not above the
last is dropped, and `TYPE` 3 with no session carries no other service than `SPDM` (R413). A request answered before is answered again and not executed; one
whose first copy is unanswered waits (R414, R422). -/
def Claims.GdpFramesChecked : Prop :=
  ∀ (s : State) (g : GdpFrame), s.limited = false → s.bring.segment = true →
    (g.version ≠ 1 ∨ 3 < g.typ ∨ g.resOk = false ∨ g.lenOk = false → exec (.gdpRead g) s = .next (s.add 0x2110 5 1)) ∧
    (g.version = 1 → g.typ = 3 → g.resOk = true → g.lenOk = true → g.session = 0 → g.service ≠ 0 →
      exec (.gdpRead g) s = .next { s with reply := some (.gdpBare g.reqId (gdpAsk g) .badOpcode 0 []) }) ∧
    (g.version = 1 → g.typ < 3 → g.resOk = true → g.lenOk = true →
      (s.live? g.session = none → exec (.gdpRead g) s = .next { s with reply := some (.gdpBare g.reqId (gdpAsk g) .noSession 0 []) }) ∧
      (∀ x, s.live? g.session = some x → x.transport = .gdp → g.tagOk = true → g.seq ≤ x.gdpIn →
        exec (.gdpRead g) s = .next (s.add 0x2110 5 1)) ∧
      (∀ x, s.live? g.session = some x → x.transport = .gdp → g.tagOk = true → x.gdpIn < g.seq →
        (∀ k, (x.kept.find? fun k => k.reqId == g.reqId) = some k → Runs (.gdpRead g) s fun t => t.dict = s.dict ∧
          t.reply = some (.gdp g.session (x.gdpOut + 1) g.reqId k.ask k.status k.total k.data)) ∧
        ((x.kept.find? fun k => k.reqId == g.reqId) = none → (x.asked.any fun p => p.1 == g.reqId) = true → Runs (.gdpRead g) s fun t =>
          t.dict = s.dict ∧ t.reply = s.reply ∧ ∀ y, t.live? g.session = some y → y.again = x.again ++ [g.reqId])))

/-- Subscriptions (R420): `START` subscribes a session or changes its filter, a ninth subscriber gets `NO_SPACE`; `STOP` ends it; `ACK` frees the records it
covers; the gathering window sends at most 32 records; an unacknowledged frame goes out again up to 8 times and its records are then counted as dropped. -/
def Claims.Subscriptions : Prop :=
  (∀ (s : State) (g : GdpFrame) (x : Session), s.Serves g 5 x → subscribeBads g.data 0 = [] →
    let filter := bits (leNat g.data) 31 16
    (∀ v, x.sub = some v → Runs (.subscribeStart g) s fun t => Replies t g x .ok [] ∧
      ∀ y ∈ t.sessions, y.id = g.session → y.sub = some { v with filter := filter }) ∧
    (x.sub = none → (s.sessions.filter fun y => y.sub.isSome).length < 8 → Runs (.subscribeStart g) s fun t => Replies t g x .ok [] ∧
      ∀ y ∈ t.sessions, y.id = g.session → y.sub = some ⟨filter, [], []⟩) ∧
    (x.sub = none → 8 ≤ (s.sessions.filter fun y => y.sub.isSome).length → Runs (.subscribeStart g) s fun t => Replies t g x .noSpace [])) ∧
  (∀ (s : State) (g : GdpFrame) (x : Session), s.Serves g 5 x → subscribeBads g.data 1 = [] →
    Runs (.subscribeStop g) s fun t => Replies t g x .ok [] ∧ ∀ y ∈ t.sessions, y.id = g.session → y.sub = none) ∧
  (∀ (s : State) (g : GdpFrame) (x : Session), s.Serves g 5 x → subscribeBads g.data 2 = [] →
    Runs (.subscribeAck g) s fun t => Replies t g x .ok [] ∧
      ∀ y ∈ t.sessions, y.id = g.session → ∀ v, y.sub = some v → ∀ p ∈ v.unacked, ∀ r ∈ p.1, bits (leNat g.data) 127 64 < r.seq) ∧
  (∀ (s : State) (id : Nat) (x : Session) (v : Subscription), s.live? id = some x → x.sub = some v → v.gather ≠ [] →
    Runs (.eventFrameSend id) s fun t => t.reply = some (.gdpEvents id (x.gdpOut + 1) (v.gather.take 32)) ∧
      ∀ y ∈ t.sessions, y.id = id → ∃ w, y.sub = some w ∧ w.gather = v.gather.drop 32 ∧
        w.unacked = v.unacked ++ [(v.gather.take 32, 0)]) ∧
  (∀ (s : State) (id : Nat) (x : Session) (v : Subscription) (recs : List EventRec) (n : Nat) (rest : List (List EventRec × Nat)),
    s.live? id = some x → x.sub = some v → v.unacked = (recs, n) :: rest →
    (n < 8 → Runs (.eventFrameResend id) s fun t => t.reply = some (.gdpEvents id (x.gdpOut + 1) recs) ∧
      ∀ y, t.live? id = some y → y.sub = some { v with unacked := rest ++ [(recs, n + 1)] }) ∧
    (8 ≤ n → Runs (.eventFrameResend id) s fun t => Added s t 0x2110 6 recs.length ∧
      ∀ y, t.live? id = some y → y.sub = some { v with unacked := rest }))

/-- An open block whose gap ends is abandoned, and the entry is free for others; a standby image being loaded is lost (R416, R417). -/
def Claims.BlockGapAbandons : Prop :=
  ∀ (s : State) (id key : Nat) (b : OpenBlock), b ∈ s.blocks → b.session = id → b.key = key →
    Runs (.blockGapTimeout id key) s fun t => (∀ c ∈ t.blocks, ¬ (c.session = id ∧ c.key = key)) ∧ (id, key) ∈ t.abandoned ∧ t.dict = s.dict ∧
      (key = entryKey 0x8040 1 → s.sec.standby = .loading → t.sec.standby = .empty)

/-- SPDM messages in GDP frames (R412, R421): a message that may stand in its frame is answered as over DOE, any other with
an invalid request; while phase 1 is held only the first five are, and all others get
a bare `NO_SESSION`. -/
def Claims.SpdmOverGdp : Prop :=
  (∀ (s : State) (reqId now : Nat) (ok : Bool) (off len : Nat), s.responds .gdp = true → s.limited = false →
    exec (.gdpSpdm 0 now ok ⟨reqId, .getCertificate off len⟩) s = .next { s with reply := some (.gdpSpdm 0 reqId .certificate (slice s.certChain off len)) }) ∧
  (∀ (s : State) (reqId now : Nat) (ok : Bool), s.limited = true →
    exec (.gdpSpdm 0 now ok ⟨reqId, .keyExchange⟩) s = .next { s with reply := some (.gdpBare reqId ⟨0, 0, 0, 0⟩ .noSession 0 []) }) ∧
  (∀ (s : State) (reqId now session : Nat) (ok : Bool) (m : SpdmMsg), s.limited = true → session ≠ 0 →
    exec (.gdpSpdm session now ok ⟨reqId, m⟩) s = .next { s with reply := some (.gdpBare reqId ⟨0, 0, 0, 0⟩ .noSession 0 []) }) ∧
  (∀ (s : State) (reqId now id : Nat) (m : SpdmMsg), s.limited = false → s.responds .gdp = true →
    (s.sessions.any fun x => x.id == id && x.transport == .gdp) = true →
    exec (.gdpSpdm id now true ⟨reqId, m⟩) s = .next ((if m.inFrame id then s.spdm .gdp m else s.spdmSay .gdp .invalidRequest []).frameSpdm id reqId))

/-! ### Flash, claims and images -/

/-- Every waiting write takes effect with the delta copy (R429): the newest valid copy is one generation on, keeps the active slot, the waiting list is
empty, and the last value written is the entry's. -/
def Claims.DeltaCommitAppliesWrites : Prop :=
  ∀ s : State, Runs .deltaRecordCommit s fun t =>
    t.retainedWrites = [] ∧
      (∃ d, t.flash.delta = some d ∧ d.gen = (s.flash.delta.map (·.gen)).getD 0 + 1 ∧ d.activeSlot = s.activeSlot ∧
        d.eventSeq = s.flash.delta.bind (·.eventSeq)) ∧
      t.flash.base = s.flash.base ∧ t.flash.slotA = s.flash.slotA ∧ t.flash.slotB = s.flash.slotB ∧
      ∀ w, s.retainedWrites.getLast? = some w → keyRetained w.key = true → aGet t.dict w.key = some w.value

/-- Of two valid delta copies the one with the higher generation counts, and a rewrite spares it until the new copy is there (R429). -/
def Claims.DeltaRewriteSparesTheNewest : Prop :=
  ∀ (f : Flash) (values : List (Nat × DVal)) (seq : Option Nat) (slot : Nat) (d : DeltaCopy), f.delta = some d →
    let g := f.writeDelta values seq slot
    g.delta = some { gen := d.gen + 1, valid := true, values := values, eventSeq := seq, activeSlot := slot } ∧ (g.deltaA = d ∨ g.deltaB = d)

/-- A base record that arrives whole (R386): of the right format, signed by a signer who may claim, and with values in range, it claims the module, its
operator key and values stand, and waiting retained writes are refused; else it changes no flash and event 0x8007 gives the cause. -/
def Claims.BaseRecordClaims : Prop :=
  ∀ (s : State) (record : BaseRecord) (sigOk : Bool) (bytes : List Byte) (asker : Asker), s.baseStaged = some (bytes, asker) →
    let good := sigOk = true ∧ s.mayClaim record = true
    let ranged := record.values.all baseValueOk = true ∧ record.operator.length = 64
    (baseFormatOk bytes = true → good → ranged → s.sec.measures.length = 6 →
      Runs (.baseRecordWrite record sigOk) s fun t => t.sec.claimed = true ∧ t.flash.base = some { record with bytes := bytes } ∧
        t.entry 0x8020 1 = .blk record.operator ∧ t.retainedWrites = [] ∧ t.baseStaged = none ∧
        t.sec.measures.getD 3 [] = bytes64 (Config.sha512 bytes)) ∧
    (∀ cause, (baseFormatOk bytes = false ∧ cause = 1) ∨ (baseFormatOk bytes = true ∧ ¬ good ∧ cause = 0) ∨
        (baseFormatOk bytes = true ∧ good ∧ ¬ ranged ∧ cause = 2) →
      Runs (.baseRecordWrite record sigOk) s fun t => Raised s t 0x8007 .security 0 0 0 cause 0 ∧ t.flash = s.flash ∧ t.sec.claimed = s.sec.claimed ∧
        t.baseStaged = none ∧ t.retainedWrites = s.retainedWrites)

/-- Every 4,096 events the event counter goes to the conservation header and the delta record; before that nothing happens (R419). -/
def Claims.EventCounterIsKept : Prop :=
  ∀ (s : State) (n : Nat), s.log.seq = some n →
    (s.log.checkpoint + 4096 ≤ n → Runs .eventCheckpoint s fun t => t.log.checkpoint = n ∧ t.log.seq = some n ∧ t.log.records = s.log.records ∧
      (∃ c, t.flash.cons = some c ∧ c.eventSeq = some n) ∧ ∃ d, t.flash.delta = some d ∧ d.eventSeq = some n) ∧
    (n < s.log.checkpoint + 4096 → exec .eventCheckpoint s = .next s)

/-- The standby slot fills in place at rising offsets while no switch is armed (R400, R426). -/
def Claims.StandbySlotFills : Prop :=
  ∀ (s : State) (v : Via) (off : Nat) (data : List Byte) (a : Acc) (c u : State), Arrives v s 3 4 0x8040 1 off data a c u → c.standbyBads a off data = [] →
    data ≠ [] → (off = 0 ∨ (c.openBlock a (entryKey 0x8040 1)).isSome = true) →
    Runs (.standbyImageWrite v) s fun t => Succeeds v s t ∧ t.sec.standby = .loading ∧
      t.flash.slot s.otherSlot = overlay (if off = 0 then [] else s.flash.slot s.otherSlot) off data ∧ t.flash.slot s.sec.runningSlot = s.flash.slot s.sec.runningSlot

/-- *switch command* (R400, R403, R475): `VERIFY` leaves the standby image verified, or rejected with event 0x8002 naming the check of R385 that failed; `ARM`
arms a verified image with no position fenced and the module ready, and is out of range otherwise; `CANCEL` returns an armed switch to verified. -/
def Claims.SwitchCommands : Prop :=
  ∀ (s : State) (v : Via) (off : Nat) (data : List Byte) (a : Acc) (c u : State), Arrives v s 1 2 0x8040 3 off data a c u →
    c.writeBads a 0x8040 3 data (viaBase v) = [] →
    (∀ chainOk sigOk digestOk, leNat data = 1 →
      let img := s.flash.slot s.otherSlot
      (s.imageFails img chainOk sigOk digestOk = none → Runs (.verify v chainOk sigOk digestOk) s fun t => Succeeds v s t ∧ t.sec.standby = .verified ∧
        t.sec.switchHeld = [] ∧ t.flash = s.flash) ∧
      (∀ n, s.imageFails img chainOk sigOk digestOk = some n → Runs (.verify v chainOk sigOk digestOk) s fun t => Succeeds v s t ∧
        t.sec.standby = .rejected ∧ Raised s t 0x8002 .security 0 0 s.otherSlot n 0 ∧ t.flash = s.flash)) ∧
    (leNat data = 2 → s.sec.standby = .verified → s.anyFenced = false → s.bring.ready = true →
      Runs (.arm v) s fun t => Succeeds v s t ∧ t.sec.standby = .armed ∧ t.sec.switchHeld = [] ∧ t.flash = s.flash) ∧
    (leNat data = 2 → (s.sec.standby ≠ .verified ∨ s.anyFenced = true ∨ s.bring.ready = false) →
      Runs (.arm v) s fun t => t.sec.standby = s.sec.standby ∧ t.flash = s.flash ∧ t.jobs = s.jobs) ∧
    (leNat data = 3 → Runs (.cancel v) s fun t => Succeeds v s t ∧ t.flash = s.flash ∧
      t.sec.standby = if s.sec.standby = .armed then .verified else s.sec.standby)

/-- *fabric position* (R313): with no job open a write in range waits for the delta record; it moves the module at the next link-up, not before. -/
def Claims.FabricPositionWaits : Prop :=
  ∀ (s : State) (v : Via) (off : Nat) (data : List Byte) (a : Acc) (c u : State), Arrives v s 1 2 0x2300 1 off data a c u →
    c.writeBads a 0x2300 1 data (viaBase v) = [] → s.jobs = [] →
    Runs (.fabricPositionWrite v) s fun t =>
      (∃ k, t.retainedWrites = s.retainedWrites ++ [{ key := entryKey 0x2300 1, value := .num (leNat data), asker := k }]) ∧
        t.fabric = s.fabric ∧ t.dict = s.dict

/-! ### DMA channels and tiers -/

/-- Posting (R297, R299): a descriptor in range for its channel's function joins the end of what the channel holds, at most seven behind the one in
execution, and runs at once where it is first and its trigger has fired; any other post changes nothing. -/
def Claims.DmaPosts : Prop :=
  ∀ (s : State) (c : Nat) (d : DmaDesc),
    let x := s.chan c
    let ready := match d.trigger with | .immediate => true | .timer => false | .after => (s.chan d.afterChannel).current.isNone
    let fits := c < 64 ∧ d.func = chanFunction c ∧ d.ok = true ∧ x.state ≠ .halted ∧ x.state ≠ .acting ∧ x.posted.length < 7
    (fits → Runs (.dmaPost c d) s fun t =>
      (t.chan c).current.toList ++ (t.chan c).posted = x.current.toList ++ x.posted ++ [(d, ready)] ∧
        (x.current = none → x.posted = [] → (t.chan c).current = some (d, ready) ∧ (t.chan c).state = if ready then .active else .waiting) ∧
        ∀ r, r ≠ c → t.chan r = s.chan r) ∧
    (¬ fits → exec (.dmaPost c d) s = .next s)

/-- The end of a timer and of a descriptor (R299): a `TIMER` descriptor whose ticks have passed runs where it is first; a completed descriptor leaves, its
bursts are counted, and the next in line takes its place. -/
def Claims.DmaTimersAndCompletions : Prop :=
  (∀ (s : State) (c : Nat) (d : DmaDesc) (r : Bool), (s.chan c).current = some (d, r) → d.trigger = .timer → (s.chan c).state = .waiting →
    Runs (.dmaTimer c 0) s fun t => (t.chan c).current = some (d, true) ∧ (t.chan c).state = .active ∧ (t.chan c).posted = (s.chan c).posted) ∧
  (∀ (s : State) (c i : Nat) (d : DmaDesc) (r : Bool), (s.chan c).current ≠ none → (s.chan c).posted[i]? = some (d, r) → d.trigger = .timer →
    Runs (.dmaTimer c (i + 1)) s fun t => (t.chan c).posted = (s.chan c).posted.set i (d, true) ∧ (t.chan c).current = (s.chan c).current) ∧
  (∀ (s : State) (c : Nat) (d : DmaDesc) (r : Bool), (s.chan c).current = some (d, r) → (s.chan c).state = .active →
    Runs (.dmaComplete c) s fun t => (t.chan c).moved = (s.chan c).moved + (d.bursts - (s.chan c).burst) ∧
      (t.chan c).current.map (·.1) = ((s.chan c).posted.map (·.1)).head? ∧ (t.chan c).posted.map (·.1) = ((s.chan c).posted.map (·.1)).tail)

/-- A failed access halts its channel at the burst and latches its error record, counts it and raises event 0x3301 (R302); nothing of the move is lost. -/
def Claims.DmaHaltsOnError : Prop :=
  ∀ (s : State) (c kind direction burst : Nat) (d : DmaDesc) (r : Bool), (s.chan c).current = some (d, r) → (s.chan c).state = .active →
    within (s.chan c).burst (d.bursts - 1) burst = true → direction ≤ 1 → within 1 4 kind = true →
    Runs (if kind = 4 then .burstTimeout c direction burst else .dmaAccessFault c kind direction burst) s fun t =>
      (t.chan c).state = .halted ∧ (t.chan c).current = some (d, r) ∧ (t.chan c).posted = (s.chan c).posted ∧ (t.chan c).kind = kind ∧
        (t.chan c).direction = direction ∧ (t.chan c).failBurst = burst ∧
        (t.chan c).failAddr = (if direction = 0 then burstAddr d.srcKind d.src burst else burstAddr d.dstKind d.dst burst) ∧
        Added s t 0x3300 5 1 ∧ Raised s t 0x3301 .dma c 0 kind direction burst ∧ ∀ n, n ≠ c → t.chan n = s.chan n

/-- The actions on a halted channel (R303, R304), by a write or by the keeper, each with event 0x3302: `RESUME` runs the burst again with one more attempt,
`SKIP` goes on behind it, `ABORT` ends the descriptor and the next in line follows (R305: where its function posts it again and no other channel can take it,
it goes behind the others of its own). -/
def Claims.DmaActions : Prop :=
  (∀ (s : State) (v : Via) (i off : Nat) (data : List Byte) (a : Acc) (c u : State) (d : DmaDesc) (r : Bool), i < 64 →
    Arrives v s 1 2 (0x3301 + i) 4 off data a c u → c.writeBads a (0x3301 + i) 4 data (viaBase v) = [] → s.actAllowed i (leNat data) = true →
    (s.chan i).current = some (d, r) →
    (leNat data = 1 → Runs (.resume v) s fun t => Succeeds v s t ∧ Raised s t 0x3302 .dma i 0 1 0 0 ∧ (t.chan i).state = .active ∧
      (t.chan i).attempts = (s.chan i).attempts + 1 ∧ (t.chan i).current = some (d, r) ∧ (t.chan i).burst = (s.chan i).burst) ∧
    (leNat data = 2 → Runs (.skip v) s fun t => Succeeds v s t ∧ Raised s t 0x3302 .dma i 0 2 0 0 ∧
      if d.bursts ≤ (s.chan i).failBurst + 1 then (t.chan i).current.map (·.1) = ((s.chan i).posted.map (·.1)).head?
      else (t.chan i).state = .active ∧ (t.chan i).burst = (s.chan i).failBurst + 1 ∧ (t.chan i).current = some (d, r)) ∧
    (leNat data = 3 → Runs (.abort v) s fun t => Succeeds v s t ∧ Raised s t 0x3302 .dma i 0 3 0 0 ∧
      let full (k : Nat) : Prop := (s.chan k).state = .halted ∨ (s.chan k).state = .acting ∨ 7 ≤ (s.chan k).posted.length
      let gone := d.func = 2 ∨ d.func = 3 ∨ (d.func = 0 ∧ s.port.width = 0) ∨ ∃ k, k < 64 ∧ k ≠ i ∧ chanFunction k = chanFunction i ∧ ¬ full k
      (gone → (t.chan i).current.map (·.1) = ((s.chan i).posted.map (·.1)).head? ∧ (t.chan i).posted.map (·.1) = ((s.chan i).posted.map (·.1)).tail) ∧
      (¬ gone → (∀ k, (s.chan k).posted ≠ [] → (s.chan k).current ≠ none) → d.ok = true → d.func = chanFunction i → (s.chan i).posted.length ≤ 7 →
        ((t.chan i).current.toList ++ (t.chan i).posted).map (·.1) =
          (s.chan i).posted.map (·.1) ++ [{ d with trigger := .immediate, afterChannel := 0, ticks := 0 }]))) ∧
  (∀ (s : State) (c bank row : Nat) (d : DmaDesc) (r : Bool), (s.chan c).state = .halted → (s.chan c).current = some (d, r) →
    (s.num 0x3300 2 = 0 ∨ c < 16) →
    Runs (.dmaAutoAction c bank row) s fun t => Raised s t 0x3302 .dma c 0 (s.chan c).autoAction 1 0 ∧
      ((s.chan c).autoAction = 1 → (t.chan c).state = .active ∧ (t.chan c).attempts = (s.chan c).attempts + 1))

/-- Moves between tiers (R263 to R265): a tile to be promoted counts in the pool, one on its way out stays instead, and the descriptor that moved it and has
halted ends (R306); a completed move changes the tile's tier
and is counted, and waits while a read of the tile is outstanding. Images do not change; a load that waited for the move alone then writes (R266). -/
def Claims.MovesBetweenTiers : Prop :=
  (∀ (s : State) (kind die group step : Nat) (k : TileKey) (x : StoredTile), s.triggered kind group step k = [x] → s.tile? x.key = some x →
    (x.tier = .near → x.evicting = true → x.promoting = false → Runs (.promotion kind die group step k) s fun t => Added s t 0x3110 6 1 ∧
      (∃ y, t.tile? x.key = some y ∧ y = { x with evicting := false, lastStep := s.highest x.key.slot, charge := k.slot }) ∧
      ∀ c d r, (s.chan c).state = .halted → (s.chan c).current = some (d, r) → d.func = 3 → d.srcKind = 0 → d.owner = x.devGranule % 2 ^ 32 →
        (t.chan c).state ≠ .halted) ∧
    (x.tier = .far → x.promoting = false → (s.underHigh x.image.length = true ∨ (s.tiers.pass = true ∧ s.poolUsed + x.image.length ≤ s.poolCapacity)) →
      Runs (.promotion kind die group step k) s fun t => t.tile? x.key = some { x with promoting := true, pair := die % 4, charge := k.slot } ∧
        ((s.tiers.tiles.filter fun y => y.key == x.key) = [x] → t.poolUsed = s.poolUsed + x.image.length)) ∧
    (x.tier = .far → x.promoting = false → s.underHigh x.image.length = false → (s.tiers.pass = false ∨ s.poolCapacity < s.poolUsed + x.image.length) →
      Runs (.promotion kind die group step k) s fun t => Only [.tiers] s t ∧ t.tiers.tiles = s.tiers.tiles)) ∧
  (∀ (s : State) (k : TileKey) (x : StoredTile), s.tile? k = some x →
    (s.pageRead k = true → exec (.moveCommit k) s = .next s) ∧
    (s.pageRead k = false → (∀ j, s.job? k.slot = some j → j.deferred = [] ∧ j.state = .running) → x.promoting = true → Runs (.moveCommit k) s fun t => Added s t 0x3200 1 1 ∧
      t.tile? k = some { x with tier := .near, promoting := false } ∧ ∀ l, l ≠ k → t.tile? l = s.tile? l) ∧
    (s.pageRead k = false → (∀ j, s.job? k.slot = some j → j.deferred = [] ∧ j.state = .running) → x.promoting = false → x.evicting = true → Runs (.moveCommit k) s fun t => Added s t 0x3110 5 1 ∧
      t.tile? k = some { x with tier := .far, evicting := false, pair := 0 } ∧ ∀ l, l ≠ k → t.tile? l = s.tile? l) ∧
    (∀ j d, s.pageRead k = false → x.promoting = true → s.job? k.slot = some j → j.state = .running → j.deferred = [d] → d.opcode = 0x11 →
      d.after = none → (s.updTile k fun t => { t with tier := .near, promoting := false }).loadMoves j d.payload d.edition = false →
      Runs (.moveCommit k) s fun t => Added s t 0x3200 1 1 ∧ ∃ i, t.job? k.slot = some i ∧ i.deferred = []))

/-- An eviction pass (R262) runs above the high watermark or when one is under way; it marks tiles that may be evicted and stops only at the low watermark,
with none left, or with the far tier full. No image, tier or pinned tile changes. -/
def Claims.EvictionPasses : Prop :=
  (∀ s : State, s.tiers.pass = false → s.underHigh 0 = true → exec .poolEvictionPass s = .next s) ∧
  (∀ s : State, (s.tiers.pass = true ∨ s.underHigh 0 = false) → Runs .poolEvictionPass s fun t =>
    t.tiers.tiles.map (fun x => (x.key, x.tier, x.image)) = s.tiers.tiles.map (fun x => (x.key, x.tier, x.image)) ∧
      (∀ x ∈ t.tiers.tiles, x.evicting = true → x ∈ s.tiers.tiles ∨ ∃ y ∈ s.tiers.tiles, y.key = x.key ∧ s.evictable y = true) ∧
      (t.atLow = true ∨ t.nextEvicted = none ∨ ∃ x, t.nextEvicted = some x ∧ t.farCapacity < t.farUsed + x.image.length))

/-- A wait for space of one second stalls its step with event 0x3103 (R256). -/
def Claims.SpaceWaitStalls : Prop :=
  ∀ (s : State) (slot step n : Nat) (i : WorkId × Nat × Regs) (j : Job) (x : StepRec), s.job? slot = some j → j.step? step = some x → j.state = .running → x.stalled = false →
    x.spaceWait.head? = some (i, n) →
    Runs (.spaceStalled slot step) s fun t => Raised s t 0x3103 .job slot step (n % 2 ^ 32) (n / 2 ^ 32) 0 ∧
      t.step? slot step = some { x with stalled := true } ∧ ∀ r, r ≠ step → t.step? slot r = s.step? slot r

/-! ### The fabric -/

/-- The link layer (R311, R333), where nothing waits to go: a message frees the flits it acknowledges and returns credits, in order it moves the expected
`LINK_SEQ` by its flits, and out of order it is discarded with a NAK owed; the eighth replay without progress sets the credits anew. `NULL` carries the first
part alone, and a `HELLO` gives the peer's position. Readings and choices of the model in it: log entries 86, 154, 162, 163. -/
def Obligations.LinkLayer : Prop :=
  ∀ (s : State) (p : Nat) (m : Msg), 0 < (s.suesh p).width → s.fabric.outbox = [] →
    let x := s.suesh p
    let rest := if x.retry.contains m.ackSeq then (x.retry.dropWhile fun q => q != m.ackSeq).drop 1 else x.retry
    let anew := m.nak && decide (7 ≤ x.replays) && rest.length == x.retry.length
    let given := x.giveCredits (m.creditClass % 4) m.creditCount
    let freed (y : Suesh) : Prop := y.retry = rest ∧ y.credits = (if anew then [32, 32, 32, 32] else given.credits) ∧ y.shared = (if anew then 128 else given.shared)
    (Runs (.null p m) s fun t => freed (t.suesh p) ∧ (t.suesh p).rxSeq = x.rxSeq ∧ (t.suesh p).peer = x.peer ∧ ∀ r, r ≠ p → t.suesh r = s.suesh r) ∧
    (∀ pos, m.linkSeq = (x.rxSeq + 1) % 4096 → Runs (.hello p pos m) s fun t => freed (t.suesh p) ∧ (t.suesh p).peer = some pos ∧
      (t.suesh p).rxSeq = (x.rxSeq + flitsOf m.body) % 4096 ∧ (t.suesh p).ackOwed = x.ackOwed + flitsOf m.body) ∧
    (∀ pos, m.linkSeq ≠ (x.rxSeq + 1) % 4096 → Runs (.hello p pos m) s fun t => freed (t.suesh p) ∧ (t.suesh p).peer = x.peer ∧
      (t.suesh p).rxSeq = x.rxSeq ∧ (t.suesh p).nakOwed = true) ∧
    (Runs (.flitDiscarded p) s fun t => (t.suesh p).nakOwed = true ∧ (t.suesh p).rxSeq = x.rxSeq) ∧
    (Runs (.linkAckDue p) s fun t => (t.suesh p).ackOwed = 0 ∧ (t.suesh p).nakOwed = false)

/-- A message of a landing kind that is heard waits in the landing reserve, at the end of what its sender has there, and its granules are counted
(R336); nothing of its effect has happened. -/
def Claims.MessagesLandFirst : Prop :=
  ∀ (row : Nat → Msg → Bool → Nat → Instr) (k : FlitKind),
    (row, k) ∈ [(.scatterRaw, .scatterRaw), (.scatterPartial, .scatterPartial), (.reduce, .reduce), (.broadcast, .broadcast), (.handoff, .handoff),
      (.logMirror, .logMirror), (.deposit, .deposit)] →
    ∀ (s : State) (p : Nat) (m : Msg) (now : Nat) (a : Assoc), s.Hears p m a →
      Runs (row p m true now) s fun t => (∃ b, t.assoc? m.src = some b ∧ b.landing = a.landing ++ [⟨k, m.body⟩] ∧ b.heard = true) ∧
        Added s t 0x2350 2 (32 * granulesOf m.body) ∧ t.jobs = s.jobs ∧ t.tiers = s.tiers

/-- What is not heard has no effect beyond its count (R311, R312, R316): a message for another position, one outside its phase's window or taken before, and one
whose tag fails. -/
def Claims.OtherMessagesAreDropped : Prop :=
  ∀ (s : State) (p : Nat) (m : Msg) (tagOk : Bool) (now : Nat), 0 < (s.suesh p).width → m.linkSeq = ((s.suesh p).rxSeq + 1) % 4096 → s.fabric.outbox = [] →
    (m.dst ≠ s.fabric.position → s.fabric.folded.contains m.dst = false →
      Runs (.scatterRaw p m tagOk now) s fun t => Added s t 0x2300 8 1 ∧ t.fabric.assocs = s.fabric.assocs ∧ t.jobs = s.jobs) ∧
    (∀ a, (m.dst = s.fabric.position ∨ s.fabric.folded.contains m.dst = true) → s.assoc? m.src = some a →
      (∀ w, a.window m.phase = some w → m.e2e < w.1 ∨ w.2.contains m.e2e = true) →
      Runs (.scatterRaw p m tagOk now) s fun t => Added s t 0x2300 7 1 ∧ t.fabric.assocs = s.fabric.assocs ∧ t.jobs = s.jobs) ∧
    (∀ a, s.Hears p m a → a.fails.filter (fun f => decide (now < f + 1000)) ≠ [] → (a.fails.filter (fun f => decide (now < f + 1000))).length < 15 →
      Runs (.scatterRaw p m false now) s fun t => Added s t 0x2300 6 1 ∧ t.jobs = s.jobs ∧
        ∃ b, t.assoc? m.src = some b ∧ b.landing = a.landing ∧ b.rxLow = a.rxLow ∧ b.rxAbove = a.rxAbove)

/-- End-to-end acknowledgement (R317, R318, R336): an `E2E_ACK` frees every message that it covers (where nothing waits to go); one that is due is sent once, with
the number of the older open phase; an unacknowledged message goes again unchanged where a route has credit. Readings and choices of the model in it: log entries 2, 86, 87, 160. -/
def Obligations.EndToEndAcknowledgement : Prop :=
  (∀ (s : State) (p : Nat) (m : Msg) (now : Nat) (a : Assoc), s.Hears p m a → s.fabric.outbox = [] →
    Runs (.e2eAck p m true now) s fun t => ∃ b, t.assoc? m.src = some b ∧
      b.store = a.store.filter (fun x => !a.covers (bits (leNat (m.body.take 32)) 47 0) x)) ∧
  (∀ (s : State) (peer : Nat) (a : Assoc), s.assoc? peer = some a → s.holderOf peer = peer →
    (a.ackOwed = 0 → exec (.e2eAckDue peer) s = .next s) ∧
    (a.ackOwed ≠ 0 → Runs (.e2eAckDue peer) s fun t => (∃ b, t.assoc? peer = some b ∧ b.ackOwed = 0) ∧
      OnItsWay t peer .e2eAck (toLE 32 (((a.oldRx.map (·.low)).getD a.rxLow) % 2 ^ 48 + (a.freedHere % 2 ^ 32) * 2 ^ 64)))) ∧
  (∀ (s : State) (peer seq p : Nat) (a : Assoc) (x : Sent), s.assoc? peer = some a → a.store.find? (fun y => y.seq == seq) = some x →
    s.route peer x.kind.cls = some p →
    Runs (.e2eResend peer seq) s fun t => Added s t 0x2300 10 x.flits ∧ ∃ b, t.assoc? peer = some b ∧
      b.store.find? (fun y => y.seq == seq) = some { x with resends := x.resends + 1, port := p } ∧ b.store.length = a.store.length)

/-- Key phases (R318): a sender below 2^40, or whose update cannot go yet, keeps its keys; at 2^40 it sends the update, turns its phase and starts again at 1; a
peer's update turns the receive phase, which starts at 1 with nothing received, and the phase before stays open only for what it still lacks. -/
def Claims.KeyPhasesTurn : Prop :=
  (∀ (s : State) (peer : Nat) (a : Assoc), s.assoc? peer = some a →
    (a.txSeq < 2 ^ 40 ∨ a.maySend .keyUpdate (zeros 32) = false ∨ s.route peer 0 = none → exec (.keyUpdateDue peer) s = .next s) ∧
    (2 ^ 40 ≤ a.txSeq → a.maySend .keyUpdate (zeros 32) = true → (s.route peer 0).isSome = true → Runs (.keyUpdateDue peer) s fun t => OnItsWay t peer .keyUpdate (zeros 32) ∧
      ∃ b, t.assoc? peer = some b ∧ b.phase = !a.phase ∧ b.txSeq = 1 ∧ b.rxPhase = a.rxPhase)) ∧
  (∀ (s : State) (p : Nat) (m : Msg) (now : Nat) (a : Assoc), s.Hears p m a →
    Runs (.keyUpdate p m true now) s fun t => ∃ b, t.assoc? m.src = some b ∧ b.rxPhase = !a.rxPhase ∧ b.rxLow = 1 ∧ b.rxAbove = [] ∧ b.phase = a.phase ∧
      ∀ o, b.oldRx = some o → o.last = m.e2e ∧ o.key = a.rxKey ∧ o.low ≤ m.e2e)

/-- Association set-up on a port that is up (R315, R399): the first fault found of chain, security version, operator and changed identity is reported and
forms nothing; with none an association of that identity is live, expecting its first flit. -/
def Claims.AssociationsForm : Prop :=
  ∀ (s : State) (p peer identity version : Nat) (chainOk sameOperator : Bool), 0 < (s.suesh p).width → s.fabric.fenced.contains peer = false →
    (chainOk = false → Runs (.assoc p peer identity chainOk version sameOperator) s fun t => Raised s t 0x8006 .security 0 0 peer 0 0 ∧
      t.fabric = s.fabric) ∧
    (chainOk = true → version < s.num 0x8000 5 → Runs (.assoc p peer identity chainOk version sameOperator) s fun t =>
      Raised s t 0x8006 .security 0 0 peer 1 0 ∧ t.fabric = s.fabric) ∧
    (chainOk = true → s.num 0x8000 5 ≤ version → sameOperator = false → Runs (.assoc p peer identity chainOk version sameOperator) s fun t =>
      Raised s t 0x8006 .security 0 0 peer 2 0 ∧ t.fabric = s.fabric) ∧
    (chainOk = true → s.num 0x8000 5 ≤ version → sameOperator = true →
      (∀ a, s.assoc? peer = some a → a.identity ≠ identity → Runs (.assoc p peer identity chainOk version sameOperator) s fun t =>
        Raised s t 0x2305 .suesh p 0 peer 0 0 ∧ t.fabric = s.fabric) ∧
      ((∀ a, s.assoc? peer = some a → a.identity = identity) → Runs (.assoc p peer identity chainOk version sameOperator) s fun t =>
        ∃ b, t.assoc? peer = some b ∧ b.identity = identity ∧ b.rxLow = 1 ∧ b.rxAbove = [] ∧ b.quota = s.quotaNow peer))

/-- Ports (R309, R313, R455, R469): a failed lane narrows or stops its port with events 0x2301 and 0x2303, the retry of a down port, or at the full width of one
whose removed lanes have their margin back, brings it up with 0x2302, a
port that trains puts the written position in force, and one that does not train within its window is reported. -/
def Claims.PortsComeAndGo : Prop :=
  ∀ (s : State) (p : Nat), p < 12 → s.fabric.ports.length = 12 →
    let x := s.suesh p
    (∀ lane, lane < 4 → 0 < x.width → x.failed.contains lane = false →
      let w := widthWith (insertOnce lane x.failed)
      Runs (.laneFault p lane) s fun t => (t.suesh p).width = w ∧ (t.suesh p).failed = insertOnce lane x.failed ∧
        if w = 0 then Raised s t 0x2303 .suesh p 0 (laneMask (insertOnce lane x.failed)) 0 0 ∧ (t.suesh p).peer = none
        else Raised s t 0x2301 .suesh p 0 w lane 0 ∧ Added s t 0x2300 4 1 ∧ 
          (s.fabric.outbox = [] → (t.suesh p).credits = [32, 32, 32, 32] ∧ (t.suesh p).shared = 128)) ∧
    (∀ failed, s.bring.pwrGood = true → failed.all (· < 4) = true → (x.width = 0 ∧ 0 < widthWith failed) ∨ (0 < x.width ∧ x.width < 4 ∧ failed = [] ∧
        ∀ l ∈ x.failed, s.num 0x9030 3 ≤ s.laneMargin (4 * p + l)) →
      Runs (.portRetry p failed) s fun t => (t.suesh p).width = widthWith failed ∧ (t.suesh p).failed = failed ∧
        Raised s t 0x2302 .suesh p 0 (widthWith failed) 0 0) ∧
    (∀ failed, s.bring.pwrGood = true → x.width = 0 → 0 < widthWith failed →
      Runs (.sueshPortTrained p failed) s fun t => (t.suesh p).width = widthWith failed ∧ t.fabric.position = s.num 0x2300 1 ∧
        (t.suesh p).rxSeq = 4095 ∧ (s.fabric.outbox = [] → (t.suesh p).retry = [] ∧ (t.suesh p).txSeq = 0)) ∧
    (s.bring.pwrGood = true → x.width = 0 → s.bring.windowOver.contains p = false →
      Runs (.portWindowExpired p) s fun t => Raised s t 0x2303 .suesh p 0 (laneMask x.failed) 0 0 ∧ p ∈ t.bring.windowOver ∧ t.fabric = s.fabric)

/-- Waits on the fabric (R314, R334, R340): a destination with no port up is reported, a hop that goes to strict order is counted once, and a long wait is
counted in its class, kept when the longest, and reported where it is longer than *credit wait report* (ticks of 40 ns). -/
def Claims.FabricWaitsAreReported : Prop :=
  (∀ (s : State) (dst : Nat), (s.fabric.outbox.any fun w => w.dst == dst) = true → s.routed dst = false →
    Runs (.routeEmpty dst) s fun t => Raised s t 0x2304 .module 0 0 dst 0 0 ∧ t.fabric = s.fabric) ∧
  (∀ (s : State) (p : Nat), p < 12 → s.fabric.ports.length = 12 → (s.suesh p).strict = false →
    Runs (.creditStrictOrder p) s fun t => (t.suesh p).strict = true ∧ Added s t 0xF320 5 1) ∧
  (∀ (s : State) (hop cls ticks : Nat), ticks < 2 ^ 32 → Runs (.creditWaitLong hop cls ticks) s fun t =>
    Added s t 0xF320 (1 + cls % 4) 1 ∧
      (if 25 * s.num 0xF320 7 < ticks then Raised s t 0xF321 .module 0 0 hop cls ticks else t.log = s.log) ∧ t.num 0xF320 6 = max (s.num 0xF320 6) ticks)

/-! ### Links and memory inside the module -/

/-- Replays of an internal link (R350): a refused granule and those behind it go again, up to 16 times; then it is delivered poisoned with event 0x7006 and
the link retrains, after which the granules held go again. -/
def Claims.InternalLinksReplay : Prop :=
  (∀ (s : State) (link granules loc : Nat) (again carrel : Bool), link ≤ 10 → 0 < granules → granules ≤ 128 → s.rel.retraining.contains link = false →
    let n := if again then aGetD s.rel.replays link 0 else 0
    (n < 16 → Runs (.linkReplay link granules again carrel loc) s fun t => Added s t 0x7040 1 granules ∧ aGetD t.rel.replays link 0 = n + 1 ∧
      t.carrelPoison = s.carrelPoison ∧ t.tiers = s.tiers) ∧
    (16 ≤ n → Runs (.linkReplay link granules again carrel loc) s fun t => Raised s t 0x7006 .module 0 0 link 0 0 ∧ link ∈ t.rel.retraining ∧
      aGetD t.rel.replays link 0 = 0 ∧ (carrel = true → loc ∈ t.carrelPoison))) ∧
  (∀ (s : State) (link granules : Nat), s.rel.retraining.contains link = true → granules ≤ 128 →
    Runs (.linkRetrained link granules) s fun t => Added s t 0x7040 1 granules ∧ link ∉ t.rel.retraining)

/-- Row repair (R351): a row over its threshold begins soft repair, which uses one row of its bank's resource and is reported with type 0; one that recurs
within 30 days has hard repair with type 1; with the resource used up it is retired with type 2, unless its tier would fall below its floor, which is
reported with 0x7005 instead. -/
def Claims.RowsAreRepaired : Prop :=
  ∀ (s : State) (device bank row loc bytes now : Nat) (h : RowHistory), device < 26 → s.rowHistory? device bank row = some h →
    let hard := h.recurs now
    let run : Instr := if hard then .hardRepair device bank row loc bytes now else .rowRepair device bank row loc bytes now
    (s.rowDue h now = true → h.repairing = false →
      (s.bankLeft device bank ≠ 0 → Runs run s fun t => ∃ g, t.rowHistory? device bank row = some g ∧
        if hard then g.granules = [] ∧ g.bad = false ∧ g.repaired = none ∧ t.bankLeft device bank + 1 = s.bankLeft device bank ∧ Added s t 0x7010 1 1 ∧
          Raised s t 0x7003 .memory 0 0 (loc % 2 ^ 32) (loc / 2 ^ 32) 1
        else g = { h with repairing := true } ∧ t.bankLeft device bank = s.bankLeft device bank) ∧
      (s.bankLeft device bank = 0 → usableFloor (tierOf device) + bytes ≤ s.usable (tierOf device) →
        Runs run s fun t => t.usable (tierOf device) + bytes = s.usable (tierOf device) ∧ Added s t 0x7010 3 bytes ∧
          Raised s t 0x7003 .memory 0 0 (loc % 2 ^ 32) (loc / 2 ^ 32) 2) ∧
      (s.bankLeft device bank = 0 → s.usable (tierOf device) < usableFloor (tierOf device) + bytes →
        Runs run s fun t => t.tiers = s.tiers ∧ Raised s t 0x7005 .memory 0 0 (tierOf device) (s.usable (tierOf device) / mib) 0)) ∧
    (h.repairing = true → Runs (.rowRepaired device bank row loc now) s fun t => ∃ g, t.rowHistory? device bank row = some g ∧ g.granules = [] ∧
      g.bad = false ∧ g.repaired = some now ∧ g.repairing = false ∧ t.bankLeft device bank = s.bankLeft device bank - 1 ∧ Added s t 0x7010 1 1 ∧
      Raised s t 0x7003 .memory 0 0 (loc % 2 ^ 32) (loc / 2 ^ 32) 0)

/-- The patrol (R11, R255, R343, R346, R352): it reads a burst of a stack with its four check bytes, or one of the eight granules of a package's 288-byte group,
whose ninth burst holds their check bytes. A clean granule changes nothing, a corrected one is counted and charged to its row, an uncorrectable one is counted,
reported and written poisoned in the tile it lies in. -/
def Claims.ThePatrolCorrects : Prop :=
  (∀ gs : List (List Byte × Bool), gs.length = 8 → (∀ g ∈ gs, g.1.length = 32) →
    (farGroup gs).length = 288 ∧ ∀ k < 8, farCodeword (farGroup gs) k = codeword (gs.getD k ([], false)).2 (gs.getD k ([], false)).1) ∧
  ∀ (s : State) (device bank row loc now : Nat) (read : PatrolRead) (word : List Byte), read.codeword device = some word →
    (decodeGranule word = .clean ∨ decodeGranule word = .poisoned → exec (.scrub device bank row loc read now) s = .next s) ∧
    (∀ d n, decodeGranule word = .corrected d n → Runs (.scrub device bank row loc read now) s fun t => Added s t 0x7000 1 1 ∧
      (if n = 2 then Added s t 0x7000 2 1 else t.num 0x7000 2 = s.num 0x7000 2) ∧ (∃ h, t.rowHistory? device bank row = some h ∧ aGet h.granules loc = some now) ∧ t.tiers = s.tiers) ∧
    (decodeGranule word = .uncorrectable → Runs (.scrub device bank row loc read now) s fun t => Added s t 0x7000 3 1 ∧
      Raised s t 0x7001 .memory 0 0 (loc % 2 ^ 32) (loc / 2 ^ 32) 0 ∧ (∃ h, t.rowHistory? device bank row = some h ∧ h.bad = true) ∧
      ∀ x ∈ t.tiers.tiles, x.tier ≠ .absent → x.devGranule ≤ loc → loc < x.devGranule + x.image.length / 32 → loc - x.devGranule ∈ x.poison)

/-! ### Power, temperature and sideband -/

/-- Input power (R436 to R438, R483): a brown-out loses everything the rails held, counts, and restarts once the input is back; below 36 V the keeper stops too
and only flash stands; warnings are raised once and clear 500 mV inside their threshold; limits are counted while one binds. -/
def Claims.InputPower : Prop :=
  (∀ (s : State) (vin : Nat), s.bring.pwrGood = true → (vin < 40000 ∨ 60000 ≤ vin) → Runs (.brownOut vin) s fun t =>
    t.bring.pwrGood = false ∧ t.bring.ready = false ∧ t.jobs = [] ∧ t.tiers.tiles = [] ∧ t.carrel = [] ∧ t.port.width = 0 ∧
      t.bring.restartAfterBrownOut = true ∧ Added s t 0xA000 4 1 ∧ t.flash = s.flash ∧ t.log = s.log ∧ t.sessions = s.sessions) ∧
  (∀ (s : State) (vin : Nat), vin < 36000 → s.bring.phase1 ≠ .off → Runs (.externalPowerLost vin) s fun t =>
    t.bring.phase1 = .off ∧ t.sessions = [] ∧ t.jobs = [] ∧ t.log.seq = none ∧ t.log.records = [] ∧ t.retainedWrites = [] ∧ t.flash = s.flash ∧
      t.spares = s.spares ∧ t.rel.resources = s.rel.resources) ∧
  (∀ (s : State) (vin : Nat), s.bring.phase1 ≠ .off → s.power.alertLow = false → vin < s.num 0xA020 1 →
    Runs (.inputLow vin) s fun t => t.power.alertLow = true ∧ t.power.vin = vin ∧ Raised s t 0xA001 .keeper 0 0 vin (s.num 0xA020 1) 0) ∧
  (∀ (s : State) (vin : Nat), s.bring.phase1 ≠ .off → s.power.alertHigh = false → s.num 0xA020 2 < vin →
    Runs (.inputHigh vin) s fun t => t.power.alertHigh = true ∧ t.power.vin = vin ∧ Raised s t 0xA002 .keeper 0 0 vin (s.num 0xA020 2) 0) ∧
  (∀ (s : State) (vin : Nat), Runs (.inputWarningCleared vin) s fun t =>
    t.power.alertLow = (s.power.alertLow && !decide (s.num 0xA020 1 + 500 ≤ vin)) ∧ t.power.alertHigh = (s.power.alertHigh && !decide (vin + 500 ≤ s.num 0xA020 2)) ∧
      t.log = s.log) ∧
  (∀ (s : State) (amps watts ticks : Nat), s.bring.phase1 ≠ .off → watts < 2 ^ 32 → Runs (.currentLimit amps watts ticks) s fun t =>
    t.power.alertLimit = decide (48000 ≤ amps ∨ s.num 0xA030 1 ≤ watts) ∧ t.num 0xA000 2 = watts ∧ t.num 0xA000 3 = max (s.num 0xA000 3) watts ∧
      if 48000 ≤ amps ∨ s.num 0xA030 1 ≤ watts then Added s t 0xA030 2 ticks else t.num 0xA030 2 = s.num 0xA030 2)

/-- A lost phase (R445) is gone for good and reported with the phases left; with too few the module announces its failure. -/
def Claims.PhasesLost : Prop :=
  ∀ (s : State) (rail phase : Nat), rail < 10 → s.power.phases.length = 10 →
    let n := nth s.power.phases rail
    0 < n → Runs (.phaseLost rail phase) s fun t => nth t.power.phases rail = n - 1 ∧ t.day.phasesLost = s.day.phasesLost + 1 ∧
      Raised s t 0xA003 .keeper 0 0 rail phase (n - 1) ∧ (phasesFail rail (n - 1) = true → t.bring.announcedFailure = true)

/-- Temperature and dies (R441 to R443, R446): a reading replaces the 48 held, throttles what is at 105 °C until it is below 100 °C, and at 115 °C trips the
rails once; a die sleeps only with nothing on it, wakes on demand with a count, and is awake when its wake completes. -/
def Claims.TemperatureAndDies : Prop :=
  (∀ (s : State) (temps : List Int), temps.length = 48 → s.bring.phase1 ≠ .off → Runs (.thermalSample temps) s fun t =>
    t.power.temps = temps ∧ (∀ i < 48, i ∈ t.power.hotThrottle ↔ 105000 ≤ temps.getD i 0 ∨ (i ∈ s.power.hotThrottle ∧ 100000 ≤ temps.getD i 0)) ∧
      ((∃ x ∈ temps, 115000 ≤ x) → s.power.thermTrip = false → t.power.thermTrip = true ∧ t.bring.pwrGood = false ∧ t.jobs = [] ∧ t.carrel = [] ∧
        Added s t 0xA050 3 1) ∧
      ((∀ x ∈ temps, x < 115000) → t.power.thermTrip = s.power.thermTrip ∧ t.bring = s.bring ∧ t.jobs = s.jobs)) ∧
  (∀ (s : State) (d : Nat), d < 4 → s.power.dies.length = 4 →
    (s.dieAwake d = true → s.dieIdle d = true → Runs (.dieSleep d) s fun t => t.power.dies = s.power.dies.set d .sleep ∧ t.tileUnits = s.tileUnits) ∧
    (s.dieIdle d = false → exec (.dieSleep d) s = .next s) ∧
    (s.bring.pwrGood = true → s.power.dies.getD d .sleep = .sleep →
      Runs (.dieWake d) s fun t => t.power.dies = s.power.dies.set d .waking ∧ Added s t 0xA010 6 1) ∧
    (∀ waits, s.power.dies.getD d .sleep = .waking →
      Runs (.dieWakeComplete d waits) s fun t => t.dieAwake d = true ∧ Added s t 0xA010 7 waits))

/-- Sideband inputs and clocks (R440, R447, R448, R406): `PWR_EN` allows the rails and its end takes them down, announced when the module was ready; a lost
fabric clock takes every port down; changed straps give the node id unless one is chosen. -/
def Claims.SidebandAndClocks : Prop :=
  (∀ s : State, exec .pwrEnAssert s = .next { s with power := { s.power with pwrEn := true } }) ∧
  (∀ s : State, Runs .pwrEnDeassert s fun t => t.power.pwrEn = false ∧ t.flash = s.flash ∧
    ((s.bring.ready = true ∨ s.bring.pwrGood = true) → t.bring.pwrGood = false ∧ t.bring.ready = false ∧ t.jobs = [] ∧ t.carrel = [] ∧
      t.sec.standby ≠ .armed) ∧
    (s.bring.ready = false → s.bring.pwrGood = false → t.jobs = s.jobs ∧ t.bring = s.bring)) ∧
  (∀ s : State, Runs .sueshRefclkLoss s fun t => ∀ p < 12, (t.suesh p).width = 0 ∧ (t.suesh p).failed = (s.suesh p).failed) ∧
  (∀ (s : State) (v : BitVec 6), Runs (.posAddrChange v) s fun t => t.power.posAddr = v ∧
    t.seg.node = if s.bring.segment then (if s.num 0x2100 1 = 0 then v.toNat else s.num 0x2100 2) else s.seg.node)

/-! ### Ageing -/

/-- Path margins (R452, R453): a busy die's margin is held; below the floor its rail rises by 5 mV, at the limit its clock falls by 25 MHz, and with neither
left the end of life is reported. -/
def Claims.PathMargins : Prop :=
  ∀ (s : State) (d margin : Nat), d < 4 → s.dieCode d = 2 → margin < 65536 →
    let off := s.num 0x9000 (1 + d)
    let clock := s.num 0x9000 (5 + d)
    Runs (.pathMarginEval d margin) s fun t => t.num 0x9000 (9 + d) = margin ∧
      if s.num 0x9000 13 ≤ margin then t.num 0x9000 (1 + d) = off ∧ t.num 0x9000 (5 + d) = clock ∧ t.log = s.log
      else if off + 5 ≤ s.num 0x9000 14 then t.num 0x9000 (1 + d) = off + 5 ∧ t.num 0x9000 (5 + d) = clock ∧ Raised s t 0x9001 .module 0 0 d 0 (off + 5)
      else if 2025 ≤ clock then t.num 0x9000 (1 + d) = off ∧ t.num 0x9000 (5 + d) = clock - 25 ∧ Raised s t 0x9002 .module 0 0 d (clock - 25) 0
      else t.num 0x9000 (1 + d) = off ∧ t.num 0x9000 (5 + d) = clock ∧ Raised s t 0x9003 .module 0 0 0 (s.num 0x9010 2) 0

/-- Lanes and banks (R353, R455, R456): an adequate margin is only held; one that adapting mends counts a retune and is reported; one that stays short drops
its lane, and the scan of a removed lane only holds its margin for the port's retry. A bank that fails before its margin refreshes at the next higher rate, at most 4×. -/
def Claims.LanesAndBanks : Prop :=
  (∀ (s : State) (l margin after : Nat), s.laneUp l = true →
    (s.num 0x9030 3 ≤ margin → exec (.eyeScan l margin after) s = .next (s.setMargin l margin)) ∧
    (margin < s.num 0x9030 3 → s.num 0x9030 3 ≤ after → Runs (.eyeScan l margin after) s fun t => t.day.retunes = s.day.retunes + 1 ∧
      Raised s t 0x9001 .module 0 0 (4 + laneGroup l) 1 (laneWithin l) ∧ t.fabric = s.fabric ∧ t.port.width = s.port.width) ∧
    (margin < s.num 0x9030 3 → after < s.num 0x9030 3 → (48 ≤ l → linkForm s.port.width s.port.rate = true) → Runs (.eyeScan l margin after) s fun t => t.day.retunes = s.day.retunes + 1 ∧
      if l < 48 then l / 4 < s.fabric.ports.length ∧ l % 4 ∈ (t.suesh (l / 4)).failed ∧ (t.suesh (l / 4)).width = widthWith (t.suesh (l / 4)).failed
      else t.port.width < s.port.width)) ∧
  (∀ (s : State) (l margin after : Nat), s.laneRemoved l = true → Runs (.eyeScan l margin after) s fun t => t.fabric = s.fabric ∧
    t.laneMargin l = min (if s.num 0x9030 3 ≤ margin then margin else after) 255) ∧
  (∀ (s : State) (device bank failTime interval : Nat), device < 26 →
    let rate := s.day.bankRate device bank
    (failTime < s.num 0x9040 1 * interval → rate < 2 → Runs (.retentionTest device bank failTime interval) s fun t =>
      t.day.bankRate device bank = rate + 1 ∧ Raised s t 0x9001 .module 0 0 (17 + device) 2 (rate + 1)) ∧
    (s.num 0x9040 1 * interval ≤ failTime ∨ 2 ≤ rate → exec (.retentionTest device bank failTime interval) s = .next s))

/-- The daily record (R458, R459): one more record of 128 bytes stands in the conservation record with its prediction in the dictionary, and the day's counts
begin again. -/
def Claims.DailyRecord : Prop :=
  ∀ (s : State) (avgPower : Nat) (efficiency : List Nat), s.bring.phase1 = .done → s.flash.daily.length < 65504 →
    Runs (.dailyPrediction avgPower efficiency) s fun t =>
      (∃ r, t.flash.daily = s.flash.daily ++ [r] ∧ r.length = 128) ∧ (∃ c, t.flash.cons = some c ∧ c.count = s.flash.daily.length + 1) ∧
        t.num 0x9010 1 = (s.predict efficiency).1 ∧ t.num 0x9010 2 = (s.predict efficiency).2.1 ∧ t.num 0x9010 3 = (s.predict efficiency).2.2.1 ∧
        t.day.retunes = 0 ∧ t.day.correctedNear = 0 ∧ t.day.correctedFar = 0 ∧
        (s.flash.daily.length < 14 → t.num 0x9010 1 = 2557 - s.flash.daily.length)

/-! ### From power to ready -/

/-- Keeper start (R383, R385, R463, R465): with `VIN` above 46 V the keeper checks itself, its identity, its records and its images in order, and stops or
holds at the first of them that fails; with all of them good phase 1 is done and the event sequence starts 4,096 above the greater counter kept. -/
def Claims.KeeperStarts : Prop :=
  (∀ (s : State) (vin : Nat) (v : StartVerdicts), s.bring.phase1 ≠ .off ∨ vin ≤ 46000 → exec (.keeperStart vin v) s = .next s) ∧
  (∀ (s : State) (vin : Nat) (v : StartVerdicts), s.bring.phase1 = .off → 46000 < vin →
    (v.keeper = false → Runs (.keeperStart vin v) s fun t => t.bring.phase1 = .stopped ∧ t.power.alertKeeper = true ∧ t.flash = s.flash) ∧
    (v.keeper = true → v.identity = false → Runs (.keeperStart vin v) s fun t => t.bring.phase1 = .heldIdentity ∧ t.flash = s.flash) ∧
    (∀ c, v.keeper = true → v.identity = true → v.deltaA = true → v.deltaB = true → v.consA = true → v.consB = true → v.base = true →
      s.flash.delta.isSome = true → ((s.flash.cons.bind (·.eventSeq)).toList ++ (s.flash.delta.bind (·.eventSeq)).toList).max? = some c → s.log.held = [] →
      let of (n : Nat) : Bool × Bool × Bool := if n = 0 then v.slotA else v.slotB
      let fails (n : Nat) (u : State) := u.imageFails (s.flash.slot n) (of n).1 (of n).2.1 (of n).2.2
      Runs (.keeperStart vin v) s fun t =>
        t.sec.claimed = s.flash.base.isSome ∧
          (fails s.activeSlot t = none → t.bring.phase1 = .done ∧ t.sec.runningSlot = s.activeSlot ∧ t.log.seq = some (c + 4096) ∧
            t.sec.imageVersion = imageField (s.flash.slot s.activeSlot) 127 96) ∧
          (fails s.activeSlot t ≠ none → fails (1 - s.activeSlot) t = none → t.bring.phase1 = .done ∧ t.sec.runningSlot = 1 - s.activeSlot ∧
            t.log.seq = some (c + 4097)) ∧
          (fails s.activeSlot t ≠ none → fails (1 - s.activeSlot) t ≠ none → t.bring.phase1 = .heldSlots ∧ t.log.seq = some (c + 4098))))

/-- The management segment (R405 to R408, R466): a module whose phase 1 is done joins with its chosen node id, reports an id of 0, duplicates and a missing
beacon, and answers neighbours and echoes only under an address it uses. -/
def Claims.SegmentJoins : Prop :=
  (∀ (s : State) (dupLinkLocal dupStatic beacon : Bool), s.bring.phase1 = .done → s.bring.segment = false →
    Runs (.segmentJoin dupLinkLocal dupStatic beacon) s fun t => t.bring.segment = true ∧ t.seg.node = s.chosenNode ∧
      t.seg.dupLinkLocal = dupLinkLocal ∧ t.seg.dupStatic = (dupStatic && s.hasStatic) ∧ t.seg.csma = !beacon ∧
      (s.chosenNode ≠ 0 → dupLinkLocal = false → (dupStatic && s.hasStatic) = false → beacon = true → t.log = s.log)) ∧
  (∀ s : State, s.bring.segment = true → s.seg.csma = false → Runs .beaconLost s fun t => t.seg.csma = true ∧ Raised s t 0x2102 .keeper 0 0 0 0 0) ∧
  (∀ s : State, s.bring.segment = true → Runs .beaconSeen s fun t => t.seg.csma = false ∧ t.seg.beaconSeen = true ∧ t.log = s.log) ∧
  (∀ (s : State) (static : Bool), s.usesAddress static = true →
    exec (.neighbourSolicitation static false) s = .next { s with reply := some .neighbour } ∧
    (Runs (.neighbourSolicitation static true) s fun t => t.usesAddress static = false ∧
      Raised s t 0x2104 .keeper 0 0 (if static then 1 else 0) 0 0) ∧
    ∀ data, exec (.icmpv6Echo static data) s = .next { s with reply := some (.echo data) }) ∧
  (∀ (s : State) (static duplicate : Bool) (data : List Byte), s.usesAddress static = false →
    exec (.neighbourSolicitation static duplicate) s = .next s ∧ exec (.icmpv6Echo static data) s = .next s)

/-- Rails and memory (R467, R470, R473, R482): the rails come up only with phase 1 done, `PWR_EN`, an input above 46 V and, after a trip, every sensor below
85 °C; failed devices hold bring-up and train again; initialisation leaves both tiers empty and the carrels zero. -/
def Claims.RailsAndMemory : Prop :=
  (∀ (s : State) (vin : Nat),
    let may := s.bring.phase1 = .done ∧ s.power.pwrEn = true ∧ s.bring.pwrGood = false ∧ 46000 < vin ∧
      (s.power.thermTrip = true → ∀ x ∈ s.power.temps, x < 85000)
    (may → Runs (.railUp vin) s fun t => t.bring.pwrGood = true ∧ t.power.vin = vin ∧ t.power.thermTrip = false ∧ t.power.dies = List.replicate 4 .awake ∧
      t.bring.windowOver = [] ∧ t.log = s.log) ∧
    (¬ may → exec (.railUp vin) s = .next s)) ∧
  (∀ (s : State) (failed : List Nat), s.bring.pwrGood = true → s.bring.trained = false → s.bring.failedDevices = [] → failed.all (· < 26) = true →
    Runs (.memoryTrained failed) s fun t => t.bring.trained = failed.isEmpty ∧ t.bring.failedDevices = failed ∧ (failed = [] → t.log = s.log)) ∧
  (∀ (s : State) (still : List Nat), s.bring.pwrGood = true → s.bring.failedDevices ≠ [] →
    Runs (.memoryRetrain still) s fun t => t.bring.failedDevices = s.bring.failedDevices.filter still.contains ∧
      (t.bring.trained = true ↔ ∀ d ∈ s.bring.failedDevices, d ∉ still) ∧ ((s.bring.retrains + 1) % 60 ≠ 0 → t.log = s.log)) ∧
  (∀ (s : State) (banks : List (Nat × Nat × Nat × Nat)), s.bring.trained = true → s.bring.initialised = false →
    Runs (.memoryInit [] banks []) s fun t => t.bring.initialised = true ∧ t.tiers.tiles = [] ∧ t.carrel = [] ∧ t.carrelPoison = [] ∧ t.rel.rows = [] ∧
      t.spares = s.spares ∧ t.rel.resources = s.rel.resources)

/-- A row that fails the memory test with its repair resource used up and its tier at the floor holds bring-up (R351, R470); a failing spare tile is no
spare any longer, and an active one is replaced by a spare. -/
def Claims.InitialisationRepairs : Prop :=
  (∀ (s : State) (device bank row loc bytes : Nat), s.bring.trained = true → s.bring.initialised = false → device < 26 → s.bankLeft device bank = 0 →
    s.usable (tierOf device) < usableFloor (tierOf device) + bytes →
    Runs (.memoryInit [(device, bank, row, loc, bytes)] [] []) s fun t => t.bring.initialised = false ∧
      Raised s t 0x7005 .memory 0 0 (tierOf device) (s.usable (tierOf device) / mib) 0) ∧
  (∀ (s : State) (die phys : Nat), s.bring.trained = true → s.bring.initialised = false → die < 4 → s.spares.length = 4 →
    (s.spares.getD die []).contains phys = true →
    Runs (.memoryInit [] [] [(die, phys)]) s fun t => t.bring.initialised = true ∧ t.spares.getD die [] = (s.spares.getD die []).filter (· != phys) ∧
      Added s t 0x7020 2 1 ∧ t.tileUnits = s.tileUnits) ∧
  (∀ (s : State) (die i sp : Nat) (rest : List Nat), s.bring.trained = true → s.bring.initialised = false → die < 4 → i < 64 → s.spares.length = 4 →
    s.tileUnits.length = 256 → s.spares.getD die [] = sp :: rest → (s.spares.getD die []).contains (s.unit (64 * die + i)).phys = false →
    (s.unit (64 * die + i)).lost = false → (∀ k < i, (s.unit (64 * die + k)).phys ≠ (s.unit (64 * die + i)).phys) →
    Runs (.memoryInit [] [] [(die, (s.unit (64 * die + i)).phys)]) s fun t => (t.unit (64 * die + i)).phys = sp ∧ t.spares.getD die [] = rest ∧
      Raised s t 0x4001 .tile (64 * die + i) 0 1 (s.unit (64 * die + i)).phys sp)

/-- The module is ready (R469, R471, R472) once no phase holds and every port has trained or its window has ended: every slot is free and event 0x1001 gives
the time and the numerics generation. -/
def Claims.ModuleBecomesReady : Prop :=
  ∀ (s : State) (ms : Nat), s.bring.phase1 = .done → s.bring.pwrGood = true → s.bring.trained = true → s.bring.initialised = true → s.bring.ready = false →
    ((∀ p < 12, 0 < (s.suesh p).width ∨ s.bring.windowOver.contains p = true) → Runs (.moduleReady ms) s fun t => t.bring.ready = true ∧
      Raised s t 0x1001 .keeper 0 0 ms s.sec.numericsGen 0 ∧ ∀ q < 1024, ∀ k < 4, t.slotFree q k = true) ∧
    ((∃ p, p < 12 ∧ (s.suesh p).width = 0 ∧ s.bring.windowOver.contains p = false) → exec (.moduleReady ms) s = .next s)

/-- The live switch (R401, R402): without an armed switch nothing happens; with no job open control passes to the standby image, counted and reported, or,
where its start checks fail, stays with the running one and the image is rejected. A job with a step begun holds the switch at its boundary. A
job whose Deposit stands goes over to the image's numerics generation with a log of that generation alone (R37). -/
def Claims.FirmwareSwitches : Prop :=
  (∀ (s : State) (ok : Bool) (now : Nat), s.sec.standby ≠ .armed → exec (.firmwareSwitch ok now) s = .next s) ∧
  (∀ (s : State) (now : Nat), s.sec.standby = .armed → s.jobs = [] →
    let img := s.flash.slot s.otherSlot
    (Runs (.firmwareSwitch true now) s fun t => t.sec.runningSlot = s.otherSlot ∧ t.sec.standby = .empty ∧ t.sec.imageVersion = imageField img 127 96 ∧
      t.sec.numericsGen = imageField img 63 48 ∧ Added s t 0x8040 4 1 ∧ (∃ d, t.flash.delta = some d ∧ d.activeSlot = s.otherSlot) ∧
      Raised s t 0x8003 .security 0 0 s.sec.imageVersion (imageField img 127 96) (s.sec.numericsGen * 2 ^ 16 + imageField img 63 48)) ∧
    (Runs (.firmwareSwitch false now) s fun t => t.sec.runningSlot = s.sec.runningSlot ∧ t.sec.standby = .rejected ∧ t.flash = s.flash ∧
      Raised s t 0x8004 .security 0 0 (imageField img 127 96) 0 0)) ∧
  (∀ (s : State) (ok : Bool) (now : Nat) (j : Job), s.sec.standby = .armed → j ∈ s.jobs → j.drained = false →
    exec (.firmwareSwitch ok now) s = .next { s with sec := { s.sec with switchHeld := s.jobs.map (·.slot) } }) ∧
  (∀ (s : State) (now : Nat) (j : Job),
    let gen := imageField (s.flash.slot s.otherSlot) 63 48
    s.sec.standby = .armed → s.jobs = [j] → j.drained = true → j.taking = none → s.sec.switchDeposits.contains j.slot = true → gen ≠ s.sec.numericsGen →
      Runs (.firmwareSwitch true now) s fun t => t.sec.numericsGen = gen ∧ ∃ k, t.jobs = [k] ∧ k.body = j.body ∧ ∀ r ∈ k.log, r.gen = gen)

/-! ### Recovery -/

/-- A log record commits (R360): with no reachable buddy by the local write alone, reported once while it lasts; with one when the buddy has acknowledged it,
and it is sent before. The final response of its command is formed then. Readings and choices of the model in it: log entries 28, 96. -/
def Obligations.LogRecordsCommit : Prop :=
  ∀ (s : State) (slot : Nat) (refused : Bool) (j : Job) (r : LogRec), s.job? slot = some j → j.state = .running →
    j.log.find? (fun x => !x.committed) = some r →
    let commits (t : State) : Prop := ∃ k, t.job? slot = some k ∧
      k.log = j.log.map (fun x => if x.offset = r.offset then { x with committed := true } else x) ∧
      ∀ f st p n, r.kind = 1 → s.port.inFlight.find? (fun f => f.job == some slot && f.accept == some r.accept && !f.logged) = some f →
        f.stage = .done st p n → (s.live? f.cmd.session).isSome = true → (s.queue f.cmd.queue).session = f.cmd.session →
        ∃ l, (t.queue f.cmd.queue).store = (s.queue f.cmd.queue).store ++ l ++
          [{ finalResponse f.cmd st p n with seq := (s.queue f.cmd.queue).rspSeq + 1, session := f.cmd.session }]
    ((refused = true ∨ s.buddy? = none) → Runs (.logCommit slot refused) s fun t => commits t ∧ t.fabric.unprotected.isSome = true ∧
      (s.fabric.unprotected.isSome = true → t.log = s.log ∧ t.fabric.unprotected = s.fabric.unprotected)) ∧
    (∀ b, refused = false → s.buddy? = some b → s.holderOf b = b →
      (r.mirrored = false → Runs (.logCommit slot refused) s fun t => OnItsWay t b .logMirror (s.mirrorMsg j r) ∧ ∃ k, t.job? slot = some k ∧
        k.log = j.log.map (fun x => if x.offset = r.offset then { x with mirrored := true } else x)) ∧
      (r.mirrored = true → s.acked b (s.mirrorMsg j r) = false → exec (.logCommit slot refused) s = .next s) ∧
      (r.mirrored = true → s.acked b (s.mirrorMsg j r) = true → Runs (.logCommit slot refused) s fun t => commits t ∧ t.fabric.unprotected = none))

/-- Deposits (R363 to R367): one that is due at a step boundary is taken of the job as it stands, or reported when the buddy has no room; it commits once
nothing of it is on its way, frees what it covers of the log, and the interval is set hourly. Readings and choices of the model in it: log entries 37, 93, 97, 98, 150. -/
def Obligations.DepositsAreTaken : Prop :=
  (∀ (s : State) (slot now : Nat) (j : Job), s.job? slot = some j →
    (j.early = true ∨ (s.num 0x7120 1 ≠ 2 ∧ j.depositAt + j.interval ≤ now)) → j.atBoundary = true → j.taking = none → j.fenced = false → j.filling = false → j.state = .running →
    let large := s.num 0x7130 1 ≠ 0xFFFF ∧ s.num 0x7100 1 * gib < (s.depositOf j).imageBytes
    (¬ large → Runs (.depositStart slot now) s fun t => ∃ k, t.job? slot = some k ∧ k.taking = some (s.depositOf j) ∧ k.takingAt = now ∧ k.early = false ∧
      k.body = j.body ∧ k.log = j.log) ∧
    (large → Runs (.depositStart slot now) s fun t => (∃ k, t.job? slot = some k ∧ k.taking = none ∧ k.early = false ∧ k.depositAt = now) ∧
      Raised s t 0x7108 .job slot 0 ((s.depositOf j).imageBytes % 2 ^ 32) ((s.depositOf j).imageBytes / 2 ^ 32) 0)) ∧
  (∀ (s : State) (slot now : Nat) (j : Job) (d : Deposit), s.job? slot = some j → j.taking = some d →
    (∀ w ∈ s.fabric.outbox, w.kind ≠ .deposit) → (∀ a ∈ s.fabric.assocs, ∀ x ∈ a.store, x.kind ≠ .deposit) →
    Runs (.depositCommit slot now) s fun t => ∃ k, t.job? slot = some k ∧ k.deposit = some { d with committed := true } ∧ k.taking = none ∧
      k.depositAt = now ∧ k.full = false ∧ k.log = j.keptLog d ∧ k.num 0x7100 6 = d.step.getD 0) ∧
  (∀ s : State, Runs .depositIntervalEval s fun t => Added s t 0x7120 8 1 ∧ t.jobs.map (·.body) = s.jobs.map (·.body) ∧
    (s.num 0x7120 1 = 1 → ∀ j ∈ t.jobs, j.interval = s.num 0x7120 5) ∧ (s.num 0x7120 1 = 0 → s.num 0x7120 5 ≤ s.num 0x7120 6 → ∀ j ∈ t.jobs,
      s.num 0x7120 5 ≤ j.interval ∧ j.interval ≤ s.num 0x7120 6))

/-- Liveness (R368, R377, R471): every peer is probed under the next number, a ready module answers a probe, an answer or another peer's answer says that a
position has been heard, a query about one heard is answered, and a position silent for a full timeout is asked about. -/
def Claims.LivenessMessages : Prop :=
  (∀ s : State, Runs .livenessProbeDue s fun t => t.fabric.probe = (s.fabric.probe + 1) % 2 ^ 64 ∧
    ∀ p ∈ s.probed, s.holderOf p = p → (∃ a, t.assoc? p = some a ∧ a.heard = false) ∧
      OnItsWay t p .liveness (s.livenessTo p 0 ((s.fabric.probe + 1) % 2 ^ 64) 0)) ∧
  (∀ (s : State) (port now : Nat) (m : Msg) (a : Assoc), s.Hears port m a →
    let h := recHead m.body
    (s.bring.ready = true → s.bring.announcedFailure = false → s.holderOf m.src = m.src →
      Runs (.probe port m true now) s fun t => OnItsWay t m.src .liveness (s.livenessTo m.src 1 h.offset 0)) ∧
    ((s.bring.ready = false ∨ s.bring.announcedFailure = true) → s.fabric.outbox = [] →
      Runs (.probe port m true now) s fun t => t.fabric.outbox = s.fabric.outbox ∧ ∃ b, t.assoc? m.src = some b ∧ b.store = a.store ∧ b.delivered = h.step) ∧
    (Runs (.answer port m true now) s fun t => ∃ b, t.assoc? m.src = some b ∧ b.heard = true ∧ b.queried = false ∧ b.delivered = h.step) ∧
    (∀ b, s.assoc? h.subject = some b → b.heard = true → h.subject ≠ m.src → s.holderOf m.src = m.src →
      Runs (.query port m true now) s fun t => OnItsWay t m.src .liveness (s.livenessTo m.src 3 h.offset h.subject)) ∧
    (∀ b, s.assoc? h.subject = some b → Runs (.queryAnswer port m true now) s fun t => ∃ c, t.assoc? h.subject = some c ∧ c.heard = true ∧ c.queried = false)) ∧
  (∀ (s : State) (pos : Nat) (a : Assoc), s.assoc? pos = some a →
    (a.heard = true → exec (.livenessTimeout pos) s = .next s) ∧
    (a.heard = false → Runs (.livenessTimeout pos) s fun t => (∃ b, t.assoc? pos = some b ∧ b.queried = true) ∧
      ∀ b ∈ s.fabric.assocs, b.live = true → b.peer ≠ pos → s.holderOf b.peer = b.peer →
        OnItsWay t b.peer .liveness (s.livenessTo b.peer 2 s.fabric.probe pos)))

/-- Fencing (R368, R369): the first `FENCE` about a position, or its failure seen here, fences it, drops its association and is reported with who declared
it; a second one changes nothing; a module that every peer refuses closes its jobs without a response. -/
def Claims.PositionsAreFenced : Prop :=
  (∀ (s : State) (port now : Nat) (m : Msg) (a : Assoc), s.Hears port m a →
    let pos := (recHead m.body).subject
    (s.fabric.fenced.contains pos = false → pos ≠ s.fabric.position → Runs (.fence port m true now) s fun t => pos ∈ t.fabric.fenced ∧ t.assoc? pos = none ∧
      Raised s t 0x7102 .module 0 0 pos m.src 0) ∧
    (s.fabric.fenced.contains pos = true ∨ pos = s.fabric.position → Runs (.fence port m true now) s fun t => t.fabric.fenced = s.fabric.fenced ∧
      t.log = s.log ∧ t.jobs = s.jobs)) ∧
  (∀ (s : State) (pos : Nat) (announced : Bool) (a : Assoc), s.assoc? pos = some a → pos ≠ s.fabric.position → s.fabric.fenced.contains pos = false →
    (announced = true ∨ (a.queried = true ∧ a.heard = false) → Runs (.positionFailed pos announced) s fun t => pos ∈ t.fabric.fenced ∧ t.assoc? pos = none ∧
      Raised s t 0x7102 .module 0 0 pos s.fabric.position 0) ∧
    (announced = false → (a.queried = false ∨ a.heard = true) → exec (.positionFailed pos announced) s = .next s)) ∧
  (∀ s : State, s.bring.ready = true → s.bring.selfFenced = false → Runs .selfFenced s fun t => t.bring.selfFenced = true ∧ t.jobs = [] ∧
    Raised s t 0x7107 .module 0 0 s.fabric.position 0 0 ∧ (s.bring.announcedFailure = false → Added s t 0x7120 9 1) ∧
    ∀ q, (t.queue q).session = (s.queue q).session)

/-- Takeover and folding (R37, R370 to R375, R393): the next spare takes a fenced position and answers for it; each job stands on it as the Deposit holds it
and takes the commands of its log again, in their order, where that is of the module's numerics generation. The module it replaces ends every session; the
takeover is complete once every replay has come to its end, and its completion ends the fence; with no spare left a folder answers for the position. -/
def Claims.PositionsAreTakenOver : Prop :=
  (∀ (s : State) (pos spare : Nat) (images : List FillImage), s.fabric.position = spare → Runs (.takeoverStarted pos ⟨spare, images⟩) s fun t =>
    t.fabric.position = pos ∧ t.fabric.filling = some pos ∧ t.fabric.assigned = s.fabric.assigned ++ [spare] ∧ Raised s t 0x7103 .module 0 0 pos spare 0 ∧
      t.sec.standby = (if s.sec.standby = .armed then .verified else s.sec.standby)) ∧
  (∀ (s : State) (pos spare : Nat) (m : FillImage), s.fabric.position = spare → s.jobOfKey? m.job.key = none → s.jobs.length < 4 → m.job.slot < 4 →
    s.job? m.job.slot = none →
    Runs (.takeoverStarted pos ⟨spare, [m]⟩) s fun t =>
      (∃ k, t.job? m.job.slot = some k ∧ k.key = m.job.key ∧ k.holder = none ∧ k.filling = true ∧ k.state = .running ∧ k.steps = [] ∧
        k.body.nextStep = (match m.deposit.step with | some n => n + 1 | none => 0) ∧ k.body.lastDone = m.deposit.step ∧
        k.body.params = m.deposit.body.params ∧ (∀ p, p ∈ k.body.dict ↔ p ∈ m.deposit.body.dict ∧
          ∃ r, findEntry (p.1 / 256) (p.1 % 256) = some r ∧ r.access ≠ .rw ∧ r.access ≠ .wo) ∧ k.retained = m.deposit.retained ∧
        k.deposit = some { m.deposit with committed := true } ∧
        k.log = (m.log.filter fun r => r.gen == s.sec.numericsGen).map fun r => { r with committed := true, mirrored := true }) ∧
      (∀ n, n ≠ m.job.slot → t.job? n = s.job? n) ∧
      ∀ r, (m.log.filter fun r => r.gen == s.sec.numericsGen && m.deposit.replays r).head? = some r → r.kind = 1 →
        ∃ f ∈ t.port.inFlight, f.replayed = true ∧ f.stage = .arrived ∧ f.job = some m.job.slot ∧ f.accept = some r.accept ∧
          f.cmd.opcode = r.opcode ∧ f.cmd.step = r.step ∧ f.cmd.payload = r.body) ∧
  (∀ (s : State) (pos spare : Nat) (images : List FillImage), s.fabric.position ≠ spare → s.sparesLeft.head? = some spare →
    (s.fabric.position = pos → Runs (.takeoverStarted pos ⟨spare, images⟩) s fun t => t.sessions = [] ∧ t.fabric.assigned = s.fabric.assigned ++ [spare]) ∧
    (s.fabric.position ≠ pos → s.fabric.fenced.contains pos = true → Runs (.takeoverStarted pos ⟨spare, images⟩) s fun t => t.holderOf pos = pos ∧
      t.fabric.assigned = s.fabric.assigned ++ [spare] ∧ Raised s t 0x7103 .module 0 0 pos spare 0)) ∧
  (∀ (s : State) (pos holder : Nat) (jobs : List (Nat × Nat)), s.fabric.filling = some pos →
    let ended := s.jobs.all Job.replayDone = true ∧ ∀ f ∈ s.port.inFlight, f.replayed = true → f.stage ≠ .arrived
    (ended → Runs (.takeoverComplete pos holder jobs) s fun t => t.fabric.filling = none ∧ t.jobs = s.jobs.map (fun j => { j with filling := false }) ∧
      Raised s t 0x7104 .module 0 0 pos holder 0) ∧
    (¬ ended → exec (.takeoverComplete pos holder jobs) s = .next s)) ∧
  (∀ (s : State) (pos holder : Nat) (jobs : List (Nat × Nat)), s.fabric.filling ≠ some pos → s.fabric.fenced.contains pos = true → (s.fabric.holders.any fun h => h.1 == pos) = true →
    Runs (.takeoverComplete pos holder jobs) s fun t => pos ∉ t.fabric.fenced ∧ t.holderOf pos = pos ∧ Raised s t 0x7104 .module 0 0 pos holder 0) ∧
  (∀ (s : State) (pos folder : Nat) (images : List (Nat × Deposit)), s.fabric.fenced.contains pos = true → s.sparesLeft = [] →
    (s.fabric.holders.any fun h => h.1 == pos) = false → (folder = s.fabric.position → s.canHold images = true) →
    Runs (.positionFolded pos folder images) s fun t => t.holderOf pos = folder ∧ Raised s t 0x7105 .module 0 0 pos folder 0 ∧
      (folder = s.fabric.position → pos ∈ t.fabric.folded))

/-- Restore and its limits (R35, R373, R376), no message of a peer waiting: a job restored in place is fenced no longer and its tiles hold no poison; one that
cannot be recovered, or whose replay met a supply unlike the logged one, is exhausted with event 0x7106, and a step it had in flight has the summary alone for
its result and is no completed step. -/
def Claims.RestoreAndExhaustion : Prop :=
  (∀ (s : State) (slot : Nat) (j : Job), s.job? slot = some j → j.fenced = true → s.fabric.requests = [] → Runs (.restoreInPlace slot) s fun t =>
    (∃ k, t.job? slot = some k ∧ k = { j with fenced := false }) ∧ (∀ x ∈ t.tiers.tiles, x.key.slot = slot → x.poison = []) ∧
      (∀ g ∈ t.carrelPoison, g < 256 * 2 ^ 17 → ¬ (roleA (s.roleWord (g / 2 ^ 17)) ≠ 0 ∧ roleSlot (s.roleWord (g / 2 ^ 17)) = slot))) ∧
  (∀ (s : State) (slot : Nat) (j : Job), s.job? slot = some j → (j.state = .running ∨ j.state = .restoring) →
    (j.fenced = true ∨ j.unlike = true ∨ ∃ p ∈ j.positions, s.fabric.fenced.contains p = true) →
    (j.steps = [] → Runs (.recoveryExhausted slot) s fun t => (∃ k, t.job? slot = some k ∧ k.state = .exhausted ∧ k.fenced = false ∧ k.body = j.body) ∧
      Raised s t 0x7106 .job slot j.body.nextStep (j.key % 2 ^ 32) (j.key / 2 ^ 32) 0) ∧
    (∀ x, j.steps = [x] → Runs (.recoveryExhausted slot) s fun t => ∃ k, t.job? slot = some k ∧ k.state = .exhausted ∧ k.steps = [] ∧
      k.body.lastDone = j.body.lastDone ∧ k.body.health = j.body.health ∧
      k.body.results = j.body.results ++ [{ step := x.num, image := x.summary 64 Status.exhausted.code 0, delivered := [] }]))

/-- Landed messages move (R336, R365, R377): a movable one, first of its kind and job, here one whose effect sends nothing on, leaves the landing reserve
and its granules are due to be acknowledged as freed; one that is not waits. A ward's log record is kept behind those held of its job. -/
def Claims.LandedMessagesMove : Prop :=
  ∀ (s : State) (peer i : Nat) (a : Assoc) (m : Landed), s.fabric.assocs.find? (fun x => x.peer == peer) = some a → a.landing[i]? = some m →
    let first := (a.landing.take i).all fun x => !(x.kind == m.kind && leAt x.bytes 24 8 == leAt m.bytes 24 8)
    ((first = false ∨ s.movable peer m = false) → exec (.landingMove peer i) s = .next s) ∧
    (first = true → s.movable peer m = true → m.kind ≠ .reduce → m.kind ≠ .broadcast → Runs (.landingMove peer i) s fun t =>
      ∃ b, t.fabric.assocs.find? (fun x => x.peer == peer) = some b ∧ b.landing = a.landing.eraseIdx i ∧
        b.freedHere = a.freedHere + granulesOf m.bytes ∧ 1 ≤ b.ackOwed) ∧
    (first = true → m.kind = .logMirror → (s.fabric.ward = none ∨ s.fabric.ward = some (recHead m.bytes).subject) →
      ∀ w, s.fabric.wardJobs.find? (fun x => x.key == (recHead m.bytes).jobKey) = some w →
      Runs (.landingMove peer i) s fun t => t.fabric.ward = some (recHead m.bytes).subject ∧
        t.fabric.wardJobs.find? (fun x => x.key == (recHead m.bytes).jobKey) = some { w with log := w.log ++ slice m.bytes 32 (recHead m.bytes).count })

/-! ### Tiles: work items and instances -/

/-- Dispatch (R50, R51): a work item whose piece, micro-batch order and tile allow it stands on the tile at the first descriptor that its selectors let
run, with its loop registers zero; a tile that changes its role, or whose entry has changed since, starts with a zero carrel and no
counts but those of the steps that its new entry binds (R47, R59). A step-end pass, due once the work of
its role is done, is dispatched the same way (R50). Neither is dispatched twice; one that is to run again and found no place (R51, R63) takes the first that
its tile has. -/
def Claims.WorkIsDispatched : Prop :=
  ∀ (s : State) (tile half : Nat) (w : WorkId) (j : Job) (x : StepRec) (p : Program), s.job? w.slot = some j → j.step? w.step = some x →
    let fresh (half prog : Nat) : Work :=
      { id := w, half := half, prog := prog, pos := 0, regs := [0, 0, 0, 0], loops := [], flying := [], rerun := false, only := none, delivered := [] }
    let prog := j.programFor x w (if half = 0 then progA (x.roleWord tile) else progB (x.roleWord tile))
    let first := walkOn x p (fresh half prog)
    let starts (c : Instr) (s : State) : Prop := Runs c s fun t => (t.unit tile).work? w = some first ∧
      (∃ y, t.step? w.slot w.step = some y ∧ y.dispatched = x.dispatched ++ [(w, tile)]) ∧
      (t.unit tile).bound = x.roleWord tile ∧ (t.unit tile).boundEpoch = x.epoch tile ∧ (∀ r, r ≠ tile → t.unit r = s.unit r) ∧
      (if (s.unit tile).bound = x.roleWord tile ∧ (s.unit tile).boundEpoch = x.epoch tile then
         t.carrel = s.carrel ∧ (t.unit tile).board = (s.unit tile).board
       else (∀ e, e ∈ (t.unit tile).board ↔ e ∈ (s.unit tile).board ∧
             ∃ y, (j.steps.find? fun y => y.num % 4 == e.1.2.1) = some y ∧ y.roleWord tile = x.roleWord tile ∧ y.epoch tile = x.epoch tile) ∧
           ∀ a, a < 2 ^ 22 → carrelByte t.carrel (carrelAt tile a) = 0)
    j.programs[prog]? = some p → first.pos < p.descs.length → (s.unit tile).work? w = none → tile < s.tileUnits.length → j.slot = w.slot →
    (∀ a ∈ x.again, a.id ≠ w ∨ a.tile ≠ tile) →
    (w.endPass = false → s.dispatchOpen j = true → s.notHeld j x = true → s.tileOpen x tile half w = true → s.stageOrder j x w = true →
      w.mb < x.seeds.length → (∀ y ∈ j.steps, w.step < y.num + 4) → (∀ q ∈ x.dispatched, q.1 ≠ w) → (∀ b ∈ x.bound, b.1 ≠ (w.mb, w.role, w.group)) →
      j.rungsKnown w = true →
      (if w.role = 1 ∧ (sampleOf j.programs).isSome = true then
         w.mb ∉ x.formed ∧ w.piece = x.pieceCount w.mb ∧ (0 < w.piece → s.sampling w.slot w.step w.mb (w.piece - 1) = false)
       else (x.piece? w.mb w.piece).isSome = true) →
      starts (.workItemDispatch tile half w) s) ∧
    (w.endPass = true → w.role ≠ 5 → s.afterWork w.slot w.step = s → s.dispatchOpen j = true →
      w.mb = 0 → w.piece = 0 → w.back = false → (∃ n, halvesFor (x.roleWord tile) w.role w.group = [(half, n)]) → x.roleDone w.role w.group false = true →
      (∀ q ∈ x.dispatched, q ≠ (w, tile)) → s.placeOpen tile half = true → s.bindOpen x tile = true → starts (.stepEndPass tile half w) s) ∧
    ((∃ q ∈ x.dispatched, q.1 = w) → exec (.workItemDispatch tile half w) s = .next s)

/-- A work item that is to run again and found no place on its tile (R51, R63, R108) starts over there, from its first descriptor and with what it had
delivered, once a place is free and its job may dispatch; it waits no longer. -/
def Claims.RerunsTakeAPlace : Prop :=
  ∀ (s : State) (tile half : Nat) (w : WorkId) (j : Job) (x : StepRec) (p : Program) (a : Rerun), s.job? w.slot = some j → j.step? w.step = some x →
    (x.again.find? fun a => a.id == w && a.tile == tile) = some a → s.dispatchOpen j = true → s.placeOpen tile (halfOf (x.roleWord tile) w) = true →
    tile < s.tileUnits.length → j.slot = w.slot → j.programs[j.progOn x tile w]? = some p →
    let start : Work := ⟨w, halfOf (x.roleWord tile) w, j.progOn x tile w, 0, [0, 0, 0, 0], [], [], true, a.only, a.delivered, []⟩
    let k := walkOn x p start
    k.pos < p.descs.length → Runs (.workItemDispatch tile half w) s fun t => (t.unit tile).work? w = some k ∧
      ∃ y, t.step? w.slot w.step = some y ∧ (∀ b ∈ y.again, b.id ≠ w ∨ b.tile ≠ tile) ∧ y.dispatched = x.dispatched

/-- Issue (R52) of `VECTOR`'s 29 rows, `SOFTMAX_BLOCK`'s three, `CONVERT` and `SPMM`, no stored operand of it poisoned (R347): an instance that may issue is in flight, ready to complete, and has
written only its declared ranges; a row of another descriptor, or one that may not issue yet, changes nothing. Readings and choices of the model in it: log entries 54, 56, 57, 136, 140. -/
def Obligations.EngineInstancesIssue : Prop :=
  ∀ (s : State) (tile : Nat) (w : WorkId),
    (∀ c, s.Can tile w c → ∀ r ∈ plainRows tile w c.d, r.1 = true → (c.d.kind = 0x05 → c.adjacencyKeys.any s.tilePoisoned = false) →
      Runs r.2 s fun t => ∃ i, Issued s t w c i ∧ i.ready = true ∧ i.reqs = []) ∧
    (∀ c, s.ctx? tile w = some c → ∀ r ∈ plainRows tile w c.d, (r.1 = false ∨ s.canIssue c = false) → exec r.2 s = .next s) ∧
    (s.ctx? tile w = none → ∀ d, ∀ r ∈ plainRows tile w d, exec r.2 s = .next s)

/-- Issue of the instances that wait for more than R52: `MATMUL` for its weights (R16, R174, R248: a weight still outside the near tier is counted once, and
the keeper ticks of the wait once it ends), `COMPRESS` for space (R256, counted once an instance), `UPDATE` for its layer (R219) and for space, `GATHER` and `SCATTER`
for the refresh of a table (R137) and for rank 0 (R238). `GATHER` and `SCATTER` (R93, R94) have asked for nothing yet; a `GATHER`'s
landing range reads zero. One whose stored operands are poisoned writes nothing (R347). -/
def Claims.WaitingInstancesIssue : Prop :=
  ∀ (s : State) (tile : Nat) (w : WorkId) (c : Ctx), s.Can tile w c →
    let waiting : Prop := ∃ e ∈ c.x.spaceWait, e.1 = c.instance'
    let waits (r : Instr) (sought : Nat) : Prop :=
      (¬ waiting → Runs r s fun t => Added s t 0x3200 4 1 ∧ t.tiers = s.tiers ∧ t.tileUnits = s.tileUnits ∧
        t.step? w.slot w.step = some { c.x with spaceWait := c.x.spaceWait ++ [(c.instance', sought)] }) ∧
      (waiting → exec r s = .next s)
    let poisoned (ks : List TileKey) : Prop := ks.any s.tilePoisoned = true
    let held (r : Instr) : Prop := Runs r s fun t => t.tileUnits = s.tileUnits ∧ t.carrel = s.carrel ∧
      t.tiers.tiles.map (·.image) = s.tiers.tiles.map (·.image) ∧ t.jobs.map (·.body.params) = s.jobs.map (·.body.params)
    (c.d.kind = 0x01 → poisoned (c.sampleReads s) → held (.sample tile w)) ∧ (c.d.kind = 0x05 → poisoned c.adjacencyKeys → held (.spmm tile w)) ∧
    (c.d.kind = 0x04 → c.weightReady s = true → c.weightLate s = false → poisoned c.weightKeys → held (.matmul tile w)) ∧
    (c.d.kind = 0x0A → c.updateReady s = true → poisoned (c.updateReads s) → held (.update tile w)) ∧
    let found (t : State) : Prop := ∀ y, t.step? w.slot w.step = some y → ∀ e ∈ y.spaceWait, e.1 ≠ c.instance'
    (c.d.kind = 0x04 → c.weightReady s = true →
      let mine := (w, c.w.pos, c.w.regs)
      (c.weightLate s = false → ¬ poisoned c.weightKeys → Runs (.matmul tile w) s fun t => (∃ i, Issued s t w c i ∧ i.ready = true ∧ i.reqs = []) ∧ mine ∉ (t.unit tile).late ∧
        JobAdded s t w.slot 0x4200 3 (if mine ∈ (s.unit tile).late then Config.freeNat s.draws else 0)) ∧
      (c.weightLate s = true → mine ∉ (s.unit tile).late → Runs (.matmul tile w) s fun t => JobAdded s t w.slot 0x4200 2 1 ∧ mine ∈ (t.unit tile).late ∧
        (t.unit tile).works = (s.unit tile).works) ∧
      (c.weightLate s = true → mine ∈ (s.unit tile).late → exec (.matmul tile w) s = .next s)) ∧
    (c.d.kind = 0x09 →
      (c.hasRoom s = true → Runs (.compress tile w) s fun t => (∃ i, Issued s t w c i ∧ i.ready = true ∧ i.reqs = []) ∧ found t) ∧
      (c.hasRoom s = false → waits (.compress tile w) (c.sought s))) ∧
    (c.d.kind = 0x0A →
      (c.updateReady s = true → ¬ poisoned (c.updateReads s) → c.updateRoom s = true → Runs (.update tile w) s fun t => (∃ i, Issued s t w c i ∧ i.ready = true ∧ i.reqs = []) ∧ found t ∧
        (c.updateIdle s = true → ¬ waiting → t.jobs = s.jobs ∧ t.tiers = s.tiers)) ∧
      (c.updateReady s = true → ¬ poisoned (c.updateReads s) → c.updateRoom s = false → waits (.update tile w) (c.updateSought s)) ∧
      (c.updateReady s = false → exec (.update tile w) s = .next s)) ∧
    (c.d.kind = 0x02 → c.refreshPast = true → c.tableRank s = true → Runs (.gather tile w) s fun t => (∃ i, Issued s t w c i ∧ i.reqs = c.requests s) ∧
      (t.unit tile).slips = (s.unit tile).slips ∧
      ∀ a, 32 * c.moveAt ≤ a → a < 32 * (c.moveAt + c.d.rowGranules) → carrelByte t.carrel (carrelAt tile a) = 0) ∧
    (c.d.kind = 0x03 → c.refreshPast = true → c.tableRank s = true → Runs (.scatter tile w) s fun t => (∃ i, Issued s t w c i ∧ i.reqs = c.requests s) ∧
      (t.unit tile).slips = (s.unit tile).slips ∧ t.carrel = s.carrel) ∧
    (c.d.kind = 0x02 ∨ c.d.kind = 0x03 → c.refreshPast = false ∨ c.tableRank s = false →
      exec (.gather tile w) s = .next s ∧ exec (.scatter tile w) s = .next s)

/-- The sequencer's instances (R50, R56, R58, R60, R63): a `WAIT` is ready at once where its count is reached; a `SIGNAL` is held by the job once, a rerun
that has sent it sends nothing and completes with the sending that still waits; a `LOOP` of none passes its body by, any other runs it from its first
descriptor, and it leaves a trace record where its `TRACE` flag is set. -/
def Claims.SequencerInstances : Prop :=
  ∀ (s : State) (tile : Nat) (w : WorkId) (c : Ctx), s.Can tile w c →
    (c.d.kind = 0x0B → Runs (.wait tile w) s fun t => t.jobs = s.jobs ∧ t.carrel = s.carrel ∧
      ∃ i, Issued s t w c i ∧ i.ready = s.waitMet w.slot tile c.w.half w c.d) ∧
    (c.d.kind = 0x0C → Runs (.signal tile w) s fun t => (∃ i, Issued s t w c i ∧ (i.ready = true ↔ c.live = false ∧ ∀ h ∈ c.job.signals, c.sentAs h = false)) ∧
      ∃ k, t.job? w.slot = some k ∧
      if c.live = true then ∃ h, k.signals = c.job.signals ++ [h] ∧ h.src = w ∧ h.srcTile = tile ∧ h.desc = c.d ∧ h.toMb = c.d.addressedMb w.mb ∧
        h.toStep = (if c.d.f 147 146 = 1 then w.step + 1 else w.step) ∧ h.ord = (s.unit tile).nextOrd
      else
        let again (h : HeldSignal) : HeldSignal := { h with srcTile := tile, half := c.w.half, pos := c.w.pos, ord := (s.unit tile).nextOrd }
        k = { c.job with signals := c.job.signals.map fun h => if c.sentAs h then again h else h }) ∧
    (c.d.kind = 0x0D →
      let n := c.d.loopCount (c.x.piece? w.mb w.piece)
      let begun := { c.w with latest := aSet c.w.latest c.w.pos (s.unit tile).nextOrd }
      let next := walkOn c.x c.prog (if n = 0 then { begun with pos := c.w.pos + 1 + c.d.loopLen }
        else { begun with pos := c.w.pos + 1, loops := c.w.loops ++ [⟨c.w.pos, n - 1⟩] })
      (next.pos < c.prog.descs.length → Runs (.loop tile w) s fun t => (t.unit tile).work? w = some next ∧ t.jobs = s.jobs ∧
        t.traces = s.traces ++ (if c.d.trace = true then [(tile, w, c.d.seq)] else []) ∧ ∀ r, r ≠ tile → t.unit r = s.unit r) ∧
      (c.prog.descs.length ≤ next.pos → next.flying = [] → Runs (.loop tile w) s fun t => (t.unit tile).work? w = none ∧
        ∃ y, t.step? w.slot w.step = some y ∧ y.completed = c.x.completed ++ [w]))

/-- A wait still open at a report interval is reported with its tile, sequence number and count (R58); nothing else changes. -/
def Claims.LongWaitsAreReported : Prop :=
  ∀ (s : State) (tile ord : Nat) (w : WorkId) (k : Work) (j : Job) (p : Program) (i : Inst), (s.unit tile).work? w = some k → s.job? w.slot = some j →
    j.programs[k.prog]? = some p → k.flying.find? (fun i => i.ord == ord && i.kind == 0x0B && !i.ready) = some i → (p.at i.pos).f 147 146 = 0 →
    Runs (.waitLong tile w ord) s fun t =>
      Raised s t 0x4005 .job w.slot w.step tile (i.seq % 2 ^ 32)
        ((s.unit tile).boardCount k.half (w.step % 4) ((p.at i.pos).f 145 144) ((p.at i.pos).addressedMb w.mb).toNat) ∧
      t.jobs = s.jobs ∧ t.tileUnits = s.tileUnits

/-- Signals arrive (R55 to R57, R59, R206): unless a layer check or a phase still held keeps it back, a signal of mode `SELF` raises the counter of the
tile that sent it in the micro-batch it names and leaves the job; counts stay at 65,535 with event 0x4003; a micro-batch that the step does not have drops
it with event 0x4004; to a step not yet accepted it waits, and its instance completes meanwhile. -/
def Claims.SignalsArrive : Prop :=
  (∀ (s : State) (slot index pick : Nat) (j : Job) (h : HeldSignal), s.job? slot = some j → j.signals[index]? = some h →
    (∀ y ∈ j.steps, y.num + 4 ≠ h.toStep) → (∀ p y, j.step? h.src.step = some y → ∀ l ∈ j.gates p h.pos h.src, y.layerPassed l h.src.mb = true) →
    (j.step? h.toStep = none → Runs (.signalDeliver slot index pick) s fun t => t.jobs = s.jobs ∧ t.carrel = s.carrel) ∧
    (∀ x, j.step? h.toStep = some x → h.srcTile < s.tileUnits.length →
      (0 ≤ h.toMb → h.toMb ≤ x.lastMb → h.desc.f 149 148 = 0 →
        let old := (s.unit h.srcTile).boardCount h.half (h.toStep % 4) (h.desc.f 145 144) h.toMb.toNat
        Runs (.signalDeliver slot index pick) s fun t =>
          (t.unit h.srcTile).boardCount h.half (h.toStep % 4) (h.desc.f 145 144) h.toMb.toNat = min (old + h.desc.f 175 168) 65535 ∧
            (65535 < old + h.desc.f 175 168 →
              Raised s t 0x4003 .job slot h.toStep h.srcTile (h.desc.f 145 144 * 2 ^ 16 + h.toMb.toNat % 2 ^ 12) 0) ∧
            (old + h.desc.f 175 168 ≤ 65535 → t.log = s.log) ∧ ∃ k, t.job? slot = some k ∧ k.signals = j.signals.eraseIdx index) ∧
      (h.toMb < 0 ∨ (x.lastMb : Int) < h.toMb → h.desc.f 149 148 = 0 → Runs (.signalDeliver slot index pick) s fun t =>
        (t.unit h.srcTile).board = (s.unit h.srcTile).board ∧ Raised s t 0x4004 .job slot h.toStep (h.desc.seq % 2 ^ 32) h.srcTile (h.desc.f 155 152) ∧
          ∃ k, t.job? slot = some k ∧ k.signals = j.signals.eraseIdx index))) ∧
  (∀ (s : State) (slot index pick : Nat) (j : Job) (h : HeldSignal) (y : StepRec), s.job? slot = some j → j.signals[index]? = some h → y ∈ j.steps →
    y.num + 4 = h.toStep → exec (.signalDeliver slot index pick) s = .next s)

/-- Completion (R42, R50, R52, R62, R93): on a tile that is not being retired, an instance that is ready, has landed every slip and, but for the sequencer's, is
the first in flight of its engine leaves the tile and frees its slips, the others keeping their places; where its descriptor's `TRACE` flag is set it leaves
a trace record; a work item whose program has ended with nothing else in flight is completed and off the tile. An instance that may not complete stays. Readings and choices of the model in it: log entries 53, 54, 59, 141. -/
def Obligations.InstancesComplete : Prop :=
  ∀ (s : State) (tile ord : Nat) (w : WorkId) (k : Work) (i : Inst), (s.unit tile).work? w = some k → k.flying.find? (fun i => i.ord == ord) = some i →
    let mine (x : Slip) : Bool := x.work == w && x.pos == i.pos && x.regs == i.regs
    let first := engineOf i.kind = 4 ∨ ∀ f ∈ (s.unit tile).flying, engineOf f.kind = engineOf i.kind → ord ≤ f.ord
    let landed := i.reqs = [] ∧ i.targets = [] ∧ ∀ p ∈ (s.unit tile).slips, mine p.2 = true → p.2.state = .done ∨ p.2.state = .zeroed
    (first → landed → i.ready = true → (s.unit tile).retiring = none → (engineOf i.kind = 0 → (s.unit tile).queue.length ≤ 16) →
      Runs (.instanceComplete tile w ord) s fun t =>
      (∀ d, s.instDesc? tile w ord = some d → t.traces = s.traces ++ (if d.trace = true then [(tile, w, d.seq)] else [])) ∧
      (∀ p ∈ (t.unit tile).slips, p ∈ (s.unit tile).slips ∧ mine p.2 = false) ∧
      (∀ v, (t.unit tile).work? w = some v → v.flying.map (·.ord) = (k.flying.filter fun f => f.ord != ord).map (·.ord) ∧ v.pos = k.pos ∧ v.regs = k.regs) ∧
      ∀ (j : Job) (x : StepRec) (p : Program), s.job? w.slot = some j → j.step? w.step = some x → j.programs[k.prog]? = some p →
        if p.descs.length ≤ k.pos ∧ ∀ f ∈ k.flying, f.ord = ord then (t.unit tile).work? w = none ∧ ∃ y, t.step? w.slot w.step = some y ∧ w ∈ y.completed
        else ((t.unit tile).work? w).isSome = true) ∧
    ((s.unit tile).retiring ≠ none ∨ (engineOf i.kind = 0 ∧ 16 < (s.unit tile).queue.length) ∨ i.ready = false ∨ i.reqs ≠ [] ∨ i.targets ≠ [] ∨ (engineOf i.kind ≠ 4 ∧ ∃ f ∈ (s.unit tile).flying, engineOf f.kind = engineOf i.kind ∧ f.ord < ord) ∨
        (∃ p ∈ (s.unit tile).slips, mine p.2 = true ∧ p.2.state ≠ .done ∧ p.2.state ≠ .zeroed) →
      exec (.instanceComplete tile w ord) s = .next s)

/-- Pieces (R79, R83 to R86): a `SAMPLE` with room for its tiles forms the next piece of its micro-batch, or samples a recorded one again; the tiles and the summary stand as
written, a micro-batch whose last piece it is is formed and logged, unless a log that is replayed holds the record (R85), and a split one is reported as event
0x4801, alone where no catalogue tile read has an event of its own. Without room it waits, and the wait is counted once (R256). -/
def Claims.PiecesAreFormed : Prop :=
  ∀ (s : State) (tile : Nat) (w : WorkId) (c : Ctx), s.Can tile w c → c.d.kind = 0x01 → (c.sampleReads s).any s.tilePoisoned = false →
    let (p, m) := c.formPiece s
    let g := s.graph w.slot (c.d.f 131 128)
    let tiles := c.sampleIn.tiles g p
    let quiet := ∀ r ∈ c.sampleIn.reads g p, let i := s.image (spaceKey .catalogue w.slot (c.d.f 131 128) 0 r.2 r.1)
      i = [] ∨ ∃ l, readLabel (i.take 32) = some l ∧ l.indexRange = false
    let waiting : Prop := ∃ e ∈ c.x.spaceWait, e.1 = c.instance'
    (c.sampleRoom s = false → ¬ waiting → Runs (.sample tile w) s fun t => Added s t 0x3200 4 1 ∧ t.tiers = s.tiers ∧ t.tileUnits = s.tileUnits ∧
      t.step? w.slot w.step = some { c.x with spaceWait := c.x.spaceWait ++ [(c.instance', c.sampleSought s)] }) ∧
    (c.sampleRoom s = false → waiting → exec (.sample tile w) s = .next s) ∧
    (c.sampleRoom s = true → Runs (.sample tile w) s fun t =>
      (∃ v, (t.unit tile).work? w = some v ∧ v.flying.map (·.ord) = c.w.flying.map (·.ord) ++ [(s.unit tile).nextOrd]) ∧
      t.carrelRead tile (32 * (c.base + c.d.f 353 336)) 64 = m.bytes ∧
      (c.live = true → ∀ u ∈ tiles, tiles.filter (fun v => v.tensor == u.tensor && v.row == u.row && v.col == u.col) = [u] →
        t.image (c.key u.tensor u.row u.col) = u.image) ∧
      ∃ k y, t.job? w.slot = some k ∧ k.step? w.step = some y ∧
        ((c.x.piece? w.mb w.piece).isSome = true → y.pieces = c.x.pieces ∧ y.formed = c.x.formed ∧ (quiet → t.log = s.log)) ∧
        (c.x.piece? w.mb w.piece = none → y.pieces = c.x.pieces ++ [⟨w.mb, m⟩] ∧ y.formed = c.x.formed ++ (if m.last then [w.mb] else []) ∧
          let n := y.pieceCount w.mb
          let ps := y.pieces.filter fun p => p.mb == w.mb
          let body := toLE 4 ps.length ++ (ps.map fun p => toLE 2 p.summary.first).flatten
          (m.last = true → Logged c.job k 4 w.mb w.step c.x.accept body) ∧
          (quiet → (m.last = true → 1 < n → Raised s t 0x4801 .job w.slot w.step w.mb n 0) ∧ (m.last = false ∨ n ≤ 1 → t.log = s.log))))

/-! ### Arithmetic of the engines -/

/-- Draws (R74, R76): a uniform integer below n is ⌊(w × n) / 2^32⌋ and lies below n; Floyd's procedure selects exactly f of d positions, each once, in
ascending order, whatever the words. -/
def Claims.DrawsAreUniform : Prop :=
  (∀ w n : Nat, w < 2 ^ 32 → 0 < n → uniform w n = w * n / 2 ^ 32 ∧ uniform w n < n) ∧
  (∀ (word : Nat → Nat) (f d : Nat), (∀ i, word i < 2 ^ 32) → f ≤ d →
    (floyd word f d).length = f ∧ rising (floyd word f d) = true ∧ ∀ p ∈ floyd word f d, p < d)

/-- Ledger addends (R105): each finite addend becomes the integer nearest x × 2^(96−w), ties to even, and an element's total and flags do not depend on
the order in which addends come. -/
def Obligations.LedgerTotalsIgnoreOrder : Prop :=
  (∀ (w : Int) (neg : Bool) (a d : Nat) (e : Int), 0 < d →
    let (x, y) := inUnits a d (e + 96 - w) 0
    let q := (ledgerInt w (.fin neg a d e)).natAbs
    2 * x ≤ (2 * q + 1) * y ∧ (2 * q - 1) * y ≤ 2 * x ∧ (2 * x = (2 * q + 1) * y ∨ (0 < q ∧ 2 * x = (2 * q - 1) * y) → q % 2 = 0) ∧
      (0 < q → (ledgerInt w (.fin neg a d e) < 0 ↔ neg = true))) ∧
  (∀ (w : Int) (ty : ElemType) (l m : List (Nat × Nat)) (es : List (Nat × LedgerElem)), l.Perm m →
    (∀ col, aGetD (addRaws w ty l es).1 col LedgerElem.zero = aGetD (addRaws w ty m es).1 col LedgerElem.zero) ∧ (addRaws w ty l es).2 = (addRaws w ty m es).2)

/-- Sticky flags (R107): a non-finite addend leaves the integer and sets its flag, no addend clears one, and the flags decide what the element rounds to:
none the integer's value, one infinity that infinity, NaN or both infinities NaN. -/
def Obligations.FlagsStick : Prop :=
  (∀ (l : LedgerElem) (w : Int), (l.addVal w .nan).1 = { l with nan := true } ∧ (l.addVal w (.inf false)).1 = { l with pos := true } ∧
    (l.addVal w (.inf true)).1 = { l with neg := true }) ∧
  (∀ (l : LedgerElem) (w : Int) (v : Val), let m := (l.addVal w v).1
    (l.pos = true → m.pos = true) ∧ (l.neg = true → m.neg = true) ∧ (l.nan = true → m.nan = true) ∧ (v.isFinite = true → m.sum = l.sum + ledgerInt w v)) ∧
  (∀ (l : LedgerElem) (w : Int),
    (l.nan = true ∨ (l.pos = true ∧ l.neg = true) → l.val w = .nan) ∧
    (l.nan = false → l.pos = true → l.neg = false → l.val w = .inf false) ∧
    (l.nan = false → l.pos = false → l.neg = true → l.val w = .inf true) ∧
    (l.nan = false → l.pos = false → l.neg = false → l.val w = .scaledInt l.sum (w - 96)))

/-- The label check (R146): the CRC of "123456789" is 0x29B1, every label written passes it, and a label that fails it is not read. -/
def Obligations.LabelsAreChecked : Prop :=
  crc16 ([0x31, 0x32, 0x33, 0x34, 0x35, 0x36, 0x37, 0x38, 0x39] : List Byte) = 0x29B1 ∧
    (∀ l : Label, l.bytes.length = 32 ∧ labelCheck l.bytes = true) ∧ ∀ g : List Byte, labelCheck (g.take 32) = false → readLabel (g.take 32) = none

/-- Stored tiles round trip (R145 to R155): whatever format the compressor picks, decoding what it stored gives the elements it kept, and it keeps every
element of the extent that pruning did not drop. Readings and choices of the model in it: log entry 20. -/
def Obligations.TilesRoundTrip : Prop :=
  ∀ (c : Choice) (ty : ElemType) (a : TileAt) (t : List Nat), t.length = 1024 → (∀ e ∈ t, e < 2 ^ ty.bits) →
    (c.sb = true → ty.allows .sb = true) → (c.nm = true → ty.allows .nm = true) → (c.cl = true → ty.allows .cl = true) → (c.nmOnly = true → c.nm = true) →
    a.scale < 255 → a.rowsM1 < 32 → a.colsM1 < 32 → a.tensor < 2 ^ 32 → a.row < 2 ^ 36 → a.col < 2 ^ 20 →
    let o := compressTile c ty a t
    decodeTile o.image = o.elems ∧ (∀ i, i < 1024 → nth o.elems i = 0 ∨ (nth o.elems i = nth t i ∧ i / 32 ≤ a.rowsM1 ∧ i % 32 ≤ a.colsM1)) ∧
      (o.dropped = [] → ∀ i, i < 1024 → i / 32 ≤ a.rowsM1 → i % 32 ≤ a.colsM1 → nth o.elems i = nth t i)

/-- Matrix products (R162 to R164): INT8 products of up to 4,096 positions are exact and their order does not matter; a product with an empty operand
contributes nothing even beside an infinity; a reduction with no product is +0; a product that would take an element of a tile that cannot be multiplied gives the quiet NaN, or −2^31 in INT32. -/
def Claims.ProductsAreSummed : Prop :=
  (∀ xs ws : List Operand, (∀ x ∈ xs, x.bad = false ∧ x.raw < 256) → (∀ x ∈ ws, x.bad = false ∧ x.raw < 256) → xs.length ≤ 4096 →
    signed 32 (resultElem true xs ws) = (((xs.zip ws).map fun p => signed 8 p.1.raw * signed 8 p.2.raw).foldl (· + ·) 0)) ∧
  (∀ ps qs : List Int, ps.Perm qs → dotInt ps = dotInt qs) ∧
  (∀ (x y : Nat) (v u : Val), product (0, v) (y, u) = none ∧ product (x, v) (0, u) = none) ∧
  (∀ xs ws : List Operand, (∀ x ∈ xs, x.raw = 0) → resultElem false xs ws = 0) ∧
  (∀ xs ws : List Operand, (∃ p ∈ xs.zip ws, p.2.bad = true ∧ p.1.raw ≠ 0 ∧ p.2.raw ≠ 0) →
    resultElem false xs ws = 0x7FC00000 ∧ resultElem true xs ws = 2 ^ 31)

/-- Special values of the vector functions (R183): those of IEEE 754, and compares with NaN are false but for `CMP_NE`. -/
def Claims.VectorSpecialValues : Prop :=
  (∀ n : Bool, vecElem 0x12 .fp32 .nearest false (.zero n) .nan .nan = toElem .fp32 0 .nearest (.inf n) ∧
    vecElem 0x14 .fp32 .nearest false (.zero n) .nan .nan = toElem .fp32 0 .nearest (.inf n) ∧
    vecElem 0x13 .fp32 .nearest false (.zero n) .nan .nan = toElem .fp32 0 .nearest (.zero n)) ∧
  (∀ (b d : Val), vecExact 0x11 (.zero false) b d = .inf true ∧ vecExact 0x10 (.inf true) b d = .zero false ∧
    vecExact 0x10 (.inf false) b d = .inf false ∧ vecExact 0x11 (.fin false 1 1 0) b d = .zero false) ∧
  (∀ (a d : Nat) (e : Int) (t : ElemType) (r : Rnd), vSqrt t r (.fin true a d e) = toElem t 0 r .nan ∧ vRsqrt t r (.fin true a d e) = toElem t 0 r .nan ∧
    vLog (.fin true a d e) = .nan) ∧
  (∀ (v : Val), ∀ op ∈ [0x20, 0x21, 0x22], vecCompare op .nan v = false ∧ vecCompare op v .nan = false) ∧
  (∀ v : Val, vecCompare 0x23 .nan v = true ∧ vecCompare 0x23 v .nan = true)

/-- Reductions (R181, R184): `GROUP` gives one value a group of 32, `WHOLE` one value; masked positions drop out, and an all-empty sum is +0, `RMAX` −inf or −2^31,
`RMIN` +inf or 2^31 − 1 and `RAMAX` 0; the value of one element alone is that element's, rounded once as `ROUND` says in `RMAX`, `RMIN` and `RAMAX`. -/
def Claims.ReductionsFold : Prop :=
  (∀ (op : Nat) (t : ElemType) (r : Rnd) (ints : Bool) (l : List (Option Val)), (reduceAll op t r ints false l).length = 1 ∧
    (reduceAll op t r ints true l).length = ceilDiv l.length 32) ∧
  (∀ (op n : Nat) (r : Rnd), let bits (op : Nat) (t : ElemType) (ints : Bool) := (reduceAll op t r ints false (List.replicate n none)).map (·.bits)
    (∀ ints t, (op = 0x30 ∨ op = 0x31 ∨ op = 0x34) → bits op t ints = [(toElem t 0 .nearest (.zero false)).bits]) ∧
    bits 0x32 .fp32 false = [0xFF800000] ∧ bits 0x33 .fp32 false = [0x7F800000] ∧ bits 0x32 .int32 true = [0x80000000] ∧ bits 0x33 .int32 true = [0x7FFFFFFF]) ∧
  (∀ (t : ElemType) (r : Rnd) (ints : Bool) (v : Val), reduceAll 0x32 t r ints false [some v] = [toElem t 0 r v] ∧
    reduceAll 0x33 t r ints false [some v] = [toElem t 0 r v] ∧ reduceAll 0x34 t r ints false [some v] = [toElem t 0 r v.abs]) ∧
  (∀ (v : Val), treeFold addR 5 [some v] = some v ∧ ∀ k, k ≤ 31 → treeFold addR 5 (List.replicate k none ++ [some v]) = some v)

/-- What `VECTOR` leaves in its destination, every operand and the destination an integer (R182, R185): the exact result saturated to the destination's
range wherever the mask admits the position, the old element or zero elsewhere; each saturated element counts one. -/
def Claims.IntegerVectorsSaturate : Prop :=
  ∀ (s : State) (tile : Nat) (w : WorkId) (c : Ctx), s.Can tile w c → c.d.kind = 0x06 →
    ∀ r ∈ vectorRows tile w, c.d.f 135 128 = r.1 → (within 0x01 0x09 r.1) = true →
      let v := (c.vecRead s).1
      let td := elemType (c.d.f 140 136)
      v.ints = true → td.isInt = true →
      let z : Val := .zero false
      let res (e : Nat) : Rounded := satInt td (vecExact r.1 (v.a.getD e z) (v.b.getD e z) (decodeElem td (nth v.old e))).toInt
      Runs r.2 s fun t =>
        t.operand tile (c.gran 290 274 306 291 205 204) td.bits v.n (c.d.vShape.shape == 2) =
          (List.range v.n).map (fun e => if v.mask.getD e true then (res e).bits else if c.d.b 153 then 0 else nth v.old e) ∧
        (c.live = true → t.tallied w c.d.seq 0x4040 3 = s.tallied w c.d.seq 0x4040 3 +
          ((List.range v.n).filter fun e => v.mask.getD e true && (res e).sat).length)

/-- Compares write their results as a mask (R183, R185): bit e is the compare of element e, or the old bit or zero where the instance's own mask shuts it out. -/
def Claims.ComparesWriteMasks : Prop :=
  ∀ (s : State) (tile : Nat) (w : WorkId) (c : Ctx), s.Can tile w c → c.d.kind = 0x06 →
    ∀ r ∈ vectorRows tile w, c.d.f 135 128 = r.1 → vectorCompare r.1 = true →
      let v := (c.vecRead s).1
      let dAt := c.gran 290 274 306 291 205 204
      let old := (c.vecRead s).2.maskBits tile dAt v.n
      Runs r.2 s fun t => t.maskBits tile dAt v.n = (List.range v.n).map fun e =>
        if v.mask.getD e true then vecCompare r.1 (v.a.getD e (.zero false)) (v.b.getD e (.zero false)) else if c.d.b 153 then false else old.getD e false

/-- Permutation and packing (R186, R187): an index beyond its pass writes zero bits, sets the sticky lane-range bit and counts, with event 0x4041 in strict
index mode; `VCOMPRESS` writes the number of its set mask bits. -/
def Claims.LanesAndCounts : Prop :=
  ∀ (s : State) (tile : Nat) (w : WorkId) (c : Ctx), s.Can tile w c → c.d.kind = 0x06 → c.live = true →
    let v := (c.vecRead s).1
    (∀ r ∈ [(0x40, Instr.perm tile w), (0x41, Instr.bcast tile w)], c.d.f 135 128 = r.1 →
      let out := c.d.outOfLane v
      Runs r.2 s fun t => t.tallied w c.d.seq 0x4040 2 = s.tallied w c.d.seq 0x4040 2 + out.length ∧
        (out ≠ [] → t.tallied w c.d.seq 0x4040 1 ≠ 0) ∧ (out = [] → t.log = s.log) ∧
        ∀ e rest, out = e :: rest → c.x.strict = true →
          let (i, _, len) := c.d.pick v e
          Raised s t 0x4041 .job w.slot w.step (c.d.seq % 2 ^ 32) (i * 2 ^ 24 + w.mb % 2 ^ 12 * 2 ^ 12 + w.piece % 2 ^ 12) ((len - 1) * 2 ^ 22 + e % 2 ^ 22)) ∧
    (c.d.f 135 128 = 0x42 → v.n < 2 ^ 32 → Runs (.vcompress tile w) s fun t =>
      leNat (t.carrelRead tile (32 * c.gran 257 241 273 258 203 202) 4) = (v.mask.filter (·)).length)

/-- Softmax rows (R212, R213, Table 10-6): a row with an unmasked NaN is NaN at every unmasked position; one with n positions at +inf gives each 1/n and
the others nought; one with nothing finite is all nought and counts as masked. -/
def Claims.SoftmaxRows : Prop :=
  ∀ xs : List (Option Val),
    let nan := some .nan ∈ xs
    let infs := (xs.filter fun x => x == some (.inf false)).length
    (nan → softmaxRow xs = (xs.map (fun x => if x.isSome then Val.nan else Val.zero false), true, false)) ∧
    (¬ nan → 0 < infs → softmaxRow xs = (xs.map (fun x => if x = some (.inf false) then (Val.fin false 1 1 0).div (.ofInt infs) else Val.zero false), false, false)) ∧
    (¬ nan → infs = 0 → (∀ x ∈ xs, x = none ∨ x = some (.inf true)) → softmaxRow xs = (xs.map (fun _ => Val.zero false), false, true)) ∧
    (¬ nan → infs = 0 → (∃ v, some v ∈ xs ∧ v.isFinite = true) → (softmaxRow xs).2 = (false, false) ∧
      ∀ i, i < xs.length → xs.getD i none = none → (softmaxRow xs).1.getD i .nan = .zero false)

/-- Schedule curves (R225): a curve gives each knot's value at that knot, the first knot's before it and the last one's after it. -/
def Claims.CurvesMeetTheirKnots : Prop :=
  ∀ (ks : List (Nat × Nat)), rising (ks.map (·.1)) = true →
    (∀ k ∈ ks, curveAt ks k.1 = k.2) ∧ (∀ k s, ks.head? = some k → s ≤ k.1 → curveAt ks s = k.2) ∧ ∀ k s, ks.getLast? = some k → k.1 ≤ s → curveAt ks s = k.2

/-! ### Slips, annex calls and gathers -/

/-- Slips are issued (R89 to R93, R95, R101, R110, R112): the next segment of the oldest instance that moves rows takes its slip, that of its fenced forerunner
or the lowest free; a row out of table takes one that is `ZEROED`, a row of another position
is asked for there, a scatter into a `COLUMN` table stays here, one delivered before is suppressed, one with no ledger space raises 0x6004 and waits, and a
program that holds all the slips it declares waits, as does a tile with no C0 credit left. -/
def Claims.SlipsAreIssued : Prop :=
  ∀ (s : State) (tile n : Nat) (w : WorkId) (k : Work) (j : Job) (x : StepRec) (i : Inst) (r : SlipReq) (rest : List SlipReq) (p : Program),
    (s.unit tile).work? w = some k → s.job? w.slot = some j → j.step? w.step = some x → j.programs[k.prog]? = some p →
    k.flying.find? (fun i => i.reqs ≠ []) = some i → i.reqs = r :: rest → (s.unit tile).slipFor w i r = some n → s.tileRuns tile j = true →
    let d := p.at i.pos
    let row := r.index.getD 0 % 2 ^ 40
    let credit := ((s.unit tile).slips.filter fun q => q.2.holdsCredit && q.1 != n).length
    let used := ((s.unit tile).slips.filter fun q => q.2.state != .fenced && match (s.unit tile).work? q.2.work with | some v => v.half == k.half | none => false).length
    let isNew (z : Slip) : Prop := z.work = w ∧ z.pos = i.pos ∧ z.regs = i.regs ∧ z.space = d.f 133 132 ∧ z.id = d.f 223 192 ∧ z.row = row ∧ z.seg = r.seg ∧
      z.first = r.first ∧ z.count = r.count ∧ z.landed = 0 ∧ z.scatter = (i.kind == 0x03) ∧
      z.granule = z.carrel + slipGranule d r.row r.first
    let asks (t : State) : Prop := (∀ m, m ≠ n → (t.unit tile).slip? m = (s.unit tile).slip? m) ∧ ∃ v, (t.unit tile).work? w = some v ∧ v.pos = k.pos ∧
      v.flying.map (·.reqs) = k.flying.map fun f => if f.ord = i.ord then rest else f.reqs
    (p.slips ≤ used ∨ slipCredits ≤ credit → exec (.slipIssue tile w) s = .next s) ∧
    (used < p.slips → credit < slipCredits → r.out = true →
      Runs (.slipIssue tile w) s fun t => asks t ∧ t.fabric = s.fabric ∧ ∃ z, (t.unit tile).slip? n = some z ∧ isNew z ∧ z.state = .zeroed) ∧
    (used < p.slips → credit < slipCredits → r.out = false → i.kind = 0x02 → d.f 133 132 = 0 → s.mine r.home = true → (s.served j x 0 (d.f 223 192) row).1 ≠ 5 →
      Runs (.slipIssue tile w) s fun t => asks t ∧ t.fabric = s.fabric ∧ ∃ z, (t.unit tile).slip? n = some z ∧ isNew z ∧ z.state = .issued ∧ z.remote = false ∧
        z.source = (s.served j x 0 (d.f 223 192) row).1) ∧
    (used < p.slips → credit < slipCredits → r.out = false → i.kind = 0x02 → d.f 133 132 = 0 → s.mine r.home = false → s.holderOf r.home = r.home →
      Runs (.slipIssue tile w) s fun t => asks t ∧ (∃ z, (t.unit tile).slip? n = some z ∧ isNew z ∧ z.state = .issued ∧ z.remote = true ∧ z.peer = r.home) ∧
        OnItsWay t r.home .gatherReq
          ({ (j.head w.step (d.f 223 192) row) with mb := w.mb, piece := w.piece, tile := tile, slip := n, segFirst := r.seg, segCount := 1 } : MsgHead).bytes) ∧
    (∀ remote : Bool, (remote = true ↔ d.f 133 132 = 0 ∧ s.mine r.home = false ∧
        ∀ t, j.table? (d.f 223 192) = some t → t.placement ≠ 1) →
      used < p.slips → credit < slipCredits → r.out = false → i.kind = 0x03 →
      let sent := k.delivered.contains (i.seq, i.regs, 1 + 8 * r.row + r.seg)
      let room := s.ledgerRoom x (d.f 133 132) (d.f 223 192) row r.seg r.first r.count remote r.home
      (sent = true → Runs (.slipIssue tile w) s fun t => asks t ∧ ∃ z, (t.unit tile).slip? n = some z ∧ isNew z ∧ z.state = .done) ∧
      (sent = false → k.only = none → room = true → Runs (.slipIssue tile w) s fun t => asks t ∧
        ∃ z, (t.unit tile).slip? n = some z ∧ isNew z ∧ z.state = .issued ∧ z.remote = remote) ∧
      (sent = false → k.only = none → room = false → Runs (.slipIssue tile w) s fun t => t.tileUnits = s.tileUnits ∧
        Raised s t 0x6004 .job w.slot w.step (16 * r.count % 2 ^ 32) (16 * r.count / 2 ^ 32) 0))

/-- An annex row that is not held is called (R97): it joins an open call of its table and edition or opens one, and the step waits on that call; with no room
in the event queue's store for a new call nothing changes. -/
def Claims.AnnexRowsAreCalled : Prop :=
  ∀ (s : State) (slot step tid ed row seg : Nat) (j : Job), s.job? slot = some j →
    (∀ c ∈ j.body.calls, ∀ d ∈ j.body.calls, c.id = d.id → c = d) →
    let r := s.callRow slot step tid ed row seg
    (r.2 = true → ∃ k c, r.1.job? slot = some k ∧ c ∈ k.body.calls ∧ c.table = tid ∧ c.edition = ed ∧ step ∈ c.steps ∧
      ∃ y ∈ c.rows, y.row = row ∧ y.supplied = false ∧ (c.sends = 0 → y.segFirst ≤ seg ∧ seg < y.segFirst + y.segCount)) ∧
    (r.2 = false → r.1 = s ∧ (s.queue j.eventQueue).hasRoom 18 = false) ∧ r.1.tileUnits = s.tileUnits ∧ r.1.tiers = s.tiers

/-- Slips land (R90, R93, R94, R96): each granule moves a slip on and the last makes it `DONE`; a scatter's last adds its addition and is noted as delivered; a
gather waits for the update it must see, for its annex row, which it calls (R97), and, of a peer, for the peer's data; what has landed stays where the row and
columns say. -/
def Claims.SlipsLand : Prop :=
  ∀ (s : State) (tile n : Nat) (p : Slip) (j : Job) (x : StepRec) (k : Work) (q : Program), (s.unit tile).slip? n = some p → s.job? p.work.slot = some j →
    j.step? p.work.step = some x → (s.unit tile).work? p.work = some k → j.programs[k.prog]? = some q →
    carrelWf s.carrel = true →
    let isOpen := p.state = .issued ∨ p.state = .partly
    let d := q.at p.pos
    let last := p.granules ≤ p.landed + 1
    let on : Slip := { p with landed := p.landed + 1, state := if p.granules ≤ p.landed + 1 then .done else .partly }
    (¬ isOpen → exec (.slipLand tile n) s = .next s) ∧
    (p.scatter = false → p.remote = true → exec (.slipLand tile n) s = .next s) ∧
    (isOpen → p.scatter = true → Runs (.slipLand tile n) s fun t => (t.unit tile).slip? n = some on ∧ t.carrel = s.carrel ∧
      ∃ y v, t.step? p.work.slot p.work.step = some y ∧ (t.unit tile).work? p.work = some v ∧
        if last then y.adds = x.adds ++ [s.scatterAdd x tile p.work d p] ∧ v.delivered = k.delivered ++ [(p.seq, p.regs, 1 + 8 * p.at' + p.seg)]
        else y.adds = x.adds ∧ v.delivered = k.delivered) ∧
    (p.scatter = false → p.remote = false →
      (s.updated j p.space p.id p.work.step = false → exec (.slipLand tile n) s = .next s) ∧
      (isOpen → s.updated j p.space p.id p.work.step = true → s.rowVals j x p.work p.space p.id p.row p.first p.count = none →
        exec (.slipLand tile n) s = .next (s.callRow p.work.slot p.work.step p.id ((x.edition? p.id).getD 0) p.row p.seg).1) ∧
      ∀ vs, isOpen → s.updated j p.space p.id p.work.step = true → s.rowVals j x p.work p.space p.id p.row p.first p.count = some vs →
        Runs (.slipLand tile n) s fun t => (t.unit tile).slip? n = some on ∧
          (p.granules = 1 → p.landed = 0 → d.f 171 160 ≤ p.first → vs.length = p.count → ∀ m, m < p.count →
            let b := if d.b 134 then 16 else 32
            leNat (t.carrelRead tile (d.landAt p.carrel p.at' (p.first + m)) (b / 8)) =
              (toElem (if d.b 134 then .bf16 else .fp32) 0 .nearest (vs.getD m (.zero false))).bits % 2 ^ b))

/-- A fenced slip is issued again (R90, R113) where its instance is in flight and has asked for it: from its first granule under its old identity, to the position
that now holds its peer's place; not while that position is fenced, and no other slip is. -/
def Claims.FencedSlipsGoAgain : Prop :=
  ∀ (s : State) (tile n : Nat) (p : Slip) (j : Job), (s.unit tile).slip? n = some p → s.job? p.work.slot = some j →
    let held : Prop := ∃ k, (s.unit tile).work? p.work = some k ∧ k.holds p = true
    (p.state ≠ .fenced ∨ ¬ held → exec (.slipReissue tile n) s = .next s) ∧
    (p.state = .fenced → held → s.tileRuns tile j = true →
      (p.remote = true → s.fabric.fenced.contains (s.holderOf p.peer) = true → exec (.slipReissue tile n) s = .next s) ∧
      (p.remote = false → Runs (.slipReissue tile n) s fun t => (t.unit tile).slip? n = some { p with state := .issued, landed := 0, peer := 0 } ∧
        t.fabric = s.fabric) ∧
      (p.remote = true → p.scatter = false → s.mine p.peer = false → s.holderOf p.peer = p.peer → s.fabric.fenced.contains p.peer = false →
        Runs (.slipReissue tile n) s fun t => (t.unit tile).slip? n = some { p with state := .issued, landed := 0 } ∧
          OnItsWay t p.peer .gatherReq (j.slipHead tile n p).bytes))

/-- Row calls (R97, R98, R103, R291): an open call closes and goes to the job's event queue with its rows counted under the least step that waits on it; the rows not supplied go again, at most eight times,
in place of an earlier send that the host has not read; after the last the waiting steps are stalled with event 0x6002. -/
def Claims.RowCallsAreSent : Prop :=
  ∀ (s : State) (slot call h : Nat) (j : Job) (c : Call), s.job? slot = some j → j.holder = some h → (s.live? h).isSome = true →
    (s.queue j.eventQueue).session = h →
    let q := s.queue j.eventQueue
    let counts (t : State) (k : Job) (sub n : Nat) : Prop := match least (c.steps.filter fun k => (s.step? slot k).isSome) with
      | some step => t.counted slot step 0x6020 sub = s.counted slot step 0x6020 sub + n
      | none => k.num 0x6020 sub = (j.num 0x6020 sub + n) % 2 ^ 64
    let sent (r : Response) : List Response := q.store ++ [{ r with seq := q.rspSeq + 1, session := h, queue := j.eventQueue }]
    (j.body.calls.find? (fun c => c.id == call && c.sends == 0) = some c → Runs (.rowCallClose slot call) s fun t =>
      (t.queue j.eventQueue).store = sent (j.callResponse c 0) ∧ ∃ k, t.job? slot = some k ∧ counts t k 3 c.rows.length ∧
        k.body.calls = j.body.calls.map fun c => if c.id = call then { c with sends := 1 } else c) ∧
    (j.body.calls.find? (fun c => c.id == call && within 1 8 c.sends && c.rows.any fun r => !r.supplied) = some c →
      let earlier (y : Response) : Bool := y.typ == .rowCall && leAt y.payload 0 4 == call && bits (leAt y.payload 0 32) 48 48 == 0
      Runs (.rowCallResend slot call) s fun t =>
        (if q.store.any earlier then (t.queue j.eventQueue).store = q.store.map fun y => if earlier y then { y with payload := (j.callResponse c c.sends).payload } else y
         else (t.queue j.eventQueue).store = sent (j.callResponse c c.sends)) ∧
        ∃ k, t.job? slot = some k ∧ counts t k 4 1 ∧
          k.body.calls = j.body.calls.map fun c => if c.id = call then { c with sends := c.sends + 1 } else c) ∧
    (j.body.calls.find? (fun c => c.id == call && c.sends == 9 && !c.stalled && c.rows.any fun r => !r.supplied) = some c → j.state = .running →
      ∀ y, c.rows.find? (fun r => !r.supplied) = some y → ∀ n, c.steps.min? = some n → Runs (.annexStalled slot call) s fun t =>
        Raised s t 0x6002 .job slot n (y.row / 2 ^ 32 % 2 ^ 8 * 2 ^ 24 + c.table) (y.row % 2 ^ 32) call ∧ ∃ k, t.job? slot = some k ∧
          k.steps = j.steps.map (fun x => if c.steps.contains x.num then { x with stalled := true } else x) ∧
          ∀ e ∈ k.body.calls, e.id = call → e.stalled = true)

/-- Gathers between positions (R92, R95, R96, R157, R319): a request for a readable row of a step accepted here is answered with the segment's exact values; one whose
row, update or step is still to come, or whose stored granules are poisoned, waits. An answer lands in its slip's range and makes the slip `DONE`; one whose slip has moved on has no effect. -/
def Claims.GathersForPeers : Prop :=
  ∀ (s : State) (port now : Nat) (m : Msg) (a : Assoc), s.Hears port m a →
    let h := msgHead m.body
    (∀ (j : Job) (x : StepRec), s.jobOfKey? h.jobKey = some j → s.holderOf m.src = m.src →
      let info := s.spaceInfo j x 0 h.spaceId h.index
      (j.step? h.step = none → j.body.nextStep ≤ h.step → Runs (.gatherReq port m true now) s fun t =>
        t.fabric.requests = s.fabric.requests ++ [(m.src, .gatherReq, m.body)] ∧ t.jobs = s.jobs) ∧
      (j.step? h.step = none → h.step < j.body.nextStep → Runs (.gatherReq port m true now) s fun t => t.fabric.requests = s.fabric.requests ∧ t.jobs = s.jobs) ∧
      (j.step? h.step = some x → ∀ vs, s.rowVals j x (WorkId.none j.slot h.step) 0 h.spaceId h.index 0 info.width = some vs →
        (s.updated j 0 h.spaceId h.step = false → Runs (.gatherReq port m true now) s fun t =>
          t.fabric.requests = s.fabric.requests ++ [(m.src, .gatherReq, m.body)]) ∧
        (∀ g, s.updated j 0 h.spaceId h.step = true →
          (s.segments j info h.index 0 info.width).find? (fun g => g.1 == h.segFirst && s.mine g.2.2.2) = some g →
          let src := (s.served j x 0 h.spaceId h.index).1
          let t' := s.noteDecoded j x (WorkId.none j.slot h.step) 0 h.spaceId h.index g.2.1 g.2.2.1
          let bad := t'.rowPoison j x (WorkId.none j.slot h.step) 0 h.spaceId h.index g.2.1 g.2.2.1
          (src ≠ 1 → bad = true → Runs (.gatherReq port m true now) s fun t => t.fabric.requests = s.fabric.requests ++ [(m.src, .gatherReq, m.body)]) ∧
          (src = 1 ∨ bad = false → Runs (.gatherReq port m true now) s fun t => (∀ k, t.image k = s.image k) ∧ OnItsWay t m.src .gatherData
            (h.bytes ++ toLE 32 (g.2.1 + g.2.2.1 * 2 ^ 32) ++ (((vs.drop g.2.1).take g.2.2.1).map fun v => toLE 4 (round32 v)).flatten))))) ∧
    (∀ (p : Slip) (j : Job) (k : Work), (s.unit h.tile).slip? h.slip = some p → s.job? p.work.slot = some j → (s.unit h.tile).work? p.work = some k →
      let fits := j.key = h.jobKey ∧ p.work.step = h.step ∧ p.id = h.spaceId ∧ p.row = h.index ∧ p.seg = h.segFirst ∧ p.remote = true ∧ p.scatter = false ∧
        (p.state = .issued ∨ p.state = .partly)
      (fits → Runs (.gatherData port m true now) s fun t => (t.unit h.tile).slip? h.slip = some { p with landed := p.granules, state := .done }) ∧
      (¬ fits → Runs (.gatherData port m true now) s fun t => t.tileUnits = s.tileUnits ∧ t.carrel = s.carrel))

/-! ### Ledgers and contributions -/

/-- Additions (R105, R106, R111): one of those accepted is made and leaves the list, into this position's own ledger, where a row first touched is zero, or into
what is staged for another position, with its source type. No other addition, ledger or staged row changes with it. -/
def Claims.AdditionsAreMade : Prop :=
  ∀ (s : State) (slot step index : Nat) (j : Job) (x : StepRec) (a : Addition), s.job? slot = some j → j.step? step = some x → x.adds[index]? = some a →
    a.space < 3 →
    let w := j.gradWindow x a.space a.id
    let rowOf (l : Ledger) : List (Nat × LedgerElem) := ((l.rows.find? fun r => r.row == a.row && r.seg == 0).map (·.elems)).getD []
    (a.owner = none → Runs (.ledgerAdd slot step index) s fun t => ∃ y l, t.step? slot step = some y ∧ y.adds = x.adds.eraseIdx index ∧
      y.ledger? a.space a.id = some l ∧
      let old := (x.ledger? a.space a.id).getD (Ledger.fresh a.space a.id 0)
      (∀ col, aGetD (rowOf l) col LedgerElem.zero =
        aGetD (addPartials a.partials (addRaws w a.type a.raws (rowOf old)).1) col LedgerElem.zero) ∧
      (∀ r ∈ l.rows, r.row ≠ a.row → r ∈ old.rows) ∧ (old.excess = true → l.excess = true) ∧
      ∀ sp id, sp < 3 → (sp, id) ≠ (a.space, a.id) → y.ledger? sp id = x.ledger? sp id) ∧
    (∀ o, a.owner = some o → Runs (.ledgerAdd slot step index) s fun t => ∃ y z, t.step? slot step = some y ∧ y.adds = x.adds.eraseIdx index ∧
      z ∈ y.staged ∧ z.owner = o ∧ z.space = a.space ∧ z.id = a.id ∧ z.row = a.row ∧ z.seg = a.seg ∧
      (x.staged.find? (fun z => z.owner == o && z.space == a.space && z.id == a.id && z.row == a.row && z.seg == a.seg) = none → a.first = true →
        z.count = 1 ∧ z.raws = [(a.bf16, a.raws)] ∧ z.elems = (addRaws w a.type a.raws []).1)) ∧
    (∀ i, x.adds.length ≤ i → exec (.ledgerAdd slot step i) s = .next s)

/-- Contributions of peers (R33, R108, R320): the marker of a step that stands here is held and ends its sender once as many messages have arrived as it counts; a
report is held with its raise; either waits for a step still to come and has no effect for one that is past. -/
def Claims.PeersEndTheirContributions : Prop :=
  ∀ (s : State) (port now : Nat) (m : Msg) (a : Assoc), s.Hears port m a →
    let h := msgHead m.body
    ∀ (j : Job), s.jobOfKey? h.jobKey = some j → s.job? j.slot = some j →
      (j.step? h.step = none →
        ∀ r ∈ [(Instr.endContrib port m true now, FlitKind.endContrib), (.rangeReport port m true now, .rangeReport)], Runs r.1 s fun t => t.jobs = s.jobs ∧
          t.fabric.requests = s.fabric.requests ++ (if j.body.nextStep ≤ h.step then [(m.src, r.2, m.body)] else [])) ∧
      (∀ x, j.step? h.step = some x → aGet x.promised m.src = none → Runs (.endContrib port m true now) s fun t => ∃ y, t.step? j.slot h.step = some y ∧
        aGet y.promised m.src = some h.index ∧ y.ledgers = x.ledgers ∧
        y.ended = if h.index ≤ aGetD x.counts m.src 0 ∧ m.src ∉ x.ended then x.ended ++ [m.src] else x.ended) ∧
      (∀ x l, j.step? h.step = some x → x.ledger? (j.gradOf h.spaceId).1 (j.gradOf h.spaceId).2 = some l → m.src ∉ l.reported →
        Runs (.rangeReport port m true now) s fun t => ∃ y, t.step? j.slot h.step = some y ∧
          y.ledger? (j.gradOf h.spaceId).1 (j.gradOf h.spaceId).2 = some { l with reported := l.reported ++ [m.src], raising := l.raising || bit h.index 0 })

/-- The range check of a gradient this position alone owns and contributes to (R108, R232): with every total in the range of R104 the gradient passes; with one
outside, the raise is logged, unless a log that is replayed holds the record, counted and reported as event 0x6003, and the ledger starts again, empty, at the next
window, with no addition to it pending. -/
def Claims.RangesAreChecked : Prop :=
  ∀ (s : State) (slot step space id o : Nat) (j : Job) (x : StepRec) (u : Unit') (l : Ledger), s.job? slot = some j → j.step? step = some x →
    s.closeContributions slot step = s → s.contributionsIn j x = true → (∀ y ∈ j.steps, y.num < step → y.watched = true) →
    j.unitOfGrad x space id = some u → j.still x u = false → j.gradOwners x space id = [o] → s.mine o = true → s.others j = [] →
    x.ledger? space id = some l → l.inRange = false → l.reported = [] → l.raising = false → s.fabric.requests = [] →
    (l.out = false → Runs (.ledgerRangeCheck slot step space id) s fun t => t.tileUnits = s.tileUnits ∧ t.log = s.log ∧
      ∃ y m, t.step? slot step = some y ∧ y.ledger? space id = some m ∧ m.inRange = true ∧ m.rows = l.rows ∧ m.k = l.k) ∧
    (l.out = true → Runs (.ledgerRangeCheck slot step space id) s fun t => Raised s t 0x6003 .job slot step (j.raiseTensor space id) (l.k + 1) 0 ∧
      t.counted slot step 0x6020 5 = s.counted slot step 0x6020 5 + 1 ∧
      ∃ k y, t.job? slot = some k ∧ k.step? step = some y ∧ y.ledger? space id = some (Ledger.fresh space id (l.k + 1)) ∧
        Logged j k 5 0 step x.accept (toLE 4 (j.raiseTensor space id) ++ toLE 4 (l.k + 1)) ∧
        (∀ b ∈ y.adds, (b.space, b.id) ≠ (space, id)) ∧ y.ownEnd = false)

/-! ### The update of a step -/

/-- The update of a layer starts (R219, R232, R233) once every contribution is in and in range, earlier steps have released it and its annex rows are held; a unit
that is frozen, named by no descriptor, or not finite with `SKIP` is set aside, and a gradient not finite is reported as event 0x5401. It does not start before. -/
def Claims.UpdatesStart : Prop :=
  ∀ (s : State) (slot step layer : Nat) (j : Job) (x : StepRec) (u : Unit'), s.job? slot = some j → j.step? step = some x →
    s.closeContributions slot step = s → s.layerUnits j x layer = [u] →
    (s.contributionsIn j x = false → exec (.updateApply slot step layer) s = .next s) ∧
    ((∃ l ∈ x.updates, l.layer = layer) → exec (.updateApply slot step layer) s = .next s) ∧
    (s.contributionsIn j x = true → (∀ l ∈ x.updates, l.layer ≠ layer) → (∀ y ∈ j.steps, step ≤ y.num) → j.pointsPast x = true → s.dispatchOpen j = true →
      (u.kind = 1 ∨ j.scaleReady u.id step = true) → s.callTouched slot step [u] = (s, true) →
      (j.still x u = true ∨ ∀ g, j.unitGrad x u = some g → ∃ l, x.ledger? g.1 g.2 = some l ∧ l.inRange = true) →
      let g := x.group (j.unitGroup u)
      let bad := s.unitBad j x u
      let setAside := j.still x u = true ∨ (u.kind = 0 ∧ bad = true ∧ g.skip = true)
      Runs (.updateApply slot step layer) s fun t => (∃ y n, t.step? slot step = some y ∧ y.updates = x.updates ++ [n] ∧ n.layer = layer ∧ n.started = true ∧
          n.released = false ∧ n.done = [] ∧ (setAside → n.skip = [(u.kind, u.id)]) ∧ (¬ setAside → n.skip = [])) ∧
        (j.still x u = false → bad = true → Raised s t 0x5401 .job slot step u.id u.kind (if g.skip then 1 else 0) ∧
          t.counted slot step 0x5400 4 = s.counted slot step 0x5400 4 + 1) ∧
        (j.still x u = true ∨ bad = false → t.log = s.log))

/-- An `UPDATE` takes its tile's part (R234): the row tiles i with i mod n its rank among the n tiles that run it, and no other row of the parameter; its
ranks are noted as done, and no part is updated twice. -/
def Claims.UpdatesTakeTheirPart : Prop :=
  ∀ (s : State) (tile : Nat) (w : WorkId) (c : Ctx) (p : Param) (l : LayerUpdate), s.Can tile w c → c.d.kind = 0x0A → c.updateReady s = true → c.updateRoom s = true →
    (c.updateReads s).any s.tilePoisoned = false → c.updateIdle s = false → c.d.unit.kind = 0 → c.job.param? c.d.unit.id = some p →
    c.x.updates.find? (fun l => l.layer == c.job.unitLayer c.d.unit) = some l →
    let n := (c.job.updateTiles c.x c.d.unit).length
    let ranks := (s.ranksFor (c.job.updateTiles c.x c.d.unit) tile).filter fun r => !l.done.contains (0, c.d.unit.id, r)
    Runs (.update tile w) s fun t => ∃ k q y m, t.job? w.slot = some k ∧ k.param? c.d.unit.id = some q ∧ k.step? w.step = some y ∧
      q.rec' = p.rec' ∧ y.updates.find? (fun l => l.layer == c.job.unitLayer c.d.unit) = some m ∧ m.done = l.done ++ ranks.map (fun r => (0, c.d.unit.id, r)) ∧
      (∀ i part, i < pRecRows p.rec' → ranks.contains (i / 32 % n) = false → part ≤ 2 →
        rowOf (q.part part) (pRecCols p.rec') i = rowOf (p.part part) (pRecCols p.rec') i) ∧
      (ranks = [] → q = p)

/-- A layer is released (R219, R326) once every part of every unit is done and no `UPDATE` is in flight: its results can be read and its ledgers are freed. With a
part still to come nothing happens. -/
def Claims.LayersAreReleased : Prop :=
  ∀ (s : State) (slot step layer : Nat) (j : Job) (x : StepRec) (l : LayerUpdate), s.job? slot = some j → j.step? step = some x →
    x.updates.find? (fun l => l.layer == layer && !l.released) = some l →
    let us := s.layerUnits j x layer
    let flying := ∃ u ∈ s.tileUnits, ∃ w ∈ u.works, w.id.slot = slot ∧ w.id.step = step ∧ ∃ i ∈ w.flying, i.kind = 0x0A
    ((flying ∨ ∃ u ∈ us, j.unitDone x l u = false) → exec (.layerRelease slot step layer) s = .next s) ∧
    (¬ flying → (∀ u ∈ us, j.unitDone x l u = true) → s.fabric.requests = [] → Runs (.layerRelease slot step layer) s fun t =>
      ∃ y, t.step? slot step = some y ∧ y.updates.map (·.layer) = x.updates.map (·.layer) ∧ (∀ m ∈ y.updates, m.layer = layer → m.released = true) ∧
        (∀ g ∈ us.filterMap (j.unitGrad x), ∀ m, y.ledger? g.1 g.2 = some m → m.rows = []) ∧
        ∀ g, g ∉ us.filterMap (j.unitGrad x) → y.ledger? g.1 g.2 = x.ledger? g.1 g.2)

/-! ### Checks, records and the end of a step -/

/-- Layer checks (R51, R206 to R208): once every piece has written the layer, a trip with a rung left and repeats enabled goes to the next rung with event 0x5221 and a log
record, and its producers run again, or wait for a place on their tile; otherwise the layer passes, and one released with non-finite values is reported as event 0x5222 and marks the step, counted once. A layer not yet written, or passed
already, is not checked. -/
def Claims.LayersAreChecked : Prop :=
  ∀ (s : State) (slot step layer mb r : Nat) (j : Job) (x : StepRec), s.job? slot = some j → j.step? step = some x → j.layer? layer = some r →
    let rung := x.rung j layer mb
    (s.layerWritten j x r mb = false ∨ x.layerPassed layer mb = true ∨ x.seeds.length ≤ mb → exec (.layerCheck slot step layer mb) s = .next s) ∧
    (mb < x.seeds.length → x.layerPassed layer mb = false → s.layerWritten j x r mb = true →
      let again := j.layerTrips x r mb = true ∧ rung < (j.rungs layer).length ∧ x.num' 0x5220 1 ≠ 0
      (again → s.fabric.requests = [] → Runs (.layerCheck slot step layer mb) s fun t => Raised s t 0x5221 .job slot step mb layer (rung + 1) ∧
        t.counted slot step 0x5220 3 = s.counted slot step 0x5220 3 + 1 ∧
        ∃ k y, t.job? slot = some k ∧ Logged j k 6 mb step x.accept (toLE 4 mb ++ toLE 4 layer ++ toLE 4 (rung + 1)) ∧
          k.step? step = some y ∧ y.rung k layer mb = rung + 1 ∧ y.layerPassed layer mb = false ∧
          (∀ q ∈ x.dispatched, q.1.slot = slot ∧ q.1.step = step) → (x.dispatched.map (·.1)).Nodup →
          ∀ p ∈ x.worksOf (bits r 19 16) (bits r 23 20) mb, (s.unit p.2).lost = false → p.2 < s.tileUnits.length →
            p.1 ∈ y.completed ∨ (∃ a ∈ y.again, a.id = p.1 ∧ a.tile = p.2) ∨ ∃ v, (t.unit p.2).work? p.1 = some v ∧ v.rerun = true ∧ v.flying = []) ∧
      (¬ again →
        let bad := j.layerNonfinite x r mb
        Runs (.layerCheck slot step layer mb) s fun t => ∃ y, t.step? slot step = some y ∧ y.layerPassed layer mb = true ∧
          (x.nonfinite = true ∨ bad = true ↔ y.nonfinite = true) ∧
          t.counted slot step 0x5220 4 = s.counted slot step 0x5220 4 + (if bad = true ∧ x.nonfinite = false then 1 else 0) ∧
          (x.reductions = [] → (∀ q ∈ x.dispatched, s.stageOf j q.1.role q.1.group = none) →
            (bad = true → Raised s t 0x5222 .job slot step mb layer rung) ∧ (bad = false → t.log = s.log))))

/-- Scale exponents (R38, R201, R202, R211): a step's amax joins the tensor's history, cut to its length, and the next exponent is the least e with the history's
largest entry within F × 2^e, or what a log that is replayed says of it; the first amax fills an empty history and is reported as event 0x5102. -/
def Claims.ScalesFollowTheAmax : Prop :=
  ∀ (s : State) (slot step tensor r : Nat) (j : Job) (x : StepRec), s.job? slot = some j → j.step? step = some x → j.tensor? tensor = some r →
    s.allWritten j x = true → tensor ∉ x.scaled → (∀ y ∈ j.steps, y.num < step → tensor ∈ y.scaled) →
    let a := x.amax tensor
    let h := match j.step? (step + 1) with | some y => y.num' 0x5110 1 | none => j.num 0x5110 1
    let e := j.exp tensor step
    let old := (j.watchOf tensor).history
    let wrote := ∃ p ∈ x.parts, p.tensor = tensor
    let fixed (e1 : Int) : Int := (((j.logged 7 step).find? fun z => leAt z.body 0 4 == tensor).map fun z => signed 32 (leAt z.body 4 4)).getD e1
    let ends (t : State) (hist : List Val) (e1 : Int) : Prop := ∃ k y v, t.job? slot = some k ∧ k.step? step = some y ∧ tensor ∈ y.scaled ∧
      k.watch? tensor = some v ∧ v.history = hist ∧ (step + 1, e1) ∈ v.exps ∧ v.zeroRun = (j.watchOf tensor).zeroRun
    (old ≠ [] → 0 < h →
      let hist := (old ++ [a]).drop ((old ++ [a]).length - h)
      let e1 := fixed (exponentOf hist h (ElemType.top (tRecType r)) e)
      Runs (.scaleUpdate slot step tensor) s fun t => ends t hist e1 ∧ t.log = s.log ∧ ∃ k, t.job? slot = some k ∧
        (e1 ≠ e → Logged j k 7 0 step x.accept (toLE 4 tensor ++ toLE 4 (unsigned 32 e1) ++ toLE 4 0)) ∧ (e1 = e → k.log = j.log)) ∧
    (old = [] → wrote → 0 < h →
      let e1 := fixed (exponentOf (List.replicate h a) h (ElemType.top (tRecType r)) e)
      Runs (.scaleUpdate slot step tensor) s fun t => ends t (List.replicate h a) e1 ∧ Raised s t 0x5102 .job slot step tensor (unsigned 32 e1) 0) ∧
    (old = [] → ¬ wrote → Runs (.scaleUpdate slot step tensor) s fun t => t.log = s.log ∧ ∃ k y, t.job? slot = some k ∧ k.step? step = some y ∧
      tensor ∈ y.scaled ∧ k.watch? tensor = j.watch? tensor)

/-- The least exponent (R201): every value a history's largest entry can take up to F × 2^127 is within F × 2^e for the exponent chosen, and for none lower. -/
def Claims.ExponentsAreLeast : Prop :=
  ∀ (a : Val) (f : Nat), a.isFinite = true → a.le (.fin false f 1 127) = true →
    -127 ≤ leastExp a f ∧ leastExp a f ≤ 127 ∧ a.le (.fin false f 1 (leastExp a f)) = true ∧
      ∀ e : Int, -127 ≤ e → e < leastExp a f → a.le (.fin false f 1 e) = false

/-- The stuck-zero watch (R38, R205, R209, R210), here of a job with one recorded tensor: the run rises after a step all of whose positions were zero, returns to 0 after any other
with positions, and stays otherwise, and the step's health record shows it; when it comes to the threshold it is reported as event 0x5201 and, under `REPORT`, nothing else is done but the log's record;
`RESCALE` lowers the next exponent by 4 as long as the run is not below the threshold. In a step that is replayed the log says whether there is an action. -/
def Claims.ZerosAreWatched : Prop :=
  ∀ (s : State) (slot step r : Nat) (j : Job) (x : StepRec), s.job? slot = some j → j.step? step = some x → j.tensors = [r] → x.watched = false →
    s.allWritten j x = true → tRecTensor r ∈ x.scaled → (∀ y ∈ j.steps, y.num < step → y.watched = true) →
    let t' := tRecTensor r
    let v := j.watchOf t'
    let ps := x.parts.filter fun p => p.tensor == t'
    let n := sum (ps.map (·.elements))
    let run := if n = 0 then v.zeroRun else if sum (ps.map (·.zeros)) = n then min 65535 (v.zeroRun + 1) else 0
    let limit := x.num' 0x5210 1
    let acts : Prop := if j.replays step = true then ∃ q ∈ j.logged 8 step, leAt q.body 0 4 = t' else tRecStuck r = true ∧ limit ≤ run
    let reached := run = limit ∧ run ≠ v.zeroRun
    Runs (.stuckZeroWatch slot step) s fun t => (∃ k y u, t.job? slot = some k ∧ k.step? step = some y ∧ y.watched = true ∧ k.watch? t' = some u ∧ u.zeroRun = run ∧
        aGet y.runs t' = some run ∧
        (acts → x.num' 0x5210 2 = 1 → (v.limited && run != 0) = false →
          (step + 1, max (-127) (j.exp t' step - 4)) ∈ u.exps ∧ (u.limited = true ↔ j.exp t' step - 4 < -127) ∧ t' ∈ y.rescaled) ∧
        (¬ acts ∨ x.num' 0x5210 2 = 0 → u.exps = v.exps ∧ u.history = v.history ∧ y.rescaled = x.rescaled ∧ y.frozen = x.frozen) ∧
        (acts → reached → x.num' 0x5210 2 = 0 → Logged j k 8 0 step x.accept (toLE 4 t' ++ toLE 4 0 ++ toLE 4 0))) ∧
      (acts → reached → (x.num' 0x5210 2 = 0 ∨ (x.num' 0x5210 2 = 1 ∧ -127 ≤ j.exp t' step - 4)) →
        Raised s t 0x5201 .job slot step t' (x.num' 0x5210 2) 0) ∧
      (¬ acts ∨ (¬ reached ∧ x.num' 0x5210 2 ≠ 1) → t.log = s.log)

/-- Refresh (R127 to R131) of a job without tables: it runs once, after the step's update and only where it is due, puts the shelf's written capacity in force, clears the shelf and
its set, and a page's class follows its hottest row's `TOUCH` within the table's bounds. -/
def Claims.RefreshesRun : Prop :=
  (∀ (s : State) (slot step : Nat) (j : Job) (x : StepRec), s.job? slot = some j → j.step? step = some x →
    (x.refreshDue = false ∨ x.refreshed = true ∨ s.allReleased j x = false → exec (.refresh slot step) s = .next s) ∧
    (x.refreshDue = true → x.refreshed = false → s.allReleased j x = true → x.updates.length = (s.ownedLayers j x).length → s.contributionsIn j x = true →
      (∀ y ∈ j.steps, y.num < step → y.refreshDue = true → y.refreshed = true) → j.body.tables = [] → j.body.shelf = [] → j.body.shelfSet = [] →
      Runs (.refresh slot step) s fun t => t.log = s.log ∧ ∃ k, t.job? slot = some k ∧ k.step? step = some { x with refreshed := true } ∧
        k.shelfCap = j.num 0x6100 1 ∧ k.body.shelf = [] ∧ k.body.suggestions = [] ∧ k.log = j.log)) ∧
  (∀ (t : Table) (m n : Nat), t.narrowest ≤ 3 → t.widest ≤ t.narrowest → t.hot8 ≤ t.hot16 → t.hot16 ≤ t.hot32 →
    t.widest ≤ t.classFor m ∧ t.classFor m ≤ t.narrowest ∧ (m ≤ n → t.classFor n ≤ t.classFor m) ∧
      (t.widest = 0 → t.hot32 ≤ m → t.classFor m = 0) ∧ (t.narrowest = 3 → m < t.hot8 → t.classFor m = max t.widest 3))

/-- The end of a step (R17, R32, R38, R100, R285): this position's contributions to it are closed where they were not, and a step closed before stays as it is; once everything of the
oldest step is done its end is logged, with the annex rows its update changed returned, and once that record has committed the step leaves the job, its result and
health records stand, its tensors' tiles are freed and its signal phase is clear; before, nothing more happens. -/
def Claims.StepsComplete : Prop :=
  ∀ (s u : State) (slot step : Nat) (j : Job) (x : StepRec), s.closeContributions slot step = u → u.job? slot = some j → j.step? step = some x →
    (∀ k y, s.job? slot = some k → k.step? step = some y → y.ownEnd = true → u = s) ∧
    (u.stepDone j x = false → exec (.stepComplete slot step) s = .next u) ∧
    (u.stepDone j x = true → x.recorded = false → Runs (.stepComplete slot step) s fun t => ∃ k, t.job? slot = some k ∧
      Logged j k 0x0B 0 step x.accept [] ∧ k.step? step = some { x with recorded := true } ∧
      ((∀ h ∈ j.body.held, h.changed = false) → k.body = j.body)) ∧
    (u.stepDone j x = true → x.recorded = true → (∃ z ∈ j.log, z.kind = 0x0B ∧ z.step = step ∧ z.committed = false) → exec (.stepComplete slot step) s = .next u) ∧
    (u.stepDone j x = true → x.recorded = true → (∀ z ∈ j.log, z.kind = 0x0B → z.step = step → z.committed = true) → j.state = .running → u.fabric.requests = [] →
      j.deferred = [] → j.replay = [] → Runs (.stepComplete slot step) s fun t => ∃ k, t.job? slot = some k ∧ k.step? step = none ∧
        k.steps.length + (j.steps.filter fun y => y.num == step).length = j.steps.length ∧ k.body.lastDone = some step ∧
        k.body.results.map (·.step) = j.body.results.map (·.step) ++ [step] ∧ k.body.health.map (·.1) = j.tensors.map tRecTensor ∧
        (∀ c ∈ k.body.counters, c.1.1 ≠ step) ∧ (∀ d ∈ k.decisions, d.step ≠ step) ∧
        ∀ tile, tile < t.tileUnits.length → roleA (t.unit tile).bound ≠ 0 → roleSlot (t.unit tile).bound = slot → ∀ b ∈ (t.unit tile).board, b.1.2.1 ≠ step % 4)

/-! ### Tiles that fail -/

/-- Retirement (R62, R63, R65, R90, R354): a tile that fails its check, whose sequencer fails or whose errors of the hour pass the limit is quarantined with its slips fenced; the spare then
stands in for it under the same number with event 0x4001, and its abandoned work items start again, their slips fenced until they are asked for anew. With no spare left the tile is lost with
event 0x4002; the job runs on where other tiles hold its roles, groups and programs, and the module announces its failure where none does. A passed check only says that
what the tile has done is to be trusted. -/
def Claims.TilesRetire : Prop :=
  (∀ (s : State) (tile reason errors : Nat), tile < 256 → s.tileUnits.length = 256 → (s.unit tile).lost = false → (s.unit tile).retiring = none →
    (reason = 0 → errors ≤ s.num 0x4100 1 → exec (.tileRetire tile reason errors) s = .next s) ∧
    (reason ≤ 2 → (reason = 0 → s.num 0x4100 1 < errors) →
      (∀ sp rest, s.spares.getD (tile / 64) [] = sp :: rest → Runs (.tileRetire tile reason errors) s fun t => (t.unit tile).retiring = some (reason, sp) ∧
        (t.unit tile).works = (s.unit tile).works ∧ t.spares = s.spares ∧
        (∀ n z, (s.unit tile).slip? n = some z → (t.unit tile).slip? n =
          some (if z.state = .issued ∨ z.state = .partly then { z with state := .fenced } else z)) ∧ ∀ r, r ≠ tile → t.unit r = s.unit r) ∧
      (s.spares.getD (tile / 64) [] = [] → Runs (.tileRetire tile reason errors) s fun t => (t.unit tile).lost = true ∧
        let alone := (heldHalves (s.roleWord tile)).any fun h => (s.heirOf (s.jobRoles (roleSlot (s.roleWord tile))) tile h).isNone
        (heldHalves (s.roleWord tile) = [] ∨ alone = true → (t.unit tile).works = [] ∧ (t.unit tile).slips = [] ∧ (t.unit tile).board = [] ∧
          Raised s t 0x4002 .tile tile 0 reason (s.unit tile).phys 0) ∧
        (alone = true → t.bring.announcedFailure = true) ∧ (alone = false → t.bring = s.bring))) ∧
    ((s.unit tile).works = [] → Runs (.selfCheck tile true) s fun t => (t.unit tile).unchecked = [] ∧ (t.unit tile).retiring = none ∧ t.dict = s.dict) ∧
    ((s.unit tile).works = [] → ∀ sp rest, s.spares.getD (tile / 64) [] = sp :: rest → Runs (.selfCheck tile false) s fun t =>
      (t.unit tile).retiring = some (1, sp) ∧ Added s t 0x7020 2 1) ∧
    ((s.unit tile).flying ≠ [] → ∀ ok, exec (.selfCheck tile ok) s = .next s)) ∧
  (∀ (s : State) (tile reason sp : Nat), tile < 256 → s.tileUnits.length = 256 → s.spares.length = 4 → (s.unit tile).retiring = some (reason, sp) →
    (reason = 1 → (s.unit tile).unchecked = [] ∧ (s.unit tile).works = []) →
    (∀ k ∈ (s.unit tile).works, ∃ j x, s.job? k.id.slot = some j ∧ j.step? k.id.step = some x) →
    Runs (.spareStart tile) s fun t => (t.unit tile).phys = sp ∧ (t.unit tile).retiring = none ∧ (t.unit tile).queue = [] ∧ sp ∉ t.spares.getD (tile / 64) [] ∧
      (∀ p ∈ (t.unit tile).slips, (∃ k ∈ (s.unit tile).works, k.id = p.2.work) →
        ∃ z, (p.1, z) ∈ (s.unit tile).slips ∧ z.holdsCredit = true ∧ p.2 = { z with state := .fenced }) ∧ Raised s t 0x4001 .tile tile 0 reason (s.unit tile).phys sp ∧
      ∀ v ∈ (t.unit tile).works, v.rerun = true ∧ v.flying = [] ∧ ∃ k ∈ (s.unit tile).works, k.id = v.id ∧ v.delivered = k.delivered ∧ v.only = k.only) ∧
  (∀ (s : State) (tile : Nat), (s.unit tile).retiring = none → exec (.spareStart tile) s = .next s)

/-- Poison (R347, Table 18-2): a granule that is not poisoned is nothing; poison consumed is counted and reported as event 0x7002, discards the ledger it stood in, fences the job where it
was state, and quarantines the tile where it was a sequencer's. -/
def Claims.PoisonIsConsumed : Prop :=
  ∀ (s : State) (tile : Nat) (w : WorkId) (space id loc : Nat) (j : Job), s.job? w.slot = some j →
    (∀ row, s.carrelPoison.contains (tile * 2 ^ 17 + loc) = false → exec (.poisonConsumed row tile w true space id loc) s = .next s) ∧
    (∀ row, row ≠ 1 → row ≠ 3 → s.poisonedAt loc = none → exec (.poisonConsumed row tile w false space id loc) s = .next s) ∧
    (∀ (x : StepRec) (l : Ledger), j.step? w.step = some x → x.ledger? space id = some l → s.fabric.requests = [] →
      Runs (.poisonConsumed 1 tile w false space id loc) s fun t => Added s t 0x7000 4 1 ∧ Raised s t 0x7002 .job w.slot w.step 1 id (loc % 2 ^ 32) ∧
        ∃ y, t.step? w.slot w.step = some y ∧ y.ledger? space id = some (Ledger.fresh space id l.k)) ∧
    ((s.poisonedAt loc).isSome = true → Runs (.poisonConsumed 2 tile w false space id loc) s fun t => Added s t 0x7000 4 1 ∧
      Raised s t 0x7002 .job w.slot w.step 2 id (loc % 2 ^ 32) ∧ ∃ k, t.job? w.slot = some k ∧ k = { j with fenced := true }) ∧
    (∀ sp rest, s.spares.getD (tile / 64) [] = sp :: rest → (s.unit tile).lost = false → (s.unit tile).retiring = none → tile < s.tileUnits.length →
      Runs (.poisonConsumed 3 tile w false space id loc) s fun t => Added s t 0x7000 4 1 ∧ Raised s t 0x7002 .job w.slot w.step 3 id tile ∧
        (t.unit tile).retiring = some (2, sp))

/-- Rebalance (R245): only after a step that its interval names and with work to weigh; the targets share all the tiles out, none below a branch's fewest; it makes at most the moves allowed,
reported as event 0x4202, and moves no step, program or work item. -/
def Claims.BranchesRebalance : Prop :=
  (∀ (s : State) (slot vstage : Nat) (work : List (Nat × Nat)) (j : Job), s.job? slot = some j →
    (j.num 0x4210 1 = 0 ∨ j.body.lastDone = none ∨ (∃ n, j.body.lastDone = some n ∧ (n + 1) % j.num 0x4210 1 ≠ 0) ∨ (∀ p ∈ work, p.2 = 0) ∨ j.branches = [] ∨
        j.worthMoving (s.branchAims slot vstage j work) = false →
      exec (.branchRebalance slot vstage work) s = .next s) ∧
    Runs (.branchRebalance slot vstage work) s fun t => t = s ∨ ∃ n m k, j.body.lastDone = some n ∧ 1 ≤ m ∧ m ≤ j.num 0x4210 2 ∧
      Raised s t 0x4202 .job slot n vstage m 0 ∧ (∀ r, (t.unit r).works = (s.unit r).works) ∧ t.job? slot = some k ∧ k.steps.map (·.num) = j.steps.map (·.num) ∧
      k.programs = j.programs ∧ k.body = j.body) ∧
  (∀ (n fuel : Nat) (l : List BranchAt), (∀ x ∈ l, x.least ≤ x.tgt) → sum (l.map (·.least)) ≤ n → sum (l.map (·.tgt)) ≤ n + fuel →
    (l.map (·.b)).Nodup → sum ((takeBack n fuel l).map (·.tgt)) ≤ n ∧ ∀ x ∈ takeBack n fuel l, x.least ≤ x.tgt) ∧
  (∀ (k : Nat) (l : List BranchAt), (l.map (·.b)).Nodup → k ≤ l.length → sum ((handOut k [] l).map (·.tgt)) = sum (l.map (·.tgt)) + k)

/-- A rebalance that is due moves tiles (R245): where the targets are worth it, the highest tile of the branch furthest above its target takes the entry of the one furthest below, its
role map entry written and bound at once by the accepted steps that have begun none of the stage's work, the others keeping theirs; event 0x4202 says how many have moved. -/
def Claims.TilesMoveBetweenBranches : Prop :=
  ∀ (s : State) (slot vstage : Nat) (work : List (Nat × Nat)) (j : Job) (step : Nat) (a b : BranchAt) (tile r : Nat), s.job? slot = some j →
    j.body.lastDone = some step → j.num 0x4210 1 ≠ 0 → (step + 1) % j.num 0x4210 1 = 0 →
    let l := s.branchAims slot vstage j work
    j.worthMoving l = true → furthest l (fun x => x.now - x.tgt) = some a → furthest l (fun x => x.tgt - x.now) = some b →
    (s.branchTiles slot a.b).getLast? = some tile → branchRec? j b.b = some r → s.tileUnits.length = 256 → 1 ≤ j.num 0x4210 2 →
    let word := bits (s.roleWord tile) 7 0 + bits r 19 16 * 2 ^ 8 + bits r 23 20 * 2 ^ 12 + b.b * 2 ^ 16 + b.b * 2 ^ 20 + s.roleWord tile / 2 ^ 24 * 2 ^ 24
    Runs (.branchRebalance slot vstage work) s fun t =>
      (∃ m, 1 ≤ m ∧ m ≤ j.num 0x4210 2 ∧ Raised s t 0x4202 .job slot step vstage m 0) ∧
      (j.num 0x4210 2 = 1 → t.roleWord tile = word ∧ (∀ u, u ≠ tile → t.roleWord u = s.roleWord u) ∧
        ∃ k, t.job? slot = some k ∧ k.steps.length = j.steps.length ∧ ∀ (i : Nat) (x y : StepRec), j.steps[i]? = some x → k.steps[i]? = some y →
          (j.stageBegun x vstage = true → y = x) ∧
          (j.stageBegun x vstage = false → x.roleWord tile ≠ 0 → y.roleWord tile = word ∧ ∀ u, u ≠ tile → y.roleWord u = x.roleWord u))

/-! ### The statements of several clauses -/

/-- The block runs the command at the front of its queue on the state with the queue's rest, for every command and state. With no command waiting it idles: that clause is the model's choice (log entry 1). -/
def Obligations.StepRunsTheFrontCommand : Prop :=
  Claims.FrontCommandRuns ∧ Claims.EmptyQueueIdles

/-- The two stores the engines work on read back what was written and nothing else moves: the carrels byte by byte, and the stored tiles tile by tile. Readings and choices of the model in it: log entries 11, 12, 128, 129. -/
def Obligations.StoresReadBack : Prop :=
  Claims.CarrelReadsWhatWasWritten ∧ Claims.TilesReadWhatWasWritten

/-- The queues of the host port (packetSlotWrite, doorbell, ringEnable, ringHead, queueRegisterWrite, responseWrite, ringFull): packet slots and their doorbells, ring registers, and the writing of responses to the ring. Readings and choices of the model in it: log entries 28, 154. -/
def Obligations.QueuesAndRings : Prop :=
  Claims.SlotsAndDoorbells ∧ Claims.RingRegisters ∧ Claims.ResponsesReachTheRing

/-- Packets (packetTake, chainGapTimeout, doorbell): a packet is taken in doorbell order and a good command stands in flight, a chain whose next packet does not come ends with `TIMEOUT`, a `STEP_SUBMIT` beyond 16 steps gets `NO_SPACE`, and before the module is ready a doorbell is only counted. Readings and choices of the model in it: log entries 2, 26, 27, 29, 120. -/
def Obligations.PacketsAreTaken : Prop :=
  Claims.PacketTakenAndChecked ∧ Claims.ChainGapEndsTheChain ∧ Claims.SixteenStepsAtMost ∧ Claims.NoDoorbellBeforeReady

/-- Sessions (keyExchange, encapsulatedExchange, finish, spdmKeyUpdate, endSession, sessionHeartbeatExpired): how they form, renew their keys and end. Readings and choices of the model in it: log entries 15, 17, 45. -/
def Obligations.SessionsFormAndEnd : Prop :=
  Claims.SessionsForm ∧ Claims.SpdmKeyUpdateRenewsKeys ∧ Claims.SessionsEnd

/-- Jobs (jobOpen, jobResume, jobClose, orphanJobHoldTime): opening, resuming and closing. Readings and choices of the model in it: log entries 2, 27, 28, 120. -/
def Obligations.JobsOpenAndClose : Prop :=
  Claims.JobsOpen ∧ Claims.JobsResume ∧ Claims.JobsClose

/-- Tables (tableCreate, shelfReplace, shelfAdd, shelfRemove, tableLoad, tableLoadAnnex, editionPublish, discard): creation, shelf sets, loads and editions. Readings and choices of the model in it: log entries 27, 61, 62, 130, 143. -/
def Obligations.TablesLoadAndPublish : Prop :=
  Claims.TablesAndShelfSets ∧ Claims.TableLoads ∧ Claims.PublishAndDiscard

/-- Catalogues, feature tensors and parameters (graphLoad, featureLoad, paramRead, paramWrite). Readings and choices of the model in it: log entries 27, 61, 131, 143. -/
def Obligations.LoadsAndParameters : Prop :=
  Claims.CataloguesAndFeatures ∧ Claims.ParametersReadAndWritten

/-- Steps over the host port (stepSubmit, rowSupply, rowSupplyAck, resultRead, resultRelease): binding at acceptance, supplied rows, results. Readings and choices of the model in it: log entries 25, 27, 28, 113, 133, 149. -/
def Obligations.StepsTakeSuppliesAndGiveResults : Prop :=
  Claims.StepsAreBoundWhenAccepted ∧ Claims.SuppliedRowsAreHeld ∧ Claims.ResultsReadAndReleased

/-- Commands of a queue on the module's own state (nop, eventAck, dictRead, dictReadBlock, dictWrite, dictWriteBlock, roleMapWrite). Readings and choices of the model in it: log entries 27, 41, 116. -/
def Obligations.DictionaryInBand : Prop :=
  Claims.NopAndEventAck ∧ Claims.DictionaryReadsInBand ∧ Claims.DictionaryWritesInBand ∧ Claims.RoleMapWrites

/-- The services of GDP frames on the dictionary (gdpRead, gdpReadBlock, gdpWrite, gdpWriteBlock), and the checks of a frame. Readings and choices of the model in it: log entries 41, 116, 154, 169, 170, 171. -/
def Obligations.GdpServices : Prop :=
  Claims.GdpReads ∧ Claims.GdpWrites ∧ Claims.GdpFramesChecked

/-- The rest of GDP (subscribeStart, subscribeStop, subscribeAck, eventFrameSend, eventFrameResend, blockGapTimeout, gdpSpdm). Readings and choices of the model in it: log entries 2, 40, 172. -/
def Obligations.GdpSubscriptionsAndSpdm : Prop :=
  Claims.Subscriptions ∧ Claims.BlockGapAbandons ∧ Claims.SpdmOverGdp

/-- What flash keeps (deltaRecordCommit, baseRecordWrite, eventCheckpoint). Readings and choices of the model in it: log entries 13, 43. -/
def Obligations.RetainedRecords : Prop :=
  Claims.DeltaCommitAppliesWrites ∧ Claims.DeltaRewriteSparesTheNewest ∧ Claims.BaseRecordClaims ∧ Claims.EventCounterIsKept

/-- Firmware images and the fabric position (standbyImageWrite, verify, arm, cancel, firmwareSwitch, fabricPositionWrite). Readings and choices of the model in it: log entries 17, 41, 42, 107. -/
def Obligations.ImagesAndSwitches : Prop :=
  Claims.StandbySlotFills ∧ Claims.SwitchCommands ∧ Claims.FirmwareSwitches ∧ Claims.FabricPositionWaits

/-- DMA channels (dmaPost, dmaTimer, dmaComplete, dmaAccessFault, burstTimeout, dmaAutoAction, resume, skip, abort). Readings and choices of the model in it: log entries 2, 158, 159. -/
def Obligations.DmaChannels : Prop :=
  Claims.DmaPosts ∧ Claims.DmaTimersAndCompletions ∧ Claims.DmaHaltsOnError ∧ Claims.DmaActions

/-- The memory tiers (promotion, moveCommit, poolEvictionPass, spaceStalled). Readings and choices of the model in it: log entries 2, 12, 128, 129, 142, 143, 158. -/
def Obligations.TiersMoveAndStall : Prop :=
  Claims.MovesBetweenTiers ∧ Claims.EvictionPasses ∧ Claims.SpaceWaitStalls

/-- Arriving messages (the rows of peers' messages, landingMove): into the landing reserve first, those of no association dropped, and out of it in order. Readings and choices of the model in it: log entries 37, 86, 88, 161. -/
def Obligations.MessagesLandInOrder : Prop :=
  Claims.MessagesLandFirst ∧ Claims.OtherMessagesAreDropped ∧ Claims.LandedMessagesMove

/-- Associations with peers and their key phases (assoc, keyUpdate, keyUpdateDue). Readings and choices of the model in it: log entries 17, 160, 161. -/
def Obligations.AssociationsAndKeys : Prop :=
  Claims.KeyPhasesTurn ∧ Claims.AssociationsForm

/-- Ports of the fabric and waits for it (laneFault, portRetry, sueshPortTrained, portWindowExpired, routeEmpty, creditStrictOrder, creditWaitLong). Readings and choices of the model in it: log entries 2, 86, 87, 163, 165, 174. -/
def Obligations.PortsAndFabricWaits : Prop :=
  Claims.PortsComeAndGo ∧ Claims.FabricWaitsAreReported

/-- Memory and its links (linkReplay, linkRetrained, rowRepair, rowRepaired, hardRepair, scrub). Readings and choices of the model in it: log entries 103, 104, 105. -/
def Obligations.MemoryRepairs : Prop :=
  Claims.InternalLinksReplay ∧ Claims.RowsAreRepaired ∧ Claims.ThePatrolCorrects

/-- Power, temperature, dies and sideband inputs (brownOut, inputLow, inputHigh, inputWarningCleared, currentLimit, externalPowerLost, phaseLost, thermalSample, dieSleep, dieWake, dieWakeComplete, pwrEnAssert, pwrEnDeassert, sueshRefclkLoss, posAddrChange). Readings and choices of the model in it: log entries 106, 107, 108, 175. -/
def Obligations.PowerAndClocks : Prop :=
  Claims.InputPower ∧ Claims.PhasesLost ∧ Claims.TemperatureAndDies ∧ Claims.SidebandAndClocks

/-- Ageing (pathMarginEval, eyeScan, retentionTest, dailyPrediction). Readings and choices of the model in it: log entries 105, 110, 174. -/
def Obligations.Ageing : Prop :=
  Claims.PathMargins ∧ Claims.LanesAndBanks ∧ Claims.DailyRecord

/-- Keeper start and the management segment (keeperStart, segmentJoin, beaconLost, beaconSeen, neighbourSolicitation, icmpv6Echo). Readings and choices of the model in it: log entries 17, 107. -/
def Obligations.KeeperAndSegment : Prop :=
  Claims.KeeperStarts ∧ Claims.SegmentJoins

/-- From rails to ready (railUp, memoryTrained, memoryRetrain, memoryInit, moduleReady). Readings and choices of the model in it: log entries 9, 104, 109. -/
def Obligations.BringUp : Prop :=
  Claims.RailsAndMemory ∧ Claims.InitialisationRepairs ∧ Claims.ModuleBecomesReady

/-- Liveness and fencing (livenessProbeDue, probe, answer, query, queryAnswer, livenessTimeout, fence, positionFailed, selfFenced). Readings and choices of the model in it: log entries 2, 94, 101, 164. -/
def Obligations.PositionsFail : Prop :=
  Claims.LivenessMessages ∧ Claims.PositionsAreFenced

/-- Takeover, folding and restore (takeoverStarted, takeoverComplete, positionFolded, restoreInPlace, recoveryExhausted). Readings and choices of the model in it: log entries 99, 100, 145, 147, 148, 149, 150, 151, 152, 153, 178. -/
def Obligations.PositionsRecover : Prop :=
  Claims.PositionsAreTakenOver ∧ Claims.RestoreAndExhaustion

/-- Dispatch (workItemDispatch, stepEndPass): work items and step-end passes start on their tiles, and reruns once a place is free. Readings and choices of the model in it: log entries 50, 51, 74, 140, 144, 146. -/
def Obligations.WorkStartsOnTiles : Prop :=
  Claims.WorkIsDispatched ∧ Claims.RerunsTakeAPlace

/-- Instances that wait for others, and the pieces a sampler forms. Readings and choices of the model in it: log entries 21, 54, 83, 117, 124, 125, 126, 139. -/
def Obligations.WaitingInstancesIssue : Prop :=
  Claims.WaitingInstancesIssue ∧ Claims.PiecesAreFormed

/-- The sequencer's own rows and signals between tiles (wait, signal, loop, waitLong, signalDeliver). Readings and choices of the model in it: log entries 52, 53, 121, 122. -/
def Obligations.SequencerAndSignals : Prop :=
  Claims.SequencerInstances ∧ Claims.LongWaitsAreReported ∧ Claims.SignalsArrive

/-- Three laws of the numbers a step works with: draws of the sampler, schedule curves, and scale exponents. -/
def Obligations.DrawsCurvesAndExponents : Prop :=
  Claims.DrawsAreUniform ∧ Claims.CurvesMeetTheirKnots ∧ Claims.ExponentsAreLeast

/-- Sums of the engines: matrix products and vector reductions. Readings and choices of the model in it: log entries 115, 137. -/
def Obligations.ProductsAndReductions : Prop :=
  Claims.ProductsAreSummed ∧ Claims.ReductionsFold

/-- Special values in the vector functions and in softmax rows. Readings and choices of the model in it: log entries 18, 57. -/
def Obligations.SpecialValues : Prop :=
  Claims.VectorSpecialValues ∧ Claims.SoftmaxRows

/-- What rows of `VECTOR` leave in their destination, on integers, as masks, and for permutations and packing. -/
def Obligations.VectorResults : Prop :=
  Claims.IntegerVectorsSaturate ∧ Claims.ComparesWriteMasks ∧ Claims.LanesAndCounts

/-- Call slips (slipIssue, slipLand, slipReissue). Readings and choices of the model in it: log entries 54, 74, 114, 132, 134, 135, 139. -/
def Obligations.SlipsIssueAndLand : Prop :=
  Claims.SlipsAreIssued ∧ Claims.AnnexRowsAreCalled ∧ Claims.SlipsLand ∧ Claims.FencedSlipsGoAgain

/-- Rows asked of the annex and of peers (rowCallClose, rowCallResend, annexStalled, gatherReq, gatherData and their kind). Readings and choices of the model in it: log entries 2, 39, 72, 127, 135. -/
def Obligations.PeersSupplyRows : Prop :=
  Claims.RowCallsAreSent ∧ Claims.GathersForPeers

/-- Contributions to ledgers (ledgerAdd, endContrib, rangeReport, ledgerRangeCheck). Readings and choices of the model in it: log entries 71, 73, 89, 90. -/
def Obligations.ContributionsAreTotalled : Prop :=
  Claims.AdditionsAreMade ∧ Claims.PeersEndTheirContributions ∧ Claims.RangesAreChecked

/-- The update of a layer (updateApply, update, layerRelease). Readings and choices of the model in it: log entries 54, 66, 75, 131, 138, 145. -/
def Obligations.LayersUpdate : Prop :=
  Claims.UpdatesStart ∧ Claims.UpdatesTakeTheirPart ∧ Claims.LayersAreReleased

/-- The end of a step (layerCheck, refresh, stepComplete). Readings and choices of the model in it: log entries 61, 76, 78, 79, 80, 139, 153. -/
def Obligations.StepsAreChecked : Prop :=
  Claims.LayersAreChecked ∧ Claims.RefreshesRun ∧ Claims.StepsComplete

/-- What a step's writes leave for the next (scaleUpdate, stuckZeroWatch). Readings and choices of the model in it: log entry 77. -/
def Obligations.NumericsFollowTheStep : Prop :=
  Claims.ScalesFollowTheAmax ∧ Claims.ZerosAreWatched

/-- Tiles that fail, and the sharing of tiles (tileRetire, selfCheck, spareStart, poisonConsumed, branchRebalance). Readings and choices of the model in it: log entries 81, 82, 85, 103, 122, 123, 144, 145, 157, 176. -/
def Obligations.TilesAndBranches : Prop :=
  Claims.TilesRetire ∧ Claims.PoisonIsConsumed ∧ Claims.BranchesRebalance ∧ Claims.TilesMoveBetweenBranches
end

