-- ==== Sys2Proof/Laws/Carrel.lean ====
section
/-!
SUPPORT. The carrel: its canonical form is kept by every operation on it, and a byte written is the byte read.
-/
namespace Sys2Proof.Machine
open Sys2Proof

/-- A chain of a transitive relation relates every earlier element to every later one. -/
theorem chainOk_lt_iff (l : List Nat) : chainOk (fun a b => decide (a < b)) l = true ↔ l.Pairwise (· < ·) := by
  induction l with
  | nil => simp [chainOk]
  | cons a l ih =>
    cases l with
    | nil => simp [chainOk]
    | cons b m =>
      simp only [chainOk, Bool.and_eq_true, decide_eq_true_eq, ih, List.pairwise_cons]
      constructor
      · rintro ⟨h, hb, hm⟩
        exact ⟨fun x hx => by rcases List.mem_cons.1 hx with rfl | hx; exacts [h, h.trans (hb x hx)], hb, hm⟩
      · rintro ⟨h, hb, hm⟩
        exact ⟨h b (by simp), hb, hm⟩

theorem rising_iff (l : List Nat) : rising l = true ↔ l.Pairwise (· < ·) := chainOk_lt_iff l

/-- The canonical form, as a proposition. -/
theorem carrelWf_iff (c : List Host.Cell) : carrelWf c = true ↔ (c.map (·.1)).Pairwise (· < ·) ∧ ∀ p ∈ c, p.2 ≠ 0 := by
  simp [carrelWf, rising_iff]

theorem carrelWf_nil : carrelWf [] = true := by decide

theorem carrelWf_filter (c : List Host.Cell) (p : Host.Cell → Bool) (h : carrelWf c = true) : carrelWf (c.filter p) = true := by
  rw [carrelWf_iff] at h ⊢
  exact ⟨h.1.sublist (List.filter_sublist.map _), fun x hx => h.2 x (List.mem_of_mem_filter hx)⟩

/-- The cells of bytes put from an address on: those that are not zero. -/
abbrev cellsOf (a : Nat) (b : List Byte) : List Host.Cell := ((List.range' a b.length).zip b).filter fun p => p.2 != 0

theorem cellsOf_cons (a : Nat) (v : Byte) (b : List Byte) : cellsOf a (v :: b) = (if v = 0#8 then [] else [(a, v)]) ++ cellsOf (a + 1) b := by
  by_cases h : v = 0#8 <;> simp [cellsOf, List.range'_succ, h]

theorem cellsOf_keys (a : Nat) (b : List Byte) : (cellsOf a b).map (·.1) |>.Sublist (List.range' a b.length) :=
  (List.filter_sublist.map _).trans (by rw [List.map_fst_zip (by simp)])

/-- Putting bytes keeps the canonical form. -/
theorem carrelWf_putCells (c : List Host.Cell) (a : Nat) (b : List Byte) (h : carrelWf c = true) : carrelWf (putCells c a b) = true := by
  rw [carrelWf_iff] at h ⊢
  have key (p : Host.Cell) (hp : p ∈ cellsOf a b) : a ≤ p.1 ∧ p.1 < a + b.length := by
    have := (cellsOf_keys a b).subset (List.mem_map_of_mem hp)
    simp only [List.mem_range'_1] at this
    exact this
  refine ⟨?_, fun p hp => ?_⟩
  · simp only [putCells, List.map_append, List.pairwise_append]
    refine ⟨⟨h.1.sublist (List.filter_sublist.map _), (List.pairwise_lt_range' (s := a) (n := b.length)).sublist (cellsOf_keys a b), ?_⟩,
      h.1.sublist (List.filter_sublist.map _), ?_⟩
    · intro x hx y hy
      obtain ⟨p, hp, rfl⟩ := List.mem_map.1 hx
      obtain ⟨q, hq, rfl⟩ := List.mem_map.1 hy
      have h1 := of_decide_eq_true (List.mem_filter.1 hp).2
      have h2 := (key q hq).1
      omega
    · intro x hx y hy
      obtain ⟨q, hq, rfl⟩ := List.mem_map.1 hy
      have h2 := of_decide_eq_true (List.mem_filter.1 hq).2
      rcases List.mem_append.1 hx with hx | hx
      · obtain ⟨p, hp, rfl⟩ := List.mem_map.1 hx
        have h1 := of_decide_eq_true (List.mem_filter.1 hp).2
        omega
      · obtain ⟨p, hp, rfl⟩ := List.mem_map.1 hx
        have h1 := (key p hp).2
        omega
  · simp only [putCells, List.mem_append] at hp
    rcases hp with (hp | hp) | hp
    · exact h.2 p (List.mem_of_mem_filter hp)
    · simpa using (List.mem_filter.1 hp).2
    · exact h.2 p (List.mem_of_mem_filter hp)

/-- Bytes put are the bytes read where they were put. -/
theorem carrelByte_cellsOf (a : Nat) (b : List Byte) (x : Nat) : carrelByte (cellsOf a b) x = if a ≤ x then b.getD (x - a) 0 else 0 := by
  induction b generalizing a with
  | nil => simp [cellsOf, carrelByte]
  | cons v b ih =>
    rw [cellsOf_cons]
    have step : carrelByte ((if v = 0#8 then [] else [(a, v)]) ++ cellsOf (a + 1) b) x = if x = a then v else carrelByte (cellsOf (a + 1) b) x := by
      by_cases hv : v = 0#8
      · subst hv
        by_cases hx : x = a
        · subst hx; simp only [if_true, List.nil_append, ih]; simp
        · simp [hx]
      · by_cases hx : x = a
        · simp [carrelByte, hv, hx]
        · have : (a == x) = false := by simpa using fun h => hx h.symm
          simp [carrelByte, hv, hx, this]
    rw [step, ih]
    by_cases hx : x = a
    · simp [hx]
    · by_cases h : a ≤ x
      · obtain ⟨k, rfl⟩ := Nat.exists_eq_add_of_le h
        obtain ⟨m, rfl⟩ : ∃ m, k = m + 1 := ⟨k - 1, by omega⟩
        simp [show a + 1 ≤ a + (m + 1) by omega, show a + (m + 1) - (a + 1) = m by omega]
      · simp [hx, h, show ¬ a + 1 ≤ x by omega]

theorem carrelByte_append (c d : List Host.Cell) (x : Nat) (h : c.find? (fun p => p.1 == x) = none) : carrelByte (c ++ d) x = carrelByte d x := by
  simp [carrelByte, List.find?_append, h]

theorem carrelByte_append_left (c d : List Host.Cell) (x : Nat) (h : d.find? (fun p => p.1 == x) = none) : carrelByte (c ++ d) x = carrelByte c x := by
  simp [carrelByte, List.find?_append, h]

/-- Cells kept by a predicate that every cell of an address meets read as before there. -/
theorem carrelByte_filter (c : List Host.Cell) (p : Host.Cell → Bool) (x : Nat) (h : ∀ q : Host.Cell, q.1 = x → p q = true) :
    carrelByte (c.filter p) x = carrelByte c x := by
  unfold carrelByte
  rw [List.find?_filter]
  refine congrArg (fun f => (List.find? f c).elim 0 (·.2)) ?_
  funext q
  by_cases hq : q.1 = x <;> simp [hq, h]

theorem find_filter_none (c : List Host.Cell) (p : Host.Cell → Bool) (x : Nat) (h : ∀ q : Host.Cell, q.1 = x → p q = false) :
    (c.filter p).find? (fun q => q.1 == x) = none := by
  simp only [List.find?_eq_none, List.mem_filter, beq_iff_eq, and_imp]
  intro q _ hp hq
  simp [h q hq] at hp

theorem find_cellsOf_none (a : Nat) (b : List Byte) (x : Nat) (h : x < a ∨ a + b.length ≤ x) : (cellsOf a b).find? (fun q => q.1 == x) = none := by
  simp only [List.find?_eq_none, beq_iff_eq]
  intro q hq hx
  have := (cellsOf_keys a b).subset (List.mem_map_of_mem hq)
  simp only [List.mem_range'_1] at this
  omega

/-- What a byte reads as after bytes were put: the byte put there, or what it was. -/
theorem carrelByte_putCells (c : List Host.Cell) (a : Nat) (b : List Byte) (x : Nat) :
    carrelByte (putCells c a b) x = if a ≤ x ∧ x < a + b.length then b.getD (x - a) 0 else carrelByte c x := by
  unfold putCells
  split
  · rename_i h
    rw [carrelByte_append_left _ _ _ (find_filter_none _ _ _ fun q hq => by simp; omega),
      carrelByte_append _ _ _ (find_filter_none _ _ _ fun q hq => by simp; omega)]
    exact (carrelByte_cellsOf a b x).trans (if_pos h.1)
  · rename_i h
    by_cases hx : x < a
    · rw [carrelByte_append_left _ _ _ (find_filter_none _ _ _ fun q hq => by simp; omega),
        carrelByte_append_left _ _ _ (find_cellsOf_none a b x (.inl hx))]
      exact carrelByte_filter _ _ _ fun q hq => by simpa [hq] using hx
    · have hn : a + b.length ≤ x := by omega
      rw [List.append_assoc, carrelByte_append _ _ _ (find_filter_none _ _ _ fun q hq => by simp; omega),
        carrelByte_append _ _ _ (find_cellsOf_none a b x (.inr hn))]
      exact carrelByte_filter _ _ _ fun q hq => by simpa [hq] using hn

/-- A byte read is the byte that stands at its address. -/
theorem carrelRead_eq (s : State) (tile addr n : Nat) :
    s.carrelRead tile addr n = (List.range n).map fun i => carrelByte s.carrel (carrelAt tile addr + i) := by
  unfold State.carrelRead cellsBetween
  refine List.map_congr_left fun i hi => carrelByte_filter _ _ _ fun q hq => ?_
  have := List.mem_range.1 hi
  simp [hq]
  omega

end Sys2Proof.Machine
end

