-- ==== Sys2Proof/Laws/Lookup.lean ====
section
/-!
SUPPORT. What is read after a write: lists by key, queues, sessions, jobs, commands in flight and dictionary values.
-/
namespace Sys2Proof.Machine
open Sys2Proof

@[simp] theorem aGet_aSet_self {κ α : Type} [DecidableEq κ] (l : List (κ × α)) (k : κ) (a : α) : aGet (aSet l k a) k = some a := by
  induction l with
  | nil => simp [aSet, aGet]
  | cons p l ih =>
    obtain ⟨x, v⟩ := p
    by_cases h : x = k
    · simp [aSet, aGet, h]
    · simp [aSet, aGet, h, ih]

theorem aGet_aSet_other {κ α : Type} [DecidableEq κ] (l : List (κ × α)) (k q : κ) (a : α) (h : k ≠ q) : aGet (aSet l k a) q = aGet l q := by
  induction l with
  | nil => simp [aSet, aGet, h]
  | cons p l ih =>
    obtain ⟨x, v⟩ := p
    by_cases hx : x = k
    · subst hx; simp [aSet, aGet, h]
    · by_cases hq : x = q
      · subst hq; simp [aSet, aGet, hx]
      · simp [aSet, aGet, hx, hq, ih]

@[simp] theorem aGetD_aSet_self {κ α : Type} [DecidableEq κ] (l : List (κ × α)) (k : κ) (a d : α) : aGetD (aSet l k a) k d = a := by simp [aGetD]

theorem aGetD_aSet_other {κ α : Type} [DecidableEq κ] (l : List (κ × α)) (k q : κ) (a d : α) (h : k ≠ q) : aGetD (aSet l k a) q d = aGetD l q d := by
  simp [aGetD, aGet_aSet_other l k q a h]

/-! ### Queues -/

@[simp] theorem State.queue_setQueue_self (s : State) (q : Nat) (v : Queue) : (s.setQueue q v).queue q = v := aGetD_aSet_self ..

theorem State.queue_setQueue_other (s : State) (q r : Nat) (v : Queue) (h : q ≠ r) : (s.setQueue q v).queue r = s.queue r :=
  aGetD_aSet_other _ _ _ _ _ h

@[simp] theorem State.queue_updQueue_self (s : State) (q : Nat) (f : Queue → Queue) : (s.updQueue q f).queue q = f (s.queue q) :=
  State.queue_setQueue_self ..

theorem State.queue_updQueue_other (s : State) (q r : Nat) (f : Queue → Queue) (h : q ≠ r) : (s.updQueue q f).queue r = s.queue r :=
  State.queue_setQueue_other _ _ _ _ h

/-- A queue is read from the port alone. -/
theorem State.queue_port {s t : State} (h : t.port = s.port) (q : Nat) : t.queue q = s.queue q := by rw [State.queue, State.queue, h]

@[simp] theorem State.queue_updInFlight (s : State) (a b c : Nat) (g : InFlight → InFlight) (q : Nat) : (s.updInFlight a b c g).queue q = s.queue q := rfl
@[simp] theorem State.queue_dropInFlight (s : State) (a b c q : Nat) : (s.dropInFlight a b c).queue q = s.queue q := rfl
@[simp] theorem State.inFlight_setQueue (s : State) (q : Nat) (v : Queue) : (s.setQueue q v).port.inFlight = s.port.inFlight := rfl
@[simp] theorem State.inFlight_updQueue (s : State) (q : Nat) (f : Queue → Queue) : (s.updQueue q f).port.inFlight = s.port.inFlight := rfl

/-! ### Sessions and jobs -/

/-- A job's slot names the job as changed, where the change keeps the slot. -/
theorem State.job?_updJob_self (s : State) (slot : Nat) (f : Job → Job) (hf : ∀ j, (f j).slot = j.slot) :
    (s.updJob slot f).job? slot = (s.job? slot).map f := by
  unfold State.job? State.updJob
  simp only
  generalize s.jobs = l
  induction l with
  | nil => rfl
  | cons j l ih =>
    by_cases h : j.slot = slot
    · simp [h, hf]
    · simpa [h] using ih

theorem State.job?_updJob_other (s : State) (slot r : Nat) (f : Job → Job) (hf : ∀ j, (f j).slot = j.slot) (h : slot ≠ r) :
    (s.updJob slot f).job? r = s.job? r := by
  unfold State.job? State.updJob
  simp only
  generalize s.jobs = l
  induction l with
  | nil => rfl
  | cons j l ih =>
    by_cases hj : j.slot = slot
    · have : ¬ slot = r := h
      simp [hj, hf, this, ih]
    · by_cases hr : j.slot = r
      · subst hr; simp [hj]
      · simp [hj, hr, ih]

theorem State.job?_jobs {s t : State} (h : t.jobs = s.jobs) (slot : Nat) : t.job? slot = s.job? slot := by rw [State.job?, State.job?, h]
theorem State.live?_sessions {s t : State} (h : t.sessions = s.sessions) (id : Nat) : t.live? id = s.live? id := by rw [State.live?, State.live?, h]
theorem State.session?_sessions {s t : State} (h : t.sessions = s.sessions) (id : Nat) : t.session? id = s.session? id := by
  rw [State.session?, State.session?, h]

theorem State.session?_updSession_self (s : State) (id : Nat) (f : Session → Session) (hf : ∀ x, (f x).id = x.id) :
    (s.updSession id f).session? id = (s.session? id).map f := by
  unfold State.session? State.updSession
  simp only
  generalize s.sessions = l
  induction l with
  | nil => rfl
  | cons x l ih =>
    by_cases h : x.id = id
    · simp [h, hf]
    · simpa [h] using ih

theorem State.session?_updSession_other (s : State) (id r : Nat) (f : Session → Session) (hf : ∀ x, (f x).id = x.id) (h : id ≠ r) :
    (s.updSession id f).session? r = s.session? r := by
  unfold State.session? State.updSession
  simp only
  generalize s.sessions = l
  induction l with
  | nil => rfl
  | cons x l ih =>
    by_cases hx : x.id = id
    · have : ¬ id = r := h
      simp [hx, hf, this, ih]
    · by_cases hr : x.id = r
      · subst hr; simp [hx]
      · simp [hx, hr, ih]

/-! ### Dictionary values -/

@[simp] theorem State.entry_setEntry_self (s : State) (i k : Nat) (v : DVal) : (s.setEntry i k v).entry i k = v := aGetD_aSet_self ..

theorem entryKey_inj {i k i' k' : Nat} (hk : k < 256) (hk' : k' < 256) (h : entryKey i k = entryKey i' k') : i = i' ∧ k = k' := by
  unfold entryKey at h; omega

theorem State.entry_setEntry_other (s : State) (i k i' k' : Nat) (v : DVal) (h : entryKey i k ≠ entryKey i' k') :
    (s.setEntry i k v).entry i' k' = s.entry i' k' := aGetD_aSet_other _ _ _ _ _ h

@[simp] theorem State.num_setNum_self (s : State) (i k n : Nat) : (s.setNum i k n).num i k = n := by simp [State.num, State.setNum, DVal.toNat]

/-- A counter after an addition. -/
theorem State.num_add_self (s : State) (i k n : Nat) :
    (s.add i k n).num i k = (s.num i k + n) % 2 ^ (8 * ((findEntry i k).map (·.width)).getD 8) := by simp [State.add]

theorem State.num_add_other (s : State) (i k n i' k' : Nat) (h : entryKey i k ≠ entryKey i' k') : (s.add i k n).num i' k' = s.num i' k' := by
  simp [State.num, State.add, State.setNum, State.entry_setEntry_other _ _ _ _ _ _ h]

/-- A value is read from the dictionary alone. -/
theorem State.entry_dict {s t : State} (h : t.dict = s.dict) (i k : Nat) : t.entry i k = s.entry i k := by rw [State.entry, State.entry, h]
theorem State.num_dict {s t : State} (h : t.dict = s.dict) (i k : Nat) : t.num i k = s.num i k := by rw [State.num, State.num, State.entry_dict h]

end Sys2Proof.Machine
end

