-- ==== Sys2Proof/Laws/Only.lean ====
section
/-!
SUPPORT. How the parts an operation may change are put together from the parts of the operations it is made of.
-/
namespace Sys2Proof.Machine
open Sys2Proof

/-- Every part of the first list is in the second. -/
def Part.within (v w : List Part) : Bool := v.all fun p => w.contains p

theorem Part.within_mem {v w : List Part} (h : Part.within v w = true) {p : Part} (hp : p ∈ v) : p ∈ w := by
  simpa using (List.all_eq_true.1 h) p hp

theorem Part.within_contains {v w : List Part} (h : Part.within v w = true) {p : Part} (hp : v.contains p = true) : w.contains p = true :=
  List.all_eq_true.1 h p (by simpa using hp)

theorem Part.within_trans {u v w : List Part} (h : Part.within u v = true) (g : Part.within v w = true) : Part.within u w = true :=
  List.all_eq_true.2 fun p hp => by simpa using Part.within_mem g (Part.within_mem h hp)

theorem Only.refl (w : List Part) (s : State) : Only w s s := ⟨fun p _ => by cases p <;> rfl⟩

theorem Part.same_trans {s t u : State} {p : Part} (h : p.same s t) (g : p.same t u) : p.same s u := by
  cases p <;> exact Eq.trans g h

theorem Only.trans {w : List Part} {s t u : State} (h : Only w s t) (g : Only w t u) : Only w s u :=
  ⟨fun p hp => Part.same_trans (h.same p hp) (g.same p hp)⟩

/-- More parts may change. -/
theorem Only.mono {v w : List Part} {s t : State} (h : Only v s t) (hw : Part.within v w = true) : Only w s t :=
  ⟨fun p hp => h.same p fun hv => hp (Part.within_mem hw hv)⟩

/-- An operation after others, each within the parts. -/
theorem Only.after {v w : List Part} {t u : State} (g : Only v t u) {s : State} (h : Only w s t) (hw : Part.within v w = true) : Only w s u :=
  h.trans (g.mono hw)

/-- A fold of operations within the parts. -/
theorem Only.foldl {α : Type} {w : List Part} (f : State → α → State) (l : List α) (s : State) (h : ∀ s a, Only w s (f s a)) :
    Only w s (l.foldl f s) := by
  induction l generalizing s with
  | nil => exact Only.refl w s
  | cons a l ih => exact (h s a).trans (ih _)

/-- A fold that carries a state and something else. -/
theorem Only.foldlFst {α β : Type} {w : List Part} (f : State × β → α → State × β) (l : List α) (p : State × β) (h : ∀ p a, Only w p.1 (f p a).1) :
    Only w p.1 (l.foldl f p).1 := by
  induction l generalizing p with
  | nil => exact Only.refl w p.1
  | cons a l ih => exact (h p a).trans (ih _)

/-- The state of a pair chosen by a test. -/
theorem Only.ofIf {p : Prop} [Decidable p] {β : Type} {w : List Part} {s t : State} {a b : β × State} {x : β} (h : (if p then a else b) = (x, t))
    (ha : Only w s a.2) (hb : Only w s b.2) : Only w s t := by
  split at h
  · rw [h] at ha; exact ha
  · rw [h] at hb; exact hb

/-- A record update of parts that may change, after operations within the parts. -/
theorem Only.upd {w : List Part} {s0 s : State}
    {port' sessions' jobs' bring' power' day' flash' sec' seg' log' dict' blocks' abandoned' retainedWrites' baseStaged' tiers' dma' rel' fabric' tileUnits' spares' carrel' carrelPoison' traces' reply' draws'} (h : Only w s0 s)
    (h0 : w.contains .port = true ∨ port' = s.port := by first | exact Or.inr rfl | exact Or.inl rfl | exact Or.inl (Part.within_contains ‹_› rfl))
    (h1 : w.contains .sessions = true ∨ sessions' = s.sessions := by first | exact Or.inr rfl | exact Or.inl rfl | exact Or.inl (Part.within_contains ‹_› rfl))
    (h2 : w.contains .jobs = true ∨ jobs' = s.jobs := by first | exact Or.inr rfl | exact Or.inl rfl | exact Or.inl (Part.within_contains ‹_› rfl))
    (h3 : w.contains .bring = true ∨ bring' = s.bring := by first | exact Or.inr rfl | exact Or.inl rfl | exact Or.inl (Part.within_contains ‹_› rfl))
    (h4 : w.contains .power = true ∨ power' = s.power := by first | exact Or.inr rfl | exact Or.inl rfl | exact Or.inl (Part.within_contains ‹_› rfl))
    (h5 : w.contains .day = true ∨ day' = s.day := by first | exact Or.inr rfl | exact Or.inl rfl | exact Or.inl (Part.within_contains ‹_› rfl))
    (h6 : w.contains .flash = true ∨ flash' = s.flash := by first | exact Or.inr rfl | exact Or.inl rfl | exact Or.inl (Part.within_contains ‹_› rfl))
    (h7 : w.contains .sec = true ∨ sec' = s.sec := by first | exact Or.inr rfl | exact Or.inl rfl | exact Or.inl (Part.within_contains ‹_› rfl))
    (h8 : w.contains .seg = true ∨ seg' = s.seg := by first | exact Or.inr rfl | exact Or.inl rfl | exact Or.inl (Part.within_contains ‹_› rfl))
    (h9 : w.contains .log = true ∨ log' = s.log := by first | exact Or.inr rfl | exact Or.inl rfl | exact Or.inl (Part.within_contains ‹_› rfl))
    (h10 : w.contains .dict = true ∨ dict' = s.dict := by first | exact Or.inr rfl | exact Or.inl rfl | exact Or.inl (Part.within_contains ‹_› rfl))
    (h11 : w.contains .blocks = true ∨ blocks' = s.blocks := by first | exact Or.inr rfl | exact Or.inl rfl | exact Or.inl (Part.within_contains ‹_› rfl))
    (h12 : w.contains .abandoned = true ∨ abandoned' = s.abandoned := by first | exact Or.inr rfl | exact Or.inl rfl | exact Or.inl (Part.within_contains ‹_› rfl))
    (h13 : w.contains .retainedWrites = true ∨ retainedWrites' = s.retainedWrites := by first | exact Or.inr rfl | exact Or.inl rfl | exact Or.inl (Part.within_contains ‹_› rfl))
    (h14 : w.contains .baseStaged = true ∨ baseStaged' = s.baseStaged := by first | exact Or.inr rfl | exact Or.inl rfl | exact Or.inl (Part.within_contains ‹_› rfl))
    (h15 : w.contains .tiers = true ∨ tiers' = s.tiers := by first | exact Or.inr rfl | exact Or.inl rfl | exact Or.inl (Part.within_contains ‹_› rfl))
    (h16 : w.contains .dma = true ∨ dma' = s.dma := by first | exact Or.inr rfl | exact Or.inl rfl | exact Or.inl (Part.within_contains ‹_› rfl))
    (h17 : w.contains .rel = true ∨ rel' = s.rel := by first | exact Or.inr rfl | exact Or.inl rfl | exact Or.inl (Part.within_contains ‹_› rfl))
    (h18 : w.contains .fabric = true ∨ fabric' = s.fabric := by first | exact Or.inr rfl | exact Or.inl rfl | exact Or.inl (Part.within_contains ‹_› rfl))
    (h19 : w.contains .tileUnits = true ∨ tileUnits' = s.tileUnits := by first | exact Or.inr rfl | exact Or.inl rfl | exact Or.inl (Part.within_contains ‹_› rfl))
    (h20 : w.contains .spares = true ∨ spares' = s.spares := by first | exact Or.inr rfl | exact Or.inl rfl | exact Or.inl (Part.within_contains ‹_› rfl))
    (h21 : w.contains .carrel = true ∨ carrel' = s.carrel := by first | exact Or.inr rfl | exact Or.inl rfl | exact Or.inl (Part.within_contains ‹_› rfl))
    (h22 : w.contains .carrelPoison = true ∨ carrelPoison' = s.carrelPoison := by first | exact Or.inr rfl | exact Or.inl rfl | exact Or.inl (Part.within_contains ‹_› rfl))
    (h23 : w.contains .traces = true ∨ traces' = s.traces := by first | exact Or.inr rfl | exact Or.inl rfl | exact Or.inl (Part.within_contains ‹_› rfl))
    (h24 : w.contains .reply = true ∨ reply' = s.reply := by first | exact Or.inr rfl | exact Or.inl rfl | exact Or.inl (Part.within_contains ‹_› rfl))
    (h25 : w.contains .draws = true ∨ draws' = s.draws := by first | exact Or.inr rfl | exact Or.inl rfl | exact Or.inl (Part.within_contains ‹_› rfl)) :
    Only w s0 (State.mk port' sessions' jobs' bring' power' day' flash' sec' seg' log' dict' blocks' abandoned' retainedWrites' baseStaged' tiers' dma' rel' fabric' tileUnits' spares' carrel' carrelPoison' traces' reply' draws' s.pending) := by
  refine h.trans ⟨fun p hp => ?_⟩
  cases p
  · exact h0.resolve_left fun h => hp (by simpa using h)
  · exact h1.resolve_left fun h => hp (by simpa using h)
  · exact h2.resolve_left fun h => hp (by simpa using h)
  · exact h3.resolve_left fun h => hp (by simpa using h)
  · exact h4.resolve_left fun h => hp (by simpa using h)
  · exact h5.resolve_left fun h => hp (by simpa using h)
  · exact h6.resolve_left fun h => hp (by simpa using h)
  · exact h7.resolve_left fun h => hp (by simpa using h)
  · exact h8.resolve_left fun h => hp (by simpa using h)
  · exact h9.resolve_left fun h => hp (by simpa using h)
  · exact h10.resolve_left fun h => hp (by simpa using h)
  · exact h11.resolve_left fun h => hp (by simpa using h)
  · exact h12.resolve_left fun h => hp (by simpa using h)
  · exact h13.resolve_left fun h => hp (by simpa using h)
  · exact h14.resolve_left fun h => hp (by simpa using h)
  · exact h15.resolve_left fun h => hp (by simpa using h)
  · exact h16.resolve_left fun h => hp (by simpa using h)
  · exact h17.resolve_left fun h => hp (by simpa using h)
  · exact h18.resolve_left fun h => hp (by simpa using h)
  · exact h19.resolve_left fun h => hp (by simpa using h)
  · exact h20.resolve_left fun h => hp (by simpa using h)
  · exact h21.resolve_left fun h => hp (by simpa using h)
  · exact h22.resolve_left fun h => hp (by simpa using h)
  · exact h23.resolve_left fun h => hp (by simpa using h)
  · exact h24.resolve_left fun h => hp (by simpa using h)
  · exact h25.resolve_left fun h => hp (by simpa using h)
  · rfl
end Sys2Proof.Machine
end

