-- ==== Sys2Proof/Laws/OnlyOps.lean ====
section
/-!
SUPPORT. The parts of the state the operations of Ops may change.
-/
set_option linter.unusedTactic false
set_option linter.unusedVariables false
set_option Elab.async false
namespace Sys2Proof.Machine
open Sys2Proof

theorem draw_only (s : State) : Only [.draws] s (draw s).2 := by
  unfold draw
  repeat' (first | with_reducible exact Only.refl _ _ | fail_if_no_progress with_reducible refine Only.upd ?_)
theorem draw_only' {s : State} {x} {t} (h : draw s = (x, t)) : Only [.draws] s t := by
  have k := draw_only s; rw [h] at k; exact k

theorem State.setQueue_only (s : State) (a2) (a3) : Only [.port] s (State.setQueue s a2 a3) := by
  unfold State.setQueue
  repeat' (first | with_reducible exact Only.refl _ _ | (extract_lets) | fail_if_no_progress with_reducible refine Only.upd ?_)

theorem State.updQueue_only (s : State) (a2) (a3) : Only [.port] s (State.updQueue s a2 a3) := by
  unfold State.updQueue
  repeat' (first | with_reducible exact Only.refl _ _ | with_reducible decide | with_reducible refine Only.after (State.setQueue_only ..) ?_ ?_)

theorem State.mapQueues_only (s : State) (a2) : Only [.port] s (State.mapQueues s a2) := by
  unfold State.mapQueues
  repeat' (first | with_reducible exact Only.refl _ _ | (extract_lets) | fail_if_no_progress with_reducible refine Only.upd ?_)

theorem State.updSession_only (s : State) (a2) (a3) : Only [.sessions] s (State.updSession s a2 a3) := by
  unfold State.updSession
  repeat' (first | with_reducible exact Only.refl _ _ | fail_if_no_progress with_reducible refine Only.upd ?_)

theorem State.updJob_only (s : State) (a2) (a3) : Only [.jobs] s (State.updJob s a2 a3) := by
  unfold State.updJob
  repeat' (first | with_reducible exact Only.refl _ _ | fail_if_no_progress with_reducible refine Only.upd ?_)

theorem State.setEntry_only (s : State) (a2) (a3) (a4) : Only [.dict] s (State.setEntry s a2 a3 a4) := by
  unfold State.setEntry
  repeat' (first | with_reducible exact Only.refl _ _ | fail_if_no_progress with_reducible refine Only.upd ?_)

theorem State.setNum_only (s : State) (a2) (a3) (a4) : Only [.dict] s (State.setNum s a2 a3 a4) := by
  unfold State.setNum
  repeat' (first | with_reducible exact Only.refl _ _ | with_reducible decide | with_reducible refine Only.after (State.setEntry_only ..) ?_ ?_)

theorem State.add_only (s : State) (a2) (a3) (a4) : Only [.dict] s (State.add s a2 a3 a4) := by
  unfold State.add
  repeat' (first | with_reducible exact Only.refl _ _ | with_reducible decide | with_reducible refine Only.after (State.setNum_only ..) ?_ ?_)

theorem State.enqueue_only (s : State) (a2) (a3) (a4) : Only [.port] s (State.enqueue s a2 a3 a4) := by
  unfold State.enqueue
  repeat' (first
      | with_reducible exact Only.refl _ _ | with_reducible decide | with_reducible refine Only.after (State.updQueue_only ..) ?_ ?_ | split)

theorem State.dropInFlight_only (s : State) (a2) (a3) (a4) : Only [.port] s (State.dropInFlight s a2 a3 a4) := by
  unfold State.dropInFlight
  repeat' (first | with_reducible exact Only.refl _ _ | (extract_lets) | fail_if_no_progress with_reducible refine Only.upd ?_)

theorem State.updInFlight_only (s : State) (a2) (a3) (a4) (a5) : Only [.port] s (State.updInFlight s a2 a3 a4 a5) := by
  unfold State.updInFlight
  repeat' (first | with_reducible exact Only.refl _ _ | (extract_lets) | fail_if_no_progress with_reducible refine Only.upd ?_)

theorem State.releaseRoom_only (s : State) (a2) (a3) : Only [.port] s (State.releaseRoom s a2 a3) := by
  unfold State.releaseRoom
  repeat' (first
      | with_reducible exact Only.refl _ _ | with_reducible decide | with_reducible refine Only.after (State.updQueue_only ..) ?_ ?_ | split)

theorem State.answer_only (s : State) (a2) (a3) (a4) (a5) : Only [.port] s (State.answer s a2 a3 a4 a5) := by
  unfold State.answer
  repeat' (first
      | with_reducible exact Only.refl _ _ | with_reducible decide | with_reducible refine Only.after (State.releaseRoom_only ..) ?_ ?_
      | with_reducible refine Only.after (State.enqueue_only ..) ?_ ?_ | with_reducible refine Only.after (State.updInFlight_only ..) ?_ ?_
      | with_reducible refine Only.after (State.dropInFlight_only ..) ?_ ?_ | (extract_lets) | split)

theorem State.refuseWith_only (s : State) (a2) (a3) (a4) : Only [.port] s (State.refuseWith s a2 a3 a4) := by
  unfold State.refuseWith
  repeat' (first
      | with_reducible exact Only.refl _ _ | with_reducible decide | with_reducible refine Only.after (State.enqueue_only ..) ?_ ?_
      | with_reducible refine Only.after (State.dropInFlight_only ..) ?_ ?_ | with_reducible refine Only.after (State.releaseRoom_only ..) ?_ ?_)

theorem State.answerBare_only (s : State) (a2) (a3) (a4) : Only [.port] s (State.answerBare s a2 a3 a4) := by
  unfold State.answerBare
  repeat' (first
      | with_reducible exact Only.refl _ _ | with_reducible decide | with_reducible refine Only.after (State.updQueue_only ..) ?_ ?_
      | with_reducible refine Only.after (State.releaseRoom_only ..) ?_ ?_)

theorem State.refuse_only (s : State) (a2) (a3) : Only [.port] s (State.refuse s a2 a3) := by
  unfold State.refuse
  repeat' (first | with_reducible exact Only.refl _ _ | with_reducible decide | with_reducible refine Only.after (State.refuseWith_only ..) ?_ ?_)

theorem State.finish_only (s : State) (a2) (a3) (a4) (a5) (a6) (a7) : Only [.port] s (State.finish s a2 a3 a4 a5 a6 a7) := by
  unfold State.finish
  repeat' (first
      | with_reducible exact Only.refl _ _ | with_reducible decide | with_reducible refine Only.after (State.answer_only ..) ?_ ?_
      | with_reducible refine Only.after (State.updInFlight_only ..) ?_ ?_ | split)

theorem State.storeEvent_only (s : State) (a2) (a3) (a4) : Only [.port, .dict] s (State.storeEvent s a2 a3 a4) := by
  unfold State.storeEvent
  repeat' (first
      | with_reducible exact Only.refl _ _ | with_reducible decide | with_reducible refine Only.after (State.updQueue_only ..) ?_ ?_
      | with_reducible refine Only.after (State.add_only ..) ?_ ?_ | split)

theorem State.offer_only (s : State) (a2) : Only [.sessions, .dict] s (State.offer s a2) := by
  unfold State.offer
  repeat' (first
      | with_reducible exact Only.refl _ _ | intro _ | with_reducible decide | with_reducible refine Only.after (State.updSession_only ..) ?_ ?_
      | with_reducible refine Only.after (State.add_only ..) ?_ ?_ | with_reducible refine Only.trans ?_ (Only.foldl _ _ _ ?_) | (extract_lets)
      | split)

theorem State.deliver_only (s : State) (a2) (a3) : Only [.port, .sessions, .dict] s (State.deliver s a2 a3) := by
  unfold State.deliver
  repeat' (first
      | with_reducible exact Only.refl _ _ | intro _ | with_reducible decide | with_reducible refine Only.after (State.storeEvent_only ..) ?_ ?_
      | with_reducible refine Only.after (State.offer_only ..) ?_ ?_ | with_reducible refine Only.trans ?_ (Only.foldl _ _ _ ?_) | (extract_lets)
      | split)

theorem State.record_only (s : State) (a2) (a3) : Only [.port, .sessions, .log, .dict] s (State.record s a2 a3) := by
  unfold State.record
  repeat' (first
      | with_reducible exact Only.refl _ _ | with_reducible decide | with_reducible refine Only.after (State.deliver_only ..) ?_ ?_ | (extract_lets)
      | split | fail_if_no_progress with_reducible refine Only.upd ?_)

theorem State.raise_only (s : State) (a2) (a3) (a4) (a5) (a6) (a7) : Only [.port, .sessions, .log, .dict] s (State.raise s a2 a3 a4 a5 a6 a7) := by
  unfold State.raise
  repeat' (first | with_reducible exact Only.refl _ _ | with_reducible decide | with_reducible refine Only.after (State.record_only ..) ?_ ?_)

theorem State.raiseJob_only (s : State) (a2) (a3) (a4) (a5) (a6) (a7) : Only [.port, .sessions, .log, .dict] s (State.raiseJob s a2 a3 a4 a5 a6 a7) := by
  unfold State.raiseJob
  repeat' (first | with_reducible exact Only.refl _ _ | with_reducible decide | with_reducible refine Only.after (State.record_only ..) ?_ ?_)

theorem State.logRecord_only (s : State) (a2) (a3) (a4) (a5) (a6) (a7) (a8) : Only [.jobs] s (State.logRecord s a2 a3 a4 a5 a6 a7 a8) := by
  unfold State.logRecord
  repeat' (first | with_reducible exact Only.refl _ _ | with_reducible decide | with_reducible refine Only.after (State.updJob_only ..) ?_ ?_)

theorem State.releaseReplay_only (s : State) (a2) : Only [.port, .jobs] s (State.releaseReplay s a2) := by
  unfold State.releaseReplay
  repeat' (first
      | with_reducible exact Only.refl _ _ | with_reducible decide | with_reducible refine Only.after (State.updJob_only ..) ?_ ?_ | (extract_lets)
      | split | fail_if_no_progress with_reducible refine Only.upd ?_)

theorem State.accept_only (s : State) (a2) (a3) : Only [.port, .jobs] s (State.accept s a2 a3).1 := by
  unfold State.accept
  repeat' (first
      | with_reducible exact Only.refl _ _ | with_reducible decide | with_reducible refine Only.after (State.updInFlight_only ..) ?_ ?_
      | with_reducible refine Only.after (State.updJob_only ..) ?_ ?_ | with_reducible refine Only.after (State.releaseReplay_only ..) ?_ ?_
      | with_reducible refine Only.after (State.logRecord_only ..) ?_ ?_ | (extract_lets) | split)
theorem State.accept_only' {s : State} {a2} {a3} {x} {t} (h : State.accept s a2 a3 = (t, x)) : Only [.port, .jobs] s t := by
  have k := State.accept_only s a2 a3; rw [h] at k; exact k

theorem State.runLogged_only (s : State) (a2) (a3) (a4) (a5) (a6) (g7) {w : List Part} (h7 : ∀ x y1, Only w x (g7 x y1)) (hw : Part.within [.port, .jobs] w = true) : Only w s (State.runLogged s a2 a3 a4 a5 a6 g7) := by
  unfold State.runLogged
  repeat' (first
      | with_reducible exact Only.refl _ _ | with_reducible assumption | exact Part.within_trans (by decide) hw
      | with_reducible refine Only.after (State.refuseWith_only ..) ?_ ?_ | with_reducible refine Only.trans ?_ (h7 ..) | (extract_lets) | split
      | with_reducible refine Only.after (State.accept_only ..) ?_ ?_)

theorem State.runCommand_only (s : State) (a2) (a3) (a4) (a5) (g6) {w : List Part} (h6 : ∀ x y1, Only w x (g6 x y1)) (hw : Part.within [.port, .jobs] w = true) : Only w s (State.runCommand s a2 a3 a4 a5 g6) := by
  unfold State.runCommand
  repeat' (first
      | with_reducible exact Only.refl _ _ | with_reducible assumption
      | with_reducible refine Only.trans ?_ (State.runLogged_only (h7 := ?_) (hw := ?_) ..))

theorem State.done_only (s : State) (a2) (a3) (a4) : Only [.port] s (State.done s a2 a3 a4) := by
  unfold State.done
  repeat' (first | with_reducible exact Only.refl _ _ | with_reducible decide | with_reducible refine Only.after (State.finish_only ..) ?_ ?_)

theorem State.finishAsker_only (s : State) (a2) (a3) (a4) : Only [.port] s (State.finishAsker s a2 a3 a4) := by
  unfold State.finishAsker
  repeat' (first
      | with_reducible exact Only.refl _ _ | with_reducible decide | with_reducible refine Only.after (State.finish_only ..) ?_ ?_ | split)

theorem flushFragments_only (slot n : Nat) (s : State) : Only [.port, .jobs] s (flushFragments slot n s) := by
  induction n generalizing s with
  | zero => exact Only.refl _ s
  | succ n ih =>
    unfold flushFragments
    repeat' (first
        | exact Only.refl _ _ | with_reducible refine Only.trans ?_ (ih _) | with_reducible refine Only.after (State.finishAsker_only ..) ?_ ?_
        | with_reducible decide | with_reducible refine Only.after (State.updJob_only ..) ?_ ?_
        | with_reducible refine Only.after (State.enqueue_only ..) ?_ ?_ | split)

theorem State.flushAll_only (s : State) : Only [.port, .jobs] s (State.flushAll s) := by
  unfold State.flushAll
  repeat' (first
      | with_reducible exact Only.refl _ _ | intro _ | with_reducible decide | with_reducible refine Only.after (flushFragments_only ..) ?_ ?_
      | with_reducible refine Only.trans ?_ (Only.foldl _ _ _ ?_))

theorem State.holdFragments_only (s : State) (a2) (a3) : Only [.port, .jobs] s (State.holdFragments s a2 a3) := by
  unfold State.holdFragments
  repeat' (first
      | with_reducible exact Only.refl _ _ | with_reducible decide | with_reducible refine Only.after (State.flushAll_only ..) ?_ ?_
      | with_reducible refine Only.after (State.updJob_only ..) ?_ ?_)

end Sys2Proof.Machine
end

