-- ==== Sys2Proof/Laws/State.lean ====
section
/-!
SUPPORT. What each named update of the state leaves as it was.
-/
set_option linter.unusedVariables false

namespace Sys2Proof.Machine
open Sys2Proof

/-! ### `State.setQueue` -/

@[simp] theorem State.setQueue_sessions (s : State) (q : Nat) (v : Queue) : (s.setQueue q v).sessions = s.sessions := rfl
@[simp] theorem State.setQueue_jobs (s : State) (q : Nat) (v : Queue) : (s.setQueue q v).jobs = s.jobs := rfl
@[simp] theorem State.setQueue_bring (s : State) (q : Nat) (v : Queue) : (s.setQueue q v).bring = s.bring := rfl
@[simp] theorem State.setQueue_power (s : State) (q : Nat) (v : Queue) : (s.setQueue q v).power = s.power := rfl
@[simp] theorem State.setQueue_day (s : State) (q : Nat) (v : Queue) : (s.setQueue q v).day = s.day := rfl
@[simp] theorem State.setQueue_flash (s : State) (q : Nat) (v : Queue) : (s.setQueue q v).flash = s.flash := rfl
@[simp] theorem State.setQueue_sec (s : State) (q : Nat) (v : Queue) : (s.setQueue q v).sec = s.sec := rfl
@[simp] theorem State.setQueue_seg (s : State) (q : Nat) (v : Queue) : (s.setQueue q v).seg = s.seg := rfl
@[simp] theorem State.setQueue_log (s : State) (q : Nat) (v : Queue) : (s.setQueue q v).log = s.log := rfl
@[simp] theorem State.setQueue_dict (s : State) (q : Nat) (v : Queue) : (s.setQueue q v).dict = s.dict := rfl
@[simp] theorem State.setQueue_blocks (s : State) (q : Nat) (v : Queue) : (s.setQueue q v).blocks = s.blocks := rfl
@[simp] theorem State.setQueue_abandoned (s : State) (q : Nat) (v : Queue) : (s.setQueue q v).abandoned = s.abandoned := rfl
@[simp] theorem State.setQueue_retainedWrites (s : State) (q : Nat) (v : Queue) : (s.setQueue q v).retainedWrites = s.retainedWrites := rfl
@[simp] theorem State.setQueue_baseStaged (s : State) (q : Nat) (v : Queue) : (s.setQueue q v).baseStaged = s.baseStaged := rfl
@[simp] theorem State.setQueue_tiers (s : State) (q : Nat) (v : Queue) : (s.setQueue q v).tiers = s.tiers := rfl
@[simp] theorem State.setQueue_dma (s : State) (q : Nat) (v : Queue) : (s.setQueue q v).dma = s.dma := rfl
@[simp] theorem State.setQueue_rel (s : State) (q : Nat) (v : Queue) : (s.setQueue q v).rel = s.rel := rfl
@[simp] theorem State.setQueue_fabric (s : State) (q : Nat) (v : Queue) : (s.setQueue q v).fabric = s.fabric := rfl
@[simp] theorem State.setQueue_tileUnits (s : State) (q : Nat) (v : Queue) : (s.setQueue q v).tileUnits = s.tileUnits := rfl
@[simp] theorem State.setQueue_spares (s : State) (q : Nat) (v : Queue) : (s.setQueue q v).spares = s.spares := rfl
@[simp] theorem State.setQueue_carrel (s : State) (q : Nat) (v : Queue) : (s.setQueue q v).carrel = s.carrel := rfl
@[simp] theorem State.setQueue_carrelPoison (s : State) (q : Nat) (v : Queue) : (s.setQueue q v).carrelPoison = s.carrelPoison := rfl
@[simp] theorem State.setQueue_traces (s : State) (q : Nat) (v : Queue) : (s.setQueue q v).traces = s.traces := rfl
@[simp] theorem State.setQueue_reply (s : State) (q : Nat) (v : Queue) : (s.setQueue q v).reply = s.reply := rfl
@[simp] theorem State.setQueue_draws (s : State) (q : Nat) (v : Queue) : (s.setQueue q v).draws = s.draws := rfl
@[simp] theorem State.setQueue_pending (s : State) (q : Nat) (v : Queue) : (s.setQueue q v).pending = s.pending := rfl

/-! ### `State.updQueue` -/

@[simp] theorem State.updQueue_sessions (s : State) (q : Nat) (f : Queue → Queue) : (s.updQueue q f).sessions = s.sessions := rfl
@[simp] theorem State.updQueue_jobs (s : State) (q : Nat) (f : Queue → Queue) : (s.updQueue q f).jobs = s.jobs := rfl
@[simp] theorem State.updQueue_bring (s : State) (q : Nat) (f : Queue → Queue) : (s.updQueue q f).bring = s.bring := rfl
@[simp] theorem State.updQueue_power (s : State) (q : Nat) (f : Queue → Queue) : (s.updQueue q f).power = s.power := rfl
@[simp] theorem State.updQueue_day (s : State) (q : Nat) (f : Queue → Queue) : (s.updQueue q f).day = s.day := rfl
@[simp] theorem State.updQueue_flash (s : State) (q : Nat) (f : Queue → Queue) : (s.updQueue q f).flash = s.flash := rfl
@[simp] theorem State.updQueue_sec (s : State) (q : Nat) (f : Queue → Queue) : (s.updQueue q f).sec = s.sec := rfl
@[simp] theorem State.updQueue_seg (s : State) (q : Nat) (f : Queue → Queue) : (s.updQueue q f).seg = s.seg := rfl
@[simp] theorem State.updQueue_log (s : State) (q : Nat) (f : Queue → Queue) : (s.updQueue q f).log = s.log := rfl
@[simp] theorem State.updQueue_dict (s : State) (q : Nat) (f : Queue → Queue) : (s.updQueue q f).dict = s.dict := rfl
@[simp] theorem State.updQueue_blocks (s : State) (q : Nat) (f : Queue → Queue) : (s.updQueue q f).blocks = s.blocks := rfl
@[simp] theorem State.updQueue_abandoned (s : State) (q : Nat) (f : Queue → Queue) : (s.updQueue q f).abandoned = s.abandoned := rfl
@[simp] theorem State.updQueue_retainedWrites (s : State) (q : Nat) (f : Queue → Queue) : (s.updQueue q f).retainedWrites = s.retainedWrites := rfl
@[simp] theorem State.updQueue_baseStaged (s : State) (q : Nat) (f : Queue → Queue) : (s.updQueue q f).baseStaged = s.baseStaged := rfl
@[simp] theorem State.updQueue_tiers (s : State) (q : Nat) (f : Queue → Queue) : (s.updQueue q f).tiers = s.tiers := rfl
@[simp] theorem State.updQueue_dma (s : State) (q : Nat) (f : Queue → Queue) : (s.updQueue q f).dma = s.dma := rfl
@[simp] theorem State.updQueue_rel (s : State) (q : Nat) (f : Queue → Queue) : (s.updQueue q f).rel = s.rel := rfl
@[simp] theorem State.updQueue_fabric (s : State) (q : Nat) (f : Queue → Queue) : (s.updQueue q f).fabric = s.fabric := rfl
@[simp] theorem State.updQueue_tileUnits (s : State) (q : Nat) (f : Queue → Queue) : (s.updQueue q f).tileUnits = s.tileUnits := rfl
@[simp] theorem State.updQueue_spares (s : State) (q : Nat) (f : Queue → Queue) : (s.updQueue q f).spares = s.spares := rfl
@[simp] theorem State.updQueue_carrel (s : State) (q : Nat) (f : Queue → Queue) : (s.updQueue q f).carrel = s.carrel := rfl
@[simp] theorem State.updQueue_carrelPoison (s : State) (q : Nat) (f : Queue → Queue) : (s.updQueue q f).carrelPoison = s.carrelPoison := rfl
@[simp] theorem State.updQueue_traces (s : State) (q : Nat) (f : Queue → Queue) : (s.updQueue q f).traces = s.traces := rfl
@[simp] theorem State.updQueue_reply (s : State) (q : Nat) (f : Queue → Queue) : (s.updQueue q f).reply = s.reply := rfl
@[simp] theorem State.updQueue_draws (s : State) (q : Nat) (f : Queue → Queue) : (s.updQueue q f).draws = s.draws := rfl
@[simp] theorem State.updQueue_pending (s : State) (q : Nat) (f : Queue → Queue) : (s.updQueue q f).pending = s.pending := rfl

/-! ### `State.mapQueues` -/

@[simp] theorem State.mapQueues_sessions (s : State) (f : Nat → Queue → Queue) : (s.mapQueues f).sessions = s.sessions := rfl
@[simp] theorem State.mapQueues_jobs (s : State) (f : Nat → Queue → Queue) : (s.mapQueues f).jobs = s.jobs := rfl
@[simp] theorem State.mapQueues_bring (s : State) (f : Nat → Queue → Queue) : (s.mapQueues f).bring = s.bring := rfl
@[simp] theorem State.mapQueues_power (s : State) (f : Nat → Queue → Queue) : (s.mapQueues f).power = s.power := rfl
@[simp] theorem State.mapQueues_day (s : State) (f : Nat → Queue → Queue) : (s.mapQueues f).day = s.day := rfl
@[simp] theorem State.mapQueues_flash (s : State) (f : Nat → Queue → Queue) : (s.mapQueues f).flash = s.flash := rfl
@[simp] theorem State.mapQueues_sec (s : State) (f : Nat → Queue → Queue) : (s.mapQueues f).sec = s.sec := rfl
@[simp] theorem State.mapQueues_seg (s : State) (f : Nat → Queue → Queue) : (s.mapQueues f).seg = s.seg := rfl
@[simp] theorem State.mapQueues_log (s : State) (f : Nat → Queue → Queue) : (s.mapQueues f).log = s.log := rfl
@[simp] theorem State.mapQueues_dict (s : State) (f : Nat → Queue → Queue) : (s.mapQueues f).dict = s.dict := rfl
@[simp] theorem State.mapQueues_blocks (s : State) (f : Nat → Queue → Queue) : (s.mapQueues f).blocks = s.blocks := rfl
@[simp] theorem State.mapQueues_abandoned (s : State) (f : Nat → Queue → Queue) : (s.mapQueues f).abandoned = s.abandoned := rfl
@[simp] theorem State.mapQueues_retainedWrites (s : State) (f : Nat → Queue → Queue) : (s.mapQueues f).retainedWrites = s.retainedWrites := rfl
@[simp] theorem State.mapQueues_baseStaged (s : State) (f : Nat → Queue → Queue) : (s.mapQueues f).baseStaged = s.baseStaged := rfl
@[simp] theorem State.mapQueues_tiers (s : State) (f : Nat → Queue → Queue) : (s.mapQueues f).tiers = s.tiers := rfl
@[simp] theorem State.mapQueues_dma (s : State) (f : Nat → Queue → Queue) : (s.mapQueues f).dma = s.dma := rfl
@[simp] theorem State.mapQueues_rel (s : State) (f : Nat → Queue → Queue) : (s.mapQueues f).rel = s.rel := rfl
@[simp] theorem State.mapQueues_fabric (s : State) (f : Nat → Queue → Queue) : (s.mapQueues f).fabric = s.fabric := rfl
@[simp] theorem State.mapQueues_tileUnits (s : State) (f : Nat → Queue → Queue) : (s.mapQueues f).tileUnits = s.tileUnits := rfl
@[simp] theorem State.mapQueues_spares (s : State) (f : Nat → Queue → Queue) : (s.mapQueues f).spares = s.spares := rfl
@[simp] theorem State.mapQueues_carrel (s : State) (f : Nat → Queue → Queue) : (s.mapQueues f).carrel = s.carrel := rfl
@[simp] theorem State.mapQueues_carrelPoison (s : State) (f : Nat → Queue → Queue) : (s.mapQueues f).carrelPoison = s.carrelPoison := rfl
@[simp] theorem State.mapQueues_traces (s : State) (f : Nat → Queue → Queue) : (s.mapQueues f).traces = s.traces := rfl
@[simp] theorem State.mapQueues_reply (s : State) (f : Nat → Queue → Queue) : (s.mapQueues f).reply = s.reply := rfl
@[simp] theorem State.mapQueues_draws (s : State) (f : Nat → Queue → Queue) : (s.mapQueues f).draws = s.draws := rfl
@[simp] theorem State.mapQueues_pending (s : State) (f : Nat → Queue → Queue) : (s.mapQueues f).pending = s.pending := rfl

/-! ### `State.updSession` -/

@[simp] theorem State.updSession_port (s : State) (id : Nat) (f : Session → Session) : (s.updSession id f).port = s.port := rfl
@[simp] theorem State.updSession_jobs (s : State) (id : Nat) (f : Session → Session) : (s.updSession id f).jobs = s.jobs := rfl
@[simp] theorem State.updSession_bring (s : State) (id : Nat) (f : Session → Session) : (s.updSession id f).bring = s.bring := rfl
@[simp] theorem State.updSession_power (s : State) (id : Nat) (f : Session → Session) : (s.updSession id f).power = s.power := rfl
@[simp] theorem State.updSession_day (s : State) (id : Nat) (f : Session → Session) : (s.updSession id f).day = s.day := rfl
@[simp] theorem State.updSession_flash (s : State) (id : Nat) (f : Session → Session) : (s.updSession id f).flash = s.flash := rfl
@[simp] theorem State.updSession_sec (s : State) (id : Nat) (f : Session → Session) : (s.updSession id f).sec = s.sec := rfl
@[simp] theorem State.updSession_seg (s : State) (id : Nat) (f : Session → Session) : (s.updSession id f).seg = s.seg := rfl
@[simp] theorem State.updSession_log (s : State) (id : Nat) (f : Session → Session) : (s.updSession id f).log = s.log := rfl
@[simp] theorem State.updSession_dict (s : State) (id : Nat) (f : Session → Session) : (s.updSession id f).dict = s.dict := rfl
@[simp] theorem State.updSession_blocks (s : State) (id : Nat) (f : Session → Session) : (s.updSession id f).blocks = s.blocks := rfl
@[simp] theorem State.updSession_abandoned (s : State) (id : Nat) (f : Session → Session) : (s.updSession id f).abandoned = s.abandoned := rfl
@[simp] theorem State.updSession_retainedWrites (s : State) (id : Nat) (f : Session → Session) : (s.updSession id f).retainedWrites = s.retainedWrites := rfl
@[simp] theorem State.updSession_baseStaged (s : State) (id : Nat) (f : Session → Session) : (s.updSession id f).baseStaged = s.baseStaged := rfl
@[simp] theorem State.updSession_tiers (s : State) (id : Nat) (f : Session → Session) : (s.updSession id f).tiers = s.tiers := rfl
@[simp] theorem State.updSession_dma (s : State) (id : Nat) (f : Session → Session) : (s.updSession id f).dma = s.dma := rfl
@[simp] theorem State.updSession_rel (s : State) (id : Nat) (f : Session → Session) : (s.updSession id f).rel = s.rel := rfl
@[simp] theorem State.updSession_fabric (s : State) (id : Nat) (f : Session → Session) : (s.updSession id f).fabric = s.fabric := rfl
@[simp] theorem State.updSession_tileUnits (s : State) (id : Nat) (f : Session → Session) : (s.updSession id f).tileUnits = s.tileUnits := rfl
@[simp] theorem State.updSession_spares (s : State) (id : Nat) (f : Session → Session) : (s.updSession id f).spares = s.spares := rfl
@[simp] theorem State.updSession_carrel (s : State) (id : Nat) (f : Session → Session) : (s.updSession id f).carrel = s.carrel := rfl
@[simp] theorem State.updSession_carrelPoison (s : State) (id : Nat) (f : Session → Session) : (s.updSession id f).carrelPoison = s.carrelPoison := rfl
@[simp] theorem State.updSession_traces (s : State) (id : Nat) (f : Session → Session) : (s.updSession id f).traces = s.traces := rfl
@[simp] theorem State.updSession_reply (s : State) (id : Nat) (f : Session → Session) : (s.updSession id f).reply = s.reply := rfl
@[simp] theorem State.updSession_draws (s : State) (id : Nat) (f : Session → Session) : (s.updSession id f).draws = s.draws := rfl
@[simp] theorem State.updSession_pending (s : State) (id : Nat) (f : Session → Session) : (s.updSession id f).pending = s.pending := rfl

/-! ### `State.updJob` -/

@[simp] theorem State.updJob_port (s : State) (slot : Nat) (f : Job → Job) : (s.updJob slot f).port = s.port := rfl
@[simp] theorem State.updJob_sessions (s : State) (slot : Nat) (f : Job → Job) : (s.updJob slot f).sessions = s.sessions := rfl
@[simp] theorem State.updJob_bring (s : State) (slot : Nat) (f : Job → Job) : (s.updJob slot f).bring = s.bring := rfl
@[simp] theorem State.updJob_power (s : State) (slot : Nat) (f : Job → Job) : (s.updJob slot f).power = s.power := rfl
@[simp] theorem State.updJob_day (s : State) (slot : Nat) (f : Job → Job) : (s.updJob slot f).day = s.day := rfl
@[simp] theorem State.updJob_flash (s : State) (slot : Nat) (f : Job → Job) : (s.updJob slot f).flash = s.flash := rfl
@[simp] theorem State.updJob_sec (s : State) (slot : Nat) (f : Job → Job) : (s.updJob slot f).sec = s.sec := rfl
@[simp] theorem State.updJob_seg (s : State) (slot : Nat) (f : Job → Job) : (s.updJob slot f).seg = s.seg := rfl
@[simp] theorem State.updJob_log (s : State) (slot : Nat) (f : Job → Job) : (s.updJob slot f).log = s.log := rfl
@[simp] theorem State.updJob_dict (s : State) (slot : Nat) (f : Job → Job) : (s.updJob slot f).dict = s.dict := rfl
@[simp] theorem State.updJob_blocks (s : State) (slot : Nat) (f : Job → Job) : (s.updJob slot f).blocks = s.blocks := rfl
@[simp] theorem State.updJob_abandoned (s : State) (slot : Nat) (f : Job → Job) : (s.updJob slot f).abandoned = s.abandoned := rfl
@[simp] theorem State.updJob_retainedWrites (s : State) (slot : Nat) (f : Job → Job) : (s.updJob slot f).retainedWrites = s.retainedWrites := rfl
@[simp] theorem State.updJob_baseStaged (s : State) (slot : Nat) (f : Job → Job) : (s.updJob slot f).baseStaged = s.baseStaged := rfl
@[simp] theorem State.updJob_tiers (s : State) (slot : Nat) (f : Job → Job) : (s.updJob slot f).tiers = s.tiers := rfl
@[simp] theorem State.updJob_dma (s : State) (slot : Nat) (f : Job → Job) : (s.updJob slot f).dma = s.dma := rfl
@[simp] theorem State.updJob_rel (s : State) (slot : Nat) (f : Job → Job) : (s.updJob slot f).rel = s.rel := rfl
@[simp] theorem State.updJob_fabric (s : State) (slot : Nat) (f : Job → Job) : (s.updJob slot f).fabric = s.fabric := rfl
@[simp] theorem State.updJob_tileUnits (s : State) (slot : Nat) (f : Job → Job) : (s.updJob slot f).tileUnits = s.tileUnits := rfl
@[simp] theorem State.updJob_spares (s : State) (slot : Nat) (f : Job → Job) : (s.updJob slot f).spares = s.spares := rfl
@[simp] theorem State.updJob_carrel (s : State) (slot : Nat) (f : Job → Job) : (s.updJob slot f).carrel = s.carrel := rfl
@[simp] theorem State.updJob_carrelPoison (s : State) (slot : Nat) (f : Job → Job) : (s.updJob slot f).carrelPoison = s.carrelPoison := rfl
@[simp] theorem State.updJob_traces (s : State) (slot : Nat) (f : Job → Job) : (s.updJob slot f).traces = s.traces := rfl
@[simp] theorem State.updJob_reply (s : State) (slot : Nat) (f : Job → Job) : (s.updJob slot f).reply = s.reply := rfl
@[simp] theorem State.updJob_draws (s : State) (slot : Nat) (f : Job → Job) : (s.updJob slot f).draws = s.draws := rfl
@[simp] theorem State.updJob_pending (s : State) (slot : Nat) (f : Job → Job) : (s.updJob slot f).pending = s.pending := rfl

/-! ### `State.setEntry` -/

@[simp] theorem State.setEntry_port (s : State) (index sub : Nat) (v : DVal) : (s.setEntry index sub v).port = s.port := rfl
@[simp] theorem State.setEntry_sessions (s : State) (index sub : Nat) (v : DVal) : (s.setEntry index sub v).sessions = s.sessions := rfl
@[simp] theorem State.setEntry_jobs (s : State) (index sub : Nat) (v : DVal) : (s.setEntry index sub v).jobs = s.jobs := rfl
@[simp] theorem State.setEntry_bring (s : State) (index sub : Nat) (v : DVal) : (s.setEntry index sub v).bring = s.bring := rfl
@[simp] theorem State.setEntry_power (s : State) (index sub : Nat) (v : DVal) : (s.setEntry index sub v).power = s.power := rfl
@[simp] theorem State.setEntry_day (s : State) (index sub : Nat) (v : DVal) : (s.setEntry index sub v).day = s.day := rfl
@[simp] theorem State.setEntry_flash (s : State) (index sub : Nat) (v : DVal) : (s.setEntry index sub v).flash = s.flash := rfl
@[simp] theorem State.setEntry_sec (s : State) (index sub : Nat) (v : DVal) : (s.setEntry index sub v).sec = s.sec := rfl
@[simp] theorem State.setEntry_seg (s : State) (index sub : Nat) (v : DVal) : (s.setEntry index sub v).seg = s.seg := rfl
@[simp] theorem State.setEntry_log (s : State) (index sub : Nat) (v : DVal) : (s.setEntry index sub v).log = s.log := rfl
@[simp] theorem State.setEntry_blocks (s : State) (index sub : Nat) (v : DVal) : (s.setEntry index sub v).blocks = s.blocks := rfl
@[simp] theorem State.setEntry_abandoned (s : State) (index sub : Nat) (v : DVal) : (s.setEntry index sub v).abandoned = s.abandoned := rfl
@[simp] theorem State.setEntry_retainedWrites (s : State) (index sub : Nat) (v : DVal) : (s.setEntry index sub v).retainedWrites = s.retainedWrites := rfl
@[simp] theorem State.setEntry_baseStaged (s : State) (index sub : Nat) (v : DVal) : (s.setEntry index sub v).baseStaged = s.baseStaged := rfl
@[simp] theorem State.setEntry_tiers (s : State) (index sub : Nat) (v : DVal) : (s.setEntry index sub v).tiers = s.tiers := rfl
@[simp] theorem State.setEntry_dma (s : State) (index sub : Nat) (v : DVal) : (s.setEntry index sub v).dma = s.dma := rfl
@[simp] theorem State.setEntry_rel (s : State) (index sub : Nat) (v : DVal) : (s.setEntry index sub v).rel = s.rel := rfl
@[simp] theorem State.setEntry_fabric (s : State) (index sub : Nat) (v : DVal) : (s.setEntry index sub v).fabric = s.fabric := rfl
@[simp] theorem State.setEntry_tileUnits (s : State) (index sub : Nat) (v : DVal) : (s.setEntry index sub v).tileUnits = s.tileUnits := rfl
@[simp] theorem State.setEntry_spares (s : State) (index sub : Nat) (v : DVal) : (s.setEntry index sub v).spares = s.spares := rfl
@[simp] theorem State.setEntry_carrel (s : State) (index sub : Nat) (v : DVal) : (s.setEntry index sub v).carrel = s.carrel := rfl
@[simp] theorem State.setEntry_carrelPoison (s : State) (index sub : Nat) (v : DVal) : (s.setEntry index sub v).carrelPoison = s.carrelPoison := rfl
@[simp] theorem State.setEntry_traces (s : State) (index sub : Nat) (v : DVal) : (s.setEntry index sub v).traces = s.traces := rfl
@[simp] theorem State.setEntry_reply (s : State) (index sub : Nat) (v : DVal) : (s.setEntry index sub v).reply = s.reply := rfl
@[simp] theorem State.setEntry_draws (s : State) (index sub : Nat) (v : DVal) : (s.setEntry index sub v).draws = s.draws := rfl
@[simp] theorem State.setEntry_pending (s : State) (index sub : Nat) (v : DVal) : (s.setEntry index sub v).pending = s.pending := rfl

/-! ### `State.setNum` -/

@[simp] theorem State.setNum_port (s : State) (index sub n : Nat) : (s.setNum index sub n).port = s.port := rfl
@[simp] theorem State.setNum_sessions (s : State) (index sub n : Nat) : (s.setNum index sub n).sessions = s.sessions := rfl
@[simp] theorem State.setNum_jobs (s : State) (index sub n : Nat) : (s.setNum index sub n).jobs = s.jobs := rfl
@[simp] theorem State.setNum_bring (s : State) (index sub n : Nat) : (s.setNum index sub n).bring = s.bring := rfl
@[simp] theorem State.setNum_power (s : State) (index sub n : Nat) : (s.setNum index sub n).power = s.power := rfl
@[simp] theorem State.setNum_day (s : State) (index sub n : Nat) : (s.setNum index sub n).day = s.day := rfl
@[simp] theorem State.setNum_flash (s : State) (index sub n : Nat) : (s.setNum index sub n).flash = s.flash := rfl
@[simp] theorem State.setNum_sec (s : State) (index sub n : Nat) : (s.setNum index sub n).sec = s.sec := rfl
@[simp] theorem State.setNum_seg (s : State) (index sub n : Nat) : (s.setNum index sub n).seg = s.seg := rfl
@[simp] theorem State.setNum_log (s : State) (index sub n : Nat) : (s.setNum index sub n).log = s.log := rfl
@[simp] theorem State.setNum_blocks (s : State) (index sub n : Nat) : (s.setNum index sub n).blocks = s.blocks := rfl
@[simp] theorem State.setNum_abandoned (s : State) (index sub n : Nat) : (s.setNum index sub n).abandoned = s.abandoned := rfl
@[simp] theorem State.setNum_retainedWrites (s : State) (index sub n : Nat) : (s.setNum index sub n).retainedWrites = s.retainedWrites := rfl
@[simp] theorem State.setNum_baseStaged (s : State) (index sub n : Nat) : (s.setNum index sub n).baseStaged = s.baseStaged := rfl
@[simp] theorem State.setNum_tiers (s : State) (index sub n : Nat) : (s.setNum index sub n).tiers = s.tiers := rfl
@[simp] theorem State.setNum_dma (s : State) (index sub n : Nat) : (s.setNum index sub n).dma = s.dma := rfl
@[simp] theorem State.setNum_rel (s : State) (index sub n : Nat) : (s.setNum index sub n).rel = s.rel := rfl
@[simp] theorem State.setNum_fabric (s : State) (index sub n : Nat) : (s.setNum index sub n).fabric = s.fabric := rfl
@[simp] theorem State.setNum_tileUnits (s : State) (index sub n : Nat) : (s.setNum index sub n).tileUnits = s.tileUnits := rfl
@[simp] theorem State.setNum_spares (s : State) (index sub n : Nat) : (s.setNum index sub n).spares = s.spares := rfl
@[simp] theorem State.setNum_carrel (s : State) (index sub n : Nat) : (s.setNum index sub n).carrel = s.carrel := rfl
@[simp] theorem State.setNum_carrelPoison (s : State) (index sub n : Nat) : (s.setNum index sub n).carrelPoison = s.carrelPoison := rfl
@[simp] theorem State.setNum_traces (s : State) (index sub n : Nat) : (s.setNum index sub n).traces = s.traces := rfl
@[simp] theorem State.setNum_reply (s : State) (index sub n : Nat) : (s.setNum index sub n).reply = s.reply := rfl
@[simp] theorem State.setNum_draws (s : State) (index sub n : Nat) : (s.setNum index sub n).draws = s.draws := rfl
@[simp] theorem State.setNum_pending (s : State) (index sub n : Nat) : (s.setNum index sub n).pending = s.pending := rfl

/-! ### `State.add` -/

@[simp] theorem State.add_port (s : State) (index sub n : Nat) : (s.add index sub n).port = s.port := rfl
@[simp] theorem State.add_sessions (s : State) (index sub n : Nat) : (s.add index sub n).sessions = s.sessions := rfl
@[simp] theorem State.add_jobs (s : State) (index sub n : Nat) : (s.add index sub n).jobs = s.jobs := rfl
@[simp] theorem State.add_bring (s : State) (index sub n : Nat) : (s.add index sub n).bring = s.bring := rfl
@[simp] theorem State.add_power (s : State) (index sub n : Nat) : (s.add index sub n).power = s.power := rfl
@[simp] theorem State.add_day (s : State) (index sub n : Nat) : (s.add index sub n).day = s.day := rfl
@[simp] theorem State.add_flash (s : State) (index sub n : Nat) : (s.add index sub n).flash = s.flash := rfl
@[simp] theorem State.add_sec (s : State) (index sub n : Nat) : (s.add index sub n).sec = s.sec := rfl
@[simp] theorem State.add_seg (s : State) (index sub n : Nat) : (s.add index sub n).seg = s.seg := rfl
@[simp] theorem State.add_log (s : State) (index sub n : Nat) : (s.add index sub n).log = s.log := rfl
@[simp] theorem State.add_blocks (s : State) (index sub n : Nat) : (s.add index sub n).blocks = s.blocks := rfl
@[simp] theorem State.add_abandoned (s : State) (index sub n : Nat) : (s.add index sub n).abandoned = s.abandoned := rfl
@[simp] theorem State.add_retainedWrites (s : State) (index sub n : Nat) : (s.add index sub n).retainedWrites = s.retainedWrites := rfl
@[simp] theorem State.add_baseStaged (s : State) (index sub n : Nat) : (s.add index sub n).baseStaged = s.baseStaged := rfl
@[simp] theorem State.add_tiers (s : State) (index sub n : Nat) : (s.add index sub n).tiers = s.tiers := rfl
@[simp] theorem State.add_dma (s : State) (index sub n : Nat) : (s.add index sub n).dma = s.dma := rfl
@[simp] theorem State.add_rel (s : State) (index sub n : Nat) : (s.add index sub n).rel = s.rel := rfl
@[simp] theorem State.add_fabric (s : State) (index sub n : Nat) : (s.add index sub n).fabric = s.fabric := rfl
@[simp] theorem State.add_tileUnits (s : State) (index sub n : Nat) : (s.add index sub n).tileUnits = s.tileUnits := rfl
@[simp] theorem State.add_spares (s : State) (index sub n : Nat) : (s.add index sub n).spares = s.spares := rfl
@[simp] theorem State.add_carrel (s : State) (index sub n : Nat) : (s.add index sub n).carrel = s.carrel := rfl
@[simp] theorem State.add_carrelPoison (s : State) (index sub n : Nat) : (s.add index sub n).carrelPoison = s.carrelPoison := rfl
@[simp] theorem State.add_traces (s : State) (index sub n : Nat) : (s.add index sub n).traces = s.traces := rfl
@[simp] theorem State.add_reply (s : State) (index sub n : Nat) : (s.add index sub n).reply = s.reply := rfl
@[simp] theorem State.add_draws (s : State) (index sub n : Nat) : (s.add index sub n).draws = s.draws := rfl
@[simp] theorem State.add_pending (s : State) (index sub n : Nat) : (s.add index sub n).pending = s.pending := rfl

/-! ### `State.updInFlight` -/

@[simp] theorem State.updInFlight_sessions (s : State) (session queue seq : Nat) (g : InFlight → InFlight) : (s.updInFlight session queue seq g).sessions = s.sessions := rfl
@[simp] theorem State.updInFlight_jobs (s : State) (session queue seq : Nat) (g : InFlight → InFlight) : (s.updInFlight session queue seq g).jobs = s.jobs := rfl
@[simp] theorem State.updInFlight_bring (s : State) (session queue seq : Nat) (g : InFlight → InFlight) : (s.updInFlight session queue seq g).bring = s.bring := rfl
@[simp] theorem State.updInFlight_power (s : State) (session queue seq : Nat) (g : InFlight → InFlight) : (s.updInFlight session queue seq g).power = s.power := rfl
@[simp] theorem State.updInFlight_day (s : State) (session queue seq : Nat) (g : InFlight → InFlight) : (s.updInFlight session queue seq g).day = s.day := rfl
@[simp] theorem State.updInFlight_flash (s : State) (session queue seq : Nat) (g : InFlight → InFlight) : (s.updInFlight session queue seq g).flash = s.flash := rfl
@[simp] theorem State.updInFlight_sec (s : State) (session queue seq : Nat) (g : InFlight → InFlight) : (s.updInFlight session queue seq g).sec = s.sec := rfl
@[simp] theorem State.updInFlight_seg (s : State) (session queue seq : Nat) (g : InFlight → InFlight) : (s.updInFlight session queue seq g).seg = s.seg := rfl
@[simp] theorem State.updInFlight_log (s : State) (session queue seq : Nat) (g : InFlight → InFlight) : (s.updInFlight session queue seq g).log = s.log := rfl
@[simp] theorem State.updInFlight_dict (s : State) (session queue seq : Nat) (g : InFlight → InFlight) : (s.updInFlight session queue seq g).dict = s.dict := rfl
@[simp] theorem State.updInFlight_blocks (s : State) (session queue seq : Nat) (g : InFlight → InFlight) : (s.updInFlight session queue seq g).blocks = s.blocks := rfl
@[simp] theorem State.updInFlight_abandoned (s : State) (session queue seq : Nat) (g : InFlight → InFlight) : (s.updInFlight session queue seq g).abandoned = s.abandoned := rfl
@[simp] theorem State.updInFlight_retainedWrites (s : State) (session queue seq : Nat) (g : InFlight → InFlight) : (s.updInFlight session queue seq g).retainedWrites = s.retainedWrites := rfl
@[simp] theorem State.updInFlight_baseStaged (s : State) (session queue seq : Nat) (g : InFlight → InFlight) : (s.updInFlight session queue seq g).baseStaged = s.baseStaged := rfl
@[simp] theorem State.updInFlight_tiers (s : State) (session queue seq : Nat) (g : InFlight → InFlight) : (s.updInFlight session queue seq g).tiers = s.tiers := rfl
@[simp] theorem State.updInFlight_dma (s : State) (session queue seq : Nat) (g : InFlight → InFlight) : (s.updInFlight session queue seq g).dma = s.dma := rfl
@[simp] theorem State.updInFlight_rel (s : State) (session queue seq : Nat) (g : InFlight → InFlight) : (s.updInFlight session queue seq g).rel = s.rel := rfl
@[simp] theorem State.updInFlight_fabric (s : State) (session queue seq : Nat) (g : InFlight → InFlight) : (s.updInFlight session queue seq g).fabric = s.fabric := rfl
@[simp] theorem State.updInFlight_tileUnits (s : State) (session queue seq : Nat) (g : InFlight → InFlight) : (s.updInFlight session queue seq g).tileUnits = s.tileUnits := rfl
@[simp] theorem State.updInFlight_spares (s : State) (session queue seq : Nat) (g : InFlight → InFlight) : (s.updInFlight session queue seq g).spares = s.spares := rfl
@[simp] theorem State.updInFlight_carrel (s : State) (session queue seq : Nat) (g : InFlight → InFlight) : (s.updInFlight session queue seq g).carrel = s.carrel := rfl
@[simp] theorem State.updInFlight_carrelPoison (s : State) (session queue seq : Nat) (g : InFlight → InFlight) : (s.updInFlight session queue seq g).carrelPoison = s.carrelPoison := rfl
@[simp] theorem State.updInFlight_traces (s : State) (session queue seq : Nat) (g : InFlight → InFlight) : (s.updInFlight session queue seq g).traces = s.traces := rfl
@[simp] theorem State.updInFlight_reply (s : State) (session queue seq : Nat) (g : InFlight → InFlight) : (s.updInFlight session queue seq g).reply = s.reply := rfl
@[simp] theorem State.updInFlight_draws (s : State) (session queue seq : Nat) (g : InFlight → InFlight) : (s.updInFlight session queue seq g).draws = s.draws := rfl
@[simp] theorem State.updInFlight_pending (s : State) (session queue seq : Nat) (g : InFlight → InFlight) : (s.updInFlight session queue seq g).pending = s.pending := rfl

/-! ### `State.dropInFlight` -/

@[simp] theorem State.dropInFlight_sessions (s : State) (session queue seq : Nat) : (s.dropInFlight session queue seq).sessions = s.sessions := rfl
@[simp] theorem State.dropInFlight_jobs (s : State) (session queue seq : Nat) : (s.dropInFlight session queue seq).jobs = s.jobs := rfl
@[simp] theorem State.dropInFlight_bring (s : State) (session queue seq : Nat) : (s.dropInFlight session queue seq).bring = s.bring := rfl
@[simp] theorem State.dropInFlight_power (s : State) (session queue seq : Nat) : (s.dropInFlight session queue seq).power = s.power := rfl
@[simp] theorem State.dropInFlight_day (s : State) (session queue seq : Nat) : (s.dropInFlight session queue seq).day = s.day := rfl
@[simp] theorem State.dropInFlight_flash (s : State) (session queue seq : Nat) : (s.dropInFlight session queue seq).flash = s.flash := rfl
@[simp] theorem State.dropInFlight_sec (s : State) (session queue seq : Nat) : (s.dropInFlight session queue seq).sec = s.sec := rfl
@[simp] theorem State.dropInFlight_seg (s : State) (session queue seq : Nat) : (s.dropInFlight session queue seq).seg = s.seg := rfl
@[simp] theorem State.dropInFlight_log (s : State) (session queue seq : Nat) : (s.dropInFlight session queue seq).log = s.log := rfl
@[simp] theorem State.dropInFlight_dict (s : State) (session queue seq : Nat) : (s.dropInFlight session queue seq).dict = s.dict := rfl
@[simp] theorem State.dropInFlight_blocks (s : State) (session queue seq : Nat) : (s.dropInFlight session queue seq).blocks = s.blocks := rfl
@[simp] theorem State.dropInFlight_abandoned (s : State) (session queue seq : Nat) : (s.dropInFlight session queue seq).abandoned = s.abandoned := rfl
@[simp] theorem State.dropInFlight_retainedWrites (s : State) (session queue seq : Nat) : (s.dropInFlight session queue seq).retainedWrites = s.retainedWrites := rfl
@[simp] theorem State.dropInFlight_baseStaged (s : State) (session queue seq : Nat) : (s.dropInFlight session queue seq).baseStaged = s.baseStaged := rfl
@[simp] theorem State.dropInFlight_tiers (s : State) (session queue seq : Nat) : (s.dropInFlight session queue seq).tiers = s.tiers := rfl
@[simp] theorem State.dropInFlight_dma (s : State) (session queue seq : Nat) : (s.dropInFlight session queue seq).dma = s.dma := rfl
@[simp] theorem State.dropInFlight_rel (s : State) (session queue seq : Nat) : (s.dropInFlight session queue seq).rel = s.rel := rfl
@[simp] theorem State.dropInFlight_fabric (s : State) (session queue seq : Nat) : (s.dropInFlight session queue seq).fabric = s.fabric := rfl
@[simp] theorem State.dropInFlight_tileUnits (s : State) (session queue seq : Nat) : (s.dropInFlight session queue seq).tileUnits = s.tileUnits := rfl
@[simp] theorem State.dropInFlight_spares (s : State) (session queue seq : Nat) : (s.dropInFlight session queue seq).spares = s.spares := rfl
@[simp] theorem State.dropInFlight_carrel (s : State) (session queue seq : Nat) : (s.dropInFlight session queue seq).carrel = s.carrel := rfl
@[simp] theorem State.dropInFlight_carrelPoison (s : State) (session queue seq : Nat) : (s.dropInFlight session queue seq).carrelPoison = s.carrelPoison := rfl
@[simp] theorem State.dropInFlight_traces (s : State) (session queue seq : Nat) : (s.dropInFlight session queue seq).traces = s.traces := rfl
@[simp] theorem State.dropInFlight_reply (s : State) (session queue seq : Nat) : (s.dropInFlight session queue seq).reply = s.reply := rfl
@[simp] theorem State.dropInFlight_draws (s : State) (session queue seq : Nat) : (s.dropInFlight session queue seq).draws = s.draws := rfl
@[simp] theorem State.dropInFlight_pending (s : State) (session queue seq : Nat) : (s.dropInFlight session queue seq).pending = s.pending := rfl

/-! ### `State.setChan` -/

@[simp] theorem State.setChan_port (s : State) (c : Nat) (x : Channel) : (s.setChan c x).port = s.port := rfl
@[simp] theorem State.setChan_sessions (s : State) (c : Nat) (x : Channel) : (s.setChan c x).sessions = s.sessions := rfl
@[simp] theorem State.setChan_jobs (s : State) (c : Nat) (x : Channel) : (s.setChan c x).jobs = s.jobs := rfl
@[simp] theorem State.setChan_bring (s : State) (c : Nat) (x : Channel) : (s.setChan c x).bring = s.bring := rfl
@[simp] theorem State.setChan_power (s : State) (c : Nat) (x : Channel) : (s.setChan c x).power = s.power := rfl
@[simp] theorem State.setChan_day (s : State) (c : Nat) (x : Channel) : (s.setChan c x).day = s.day := rfl
@[simp] theorem State.setChan_flash (s : State) (c : Nat) (x : Channel) : (s.setChan c x).flash = s.flash := rfl
@[simp] theorem State.setChan_sec (s : State) (c : Nat) (x : Channel) : (s.setChan c x).sec = s.sec := rfl
@[simp] theorem State.setChan_seg (s : State) (c : Nat) (x : Channel) : (s.setChan c x).seg = s.seg := rfl
@[simp] theorem State.setChan_log (s : State) (c : Nat) (x : Channel) : (s.setChan c x).log = s.log := rfl
@[simp] theorem State.setChan_dict (s : State) (c : Nat) (x : Channel) : (s.setChan c x).dict = s.dict := rfl
@[simp] theorem State.setChan_blocks (s : State) (c : Nat) (x : Channel) : (s.setChan c x).blocks = s.blocks := rfl
@[simp] theorem State.setChan_abandoned (s : State) (c : Nat) (x : Channel) : (s.setChan c x).abandoned = s.abandoned := rfl
@[simp] theorem State.setChan_retainedWrites (s : State) (c : Nat) (x : Channel) : (s.setChan c x).retainedWrites = s.retainedWrites := rfl
@[simp] theorem State.setChan_baseStaged (s : State) (c : Nat) (x : Channel) : (s.setChan c x).baseStaged = s.baseStaged := rfl
@[simp] theorem State.setChan_tiers (s : State) (c : Nat) (x : Channel) : (s.setChan c x).tiers = s.tiers := rfl
@[simp] theorem State.setChan_rel (s : State) (c : Nat) (x : Channel) : (s.setChan c x).rel = s.rel := rfl
@[simp] theorem State.setChan_fabric (s : State) (c : Nat) (x : Channel) : (s.setChan c x).fabric = s.fabric := rfl
@[simp] theorem State.setChan_tileUnits (s : State) (c : Nat) (x : Channel) : (s.setChan c x).tileUnits = s.tileUnits := rfl
@[simp] theorem State.setChan_spares (s : State) (c : Nat) (x : Channel) : (s.setChan c x).spares = s.spares := rfl
@[simp] theorem State.setChan_carrel (s : State) (c : Nat) (x : Channel) : (s.setChan c x).carrel = s.carrel := rfl
@[simp] theorem State.setChan_carrelPoison (s : State) (c : Nat) (x : Channel) : (s.setChan c x).carrelPoison = s.carrelPoison := rfl
@[simp] theorem State.setChan_traces (s : State) (c : Nat) (x : Channel) : (s.setChan c x).traces = s.traces := rfl
@[simp] theorem State.setChan_reply (s : State) (c : Nat) (x : Channel) : (s.setChan c x).reply = s.reply := rfl
@[simp] theorem State.setChan_draws (s : State) (c : Nat) (x : Channel) : (s.setChan c x).draws = s.draws := rfl
@[simp] theorem State.setChan_pending (s : State) (c : Nat) (x : Channel) : (s.setChan c x).pending = s.pending := rfl

/-! ### `State.setSuesh` -/

@[simp] theorem State.setSuesh_port (s : State) (p : Nat) (x : Suesh) : (s.setSuesh p x).port = s.port := rfl
@[simp] theorem State.setSuesh_sessions (s : State) (p : Nat) (x : Suesh) : (s.setSuesh p x).sessions = s.sessions := rfl
@[simp] theorem State.setSuesh_jobs (s : State) (p : Nat) (x : Suesh) : (s.setSuesh p x).jobs = s.jobs := rfl
@[simp] theorem State.setSuesh_bring (s : State) (p : Nat) (x : Suesh) : (s.setSuesh p x).bring = s.bring := rfl
@[simp] theorem State.setSuesh_power (s : State) (p : Nat) (x : Suesh) : (s.setSuesh p x).power = s.power := rfl
@[simp] theorem State.setSuesh_day (s : State) (p : Nat) (x : Suesh) : (s.setSuesh p x).day = s.day := rfl
@[simp] theorem State.setSuesh_flash (s : State) (p : Nat) (x : Suesh) : (s.setSuesh p x).flash = s.flash := rfl
@[simp] theorem State.setSuesh_sec (s : State) (p : Nat) (x : Suesh) : (s.setSuesh p x).sec = s.sec := rfl
@[simp] theorem State.setSuesh_seg (s : State) (p : Nat) (x : Suesh) : (s.setSuesh p x).seg = s.seg := rfl
@[simp] theorem State.setSuesh_log (s : State) (p : Nat) (x : Suesh) : (s.setSuesh p x).log = s.log := rfl
@[simp] theorem State.setSuesh_dict (s : State) (p : Nat) (x : Suesh) : (s.setSuesh p x).dict = s.dict := rfl
@[simp] theorem State.setSuesh_blocks (s : State) (p : Nat) (x : Suesh) : (s.setSuesh p x).blocks = s.blocks := rfl
@[simp] theorem State.setSuesh_abandoned (s : State) (p : Nat) (x : Suesh) : (s.setSuesh p x).abandoned = s.abandoned := rfl
@[simp] theorem State.setSuesh_retainedWrites (s : State) (p : Nat) (x : Suesh) : (s.setSuesh p x).retainedWrites = s.retainedWrites := rfl
@[simp] theorem State.setSuesh_baseStaged (s : State) (p : Nat) (x : Suesh) : (s.setSuesh p x).baseStaged = s.baseStaged := rfl
@[simp] theorem State.setSuesh_tiers (s : State) (p : Nat) (x : Suesh) : (s.setSuesh p x).tiers = s.tiers := rfl
@[simp] theorem State.setSuesh_dma (s : State) (p : Nat) (x : Suesh) : (s.setSuesh p x).dma = s.dma := rfl
@[simp] theorem State.setSuesh_rel (s : State) (p : Nat) (x : Suesh) : (s.setSuesh p x).rel = s.rel := rfl
@[simp] theorem State.setSuesh_tileUnits (s : State) (p : Nat) (x : Suesh) : (s.setSuesh p x).tileUnits = s.tileUnits := rfl
@[simp] theorem State.setSuesh_spares (s : State) (p : Nat) (x : Suesh) : (s.setSuesh p x).spares = s.spares := rfl
@[simp] theorem State.setSuesh_carrel (s : State) (p : Nat) (x : Suesh) : (s.setSuesh p x).carrel = s.carrel := rfl
@[simp] theorem State.setSuesh_carrelPoison (s : State) (p : Nat) (x : Suesh) : (s.setSuesh p x).carrelPoison = s.carrelPoison := rfl
@[simp] theorem State.setSuesh_traces (s : State) (p : Nat) (x : Suesh) : (s.setSuesh p x).traces = s.traces := rfl
@[simp] theorem State.setSuesh_reply (s : State) (p : Nat) (x : Suesh) : (s.setSuesh p x).reply = s.reply := rfl
@[simp] theorem State.setSuesh_draws (s : State) (p : Nat) (x : Suesh) : (s.setSuesh p x).draws = s.draws := rfl
@[simp] theorem State.setSuesh_pending (s : State) (p : Nat) (x : Suesh) : (s.setSuesh p x).pending = s.pending := rfl

/-! ### `State.updAssoc` -/

@[simp] theorem State.updAssoc_port (s : State) (peer : Nat) (f : Assoc → Assoc) : (s.updAssoc peer f).port = s.port := rfl
@[simp] theorem State.updAssoc_sessions (s : State) (peer : Nat) (f : Assoc → Assoc) : (s.updAssoc peer f).sessions = s.sessions := rfl
@[simp] theorem State.updAssoc_jobs (s : State) (peer : Nat) (f : Assoc → Assoc) : (s.updAssoc peer f).jobs = s.jobs := rfl
@[simp] theorem State.updAssoc_bring (s : State) (peer : Nat) (f : Assoc → Assoc) : (s.updAssoc peer f).bring = s.bring := rfl
@[simp] theorem State.updAssoc_power (s : State) (peer : Nat) (f : Assoc → Assoc) : (s.updAssoc peer f).power = s.power := rfl
@[simp] theorem State.updAssoc_day (s : State) (peer : Nat) (f : Assoc → Assoc) : (s.updAssoc peer f).day = s.day := rfl
@[simp] theorem State.updAssoc_flash (s : State) (peer : Nat) (f : Assoc → Assoc) : (s.updAssoc peer f).flash = s.flash := rfl
@[simp] theorem State.updAssoc_sec (s : State) (peer : Nat) (f : Assoc → Assoc) : (s.updAssoc peer f).sec = s.sec := rfl
@[simp] theorem State.updAssoc_seg (s : State) (peer : Nat) (f : Assoc → Assoc) : (s.updAssoc peer f).seg = s.seg := rfl
@[simp] theorem State.updAssoc_log (s : State) (peer : Nat) (f : Assoc → Assoc) : (s.updAssoc peer f).log = s.log := rfl
@[simp] theorem State.updAssoc_dict (s : State) (peer : Nat) (f : Assoc → Assoc) : (s.updAssoc peer f).dict = s.dict := rfl
@[simp] theorem State.updAssoc_blocks (s : State) (peer : Nat) (f : Assoc → Assoc) : (s.updAssoc peer f).blocks = s.blocks := rfl
@[simp] theorem State.updAssoc_abandoned (s : State) (peer : Nat) (f : Assoc → Assoc) : (s.updAssoc peer f).abandoned = s.abandoned := rfl
@[simp] theorem State.updAssoc_retainedWrites (s : State) (peer : Nat) (f : Assoc → Assoc) : (s.updAssoc peer f).retainedWrites = s.retainedWrites := rfl
@[simp] theorem State.updAssoc_baseStaged (s : State) (peer : Nat) (f : Assoc → Assoc) : (s.updAssoc peer f).baseStaged = s.baseStaged := rfl
@[simp] theorem State.updAssoc_tiers (s : State) (peer : Nat) (f : Assoc → Assoc) : (s.updAssoc peer f).tiers = s.tiers := rfl
@[simp] theorem State.updAssoc_dma (s : State) (peer : Nat) (f : Assoc → Assoc) : (s.updAssoc peer f).dma = s.dma := rfl
@[simp] theorem State.updAssoc_rel (s : State) (peer : Nat) (f : Assoc → Assoc) : (s.updAssoc peer f).rel = s.rel := rfl
@[simp] theorem State.updAssoc_tileUnits (s : State) (peer : Nat) (f : Assoc → Assoc) : (s.updAssoc peer f).tileUnits = s.tileUnits := rfl
@[simp] theorem State.updAssoc_spares (s : State) (peer : Nat) (f : Assoc → Assoc) : (s.updAssoc peer f).spares = s.spares := rfl
@[simp] theorem State.updAssoc_carrel (s : State) (peer : Nat) (f : Assoc → Assoc) : (s.updAssoc peer f).carrel = s.carrel := rfl
@[simp] theorem State.updAssoc_carrelPoison (s : State) (peer : Nat) (f : Assoc → Assoc) : (s.updAssoc peer f).carrelPoison = s.carrelPoison := rfl
@[simp] theorem State.updAssoc_traces (s : State) (peer : Nat) (f : Assoc → Assoc) : (s.updAssoc peer f).traces = s.traces := rfl
@[simp] theorem State.updAssoc_reply (s : State) (peer : Nat) (f : Assoc → Assoc) : (s.updAssoc peer f).reply = s.reply := rfl
@[simp] theorem State.updAssoc_draws (s : State) (peer : Nat) (f : Assoc → Assoc) : (s.updAssoc peer f).draws = s.draws := rfl
@[simp] theorem State.updAssoc_pending (s : State) (peer : Nat) (f : Assoc → Assoc) : (s.updAssoc peer f).pending = s.pending := rfl

/-! ### `State.updStep` -/

@[simp] theorem State.updStep_port (s : State) (slot n : Nat) (f : StepRec → StepRec) : (s.updStep slot n f).port = s.port := rfl
@[simp] theorem State.updStep_sessions (s : State) (slot n : Nat) (f : StepRec → StepRec) : (s.updStep slot n f).sessions = s.sessions := rfl
@[simp] theorem State.updStep_bring (s : State) (slot n : Nat) (f : StepRec → StepRec) : (s.updStep slot n f).bring = s.bring := rfl
@[simp] theorem State.updStep_power (s : State) (slot n : Nat) (f : StepRec → StepRec) : (s.updStep slot n f).power = s.power := rfl
@[simp] theorem State.updStep_day (s : State) (slot n : Nat) (f : StepRec → StepRec) : (s.updStep slot n f).day = s.day := rfl
@[simp] theorem State.updStep_flash (s : State) (slot n : Nat) (f : StepRec → StepRec) : (s.updStep slot n f).flash = s.flash := rfl
@[simp] theorem State.updStep_sec (s : State) (slot n : Nat) (f : StepRec → StepRec) : (s.updStep slot n f).sec = s.sec := rfl
@[simp] theorem State.updStep_seg (s : State) (slot n : Nat) (f : StepRec → StepRec) : (s.updStep slot n f).seg = s.seg := rfl
@[simp] theorem State.updStep_log (s : State) (slot n : Nat) (f : StepRec → StepRec) : (s.updStep slot n f).log = s.log := rfl
@[simp] theorem State.updStep_dict (s : State) (slot n : Nat) (f : StepRec → StepRec) : (s.updStep slot n f).dict = s.dict := rfl
@[simp] theorem State.updStep_blocks (s : State) (slot n : Nat) (f : StepRec → StepRec) : (s.updStep slot n f).blocks = s.blocks := rfl
@[simp] theorem State.updStep_abandoned (s : State) (slot n : Nat) (f : StepRec → StepRec) : (s.updStep slot n f).abandoned = s.abandoned := rfl
@[simp] theorem State.updStep_retainedWrites (s : State) (slot n : Nat) (f : StepRec → StepRec) : (s.updStep slot n f).retainedWrites = s.retainedWrites := rfl
@[simp] theorem State.updStep_baseStaged (s : State) (slot n : Nat) (f : StepRec → StepRec) : (s.updStep slot n f).baseStaged = s.baseStaged := rfl
@[simp] theorem State.updStep_tiers (s : State) (slot n : Nat) (f : StepRec → StepRec) : (s.updStep slot n f).tiers = s.tiers := rfl
@[simp] theorem State.updStep_dma (s : State) (slot n : Nat) (f : StepRec → StepRec) : (s.updStep slot n f).dma = s.dma := rfl
@[simp] theorem State.updStep_rel (s : State) (slot n : Nat) (f : StepRec → StepRec) : (s.updStep slot n f).rel = s.rel := rfl
@[simp] theorem State.updStep_fabric (s : State) (slot n : Nat) (f : StepRec → StepRec) : (s.updStep slot n f).fabric = s.fabric := rfl
@[simp] theorem State.updStep_tileUnits (s : State) (slot n : Nat) (f : StepRec → StepRec) : (s.updStep slot n f).tileUnits = s.tileUnits := rfl
@[simp] theorem State.updStep_spares (s : State) (slot n : Nat) (f : StepRec → StepRec) : (s.updStep slot n f).spares = s.spares := rfl
@[simp] theorem State.updStep_carrel (s : State) (slot n : Nat) (f : StepRec → StepRec) : (s.updStep slot n f).carrel = s.carrel := rfl
@[simp] theorem State.updStep_carrelPoison (s : State) (slot n : Nat) (f : StepRec → StepRec) : (s.updStep slot n f).carrelPoison = s.carrelPoison := rfl
@[simp] theorem State.updStep_traces (s : State) (slot n : Nat) (f : StepRec → StepRec) : (s.updStep slot n f).traces = s.traces := rfl
@[simp] theorem State.updStep_reply (s : State) (slot n : Nat) (f : StepRec → StepRec) : (s.updStep slot n f).reply = s.reply := rfl
@[simp] theorem State.updStep_draws (s : State) (slot n : Nat) (f : StepRec → StepRec) : (s.updStep slot n f).draws = s.draws := rfl
@[simp] theorem State.updStep_pending (s : State) (slot n : Nat) (f : StepRec → StepRec) : (s.updStep slot n f).pending = s.pending := rfl

/-! ### `State.updBody` -/

@[simp] theorem State.updBody_port (s : State) (slot : Nat) (f : JobBody → JobBody) : (s.updBody slot f).port = s.port := rfl
@[simp] theorem State.updBody_sessions (s : State) (slot : Nat) (f : JobBody → JobBody) : (s.updBody slot f).sessions = s.sessions := rfl
@[simp] theorem State.updBody_bring (s : State) (slot : Nat) (f : JobBody → JobBody) : (s.updBody slot f).bring = s.bring := rfl
@[simp] theorem State.updBody_power (s : State) (slot : Nat) (f : JobBody → JobBody) : (s.updBody slot f).power = s.power := rfl
@[simp] theorem State.updBody_day (s : State) (slot : Nat) (f : JobBody → JobBody) : (s.updBody slot f).day = s.day := rfl
@[simp] theorem State.updBody_flash (s : State) (slot : Nat) (f : JobBody → JobBody) : (s.updBody slot f).flash = s.flash := rfl
@[simp] theorem State.updBody_sec (s : State) (slot : Nat) (f : JobBody → JobBody) : (s.updBody slot f).sec = s.sec := rfl
@[simp] theorem State.updBody_seg (s : State) (slot : Nat) (f : JobBody → JobBody) : (s.updBody slot f).seg = s.seg := rfl
@[simp] theorem State.updBody_log (s : State) (slot : Nat) (f : JobBody → JobBody) : (s.updBody slot f).log = s.log := rfl
@[simp] theorem State.updBody_dict (s : State) (slot : Nat) (f : JobBody → JobBody) : (s.updBody slot f).dict = s.dict := rfl
@[simp] theorem State.updBody_blocks (s : State) (slot : Nat) (f : JobBody → JobBody) : (s.updBody slot f).blocks = s.blocks := rfl
@[simp] theorem State.updBody_abandoned (s : State) (slot : Nat) (f : JobBody → JobBody) : (s.updBody slot f).abandoned = s.abandoned := rfl
@[simp] theorem State.updBody_retainedWrites (s : State) (slot : Nat) (f : JobBody → JobBody) : (s.updBody slot f).retainedWrites = s.retainedWrites := rfl
@[simp] theorem State.updBody_baseStaged (s : State) (slot : Nat) (f : JobBody → JobBody) : (s.updBody slot f).baseStaged = s.baseStaged := rfl
@[simp] theorem State.updBody_tiers (s : State) (slot : Nat) (f : JobBody → JobBody) : (s.updBody slot f).tiers = s.tiers := rfl
@[simp] theorem State.updBody_dma (s : State) (slot : Nat) (f : JobBody → JobBody) : (s.updBody slot f).dma = s.dma := rfl
@[simp] theorem State.updBody_rel (s : State) (slot : Nat) (f : JobBody → JobBody) : (s.updBody slot f).rel = s.rel := rfl
@[simp] theorem State.updBody_fabric (s : State) (slot : Nat) (f : JobBody → JobBody) : (s.updBody slot f).fabric = s.fabric := rfl
@[simp] theorem State.updBody_tileUnits (s : State) (slot : Nat) (f : JobBody → JobBody) : (s.updBody slot f).tileUnits = s.tileUnits := rfl
@[simp] theorem State.updBody_spares (s : State) (slot : Nat) (f : JobBody → JobBody) : (s.updBody slot f).spares = s.spares := rfl
@[simp] theorem State.updBody_carrel (s : State) (slot : Nat) (f : JobBody → JobBody) : (s.updBody slot f).carrel = s.carrel := rfl
@[simp] theorem State.updBody_carrelPoison (s : State) (slot : Nat) (f : JobBody → JobBody) : (s.updBody slot f).carrelPoison = s.carrelPoison := rfl
@[simp] theorem State.updBody_traces (s : State) (slot : Nat) (f : JobBody → JobBody) : (s.updBody slot f).traces = s.traces := rfl
@[simp] theorem State.updBody_reply (s : State) (slot : Nat) (f : JobBody → JobBody) : (s.updBody slot f).reply = s.reply := rfl
@[simp] theorem State.updBody_draws (s : State) (slot : Nat) (f : JobBody → JobBody) : (s.updBody slot f).draws = s.draws := rfl
@[simp] theorem State.updBody_pending (s : State) (slot : Nat) (f : JobBody → JobBody) : (s.updBody slot f).pending = s.pending := rfl

/-! ### `State.updTiles` -/

@[simp] theorem State.updTiles_port (s : State) (f : List StoredTile → List StoredTile) : (s.updTiles f).port = s.port := rfl
@[simp] theorem State.updTiles_sessions (s : State) (f : List StoredTile → List StoredTile) : (s.updTiles f).sessions = s.sessions := rfl
@[simp] theorem State.updTiles_jobs (s : State) (f : List StoredTile → List StoredTile) : (s.updTiles f).jobs = s.jobs := rfl
@[simp] theorem State.updTiles_bring (s : State) (f : List StoredTile → List StoredTile) : (s.updTiles f).bring = s.bring := rfl
@[simp] theorem State.updTiles_power (s : State) (f : List StoredTile → List StoredTile) : (s.updTiles f).power = s.power := rfl
@[simp] theorem State.updTiles_day (s : State) (f : List StoredTile → List StoredTile) : (s.updTiles f).day = s.day := rfl
@[simp] theorem State.updTiles_flash (s : State) (f : List StoredTile → List StoredTile) : (s.updTiles f).flash = s.flash := rfl
@[simp] theorem State.updTiles_sec (s : State) (f : List StoredTile → List StoredTile) : (s.updTiles f).sec = s.sec := rfl
@[simp] theorem State.updTiles_seg (s : State) (f : List StoredTile → List StoredTile) : (s.updTiles f).seg = s.seg := rfl
@[simp] theorem State.updTiles_log (s : State) (f : List StoredTile → List StoredTile) : (s.updTiles f).log = s.log := rfl
@[simp] theorem State.updTiles_dict (s : State) (f : List StoredTile → List StoredTile) : (s.updTiles f).dict = s.dict := rfl
@[simp] theorem State.updTiles_blocks (s : State) (f : List StoredTile → List StoredTile) : (s.updTiles f).blocks = s.blocks := rfl
@[simp] theorem State.updTiles_abandoned (s : State) (f : List StoredTile → List StoredTile) : (s.updTiles f).abandoned = s.abandoned := rfl
@[simp] theorem State.updTiles_retainedWrites (s : State) (f : List StoredTile → List StoredTile) : (s.updTiles f).retainedWrites = s.retainedWrites := rfl
@[simp] theorem State.updTiles_baseStaged (s : State) (f : List StoredTile → List StoredTile) : (s.updTiles f).baseStaged = s.baseStaged := rfl
@[simp] theorem State.updTiles_dma (s : State) (f : List StoredTile → List StoredTile) : (s.updTiles f).dma = s.dma := rfl
@[simp] theorem State.updTiles_rel (s : State) (f : List StoredTile → List StoredTile) : (s.updTiles f).rel = s.rel := rfl
@[simp] theorem State.updTiles_fabric (s : State) (f : List StoredTile → List StoredTile) : (s.updTiles f).fabric = s.fabric := rfl
@[simp] theorem State.updTiles_tileUnits (s : State) (f : List StoredTile → List StoredTile) : (s.updTiles f).tileUnits = s.tileUnits := rfl
@[simp] theorem State.updTiles_spares (s : State) (f : List StoredTile → List StoredTile) : (s.updTiles f).spares = s.spares := rfl
@[simp] theorem State.updTiles_carrel (s : State) (f : List StoredTile → List StoredTile) : (s.updTiles f).carrel = s.carrel := rfl
@[simp] theorem State.updTiles_carrelPoison (s : State) (f : List StoredTile → List StoredTile) : (s.updTiles f).carrelPoison = s.carrelPoison := rfl
@[simp] theorem State.updTiles_traces (s : State) (f : List StoredTile → List StoredTile) : (s.updTiles f).traces = s.traces := rfl
@[simp] theorem State.updTiles_reply (s : State) (f : List StoredTile → List StoredTile) : (s.updTiles f).reply = s.reply := rfl
@[simp] theorem State.updTiles_draws (s : State) (f : List StoredTile → List StoredTile) : (s.updTiles f).draws = s.draws := rfl
@[simp] theorem State.updTiles_pending (s : State) (f : List StoredTile → List StoredTile) : (s.updTiles f).pending = s.pending := rfl

/-! ### `State.updTile` -/

@[simp] theorem State.updTile_port (s : State) (k : TileKey) (f : StoredTile → StoredTile) : (s.updTile k f).port = s.port := rfl
@[simp] theorem State.updTile_sessions (s : State) (k : TileKey) (f : StoredTile → StoredTile) : (s.updTile k f).sessions = s.sessions := rfl
@[simp] theorem State.updTile_jobs (s : State) (k : TileKey) (f : StoredTile → StoredTile) : (s.updTile k f).jobs = s.jobs := rfl
@[simp] theorem State.updTile_bring (s : State) (k : TileKey) (f : StoredTile → StoredTile) : (s.updTile k f).bring = s.bring := rfl
@[simp] theorem State.updTile_power (s : State) (k : TileKey) (f : StoredTile → StoredTile) : (s.updTile k f).power = s.power := rfl
@[simp] theorem State.updTile_day (s : State) (k : TileKey) (f : StoredTile → StoredTile) : (s.updTile k f).day = s.day := rfl
@[simp] theorem State.updTile_flash (s : State) (k : TileKey) (f : StoredTile → StoredTile) : (s.updTile k f).flash = s.flash := rfl
@[simp] theorem State.updTile_sec (s : State) (k : TileKey) (f : StoredTile → StoredTile) : (s.updTile k f).sec = s.sec := rfl
@[simp] theorem State.updTile_seg (s : State) (k : TileKey) (f : StoredTile → StoredTile) : (s.updTile k f).seg = s.seg := rfl
@[simp] theorem State.updTile_log (s : State) (k : TileKey) (f : StoredTile → StoredTile) : (s.updTile k f).log = s.log := rfl
@[simp] theorem State.updTile_dict (s : State) (k : TileKey) (f : StoredTile → StoredTile) : (s.updTile k f).dict = s.dict := rfl
@[simp] theorem State.updTile_blocks (s : State) (k : TileKey) (f : StoredTile → StoredTile) : (s.updTile k f).blocks = s.blocks := rfl
@[simp] theorem State.updTile_abandoned (s : State) (k : TileKey) (f : StoredTile → StoredTile) : (s.updTile k f).abandoned = s.abandoned := rfl
@[simp] theorem State.updTile_retainedWrites (s : State) (k : TileKey) (f : StoredTile → StoredTile) : (s.updTile k f).retainedWrites = s.retainedWrites := rfl
@[simp] theorem State.updTile_baseStaged (s : State) (k : TileKey) (f : StoredTile → StoredTile) : (s.updTile k f).baseStaged = s.baseStaged := rfl
@[simp] theorem State.updTile_dma (s : State) (k : TileKey) (f : StoredTile → StoredTile) : (s.updTile k f).dma = s.dma := rfl
@[simp] theorem State.updTile_rel (s : State) (k : TileKey) (f : StoredTile → StoredTile) : (s.updTile k f).rel = s.rel := rfl
@[simp] theorem State.updTile_fabric (s : State) (k : TileKey) (f : StoredTile → StoredTile) : (s.updTile k f).fabric = s.fabric := rfl
@[simp] theorem State.updTile_tileUnits (s : State) (k : TileKey) (f : StoredTile → StoredTile) : (s.updTile k f).tileUnits = s.tileUnits := rfl
@[simp] theorem State.updTile_spares (s : State) (k : TileKey) (f : StoredTile → StoredTile) : (s.updTile k f).spares = s.spares := rfl
@[simp] theorem State.updTile_carrel (s : State) (k : TileKey) (f : StoredTile → StoredTile) : (s.updTile k f).carrel = s.carrel := rfl
@[simp] theorem State.updTile_carrelPoison (s : State) (k : TileKey) (f : StoredTile → StoredTile) : (s.updTile k f).carrelPoison = s.carrelPoison := rfl
@[simp] theorem State.updTile_traces (s : State) (k : TileKey) (f : StoredTile → StoredTile) : (s.updTile k f).traces = s.traces := rfl
@[simp] theorem State.updTile_reply (s : State) (k : TileKey) (f : StoredTile → StoredTile) : (s.updTile k f).reply = s.reply := rfl
@[simp] theorem State.updTile_draws (s : State) (k : TileKey) (f : StoredTile → StoredTile) : (s.updTile k f).draws = s.draws := rfl
@[simp] theorem State.updTile_pending (s : State) (k : TileKey) (f : StoredTile → StoredTile) : (s.updTile k f).pending = s.pending := rfl

/-! ### `State.carrelWrite` -/

@[simp] theorem State.carrelWrite_port (s : State) (tile addr : Nat) (b : List Byte) : (s.carrelWrite tile addr b).port = s.port := rfl
@[simp] theorem State.carrelWrite_sessions (s : State) (tile addr : Nat) (b : List Byte) : (s.carrelWrite tile addr b).sessions = s.sessions := rfl
@[simp] theorem State.carrelWrite_jobs (s : State) (tile addr : Nat) (b : List Byte) : (s.carrelWrite tile addr b).jobs = s.jobs := rfl
@[simp] theorem State.carrelWrite_bring (s : State) (tile addr : Nat) (b : List Byte) : (s.carrelWrite tile addr b).bring = s.bring := rfl
@[simp] theorem State.carrelWrite_power (s : State) (tile addr : Nat) (b : List Byte) : (s.carrelWrite tile addr b).power = s.power := rfl
@[simp] theorem State.carrelWrite_day (s : State) (tile addr : Nat) (b : List Byte) : (s.carrelWrite tile addr b).day = s.day := rfl
@[simp] theorem State.carrelWrite_flash (s : State) (tile addr : Nat) (b : List Byte) : (s.carrelWrite tile addr b).flash = s.flash := rfl
@[simp] theorem State.carrelWrite_sec (s : State) (tile addr : Nat) (b : List Byte) : (s.carrelWrite tile addr b).sec = s.sec := rfl
@[simp] theorem State.carrelWrite_seg (s : State) (tile addr : Nat) (b : List Byte) : (s.carrelWrite tile addr b).seg = s.seg := rfl
@[simp] theorem State.carrelWrite_log (s : State) (tile addr : Nat) (b : List Byte) : (s.carrelWrite tile addr b).log = s.log := rfl
@[simp] theorem State.carrelWrite_dict (s : State) (tile addr : Nat) (b : List Byte) : (s.carrelWrite tile addr b).dict = s.dict := rfl
@[simp] theorem State.carrelWrite_blocks (s : State) (tile addr : Nat) (b : List Byte) : (s.carrelWrite tile addr b).blocks = s.blocks := rfl
@[simp] theorem State.carrelWrite_abandoned (s : State) (tile addr : Nat) (b : List Byte) : (s.carrelWrite tile addr b).abandoned = s.abandoned := rfl
@[simp] theorem State.carrelWrite_retainedWrites (s : State) (tile addr : Nat) (b : List Byte) : (s.carrelWrite tile addr b).retainedWrites = s.retainedWrites := rfl
@[simp] theorem State.carrelWrite_baseStaged (s : State) (tile addr : Nat) (b : List Byte) : (s.carrelWrite tile addr b).baseStaged = s.baseStaged := rfl
@[simp] theorem State.carrelWrite_tiers (s : State) (tile addr : Nat) (b : List Byte) : (s.carrelWrite tile addr b).tiers = s.tiers := rfl
@[simp] theorem State.carrelWrite_dma (s : State) (tile addr : Nat) (b : List Byte) : (s.carrelWrite tile addr b).dma = s.dma := rfl
@[simp] theorem State.carrelWrite_rel (s : State) (tile addr : Nat) (b : List Byte) : (s.carrelWrite tile addr b).rel = s.rel := rfl
@[simp] theorem State.carrelWrite_fabric (s : State) (tile addr : Nat) (b : List Byte) : (s.carrelWrite tile addr b).fabric = s.fabric := rfl
@[simp] theorem State.carrelWrite_tileUnits (s : State) (tile addr : Nat) (b : List Byte) : (s.carrelWrite tile addr b).tileUnits = s.tileUnits := rfl
@[simp] theorem State.carrelWrite_spares (s : State) (tile addr : Nat) (b : List Byte) : (s.carrelWrite tile addr b).spares = s.spares := rfl
@[simp] theorem State.carrelWrite_traces (s : State) (tile addr : Nat) (b : List Byte) : (s.carrelWrite tile addr b).traces = s.traces := rfl
@[simp] theorem State.carrelWrite_reply (s : State) (tile addr : Nat) (b : List Byte) : (s.carrelWrite tile addr b).reply = s.reply := rfl
@[simp] theorem State.carrelWrite_draws (s : State) (tile addr : Nat) (b : List Byte) : (s.carrelWrite tile addr b).draws = s.draws := rfl
@[simp] theorem State.carrelWrite_pending (s : State) (tile addr : Nat) (b : List Byte) : (s.carrelWrite tile addr b).pending = s.pending := rfl

/-! ### `State.carrelZero` -/

@[simp] theorem State.carrelZero_port (s : State) (tile first len : Nat) : (s.carrelZero tile first len).port = s.port := rfl
@[simp] theorem State.carrelZero_sessions (s : State) (tile first len : Nat) : (s.carrelZero tile first len).sessions = s.sessions := rfl
@[simp] theorem State.carrelZero_jobs (s : State) (tile first len : Nat) : (s.carrelZero tile first len).jobs = s.jobs := rfl
@[simp] theorem State.carrelZero_bring (s : State) (tile first len : Nat) : (s.carrelZero tile first len).bring = s.bring := rfl
@[simp] theorem State.carrelZero_power (s : State) (tile first len : Nat) : (s.carrelZero tile first len).power = s.power := rfl
@[simp] theorem State.carrelZero_day (s : State) (tile first len : Nat) : (s.carrelZero tile first len).day = s.day := rfl
@[simp] theorem State.carrelZero_flash (s : State) (tile first len : Nat) : (s.carrelZero tile first len).flash = s.flash := rfl
@[simp] theorem State.carrelZero_sec (s : State) (tile first len : Nat) : (s.carrelZero tile first len).sec = s.sec := rfl
@[simp] theorem State.carrelZero_seg (s : State) (tile first len : Nat) : (s.carrelZero tile first len).seg = s.seg := rfl
@[simp] theorem State.carrelZero_log (s : State) (tile first len : Nat) : (s.carrelZero tile first len).log = s.log := rfl
@[simp] theorem State.carrelZero_dict (s : State) (tile first len : Nat) : (s.carrelZero tile first len).dict = s.dict := rfl
@[simp] theorem State.carrelZero_blocks (s : State) (tile first len : Nat) : (s.carrelZero tile first len).blocks = s.blocks := rfl
@[simp] theorem State.carrelZero_abandoned (s : State) (tile first len : Nat) : (s.carrelZero tile first len).abandoned = s.abandoned := rfl
@[simp] theorem State.carrelZero_retainedWrites (s : State) (tile first len : Nat) : (s.carrelZero tile first len).retainedWrites = s.retainedWrites := rfl
@[simp] theorem State.carrelZero_baseStaged (s : State) (tile first len : Nat) : (s.carrelZero tile first len).baseStaged = s.baseStaged := rfl
@[simp] theorem State.carrelZero_tiers (s : State) (tile first len : Nat) : (s.carrelZero tile first len).tiers = s.tiers := rfl
@[simp] theorem State.carrelZero_dma (s : State) (tile first len : Nat) : (s.carrelZero tile first len).dma = s.dma := rfl
@[simp] theorem State.carrelZero_rel (s : State) (tile first len : Nat) : (s.carrelZero tile first len).rel = s.rel := rfl
@[simp] theorem State.carrelZero_fabric (s : State) (tile first len : Nat) : (s.carrelZero tile first len).fabric = s.fabric := rfl
@[simp] theorem State.carrelZero_tileUnits (s : State) (tile first len : Nat) : (s.carrelZero tile first len).tileUnits = s.tileUnits := rfl
@[simp] theorem State.carrelZero_spares (s : State) (tile first len : Nat) : (s.carrelZero tile first len).spares = s.spares := rfl
@[simp] theorem State.carrelZero_traces (s : State) (tile first len : Nat) : (s.carrelZero tile first len).traces = s.traces := rfl
@[simp] theorem State.carrelZero_reply (s : State) (tile first len : Nat) : (s.carrelZero tile first len).reply = s.reply := rfl
@[simp] theorem State.carrelZero_draws (s : State) (tile first len : Nat) : (s.carrelZero tile first len).draws = s.draws := rfl
@[simp] theorem State.carrelZero_pending (s : State) (tile first len : Nat) : (s.carrelZero tile first len).pending = s.pending := rfl

/-! ### `State.updUnit` -/

@[simp] theorem State.updUnit_port (s : State) (t : Nat) (f : Tile → Tile) : (s.updUnit t f).port = s.port := rfl
@[simp] theorem State.updUnit_sessions (s : State) (t : Nat) (f : Tile → Tile) : (s.updUnit t f).sessions = s.sessions := rfl
@[simp] theorem State.updUnit_jobs (s : State) (t : Nat) (f : Tile → Tile) : (s.updUnit t f).jobs = s.jobs := rfl
@[simp] theorem State.updUnit_bring (s : State) (t : Nat) (f : Tile → Tile) : (s.updUnit t f).bring = s.bring := rfl
@[simp] theorem State.updUnit_power (s : State) (t : Nat) (f : Tile → Tile) : (s.updUnit t f).power = s.power := rfl
@[simp] theorem State.updUnit_day (s : State) (t : Nat) (f : Tile → Tile) : (s.updUnit t f).day = s.day := rfl
@[simp] theorem State.updUnit_flash (s : State) (t : Nat) (f : Tile → Tile) : (s.updUnit t f).flash = s.flash := rfl
@[simp] theorem State.updUnit_sec (s : State) (t : Nat) (f : Tile → Tile) : (s.updUnit t f).sec = s.sec := rfl
@[simp] theorem State.updUnit_seg (s : State) (t : Nat) (f : Tile → Tile) : (s.updUnit t f).seg = s.seg := rfl
@[simp] theorem State.updUnit_log (s : State) (t : Nat) (f : Tile → Tile) : (s.updUnit t f).log = s.log := rfl
@[simp] theorem State.updUnit_dict (s : State) (t : Nat) (f : Tile → Tile) : (s.updUnit t f).dict = s.dict := rfl
@[simp] theorem State.updUnit_blocks (s : State) (t : Nat) (f : Tile → Tile) : (s.updUnit t f).blocks = s.blocks := rfl
@[simp] theorem State.updUnit_abandoned (s : State) (t : Nat) (f : Tile → Tile) : (s.updUnit t f).abandoned = s.abandoned := rfl
@[simp] theorem State.updUnit_retainedWrites (s : State) (t : Nat) (f : Tile → Tile) : (s.updUnit t f).retainedWrites = s.retainedWrites := rfl
@[simp] theorem State.updUnit_baseStaged (s : State) (t : Nat) (f : Tile → Tile) : (s.updUnit t f).baseStaged = s.baseStaged := rfl
@[simp] theorem State.updUnit_tiers (s : State) (t : Nat) (f : Tile → Tile) : (s.updUnit t f).tiers = s.tiers := rfl
@[simp] theorem State.updUnit_dma (s : State) (t : Nat) (f : Tile → Tile) : (s.updUnit t f).dma = s.dma := rfl
@[simp] theorem State.updUnit_rel (s : State) (t : Nat) (f : Tile → Tile) : (s.updUnit t f).rel = s.rel := rfl
@[simp] theorem State.updUnit_fabric (s : State) (t : Nat) (f : Tile → Tile) : (s.updUnit t f).fabric = s.fabric := rfl
@[simp] theorem State.updUnit_spares (s : State) (t : Nat) (f : Tile → Tile) : (s.updUnit t f).spares = s.spares := rfl
@[simp] theorem State.updUnit_carrel (s : State) (t : Nat) (f : Tile → Tile) : (s.updUnit t f).carrel = s.carrel := rfl
@[simp] theorem State.updUnit_carrelPoison (s : State) (t : Nat) (f : Tile → Tile) : (s.updUnit t f).carrelPoison = s.carrelPoison := rfl
@[simp] theorem State.updUnit_traces (s : State) (t : Nat) (f : Tile → Tile) : (s.updUnit t f).traces = s.traces := rfl
@[simp] theorem State.updUnit_reply (s : State) (t : Nat) (f : Tile → Tile) : (s.updUnit t f).reply = s.reply := rfl
@[simp] theorem State.updUnit_draws (s : State) (t : Nat) (f : Tile → Tile) : (s.updUnit t f).draws = s.draws := rfl
@[simp] theorem State.updUnit_pending (s : State) (t : Nat) (f : Tile → Tile) : (s.updUnit t f).pending = s.pending := rfl

/-! ### `State.updPower` -/

@[simp] theorem State.updPower_port (s : State) (f : Power → Power) : (s.updPower f).port = s.port := rfl
@[simp] theorem State.updPower_sessions (s : State) (f : Power → Power) : (s.updPower f).sessions = s.sessions := rfl
@[simp] theorem State.updPower_jobs (s : State) (f : Power → Power) : (s.updPower f).jobs = s.jobs := rfl
@[simp] theorem State.updPower_bring (s : State) (f : Power → Power) : (s.updPower f).bring = s.bring := rfl
@[simp] theorem State.updPower_day (s : State) (f : Power → Power) : (s.updPower f).day = s.day := rfl
@[simp] theorem State.updPower_flash (s : State) (f : Power → Power) : (s.updPower f).flash = s.flash := rfl
@[simp] theorem State.updPower_sec (s : State) (f : Power → Power) : (s.updPower f).sec = s.sec := rfl
@[simp] theorem State.updPower_seg (s : State) (f : Power → Power) : (s.updPower f).seg = s.seg := rfl
@[simp] theorem State.updPower_log (s : State) (f : Power → Power) : (s.updPower f).log = s.log := rfl
@[simp] theorem State.updPower_dict (s : State) (f : Power → Power) : (s.updPower f).dict = s.dict := rfl
@[simp] theorem State.updPower_blocks (s : State) (f : Power → Power) : (s.updPower f).blocks = s.blocks := rfl
@[simp] theorem State.updPower_abandoned (s : State) (f : Power → Power) : (s.updPower f).abandoned = s.abandoned := rfl
@[simp] theorem State.updPower_retainedWrites (s : State) (f : Power → Power) : (s.updPower f).retainedWrites = s.retainedWrites := rfl
@[simp] theorem State.updPower_baseStaged (s : State) (f : Power → Power) : (s.updPower f).baseStaged = s.baseStaged := rfl
@[simp] theorem State.updPower_tiers (s : State) (f : Power → Power) : (s.updPower f).tiers = s.tiers := rfl
@[simp] theorem State.updPower_dma (s : State) (f : Power → Power) : (s.updPower f).dma = s.dma := rfl
@[simp] theorem State.updPower_rel (s : State) (f : Power → Power) : (s.updPower f).rel = s.rel := rfl
@[simp] theorem State.updPower_fabric (s : State) (f : Power → Power) : (s.updPower f).fabric = s.fabric := rfl
@[simp] theorem State.updPower_tileUnits (s : State) (f : Power → Power) : (s.updPower f).tileUnits = s.tileUnits := rfl
@[simp] theorem State.updPower_spares (s : State) (f : Power → Power) : (s.updPower f).spares = s.spares := rfl
@[simp] theorem State.updPower_carrel (s : State) (f : Power → Power) : (s.updPower f).carrel = s.carrel := rfl
@[simp] theorem State.updPower_carrelPoison (s : State) (f : Power → Power) : (s.updPower f).carrelPoison = s.carrelPoison := rfl
@[simp] theorem State.updPower_traces (s : State) (f : Power → Power) : (s.updPower f).traces = s.traces := rfl
@[simp] theorem State.updPower_reply (s : State) (f : Power → Power) : (s.updPower f).reply = s.reply := rfl
@[simp] theorem State.updPower_draws (s : State) (f : Power → Power) : (s.updPower f).draws = s.draws := rfl
@[simp] theorem State.updPower_pending (s : State) (f : Power → Power) : (s.updPower f).pending = s.pending := rfl

/-! ### `State.updBring` -/

@[simp] theorem State.updBring_port (s : State) (f : BringUp → BringUp) : (s.updBring f).port = s.port := rfl
@[simp] theorem State.updBring_sessions (s : State) (f : BringUp → BringUp) : (s.updBring f).sessions = s.sessions := rfl
@[simp] theorem State.updBring_jobs (s : State) (f : BringUp → BringUp) : (s.updBring f).jobs = s.jobs := rfl
@[simp] theorem State.updBring_power (s : State) (f : BringUp → BringUp) : (s.updBring f).power = s.power := rfl
@[simp] theorem State.updBring_day (s : State) (f : BringUp → BringUp) : (s.updBring f).day = s.day := rfl
@[simp] theorem State.updBring_flash (s : State) (f : BringUp → BringUp) : (s.updBring f).flash = s.flash := rfl
@[simp] theorem State.updBring_sec (s : State) (f : BringUp → BringUp) : (s.updBring f).sec = s.sec := rfl
@[simp] theorem State.updBring_seg (s : State) (f : BringUp → BringUp) : (s.updBring f).seg = s.seg := rfl
@[simp] theorem State.updBring_log (s : State) (f : BringUp → BringUp) : (s.updBring f).log = s.log := rfl
@[simp] theorem State.updBring_dict (s : State) (f : BringUp → BringUp) : (s.updBring f).dict = s.dict := rfl
@[simp] theorem State.updBring_blocks (s : State) (f : BringUp → BringUp) : (s.updBring f).blocks = s.blocks := rfl
@[simp] theorem State.updBring_abandoned (s : State) (f : BringUp → BringUp) : (s.updBring f).abandoned = s.abandoned := rfl
@[simp] theorem State.updBring_retainedWrites (s : State) (f : BringUp → BringUp) : (s.updBring f).retainedWrites = s.retainedWrites := rfl
@[simp] theorem State.updBring_baseStaged (s : State) (f : BringUp → BringUp) : (s.updBring f).baseStaged = s.baseStaged := rfl
@[simp] theorem State.updBring_tiers (s : State) (f : BringUp → BringUp) : (s.updBring f).tiers = s.tiers := rfl
@[simp] theorem State.updBring_dma (s : State) (f : BringUp → BringUp) : (s.updBring f).dma = s.dma := rfl
@[simp] theorem State.updBring_rel (s : State) (f : BringUp → BringUp) : (s.updBring f).rel = s.rel := rfl
@[simp] theorem State.updBring_fabric (s : State) (f : BringUp → BringUp) : (s.updBring f).fabric = s.fabric := rfl
@[simp] theorem State.updBring_tileUnits (s : State) (f : BringUp → BringUp) : (s.updBring f).tileUnits = s.tileUnits := rfl
@[simp] theorem State.updBring_spares (s : State) (f : BringUp → BringUp) : (s.updBring f).spares = s.spares := rfl
@[simp] theorem State.updBring_carrel (s : State) (f : BringUp → BringUp) : (s.updBring f).carrel = s.carrel := rfl
@[simp] theorem State.updBring_carrelPoison (s : State) (f : BringUp → BringUp) : (s.updBring f).carrelPoison = s.carrelPoison := rfl
@[simp] theorem State.updBring_traces (s : State) (f : BringUp → BringUp) : (s.updBring f).traces = s.traces := rfl
@[simp] theorem State.updBring_reply (s : State) (f : BringUp → BringUp) : (s.updBring f).reply = s.reply := rfl
@[simp] theorem State.updBring_draws (s : State) (f : BringUp → BringUp) : (s.updBring f).draws = s.draws := rfl
@[simp] theorem State.updBring_pending (s : State) (f : BringUp → BringUp) : (s.updBring f).pending = s.pending := rfl

/-! ### `State.updSeg` -/

@[simp] theorem State.updSeg_port (s : State) (f : Segment → Segment) : (s.updSeg f).port = s.port := rfl
@[simp] theorem State.updSeg_sessions (s : State) (f : Segment → Segment) : (s.updSeg f).sessions = s.sessions := rfl
@[simp] theorem State.updSeg_jobs (s : State) (f : Segment → Segment) : (s.updSeg f).jobs = s.jobs := rfl
@[simp] theorem State.updSeg_bring (s : State) (f : Segment → Segment) : (s.updSeg f).bring = s.bring := rfl
@[simp] theorem State.updSeg_power (s : State) (f : Segment → Segment) : (s.updSeg f).power = s.power := rfl
@[simp] theorem State.updSeg_day (s : State) (f : Segment → Segment) : (s.updSeg f).day = s.day := rfl
@[simp] theorem State.updSeg_flash (s : State) (f : Segment → Segment) : (s.updSeg f).flash = s.flash := rfl
@[simp] theorem State.updSeg_sec (s : State) (f : Segment → Segment) : (s.updSeg f).sec = s.sec := rfl
@[simp] theorem State.updSeg_log (s : State) (f : Segment → Segment) : (s.updSeg f).log = s.log := rfl
@[simp] theorem State.updSeg_dict (s : State) (f : Segment → Segment) : (s.updSeg f).dict = s.dict := rfl
@[simp] theorem State.updSeg_blocks (s : State) (f : Segment → Segment) : (s.updSeg f).blocks = s.blocks := rfl
@[simp] theorem State.updSeg_abandoned (s : State) (f : Segment → Segment) : (s.updSeg f).abandoned = s.abandoned := rfl
@[simp] theorem State.updSeg_retainedWrites (s : State) (f : Segment → Segment) : (s.updSeg f).retainedWrites = s.retainedWrites := rfl
@[simp] theorem State.updSeg_baseStaged (s : State) (f : Segment → Segment) : (s.updSeg f).baseStaged = s.baseStaged := rfl
@[simp] theorem State.updSeg_tiers (s : State) (f : Segment → Segment) : (s.updSeg f).tiers = s.tiers := rfl
@[simp] theorem State.updSeg_dma (s : State) (f : Segment → Segment) : (s.updSeg f).dma = s.dma := rfl
@[simp] theorem State.updSeg_rel (s : State) (f : Segment → Segment) : (s.updSeg f).rel = s.rel := rfl
@[simp] theorem State.updSeg_fabric (s : State) (f : Segment → Segment) : (s.updSeg f).fabric = s.fabric := rfl
@[simp] theorem State.updSeg_tileUnits (s : State) (f : Segment → Segment) : (s.updSeg f).tileUnits = s.tileUnits := rfl
@[simp] theorem State.updSeg_spares (s : State) (f : Segment → Segment) : (s.updSeg f).spares = s.spares := rfl
@[simp] theorem State.updSeg_carrel (s : State) (f : Segment → Segment) : (s.updSeg f).carrel = s.carrel := rfl
@[simp] theorem State.updSeg_carrelPoison (s : State) (f : Segment → Segment) : (s.updSeg f).carrelPoison = s.carrelPoison := rfl
@[simp] theorem State.updSeg_traces (s : State) (f : Segment → Segment) : (s.updSeg f).traces = s.traces := rfl
@[simp] theorem State.updSeg_reply (s : State) (f : Segment → Segment) : (s.updSeg f).reply = s.reply := rfl
@[simp] theorem State.updSeg_draws (s : State) (f : Segment → Segment) : (s.updSeg f).draws = s.draws := rfl
@[simp] theorem State.updSeg_pending (s : State) (f : Segment → Segment) : (s.updSeg f).pending = s.pending := rfl

/-! ### `State.updRow` -/

@[simp] theorem State.updRow_port (s : State) (device bank row : Nat) (f : RowHistory → RowHistory) : (s.updRow device bank row f).port = s.port := rfl
@[simp] theorem State.updRow_sessions (s : State) (device bank row : Nat) (f : RowHistory → RowHistory) : (s.updRow device bank row f).sessions = s.sessions := rfl
@[simp] theorem State.updRow_jobs (s : State) (device bank row : Nat) (f : RowHistory → RowHistory) : (s.updRow device bank row f).jobs = s.jobs := rfl
@[simp] theorem State.updRow_bring (s : State) (device bank row : Nat) (f : RowHistory → RowHistory) : (s.updRow device bank row f).bring = s.bring := rfl
@[simp] theorem State.updRow_power (s : State) (device bank row : Nat) (f : RowHistory → RowHistory) : (s.updRow device bank row f).power = s.power := rfl
@[simp] theorem State.updRow_day (s : State) (device bank row : Nat) (f : RowHistory → RowHistory) : (s.updRow device bank row f).day = s.day := rfl
@[simp] theorem State.updRow_flash (s : State) (device bank row : Nat) (f : RowHistory → RowHistory) : (s.updRow device bank row f).flash = s.flash := rfl
@[simp] theorem State.updRow_sec (s : State) (device bank row : Nat) (f : RowHistory → RowHistory) : (s.updRow device bank row f).sec = s.sec := rfl
@[simp] theorem State.updRow_seg (s : State) (device bank row : Nat) (f : RowHistory → RowHistory) : (s.updRow device bank row f).seg = s.seg := rfl
@[simp] theorem State.updRow_log (s : State) (device bank row : Nat) (f : RowHistory → RowHistory) : (s.updRow device bank row f).log = s.log := rfl
@[simp] theorem State.updRow_dict (s : State) (device bank row : Nat) (f : RowHistory → RowHistory) : (s.updRow device bank row f).dict = s.dict := rfl
@[simp] theorem State.updRow_blocks (s : State) (device bank row : Nat) (f : RowHistory → RowHistory) : (s.updRow device bank row f).blocks = s.blocks := rfl
@[simp] theorem State.updRow_abandoned (s : State) (device bank row : Nat) (f : RowHistory → RowHistory) : (s.updRow device bank row f).abandoned = s.abandoned := rfl
@[simp] theorem State.updRow_retainedWrites (s : State) (device bank row : Nat) (f : RowHistory → RowHistory) : (s.updRow device bank row f).retainedWrites = s.retainedWrites := rfl
@[simp] theorem State.updRow_baseStaged (s : State) (device bank row : Nat) (f : RowHistory → RowHistory) : (s.updRow device bank row f).baseStaged = s.baseStaged := rfl
@[simp] theorem State.updRow_tiers (s : State) (device bank row : Nat) (f : RowHistory → RowHistory) : (s.updRow device bank row f).tiers = s.tiers := rfl
@[simp] theorem State.updRow_dma (s : State) (device bank row : Nat) (f : RowHistory → RowHistory) : (s.updRow device bank row f).dma = s.dma := rfl
@[simp] theorem State.updRow_fabric (s : State) (device bank row : Nat) (f : RowHistory → RowHistory) : (s.updRow device bank row f).fabric = s.fabric := rfl
@[simp] theorem State.updRow_tileUnits (s : State) (device bank row : Nat) (f : RowHistory → RowHistory) : (s.updRow device bank row f).tileUnits = s.tileUnits := rfl
@[simp] theorem State.updRow_spares (s : State) (device bank row : Nat) (f : RowHistory → RowHistory) : (s.updRow device bank row f).spares = s.spares := rfl
@[simp] theorem State.updRow_carrel (s : State) (device bank row : Nat) (f : RowHistory → RowHistory) : (s.updRow device bank row f).carrel = s.carrel := rfl
@[simp] theorem State.updRow_carrelPoison (s : State) (device bank row : Nat) (f : RowHistory → RowHistory) : (s.updRow device bank row f).carrelPoison = s.carrelPoison := rfl
@[simp] theorem State.updRow_traces (s : State) (device bank row : Nat) (f : RowHistory → RowHistory) : (s.updRow device bank row f).traces = s.traces := rfl
@[simp] theorem State.updRow_reply (s : State) (device bank row : Nat) (f : RowHistory → RowHistory) : (s.updRow device bank row f).reply = s.reply := rfl
@[simp] theorem State.updRow_draws (s : State) (device bank row : Nat) (f : RowHistory → RowHistory) : (s.updRow device bank row f).draws = s.draws := rfl
@[simp] theorem State.updRow_pending (s : State) (device bank row : Nat) (f : RowHistory → RowHistory) : (s.updRow device bank row f).pending = s.pending := rfl

end Sys2Proof.Machine
end

