-- ==== Sys2Proof/Laws/Events.lean ====
section
/-!
SUPPORT. What raising an event leaves: one record at the end of the log, numbered next (R419).
-/
namespace Sys2Proof.Machine
open Sys2Proof

/-- Read one part off what only other parts may change. -/
theorem Only.eq {w : List Part} {s t : State} (h : Only w s t) (p : Part) (hp : w.contains p = false) : p.same s t :=
  h.same p (by simpa using hp)

theorem State.deliver_log (s : State) (e : EventRec) (slot : Option Nat) : (s.deliver e slot).log = s.log :=
  (State.deliver_only s e slot).eq .log rfl

/-- Recording an event adds it, numbered next, to the log. -/
theorem State.record_log (s : State) (e : EventRec) (slot : Option Nat) (n : Nat) (h : s.log.seq = some n) :
    (s.record e slot).log.seq = some (n + 1) ∧ (s.record e slot).log.records.getLast? = some { e with seq := n + 1 } := by
  unfold State.record
  simp only [h, State.deliver_log]
  refine ⟨trivial, ?_⟩
  rw [List.getLast?_drop]
  have : ¬ (s.log.records ++ [{ e with seq := n + 1 }]).length ≤ (s.log.records ++ [{ e with seq := n + 1 }]).length - 4096 := by simp
  simp only [this, if_false]
  simp

theorem State.raise_raised (s : State) (code : Nat) (src : Source) (unit a b c : Nat) : Raised s (s.raise code src unit a b c) code src unit 0 a b c :=
  fun n h => by
    obtain ⟨h1, h2⟩ := State.record_log s ⟨code, src, unit, 0, 0, Config.keeperMs s.stamp, a, b, c, none⟩ none n h
    exact ⟨h1, _, _, h2⟩

theorem State.raiseJob_raised (s : State) (code slot step a b c : Nat) : Raised s (s.raiseJob code slot step a b c) code .job slot step a b c :=
  fun n h => by
    obtain ⟨h1, h2⟩ := State.record_log s ⟨code, .job, slot, 0, step, Config.keeperMs s.stamp, a, b, c, (s.job? slot).map (·.key)⟩ (some slot) n h
    exact ⟨h1, _, _, h2⟩

/-- What raises an event after operations that leave the log alone raises it from the start. -/
theorem Raised.of_log {s u t : State} {code : Nat} {src : Source} {unit step a b c : Nat} (h : Raised u t code src unit step a b c) (hl : u.log = s.log) :
    Raised s t code src unit step a b c := fun n hn => h n (by rw [hl]; exact hn)

/-- What leaves the log alone after an event keeps it the last. -/
theorem Raised.then_log {s t u : State} {code : Nat} {src : Source} {unit step a b c : Nat} (h : Raised s t code src unit step a b c) (hl : u.log = t.log) :
    Raised s u code src unit step a b c := fun n hn => by rw [hl]; exact h n hn

/-! ### Counters an event leaves alone: all but events not delivered (0x2210:05) and records not framed (0x2110:06) -/

/-- The keys of the two counters an event may raise. -/
def eventKey (i k : Nat) : Prop := entryKey i k = entryKey 0x2210 5 ∨ entryKey i k = entryKey 0x2110 6

theorem State.num_storeEvent (s : State) (q : Nat) (e : EventRec) (id i k : Nat) (h : ¬ eventKey i k) : (s.storeEvent q e id).num i k = s.num i k := by
  unfold State.storeEvent
  split
  · rfl
  · exact State.num_add_other _ _ _ _ _ _ fun g => h (.inl g.symm)

theorem State.num_offer (s : State) (e : EventRec) (i k : Nat) (h : ¬ eventKey i k) : (s.offer e).num i k = s.num i k := by
  unfold State.offer
  generalize s.sessions = l
  induction l generalizing s with
  | nil => rfl
  | cons x l ih =>
    rw [List.foldl_cons, ih]
    split
    · rfl
    · split
      · split
        · rfl
        · exact State.num_add_other _ _ _ _ _ _ fun g => h (.inr g.symm)
      · rfl

theorem State.num_deliver (s : State) (e : EventRec) (slot : Option Nat) (i k : Nat) (h : ¬ eventKey i k) : (s.deliver e slot).num i k = s.num i k := by
  unfold State.deliver
  split
  · split
    · rfl
    · split
      · rfl
      · split
        · exact State.num_storeEvent _ _ _ _ _ _ h
        · rfl
  · dsimp only
    rw [State.num_offer _ _ _ _ h]
    generalize s.port.queues.filter _ = l
    induction l generalizing s with
    | nil => rfl
    | cons p l ih => rw [List.foldl_cons, ih, State.num_storeEvent _ _ _ _ _ _ h]

theorem State.num_record (s : State) (e : EventRec) (slot : Option Nat) (i k : Nat) (h : ¬ eventKey i k) : (s.record e slot).num i k = s.num i k := by
  unfold State.record
  split
  · rfl
  · exact State.num_deliver _ _ _ _ _ h

theorem State.num_raise (s : State) (code : Nat) (src : Source) (u a b c i k : Nat) (h : ¬ eventKey i k) : (s.raise code src u a b c).num i k = s.num i k :=
  State.num_record _ _ _ _ _ h

theorem State.num_raiseJob (s : State) (code slot step a b c i k : Nat) (h : ¬ eventKey i k) : (s.raiseJob code slot step a b c).num i k = s.num i k :=
  State.num_record _ _ _ _ _ h

theorem State.add_added (s : State) (i k n : Nat) : Added s (s.add i k n) i k n := State.num_add_self s i k n

end Sys2Proof.Machine
end

