-- ==== Sys2Proof/Laws/Kept.lean ====
section
/-!
SUPPORT. What no operation of the model undoes: the queue of commands is left alone, the carrel and the list of poisoned granules stay in canonical
form, tables of fixed size keep their size, and wear only grows.
-/
namespace Sys2Proof.Machine
open Sys2Proof

/-- What holds between a state and any state an operation of the model makes of it. -/
structure Kept (s t : State) : Prop where
  pending : t.pending = s.pending
  units : t.tileUnits.length = s.tileUnits.length
  ports : t.fabric.ports.length = s.fabric.ports.length
  carrel : carrelWf s.carrel = true → carrelWf t.carrel = true
  poison : rising s.carrelPoison = true → rising t.carrelPoison = true
  dies : s.power.dies.length = 4 → t.power.dies.length = 4
  spares : Fewer s.spares t.spares
  phases : Worn s.power.phases t.power.phases
  resources : Worn s.rel.resources t.rel.resources
  near : s.tiers.nearRetired ≤ t.tiers.nearRetired
  far : s.tiers.farRetired ≤ t.tiers.farRetired

theorem Worn.refl (a : List Nat) : Worn a a := ⟨rfl, fun _ => le_rfl⟩
theorem Worn.trans {a b c : List Nat} (h : Worn a b) (g : Worn b c) : Worn a c := ⟨g.1.trans h.1, fun i => (g.2 i).trans (h.2 i)⟩
theorem Fewer.refl (a : List (List Nat)) : Fewer a a := ⟨rfl, fun _ _ h => h⟩
theorem Fewer.trans {a b c : List (List Nat)} (h : Fewer a b) (g : Fewer b c) : Fewer a c := ⟨g.1.trans h.1, fun d x hx => h.2 d x (g.2 d x hx)⟩

/-- Lowering one entry wears a list. -/
theorem Worn.set (a : List Nat) (i n : Nat) (h : n ≤ nth a i) : Worn a (a.set i n) := by
  refine ⟨List.length_set, fun j => ?_⟩
  by_cases hj : i = j
  · subst hj
    by_cases hi : i < a.length
    · simpa [nth, List.getD_eq_getElem?_getD, List.getElem?_set_self hi] using h
    · simp [nth, List.getD_eq_getElem?_getD, hi]
  · simp [nth, List.getD_eq_getElem?_getD, List.getElem?_set_ne hj]

/-- Leaving fewer spares on one die leaves fewer spares. -/
theorem Fewer.set (a : List (List Nat)) (d : Nat) (l : List Nat) (h : ∀ x ∈ l, x ∈ a.getD d []) : Fewer a (a.set d l) := by
  refine ⟨List.length_set, fun e x hx => ?_⟩
  by_cases he : d = e
  · subst he
    by_cases hd : d < a.length
    · simp [List.getD_eq_getElem?_getD, List.getElem?_set_self hd] at hx
      exact h x hx
    · simp [List.getD_eq_getElem?_getD, hd] at hx
  · simpa [List.getD_eq_getElem?_getD, List.getElem?_set_ne he] using hx

theorem Kept.refl (s : State) : Kept s s :=
  ⟨rfl, rfl, rfl, id, id, id, Fewer.refl _, Worn.refl _, Worn.refl _, le_rfl, le_rfl⟩

theorem Kept.trans {s t u : State} (h : Kept s t) (g : Kept t u) : Kept s u :=
  ⟨g.pending.trans h.pending, g.units.trans h.units, g.ports.trans h.ports, fun x => g.carrel (h.carrel x), fun x => g.poison (h.poison x),
    fun x => g.dies (h.dies x), h.spares.trans g.spares, h.phases.trans g.phases, h.resources.trans g.resources, h.near.trans g.near, h.far.trans g.far⟩

/-- What is kept carries the invariant. -/
theorem Kept.inv {s t : State} (h : Kept s t) (hi : s.Inv) : t.Inv :=
  ⟨h.carrel hi.1, h.poison hi.2.1, h.units.trans hi.2.2.1, h.ports.trans hi.2.2.2.1, h.dies hi.2.2.2.2⟩

/-- What is kept only wears. -/
theorem Kept.wear {s t : State} (h : Kept s t) : Wear s t := ⟨h.spares, h.phases, h.resources, h.near, h.far⟩

/-- An operation that keeps, after operations that keep. -/
theorem Kept.after {t u : State} (g : Kept t u) {s : State} (h : Kept s t) : Kept s u := h.trans g

/-- A record update that leaves these fields alone. -/
theorem Kept.of {s t : State} (a : t.pending = s.pending) (b : t.tileUnits = s.tileUnits) (c : t.fabric.ports = s.fabric.ports)
    (d : t.carrel = s.carrel) (e : t.carrelPoison = s.carrelPoison) (f : t.power.dies = s.power.dies) (g : t.spares = s.spares)
    (h : t.power.phases = s.power.phases) (i : t.rel.resources = s.rel.resources) (j : t.tiers.nearRetired = s.tiers.nearRetired)
    (k : t.tiers.farRetired = s.tiers.farRetired) : Kept s t :=
  ⟨a, by rw [b], by rw [c], by rw [d]; exact id, by rw [e]; exact id, by rw [f]; exact id, by rw [g]; exact Fewer.refl _, by rw [h]; exact Worn.refl _,
    by rw [i]; exact Worn.refl _, by rw [j], by rw [k]⟩

/-- A record update that leaves these fields alone, after operations that keep. -/
theorem Kept.upd {s0 s : State} (h : Kept s0 s) {port' sessions' jobs' bring' power' day' flash' sec' seg' log' dict' blocks' abandoned' retainedWrites' baseStaged' tiers' dma' rel' fabric' traces' reply' draws'} (a : fabric'.ports = s.fabric.ports) (b : power'.dies = s.power.dies)
    (c : power'.phases = s.power.phases) (d : rel'.resources = s.rel.resources) (e : tiers'.nearRetired = s.tiers.nearRetired)
    (f : tiers'.farRetired = s.tiers.farRetired) : Kept s0 (State.mk port' sessions' jobs' bring' power' day' flash' sec' seg' log' dict' blocks' abandoned' retainedWrites' baseStaged' tiers' dma' rel' fabric' s.tileUnits s.spares s.carrel s.carrelPoison traces' reply' draws' s.pending) :=
  h.trans (Kept.of rfl rfl a rfl rfl b rfl c d e f)

/-- Tiles replaced by as many. -/
theorem Kept.unitsUpd (s : State) (l : List Tile) (h : l.length = s.tileUnits.length) : Kept s { s with tileUnits := l } :=
  ⟨rfl, h, rfl, id, id, id, Fewer.refl _, Worn.refl _, Worn.refl _, le_rfl, le_rfl⟩

/-- Fewer spares on one die. -/
theorem Kept.sparesSet (s : State) (d : Nat) (l : List Nat) (h : ∀ x ∈ l, x ∈ s.spares.getD d []) : Kept s { s with spares := s.spares.set d l } :=
  ⟨rfl, rfl, rfl, id, id, id, Fewer.set _ _ _ h, Worn.refl _, Worn.refl _, le_rfl, le_rfl⟩

/-- The list of poisoned granules replaced by a rising one. -/
theorem Kept.poisonUpd (s : State) (l : List Nat) (h : rising s.carrelPoison = true → rising l = true) : Kept s { s with carrelPoison := l } :=
  ⟨rfl, rfl, rfl, id, h, id, Fewer.refl _, Worn.refl _, Worn.refl _, le_rfl, le_rfl⟩

/-- A fold of operations that each keep. -/
theorem Kept.foldl {α : Type} (f : State → α → State) (l : List α) (s : State) (h : ∀ s a, Kept s (f s a)) : Kept s (l.foldl f s) := by
  induction l generalizing s with
  | nil => exact Kept.refl s
  | cons a l ih => exact (h s a).trans (ih _)

/-- A fold that carries a state and something else. -/
theorem Kept.foldlFst {α β : Type} (f : State × β → α → State × β) (l : List α) (p : State × β) (h : ∀ p a, Kept p.1 (f p a).1) :
    Kept p.1 (l.foldl f p).1 := by
  induction l generalizing p with
  | nil => exact Kept.refl p.1
  | cons a l ih => exact (h p a).trans (ih _)

/-- The state of a pair chosen by a test. -/
theorem Kept.ofIf {p : Prop} [Decidable p] {β : Type} {s t : State} {a b : β × State} {x : β} (h : (if p then a else b) = (x, t)) (ha : Kept s a.2)
    (hb : Kept s b.2) : Kept s t := by
  split at h
  · rw [h] at ha; exact ha
  · rw [h] at hb; exact hb

theorem insertOnce_mem (a : Nat) (l : List Nat) (x : Nat) (h : x ∈ insertOnce a l) : x = a ∨ x ∈ l := by
  induction l with
  | nil => simpa [insertOnce] using h
  | cons b l ih =>
    unfold insertOnce at h
    split at h
    · simpa using h
    · split at h
      · exact .inr h
      · rcases List.mem_cons.1 h with h | h
        · exact .inr (by simp [h])
        · exact (ih h).imp_right (List.mem_cons_of_mem _)

/-- Inserting keeps a rising list rising. -/
theorem rising_insertOnce (a : Nat) (l : List Nat) (h : rising l = true) : rising (insertOnce a l) = true := by
  rw [rising_iff] at h ⊢
  induction l with
  | nil => simp [insertOnce]
  | cons b l ih =>
    rw [List.pairwise_cons] at h
    unfold insertOnce
    split
    · rw [List.pairwise_cons, List.pairwise_cons]
      exact ⟨fun x hx => by rcases List.mem_cons.1 hx with rfl | hx; exacts [‹a < x›, lt_trans ‹_› (h.1 x hx)], h⟩
    · split
      · rw [List.pairwise_cons]; exact h
      · rw [List.pairwise_cons]
        refine ⟨fun x hx => ?_, ih h.2⟩
        rcases insertOnce_mem a l x hx with rfl | hx
        exacts [by omega, h.1 x hx]

theorem rising_filter (l : List Nat) (p : Nat → Bool) (h : rising l = true) : rising (l.filter p) = true := by
  rw [rising_iff] at h ⊢
  exact h.sublist List.filter_sublist

theorem rising_foldl_insertOnce (m : List Nat) (f : Nat → Nat) (l : List Nat) (h : rising l = true) :
    rising (m.foldl (fun l i => insertOnce (f i) l) l) = true := by
  induction m generalizing l with
  | nil => exact h
  | cons a m ih => exact ih _ (rising_insertOnce _ _ h)

end Sys2Proof.Machine
end

