-- ==== Sys2Proof/Laws/KeptOps.lean ====
section
/-!
SUPPORT. What the operations of Ops keep.
-/
set_option linter.unusedVariables false
set_option Elab.async false
namespace Sys2Proof.Machine
open Sys2Proof

theorem draw_kept (s : State) : Kept s (draw s).2 := by
  unfold draw
  repeat' (first | with_reducible exact Kept.refl _ | fail_if_no_progress with_reducible refine Kept.upd ?_ rfl rfl rfl rfl rfl rfl)
theorem draw_kept' {s : State} {x} {t} (h : draw s = (x, t)) : Kept s t := by
  have k := draw_kept s; rw [h] at k; exact k

theorem State.setQueue_kept (s : State) (a2) (a3) : Kept s (State.setQueue s a2 a3) := by
  unfold State.setQueue
  repeat' (first
      | with_reducible exact Kept.refl _ | (extract_lets) | fail_if_no_progress with_reducible refine Kept.upd ?_ rfl rfl rfl rfl rfl rfl)

theorem State.updQueue_kept (s : State) (a2) (a3) : Kept s (State.updQueue s a2 a3) := by
  unfold State.updQueue
  repeat' (first | with_reducible exact Kept.refl _ | with_reducible apply Kept.after (State.setQueue_kept ..))

theorem State.mapQueues_kept (s : State) (a2) : Kept s (State.mapQueues s a2) := by
  unfold State.mapQueues
  repeat' (first
      | with_reducible exact Kept.refl _ | (extract_lets) | fail_if_no_progress with_reducible refine Kept.upd ?_ rfl rfl rfl rfl rfl rfl)

theorem State.updSession_kept (s : State) (a2) (a3) : Kept s (State.updSession s a2 a3) := by
  unfold State.updSession
  repeat' (first | with_reducible exact Kept.refl _ | fail_if_no_progress with_reducible refine Kept.upd ?_ rfl rfl rfl rfl rfl rfl)

theorem State.updJob_kept (s : State) (a2) (a3) : Kept s (State.updJob s a2 a3) := by
  unfold State.updJob
  repeat' (first | with_reducible exact Kept.refl _ | fail_if_no_progress with_reducible refine Kept.upd ?_ rfl rfl rfl rfl rfl rfl)

theorem State.setEntry_kept (s : State) (a2) (a3) (a4) : Kept s (State.setEntry s a2 a3 a4) := by
  unfold State.setEntry
  repeat' (first | with_reducible exact Kept.refl _ | fail_if_no_progress with_reducible refine Kept.upd ?_ rfl rfl rfl rfl rfl rfl)

theorem State.setNum_kept (s : State) (a2) (a3) (a4) : Kept s (State.setNum s a2 a3 a4) := by
  unfold State.setNum
  repeat' (first | with_reducible exact Kept.refl _ | with_reducible apply Kept.after (State.setEntry_kept ..))

theorem State.add_kept (s : State) (a2) (a3) (a4) : Kept s (State.add s a2 a3 a4) := by
  unfold State.add
  repeat' (first | with_reducible exact Kept.refl _ | with_reducible apply Kept.after (State.setNum_kept ..))

theorem State.enqueue_kept (s : State) (a2) (a3) (a4) : Kept s (State.enqueue s a2 a3 a4) := by
  unfold State.enqueue
  repeat' (first | with_reducible exact Kept.refl _ | with_reducible apply Kept.after (State.updQueue_kept ..) | split)

theorem State.dropInFlight_kept (s : State) (a2) (a3) (a4) : Kept s (State.dropInFlight s a2 a3 a4) := by
  unfold State.dropInFlight
  repeat' (first
      | with_reducible exact Kept.refl _ | (extract_lets) | fail_if_no_progress with_reducible refine Kept.upd ?_ rfl rfl rfl rfl rfl rfl)

theorem State.updInFlight_kept (s : State) (a2) (a3) (a4) (a5) : Kept s (State.updInFlight s a2 a3 a4 a5) := by
  unfold State.updInFlight
  repeat' (first
      | with_reducible exact Kept.refl _ | (extract_lets) | fail_if_no_progress with_reducible refine Kept.upd ?_ rfl rfl rfl rfl rfl rfl)

theorem State.releaseRoom_kept (s : State) (a2) (a3) : Kept s (State.releaseRoom s a2 a3) := by
  unfold State.releaseRoom
  repeat' (first | with_reducible exact Kept.refl _ | with_reducible apply Kept.after (State.updQueue_kept ..) | split)

theorem State.answer_kept (s : State) (a2) (a3) (a4) (a5) : Kept s (State.answer s a2 a3 a4 a5) := by
  unfold State.answer
  repeat' (first
      | with_reducible exact Kept.refl _ | with_reducible apply Kept.after (State.releaseRoom_kept ..)
      | with_reducible apply Kept.after (State.enqueue_kept ..) | with_reducible apply Kept.after (State.updInFlight_kept ..)
      | with_reducible apply Kept.after (State.dropInFlight_kept ..) | (extract_lets) | split)

theorem State.refuseWith_kept (s : State) (a2) (a3) (a4) : Kept s (State.refuseWith s a2 a3 a4) := by
  unfold State.refuseWith
  repeat' (first
      | with_reducible exact Kept.refl _ | with_reducible apply Kept.after (State.enqueue_kept ..)
      | with_reducible apply Kept.after (State.dropInFlight_kept ..) | with_reducible apply Kept.after (State.releaseRoom_kept ..))

theorem State.answerBare_kept (s : State) (a2) (a3) (a4) : Kept s (State.answerBare s a2 a3 a4) := by
  unfold State.answerBare
  repeat' (first
      | with_reducible exact Kept.refl _ | with_reducible apply Kept.after (State.updQueue_kept ..)
      | with_reducible apply Kept.after (State.releaseRoom_kept ..))

theorem State.refuse_kept (s : State) (a2) (a3) : Kept s (State.refuse s a2 a3) := by
  unfold State.refuse
  repeat' (first | with_reducible exact Kept.refl _ | with_reducible apply Kept.after (State.refuseWith_kept ..))

theorem State.finish_kept (s : State) (a2) (a3) (a4) (a5) (a6) (a7) : Kept s (State.finish s a2 a3 a4 a5 a6 a7) := by
  unfold State.finish
  repeat' (first
      | with_reducible exact Kept.refl _ | with_reducible apply Kept.after (State.answer_kept ..)
      | with_reducible apply Kept.after (State.updInFlight_kept ..) | split)

theorem State.storeEvent_kept (s : State) (a2) (a3) (a4) : Kept s (State.storeEvent s a2 a3 a4) := by
  unfold State.storeEvent
  repeat' (first
      | with_reducible exact Kept.refl _ | with_reducible apply Kept.after (State.updQueue_kept ..)
      | with_reducible apply Kept.after (State.add_kept ..) | split)

theorem State.offer_kept (s : State) (a2) : Kept s (State.offer s a2) := by
  unfold State.offer
  repeat' (first
      | with_reducible exact Kept.refl _ | (intro _; intros) | with_reducible apply Kept.after (State.updSession_kept ..)
      | with_reducible apply Kept.after (State.add_kept ..) | with_reducible apply Kept.after (Kept.foldl _ _ _ ?_) | (extract_lets) | split)

theorem State.deliver_kept (s : State) (a2) (a3) : Kept s (State.deliver s a2 a3) := by
  unfold State.deliver
  repeat' (first
      | with_reducible exact Kept.refl _ | (intro _; intros) | with_reducible apply Kept.after (State.storeEvent_kept ..)
      | with_reducible apply Kept.after (State.offer_kept ..) | with_reducible apply Kept.after (Kept.foldl _ _ _ ?_) | (extract_lets) | split)

theorem State.record_kept (s : State) (a2) (a3) : Kept s (State.record s a2 a3) := by
  unfold State.record
  repeat' (first
      | with_reducible exact Kept.refl _ | with_reducible apply Kept.after (State.deliver_kept ..) | (extract_lets) | split
      | fail_if_no_progress with_reducible refine Kept.upd ?_ rfl rfl rfl rfl rfl rfl)

theorem State.raise_kept (s : State) (a2) (a3) (a4) (a5) (a6) (a7) : Kept s (State.raise s a2 a3 a4 a5 a6 a7) := by
  unfold State.raise
  repeat' (first | with_reducible exact Kept.refl _ | with_reducible apply Kept.after (State.record_kept ..))

theorem State.raiseJob_kept (s : State) (a2) (a3) (a4) (a5) (a6) (a7) : Kept s (State.raiseJob s a2 a3 a4 a5 a6 a7) := by
  unfold State.raiseJob
  repeat' (first | with_reducible exact Kept.refl _ | with_reducible apply Kept.after (State.record_kept ..))

theorem State.logRecord_kept (s : State) (a2) (a3) (a4) (a5) (a6) (a7) (a8) : Kept s (State.logRecord s a2 a3 a4 a5 a6 a7 a8) := by
  unfold State.logRecord
  repeat' (first | with_reducible exact Kept.refl _ | with_reducible apply Kept.after (State.updJob_kept ..))

theorem State.releaseReplay_kept (s : State) (a2) : Kept s (State.releaseReplay s a2) := by
  unfold State.releaseReplay
  repeat' (first
      | with_reducible exact Kept.refl _ | with_reducible apply Kept.after (State.updJob_kept ..) | (extract_lets) | split
      | fail_if_no_progress with_reducible refine Kept.upd ?_ rfl rfl rfl rfl rfl rfl)

theorem State.accept_kept (s : State) (a2) (a3) : Kept s (State.accept s a2 a3).1 := by
  unfold State.accept
  repeat' (first
      | with_reducible exact Kept.refl _ | with_reducible apply Kept.after (State.updInFlight_kept ..)
      | with_reducible apply Kept.after (State.updJob_kept ..) | with_reducible apply Kept.after (State.releaseReplay_kept ..)
      | with_reducible apply Kept.after (State.logRecord_kept ..) | (extract_lets) | split)
theorem State.accept_kept' {s : State} {a2} {a3} {x} {t} (h : State.accept s a2 a3 = (t, x)) : Kept s t := by
  have k := State.accept_kept s a2 a3; rw [h] at k; exact k

theorem State.runLogged_kept (s : State) (a2) (a3) (a4) (a5) (a6) (g7) (h7 : ∀ x y1, Kept x (g7 x y1)) : Kept s (State.runLogged s a2 a3 a4 a5 a6 g7) := by
  unfold State.runLogged
  repeat' (first
      | with_reducible exact Kept.refl _ | with_reducible apply Kept.after (State.refuseWith_kept ..) | with_reducible apply Kept.after (h7 ..)
      | (extract_lets) | split | with_reducible apply Kept.after (State.accept_kept ..))

theorem State.runCommand_kept (s : State) (a2) (a3) (a4) (a5) (g6) (h6 : ∀ x y1, Kept x (g6 x y1)) : Kept s (State.runCommand s a2 a3 a4 a5 g6) := by
  unfold State.runCommand
  repeat' (first
      | with_reducible exact Kept.refl _ | with_reducible assumption | with_reducible apply Kept.after (State.runLogged_kept (h7 := ?_) ..))

theorem State.done_kept (s : State) (a2) (a3) (a4) : Kept s (State.done s a2 a3 a4) := by
  unfold State.done
  repeat' (first | with_reducible exact Kept.refl _ | with_reducible apply Kept.after (State.finish_kept ..))

theorem State.finishAsker_kept (s : State) (a2) (a3) (a4) : Kept s (State.finishAsker s a2 a3 a4) := by
  unfold State.finishAsker
  repeat' (first | with_reducible exact Kept.refl _ | with_reducible apply Kept.after (State.finish_kept ..) | split)

theorem flushFragments_kept (slot n : Nat) (s : State) : Kept s (flushFragments slot n s) := by
  induction n generalizing s with
  | zero => exact Kept.refl s
  | succ n ih =>
    unfold flushFragments
    repeat' (first
        | exact Kept.refl _ | with_reducible apply Kept.after (ih _) | with_reducible apply Kept.after (State.finishAsker_kept ..)
        | with_reducible apply Kept.after (State.updJob_kept ..) | with_reducible apply Kept.after (State.enqueue_kept ..) | split)

theorem State.flushAll_kept (s : State) : Kept s (State.flushAll s) := by
  unfold State.flushAll
  repeat' (first
      | with_reducible exact Kept.refl _ | (intro _; intros) | with_reducible apply Kept.after (flushFragments_kept ..)
      | with_reducible apply Kept.after (Kept.foldl _ _ _ ?_))

theorem State.holdFragments_kept (s : State) (a2) (a3) : Kept s (State.holdFragments s a2 a3) := by
  unfold State.holdFragments
  repeat' (first
      | with_reducible exact Kept.refl _ | with_reducible apply Kept.after (State.flushAll_kept ..)
      | with_reducible apply Kept.after (State.updJob_kept ..))

end Sys2Proof.Machine
end

