-- ==== Sys2Proof/Laws/KeptDictionary.lean ====
section
/-!
SUPPORT. What the operations of Dictionary keep.
-/
set_option linter.unusedVariables false
set_option Elab.async false
namespace Sys2Proof.Machine
open Sys2Proof

theorem State.takeNode_kept (s : State) : Kept s (State.takeNode s) := by
  unfold State.takeNode
  repeat' (first
      | with_reducible exact Kept.refl _ | with_reducible apply Kept.after (State.raise_kept ..) | (extract_lets) | split
      | fail_if_no_progress with_reducible refine Kept.upd ?_ rfl rfl rfl rfl rfl rfl)

theorem State.afterWrite_kept (s : State) (a2) : Kept s (State.afterWrite s a2) := by
  unfold State.afterWrite
  repeat' (first | with_reducible exact Kept.refl _ | with_reducible apply Kept.after (State.takeNode_kept ..) | split)

theorem State.gdpAnswer_kept (s : State) (a2) (a3) (a4) (a5) : Kept s (State.gdpAnswer s a2 a3 a4 a5) := by
  unfold State.gdpAnswer
  repeat' (first
      | with_reducible exact Kept.refl _ | with_reducible apply Kept.after (State.updSession_kept ..) | (extract_lets) | split
      | fail_if_no_progress with_reducible refine Kept.upd ?_ rfl rfl rfl rfl rfl rfl)

theorem State.tell_kept (s : State) (a2) (a3) (a4) (a5) : Kept s (State.tell s a2 a3 a4 a5) := by
  unfold State.tell
  repeat' (first
      | with_reducible exact Kept.refl _ | with_reducible apply Kept.after (State.finish_kept ..)
      | with_reducible apply Kept.after (State.refuseWith_kept ..) | with_reducible apply Kept.after (State.gdpAnswer_kept ..) | split)

theorem State.store_kept (s : State) (a2) (a3) (a4) (a5) (a6) : Kept s (State.store s a2 a3 a4 a5 a6) := by
  unfold State.store
  repeat' (first
      | with_reducible exact Kept.refl _ | with_reducible apply Kept.after (State.updSession_kept ..)
      | with_reducible apply Kept.after (State.updJob_kept ..) | with_reducible apply Kept.after (State.afterWrite_kept ..)
      | with_reducible apply Kept.after (State.setEntry_kept ..) | split)

theorem State.applyWrite_kept (s : State) (a2) (a3) (a4) (a5) (a6) (a7) : Kept s (State.applyWrite s a2 a3 a4 a5 a6 a7) := by
  unfold State.applyWrite
  repeat' (first
      | with_reducible exact Kept.refl _ | with_reducible apply Kept.after (State.tell_kept ..)
      | with_reducible apply Kept.after (State.store_kept ..) | split
      | fail_if_no_progress with_reducible refine Kept.upd ?_ rfl rfl rfl rfl rfl rfl)

end Sys2Proof.Machine
end

