-- ==== Sys2Proof/Laws/KeptDictChecks.lean ====
section
/-!
SUPPORT. What the operations of DictChecks keep.
-/
set_option linter.unusedVariables false
set_option Elab.async false
namespace Sys2Proof.Machine
open Sys2Proof

theorem State.closeBlock_kept (s : State) (a2) (a3) : Kept s (State.closeBlock s a2 a3) := by
  unfold State.closeBlock
  repeat' (first | with_reducible exact Kept.refl _ | fail_if_no_progress with_reducible refine Kept.upd ?_ rfl rfl rfl rfl rfl rfl)

theorem State.endBlock_kept (s : State) (a2) : Kept s (State.endBlock s a2) := by
  unfold State.endBlock
  repeat' (first | with_reducible exact Kept.refl _ | with_reducible apply Kept.after (State.closeBlock_kept ..) | split)

theorem State.keepBlock_kept (s : State) (a2) (a3) (a4) : Kept s (State.keepBlock s a2 a3 a4) := by
  unfold State.keepBlock
  repeat' (first
      | with_reducible exact Kept.refl _ | with_reducible apply Kept.after (State.closeBlock_kept ..) | (extract_lets)
      | fail_if_no_progress with_reducible refine Kept.upd ?_ rfl rfl rfl rfl rfl rfl)

theorem State.blockWrite_kept (s : State) (a2) (a3) (a4) (a5) (a6) (a7) (a8) : Kept s (State.blockWrite s a2 a3 a4 a5 a6 a7 a8) := by
  unfold State.blockWrite
  repeat' (first
      | with_reducible exact Kept.refl _ | with_reducible apply Kept.after (State.closeBlock_kept ..)
      | with_reducible apply Kept.after (State.applyWrite_kept ..) | with_reducible apply Kept.after (State.tell_kept ..)
      | with_reducible apply Kept.after (State.keepBlock_kept ..) | (extract_lets) | split
      | fail_if_no_progress with_reducible refine Kept.upd ?_ rfl rfl rfl rfl rfl rfl)

end Sys2Proof.Machine
end

