-- ==== Sys2Proof/Laws/KeptSessions.lean ====
section
/-!
SUPPORT. What the operations of Sessions keep.
-/
set_option linter.unusedVariables false
set_option Elab.async false
namespace Sys2Proof.Machine
open Sys2Proof

theorem State.spdmSay_kept (s : State) (a2) (a3) (a4) : Kept s (State.spdmSay s a2 a3 a4) := by
  unfold State.spdmSay
  repeat' (first | with_reducible exact Kept.refl _ | fail_if_no_progress with_reducible refine Kept.upd ?_ rfl rfl rfl rfl rfl rfl)

theorem State.spdmFree_kept (s : State) (a2) (a3) : Kept s (State.spdmFree s a2 a3) := by
  unfold State.spdmFree
  repeat' (first
      | with_reducible exact Kept.refl _ | with_reducible apply Kept.after (State.spdmSay_kept ..) | (extract_lets)
      | with_reducible apply Kept.after (draw_kept ..))

theorem State.orphanCommands_kept (s : State) (a2) : Kept s (State.orphanCommands s a2) := by
  unfold State.orphanCommands
  repeat' (first
      | with_reducible exact Kept.refl _ | (extract_lets) | fail_if_no_progress with_reducible refine Kept.upd ?_ rfl rfl rfl rfl rfl rfl)

theorem State.endSession_kept (s : State) (a2) (a3) : Kept s (State.endSession s a2 a3) := by
  unfold State.endSession
  repeat' (first
      | with_reducible exact Kept.refl _ | (intro _; intros) | with_reducible apply Kept.after (State.releaseRoom_kept ..)
      | with_reducible apply Kept.after (State.mapQueues_kept ..) | with_reducible apply Kept.after (State.raise_kept ..)
      | with_reducible apply Kept.after (State.orphanCommands_kept ..) | with_reducible apply Kept.after (Kept.foldl _ _ _ ?_) | (extract_lets)
      | split | fail_if_no_progress with_reducible refine Kept.upd ?_ rfl rfl rfl rfl rfl rfl)

theorem State.failDecrypt_kept (s : State) (a2) (a3) : Kept s (State.failDecrypt s a2 a3) := by
  unfold State.failDecrypt
  repeat' (first
      | with_reducible exact Kept.refl _ | with_reducible apply Kept.after (State.updSession_kept ..)
      | with_reducible apply Kept.after (State.endSession_kept ..) | (extract_lets) | split)

theorem State.keyExchange_kept (s : State) (a2) : Kept s (State.keyExchange s a2) := by
  unfold State.keyExchange
  repeat' (first
      | with_reducible exact Kept.refl _ | with_reducible apply Kept.after (State.spdmSay_kept ..)
      | with_reducible apply Kept.after (State.spdmFree_kept ..) | (extract_lets) | split
      | fail_if_no_progress with_reducible refine Kept.upd ?_ rfl rfl rfl rfl rfl rfl)

theorem State.dropSession_kept (s : State) (a2) : Kept s (State.dropSession s a2) := by
  unfold State.dropSession
  repeat' (first | with_reducible exact Kept.refl _ | fail_if_no_progress with_reducible refine Kept.upd ?_ rfl rfl rfl rfl rfl rfl)

theorem State.finishSession_kept (s : State) (a2) (a3) (a4) : Kept s (State.finishSession s a2 a3 a4) := by
  unfold State.finishSession
  repeat' (first
      | with_reducible exact Kept.refl _ | with_reducible apply Kept.after (State.spdmSay_kept ..)
      | with_reducible apply Kept.after (State.spdmFree_kept ..) | with_reducible apply Kept.after (State.updSession_kept ..)
      | with_reducible apply Kept.after (State.dropSession_kept ..) | (extract_lets) | split | with_reducible apply Kept.after (draw_kept ..))

theorem State.spdm_kept (s : State) (a2) (a3) : Kept s (State.spdm s a2 a3) := by
  unfold State.spdm
  repeat' (first
      | with_reducible exact Kept.refl _ | with_reducible apply Kept.after (State.spdmSay_kept ..)
      | with_reducible apply Kept.after (State.spdmFree_kept ..) | with_reducible apply Kept.after (State.keyExchange_kept ..)
      | with_reducible apply Kept.after (State.finishSession_kept ..) | with_reducible apply Kept.after (State.updSession_kept ..)
      | with_reducible apply Kept.after (State.endSession_kept ..) | split)

theorem State.doe_kept (s : State) (a2) : Kept s (State.doe s a2) := by
  unfold State.doe
  repeat' (first | with_reducible exact Kept.refl _ | with_reducible apply Kept.after (State.spdm_kept ..) | split)

theorem execGetVersion_kept (s : State) (t : State) (h : execGetVersion s = .next t) : Kept s t := by
  unfold execGetVersion at h
  injection h with h; subst h
  repeat' (first | with_reducible exact Kept.refl _ | with_reducible apply Kept.after (State.doe_kept ..))

theorem execGetCapabilities_kept (s : State) (t : State) (h : execGetCapabilities s = .next t) : Kept s t := by
  unfold execGetCapabilities at h
  injection h with h; subst h
  repeat' (first | with_reducible exact Kept.refl _ | with_reducible apply Kept.after (State.doe_kept ..))

theorem execNegotiateAlgorithms_kept (s : State) (t : State) (h : execNegotiateAlgorithms s = .next t) : Kept s t := by
  unfold execNegotiateAlgorithms at h
  injection h with h; subst h
  repeat' (first | with_reducible exact Kept.refl _ | with_reducible apply Kept.after (State.doe_kept ..))

theorem execGetDigests_kept (s : State) (t : State) (h : execGetDigests s = .next t) : Kept s t := by
  unfold execGetDigests at h
  injection h with h; subst h
  repeat' (first | with_reducible exact Kept.refl _ | with_reducible apply Kept.after (State.doe_kept ..))

theorem execGetCertificate_kept (a1) (a2) (s : State) (t : State) (h : execGetCertificate a1 a2 s = .next t) : Kept s t := by
  unfold execGetCertificate at h
  injection h with h; subst h
  repeat' (first | with_reducible exact Kept.refl _ | with_reducible apply Kept.after (State.doe_kept ..))

theorem execChallenge_kept (s : State) (t : State) (h : execChallenge s = .next t) : Kept s t := by
  unfold execChallenge at h
  injection h with h; subst h
  repeat' (first | with_reducible exact Kept.refl _ | with_reducible apply Kept.after (State.doe_kept ..))

theorem execGetMeasurements_kept (a1) (s : State) (t : State) (h : execGetMeasurements a1 s = .next t) : Kept s t := by
  unfold execGetMeasurements at h
  injection h with h; subst h
  repeat' (first | with_reducible exact Kept.refl _ | with_reducible apply Kept.after (State.doe_kept ..))

theorem execKeyExchange_kept (s : State) (t : State) (h : execKeyExchange s = .next t) : Kept s t := by
  unfold execKeyExchange at h
  injection h with h; subst h
  repeat' (first | with_reducible exact Kept.refl _ | with_reducible apply Kept.after (State.doe_kept ..))

theorem execFinish_kept (a1) (a2) (s : State) (t : State) (h : execFinish a1 a2 s = .next t) : Kept s t := by
  unfold execFinish at h
  injection h with h; subst h
  repeat' (first | with_reducible exact Kept.refl _ | with_reducible apply Kept.after (State.doe_kept ..))

theorem execEndSession_kept (a1) (s : State) (t : State) (h : execEndSession a1 s = .next t) : Kept s t := by
  unfold execEndSession at h
  injection h with h; subst h
  repeat' (first | with_reducible exact Kept.refl _ | with_reducible apply Kept.after (State.doe_kept ..))

theorem execHeartbeat_kept (a1) (s : State) (t : State) (h : execHeartbeat a1 s = .next t) : Kept s t := by
  unfold execHeartbeat at h
  injection h with h; subst h
  repeat' (first | with_reducible exact Kept.refl _ | with_reducible apply Kept.after (State.doe_kept ..))

theorem execSpdmKeyUpdate_kept (a1) (s : State) (t : State) (h : execSpdmKeyUpdate a1 s = .next t) : Kept s t := by
  unfold execSpdmKeyUpdate at h
  injection h with h; subst h
  repeat' (first | with_reducible exact Kept.refl _ | with_reducible apply Kept.after (State.doe_kept ..))

theorem execEncapsulatedExchange_kept (a1) (a2) (a3) (s : State) (t : State) (h : execEncapsulatedExchange a1 a2 a3 s = .next t) : Kept s t := by
  unfold execEncapsulatedExchange at h
  injection h with h; subst h
  repeat' (first | with_reducible exact Kept.refl _ | with_reducible apply Kept.after (State.doe_kept ..))

theorem execSessionHeartbeatExpired_kept (a1) (s : State) (t : State) (h : execSessionHeartbeatExpired a1 s = .next t) : Kept s t := by
  unfold execSessionHeartbeatExpired at h
  injection h with h; subst h
  repeat' (first | with_reducible exact Kept.refl _ | with_reducible apply Kept.after (State.endSession_kept ..) | split)

end Sys2Proof.Machine
end

