-- ==== Sys2Proof/Laws/KeptServices.lean ====
section
/-!
SUPPORT. What the operations of Services keep.
-/
set_option linter.unusedVariables false
set_option Elab.async false
namespace Sys2Proof.Machine
open Sys2Proof

theorem State.dictRead_kept (s : State) (a2) : Kept s (State.dictRead s a2) := by
  unfold State.dictRead
  repeat' (first
      | with_reducible exact Kept.refl _ | (intro _; intros) | with_reducible apply Kept.after (State.runCommand_kept (h6 := ?_) ..)
      | with_reducible apply Kept.after (State.done_kept ..))

theorem State.dictWrite_kept (s : State) (a2) : Kept s (State.dictWrite s a2) := by
  unfold State.dictWrite
  repeat' (first
      | with_reducible exact Kept.refl _ | (intro _; intros) | with_reducible apply Kept.after (State.runCommand_kept (h6 := ?_) ..)
      | with_reducible apply Kept.after (State.applyWrite_kept ..) | (extract_lets) | split)

theorem State.dictReadBlock_kept (s : State) (a2) : Kept s (State.dictReadBlock s a2) := by
  unfold State.dictReadBlock
  repeat' (first
      | with_reducible exact Kept.refl _ | (intro _; intros) | with_reducible apply Kept.after (State.runCommand_kept (h6 := ?_) ..)
      | with_reducible apply Kept.after (State.done_kept ..) | (extract_lets) | split)

theorem State.dictWriteBlock_kept (s : State) (a2) : Kept s (State.dictWriteBlock s a2) := by
  unfold State.dictWriteBlock
  repeat' (first
      | with_reducible exact Kept.refl _ | (intro _; intros) | with_reducible apply Kept.after (State.endBlock_kept ..)
      | with_reducible apply Kept.after (State.runCommand_kept (h6 := ?_) ..) | with_reducible apply Kept.after (State.blockWrite_kept ..))

theorem State.dropFrame_kept (s : State) : Kept s (State.dropFrame s) := by
  unfold State.dropFrame
  repeat' (first | with_reducible exact Kept.refl _ | with_reducible apply Kept.after (State.add_kept ..))

theorem State.bare_kept (s : State) (a2) (a3) (a4) (a5) : Kept s (State.bare s a2 a3 a4 a5) := by
  unfold State.bare
  repeat' (first | with_reducible exact Kept.refl _ | fail_if_no_progress with_reducible refine Kept.upd ?_ rfl rfl rfl rfl rfl rfl)

theorem State.beginFrame_kept (s : State) (a2) : Kept s (State.beginFrame s a2) := by
  unfold State.beginFrame
  repeat' (first | with_reducible exact Kept.refl _ | with_reducible apply Kept.after (State.updSession_kept ..))

theorem State.answerUnkept_kept (s : State) (a2) (a3) (a4) (a5) (a6) (a7) : Kept s (State.answerUnkept s a2 a3 a4 a5 a6 a7) := by
  unfold State.answerUnkept
  repeat' (first
      | with_reducible exact Kept.refl _ | with_reducible apply Kept.after (State.updSession_kept ..) | (extract_lets)
      | fail_if_no_progress with_reducible refine Kept.upd ?_ rfl rfl rfl rfl rfl rfl)

theorem State.spdmTyped_kept (s : State) (a2) : Kept s (State.spdmTyped s a2) := by
  unfold State.spdmTyped
  repeat' (first
      | with_reducible exact Kept.refl _ | with_reducible apply Kept.after (State.bare_kept ..)
      | with_reducible apply Kept.after (State.answerUnkept_kept ..) | split)

theorem State.limitedAnswer_kept (s : State) (a2) : Kept s (State.limitedAnswer s a2) := by
  unfold State.limitedAnswer
  repeat' (first | with_reducible exact Kept.refl _ | with_reducible apply Kept.after (State.bare_kept ..) | (extract_lets) | split)

theorem State.gdpAccept_kept (s : State) (a2) (a3) (a4) (g5) (h5 : ∀ x y1, Kept x (g5 x y1)) : Kept s (State.gdpAccept s a2 a3 a4 g5) := by
  unfold State.gdpAccept
  repeat' (first
      | with_reducible exact Kept.refl _ | with_reducible apply Kept.after (State.answerUnkept_kept ..)
      | with_reducible apply Kept.after (State.updSession_kept ..) | with_reducible apply Kept.after (State.gdpAnswer_kept ..)
      | with_reducible apply Kept.after (State.beginFrame_kept ..) | with_reducible apply Kept.after (h5 ..) | split)

theorem State.gdpSealed_kept (s : State) (a2) (a3) (g4) (h4 : ∀ x y1, Kept x (g4 x y1)) : Kept s (State.gdpSealed s a2 a3 g4) := by
  unfold State.gdpSealed
  repeat' (first
      | with_reducible exact Kept.refl _ | with_reducible assumption | with_reducible apply Kept.after (State.bare_kept ..)
      | with_reducible apply Kept.after (State.failDecrypt_kept ..) | with_reducible apply Kept.after (State.dropFrame_kept ..)
      | with_reducible apply Kept.after (State.gdpAccept_kept (h5 := ?_) ..) | with_reducible apply Kept.after (State.updSession_kept ..) | split)

theorem State.gdpRequest_kept (s : State) (a2) (a3) (g4) (h4 : ∀ x y1, Kept x (g4 x y1)) : Kept s (State.gdpRequest s a2 a3 g4) := by
  unfold State.gdpRequest
  repeat' (first
      | with_reducible exact Kept.refl _ | with_reducible assumption | with_reducible apply Kept.after (State.dropFrame_kept ..)
      | with_reducible apply Kept.after (State.limitedAnswer_kept ..) | with_reducible apply Kept.after (State.spdmTyped_kept ..)
      | with_reducible apply Kept.after (State.gdpSealed_kept (h4 := ?_) ..) | split)

theorem State.gdpChecked_kept (s : State) (a2) (a3) (g4) (h4 : ∀ x, Kept x (g4 x)) : Kept s (State.gdpChecked s a2 a3 g4) := by
  unfold State.gdpChecked
  repeat' (first
      | with_reducible exact Kept.refl _ | with_reducible apply Kept.after (State.gdpAnswer_kept ..) | with_reducible apply Kept.after (h4 ..)
      | split)

theorem State.gdpRead_kept (s : State) (a2) : Kept s (State.gdpRead s a2) := by
  unfold State.gdpRead
  repeat' (first
      | with_reducible exact Kept.refl _ | (intro _; intros) | with_reducible apply Kept.after (State.gdpRequest_kept (h4 := ?_) ..)
      | with_reducible apply Kept.after (State.gdpAnswer_kept ..) | (extract_lets) | split)

theorem State.gdpWrite_kept (s : State) (a2) : Kept s (State.gdpWrite s a2) := by
  unfold State.gdpWrite
  repeat' (first
      | with_reducible exact Kept.refl _ | (intro _; intros) | with_reducible apply Kept.after (State.gdpRequest_kept (h4 := ?_) ..)
      | with_reducible apply Kept.after (State.gdpChecked_kept (h4 := ?_) ..) | with_reducible apply Kept.after (State.applyWrite_kept ..)
      | (extract_lets) | split)

theorem State.gdpReadBlock_kept (s : State) (a2) : Kept s (State.gdpReadBlock s a2) := by
  unfold State.gdpReadBlock
  repeat' (first
      | with_reducible exact Kept.refl _ | (intro _; intros) | with_reducible apply Kept.after (State.gdpRequest_kept (h4 := ?_) ..)
      | with_reducible apply Kept.after (State.gdpAnswer_kept ..) | (extract_lets) | split)

theorem State.gdpWriteBlock_kept (s : State) (a2) : Kept s (State.gdpWriteBlock s a2) := by
  unfold State.gdpWriteBlock
  repeat' (first
      | with_reducible exact Kept.refl _ | (intro _; intros) | with_reducible apply Kept.after (State.gdpRequest_kept (h4 := ?_) ..)
      | with_reducible apply Kept.after (State.endBlock_kept ..) | with_reducible apply Kept.after (State.gdpChecked_kept (h4 := ?_) ..)
      | with_reducible apply Kept.after (State.blockWrite_kept ..) | split)

theorem State.viaWrite_kept (s : State) (a2) (a3) (a4) (g5) (h5 : ∀ x y1 y2 y3 y4 y5, Kept x (g5 x y1 y2 y3 y4 y5)) : Kept s (State.viaWrite s a2 a3 a4 g5) := by
  unfold State.viaWrite
  repeat' (first
      | with_reducible exact Kept.refl _ | (intro _; intros) | with_reducible apply Kept.after (State.runCommand_kept (h6 := ?_) ..)
      | with_reducible apply Kept.after (State.gdpRequest_kept (h4 := ?_) ..)
      | with_reducible apply Kept.after (State.gdpChecked_kept (h4 := ?_) ..) | with_reducible apply Kept.after (h5 ..) | split)

theorem State.subscribeStart_kept (s : State) (a2) : Kept s (State.subscribeStart s a2) := by
  unfold State.subscribeStart
  repeat' (first
      | with_reducible exact Kept.refl _ | (intro _; intros) | with_reducible apply Kept.after (State.gdpRequest_kept (h4 := ?_) ..)
      | with_reducible apply Kept.after (State.gdpChecked_kept (h4 := ?_) ..) | with_reducible apply Kept.after (State.gdpAnswer_kept ..)
      | with_reducible apply Kept.after (State.updSession_kept ..) | (extract_lets) | split)

theorem State.subscribeStop_kept (s : State) (a2) : Kept s (State.subscribeStop s a2) := by
  unfold State.subscribeStop
  repeat' (first
      | with_reducible exact Kept.refl _ | (intro _; intros) | with_reducible apply Kept.after (State.gdpRequest_kept (h4 := ?_) ..)
      | with_reducible apply Kept.after (State.gdpChecked_kept (h4 := ?_) ..) | with_reducible apply Kept.after (State.gdpAnswer_kept ..)
      | with_reducible apply Kept.after (State.updSession_kept ..) | split)

theorem State.subscribeAck_kept (s : State) (a2) : Kept s (State.subscribeAck s a2) := by
  unfold State.subscribeAck
  repeat' (first
      | with_reducible exact Kept.refl _ | (intro _; intros) | with_reducible apply Kept.after (State.gdpRequest_kept (h4 := ?_) ..)
      | with_reducible apply Kept.after (State.gdpChecked_kept (h4 := ?_) ..) | with_reducible apply Kept.after (State.gdpAnswer_kept ..)
      | with_reducible apply Kept.after (State.updSession_kept ..) | (extract_lets) | split)

theorem State.eventFrame_kept (s : State) (a2) : Kept s (State.eventFrame s a2) := by
  unfold State.eventFrame
  repeat' (first
      | with_reducible exact Kept.refl _ | with_reducible apply Kept.after (State.updSession_kept ..) | (extract_lets) | split
      | fail_if_no_progress with_reducible refine Kept.upd ?_ rfl rfl rfl rfl rfl rfl)

theorem State.eventResend_kept (s : State) (a2) : Kept s (State.eventResend s a2) := by
  unfold State.eventResend
  repeat' (first
      | with_reducible exact Kept.refl _ | with_reducible apply Kept.after (State.add_kept ..)
      | with_reducible apply Kept.after (State.updSession_kept ..) | (extract_lets) | split
      | fail_if_no_progress with_reducible refine Kept.upd ?_ rfl rfl rfl rfl rfl rfl)

theorem State.blockGap_kept (s : State) (a2) (a3) : Kept s (State.blockGap s a2 a3) := by
  unfold State.blockGap
  repeat' (first
      | with_reducible exact Kept.refl _ | (extract_lets) | split | fail_if_no_progress with_reducible refine Kept.upd ?_ rfl rfl rfl rfl rfl rfl)

theorem State.frameSpdm_kept (s : State) (a2) (a3) : Kept s (State.frameSpdm s a2 a3) := by
  unfold State.frameSpdm
  repeat' (first | with_reducible exact Kept.refl _ | split | fail_if_no_progress with_reducible refine Kept.upd ?_ rfl rfl rfl rfl rfl rfl)

theorem State.spdmBare_kept (s : State) (a2) : Kept s (State.spdmBare s a2) := by
  unfold State.spdmBare
  repeat' (first | with_reducible exact Kept.refl _ | fail_if_no_progress with_reducible refine Kept.upd ?_ rfl rfl rfl rfl rfl rfl)

theorem State.frameSays_kept (s : State) (a2) (a3) (a4) : Kept s (State.frameSays s a2 a3 a4) := by
  unfold State.frameSays
  repeat' (first
      | with_reducible exact Kept.refl _ | with_reducible apply Kept.after (State.frameSpdm_kept ..)
      | with_reducible apply Kept.after (State.spdm_kept ..) | with_reducible apply Kept.after (State.spdmSay_kept ..) | (extract_lets) | split)

theorem State.gdpSpdm_kept (s : State) (a2) (a3) (a4) (a5) (a6) : Kept s (State.gdpSpdm s a2 a3 a4 a5 a6) := by
  unfold State.gdpSpdm
  repeat' (first
      | with_reducible exact Kept.refl _ | with_reducible apply Kept.after (State.frameSpdm_kept ..)
      | with_reducible apply Kept.after (State.spdm_kept ..) | with_reducible apply Kept.after (State.spdmBare_kept ..)
      | with_reducible apply Kept.after (State.frameSays_kept ..) | with_reducible apply Kept.after (State.failDecrypt_kept ..) | split)

theorem execDictRead_kept (a1) (s : State) (t : State) (h : execDictRead a1 s = .next t) : Kept s t := by
  unfold execDictRead at h
  injection h with h; subst h
  repeat' (first | with_reducible exact Kept.refl _ | with_reducible apply Kept.after (State.dictRead_kept ..))

theorem execDictWrite_kept (a1) (s : State) (t : State) (h : execDictWrite a1 s = .next t) : Kept s t := by
  unfold execDictWrite at h
  injection h with h; subst h
  repeat' (first | with_reducible exact Kept.refl _ | with_reducible apply Kept.after (State.dictWrite_kept ..))

theorem execDictReadBlock_kept (a1) (s : State) (t : State) (h : execDictReadBlock a1 s = .next t) : Kept s t := by
  unfold execDictReadBlock at h
  injection h with h; subst h
  repeat' (first | with_reducible exact Kept.refl _ | with_reducible apply Kept.after (State.dictReadBlock_kept ..))

theorem execDictWriteBlock_kept (a1) (s : State) (t : State) (h : execDictWriteBlock a1 s = .next t) : Kept s t := by
  unfold execDictWriteBlock at h
  injection h with h; subst h
  repeat' (first | with_reducible exact Kept.refl _ | with_reducible apply Kept.after (State.dictWriteBlock_kept ..))

theorem execGdpRead_kept (a1) (s : State) (t : State) (h : execGdpRead a1 s = .next t) : Kept s t := by
  unfold execGdpRead at h
  injection h with h; subst h
  repeat' (first | with_reducible exact Kept.refl _ | with_reducible apply Kept.after (State.gdpRead_kept ..))

theorem execGdpWrite_kept (a1) (s : State) (t : State) (h : execGdpWrite a1 s = .next t) : Kept s t := by
  unfold execGdpWrite at h
  injection h with h; subst h
  repeat' (first | with_reducible exact Kept.refl _ | with_reducible apply Kept.after (State.gdpWrite_kept ..))

theorem execGdpReadBlock_kept (a1) (s : State) (t : State) (h : execGdpReadBlock a1 s = .next t) : Kept s t := by
  unfold execGdpReadBlock at h
  injection h with h; subst h
  repeat' (first | with_reducible exact Kept.refl _ | with_reducible apply Kept.after (State.gdpReadBlock_kept ..))

theorem execGdpWriteBlock_kept (a1) (s : State) (t : State) (h : execGdpWriteBlock a1 s = .next t) : Kept s t := by
  unfold execGdpWriteBlock at h
  injection h with h; subst h
  repeat' (first | with_reducible exact Kept.refl _ | with_reducible apply Kept.after (State.gdpWriteBlock_kept ..))

theorem execSubscribeStart_kept (a1) (s : State) (t : State) (h : execSubscribeStart a1 s = .next t) : Kept s t := by
  unfold execSubscribeStart at h
  injection h with h; subst h
  repeat' (first | with_reducible exact Kept.refl _ | with_reducible apply Kept.after (State.subscribeStart_kept ..))

theorem execSubscribeStop_kept (a1) (s : State) (t : State) (h : execSubscribeStop a1 s = .next t) : Kept s t := by
  unfold execSubscribeStop at h
  injection h with h; subst h
  repeat' (first | with_reducible exact Kept.refl _ | with_reducible apply Kept.after (State.subscribeStop_kept ..))

theorem execSubscribeAck_kept (a1) (s : State) (t : State) (h : execSubscribeAck a1 s = .next t) : Kept s t := by
  unfold execSubscribeAck at h
  injection h with h; subst h
  repeat' (first | with_reducible exact Kept.refl _ | with_reducible apply Kept.after (State.subscribeAck_kept ..))

theorem execEventFrameSend_kept (a1) (s : State) (t : State) (h : execEventFrameSend a1 s = .next t) : Kept s t := by
  unfold execEventFrameSend at h
  injection h with h; subst h
  repeat' (first | with_reducible exact Kept.refl _ | with_reducible apply Kept.after (State.eventFrame_kept ..))

theorem execEventFrameResend_kept (a1) (s : State) (t : State) (h : execEventFrameResend a1 s = .next t) : Kept s t := by
  unfold execEventFrameResend at h
  injection h with h; subst h
  repeat' (first | with_reducible exact Kept.refl _ | with_reducible apply Kept.after (State.eventResend_kept ..))

theorem execBlockGapTimeout_kept (a1) (a2) (s : State) (t : State) (h : execBlockGapTimeout a1 a2 s = .next t) : Kept s t := by
  unfold execBlockGapTimeout at h
  injection h with h; subst h
  repeat' (first | with_reducible exact Kept.refl _ | with_reducible apply Kept.after (State.blockGap_kept ..))

theorem execGdpSpdm_kept (a1) (a2) (a3) (a4) (s : State) (t : State) (h : execGdpSpdm a1 a2 a3 a4 s = .next t) : Kept s t := by
  unfold execGdpSpdm at h
  injection h with h; subst h
  repeat' (first | with_reducible exact Kept.refl _ | with_reducible apply Kept.after (State.gdpSpdm_kept ..))

theorem execNop_kept (a1) (s : State) (t : State) (h : execNop a1 s = .next t) : Kept s t := by
  unfold execNop at h
  injection h with h; subst h
  repeat' (first
      | with_reducible exact Kept.refl _ | (intro _; intros) | with_reducible apply Kept.after (State.runCommand_kept (h6 := ?_) ..)
      | with_reducible apply Kept.after (State.done_kept ..))

theorem State.eventAck_kept (s : State) (a2) (a3) : Kept s (State.eventAck s a2 a3) := by
  unfold State.eventAck
  repeat' (first
      | with_reducible exact Kept.refl _ | with_reducible apply Kept.after (State.mapQueues_kept ..)
      | with_reducible apply Kept.after (State.updSession_kept ..) | split)

theorem execEventAck_kept (a1) (s : State) (t : State) (h : execEventAck a1 s = .next t) : Kept s t := by
  unfold execEventAck at h
  injection h with h; subst h
  repeat' (first
      | with_reducible exact Kept.refl _ | (intro _; intros) | with_reducible apply Kept.after (State.runCommand_kept (h6 := ?_) ..)
      | with_reducible apply Kept.after (State.done_kept ..) | with_reducible apply Kept.after (State.eventAck_kept ..))

end Sys2Proof.Machine
end

