-- ==== Sys2Proof/Laws/KeptFabric.lean ====
section
/-!
SUPPORT. What the operations of Fabric keep.
-/
set_option linter.unusedVariables false
set_option Elab.async false
namespace Sys2Proof.Machine
open Sys2Proof

theorem State.setSuesh_kept (s : State) (a2) (a3) : Kept s (State.setSuesh s a2 a3) :=
  ⟨rfl, rfl, List.length_set, id, id, id, Fewer.refl _, Worn.refl _, Worn.refl _, le_rfl, le_rfl⟩

theorem State.updBringWindow_kept (s : State) (a2) : Kept s (State.updBringWindow s a2) := by
  unfold State.updBringWindow
  repeat' (first
      | with_reducible exact Kept.refl _ | (extract_lets) | fail_if_no_progress with_reducible refine Kept.upd ?_ rfl rfl rfl rfl rfl rfl)

theorem State.updAssoc_kept (s : State) (a2) (a3) : Kept s (State.updAssoc s a2 a3) := by
  unfold State.updAssoc
  repeat' (first
      | with_reducible exact Kept.refl _ | (extract_lets) | fail_if_no_progress with_reducible refine Kept.upd ?_ rfl rfl rfl rfl rfl rfl)

theorem State.onPort_kept (s : State) (a2) (a3) (a4) : Kept s (State.onPort s a2 a3 a4) := by
  unfold State.onPort
  repeat' (first | with_reducible exact Kept.refl _ | with_reducible apply Kept.after (State.setSuesh_kept ..))

theorem State.seal_kept (s : State) (a2) (a3) (a4) (a5) : Kept s (State.seal s a2 a3 a4 a5) := by
  unfold State.seal
  repeat' (first
      | with_reducible exact Kept.refl _ | with_reducible apply Kept.after (State.updAssoc_kept ..)
      | with_reducible apply Kept.after (State.onPort_kept ..))

theorem State.send_kept (s : State) (a2) (a3) (a4) : Kept s (State.send s a2 a3 a4) := by
  unfold State.send
  repeat' (first
      | with_reducible exact Kept.refl _ | with_reducible apply Kept.after (State.seal_kept ..) | (extract_lets) | split
      | fail_if_no_progress with_reducible refine Kept.upd ?_ rfl rfl rfl rfl rfl rfl)

theorem State.flush_kept (s : State) (a2) : Kept s (State.flush s a2) := by
  unfold State.flush
  repeat' (first
      | with_reducible exact Kept.refl _ | (intro _; intros) | with_reducible apply Kept.after (State.send_kept ..)
      | with_reducible apply Kept.after (Kept.foldl _ _ _ ?_) | (extract_lets)
      | fail_if_no_progress with_reducible refine Kept.upd ?_ rfl rfl rfl rfl rfl rfl)

theorem State.flushWaiting_kept (s : State) : Kept s (State.flushWaiting s) := by
  unfold State.flushWaiting
  repeat' (first
      | with_reducible exact Kept.refl _ | (intro _; intros) | with_reducible apply Kept.after (State.flush_kept ..)
      | with_reducible apply Kept.after (Kept.foldl _ _ _ ?_))

theorem State.portDown_kept (s : State) (a2) (a3) : Kept s (State.portDown s a2 a3) := by
  unfold State.portDown
  repeat' (first
      | with_reducible exact Kept.refl _ | with_reducible apply Kept.after (State.raise_kept ..)
      | with_reducible apply Kept.after (State.setSuesh_kept ..))

theorem State.portUp_kept (s : State) (a2) (a3) : Kept s (State.portUp s a2 a3) := by
  unfold State.portUp
  repeat' (first
      | with_reducible exact Kept.refl _ | with_reducible apply Kept.after (State.setSuesh_kept ..)
      | with_reducible apply Kept.after (State.flushWaiting_kept ..) | (extract_lets)
      | fail_if_no_progress with_reducible refine Kept.upd ?_ rfl rfl rfl rfl rfl rfl)

theorem State.laneFault_kept (s : State) (a2) (a3) : Kept s (State.laneFault s a2 a3) := by
  unfold State.laneFault
  repeat' (first
      | with_reducible exact Kept.refl _ | with_reducible apply Kept.after (State.portDown_kept ..)
      | with_reducible apply Kept.after (State.flushWaiting_kept ..) | with_reducible apply Kept.after (State.raise_kept ..)
      | with_reducible apply Kept.after (State.add_kept ..) | with_reducible apply Kept.after (State.setSuesh_kept ..) | (extract_lets) | split)

theorem State.portRetry_kept (s : State) (a2) (a3) : Kept s (State.portRetry s a2 a3) := by
  unfold State.portRetry
  repeat' (first
      | with_reducible exact Kept.refl _ | with_reducible apply Kept.after (State.raise_kept ..)
      | with_reducible apply Kept.after (State.portUp_kept ..) | with_reducible apply Kept.after (State.flushWaiting_kept ..)
      | with_reducible apply Kept.after (State.add_kept ..) | with_reducible apply Kept.after (State.setSuesh_kept ..) | (extract_lets) | split)

theorem State.portTrained_kept (s : State) (a2) (a3) : Kept s (State.portTrained s a2 a3) := by
  unfold State.portTrained
  repeat' (first
      | with_reducible exact Kept.refl _ | with_reducible apply Kept.after (State.updBringWindow_kept ..)
      | with_reducible apply Kept.after (State.portUp_kept ..) | split)

theorem State.portWindow_kept (s : State) (a2) : Kept s (State.portWindow s a2) := by
  unfold State.portWindow
  repeat' (first
      | with_reducible exact Kept.refl _ | with_reducible apply Kept.after (State.raise_kept ..)
      | with_reducible apply Kept.after (State.updBringWindow_kept ..) | split)

theorem State.formAssoc_kept (s : State) (a2) (a3) : Kept s (State.formAssoc s a2 a3) := by
  unfold State.formAssoc
  repeat' (first
      | with_reducible exact Kept.refl _ | with_reducible apply Kept.after (State.flush_kept ..) | (extract_lets)
      | fail_if_no_progress with_reducible refine Kept.upd ?_ rfl rfl rfl rfl rfl rfl | with_reducible apply Kept.after (draw_kept ..))

theorem State.assocSetup_kept (s : State) (a2) (a3) (a4) (a5) (a6) (a7) : Kept s (State.assocSetup s a2 a3 a4 a5 a6 a7) := by
  unfold State.assocSetup
  repeat' (first
      | with_reducible exact Kept.refl _ | with_reducible apply Kept.after (State.raise_kept ..)
      | with_reducible apply Kept.after (State.formAssoc_kept ..) | (extract_lets) | split)

theorem State.linkIn_kept (s : State) (a2) (a3) (a4) : Kept s (State.linkIn s a2 a3 a4).1 := by
  unfold State.linkIn
  repeat' (first
      | with_reducible exact Kept.refl _ | with_reducible apply Kept.after (State.add_kept ..)
      | with_reducible apply Kept.after (State.setSuesh_kept ..) | with_reducible apply Kept.after (State.flushWaiting_kept ..) | (extract_lets)
      | split | (with_reducible change Kept _ (ite _ _ _); split))
theorem State.linkIn_kept' {s : State} {a2} {a3} {a4} {x} {t} (h : State.linkIn s a2 a3 a4 = (t, x)) : Kept s t := by
  have k := State.linkIn_kept s a2 a3 a4; rw [h] at k; exact k

theorem State.tagFail_kept (s : State) (a2) (a3) (a4) : Kept s (State.tagFail s a2 a3 a4) := by
  unfold State.tagFail
  repeat' (first
      | with_reducible exact Kept.refl _ | with_reducible apply Kept.after (State.updAssoc_kept ..)
      | with_reducible apply Kept.after (State.add_kept ..) | with_reducible apply Kept.after (State.raise_kept ..)
      | with_reducible apply Kept.after (State.formAssoc_kept ..) | (extract_lets) | split | (with_reducible change Kept _ (ite _ _ _); split))

theorem State.receive_kept (s : State) (a2) (a3) (a4) (a5) (a6) : Kept s (State.receive s a2 a3 a4 a5 a6).1 := by
  unfold State.receive
  repeat' (first
      | with_reducible exact Kept.refl _ | with_reducible apply Kept.after (State.add_kept ..)
      | with_reducible apply Kept.after (State.tagFail_kept ..) | with_reducible apply Kept.after (State.updAssoc_kept ..) | (extract_lets) | split
      | with_reducible (apply Kept.after; apply State.linkIn_kept'; assumption))
theorem State.receive_kept' {s : State} {a2} {a3} {a4} {a5} {a6} {x} {t} (h : State.receive s a2 a3 a4 a5 a6 = (t, x)) : Kept s t := by
  have k := State.receive_kept s a2 a3 a4 a5 a6; rw [h] at k; exact k

theorem State.land_kept (s : State) (a2) (a3) (a4) : Kept s (State.land s a2 a3 a4) := by
  unfold State.land
  repeat' (first
      | with_reducible exact Kept.refl _ | with_reducible apply Kept.after (State.add_kept ..)
      | with_reducible apply Kept.after (State.updAssoc_kept ..))

theorem State.receiveLanding_kept (s : State) (a2) (a3) (a4) (a5) (a6) : Kept s (State.receiveLanding s a2 a3 a4 a5 a6) := by
  unfold State.receiveLanding
  repeat' (first
      | with_reducible exact Kept.refl _ | with_reducible apply Kept.after (State.land_kept ..) | (extract_lets) | split
      | with_reducible (apply Kept.after; apply State.receive_kept'; assumption))

theorem State.e2eAckIn_kept (s : State) (a2) (a3) (a4) (a5) : Kept s (State.e2eAckIn s a2 a3 a4 a5) := by
  unfold State.e2eAckIn
  repeat' (first
      | with_reducible exact Kept.refl _ | with_reducible apply Kept.after (State.updAssoc_kept ..)
      | with_reducible apply Kept.after (State.flush_kept ..) | (extract_lets) | split
      | with_reducible (apply Kept.after; apply State.receive_kept'; assumption))

theorem State.e2eAckOut_kept (s : State) (a2) : Kept s (State.e2eAckOut s a2) := by
  unfold State.e2eAckOut
  repeat' (first
      | with_reducible exact Kept.refl _ | with_reducible apply Kept.after (State.send_kept ..)
      | with_reducible apply Kept.after (State.updAssoc_kept ..) | split)

theorem State.e2eResend_kept (s : State) (a2) (a3) : Kept s (State.e2eResend s a2 a3) := by
  unfold State.e2eResend
  repeat' (first
      | with_reducible exact Kept.refl _ | with_reducible apply Kept.after (State.add_kept ..)
      | with_reducible apply Kept.after (State.updAssoc_kept ..) | with_reducible apply Kept.after (State.onPort_kept ..) | split)

theorem State.keyUpdateOut_kept (s : State) (a2) : Kept s (State.keyUpdateOut s a2) := by
  unfold State.keyUpdateOut
  repeat' (first
      | with_reducible exact Kept.refl _ | with_reducible apply Kept.after (State.updAssoc_kept ..)
      | with_reducible apply Kept.after (State.seal_kept ..) | (extract_lets) | split | with_reducible apply Kept.after (draw_kept ..))

theorem State.keyUpdateIn_kept (s : State) (a2) (a3) (a4) (a5) : Kept s (State.keyUpdateIn s a2 a3 a4 a5) := by
  unfold State.keyUpdateIn
  repeat' (first
      | with_reducible exact Kept.refl _ | with_reducible apply Kept.after (State.updAssoc_kept ..) | (extract_lets) | split
      | with_reducible (apply Kept.after; apply State.receive_kept'; assumption) | with_reducible apply Kept.after (draw_kept ..))

theorem State.flitDiscarded_kept (s : State) (a2) : Kept s (State.flitDiscarded s a2) := by
  unfold State.flitDiscarded
  repeat' (first | with_reducible exact Kept.refl _ | with_reducible apply Kept.after (State.setSuesh_kept ..) | (extract_lets) | split)

theorem State.linkAckOut_kept (s : State) (a2) : Kept s (State.linkAckOut s a2) := by
  unfold State.linkAckOut
  repeat' (first | with_reducible exact Kept.refl _ | with_reducible apply Kept.after (State.setSuesh_kept ..))

theorem State.routeEmpty_kept (s : State) (a2) : Kept s (State.routeEmpty s a2) := by
  unfold State.routeEmpty
  repeat' (first | with_reducible exact Kept.refl _ | with_reducible apply Kept.after (State.raise_kept ..) | split)

theorem State.strictOrder_kept (s : State) (a2) : Kept s (State.strictOrder s a2) := by
  unfold State.strictOrder
  repeat' (first
      | with_reducible exact Kept.refl _ | with_reducible apply Kept.after (State.add_kept ..)
      | with_reducible apply Kept.after (State.setSuesh_kept ..) | (extract_lets) | split)

theorem State.creditWait_kept (s : State) (a2) (a3) (a4) : Kept s (State.creditWait s a2 a3 a4) := by
  unfold State.creditWait
  repeat' (first
      | with_reducible exact Kept.refl _ | with_reducible apply Kept.after (State.add_kept ..)
      | with_reducible apply Kept.after (State.setNum_kept ..) | with_reducible apply Kept.after (State.raise_kept ..) | (extract_lets) | split
      | (with_reducible change Kept _ (ite _ _ _); split))

theorem State.positionWrite_kept (s : State) (a2) : Kept s (State.positionWrite s a2) := by
  unfold State.positionWrite
  repeat' (first
      | with_reducible exact Kept.refl _ | (intro _; intros) | with_reducible apply Kept.after (State.viaWrite_kept (h5 := ?_) ..) | (extract_lets)
      | fail_if_no_progress with_reducible refine Kept.upd ?_ rfl rfl rfl rfl rfl rfl)

theorem execNull_kept (a1) (a2) (s : State) (t : State) (h : execNull a1 a2 s = .next t) : Kept s t := by
  unfold execNull at h
  injection h with h; subst h
  repeat' (first | with_reducible exact Kept.refl _ | with_reducible apply Kept.after (State.linkIn_kept ..))

theorem execHello_kept (a1) (a2) (a3) (s : State) (t : State) (h : execHello a1 a2 a3 s = .next t) : Kept s t := by
  unfold execHello at h
  injection h with h; subst h
  repeat' (first
      | with_reducible exact Kept.refl _ | with_reducible apply Kept.after (State.setSuesh_kept ..) | (extract_lets) | split
      | with_reducible (apply Kept.after; apply State.linkIn_kept'; assumption))

theorem execAssoc_kept (a1) (a2) (a3) (a4) (a5) (a6) (s : State) (t : State) (h : execAssoc a1 a2 a3 a4 a5 a6 s = .next t) : Kept s t := by
  unfold execAssoc at h
  injection h with h; subst h
  repeat' (first | with_reducible exact Kept.refl _ | with_reducible apply Kept.after (State.assocSetup_kept ..) | split)

theorem execE2eAck_kept (a1) (a2) (a3) (a4) (s : State) (t : State) (h : execE2eAck a1 a2 a3 a4 s = .next t) : Kept s t := by
  unfold execE2eAck at h
  injection h with h; subst h
  repeat' (first | with_reducible exact Kept.refl _ | with_reducible apply Kept.after (State.e2eAckIn_kept ..))

theorem execScatterRaw_kept (a1) (a2) (a3) (a4) (s : State) (t : State) (h : execScatterRaw a1 a2 a3 a4 s = .next t) : Kept s t := by
  unfold execScatterRaw at h
  injection h with h; subst h
  repeat' (first | with_reducible exact Kept.refl _ | with_reducible apply Kept.after (State.receiveLanding_kept ..))

theorem execScatterPartial_kept (a1) (a2) (a3) (a4) (s : State) (t : State) (h : execScatterPartial a1 a2 a3 a4 s = .next t) : Kept s t := by
  unfold execScatterPartial at h
  injection h with h; subst h
  repeat' (first | with_reducible exact Kept.refl _ | with_reducible apply Kept.after (State.receiveLanding_kept ..))

theorem execReduce_kept (a1) (a2) (a3) (a4) (s : State) (t : State) (h : execReduce a1 a2 a3 a4 s = .next t) : Kept s t := by
  unfold execReduce at h
  injection h with h; subst h
  repeat' (first | with_reducible exact Kept.refl _ | with_reducible apply Kept.after (State.receiveLanding_kept ..))

theorem execBroadcast_kept (a1) (a2) (a3) (a4) (s : State) (t : State) (h : execBroadcast a1 a2 a3 a4 s = .next t) : Kept s t := by
  unfold execBroadcast at h
  injection h with h; subst h
  repeat' (first | with_reducible exact Kept.refl _ | with_reducible apply Kept.after (State.receiveLanding_kept ..))

theorem execHandoff_kept (a1) (a2) (a3) (a4) (s : State) (t : State) (h : execHandoff a1 a2 a3 a4 s = .next t) : Kept s t := by
  unfold execHandoff at h
  injection h with h; subst h
  repeat' (first | with_reducible exact Kept.refl _ | with_reducible apply Kept.after (State.receiveLanding_kept ..))

theorem execLogMirror_kept (a1) (a2) (a3) (a4) (s : State) (t : State) (h : execLogMirror a1 a2 a3 a4 s = .next t) : Kept s t := by
  unfold execLogMirror at h
  injection h with h; subst h
  repeat' (first | with_reducible exact Kept.refl _ | with_reducible apply Kept.after (State.receiveLanding_kept ..))

theorem execDeposit_kept (a1) (a2) (a3) (a4) (s : State) (t : State) (h : execDeposit a1 a2 a3 a4 s = .next t) : Kept s t := by
  unfold execDeposit at h
  injection h with h; subst h
  repeat' (first | with_reducible exact Kept.refl _ | with_reducible apply Kept.after (State.receiveLanding_kept ..))

theorem execKeyUpdate_kept (a1) (a2) (a3) (a4) (s : State) (t : State) (h : execKeyUpdate a1 a2 a3 a4 s = .next t) : Kept s t := by
  unfold execKeyUpdate at h
  injection h with h; subst h
  repeat' (first | with_reducible exact Kept.refl _ | with_reducible apply Kept.after (State.keyUpdateIn_kept ..))

theorem execKeyUpdateDue_kept (a1) (s : State) (t : State) (h : execKeyUpdateDue a1 s = .next t) : Kept s t := by
  unfold execKeyUpdateDue at h
  injection h with h; subst h
  repeat' (first | with_reducible exact Kept.refl _ | with_reducible apply Kept.after (State.keyUpdateOut_kept ..))

theorem execLinkAckDue_kept (a1) (s : State) (t : State) (h : execLinkAckDue a1 s = .next t) : Kept s t := by
  unfold execLinkAckDue at h
  injection h with h; subst h
  repeat' (first | with_reducible exact Kept.refl _ | with_reducible apply Kept.after (State.linkAckOut_kept ..))

theorem execE2eAckDue_kept (a1) (s : State) (t : State) (h : execE2eAckDue a1 s = .next t) : Kept s t := by
  unfold execE2eAckDue at h
  injection h with h; subst h
  repeat' (first | with_reducible exact Kept.refl _ | with_reducible apply Kept.after (State.e2eAckOut_kept ..))

theorem execE2eResend_kept (a1) (a2) (s : State) (t : State) (h : execE2eResend a1 a2 s = .next t) : Kept s t := by
  unfold execE2eResend at h
  injection h with h; subst h
  repeat' (first | with_reducible exact Kept.refl _ | with_reducible apply Kept.after (State.e2eResend_kept ..))

theorem execLaneFault_kept (a1) (a2) (s : State) (t : State) (h : execLaneFault a1 a2 s = .next t) : Kept s t := by
  unfold execLaneFault at h
  injection h with h; subst h
  repeat' (first | with_reducible exact Kept.refl _ | with_reducible apply Kept.after (State.laneFault_kept ..))

theorem execPortRetry_kept (a1) (a2) (s : State) (t : State) (h : execPortRetry a1 a2 s = .next t) : Kept s t := by
  unfold execPortRetry at h
  injection h with h; subst h
  repeat' (first | with_reducible exact Kept.refl _ | with_reducible apply Kept.after (State.portRetry_kept ..))

theorem execSueshPortTrained_kept (a1) (a2) (s : State) (t : State) (h : execSueshPortTrained a1 a2 s = .next t) : Kept s t := by
  unfold execSueshPortTrained at h
  injection h with h; subst h
  repeat' (first | with_reducible exact Kept.refl _ | with_reducible apply Kept.after (State.portTrained_kept ..))

theorem execPortWindowExpired_kept (a1) (s : State) (t : State) (h : execPortWindowExpired a1 s = .next t) : Kept s t := by
  unfold execPortWindowExpired at h
  injection h with h; subst h
  repeat' (first | with_reducible exact Kept.refl _ | with_reducible apply Kept.after (State.portWindow_kept ..))

theorem execRouteEmpty_kept (a1) (s : State) (t : State) (h : execRouteEmpty a1 s = .next t) : Kept s t := by
  unfold execRouteEmpty at h
  injection h with h; subst h
  repeat' (first | with_reducible exact Kept.refl _ | with_reducible apply Kept.after (State.routeEmpty_kept ..))

theorem execCreditStrictOrder_kept (a1) (s : State) (t : State) (h : execCreditStrictOrder a1 s = .next t) : Kept s t := by
  unfold execCreditStrictOrder at h
  injection h with h; subst h
  repeat' (first | with_reducible exact Kept.refl _ | with_reducible apply Kept.after (State.strictOrder_kept ..))

theorem execCreditWaitLong_kept (a1) (a2) (a3) (s : State) (t : State) (h : execCreditWaitLong a1 a2 a3 s = .next t) : Kept s t := by
  unfold execCreditWaitLong at h
  injection h with h; subst h
  repeat' (first | with_reducible exact Kept.refl _ | with_reducible apply Kept.after (State.creditWait_kept ..))

theorem execFlitDiscarded_kept (a1) (s : State) (t : State) (h : execFlitDiscarded a1 s = .next t) : Kept s t := by
  unfold execFlitDiscarded at h
  injection h with h; subst h
  repeat' (first | with_reducible exact Kept.refl _ | with_reducible apply Kept.after (State.flitDiscarded_kept ..))

theorem execFabricPositionWrite_kept (a1) (s : State) (t : State) (h : execFabricPositionWrite a1 s = .next t) : Kept s t := by
  unfold execFabricPositionWrite at h
  injection h with h; subst h
  repeat' (first | with_reducible exact Kept.refl _ | with_reducible apply Kept.after (State.positionWrite_kept ..))

end Sys2Proof.Machine
end

