-- ==== Sys2Proof/Laws/KeptChannels.lean ====
section
/-!
SUPPORT. What the operations of Channels keep.
-/
set_option linter.unusedVariables false
set_option Elab.async false
namespace Sys2Proof.Machine
open Sys2Proof

theorem State.setChan_kept (s : State) (a2) (a3) : Kept s (State.setChan s a2 a3) := by
  unfold State.setChan
  repeat' (first | with_reducible exact Kept.refl _ | fail_if_no_progress with_reducible refine Kept.upd ?_ rfl rfl rfl rfl rfl rfl)

theorem State.chanEnd_kept (s : State) (a2) : Kept s (State.chanEnd s a2) := by
  unfold State.chanEnd
  repeat' (first
      | with_reducible exact Kept.refl _ | with_reducible apply Kept.after (State.setChan_kept ..) | (extract_lets)
      | fail_if_no_progress with_reducible refine Kept.upd ?_ rfl rfl rfl rfl rfl rfl)

theorem State.dmaPost_kept (s : State) (a2) (a3) : Kept s (State.dmaPost s a2 a3) := by
  unfold State.dmaPost
  repeat' (first | with_reducible exact Kept.refl _ | with_reducible apply Kept.after (State.setChan_kept ..) | (extract_lets) | split)

theorem State.abortOutcome_kept (s : State) (a2) (a3) : Kept s (State.abortOutcome s a2 a3) := by
  unfold State.abortOutcome
  extract_lets again
  have h (t : State) : Kept t (again t) := State.dmaPost_kept ..
  split
  · split
    · exact Kept.refl _
    · exact h _
  · exact Kept.unitsUpd _ _ (by simp)
  · exact Kept.of rfl rfl rfl rfl rfl rfl rfl rfl rfl rfl rfl
  · exact h _

theorem State.endDma_kept (s : State) (a2) (a3) : Kept s (State.endDma s a2 a3) := by
  unfold State.endDma
  repeat' (first
      | with_reducible exact Kept.refl _ | (intro _; intros) | with_reducible apply Kept.after (State.setChan_kept ..)
      | with_reducible apply Kept.after (State.abortOutcome_kept ..) | with_reducible apply Kept.after (State.chanEnd_kept ..)
      | with_reducible apply Kept.after (Kept.foldl _ _ _ ?_) | (extract_lets) | split)

end Sys2Proof.Machine
end

