-- ==== Sys2Proof/Laws/KeptHostPort.lean ====
section
/-!
SUPPORT. What the operations of HostPort keep.
-/
set_option linter.unusedVariables false
set_option Elab.async false
namespace Sys2Proof.Machine
open Sys2Proof

theorem State.slotWrite_kept (s : State) (a2) (a3) (a4) : Kept s (State.slotWrite s a2 a3 a4) := by
  unfold State.slotWrite
  repeat' (first
      | with_reducible exact Kept.refl _ | with_reducible apply Kept.after (State.updQueue_kept ..)
      | with_reducible apply Kept.after (State.add_kept ..) | (extract_lets) | split)

theorem State.doorbell_kept (s : State) (a2) (a3) : Kept s (State.doorbell s a2 a3) := by
  unfold State.doorbell
  repeat' (first
      | with_reducible exact Kept.refl _ | with_reducible apply Kept.after (State.updQueue_kept ..)
      | with_reducible apply Kept.after (State.add_kept ..) | (extract_lets) | split)

theorem State.addInFlight_kept (s : State) (a2) (a3) : Kept s (State.addInFlight s a2 a3) := by
  unfold State.addInFlight
  repeat' (first
      | with_reducible exact Kept.refl _ | (extract_lets) | fail_if_no_progress with_reducible refine Kept.upd ?_ rfl rfl rfl rfl rfl rfl)

theorem State.wholeCommand_kept (s : State) (a2) (a3) (a4) : Kept s (State.wholeCommand s a2 a3 a4) := by
  unfold State.wholeCommand
  repeat' (first
      | with_reducible exact Kept.refl _ | with_reducible apply Kept.after (State.refuse_kept ..)
      | with_reducible apply Kept.after (State.updInFlight_kept ..) | with_reducible apply Kept.after (State.addInFlight_kept ..) | split)

theorem State.early_kept (s : State) (a2) (a3) (a4) : Kept s (State.early s a2 a3 a4) := by
  unfold State.early
  repeat' (first
      | with_reducible exact Kept.refl _ | with_reducible apply Kept.after (State.updQueue_kept ..)
      | with_reducible apply Kept.after (State.answerBare_kept ..) | (extract_lets) | split)

theorem State.chainPacket_kept (s : State) (a2) (a3) (a4) : Kept s (State.chainPacket s a2 a3 a4) := by
  unfold State.chainPacket
  repeat' (first
      | with_reducible exact Kept.refl _ | with_reducible apply Kept.after (State.updQueue_kept ..)
      | with_reducible apply Kept.after (State.refuse_kept ..) | with_reducible apply Kept.after (State.releaseRoom_kept ..)
      | with_reducible apply Kept.after (State.updInFlight_kept ..) | with_reducible apply Kept.after (State.wholeCommand_kept ..) | (extract_lets)
      | split)

theorem State.openChain_kept (s : State) (a2) (a3) : Kept s (State.openChain s a2 a3) := by
  unfold State.openChain
  repeat' (first
      | with_reducible exact Kept.refl _ | with_reducible apply Kept.after (State.refuse_kept ..)
      | with_reducible apply Kept.after (State.updQueue_kept ..) | with_reducible apply Kept.after (State.addInFlight_kept ..) | (extract_lets)
      | split)

theorem State.checkPacket_kept (s : State) (a2) (a3) (a4) (a5) : Kept s (State.checkPacket s a2 a3 a4 a5) := by
  unfold State.checkPacket
  repeat' (first
      | with_reducible exact Kept.refl _ | with_reducible apply Kept.after (State.updQueue_kept ..)
      | with_reducible apply Kept.after (State.early_kept ..) | with_reducible apply Kept.after (State.add_kept ..)
      | with_reducible apply Kept.after (State.releaseRoom_kept ..) | with_reducible apply Kept.after (State.chainPacket_kept ..)
      | with_reducible apply Kept.after (State.openChain_kept ..) | with_reducible apply Kept.after (State.wholeCommand_kept ..) | (extract_lets)
      | split | (with_reducible change Kept _ (ite _ _ _); split))

theorem State.packetTake_kept (s : State) (a2) (a3) : Kept s (State.packetTake s a2 a3) := by
  unfold State.packetTake
  repeat' (first
      | with_reducible exact Kept.refl _ | with_reducible apply Kept.after (State.checkPacket_kept ..)
      | with_reducible apply Kept.after (State.updQueue_kept ..) | (extract_lets) | split)

theorem State.dropChain_kept (s : State) (a2) : Kept s (State.dropChain s a2) := by
  unfold State.dropChain
  repeat' (first
      | with_reducible exact Kept.refl _ | with_reducible apply Kept.after (State.refuseWith_kept ..)
      | with_reducible apply Kept.after (State.updQueue_kept ..) | split)

theorem State.registerWrite_kept (s : State) (a2) (a3) (a4) : Kept s (State.registerWrite s a2 a3 a4) := by
  unfold State.registerWrite
  repeat' (first | with_reducible exact Kept.refl _ | with_reducible apply Kept.after (State.updQueue_kept ..) | split)

theorem State.headWrite_kept (s : State) (a2) (a3) : Kept s (State.headWrite s a2 a3) := by
  unfold State.headWrite
  repeat' (first | with_reducible exact Kept.refl _ | with_reducible apply Kept.after (State.updQueue_kept ..) | split)

theorem State.responseWrite_kept (s : State) (a2) : Kept s (State.responseWrite s a2) := by
  unfold State.responseWrite
  repeat' (first
      | with_reducible exact Kept.refl _ | with_reducible apply Kept.after (State.setQueue_kept ..)
      | with_reducible apply Kept.after (State.flushAll_kept ..) | with_reducible apply Kept.after (State.dropInFlight_kept ..)
      | with_reducible apply Kept.after (State.add_kept ..) | (extract_lets) | split)

theorem State.ringFullSecond_kept (s : State) (a2) : Kept s (State.ringFullSecond s a2) := by
  unfold State.ringFullSecond
  repeat' (first
      | with_reducible exact Kept.refl _ | with_reducible apply Kept.after (State.raise_kept ..)
      | with_reducible apply Kept.after (State.setQueue_kept ..) | (extract_lets) | split)

theorem State.portReset_kept (s : State) : Kept s (State.portReset s) := by
  unfold State.portReset
  repeat' (first
      | with_reducible exact Kept.refl _ | (intro _; intros) | with_reducible apply Kept.after (State.dropChain_kept ..)
      | with_reducible apply Kept.after (State.mapQueues_kept ..) | with_reducible apply Kept.after (State.endDma_kept ..)
      | with_reducible apply Kept.after (Kept.foldl _ _ _ ?_) | (extract_lets)
      | fail_if_no_progress with_reducible refine Kept.upd ?_ rfl rfl rfl rfl rfl rfl)

theorem State.linkTrained_kept (s : State) (a2) (a3) : Kept s (State.linkTrained s a2 a3) := by
  unfold State.linkTrained
  repeat' (first
      | with_reducible exact Kept.refl _ | (extract_lets) | split | fail_if_no_progress with_reducible refine Kept.upd ?_ rfl rfl rfl rfl rfl rfl)

theorem State.linkDegraded_kept (s : State) (a2) (a3) : Kept s (State.linkDegraded s a2 a3) := by
  unfold State.linkDegraded
  repeat' (first
      | with_reducible exact Kept.refl _ | with_reducible apply Kept.after (State.raise_kept ..)
      | with_reducible apply Kept.after (State.add_kept ..) | (extract_lets) | split
      | fail_if_no_progress with_reducible refine Kept.upd ?_ rfl rfl rfl rfl rfl rfl)

theorem execDoorbell_kept (a1) (a2) (s : State) (t : State) (h : execDoorbell a1 a2 s = .next t) : Kept s t := by
  unfold execDoorbell at h
  injection h with h; subst h
  repeat' (first | with_reducible exact Kept.refl _ | with_reducible apply Kept.after (State.doorbell_kept ..))

theorem execPacketSlotWrite_kept (a1) (a2) (a3) (s : State) (t : State) (h : execPacketSlotWrite a1 a2 a3 s = .next t) : Kept s t := by
  unfold execPacketSlotWrite at h
  injection h with h; subst h
  repeat' (first | with_reducible exact Kept.refl _ | with_reducible apply Kept.after (State.slotWrite_kept ..))

theorem execPacketTake_kept (a1) (a2) (s : State) (t : State) (h : execPacketTake a1 a2 s = .next t) : Kept s t := by
  unfold execPacketTake at h
  injection h with h; subst h
  repeat' (first | with_reducible exact Kept.refl _ | with_reducible apply Kept.after (State.packetTake_kept ..))

theorem execRingEnable_kept (a1) (a2) (s : State) (t : State) (h : execRingEnable a1 a2 s = .next t) : Kept s t := by
  unfold execRingEnable at h
  injection h with h; subst h
  repeat' (first | with_reducible exact Kept.refl _ | with_reducible apply Kept.after (State.updQueue_kept ..) | split)

theorem execRingHead_kept (a1) (a2) (s : State) (t : State) (h : execRingHead a1 a2 s = .next t) : Kept s t := by
  unfold execRingHead at h
  injection h with h; subst h
  repeat' (first | with_reducible exact Kept.refl _ | with_reducible apply Kept.after (State.headWrite_kept ..))

theorem execQueueRegisterWrite_kept (a1) (a2) (a3) (s : State) (t : State) (h : execQueueRegisterWrite a1 a2 a3 s = .next t) : Kept s t := by
  unfold execQueueRegisterWrite at h
  injection h with h; subst h
  repeat' (first | with_reducible exact Kept.refl _ | with_reducible apply Kept.after (State.registerWrite_kept ..))

theorem execResponseWrite_kept (a1) (s : State) (t : State) (h : execResponseWrite a1 s = .next t) : Kept s t := by
  unfold execResponseWrite at h
  injection h with h; subst h
  repeat' (first | with_reducible exact Kept.refl _ | with_reducible apply Kept.after (State.responseWrite_kept ..))

theorem execRingFull_kept (a1) (s : State) (t : State) (h : execRingFull a1 s = .next t) : Kept s t := by
  unfold execRingFull at h
  injection h with h; subst h
  repeat' (first | with_reducible exact Kept.refl _ | with_reducible apply Kept.after (State.ringFullSecond_kept ..))

theorem execChainGapTimeout_kept (a1) (s : State) (t : State) (h : execChainGapTimeout a1 s = .next t) : Kept s t := by
  unfold execChainGapTimeout at h
  injection h with h; subst h
  repeat' (first | with_reducible exact Kept.refl _ | with_reducible apply Kept.after (State.dropChain_kept ..))

theorem execPerstAssert_kept (s : State) (t : State) (h : execPerstAssert s = .next t) : Kept s t := by
  unfold execPerstAssert at h
  injection h with h; subst h
  repeat' (first
      | with_reducible exact Kept.refl _ | with_reducible apply Kept.after (State.portReset_kept ..) | (extract_lets)
      | fail_if_no_progress with_reducible refine Kept.upd ?_ rfl rfl rfl rfl rfl rfl)

theorem execPerstDeassert_kept (s : State) (t : State) (h : execPerstDeassert s = .next t) : Kept s t := by
  unfold execPerstDeassert at h
  injection h with h; subst h
  repeat' (first
      | with_reducible exact Kept.refl _ | (extract_lets) | fail_if_no_progress with_reducible refine Kept.upd ?_ rfl rfl rfl rfl rfl rfl)

theorem execCxlLinkTrained_kept (a1) (a2) (s : State) (t : State) (h : execCxlLinkTrained a1 a2 s = .next t) : Kept s t := by
  unfold execCxlLinkTrained at h
  injection h with h; subst h
  repeat' (first | with_reducible exact Kept.refl _ | with_reducible apply Kept.after (State.linkTrained_kept ..))

theorem execLinkDegraded_kept (a1) (a2) (s : State) (t : State) (h : execLinkDegraded a1 a2 s = .next t) : Kept s t := by
  unfold execLinkDegraded at h
  injection h with h; subst h
  repeat' (first | with_reducible exact Kept.refl _ | with_reducible apply Kept.after (State.linkDegraded_kept ..))

theorem execIdeKm_kept (a1) (s : State) (t : State) (h : execIdeKm a1 s = .next t) : Kept s t := by
  unfold execIdeKm at h
  injection h with h; subst h
  repeat' (first
      | with_reducible exact Kept.refl _ | (extract_lets) | split | fail_if_no_progress with_reducible refine Kept.upd ?_ rfl rfl rfl rfl rfl rfl)

end Sys2Proof.Machine
end

