-- ==== Sys2Proof/Laws/KeptAgeing.lean ====
section
/-!
SUPPORT. What the operations of Ageing keep.
-/
set_option linter.unusedVariables false
set_option Elab.async false
namespace Sys2Proof.Machine
open Sys2Proof

theorem State.pathMargin_kept (s : State) (a2) (a3) : Kept s (State.pathMargin s a2 a3) := by
  unfold State.pathMargin
  repeat' (first
      | with_reducible exact Kept.refl _ | with_reducible apply Kept.after (State.setNum_kept ..)
      | with_reducible apply Kept.after (State.raise_kept ..) | (extract_lets) | split
      | fail_if_no_progress with_reducible refine Kept.upd ?_ rfl rfl rfl rfl rfl rfl)

theorem State.dropCxlLane_kept (s : State) : Kept s (State.dropCxlLane s) := by
  unfold State.dropCxlLane
  repeat' (first
      | with_reducible exact Kept.refl _ | with_reducible apply Kept.after (State.portReset_kept ..)
      | with_reducible apply Kept.after (State.linkDegraded_kept ..) | split)

theorem State.setMargin_kept (s : State) (a2) (a3) : Kept s (State.setMargin s a2 a3) := by
  unfold State.setMargin
  repeat' (first | with_reducible exact Kept.refl _ | with_reducible apply Kept.after (State.setEntry_kept ..))

theorem State.eyeScan_kept (s : State) (a2) (a3) (a4) : Kept s (State.eyeScan s a2 a3 a4) := by
  unfold State.eyeScan
  repeat' (first
      | with_reducible exact Kept.refl _ | with_reducible apply Kept.after (State.setMargin_kept ..)
      | with_reducible apply Kept.after (State.raise_kept ..) | with_reducible apply Kept.after (State.laneFault_kept ..)
      | with_reducible apply Kept.after (State.dropCxlLane_kept ..) | (extract_lets) | split
      | fail_if_no_progress with_reducible refine Kept.upd ?_ rfl rfl rfl rfl rfl rfl)

theorem State.retentionTest_kept (s : State) (a2) (a3) (a4) (a5) : Kept s (State.retentionTest s a2 a3 a4 a5) := by
  unfold State.retentionTest
  repeat' (first
      | with_reducible exact Kept.refl _ | with_reducible apply Kept.after (State.raise_kept ..) | (extract_lets) | split
      | fail_if_no_progress with_reducible refine Kept.upd ?_ rfl rfl rfl rfl rfl rfl)

theorem State.daily_kept (s : State) (a2) (a3) : Kept s (State.daily s a2 a3) := by
  unfold State.daily
  repeat' (first
      | with_reducible exact Kept.refl _ | with_reducible apply Kept.after (State.setNum_kept ..)
      | with_reducible apply Kept.after (State.setEntry_kept ..) | with_reducible apply Kept.after (State.raise_kept ..) | (extract_lets) | split
      | fail_if_no_progress with_reducible refine Kept.upd ?_ rfl rfl rfl rfl rfl rfl)

theorem execPathMarginEval_kept (a1) (a2) (s : State) (t : State) (h : execPathMarginEval a1 a2 s = .next t) : Kept s t := by
  unfold execPathMarginEval at h
  injection h with h; subst h
  repeat' (first | with_reducible exact Kept.refl _ | with_reducible apply Kept.after (State.pathMargin_kept ..))

theorem execEyeScan_kept (a1) (a2) (a3) (s : State) (t : State) (h : execEyeScan a1 a2 a3 s = .next t) : Kept s t := by
  unfold execEyeScan at h
  injection h with h; subst h
  repeat' (first | with_reducible exact Kept.refl _ | with_reducible apply Kept.after (State.eyeScan_kept ..))

theorem execRetentionTest_kept (a1) (a2) (a3) (a4) (s : State) (t : State) (h : execRetentionTest a1 a2 a3 a4 s = .next t) : Kept s t := by
  unfold execRetentionTest at h
  injection h with h; subst h
  repeat' (first | with_reducible exact Kept.refl _ | with_reducible apply Kept.after (State.retentionTest_kept ..))

theorem execDailyPrediction_kept (a1) (a2) (s : State) (t : State) (h : execDailyPrediction a1 a2 s = .next t) : Kept s t := by
  unfold execDailyPrediction at h
  injection h with h; subst h
  repeat' (first | with_reducible exact Kept.refl _ | with_reducible apply Kept.after (State.daily_kept ..))

end Sys2Proof.Machine
end

