-- ==== Sys2Proof/Laws/KeptStore.lean ====
section
/-!
SUPPORT. What the operations of Store keep.
-/
set_option linter.unusedVariables false
set_option Elab.async false
namespace Sys2Proof.Machine
open Sys2Proof

theorem State.updStep_kept (s : State) (a2) (a3) (a4) : Kept s (State.updStep s a2 a3 a4) := by
  unfold State.updStep
  repeat' (first | with_reducible exact Kept.refl _ | with_reducible apply Kept.after (State.updJob_kept ..))

theorem State.updBody_kept (s : State) (a2) (a3) : Kept s (State.updBody s a2 a3) := by
  unfold State.updBody
  repeat' (first | with_reducible exact Kept.refl _ | with_reducible apply Kept.after (State.updJob_kept ..))

theorem State.tally_kept (s : State) (a2) (a3) (a4) (a5) (a6) : Kept s (State.tally s a2 a3 a4 a5 a6) := by
  unfold State.tally
  repeat' (first | with_reducible exact Kept.refl _ | with_reducible apply Kept.after (State.updStep_kept ..) | split)

theorem State.count_kept (s : State) (a2) (a3) (a4) (a5) (a6) : Kept s (State.count s a2 a3 a4 a5 a6) := by
  unfold State.count
  repeat' (first | with_reducible exact Kept.refl _ | with_reducible apply Kept.after (State.updBody_kept ..) | split)

theorem State.updTiles_kept (s : State) (a2) : Kept s (State.updTiles s a2) := by
  unfold State.updTiles
  repeat' (first
      | with_reducible exact Kept.refl _ | (extract_lets) | fail_if_no_progress with_reducible refine Kept.upd ?_ rfl rfl rfl rfl rfl rfl)

theorem State.updTile_kept (s : State) (a2) (a3) : Kept s (State.updTile s a2 a3) := by
  unfold State.updTile
  repeat' (first | with_reducible exact Kept.refl _ | with_reducible apply Kept.after (State.updTiles_kept ..))

theorem State.touch_kept (s : State) (a2) (a3) : Kept s (State.touch s a2 a3) := by
  unfold State.touch
  repeat' (first
      | with_reducible exact Kept.refl _ | with_reducible apply Kept.after (State.updTile_kept ..)
      | with_reducible apply Kept.after (State.updTiles_kept ..) | (extract_lets) | split)

theorem State.touchAll_kept (s : State) (a2) (a3) : Kept s (State.touchAll s a2 a3) := by
  unfold State.touchAll
  repeat' (first
      | with_reducible exact Kept.refl _ | (intro _; intros) | with_reducible apply Kept.after (State.touch_kept ..)
      | with_reducible apply Kept.after (Kept.foldl _ _ _ ?_))

theorem State.noteFar_kept (s : State) (a2) : Kept s (State.noteFar s a2) := by
  unfold State.noteFar
  repeat' (first
      | with_reducible exact Kept.refl _ | (extract_lets) | fail_if_no_progress with_reducible refine Kept.upd ?_ rfl rfl rfl rfl rfl rfl)

theorem State.putTile_kept (s : State) (a2) (a3) (a4) (a5) : Kept s (State.putTile s a2 a3 a4 a5) := by
  unfold State.putTile
  repeat' (first
      | with_reducible exact Kept.refl _ | with_reducible apply Kept.after (State.updTiles_kept ..) | (extract_lets)
      | with_reducible apply Kept.after (draw_kept ..))

theorem State.putAll_kept (s : State) (a2) (a3) : Kept s (State.putAll s a2 a3) := by
  unfold State.putAll
  repeat' (first
      | with_reducible exact Kept.refl _ | (intro _; intros) | with_reducible apply Kept.after (State.putTile_kept ..)
      | with_reducible apply Kept.after (Kept.foldl _ _ _ ?_))

theorem State.freeTiles_kept (s : State) (a2) : Kept s (State.freeTiles s a2) := by
  unfold State.freeTiles
  repeat' (first | with_reducible exact Kept.refl _ | with_reducible apply Kept.after (State.updTiles_kept ..))

theorem State.carrelWrite_kept (s : State) (a2) (a3) (a4) : Kept s (State.carrelWrite s a2 a3 a4) :=
  ⟨rfl, rfl, rfl, fun h => carrelWf_putCells _ _ _ h, fun h => rising_filter _ _ h, id, Fewer.refl _, Worn.refl _, Worn.refl _, le_rfl, le_rfl⟩

theorem State.carrelZero_kept (s : State) (a2) (a3) (a4) : Kept s (State.carrelZero s a2 a3 a4) :=
  ⟨rfl, rfl, rfl, fun h => carrelWf_filter _ _ h, fun h => rising_filter _ _ h, id, Fewer.refl _, Worn.refl _, Worn.refl _, le_rfl, le_rfl⟩

theorem State.updUnit_kept (s : State) (a2) (a3) : Kept s (State.updUnit s a2 a3) :=
  ⟨rfl, List.length_set, rfl, id, id, id, Fewer.refl _, Worn.refl _, Worn.refl _, le_rfl, le_rfl⟩


end Sys2Proof.Machine
end

