-- ==== Sys2Proof/Laws/KeptExec.lean ====
section
/-!
SUPPORT. What the operations of Exec keep.
-/
set_option linter.unusedVariables false
set_option Elab.async false
namespace Sys2Proof.Machine
open Sys2Proof

theorem State.updWork_kept (s : State) (a2) (a3) (a4) : Kept s (State.updWork s a2 a3 a4) := by
  unfold State.updWork
  repeat' (first | with_reducible exact Kept.refl _ | with_reducible apply Kept.after (State.updUnit_kept ..))

theorem State.settle_kept (s : State) (a2) (a3) : Kept s (State.settle s a2 a3) := by
  unfold State.settle
  repeat' (first
      | with_reducible exact Kept.refl _ | with_reducible apply Kept.after (State.updUnit_kept ..)
      | with_reducible apply Kept.after (State.updStep_kept ..) | (extract_lets) | split)

theorem State.issue_kept (s : State) (a2) (a3) (a4) (g5) (a6) (h5 : ∀ y0 x, Kept x (g5 y0 x)) : Kept s (State.issue s a2 a3 a4 g5 a6) := by
  unfold State.issue
  repeat' (first
      | with_reducible exact Kept.refl _ | with_reducible apply Kept.after (State.updUnit_kept ..)
      | with_reducible apply Kept.after (State.updWork_kept ..) | with_reducible apply Kept.after (h5 ..) | (extract_lets) | split)

theorem State.issuePlain_kept (s : State) (a2) (a3) (a4) (g5) (h5 : ∀ y0 x, Kept x (g5 y0 x)) : Kept s (State.issuePlain s a2 a3 a4 g5) := by
  unfold State.issuePlain
  repeat' (first
      | with_reducible exact Kept.refl _ | with_reducible assumption | with_reducible apply Kept.after (State.issue_kept (h5 := ?_) ..))

theorem State.trace_kept (s : State) (a2) (a3) (a4) : Kept s (State.trace s a2 a3 a4) := by
  unfold State.trace
  repeat' (first | with_reducible exact Kept.refl _ | split | fail_if_no_progress with_reducible refine Kept.upd ?_ rfl rfl rfl rfl rfl rfl)

theorem State.complete_kept (s : State) (a2) (a3) (a4) : Kept s (State.complete s a2 a3 a4) := by
  unfold State.complete
  repeat' (first
      | with_reducible exact Kept.refl _ | with_reducible apply Kept.after (State.trace_kept ..)
      | with_reducible apply Kept.after (State.settle_kept ..) | with_reducible apply Kept.after (State.updWork_kept ..) | (extract_lets) | split)

theorem Ctx.waitSpace_kept (a1) (a2) (s : State) : Kept s (Ctx.waitSpace a1 a2 s) := by
  unfold Ctx.waitSpace
  repeat' (first
      | with_reducible exact Kept.refl _ | with_reducible apply Kept.after (State.add_kept ..)
      | with_reducible apply Kept.after (State.updStep_kept ..) | split)

theorem Ctx.spaceFound_kept (a1) (s : State) : Kept s (Ctx.spaceFound a1 s) := by
  unfold Ctx.spaceFound
  repeat' (first | with_reducible exact Kept.refl _ | with_reducible apply Kept.after (State.updStep_kept ..) | split)

theorem State.issueSpace_kept (s : State) (a2) (a3) (a4) (a5) (a6) (g7) (h7 : ∀ y0 x, Kept x (g7 y0 x)) : Kept s (State.issueSpace s a2 a3 a4 a5 a6 g7) := by
  unfold State.issueSpace
  repeat' (first
      | with_reducible exact Kept.refl _ | (intro _; intros) | with_reducible apply Kept.after (Ctx.waitSpace_kept ..)
      | with_reducible apply Kept.after (State.issue_kept (h5 := ?_) ..) | with_reducible apply Kept.after (Ctx.spaceFound_kept ..)
      | with_reducible apply Kept.after (h7 ..) | split)

theorem State.clearPhase_kept (s : State) (a2) (a3) : Kept s (State.clearPhase s a2 a3) := Kept.unitsUpd _ _ (by simp)

theorem State.wakeWaits_kept (s : State) (a2) : Kept s (State.wakeWaits s a2) := by
  unfold State.wakeWaits
  repeat' (first | with_reducible exact Kept.refl _ | with_reducible apply Kept.after (State.updUnit_kept ..))

theorem State.wakeAll_kept (s : State) : Kept s (State.wakeAll s) := by
  unfold State.wakeAll
  repeat' (first
      | with_reducible exact Kept.refl _ | (intro _; intros) | with_reducible apply Kept.after (State.wakeWaits_kept ..)
      | with_reducible apply Kept.after (Kept.foldl _ _ _ ?_))

theorem Ctx.report_kept (a1) (a2) (a3) (s : State) : Kept s (Ctx.report a1 a2 a3 s) := by
  unfold Ctx.report
  repeat' (first | with_reducible exact Kept.refl _ | with_reducible apply Kept.after (State.updStep_kept ..) | split)

theorem Ctx.count_kept (a1) (a2) (a3) (a4) (s : State) : Kept s (Ctx.count a1 a2 a3 a4 s) := by
  unfold Ctx.count
  repeat' (first | with_reducible exact Kept.refl _ | with_reducible apply Kept.after (State.tally_kept ..) | split)

theorem Ctx.noteDecode_kept (a1) (a2) (a3) (a4) (s : State) : Kept s (Ctx.noteDecode a1 a2 a3 a4 s) := by
  unfold Ctx.noteDecode
  repeat' (first
      | with_reducible exact Kept.refl _ | with_reducible apply Kept.after (State.count_kept ..)
      | with_reducible apply Kept.after (State.updStep_kept ..) | with_reducible apply Kept.after (State.raiseJob_kept ..) | (extract_lets) | split
      | (with_reducible change Kept _ (ite _ _ _); split))

theorem State.poisonLabel_kept (s : State) (a2) (a3) (a4) : Kept s (State.poisonLabel s a2 a3 a4) := by
  unfold State.poisonLabel
  repeat' (first
      | with_reducible exact Kept.refl _ | with_reducible apply Kept.after (State.raise_kept ..)
      | with_reducible apply Kept.after (State.count_kept ..) | with_reducible apply Kept.after (State.updTile_kept ..) | split)

theorem Ctx.noteLabel_kept (a1) (a2) (s : State) : Kept s (Ctx.noteLabel a1 a2 s) := by
  unfold Ctx.noteLabel
  repeat' (first | with_reducible exact Kept.refl _ | with_reducible apply Kept.after (State.poisonLabel_kept ..))

theorem Ctx.noteDecodes_kept (a1) (a2) (s : State) : Kept s (Ctx.noteDecodes a1 a2 s) := by
  unfold Ctx.noteDecodes
  repeat' (first
      | with_reducible exact Kept.refl _ | (intro _; intros) | with_reducible apply Kept.after (Ctx.noteDecode_kept ..)
      | with_reducible apply Kept.after (Ctx.noteLabel_kept ..) | (extract_lets) | split | with_reducible apply Kept.after (Kept.foldlFst _ _ _ ?_))

theorem State.unlessPoisoned_kept (s : State) (a2) (a3) (a4) (a5) (g6) (h6 : ∀ x, Kept x (g6 x)) : Kept s (State.unlessPoisoned s a2 a3 a4 a5 g6) := by
  unfold State.unlessPoisoned
  repeat' (first
      | with_reducible exact Kept.refl _ | (intro _; intros) | with_reducible apply Kept.after (Ctx.noteLabel_kept ..)
      | with_reducible apply Kept.after (h6 ..) | with_reducible apply Kept.after (Kept.foldl _ _ _ ?_) | split)

end Sys2Proof.Machine
end

