-- ==== Sys2Proof/Laws/KeptArrayRows.lean ====
section
/-!
SUPPORT. What the operations of ArrayRows keep.
-/
set_option linter.unusedVariables false
set_option Elab.async false
namespace Sys2Proof.Machine
open Sys2Proof

theorem State.putBody_kept (s : State) (a2) (a3) (a4) (a5) : Kept s (State.putBody s a2 a3 a4 a5) := by
  unfold State.putBody
  repeat' (first | with_reducible exact Kept.refl _ | with_reducible apply Kept.after (State.carrelWrite_kept ..))

theorem Ctx.readStored_kept (a1) (a2) (s : State) : Kept s (Ctx.readStored a1 a2 s) := by
  unfold Ctx.readStored
  repeat' (first
      | with_reducible exact Kept.refl _ | (intro _; intros) | with_reducible apply Kept.after (State.noteFar_kept ..)
      | with_reducible apply Kept.after (State.touch_kept ..) | with_reducible apply Kept.after (Ctx.noteDecodes_kept ..)
      | with_reducible apply Kept.after (Ctx.count_kept ..) | with_reducible apply Kept.after (State.raiseJob_kept ..)
      | with_reducible apply Kept.after (Kept.foldl _ _ _ ?_) | (extract_lets) | split)

theorem State.stallRamp_kept (s : State) (a2) (a3) : Kept s (State.stallRamp s a2 a3) := by
  unfold State.stallRamp
  repeat' (first
      | with_reducible exact Kept.refl _ | with_reducible apply Kept.after (State.count_kept ..) | (extract_lets)
      | with_reducible apply Kept.after (draw_kept ..))

theorem Ctx.rampStart_kept (a1) (s : State) : Kept s (Ctx.rampStart a1 s) := by
  unfold Ctx.rampStart
  repeat' (first | with_reducible exact Kept.refl _ | with_reducible apply Kept.after (State.count_kept ..) | split)

theorem Ctx.deliver_kept (a1) (a2) (s : State) : Kept s (Ctx.deliver a1 a2 s) := by
  unfold Ctx.deliver
  repeat' (first
      | with_reducible exact Kept.refl _ | (intro _; intros) | with_reducible apply Kept.after (State.updUnit_kept ..)
      | with_reducible apply Kept.after (State.stallRamp_kept ..) | with_reducible apply Kept.after (State.putBody_kept ..)
      | with_reducible apply Kept.after (Kept.foldl _ _ _ ?_) | (extract_lets) | split)

theorem Ctx.reportFaults_kept (a1) (a2) (a3) (s : State) : Kept s (Ctx.reportFaults a1 a2 a3 s) := by
  unfold Ctx.reportFaults
  repeat' (first | with_reducible exact Kept.refl _ | with_reducible apply Kept.after (Ctx.report_kept ..) | split)

theorem Ctx.matmul_kept (a1) (s : State) : Kept s (Ctx.matmul a1 s) := by
  unfold Ctx.matmul
  repeat' (first
      | with_reducible exact Kept.refl _ | (extract_lets) | with_reducible apply Kept.after (Ctx.readStored_kept ..)
      | with_reducible apply Kept.after (Ctx.reportFaults_kept ..) | with_reducible apply Kept.after (Ctx.deliver_kept ..)
      | with_reducible apply Kept.after (Ctx.rampStart_kept ..) | (with_reducible change Kept _ (ite _ _ _); split)
      | fail_if_no_progress with_reducible refine Kept.upd ?_ rfl rfl rfl rfl rfl rfl)

theorem Ctx.lateEnded_kept (a1) (s : State) : Kept s (Ctx.lateEnded a1 s) := by
  unfold Ctx.lateEnded
  repeat' (first
      | with_reducible exact Kept.refl _ | with_reducible apply Kept.after (State.updJob_kept ..)
      | with_reducible apply Kept.after (State.stallRamp_kept ..) | (extract_lets) | split
      | with_reducible (apply Kept.after; apply draw_kept'; assumption))

theorem execMatmul_kept (a1) (a2) (s : State) (t : State) (h : execMatmul a1 a2 s = .next t) : Kept s t := by
  unfold execMatmul at h
  injection h with h; subst h
  repeat' (first
      | with_reducible exact Kept.refl _ | (intro _; intros) | with_reducible apply Kept.after (State.updUnit_kept ..)
      | with_reducible apply Kept.after (State.updJob_kept ..) | with_reducible apply Kept.after (Ctx.lateEnded_kept ..)
      | with_reducible apply Kept.after (State.unlessPoisoned_kept (h6 := ?_) ..) | with_reducible apply Kept.after (State.issue_kept (h5 := ?_) ..)
      | with_reducible apply Kept.after (Ctx.matmul_kept ..) | (extract_lets) | split | (with_reducible change Kept _ (ite _ _ _); split))

theorem Ctx.spmm_kept (a1) (s : State) : Kept s (Ctx.spmm a1 s) := by
  unfold Ctx.spmm
  repeat' (first
      | with_reducible exact Kept.refl _ | with_reducible apply Kept.after (Ctx.readStored_kept ..)
      | with_reducible apply Kept.after (Ctx.reportFaults_kept ..) | with_reducible apply Kept.after (Ctx.deliver_kept ..)
      | with_reducible apply Kept.after (Ctx.rampStart_kept ..) | (extract_lets) | split)

theorem execSpmm_kept (a1) (a2) (s : State) (t : State) (h : execSpmm a1 a2 s = .next t) : Kept s t := by
  unfold execSpmm at h
  injection h with h; subst h
  repeat' (first
      | with_reducible exact Kept.refl _ | (intro _; intros) | with_reducible apply Kept.after (State.unlessPoisoned_kept (h6 := ?_) ..)
      | with_reducible apply Kept.after (State.issuePlain_kept (h5 := ?_) ..) | with_reducible apply Kept.after (Ctx.spmm_kept ..))

end Sys2Proof.Machine
end

