-- ==== Sys2Proof/Laws/KeptRecords.lean ====
section
/-!
SUPPORT. What the operations of Records keep.
-/
set_option linter.unusedVariables false
set_option Elab.async false
namespace Sys2Proof.Machine
open Sys2Proof

theorem State.rewriteDelta_kept (s : State) (a2) (a3) : Kept s (State.rewriteDelta s a2 a3) := by
  unfold State.rewriteDelta
  repeat' (first
      | with_reducible exact Kept.refl _ | (extract_lets) | split | fail_if_no_progress with_reducible refine Kept.upd ?_ rfl rfl rfl rfl rfl rfl
      | with_reducible (apply Kept.after; apply draw_kept'; assumption))

theorem State.retrainPorts_kept (s : State) : Kept s (State.retrainPorts s) := by
  unfold State.retrainPorts
  refine Kept.after (State.flushWaiting_kept ..) ?_
  exact ⟨rfl, rfl, List.length_map .., id, id, id, Fewer.refl _, Worn.refl _, Worn.refl _, le_rfl, le_rfl⟩

theorem State.deltaCommit_kept (s : State) : Kept s (State.deltaCommit s) := by
  unfold State.deltaCommit
  repeat' (first
      | with_reducible exact Kept.refl _ | (intro _; intros) | with_reducible apply Kept.after (State.rewriteDelta_kept ..)
      | with_reducible apply Kept.after (State.afterWrite_kept ..) | with_reducible apply Kept.after (State.retrainPorts_kept ..)
      | with_reducible apply Kept.after (State.flushWaiting_kept ..) | with_reducible apply Kept.after (State.tell_kept ..)
      | with_reducible apply Kept.after (Kept.foldl _ _ _ ?_) | (extract_lets) | split
      | fail_if_no_progress with_reducible refine Kept.upd ?_ rfl rfl rfl rfl rfl rfl)

theorem State.eventCheckpoint_kept (s : State) : Kept s (State.eventCheckpoint s) := by
  unfold State.eventCheckpoint
  repeat' (first
      | with_reducible exact Kept.refl _ | with_reducible apply Kept.after (State.rewriteDelta_kept ..) | (extract_lets) | split
      | fail_if_no_progress with_reducible refine Kept.upd ?_ rfl rfl rfl rfl rfl rfl)

theorem State.baseRecord_kept (s : State) (a2) (a3) : Kept s (State.baseRecord s a2 a3) := by
  unfold State.baseRecord
  repeat' (first
      | with_reducible exact Kept.refl _ | (intro _; intros) | with_reducible apply Kept.after (State.tell_kept ..)
      | with_reducible apply Kept.after (State.raise_kept ..) | with_reducible apply Kept.after (State.rewriteDelta_kept ..)
      | with_reducible apply Kept.after (State.flushWaiting_kept ..) | with_reducible apply Kept.after (State.takeNode_kept ..)
      | with_reducible apply Kept.after (Kept.foldl _ _ _ ?_) | (extract_lets) | split
      | fail_if_no_progress with_reducible refine Kept.upd ?_ rfl rfl rfl rfl rfl rfl)

theorem State.runImage_kept (s : State) (a2) : Kept s (State.runImage s a2) := by
  unfold State.runImage
  repeat' (first
      | with_reducible exact Kept.refl _ | (extract_lets) | split | fail_if_no_progress with_reducible refine Kept.upd ?_ rfl rfl rfl rfl rfl rfl
      | with_reducible (apply Kept.after; apply draw_kept'; assumption))

theorem State.standbyWrite_kept (s : State) (a2) (a3) (a4) (a5) (a6) : Kept s (State.standbyWrite s a2 a3 a4 a5 a6) := by
  unfold State.standbyWrite
  repeat' (first
      | with_reducible exact Kept.refl _ | with_reducible apply Kept.after (State.tell_kept ..)
      | with_reducible apply Kept.after (State.closeBlock_kept ..) | (extract_lets) | split
      | fail_if_no_progress with_reducible refine Kept.upd ?_ rfl rfl rfl rfl rfl rfl)

theorem State.standbyVia_kept (s : State) (a2) : Kept s (State.standbyVia s a2) := by
  unfold State.standbyVia
  repeat' (first
      | with_reducible exact Kept.refl _ | (intro _; intros) | with_reducible apply Kept.after (State.runCommand_kept (h6 := ?_) ..)
      | with_reducible apply Kept.after (State.standbyWrite_kept ..) | with_reducible apply Kept.after (State.gdpRequest_kept (h4 := ?_) ..)
      | with_reducible apply Kept.after (State.gdpChecked_kept (h4 := ?_) ..) | split)

theorem State.switchCommand_kept (s : State) (a2) (a3) (a4) (g5) (h5 : ∀ x, Kept x (g5 x)) : Kept s (State.switchCommand s a2 a3 a4 g5) := by
  unfold State.switchCommand
  repeat' (first
      | with_reducible exact Kept.refl _ | (intro _; intros) | with_reducible apply Kept.after (State.viaWrite_kept (h5 := ?_) ..)
      | with_reducible apply Kept.after (State.tell_kept ..) | with_reducible apply Kept.after (h5 ..))

theorem State.verifyImage_kept (s : State) (a2) (a3) (a4) : Kept s (State.verifyImage s a2 a3 a4) := by
  unfold State.verifyImage
  repeat' (first
      | with_reducible exact Kept.refl _ | with_reducible apply Kept.after (State.raise_kept ..) | (extract_lets) | split
      | fail_if_no_progress with_reducible refine Kept.upd ?_ rfl rfl rfl rfl rfl rfl)

theorem State.disarm_kept (s : State) : Kept s (State.disarm s) := by
  unfold State.disarm
  repeat' (first
      | with_reducible exact Kept.refl _ | (extract_lets) | split | fail_if_no_progress with_reducible refine Kept.upd ?_ rfl rfl rfl rfl rfl rfl)

theorem execBaseRecordWrite_kept (a1) (a2) (s : State) (t : State) (h : execBaseRecordWrite a1 a2 s = .next t) : Kept s t := by
  unfold execBaseRecordWrite at h
  injection h with h; subst h
  repeat' (first | with_reducible exact Kept.refl _ | with_reducible apply Kept.after (State.baseRecord_kept ..))

theorem execDeltaRecordCommit_kept (s : State) (t : State) (h : execDeltaRecordCommit s = .next t) : Kept s t := by
  unfold execDeltaRecordCommit at h
  injection h with h; subst h
  repeat' (first | with_reducible exact Kept.refl _ | with_reducible apply Kept.after (State.deltaCommit_kept ..))

theorem execEventCheckpoint_kept (s : State) (t : State) (h : execEventCheckpoint s = .next t) : Kept s t := by
  unfold execEventCheckpoint at h
  injection h with h; subst h
  repeat' (first | with_reducible exact Kept.refl _ | with_reducible apply Kept.after (State.eventCheckpoint_kept ..))

theorem execStandbyImageWrite_kept (a1) (s : State) (t : State) (h : execStandbyImageWrite a1 s = .next t) : Kept s t := by
  unfold execStandbyImageWrite at h
  injection h with h; subst h
  repeat' (first | with_reducible exact Kept.refl _ | with_reducible apply Kept.after (State.standbyVia_kept ..))

theorem execVerify_kept (a1) (a2) (a3) (a4) (s : State) (t : State) (h : execVerify a1 a2 a3 a4 s = .next t) : Kept s t := by
  unfold execVerify at h
  injection h with h; subst h
  repeat' (first
      | with_reducible exact Kept.refl _ | (intro _; intros) | with_reducible apply Kept.after (State.switchCommand_kept (h5 := ?_) ..)
      | with_reducible apply Kept.after (State.verifyImage_kept ..))

theorem execArm_kept (a1) (s : State) (t : State) (h : execArm a1 s = .next t) : Kept s t := by
  unfold execArm at h
  injection h with h; subst h
  repeat' (first
      | with_reducible exact Kept.refl _ | (intro _; intros) | with_reducible apply Kept.after (State.switchCommand_kept (h5 := ?_) ..)
      | (extract_lets) | fail_if_no_progress with_reducible refine Kept.upd ?_ rfl rfl rfl rfl rfl rfl)

theorem execCancel_kept (a1) (s : State) (t : State) (h : execCancel a1 s = .next t) : Kept s t := by
  unfold execCancel at h
  injection h with h; subst h
  repeat' (first
      | with_reducible exact Kept.refl _ | (intro _; intros) | with_reducible apply Kept.after (State.switchCommand_kept (h5 := ?_) ..)
      | with_reducible apply Kept.after (State.disarm_kept ..))

end Sys2Proof.Machine
end

