-- ==== Sys2Proof/Laws/KeptJobOpen.lean ====
section
/-!
SUPPORT. What the operations of JobOpen keep.
-/
set_option linter.unusedVariables false
set_option Elab.async false
namespace Sys2Proof.Machine
open Sys2Proof

theorem State.bindQueues_kept (s : State) (a2) (a3) (a4) : Kept s (State.bindQueues s a2 a3 a4) := by
  unfold State.bindQueues
  repeat' (first
      | with_reducible exact Kept.refl _ | (intro _; intros) | with_reducible apply Kept.after (State.updQueue_kept ..)
      | with_reducible apply Kept.after (Kept.foldl _ _ _ ?_))

theorem State.setRole_kept (s : State) (a2) (a3) : Kept s (State.setRole s a2 a3) := by
  unfold State.setRole
  repeat' (first
      | with_reducible exact Kept.refl _ | with_reducible apply Kept.after (State.setNum_kept ..)
      | with_reducible apply Kept.after (State.updUnit_kept ..) | (extract_lets) | split)

theorem State.acceptOpen_kept (s : State) (a2) (a3) : Kept s (State.acceptOpen s a2 a3).1 := by
  unfold State.acceptOpen
  repeat' (first
      | with_reducible exact Kept.refl _ | with_reducible apply Kept.after (State.updInFlight_kept ..) | (extract_lets)
      | with_reducible apply Kept.after (State.accept_kept ..))
theorem State.acceptOpen_kept' {s : State} {a2} {a3} {x} {t} (h : State.acceptOpen s a2 a3 = (t, x)) : Kept s t := by
  have k := State.acceptOpen_kept s a2 a3; rw [h] at k; exact k

theorem State.openJob_kept (s : State) (a2) : Kept s (State.openJob s a2) := by
  unfold State.openJob
  repeat' (first
      | with_reducible exact Kept.refl _ | (intro _; intros) | (extract_lets) | split | with_reducible apply Kept.after (State.bindQueues_kept ..)
      | with_reducible apply Kept.after (State.setRole_kept ..) | with_reducible apply Kept.after (State.done_kept ..)
      | with_reducible apply Kept.after (Kept.foldl _ _ _ ?_) | fail_if_no_progress with_reducible refine Kept.upd ?_ rfl rfl rfl rfl rfl rfl
      | with_reducible (apply Kept.after; apply State.acceptOpen_kept'; assumption))

theorem execJobOpen_kept (a1) (s : State) (t : State) (h : execJobOpen a1 s = .next t) : Kept s t := by
  unfold execJobOpen at h
  injection h with h; subst h
  repeat' (first
      | with_reducible exact Kept.refl _ | (intro _; intros) | with_reducible apply Kept.after (State.runCommand_kept (h6 := ?_) ..)
      | with_reducible apply Kept.after (State.openJob_kept ..))

theorem State.resumeJob_kept (s : State) (a2) : Kept s (State.resumeJob s a2) := by
  unfold State.resumeJob
  repeat' (first
      | with_reducible exact Kept.refl _ | with_reducible apply Kept.after (State.updJob_kept ..)
      | with_reducible apply Kept.after (State.bindQueues_kept ..) | with_reducible apply Kept.after (State.done_kept ..) | (extract_lets) | split
      | with_reducible apply Kept.after (State.acceptOpen_kept ..))

theorem execJobResume_kept (a1) (s : State) (t : State) (h : execJobResume a1 s = .next t) : Kept s t := by
  unfold execJobResume at h
  injection h with h; subst h
  repeat' (first
      | with_reducible exact Kept.refl _ | (intro _; intros) | with_reducible apply Kept.after (State.runCommand_kept (h6 := ?_) ..)
      | with_reducible apply Kept.after (State.resumeJob_kept ..))

end Sys2Proof.Machine
end

