-- ==== Sys2Proof/Laws/KeptParams.lean ====
section
/-!
SUPPORT. What the operations of Params keep.
-/
set_option linter.unusedVariables false
set_option Elab.async false
namespace Sys2Proof.Machine
open Sys2Proof

theorem State.updParam_kept (s : State) (a2) (a3) (a4) : Kept s (State.updParam s a2 a3 a4) := by
  unfold State.updParam
  repeat' (first | with_reducible exact Kept.refl _ | with_reducible apply Kept.after (State.updBody_kept ..))

theorem State.writeCopyRow_kept (s : State) (a2) (a3) (a4) (a5) (a6) (a7) : Kept s (State.writeCopyRow s a2 a3 a4 a5 a6 a7) := by
  unfold State.writeCopyRow
  repeat' (first
      | with_reducible exact Kept.refl _ | (intro _; intros) | (extract_lets) | split | with_reducible apply Kept.after (State.putTile_kept ..)
      | with_reducible apply Kept.after (Kept.foldl _ _ _ ?_))

theorem State.countFormat_kept (s : State) (a2) (a3) (a4) : Kept s (State.countFormat s a2 a3 a4) := by
  unfold State.countFormat
  repeat' (first | with_reducible exact Kept.refl _ | with_reducible apply Kept.after (State.count_kept ..))

theorem State.writeCopy_kept (s : State) (a2) (a3) (a4) (a5) (a6) : Kept s (State.writeCopy s a2 a3 a4 a5 a6) := by
  unfold State.writeCopy
  repeat' (first
      | with_reducible exact Kept.refl _ | (intro _; intros) | with_reducible apply Kept.after (State.writeCopyRow_kept ..)
      | with_reducible apply Kept.after (State.countFormat_kept ..) | with_reducible apply Kept.after (Kept.foldl _ _ _ ?_) | split)

theorem State.sendKept_kept (s : State) (a2) (a3) (a4) (a5) (a6) : Kept s (State.sendKept s a2 a3 a4 a5 a6) := by
  unfold State.sendKept
  repeat' (first
      | with_reducible exact Kept.refl _ | with_reducible apply Kept.after (State.updJob_kept ..)
      | with_reducible apply Kept.after (State.send_kept ..) | (extract_lets) | split)

theorem State.broadcastFrom_kept (s : State) (a2) (a3) (a4) (a5) (a6) : Kept s (State.broadcastFrom s a2 a3 a4 a5 a6) := by
  unfold State.broadcastFrom
  repeat' (first
      | with_reducible exact Kept.refl _ | (intro _; intros) | with_reducible apply Kept.after (State.sendKept_kept ..)
      | with_reducible apply Kept.after (Kept.foldl _ _ _ ?_) | split)

end Sys2Proof.Machine
end

