-- ==== Sys2Proof/Laws/KeptLedger.lean ====
section
/-!
SUPPORT. What the operations of Ledger keep.
-/
set_option linter.unusedVariables false
set_option Elab.async false
namespace Sys2Proof.Machine
open Sys2Proof

theorem State.addAddition_kept (s : State) (a2) (a3) (a4) : Kept s (State.addAddition s a2 a3 a4) := by
  unfold State.addAddition
  repeat' (first | with_reducible exact Kept.refl _ | with_reducible apply Kept.after (State.updStep_kept ..) | (extract_lets) | split)

theorem State.sendStaged_kept (s : State) (a2) (a3) (a4) : Kept s (State.sendStaged s a2 a3 a4) := by
  unfold State.sendStaged
  repeat' (first
      | with_reducible exact Kept.refl _ | with_reducible apply Kept.after (State.sendKept_kept ..)
      | with_reducible apply Kept.after (State.updStep_kept ..) | split)

theorem State.sendShare_kept (s : State) (a2) (a3) (a4) : Kept s (State.sendShare s a2 a3 a4) := by
  unfold State.sendShare
  repeat' (first
      | with_reducible exact Kept.refl _ | (intro _; intros) | with_reducible apply Kept.after (State.sendKept_kept ..)
      | with_reducible apply Kept.after (State.updStep_kept ..) | with_reducible apply Kept.after (Kept.foldl _ _ _ ?_) | (extract_lets) | split)

theorem State.reportRaise_kept (s : State) (a2) (a3) (a4) (a5) : Kept s (State.reportRaise s a2 a3 a4 a5) := by
  unfold State.reportRaise
  repeat' (first
      | with_reducible exact Kept.refl _ | (intro _; intros) | with_reducible apply Kept.after (State.sendKept_kept ..)
      | with_reducible apply Kept.after (State.updStep_kept ..) | with_reducible apply Kept.after (Kept.foldl _ _ _ ?_) | (extract_lets) | split)

theorem State.closeContributions_kept (s : State) (a2) (a3) : Kept s (State.closeContributions s a2 a3) := by
  unfold State.closeContributions
  repeat' (first
      | with_reducible exact Kept.refl _ | (intro _; intros) | with_reducible apply Kept.after (State.sendStaged_kept ..)
      | with_reducible apply Kept.after (State.updStep_kept ..) | with_reducible apply Kept.after (State.reportRaise_kept ..)
      | with_reducible apply Kept.after (State.sendShare_kept ..) | with_reducible apply Kept.after (State.sendKept_kept ..)
      | with_reducible apply Kept.after (Kept.foldl _ _ _ ?_) | (extract_lets) | split)

theorem State.holdRequest_kept (s : State) (a2) (a3) (a4) : Kept s (State.holdRequest s a2 a3 a4) := by
  unfold State.holdRequest
  repeat' (first
      | with_reducible exact Kept.refl _ | (extract_lets) | fail_if_no_progress with_reducible refine Kept.upd ?_ rfl rfl rfl rfl rfl rfl)

theorem State.forStep_kept (s : State) (a2) (a3) (a4) (g5) (h5 : ∀ y0 y1 x, Kept x (g5 y0 y1 x)) : Kept s (State.forStep s a2 a3 a4 g5) := by
  unfold State.forStep
  repeat' (first
      | with_reducible exact Kept.refl _ | with_reducible apply Kept.after (State.holdRequest_kept ..) | with_reducible apply Kept.after (h5 ..)
      | (extract_lets) | split)

theorem State.takeMarker_kept (s : State) (a2) (a3) : Kept s (State.takeMarker s a2 a3) := by
  unfold State.takeMarker
  repeat' (first
      | with_reducible exact Kept.refl _ | (intro _; intros) | with_reducible apply Kept.after (State.forStep_kept (h5 := ?_) ..)
      | with_reducible apply Kept.after (State.holdRequest_kept ..) | with_reducible apply Kept.after (State.updStep_kept ..) | (extract_lets)
      | split)

theorem State.takeReport_kept (s : State) (a2) (a3) : Kept s (State.takeReport s a2 a3) := by
  unfold State.takeReport
  repeat' (first
      | with_reducible exact Kept.refl _ | (intro _; intros) | with_reducible apply Kept.after (State.forStep_kept (h5 := ?_) ..)
      | with_reducible apply Kept.after (State.holdRequest_kept ..) | with_reducible apply Kept.after (State.updStep_kept ..) | (extract_lets)
      | split)

end Sys2Proof.Machine
end

