-- ==== Sys2Proof/Laws/KeptWorkRows.lean ====
section
/-!
SUPPORT. What the operations of WorkRows keep.
-/
set_option linter.unusedVariables false
set_option Elab.async false
namespace Sys2Proof.Machine
open Sys2Proof

theorem State.bindTile_kept (s : State) (a2) (a3) (a4) (a5) : Kept s (State.bindTile s a2 a3 a4 a5) := by
  unfold State.bindTile
  repeat' (first
      | with_reducible exact Kept.refl _ | with_reducible apply Kept.after (State.carrelZero_kept ..)
      | with_reducible apply Kept.after (State.updUnit_kept ..) | split)

theorem State.startWork_kept (s : State) (a2) (a3) (a4) : Kept s (State.startWork s a2 a3 a4) := by
  unfold State.startWork
  repeat' (first
      | with_reducible exact Kept.refl _ | with_reducible apply Kept.after (State.bindTile_kept ..)
      | with_reducible apply Kept.after (State.updUnit_kept ..) | with_reducible apply Kept.after (State.settle_kept ..)
      | with_reducible apply Kept.after (State.updStep_kept ..) | split)

theorem State.restart_kept (s : State) (a2) (a3) (a4) (a5) : Kept s (State.restart s a2 a3 a4 a5) := by
  unfold State.restart
  repeat' (first
      | with_reducible exact Kept.refl _ | with_reducible apply Kept.after (State.updUnit_kept ..)
      | with_reducible apply Kept.after (State.updStep_kept ..) | with_reducible apply Kept.after (State.settle_kept ..) | (extract_lets) | split)

theorem State.runAgain_kept (s : State) (a2) (a3) : Kept s (State.runAgain s a2 a3) := by
  unfold State.runAgain
  repeat' (first | with_reducible exact Kept.refl _ | with_reducible apply Kept.after (State.restart_kept ..) | split)

theorem execWorkItemDispatch_kept (a1) (a2) (a3) (s : State) (t : State) (h : execWorkItemDispatch a1 a2 a3 s = .next t) : Kept s t := by
  unfold execWorkItemDispatch at h
  injection h with h; subst h
  repeat' (first
      | with_reducible exact Kept.refl _ | with_reducible apply Kept.after (State.runAgain_kept ..)
      | with_reducible apply Kept.after (State.startWork_kept ..) | (extract_lets) | split)

theorem Ctx.logSplit_kept (a1) (s : State) : Kept s (Ctx.logSplit a1 s) := by
  unfold Ctx.logSplit
  repeat' (first
      | with_reducible exact Kept.refl _ | with_reducible apply Kept.after (State.logRecord_kept ..)
      | with_reducible apply Kept.after (State.raiseJob_kept ..) | (extract_lets) | split)

theorem Ctx.sample_kept (a1) (s : State) : Kept s (Ctx.sample a1 s) := by
  unfold Ctx.sample
  repeat' (first
      | with_reducible exact Kept.refl _ | (intro _; intros) | (extract_lets) | split | with_reducible apply Kept.after (State.touch_kept ..)
      | with_reducible apply Kept.after (Ctx.noteDecodes_kept ..) | with_reducible apply Kept.after (State.putTile_kept ..)
      | with_reducible apply Kept.after (State.carrelWrite_kept ..) | with_reducible apply Kept.after (State.updStep_kept ..)
      | with_reducible apply Kept.after (State.wakeAll_kept ..) | with_reducible apply Kept.after (Ctx.logSplit_kept ..)
      | with_reducible apply Kept.after (Kept.foldl _ _ _ ?_) | (with_reducible change Kept _ (ite _ _ _); split)
      | with_reducible (apply Kept.after; apply draw_kept'; assumption))

theorem execSample_kept (a1) (a2) (s : State) (t : State) (h : execSample a1 a2 s = .next t) : Kept s t := by
  unfold execSample at h
  injection h with h; subst h
  repeat' (first
      | with_reducible exact Kept.refl _ | (intro _; intros) | with_reducible apply Kept.after (State.unlessPoisoned_kept (h6 := ?_) ..)
      | with_reducible apply Kept.after (State.issueSpace_kept (h7 := ?_) ..) | with_reducible apply Kept.after (Ctx.sample_kept ..))

theorem execWait_kept (a1) (a2) (s : State) (t : State) (h : execWait a1 a2 s = .next t) : Kept s t := by
  unfold execWait at h
  injection h with h; subst h
  repeat' (first | with_reducible exact Kept.refl _ | (intro _; intros) | with_reducible apply Kept.after (State.issue_kept (h5 := ?_) ..))

theorem execLoop_kept (a1) (a2) (s : State) (t : State) (h : execLoop a1 a2 s = .next t) : Kept s t := by
  unfold execLoop at h
  injection h with h; subst h
  repeat' (first
      | with_reducible exact Kept.refl _ | with_reducible apply Kept.after (State.settle_kept ..)
      | with_reducible apply Kept.after (State.updUnit_kept ..) | with_reducible apply Kept.after (State.updWork_kept ..)
      | with_reducible apply Kept.after (State.trace_kept ..) | (extract_lets) | split)

theorem execWaitLong_kept (a1) (a2) (a3) (s : State) (t : State) (h : execWaitLong a1 a2 a3 s = .next t) : Kept s t := by
  unfold execWaitLong at h
  injection h with h; subst h
  repeat' (first | with_reducible exact Kept.refl _ | with_reducible apply Kept.after (State.raiseJob_kept ..) | split)

theorem execSignal_kept (a1) (a2) (s : State) (t : State) (h : execSignal a1 a2 s = .next t) : Kept s t := by
  unfold execSignal at h
  injection h with h; subst h
  repeat' (first
      | with_reducible exact Kept.refl _ | (intro _; intros) | with_reducible apply Kept.after (State.issue_kept (h5 := ?_) ..)
      | with_reducible apply Kept.after (State.updJob_kept ..) | (extract_lets) | split)

theorem State.signalDone_kept (s : State) (a2) : Kept s (State.signalDone s a2) := by
  unfold State.signalDone
  repeat' (first | with_reducible exact Kept.refl _ | with_reducible apply Kept.after (State.updWork_kept ..))

theorem State.raiseCount_kept (s : State) (a2) (a3) (a4) (a5) (a6) (a7) (a8) : Kept s (State.raiseCount s a2 a3 a4 a5 a6 a7 a8) := by
  unfold State.raiseCount
  repeat' (first
      | with_reducible exact Kept.refl _ | with_reducible apply Kept.after (State.updUnit_kept ..)
      | with_reducible apply Kept.after (State.raiseJob_kept ..) | with_reducible apply Kept.after (State.wakeWaits_kept ..) | (extract_lets)
      | split)

theorem execSignalDeliver_kept (a1) (a2) (a3) (s : State) (t : State) (h : execSignalDeliver a1 a2 a3 s = .next t) : Kept s t := by
  unfold execSignalDeliver at h
  injection h with h; subst h
  repeat' (first
      | with_reducible exact Kept.refl _ | (intro _; intros) | with_reducible apply Kept.after (State.signalDone_kept ..)
      | with_reducible apply Kept.after (State.updJob_kept ..) | with_reducible apply Kept.after (State.raiseJob_kept ..)
      | with_reducible apply Kept.after (State.raiseCount_kept ..) | with_reducible apply Kept.after (State.updStep_kept ..)
      | with_reducible apply Kept.after (Kept.foldl _ _ _ ?_) | (extract_lets) | split)

end Sys2Proof.Machine
end

