-- ==== Sys2Proof/Laws/KeptExchange.lean ====
section
/-!
SUPPORT. What the operations of Exchange keep.
-/
set_option linter.unusedVariables false
set_option Elab.async false
namespace Sys2Proof.Machine
open Sys2Proof

theorem State.handOn_kept (s : State) (a2) (a3) (a4) (a5) : Kept s (State.handOn s a2 a3 a4 a5) := by
  unfold State.handOn
  repeat' (first
      | with_reducible exact Kept.refl _ | with_reducible apply Kept.after (State.updStep_kept ..)
      | with_reducible apply Kept.after (State.sendKept_kept ..) | (extract_lets) | split)

theorem State.handAll_kept (s : State) (a2) (a3) : Kept s (State.handAll s a2 a3) := by
  unfold State.handAll
  repeat' (first
      | with_reducible exact Kept.refl _ | (intro _; intros) | with_reducible apply Kept.after (State.handOn_kept ..)
      | with_reducible apply Kept.after (Kept.foldl _ _ _ ?_) | split)

theorem State.sendReduce_kept (s : State) (a2) (a3) (a4) (a5) : Kept s (State.sendReduce s a2 a3 a4 a5) := by
  unfold State.sendReduce
  repeat' (first
      | with_reducible exact Kept.refl _ | (intro _; intros) | with_reducible apply Kept.after (State.sendKept_kept ..)
      | with_reducible apply Kept.after (State.updStep_kept ..) | with_reducible apply Kept.after (Kept.foldl _ _ _ ?_))

theorem State.deliverSlice_kept (s : State) (a2) (a3) (a4) (a5) (a6) : Kept s (State.deliverSlice s a2 a3 a4 a5 a6) := by
  unfold State.deliverSlice
  repeat' (first
      | with_reducible exact Kept.refl _ | (intro _; intros) | with_reducible apply Kept.after (State.putTile_kept ..)
      | with_reducible apply Kept.after (State.updStep_kept ..) | with_reducible apply Kept.after (State.raiseCount_kept ..)
      | with_reducible apply Kept.after (Kept.foldl _ _ _ ?_) | (extract_lets) | split)

theorem State.sliceOn_kept (s : State) (a2) (a3) (a4) (a5) (a6) : Kept s (State.sliceOn s a2 a3 a4 a5 a6) := by
  unfold State.sliceOn
  repeat' (first
      | with_reducible exact Kept.refl _ | (intro _; intros) | with_reducible apply Kept.after (State.sendReduce_kept ..)
      | with_reducible apply Kept.after (State.deliverSlice_kept ..) | with_reducible apply Kept.after (State.updStep_kept ..)
      | with_reducible apply Kept.after (Kept.foldl _ _ _ ?_) | (extract_lets) | split)

theorem State.sliceDown_kept (s : State) (a2) (a3) (a4) (a5) (a6) : Kept s (State.sliceDown s a2 a3 a4 a5 a6) := by
  unfold State.sliceDown
  repeat' (first
      | with_reducible exact Kept.refl _ | (intro _; intros) | with_reducible apply Kept.after (State.sendReduce_kept ..)
      | with_reducible apply Kept.after (State.deliverSlice_kept ..) | with_reducible apply Kept.after (Kept.foldl _ _ _ ?_) | (extract_lets)
      | split)

theorem State.slicesOn_kept (s : State) (a2) (a3) : Kept s (State.slicesOn s a2 a3) := by
  unfold State.slicesOn
  repeat' (first
      | with_reducible exact Kept.refl _ | (intro _; intros) | with_reducible apply Kept.after (State.sliceOn_kept ..)
      | with_reducible apply Kept.after (Kept.foldl _ _ _ ?_) | split)

theorem State.afterWork_kept (s : State) (a2) (a3) : Kept s (State.afterWork s a2 a3) := by
  unfold State.afterWork
  repeat' (first
      | with_reducible exact Kept.refl _ | with_reducible apply Kept.after (State.slicesOn_kept ..)
      | with_reducible apply Kept.after (State.handAll_kept ..))

theorem execInstanceComplete_kept (a1) (a2) (a3) (s : State) (t : State) (h : execInstanceComplete a1 a2 a3 s = .next t) : Kept s t := by
  unfold execInstanceComplete at h
  injection h with h; subst h
  repeat' (first
      | with_reducible exact Kept.refl _ | with_reducible apply Kept.after (State.afterWork_kept ..)
      | with_reducible apply Kept.after (State.complete_kept ..) | with_reducible apply Kept.after (State.updUnit_kept ..) | (extract_lets) | split)

theorem execLedgerAdd_kept (a1) (a2) (a3) (s : State) (t : State) (h : execLedgerAdd a1 a2 a3 s = .next t) : Kept s t := by
  unfold execLedgerAdd at h
  injection h with h; subst h
  repeat' (first
      | with_reducible exact Kept.refl _ | with_reducible apply Kept.after (State.afterWork_kept ..)
      | with_reducible apply Kept.after (State.updStep_kept ..) | with_reducible apply Kept.after (State.addAddition_kept ..) | split)

end Sys2Proof.Machine
end

