-- ==== Sys2Proof/Laws/KeptPages.lean ====
section
/-!
SUPPORT. What the operations of Pages keep.
-/
set_option linter.unusedVariables false
set_option Elab.async false
namespace Sys2Proof.Machine
open Sys2Proof

theorem State.writePage_kept (s : State) (a2) (a3) (a4) (a5) (a6) (a7) (a8) (a9) : Kept s (State.writePage s a2 a3 a4 a5 a6 a7 a8 a9) := by
  unfold State.writePage
  repeat' (first
      | with_reducible exact Kept.refl _ | with_reducible apply Kept.after (State.freeTiles_kept ..)
      | with_reducible apply Kept.after (State.updBody_kept ..) | with_reducible apply Kept.after (State.putAll_kept ..))

theorem State.dropPage_kept (s : State) (a2) (a3) (a4) (a5) : Kept s (State.dropPage s a2 a3 a4 a5) := by
  unfold State.dropPage
  repeat' (first | with_reducible exact Kept.refl _ | with_reducible apply Kept.after (State.freeTiles_kept ..))

theorem State.annexPage_kept (s : State) (a2) (a3) (a4) (a5) : Kept s (State.annexPage s a2 a3 a4 a5) := by
  unfold State.annexPage
  repeat' (first | with_reducible exact Kept.refl _ | with_reducible apply Kept.after (State.updTiles_kept ..))

theorem State.writeRow_kept (s : State) (a2) (a3) (a4) (a5) (a6) (a7) (a8) (a9) : Kept s (State.writeRow s a2 a3 a4 a5 a6 a7 a8 a9) := by
  unfold State.writeRow
  repeat' (first
      | with_reducible exact Kept.refl _ | with_reducible apply Kept.after (State.updBody_kept ..)
      | with_reducible apply Kept.after (State.writePage_kept ..) | (extract_lets) | split)

theorem State.standTile_kept (s : State) (a2) (a3) : Kept s (State.standTile s a2 a3) := by
  unfold State.standTile
  repeat' (first
      | with_reducible exact Kept.refl _ | with_reducible apply Kept.after (State.updTiles_kept ..)
      | with_reducible apply Kept.after (State.putTile_kept ..) | with_reducible apply Kept.after (State.updTile_kept ..) | (extract_lets) | split)

theorem State.standRows_kept (s : State) (a2) (a3) : Kept s (State.standRows s a2 a3) := by
  unfold State.standRows
  repeat' (first
      | with_reducible exact Kept.refl _ | (intro _; intros) | with_reducible apply Kept.after (State.writeRow_kept ..)
      | with_reducible apply Kept.after (Kept.foldl _ _ _ ?_) | (extract_lets) | split)

theorem State.retireEditions_kept (s : State) (a2) : Kept s (State.retireEditions s a2) := by
  unfold State.retireEditions
  repeat' (first
      | with_reducible exact Kept.refl _ | (intro _; intros) | with_reducible apply Kept.after (State.dropPage_kept ..)
      | with_reducible apply Kept.after (State.updBody_kept ..) | with_reducible apply Kept.after (Kept.foldl _ _ _ ?_) | (extract_lets) | split)

theorem State.publish_kept (s : State) (a2) (a3) : Kept s (State.publish s a2 a3) := by
  unfold State.publish
  repeat' (first
      | with_reducible exact Kept.refl _ | (intro _; intros) | with_reducible apply Kept.after (State.updBody_kept ..)
      | with_reducible apply Kept.after (State.writePage_kept ..) | with_reducible apply Kept.after (Kept.foldl _ _ _ ?_) | split)

theorem State.runDeferredPublishes_kept (s : State) (a2) (a3) : Kept s (State.runDeferredPublishes s a2 a3) := by
  unfold State.runDeferredPublishes
  repeat' (first
      | with_reducible exact Kept.refl _ | (intro _; intros) | with_reducible apply Kept.after (State.retireEditions_kept ..)
      | with_reducible apply Kept.after (State.logRecord_kept ..) | with_reducible apply Kept.after (State.publish_kept ..)
      | with_reducible apply Kept.after (Kept.foldl _ _ _ ?_) | (extract_lets) | split)

end Sys2Proof.Machine
end

