-- ==== Sys2Proof/Laws/KeptTables.lean ====
section
/-!
SUPPORT. What the operations of Tables keep.
-/
set_option linter.unusedVariables false
set_option Elab.async false
namespace Sys2Proof.Machine
open Sys2Proof

theorem State.jobCommand_kept (s : State) (a2) (a3) (a4) (a5) (g6) (h6 : ∀ x y1 y2, Kept x (g6 x y1 y2)) : Kept s (State.jobCommand s a2 a3 a4 a5 g6) := by
  unfold State.jobCommand
  repeat' (first
      | with_reducible exact Kept.refl _ | (intro _; intros) | with_reducible apply Kept.after (State.runCommand_kept (h6 := ?_) ..)
      | with_reducible apply Kept.after (h6 ..) | (extract_lets) | split)

theorem execTableCreate_kept (a1) (s : State) (t : State) (h : execTableCreate a1 s = .next t) : Kept s t := by
  unfold execTableCreate at h
  injection h with h; subst h
  repeat' (first
      | with_reducible exact Kept.refl _ | (intro _; intros) | with_reducible apply Kept.after (State.jobCommand_kept (h6 := ?_) ..)
      | with_reducible apply Kept.after (State.done_kept ..) | with_reducible apply Kept.after (State.updBody_kept ..))

theorem State.applyLoad_kept (s : State) (a2) (a3) (a4) : Kept s (State.applyLoad s a2 a3 a4) := by
  unfold State.applyLoad
  repeat' (first
      | with_reducible exact Kept.refl _ | (intro _; intros) | with_reducible apply Kept.after (State.annexPage_kept ..)
      | with_reducible apply Kept.after (State.updBody_kept ..) | with_reducible apply Kept.after (State.writePage_kept ..)
      | with_reducible apply Kept.after (Kept.foldl _ _ _ ?_) | (extract_lets) | split)

theorem State.atPoint_kept (s : State) (a2) (a3) (g4) (h4 : ∀ x, Kept x (g4 x)) : Kept s (State.atPoint s a2 a3 g4) := by
  unfold State.atPoint
  repeat' (first
      | with_reducible exact Kept.refl _ | with_reducible apply Kept.after (State.done_kept ..)
      | with_reducible apply Kept.after (State.updJob_kept ..) | with_reducible apply Kept.after (h4 ..) | (extract_lets) | split)

theorem State.tableLoad_kept (s : State) (a2) (a3) : Kept s (State.tableLoad s a2 a3) := by
  unfold State.tableLoad
  repeat' (first
      | with_reducible exact Kept.refl _ | (intro _; intros) | with_reducible apply Kept.after (State.jobCommand_kept (h6 := ?_) ..)
      | with_reducible apply Kept.after (State.done_kept ..) | with_reducible apply Kept.after (State.applyLoad_kept ..)
      | with_reducible apply Kept.after (State.atPoint_kept (h4 := ?_) ..) | (extract_lets) | split)

theorem execTableLoad_kept (a1) (s : State) (t : State) (h : execTableLoad a1 s = .next t) : Kept s t := by
  unfold execTableLoad at h
  injection h with h; subst h
  repeat' (first | with_reducible exact Kept.refl _ | with_reducible apply Kept.after (State.tableLoad_kept ..))

theorem execTableLoadAnnex_kept (a1) (s : State) (t : State) (h : execTableLoadAnnex a1 s = .next t) : Kept s t := by
  unfold execTableLoadAnnex at h
  injection h with h; subst h
  repeat' (first | with_reducible exact Kept.refl _ | with_reducible apply Kept.after (State.tableLoad_kept ..))

theorem execEditionPublish_kept (a1) (s : State) (t : State) (h : execEditionPublish a1 s = .next t) : Kept s t := by
  unfold execEditionPublish at h
  injection h with h; subst h
  repeat' (first
      | with_reducible exact Kept.refl _ | (intro _; intros) | with_reducible apply Kept.after (State.jobCommand_kept (h6 := ?_) ..)
      | with_reducible apply Kept.after (State.done_kept ..) | with_reducible apply Kept.after (State.retireEditions_kept ..)
      | with_reducible apply Kept.after (State.publish_kept ..) | with_reducible apply Kept.after (State.raiseJob_kept ..)
      | with_reducible apply Kept.after (State.updBody_kept ..) | (extract_lets) | split)

theorem execDiscard_kept (a1) (s : State) (t : State) (h : execDiscard a1 s = .next t) : Kept s t := by
  unfold execDiscard at h
  injection h with h; subst h
  repeat' (first
      | with_reducible exact Kept.refl _ | (intro _; intros) | with_reducible apply Kept.after (State.jobCommand_kept (h6 := ?_) ..)
      | with_reducible apply Kept.after (State.done_kept ..) | with_reducible apply Kept.after (State.updBody_kept ..))

theorem State.shelfSet_kept (s : State) (a2) (a3) (a4) : Kept s (State.shelfSet s a2 a3 a4) := by
  unfold State.shelfSet
  repeat' (first
      | with_reducible exact Kept.refl _ | (intro _; intros) | with_reducible apply Kept.after (State.jobCommand_kept (h6 := ?_) ..)
      | with_reducible apply Kept.after (State.done_kept ..) | with_reducible apply Kept.after (State.updBody_kept ..))

theorem execShelfReplace_kept (a1) (s : State) (t : State) (h : execShelfReplace a1 s = .next t) : Kept s t := by
  unfold execShelfReplace at h
  injection h with h; subst h
  repeat' (first | with_reducible exact Kept.refl _ | with_reducible apply Kept.after (State.shelfSet_kept ..))

theorem execShelfAdd_kept (a1) (s : State) (t : State) (h : execShelfAdd a1 s = .next t) : Kept s t := by
  unfold execShelfAdd at h
  injection h with h; subst h
  repeat' (first | with_reducible exact Kept.refl _ | with_reducible apply Kept.after (State.shelfSet_kept ..))

theorem execShelfRemove_kept (a1) (s : State) (t : State) (h : execShelfRemove a1 s = .next t) : Kept s t := by
  unfold execShelfRemove at h
  injection h with h; subst h
  repeat' (first | with_reducible exact Kept.refl _ | with_reducible apply Kept.after (State.shelfSet_kept ..))

end Sys2Proof.Machine
end

