-- ==== Sys2Proof/Laws/KeptClosing.lean ====
section
/-!
SUPPORT. What the operations of Closing keep.
-/
set_option linter.unusedVariables false
set_option Elab.async false
namespace Sys2Proof.Machine
open Sys2Proof

theorem State.dropWorks_kept (s : State) (a2) : Kept s (State.dropWorks s a2) := Kept.unitsUpd _ _ (List.length_map ..)

theorem State.freeStepTiles_kept (s : State) (a2) (a3) : Kept s (State.freeStepTiles s a2 a3) := by
  unfold State.freeStepTiles
  repeat' (first | with_reducible exact Kept.refl _ | with_reducible apply Kept.after (State.freeTiles_kept ..))

theorem State.abandonFrom_kept (s : State) (a2) (a3) : Kept s (State.abandonFrom s a2 a3) := by
  unfold State.abandonFrom
  repeat' (first
      | with_reducible exact Kept.refl _ | (intro _; intros) | with_reducible apply Kept.after (State.finishAsker_kept ..)
      | with_reducible apply Kept.after (State.freeStepTiles_kept ..) | with_reducible apply Kept.after (State.dropWorks_kept ..)
      | with_reducible apply Kept.after (State.updJob_kept ..) | with_reducible apply Kept.after (Kept.foldl _ _ _ ?_) | split)

theorem State.releaseTile_kept (s : State) (a2) : Kept s (State.releaseTile s a2) := by
  unfold State.releaseTile
  repeat' (first
      | with_reducible exact Kept.refl _ | with_reducible apply Kept.after (State.carrelZero_kept ..)
      | with_reducible apply Kept.after (State.updUnit_kept ..) | with_reducible apply Kept.after (State.setRole_kept ..))

theorem State.freeJob_kept (s : State) (a2) : Kept s (State.freeJob s a2) := by
  unfold State.freeJob
  repeat' (first
      | with_reducible exact Kept.refl _ | (intro _; intros) | with_reducible apply Kept.after (State.releaseTile_kept ..)
      | with_reducible apply Kept.after (State.dropWorks_kept ..) | with_reducible apply Kept.after (State.freeTiles_kept ..)
      | with_reducible apply Kept.after (State.mapQueues_kept ..) | with_reducible apply Kept.after (Kept.foldl _ _ _ ?_) | (extract_lets)
      | fail_if_no_progress with_reducible refine Kept.upd ?_ rfl rfl rfl rfl rfl rfl)

theorem State.tryClose_kept (s : State) (a2) : Kept s (State.tryClose s a2) := by
  unfold State.tryClose
  repeat' (first
      | with_reducible exact Kept.refl _ | with_reducible apply Kept.after (State.abandonFrom_kept ..)
      | with_reducible apply Kept.after (State.freeJob_kept ..) | with_reducible apply Kept.after (State.finishAsker_kept ..) | (extract_lets)
      | split | (dsimp +zetaDelta only; split))

theorem execJobClose_kept (a1) (s : State) (t : State) (h : execJobClose a1 s = .next t) : Kept s t := by
  unfold execJobClose at h
  injection h with h; subst h
  repeat' (first
      | with_reducible exact Kept.refl _ | (intro _; intros) | with_reducible apply Kept.after (State.jobCommand_kept (h6 := ?_) ..)
      | with_reducible apply Kept.after (State.tryClose_kept ..) | with_reducible apply Kept.after (State.updJob_kept ..))

theorem execOrphanJobHoldTime_kept (a1) (s : State) (t : State) (h : execOrphanJobHoldTime a1 s = .next t) : Kept s t := by
  unfold execOrphanJobHoldTime at h
  injection h with h; subst h
  repeat' (first
      | with_reducible exact Kept.refl _ | with_reducible apply Kept.after (State.tryClose_kept ..)
      | with_reducible apply Kept.after (State.updJob_kept ..) | (extract_lets) | split)

end Sys2Proof.Machine
end

