-- ==== Sys2Proof/Laws/KeptSubmit.lean ====
section
/-!
SUPPORT. What the operations of Submit keep.
-/
set_option linter.unusedVariables false
set_option Elab.async false
namespace Sys2Proof.Machine
open Sys2Proof

theorem State.runFreezes_kept (s : State) (a2) : Kept s (State.runFreezes s a2) := by
  unfold State.runFreezes
  repeat' (first | with_reducible exact Kept.refl _ | with_reducible apply Kept.after (State.updJob_kept ..))

theorem State.bindScales_kept (s : State) (a2) (a3) : Kept s (State.bindScales s a2 a3) := by
  unfold State.bindScales
  repeat' (first | with_reducible exact Kept.refl _ | with_reducible apply Kept.after (State.updJob_kept ..))

theorem State.freeHeld_kept (s : State) (a2) : Kept s (State.freeHeld s a2) := by
  unfold State.freeHeld
  repeat' (first | with_reducible exact Kept.refl _ | with_reducible apply Kept.after (State.updJob_kept ..))

theorem State.takeSupply_kept (s : State) (a2) (a3) : Kept s (State.takeSupply s a2 a3) := by
  unfold State.takeSupply
  repeat' (first
      | with_reducible exact Kept.refl _ | with_reducible apply Kept.after (State.updBody_kept ..)
      | with_reducible apply Kept.after (State.updJob_kept ..) | (extract_lets) | split)

theorem State.replaySupply_kept (s : State) (a2) (a3) : Kept s (State.replaySupply s a2 a3) := by
  unfold State.replaySupply
  repeat' (first | with_reducible exact Kept.refl _ | with_reducible apply Kept.after (State.updBody_kept ..) | (extract_lets) | split)

theorem execRowSupplyAck_kept (a1) (s : State) (t : State) (h : execRowSupplyAck a1 s = .next t) : Kept s t := by
  unfold execRowSupplyAck at h
  injection h with h; subst h
  repeat' (first
      | with_reducible exact Kept.refl _ | (intro _; intros) | with_reducible apply Kept.after (State.runCommand_kept (h6 := ?_) ..)
      | with_reducible apply Kept.after (State.done_kept ..) | with_reducible apply Kept.after (State.freeHeld_kept ..)
      | with_reducible apply Kept.after (State.updBody_kept ..) | (extract_lets) | split)

theorem State.cancelMove_kept (s : State) (a2) (a3) : Kept s (State.cancelMove s a2 a3) := by
  unfold State.cancelMove
  repeat' (first | with_reducible exact Kept.refl _ | with_reducible apply Kept.after (State.updJob_kept ..))

theorem execRoleMapWrite_kept (a1) (s : State) (t : State) (h : execRoleMapWrite a1 s = .next t) : Kept s t := by
  unfold execRoleMapWrite at h
  injection h with h; subst h
  repeat' (first
      | with_reducible exact Kept.refl _ | (intro _; intros) | with_reducible apply Kept.after (State.runCommand_kept (h6 := ?_) ..)
      | with_reducible apply Kept.after (State.done_kept ..) | with_reducible apply Kept.after (State.setRole_kept ..)
      | with_reducible apply Kept.after (State.cancelMove_kept ..) | (extract_lets) | split)

theorem execDepositExport_kept (a1) (s : State) (t : State) (h : execDepositExport a1 s = .next t) : Kept s t := by
  unfold execDepositExport at h
  injection h with h; subst h
  repeat' (first
      | with_reducible exact Kept.refl _ | (intro _; intros) | with_reducible apply Kept.after (State.jobCommand_kept (h6 := ?_) ..)
      | with_reducible apply Kept.after (State.done_kept ..) | with_reducible apply Kept.after (State.holdFragments_kept ..)
      | with_reducible apply Kept.after (State.updJob_kept ..) | (extract_lets) | split | with_reducible apply Kept.after (draw_kept ..))

theorem State.restoreJob_kept (s : State) (a2) (a3) : Kept s (State.restoreJob s a2 a3) := by
  unfold State.restoreJob
  repeat' (first
      | with_reducible exact Kept.refl _ | (intro _; intros) | with_reducible apply Kept.after (State.updJob_kept ..)
      | with_reducible apply Kept.after (State.standRows_kept ..) | with_reducible apply Kept.after (State.standTile_kept ..)
      | with_reducible apply Kept.after (Kept.foldl _ _ _ ?_))

theorem execDepositImport_kept (a1) (a2) (a3) (a4) (a5) (a6) (s : State) (t : State) (h : execDepositImport a1 a2 a3 a4 a5 a6 s = .next t) : Kept s t := by
  unfold execDepositImport at h
  injection h with h; subst h
  repeat' (first
      | with_reducible exact Kept.refl _ | (intro _; intros) | with_reducible apply Kept.after (State.runCommand_kept (h6 := ?_) ..)
      | with_reducible apply Kept.after (State.updJob_kept ..) | with_reducible apply Kept.after (State.done_kept ..)
      | with_reducible apply Kept.after (State.restoreJob_kept ..) | (extract_lets) | split)

end Sys2Proof.Machine
end

