-- ==== Sys2Proof/Laws/KeptMoveRows.lean ====
section
/-!
SUPPORT. What the operations of MoveRows keep.
-/
set_option linter.unusedVariables false
set_option Elab.async false
namespace Sys2Proof.Machine
open Sys2Proof

theorem Ctx.outOfTable_kept (a1) (a2) (a3) (s : State) : Kept s (Ctx.outOfTable a1 a2 a3 s) := by
  unfold Ctx.outOfTable
  repeat' (first
      | with_reducible exact Kept.refl _ | with_reducible apply Kept.after (Ctx.count_kept ..)
      | with_reducible apply Kept.after (State.updStep_kept ..) | with_reducible apply Kept.after (State.raiseJob_kept ..) | (extract_lets) | split
      | (dsimp only) | (dsimp +zetaDelta only; split))

theorem execGather_kept (a1) (a2) (s : State) (t : State) (h : execGather a1 a2 s = .next t) : Kept s t := by
  unfold execGather at h
  injection h with h; subst h
  repeat' (first
      | with_reducible exact Kept.refl _ | (intro _; intros) | with_reducible apply Kept.after (State.issue_kept (h5 := ?_) ..)
      | with_reducible apply Kept.after (Ctx.outOfTable_kept ..) | with_reducible apply Kept.after (State.carrelWrite_kept ..))

theorem execScatter_kept (a1) (a2) (s : State) (t : State) (h : execScatter a1 a2 s = .next t) : Kept s t := by
  unfold execScatter at h
  injection h with h; subst h
  repeat' (first
      | with_reducible exact Kept.refl _ | (intro _; intros) | with_reducible apply Kept.after (State.issue_kept (h5 := ?_) ..)
      | with_reducible apply Kept.after (Ctx.outOfTable_kept ..))

theorem State.updSlip_kept (s : State) (a2) (a3) (a4) : Kept s (State.updSlip s a2 a3 a4) := by
  unfold State.updSlip
  repeat' (first | with_reducible exact Kept.refl _ | with_reducible apply Kept.after (State.updUnit_kept ..))

theorem State.callRow_kept (s : State) (a2) (a3) (a4) (a5) (a6) (a7) : Kept s (State.callRow s a2 a3 a4 a5 a6 a7).1 := by
  unfold State.callRow
  repeat' (first
      | with_reducible exact Kept.refl _ | with_reducible apply Kept.after (State.updBody_kept ..)
      | with_reducible apply Kept.after (State.updQueue_kept ..) | (extract_lets) | split)
theorem State.callRow_kept' {s : State} {a2} {a3} {a4} {a5} {a6} {a7} {x} {t} (h : State.callRow s a2 a3 a4 a5 a6 a7 = (t, x)) : Kept s t := by
  have k := State.callRow_kept s a2 a3 a4 a5 a6 a7; rw [h] at k; exact k

theorem State.notePage_kept (s : State) (a2) (a3) (a4) (a5) (a6) (a7) (a8) : Kept s (State.notePage s a2 a3 a4 a5 a6 a7 a8) := by
  unfold State.notePage
  repeat' (first
      | with_reducible exact Kept.refl _ | with_reducible apply Kept.after (State.touchAll_kept ..) | (extract_lets) | split
      | fail_if_no_progress with_reducible refine Kept.upd ?_ rfl rfl rfl rfl rfl rfl)

theorem State.noteGather_kept (s : State) (a2) (a3) (a4) (a5) (a6) : Kept s (State.noteGather s a2 a3 a4 a5 a6) := by
  unfold State.noteGather
  repeat' (first
      | with_reducible exact Kept.refl _ | with_reducible apply Kept.after (State.updStep_kept ..)
      | with_reducible apply Kept.after (State.updBody_kept ..))

theorem State.callRowIf_kept (s : State) (a2) (a3) (a4) (a5) (a6) (a7) (a8) : Kept s (State.callRowIf s a2 a3 a4 a5 a6 a7 a8).1 := by
  unfold State.callRowIf
  repeat' (first | with_reducible exact Kept.refl _ | split | with_reducible apply Kept.after (State.callRow_kept ..))
theorem State.callRowIf_kept' {s : State} {a2} {a3} {a4} {a5} {a6} {a7} {a8} {x} {t} (h : State.callRowIf s a2 a3 a4 a5 a6 a7 a8 = (t, x)) : Kept s t := by
  have k := State.callRowIf_kept s a2 a3 a4 a5 a6 a7 a8; rw [h] at k; exact k

theorem State.noteRead_kept (s : State) (a2) (a3) (a4) (a5) (a6) (a7) (a8) (a9) (a10) : Kept s (State.noteRead s a2 a3 a4 a5 a6 a7 a8 a9 a10) := by
  unfold State.noteRead
  repeat' (first
      | with_reducible exact Kept.refl _ | with_reducible apply Kept.after (State.notePage_kept ..)
      | with_reducible apply Kept.after (State.noteGather_kept ..) | with_reducible apply Kept.after (State.touchAll_kept ..) | (extract_lets)
      | split | (with_reducible change Kept _ (ite _ _ _); split))

theorem execSlipIssue_kept (a1) (a2) (s : State) (t : State) (h : execSlipIssue a1 a2 s = .next t) : Kept s t := by
  unfold execSlipIssue at h
  injection h with h; subst h
  repeat' (first
      | with_reducible exact Kept.refl _ | with_reducible apply Kept.after (State.raiseJob_kept ..)
      | with_reducible apply Kept.after (State.updUnit_kept ..) | with_reducible apply Kept.after (State.updWork_kept ..)
      | with_reducible apply Kept.after (State.send_kept ..) | with_reducible apply Kept.after (State.noteRead_kept ..) | (extract_lets) | split
      | with_reducible (apply Kept.after; apply State.callRowIf_kept'; assumption))

theorem State.landVals_kept (s : State) (a2) (a3) (a4) (a5) (a6) (a7) : Kept s (State.landVals s a2 a3 a4 a5 a6 a7) := by
  unfold State.landVals
  repeat' (first
      | with_reducible exact Kept.refl _ | (intro _; intros) | with_reducible apply Kept.after (State.carrelWrite_kept ..)
      | with_reducible apply Kept.after (Kept.foldl _ _ _ ?_))

theorem State.landPoison_kept (s : State) (a2) (a3) (a4) (a5) (a6) (a7) : Kept s (State.landPoison s a2 a3 a4 a5 a6 a7) :=
  Kept.poisonUpd _ _ (rising_foldl_insertOnce _ _ _)

theorem State.leaveShelf_kept (s : State) (a2) (a3) (a4) : Kept s (State.leaveShelf s a2 a3 a4) := by
  unfold State.leaveShelf
  repeat' (first | with_reducible exact Kept.refl _ | with_reducible apply Kept.after (State.updBody_kept ..) | split)

theorem State.noteDecoded_kept (s : State) (a2) (a3) (a4) (a5) (a6) (a7) (a8) (a9) : Kept s (State.noteDecoded s a2 a3 a4 a5 a6 a7 a8 a9) := by
  unfold State.noteDecoded
  repeat' (first
      | with_reducible exact Kept.refl _ | (intro _; intros) | with_reducible apply Kept.after (State.poisonLabel_kept ..)
      | with_reducible apply Kept.after (State.count_kept ..) | with_reducible apply Kept.after (State.updStep_kept ..)
      | with_reducible apply Kept.after (State.raiseJob_kept ..) | with_reducible apply Kept.after (Kept.foldl _ _ _ ?_) | (extract_lets) | split)

theorem execSlipLand_kept (a1) (a2) (s : State) (t : State) (h : execSlipLand a1 a2 s = .next t) : Kept s t := by
  unfold execSlipLand at h
  injection h with h; subst h
  repeat' (first
      | with_reducible exact Kept.refl _ | with_reducible apply Kept.after (State.updSlip_kept ..)
      | with_reducible apply Kept.after (State.updWork_kept ..) | with_reducible apply Kept.after (State.updStep_kept ..)
      | with_reducible apply Kept.after (State.noteDecoded_kept ..) | with_reducible apply Kept.after (State.landVals_kept ..)
      | with_reducible apply Kept.after (State.landPoison_kept ..) | with_reducible apply Kept.after (State.noteGather_kept ..)
      | with_reducible apply Kept.after (State.leaveShelf_kept ..) | (extract_lets) | split
      | with_reducible apply Kept.after (State.callRow_kept ..))

theorem execSlipReissue_kept (a1) (a2) (s : State) (t : State) (h : execSlipReissue a1 a2 s = .next t) : Kept s t := by
  unfold execSlipReissue at h
  injection h with h; subst h
  repeat' (first
      | with_reducible exact Kept.refl _ | with_reducible apply Kept.after (State.updSlip_kept ..)
      | with_reducible apply Kept.after (State.send_kept ..) | (extract_lets) | split)

theorem State.updCall_kept (s : State) (a2) (a3) (a4) : Kept s (State.updCall s a2 a3 a4) := by
  unfold State.updCall
  repeat' (first | with_reducible exact Kept.refl _ | with_reducible apply Kept.after (State.updBody_kept ..))

theorem State.sendCall_kept (s : State) (a2) (a3) (a4) : Kept s (State.sendCall s a2 a3 a4) := by
  unfold State.sendCall
  repeat' (first
      | with_reducible exact Kept.refl _ | with_reducible apply Kept.after (State.enqueue_kept ..)
      | with_reducible apply Kept.after (State.updQueue_kept ..) | (extract_lets) | split)

theorem State.countCall_kept (s : State) (a2) (a3) (a4) (a5) : Kept s (State.countCall s a2 a3 a4 a5) := by
  unfold State.countCall
  repeat' (first
      | with_reducible exact Kept.refl _ | with_reducible apply Kept.after (State.count_kept ..)
      | with_reducible apply Kept.after (State.updBody_kept ..) | split)

theorem execRowCallClose_kept (a1) (a2) (s : State) (t : State) (h : execRowCallClose a1 a2 s = .next t) : Kept s t := by
  unfold execRowCallClose at h
  injection h with h; subst h
  repeat' (first
      | with_reducible exact Kept.refl _ | with_reducible apply Kept.after (State.countCall_kept ..)
      | with_reducible apply Kept.after (State.sendCall_kept ..) | with_reducible apply Kept.after (State.updCall_kept ..) | split)

theorem State.replaceCall_kept (s : State) (a2) (a3) (a4) : Kept s (State.replaceCall s a2 a3 a4).1 := by
  unfold State.replaceCall
  repeat' (first | with_reducible exact Kept.refl _ | with_reducible apply Kept.after (State.updQueue_kept ..) | (extract_lets) | split)
theorem State.replaceCall_kept' {s : State} {a2} {a3} {a4} {x} {t} (h : State.replaceCall s a2 a3 a4 = (t, x)) : Kept s t := by
  have k := State.replaceCall_kept s a2 a3 a4; rw [h] at k; exact k

theorem execRowCallResend_kept (a1) (a2) (s : State) (t : State) (h : execRowCallResend a1 a2 s = .next t) : Kept s t := by
  unfold execRowCallResend at h
  injection h with h; subst h
  repeat' (first
      | with_reducible exact Kept.refl _ | with_reducible apply Kept.after (State.sendCall_kept ..)
      | with_reducible apply Kept.after (State.countCall_kept ..) | with_reducible apply Kept.after (State.updCall_kept ..) | (extract_lets) | split
      | with_reducible apply Kept.after (State.replaceCall_kept ..))

theorem execAnnexStalled_kept (a1) (a2) (s : State) (t : State) (h : execAnnexStalled a1 a2 s = .next t) : Kept s t := by
  unfold execAnnexStalled at h
  injection h with h; subst h
  repeat' (first
      | with_reducible exact Kept.refl _ | with_reducible apply Kept.after (State.updCall_kept ..)
      | with_reducible apply Kept.after (State.updJob_kept ..) | with_reducible apply Kept.after (State.tryClose_kept ..)
      | with_reducible apply Kept.after (State.raiseJob_kept ..) | (extract_lets) | split)

theorem State.serveGather_kept (s : State) (a2) (a3) : Kept s (State.serveGather s a2 a3) := by
  unfold State.serveGather
  repeat' (first
      | with_reducible exact Kept.refl _ | with_reducible apply Kept.after (State.holdRequest_kept ..)
      | with_reducible apply Kept.after (State.noteDecoded_kept ..) | with_reducible apply Kept.after (State.send_kept ..)
      | with_reducible apply Kept.after (State.noteRead_kept ..) | (extract_lets) | split | (with_reducible change Kept _ (ite _ _ _); split)
      | with_reducible apply Kept.after (State.callRow_kept ..))

theorem State.serveMsg_kept (s : State) (a2) (a3) (a4) : Kept s (State.serveMsg s a2 a3 a4) := by
  unfold State.serveMsg
  repeat' (first
      | with_reducible exact Kept.refl _ | with_reducible apply Kept.after (State.serveGather_kept ..)
      | with_reducible apply Kept.after (State.takeMarker_kept ..) | with_reducible apply Kept.after (State.takeReport_kept ..) | split)

theorem State.serveWaiting_kept (s : State) : Kept s (State.serveWaiting s) := by
  unfold State.serveWaiting
  repeat' (first
      | with_reducible exact Kept.refl _ | (intro _; intros) | with_reducible apply Kept.after (State.serveMsg_kept ..)
      | with_reducible apply Kept.after (Kept.foldl _ _ _ ?_) | (extract_lets)
      | fail_if_no_progress with_reducible refine Kept.upd ?_ rfl rfl rfl rfl rfl rfl)

theorem execGatherReq_kept (a1) (a2) (a3) (a4) (s : State) (t : State) (h : execGatherReq a1 a2 a3 a4 s = .next t) : Kept s t := by
  unfold execGatherReq at h
  injection h with h; subst h
  repeat' (first
      | with_reducible exact Kept.refl _ | with_reducible apply Kept.after (State.serveGather_kept ..) | (extract_lets) | split
      | with_reducible (apply Kept.after; apply State.receive_kept'; assumption))

theorem execGatherData_kept (a1) (a2) (a3) (a4) (s : State) (t : State) (h : execGatherData a1 a2 a3 a4 s = .next t) : Kept s t := by
  unfold execGatherData at h
  injection h with h; subst h
  repeat' (first
      | with_reducible exact Kept.refl _ | with_reducible apply Kept.after (State.updSlip_kept ..)
      | with_reducible apply Kept.after (State.landVals_kept ..) | (extract_lets) | split
      | with_reducible (apply Kept.after; apply State.receive_kept'; assumption))

theorem State.replayRises_kept (s : State) (a2) (a3) : Kept s (State.replayRises s a2 a3) := by
  unfold State.replayRises
  repeat' (first
      | with_reducible exact Kept.refl _ | (intro _; intros) | with_reducible apply Kept.after (State.count_kept ..)
      | with_reducible apply Kept.after (State.raiseJob_kept ..) | with_reducible apply Kept.after (Kept.foldl _ _ _ ?_) | split)

theorem execStepSubmit_kept (a1) (s : State) (t : State) (h : execStepSubmit a1 s = .next t) : Kept s t := by
  unfold execStepSubmit at h
  injection h with h; subst h
  repeat' (first
      | with_reducible exact Kept.refl _ | (intro _; intros) | with_reducible apply Kept.after (State.runCommand_kept (h6 := ?_) ..)
      | with_reducible apply Kept.after (State.runFreezes_kept ..) | with_reducible apply Kept.after (State.runDeferredPublishes_kept ..)
      | with_reducible apply Kept.after (State.serveWaiting_kept ..) | with_reducible apply Kept.after (State.replayRises_kept ..)
      | with_reducible apply Kept.after (State.logRecord_kept ..) | with_reducible apply Kept.after (State.bindScales_kept ..)
      | with_reducible apply Kept.after (State.updJob_kept ..) | (extract_lets) | split)

theorem execRowSupply_kept (a1) (s : State) (t : State) (h : execRowSupply a1 s = .next t) : Kept s t := by
  unfold execRowSupply at h
  injection h with h; subst h
  repeat' (first
      | with_reducible exact Kept.refl _ | (intro _; intros) | with_reducible apply Kept.after (State.runLogged_kept (h7 := ?_) ..)
      | with_reducible apply Kept.after (State.done_kept ..) | with_reducible apply Kept.after (State.serveWaiting_kept ..)
      | with_reducible apply Kept.after (State.replaySupply_kept ..) | with_reducible apply Kept.after (State.takeSupply_kept ..) | (extract_lets)
      | split)

end Sys2Proof.Machine
end

