-- ==== Sys2Proof/Laws/KeptUpdateRows.lean ====
section
/-!
SUPPORT. What the operations of UpdateRows keep.
-/
set_option linter.unusedVariables false
set_option Elab.async false
namespace Sys2Proof.Machine
open Sys2Proof

theorem execStepEndPass_kept (a1) (a2) (a3) (s : State) (t : State) (h : execStepEndPass a1 a2 a3 s = .next t) : Kept s t := by
  unfold execStepEndPass at h
  injection h with h; subst h
  repeat' (first
      | with_reducible exact Kept.refl _ | with_reducible apply Kept.after (State.afterWork_kept ..)
      | with_reducible apply Kept.after (State.closeContributions_kept ..) | with_reducible apply Kept.after (State.runAgain_kept ..)
      | with_reducible apply Kept.after (State.startWork_kept ..) | (extract_lets) | split | (with_reducible change Kept _ (ite _ _ _); split))

theorem execEndContrib_kept (a1) (a2) (a3) (a4) (s : State) (t : State) (h : execEndContrib a1 a2 a3 a4 s = .next t) : Kept s t := by
  unfold execEndContrib at h
  injection h with h; subst h
  repeat' (first
      | with_reducible exact Kept.refl _ | with_reducible apply Kept.after (State.takeMarker_kept ..) | (extract_lets) | split
      | with_reducible (apply Kept.after; apply State.receive_kept'; assumption))

theorem execRangeReport_kept (a1) (a2) (a3) (a4) (s : State) (t : State) (h : execRangeReport a1 a2 a3 a4 s = .next t) : Kept s t := by
  unfold execRangeReport at h
  injection h with h; subst h
  repeat' (first
      | with_reducible exact Kept.refl _ | with_reducible apply Kept.after (State.takeReport_kept ..) | (extract_lets) | split
      | with_reducible (apply Kept.after; apply State.receive_kept'; assumption))

theorem State.rescatter_kept (s : State) (a2) (a3) (a4) (a5) (a6) : Kept s (State.rescatter s a2 a3 a4 a5 a6) := by
  unfold State.rescatter
  repeat' (first | with_reducible exact Kept.refl _ | with_reducible apply Kept.after (State.restart_kept ..) | (extract_lets) | split)

theorem State.discardLedger_kept (s : State) (a2) (a3) (a4) (a5) (a6) : Kept s (State.discardLedger s a2 a3 a4 a5 a6) := by
  unfold State.discardLedger
  repeat' (first
      | with_reducible exact Kept.refl _ | (intro _; intros) | with_reducible apply Kept.after (State.updStep_kept ..)
      | with_reducible apply Kept.after (State.serveWaiting_kept ..) | with_reducible apply Kept.after (State.rescatter_kept ..)
      | with_reducible apply Kept.after (Kept.foldl _ _ _ ?_) | (extract_lets) | split)

theorem State.raiseWindow_kept (s : State) (a2) (a3) (a4) (a5) : Kept s (State.raiseWindow s a2 a3 a4 a5) := by
  unfold State.raiseWindow
  repeat' (first
      | with_reducible exact Kept.refl _ | with_reducible apply Kept.after (State.logRecord_kept ..)
      | with_reducible apply Kept.after (State.discardLedger_kept ..) | with_reducible apply Kept.after (State.count_kept ..)
      | with_reducible apply Kept.after (State.raiseJob_kept ..) | split)

theorem execLedgerRangeCheck_kept (a1) (a2) (a3) (a4) (s : State) (t : State) (h : execLedgerRangeCheck a1 a2 a3 a4 s = .next t) : Kept s t := by
  unfold execLedgerRangeCheck at h
  injection h with h; subst h
  repeat' (first
      | with_reducible exact Kept.refl _ | (intro _; intros) | with_reducible apply Kept.after (State.closeContributions_kept ..)
      | with_reducible apply Kept.after (State.sendKept_kept ..) | with_reducible apply Kept.after (State.updStep_kept ..)
      | with_reducible apply Kept.after (State.raiseWindow_kept ..) | with_reducible apply Kept.after (Kept.foldl _ _ _ ?_) | (extract_lets) | split
      | (with_reducible change Kept _ (ite _ _ _); split))

theorem State.updateRowTile_kept (s : State) (a2) (a3) (a4) (a5) (a6) : Kept s (State.updateRowTile s a2 a3 a4 a5 a6) := by
  unfold State.updateRowTile
  repeat' (first
      | with_reducible exact Kept.refl _ | (intro _; intros) | with_reducible apply Kept.after (State.writeCopyRow_kept ..)
      | with_reducible apply Kept.after (State.updParam_kept ..) | with_reducible apply Kept.after (State.updStep_kept ..)
      | with_reducible apply Kept.after (State.countFormat_kept ..) | with_reducible apply Kept.after (State.touch_kept ..)
      | with_reducible apply Kept.after (Kept.foldl _ _ _ ?_) | (extract_lets) | split)

theorem State.countRow_kept (s : State) (a2) (a3) (a4) (a5) (a6) : Kept s (State.countRow s a2 a3 a4 a5 a6) := by
  unfold State.countRow
  repeat' (first | with_reducible exact Kept.refl _ | with_reducible apply Kept.after (State.updStep_kept ..) | (extract_lets) | split)

theorem State.touchPage_kept (s : State) (a2) (a3) (a4) (a5) (a6) : Kept s (State.touchPage s a2 a3 a4 a5 a6) := by
  unfold State.touchPage
  repeat' (first | with_reducible exact Kept.refl _ | with_reducible apply Kept.after (State.touchAll_kept ..))

theorem State.updatePages_kept (s : State) (a2) (a3) (a4) (a5) (a6) (a7) : Kept s (State.updatePages s a2 a3 a4 a5 a6 a7) := by
  unfold State.updatePages
  repeat' (first
      | with_reducible exact Kept.refl _ | (intro _; intros) | with_reducible apply Kept.after (State.touchPage_kept ..)
      | with_reducible apply Kept.after (State.writeRow_kept ..) | with_reducible apply Kept.after (State.countRow_kept ..)
      | with_reducible apply Kept.after (Kept.foldl _ _ _ ?_) | (extract_lets) | split)

theorem State.callTouched_kept (s : State) (a2) (a3) (a4) : Kept s (State.callTouched s a2 a3 a4).1 := by
  unfold State.callTouched
  repeat' (first
      | with_reducible exact Kept.refl _ | (intro _; intros) | with_reducible apply Kept.after (Kept.foldl _ _ _ ?_) | (extract_lets) | split
      | with_reducible apply Kept.after (State.callRow_kept ..) | with_reducible apply Kept.after (Kept.foldlFst _ _ _ ?_))
theorem State.callTouched_kept' {s : State} {a2} {a3} {a4} {x} {t} (h : State.callTouched s a2 a3 a4 = (t, x)) : Kept s t := by
  have k := State.callTouched_kept s a2 a3 a4; rw [h] at k; exact k

theorem State.countGrad_kept (s : State) (a2) (a3) (a4) : Kept s (State.countGrad s a2 a3 a4) := by
  unfold State.countGrad
  repeat' (first | with_reducible exact Kept.refl _ | with_reducible apply Kept.after (State.updStep_kept ..) | (extract_lets) | split)

theorem State.beginUnit_kept (s : State) (a2) (a3) (a4) (a5) : Kept s (State.beginUnit s a2 a3 a4 a5) := by
  unfold State.beginUnit
  repeat' (first
      | with_reducible exact Kept.refl _ | with_reducible apply Kept.after (State.updStep_kept ..)
      | with_reducible apply Kept.after (State.countGrad_kept ..) | with_reducible apply Kept.after (State.count_kept ..)
      | with_reducible apply Kept.after (State.raiseJob_kept ..) | (extract_lets) | split | (with_reducible change Kept _ (ite _ _ _); split))

theorem execUpdateApply_kept (a1) (a2) (a3) (s : State) (t : State) (h : execUpdateApply a1 a2 a3 s = .next t) : Kept s t := by
  unfold execUpdateApply at h
  injection h with h; subst h
  repeat' (first
      | with_reducible exact Kept.refl _ | (intro _; intros) | with_reducible apply Kept.after (State.closeContributions_kept ..)
      | with_reducible apply Kept.after (State.updStep_kept ..) | with_reducible apply Kept.after (State.beginUnit_kept ..)
      | with_reducible apply Kept.after (Kept.foldl _ _ _ ?_) | (extract_lets) | split
      | with_reducible (apply Kept.after; apply State.callTouched_kept'; assumption))

theorem Ctx.update_kept (a1) (s : State) : Kept s (Ctx.update a1 s) := by
  unfold Ctx.update
  repeat' (first
      | with_reducible exact Kept.refl _ | (intro _; intros) | with_reducible apply Kept.after (State.updateRowTile_kept ..)
      | with_reducible apply Kept.after (State.updatePages_kept ..) | with_reducible apply Kept.after (State.updStep_kept ..)
      | with_reducible apply Kept.after (Kept.foldl _ _ _ ?_) | (extract_lets) | split | (with_reducible change Kept _ (ite _ _ _); split))

theorem execUpdate_kept (a1) (a2) (s : State) (t : State) (h : execUpdate a1 a2 s = .next t) : Kept s t := by
  unfold execUpdate at h
  injection h with h; subst h
  repeat' (first
      | with_reducible exact Kept.refl _ | (intro _; intros) | with_reducible apply Kept.after (State.unlessPoisoned_kept (h6 := ?_) ..)
      | with_reducible apply Kept.after (State.issueSpace_kept (h7 := ?_) ..) | with_reducible apply Kept.after (Ctx.update_kept ..))

theorem State.touchRows_kept (s : State) (a2) (a3) (a4) : Kept s (State.touchRows s a2 a3 a4) := by
  unfold State.touchRows
  repeat' (first
      | with_reducible exact Kept.refl _ | (intro _; intros) | with_reducible apply Kept.after (State.writeRow_kept ..)
      | with_reducible apply Kept.after (Kept.foldl _ _ _ ?_) | split)

theorem execLayerRelease_kept (a1) (a2) (a3) (s : State) (t : State) (h : execLayerRelease a1 a2 a3 s = .next t) : Kept s t := by
  unfold execLayerRelease at h
  injection h with h; subst h
  repeat' (first
      | with_reducible exact Kept.refl _ | (intro _; intros) | with_reducible apply Kept.after (State.updStep_kept ..)
      | with_reducible apply Kept.after (State.touchRows_kept ..) | with_reducible apply Kept.after (State.broadcastFrom_kept ..)
      | with_reducible apply Kept.after (State.serveWaiting_kept ..) | with_reducible apply Kept.after (Kept.foldl _ _ _ ?_) | (extract_lets)
      | split)

end Sys2Proof.Machine
end

