-- ==== Sys2Proof/Laws/KeptTileRows.lean ====
section
/-!
SUPPORT. What the operations of TileRows keep.
-/
set_option linter.unusedVariables false
set_option Elab.async false
namespace Sys2Proof.Machine
open Sys2Proof

theorem State.endLandings_kept (s : State) (a2) : Kept s (State.endLandings s a2) := by
  unfold State.endLandings
  repeat' (first | with_reducible exact Kept.refl _ | with_reducible apply Kept.after (State.endDma_kept ..))

theorem State.setIntervals_kept (s : State) : Kept s (State.setIntervals s) := by
  unfold State.setIntervals
  repeat' (first
      | with_reducible exact Kept.refl _ | with_reducible apply Kept.after (State.setNum_kept ..) | (extract_lets) | split
      | fail_if_no_progress with_reducible refine Kept.upd ?_ rfl rfl rfl rfl rfl rfl)

theorem State.ownFailure_kept (s : State) : Kept s (State.ownFailure s) := by
  unfold State.ownFailure
  repeat' (first
      | with_reducible exact Kept.refl _ | with_reducible apply Kept.after (State.setIntervals_kept ..)
      | with_reducible apply Kept.after (State.add_kept ..))

theorem State.announceFailure_kept (s : State) : Kept s (State.announceFailure s) := by
  unfold State.announceFailure
  repeat' (first
      | with_reducible exact Kept.refl _ | with_reducible apply Kept.after (State.ownFailure_kept ..) | (extract_lets) | split
      | fail_if_no_progress with_reducible refine Kept.upd ?_ rfl rfl rfl rfl rfl rfl)

theorem State.distrust_kept (s : State) (a2) (a3) : Kept s (State.distrust s a2 a3) := by
  unfold State.distrust
  repeat' (first
      | with_reducible exact Kept.refl _ | (intro _; intros) | with_reducible apply Kept.after (State.raiseJob_kept ..)
      | with_reducible apply Kept.after (State.add_kept ..) | with_reducible apply Kept.after (State.updJob_kept ..)
      | with_reducible apply Kept.after (State.updStep_kept ..) | with_reducible apply Kept.after (State.restart_kept ..)
      | with_reducible apply Kept.after (State.discardLedger_kept ..) | with_reducible apply Kept.after (Kept.foldl _ _ _ ?_) | (extract_lets)
      | split)

theorem State.loseTile_kept (s : State) (a2) (a3) : Kept s (State.loseTile s a2 a3) := by
  unfold State.loseTile
  repeat' (first
      | with_reducible exact Kept.refl _ | (intro _; intros) | with_reducible apply Kept.after (State.raise_kept ..)
      | with_reducible apply Kept.after (State.updUnit_kept ..) | with_reducible apply Kept.after (State.endLandings_kept ..)
      | with_reducible apply Kept.after (State.announceFailure_kept ..) | with_reducible apply Kept.after (State.restart_kept ..)
      | with_reducible apply Kept.after (State.distrust_kept ..) | with_reducible apply Kept.after (Kept.foldl _ _ _ ?_) | (extract_lets) | split
      | fail_if_no_progress with_reducible refine Kept.upd ?_ rfl rfl rfl rfl rfl rfl)

theorem State.retire_kept (s : State) (a2) (a3) : Kept s (State.retire s a2 a3) := by
  unfold State.retire
  repeat' (first
      | with_reducible exact Kept.refl _ | with_reducible apply Kept.after (State.loseTile_kept ..)
      | with_reducible apply Kept.after (State.endLandings_kept ..) | with_reducible apply Kept.after (State.updUnit_kept ..) | (extract_lets)
      | split)

theorem execTileRetire_kept (a1) (a2) (a3) (s : State) (t : State) (h : execTileRetire a1 a2 a3 s = .next t) : Kept s t := by
  unfold execTileRetire at h
  injection h with h; subst h
  repeat' (first | with_reducible exact Kept.refl _ | with_reducible apply Kept.after (State.retire_kept ..) | split)

theorem execSpareStart_kept (a1) (s : State) (t : State) (h : execSpareStart a1 s = .next t) : Kept s t := by
  unfold execSpareStart at h
  injection h with h; subst h
  repeat' (first
      | with_reducible exact Kept.refl _ | (intro _; intros) | with_reducible apply Kept.after (Kept.sparesSet _ _ _ ?_)
      | with_reducible apply Kept.after (State.updUnit_kept ..) | with_reducible apply Kept.after (State.restart_kept ..)
      | with_reducible apply Kept.after (State.distrust_kept ..) | with_reducible apply Kept.after (State.raise_kept ..)
      | with_reducible apply Kept.after (Kept.foldl _ _ _ ?_) | (extract_lets) | split | exact List.mem_of_mem_filter (by assumption))

theorem execSelfCheck_kept (a1) (a2) (s : State) (t : State) (h : execSelfCheck a1 a2 s = .next t) : Kept s t := by
  unfold execSelfCheck at h
  injection h with h; subst h
  repeat' (first
      | with_reducible exact Kept.refl _ | with_reducible apply Kept.after (State.updUnit_kept ..)
      | with_reducible apply Kept.after (State.retire_kept ..) | with_reducible apply Kept.after (State.add_kept ..) | (extract_lets) | split)

theorem State.poisonRerun_kept (s : State) (a2) (a3) (a4) (a5) : Kept s (State.poisonRerun s a2 a3 a4 a5) := by
  unfold State.poisonRerun
  repeat' (first
      | with_reducible exact Kept.refl _ | with_reducible apply Kept.after (State.updStep_kept ..)
      | with_reducible apply Kept.after (State.add_kept ..) | with_reducible apply Kept.after (State.restart_kept ..)
      | with_reducible apply Kept.after (State.retire_kept ..) | (extract_lets) | split)

theorem execPoisonConsumed_kept (a1) (a2) (a3) (a4) (a5) (a6) (a7) (s : State) (t : State) (h : execPoisonConsumed a1 a2 a3 a4 a5 a6 a7 s = .next t) : Kept s t := by
  unfold execPoisonConsumed at h
  injection h with h; subst h
  repeat' (first
      | with_reducible exact Kept.refl _ | (intro _; intros) | with_reducible apply Kept.after (State.raiseJob_kept ..)
      | with_reducible apply Kept.after (State.add_kept ..) | with_reducible apply Kept.after (State.updStep_kept ..)
      | with_reducible apply Kept.after (State.restart_kept ..) | with_reducible apply Kept.after (State.poisonRerun_kept ..)
      | with_reducible apply Kept.after (State.discardLedger_kept ..) | with_reducible apply Kept.after (State.updJob_kept ..)
      | with_reducible apply Kept.after (State.retire_kept ..) | with_reducible apply Kept.after (Kept.foldl _ _ _ ?_) | (extract_lets) | split)

theorem State.moveBranch_kept (s : State) (a2) (a3) (a4) (a5) : Kept s (State.moveBranch s a2 a3 a4 a5).1 := by
  unfold State.moveBranch
  repeat' (first
      | with_reducible exact Kept.refl _ | with_reducible apply Kept.after (State.setRole_kept ..)
      | with_reducible apply Kept.after (State.updJob_kept ..) | (extract_lets) | split | (dsimp only) | (dsimp +zetaDelta only; split))
theorem State.moveBranch_kept' {s : State} {a2} {a3} {a4} {a5} {x} {t} (h : State.moveBranch s a2 a3 a4 a5 = (t, x)) : Kept s t := by
  have k := State.moveBranch_kept s a2 a3 a4 a5; rw [h] at k; exact k

theorem State.moveBranches_kept (a1) (a2) (a3) (n) (s : State) (a5) (a6) : Kept s (State.moveBranches a1 a2 a3 n s a5 a6).1 := by
  induction n generalizing s a5 a6 with
  | zero => exact Kept.refl s
  | succ n ih =>
    unfold State.moveBranches
    split
    split
    · exact (State.moveBranch_kept' ‹_›).trans (ih ..)
    · exact State.moveBranch_kept' ‹_›
theorem State.moveBranches_kept' {a1} {a2} {a3} {a4} {s : State} {a5} {a6} {x} {t} (h : State.moveBranches a1 a2 a3 a4 s a5 a6 = (t, x)) : Kept s t := by
  have k := State.moveBranches_kept a1 a2 a3 a4 s a5 a6; rw [h] at k; exact k

theorem execBranchRebalance_kept (a1) (a2) (a3) (s : State) (t : State) (h : execBranchRebalance a1 a2 a3 s = .next t) : Kept s t := by
  unfold execBranchRebalance at h
  injection h with h; subst h
  repeat' (first
      | with_reducible exact Kept.refl _ | with_reducible apply Kept.after (State.raiseJob_kept ..) | (extract_lets) | split
      | with_reducible (apply Kept.after; apply State.moveBranches_kept'; assumption))

end Sys2Proof.Machine
end

