-- ==== Sys2Proof/Laws/KeptPowerRows.lean ====
section
/-!
SUPPORT. What the operations of PowerRows keep.
-/
set_option linter.unusedVariables false
set_option Elab.async false
namespace Sys2Proof.Machine
open Sys2Proof

theorem State.updPower_kept (s : State) (f : Power → Power) (h : s.power.dies.length = 4 → (f s.power).dies.length = 4)
    (g : (f s.power).phases = s.power.phases) : Kept s (State.updPower s f) :=
  ⟨rfl, rfl, rfl, id, id, h, Fewer.refl _, by rw [show (State.updPower s f).power.phases = s.power.phases from g]; exact Worn.refl _, Worn.refl _, le_rfl, le_rfl⟩

theorem State.updBring_kept (s : State) (a2) : Kept s (State.updBring s a2) := by
  unfold State.updBring
  repeat' (first | with_reducible exact Kept.refl _ | fail_if_no_progress with_reducible refine Kept.upd ?_ rfl rfl rfl rfl rfl rfl)

theorem State.railsOff_kept (s : State) : Kept s (State.railsOff s) :=
  ⟨rfl, List.length_map .., List.length_map .., fun _ => carrelWf_nil, fun _ => rfl, fun _ => rfl, Fewer.refl _, Worn.refl _, Worn.refl _, le_rfl, le_rfl⟩

theorem execBrownOut_kept (a1) (s : State) (t : State) (h : execBrownOut a1 s = .next t) : Kept s t := by
  unfold execBrownOut at h
  injection h with h; subst h
  repeat' (first
      | with_reducible exact Kept.refl _ | with_reducible assumption | (intro _; intros) | with_reducible apply Kept.after (State.add_kept ..)
      | with_reducible apply Kept.after (State.updBring_kept ..) | with_reducible apply Kept.after (State.updPower_kept _ _ ?_ ?_)
      | with_reducible apply Kept.after (State.railsOff_kept ..) | (extract_lets) | split | rfl)

theorem execExternalPowerLost_kept (a1) (s : State) (t : State) (h : execExternalPowerLost a1 s = .next t) : Kept s t := by
  unfold execExternalPowerLost at h
  injection h with h; subst h
  repeat' (first
      | with_reducible exact Kept.refl _ | with_reducible apply Kept.after (State.railsOff_kept ..) | (extract_lets) | split
      | fail_if_no_progress with_reducible refine Kept.upd ?_ rfl rfl rfl rfl rfl rfl)

theorem execInputLow_kept (a1) (s : State) (t : State) (h : execInputLow a1 s = .next t) : Kept s t := by
  unfold execInputLow at h
  injection h with h; subst h
  repeat' (first
      | with_reducible exact Kept.refl _ | with_reducible assumption | (intro _; intros) | with_reducible apply Kept.after (State.raise_kept ..)
      | with_reducible apply Kept.after (State.updPower_kept _ _ ?_ ?_) | (extract_lets) | split | rfl)

theorem execInputHigh_kept (a1) (s : State) (t : State) (h : execInputHigh a1 s = .next t) : Kept s t := by
  unfold execInputHigh at h
  injection h with h; subst h
  repeat' (first
      | with_reducible exact Kept.refl _ | with_reducible assumption | (intro _; intros) | with_reducible apply Kept.after (State.raise_kept ..)
      | with_reducible apply Kept.after (State.updPower_kept _ _ ?_ ?_) | (extract_lets) | split | rfl)

theorem execInputWarningCleared_kept (a1) (s : State) (t : State) (h : execInputWarningCleared a1 s = .next t) : Kept s t := by
  unfold execInputWarningCleared at h
  injection h with h; subst h
  repeat' (first
      | with_reducible exact Kept.refl _ | with_reducible assumption | (intro _; intros)
      | with_reducible apply Kept.after (State.updPower_kept _ _ ?_ ?_) | (extract_lets) | split | rfl)

theorem execCurrentLimit_kept (a1) (a2) (a3) (s : State) (t : State) (h : execCurrentLimit a1 a2 a3 s = .next t) : Kept s t := by
  unfold execCurrentLimit at h
  injection h with h; subst h
  repeat' (first
      | with_reducible exact Kept.refl _ | with_reducible assumption | (intro _; intros) | with_reducible apply Kept.after (State.setNum_kept ..)
      | with_reducible apply Kept.after (State.updPower_kept _ _ ?_ ?_) | with_reducible apply Kept.after (State.add_kept ..) | (extract_lets)
      | split | rfl)

theorem execPhaseLost_kept (a1) (a2) (s : State) (t : State) (h : execPhaseLost a1 a2 s = .next t) : Kept s t := by
  unfold execPhaseLost at h
  injection h with h; subst h
  extract_lets n src day u v
  have hu : Kept s u := ⟨rfl, rfl, rfl, id, id, id, Fewer.refl _, Worn.set _ _ _ (by omega), Worn.refl _, le_rfl, le_rfl⟩
  split
  · have hv : Kept s v := hu.trans (State.raise_kept ..)
    split
    · exact hv.trans (State.announceFailure_kept ..)
    · exact hv
  · exact Kept.refl _

theorem execThermalSample_kept (a1) (s : State) (t : State) (h : execThermalSample a1 s = .next t) : Kept s t := by
  unfold execThermalSample at h
  injection h with h; subst h
  repeat' (first
      | with_reducible exact Kept.refl _ | with_reducible assumption | (intro _; intros) | with_reducible apply Kept.after (State.raise_kept ..)
      | with_reducible apply Kept.after (State.add_kept ..) | with_reducible apply Kept.after (State.updPower_kept _ _ ?_ ?_)
      | with_reducible apply Kept.after (State.railsOff_kept ..) | with_reducible apply Kept.after (Kept.foldl _ _ _ ?_) | (extract_lets) | split
      | fail_if_no_progress with_reducible refine Kept.upd ?_ rfl rfl rfl rfl rfl rfl | rfl)

theorem execDieSleep_kept (a1) (s : State) (t : State) (h : execDieSleep a1 s = .next t) : Kept s t := by
  unfold execDieSleep at h
  injection h with h; subst h
  repeat' (first
      | with_reducible exact Kept.refl _ | (intro _; intros) | with_reducible apply Kept.after (State.updPower_kept _ _ ?_ ?_) | (extract_lets)
      | split | rfl | (simp_all; done))

theorem execDieWake_kept (a1) (s : State) (t : State) (h : execDieWake a1 s = .next t) : Kept s t := by
  unfold execDieWake at h
  injection h with h; subst h
  repeat' (first
      | with_reducible exact Kept.refl _ | (intro _; intros) | with_reducible apply Kept.after (State.add_kept ..)
      | with_reducible apply Kept.after (State.updPower_kept _ _ ?_ ?_) | (extract_lets) | split | rfl | (simp_all; done))

theorem execDieWakeComplete_kept (a1) (a2) (s : State) (t : State) (h : execDieWakeComplete a1 a2 s = .next t) : Kept s t := by
  unfold execDieWakeComplete at h
  injection h with h; subst h
  repeat' (first
      | with_reducible exact Kept.refl _ | (intro _; intros) | with_reducible apply Kept.after (State.add_kept ..)
      | with_reducible apply Kept.after (State.updPower_kept _ _ ?_ ?_) | (extract_lets) | split | rfl | (simp_all; done))

theorem execRefclkLoss_kept (s : State) (t : State) (h : execRefclkLoss s = .next t) : Kept s t := by
  unfold execRefclkLoss at h
  injection h with h; subst h
  repeat' (first | with_reducible exact Kept.refl _ | with_reducible apply Kept.after (State.portReset_kept ..) | split)

theorem execSueshRefclkLoss_kept (s : State) (t : State) (h : execSueshRefclkLoss s = .next t) : Kept s t := by
  unfold execSueshRefclkLoss at h
  injection h with h; subst h
  repeat' (first
      | with_reducible exact Kept.refl _ | (intro _; intros) | with_reducible apply Kept.after (State.portDown_kept ..)
      | with_reducible apply Kept.after (Kept.foldl _ _ _ ?_) | (extract_lets) | split)

theorem execPwrEnAssert_kept (s : State) (t : State) (h : execPwrEnAssert s = .next t) : Kept s t := by
  unfold execPwrEnAssert at h
  injection h with h; subst h
  repeat' (first
      | with_reducible exact Kept.refl _ | with_reducible assumption | (intro _; intros)
      | with_reducible apply Kept.after (State.updPower_kept _ _ ?_ ?_) | (extract_lets) | rfl)

theorem execPwrEnDeassert_kept (s : State) (t : State) (h : execPwrEnDeassert s = .next t) : Kept s t := by
  unfold execPwrEnDeassert at h
  injection h with h; subst h
  repeat' (first
      | with_reducible exact Kept.refl _ | with_reducible assumption | (intro _; intros)
      | with_reducible apply Kept.after (State.updPower_kept _ _ ?_ ?_) | with_reducible apply Kept.after (State.railsOff_kept ..)
      | with_reducible apply Kept.after (State.disarm_kept ..) | with_reducible apply Kept.after (State.announceFailure_kept ..) | (extract_lets)
      | split | rfl)

theorem execPosAddrChange_kept (a1) (s : State) (t : State) (h : execPosAddrChange a1 s = .next t) : Kept s t := by
  unfold execPosAddrChange at h
  injection h with h; subst h
  repeat' (first
      | with_reducible exact Kept.refl _ | with_reducible assumption | (intro _; intros)
      | with_reducible apply Kept.after (State.updPower_kept _ _ ?_ ?_) | with_reducible apply Kept.after (State.takeNode_kept ..) | (extract_lets)
      | split | rfl)

end Sys2Proof.Machine
end

