-- ==== Sys2Proof/Laws/KeptLoads.lean ====
section
/-!
SUPPORT. What the operations of Loads keep.
-/
set_option linter.unusedVariables false
set_option Elab.async false
namespace Sys2Proof.Machine
open Sys2Proof

theorem State.putGraph_kept (s : State) (a2) (a3) : Kept s (State.putGraph s a2 a3) := by
  unfold State.putGraph
  repeat' (first
      | with_reducible exact Kept.refl _ | (intro _; intros) | with_reducible apply Kept.after (State.putTile_kept ..)
      | with_reducible apply Kept.after (State.updBody_kept ..) | with_reducible apply Kept.after (Kept.foldl _ _ _ ?_))

theorem execGraphLoad_kept (a1) (s : State) (t : State) (h : execGraphLoad a1 s = .next t) : Kept s t := by
  unfold execGraphLoad at h
  injection h with h; subst h
  repeat' (first
      | with_reducible exact Kept.refl _ | (intro _; intros) | with_reducible apply Kept.after (State.jobCommand_kept (h6 := ?_) ..)
      | with_reducible apply Kept.after (State.done_kept ..) | with_reducible apply Kept.after (State.putGraph_kept ..))

theorem State.applyFeature_kept (s : State) (a2) (a3) : Kept s (State.applyFeature s a2 a3) := by
  unfold State.applyFeature
  repeat' (first
      | with_reducible exact Kept.refl _ | (intro _; intros) | with_reducible apply Kept.after (State.putTile_kept ..)
      | with_reducible apply Kept.after (Kept.foldl _ _ _ ?_))

theorem execFeatureLoad_kept (a1) (s : State) (t : State) (h : execFeatureLoad a1 s = .next t) : Kept s t := by
  unfold execFeatureLoad at h
  injection h with h; subst h
  repeat' (first
      | with_reducible exact Kept.refl _ | (intro _; intros) | with_reducible apply Kept.after (State.jobCommand_kept (h6 := ?_) ..)
      | with_reducible apply Kept.after (State.updBody_kept ..) | with_reducible apply Kept.after (State.atPoint_kept (h4 := ?_) ..)
      | with_reducible apply Kept.after (State.applyFeature_kept ..) | (extract_lets) | split)

theorem State.applyParam_kept (s : State) (a2) (a3) (a4) : Kept s (State.applyParam s a2 a3 a4) := by
  unfold State.applyParam
  repeat' (first
      | with_reducible exact Kept.refl _ | with_reducible apply Kept.after (State.updParam_kept ..)
      | with_reducible apply Kept.after (State.broadcastFrom_kept ..) | with_reducible apply Kept.after (State.writeCopy_kept ..) | (extract_lets)
      | split)

theorem execParamRead_kept (a1) (s : State) (t : State) (h : execParamRead a1 s = .next t) : Kept s t := by
  unfold execParamRead at h
  injection h with h; subst h
  repeat' (first
      | with_reducible exact Kept.refl _ | (intro _; intros) | with_reducible apply Kept.after (State.jobCommand_kept (h6 := ?_) ..)
      | with_reducible apply Kept.after (State.done_kept ..) | with_reducible apply Kept.after (State.atPoint_kept (h4 := ?_) ..) | (extract_lets)
      | split | exact Kept.refl _)

theorem execParamWrite_kept (a1) (s : State) (t : State) (h : execParamWrite a1 s = .next t) : Kept s t := by
  unfold execParamWrite at h
  injection h with h; subst h
  repeat' (first
      | with_reducible exact Kept.refl _ | (intro _; intros) | with_reducible apply Kept.after (State.jobCommand_kept (h6 := ?_) ..)
      | with_reducible apply Kept.after (State.atPoint_kept (h4 := ?_) ..) | with_reducible apply Kept.after (State.applyParam_kept ..))

theorem State.runDeferred_kept (s : State) (a2) (a3) : Kept s (State.runDeferred s a2 a3) := by
  unfold State.runDeferred
  repeat' (first
      | with_reducible exact Kept.refl _ | with_reducible apply Kept.after (State.finishAsker_kept ..)
      | with_reducible apply Kept.after (State.applyLoad_kept ..) | with_reducible apply Kept.after (State.applyFeature_kept ..)
      | with_reducible apply Kept.after (State.applyParam_kept ..) | split)

theorem runDeferredsOf_kept (a1) (n) (s : State) : Kept s (runDeferredsOf a1 n s) := by
  induction n generalizing s with
  | zero => exact Kept.refl s
  | succ n ih =>
    unfold runDeferredsOf
    split
    · exact Kept.refl _
    · split
      · split
        · exact (State.updJob_kept ..).trans ((State.runDeferred_kept ..).trans (ih _))
        · exact Kept.refl _
      · exact Kept.refl _

theorem State.runDeferreds_kept (s : State) (a2) : Kept s (State.runDeferreds s a2) := by
  unfold State.runDeferreds
  repeat' (first | with_reducible exact Kept.refl _ | with_reducible apply Kept.after (runDeferredsOf_kept ..))

theorem State.notReady_kept (s : State) (a2) : Kept s (State.notReady s a2) := by
  unfold State.notReady
  repeat' (first
      | with_reducible exact Kept.refl _ | with_reducible apply Kept.after (State.finish_kept ..) | (extract_lets)
      | with_reducible apply Kept.after (draw_kept ..))

theorem execResultRead_kept (a1) (s : State) (t : State) (h : execResultRead a1 s = .next t) : Kept s t := by
  unfold execResultRead at h
  injection h with h; subst h
  repeat' (first
      | with_reducible exact Kept.refl _ | (intro _; intros) | with_reducible apply Kept.after (State.runCommand_kept (h6 := ?_) ..)
      | with_reducible apply Kept.after (State.done_kept ..) | with_reducible apply Kept.after (State.updBody_kept ..)
      | with_reducible apply Kept.after (State.notReady_kept ..) | (extract_lets) | split)

theorem execResultRelease_kept (a1) (s : State) (t : State) (h : execResultRelease a1 s = .next t) : Kept s t := by
  unfold execResultRelease at h
  injection h with h; subst h
  repeat' (first
      | with_reducible exact Kept.refl _ | (intro _; intros) | with_reducible apply Kept.after (State.runCommand_kept (h6 := ?_) ..)
      | with_reducible apply Kept.after (State.done_kept ..) | with_reducible apply Kept.after (State.updBody_kept ..)
      | with_reducible apply Kept.after (State.notReady_kept ..) | (extract_lets) | split)

end Sys2Proof.Machine
end

