-- ==== Sys2Proof/Laws/KeptStepRows.lean ====
section
/-!
SUPPORT. What the operations of StepRows keep.
-/
set_option linter.unusedVariables false
set_option Elab.async false
namespace Sys2Proof.Machine
open Sys2Proof

theorem State.repeatLayer_kept (s : State) (a2) (a3) (a4) (a5) (a6) : Kept s (State.repeatLayer s a2 a3 a4 a5 a6) := by
  unfold State.repeatLayer
  repeat' (first
      | with_reducible exact Kept.refl _ | (intro _; intros) | with_reducible apply Kept.after (State.logRecord_kept ..)
      | with_reducible apply Kept.after (State.count_kept ..) | with_reducible apply Kept.after (State.raiseJob_kept ..)
      | with_reducible apply Kept.after (State.updJob_kept ..) | with_reducible apply Kept.after (State.updStep_kept ..)
      | with_reducible apply Kept.after (State.restart_kept ..) | with_reducible apply Kept.after (State.discardLedger_kept ..)
      | with_reducible apply Kept.after (Kept.foldl _ _ _ ?_) | (extract_lets) | split)

theorem execLayerCheck_kept (a1) (a2) (a3) (a4) (s : State) (t : State) (h : execLayerCheck a1 a2 a3 a4 s = .next t) : Kept s t := by
  unfold execLayerCheck at h
  injection h with h; subst h
  repeat' (first
      | with_reducible exact Kept.refl _ | with_reducible apply Kept.after (State.repeatLayer_kept ..)
      | with_reducible apply Kept.after (State.updStep_kept ..) | with_reducible apply Kept.after (State.raiseJob_kept ..)
      | with_reducible apply Kept.after (State.count_kept ..) | with_reducible apply Kept.after (State.afterWork_kept ..) | (extract_lets) | split
      | (with_reducible change Kept _ (ite _ _ _); split))

theorem State.setWatch_kept (s : State) (a2) (a3) : Kept s (State.setWatch s a2 a3) := by
  unfold State.setWatch
  repeat' (first | with_reducible exact Kept.refl _ | with_reducible apply Kept.after (State.updBody_kept ..))

theorem execScaleUpdate_kept (a1) (a2) (a3) (s : State) (t : State) (h : execScaleUpdate a1 a2 a3 s = .next t) : Kept s t := by
  unfold execScaleUpdate at h
  injection h with h; subst h
  repeat' (first
      | with_reducible exact Kept.refl _ | with_reducible apply Kept.after (State.updStep_kept ..)
      | with_reducible apply Kept.after (State.setWatch_kept ..) | with_reducible apply Kept.after (State.raiseJob_kept ..)
      | with_reducible apply Kept.after (State.logRecord_kept ..) | (extract_lets) | split | (with_reducible change Kept _ (ite _ _ _); split))

theorem State.rescale_kept (s : State) (a2) (a3) (a4) : Kept s (State.rescale s a2 a3 a4) := by
  unfold State.rescale
  repeat' (first
      | with_reducible exact Kept.refl _ | with_reducible apply Kept.after (State.updStep_kept ..)
      | with_reducible apply Kept.after (State.setWatch_kept ..) | with_reducible apply Kept.after (State.logRecord_kept ..)
      | with_reducible apply Kept.after (State.raiseJob_kept ..) | (extract_lets) | split)

theorem State.freeze_kept (s : State) (a2) (a3) (a4) (a5) : Kept s (State.freeze s a2 a3 a4 a5) := by
  unfold State.freeze
  repeat' (first
      | with_reducible exact Kept.refl _ | with_reducible apply Kept.after (State.logRecord_kept ..)
      | with_reducible apply Kept.after (State.updStep_kept ..) | with_reducible apply Kept.after (State.updBody_kept ..)
      | with_reducible apply Kept.after (State.updJob_kept ..) | (extract_lets) | split)

theorem State.watchOne_kept (s : State) (a2) (a3) (a4) : Kept s (State.watchOne s a2 a3 a4) := by
  unfold State.watchOne
  repeat' (first
      | with_reducible exact Kept.refl _ | with_reducible apply Kept.after (State.updStep_kept ..)
      | with_reducible apply Kept.after (State.setWatch_kept ..) | with_reducible apply Kept.after (State.raiseJob_kept ..)
      | with_reducible apply Kept.after (State.rescale_kept ..) | with_reducible apply Kept.after (State.freeze_kept ..)
      | with_reducible apply Kept.after (State.logRecord_kept ..) | (extract_lets) | split | (with_reducible change Kept _ (ite _ _ _); split))

theorem execStuckZeroWatch_kept (a1) (a2) (s : State) (t : State) (h : execStuckZeroWatch a1 a2 s = .next t) : Kept s t := by
  unfold execStuckZeroWatch at h
  injection h with h; subst h
  repeat' (first
      | with_reducible exact Kept.refl _ | (intro _; intros) | with_reducible apply Kept.after (State.updStep_kept ..)
      | with_reducible apply Kept.after (State.watchOne_kept ..) | with_reducible apply Kept.after (Kept.foldl _ _ _ ?_) | split)

theorem State.shelfBack_kept (s : State) (a2) (a3) : Kept s (State.shelfBack s a2 a3) := by
  unfold State.shelfBack
  repeat' (first
      | with_reducible exact Kept.refl _ | (intro _; intros) | with_reducible apply Kept.after (State.writeRow_kept ..)
      | with_reducible apply Kept.after (State.updBody_kept ..) | with_reducible apply Kept.after (Kept.foldl _ _ _ ?_) | split)

theorem State.widthOf_kept (s : State) (a2) (a3) (a4) (a5) (a6) : Kept s (State.widthOf s a2 a3 a4 a5 a6).1 := by
  unfold State.widthOf
  repeat' (first
      | with_reducible exact Kept.refl _ | (intro _; intros) | with_reducible apply Kept.after (State.count_kept ..)
      | with_reducible apply Kept.after (State.updBody_kept ..) | with_reducible apply Kept.after (State.writePage_kept ..)
      | with_reducible apply Kept.after (State.countRow_kept ..) | with_reducible apply Kept.after (State.raiseJob_kept ..)
      | with_reducible apply Kept.after (Kept.foldl _ _ _ ?_) | (extract_lets) | split)
theorem State.widthOf_kept' {s : State} {a2} {a3} {a4} {a5} {a6} {x} {t} (h : State.widthOf s a2 a3 a4 a5 a6 = (t, x)) : Kept s t := by
  have k := State.widthOf_kept s a2 a3 a4 a5 a6; rw [h] at k; exact k

theorem State.halve_kept (s : State) (a2) (a3) (a4) : Kept s (State.halve s a2 a3 a4) := by
  unfold State.halve
  repeat' (first
      | with_reducible exact Kept.refl _ | (intro _; intros) | with_reducible apply Kept.after (State.writePage_kept ..)
      | with_reducible apply Kept.after (Kept.foldl _ _ _ ?_) | (extract_lets) | split)

theorem State.loadShelf_kept (s : State) (a2) (a3) (a4) : Kept s (State.loadShelf s a2 a3 a4) := by
  unfold State.loadShelf
  repeat' (first
      | with_reducible exact Kept.refl _ | (intro _; intros) | with_reducible apply Kept.after (State.count_kept ..)
      | with_reducible apply Kept.after (State.updBody_kept ..) | with_reducible apply Kept.after (Kept.foldl _ _ _ ?_) | (extract_lets) | split)

theorem State.suggest_kept (s : State) (a2) : Kept s (State.suggest s a2) := by
  unfold State.suggest
  repeat' (first | with_reducible exact Kept.refl _ | with_reducible apply Kept.after (State.updBody_kept ..) | split)

theorem execRefresh_kept (a1) (a2) (s : State) (t : State) (h : execRefresh a1 a2 s = .next t) : Kept s t := by
  unfold execRefresh at h
  injection h with h; subst h
  repeat' (first
      | with_reducible exact Kept.refl _ | (intro _; intros) | with_reducible apply Kept.after (State.shelfBack_kept ..)
      | with_reducible apply Kept.after (State.logRecord_kept ..) | with_reducible apply Kept.after (State.halve_kept ..)
      | with_reducible apply Kept.after (State.suggest_kept ..) | with_reducible apply Kept.after (State.loadShelf_kept ..)
      | with_reducible apply Kept.after (State.updJob_kept ..) | with_reducible apply Kept.after (State.updStep_kept ..)
      | with_reducible apply Kept.after (Kept.foldl _ _ _ ?_) | (extract_lets) | split | with_reducible apply Kept.after (State.widthOf_kept ..)
      | with_reducible apply Kept.after (Kept.foldlFst _ _ _ ?_))

theorem State.returnRows_kept (s : State) (a2) : Kept s (State.returnRows s a2) := by
  unfold State.returnRows
  repeat' (first
      | with_reducible exact Kept.refl _ | (intro _; intros) | with_reducible apply Kept.after (State.updBody_kept ..)
      | with_reducible apply Kept.after (State.holdFragments_kept ..) | with_reducible apply Kept.after (Kept.foldl _ _ _ ?_) | (extract_lets)
      | split)

theorem State.settleCounters_kept (s : State) (a2) (a3) : Kept s (State.settleCounters s a2 a3) := by
  unfold State.settleCounters
  repeat' (first | with_reducible exact Kept.refl _ | with_reducible apply Kept.after (State.updBody_kept ..))

theorem State.countSkips_kept (s : State) (a2) (a3) : Kept s (State.countSkips s a2 a3) := by
  unfold State.countSkips
  repeat' (first
      | with_reducible exact Kept.refl _ | (intro _; intros) | with_reducible apply Kept.after (State.count_kept ..)
      | with_reducible apply Kept.after (State.updBody_kept ..) | with_reducible apply Kept.after (Kept.foldl _ _ _ ?_) | split)

theorem State.recordPipeline_kept (s : State) (a2) (a3) : Kept s (State.recordPipeline s a2 a3) := by
  unfold State.recordPipeline
  repeat' (first
      | with_reducible exact Kept.refl _ | with_reducible apply Kept.after (State.updJob_kept ..) | (extract_lets)
      | with_reducible apply Kept.after (draw_kept ..))

theorem State.nextReplay_kept (s : State) (a2) : Kept s (State.nextReplay s a2) := by
  unfold State.nextReplay
  repeat' (first | with_reducible exact Kept.refl _ | with_reducible apply Kept.after (State.releaseReplay_kept ..) | split)

theorem State.completeStep_kept (s : State) (a2) (a3) : Kept s (State.completeStep s a2 a3) := by
  unfold State.completeStep
  split
  · extract_lets
    with_reducible apply Kept.after (State.wakeAll_kept ..)
    with_reducible apply Kept.after (State.tryClose_kept ..)
    with_reducible apply Kept.after (State.serveWaiting_kept ..)
    with_reducible refine Kept.upd ?_ rfl rfl rfl rfl rfl rfl
    with_reducible apply Kept.after (State.nextReplay_kept ..)
    with_reducible apply Kept.after (State.updJob_kept ..)
    with_reducible apply Kept.after (State.retireEditions_kept ..)
    with_reducible apply Kept.after (State.runDeferreds_kept ..)
    with_reducible apply Kept.after (State.freeHeld_kept ..)
    with_reducible apply Kept.after (State.clearPhase_kept ..)
    with_reducible apply Kept.after (State.updJob_kept ..)
    with_reducible apply Kept.after (State.freeStepTiles_kept ..)
    with_reducible apply Kept.after (State.finishAsker_kept ..)
    with_reducible apply Kept.after (State.updBody_kept ..)
    with_reducible apply Kept.after (State.recordPipeline_kept ..)
    with_reducible apply Kept.after (State.settleCounters_kept ..)
    exact State.countSkips_kept ..
  · exact Kept.refl _


theorem State.exhaustStep_kept (s : State) (a2) (a3) : Kept s (State.exhaustStep s a2 a3) := by
  unfold State.exhaustStep
  repeat' (first
      | with_reducible exact Kept.refl _ | with_reducible apply Kept.after (State.updBody_kept ..)
      | with_reducible apply Kept.after (State.freeStepTiles_kept ..) | with_reducible apply Kept.after (State.finishAsker_kept ..)
      | with_reducible apply Kept.after (State.tryClose_kept ..) | with_reducible apply Kept.after (State.clearPhase_kept ..)
      | with_reducible apply Kept.after (State.updJob_kept ..) | split)

theorem State.finishStep_kept (s : State) (a2) (a3) : Kept s (State.finishStep s a2 a3) := by
  unfold State.finishStep
  repeat' (first
      | with_reducible exact Kept.refl _ | with_reducible apply Kept.after (State.updStep_kept ..)
      | with_reducible apply Kept.after (State.logRecord_kept ..) | with_reducible apply Kept.after (State.returnRows_kept ..)
      | with_reducible apply Kept.after (State.completeStep_kept ..) | split)

theorem execStepComplete_kept (a1) (a2) (s : State) (t : State) (h : execStepComplete a1 a2 s = .next t) : Kept s t := by
  unfold execStepComplete at h
  injection h with h; subst h
  repeat' (first
      | with_reducible exact Kept.refl _ | with_reducible apply Kept.after (State.finishStep_kept ..)
      | with_reducible apply Kept.after (State.closeContributions_kept ..))

end Sys2Proof.Machine
end

