-- ==== Sys2Proof/Laws/KeptRecoveryRows.lean ====
section
/-!
SUPPORT. What the operations of RecoveryRows keep.
-/
set_option linter.unusedVariables false
set_option Elab.async false
namespace Sys2Proof.Machine
open Sys2Proof

theorem State.earlyDeposits_kept (s : State) : Kept s (State.earlyDeposits s) := by
  unfold State.earlyDeposits
  repeat' (first
      | with_reducible exact Kept.refl _ | (extract_lets) | split | fail_if_no_progress with_reducible refine Kept.upd ?_ rfl rfl rfl rfl rfl rfl)

theorem State.committed_kept (s : State) (a2) (a3) : Kept s (State.committed s a2 a3) := by
  unfold State.committed
  repeat' (first
      | with_reducible exact Kept.refl _ | with_reducible apply Kept.after (State.updJob_kept ..)
      | with_reducible apply Kept.after (State.updInFlight_kept ..) | with_reducible apply Kept.after (State.tryClose_kept ..)
      | with_reducible apply Kept.after (State.answer_kept ..) | (extract_lets) | split)

theorem execLogCommit_kept (a1) (a2) (s : State) (t : State) (h : execLogCommit a1 a2 s = .next t) : Kept s t := by
  unfold execLogCommit at h
  injection h with h; subst h
  repeat' (first
      | with_reducible exact Kept.refl _ | with_reducible apply Kept.after (State.send_kept ..)
      | with_reducible apply Kept.after (State.updJob_kept ..) | with_reducible apply Kept.after (State.earlyDeposits_kept ..)
      | with_reducible apply Kept.after (State.committed_kept ..) | with_reducible apply Kept.after (State.raise_kept ..) | (extract_lets) | split
      | (with_reducible change Kept _ (ite _ _ _); split) | fail_if_no_progress with_reducible refine Kept.upd ?_ rfl rfl rfl rfl rfl rfl)

theorem State.startDeposit_kept (s : State) (a2) (a3) : Kept s (State.startDeposit s a2 a3) := by
  unfold State.startDeposit
  repeat' (first
      | with_reducible exact Kept.refl _ | (intro _; intros) | with_reducible apply Kept.after (State.updJob_kept ..)
      | with_reducible apply Kept.after (State.send_kept ..) | with_reducible apply Kept.after (Kept.foldl _ _ _ ?_) | (extract_lets) | split
      | with_reducible (apply Kept.after; apply draw_kept'; assumption))

theorem execDepositStart_kept (a1) (a2) (s : State) (t : State) (h : execDepositStart a1 a2 s = .next t) : Kept s t := by
  unfold execDepositStart at h
  injection h with h; subst h
  repeat' (first
      | with_reducible exact Kept.refl _ | with_reducible apply Kept.after (State.raiseJob_kept ..)
      | with_reducible apply Kept.after (State.updJob_kept ..) | with_reducible apply Kept.after (State.startDeposit_kept ..) | (extract_lets)
      | split)

theorem execDepositCommit_kept (a1) (a2) (s : State) (t : State) (h : execDepositCommit a1 a2 s = .next t) : Kept s t := by
  unfold execDepositCommit at h
  injection h with h; subst h
  repeat' (first
      | with_reducible exact Kept.refl _ | (intro _; intros) | with_reducible apply Kept.after (State.updJob_kept ..)
      | with_reducible apply Kept.after (State.setNum_kept ..) | with_reducible apply Kept.after (State.send_kept ..)
      | with_reducible apply Kept.after (State.earlyDeposits_kept ..) | with_reducible apply Kept.after (Kept.foldl _ _ _ ?_) | (extract_lets)
      | split | (with_reducible change Kept _ (ite _ _ _); split) | (dsimp +zetaDelta only; split))

theorem execDepositIntervalEval_kept (s : State) (t : State) (h : execDepositIntervalEval s = .next t) : Kept s t := by
  unfold execDepositIntervalEval at h
  injection h with h; subst h
  repeat' (first
      | with_reducible exact Kept.refl _ | with_reducible apply Kept.after (State.setIntervals_kept ..)
      | with_reducible apply Kept.after (State.add_kept ..) | with_reducible apply Kept.after (State.raise_kept ..) | (extract_lets) | split)

theorem State.liveness_kept (s : State) (a2) (a3) (a4) (a5) : Kept s (State.liveness s a2 a3 a4 a5) := by
  unfold State.liveness
  repeat' (first | with_reducible exact Kept.refl _ | with_reducible apply Kept.after (State.send_kept ..))

theorem execLivenessProbeDue_kept (s : State) (t : State) (h : execLivenessProbeDue s = .next t) : Kept s t := by
  unfold execLivenessProbeDue at h
  injection h with h; subst h
  repeat' (first
      | with_reducible exact Kept.refl _ | (intro _; intros) | with_reducible apply Kept.after (State.liveness_kept ..)
      | with_reducible apply Kept.after (State.updAssoc_kept ..) | with_reducible apply Kept.after (Kept.foldl _ _ _ ?_) | (extract_lets)
      | fail_if_no_progress with_reducible refine Kept.upd ?_ rfl rfl rfl rfl rfl rfl)

theorem State.livenessIn_kept (s : State) (a2) (a3) (a4) (a5) (g6) (h6 : ∀ y0 x, Kept x (g6 y0 x)) : Kept s (State.livenessIn s a2 a3 a4 a5 g6) := by
  unfold State.livenessIn
  repeat' (first
      | with_reducible exact Kept.refl _ | with_reducible apply Kept.after (State.updAssoc_kept ..) | with_reducible apply Kept.after (h6 ..)
      | (extract_lets) | split | with_reducible (apply Kept.after; apply State.receive_kept'; assumption))

theorem execProbe_kept (a1) (a2) (a3) (a4) (s : State) (t : State) (h : execProbe a1 a2 a3 a4 s = .next t) : Kept s t := by
  unfold execProbe at h
  injection h with h; subst h
  repeat' (first
      | with_reducible exact Kept.refl _ | (intro _; intros) | with_reducible apply Kept.after (State.livenessIn_kept (h6 := ?_) ..)
      | with_reducible apply Kept.after (State.liveness_kept ..) | (extract_lets) | split)

theorem execAnswer_kept (a1) (a2) (a3) (a4) (s : State) (t : State) (h : execAnswer a1 a2 a3 a4 s = .next t) : Kept s t := by
  unfold execAnswer at h
  injection h with h; subst h
  repeat' (first
      | with_reducible exact Kept.refl _ | (intro _; intros) | with_reducible apply Kept.after (State.livenessIn_kept (h6 := ?_) ..)
      | with_reducible apply Kept.after (State.updAssoc_kept ..))

theorem execQuery_kept (a1) (a2) (a3) (a4) (s : State) (t : State) (h : execQuery a1 a2 a3 a4 s = .next t) : Kept s t := by
  unfold execQuery at h
  injection h with h; subst h
  repeat' (first
      | with_reducible exact Kept.refl _ | (intro _; intros) | with_reducible apply Kept.after (State.livenessIn_kept (h6 := ?_) ..)
      | with_reducible apply Kept.after (State.liveness_kept ..) | (extract_lets) | split)

theorem execQueryAnswer_kept (a1) (a2) (a3) (a4) (s : State) (t : State) (h : execQueryAnswer a1 a2 a3 a4 s = .next t) : Kept s t := by
  unfold execQueryAnswer at h
  injection h with h; subst h
  repeat' (first
      | with_reducible exact Kept.refl _ | (intro _; intros) | with_reducible apply Kept.after (State.livenessIn_kept (h6 := ?_) ..)
      | with_reducible apply Kept.after (State.updAssoc_kept ..))

theorem execLivenessTimeout_kept (a1) (s : State) (t : State) (h : execLivenessTimeout a1 s = .next t) : Kept s t := by
  unfold execLivenessTimeout at h
  injection h with h; subst h
  repeat' (first
      | with_reducible exact Kept.refl _ | (intro _; intros) | with_reducible apply Kept.after (State.updAssoc_kept ..)
      | with_reducible apply Kept.after (State.liveness_kept ..) | with_reducible apply Kept.after (Kept.foldl _ _ _ ?_) | (extract_lets) | split)

theorem State.fence_kept (s : State) (a2) (a3) : Kept s (State.fence s a2 a3) := by
  unfold State.fence
  extract_lets held kept src u v
  have hu : Kept s u := ⟨rfl, List.length_map .., rfl, id, id, id, Fewer.refl _, Worn.refl _, Worn.refl _, le_rfl, le_rfl⟩
  have hv : Kept u v := by
    unfold v
    split
    · exact Kept.of rfl rfl rfl rfl rfl rfl rfl rfl rfl rfl rfl
    · exact Kept.refl _
  exact hu.trans (hv.trans (State.raise_kept ..))


theorem State.sendFence_kept (s : State) (a2) (a3) : Kept s (State.sendFence s a2 a3) := by
  unfold State.sendFence
  repeat' (first
      | with_reducible exact Kept.refl _ | (intro _; intros) | with_reducible apply Kept.after (State.liveness_kept ..)
      | with_reducible apply Kept.after (Kept.foldl _ _ _ ?_))

theorem execFence_kept (a1) (a2) (a3) (a4) (s : State) (t : State) (h : execFence a1 a2 a3 a4 s = .next t) : Kept s t := by
  unfold execFence at h
  injection h with h; subst h
  repeat' (first
      | with_reducible exact Kept.refl _ | (intro _; intros) | with_reducible apply Kept.after (State.livenessIn_kept (h6 := ?_) ..)
      | with_reducible apply Kept.after (State.fence_kept ..) | with_reducible apply Kept.after (State.sendFence_kept ..) | (extract_lets) | split)

theorem execPositionFailed_kept (a1) (a2) (s : State) (t : State) (h : execPositionFailed a1 a2 s = .next t) : Kept s t := by
  unfold execPositionFailed at h
  injection h with h; subst h
  repeat' (first
      | with_reducible exact Kept.refl _ | with_reducible apply Kept.after (State.fence_kept ..)
      | with_reducible apply Kept.after (State.sendFence_kept ..) | (extract_lets) | split)

theorem execSelfFenced_kept (s : State) (t : State) (h : execSelfFenced s = .next t) : Kept s t := by
  unfold execSelfFenced at h
  injection h with h; subst h
  repeat' (first
      | with_reducible exact Kept.refl _ | (intro _; intros) | with_reducible apply Kept.after (State.ownFailure_kept ..)
      | with_reducible apply Kept.after (State.raise_kept ..) | with_reducible apply Kept.after (State.releaseRoom_kept ..)
      | with_reducible apply Kept.after (State.freeJob_kept ..) | with_reducible apply Kept.after (Kept.foldl _ _ _ ?_) | (extract_lets) | split
      | (with_reducible change Kept _ (ite _ _ _); split) | fail_if_no_progress with_reducible refine Kept.upd ?_ rfl rfl rfl rfl rfl rfl)

theorem State.fillJob_kept (s : State) (a2) : Kept s (State.fillJob s a2) := by
  unfold State.fillJob
  repeat' (first
      | with_reducible exact Kept.refl _ | (intro _; intros) | with_reducible apply Kept.after (State.setRole_kept ..)
      | with_reducible apply Kept.after (State.releaseReplay_kept ..) | with_reducible apply Kept.after (State.restoreJob_kept ..)
      | with_reducible apply Kept.after (Kept.foldl _ _ _ ?_) | (extract_lets) | split
      | fail_if_no_progress with_reducible refine Kept.upd ?_ rfl rfl rfl rfl rfl rfl)

theorem execTakeoverStarted_kept (a1) (a2) (s : State) (t : State) (h : execTakeoverStarted a1 a2 s = .next t) : Kept s t := by
  unfold execTakeoverStarted at h
  injection h with h; subst h
  repeat' (first
      | with_reducible exact Kept.refl _ | (intro _; intros) | with_reducible apply Kept.after (State.raise_kept ..)
      | with_reducible apply Kept.after (State.disarm_kept ..) | with_reducible apply Kept.after (State.fillJob_kept ..)
      | with_reducible apply Kept.after (State.endSession_kept ..) | with_reducible apply Kept.after (Kept.foldl _ _ _ ?_) | (extract_lets) | split
      | fail_if_no_progress with_reducible refine Kept.upd ?_ rfl rfl rfl rfl rfl rfl)

theorem State.resendKept_kept (s : State) (a2) (a3) : Kept s (State.resendKept s a2 a3) := by
  unfold State.resendKept
  repeat' (first
      | with_reducible exact Kept.refl _ | (intro _; intros) | with_reducible apply Kept.after (State.send_kept ..)
      | with_reducible apply Kept.after (Kept.foldl _ _ _ ?_) | (extract_lets) | split)

theorem execTakeoverComplete_kept (a1) (a2) (a3) (s : State) (t : State) (h : execTakeoverComplete a1 a2 a3 s = .next t) : Kept s t := by
  unfold execTakeoverComplete at h
  injection h with h; subst h
  repeat' (first
      | with_reducible exact Kept.refl _ | with_reducible apply Kept.after (State.raise_kept ..)
      | with_reducible apply Kept.after (State.resendKept_kept ..) | (extract_lets) | split
      | fail_if_no_progress with_reducible refine Kept.upd ?_ rfl rfl rfl rfl rfl rfl)

theorem State.foldIn_kept (s : State) (a2) (a3) (a4) : Kept s (State.foldIn s a2 a3 a4) := by
  unfold State.foldIn
  repeat' (first
      | with_reducible exact Kept.refl _ | (intro _; intros) | with_reducible apply Kept.after (State.updBody_kept ..)
      | with_reducible apply Kept.after (State.standRows_kept ..) | with_reducible apply Kept.after (State.standTile_kept ..)
      | with_reducible apply Kept.after (Kept.foldl _ _ _ ?_))

theorem execPositionFolded_kept (a1) (a2) (a3) (s : State) (t : State) (h : execPositionFolded a1 a2 a3 s = .next t) : Kept s t := by
  unfold execPositionFolded at h
  injection h with h; subst h
  repeat' (first
      | with_reducible exact Kept.refl _ | (intro _; intros) | with_reducible apply Kept.after (State.raise_kept ..)
      | with_reducible apply Kept.after (State.foldIn_kept ..) | with_reducible apply Kept.after (State.resendKept_kept ..)
      | with_reducible apply Kept.after (Kept.foldl _ _ _ ?_) | (extract_lets) | split
      | fail_if_no_progress with_reducible refine Kept.upd ?_ rfl rfl rfl rfl rfl rfl)

theorem execRestoreInPlace_kept (a1) (s : State) (t : State) (h : execRestoreInPlace a1 s = .next t) : Kept s t := by
  unfold execRestoreInPlace at h
  injection h with h; subst h
  have hp (x : State) (l : List Nat) (h : rising x.carrelPoison = true → rising l = true) : Kept x { x with carrelPoison := l } := Kept.poisonUpd _ _ h
  repeat' (first
      | with_reducible exact Kept.refl _ | split | extract_lets | with_reducible apply Kept.after (State.serveWaiting_kept ..)
      | with_reducible apply Kept.after (State.updJob_kept ..) | with_reducible apply Kept.after (State.updTiles_kept ..)
      | with_reducible apply Kept.after (hp _ _ ?_) | (intro h; exact rising_filter _ _ h))


theorem execRecoveryExhausted_kept (a1) (s : State) (t : State) (h : execRecoveryExhausted a1 s = .next t) : Kept s t := by
  unfold execRecoveryExhausted at h
  injection h with h; subst h
  repeat' (first
      | with_reducible exact Kept.refl _ | (intro _; intros) | with_reducible apply Kept.after (State.raiseJob_kept ..)
      | with_reducible apply Kept.after (State.updJob_kept ..) | with_reducible apply Kept.after (State.dropWorks_kept ..)
      | with_reducible apply Kept.after (State.exhaustStep_kept ..) | with_reducible apply Kept.after (Kept.foldl _ _ _ ?_) | (extract_lets)
      | split)

end Sys2Proof.Machine
end

