-- ==== Sys2Proof/Laws/KeptReliabilityRows.lean ====
section
/-!
SUPPORT. What the operations of ReliabilityRows keep.
-/
set_option linter.unusedVariables false
set_option Elab.async false
namespace Sys2Proof.Machine
open Sys2Proof

theorem State.poisonGranule_kept (s : State) (a2) (a3) : Kept s (State.poisonGranule s a2 a3) := by
  unfold State.poisonGranule
  split
  · exact Kept.poisonUpd _ _ (rising_insertOnce _ _)
  · exact State.updTiles_kept ..

theorem State.linkReplay_kept (s : State) (a2) (a3) (a4) (a5) (a6) : Kept s (State.linkReplay s a2 a3 a4 a5 a6) := by
  unfold State.linkReplay
  repeat' (first
      | with_reducible exact Kept.refl _ | with_reducible apply Kept.after (State.add_kept ..)
      | with_reducible apply Kept.after (State.raise_kept ..) | with_reducible apply Kept.after (State.poisonGranule_kept ..) | (extract_lets)
      | split | fail_if_no_progress with_reducible refine Kept.upd ?_ rfl rfl rfl rfl rfl rfl)

theorem execLinkReplay_kept (a1) (a2) (a3) (a4) (a5) (s : State) (t : State) (h : execLinkReplay a1 a2 a3 a4 a5 s = .next t) : Kept s t := by
  unfold execLinkReplay at h
  injection h with h; subst h
  repeat' (first | with_reducible exact Kept.refl _ | with_reducible apply Kept.after (State.linkReplay_kept ..))

theorem execLinkRetrained_kept (a1) (a2) (s : State) (t : State) (h : execLinkRetrained a1 a2 s = .next t) : Kept s t := by
  unfold execLinkRetrained at h
  injection h with h; subst h
  repeat' (first
      | with_reducible exact Kept.refl _ | with_reducible apply Kept.after (State.add_kept ..) | (extract_lets) | split
      | fail_if_no_progress with_reducible refine Kept.upd ?_ rfl rfl rfl rfl rfl rfl)

theorem State.updRow_kept (s : State) (a2) (a3) (a4) (a5) : Kept s (State.updRow s a2 a3 a4 a5) := by
  unfold State.updRow
  repeat' (first
      | with_reducible exact Kept.refl _ | (extract_lets) | fail_if_no_progress with_reducible refine Kept.upd ?_ rfl rfl rfl rfl rfl rfl)

theorem State.useResource_kept (s : State) (a2) (a3) : Kept s (State.useResource s a2 a3) :=
  ⟨rfl, rfl, rfl, id, id, id, Fewer.refl _, Worn.refl _, Worn.set _ _ _ (by omega), le_rfl, le_rfl⟩

theorem State.retireRow_kept (s : State) (a2) (a3) (a4) (a5) (a6) : Kept s (State.retireRow s a2 a3 a4 a5 a6) := by
  have h (a : Tiers) (ha : s.tiers.nearRetired ≤ a.nearRetired) (hb : s.tiers.farRetired ≤ a.farRetired) : Kept s { s with tiers := a } :=
    ⟨rfl, rfl, rfl, id, id, id, Fewer.refl _, Worn.refl _, Worn.refl _, ha, hb⟩
  unfold State.retireRow
  dsimp only
  split
  · exact State.raise_kept ..
  · refine (h _ ?_ ?_).trans ((State.add_kept ..).trans ((State.updRow_kept ..).trans (State.raise_kept ..)))
    · split <;> simp
    · split <;> simp

theorem execRowRepair_kept (a1) (a2) (a3) (a4) (a5) (a6) (s : State) (t : State) (h : execRowRepair a1 a2 a3 a4 a5 a6 s = .next t) : Kept s t := by
  unfold execRowRepair at h
  injection h with h; subst h
  repeat' (first
      | with_reducible exact Kept.refl _ | with_reducible apply Kept.after (State.retireRow_kept ..)
      | with_reducible apply Kept.after (State.updRow_kept ..) | split)

theorem execRowRepaired_kept (a1) (a2) (a3) (a4) (a5) (s : State) (t : State) (h : execRowRepaired a1 a2 a3 a4 a5 s = .next t) : Kept s t := by
  unfold execRowRepaired at h
  injection h with h; subst h
  repeat' (first
      | with_reducible exact Kept.refl _ | with_reducible apply Kept.after (State.updRow_kept ..)
      | with_reducible apply Kept.after (State.useResource_kept ..) | with_reducible apply Kept.after (State.raise_kept ..)
      | with_reducible apply Kept.after (State.add_kept ..) | (extract_lets) | split)

theorem execHardRepair_kept (a1) (a2) (a3) (a4) (a5) (a6) (s : State) (t : State) (h : execHardRepair a1 a2 a3 a4 a5 a6 s = .next t) : Kept s t := by
  unfold execHardRepair at h
  injection h with h; subst h
  repeat' (first
      | with_reducible exact Kept.refl _ | with_reducible apply Kept.after (State.retireRow_kept ..)
      | with_reducible apply Kept.after (State.updRow_kept ..) | with_reducible apply Kept.after (State.useResource_kept ..)
      | with_reducible apply Kept.after (State.raise_kept ..) | with_reducible apply Kept.after (State.add_kept ..) | (extract_lets) | split)

theorem State.countCorrected_kept (s : State) (a2) : Kept s (State.countCorrected s a2) := by
  unfold State.countCorrected
  repeat' (first
      | with_reducible exact Kept.refl _ | (extract_lets) | split | fail_if_no_progress with_reducible refine Kept.upd ?_ rfl rfl rfl rfl rfl rfl)

theorem execScrub_kept (a1) (a2) (a3) (a4) (a5) (a6) (s : State) (t : State) (h : execScrub a1 a2 a3 a4 a5 a6 s = .next t) : Kept s t := by
  unfold execScrub at h
  injection h with h; subst h
  repeat' (first
      | with_reducible exact Kept.refl _ | with_reducible apply Kept.after (State.countCorrected_kept ..)
      | with_reducible apply Kept.after (State.add_kept ..) | with_reducible apply Kept.after (State.updRow_kept ..)
      | with_reducible apply Kept.after (State.poisonGranule_kept ..) | with_reducible apply Kept.after (State.raise_kept ..) | (extract_lets)
      | split)

end Sys2Proof.Machine
end

