-- ==== Sys2Proof/Laws/KeptBringUpRows.lean ====
section
/-!
SUPPORT. What the operations of BringUpRows keep.
-/
set_option linter.unusedVariables false
set_option Elab.async false
namespace Sys2Proof.Machine
open Sys2Proof

theorem State.releaseHeld_kept (s : State) : Kept s (State.releaseHeld s) := by
  unfold State.releaseHeld
  repeat' (first
      | with_reducible exact Kept.refl _ | (intro _; intros) | with_reducible apply Kept.after (State.record_kept ..)
      | with_reducible apply Kept.after (Kept.foldl _ _ _ ?_) | (extract_lets)
      | fail_if_no_progress with_reducible refine Kept.upd ?_ rfl rfl rfl rfl rfl rfl)

theorem State.trySlots_kept (s : State) (l) : Kept s (State.trySlots s l) := by
  induction l generalizing s with
  | nil => unfold State.trySlots; exact State.updBring_kept ..
  | cons a l ih =>
    unfold State.trySlots
    repeat' (first
        | with_reducible exact Kept.refl _ | with_reducible apply Kept.after (ih _) | with_reducible apply Kept.after (State.updBring_kept ..)
        | with_reducible apply Kept.after (State.runImage_kept ..) | with_reducible apply Kept.after (State.raise_kept ..) | split)

theorem State.startFirmware_kept (s : State) (a2) : Kept s (State.startFirmware s a2) := by
  unfold State.startFirmware
  repeat' (first | with_reducible exact Kept.refl _ | with_reducible apply Kept.after (State.trySlots_kept ..))

theorem State.startRecords_kept (s : State) (a2) : Kept s (State.startRecords s a2) := by
  unfold State.startRecords
  repeat' (first
      | with_reducible exact Kept.refl _ | with_reducible apply Kept.after (State.raise_kept ..)
      | with_reducible apply Kept.after (State.updBring_kept ..) | with_reducible apply Kept.after (State.startFirmware_kept ..)
      | with_reducible apply Kept.after (State.releaseHeld_kept ..) | (extract_lets) | split | (with_reducible change Kept _ (ite _ _ _); split)
      | fail_if_no_progress with_reducible refine Kept.upd ?_ rfl rfl rfl rfl rfl rfl
      | with_reducible (apply Kept.after; apply draw_kept'; assumption))

theorem execKeeperStart_kept (a1) (a2) (s : State) (t : State) (h : execKeeperStart a1 a2 s = .next t) : Kept s t := by
  unfold execKeeperStart at h
  injection h with h; subst h
  repeat' (first
      | with_reducible exact Kept.refl _ | with_reducible assumption | (intro _; intros)
      | with_reducible apply Kept.after (State.updPower_kept _ _ ?_ ?_) | with_reducible apply Kept.after (State.updBring_kept ..)
      | with_reducible apply Kept.after (State.raise_kept ..) | with_reducible apply Kept.after (State.startRecords_kept ..) | (extract_lets)
      | split | fail_if_no_progress with_reducible refine Kept.upd ?_ rfl rfl rfl rfl rfl rfl | rfl)

theorem State.updSeg_kept (s : State) (a2) : Kept s (State.updSeg s a2) := by
  unfold State.updSeg
  repeat' (first | with_reducible exact Kept.refl _ | fail_if_no_progress with_reducible refine Kept.upd ?_ rfl rfl rfl rfl rfl rfl)

theorem State.duplicate_kept (s : State) (a2) : Kept s (State.duplicate s a2) := by
  unfold State.duplicate
  repeat' (first
      | with_reducible exact Kept.refl _ | with_reducible apply Kept.after (State.raise_kept ..)
      | with_reducible apply Kept.after (State.updSeg_kept ..))

theorem State.beaconLost_kept (s : State) : Kept s (State.beaconLost s) := by
  unfold State.beaconLost
  repeat' (first
      | with_reducible exact Kept.refl _ | with_reducible apply Kept.after (State.raise_kept ..)
      | with_reducible apply Kept.after (State.updSeg_kept ..))

theorem execSegmentJoin_kept (a1) (a2) (a3) (s : State) (t : State) (h : execSegmentJoin a1 a2 a3 s = .next t) : Kept s t := by
  unfold execSegmentJoin at h
  injection h with h; subst h
  repeat' (first
      | with_reducible exact Kept.refl _ | with_reducible apply Kept.after (State.updBring_kept ..)
      | with_reducible apply Kept.after (State.updSeg_kept ..) | with_reducible apply Kept.after (State.raise_kept ..)
      | with_reducible apply Kept.after (State.duplicate_kept ..) | with_reducible apply Kept.after (State.beaconLost_kept ..) | (extract_lets)
      | split | (with_reducible change Kept _ (ite _ _ _); split))

theorem execBeaconLost_kept (s : State) (t : State) (h : execBeaconLost s = .next t) : Kept s t := by
  unfold execBeaconLost at h
  injection h with h; subst h
  repeat' (first | with_reducible exact Kept.refl _ | with_reducible apply Kept.after (State.beaconLost_kept ..) | split)

theorem execBeaconSeen_kept (s : State) (t : State) (h : execBeaconSeen s = .next t) : Kept s t := by
  unfold execBeaconSeen at h
  injection h with h; subst h
  repeat' (first | with_reducible exact Kept.refl _ | with_reducible apply Kept.after (State.updSeg_kept ..) | split)

theorem execNeighbourSolicitation_kept (a1) (a2) (s : State) (t : State) (h : execNeighbourSolicitation a1 a2 s = .next t) : Kept s t := by
  unfold execNeighbourSolicitation at h
  injection h with h; subst h
  repeat' (first
      | with_reducible exact Kept.refl _ | with_reducible apply Kept.after (State.duplicate_kept ..) | split
      | fail_if_no_progress with_reducible refine Kept.upd ?_ rfl rfl rfl rfl rfl rfl)

theorem execIcmpv6Echo_kept (a1) (a2) (s : State) (t : State) (h : execIcmpv6Echo a1 a2 s = .next t) : Kept s t := by
  unfold execIcmpv6Echo at h
  injection h with h; subst h
  repeat' (first | with_reducible exact Kept.refl _ | split | fail_if_no_progress with_reducible refine Kept.upd ?_ rfl rfl rfl rfl rfl rfl)

theorem State.resumePlan_kept (s : State) : Kept s (State.resumePlan s) := by
  unfold State.resumePlan
  repeat' (first
      | with_reducible exact Kept.refl _ | (intro _; intros) | with_reducible apply Kept.after (State.setNum_kept ..)
      | with_reducible apply Kept.after (Kept.foldl _ _ _ ?_) | (extract_lets) | split
      | fail_if_no_progress with_reducible refine Kept.upd ?_ rfl rfl rfl rfl rfl rfl)

theorem execRailUp_kept (a1) (s : State) (t : State) (h : execRailUp a1 s = .next t) : Kept s t := by
  unfold execRailUp at h
  injection h with h; subst h
  repeat' (first
      | with_reducible exact Kept.refl _ | (intro _; intros) | with_reducible apply Kept.after (State.resumePlan_kept ..)
      | with_reducible apply Kept.after (State.updPower_kept _ _ ?_ ?_) | with_reducible apply Kept.after (State.updBring_kept ..) | (extract_lets)
      | split | rfl)

theorem State.wornTiers_kept (s : State) (a2) : Kept s (State.wornTiers s a2) := by
  unfold State.wornTiers
  repeat' (first
      | with_reducible exact Kept.refl _ | (intro _; intros) | with_reducible apply Kept.after (State.raise_kept ..)
      | with_reducible apply Kept.after (Kept.foldl _ _ _ ?_))

theorem execMemoryTrained_kept (a1) (s : State) (t : State) (h : execMemoryTrained a1 s = .next t) : Kept s t := by
  unfold execMemoryTrained at h
  injection h with h; subst h
  repeat' (first
      | with_reducible exact Kept.refl _ | with_reducible apply Kept.after (State.wornTiers_kept ..)
      | with_reducible apply Kept.after (State.updBring_kept ..) | split)

theorem execMemoryRetrain_kept (a1) (s : State) (t : State) (h : execMemoryRetrain a1 s = .next t) : Kept s t := by
  unfold execMemoryRetrain at h
  injection h with h; subst h
  repeat' (first
      | with_reducible exact Kept.refl _ | with_reducible apply Kept.after (State.updBring_kept ..)
      | with_reducible apply Kept.after (State.wornTiers_kept ..) | (extract_lets) | split)

theorem State.repairRow_kept (s : State) (a2) : Kept s (State.repairRow s a2) := by
  unfold State.repairRow
  repeat' (first
      | with_reducible exact Kept.refl _ | with_reducible apply Kept.after (State.retireRow_kept ..)
      | with_reducible apply Kept.after (State.raise_kept ..) | with_reducible apply Kept.after (State.add_kept ..)
      | with_reducible apply Kept.after (State.useResource_kept ..) | split)

theorem State.repairRows_kept (s : State) (a2) : Kept s (State.repairRows s a2).1 := by
  unfold State.repairRows
  repeat' (first
      | with_reducible exact Kept.refl _ | (intro _; intros) | with_reducible apply Kept.after (State.repairRow_kept ..)
      | with_reducible apply Kept.after (Kept.foldlFst _ _ _ ?_))
theorem State.repairRows_kept' {s : State} {a2} {x} {t} (h : State.repairRows s a2 = (t, x)) : Kept s t := by
  have k := State.repairRows_kept s a2; rw [h] at k; exact k

theorem State.failTile_kept (s : State) (a2) (a3) : Kept s (State.failTile s a2 a3) := by
  unfold State.failTile
  extract_lets t spares
  refine Kept.trans (t := t) (State.add_kept ..) ?_
  split
  · exact Kept.sparesSet _ _ _ fun x hx => List.mem_of_mem_filter hx
  · have hs : spares = t.spares.getD a2 [] := rfl
    clear_value spares
    split
    · exact Kept.refl _
    · split
      · exact State.loseTile_kept ..
      · refine (Kept.sparesSet _ _ _ fun x hx => ?_).trans ((State.updUnit_kept ..).trans (State.raise_kept ..))
        rw [← hs]; exact List.mem_cons_of_mem _ hx

theorem execMemoryInit_kept (a1) (a2) (a3) (s : State) (t : State) (h : execMemoryInit a1 a2 a3 s = .next t) : Kept s t := by
  unfold execMemoryInit at h
  injection h with h; subst h
  have hc (a : Tiers) (b : Reliability) (ha : a.nearRetired = s.tiers.nearRetired) (ha' : a.farRetired = s.tiers.farRetired)
      (hb : b.resources = s.rel.resources) : Kept s { s with tiers := a, carrel := [], carrelPoison := [], rel := b } :=
    ⟨rfl, rfl, rfl, fun _ => carrelWf_nil, fun _ => rfl, id, Fewer.refl _, Worn.refl _, by rw [hb]; exact Worn.refl _, by rw [ha], by rw [ha']⟩
  split
  · extract_lets
    split
    rename_i x u hold hr
    have hu := State.repairRows_kept' hr
    refine Kept.trans (hc { s.tiers with tiles := [], pass := false, readOrder := [], pageRuns := [], farReads := [] } { s.rel with rows := [] } rfl rfl rfl) (hu.trans ?_)
    split
    · exact Kept.refl _
    · exact (Kept.foldl _ _ _ fun _ _ => State.retentionTest_kept ..).trans
        ((Kept.foldl _ _ _ fun _ _ => by split; exacts [State.failTile_kept .., Kept.refl _]).trans (State.updBring_kept ..))
  · exact Kept.refl _

theorem execModuleReady_kept (a1) (s : State) (t : State) (h : execModuleReady a1 s = .next t) : Kept s t := by
  unfold execModuleReady at h
  injection h with h; subst h
  repeat' (first
      | with_reducible exact Kept.refl _ | with_reducible apply Kept.after (State.updBring_kept ..)
      | with_reducible apply Kept.after (State.mapQueues_kept ..) | with_reducible apply Kept.after (State.raise_kept ..) | (extract_lets) | split)

theorem State.switchOver_kept (s : State) (a2) : Kept s (State.switchOver s a2) := by
  unfold State.switchOver
  repeat' (first
      | with_reducible exact Kept.refl _ | with_reducible apply Kept.after (State.runImage_kept ..)
      | with_reducible apply Kept.after (State.add_kept ..) | with_reducible apply Kept.after (State.rewriteDelta_kept ..)
      | with_reducible apply Kept.after (State.raise_kept ..) | (extract_lets) | split | (with_reducible change Kept _ (ite _ _ _); split)
      | fail_if_no_progress with_reducible refine Kept.upd ?_ rfl rfl rfl rfl rfl rfl)

theorem execFirmwareSwitch_kept (a1) (a2) (s : State) (t : State) (h : execFirmwareSwitch a1 a2 s = .next t) : Kept s t := by
  unfold execFirmwareSwitch at h
  injection h with h; subst h
  repeat' (first
      | with_reducible exact Kept.refl _ | (intro _; intros) | with_reducible apply Kept.after (State.startDeposit_kept ..)
      | with_reducible apply Kept.after (State.switchOver_kept ..) | with_reducible apply Kept.after (Kept.foldl _ _ _ ?_) | (extract_lets) | split
      | fail_if_no_progress with_reducible refine Kept.upd ?_ rfl rfl rfl rfl rfl rfl)

end Sys2Proof.Machine
end

