-- ==== Sys2Proof/Laws/KeptDma.lean ====
section
/-!
SUPPORT. What the operations of Dma keep.
-/
set_option linter.unusedVariables false
set_option Elab.async false
namespace Sys2Proof.Machine
open Sys2Proof

theorem State.dmaTimer_kept (s : State) (a2) (a3) : Kept s (State.dmaTimer s a2 a3) := by
  unfold State.dmaTimer
  repeat' (first | with_reducible exact Kept.refl _ | with_reducible apply Kept.after (State.setChan_kept ..) | (extract_lets) | split)

theorem State.dmaComplete_kept (s : State) (a2) : Kept s (State.dmaComplete s a2) := by
  unfold State.dmaComplete
  repeat' (first
      | with_reducible exact Kept.refl _ | with_reducible apply Kept.after (State.chanEnd_kept ..)
      | with_reducible apply Kept.after (State.setChan_kept ..) | (extract_lets) | split)

theorem State.dmaHalt_kept (s : State) (a2) (a3) (a4) (a5) : Kept s (State.dmaHalt s a2 a3 a4 a5) := by
  unfold State.dmaHalt
  repeat' (first
      | with_reducible exact Kept.refl _ | with_reducible apply Kept.after (State.raise_kept ..)
      | with_reducible apply Kept.after (State.add_kept ..) | with_reducible apply Kept.after (State.setChan_kept ..) | (extract_lets) | split)

theorem State.skipPoison_kept (s : State) (a2) (a3) : Kept s (State.skipPoison s a2 a3) := by
  unfold State.skipPoison
  extract_lets n
  split
  · exact Kept.poisonUpd _ _ (rising_foldl_insertOnce _ _ _)
  · exact Kept.of rfl rfl rfl rfl rfl rfl rfl rfl rfl rfl rfl

theorem State.dmaAct_kept (s : State) (a2) (a3) (a4) : Kept s (State.dmaAct s a2 a3 a4) := by
  unfold State.dmaAct
  repeat' (first
      | with_reducible exact Kept.refl _ | with_reducible apply Kept.after (State.setChan_kept ..)
      | with_reducible apply Kept.after (State.skipPoison_kept ..) | with_reducible apply Kept.after (State.chanEnd_kept ..)
      | with_reducible apply Kept.after (State.abortOutcome_kept ..) | with_reducible apply Kept.after (State.raise_kept ..) | (extract_lets)
      | split)

theorem State.wantRepair_kept (s : State) (a2) (a3) (a4) : Kept s (State.wantRepair s a2 a3 a4) := by
  unfold State.wantRepair
  repeat' (first
      | with_reducible exact Kept.refl _ | (extract_lets) | fail_if_no_progress with_reducible refine Kept.upd ?_ rfl rfl rfl rfl rfl rfl)

theorem State.dmaAuto_kept (s : State) (a2) (a3) (a4) : Kept s (State.dmaAuto s a2 a3 a4) := by
  unfold State.dmaAuto
  repeat' (first
      | with_reducible exact Kept.refl _ | with_reducible apply Kept.after (State.wantRepair_kept ..)
      | with_reducible apply Kept.after (State.dmaAct_kept ..) | (extract_lets) | split | (with_reducible change Kept _ (ite _ _ _); split))

theorem State.dmaControl_kept (s : State) (a2) (a3) : Kept s (State.dmaControl s a2 a3) := by
  unfold State.dmaControl
  repeat' (first
      | with_reducible exact Kept.refl _ | (intro _; intros) | with_reducible apply Kept.after (State.viaWrite_kept (h5 := ?_) ..)
      | with_reducible apply Kept.after (State.tell_kept ..) | with_reducible apply Kept.after (State.dmaAct_kept ..))

theorem execDmaPost_kept (a1) (a2) (s : State) (t : State) (h : execDmaPost a1 a2 s = .next t) : Kept s t := by
  unfold execDmaPost at h
  injection h with h; subst h
  repeat' (first | with_reducible exact Kept.refl _ | with_reducible apply Kept.after (State.dmaPost_kept ..))

theorem execDmaTimer_kept (a1) (a2) (s : State) (t : State) (h : execDmaTimer a1 a2 s = .next t) : Kept s t := by
  unfold execDmaTimer at h
  injection h with h; subst h
  repeat' (first | with_reducible exact Kept.refl _ | with_reducible apply Kept.after (State.dmaTimer_kept ..))

theorem execDmaComplete_kept (a1) (s : State) (t : State) (h : execDmaComplete a1 s = .next t) : Kept s t := by
  unfold execDmaComplete at h
  injection h with h; subst h
  repeat' (first | with_reducible exact Kept.refl _ | with_reducible apply Kept.after (State.dmaComplete_kept ..))

theorem execDmaAccessFault_kept (a1) (a2) (a3) (a4) (s : State) (t : State) (h : execDmaAccessFault a1 a2 a3 a4 s = .next t) : Kept s t := by
  unfold execDmaAccessFault at h
  injection h with h; subst h
  repeat' (first | with_reducible exact Kept.refl _ | with_reducible apply Kept.after (State.dmaHalt_kept ..) | split)

theorem execBurstTimeout_kept (a1) (a2) (a3) (s : State) (t : State) (h : execBurstTimeout a1 a2 a3 s = .next t) : Kept s t := by
  unfold execBurstTimeout at h
  injection h with h; subst h
  repeat' (first | with_reducible exact Kept.refl _ | with_reducible apply Kept.after (State.dmaHalt_kept ..))

theorem execDmaAutoAction_kept (a1) (a2) (a3) (s : State) (t : State) (h : execDmaAutoAction a1 a2 a3 s = .next t) : Kept s t := by
  unfold execDmaAutoAction at h
  injection h with h; subst h
  repeat' (first | with_reducible exact Kept.refl _ | with_reducible apply Kept.after (State.dmaAuto_kept ..))

theorem execResume_kept (a1) (s : State) (t : State) (h : execResume a1 s = .next t) : Kept s t := by
  unfold execResume at h
  injection h with h; subst h
  repeat' (first | with_reducible exact Kept.refl _ | with_reducible apply Kept.after (State.dmaControl_kept ..))

theorem execSkip_kept (a1) (s : State) (t : State) (h : execSkip a1 s = .next t) : Kept s t := by
  unfold execSkip at h
  injection h with h; subst h
  repeat' (first | with_reducible exact Kept.refl _ | with_reducible apply Kept.after (State.dmaControl_kept ..))

theorem execAbort_kept (a1) (s : State) (t : State) (h : execAbort a1 s = .next t) : Kept s t := by
  unfold execAbort at h
  injection h with h; subst h
  repeat' (first | with_reducible exact Kept.refl _ | with_reducible apply Kept.after (State.dmaControl_kept ..))

end Sys2Proof.Machine
end

