-- ==== Sys2Proof/Laws/KeptLandingRows.lean ====
section
/-!
SUPPORT. What the operations of LandingRows keep.
-/
set_option linter.unusedVariables false
set_option Elab.async false
namespace Sys2Proof.Machine
open Sys2Proof

theorem State.landScatter_kept (s : State) (a2) (a3) (a4) (a5) (a6) : Kept s (State.landScatter s a2 a3 a4 a5 a6) := by
  unfold State.landScatter
  repeat' (first | with_reducible exact Kept.refl _ | with_reducible apply Kept.after (State.updStep_kept ..))

theorem State.addShare_kept (s : State) (a2) (a3) (a4) (a5) (a6) : Kept s (State.addShare s a2 a3 a4 a5 a6) := by
  unfold State.addShare
  repeat' (first | with_reducible exact Kept.refl _ | with_reducible apply Kept.after (State.updStep_kept ..) | (extract_lets) | split)

theorem State.landSlice_kept (s : State) (a2) (a3) (a4) (a5) (a6) : Kept s (State.landSlice s a2 a3 a4 a5 a6) := by
  unfold State.landSlice
  repeat' (first
      | with_reducible exact Kept.refl _ | with_reducible apply Kept.after (State.updStep_kept ..)
      | with_reducible apply Kept.after (State.addShare_kept ..) | with_reducible apply Kept.after (State.sliceOn_kept ..)
      | with_reducible apply Kept.after (State.sliceDown_kept ..) | (extract_lets) | split)

theorem State.landReduce_kept (s : State) (a2) (a3) (a4) (a5) : Kept s (State.landReduce s a2 a3 a4 a5) := by
  unfold State.landReduce
  repeat' (first
      | with_reducible exact Kept.refl _ | with_reducible apply Kept.after (State.addShare_kept ..)
      | with_reducible apply Kept.after (State.landSlice_kept ..) | with_reducible apply Kept.after (State.updStep_kept ..) | (extract_lets)
      | split)

theorem State.landTiles_kept (s : State) (a2) (a3) (a4) : Kept s (State.landTiles s a2 a3 a4) := by
  unfold State.landTiles
  repeat' (first
      | with_reducible exact Kept.refl _ | (intro _; intros) | with_reducible apply Kept.after (State.raise_kept ..)
      | with_reducible apply Kept.after (State.count_kept ..) | with_reducible apply Kept.after (State.updTile_kept ..)
      | with_reducible apply Kept.after (State.putAll_kept ..) | with_reducible apply Kept.after (Kept.foldl _ _ _ ?_))

theorem State.landCopy_kept (s : State) (a2) (a3) : Kept s (State.landCopy s a2 a3) := by
  unfold State.landCopy
  repeat' (first
      | with_reducible exact Kept.refl _ | with_reducible apply Kept.after (State.freeTiles_kept ..)
      | with_reducible apply Kept.after (State.landTiles_kept ..) | with_reducible apply Kept.after (State.updJob_kept ..)
      | with_reducible apply Kept.after (State.updStep_kept ..) | with_reducible apply Kept.after (State.serveWaiting_kept ..)
      | with_reducible apply Kept.after (State.broadcastFrom_kept ..) | (extract_lets) | split | (with_reducible change Kept _ (ite _ _ _); split))

theorem State.landHandoff_kept (s : State) (a2) (a3) (a4) : Kept s (State.landHandoff s a2 a3 a4) := by
  unfold State.landHandoff
  repeat' (first
      | with_reducible exact Kept.refl _ | with_reducible apply Kept.after (State.landTiles_kept ..)
      | with_reducible apply Kept.after (State.updStep_kept ..) | with_reducible apply Kept.after (State.logRecord_kept ..)
      | with_reducible apply Kept.after (State.wakeAll_kept ..) | (extract_lets) | split)

theorem State.updWard_kept (s : State) (a2) (a3) : Kept s (State.updWard s a2 a3) := by
  unfold State.updWard
  repeat' (first
      | with_reducible exact Kept.refl _ | (extract_lets) | fail_if_no_progress with_reducible refine Kept.upd ?_ rfl rfl rfl rfl rfl rfl)

theorem State.freeKept_kept (s : State) (a2) (a3) (a4) : Kept s (State.freeKept s a2 a3 a4) := by
  unfold State.freeKept
  repeat' (first
      | with_reducible exact Kept.refl _ | (extract_lets) | fail_if_no_progress with_reducible refine Kept.upd ?_ rfl rfl rfl rfl rfl rfl)

theorem State.landWard_kept (s : State) (a2) (a3) : Kept s (State.landWard s a2 a3) := by
  unfold State.landWard
  repeat' (first
      | with_reducible exact Kept.refl _ | with_reducible apply Kept.after (State.freeKept_kept ..)
      | with_reducible apply Kept.after (State.updWard_kept ..) | (extract_lets) | split
      | fail_if_no_progress with_reducible refine Kept.upd ?_ rfl rfl rfl rfl rfl rfl)

theorem State.moveLanded_kept (s : State) (a2) (a3) : Kept s (State.moveLanded s a2 a3) := by
  unfold State.moveLanded
  repeat' (first
      | with_reducible exact Kept.refl _ | with_reducible apply Kept.after (State.landWard_kept ..)
      | with_reducible apply Kept.after (State.landCopy_kept ..) | with_reducible apply Kept.after (State.landScatter_kept ..)
      | with_reducible apply Kept.after (State.landReduce_kept ..) | with_reducible apply Kept.after (State.landHandoff_kept ..) | (extract_lets)
      | split)

theorem State.freeLanded_kept (s : State) (a2) (a3) (a4) : Kept s (State.freeLanded s a2 a3 a4) := by
  unfold State.freeLanded
  repeat' (first
      | with_reducible exact Kept.refl _ | with_reducible apply Kept.after (State.setNum_kept ..) | (extract_lets)
      | fail_if_no_progress with_reducible refine Kept.upd ?_ rfl rfl rfl rfl rfl rfl)

theorem execLandingMove_kept (a1) (a2) (s : State) (t : State) (h : execLandingMove a1 a2 s = .next t) : Kept s t := by
  unfold execLandingMove at h
  injection h with h; subst h
  repeat' (first
      | with_reducible exact Kept.refl _ | with_reducible apply Kept.after (State.freeLanded_kept ..)
      | with_reducible apply Kept.after (State.moveLanded_kept ..) | (extract_lets) | split)

end Sys2Proof.Machine
end

