-- ==== Sys2Proof/Laws/KeptTierRows.lean ====
section
/-!
SUPPORT. What the operations of TierRows keep.
-/
set_option linter.unusedVariables false
set_option Elab.async false
namespace Sys2Proof.Machine
open Sys2Proof

theorem execSpaceStalled_kept (a1) (a2) (s : State) (t : State) (h : execSpaceStalled a1 a2 s = .next t) : Kept s t := by
  unfold execSpaceStalled at h
  injection h with h; subst h
  repeat' (first
      | with_reducible exact Kept.refl _ | with_reducible apply Kept.after (State.tryClose_kept ..)
      | with_reducible apply Kept.after (State.raiseJob_kept ..) | with_reducible apply Kept.after (State.updStep_kept ..) | split)

theorem State.dropEviction_kept (s : State) (a2) (a3) : Kept s (State.dropEviction s a2 a3) := by
  unfold State.dropEviction
  repeat' (first
      | with_reducible exact Kept.refl _ | with_reducible apply Kept.after (State.add_kept ..)
      | with_reducible apply Kept.after (State.updTile_kept ..) | with_reducible apply Kept.after (State.endDma_kept ..) | (extract_lets) | split)

theorem State.evict_kept (n : Nat) (s : State) : Kept s (State.evict n s) := by
  induction n generalizing s with
  | zero => exact Kept.refl s
  | succ n ih =>
    unfold State.evict
    split
    · exact Kept.refl _
    · split
      · exact Kept.refl _
      · split
        · exact (State.dropEviction_kept ..).trans (ih _)
        · split
          · exact (State.updTile_kept ..).trans (ih _)
          · exact State.raise_kept ..


theorem execPoolEvictionPass_kept (s : State) (t : State) (h : execPoolEvictionPass s = .next t) : Kept s t := by
  unfold execPoolEvictionPass at h
  injection h with h; subst h
  repeat' (first
      | with_reducible exact Kept.refl _ | with_reducible apply Kept.after (State.evict_kept ..) | (extract_lets) | split
      | fail_if_no_progress with_reducible refine Kept.upd ?_ rfl rfl rfl rfl rfl rfl)

theorem State.promote_kept (s : State) (a2) (a3) (a4) : Kept s (State.promote s a2 a3 a4) := by
  unfold State.promote
  repeat' (first
      | with_reducible exact Kept.refl _ | with_reducible apply Kept.after (State.dropEviction_kept ..)
      | with_reducible apply Kept.after (State.updTile_kept ..) | split)

theorem execPromotion_kept (a1) (a2) (a3) (a4) (a5) (s : State) (t : State) (h : execPromotion a1 a2 a3 a4 a5 s = .next t) : Kept s t := by
  unfold execPromotion at h
  injection h with h; subst h
  repeat' (first
      | with_reducible exact Kept.refl _ | (intro _; intros) | with_reducible apply Kept.after (State.promote_kept ..)
      | with_reducible apply Kept.after (Kept.foldl _ _ _ ?_) | (extract_lets) | split
      | fail_if_no_progress with_reducible refine Kept.upd ?_ rfl rfl rfl rfl rfl rfl)

theorem execMoveCommit_kept (a1) (s : State) (t : State) (h : execMoveCommit a1 s = .next t) : Kept s t := by
  unfold execMoveCommit at h
  injection h with h; subst h
  repeat' (first
      | with_reducible exact Kept.refl _ | with_reducible apply Kept.after (State.tryClose_kept ..)
      | with_reducible apply Kept.after (State.runDeferreds_kept ..) | with_reducible apply Kept.after (State.add_kept ..)
      | with_reducible apply Kept.after (State.updTile_kept ..) | (extract_lets) | split | (with_reducible change Kept _ (ite _ _ _); split)
      | fail_if_no_progress with_reducible refine Kept.upd ?_ rfl rfl rfl rfl rfl rfl)

end Sys2Proof.Machine
end

