-- ==== Sys2Proof/Laws/KeptVectorRows.lean ====
section
/-!
SUPPORT. What the operations of VectorRows keep.
-/
set_option linter.unusedVariables false
set_option Elab.async false
namespace Sys2Proof.Machine
open Sys2Proof

theorem State.putOperand_kept (s : State) (a2) (a3) (a4) (a5) (a6) : Kept s (State.putOperand s a2 a3 a4 a5 a6) := by
  unfold State.putOperand
  repeat' (first
      | with_reducible exact Kept.refl _ | (intro _; intros) | with_reducible apply Kept.after (State.putBody_kept ..)
      | with_reducible apply Kept.after (State.carrelWrite_kept ..) | with_reducible apply Kept.after (Kept.foldl _ _ _ ?_) | (extract_lets)
      | split)

theorem State.takeQueue_kept (s : State) (a2) (a3) : Kept s (State.takeQueue s a2 a3).2 := by
  unfold State.takeQueue
  repeat' (first | with_reducible exact Kept.refl _ | with_reducible apply Kept.after (State.updUnit_kept ..))
theorem State.takeQueue_kept' {s : State} {a2} {a3} {x} {t} (h : State.takeQueue s a2 a3 = (x, t)) : Kept s t := by
  have k := State.takeQueue_kept s a2 a3; rw [h] at k; exact k

theorem Ctx.vecRead_kept (a1) (s : State) : Kept s (Ctx.vecRead a1 s).2 := by
  unfold Ctx.vecRead
  repeat' (first
      | with_reducible exact Kept.refl _ | (extract_lets) | split | with_reducible apply Kept.after (State.takeQueue_kept ..)
      | (rename_i h _ _ _ _; refine Kept.ofIf h ?_ ?_))
theorem Ctx.vecRead_kept' {a1} {s : State} {x} {t} (h : Ctx.vecRead a1 s = (x, t)) : Kept s t := by
  have k := Ctx.vecRead_kept a1 s; rw [h] at k; exact k

theorem Ctx.laneRange_kept (a1) (a2) (s : State) : Kept s (Ctx.laneRange a1 a2 s) := by
  unfold Ctx.laneRange
  repeat' (first
      | with_reducible exact Kept.refl _ | with_reducible apply Kept.after (Ctx.count_kept ..)
      | with_reducible apply Kept.after (State.raiseJob_kept ..) | (extract_lets) | split | (dsimp only) | (dsimp +zetaDelta only; split))

theorem Ctx.vecWrite_kept (a1) (a2) (a3) (s : State) : Kept s (Ctx.vecWrite a1 a2 a3 s) := by
  unfold Ctx.vecWrite
  repeat' (first
      | with_reducible exact Kept.refl _ | with_reducible apply Kept.after (State.putOperand_kept ..)
      | with_reducible apply Kept.after (Ctx.count_kept ..) | (extract_lets) | split)

theorem Ctx.vector_kept (a1) (s : State) : Kept s (Ctx.vector a1 s) := by
  unfold Ctx.vector
  repeat' (first
      | with_reducible exact Kept.refl _ | with_reducible apply Kept.after (State.putOperand_kept ..)
      | with_reducible apply Kept.after (Ctx.count_kept ..) | with_reducible apply Kept.after (Ctx.vecWrite_kept ..)
      | with_reducible apply Kept.after (State.carrelWrite_kept ..) | with_reducible apply Kept.after (Ctx.laneRange_kept ..) | (extract_lets)
      | split | with_reducible (apply Kept.after; apply Ctx.vecRead_kept'; assumption))

theorem State.vector_kept (s : State) (a2) (a3) (a4) : Kept s (State.vector s a2 a3 a4) := by
  unfold State.vector
  repeat' (first
      | with_reducible exact Kept.refl _ | (intro _; intros) | with_reducible apply Kept.after (State.issuePlain_kept (h5 := ?_) ..)
      | with_reducible apply Kept.after (Ctx.vector_kept ..))

theorem execCopy_kept (a1) (a2) (s : State) (t : State) (h : execCopy a1 a2 s = .next t) : Kept s t := by
  unfold execCopy at h
  injection h with h; subst h
  repeat' (first | with_reducible exact Kept.refl _ | with_reducible apply Kept.after (State.vector_kept ..))

theorem execAdd_kept (a1) (a2) (s : State) (t : State) (h : execAdd a1 a2 s = .next t) : Kept s t := by
  unfold execAdd at h
  injection h with h; subst h
  repeat' (first | with_reducible exact Kept.refl _ | with_reducible apply Kept.after (State.vector_kept ..))

theorem execSub_kept (a1) (a2) (s : State) (t : State) (h : execSub a1 a2 s = .next t) : Kept s t := by
  unfold execSub at h
  injection h with h; subst h
  repeat' (first | with_reducible exact Kept.refl _ | with_reducible apply Kept.after (State.vector_kept ..))

theorem execMul_kept (a1) (a2) (s : State) (t : State) (h : execMul a1 a2 s = .next t) : Kept s t := by
  unfold execMul at h
  injection h with h; subst h
  repeat' (first | with_reducible exact Kept.refl _ | with_reducible apply Kept.after (State.vector_kept ..))

theorem execFma_kept (a1) (a2) (s : State) (t : State) (h : execFma a1 a2 s = .next t) : Kept s t := by
  unfold execFma at h
  injection h with h; subst h
  repeat' (first | with_reducible exact Kept.refl _ | with_reducible apply Kept.after (State.vector_kept ..))

theorem execMin_kept (a1) (a2) (s : State) (t : State) (h : execMin a1 a2 s = .next t) : Kept s t := by
  unfold execMin at h
  injection h with h; subst h
  repeat' (first | with_reducible exact Kept.refl _ | with_reducible apply Kept.after (State.vector_kept ..))

theorem execMax_kept (a1) (a2) (s : State) (t : State) (h : execMax a1 a2 s = .next t) : Kept s t := by
  unfold execMax at h
  injection h with h; subst h
  repeat' (first | with_reducible exact Kept.refl _ | with_reducible apply Kept.after (State.vector_kept ..))

theorem execAbs_kept (a1) (a2) (s : State) (t : State) (h : execAbs a1 a2 s = .next t) : Kept s t := by
  unfold execAbs at h
  injection h with h; subst h
  repeat' (first | with_reducible exact Kept.refl _ | with_reducible apply Kept.after (State.vector_kept ..))

theorem execNeg_kept (a1) (a2) (s : State) (t : State) (h : execNeg a1 a2 s = .next t) : Kept s t := by
  unfold execNeg at h
  injection h with h; subst h
  repeat' (first | with_reducible exact Kept.refl _ | with_reducible apply Kept.after (State.vector_kept ..))

theorem execExp_kept (a1) (a2) (s : State) (t : State) (h : execExp a1 a2 s = .next t) : Kept s t := by
  unfold execExp at h
  injection h with h; subst h
  repeat' (first | with_reducible exact Kept.refl _ | with_reducible apply Kept.after (State.vector_kept ..))

theorem execLog_kept (a1) (a2) (s : State) (t : State) (h : execLog a1 a2 s = .next t) : Kept s t := by
  unfold execLog at h
  injection h with h; subst h
  repeat' (first | with_reducible exact Kept.refl _ | with_reducible apply Kept.after (State.vector_kept ..))

theorem execRecip_kept (a1) (a2) (s : State) (t : State) (h : execRecip a1 a2 s = .next t) : Kept s t := by
  unfold execRecip at h
  injection h with h; subst h
  repeat' (first | with_reducible exact Kept.refl _ | with_reducible apply Kept.after (State.vector_kept ..))

theorem execSqrt_kept (a1) (a2) (s : State) (t : State) (h : execSqrt a1 a2 s = .next t) : Kept s t := by
  unfold execSqrt at h
  injection h with h; subst h
  repeat' (first | with_reducible exact Kept.refl _ | with_reducible apply Kept.after (State.vector_kept ..))

theorem execRsqrt_kept (a1) (a2) (s : State) (t : State) (h : execRsqrt a1 a2 s = .next t) : Kept s t := by
  unfold execRsqrt at h
  injection h with h; subst h
  repeat' (first | with_reducible exact Kept.refl _ | with_reducible apply Kept.after (State.vector_kept ..))

theorem execTanh_kept (a1) (a2) (s : State) (t : State) (h : execTanh a1 a2 s = .next t) : Kept s t := by
  unfold execTanh at h
  injection h with h; subst h
  repeat' (first | with_reducible exact Kept.refl _ | with_reducible apply Kept.after (State.vector_kept ..))

theorem execSigmoid_kept (a1) (a2) (s : State) (t : State) (h : execSigmoid a1 a2 s = .next t) : Kept s t := by
  unfold execSigmoid at h
  injection h with h; subst h
  repeat' (first | with_reducible exact Kept.refl _ | with_reducible apply Kept.after (State.vector_kept ..))

theorem execCmpLt_kept (a1) (a2) (s : State) (t : State) (h : execCmpLt a1 a2 s = .next t) : Kept s t := by
  unfold execCmpLt at h
  injection h with h; subst h
  repeat' (first | with_reducible exact Kept.refl _ | with_reducible apply Kept.after (State.vector_kept ..))

theorem execCmpLe_kept (a1) (a2) (s : State) (t : State) (h : execCmpLe a1 a2 s = .next t) : Kept s t := by
  unfold execCmpLe at h
  injection h with h; subst h
  repeat' (first | with_reducible exact Kept.refl _ | with_reducible apply Kept.after (State.vector_kept ..))

theorem execCmpEq_kept (a1) (a2) (s : State) (t : State) (h : execCmpEq a1 a2 s = .next t) : Kept s t := by
  unfold execCmpEq at h
  injection h with h; subst h
  repeat' (first | with_reducible exact Kept.refl _ | with_reducible apply Kept.after (State.vector_kept ..))

theorem execCmpNe_kept (a1) (a2) (s : State) (t : State) (h : execCmpNe a1 a2 s = .next t) : Kept s t := by
  unfold execCmpNe at h
  injection h with h; subst h
  repeat' (first | with_reducible exact Kept.refl _ | with_reducible apply Kept.after (State.vector_kept ..))

theorem execRsum_kept (a1) (a2) (s : State) (t : State) (h : execRsum a1 a2 s = .next t) : Kept s t := by
  unfold execRsum at h
  injection h with h; subst h
  repeat' (first | with_reducible exact Kept.refl _ | with_reducible apply Kept.after (State.vector_kept ..))

theorem execRsumsq_kept (a1) (a2) (s : State) (t : State) (h : execRsumsq a1 a2 s = .next t) : Kept s t := by
  unfold execRsumsq at h
  injection h with h; subst h
  repeat' (first | with_reducible exact Kept.refl _ | with_reducible apply Kept.after (State.vector_kept ..))

theorem execRmax_kept (a1) (a2) (s : State) (t : State) (h : execRmax a1 a2 s = .next t) : Kept s t := by
  unfold execRmax at h
  injection h with h; subst h
  repeat' (first | with_reducible exact Kept.refl _ | with_reducible apply Kept.after (State.vector_kept ..))

theorem execRmin_kept (a1) (a2) (s : State) (t : State) (h : execRmin a1 a2 s = .next t) : Kept s t := by
  unfold execRmin at h
  injection h with h; subst h
  repeat' (first | with_reducible exact Kept.refl _ | with_reducible apply Kept.after (State.vector_kept ..))

theorem execRamax_kept (a1) (a2) (s : State) (t : State) (h : execRamax a1 a2 s = .next t) : Kept s t := by
  unfold execRamax at h
  injection h with h; subst h
  repeat' (first | with_reducible exact Kept.refl _ | with_reducible apply Kept.after (State.vector_kept ..))

theorem execPerm_kept (a1) (a2) (s : State) (t : State) (h : execPerm a1 a2 s = .next t) : Kept s t := by
  unfold execPerm at h
  injection h with h; subst h
  repeat' (first | with_reducible exact Kept.refl _ | with_reducible apply Kept.after (State.vector_kept ..))

theorem execBcast_kept (a1) (a2) (s : State) (t : State) (h : execBcast a1 a2 s = .next t) : Kept s t := by
  unfold execBcast at h
  injection h with h; subst h
  repeat' (first | with_reducible exact Kept.refl _ | with_reducible apply Kept.after (State.vector_kept ..))

theorem execVcompress_kept (a1) (a2) (s : State) (t : State) (h : execVcompress a1 a2 s = .next t) : Kept s t := by
  unfold execVcompress at h
  injection h with h; subst h
  repeat' (first | with_reducible exact Kept.refl _ | with_reducible apply Kept.after (State.vector_kept ..))

theorem execVexpand_kept (a1) (a2) (s : State) (t : State) (h : execVexpand a1 a2 s = .next t) : Kept s t := by
  unfold execVexpand at h
  injection h with h; subst h
  repeat' (first | with_reducible exact Kept.refl _ | with_reducible apply Kept.after (State.vector_kept ..))

theorem Ctx.softmax_kept (a1) (s : State) : Kept s (Ctx.softmax a1 s) := by
  unfold Ctx.softmax
  repeat' (first
      | with_reducible exact Kept.refl _ | (intro _; intros) | with_reducible apply Kept.after (State.putBody_kept ..)
      | with_reducible apply Kept.after (State.carrelWrite_kept ..) | with_reducible apply Kept.after (Ctx.report_kept ..)
      | with_reducible apply Kept.after (Ctx.count_kept ..) | with_reducible apply Kept.after (Kept.foldl _ _ _ ?_) | (extract_lets) | split
      | (with_reducible change Kept _ (ite _ _ _); split) | with_reducible (apply Kept.after; apply State.takeQueue_kept'; assumption)
      | (rename_i h _ _ _ _ _ _ _ _ _ _ _ _ _ _; refine Kept.ofIf h ?_ ?_))

theorem State.softmax_kept (s : State) (a2) (a3) (a4) : Kept s (State.softmax s a2 a3 a4) := by
  unfold State.softmax
  repeat' (first
      | with_reducible exact Kept.refl _ | (intro _; intros) | with_reducible apply Kept.after (State.issuePlain_kept (h5 := ?_) ..)
      | with_reducible apply Kept.after (Ctx.softmax_kept ..))

theorem execSoftmaxRow_kept (a1) (a2) (s : State) (t : State) (h : execSoftmaxRow a1 a2 s = .next t) : Kept s t := by
  unfold execSoftmaxRow at h
  injection h with h; subst h
  repeat' (first | with_reducible exact Kept.refl _ | with_reducible apply Kept.after (State.softmax_kept ..))

theorem execSoftmaxStats_kept (a1) (a2) (s : State) (t : State) (h : execSoftmaxStats a1 a2 s = .next t) : Kept s t := by
  unfold execSoftmaxStats at h
  injection h with h; subst h
  repeat' (first | with_reducible exact Kept.refl _ | with_reducible apply Kept.after (State.softmax_kept ..))

theorem execSoftmaxApply_kept (a1) (a2) (s : State) (t : State) (h : execSoftmaxApply a1 a2 s = .next t) : Kept s t := by
  unfold execSoftmaxApply at h
  injection h with h; subst h
  repeat' (first | with_reducible exact Kept.refl _ | with_reducible apply Kept.after (State.softmax_kept ..))

theorem Ctx.convert_kept (a1) (s : State) : Kept s (Ctx.convert a1 s) := by
  unfold Ctx.convert
  repeat' (first
      | with_reducible exact Kept.refl _ | (intro _; intros) | with_reducible apply Kept.after (State.putOperand_kept ..)
      | with_reducible apply Kept.after (State.carrelWrite_kept ..) | with_reducible apply Kept.after (Ctx.report_kept ..)
      | with_reducible apply Kept.after (Kept.foldl _ _ _ ?_) | (extract_lets) | split | with_reducible apply Kept.after (State.takeQueue_kept ..)
      | (rename_i h _ _ _ _ _ _ _ _ _ _; refine Kept.ofIf h ?_ ?_))

theorem execConvert_kept (a1) (a2) (s : State) (t : State) (h : execConvert a1 a2 s = .next t) : Kept s t := by
  unfold execConvert at h
  injection h with h; subst h
  repeat' (first
      | with_reducible exact Kept.refl _ | (intro _; intros) | with_reducible apply Kept.after (State.issuePlain_kept (h5 := ?_) ..)
      | with_reducible apply Kept.after (Ctx.convert_kept ..))

theorem Ctx.compress_kept (a1) (s : State) : Kept s (Ctx.compress a1 s) := by
  unfold Ctx.compress
  repeat' (first
      | with_reducible exact Kept.refl _ | (intro _; intros) | with_reducible apply Kept.after (State.touch_kept ..)
      | with_reducible apply Kept.after (State.putTile_kept ..) | with_reducible apply Kept.after (Ctx.report_kept ..)
      | with_reducible apply Kept.after (Ctx.count_kept ..) | with_reducible apply Kept.after (Kept.foldl _ _ _ ?_) | (extract_lets) | split)

theorem execCompress_kept (a1) (a2) (s : State) (t : State) (h : execCompress a1 a2 s = .next t) : Kept s t := by
  unfold execCompress at h
  injection h with h; subst h
  repeat' (first
      | with_reducible exact Kept.refl _ | (intro _; intros) | with_reducible apply Kept.after (State.issueSpace_kept (h7 := ?_) ..)
      | with_reducible apply Kept.after (Ctx.compress_kept ..))

end Sys2Proof.Machine
end

