-- ==== Sys2Proof/Laws/OnlyDictionary.lean ====
section
/-!
SUPPORT. The parts of the state the operations of Dictionary may change.
-/
set_option linter.unusedTactic false
set_option linter.unusedVariables false
set_option Elab.async false
namespace Sys2Proof.Machine
open Sys2Proof

theorem State.takeNode_only (s : State) : Only [.port, .sessions, .seg, .log, .dict] s (State.takeNode s) := by
  unfold State.takeNode
  repeat' (first
      | with_reducible exact Only.refl _ _ | with_reducible decide | with_reducible refine Only.after (State.raise_only ..) ?_ ?_ | (extract_lets)
      | split | fail_if_no_progress with_reducible refine Only.upd ?_)

theorem State.afterWrite_only (s : State) (a2) : Only [.port, .sessions, .seg, .log, .dict] s (State.afterWrite s a2) := by
  unfold State.afterWrite
  repeat' (first
      | with_reducible exact Only.refl _ _ | with_reducible decide | with_reducible refine Only.after (State.takeNode_only ..) ?_ ?_ | split)

theorem State.gdpAnswer_only (s : State) (a2) (a3) (a4) (a5) : Only [.sessions, .reply] s (State.gdpAnswer s a2 a3 a4 a5) := by
  unfold State.gdpAnswer
  repeat' (first
      | with_reducible exact Only.refl _ _ | with_reducible decide | with_reducible refine Only.after (State.updSession_only ..) ?_ ?_
      | (extract_lets) | split | fail_if_no_progress with_reducible refine Only.upd ?_)

theorem State.tell_only (s : State) (a2) (a3) (a4) (a5) : Only [.port, .sessions, .reply] s (State.tell s a2 a3 a4 a5) := by
  unfold State.tell
  repeat' (first
      | with_reducible exact Only.refl _ _ | with_reducible decide | with_reducible refine Only.after (State.finish_only ..) ?_ ?_
      | with_reducible refine Only.after (State.refuseWith_only ..) ?_ ?_ | with_reducible refine Only.after (State.gdpAnswer_only ..) ?_ ?_
      | split)

theorem State.store_only (s : State) (a2) (a3) (a4) (a5) (a6) : Only [.port, .sessions, .jobs, .seg, .log, .dict] s (State.store s a2 a3 a4 a5 a6) := by
  unfold State.store
  repeat' (first
      | with_reducible exact Only.refl _ _ | with_reducible decide | with_reducible refine Only.after (State.updSession_only ..) ?_ ?_
      | with_reducible refine Only.after (State.updJob_only ..) ?_ ?_ | with_reducible refine Only.after (State.afterWrite_only ..) ?_ ?_
      | with_reducible refine Only.after (State.setEntry_only ..) ?_ ?_ | split)

theorem State.applyWrite_only (s : State) (a2) (a3) (a4) (a5) (a6) (a7) : Only [.port, .sessions, .jobs, .seg, .log, .dict, .retainedWrites, .reply] s (State.applyWrite s a2 a3 a4 a5 a6 a7) := by
  unfold State.applyWrite
  repeat' (first
      | with_reducible exact Only.refl _ _ | with_reducible decide | with_reducible refine Only.after (State.tell_only ..) ?_ ?_
      | with_reducible refine Only.after (State.store_only ..) ?_ ?_ | split | fail_if_no_progress with_reducible refine Only.upd ?_)

end Sys2Proof.Machine
end

