-- ==== Sys2Proof/Laws/OnlyDictChecks.lean ====
section
/-!
SUPPORT. The parts of the state the operations of DictChecks may change.
-/
set_option linter.unusedTactic false
set_option linter.unusedVariables false
set_option Elab.async false
namespace Sys2Proof.Machine
open Sys2Proof

theorem State.closeBlock_only (s : State) (a2) (a3) : Only [.blocks, .abandoned] s (State.closeBlock s a2 a3) := by
  unfold State.closeBlock
  repeat' (first | with_reducible exact Only.refl _ _ | fail_if_no_progress with_reducible refine Only.upd ?_)

theorem State.endBlock_only (s : State) (a2) : Only [.blocks, .abandoned] s (State.endBlock s a2) := by
  unfold State.endBlock
  repeat' (first
      | with_reducible exact Only.refl _ _ | with_reducible decide | with_reducible refine Only.after (State.closeBlock_only ..) ?_ ?_ | split)

theorem State.keepBlock_only (s : State) (a2) (a3) (a4) : Only [.blocks, .abandoned] s (State.keepBlock s a2 a3 a4) := by
  unfold State.keepBlock
  repeat' (first
      | with_reducible exact Only.refl _ _ | with_reducible decide | with_reducible refine Only.after (State.closeBlock_only ..) ?_ ?_
      | (extract_lets) | fail_if_no_progress with_reducible refine Only.upd ?_)

theorem State.blockWrite_only (s : State) (a2) (a3) (a4) (a5) (a6) (a7) (a8) : Only [.port, .sessions, .jobs, .seg, .log, .dict, .blocks, .abandoned, .retainedWrites, .baseStaged, .reply] s (State.blockWrite s a2 a3 a4 a5 a6 a7 a8) := by
  unfold State.blockWrite
  repeat' (first
      | with_reducible exact Only.refl _ _ | with_reducible decide | with_reducible refine Only.after (State.closeBlock_only ..) ?_ ?_
      | with_reducible refine Only.after (State.applyWrite_only ..) ?_ ?_ | with_reducible refine Only.after (State.tell_only ..) ?_ ?_
      | with_reducible refine Only.after (State.keepBlock_only ..) ?_ ?_ | (extract_lets) | split
      | fail_if_no_progress with_reducible refine Only.upd ?_)

end Sys2Proof.Machine
end

