-- ==== Sys2Proof/Laws/OnlySessions.lean ====
section
/-!
SUPPORT. The parts of the state the operations of Sessions may change.
-/
set_option linter.unusedTactic false
set_option linter.unusedVariables false
set_option Elab.async false
namespace Sys2Proof.Machine
open Sys2Proof

theorem State.spdmSay_only (s : State) (a2) (a3) (a4) : Only [.reply] s (State.spdmSay s a2 a3 a4) := by
  unfold State.spdmSay
  repeat' (first | with_reducible exact Only.refl _ _ | fail_if_no_progress with_reducible refine Only.upd ?_)

theorem State.spdmFree_only (s : State) (a2) (a3) : Only [.reply, .draws] s (State.spdmFree s a2 a3) := by
  unfold State.spdmFree
  repeat' (first
      | with_reducible exact Only.refl _ _ | with_reducible decide | with_reducible refine Only.after (State.spdmSay_only ..) ?_ ?_ | (extract_lets)
      | with_reducible refine Only.after (draw_only ..) ?_ ?_)

theorem State.orphanCommands_only (s : State) (a2) : Only [.port, .jobs, .retainedWrites, .baseStaged] s (State.orphanCommands s a2) := by
  unfold State.orphanCommands
  repeat' (first | with_reducible exact Only.refl _ _ | (extract_lets) | fail_if_no_progress with_reducible refine Only.upd ?_)

theorem State.endSession_only (s : State) (a2) (a3) : Only [.port, .sessions, .jobs, .sec, .log, .dict, .blocks, .abandoned, .retainedWrites, .baseStaged] s (State.endSession s a2 a3) := by
  unfold State.endSession
  repeat' (first
      | with_reducible exact Only.refl _ _ | intro _ | with_reducible decide | with_reducible refine Only.after (State.releaseRoom_only ..) ?_ ?_
      | with_reducible refine Only.after (State.mapQueues_only ..) ?_ ?_ | with_reducible refine Only.after (State.raise_only ..) ?_ ?_
      | with_reducible refine Only.after (State.orphanCommands_only ..) ?_ ?_ | with_reducible refine Only.trans ?_ (Only.foldl _ _ _ ?_)
      | (extract_lets) | split | fail_if_no_progress with_reducible refine Only.upd ?_)

theorem State.failDecrypt_only (s : State) (a2) (a3) : Only [.port, .sessions, .jobs, .sec, .log, .dict, .blocks, .abandoned, .retainedWrites, .baseStaged] s (State.failDecrypt s a2 a3) := by
  unfold State.failDecrypt
  repeat' (first
      | with_reducible exact Only.refl _ _ | with_reducible decide | with_reducible refine Only.after (State.updSession_only ..) ?_ ?_
      | with_reducible refine Only.after (State.endSession_only ..) ?_ ?_ | (extract_lets) | split)

theorem State.keyExchange_only (s : State) (a2) : Only [.sessions, .reply, .draws] s (State.keyExchange s a2) := by
  unfold State.keyExchange
  repeat' (first
      | with_reducible exact Only.refl _ _ | with_reducible decide | with_reducible refine Only.after (State.spdmSay_only ..) ?_ ?_
      | with_reducible refine Only.after (State.spdmFree_only ..) ?_ ?_ | (extract_lets) | split
      | fail_if_no_progress with_reducible refine Only.upd ?_)

theorem State.dropSession_only (s : State) (a2) : Only [.sessions] s (State.dropSession s a2) := by
  unfold State.dropSession
  repeat' (first | with_reducible exact Only.refl _ _ | fail_if_no_progress with_reducible refine Only.upd ?_)

theorem State.finishSession_only (s : State) (a2) (a3) (a4) : Only [.sessions, .reply, .draws] s (State.finishSession s a2 a3 a4) := by
  unfold State.finishSession
  repeat' (first
      | with_reducible exact Only.refl _ _ | with_reducible decide | with_reducible refine Only.after (State.spdmSay_only ..) ?_ ?_
      | with_reducible refine Only.after (State.spdmFree_only ..) ?_ ?_ | with_reducible refine Only.after (State.updSession_only ..) ?_ ?_
      | with_reducible refine Only.after (State.dropSession_only ..) ?_ ?_ | (extract_lets) | split
      | with_reducible refine Only.after (draw_only ..) ?_ ?_)

theorem State.spdm_only (s : State) (a2) (a3) : Only [.port, .sessions, .jobs, .sec, .log, .dict, .blocks, .abandoned, .retainedWrites, .baseStaged, .reply, .draws] s (State.spdm s a2 a3) := by
  unfold State.spdm
  repeat' (first
      | with_reducible exact Only.refl _ _ | with_reducible decide | with_reducible refine Only.after (State.spdmSay_only ..) ?_ ?_
      | with_reducible refine Only.after (State.spdmFree_only ..) ?_ ?_ | with_reducible refine Only.after (State.keyExchange_only ..) ?_ ?_
      | with_reducible refine Only.after (State.finishSession_only ..) ?_ ?_ | with_reducible refine Only.after (State.updSession_only ..) ?_ ?_
      | with_reducible refine Only.after (State.endSession_only ..) ?_ ?_ | split)

theorem State.doe_only (s : State) (a2) : Only [.port, .sessions, .jobs, .sec, .log, .dict, .blocks, .abandoned, .retainedWrites, .baseStaged, .reply, .draws] s (State.doe s a2) := by
  unfold State.doe
  repeat' (first
      | with_reducible exact Only.refl _ _ | with_reducible decide | with_reducible refine Only.after (State.spdm_only ..) ?_ ?_ | split)

theorem execGetVersion_only (s : State) (t : State) (h : execGetVersion s = .next t) : Only [.port, .sessions, .jobs, .sec, .log, .dict, .blocks, .abandoned, .retainedWrites, .baseStaged, .reply, .draws] s t := by
  unfold execGetVersion at h
  injection h with h; subst h
  repeat' (first | with_reducible exact Only.refl _ _ | with_reducible decide | with_reducible refine Only.after (State.doe_only ..) ?_ ?_)

theorem execGetCapabilities_only (s : State) (t : State) (h : execGetCapabilities s = .next t) : Only [.port, .sessions, .jobs, .sec, .log, .dict, .blocks, .abandoned, .retainedWrites, .baseStaged, .reply, .draws] s t := by
  unfold execGetCapabilities at h
  injection h with h; subst h
  repeat' (first | with_reducible exact Only.refl _ _ | with_reducible decide | with_reducible refine Only.after (State.doe_only ..) ?_ ?_)

theorem execNegotiateAlgorithms_only (s : State) (t : State) (h : execNegotiateAlgorithms s = .next t) : Only [.port, .sessions, .jobs, .sec, .log, .dict, .blocks, .abandoned, .retainedWrites, .baseStaged, .reply, .draws] s t := by
  unfold execNegotiateAlgorithms at h
  injection h with h; subst h
  repeat' (first | with_reducible exact Only.refl _ _ | with_reducible decide | with_reducible refine Only.after (State.doe_only ..) ?_ ?_)

theorem execGetDigests_only (s : State) (t : State) (h : execGetDigests s = .next t) : Only [.port, .sessions, .jobs, .sec, .log, .dict, .blocks, .abandoned, .retainedWrites, .baseStaged, .reply, .draws] s t := by
  unfold execGetDigests at h
  injection h with h; subst h
  repeat' (first | with_reducible exact Only.refl _ _ | with_reducible decide | with_reducible refine Only.after (State.doe_only ..) ?_ ?_)

theorem execGetCertificate_only (a1) (a2) (s : State) (t : State) (h : execGetCertificate a1 a2 s = .next t) : Only [.port, .sessions, .jobs, .sec, .log, .dict, .blocks, .abandoned, .retainedWrites, .baseStaged, .reply, .draws] s t := by
  unfold execGetCertificate at h
  injection h with h; subst h
  repeat' (first | with_reducible exact Only.refl _ _ | with_reducible decide | with_reducible refine Only.after (State.doe_only ..) ?_ ?_)

theorem execChallenge_only (s : State) (t : State) (h : execChallenge s = .next t) : Only [.port, .sessions, .jobs, .sec, .log, .dict, .blocks, .abandoned, .retainedWrites, .baseStaged, .reply, .draws] s t := by
  unfold execChallenge at h
  injection h with h; subst h
  repeat' (first | with_reducible exact Only.refl _ _ | with_reducible decide | with_reducible refine Only.after (State.doe_only ..) ?_ ?_)

theorem execGetMeasurements_only (a1) (s : State) (t : State) (h : execGetMeasurements a1 s = .next t) : Only [.port, .sessions, .jobs, .sec, .log, .dict, .blocks, .abandoned, .retainedWrites, .baseStaged, .reply, .draws] s t := by
  unfold execGetMeasurements at h
  injection h with h; subst h
  repeat' (first | with_reducible exact Only.refl _ _ | with_reducible decide | with_reducible refine Only.after (State.doe_only ..) ?_ ?_)

theorem execKeyExchange_only (s : State) (t : State) (h : execKeyExchange s = .next t) : Only [.port, .sessions, .jobs, .sec, .log, .dict, .blocks, .abandoned, .retainedWrites, .baseStaged, .reply, .draws] s t := by
  unfold execKeyExchange at h
  injection h with h; subst h
  repeat' (first | with_reducible exact Only.refl _ _ | with_reducible decide | with_reducible refine Only.after (State.doe_only ..) ?_ ?_)

theorem execFinish_only (a1) (a2) (s : State) (t : State) (h : execFinish a1 a2 s = .next t) : Only [.port, .sessions, .jobs, .sec, .log, .dict, .blocks, .abandoned, .retainedWrites, .baseStaged, .reply, .draws] s t := by
  unfold execFinish at h
  injection h with h; subst h
  repeat' (first | with_reducible exact Only.refl _ _ | with_reducible decide | with_reducible refine Only.after (State.doe_only ..) ?_ ?_)

theorem execEndSession_only (a1) (s : State) (t : State) (h : execEndSession a1 s = .next t) : Only [.port, .sessions, .jobs, .sec, .log, .dict, .blocks, .abandoned, .retainedWrites, .baseStaged, .reply, .draws] s t := by
  unfold execEndSession at h
  injection h with h; subst h
  repeat' (first | with_reducible exact Only.refl _ _ | with_reducible decide | with_reducible refine Only.after (State.doe_only ..) ?_ ?_)

theorem execHeartbeat_only (a1) (s : State) (t : State) (h : execHeartbeat a1 s = .next t) : Only [.port, .sessions, .jobs, .sec, .log, .dict, .blocks, .abandoned, .retainedWrites, .baseStaged, .reply, .draws] s t := by
  unfold execHeartbeat at h
  injection h with h; subst h
  repeat' (first | with_reducible exact Only.refl _ _ | with_reducible decide | with_reducible refine Only.after (State.doe_only ..) ?_ ?_)

theorem execSpdmKeyUpdate_only (a1) (s : State) (t : State) (h : execSpdmKeyUpdate a1 s = .next t) : Only [.port, .sessions, .jobs, .sec, .log, .dict, .blocks, .abandoned, .retainedWrites, .baseStaged, .reply, .draws] s t := by
  unfold execSpdmKeyUpdate at h
  injection h with h; subst h
  repeat' (first | with_reducible exact Only.refl _ _ | with_reducible decide | with_reducible refine Only.after (State.doe_only ..) ?_ ?_)

theorem execEncapsulatedExchange_only (a1) (a2) (a3) (s : State) (t : State) (h : execEncapsulatedExchange a1 a2 a3 s = .next t) : Only [.port, .sessions, .jobs, .sec, .log, .dict, .blocks, .abandoned, .retainedWrites, .baseStaged, .reply, .draws] s t := by
  unfold execEncapsulatedExchange at h
  injection h with h; subst h
  repeat' (first | with_reducible exact Only.refl _ _ | with_reducible decide | with_reducible refine Only.after (State.doe_only ..) ?_ ?_)

theorem execSessionHeartbeatExpired_only (a1) (s : State) (t : State) (h : execSessionHeartbeatExpired a1 s = .next t) : Only [.port, .sessions, .jobs, .sec, .log, .dict, .blocks, .abandoned, .retainedWrites, .baseStaged] s t := by
  unfold execSessionHeartbeatExpired at h
  injection h with h; subst h
  repeat' (first
      | with_reducible exact Only.refl _ _ | with_reducible decide | with_reducible refine Only.after (State.endSession_only ..) ?_ ?_ | split)

end Sys2Proof.Machine
end

