-- ==== Sys2Proof/Laws/OnlyServices.lean ====
section
/-!
SUPPORT. The parts of the state the operations of Services may change.
-/
set_option linter.unusedTactic false
set_option linter.unusedVariables false
set_option Elab.async false
namespace Sys2Proof.Machine
open Sys2Proof

theorem State.dictRead_only (s : State) (a2) : Only [.port, .jobs] s (State.dictRead s a2) := by
  unfold State.dictRead
  repeat' (first
      | with_reducible exact Only.refl _ _ | intro _ | with_reducible decide
      | with_reducible refine Only.trans ?_ (State.runCommand_only (h6 := ?_) (hw := ?_) ..)
      | with_reducible refine Only.after (State.done_only ..) ?_ ?_)

theorem State.dictWrite_only (s : State) (a2) : Only [.port, .sessions, .jobs, .seg, .log, .dict, .retainedWrites, .reply] s (State.dictWrite s a2) := by
  unfold State.dictWrite
  repeat' (first
      | with_reducible exact Only.refl _ _ | intro _ | with_reducible decide
      | with_reducible refine Only.trans ?_ (State.runCommand_only (h6 := ?_) (hw := ?_) ..)
      | with_reducible refine Only.after (State.applyWrite_only ..) ?_ ?_ | (extract_lets) | split)

theorem State.dictReadBlock_only (s : State) (a2) : Only [.port, .jobs] s (State.dictReadBlock s a2) := by
  unfold State.dictReadBlock
  repeat' (first
      | with_reducible exact Only.refl _ _ | intro _ | with_reducible decide
      | with_reducible refine Only.trans ?_ (State.runCommand_only (h6 := ?_) (hw := ?_) ..)
      | with_reducible refine Only.after (State.done_only ..) ?_ ?_ | (extract_lets) | split)

theorem State.dictWriteBlock_only (s : State) (a2) : Only [.port, .sessions, .jobs, .seg, .log, .dict, .blocks, .abandoned, .retainedWrites, .baseStaged, .reply] s (State.dictWriteBlock s a2) := by
  unfold State.dictWriteBlock
  repeat' (first
      | with_reducible exact Only.refl _ _ | intro _ | with_reducible decide | with_reducible refine Only.after (State.endBlock_only ..) ?_ ?_
      | with_reducible refine Only.trans ?_ (State.runCommand_only (h6 := ?_) (hw := ?_) ..)
      | with_reducible refine Only.after (State.blockWrite_only ..) ?_ ?_)

theorem State.dropFrame_only (s : State) : Only [.dict] s (State.dropFrame s) := by
  unfold State.dropFrame
  repeat' (first | with_reducible exact Only.refl _ _ | with_reducible decide | with_reducible refine Only.after (State.add_only ..) ?_ ?_)

theorem State.bare_only (s : State) (a2) (a3) (a4) (a5) : Only [.reply] s (State.bare s a2 a3 a4 a5) := by
  unfold State.bare
  repeat' (first | with_reducible exact Only.refl _ _ | fail_if_no_progress with_reducible refine Only.upd ?_)

theorem State.beginFrame_only (s : State) (a2) : Only [.sessions] s (State.beginFrame s a2) := by
  unfold State.beginFrame
  repeat' (first | with_reducible exact Only.refl _ _ | with_reducible decide | with_reducible refine Only.after (State.updSession_only ..) ?_ ?_)

theorem State.answerUnkept_only (s : State) (a2) (a3) (a4) (a5) (a6) (a7) : Only [.sessions, .reply] s (State.answerUnkept s a2 a3 a4 a5 a6 a7) := by
  unfold State.answerUnkept
  repeat' (first
      | with_reducible exact Only.refl _ _ | with_reducible decide | with_reducible refine Only.after (State.updSession_only ..) ?_ ?_
      | (extract_lets) | fail_if_no_progress with_reducible refine Only.upd ?_)

theorem State.spdmTyped_only (s : State) (a2) : Only [.sessions, .reply] s (State.spdmTyped s a2) := by
  unfold State.spdmTyped
  repeat' (first
      | with_reducible exact Only.refl _ _ | with_reducible decide | with_reducible refine Only.after (State.bare_only ..) ?_ ?_
      | with_reducible refine Only.after (State.answerUnkept_only ..) ?_ ?_ | split)

theorem State.limitedAnswer_only (s : State) (a2) : Only [.reply] s (State.limitedAnswer s a2) := by
  unfold State.limitedAnswer
  repeat' (first
      | with_reducible exact Only.refl _ _ | with_reducible decide | with_reducible refine Only.after (State.bare_only ..) ?_ ?_ | (extract_lets)
      | split)

theorem State.gdpAccept_only (s : State) (a2) (a3) (a4) (g5) {w : List Part} (h5 : ∀ x y1, Only w x (g5 x y1)) (hw : Part.within [.sessions, .reply] w = true) : Only w s (State.gdpAccept s a2 a3 a4 g5) := by
  unfold State.gdpAccept
  repeat' (first
      | with_reducible exact Only.refl _ _ | with_reducible assumption | exact Part.within_trans (by decide) hw
      | with_reducible refine Only.after (State.answerUnkept_only ..) ?_ ?_ | with_reducible refine Only.after (State.updSession_only ..) ?_ ?_
      | with_reducible refine Only.after (State.gdpAnswer_only ..) ?_ ?_ | with_reducible refine Only.after (State.beginFrame_only ..) ?_ ?_
      | with_reducible refine Only.trans ?_ (h5 ..) | split)

theorem State.gdpSealed_only (s : State) (a2) (a3) (g4) {w : List Part} (h4 : ∀ x y1, Only w x (g4 x y1)) (hw : Part.within [.port, .sessions, .jobs, .sec, .log, .dict, .blocks, .abandoned, .retainedWrites, .baseStaged, .reply] w = true) : Only w s (State.gdpSealed s a2 a3 g4) := by
  unfold State.gdpSealed
  repeat' (first
      | with_reducible exact Only.refl _ _ | with_reducible assumption | exact Part.within_trans (by decide) hw
      | with_reducible refine Only.after (State.bare_only ..) ?_ ?_ | with_reducible refine Only.after (State.failDecrypt_only ..) ?_ ?_
      | with_reducible refine Only.after (State.dropFrame_only ..) ?_ ?_
      | with_reducible refine Only.trans ?_ (State.gdpAccept_only (h5 := ?_) (hw := ?_) ..)
      | with_reducible refine Only.after (State.updSession_only ..) ?_ ?_ | split)

theorem State.gdpRequest_only (s : State) (a2) (a3) (g4) {w : List Part} (h4 : ∀ x y1, Only w x (g4 x y1)) (hw : Part.within [.port, .sessions, .jobs, .sec, .log, .dict, .blocks, .abandoned, .retainedWrites, .baseStaged, .reply] w = true) : Only w s (State.gdpRequest s a2 a3 g4) := by
  unfold State.gdpRequest
  repeat' (first
      | with_reducible exact Only.refl _ _ | with_reducible assumption | exact Part.within_trans (by decide) hw
      | with_reducible refine Only.after (State.dropFrame_only ..) ?_ ?_ | with_reducible refine Only.after (State.limitedAnswer_only ..) ?_ ?_
      | with_reducible refine Only.after (State.spdmTyped_only ..) ?_ ?_
      | with_reducible refine Only.trans ?_ (State.gdpSealed_only (h4 := ?_) (hw := ?_) ..) | split)

theorem State.gdpChecked_only (s : State) (a2) (a3) (g4) {w : List Part} (h4 : ∀ x, Only w x (g4 x)) (hw : Part.within [.sessions, .reply] w = true) : Only w s (State.gdpChecked s a2 a3 g4) := by
  unfold State.gdpChecked
  repeat' (first
      | with_reducible exact Only.refl _ _ | with_reducible assumption | with_reducible refine Only.after (State.gdpAnswer_only ..) ?_ ?_
      | with_reducible refine Only.trans ?_ (h4 ..) | split)

theorem State.gdpRead_only (s : State) (a2) : Only [.port, .sessions, .jobs, .sec, .log, .dict, .blocks, .abandoned, .retainedWrites, .baseStaged, .reply] s (State.gdpRead s a2) := by
  unfold State.gdpRead
  repeat' (first
      | with_reducible exact Only.refl _ _ | intro _ | with_reducible decide
      | with_reducible refine Only.trans ?_ (State.gdpRequest_only (h4 := ?_) (hw := ?_) ..)
      | with_reducible refine Only.after (State.gdpAnswer_only ..) ?_ ?_ | (extract_lets) | split)

theorem State.gdpWrite_only (s : State) (a2) : Only [.port, .sessions, .jobs, .sec, .seg, .log, .dict, .blocks, .abandoned, .retainedWrites, .baseStaged, .reply] s (State.gdpWrite s a2) := by
  unfold State.gdpWrite
  repeat' (first
      | with_reducible exact Only.refl _ _ | intro _ | with_reducible decide
      | with_reducible refine Only.trans ?_ (State.gdpRequest_only (h4 := ?_) (hw := ?_) ..)
      | with_reducible refine Only.trans ?_ (State.gdpChecked_only (h4 := ?_) (hw := ?_) ..)
      | with_reducible refine Only.after (State.applyWrite_only ..) ?_ ?_ | (extract_lets) | split)

theorem State.gdpReadBlock_only (s : State) (a2) : Only [.port, .sessions, .jobs, .sec, .log, .dict, .blocks, .abandoned, .retainedWrites, .baseStaged, .reply] s (State.gdpReadBlock s a2) := by
  unfold State.gdpReadBlock
  repeat' (first
      | with_reducible exact Only.refl _ _ | intro _ | with_reducible decide
      | with_reducible refine Only.trans ?_ (State.gdpRequest_only (h4 := ?_) (hw := ?_) ..)
      | with_reducible refine Only.after (State.gdpAnswer_only ..) ?_ ?_ | (extract_lets) | split)

theorem State.gdpWriteBlock_only (s : State) (a2) : Only [.port, .sessions, .jobs, .sec, .seg, .log, .dict, .blocks, .abandoned, .retainedWrites, .baseStaged, .reply] s (State.gdpWriteBlock s a2) := by
  unfold State.gdpWriteBlock
  repeat' (first
      | with_reducible exact Only.refl _ _ | intro _ | with_reducible decide
      | with_reducible refine Only.trans ?_ (State.gdpRequest_only (h4 := ?_) (hw := ?_) ..)
      | with_reducible refine Only.after (State.endBlock_only ..) ?_ ?_
      | with_reducible refine Only.trans ?_ (State.gdpChecked_only (h4 := ?_) (hw := ?_) ..)
      | with_reducible refine Only.after (State.blockWrite_only ..) ?_ ?_ | split)

theorem State.viaWrite_only (s : State) (a2) (a3) (a4) (g5) {w : List Part} (h5 : ∀ x y1 y2 y3 y4 y5, Only w x (g5 x y1 y2 y3 y4 y5)) (hw : Part.within [.port, .sessions, .jobs, .sec, .log, .dict, .blocks, .abandoned, .retainedWrites, .baseStaged, .reply] w = true) : Only w s (State.viaWrite s a2 a3 a4 g5) := by
  unfold State.viaWrite
  repeat' (first
      | with_reducible exact Only.refl _ _ | with_reducible assumption | intro _ | exact Part.within_trans (by decide) hw
      | with_reducible refine Only.trans ?_ (State.runCommand_only (h6 := ?_) (hw := ?_) ..)
      | with_reducible refine Only.trans ?_ (State.gdpRequest_only (h4 := ?_) (hw := ?_) ..)
      | with_reducible refine Only.trans ?_ (State.gdpChecked_only (h4 := ?_) (hw := ?_) ..) | with_reducible refine Only.trans ?_ (h5 ..) | split)

theorem State.subscribeStart_only (s : State) (a2) : Only [.port, .sessions, .jobs, .sec, .log, .dict, .blocks, .abandoned, .retainedWrites, .baseStaged, .reply] s (State.subscribeStart s a2) := by
  unfold State.subscribeStart
  repeat' (first
      | with_reducible exact Only.refl _ _ | intro _ | with_reducible decide
      | with_reducible refine Only.trans ?_ (State.gdpRequest_only (h4 := ?_) (hw := ?_) ..)
      | with_reducible refine Only.trans ?_ (State.gdpChecked_only (h4 := ?_) (hw := ?_) ..)
      | with_reducible refine Only.after (State.gdpAnswer_only ..) ?_ ?_ | with_reducible refine Only.after (State.updSession_only ..) ?_ ?_
      | (extract_lets) | split)

theorem State.subscribeStop_only (s : State) (a2) : Only [.port, .sessions, .jobs, .sec, .log, .dict, .blocks, .abandoned, .retainedWrites, .baseStaged, .reply] s (State.subscribeStop s a2) := by
  unfold State.subscribeStop
  repeat' (first
      | with_reducible exact Only.refl _ _ | intro _ | with_reducible decide
      | with_reducible refine Only.trans ?_ (State.gdpRequest_only (h4 := ?_) (hw := ?_) ..)
      | with_reducible refine Only.trans ?_ (State.gdpChecked_only (h4 := ?_) (hw := ?_) ..)
      | with_reducible refine Only.after (State.gdpAnswer_only ..) ?_ ?_ | with_reducible refine Only.after (State.updSession_only ..) ?_ ?_
      | split)

theorem State.subscribeAck_only (s : State) (a2) : Only [.port, .sessions, .jobs, .sec, .log, .dict, .blocks, .abandoned, .retainedWrites, .baseStaged, .reply] s (State.subscribeAck s a2) := by
  unfold State.subscribeAck
  repeat' (first
      | with_reducible exact Only.refl _ _ | intro _ | with_reducible decide
      | with_reducible refine Only.trans ?_ (State.gdpRequest_only (h4 := ?_) (hw := ?_) ..)
      | with_reducible refine Only.trans ?_ (State.gdpChecked_only (h4 := ?_) (hw := ?_) ..)
      | with_reducible refine Only.after (State.gdpAnswer_only ..) ?_ ?_ | with_reducible refine Only.after (State.updSession_only ..) ?_ ?_
      | (extract_lets) | split)

theorem State.eventFrame_only (s : State) (a2) : Only [.sessions, .reply] s (State.eventFrame s a2) := by
  unfold State.eventFrame
  repeat' (first
      | with_reducible exact Only.refl _ _ | with_reducible decide | with_reducible refine Only.after (State.updSession_only ..) ?_ ?_
      | (extract_lets) | split | fail_if_no_progress with_reducible refine Only.upd ?_)

theorem State.eventResend_only (s : State) (a2) : Only [.sessions, .dict, .reply] s (State.eventResend s a2) := by
  unfold State.eventResend
  repeat' (first
      | with_reducible exact Only.refl _ _ | with_reducible decide | with_reducible refine Only.after (State.add_only ..) ?_ ?_
      | with_reducible refine Only.after (State.updSession_only ..) ?_ ?_ | (extract_lets) | split
      | fail_if_no_progress with_reducible refine Only.upd ?_)

theorem State.blockGap_only (s : State) (a2) (a3) : Only [.sec, .blocks, .abandoned] s (State.blockGap s a2 a3) := by
  unfold State.blockGap
  repeat' (first | with_reducible exact Only.refl _ _ | (extract_lets) | split | fail_if_no_progress with_reducible refine Only.upd ?_)

theorem State.frameSpdm_only (s : State) (a2) (a3) : Only [.reply] s (State.frameSpdm s a2 a3) := by
  unfold State.frameSpdm
  repeat' (first | with_reducible exact Only.refl _ _ | split | fail_if_no_progress with_reducible refine Only.upd ?_)

theorem State.spdmBare_only (s : State) (a2) : Only [.reply] s (State.spdmBare s a2) := by
  unfold State.spdmBare
  repeat' (first | with_reducible exact Only.refl _ _ | fail_if_no_progress with_reducible refine Only.upd ?_)

theorem State.frameSays_only (s : State) (a2) (a3) (a4) : Only [.port, .sessions, .jobs, .sec, .log, .dict, .blocks, .abandoned, .retainedWrites, .baseStaged, .reply, .draws] s (State.frameSays s a2 a3 a4) := by
  unfold State.frameSays
  repeat' (first
      | with_reducible exact Only.refl _ _ | with_reducible decide | with_reducible refine Only.after (State.frameSpdm_only ..) ?_ ?_
      | with_reducible refine Only.after (State.spdm_only ..) ?_ ?_ | with_reducible refine Only.after (State.spdmSay_only ..) ?_ ?_
      | (extract_lets) | split)

theorem State.gdpSpdm_only (s : State) (a2) (a3) (a4) (a5) (a6) : Only [.port, .sessions, .jobs, .sec, .log, .dict, .blocks, .abandoned, .retainedWrites, .baseStaged, .reply, .draws] s (State.gdpSpdm s a2 a3 a4 a5 a6) := by
  unfold State.gdpSpdm
  repeat' (first
      | with_reducible exact Only.refl _ _ | with_reducible decide | with_reducible refine Only.after (State.frameSpdm_only ..) ?_ ?_
      | with_reducible refine Only.after (State.spdm_only ..) ?_ ?_ | with_reducible refine Only.after (State.spdmBare_only ..) ?_ ?_
      | with_reducible refine Only.after (State.frameSays_only ..) ?_ ?_ | with_reducible refine Only.after (State.failDecrypt_only ..) ?_ ?_
      | split)

theorem execDictRead_only (a1) (s : State) (t : State) (h : execDictRead a1 s = .next t) : Only [.port, .jobs] s t := by
  unfold execDictRead at h
  injection h with h; subst h
  repeat' (first | with_reducible exact Only.refl _ _ | with_reducible decide | with_reducible refine Only.after (State.dictRead_only ..) ?_ ?_)

theorem execDictWrite_only (a1) (s : State) (t : State) (h : execDictWrite a1 s = .next t) : Only [.port, .sessions, .jobs, .seg, .log, .dict, .retainedWrites, .reply] s t := by
  unfold execDictWrite at h
  injection h with h; subst h
  repeat' (first | with_reducible exact Only.refl _ _ | with_reducible decide | with_reducible refine Only.after (State.dictWrite_only ..) ?_ ?_)

theorem execDictReadBlock_only (a1) (s : State) (t : State) (h : execDictReadBlock a1 s = .next t) : Only [.port, .jobs] s t := by
  unfold execDictReadBlock at h
  injection h with h; subst h
  repeat' (first
      | with_reducible exact Only.refl _ _ | with_reducible decide | with_reducible refine Only.after (State.dictReadBlock_only ..) ?_ ?_)

theorem execDictWriteBlock_only (a1) (s : State) (t : State) (h : execDictWriteBlock a1 s = .next t) : Only [.port, .sessions, .jobs, .seg, .log, .dict, .blocks, .abandoned, .retainedWrites, .baseStaged, .reply] s t := by
  unfold execDictWriteBlock at h
  injection h with h; subst h
  repeat' (first
      | with_reducible exact Only.refl _ _ | with_reducible decide | with_reducible refine Only.after (State.dictWriteBlock_only ..) ?_ ?_)

theorem execGdpRead_only (a1) (s : State) (t : State) (h : execGdpRead a1 s = .next t) : Only [.port, .sessions, .jobs, .sec, .log, .dict, .blocks, .abandoned, .retainedWrites, .baseStaged, .reply] s t := by
  unfold execGdpRead at h
  injection h with h; subst h
  repeat' (first | with_reducible exact Only.refl _ _ | with_reducible decide | with_reducible refine Only.after (State.gdpRead_only ..) ?_ ?_)

theorem execGdpWrite_only (a1) (s : State) (t : State) (h : execGdpWrite a1 s = .next t) : Only [.port, .sessions, .jobs, .sec, .seg, .log, .dict, .blocks, .abandoned, .retainedWrites, .baseStaged, .reply] s t := by
  unfold execGdpWrite at h
  injection h with h; subst h
  repeat' (first | with_reducible exact Only.refl _ _ | with_reducible decide | with_reducible refine Only.after (State.gdpWrite_only ..) ?_ ?_)

theorem execGdpReadBlock_only (a1) (s : State) (t : State) (h : execGdpReadBlock a1 s = .next t) : Only [.port, .sessions, .jobs, .sec, .log, .dict, .blocks, .abandoned, .retainedWrites, .baseStaged, .reply] s t := by
  unfold execGdpReadBlock at h
  injection h with h; subst h
  repeat' (first
      | with_reducible exact Only.refl _ _ | with_reducible decide | with_reducible refine Only.after (State.gdpReadBlock_only ..) ?_ ?_)

theorem execGdpWriteBlock_only (a1) (s : State) (t : State) (h : execGdpWriteBlock a1 s = .next t) : Only [.port, .sessions, .jobs, .sec, .seg, .log, .dict, .blocks, .abandoned, .retainedWrites, .baseStaged, .reply] s t := by
  unfold execGdpWriteBlock at h
  injection h with h; subst h
  repeat' (first
      | with_reducible exact Only.refl _ _ | with_reducible decide | with_reducible refine Only.after (State.gdpWriteBlock_only ..) ?_ ?_)

theorem execSubscribeStart_only (a1) (s : State) (t : State) (h : execSubscribeStart a1 s = .next t) : Only [.port, .sessions, .jobs, .sec, .log, .dict, .blocks, .abandoned, .retainedWrites, .baseStaged, .reply] s t := by
  unfold execSubscribeStart at h
  injection h with h; subst h
  repeat' (first
      | with_reducible exact Only.refl _ _ | with_reducible decide | with_reducible refine Only.after (State.subscribeStart_only ..) ?_ ?_)

theorem execSubscribeStop_only (a1) (s : State) (t : State) (h : execSubscribeStop a1 s = .next t) : Only [.port, .sessions, .jobs, .sec, .log, .dict, .blocks, .abandoned, .retainedWrites, .baseStaged, .reply] s t := by
  unfold execSubscribeStop at h
  injection h with h; subst h
  repeat' (first
      | with_reducible exact Only.refl _ _ | with_reducible decide | with_reducible refine Only.after (State.subscribeStop_only ..) ?_ ?_)

theorem execSubscribeAck_only (a1) (s : State) (t : State) (h : execSubscribeAck a1 s = .next t) : Only [.port, .sessions, .jobs, .sec, .log, .dict, .blocks, .abandoned, .retainedWrites, .baseStaged, .reply] s t := by
  unfold execSubscribeAck at h
  injection h with h; subst h
  repeat' (first
      | with_reducible exact Only.refl _ _ | with_reducible decide | with_reducible refine Only.after (State.subscribeAck_only ..) ?_ ?_)

theorem execEventFrameSend_only (a1) (s : State) (t : State) (h : execEventFrameSend a1 s = .next t) : Only [.sessions, .reply] s t := by
  unfold execEventFrameSend at h
  injection h with h; subst h
  repeat' (first | with_reducible exact Only.refl _ _ | with_reducible decide | with_reducible refine Only.after (State.eventFrame_only ..) ?_ ?_)

theorem execEventFrameResend_only (a1) (s : State) (t : State) (h : execEventFrameResend a1 s = .next t) : Only [.sessions, .dict, .reply] s t := by
  unfold execEventFrameResend at h
  injection h with h; subst h
  repeat' (first
      | with_reducible exact Only.refl _ _ | with_reducible decide | with_reducible refine Only.after (State.eventResend_only ..) ?_ ?_)

theorem execBlockGapTimeout_only (a1) (a2) (s : State) (t : State) (h : execBlockGapTimeout a1 a2 s = .next t) : Only [.sec, .blocks, .abandoned] s t := by
  unfold execBlockGapTimeout at h
  injection h with h; subst h
  repeat' (first | with_reducible exact Only.refl _ _ | with_reducible decide | with_reducible refine Only.after (State.blockGap_only ..) ?_ ?_)

theorem execGdpSpdm_only (a1) (a2) (a3) (a4) (s : State) (t : State) (h : execGdpSpdm a1 a2 a3 a4 s = .next t) : Only [.port, .sessions, .jobs, .sec, .log, .dict, .blocks, .abandoned, .retainedWrites, .baseStaged, .reply, .draws] s t := by
  unfold execGdpSpdm at h
  injection h with h; subst h
  repeat' (first | with_reducible exact Only.refl _ _ | with_reducible decide | with_reducible refine Only.after (State.gdpSpdm_only ..) ?_ ?_)

theorem execNop_only (a1) (s : State) (t : State) (h : execNop a1 s = .next t) : Only [.port, .jobs] s t := by
  unfold execNop at h
  injection h with h; subst h
  repeat' (first
      | with_reducible exact Only.refl _ _ | intro _ | with_reducible decide
      | with_reducible refine Only.trans ?_ (State.runCommand_only (h6 := ?_) (hw := ?_) ..)
      | with_reducible refine Only.after (State.done_only ..) ?_ ?_)

theorem State.eventAck_only (s : State) (a2) (a3) : Only [.port, .sessions] s (State.eventAck s a2 a3) := by
  unfold State.eventAck
  repeat' (first
      | with_reducible exact Only.refl _ _ | with_reducible decide | with_reducible refine Only.after (State.mapQueues_only ..) ?_ ?_
      | with_reducible refine Only.after (State.updSession_only ..) ?_ ?_ | split)

theorem execEventAck_only (a1) (s : State) (t : State) (h : execEventAck a1 s = .next t) : Only [.port, .sessions, .jobs] s t := by
  unfold execEventAck at h
  injection h with h; subst h
  repeat' (first
      | with_reducible exact Only.refl _ _ | intro _ | with_reducible decide
      | with_reducible refine Only.trans ?_ (State.runCommand_only (h6 := ?_) (hw := ?_) ..)
      | with_reducible refine Only.after (State.done_only ..) ?_ ?_ | with_reducible refine Only.after (State.eventAck_only ..) ?_ ?_)

end Sys2Proof.Machine
end

