-- ==== Sys2Proof/Laws/OnlyFabric.lean ====
section
/-!
SUPPORT. The parts of the state the operations of Fabric may change.
-/
set_option linter.unusedTactic false
set_option linter.unusedVariables false
set_option Elab.async false
namespace Sys2Proof.Machine
open Sys2Proof

theorem State.setSuesh_only (s : State) (a2) (a3) : Only [.fabric] s (State.setSuesh s a2 a3) := by
  unfold State.setSuesh
  repeat' (first | with_reducible exact Only.refl _ _ | (extract_lets) | fail_if_no_progress with_reducible refine Only.upd ?_)

theorem State.updBringWindow_only (s : State) (a2) : Only [.bring] s (State.updBringWindow s a2) := by
  unfold State.updBringWindow
  repeat' (first | with_reducible exact Only.refl _ _ | (extract_lets) | fail_if_no_progress with_reducible refine Only.upd ?_)

theorem State.updAssoc_only (s : State) (a2) (a3) : Only [.fabric] s (State.updAssoc s a2 a3) := by
  unfold State.updAssoc
  repeat' (first | with_reducible exact Only.refl _ _ | (extract_lets) | fail_if_no_progress with_reducible refine Only.upd ?_)

theorem State.onPort_only (s : State) (a2) (a3) (a4) : Only [.fabric] s (State.onPort s a2 a3 a4) := by
  unfold State.onPort
  repeat' (first | with_reducible exact Only.refl _ _ | with_reducible decide | with_reducible refine Only.after (State.setSuesh_only ..) ?_ ?_)

theorem State.seal_only (s : State) (a2) (a3) (a4) (a5) : Only [.fabric] s (State.seal s a2 a3 a4 a5) := by
  unfold State.seal
  repeat' (first
      | with_reducible exact Only.refl _ _ | with_reducible decide | with_reducible refine Only.after (State.updAssoc_only ..) ?_ ?_
      | with_reducible refine Only.after (State.onPort_only ..) ?_ ?_)

theorem State.send_only (s : State) (a2) (a3) (a4) : Only [.fabric] s (State.send s a2 a3 a4) := by
  unfold State.send
  repeat' (first
      | with_reducible exact Only.refl _ _ | with_reducible decide | with_reducible refine Only.after (State.seal_only ..) ?_ ?_ | (extract_lets)
      | split | fail_if_no_progress with_reducible refine Only.upd ?_)

theorem State.flush_only (s : State) (a2) : Only [.fabric] s (State.flush s a2) := by
  unfold State.flush
  repeat' (first
      | with_reducible exact Only.refl _ _ | intro _ | with_reducible decide | with_reducible refine Only.after (State.send_only ..) ?_ ?_
      | with_reducible refine Only.trans ?_ (Only.foldl _ _ _ ?_) | (extract_lets) | fail_if_no_progress with_reducible refine Only.upd ?_)

theorem State.flushWaiting_only (s : State) : Only [.fabric] s (State.flushWaiting s) := by
  unfold State.flushWaiting
  repeat' (first
      | with_reducible exact Only.refl _ _ | intro _ | with_reducible decide | with_reducible refine Only.after (State.flush_only ..) ?_ ?_
      | with_reducible refine Only.trans ?_ (Only.foldl _ _ _ ?_))

theorem State.portDown_only (s : State) (a2) (a3) : Only [.port, .sessions, .log, .dict, .fabric] s (State.portDown s a2 a3) := by
  unfold State.portDown
  repeat' (first
      | with_reducible exact Only.refl _ _ | with_reducible decide | with_reducible refine Only.after (State.raise_only ..) ?_ ?_
      | with_reducible refine Only.after (State.setSuesh_only ..) ?_ ?_)

theorem State.portUp_only (s : State) (a2) (a3) : Only [.fabric] s (State.portUp s a2 a3) := by
  unfold State.portUp
  repeat' (first
      | with_reducible exact Only.refl _ _ | with_reducible decide | with_reducible refine Only.after (State.setSuesh_only ..) ?_ ?_
      | with_reducible refine Only.after (State.flushWaiting_only ..) ?_ ?_ | (extract_lets)
      | fail_if_no_progress with_reducible refine Only.upd ?_)

theorem State.laneFault_only (s : State) (a2) (a3) : Only [.port, .sessions, .log, .dict, .fabric] s (State.laneFault s a2 a3) := by
  unfold State.laneFault
  repeat' (first
      | with_reducible exact Only.refl _ _ | with_reducible decide | with_reducible refine Only.after (State.portDown_only ..) ?_ ?_
      | with_reducible refine Only.after (State.flushWaiting_only ..) ?_ ?_ | with_reducible refine Only.after (State.raise_only ..) ?_ ?_
      | with_reducible refine Only.after (State.add_only ..) ?_ ?_ | with_reducible refine Only.after (State.setSuesh_only ..) ?_ ?_
      | (extract_lets) | split)

theorem State.portRetry_only (s : State) (a2) (a3) : Only [.port, .sessions, .log, .dict, .fabric] s (State.portRetry s a2 a3) := by
  unfold State.portRetry
  repeat' (first
      | with_reducible exact Only.refl _ _ | with_reducible decide | with_reducible refine Only.after (State.raise_only ..) ?_ ?_
      | with_reducible refine Only.after (State.portUp_only ..) ?_ ?_ | with_reducible refine Only.after (State.flushWaiting_only ..) ?_ ?_
      | with_reducible refine Only.after (State.add_only ..) ?_ ?_ | with_reducible refine Only.after (State.setSuesh_only ..) ?_ ?_
      | (extract_lets) | split)

theorem State.portTrained_only (s : State) (a2) (a3) : Only [.bring, .fabric] s (State.portTrained s a2 a3) := by
  unfold State.portTrained
  repeat' (first
      | with_reducible exact Only.refl _ _ | with_reducible decide | with_reducible refine Only.after (State.updBringWindow_only ..) ?_ ?_
      | with_reducible refine Only.after (State.portUp_only ..) ?_ ?_ | split)

theorem State.portWindow_only (s : State) (a2) : Only [.port, .sessions, .bring, .log, .dict] s (State.portWindow s a2) := by
  unfold State.portWindow
  repeat' (first
      | with_reducible exact Only.refl _ _ | with_reducible decide | with_reducible refine Only.after (State.raise_only ..) ?_ ?_
      | with_reducible refine Only.after (State.updBringWindow_only ..) ?_ ?_ | split)

theorem State.formAssoc_only (s : State) (a2) (a3) : Only [.fabric, .draws] s (State.formAssoc s a2 a3) := by
  unfold State.formAssoc
  repeat' (first
      | with_reducible exact Only.refl _ _ | with_reducible decide | with_reducible refine Only.after (State.flush_only ..) ?_ ?_ | (extract_lets)
      | fail_if_no_progress with_reducible refine Only.upd ?_ | with_reducible refine Only.after (draw_only ..) ?_ ?_)

theorem State.assocSetup_only (s : State) (a2) (a3) (a4) (a5) (a6) (a7) : Only [.port, .sessions, .log, .dict, .fabric, .draws] s (State.assocSetup s a2 a3 a4 a5 a6 a7) := by
  unfold State.assocSetup
  repeat' (first
      | with_reducible exact Only.refl _ _ | with_reducible decide | with_reducible refine Only.after (State.raise_only ..) ?_ ?_
      | with_reducible refine Only.after (State.formAssoc_only ..) ?_ ?_ | (extract_lets) | split)

theorem State.linkIn_only (s : State) (a2) (a3) (a4) : Only [.dict, .fabric] s (State.linkIn s a2 a3 a4).1 := by
  unfold State.linkIn
  repeat' (first
      | with_reducible exact Only.refl _ _ | with_reducible decide | with_reducible refine Only.after (State.add_only ..) ?_ ?_
      | with_reducible refine Only.after (State.setSuesh_only ..) ?_ ?_ | with_reducible refine Only.after (State.flushWaiting_only ..) ?_ ?_
      | (extract_lets) | split | (with_reducible change Only _ _ (ite _ _ _); split))
theorem State.linkIn_only' {s : State} {a2} {a3} {a4} {x} {t} (h : State.linkIn s a2 a3 a4 = (t, x)) : Only [.dict, .fabric] s t := by
  have k := State.linkIn_only s a2 a3 a4; rw [h] at k; exact k

theorem State.tagFail_only (s : State) (a2) (a3) (a4) : Only [.port, .sessions, .log, .dict, .fabric, .draws] s (State.tagFail s a2 a3 a4) := by
  unfold State.tagFail
  repeat' (first
      | with_reducible exact Only.refl _ _ | with_reducible decide | with_reducible refine Only.after (State.updAssoc_only ..) ?_ ?_
      | with_reducible refine Only.after (State.add_only ..) ?_ ?_ | with_reducible refine Only.after (State.raise_only ..) ?_ ?_
      | with_reducible refine Only.after (State.formAssoc_only ..) ?_ ?_ | (extract_lets) | split
      | (with_reducible change Only _ _ (ite _ _ _); split))

theorem State.receive_only (s : State) (a2) (a3) (a4) (a5) (a6) : Only [.port, .sessions, .log, .dict, .fabric, .draws] s (State.receive s a2 a3 a4 a5 a6).1 := by
  unfold State.receive
  repeat' (first
      | with_reducible exact Only.refl _ _ | with_reducible decide | with_reducible refine Only.after (State.add_only ..) ?_ ?_
      | with_reducible refine Only.after (State.tagFail_only ..) ?_ ?_ | with_reducible refine Only.after (State.updAssoc_only ..) ?_ ?_
      | (extract_lets) | split | with_reducible (apply Only.trans; rotate_left; apply Only.mono; apply State.linkIn_only'; assumption))
theorem State.receive_only' {s : State} {a2} {a3} {a4} {a5} {a6} {x} {t} (h : State.receive s a2 a3 a4 a5 a6 = (t, x)) : Only [.port, .sessions, .log, .dict, .fabric, .draws] s t := by
  have k := State.receive_only s a2 a3 a4 a5 a6; rw [h] at k; exact k

theorem State.land_only (s : State) (a2) (a3) (a4) : Only [.dict, .fabric] s (State.land s a2 a3 a4) := by
  unfold State.land
  repeat' (first
      | with_reducible exact Only.refl _ _ | with_reducible decide | with_reducible refine Only.after (State.add_only ..) ?_ ?_
      | with_reducible refine Only.after (State.updAssoc_only ..) ?_ ?_)

theorem State.receiveLanding_only (s : State) (a2) (a3) (a4) (a5) (a6) : Only [.port, .sessions, .log, .dict, .fabric, .draws] s (State.receiveLanding s a2 a3 a4 a5 a6) := by
  unfold State.receiveLanding
  repeat' (first
      | with_reducible exact Only.refl _ _ | with_reducible decide | with_reducible refine Only.after (State.land_only ..) ?_ ?_ | (extract_lets)
      | split | with_reducible (apply Only.trans; rotate_left; apply Only.mono; apply State.receive_only'; assumption))

theorem State.e2eAckIn_only (s : State) (a2) (a3) (a4) (a5) : Only [.port, .sessions, .log, .dict, .fabric, .draws] s (State.e2eAckIn s a2 a3 a4 a5) := by
  unfold State.e2eAckIn
  repeat' (first
      | with_reducible exact Only.refl _ _ | with_reducible decide | with_reducible refine Only.after (State.updAssoc_only ..) ?_ ?_
      | with_reducible refine Only.after (State.flush_only ..) ?_ ?_ | (extract_lets) | split
      | with_reducible (apply Only.trans; rotate_left; apply Only.mono; apply State.receive_only'; assumption))

theorem State.e2eAckOut_only (s : State) (a2) : Only [.fabric] s (State.e2eAckOut s a2) := by
  unfold State.e2eAckOut
  repeat' (first
      | with_reducible exact Only.refl _ _ | with_reducible decide | with_reducible refine Only.after (State.send_only ..) ?_ ?_
      | with_reducible refine Only.after (State.updAssoc_only ..) ?_ ?_ | split)

theorem State.e2eResend_only (s : State) (a2) (a3) : Only [.dict, .fabric] s (State.e2eResend s a2 a3) := by
  unfold State.e2eResend
  repeat' (first
      | with_reducible exact Only.refl _ _ | with_reducible decide | with_reducible refine Only.after (State.add_only ..) ?_ ?_
      | with_reducible refine Only.after (State.updAssoc_only ..) ?_ ?_ | with_reducible refine Only.after (State.onPort_only ..) ?_ ?_ | split)

theorem State.keyUpdateOut_only (s : State) (a2) : Only [.fabric, .draws] s (State.keyUpdateOut s a2) := by
  unfold State.keyUpdateOut
  repeat' (first
      | with_reducible exact Only.refl _ _ | with_reducible decide | with_reducible refine Only.after (State.updAssoc_only ..) ?_ ?_
      | with_reducible refine Only.after (State.seal_only ..) ?_ ?_ | (extract_lets) | split
      | with_reducible refine Only.after (draw_only ..) ?_ ?_)

theorem State.keyUpdateIn_only (s : State) (a2) (a3) (a4) (a5) : Only [.port, .sessions, .log, .dict, .fabric, .draws] s (State.keyUpdateIn s a2 a3 a4 a5) := by
  unfold State.keyUpdateIn
  repeat' (first
      | with_reducible exact Only.refl _ _ | with_reducible decide | with_reducible refine Only.after (State.updAssoc_only ..) ?_ ?_
      | (extract_lets) | split | with_reducible (apply Only.trans; rotate_left; apply Only.mono; apply State.receive_only'; assumption)
      | with_reducible refine Only.after (draw_only ..) ?_ ?_)

theorem State.flitDiscarded_only (s : State) (a2) : Only [.fabric] s (State.flitDiscarded s a2) := by
  unfold State.flitDiscarded
  repeat' (first
      | with_reducible exact Only.refl _ _ | with_reducible decide | with_reducible refine Only.after (State.setSuesh_only ..) ?_ ?_
      | (extract_lets) | split)

theorem State.linkAckOut_only (s : State) (a2) : Only [.fabric] s (State.linkAckOut s a2) := by
  unfold State.linkAckOut
  repeat' (first | with_reducible exact Only.refl _ _ | with_reducible decide | with_reducible refine Only.after (State.setSuesh_only ..) ?_ ?_)

theorem State.routeEmpty_only (s : State) (a2) : Only [.port, .sessions, .log, .dict] s (State.routeEmpty s a2) := by
  unfold State.routeEmpty
  repeat' (first
      | with_reducible exact Only.refl _ _ | with_reducible decide | with_reducible refine Only.after (State.raise_only ..) ?_ ?_ | split)

theorem State.strictOrder_only (s : State) (a2) : Only [.dict, .fabric] s (State.strictOrder s a2) := by
  unfold State.strictOrder
  repeat' (first
      | with_reducible exact Only.refl _ _ | with_reducible decide | with_reducible refine Only.after (State.add_only ..) ?_ ?_
      | with_reducible refine Only.after (State.setSuesh_only ..) ?_ ?_ | (extract_lets) | split)

theorem State.creditWait_only (s : State) (a2) (a3) (a4) : Only [.port, .sessions, .log, .dict] s (State.creditWait s a2 a3 a4) := by
  unfold State.creditWait
  repeat' (first
      | with_reducible exact Only.refl _ _ | with_reducible decide | with_reducible refine Only.after (State.add_only ..) ?_ ?_
      | with_reducible refine Only.after (State.setNum_only ..) ?_ ?_ | with_reducible refine Only.after (State.raise_only ..) ?_ ?_
      | (extract_lets) | split | (with_reducible change Only _ _ (ite _ _ _); split))

theorem State.positionWrite_only (s : State) (a2) : Only [.port, .sessions, .jobs, .sec, .log, .dict, .blocks, .abandoned, .retainedWrites, .baseStaged, .reply] s (State.positionWrite s a2) := by
  unfold State.positionWrite
  repeat' (first
      | with_reducible exact Only.refl _ _ | intro _ | with_reducible decide
      | with_reducible refine Only.trans ?_ (State.viaWrite_only (h5 := ?_) (hw := ?_) ..) | (extract_lets)
      | fail_if_no_progress with_reducible refine Only.upd ?_)

theorem execNull_only (a1) (a2) (s : State) (t : State) (h : execNull a1 a2 s = .next t) : Only [.dict, .fabric] s t := by
  unfold execNull at h
  injection h with h; subst h
  repeat' (first | with_reducible exact Only.refl _ _ | with_reducible decide | with_reducible refine Only.after (State.linkIn_only ..) ?_ ?_)

theorem execHello_only (a1) (a2) (a3) (s : State) (t : State) (h : execHello a1 a2 a3 s = .next t) : Only [.dict, .fabric] s t := by
  unfold execHello at h
  injection h with h; subst h
  repeat' (first
      | with_reducible exact Only.refl _ _ | with_reducible decide | with_reducible refine Only.after (State.setSuesh_only ..) ?_ ?_
      | (extract_lets) | split | with_reducible (apply Only.trans; rotate_left; apply Only.mono; apply State.linkIn_only'; assumption))

theorem execAssoc_only (a1) (a2) (a3) (a4) (a5) (a6) (s : State) (t : State) (h : execAssoc a1 a2 a3 a4 a5 a6 s = .next t) : Only [.port, .sessions, .log, .dict, .fabric, .draws] s t := by
  unfold execAssoc at h
  injection h with h; subst h
  repeat' (first
      | with_reducible exact Only.refl _ _ | with_reducible decide | with_reducible refine Only.after (State.assocSetup_only ..) ?_ ?_ | split)

theorem execE2eAck_only (a1) (a2) (a3) (a4) (s : State) (t : State) (h : execE2eAck a1 a2 a3 a4 s = .next t) : Only [.port, .sessions, .log, .dict, .fabric, .draws] s t := by
  unfold execE2eAck at h
  injection h with h; subst h
  repeat' (first | with_reducible exact Only.refl _ _ | with_reducible decide | with_reducible refine Only.after (State.e2eAckIn_only ..) ?_ ?_)

theorem execScatterRaw_only (a1) (a2) (a3) (a4) (s : State) (t : State) (h : execScatterRaw a1 a2 a3 a4 s = .next t) : Only [.port, .sessions, .log, .dict, .fabric, .draws] s t := by
  unfold execScatterRaw at h
  injection h with h; subst h
  repeat' (first
      | with_reducible exact Only.refl _ _ | with_reducible decide | with_reducible refine Only.after (State.receiveLanding_only ..) ?_ ?_)

theorem execScatterPartial_only (a1) (a2) (a3) (a4) (s : State) (t : State) (h : execScatterPartial a1 a2 a3 a4 s = .next t) : Only [.port, .sessions, .log, .dict, .fabric, .draws] s t := by
  unfold execScatterPartial at h
  injection h with h; subst h
  repeat' (first
      | with_reducible exact Only.refl _ _ | with_reducible decide | with_reducible refine Only.after (State.receiveLanding_only ..) ?_ ?_)

theorem execReduce_only (a1) (a2) (a3) (a4) (s : State) (t : State) (h : execReduce a1 a2 a3 a4 s = .next t) : Only [.port, .sessions, .log, .dict, .fabric, .draws] s t := by
  unfold execReduce at h
  injection h with h; subst h
  repeat' (first
      | with_reducible exact Only.refl _ _ | with_reducible decide | with_reducible refine Only.after (State.receiveLanding_only ..) ?_ ?_)

theorem execBroadcast_only (a1) (a2) (a3) (a4) (s : State) (t : State) (h : execBroadcast a1 a2 a3 a4 s = .next t) : Only [.port, .sessions, .log, .dict, .fabric, .draws] s t := by
  unfold execBroadcast at h
  injection h with h; subst h
  repeat' (first
      | with_reducible exact Only.refl _ _ | with_reducible decide | with_reducible refine Only.after (State.receiveLanding_only ..) ?_ ?_)

theorem execHandoff_only (a1) (a2) (a3) (a4) (s : State) (t : State) (h : execHandoff a1 a2 a3 a4 s = .next t) : Only [.port, .sessions, .log, .dict, .fabric, .draws] s t := by
  unfold execHandoff at h
  injection h with h; subst h
  repeat' (first
      | with_reducible exact Only.refl _ _ | with_reducible decide | with_reducible refine Only.after (State.receiveLanding_only ..) ?_ ?_)

theorem execLogMirror_only (a1) (a2) (a3) (a4) (s : State) (t : State) (h : execLogMirror a1 a2 a3 a4 s = .next t) : Only [.port, .sessions, .log, .dict, .fabric, .draws] s t := by
  unfold execLogMirror at h
  injection h with h; subst h
  repeat' (first
      | with_reducible exact Only.refl _ _ | with_reducible decide | with_reducible refine Only.after (State.receiveLanding_only ..) ?_ ?_)

theorem execDeposit_only (a1) (a2) (a3) (a4) (s : State) (t : State) (h : execDeposit a1 a2 a3 a4 s = .next t) : Only [.port, .sessions, .log, .dict, .fabric, .draws] s t := by
  unfold execDeposit at h
  injection h with h; subst h
  repeat' (first
      | with_reducible exact Only.refl _ _ | with_reducible decide | with_reducible refine Only.after (State.receiveLanding_only ..) ?_ ?_)

theorem execKeyUpdate_only (a1) (a2) (a3) (a4) (s : State) (t : State) (h : execKeyUpdate a1 a2 a3 a4 s = .next t) : Only [.port, .sessions, .log, .dict, .fabric, .draws] s t := by
  unfold execKeyUpdate at h
  injection h with h; subst h
  repeat' (first
      | with_reducible exact Only.refl _ _ | with_reducible decide | with_reducible refine Only.after (State.keyUpdateIn_only ..) ?_ ?_)

theorem execKeyUpdateDue_only (a1) (s : State) (t : State) (h : execKeyUpdateDue a1 s = .next t) : Only [.fabric, .draws] s t := by
  unfold execKeyUpdateDue at h
  injection h with h; subst h
  repeat' (first
      | with_reducible exact Only.refl _ _ | with_reducible decide | with_reducible refine Only.after (State.keyUpdateOut_only ..) ?_ ?_)

theorem execLinkAckDue_only (a1) (s : State) (t : State) (h : execLinkAckDue a1 s = .next t) : Only [.fabric] s t := by
  unfold execLinkAckDue at h
  injection h with h; subst h
  repeat' (first | with_reducible exact Only.refl _ _ | with_reducible decide | with_reducible refine Only.after (State.linkAckOut_only ..) ?_ ?_)

theorem execE2eAckDue_only (a1) (s : State) (t : State) (h : execE2eAckDue a1 s = .next t) : Only [.fabric] s t := by
  unfold execE2eAckDue at h
  injection h with h; subst h
  repeat' (first | with_reducible exact Only.refl _ _ | with_reducible decide | with_reducible refine Only.after (State.e2eAckOut_only ..) ?_ ?_)

theorem execE2eResend_only (a1) (a2) (s : State) (t : State) (h : execE2eResend a1 a2 s = .next t) : Only [.dict, .fabric] s t := by
  unfold execE2eResend at h
  injection h with h; subst h
  repeat' (first | with_reducible exact Only.refl _ _ | with_reducible decide | with_reducible refine Only.after (State.e2eResend_only ..) ?_ ?_)

theorem execLaneFault_only (a1) (a2) (s : State) (t : State) (h : execLaneFault a1 a2 s = .next t) : Only [.port, .sessions, .log, .dict, .fabric] s t := by
  unfold execLaneFault at h
  injection h with h; subst h
  repeat' (first | with_reducible exact Only.refl _ _ | with_reducible decide | with_reducible refine Only.after (State.laneFault_only ..) ?_ ?_)

theorem execPortRetry_only (a1) (a2) (s : State) (t : State) (h : execPortRetry a1 a2 s = .next t) : Only [.port, .sessions, .log, .dict, .fabric] s t := by
  unfold execPortRetry at h
  injection h with h; subst h
  repeat' (first | with_reducible exact Only.refl _ _ | with_reducible decide | with_reducible refine Only.after (State.portRetry_only ..) ?_ ?_)

theorem execSueshPortTrained_only (a1) (a2) (s : State) (t : State) (h : execSueshPortTrained a1 a2 s = .next t) : Only [.bring, .fabric] s t := by
  unfold execSueshPortTrained at h
  injection h with h; subst h
  repeat' (first
      | with_reducible exact Only.refl _ _ | with_reducible decide | with_reducible refine Only.after (State.portTrained_only ..) ?_ ?_)

theorem execPortWindowExpired_only (a1) (s : State) (t : State) (h : execPortWindowExpired a1 s = .next t) : Only [.port, .sessions, .bring, .log, .dict] s t := by
  unfold execPortWindowExpired at h
  injection h with h; subst h
  repeat' (first | with_reducible exact Only.refl _ _ | with_reducible decide | with_reducible refine Only.after (State.portWindow_only ..) ?_ ?_)

theorem execRouteEmpty_only (a1) (s : State) (t : State) (h : execRouteEmpty a1 s = .next t) : Only [.port, .sessions, .log, .dict] s t := by
  unfold execRouteEmpty at h
  injection h with h; subst h
  repeat' (first | with_reducible exact Only.refl _ _ | with_reducible decide | with_reducible refine Only.after (State.routeEmpty_only ..) ?_ ?_)

theorem execCreditStrictOrder_only (a1) (s : State) (t : State) (h : execCreditStrictOrder a1 s = .next t) : Only [.dict, .fabric] s t := by
  unfold execCreditStrictOrder at h
  injection h with h; subst h
  repeat' (first
      | with_reducible exact Only.refl _ _ | with_reducible decide | with_reducible refine Only.after (State.strictOrder_only ..) ?_ ?_)

theorem execCreditWaitLong_only (a1) (a2) (a3) (s : State) (t : State) (h : execCreditWaitLong a1 a2 a3 s = .next t) : Only [.port, .sessions, .log, .dict] s t := by
  unfold execCreditWaitLong at h
  injection h with h; subst h
  repeat' (first | with_reducible exact Only.refl _ _ | with_reducible decide | with_reducible refine Only.after (State.creditWait_only ..) ?_ ?_)

theorem execFlitDiscarded_only (a1) (s : State) (t : State) (h : execFlitDiscarded a1 s = .next t) : Only [.fabric] s t := by
  unfold execFlitDiscarded at h
  injection h with h; subst h
  repeat' (first
      | with_reducible exact Only.refl _ _ | with_reducible decide | with_reducible refine Only.after (State.flitDiscarded_only ..) ?_ ?_)

theorem execFabricPositionWrite_only (a1) (s : State) (t : State) (h : execFabricPositionWrite a1 s = .next t) : Only [.port, .sessions, .jobs, .sec, .log, .dict, .blocks, .abandoned, .retainedWrites, .baseStaged, .reply] s t := by
  unfold execFabricPositionWrite at h
  injection h with h; subst h
  repeat' (first
      | with_reducible exact Only.refl _ _ | with_reducible decide | with_reducible refine Only.after (State.positionWrite_only ..) ?_ ?_)

end Sys2Proof.Machine
end

