-- ==== Sys2Proof/Laws/OnlyChannels.lean ====
section
/-!
SUPPORT. The parts of the state the operations of Channels may change.
-/
set_option linter.unusedTactic false
set_option linter.unusedVariables false
set_option Elab.async false
namespace Sys2Proof.Machine
open Sys2Proof

theorem State.setChan_only (s : State) (a2) (a3) : Only [.dma] s (State.setChan s a2 a3) := by
  unfold State.setChan
  repeat' (first | with_reducible exact Only.refl _ _ | fail_if_no_progress with_reducible refine Only.upd ?_)

theorem State.chanEnd_only (s : State) (a2) : Only [.dma] s (State.chanEnd s a2) := by
  unfold State.chanEnd
  repeat' (first
      | with_reducible exact Only.refl _ _ | with_reducible decide | with_reducible refine Only.after (State.setChan_only ..) ?_ ?_ | (extract_lets)
      | fail_if_no_progress with_reducible refine Only.upd ?_)

theorem State.dmaPost_only (s : State) (a2) (a3) : Only [.dma] s (State.dmaPost s a2 a3) := by
  unfold State.dmaPost
  repeat' (first
      | with_reducible exact Only.refl _ _ | with_reducible decide | with_reducible refine Only.after (State.setChan_only ..) ?_ ?_ | (extract_lets)
      | split)

theorem State.abortOutcome_only (s : State) (a2) (a3) : Only [.tiers, .dma, .tileUnits] s (State.abortOutcome s a2 a3) := by
  unfold State.abortOutcome
  repeat' (first
      | with_reducible exact Only.refl _ _ | with_reducible decide | with_reducible refine Only.after (State.dmaPost_only ..) ?_ ?_ | (extract_lets)
      | split | fail_if_no_progress with_reducible refine Only.upd ?_)

/-- The end of picked descriptors changes the channels and what their functions do with them (R305, R306). -/
theorem State.endDma_only_of {w : List Part} (hd : Part.within [.dma] w = true) (s : State) (st : ChanState → Bool) (f : DmaDesc → Bool)
    (h : ∀ (s : State) (c : Nat) (d : DmaDesc), f d = true → Only w s (s.abortOutcome c d)) : Only w s (s.endDma st f) := by
  unfold State.endDma
  refine Only.foldl _ _ _ fun s c => ?_
  extract_lets x t
  split
  · have ht : Only w s t := (State.setChan_only ..).mono hd
    split
    · split
      · next hf => exact (ht.trans ((State.chanEnd_only ..).mono hd)).trans (h _ _ _ hf)
      · exact ht
    · exact ht
  · exact Only.refl _ _
theorem State.abortOutcome_ring (s : State) (c : Nat) (d : DmaDesc) (h : d.func = 0) : Only [.dma] s (s.abortOutcome c d) := by
  unfold State.abortOutcome
  simp only [h]
  split
  · exact Only.refl _ _
  · exact State.dmaPost_only ..
theorem State.abortOutcome_landing (s : State) (c : Nat) (d : DmaDesc) (h : d.func = 2) : Only [.tileUnits] s (s.abortOutcome c d) := by
  unfold State.abortOutcome
  simp only [h]
  exact Only.upd (Only.refl _ _)
theorem State.abortOutcome_migrate (s : State) (c : Nat) (d : DmaDesc) (h : d.func = 3) : Only [.tiers] s (s.abortOutcome c d) := by
  unfold State.abortOutcome
  simp only [h]
  exact Only.upd (Only.refl _ _)
theorem State.endDma_only (s : State) (a2) (a3) : Only [.tiers, .dma, .tileUnits] s (s.endDma a2 a3) :=
  State.endDma_only_of (by decide) s a2 a3 fun s c d _ => State.abortOutcome_only s c d

end Sys2Proof.Machine
end

