-- ==== Sys2Proof/Laws/OnlyHostPort.lean ====
section
/-!
SUPPORT. The parts of the state the operations of HostPort may change.
-/
set_option linter.unusedTactic false
set_option linter.unusedVariables false
set_option Elab.async false
namespace Sys2Proof.Machine
open Sys2Proof

theorem State.slotWrite_only (s : State) (a2) (a3) (a4) : Only [.port, .dict] s (State.slotWrite s a2 a3 a4) := by
  unfold State.slotWrite
  repeat' (first
      | with_reducible exact Only.refl _ _ | with_reducible decide | with_reducible refine Only.after (State.updQueue_only ..) ?_ ?_
      | with_reducible refine Only.after (State.add_only ..) ?_ ?_ | (extract_lets) | split)

theorem State.doorbell_only (s : State) (a2) (a3) : Only [.port, .dict] s (State.doorbell s a2 a3) := by
  unfold State.doorbell
  repeat' (first
      | with_reducible exact Only.refl _ _ | with_reducible decide | with_reducible refine Only.after (State.updQueue_only ..) ?_ ?_
      | with_reducible refine Only.after (State.add_only ..) ?_ ?_ | (extract_lets) | split)

theorem State.addInFlight_only (s : State) (a2) (a3) : Only [.port] s (State.addInFlight s a2 a3) := by
  unfold State.addInFlight
  repeat' (first | with_reducible exact Only.refl _ _ | (extract_lets) | fail_if_no_progress with_reducible refine Only.upd ?_)

theorem State.wholeCommand_only (s : State) (a2) (a3) (a4) : Only [.port] s (State.wholeCommand s a2 a3 a4) := by
  unfold State.wholeCommand
  repeat' (first
      | with_reducible exact Only.refl _ _ | with_reducible decide | with_reducible refine Only.after (State.refuse_only ..) ?_ ?_
      | with_reducible refine Only.after (State.updInFlight_only ..) ?_ ?_ | with_reducible refine Only.after (State.addInFlight_only ..) ?_ ?_
      | split)

theorem State.early_only (s : State) (a2) (a3) (a4) : Only [.port] s (State.early s a2 a3 a4) := by
  unfold State.early
  repeat' (first
      | with_reducible exact Only.refl _ _ | with_reducible decide | with_reducible refine Only.after (State.updQueue_only ..) ?_ ?_
      | with_reducible refine Only.after (State.answerBare_only ..) ?_ ?_ | (extract_lets) | split)

theorem State.chainPacket_only (s : State) (a2) (a3) (a4) : Only [.port] s (State.chainPacket s a2 a3 a4) := by
  unfold State.chainPacket
  repeat' (first
      | with_reducible exact Only.refl _ _ | with_reducible decide | with_reducible refine Only.after (State.updQueue_only ..) ?_ ?_
      | with_reducible refine Only.after (State.refuse_only ..) ?_ ?_ | with_reducible refine Only.after (State.releaseRoom_only ..) ?_ ?_
      | with_reducible refine Only.after (State.updInFlight_only ..) ?_ ?_ | with_reducible refine Only.after (State.wholeCommand_only ..) ?_ ?_
      | (extract_lets) | split)

theorem State.openChain_only (s : State) (a2) (a3) : Only [.port] s (State.openChain s a2 a3) := by
  unfold State.openChain
  repeat' (first
      | with_reducible exact Only.refl _ _ | with_reducible decide | with_reducible refine Only.after (State.refuse_only ..) ?_ ?_
      | with_reducible refine Only.after (State.updQueue_only ..) ?_ ?_ | with_reducible refine Only.after (State.addInFlight_only ..) ?_ ?_
      | (extract_lets) | split)

theorem State.checkPacket_only (s : State) (a2) (a3) (a4) (a5) : Only [.port, .dict] s (State.checkPacket s a2 a3 a4 a5) := by
  unfold State.checkPacket
  repeat' (first
      | with_reducible exact Only.refl _ _ | with_reducible decide | with_reducible refine Only.after (State.updQueue_only ..) ?_ ?_
      | with_reducible refine Only.after (State.early_only ..) ?_ ?_ | with_reducible refine Only.after (State.add_only ..) ?_ ?_
      | with_reducible refine Only.after (State.releaseRoom_only ..) ?_ ?_ | with_reducible refine Only.after (State.chainPacket_only ..) ?_ ?_
      | with_reducible refine Only.after (State.openChain_only ..) ?_ ?_ | with_reducible refine Only.after (State.wholeCommand_only ..) ?_ ?_
      | (extract_lets) | split | (with_reducible change Only _ _ (ite _ _ _); split))

theorem State.packetTake_only (s : State) (a2) (a3) : Only [.port, .dict] s (State.packetTake s a2 a3) := by
  unfold State.packetTake
  repeat' (first
      | with_reducible exact Only.refl _ _ | with_reducible decide | with_reducible refine Only.after (State.checkPacket_only ..) ?_ ?_
      | with_reducible refine Only.after (State.updQueue_only ..) ?_ ?_ | (extract_lets) | split)

theorem State.dropChain_only (s : State) (a2) : Only [.port] s (State.dropChain s a2) := by
  unfold State.dropChain
  repeat' (first
      | with_reducible exact Only.refl _ _ | with_reducible decide | with_reducible refine Only.after (State.refuseWith_only ..) ?_ ?_
      | with_reducible refine Only.after (State.updQueue_only ..) ?_ ?_ | split)

theorem State.registerWrite_only (s : State) (a2) (a3) (a4) : Only [.port] s (State.registerWrite s a2 a3 a4) := by
  unfold State.registerWrite
  repeat' (first
      | with_reducible exact Only.refl _ _ | with_reducible decide | with_reducible refine Only.after (State.updQueue_only ..) ?_ ?_ | split)

theorem State.headWrite_only (s : State) (a2) (a3) : Only [.port] s (State.headWrite s a2 a3) := by
  unfold State.headWrite
  repeat' (first
      | with_reducible exact Only.refl _ _ | with_reducible decide | with_reducible refine Only.after (State.updQueue_only ..) ?_ ?_ | split)

theorem State.responseWrite_only (s : State) (a2) : Only [.port, .jobs, .dict] s (State.responseWrite s a2) := by
  unfold State.responseWrite
  repeat' (first
      | with_reducible exact Only.refl _ _ | with_reducible decide | with_reducible refine Only.after (State.setQueue_only ..) ?_ ?_
      | with_reducible refine Only.after (State.flushAll_only ..) ?_ ?_ | with_reducible refine Only.after (State.dropInFlight_only ..) ?_ ?_
      | with_reducible refine Only.after (State.add_only ..) ?_ ?_ | (extract_lets) | split)

theorem State.ringFullSecond_only (s : State) (a2) : Only [.port, .sessions, .log, .dict] s (State.ringFullSecond s a2) := by
  unfold State.ringFullSecond
  repeat' (first
      | with_reducible exact Only.refl _ _ | with_reducible decide | with_reducible refine Only.after (State.raise_only ..) ?_ ?_
      | with_reducible refine Only.after (State.setQueue_only ..) ?_ ?_ | (extract_lets) | split)

theorem State.portReset_only (s : State) : Only [.port, .dma] s (State.portReset s) := by
  unfold State.portReset
  extract_lets t u
  have ht : Only [.port, .dma] s t := Only.foldl _ _ _ fun s q => (State.dropChain_only s q).mono (by decide)
  have hu : Only [.port, .dma] s u := Only.after (State.mapQueues_only ..) ht (by decide)
  refine (Only.upd hu).trans (State.endDma_only_of (by decide) _ _ _ fun s c d h => ?_)
  exact (State.abortOutcome_ring s c d (by simpa using h)).mono (by decide)

theorem State.linkTrained_only (s : State) (a2) (a3) : Only [.port] s (State.linkTrained s a2 a3) := by
  unfold State.linkTrained
  repeat' (first | with_reducible exact Only.refl _ _ | (extract_lets) | split | fail_if_no_progress with_reducible refine Only.upd ?_)

theorem State.linkDegraded_only (s : State) (a2) (a3) : Only [.port, .sessions, .log, .dict] s (State.linkDegraded s a2 a3) := by
  unfold State.linkDegraded
  repeat' (first
      | with_reducible exact Only.refl _ _ | with_reducible decide | with_reducible refine Only.after (State.raise_only ..) ?_ ?_
      | with_reducible refine Only.after (State.add_only ..) ?_ ?_ | (extract_lets) | split | fail_if_no_progress with_reducible refine Only.upd ?_)

theorem execDoorbell_only (a1) (a2) (s : State) (t : State) (h : execDoorbell a1 a2 s = .next t) : Only [.port, .dict] s t := by
  unfold execDoorbell at h
  injection h with h; subst h
  repeat' (first | with_reducible exact Only.refl _ _ | with_reducible decide | with_reducible refine Only.after (State.doorbell_only ..) ?_ ?_)

theorem execPacketSlotWrite_only (a1) (a2) (a3) (s : State) (t : State) (h : execPacketSlotWrite a1 a2 a3 s = .next t) : Only [.port, .dict] s t := by
  unfold execPacketSlotWrite at h
  injection h with h; subst h
  repeat' (first | with_reducible exact Only.refl _ _ | with_reducible decide | with_reducible refine Only.after (State.slotWrite_only ..) ?_ ?_)

theorem execPacketTake_only (a1) (a2) (s : State) (t : State) (h : execPacketTake a1 a2 s = .next t) : Only [.port, .dict] s t := by
  unfold execPacketTake at h
  injection h with h; subst h
  repeat' (first | with_reducible exact Only.refl _ _ | with_reducible decide | with_reducible refine Only.after (State.packetTake_only ..) ?_ ?_)

theorem execRingEnable_only (a1) (a2) (s : State) (t : State) (h : execRingEnable a1 a2 s = .next t) : Only [.port] s t := by
  unfold execRingEnable at h
  injection h with h; subst h
  repeat' (first
      | with_reducible exact Only.refl _ _ | with_reducible decide | with_reducible refine Only.after (State.updQueue_only ..) ?_ ?_ | split)

theorem execRingHead_only (a1) (a2) (s : State) (t : State) (h : execRingHead a1 a2 s = .next t) : Only [.port] s t := by
  unfold execRingHead at h
  injection h with h; subst h
  repeat' (first | with_reducible exact Only.refl _ _ | with_reducible decide | with_reducible refine Only.after (State.headWrite_only ..) ?_ ?_)

theorem execQueueRegisterWrite_only (a1) (a2) (a3) (s : State) (t : State) (h : execQueueRegisterWrite a1 a2 a3 s = .next t) : Only [.port] s t := by
  unfold execQueueRegisterWrite at h
  injection h with h; subst h
  repeat' (first
      | with_reducible exact Only.refl _ _ | with_reducible decide | with_reducible refine Only.after (State.registerWrite_only ..) ?_ ?_)

theorem execResponseWrite_only (a1) (s : State) (t : State) (h : execResponseWrite a1 s = .next t) : Only [.port, .jobs, .dict] s t := by
  unfold execResponseWrite at h
  injection h with h; subst h
  repeat' (first
      | with_reducible exact Only.refl _ _ | with_reducible decide | with_reducible refine Only.after (State.responseWrite_only ..) ?_ ?_)

theorem execRingFull_only (a1) (s : State) (t : State) (h : execRingFull a1 s = .next t) : Only [.port, .sessions, .log, .dict] s t := by
  unfold execRingFull at h
  injection h with h; subst h
  repeat' (first
      | with_reducible exact Only.refl _ _ | with_reducible decide | with_reducible refine Only.after (State.ringFullSecond_only ..) ?_ ?_)

theorem execChainGapTimeout_only (a1) (s : State) (t : State) (h : execChainGapTimeout a1 s = .next t) : Only [.port] s t := by
  unfold execChainGapTimeout at h
  injection h with h; subst h
  repeat' (first | with_reducible exact Only.refl _ _ | with_reducible decide | with_reducible refine Only.after (State.dropChain_only ..) ?_ ?_)

theorem execPerstAssert_only (s : State) (t : State) (h : execPerstAssert s = .next t) : Only [.port, .dma] s t := by
  unfold execPerstAssert at h
  injection h with h; subst h
  repeat' (first
      | with_reducible exact Only.refl _ _ | with_reducible decide | with_reducible refine Only.after (State.portReset_only ..) ?_ ?_
      | (extract_lets) | fail_if_no_progress with_reducible refine Only.upd ?_)

theorem execPerstDeassert_only (s : State) (t : State) (h : execPerstDeassert s = .next t) : Only [.port] s t := by
  unfold execPerstDeassert at h
  injection h with h; subst h
  repeat' (first | with_reducible exact Only.refl _ _ | (extract_lets) | fail_if_no_progress with_reducible refine Only.upd ?_)

theorem execCxlLinkTrained_only (a1) (a2) (s : State) (t : State) (h : execCxlLinkTrained a1 a2 s = .next t) : Only [.port] s t := by
  unfold execCxlLinkTrained at h
  injection h with h; subst h
  repeat' (first
      | with_reducible exact Only.refl _ _ | with_reducible decide | with_reducible refine Only.after (State.linkTrained_only ..) ?_ ?_)

theorem execLinkDegraded_only (a1) (a2) (s : State) (t : State) (h : execLinkDegraded a1 a2 s = .next t) : Only [.port, .sessions, .log, .dict] s t := by
  unfold execLinkDegraded at h
  injection h with h; subst h
  repeat' (first
      | with_reducible exact Only.refl _ _ | with_reducible decide | with_reducible refine Only.after (State.linkDegraded_only ..) ?_ ?_)

theorem execIdeKm_only (a1) (s : State) (t : State) (h : execIdeKm a1 s = .next t) : Only [.port] s t := by
  unfold execIdeKm at h
  injection h with h; subst h
  repeat' (first | with_reducible exact Only.refl _ _ | (extract_lets) | split | fail_if_no_progress with_reducible refine Only.upd ?_)

end Sys2Proof.Machine
end

