-- ==== Sys2Proof/Laws/OnlyAgeing.lean ====
section
/-!
SUPPORT. The parts of the state the operations of Ageing may change.
-/
set_option linter.unusedTactic false
set_option linter.unusedVariables false
set_option Elab.async false
namespace Sys2Proof.Machine
open Sys2Proof

theorem State.pathMargin_only (s : State) (a2) (a3) : Only [.port, .sessions, .day, .log, .dict] s (State.pathMargin s a2 a3) := by
  unfold State.pathMargin
  repeat' (first
      | with_reducible exact Only.refl _ _ | with_reducible decide | with_reducible refine Only.after (State.setNum_only ..) ?_ ?_
      | with_reducible refine Only.after (State.raise_only ..) ?_ ?_ | (extract_lets) | split
      | fail_if_no_progress with_reducible refine Only.upd ?_)

theorem State.dropCxlLane_only (s : State) : Only [.port, .sessions, .log, .dict, .dma] s (State.dropCxlLane s) := by
  unfold State.dropCxlLane
  repeat' (first
      | with_reducible exact Only.refl _ _ | with_reducible decide | with_reducible refine Only.after (State.portReset_only ..) ?_ ?_
      | with_reducible refine Only.after (State.linkDegraded_only ..) ?_ ?_ | split)

theorem State.setMargin_only (s : State) (a2) (a3) : Only [.dict] s (State.setMargin s a2 a3) := by
  unfold State.setMargin
  repeat' (first | with_reducible exact Only.refl _ _ | with_reducible decide | with_reducible refine Only.after (State.setEntry_only ..) ?_ ?_)

theorem State.eyeScan_only (s : State) (a2) (a3) (a4) : Only [.port, .sessions, .day, .log, .dict, .dma, .fabric] s (State.eyeScan s a2 a3 a4) := by
  unfold State.eyeScan
  repeat' (first
      | with_reducible exact Only.refl _ _ | with_reducible decide | with_reducible refine Only.after (State.setMargin_only ..) ?_ ?_
      | with_reducible refine Only.after (State.raise_only ..) ?_ ?_ | with_reducible refine Only.after (State.laneFault_only ..) ?_ ?_
      | with_reducible refine Only.after (State.dropCxlLane_only ..) ?_ ?_ | (extract_lets) | split
      | fail_if_no_progress with_reducible refine Only.upd ?_)

theorem State.retentionTest_only (s : State) (a2) (a3) (a4) (a5) : Only [.port, .sessions, .day, .log, .dict] s (State.retentionTest s a2 a3 a4 a5) := by
  unfold State.retentionTest
  repeat' (first
      | with_reducible exact Only.refl _ _ | with_reducible decide | with_reducible refine Only.after (State.raise_only ..) ?_ ?_ | (extract_lets)
      | split | fail_if_no_progress with_reducible refine Only.upd ?_)

theorem State.daily_only (s : State) (a2) (a3) : Only [.port, .sessions, .day, .flash, .log, .dict] s (State.daily s a2 a3) := by
  unfold State.daily
  repeat' (first
      | with_reducible exact Only.refl _ _ | with_reducible decide | with_reducible refine Only.after (State.setNum_only ..) ?_ ?_
      | with_reducible refine Only.after (State.setEntry_only ..) ?_ ?_ | with_reducible refine Only.after (State.raise_only ..) ?_ ?_
      | (extract_lets) | split | fail_if_no_progress with_reducible refine Only.upd ?_)

theorem execPathMarginEval_only (a1) (a2) (s : State) (t : State) (h : execPathMarginEval a1 a2 s = .next t) : Only [.port, .sessions, .day, .log, .dict] s t := by
  unfold execPathMarginEval at h
  injection h with h; subst h
  repeat' (first | with_reducible exact Only.refl _ _ | with_reducible decide | with_reducible refine Only.after (State.pathMargin_only ..) ?_ ?_)

theorem execEyeScan_only (a1) (a2) (a3) (s : State) (t : State) (h : execEyeScan a1 a2 a3 s = .next t) : Only [.port, .sessions, .day, .log, .dict, .dma, .fabric] s t := by
  unfold execEyeScan at h
  injection h with h; subst h
  repeat' (first | with_reducible exact Only.refl _ _ | with_reducible decide | with_reducible refine Only.after (State.eyeScan_only ..) ?_ ?_)

theorem execRetentionTest_only (a1) (a2) (a3) (a4) (s : State) (t : State) (h : execRetentionTest a1 a2 a3 a4 s = .next t) : Only [.port, .sessions, .day, .log, .dict] s t := by
  unfold execRetentionTest at h
  injection h with h; subst h
  repeat' (first
      | with_reducible exact Only.refl _ _ | with_reducible decide | with_reducible refine Only.after (State.retentionTest_only ..) ?_ ?_)

theorem execDailyPrediction_only (a1) (a2) (s : State) (t : State) (h : execDailyPrediction a1 a2 s = .next t) : Only [.port, .sessions, .day, .flash, .log, .dict] s t := by
  unfold execDailyPrediction at h
  injection h with h; subst h
  repeat' (first | with_reducible exact Only.refl _ _ | with_reducible decide | with_reducible refine Only.after (State.daily_only ..) ?_ ?_)

end Sys2Proof.Machine
end

