-- ==== Sys2Proof/Laws/OnlyStore.lean ====
section
/-!
SUPPORT. The parts of the state the operations of Store may change.
-/
set_option linter.unusedTactic false
set_option linter.unusedVariables false
set_option Elab.async false
namespace Sys2Proof.Machine
open Sys2Proof

theorem State.updStep_only (s : State) (a2) (a3) (a4) : Only [.jobs] s (State.updStep s a2 a3 a4) := by
  unfold State.updStep
  repeat' (first | with_reducible exact Only.refl _ _ | with_reducible decide | with_reducible refine Only.after (State.updJob_only ..) ?_ ?_)

theorem State.updBody_only (s : State) (a2) (a3) : Only [.jobs] s (State.updBody s a2 a3) := by
  unfold State.updBody
  repeat' (first | with_reducible exact Only.refl _ _ | with_reducible decide | with_reducible refine Only.after (State.updJob_only ..) ?_ ?_)

theorem State.tally_only (s : State) (a2) (a3) (a4) (a5) (a6) : Only [.jobs] s (State.tally s a2 a3 a4 a5 a6) := by
  unfold State.tally
  repeat' (first
      | with_reducible exact Only.refl _ _ | with_reducible decide | with_reducible refine Only.after (State.updStep_only ..) ?_ ?_ | split)

theorem State.count_only (s : State) (a2) (a3) (a4) (a5) (a6) : Only [.jobs] s (State.count s a2 a3 a4 a5 a6) := by
  unfold State.count
  repeat' (first
      | with_reducible exact Only.refl _ _ | with_reducible decide | with_reducible refine Only.after (State.updBody_only ..) ?_ ?_ | split)

theorem State.updTiles_only (s : State) (a2) : Only [.tiers] s (State.updTiles s a2) := by
  unfold State.updTiles
  repeat' (first | with_reducible exact Only.refl _ _ | (extract_lets) | fail_if_no_progress with_reducible refine Only.upd ?_)

theorem State.updTile_only (s : State) (a2) (a3) : Only [.tiers] s (State.updTile s a2 a3) := by
  unfold State.updTile
  repeat' (first | with_reducible exact Only.refl _ _ | with_reducible decide | with_reducible refine Only.after (State.updTiles_only ..) ?_ ?_)

theorem State.touch_only (s : State) (a2) (a3) : Only [.tiers] s (State.touch s a2 a3) := by
  unfold State.touch
  repeat' (first
      | with_reducible exact Only.refl _ _ | with_reducible decide | with_reducible refine Only.after (State.updTile_only ..) ?_ ?_
      | with_reducible refine Only.after (State.updTiles_only ..) ?_ ?_ | (extract_lets) | split)

theorem State.touchAll_only (s : State) (a2) (a3) : Only [.tiers] s (State.touchAll s a2 a3) := by
  unfold State.touchAll
  repeat' (first
      | with_reducible exact Only.refl _ _ | intro _ | with_reducible decide | with_reducible refine Only.after (State.touch_only ..) ?_ ?_
      | with_reducible refine Only.trans ?_ (Only.foldl _ _ _ ?_))

theorem State.noteFar_only (s : State) (a2) : Only [.tiers] s (State.noteFar s a2) := by
  unfold State.noteFar
  repeat' (first | with_reducible exact Only.refl _ _ | (extract_lets) | fail_if_no_progress with_reducible refine Only.upd ?_)

theorem State.putTile_only (s : State) (a2) (a3) (a4) (a5) : Only [.tiers, .draws] s (State.putTile s a2 a3 a4 a5) := by
  unfold State.putTile
  repeat' (first
      | with_reducible exact Only.refl _ _ | with_reducible decide | with_reducible refine Only.after (State.updTiles_only ..) ?_ ?_
      | (extract_lets) | with_reducible refine Only.after (draw_only ..) ?_ ?_)

theorem State.putAll_only (s : State) (a2) (a3) : Only [.tiers, .draws] s (State.putAll s a2 a3) := by
  unfold State.putAll
  repeat' (first
      | with_reducible exact Only.refl _ _ | intro _ | with_reducible decide | with_reducible refine Only.after (State.putTile_only ..) ?_ ?_
      | with_reducible refine Only.trans ?_ (Only.foldl _ _ _ ?_))

theorem State.freeTiles_only (s : State) (a2) : Only [.tiers] s (State.freeTiles s a2) := by
  unfold State.freeTiles
  repeat' (first | with_reducible exact Only.refl _ _ | with_reducible decide | with_reducible refine Only.after (State.updTiles_only ..) ?_ ?_)

theorem State.carrelWrite_only (s : State) (a2) (a3) (a4) : Only [.carrel, .carrelPoison] s (State.carrelWrite s a2 a3 a4) := by
  unfold State.carrelWrite
  repeat' (first | with_reducible exact Only.refl _ _ | fail_if_no_progress with_reducible refine Only.upd ?_)

theorem State.carrelZero_only (s : State) (a2) (a3) (a4) : Only [.carrel, .carrelPoison] s (State.carrelZero s a2 a3 a4) := by
  unfold State.carrelZero
  repeat' (first | with_reducible exact Only.refl _ _ | (extract_lets) | fail_if_no_progress with_reducible refine Only.upd ?_)

theorem State.updUnit_only (s : State) (a2) (a3) : Only [.tileUnits] s (State.updUnit s a2 a3) := by
  unfold State.updUnit
  repeat' (first | with_reducible exact Only.refl _ _ | fail_if_no_progress with_reducible refine Only.upd ?_)

end Sys2Proof.Machine
end

