-- ==== Sys2Proof/Laws/OnlyExec.lean ====
section
/-!
SUPPORT. The parts of the state the operations of Exec may change.
-/
set_option linter.unusedTactic false
set_option linter.unusedVariables false
set_option Elab.async false
namespace Sys2Proof.Machine
open Sys2Proof

theorem State.updWork_only (s : State) (a2) (a3) (a4) : Only [.tileUnits] s (State.updWork s a2 a3 a4) := by
  unfold State.updWork
  repeat' (first | with_reducible exact Only.refl _ _ | with_reducible decide | with_reducible refine Only.after (State.updUnit_only ..) ?_ ?_)

theorem State.settle_only (s : State) (a2) (a3) : Only [.jobs, .tileUnits] s (State.settle s a2 a3) := by
  unfold State.settle
  repeat' (first
      | with_reducible exact Only.refl _ _ | with_reducible decide | with_reducible refine Only.after (State.updUnit_only ..) ?_ ?_
      | with_reducible refine Only.after (State.updStep_only ..) ?_ ?_ | (extract_lets) | split)

theorem State.issue_only (s : State) (a2) (a3) (a4) (g5) (a6) {w : List Part} (h5 : ∀ y0 x, Only w x (g5 y0 x)) (hw : Part.within [.tileUnits] w = true) : Only w s (State.issue s a2 a3 a4 g5 a6) := by
  unfold State.issue
  repeat' (first
      | with_reducible exact Only.refl _ _ | with_reducible assumption | with_reducible refine Only.after (State.updUnit_only ..) ?_ ?_
      | with_reducible refine Only.after (State.updWork_only ..) ?_ ?_ | with_reducible refine Only.trans ?_ (h5 ..) | (extract_lets) | split)

theorem State.issuePlain_only (s : State) (a2) (a3) (a4) (g5) {w : List Part} (h5 : ∀ y0 x, Only w x (g5 y0 x)) (hw : Part.within [.tileUnits] w = true) : Only w s (State.issuePlain s a2 a3 a4 g5) := by
  unfold State.issuePlain
  repeat' (first
      | with_reducible exact Only.refl _ _ | with_reducible assumption
      | with_reducible refine Only.trans ?_ (State.issue_only (h5 := ?_) (hw := ?_) ..))

theorem State.trace_only (s : State) (a2) (a3) (a4) : Only [.traces] s (State.trace s a2 a3 a4) := by
  unfold State.trace
  repeat' (first | with_reducible exact Only.refl _ _ | split | fail_if_no_progress with_reducible refine Only.upd ?_)

theorem State.complete_only (s : State) (a2) (a3) (a4) : Only [.jobs, .tileUnits, .traces] s (State.complete s a2 a3 a4) := by
  unfold State.complete
  repeat' (first
      | with_reducible exact Only.refl _ _ | with_reducible decide | with_reducible refine Only.after (State.trace_only ..) ?_ ?_
      | with_reducible refine Only.after (State.settle_only ..) ?_ ?_ | with_reducible refine Only.after (State.updWork_only ..) ?_ ?_
      | (extract_lets) | split)

theorem Ctx.waitSpace_only (a1) (a2) (s : State) : Only [.jobs, .dict] s (Ctx.waitSpace a1 a2 s) := by
  unfold Ctx.waitSpace
  repeat' (first
      | with_reducible exact Only.refl _ _ | with_reducible decide | with_reducible refine Only.after (State.add_only ..) ?_ ?_
      | with_reducible refine Only.after (State.updStep_only ..) ?_ ?_ | split)

theorem Ctx.spaceFound_only (a1) (s : State) : Only [.jobs] s (Ctx.spaceFound a1 s) := by
  unfold Ctx.spaceFound
  repeat' (first
      | with_reducible exact Only.refl _ _ | with_reducible decide | with_reducible refine Only.after (State.updStep_only ..) ?_ ?_ | split)

theorem State.issueSpace_only (s : State) (a2) (a3) (a4) (a5) (a6) (g7) {w : List Part} (h7 : ∀ y0 x, Only w x (g7 y0 x)) (hw : Part.within [.jobs, .dict, .tileUnits] w = true) : Only w s (State.issueSpace s a2 a3 a4 a5 a6 g7) := by
  unfold State.issueSpace
  repeat' (first
      | with_reducible exact Only.refl _ _ | intro _ | exact Part.within_trans (by decide) hw
      | with_reducible refine Only.after (Ctx.waitSpace_only ..) ?_ ?_
      | with_reducible refine Only.trans ?_ (State.issue_only (h5 := ?_) (hw := ?_) ..)
      | with_reducible refine Only.after (Ctx.spaceFound_only ..) ?_ ?_ | with_reducible refine Only.trans ?_ (h7 ..) | split)

theorem State.clearPhase_only (s : State) (a2) (a3) : Only [.tileUnits] s (State.clearPhase s a2 a3) := by
  unfold State.clearPhase
  repeat' (first | with_reducible exact Only.refl _ _ | fail_if_no_progress with_reducible refine Only.upd ?_)

theorem State.wakeWaits_only (s : State) (a2) : Only [.tileUnits] s (State.wakeWaits s a2) := by
  unfold State.wakeWaits
  repeat' (first | with_reducible exact Only.refl _ _ | with_reducible decide | with_reducible refine Only.after (State.updUnit_only ..) ?_ ?_)

theorem State.wakeAll_only (s : State) : Only [.tileUnits] s (State.wakeAll s) := by
  unfold State.wakeAll
  repeat' (first
      | with_reducible exact Only.refl _ _ | intro _ | with_reducible decide | with_reducible refine Only.after (State.wakeWaits_only ..) ?_ ?_
      | with_reducible refine Only.trans ?_ (Only.foldl _ _ _ ?_))

theorem Ctx.report_only (a1) (a2) (a3) (s : State) : Only [.jobs] s (Ctx.report a1 a2 a3 s) := by
  unfold Ctx.report
  repeat' (first
      | with_reducible exact Only.refl _ _ | with_reducible decide | with_reducible refine Only.after (State.updStep_only ..) ?_ ?_ | split)

theorem Ctx.count_only (a1) (a2) (a3) (a4) (s : State) : Only [.jobs] s (Ctx.count a1 a2 a3 a4 s) := by
  unfold Ctx.count
  repeat' (first
      | with_reducible exact Only.refl _ _ | with_reducible decide | with_reducible refine Only.after (State.tally_only ..) ?_ ?_ | split)

theorem Ctx.noteDecode_only (a1) (a2) (a3) (a4) (s : State) : Only [.port, .sessions, .jobs, .log, .dict] s (Ctx.noteDecode a1 a2 a3 a4 s) := by
  unfold Ctx.noteDecode
  repeat' (first
      | with_reducible exact Only.refl _ _ | with_reducible decide | with_reducible refine Only.after (State.count_only ..) ?_ ?_
      | with_reducible refine Only.after (State.updStep_only ..) ?_ ?_ | with_reducible refine Only.after (State.raiseJob_only ..) ?_ ?_
      | (extract_lets) | split | (with_reducible change Only _ _ (ite _ _ _); split))

theorem State.poisonLabel_only (s : State) (a2) (a3) (a4) : Only [.port, .sessions, .jobs, .log, .dict, .tiers] s (State.poisonLabel s a2 a3 a4) := by
  unfold State.poisonLabel
  repeat' (first
      | with_reducible exact Only.refl _ _ | with_reducible decide | with_reducible refine Only.after (State.raise_only ..) ?_ ?_
      | with_reducible refine Only.after (State.count_only ..) ?_ ?_ | with_reducible refine Only.after (State.updTile_only ..) ?_ ?_ | split)

theorem Ctx.noteLabel_only (a1) (a2) (s : State) : Only [.port, .sessions, .jobs, .log, .dict, .tiers] s (Ctx.noteLabel a1 a2 s) := by
  unfold Ctx.noteLabel
  repeat' (first
      | with_reducible exact Only.refl _ _ | with_reducible decide | with_reducible refine Only.after (State.poisonLabel_only ..) ?_ ?_)

theorem Ctx.noteDecodes_only (a1) (a2) (s : State) : Only [.port, .sessions, .jobs, .log, .dict, .tiers] s (Ctx.noteDecodes a1 a2 s) := by
  unfold Ctx.noteDecodes
  repeat' (first
      | with_reducible exact Only.refl _ _ | intro _ | with_reducible decide | with_reducible refine Only.after (Ctx.noteDecode_only ..) ?_ ?_
      | with_reducible refine Only.after (Ctx.noteLabel_only ..) ?_ ?_ | (extract_lets) | split
      | with_reducible refine Only.trans ?_ (Only.foldlFst _ _ _ ?_))

theorem State.unlessPoisoned_only (s : State) (a2) (a3) (a4) (a5) (g6) {w : List Part} (h6 : ∀ x, Only w x (g6 x)) (hw : Part.within [.port, .sessions, .jobs, .log, .dict, .tiers] w = true) : Only w s (State.unlessPoisoned s a2 a3 a4 a5 g6) := by
  unfold State.unlessPoisoned
  repeat' (first
      | with_reducible exact Only.refl _ _ | with_reducible assumption | intro _ | with_reducible refine Only.after (Ctx.noteLabel_only ..) ?_ ?_
      | with_reducible refine Only.trans ?_ (h6 ..) | with_reducible refine Only.trans ?_ (Only.foldl _ _ _ ?_) | split)

end Sys2Proof.Machine
end

