-- ==== Sys2Proof/Laws/OnlyArrayRows.lean ====
section
/-!
SUPPORT. The parts of the state the operations of ArrayRows may change.
-/
set_option linter.unusedTactic false
set_option linter.unusedVariables false
set_option Elab.async false
namespace Sys2Proof.Machine
open Sys2Proof

theorem State.putBody_only (s : State) (a2) (a3) (a4) (a5) : Only [.carrel, .carrelPoison] s (State.putBody s a2 a3 a4 a5) := by
  unfold State.putBody
  repeat' (first
      | with_reducible exact Only.refl _ _ | with_reducible decide | with_reducible refine Only.after (State.carrelWrite_only ..) ?_ ?_)

theorem Ctx.readStored_only (a1) (a2) (s : State) : Only [.port, .sessions, .jobs, .log, .dict, .tiers] s (Ctx.readStored a1 a2 s) := by
  unfold Ctx.readStored
  repeat' (first
      | with_reducible exact Only.refl _ _ | intro _ | with_reducible decide | with_reducible refine Only.after (State.noteFar_only ..) ?_ ?_
      | with_reducible refine Only.after (State.touch_only ..) ?_ ?_ | with_reducible refine Only.after (Ctx.noteDecodes_only ..) ?_ ?_
      | with_reducible refine Only.after (Ctx.count_only ..) ?_ ?_ | with_reducible refine Only.after (State.raiseJob_only ..) ?_ ?_
      | with_reducible refine Only.trans ?_ (Only.foldl _ _ _ ?_) | (extract_lets) | split)

theorem State.stallRamp_only (s : State) (a2) (a3) : Only [.jobs, .draws] s (State.stallRamp s a2 a3) := by
  unfold State.stallRamp
  repeat' (first
      | with_reducible exact Only.refl _ _ | with_reducible decide | with_reducible refine Only.after (State.count_only ..) ?_ ?_ | (extract_lets)
      | with_reducible refine Only.after (draw_only ..) ?_ ?_)

theorem Ctx.rampStart_only (a1) (s : State) : Only [.jobs] s (Ctx.rampStart a1 s) := by
  unfold Ctx.rampStart
  repeat' (first
      | with_reducible exact Only.refl _ _ | with_reducible decide | with_reducible refine Only.after (State.count_only ..) ?_ ?_ | split)

theorem Ctx.deliver_only (a1) (a2) (s : State) : Only [.jobs, .tileUnits, .carrel, .carrelPoison, .draws] s (Ctx.deliver a1 a2 s) := by
  unfold Ctx.deliver
  repeat' (first
      | with_reducible exact Only.refl _ _ | intro _ | with_reducible decide | with_reducible refine Only.after (State.updUnit_only ..) ?_ ?_
      | with_reducible refine Only.after (State.stallRamp_only ..) ?_ ?_ | with_reducible refine Only.after (State.putBody_only ..) ?_ ?_
      | with_reducible refine Only.trans ?_ (Only.foldl _ _ _ ?_) | (extract_lets) | split)

theorem Ctx.reportFaults_only (a1) (a2) (a3) (s : State) : Only [.jobs] s (Ctx.reportFaults a1 a2 a3 s) := by
  unfold Ctx.reportFaults
  repeat' (first
      | with_reducible exact Only.refl _ _ | with_reducible decide | with_reducible refine Only.after (Ctx.report_only ..) ?_ ?_ | split)

theorem Ctx.matmul_only (a1) (s : State) : Only [.port, .sessions, .jobs, .log, .dict, .tiers, .tileUnits, .carrel, .carrelPoison, .draws] s (Ctx.matmul a1 s) := by
  unfold Ctx.matmul
  repeat' (first
      | with_reducible exact Only.refl _ _ | with_reducible decide | (extract_lets)
      | with_reducible refine Only.after (Ctx.readStored_only ..) ?_ ?_ | with_reducible refine Only.after (Ctx.reportFaults_only ..) ?_ ?_
      | with_reducible refine Only.after (Ctx.deliver_only ..) ?_ ?_ | with_reducible refine Only.after (Ctx.rampStart_only ..) ?_ ?_
      | (with_reducible change Only _ _ (ite _ _ _); split) | fail_if_no_progress with_reducible refine Only.upd ?_)

theorem Ctx.lateEnded_only (a1) (s : State) : Only [.jobs, .draws] s (Ctx.lateEnded a1 s) := by
  unfold Ctx.lateEnded
  repeat' (first
      | with_reducible exact Only.refl _ _ | with_reducible decide | with_reducible refine Only.after (State.updJob_only ..) ?_ ?_
      | with_reducible refine Only.after (State.stallRamp_only ..) ?_ ?_ | (extract_lets) | split
      | with_reducible (apply Only.trans; rotate_left; apply Only.mono; apply draw_only'; assumption))

theorem execMatmul_only (a1) (a2) (s : State) (t : State) (h : execMatmul a1 a2 s = .next t) : Only [.port, .sessions, .jobs, .log, .dict, .tiers, .tileUnits, .carrel, .carrelPoison, .draws] s t := by
  unfold execMatmul at h
  injection h with h; subst h
  repeat' (first
      | with_reducible exact Only.refl _ _ | intro _ | with_reducible decide | with_reducible refine Only.after (State.updUnit_only ..) ?_ ?_
      | with_reducible refine Only.after (State.updJob_only ..) ?_ ?_ | with_reducible refine Only.after (Ctx.lateEnded_only ..) ?_ ?_
      | with_reducible refine Only.trans ?_ (State.unlessPoisoned_only (h6 := ?_) (hw := ?_) ..)
      | with_reducible refine Only.trans ?_ (State.issue_only (h5 := ?_) (hw := ?_) ..)
      | with_reducible refine Only.after (Ctx.matmul_only ..) ?_ ?_ | (extract_lets) | split | (with_reducible change Only _ _ (ite _ _ _); split))

theorem Ctx.spmm_only (a1) (s : State) : Only [.port, .sessions, .jobs, .log, .dict, .tiers, .tileUnits, .carrel, .carrelPoison, .draws] s (Ctx.spmm a1 s) := by
  unfold Ctx.spmm
  repeat' (first
      | with_reducible exact Only.refl _ _ | with_reducible decide | with_reducible refine Only.after (Ctx.readStored_only ..) ?_ ?_
      | with_reducible refine Only.after (Ctx.reportFaults_only ..) ?_ ?_ | with_reducible refine Only.after (Ctx.deliver_only ..) ?_ ?_
      | with_reducible refine Only.after (Ctx.rampStart_only ..) ?_ ?_ | (extract_lets) | split)

theorem execSpmm_only (a1) (a2) (s : State) (t : State) (h : execSpmm a1 a2 s = .next t) : Only [.port, .sessions, .jobs, .log, .dict, .tiers, .tileUnits, .carrel, .carrelPoison, .draws] s t := by
  unfold execSpmm at h
  injection h with h; subst h
  repeat' (first
      | with_reducible exact Only.refl _ _ | intro _ | with_reducible decide
      | with_reducible refine Only.trans ?_ (State.unlessPoisoned_only (h6 := ?_) (hw := ?_) ..)
      | with_reducible refine Only.trans ?_ (State.issuePlain_only (h5 := ?_) (hw := ?_) ..)
      | with_reducible refine Only.after (Ctx.spmm_only ..) ?_ ?_)

end Sys2Proof.Machine
end

