-- ==== Sys2Proof/Laws/OnlyRecords.lean ====
section
/-!
SUPPORT. The parts of the state the operations of Records may change.
-/
set_option linter.unusedTactic false
set_option linter.unusedVariables false
set_option Elab.async false
namespace Sys2Proof.Machine
open Sys2Proof

theorem State.rewriteDelta_only (s : State) (a2) (a3) : Only [.flash, .sec, .draws] s (State.rewriteDelta s a2 a3) := by
  unfold State.rewriteDelta
  repeat' (first
      | with_reducible exact Only.refl _ _ | with_reducible decide | (extract_lets) | split | fail_if_no_progress with_reducible refine Only.upd ?_
      | with_reducible (apply Only.trans; rotate_left; apply Only.mono; apply draw_only'; assumption))

theorem State.retrainPorts_only (s : State) : Only [.bring, .fabric] s (State.retrainPorts s) := by
  unfold State.retrainPorts
  repeat' (first
      | with_reducible exact Only.refl _ _ | with_reducible decide | with_reducible refine Only.after (State.flushWaiting_only ..) ?_ ?_
      | (extract_lets) | fail_if_no_progress with_reducible refine Only.upd ?_)

theorem State.deltaCommit_only (s : State) : Only [.port, .sessions, .bring, .flash, .sec, .seg, .log, .dict, .retainedWrites, .fabric, .reply, .draws] s (State.deltaCommit s) := by
  unfold State.deltaCommit
  repeat' (first
      | with_reducible exact Only.refl _ _ | intro _ | with_reducible decide | with_reducible refine Only.after (State.rewriteDelta_only ..) ?_ ?_
      | with_reducible refine Only.after (State.afterWrite_only ..) ?_ ?_ | with_reducible refine Only.after (State.retrainPorts_only ..) ?_ ?_
      | with_reducible refine Only.after (State.flushWaiting_only ..) ?_ ?_ | with_reducible refine Only.after (State.tell_only ..) ?_ ?_
      | with_reducible refine Only.trans ?_ (Only.foldl _ _ _ ?_) | (extract_lets) | split | fail_if_no_progress with_reducible refine Only.upd ?_)

theorem State.eventCheckpoint_only (s : State) : Only [.flash, .sec, .log, .draws] s (State.eventCheckpoint s) := by
  unfold State.eventCheckpoint
  repeat' (first
      | with_reducible exact Only.refl _ _ | with_reducible decide | with_reducible refine Only.after (State.rewriteDelta_only ..) ?_ ?_
      | (extract_lets) | split | fail_if_no_progress with_reducible refine Only.upd ?_)

theorem State.baseRecord_only (s : State) (a2) (a3) : Only [.port, .sessions, .flash, .sec, .seg, .log, .dict, .retainedWrites, .baseStaged, .fabric, .reply, .draws] s (State.baseRecord s a2 a3) := by
  unfold State.baseRecord
  repeat' (first
      | with_reducible exact Only.refl _ _ | intro _ | with_reducible decide | with_reducible refine Only.after (State.tell_only ..) ?_ ?_
      | with_reducible refine Only.after (State.raise_only ..) ?_ ?_ | with_reducible refine Only.after (State.rewriteDelta_only ..) ?_ ?_
      | with_reducible refine Only.after (State.flushWaiting_only ..) ?_ ?_ | with_reducible refine Only.after (State.takeNode_only ..) ?_ ?_
      | with_reducible refine Only.trans ?_ (Only.foldl _ _ _ ?_) | (extract_lets) | split | fail_if_no_progress with_reducible refine Only.upd ?_)

theorem State.runImage_only (s : State) (a2) : Only [.sec, .draws] s (State.runImage s a2) := by
  unfold State.runImage
  repeat' (first
      | with_reducible exact Only.refl _ _ | with_reducible decide | (extract_lets) | split | fail_if_no_progress with_reducible refine Only.upd ?_
      | with_reducible (apply Only.trans; rotate_left; apply Only.mono; apply draw_only'; assumption))

theorem State.standbyWrite_only (s : State) (a2) (a3) (a4) (a5) (a6) : Only [.port, .sessions, .flash, .sec, .blocks, .abandoned, .reply] s (State.standbyWrite s a2 a3 a4 a5 a6) := by
  unfold State.standbyWrite
  repeat' (first
      | with_reducible exact Only.refl _ _ | with_reducible decide | with_reducible refine Only.after (State.tell_only ..) ?_ ?_
      | with_reducible refine Only.after (State.closeBlock_only ..) ?_ ?_ | (extract_lets) | split
      | fail_if_no_progress with_reducible refine Only.upd ?_)

theorem State.standbyVia_only (s : State) (a2) : Only [.port, .sessions, .jobs, .flash, .sec, .log, .dict, .blocks, .abandoned, .retainedWrites, .baseStaged, .reply] s (State.standbyVia s a2) := by
  unfold State.standbyVia
  repeat' (first
      | with_reducible exact Only.refl _ _ | intro _ | with_reducible decide
      | with_reducible refine Only.trans ?_ (State.runCommand_only (h6 := ?_) (hw := ?_) ..)
      | with_reducible refine Only.after (State.standbyWrite_only ..) ?_ ?_
      | with_reducible refine Only.trans ?_ (State.gdpRequest_only (h4 := ?_) (hw := ?_) ..)
      | with_reducible refine Only.trans ?_ (State.gdpChecked_only (h4 := ?_) (hw := ?_) ..) | split)

theorem State.switchCommand_only (s : State) (a2) (a3) (a4) (g5) {w : List Part} (h5 : ∀ x, Only w x (g5 x)) (hw : Part.within [.port, .sessions, .jobs, .sec, .log, .dict, .blocks, .abandoned, .retainedWrites, .baseStaged, .reply] w = true) : Only w s (State.switchCommand s a2 a3 a4 g5) := by
  unfold State.switchCommand
  repeat' (first
      | with_reducible exact Only.refl _ _ | with_reducible assumption | intro _ | exact Part.within_trans (by decide) hw
      | with_reducible refine Only.trans ?_ (State.viaWrite_only (h5 := ?_) (hw := ?_) ..)
      | with_reducible refine Only.after (State.tell_only ..) ?_ ?_ | with_reducible refine Only.trans ?_ (h5 ..))

theorem State.verifyImage_only (s : State) (a2) (a3) (a4) : Only [.port, .sessions, .sec, .log, .dict] s (State.verifyImage s a2 a3 a4) := by
  unfold State.verifyImage
  repeat' (first
      | with_reducible exact Only.refl _ _ | with_reducible decide | with_reducible refine Only.after (State.raise_only ..) ?_ ?_ | (extract_lets)
      | split | fail_if_no_progress with_reducible refine Only.upd ?_)

theorem State.disarm_only (s : State) : Only [.sec] s (State.disarm s) := by
  unfold State.disarm
  repeat' (first | with_reducible exact Only.refl _ _ | (extract_lets) | split | fail_if_no_progress with_reducible refine Only.upd ?_)

theorem execBaseRecordWrite_only (a1) (a2) (s : State) (t : State) (h : execBaseRecordWrite a1 a2 s = .next t) : Only [.port, .sessions, .flash, .sec, .seg, .log, .dict, .retainedWrites, .baseStaged, .fabric, .reply, .draws] s t := by
  unfold execBaseRecordWrite at h
  injection h with h; subst h
  repeat' (first | with_reducible exact Only.refl _ _ | with_reducible decide | with_reducible refine Only.after (State.baseRecord_only ..) ?_ ?_)

theorem execDeltaRecordCommit_only (s : State) (t : State) (h : execDeltaRecordCommit s = .next t) : Only [.port, .sessions, .bring, .flash, .sec, .seg, .log, .dict, .retainedWrites, .fabric, .reply, .draws] s t := by
  unfold execDeltaRecordCommit at h
  injection h with h; subst h
  repeat' (first
      | with_reducible exact Only.refl _ _ | with_reducible decide | with_reducible refine Only.after (State.deltaCommit_only ..) ?_ ?_)

theorem execEventCheckpoint_only (s : State) (t : State) (h : execEventCheckpoint s = .next t) : Only [.flash, .sec, .log, .draws] s t := by
  unfold execEventCheckpoint at h
  injection h with h; subst h
  repeat' (first
      | with_reducible exact Only.refl _ _ | with_reducible decide | with_reducible refine Only.after (State.eventCheckpoint_only ..) ?_ ?_)

theorem execStandbyImageWrite_only (a1) (s : State) (t : State) (h : execStandbyImageWrite a1 s = .next t) : Only [.port, .sessions, .jobs, .flash, .sec, .log, .dict, .blocks, .abandoned, .retainedWrites, .baseStaged, .reply] s t := by
  unfold execStandbyImageWrite at h
  injection h with h; subst h
  repeat' (first | with_reducible exact Only.refl _ _ | with_reducible decide | with_reducible refine Only.after (State.standbyVia_only ..) ?_ ?_)

theorem execVerify_only (a1) (a2) (a3) (a4) (s : State) (t : State) (h : execVerify a1 a2 a3 a4 s = .next t) : Only [.port, .sessions, .jobs, .sec, .log, .dict, .blocks, .abandoned, .retainedWrites, .baseStaged, .reply] s t := by
  unfold execVerify at h
  injection h with h; subst h
  repeat' (first
      | with_reducible exact Only.refl _ _ | intro _ | with_reducible decide
      | with_reducible refine Only.trans ?_ (State.switchCommand_only (h5 := ?_) (hw := ?_) ..)
      | with_reducible refine Only.after (State.verifyImage_only ..) ?_ ?_)

theorem execArm_only (a1) (s : State) (t : State) (h : execArm a1 s = .next t) : Only [.port, .sessions, .jobs, .sec, .log, .dict, .blocks, .abandoned, .retainedWrites, .baseStaged, .reply] s t := by
  unfold execArm at h
  injection h with h; subst h
  repeat' (first
      | with_reducible exact Only.refl _ _ | intro _ | with_reducible decide
      | with_reducible refine Only.trans ?_ (State.switchCommand_only (h5 := ?_) (hw := ?_) ..) | (extract_lets)
      | fail_if_no_progress with_reducible refine Only.upd ?_)

theorem execCancel_only (a1) (s : State) (t : State) (h : execCancel a1 s = .next t) : Only [.port, .sessions, .jobs, .sec, .log, .dict, .blocks, .abandoned, .retainedWrites, .baseStaged, .reply] s t := by
  unfold execCancel at h
  injection h with h; subst h
  repeat' (first
      | with_reducible exact Only.refl _ _ | intro _ | with_reducible decide
      | with_reducible refine Only.trans ?_ (State.switchCommand_only (h5 := ?_) (hw := ?_) ..)
      | with_reducible refine Only.after (State.disarm_only ..) ?_ ?_)

end Sys2Proof.Machine
end

