-- ==== Sys2Proof/Laws/OnlyJobOpen.lean ====
section
/-!
SUPPORT. The parts of the state the operations of JobOpen may change.
-/
set_option linter.unusedTactic false
set_option linter.unusedVariables false
set_option Elab.async false
namespace Sys2Proof.Machine
open Sys2Proof

theorem State.bindQueues_only (s : State) (a2) (a3) (a4) : Only [.port] s (State.bindQueues s a2 a3 a4) := by
  unfold State.bindQueues
  repeat' (first
      | with_reducible exact Only.refl _ _ | intro _ | with_reducible decide | with_reducible refine Only.after (State.updQueue_only ..) ?_ ?_
      | with_reducible refine Only.trans ?_ (Only.foldl _ _ _ ?_))

theorem State.setRole_only (s : State) (a2) (a3) : Only [.dict, .tileUnits] s (State.setRole s a2 a3) := by
  unfold State.setRole
  repeat' (first
      | with_reducible exact Only.refl _ _ | with_reducible decide | with_reducible refine Only.after (State.setNum_only ..) ?_ ?_
      | with_reducible refine Only.after (State.updUnit_only ..) ?_ ?_ | (extract_lets) | split)

theorem State.acceptOpen_only (s : State) (a2) (a3) : Only [.port, .jobs] s (State.acceptOpen s a2 a3).1 := by
  unfold State.acceptOpen
  repeat' (first
      | with_reducible exact Only.refl _ _ | with_reducible decide | with_reducible refine Only.after (State.updInFlight_only ..) ?_ ?_
      | (extract_lets) | with_reducible refine Only.after (State.accept_only ..) ?_ ?_)
theorem State.acceptOpen_only' {s : State} {a2} {a3} {x} {t} (h : State.acceptOpen s a2 a3 = (t, x)) : Only [.port, .jobs] s t := by
  have k := State.acceptOpen_only s a2 a3; rw [h] at k; exact k

theorem State.openJob_only (s : State) (a2) : Only [.port, .jobs, .dict, .tileUnits] s (State.openJob s a2) := by
  unfold State.openJob
  repeat' (first
      | with_reducible exact Only.refl _ _ | intro _ | with_reducible decide | (extract_lets) | split
      | with_reducible refine Only.after (State.bindQueues_only ..) ?_ ?_ | with_reducible refine Only.after (State.setRole_only ..) ?_ ?_
      | with_reducible refine Only.after (State.done_only ..) ?_ ?_ | with_reducible refine Only.trans ?_ (Only.foldl _ _ _ ?_)
      | fail_if_no_progress with_reducible refine Only.upd ?_
      | with_reducible (apply Only.trans; rotate_left; apply Only.mono; apply State.acceptOpen_only'; assumption))

theorem execJobOpen_only (a1) (s : State) (t : State) (h : execJobOpen a1 s = .next t) : Only [.port, .jobs, .dict, .tileUnits] s t := by
  unfold execJobOpen at h
  injection h with h; subst h
  repeat' (first
      | with_reducible exact Only.refl _ _ | intro _ | with_reducible decide
      | with_reducible refine Only.trans ?_ (State.runCommand_only (h6 := ?_) (hw := ?_) ..)
      | with_reducible refine Only.after (State.openJob_only ..) ?_ ?_)

theorem State.resumeJob_only (s : State) (a2) : Only [.port, .jobs] s (State.resumeJob s a2) := by
  unfold State.resumeJob
  repeat' (first
      | with_reducible exact Only.refl _ _ | with_reducible decide | with_reducible refine Only.after (State.updJob_only ..) ?_ ?_
      | with_reducible refine Only.after (State.bindQueues_only ..) ?_ ?_ | with_reducible refine Only.after (State.done_only ..) ?_ ?_
      | (extract_lets) | split | with_reducible refine Only.after (State.acceptOpen_only ..) ?_ ?_)

theorem execJobResume_only (a1) (s : State) (t : State) (h : execJobResume a1 s = .next t) : Only [.port, .jobs] s t := by
  unfold execJobResume at h
  injection h with h; subst h
  repeat' (first
      | with_reducible exact Only.refl _ _ | intro _ | with_reducible decide
      | with_reducible refine Only.trans ?_ (State.runCommand_only (h6 := ?_) (hw := ?_) ..)
      | with_reducible refine Only.after (State.resumeJob_only ..) ?_ ?_)

end Sys2Proof.Machine
end

