-- ==== Sys2Proof/Laws/OnlyParams.lean ====
section
/-!
SUPPORT. The parts of the state the operations of Params may change.
-/
set_option linter.unusedTactic false
set_option linter.unusedVariables false
set_option Elab.async false
namespace Sys2Proof.Machine
open Sys2Proof

theorem State.updParam_only (s : State) (a2) (a3) (a4) : Only [.jobs] s (State.updParam s a2 a3 a4) := by
  unfold State.updParam
  repeat' (first | with_reducible exact Only.refl _ _ | with_reducible decide | with_reducible refine Only.after (State.updBody_only ..) ?_ ?_)

theorem State.writeCopyRow_only (s : State) (a2) (a3) (a4) (a5) (a6) (a7) : Only [.tiers, .draws] s (State.writeCopyRow s a2 a3 a4 a5 a6 a7) := by
  unfold State.writeCopyRow
  repeat' (first
      | with_reducible exact Only.refl _ _ | intro _ | with_reducible decide | (extract_lets) | split
      | with_reducible refine Only.after (State.putTile_only ..) ?_ ?_ | with_reducible refine Only.trans ?_ (Only.foldl _ _ _ ?_))

theorem State.countFormat_only (s : State) (a2) (a3) (a4) : Only [.jobs] s (State.countFormat s a2 a3 a4) := by
  unfold State.countFormat
  repeat' (first | with_reducible exact Only.refl _ _ | with_reducible decide | with_reducible refine Only.after (State.count_only ..) ?_ ?_)

theorem State.writeCopy_only (s : State) (a2) (a3) (a4) (a5) (a6) : Only [.jobs, .tiers, .draws] s (State.writeCopy s a2 a3 a4 a5 a6) := by
  unfold State.writeCopy
  repeat' (first
      | with_reducible exact Only.refl _ _ | intro _ | with_reducible decide | with_reducible refine Only.after (State.writeCopyRow_only ..) ?_ ?_
      | with_reducible refine Only.after (State.countFormat_only ..) ?_ ?_ | with_reducible refine Only.trans ?_ (Only.foldl _ _ _ ?_) | split)

theorem State.sendKept_only (s : State) (a2) (a3) (a4) (a5) (a6) : Only [.jobs, .fabric] s (State.sendKept s a2 a3 a4 a5 a6) := by
  unfold State.sendKept
  repeat' (first
      | with_reducible exact Only.refl _ _ | with_reducible decide | with_reducible refine Only.after (State.updJob_only ..) ?_ ?_
      | with_reducible refine Only.after (State.send_only ..) ?_ ?_ | (extract_lets) | split)

theorem State.broadcastFrom_only (s : State) (a2) (a3) (a4) (a5) (a6) : Only [.jobs, .fabric] s (State.broadcastFrom s a2 a3 a4 a5 a6) := by
  unfold State.broadcastFrom
  repeat' (first
      | with_reducible exact Only.refl _ _ | intro _ | with_reducible decide | with_reducible refine Only.after (State.sendKept_only ..) ?_ ?_
      | with_reducible refine Only.trans ?_ (Only.foldl _ _ _ ?_) | split)

end Sys2Proof.Machine
end

