-- ==== Sys2Proof/Laws/OnlyLedger.lean ====
section
/-!
SUPPORT. The parts of the state the operations of Ledger may change.
-/
set_option linter.unusedTactic false
set_option linter.unusedVariables false
set_option Elab.async false
namespace Sys2Proof.Machine
open Sys2Proof

theorem State.addAddition_only (s : State) (a2) (a3) (a4) : Only [.jobs] s (State.addAddition s a2 a3 a4) := by
  unfold State.addAddition
  repeat' (first
      | with_reducible exact Only.refl _ _ | with_reducible decide | with_reducible refine Only.after (State.updStep_only ..) ?_ ?_ | (extract_lets)
      | split)

theorem State.sendStaged_only (s : State) (a2) (a3) (a4) : Only [.jobs, .fabric] s (State.sendStaged s a2 a3 a4) := by
  unfold State.sendStaged
  repeat' (first
      | with_reducible exact Only.refl _ _ | with_reducible decide | with_reducible refine Only.after (State.sendKept_only ..) ?_ ?_
      | with_reducible refine Only.after (State.updStep_only ..) ?_ ?_ | split)

theorem State.sendShare_only (s : State) (a2) (a3) (a4) : Only [.jobs, .fabric] s (State.sendShare s a2 a3 a4) := by
  unfold State.sendShare
  repeat' (first
      | with_reducible exact Only.refl _ _ | intro _ | with_reducible decide | with_reducible refine Only.after (State.sendKept_only ..) ?_ ?_
      | with_reducible refine Only.after (State.updStep_only ..) ?_ ?_ | with_reducible refine Only.trans ?_ (Only.foldl _ _ _ ?_) | (extract_lets)
      | split)

theorem State.reportRaise_only (s : State) (a2) (a3) (a4) (a5) : Only [.jobs, .fabric] s (State.reportRaise s a2 a3 a4 a5) := by
  unfold State.reportRaise
  repeat' (first
      | with_reducible exact Only.refl _ _ | intro _ | with_reducible decide | with_reducible refine Only.after (State.sendKept_only ..) ?_ ?_
      | with_reducible refine Only.after (State.updStep_only ..) ?_ ?_ | with_reducible refine Only.trans ?_ (Only.foldl _ _ _ ?_) | (extract_lets)
      | split)

theorem State.closeContributions_only (s : State) (a2) (a3) : Only [.jobs, .fabric] s (State.closeContributions s a2 a3) := by
  unfold State.closeContributions
  repeat' (first
      | with_reducible exact Only.refl _ _ | intro _ | with_reducible decide | with_reducible refine Only.after (State.sendStaged_only ..) ?_ ?_
      | with_reducible refine Only.after (State.updStep_only ..) ?_ ?_ | with_reducible refine Only.after (State.reportRaise_only ..) ?_ ?_
      | with_reducible refine Only.after (State.sendShare_only ..) ?_ ?_ | with_reducible refine Only.after (State.sendKept_only ..) ?_ ?_
      | with_reducible refine Only.trans ?_ (Only.foldl _ _ _ ?_) | (extract_lets) | split)

theorem State.holdRequest_only (s : State) (a2) (a3) (a4) : Only [.fabric] s (State.holdRequest s a2 a3 a4) := by
  unfold State.holdRequest
  repeat' (first | with_reducible exact Only.refl _ _ | (extract_lets) | fail_if_no_progress with_reducible refine Only.upd ?_)

theorem State.forStep_only (s : State) (a2) (a3) (a4) (g5) {w : List Part} (h5 : ∀ y0 y1 x, Only w x (g5 y0 y1 x)) (hw : Part.within [.fabric] w = true) : Only w s (State.forStep s a2 a3 a4 g5) := by
  unfold State.forStep
  repeat' (first
      | with_reducible exact Only.refl _ _ | with_reducible assumption | with_reducible refine Only.after (State.holdRequest_only ..) ?_ ?_
      | with_reducible refine Only.trans ?_ (h5 ..) | (extract_lets) | split)

theorem State.takeMarker_only (s : State) (a2) (a3) : Only [.jobs, .fabric] s (State.takeMarker s a2 a3) := by
  unfold State.takeMarker
  repeat' (first
      | with_reducible exact Only.refl _ _ | intro _ | with_reducible decide
      | with_reducible refine Only.trans ?_ (State.forStep_only (h5 := ?_) (hw := ?_) ..)
      | with_reducible refine Only.after (State.holdRequest_only ..) ?_ ?_ | with_reducible refine Only.after (State.updStep_only ..) ?_ ?_
      | (extract_lets) | split)

theorem State.takeReport_only (s : State) (a2) (a3) : Only [.jobs, .fabric] s (State.takeReport s a2 a3) := by
  unfold State.takeReport
  repeat' (first
      | with_reducible exact Only.refl _ _ | intro _ | with_reducible decide
      | with_reducible refine Only.trans ?_ (State.forStep_only (h5 := ?_) (hw := ?_) ..)
      | with_reducible refine Only.after (State.holdRequest_only ..) ?_ ?_ | with_reducible refine Only.after (State.updStep_only ..) ?_ ?_
      | (extract_lets) | split)

end Sys2Proof.Machine
end

