-- ==== Sys2Proof/Laws/OnlyWorkRows.lean ====
section
/-!
SUPPORT. The parts of the state the operations of WorkRows may change.
-/
set_option linter.unusedTactic false
set_option linter.unusedVariables false
set_option Elab.async false
namespace Sys2Proof.Machine
open Sys2Proof

theorem State.bindTile_only (s : State) (a2) (a3) (a4) (a5) : Only [.tileUnits, .carrel, .carrelPoison] s (State.bindTile s a2 a3 a4 a5) := by
  unfold State.bindTile
  repeat' (first
      | with_reducible exact Only.refl _ _ | with_reducible decide | with_reducible refine Only.after (State.carrelZero_only ..) ?_ ?_
      | with_reducible refine Only.after (State.updUnit_only ..) ?_ ?_ | split)

theorem State.startWork_only (s : State) (a2) (a3) (a4) : Only [.jobs, .tileUnits, .carrel, .carrelPoison] s (State.startWork s a2 a3 a4) := by
  unfold State.startWork
  repeat' (first
      | with_reducible exact Only.refl _ _ | with_reducible decide | with_reducible refine Only.after (State.bindTile_only ..) ?_ ?_
      | with_reducible refine Only.after (State.updUnit_only ..) ?_ ?_ | with_reducible refine Only.after (State.settle_only ..) ?_ ?_
      | with_reducible refine Only.after (State.updStep_only ..) ?_ ?_ | split)

theorem State.restart_only (s : State) (a2) (a3) (a4) (a5) : Only [.jobs, .tileUnits] s (State.restart s a2 a3 a4 a5) := by
  unfold State.restart
  repeat' (first
      | with_reducible exact Only.refl _ _ | with_reducible decide | with_reducible refine Only.after (State.updUnit_only ..) ?_ ?_
      | with_reducible refine Only.after (State.updStep_only ..) ?_ ?_ | with_reducible refine Only.after (State.settle_only ..) ?_ ?_
      | (extract_lets) | split)

theorem State.runAgain_only (s : State) (a2) (a3) : Only [.jobs, .tileUnits] s (State.runAgain s a2 a3) := by
  unfold State.runAgain
  repeat' (first
      | with_reducible exact Only.refl _ _ | with_reducible decide | with_reducible refine Only.after (State.restart_only ..) ?_ ?_ | split)

theorem execWorkItemDispatch_only (a1) (a2) (a3) (s : State) (t : State) (h : execWorkItemDispatch a1 a2 a3 s = .next t) : Only [.jobs, .tileUnits, .carrel, .carrelPoison] s t := by
  unfold execWorkItemDispatch at h
  injection h with h; subst h
  repeat' (first
      | with_reducible exact Only.refl _ _ | with_reducible decide | with_reducible refine Only.after (State.runAgain_only ..) ?_ ?_
      | with_reducible refine Only.after (State.startWork_only ..) ?_ ?_ | (extract_lets) | split)

theorem Ctx.logSplit_only (a1) (s : State) : Only [.port, .sessions, .jobs, .log, .dict] s (Ctx.logSplit a1 s) := by
  unfold Ctx.logSplit
  repeat' (first
      | with_reducible exact Only.refl _ _ | with_reducible decide | with_reducible refine Only.after (State.logRecord_only ..) ?_ ?_
      | with_reducible refine Only.after (State.raiseJob_only ..) ?_ ?_ | (extract_lets) | split)

theorem Ctx.sample_only (a1) (s : State) : Only [.port, .sessions, .jobs, .log, .dict, .tiers, .tileUnits, .carrel, .carrelPoison, .draws] s (Ctx.sample a1 s) := by
  unfold Ctx.sample
  repeat' (first
      | with_reducible exact Only.refl _ _ | intro _ | with_reducible decide | (extract_lets) | split
      | with_reducible refine Only.after (State.touch_only ..) ?_ ?_ | with_reducible refine Only.after (Ctx.noteDecodes_only ..) ?_ ?_
      | with_reducible refine Only.after (State.putTile_only ..) ?_ ?_ | with_reducible refine Only.after (State.carrelWrite_only ..) ?_ ?_
      | with_reducible refine Only.after (State.updStep_only ..) ?_ ?_ | with_reducible refine Only.after (State.wakeAll_only ..) ?_ ?_
      | with_reducible refine Only.after (Ctx.logSplit_only ..) ?_ ?_ | with_reducible refine Only.trans ?_ (Only.foldl _ _ _ ?_)
      | (with_reducible change Only _ _ (ite _ _ _); split)
      | with_reducible (apply Only.trans; rotate_left; apply Only.mono; apply draw_only'; assumption))

theorem execSample_only (a1) (a2) (s : State) (t : State) (h : execSample a1 a2 s = .next t) : Only [.port, .sessions, .jobs, .log, .dict, .tiers, .tileUnits, .carrel, .carrelPoison, .draws] s t := by
  unfold execSample at h
  injection h with h; subst h
  repeat' (first
      | with_reducible exact Only.refl _ _ | intro _ | with_reducible decide
      | with_reducible refine Only.trans ?_ (State.unlessPoisoned_only (h6 := ?_) (hw := ?_) ..)
      | with_reducible refine Only.trans ?_ (State.issueSpace_only (h7 := ?_) (hw := ?_) ..)
      | with_reducible refine Only.after (Ctx.sample_only ..) ?_ ?_)

theorem execWait_only (a1) (a2) (s : State) (t : State) (h : execWait a1 a2 s = .next t) : Only [.tileUnits] s t := by
  unfold execWait at h
  injection h with h; subst h
  repeat' (first
      | with_reducible exact Only.refl _ _ | intro _ | with_reducible decide
      | with_reducible refine Only.trans ?_ (State.issue_only (h5 := ?_) (hw := ?_) ..))

theorem execLoop_only (a1) (a2) (s : State) (t : State) (h : execLoop a1 a2 s = .next t) : Only [.jobs, .tileUnits, .traces] s t := by
  unfold execLoop at h
  injection h with h; subst h
  repeat' (first
      | with_reducible exact Only.refl _ _ | with_reducible decide | with_reducible refine Only.after (State.settle_only ..) ?_ ?_
      | with_reducible refine Only.after (State.updUnit_only ..) ?_ ?_ | with_reducible refine Only.after (State.updWork_only ..) ?_ ?_
      | with_reducible refine Only.after (State.trace_only ..) ?_ ?_ | (extract_lets) | split)

theorem execWaitLong_only (a1) (a2) (a3) (s : State) (t : State) (h : execWaitLong a1 a2 a3 s = .next t) : Only [.port, .sessions, .log, .dict] s t := by
  unfold execWaitLong at h
  injection h with h; subst h
  repeat' (first
      | with_reducible exact Only.refl _ _ | with_reducible decide | with_reducible refine Only.after (State.raiseJob_only ..) ?_ ?_ | split)

theorem execSignal_only (a1) (a2) (s : State) (t : State) (h : execSignal a1 a2 s = .next t) : Only [.jobs, .tileUnits] s t := by
  unfold execSignal at h
  injection h with h; subst h
  repeat' (first
      | with_reducible exact Only.refl _ _ | intro _ | with_reducible decide
      | with_reducible refine Only.trans ?_ (State.issue_only (h5 := ?_) (hw := ?_) ..)
      | with_reducible refine Only.after (State.updJob_only ..) ?_ ?_ | (extract_lets) | split)

theorem State.signalDone_only (s : State) (a2) : Only [.tileUnits] s (State.signalDone s a2) := by
  unfold State.signalDone
  repeat' (first | with_reducible exact Only.refl _ _ | with_reducible decide | with_reducible refine Only.after (State.updWork_only ..) ?_ ?_)

theorem State.raiseCount_only (s : State) (a2) (a3) (a4) (a5) (a6) (a7) (a8) : Only [.port, .sessions, .log, .dict, .tileUnits] s (State.raiseCount s a2 a3 a4 a5 a6 a7 a8) := by
  unfold State.raiseCount
  repeat' (first
      | with_reducible exact Only.refl _ _ | with_reducible decide | with_reducible refine Only.after (State.updUnit_only ..) ?_ ?_
      | with_reducible refine Only.after (State.raiseJob_only ..) ?_ ?_ | with_reducible refine Only.after (State.wakeWaits_only ..) ?_ ?_
      | (extract_lets) | split)

theorem execSignalDeliver_only (a1) (a2) (a3) (s : State) (t : State) (h : execSignalDeliver a1 a2 a3 s = .next t) : Only [.port, .sessions, .jobs, .log, .dict, .tileUnits] s t := by
  unfold execSignalDeliver at h
  injection h with h; subst h
  repeat' (first
      | with_reducible exact Only.refl _ _ | intro _ | with_reducible decide | with_reducible refine Only.after (State.signalDone_only ..) ?_ ?_
      | with_reducible refine Only.after (State.updJob_only ..) ?_ ?_ | with_reducible refine Only.after (State.raiseJob_only ..) ?_ ?_
      | with_reducible refine Only.after (State.raiseCount_only ..) ?_ ?_ | with_reducible refine Only.after (State.updStep_only ..) ?_ ?_
      | with_reducible refine Only.trans ?_ (Only.foldl _ _ _ ?_) | (extract_lets) | split)

end Sys2Proof.Machine
end

