-- ==== Sys2Proof/Laws/OnlyExchange.lean ====
section
/-!
SUPPORT. The parts of the state the operations of Exchange may change.
-/
set_option linter.unusedTactic false
set_option linter.unusedVariables false
set_option Elab.async false
namespace Sys2Proof.Machine
open Sys2Proof

theorem State.handOn_only (s : State) (a2) (a3) (a4) (a5) : Only [.jobs, .fabric] s (State.handOn s a2 a3 a4 a5) := by
  unfold State.handOn
  repeat' (first
      | with_reducible exact Only.refl _ _ | with_reducible decide | with_reducible refine Only.after (State.updStep_only ..) ?_ ?_
      | with_reducible refine Only.after (State.sendKept_only ..) ?_ ?_ | (extract_lets) | split)

theorem State.handAll_only (s : State) (a2) (a3) : Only [.jobs, .fabric] s (State.handAll s a2 a3) := by
  unfold State.handAll
  repeat' (first
      | with_reducible exact Only.refl _ _ | intro _ | with_reducible decide | with_reducible refine Only.after (State.handOn_only ..) ?_ ?_
      | with_reducible refine Only.trans ?_ (Only.foldl _ _ _ ?_) | split)

theorem State.sendReduce_only (s : State) (a2) (a3) (a4) (a5) : Only [.jobs, .fabric] s (State.sendReduce s a2 a3 a4 a5) := by
  unfold State.sendReduce
  repeat' (first
      | with_reducible exact Only.refl _ _ | intro _ | with_reducible decide | with_reducible refine Only.after (State.sendKept_only ..) ?_ ?_
      | with_reducible refine Only.after (State.updStep_only ..) ?_ ?_ | with_reducible refine Only.trans ?_ (Only.foldl _ _ _ ?_))

theorem State.deliverSlice_only (s : State) (a2) (a3) (a4) (a5) (a6) : Only [.port, .sessions, .jobs, .log, .dict, .tiers, .tileUnits, .draws] s (State.deliverSlice s a2 a3 a4 a5 a6) := by
  unfold State.deliverSlice
  repeat' (first
      | with_reducible exact Only.refl _ _ | intro _ | with_reducible decide | with_reducible refine Only.after (State.putTile_only ..) ?_ ?_
      | with_reducible refine Only.after (State.updStep_only ..) ?_ ?_ | with_reducible refine Only.after (State.raiseCount_only ..) ?_ ?_
      | with_reducible refine Only.trans ?_ (Only.foldl _ _ _ ?_) | (extract_lets) | split)

theorem State.sliceOn_only (s : State) (a2) (a3) (a4) (a5) (a6) : Only [.port, .sessions, .jobs, .log, .dict, .tiers, .fabric, .tileUnits, .draws] s (State.sliceOn s a2 a3 a4 a5 a6) := by
  unfold State.sliceOn
  repeat' (first
      | with_reducible exact Only.refl _ _ | intro _ | with_reducible decide | with_reducible refine Only.after (State.sendReduce_only ..) ?_ ?_
      | with_reducible refine Only.after (State.deliverSlice_only ..) ?_ ?_ | with_reducible refine Only.after (State.updStep_only ..) ?_ ?_
      | with_reducible refine Only.trans ?_ (Only.foldl _ _ _ ?_) | (extract_lets) | split)

theorem State.sliceDown_only (s : State) (a2) (a3) (a4) (a5) (a6) : Only [.port, .sessions, .jobs, .log, .dict, .tiers, .fabric, .tileUnits, .draws] s (State.sliceDown s a2 a3 a4 a5 a6) := by
  unfold State.sliceDown
  repeat' (first
      | with_reducible exact Only.refl _ _ | intro _ | with_reducible decide | with_reducible refine Only.after (State.sendReduce_only ..) ?_ ?_
      | with_reducible refine Only.after (State.deliverSlice_only ..) ?_ ?_ | with_reducible refine Only.trans ?_ (Only.foldl _ _ _ ?_)
      | (extract_lets) | split)

theorem State.slicesOn_only (s : State) (a2) (a3) : Only [.port, .sessions, .jobs, .log, .dict, .tiers, .fabric, .tileUnits, .draws] s (State.slicesOn s a2 a3) := by
  unfold State.slicesOn
  repeat' (first
      | with_reducible exact Only.refl _ _ | intro _ | with_reducible decide | with_reducible refine Only.after (State.sliceOn_only ..) ?_ ?_
      | with_reducible refine Only.trans ?_ (Only.foldl _ _ _ ?_) | split)

theorem State.afterWork_only (s : State) (a2) (a3) : Only [.port, .sessions, .jobs, .log, .dict, .tiers, .fabric, .tileUnits, .draws] s (State.afterWork s a2 a3) := by
  unfold State.afterWork
  repeat' (first
      | with_reducible exact Only.refl _ _ | with_reducible decide | with_reducible refine Only.after (State.slicesOn_only ..) ?_ ?_
      | with_reducible refine Only.after (State.handAll_only ..) ?_ ?_)

theorem execInstanceComplete_only (a1) (a2) (a3) (s : State) (t : State) (h : execInstanceComplete a1 a2 a3 s = .next t) : Only [.port, .sessions, .jobs, .log, .dict, .tiers, .fabric, .tileUnits, .traces, .draws] s t := by
  unfold execInstanceComplete at h
  injection h with h; subst h
  repeat' (first
      | with_reducible exact Only.refl _ _ | with_reducible decide | with_reducible refine Only.after (State.afterWork_only ..) ?_ ?_
      | with_reducible refine Only.after (State.complete_only ..) ?_ ?_ | with_reducible refine Only.after (State.updUnit_only ..) ?_ ?_
      | (extract_lets) | split)

theorem execLedgerAdd_only (a1) (a2) (a3) (s : State) (t : State) (h : execLedgerAdd a1 a2 a3 s = .next t) : Only [.port, .sessions, .jobs, .log, .dict, .tiers, .fabric, .tileUnits, .draws] s t := by
  unfold execLedgerAdd at h
  injection h with h; subst h
  repeat' (first
      | with_reducible exact Only.refl _ _ | with_reducible decide | with_reducible refine Only.after (State.afterWork_only ..) ?_ ?_
      | with_reducible refine Only.after (State.updStep_only ..) ?_ ?_ | with_reducible refine Only.after (State.addAddition_only ..) ?_ ?_ | split)

end Sys2Proof.Machine
end

