-- ==== Sys2Proof/Laws/OnlyPages.lean ====
section
/-!
SUPPORT. The parts of the state the operations of Pages may change.
-/
set_option linter.unusedTactic false
set_option linter.unusedVariables false
set_option Elab.async false
namespace Sys2Proof.Machine
open Sys2Proof

theorem State.writePage_only (s : State) (a2) (a3) (a4) (a5) (a6) (a7) (a8) (a9) : Only [.jobs, .tiers, .draws] s (State.writePage s a2 a3 a4 a5 a6 a7 a8 a9) := by
  unfold State.writePage
  repeat' (first
      | with_reducible exact Only.refl _ _ | with_reducible decide | with_reducible refine Only.after (State.freeTiles_only ..) ?_ ?_
      | with_reducible refine Only.after (State.updBody_only ..) ?_ ?_ | with_reducible refine Only.after (State.putAll_only ..) ?_ ?_)

theorem State.dropPage_only (s : State) (a2) (a3) (a4) (a5) : Only [.tiers] s (State.dropPage s a2 a3 a4 a5) := by
  unfold State.dropPage
  repeat' (first | with_reducible exact Only.refl _ _ | with_reducible decide | with_reducible refine Only.after (State.freeTiles_only ..) ?_ ?_)

theorem State.annexPage_only (s : State) (a2) (a3) (a4) (a5) : Only [.tiers] s (State.annexPage s a2 a3 a4 a5) := by
  unfold State.annexPage
  repeat' (first | with_reducible exact Only.refl _ _ | with_reducible decide | with_reducible refine Only.after (State.updTiles_only ..) ?_ ?_)

theorem State.writeRow_only (s : State) (a2) (a3) (a4) (a5) (a6) (a7) (a8) (a9) : Only [.jobs, .tiers, .draws] s (State.writeRow s a2 a3 a4 a5 a6 a7 a8 a9) := by
  unfold State.writeRow
  repeat' (first
      | with_reducible exact Only.refl _ _ | with_reducible decide | with_reducible refine Only.after (State.updBody_only ..) ?_ ?_
      | with_reducible refine Only.after (State.writePage_only ..) ?_ ?_ | (extract_lets) | split)

theorem State.standTile_only (s : State) (a2) (a3) : Only [.tiers, .draws] s (State.standTile s a2 a3) := by
  unfold State.standTile
  repeat' (first
      | with_reducible exact Only.refl _ _ | with_reducible decide | with_reducible refine Only.after (State.updTiles_only ..) ?_ ?_
      | with_reducible refine Only.after (State.putTile_only ..) ?_ ?_ | with_reducible refine Only.after (State.updTile_only ..) ?_ ?_
      | (extract_lets) | split)

theorem State.standRows_only (s : State) (a2) (a3) : Only [.jobs, .tiers, .draws] s (State.standRows s a2 a3) := by
  unfold State.standRows
  repeat' (first
      | with_reducible exact Only.refl _ _ | intro _ | with_reducible decide | with_reducible refine Only.after (State.writeRow_only ..) ?_ ?_
      | with_reducible refine Only.trans ?_ (Only.foldl _ _ _ ?_) | (extract_lets) | split)

theorem State.retireEditions_only (s : State) (a2) : Only [.jobs, .tiers] s (State.retireEditions s a2) := by
  unfold State.retireEditions
  repeat' (first
      | with_reducible exact Only.refl _ _ | intro _ | with_reducible decide | with_reducible refine Only.after (State.dropPage_only ..) ?_ ?_
      | with_reducible refine Only.after (State.updBody_only ..) ?_ ?_ | with_reducible refine Only.trans ?_ (Only.foldl _ _ _ ?_) | (extract_lets)
      | split)

theorem State.publish_only (s : State) (a2) (a3) : Only [.jobs, .tiers, .draws] s (State.publish s a2 a3) := by
  unfold State.publish
  repeat' (first
      | with_reducible exact Only.refl _ _ | intro _ | with_reducible decide | with_reducible refine Only.after (State.updBody_only ..) ?_ ?_
      | with_reducible refine Only.after (State.writePage_only ..) ?_ ?_ | with_reducible refine Only.trans ?_ (Only.foldl _ _ _ ?_) | split)

theorem State.runDeferredPublishes_only (s : State) (a2) (a3) : Only [.jobs, .tiers, .draws] s (State.runDeferredPublishes s a2 a3) := by
  unfold State.runDeferredPublishes
  repeat' (first
      | with_reducible exact Only.refl _ _ | intro _ | with_reducible decide | with_reducible refine Only.after (State.retireEditions_only ..) ?_ ?_
      | with_reducible refine Only.after (State.logRecord_only ..) ?_ ?_ | with_reducible refine Only.after (State.publish_only ..) ?_ ?_
      | with_reducible refine Only.trans ?_ (Only.foldl _ _ _ ?_) | (extract_lets) | split)

end Sys2Proof.Machine
end

