-- ==== Sys2Proof/Laws/OnlyTables.lean ====
section
/-!
SUPPORT. The parts of the state the operations of Tables may change.
-/
set_option linter.unusedTactic false
set_option linter.unusedVariables false
set_option Elab.async false
namespace Sys2Proof.Machine
open Sys2Proof

theorem State.jobCommand_only (s : State) (a2) (a3) (a4) (a5) (g6) {w : List Part} (h6 : ∀ x y1 y2, Only w x (g6 x y1 y2)) (hw : Part.within [.port, .jobs] w = true) : Only w s (State.jobCommand s a2 a3 a4 a5 g6) := by
  unfold State.jobCommand
  repeat' (first
      | with_reducible exact Only.refl _ _ | with_reducible assumption | intro _
      | with_reducible refine Only.trans ?_ (State.runCommand_only (h6 := ?_) (hw := ?_) ..) | with_reducible refine Only.trans ?_ (h6 ..)
      | (extract_lets) | split)

theorem execTableCreate_only (a1) (s : State) (t : State) (h : execTableCreate a1 s = .next t) : Only [.port, .jobs] s t := by
  unfold execTableCreate at h
  injection h with h; subst h
  repeat' (first
      | with_reducible exact Only.refl _ _ | intro _ | with_reducible decide
      | with_reducible refine Only.trans ?_ (State.jobCommand_only (h6 := ?_) (hw := ?_) ..)
      | with_reducible refine Only.after (State.done_only ..) ?_ ?_ | with_reducible refine Only.after (State.updBody_only ..) ?_ ?_)

theorem State.applyLoad_only (s : State) (a2) (a3) (a4) : Only [.jobs, .tiers, .draws] s (State.applyLoad s a2 a3 a4) := by
  unfold State.applyLoad
  repeat' (first
      | with_reducible exact Only.refl _ _ | intro _ | with_reducible decide | with_reducible refine Only.after (State.annexPage_only ..) ?_ ?_
      | with_reducible refine Only.after (State.updBody_only ..) ?_ ?_ | with_reducible refine Only.after (State.writePage_only ..) ?_ ?_
      | with_reducible refine Only.trans ?_ (Only.foldl _ _ _ ?_) | (extract_lets) | split)

theorem State.atPoint_only (s : State) (a2) (a3) (g4) {w : List Part} (h4 : ∀ x, Only w x (g4 x)) (hw : Part.within [.port, .jobs] w = true) : Only w s (State.atPoint s a2 a3 g4) := by
  unfold State.atPoint
  repeat' (first
      | with_reducible exact Only.refl _ _ | exact Part.within_trans (by decide) hw | with_reducible refine Only.after (State.done_only ..) ?_ ?_
      | with_reducible refine Only.after (State.updJob_only ..) ?_ ?_ | with_reducible refine Only.trans ?_ (h4 ..) | (extract_lets) | split)

theorem State.tableLoad_only (s : State) (a2) (a3) : Only [.port, .jobs, .tiers, .draws] s (State.tableLoad s a2 a3) := by
  unfold State.tableLoad
  repeat' (first
      | with_reducible exact Only.refl _ _ | intro _ | with_reducible decide
      | with_reducible refine Only.trans ?_ (State.jobCommand_only (h6 := ?_) (hw := ?_) ..)
      | with_reducible refine Only.after (State.done_only ..) ?_ ?_ | with_reducible refine Only.after (State.applyLoad_only ..) ?_ ?_
      | with_reducible refine Only.trans ?_ (State.atPoint_only (h4 := ?_) (hw := ?_) ..) | (extract_lets) | split)

theorem execTableLoad_only (a1) (s : State) (t : State) (h : execTableLoad a1 s = .next t) : Only [.port, .jobs, .tiers, .draws] s t := by
  unfold execTableLoad at h
  injection h with h; subst h
  repeat' (first | with_reducible exact Only.refl _ _ | with_reducible decide | with_reducible refine Only.after (State.tableLoad_only ..) ?_ ?_)

theorem execTableLoadAnnex_only (a1) (s : State) (t : State) (h : execTableLoadAnnex a1 s = .next t) : Only [.port, .jobs, .tiers, .draws] s t := by
  unfold execTableLoadAnnex at h
  injection h with h; subst h
  repeat' (first | with_reducible exact Only.refl _ _ | with_reducible decide | with_reducible refine Only.after (State.tableLoad_only ..) ?_ ?_)

theorem execEditionPublish_only (a1) (s : State) (t : State) (h : execEditionPublish a1 s = .next t) : Only [.port, .sessions, .jobs, .log, .dict, .tiers, .draws] s t := by
  unfold execEditionPublish at h
  injection h with h; subst h
  repeat' (first
      | with_reducible exact Only.refl _ _ | intro _ | with_reducible decide
      | with_reducible refine Only.trans ?_ (State.jobCommand_only (h6 := ?_) (hw := ?_) ..)
      | with_reducible refine Only.after (State.done_only ..) ?_ ?_ | with_reducible refine Only.after (State.retireEditions_only ..) ?_ ?_
      | with_reducible refine Only.after (State.publish_only ..) ?_ ?_ | with_reducible refine Only.after (State.raiseJob_only ..) ?_ ?_
      | with_reducible refine Only.after (State.updBody_only ..) ?_ ?_ | (extract_lets) | split)

theorem execDiscard_only (a1) (s : State) (t : State) (h : execDiscard a1 s = .next t) : Only [.port, .jobs] s t := by
  unfold execDiscard at h
  injection h with h; subst h
  repeat' (first
      | with_reducible exact Only.refl _ _ | intro _ | with_reducible decide
      | with_reducible refine Only.trans ?_ (State.jobCommand_only (h6 := ?_) (hw := ?_) ..)
      | with_reducible refine Only.after (State.done_only ..) ?_ ?_ | with_reducible refine Only.after (State.updBody_only ..) ?_ ?_)

theorem State.shelfSet_only (s : State) (a2) (a3) (a4) : Only [.port, .jobs] s (State.shelfSet s a2 a3 a4) := by
  unfold State.shelfSet
  repeat' (first
      | with_reducible exact Only.refl _ _ | intro _ | with_reducible decide
      | with_reducible refine Only.trans ?_ (State.jobCommand_only (h6 := ?_) (hw := ?_) ..)
      | with_reducible refine Only.after (State.done_only ..) ?_ ?_ | with_reducible refine Only.after (State.updBody_only ..) ?_ ?_)

theorem execShelfReplace_only (a1) (s : State) (t : State) (h : execShelfReplace a1 s = .next t) : Only [.port, .jobs] s t := by
  unfold execShelfReplace at h
  injection h with h; subst h
  repeat' (first | with_reducible exact Only.refl _ _ | with_reducible decide | with_reducible refine Only.after (State.shelfSet_only ..) ?_ ?_)

theorem execShelfAdd_only (a1) (s : State) (t : State) (h : execShelfAdd a1 s = .next t) : Only [.port, .jobs] s t := by
  unfold execShelfAdd at h
  injection h with h; subst h
  repeat' (first | with_reducible exact Only.refl _ _ | with_reducible decide | with_reducible refine Only.after (State.shelfSet_only ..) ?_ ?_)

theorem execShelfRemove_only (a1) (s : State) (t : State) (h : execShelfRemove a1 s = .next t) : Only [.port, .jobs] s t := by
  unfold execShelfRemove at h
  injection h with h; subst h
  repeat' (first | with_reducible exact Only.refl _ _ | with_reducible decide | with_reducible refine Only.after (State.shelfSet_only ..) ?_ ?_)

end Sys2Proof.Machine
end

