-- ==== Sys2Proof/Laws/OnlyClosing.lean ====
section
/-!
SUPPORT. The parts of the state the operations of Closing may change.
-/
set_option linter.unusedTactic false
set_option linter.unusedVariables false
set_option Elab.async false
namespace Sys2Proof.Machine
open Sys2Proof

theorem State.dropWorks_only (s : State) (a2) : Only [.tileUnits] s (State.dropWorks s a2) := by
  unfold State.dropWorks
  repeat' (first | with_reducible exact Only.refl _ _ | fail_if_no_progress with_reducible refine Only.upd ?_)

theorem State.freeStepTiles_only (s : State) (a2) (a3) : Only [.tiers] s (State.freeStepTiles s a2 a3) := by
  unfold State.freeStepTiles
  repeat' (first | with_reducible exact Only.refl _ _ | with_reducible decide | with_reducible refine Only.after (State.freeTiles_only ..) ?_ ?_)

theorem State.abandonFrom_only (s : State) (a2) (a3) : Only [.port, .jobs, .tiers, .tileUnits] s (State.abandonFrom s a2 a3) := by
  unfold State.abandonFrom
  repeat' (first
      | with_reducible exact Only.refl _ _ | intro _ | with_reducible decide | with_reducible refine Only.after (State.finishAsker_only ..) ?_ ?_
      | with_reducible refine Only.after (State.freeStepTiles_only ..) ?_ ?_ | with_reducible refine Only.after (State.dropWorks_only ..) ?_ ?_
      | with_reducible refine Only.after (State.updJob_only ..) ?_ ?_ | with_reducible refine Only.trans ?_ (Only.foldl _ _ _ ?_) | split)

theorem State.releaseTile_only (s : State) (a2) : Only [.dict, .tileUnits, .carrel, .carrelPoison] s (State.releaseTile s a2) := by
  unfold State.releaseTile
  repeat' (first
      | with_reducible exact Only.refl _ _ | with_reducible decide | with_reducible refine Only.after (State.carrelZero_only ..) ?_ ?_
      | with_reducible refine Only.after (State.updUnit_only ..) ?_ ?_ | with_reducible refine Only.after (State.setRole_only ..) ?_ ?_)

theorem State.freeJob_only (s : State) (a2) : Only [.port, .jobs, .sec, .dict, .blocks, .tiers, .tileUnits, .carrel, .carrelPoison] s (State.freeJob s a2) := by
  unfold State.freeJob
  repeat' (first
      | with_reducible exact Only.refl _ _ | intro _ | with_reducible decide | with_reducible refine Only.after (State.releaseTile_only ..) ?_ ?_
      | with_reducible refine Only.after (State.dropWorks_only ..) ?_ ?_ | with_reducible refine Only.after (State.freeTiles_only ..) ?_ ?_
      | with_reducible refine Only.after (State.mapQueues_only ..) ?_ ?_ | with_reducible refine Only.trans ?_ (Only.foldl _ _ _ ?_)
      | (extract_lets) | fail_if_no_progress with_reducible refine Only.upd ?_)

theorem State.tryClose_only (s : State) (a2) : Only [.port, .jobs, .sec, .dict, .blocks, .tiers, .tileUnits, .carrel, .carrelPoison] s (State.tryClose s a2) := by
  unfold State.tryClose
  repeat' (first
      | with_reducible exact Only.refl _ _ | with_reducible decide | with_reducible refine Only.after (State.abandonFrom_only ..) ?_ ?_
      | with_reducible refine Only.after (State.freeJob_only ..) ?_ ?_ | with_reducible refine Only.after (State.finishAsker_only ..) ?_ ?_
      | (extract_lets) | split | (dsimp +zetaDelta only; split))

theorem execJobClose_only (a1) (s : State) (t : State) (h : execJobClose a1 s = .next t) : Only [.port, .jobs, .sec, .dict, .blocks, .tiers, .tileUnits, .carrel, .carrelPoison] s t := by
  unfold execJobClose at h
  injection h with h; subst h
  repeat' (first
      | with_reducible exact Only.refl _ _ | intro _ | with_reducible decide
      | with_reducible refine Only.trans ?_ (State.jobCommand_only (h6 := ?_) (hw := ?_) ..)
      | with_reducible refine Only.after (State.tryClose_only ..) ?_ ?_ | with_reducible refine Only.after (State.updJob_only ..) ?_ ?_)

theorem execOrphanJobHoldTime_only (a1) (s : State) (t : State) (h : execOrphanJobHoldTime a1 s = .next t) : Only [.port, .jobs, .sec, .dict, .blocks, .tiers, .tileUnits, .carrel, .carrelPoison] s t := by
  unfold execOrphanJobHoldTime at h
  injection h with h; subst h
  repeat' (first
      | with_reducible exact Only.refl _ _ | with_reducible decide | with_reducible refine Only.after (State.tryClose_only ..) ?_ ?_
      | with_reducible refine Only.after (State.updJob_only ..) ?_ ?_ | (extract_lets) | split)

end Sys2Proof.Machine
end

