-- ==== Sys2Proof/Laws/OnlySubmit.lean ====
section
/-!
SUPPORT. The parts of the state the operations of Submit may change.
-/
set_option linter.unusedTactic false
set_option linter.unusedVariables false
set_option Elab.async false
namespace Sys2Proof.Machine
open Sys2Proof

theorem State.runFreezes_only (s : State) (a2) : Only [.jobs] s (State.runFreezes s a2) := by
  unfold State.runFreezes
  repeat' (first | with_reducible exact Only.refl _ _ | with_reducible decide | with_reducible refine Only.after (State.updJob_only ..) ?_ ?_)

theorem State.bindScales_only (s : State) (a2) (a3) : Only [.jobs] s (State.bindScales s a2 a3) := by
  unfold State.bindScales
  repeat' (first | with_reducible exact Only.refl _ _ | with_reducible decide | with_reducible refine Only.after (State.updJob_only ..) ?_ ?_)

theorem State.freeHeld_only (s : State) (a2) : Only [.jobs] s (State.freeHeld s a2) := by
  unfold State.freeHeld
  repeat' (first | with_reducible exact Only.refl _ _ | with_reducible decide | with_reducible refine Only.after (State.updJob_only ..) ?_ ?_)

theorem State.takeSupply_only (s : State) (a2) (a3) : Only [.jobs] s (State.takeSupply s a2 a3) := by
  unfold State.takeSupply
  repeat' (first
      | with_reducible exact Only.refl _ _ | with_reducible decide | with_reducible refine Only.after (State.updBody_only ..) ?_ ?_
      | with_reducible refine Only.after (State.updJob_only ..) ?_ ?_ | (extract_lets) | split)

theorem State.replaySupply_only (s : State) (a2) (a3) : Only [.jobs] s (State.replaySupply s a2 a3) := by
  unfold State.replaySupply
  repeat' (first
      | with_reducible exact Only.refl _ _ | with_reducible decide | with_reducible refine Only.after (State.updBody_only ..) ?_ ?_ | (extract_lets)
      | split)

theorem execRowSupplyAck_only (a1) (s : State) (t : State) (h : execRowSupplyAck a1 s = .next t) : Only [.port, .jobs] s t := by
  unfold execRowSupplyAck at h
  injection h with h; subst h
  repeat' (first
      | with_reducible exact Only.refl _ _ | intro _ | with_reducible decide
      | with_reducible refine Only.trans ?_ (State.runCommand_only (h6 := ?_) (hw := ?_) ..)
      | with_reducible refine Only.after (State.done_only ..) ?_ ?_ | with_reducible refine Only.after (State.freeHeld_only ..) ?_ ?_
      | with_reducible refine Only.after (State.updBody_only ..) ?_ ?_ | (extract_lets) | split)

theorem State.cancelMove_only (s : State) (a2) (a3) : Only [.jobs] s (State.cancelMove s a2 a3) := by
  unfold State.cancelMove
  repeat' (first | with_reducible exact Only.refl _ _ | with_reducible decide | with_reducible refine Only.after (State.updJob_only ..) ?_ ?_)

theorem execRoleMapWrite_only (a1) (s : State) (t : State) (h : execRoleMapWrite a1 s = .next t) : Only [.port, .jobs, .dict, .tileUnits] s t := by
  unfold execRoleMapWrite at h
  injection h with h; subst h
  repeat' (first
      | with_reducible exact Only.refl _ _ | intro _ | with_reducible decide
      | with_reducible refine Only.trans ?_ (State.runCommand_only (h6 := ?_) (hw := ?_) ..)
      | with_reducible refine Only.after (State.done_only ..) ?_ ?_ | with_reducible refine Only.after (State.setRole_only ..) ?_ ?_
      | with_reducible refine Only.after (State.cancelMove_only ..) ?_ ?_ | (extract_lets) | split)

theorem execDepositExport_only (a1) (s : State) (t : State) (h : execDepositExport a1 s = .next t) : Only [.port, .jobs, .draws] s t := by
  unfold execDepositExport at h
  injection h with h; subst h
  repeat' (first
      | with_reducible exact Only.refl _ _ | intro _ | with_reducible decide
      | with_reducible refine Only.trans ?_ (State.jobCommand_only (h6 := ?_) (hw := ?_) ..)
      | with_reducible refine Only.after (State.done_only ..) ?_ ?_ | with_reducible refine Only.after (State.holdFragments_only ..) ?_ ?_
      | with_reducible refine Only.after (State.updJob_only ..) ?_ ?_ | (extract_lets) | split
      | with_reducible refine Only.after (draw_only ..) ?_ ?_)

theorem State.restoreJob_only (s : State) (a2) (a3) : Only [.jobs, .tiers, .draws] s (State.restoreJob s a2 a3) := by
  unfold State.restoreJob
  repeat' (first
      | with_reducible exact Only.refl _ _ | intro _ | with_reducible decide | with_reducible refine Only.after (State.updJob_only ..) ?_ ?_
      | with_reducible refine Only.after (State.standRows_only ..) ?_ ?_ | with_reducible refine Only.after (State.standTile_only ..) ?_ ?_
      | with_reducible refine Only.trans ?_ (Only.foldl _ _ _ ?_))

theorem execDepositImport_only (a1) (a2) (a3) (a4) (a5) (a6) (s : State) (t : State) (h : execDepositImport a1 a2 a3 a4 a5 a6 s = .next t) : Only [.port, .jobs, .tiers, .draws] s t := by
  unfold execDepositImport at h
  injection h with h; subst h
  repeat' (first
      | with_reducible exact Only.refl _ _ | intro _ | with_reducible decide
      | with_reducible refine Only.trans ?_ (State.runCommand_only (h6 := ?_) (hw := ?_) ..)
      | with_reducible refine Only.after (State.updJob_only ..) ?_ ?_ | with_reducible refine Only.after (State.done_only ..) ?_ ?_
      | with_reducible refine Only.after (State.restoreJob_only ..) ?_ ?_ | (extract_lets) | split)

end Sys2Proof.Machine
end

