-- ==== Sys2Proof/Laws/OnlyMoveRows.lean ====
section
/-!
SUPPORT. The parts of the state the operations of MoveRows may change.
-/
set_option linter.unusedTactic false
set_option linter.unusedVariables false
set_option Elab.async false
namespace Sys2Proof.Machine
open Sys2Proof

theorem Ctx.outOfTable_only (a1) (a2) (a3) (s : State) : Only [.port, .sessions, .jobs, .log, .dict] s (Ctx.outOfTable a1 a2 a3 s) := by
  unfold Ctx.outOfTable
  repeat' (first
      | with_reducible exact Only.refl _ _ | with_reducible decide | with_reducible refine Only.after (Ctx.count_only ..) ?_ ?_
      | with_reducible refine Only.after (State.updStep_only ..) ?_ ?_ | with_reducible refine Only.after (State.raiseJob_only ..) ?_ ?_
      | (extract_lets) | split | (dsimp only) | (dsimp +zetaDelta only; split))

theorem execGather_only (a1) (a2) (s : State) (t : State) (h : execGather a1 a2 s = .next t) : Only [.port, .sessions, .jobs, .log, .dict, .tileUnits, .carrel, .carrelPoison] s t := by
  unfold execGather at h
  injection h with h; subst h
  repeat' (first
      | with_reducible exact Only.refl _ _ | intro _ | with_reducible decide
      | with_reducible refine Only.trans ?_ (State.issue_only (h5 := ?_) (hw := ?_) ..)
      | with_reducible refine Only.after (Ctx.outOfTable_only ..) ?_ ?_ | with_reducible refine Only.after (State.carrelWrite_only ..) ?_ ?_)

theorem execScatter_only (a1) (a2) (s : State) (t : State) (h : execScatter a1 a2 s = .next t) : Only [.port, .sessions, .jobs, .log, .dict, .tileUnits] s t := by
  unfold execScatter at h
  injection h with h; subst h
  repeat' (first
      | with_reducible exact Only.refl _ _ | intro _ | with_reducible decide
      | with_reducible refine Only.trans ?_ (State.issue_only (h5 := ?_) (hw := ?_) ..)
      | with_reducible refine Only.after (Ctx.outOfTable_only ..) ?_ ?_)

theorem State.updSlip_only (s : State) (a2) (a3) (a4) : Only [.tileUnits] s (State.updSlip s a2 a3 a4) := by
  unfold State.updSlip
  repeat' (first | with_reducible exact Only.refl _ _ | with_reducible decide | with_reducible refine Only.after (State.updUnit_only ..) ?_ ?_)

theorem State.callRow_only (s : State) (a2) (a3) (a4) (a5) (a6) (a7) : Only [.port, .jobs] s (State.callRow s a2 a3 a4 a5 a6 a7).1 := by
  unfold State.callRow
  repeat' (first
      | with_reducible exact Only.refl _ _ | with_reducible decide | with_reducible refine Only.after (State.updBody_only ..) ?_ ?_
      | with_reducible refine Only.after (State.updQueue_only ..) ?_ ?_ | (extract_lets) | split)
theorem State.callRow_only' {s : State} {a2} {a3} {a4} {a5} {a6} {a7} {x} {t} (h : State.callRow s a2 a3 a4 a5 a6 a7 = (t, x)) : Only [.port, .jobs] s t := by
  have k := State.callRow_only s a2 a3 a4 a5 a6 a7; rw [h] at k; exact k

theorem State.notePage_only (s : State) (a2) (a3) (a4) (a5) (a6) (a7) (a8) : Only [.tiers] s (State.notePage s a2 a3 a4 a5 a6 a7 a8) := by
  unfold State.notePage
  repeat' (first
      | with_reducible exact Only.refl _ _ | with_reducible decide | with_reducible refine Only.after (State.touchAll_only ..) ?_ ?_
      | (extract_lets) | split | fail_if_no_progress with_reducible refine Only.upd ?_)

theorem State.noteGather_only (s : State) (a2) (a3) (a4) (a5) (a6) : Only [.jobs] s (State.noteGather s a2 a3 a4 a5 a6) := by
  unfold State.noteGather
  repeat' (first
      | with_reducible exact Only.refl _ _ | with_reducible decide | with_reducible refine Only.after (State.updStep_only ..) ?_ ?_
      | with_reducible refine Only.after (State.updBody_only ..) ?_ ?_)

theorem State.callRowIf_only (s : State) (a2) (a3) (a4) (a5) (a6) (a7) (a8) : Only [.port, .jobs] s (State.callRowIf s a2 a3 a4 a5 a6 a7 a8).1 := by
  unfold State.callRowIf
  repeat' (first
      | with_reducible exact Only.refl _ _ | with_reducible decide | split | with_reducible refine Only.after (State.callRow_only ..) ?_ ?_)
theorem State.callRowIf_only' {s : State} {a2} {a3} {a4} {a5} {a6} {a7} {a8} {x} {t} (h : State.callRowIf s a2 a3 a4 a5 a6 a7 a8 = (t, x)) : Only [.port, .jobs] s t := by
  have k := State.callRowIf_only s a2 a3 a4 a5 a6 a7 a8; rw [h] at k; exact k

theorem State.noteRead_only (s : State) (a2) (a3) (a4) (a5) (a6) (a7) (a8) (a9) (a10) : Only [.jobs, .tiers] s (State.noteRead s a2 a3 a4 a5 a6 a7 a8 a9 a10) := by
  unfold State.noteRead
  repeat' (first
      | with_reducible exact Only.refl _ _ | with_reducible decide | with_reducible refine Only.after (State.notePage_only ..) ?_ ?_
      | with_reducible refine Only.after (State.noteGather_only ..) ?_ ?_ | with_reducible refine Only.after (State.touchAll_only ..) ?_ ?_
      | (extract_lets) | split | (with_reducible change Only _ _ (ite _ _ _); split))

theorem execSlipIssue_only (a1) (a2) (s : State) (t : State) (h : execSlipIssue a1 a2 s = .next t) : Only [.port, .sessions, .jobs, .log, .dict, .tiers, .fabric, .tileUnits] s t := by
  unfold execSlipIssue at h
  injection h with h; subst h
  repeat' (first
      | with_reducible exact Only.refl _ _ | with_reducible decide | with_reducible refine Only.after (State.raiseJob_only ..) ?_ ?_
      | with_reducible refine Only.after (State.updUnit_only ..) ?_ ?_ | with_reducible refine Only.after (State.updWork_only ..) ?_ ?_
      | with_reducible refine Only.after (State.send_only ..) ?_ ?_ | with_reducible refine Only.after (State.noteRead_only ..) ?_ ?_
      | (extract_lets) | split | with_reducible (apply Only.trans; rotate_left; apply Only.mono; apply State.callRowIf_only'; assumption))

theorem State.landVals_only (s : State) (a2) (a3) (a4) (a5) (a6) (a7) : Only [.carrel, .carrelPoison] s (State.landVals s a2 a3 a4 a5 a6 a7) := by
  unfold State.landVals
  repeat' (first
      | with_reducible exact Only.refl _ _ | intro _ | with_reducible decide | with_reducible refine Only.after (State.carrelWrite_only ..) ?_ ?_
      | with_reducible refine Only.trans ?_ (Only.foldl _ _ _ ?_))

theorem State.landPoison_only (s : State) (a2) (a3) (a4) (a5) (a6) (a7) : Only [.carrelPoison] s (State.landPoison s a2 a3 a4 a5 a6 a7) := by
  unfold State.landPoison
  repeat' (first | with_reducible exact Only.refl _ _ | fail_if_no_progress with_reducible refine Only.upd ?_)

theorem State.leaveShelf_only (s : State) (a2) (a3) (a4) : Only [.jobs] s (State.leaveShelf s a2 a3 a4) := by
  unfold State.leaveShelf
  repeat' (first
      | with_reducible exact Only.refl _ _ | with_reducible decide | with_reducible refine Only.after (State.updBody_only ..) ?_ ?_ | split)

theorem State.noteDecoded_only (s : State) (a2) (a3) (a4) (a5) (a6) (a7) (a8) (a9) : Only [.port, .sessions, .jobs, .log, .dict, .tiers] s (State.noteDecoded s a2 a3 a4 a5 a6 a7 a8 a9) := by
  unfold State.noteDecoded
  repeat' (first
      | with_reducible exact Only.refl _ _ | intro _ | with_reducible decide | with_reducible refine Only.after (State.poisonLabel_only ..) ?_ ?_
      | with_reducible refine Only.after (State.count_only ..) ?_ ?_ | with_reducible refine Only.after (State.updStep_only ..) ?_ ?_
      | with_reducible refine Only.after (State.raiseJob_only ..) ?_ ?_ | with_reducible refine Only.trans ?_ (Only.foldl _ _ _ ?_) | (extract_lets)
      | split)

theorem execSlipLand_only (a1) (a2) (s : State) (t : State) (h : execSlipLand a1 a2 s = .next t) : Only [.port, .sessions, .jobs, .log, .dict, .tiers, .tileUnits, .carrel, .carrelPoison] s t := by
  unfold execSlipLand at h
  injection h with h; subst h
  repeat' (first
      | with_reducible exact Only.refl _ _ | with_reducible decide | with_reducible refine Only.after (State.updSlip_only ..) ?_ ?_
      | with_reducible refine Only.after (State.updWork_only ..) ?_ ?_ | with_reducible refine Only.after (State.updStep_only ..) ?_ ?_
      | with_reducible refine Only.after (State.noteDecoded_only ..) ?_ ?_ | with_reducible refine Only.after (State.landVals_only ..) ?_ ?_
      | with_reducible refine Only.after (State.landPoison_only ..) ?_ ?_ | with_reducible refine Only.after (State.noteGather_only ..) ?_ ?_
      | with_reducible refine Only.after (State.leaveShelf_only ..) ?_ ?_ | (extract_lets) | split
      | with_reducible refine Only.after (State.callRow_only ..) ?_ ?_)

theorem execSlipReissue_only (a1) (a2) (s : State) (t : State) (h : execSlipReissue a1 a2 s = .next t) : Only [.fabric, .tileUnits] s t := by
  unfold execSlipReissue at h
  injection h with h; subst h
  repeat' (first
      | with_reducible exact Only.refl _ _ | with_reducible decide | with_reducible refine Only.after (State.updSlip_only ..) ?_ ?_
      | with_reducible refine Only.after (State.send_only ..) ?_ ?_ | (extract_lets) | split)

theorem State.updCall_only (s : State) (a2) (a3) (a4) : Only [.jobs] s (State.updCall s a2 a3 a4) := by
  unfold State.updCall
  repeat' (first | with_reducible exact Only.refl _ _ | with_reducible decide | with_reducible refine Only.after (State.updBody_only ..) ?_ ?_)

theorem State.sendCall_only (s : State) (a2) (a3) (a4) : Only [.port] s (State.sendCall s a2 a3 a4) := by
  unfold State.sendCall
  repeat' (first
      | with_reducible exact Only.refl _ _ | with_reducible decide | with_reducible refine Only.after (State.enqueue_only ..) ?_ ?_
      | with_reducible refine Only.after (State.updQueue_only ..) ?_ ?_ | (extract_lets) | split)

theorem State.countCall_only (s : State) (a2) (a3) (a4) (a5) : Only [.jobs] s (State.countCall s a2 a3 a4 a5) := by
  unfold State.countCall
  repeat' (first
      | with_reducible exact Only.refl _ _ | with_reducible decide | with_reducible refine Only.after (State.count_only ..) ?_ ?_
      | with_reducible refine Only.after (State.updBody_only ..) ?_ ?_ | split)

theorem execRowCallClose_only (a1) (a2) (s : State) (t : State) (h : execRowCallClose a1 a2 s = .next t) : Only [.port, .jobs] s t := by
  unfold execRowCallClose at h
  injection h with h; subst h
  repeat' (first
      | with_reducible exact Only.refl _ _ | with_reducible decide | with_reducible refine Only.after (State.countCall_only ..) ?_ ?_
      | with_reducible refine Only.after (State.sendCall_only ..) ?_ ?_ | with_reducible refine Only.after (State.updCall_only ..) ?_ ?_ | split)

theorem State.replaceCall_only (s : State) (a2) (a3) (a4) : Only [.port] s (State.replaceCall s a2 a3 a4).1 := by
  unfold State.replaceCall
  repeat' (first
      | with_reducible exact Only.refl _ _ | with_reducible decide | with_reducible refine Only.after (State.updQueue_only ..) ?_ ?_
      | (extract_lets) | split)
theorem State.replaceCall_only' {s : State} {a2} {a3} {a4} {x} {t} (h : State.replaceCall s a2 a3 a4 = (t, x)) : Only [.port] s t := by
  have k := State.replaceCall_only s a2 a3 a4; rw [h] at k; exact k

theorem execRowCallResend_only (a1) (a2) (s : State) (t : State) (h : execRowCallResend a1 a2 s = .next t) : Only [.port, .jobs] s t := by
  unfold execRowCallResend at h
  injection h with h; subst h
  repeat' (first
      | with_reducible exact Only.refl _ _ | with_reducible decide | with_reducible refine Only.after (State.sendCall_only ..) ?_ ?_
      | with_reducible refine Only.after (State.countCall_only ..) ?_ ?_ | with_reducible refine Only.after (State.updCall_only ..) ?_ ?_
      | (extract_lets) | split | with_reducible refine Only.after (State.replaceCall_only ..) ?_ ?_)

theorem execAnnexStalled_only (a1) (a2) (s : State) (t : State) (h : execAnnexStalled a1 a2 s = .next t) : Only [.port, .sessions, .jobs, .sec, .log, .dict, .blocks, .tiers, .tileUnits, .carrel, .carrelPoison] s t := by
  unfold execAnnexStalled at h
  injection h with h; subst h
  repeat' (first
      | with_reducible exact Only.refl _ _ | with_reducible decide | with_reducible refine Only.after (State.updCall_only ..) ?_ ?_
      | with_reducible refine Only.after (State.updJob_only ..) ?_ ?_ | with_reducible refine Only.after (State.tryClose_only ..) ?_ ?_
      | with_reducible refine Only.after (State.raiseJob_only ..) ?_ ?_ | (extract_lets) | split)

theorem State.serveGather_only (s : State) (a2) (a3) : Only [.port, .sessions, .jobs, .log, .dict, .tiers, .fabric] s (State.serveGather s a2 a3) := by
  unfold State.serveGather
  repeat' (first
      | with_reducible exact Only.refl _ _ | with_reducible decide | with_reducible refine Only.after (State.holdRequest_only ..) ?_ ?_
      | with_reducible refine Only.after (State.noteDecoded_only ..) ?_ ?_ | with_reducible refine Only.after (State.send_only ..) ?_ ?_
      | with_reducible refine Only.after (State.noteRead_only ..) ?_ ?_ | (extract_lets) | split
      | (with_reducible change Only _ _ (ite _ _ _); split) | with_reducible refine Only.after (State.callRow_only ..) ?_ ?_)

theorem State.serveMsg_only (s : State) (a2) (a3) (a4) : Only [.port, .sessions, .jobs, .log, .dict, .tiers, .fabric] s (State.serveMsg s a2 a3 a4) := by
  unfold State.serveMsg
  repeat' (first
      | with_reducible exact Only.refl _ _ | with_reducible decide | with_reducible refine Only.after (State.serveGather_only ..) ?_ ?_
      | with_reducible refine Only.after (State.takeMarker_only ..) ?_ ?_ | with_reducible refine Only.after (State.takeReport_only ..) ?_ ?_
      | split)

theorem State.serveWaiting_only (s : State) : Only [.port, .sessions, .jobs, .log, .dict, .tiers, .fabric] s (State.serveWaiting s) := by
  unfold State.serveWaiting
  repeat' (first
      | with_reducible exact Only.refl _ _ | intro _ | with_reducible decide | with_reducible refine Only.after (State.serveMsg_only ..) ?_ ?_
      | with_reducible refine Only.trans ?_ (Only.foldl _ _ _ ?_) | (extract_lets) | fail_if_no_progress with_reducible refine Only.upd ?_)

theorem execGatherReq_only (a1) (a2) (a3) (a4) (s : State) (t : State) (h : execGatherReq a1 a2 a3 a4 s = .next t) : Only [.port, .sessions, .jobs, .log, .dict, .tiers, .fabric, .draws] s t := by
  unfold execGatherReq at h
  injection h with h; subst h
  repeat' (first
      | with_reducible exact Only.refl _ _ | with_reducible decide | with_reducible refine Only.after (State.serveGather_only ..) ?_ ?_
      | (extract_lets) | split | with_reducible (apply Only.trans; rotate_left; apply Only.mono; apply State.receive_only'; assumption))

theorem execGatherData_only (a1) (a2) (a3) (a4) (s : State) (t : State) (h : execGatherData a1 a2 a3 a4 s = .next t) : Only [.port, .sessions, .log, .dict, .fabric, .tileUnits, .carrel, .carrelPoison, .draws] s t := by
  unfold execGatherData at h
  injection h with h; subst h
  repeat' (first
      | with_reducible exact Only.refl _ _ | with_reducible decide | with_reducible refine Only.after (State.updSlip_only ..) ?_ ?_
      | with_reducible refine Only.after (State.landVals_only ..) ?_ ?_ | (extract_lets) | split
      | with_reducible (apply Only.trans; rotate_left; apply Only.mono; apply State.receive_only'; assumption))

theorem State.replayRises_only (s : State) (a2) (a3) : Only [.port, .sessions, .jobs, .log, .dict] s (State.replayRises s a2 a3) := by
  unfold State.replayRises
  repeat' (first
      | with_reducible exact Only.refl _ _ | intro _ | with_reducible decide | with_reducible refine Only.after (State.count_only ..) ?_ ?_
      | with_reducible refine Only.after (State.raiseJob_only ..) ?_ ?_ | with_reducible refine Only.trans ?_ (Only.foldl _ _ _ ?_) | split)

theorem execStepSubmit_only (a1) (s : State) (t : State) (h : execStepSubmit a1 s = .next t) : Only [.port, .sessions, .jobs, .log, .dict, .tiers, .fabric, .draws] s t := by
  unfold execStepSubmit at h
  injection h with h; subst h
  repeat' (first
      | with_reducible exact Only.refl _ _ | intro _ | with_reducible decide
      | with_reducible refine Only.trans ?_ (State.runCommand_only (h6 := ?_) (hw := ?_) ..)
      | with_reducible refine Only.after (State.runFreezes_only ..) ?_ ?_
      | with_reducible refine Only.after (State.runDeferredPublishes_only ..) ?_ ?_
      | with_reducible refine Only.after (State.serveWaiting_only ..) ?_ ?_ | with_reducible refine Only.after (State.replayRises_only ..) ?_ ?_
      | with_reducible refine Only.after (State.logRecord_only ..) ?_ ?_ | with_reducible refine Only.after (State.bindScales_only ..) ?_ ?_
      | with_reducible refine Only.after (State.updJob_only ..) ?_ ?_ | (extract_lets) | split)

theorem execRowSupply_only (a1) (s : State) (t : State) (h : execRowSupply a1 s = .next t) : Only [.port, .sessions, .jobs, .log, .dict, .tiers, .fabric] s t := by
  unfold execRowSupply at h
  injection h with h; subst h
  repeat' (first
      | with_reducible exact Only.refl _ _ | intro _ | with_reducible decide
      | with_reducible refine Only.trans ?_ (State.runLogged_only (h7 := ?_) (hw := ?_) ..)
      | with_reducible refine Only.after (State.done_only ..) ?_ ?_ | with_reducible refine Only.after (State.serveWaiting_only ..) ?_ ?_
      | with_reducible refine Only.after (State.replaySupply_only ..) ?_ ?_ | with_reducible refine Only.after (State.takeSupply_only ..) ?_ ?_
      | (extract_lets) | split)

end Sys2Proof.Machine
end

