-- ==== Sys2Proof/Laws/OnlyUpdateRows.lean ====
section
/-!
SUPPORT. The parts of the state the operations of UpdateRows may change.
-/
set_option linter.unusedTactic false
set_option linter.unusedVariables false
set_option Elab.async false
namespace Sys2Proof.Machine
open Sys2Proof

theorem execStepEndPass_only (a1) (a2) (a3) (s : State) (t : State) (h : execStepEndPass a1 a2 a3 s = .next t) : Only [.port, .sessions, .jobs, .log, .dict, .tiers, .fabric, .tileUnits, .carrel, .carrelPoison, .draws] s t := by
  unfold execStepEndPass at h
  injection h with h; subst h
  repeat' (first
      | with_reducible exact Only.refl _ _ | with_reducible decide | with_reducible refine Only.after (State.afterWork_only ..) ?_ ?_
      | with_reducible refine Only.after (State.closeContributions_only ..) ?_ ?_ | with_reducible refine Only.after (State.runAgain_only ..) ?_ ?_
      | with_reducible refine Only.after (State.startWork_only ..) ?_ ?_ | (extract_lets) | split
      | (with_reducible change Only _ _ (ite _ _ _); split))

theorem execEndContrib_only (a1) (a2) (a3) (a4) (s : State) (t : State) (h : execEndContrib a1 a2 a3 a4 s = .next t) : Only [.port, .sessions, .jobs, .log, .dict, .fabric, .draws] s t := by
  unfold execEndContrib at h
  injection h with h; subst h
  repeat' (first
      | with_reducible exact Only.refl _ _ | with_reducible decide | with_reducible refine Only.after (State.takeMarker_only ..) ?_ ?_
      | (extract_lets) | split | with_reducible (apply Only.trans; rotate_left; apply Only.mono; apply State.receive_only'; assumption))

theorem execRangeReport_only (a1) (a2) (a3) (a4) (s : State) (t : State) (h : execRangeReport a1 a2 a3 a4 s = .next t) : Only [.port, .sessions, .jobs, .log, .dict, .fabric, .draws] s t := by
  unfold execRangeReport at h
  injection h with h; subst h
  repeat' (first
      | with_reducible exact Only.refl _ _ | with_reducible decide | with_reducible refine Only.after (State.takeReport_only ..) ?_ ?_
      | (extract_lets) | split | with_reducible (apply Only.trans; rotate_left; apply Only.mono; apply State.receive_only'; assumption))

theorem State.rescatter_only (s : State) (a2) (a3) (a4) (a5) (a6) : Only [.jobs, .tileUnits] s (State.rescatter s a2 a3 a4 a5 a6) := by
  unfold State.rescatter
  repeat' (first
      | with_reducible exact Only.refl _ _ | with_reducible decide | with_reducible refine Only.after (State.restart_only ..) ?_ ?_ | (extract_lets)
      | split)

theorem State.discardLedger_only (s : State) (a2) (a3) (a4) (a5) (a6) : Only [.port, .sessions, .jobs, .log, .dict, .tiers, .fabric, .tileUnits] s (State.discardLedger s a2 a3 a4 a5 a6) := by
  unfold State.discardLedger
  repeat' (first
      | with_reducible exact Only.refl _ _ | intro _ | with_reducible decide | with_reducible refine Only.after (State.updStep_only ..) ?_ ?_
      | with_reducible refine Only.after (State.serveWaiting_only ..) ?_ ?_ | with_reducible refine Only.after (State.rescatter_only ..) ?_ ?_
      | with_reducible refine Only.trans ?_ (Only.foldl _ _ _ ?_) | (extract_lets) | split)

theorem State.raiseWindow_only (s : State) (a2) (a3) (a4) (a5) : Only [.port, .sessions, .jobs, .log, .dict, .tiers, .fabric, .tileUnits] s (State.raiseWindow s a2 a3 a4 a5) := by
  unfold State.raiseWindow
  repeat' (first
      | with_reducible exact Only.refl _ _ | with_reducible decide | with_reducible refine Only.after (State.logRecord_only ..) ?_ ?_
      | with_reducible refine Only.after (State.discardLedger_only ..) ?_ ?_ | with_reducible refine Only.after (State.count_only ..) ?_ ?_
      | with_reducible refine Only.after (State.raiseJob_only ..) ?_ ?_ | split)

theorem execLedgerRangeCheck_only (a1) (a2) (a3) (a4) (s : State) (t : State) (h : execLedgerRangeCheck a1 a2 a3 a4 s = .next t) : Only [.port, .sessions, .jobs, .log, .dict, .tiers, .fabric, .tileUnits] s t := by
  unfold execLedgerRangeCheck at h
  injection h with h; subst h
  repeat' (first
      | with_reducible exact Only.refl _ _ | intro _ | with_reducible decide
      | with_reducible refine Only.after (State.closeContributions_only ..) ?_ ?_ | with_reducible refine Only.after (State.sendKept_only ..) ?_ ?_
      | with_reducible refine Only.after (State.updStep_only ..) ?_ ?_ | with_reducible refine Only.after (State.raiseWindow_only ..) ?_ ?_
      | with_reducible refine Only.trans ?_ (Only.foldl _ _ _ ?_) | (extract_lets) | split | (with_reducible change Only _ _ (ite _ _ _); split))

theorem State.updateRowTile_only (s : State) (a2) (a3) (a4) (a5) (a6) : Only [.jobs, .tiers, .draws] s (State.updateRowTile s a2 a3 a4 a5 a6) := by
  unfold State.updateRowTile
  repeat' (first
      | with_reducible exact Only.refl _ _ | intro _ | with_reducible decide | with_reducible refine Only.after (State.writeCopyRow_only ..) ?_ ?_
      | with_reducible refine Only.after (State.updParam_only ..) ?_ ?_ | with_reducible refine Only.after (State.updStep_only ..) ?_ ?_
      | with_reducible refine Only.after (State.countFormat_only ..) ?_ ?_ | with_reducible refine Only.after (State.touch_only ..) ?_ ?_
      | with_reducible refine Only.trans ?_ (Only.foldl _ _ _ ?_) | (extract_lets) | split)

theorem State.countRow_only (s : State) (a2) (a3) (a4) (a5) (a6) : Only [.jobs] s (State.countRow s a2 a3 a4 a5 a6) := by
  unfold State.countRow
  repeat' (first
      | with_reducible exact Only.refl _ _ | with_reducible decide | with_reducible refine Only.after (State.updStep_only ..) ?_ ?_ | (extract_lets)
      | split)

theorem State.touchPage_only (s : State) (a2) (a3) (a4) (a5) (a6) : Only [.tiers] s (State.touchPage s a2 a3 a4 a5 a6) := by
  unfold State.touchPage
  repeat' (first | with_reducible exact Only.refl _ _ | with_reducible decide | with_reducible refine Only.after (State.touchAll_only ..) ?_ ?_)

theorem State.updatePages_only (s : State) (a2) (a3) (a4) (a5) (a6) (a7) : Only [.jobs, .tiers, .draws] s (State.updatePages s a2 a3 a4 a5 a6 a7) := by
  unfold State.updatePages
  repeat' (first
      | with_reducible exact Only.refl _ _ | intro _ | with_reducible decide | with_reducible refine Only.after (State.touchPage_only ..) ?_ ?_
      | with_reducible refine Only.after (State.writeRow_only ..) ?_ ?_ | with_reducible refine Only.after (State.countRow_only ..) ?_ ?_
      | with_reducible refine Only.trans ?_ (Only.foldl _ _ _ ?_) | (extract_lets) | split)

theorem State.callTouched_only (s : State) (a2) (a3) (a4) : Only [.port, .jobs] s (State.callTouched s a2 a3 a4).1 := by
  unfold State.callTouched
  repeat' (first
      | with_reducible exact Only.refl _ _ | intro _ | with_reducible decide | with_reducible refine Only.trans ?_ (Only.foldl _ _ _ ?_)
      | (extract_lets) | split | with_reducible refine Only.after (State.callRow_only ..) ?_ ?_
      | with_reducible refine Only.trans ?_ (Only.foldlFst _ _ _ ?_))
theorem State.callTouched_only' {s : State} {a2} {a3} {a4} {x} {t} (h : State.callTouched s a2 a3 a4 = (t, x)) : Only [.port, .jobs] s t := by
  have k := State.callTouched_only s a2 a3 a4; rw [h] at k; exact k

theorem State.countGrad_only (s : State) (a2) (a3) (a4) : Only [.jobs] s (State.countGrad s a2 a3 a4) := by
  unfold State.countGrad
  repeat' (first
      | with_reducible exact Only.refl _ _ | with_reducible decide | with_reducible refine Only.after (State.updStep_only ..) ?_ ?_ | (extract_lets)
      | split)

theorem State.beginUnit_only (s : State) (a2) (a3) (a4) (a5) : Only [.port, .sessions, .jobs, .log, .dict] s (State.beginUnit s a2 a3 a4 a5) := by
  unfold State.beginUnit
  repeat' (first
      | with_reducible exact Only.refl _ _ | with_reducible decide | with_reducible refine Only.after (State.updStep_only ..) ?_ ?_
      | with_reducible refine Only.after (State.countGrad_only ..) ?_ ?_ | with_reducible refine Only.after (State.count_only ..) ?_ ?_
      | with_reducible refine Only.after (State.raiseJob_only ..) ?_ ?_ | (extract_lets) | split
      | (with_reducible change Only _ _ (ite _ _ _); split))

theorem execUpdateApply_only (a1) (a2) (a3) (s : State) (t : State) (h : execUpdateApply a1 a2 a3 s = .next t) : Only [.port, .sessions, .jobs, .log, .dict, .fabric] s t := by
  unfold execUpdateApply at h
  injection h with h; subst h
  repeat' (first
      | with_reducible exact Only.refl _ _ | intro _ | with_reducible decide
      | with_reducible refine Only.after (State.closeContributions_only ..) ?_ ?_ | with_reducible refine Only.after (State.updStep_only ..) ?_ ?_
      | with_reducible refine Only.after (State.beginUnit_only ..) ?_ ?_ | with_reducible refine Only.trans ?_ (Only.foldl _ _ _ ?_)
      | (extract_lets) | split | with_reducible (apply Only.trans; rotate_left; apply Only.mono; apply State.callTouched_only'; assumption))

theorem Ctx.update_only (a1) (s : State) : Only [.jobs, .tiers, .draws] s (Ctx.update a1 s) := by
  unfold Ctx.update
  repeat' (first
      | with_reducible exact Only.refl _ _ | intro _ | with_reducible decide | with_reducible refine Only.after (State.updateRowTile_only ..) ?_ ?_
      | with_reducible refine Only.after (State.updatePages_only ..) ?_ ?_ | with_reducible refine Only.after (State.updStep_only ..) ?_ ?_
      | with_reducible refine Only.trans ?_ (Only.foldl _ _ _ ?_) | (extract_lets) | split | (with_reducible change Only _ _ (ite _ _ _); split))

theorem execUpdate_only (a1) (a2) (s : State) (t : State) (h : execUpdate a1 a2 s = .next t) : Only [.port, .sessions, .jobs, .log, .dict, .tiers, .tileUnits, .draws] s t := by
  unfold execUpdate at h
  injection h with h; subst h
  repeat' (first
      | with_reducible exact Only.refl _ _ | intro _ | with_reducible decide
      | with_reducible refine Only.trans ?_ (State.unlessPoisoned_only (h6 := ?_) (hw := ?_) ..)
      | with_reducible refine Only.trans ?_ (State.issueSpace_only (h7 := ?_) (hw := ?_) ..)
      | with_reducible refine Only.after (Ctx.update_only ..) ?_ ?_)

theorem State.touchRows_only (s : State) (a2) (a3) (a4) : Only [.jobs, .tiers, .draws] s (State.touchRows s a2 a3 a4) := by
  unfold State.touchRows
  repeat' (first
      | with_reducible exact Only.refl _ _ | intro _ | with_reducible decide | with_reducible refine Only.after (State.writeRow_only ..) ?_ ?_
      | with_reducible refine Only.trans ?_ (Only.foldl _ _ _ ?_) | split)

theorem execLayerRelease_only (a1) (a2) (a3) (s : State) (t : State) (h : execLayerRelease a1 a2 a3 s = .next t) : Only [.port, .sessions, .jobs, .log, .dict, .tiers, .fabric, .draws] s t := by
  unfold execLayerRelease at h
  injection h with h; subst h
  repeat' (first
      | with_reducible exact Only.refl _ _ | intro _ | with_reducible decide | with_reducible refine Only.after (State.updStep_only ..) ?_ ?_
      | with_reducible refine Only.after (State.touchRows_only ..) ?_ ?_ | with_reducible refine Only.after (State.broadcastFrom_only ..) ?_ ?_
      | with_reducible refine Only.after (State.serveWaiting_only ..) ?_ ?_ | with_reducible refine Only.trans ?_ (Only.foldl _ _ _ ?_)
      | (extract_lets) | split)

end Sys2Proof.Machine
end

