-- ==== Sys2Proof/Laws/OnlyTileRows.lean ====
section
/-!
SUPPORT. The parts of the state the operations of TileRows may change.
-/
set_option linter.unusedTactic false
set_option linter.unusedVariables false
set_option Elab.async false
namespace Sys2Proof.Machine
open Sys2Proof

theorem State.endLandings_only (s : State) (a2) : Only [.dma, .tileUnits] s (State.endLandings s a2) :=
  State.endDma_only_of (by decide) _ _ _ fun s c d h => (State.abortOutcome_landing s c d (by simp at h; exact h.1)).mono (by decide)

theorem State.setIntervals_only (s : State) : Only [.jobs, .dict] s (State.setIntervals s) := by
  unfold State.setIntervals
  repeat' (first
      | with_reducible exact Only.refl _ _ | with_reducible decide | with_reducible refine Only.after (State.setNum_only ..) ?_ ?_ | (extract_lets)
      | split | fail_if_no_progress with_reducible refine Only.upd ?_)

theorem State.ownFailure_only (s : State) : Only [.jobs, .dict] s (State.ownFailure s) := by
  unfold State.ownFailure
  repeat' (first
      | with_reducible exact Only.refl _ _ | with_reducible decide | with_reducible refine Only.after (State.setIntervals_only ..) ?_ ?_
      | with_reducible refine Only.after (State.add_only ..) ?_ ?_)

theorem State.announceFailure_only (s : State) : Only [.jobs, .bring, .dict] s (State.announceFailure s) := by
  unfold State.announceFailure
  repeat' (first
      | with_reducible exact Only.refl _ _ | with_reducible decide | with_reducible refine Only.after (State.ownFailure_only ..) ?_ ?_
      | (extract_lets) | split | fail_if_no_progress with_reducible refine Only.upd ?_)

theorem State.distrust_only (s : State) (a2) (a3) : Only [.port, .sessions, .jobs, .log, .dict, .tiers, .fabric, .tileUnits] s (State.distrust s a2 a3) := by
  unfold State.distrust
  repeat' (first
      | with_reducible exact Only.refl _ _ | intro _ | with_reducible decide | with_reducible refine Only.after (State.raiseJob_only ..) ?_ ?_
      | with_reducible refine Only.after (State.add_only ..) ?_ ?_ | with_reducible refine Only.after (State.updJob_only ..) ?_ ?_
      | with_reducible refine Only.after (State.updStep_only ..) ?_ ?_ | with_reducible refine Only.after (State.restart_only ..) ?_ ?_
      | with_reducible refine Only.after (State.discardLedger_only ..) ?_ ?_ | with_reducible refine Only.trans ?_ (Only.foldl _ _ _ ?_)
      | (extract_lets) | split)

theorem State.loseTile_only (s : State) (a2) (a3) : Only [.port, .sessions, .jobs, .bring, .log, .dict, .tiers, .dma, .fabric, .tileUnits] s (State.loseTile s a2 a3) := by
  unfold State.loseTile
  repeat' (first
      | with_reducible exact Only.refl _ _ | intro _ | with_reducible decide | with_reducible refine Only.after (State.raise_only ..) ?_ ?_
      | with_reducible refine Only.after (State.updUnit_only ..) ?_ ?_ | with_reducible refine Only.after (State.endLandings_only ..) ?_ ?_
      | with_reducible refine Only.after (State.announceFailure_only ..) ?_ ?_ | with_reducible refine Only.after (State.restart_only ..) ?_ ?_
      | with_reducible refine Only.after (State.distrust_only ..) ?_ ?_ | with_reducible refine Only.trans ?_ (Only.foldl _ _ _ ?_) | (extract_lets)
      | split | fail_if_no_progress with_reducible refine Only.upd ?_)

theorem State.retire_only (s : State) (a2) (a3) : Only [.port, .sessions, .jobs, .bring, .log, .dict, .tiers, .dma, .fabric, .tileUnits] s (State.retire s a2 a3) := by
  unfold State.retire
  repeat' (first
      | with_reducible exact Only.refl _ _ | with_reducible decide | with_reducible refine Only.after (State.loseTile_only ..) ?_ ?_
      | with_reducible refine Only.after (State.endLandings_only ..) ?_ ?_ | with_reducible refine Only.after (State.updUnit_only ..) ?_ ?_
      | (extract_lets) | split)

theorem execTileRetire_only (a1) (a2) (a3) (s : State) (t : State) (h : execTileRetire a1 a2 a3 s = .next t) : Only [.port, .sessions, .jobs, .bring, .log, .dict, .tiers, .dma, .fabric, .tileUnits] s t := by
  unfold execTileRetire at h
  injection h with h; subst h
  repeat' (first
      | with_reducible exact Only.refl _ _ | with_reducible decide | with_reducible refine Only.after (State.retire_only ..) ?_ ?_ | split)

theorem execSpareStart_only (a1) (s : State) (t : State) (h : execSpareStart a1 s = .next t) : Only [.port, .sessions, .jobs, .log, .dict, .tiers, .fabric, .tileUnits, .spares] s t := by
  unfold execSpareStart at h
  injection h with h; subst h
  repeat' (first
      | with_reducible exact Only.refl _ _ | intro _ | with_reducible decide | with_reducible refine Only.after (State.updUnit_only ..) ?_ ?_
      | with_reducible refine Only.after (State.restart_only ..) ?_ ?_ | with_reducible refine Only.after (State.distrust_only ..) ?_ ?_
      | with_reducible refine Only.after (State.raise_only ..) ?_ ?_ | with_reducible refine Only.trans ?_ (Only.foldl _ _ _ ?_) | (extract_lets)
      | split | fail_if_no_progress with_reducible refine Only.upd ?_)

theorem execSelfCheck_only (a1) (a2) (s : State) (t : State) (h : execSelfCheck a1 a2 s = .next t) : Only [.port, .sessions, .jobs, .bring, .log, .dict, .tiers, .dma, .fabric, .tileUnits] s t := by
  unfold execSelfCheck at h
  injection h with h; subst h
  repeat' (first
      | with_reducible exact Only.refl _ _ | with_reducible decide | with_reducible refine Only.after (State.updUnit_only ..) ?_ ?_
      | with_reducible refine Only.after (State.retire_only ..) ?_ ?_ | with_reducible refine Only.after (State.add_only ..) ?_ ?_ | (extract_lets)
      | split)

theorem State.poisonRerun_only (s : State) (a2) (a3) (a4) (a5) : Only [.port, .sessions, .jobs, .bring, .log, .dict, .tiers, .dma, .fabric, .tileUnits] s (State.poisonRerun s a2 a3 a4 a5) := by
  unfold State.poisonRerun
  repeat' (first
      | with_reducible exact Only.refl _ _ | with_reducible decide | with_reducible refine Only.after (State.updStep_only ..) ?_ ?_
      | with_reducible refine Only.after (State.add_only ..) ?_ ?_ | with_reducible refine Only.after (State.restart_only ..) ?_ ?_
      | with_reducible refine Only.after (State.retire_only ..) ?_ ?_ | (extract_lets) | split)

theorem execPoisonConsumed_only (a1) (a2) (a3) (a4) (a5) (a6) (a7) (s : State) (t : State) (h : execPoisonConsumed a1 a2 a3 a4 a5 a6 a7 s = .next t) : Only [.port, .sessions, .jobs, .bring, .log, .dict, .tiers, .dma, .fabric, .tileUnits] s t := by
  unfold execPoisonConsumed at h
  injection h with h; subst h
  repeat' (first
      | with_reducible exact Only.refl _ _ | intro _ | with_reducible decide | with_reducible refine Only.after (State.raiseJob_only ..) ?_ ?_
      | with_reducible refine Only.after (State.add_only ..) ?_ ?_ | with_reducible refine Only.after (State.updStep_only ..) ?_ ?_
      | with_reducible refine Only.after (State.restart_only ..) ?_ ?_ | with_reducible refine Only.after (State.poisonRerun_only ..) ?_ ?_
      | with_reducible refine Only.after (State.discardLedger_only ..) ?_ ?_ | with_reducible refine Only.after (State.updJob_only ..) ?_ ?_
      | with_reducible refine Only.after (State.retire_only ..) ?_ ?_ | with_reducible refine Only.trans ?_ (Only.foldl _ _ _ ?_) | (extract_lets)
      | split)

theorem State.moveBranch_only (s : State) (a2) (a3) (a4) (a5) : Only [.jobs, .dict, .tileUnits] s (State.moveBranch s a2 a3 a4 a5).1 := by
  unfold State.moveBranch
  repeat' (first
      | with_reducible exact Only.refl _ _ | with_reducible decide | with_reducible refine Only.after (State.setRole_only ..) ?_ ?_
      | with_reducible refine Only.after (State.updJob_only ..) ?_ ?_ | (extract_lets) | split | (dsimp only) | (dsimp +zetaDelta only; split))
theorem State.moveBranch_only' {s : State} {a2} {a3} {a4} {a5} {x} {t} (h : State.moveBranch s a2 a3 a4 a5 = (t, x)) : Only [.jobs, .dict, .tileUnits] s t := by
  have k := State.moveBranch_only s a2 a3 a4 a5; rw [h] at k; exact k

theorem State.moveBranches_only (a1) (a2) (a3) (n) (s : State) (a5) (a6) : Only [.jobs, .dict, .tileUnits] s (State.moveBranches a1 a2 a3 n s a5 a6).1 := by
  induction n generalizing s a5 a6 with
  | zero => exact Only.refl _ s
  | succ n ih =>
    unfold State.moveBranches
    split
    split
    · exact ((State.moveBranch_only' ‹_›).mono (by decide)).trans (ih ..)
    · exact (State.moveBranch_only' ‹_›).mono (by decide)
theorem State.moveBranches_only' {a1} {a2} {a3} {a4} {s : State} {a5} {a6} {x} {t} (h : State.moveBranches a1 a2 a3 a4 s a5 a6 = (t, x)) : Only [.jobs, .dict, .tileUnits] s t := by
  have k := State.moveBranches_only a1 a2 a3 a4 s a5 a6; rw [h] at k; exact k

theorem execBranchRebalance_only (a1) (a2) (a3) (s : State) (t : State) (h : execBranchRebalance a1 a2 a3 s = .next t) : Only [.port, .sessions, .jobs, .log, .dict, .tileUnits] s t := by
  unfold execBranchRebalance at h
  injection h with h; subst h
  repeat' (first
      | with_reducible exact Only.refl _ _ | with_reducible decide | with_reducible refine Only.after (State.raiseJob_only ..) ?_ ?_
      | (extract_lets) | split | with_reducible (apply Only.trans; rotate_left; apply Only.mono; apply State.moveBranches_only'; assumption))

end Sys2Proof.Machine
end

