-- ==== Sys2Proof/Laws/OnlyPowerRows.lean ====
section
/-!
SUPPORT. The parts of the state the operations of PowerRows may change.
-/
set_option linter.unusedTactic false
set_option linter.unusedVariables false
set_option Elab.async false
namespace Sys2Proof.Machine
open Sys2Proof

theorem State.updPower_only (s : State) (a2) : Only [.power] s (State.updPower s a2) := by
  unfold State.updPower
  repeat' (first | with_reducible exact Only.refl _ _ | fail_if_no_progress with_reducible refine Only.upd ?_)

theorem State.updBring_only (s : State) (a2) : Only [.bring] s (State.updBring s a2) := by
  unfold State.updBring
  repeat' (first | with_reducible exact Only.refl _ _ | fail_if_no_progress with_reducible refine Only.upd ?_)

theorem State.railsOff_only (s : State) : Only [.port, .jobs, .bring, .power, .sec, .dict, .blocks, .tiers, .dma, .rel, .fabric, .tileUnits, .carrel, .carrelPoison] s (State.railsOff s) := by
  unfold State.railsOff
  repeat' (first | with_reducible exact Only.refl _ _ | (extract_lets) | fail_if_no_progress with_reducible refine Only.upd ?_)

theorem execBrownOut_only (a1) (s : State) (t : State) (h : execBrownOut a1 s = .next t) : Only [.port, .jobs, .bring, .power, .sec, .dict, .blocks, .tiers, .dma, .rel, .fabric, .tileUnits, .carrel, .carrelPoison] s t := by
  unfold execBrownOut at h
  injection h with h; subst h
  repeat' (first
      | with_reducible exact Only.refl _ _ | with_reducible decide | with_reducible refine Only.after (State.add_only ..) ?_ ?_
      | with_reducible refine Only.after (State.updBring_only ..) ?_ ?_ | with_reducible refine Only.after (State.updPower_only ..) ?_ ?_
      | with_reducible refine Only.after (State.railsOff_only ..) ?_ ?_ | split)

theorem execExternalPowerLost_only (a1) (s : State) (t : State) (h : execExternalPowerLost a1 s = .next t) : Only [.port, .sessions, .jobs, .bring, .power, .sec, .seg, .log, .dict, .blocks, .abandoned, .retainedWrites, .baseStaged, .tiers, .dma, .rel, .fabric, .tileUnits, .carrel, .carrelPoison, .reply] s t := by
  unfold execExternalPowerLost at h
  injection h with h; subst h
  repeat' (first
      | with_reducible exact Only.refl _ _ | with_reducible decide | with_reducible refine Only.after (State.railsOff_only ..) ?_ ?_
      | (extract_lets) | split | fail_if_no_progress with_reducible refine Only.upd ?_)

theorem execInputLow_only (a1) (s : State) (t : State) (h : execInputLow a1 s = .next t) : Only [.port, .sessions, .power, .log, .dict] s t := by
  unfold execInputLow at h
  injection h with h; subst h
  repeat' (first
      | with_reducible exact Only.refl _ _ | with_reducible decide | with_reducible refine Only.after (State.raise_only ..) ?_ ?_
      | with_reducible refine Only.after (State.updPower_only ..) ?_ ?_ | split)

theorem execInputHigh_only (a1) (s : State) (t : State) (h : execInputHigh a1 s = .next t) : Only [.port, .sessions, .power, .log, .dict] s t := by
  unfold execInputHigh at h
  injection h with h; subst h
  repeat' (first
      | with_reducible exact Only.refl _ _ | with_reducible decide | with_reducible refine Only.after (State.raise_only ..) ?_ ?_
      | with_reducible refine Only.after (State.updPower_only ..) ?_ ?_ | split)

theorem execInputWarningCleared_only (a1) (s : State) (t : State) (h : execInputWarningCleared a1 s = .next t) : Only [.power] s t := by
  unfold execInputWarningCleared at h
  injection h with h; subst h
  repeat' (first
      | with_reducible exact Only.refl _ _ | with_reducible decide | with_reducible refine Only.after (State.updPower_only ..) ?_ ?_
      | (extract_lets) | split)

theorem execCurrentLimit_only (a1) (a2) (a3) (s : State) (t : State) (h : execCurrentLimit a1 a2 a3 s = .next t) : Only [.power, .dict] s t := by
  unfold execCurrentLimit at h
  injection h with h; subst h
  repeat' (first
      | with_reducible exact Only.refl _ _ | with_reducible decide | with_reducible refine Only.after (State.setNum_only ..) ?_ ?_
      | with_reducible refine Only.after (State.updPower_only ..) ?_ ?_ | with_reducible refine Only.after (State.add_only ..) ?_ ?_
      | (extract_lets) | split)

theorem execPhaseLost_only (a1) (a2) (s : State) (t : State) (h : execPhaseLost a1 a2 s = .next t) : Only [.port, .sessions, .jobs, .bring, .power, .day, .log, .dict] s t := by
  unfold execPhaseLost at h
  injection h with h; subst h
  repeat' (first
      | with_reducible exact Only.refl _ _ | with_reducible decide | with_reducible refine Only.after (State.raise_only ..) ?_ ?_
      | with_reducible refine Only.after (State.announceFailure_only ..) ?_ ?_ | (extract_lets) | split
      | fail_if_no_progress with_reducible refine Only.upd ?_)

theorem execThermalSample_only (a1) (s : State) (t : State) (h : execThermalSample a1 s = .next t) : Only [.port, .sessions, .jobs, .bring, .power, .day, .sec, .log, .dict, .blocks, .tiers, .dma, .rel, .fabric, .tileUnits, .carrel, .carrelPoison] s t := by
  unfold execThermalSample at h
  injection h with h; subst h
  repeat' (first
      | with_reducible exact Only.refl _ _ | intro _ | with_reducible decide | with_reducible refine Only.after (State.raise_only ..) ?_ ?_
      | with_reducible refine Only.after (State.add_only ..) ?_ ?_ | with_reducible refine Only.after (State.updPower_only ..) ?_ ?_
      | with_reducible refine Only.after (State.railsOff_only ..) ?_ ?_ | with_reducible refine Only.trans ?_ (Only.foldl _ _ _ ?_) | (extract_lets)
      | split | fail_if_no_progress with_reducible refine Only.upd ?_)

theorem execDieSleep_only (a1) (s : State) (t : State) (h : execDieSleep a1 s = .next t) : Only [.power] s t := by
  unfold execDieSleep at h
  injection h with h; subst h
  repeat' (first
      | with_reducible exact Only.refl _ _ | with_reducible decide | with_reducible refine Only.after (State.updPower_only ..) ?_ ?_ | split)

theorem execDieWake_only (a1) (s : State) (t : State) (h : execDieWake a1 s = .next t) : Only [.power, .dict] s t := by
  unfold execDieWake at h
  injection h with h; subst h
  repeat' (first
      | with_reducible exact Only.refl _ _ | with_reducible decide | with_reducible refine Only.after (State.add_only ..) ?_ ?_
      | with_reducible refine Only.after (State.updPower_only ..) ?_ ?_ | split)

theorem execDieWakeComplete_only (a1) (a2) (s : State) (t : State) (h : execDieWakeComplete a1 a2 s = .next t) : Only [.power, .dict] s t := by
  unfold execDieWakeComplete at h
  injection h with h; subst h
  repeat' (first
      | with_reducible exact Only.refl _ _ | with_reducible decide | with_reducible refine Only.after (State.add_only ..) ?_ ?_
      | with_reducible refine Only.after (State.updPower_only ..) ?_ ?_ | split)

theorem execRefclkLoss_only (s : State) (t : State) (h : execRefclkLoss s = .next t) : Only [.port, .dma] s t := by
  unfold execRefclkLoss at h
  injection h with h; subst h
  repeat' (first
      | with_reducible exact Only.refl _ _ | with_reducible decide | with_reducible refine Only.after (State.portReset_only ..) ?_ ?_ | split)

theorem execSueshRefclkLoss_only (s : State) (t : State) (h : execSueshRefclkLoss s = .next t) : Only [.port, .sessions, .log, .dict, .fabric] s t := by
  unfold execSueshRefclkLoss at h
  injection h with h; subst h
  repeat' (first
      | with_reducible exact Only.refl _ _ | intro _ | with_reducible decide | with_reducible refine Only.after (State.portDown_only ..) ?_ ?_
      | with_reducible refine Only.trans ?_ (Only.foldl _ _ _ ?_) | (extract_lets) | split)

theorem execPwrEnAssert_only (s : State) (t : State) (h : execPwrEnAssert s = .next t) : Only [.power] s t := by
  unfold execPwrEnAssert at h
  injection h with h; subst h
  repeat' (first | with_reducible exact Only.refl _ _ | with_reducible decide | with_reducible refine Only.after (State.updPower_only ..) ?_ ?_)

theorem execPwrEnDeassert_only (s : State) (t : State) (h : execPwrEnDeassert s = .next t) : Only [.port, .jobs, .bring, .power, .sec, .dict, .blocks, .tiers, .dma, .rel, .fabric, .tileUnits, .carrel, .carrelPoison] s t := by
  unfold execPwrEnDeassert at h
  injection h with h; subst h
  repeat' (first
      | with_reducible exact Only.refl _ _ | with_reducible decide | with_reducible refine Only.after (State.updPower_only ..) ?_ ?_
      | with_reducible refine Only.after (State.railsOff_only ..) ?_ ?_ | with_reducible refine Only.after (State.disarm_only ..) ?_ ?_
      | with_reducible refine Only.after (State.announceFailure_only ..) ?_ ?_ | (extract_lets) | split)

theorem execPosAddrChange_only (a1) (s : State) (t : State) (h : execPosAddrChange a1 s = .next t) : Only [.port, .sessions, .power, .seg, .log, .dict] s t := by
  unfold execPosAddrChange at h
  injection h with h; subst h
  repeat' (first
      | with_reducible exact Only.refl _ _ | with_reducible decide | with_reducible refine Only.after (State.updPower_only ..) ?_ ?_
      | with_reducible refine Only.after (State.takeNode_only ..) ?_ ?_ | (extract_lets) | split)

end Sys2Proof.Machine
end

