-- ==== Sys2Proof/Laws/OnlyLoads.lean ====
section
/-!
SUPPORT. The parts of the state the operations of Loads may change.
-/
set_option linter.unusedTactic false
set_option linter.unusedVariables false
set_option Elab.async false
namespace Sys2Proof.Machine
open Sys2Proof

theorem State.putGraph_only (s : State) (a2) (a3) : Only [.jobs, .tiers, .draws] s (State.putGraph s a2 a3) := by
  unfold State.putGraph
  repeat' (first
      | with_reducible exact Only.refl _ _ | intro _ | with_reducible decide | with_reducible refine Only.after (State.putTile_only ..) ?_ ?_
      | with_reducible refine Only.after (State.updBody_only ..) ?_ ?_ | with_reducible refine Only.trans ?_ (Only.foldl _ _ _ ?_))

theorem execGraphLoad_only (a1) (s : State) (t : State) (h : execGraphLoad a1 s = .next t) : Only [.port, .jobs, .tiers, .draws] s t := by
  unfold execGraphLoad at h
  injection h with h; subst h
  repeat' (first
      | with_reducible exact Only.refl _ _ | intro _ | with_reducible decide
      | with_reducible refine Only.trans ?_ (State.jobCommand_only (h6 := ?_) (hw := ?_) ..)
      | with_reducible refine Only.after (State.done_only ..) ?_ ?_ | with_reducible refine Only.after (State.putGraph_only ..) ?_ ?_)

theorem State.applyFeature_only (s : State) (a2) (a3) : Only [.tiers, .draws] s (State.applyFeature s a2 a3) := by
  unfold State.applyFeature
  repeat' (first
      | with_reducible exact Only.refl _ _ | intro _ | with_reducible decide | with_reducible refine Only.after (State.putTile_only ..) ?_ ?_
      | with_reducible refine Only.trans ?_ (Only.foldl _ _ _ ?_))

theorem execFeatureLoad_only (a1) (s : State) (t : State) (h : execFeatureLoad a1 s = .next t) : Only [.port, .jobs, .tiers, .draws] s t := by
  unfold execFeatureLoad at h
  injection h with h; subst h
  repeat' (first
      | with_reducible exact Only.refl _ _ | intro _ | with_reducible decide
      | with_reducible refine Only.trans ?_ (State.jobCommand_only (h6 := ?_) (hw := ?_) ..)
      | with_reducible refine Only.after (State.updBody_only ..) ?_ ?_
      | with_reducible refine Only.trans ?_ (State.atPoint_only (h4 := ?_) (hw := ?_) ..)
      | with_reducible refine Only.after (State.applyFeature_only ..) ?_ ?_ | (extract_lets) | split)

theorem State.applyParam_only (s : State) (a2) (a3) (a4) : Only [.jobs, .tiers, .fabric, .draws] s (State.applyParam s a2 a3 a4) := by
  unfold State.applyParam
  repeat' (first
      | with_reducible exact Only.refl _ _ | with_reducible decide | with_reducible refine Only.after (State.updParam_only ..) ?_ ?_
      | with_reducible refine Only.after (State.broadcastFrom_only ..) ?_ ?_ | with_reducible refine Only.after (State.writeCopy_only ..) ?_ ?_
      | (extract_lets) | split)

theorem execParamRead_only (a1) (s : State) (t : State) (h : execParamRead a1 s = .next t) : Only [.port, .jobs] s t := by
  unfold execParamRead at h
  injection h with h; subst h
  repeat' (first
      | with_reducible exact Only.refl _ _ | intro _ | with_reducible decide
      | with_reducible refine Only.trans ?_ (State.jobCommand_only (h6 := ?_) (hw := ?_) ..)
      | with_reducible refine Only.after (State.done_only ..) ?_ ?_
      | with_reducible refine Only.trans ?_ (State.atPoint_only (h4 := ?_) (hw := ?_) ..) | (extract_lets) | split | exact Only.refl _ _)

theorem execParamWrite_only (a1) (s : State) (t : State) (h : execParamWrite a1 s = .next t) : Only [.port, .jobs, .tiers, .fabric, .draws] s t := by
  unfold execParamWrite at h
  injection h with h; subst h
  repeat' (first
      | with_reducible exact Only.refl _ _ | intro _ | with_reducible decide
      | with_reducible refine Only.trans ?_ (State.jobCommand_only (h6 := ?_) (hw := ?_) ..)
      | with_reducible refine Only.trans ?_ (State.atPoint_only (h4 := ?_) (hw := ?_) ..)
      | with_reducible refine Only.after (State.applyParam_only ..) ?_ ?_)

theorem State.runDeferred_only (s : State) (a2) (a3) : Only [.port, .jobs, .tiers, .fabric, .draws] s (State.runDeferred s a2 a3) := by
  unfold State.runDeferred
  repeat' (first
      | with_reducible exact Only.refl _ _ | with_reducible decide | with_reducible refine Only.after (State.finishAsker_only ..) ?_ ?_
      | with_reducible refine Only.after (State.applyLoad_only ..) ?_ ?_ | with_reducible refine Only.after (State.applyFeature_only ..) ?_ ?_
      | with_reducible refine Only.after (State.applyParam_only ..) ?_ ?_ | split)

theorem runDeferredsOf_only (a1) (n) (s : State) : Only [.port, .jobs, .tiers, .fabric, .draws] s (runDeferredsOf a1 n s) := by
  induction n generalizing s with
  | zero => exact Only.refl _ s
  | succ n ih =>
    unfold runDeferredsOf
    split
    · exact Only.refl _ _
    · split
      · split
        · exact ((State.updJob_only ..).mono (by decide)).trans (((State.runDeferred_only ..).mono (by decide)).trans (ih _))
        · exact Only.refl _ _
      · exact Only.refl _ _

theorem State.runDeferreds_only (s : State) (a2) : Only [.port, .jobs, .tiers, .fabric, .draws] s (State.runDeferreds s a2) := by
  unfold State.runDeferreds
  repeat' (first | with_reducible exact Only.refl _ _ | with_reducible decide | with_reducible refine Only.after (runDeferredsOf_only ..) ?_ ?_)

theorem State.notReady_only (s : State) (a2) : Only [.port, .draws] s (State.notReady s a2) := by
  unfold State.notReady
  repeat' (first
      | with_reducible exact Only.refl _ _ | with_reducible decide | with_reducible refine Only.after (State.finish_only ..) ?_ ?_ | (extract_lets)
      | with_reducible refine Only.after (draw_only ..) ?_ ?_)

theorem execResultRead_only (a1) (s : State) (t : State) (h : execResultRead a1 s = .next t) : Only [.port, .jobs, .draws] s t := by
  unfold execResultRead at h
  injection h with h; subst h
  repeat' (first
      | with_reducible exact Only.refl _ _ | intro _ | with_reducible decide
      | with_reducible refine Only.trans ?_ (State.runCommand_only (h6 := ?_) (hw := ?_) ..)
      | with_reducible refine Only.after (State.done_only ..) ?_ ?_ | with_reducible refine Only.after (State.updBody_only ..) ?_ ?_
      | with_reducible refine Only.after (State.notReady_only ..) ?_ ?_ | (extract_lets) | split)

theorem execResultRelease_only (a1) (s : State) (t : State) (h : execResultRelease a1 s = .next t) : Only [.port, .jobs, .draws] s t := by
  unfold execResultRelease at h
  injection h with h; subst h
  repeat' (first
      | with_reducible exact Only.refl _ _ | intro _ | with_reducible decide
      | with_reducible refine Only.trans ?_ (State.runCommand_only (h6 := ?_) (hw := ?_) ..)
      | with_reducible refine Only.after (State.done_only ..) ?_ ?_ | with_reducible refine Only.after (State.updBody_only ..) ?_ ?_
      | with_reducible refine Only.after (State.notReady_only ..) ?_ ?_ | (extract_lets) | split)

end Sys2Proof.Machine
end

