-- ==== Sys2Proof/Laws/OnlyStepRows.lean ====
section
/-!
SUPPORT. The parts of the state the operations of StepRows may change.
-/
set_option linter.unusedTactic false
set_option linter.unusedVariables false
set_option Elab.async false
namespace Sys2Proof.Machine
open Sys2Proof

theorem State.repeatLayer_only (s : State) (a2) (a3) (a4) (a5) (a6) : Only [.port, .sessions, .jobs, .log, .dict, .tiers, .fabric, .tileUnits] s (State.repeatLayer s a2 a3 a4 a5 a6) := by
  unfold State.repeatLayer
  repeat' (first
      | with_reducible exact Only.refl _ _ | intro _ | with_reducible decide | with_reducible refine Only.after (State.logRecord_only ..) ?_ ?_
      | with_reducible refine Only.after (State.count_only ..) ?_ ?_ | with_reducible refine Only.after (State.raiseJob_only ..) ?_ ?_
      | with_reducible refine Only.after (State.updJob_only ..) ?_ ?_ | with_reducible refine Only.after (State.updStep_only ..) ?_ ?_
      | with_reducible refine Only.after (State.restart_only ..) ?_ ?_ | with_reducible refine Only.after (State.discardLedger_only ..) ?_ ?_
      | with_reducible refine Only.trans ?_ (Only.foldl _ _ _ ?_) | (extract_lets) | split)

theorem execLayerCheck_only (a1) (a2) (a3) (a4) (s : State) (t : State) (h : execLayerCheck a1 a2 a3 a4 s = .next t) : Only [.port, .sessions, .jobs, .log, .dict, .tiers, .fabric, .tileUnits, .draws] s t := by
  unfold execLayerCheck at h
  injection h with h; subst h
  repeat' (first
      | with_reducible exact Only.refl _ _ | with_reducible decide | with_reducible refine Only.after (State.repeatLayer_only ..) ?_ ?_
      | with_reducible refine Only.after (State.updStep_only ..) ?_ ?_ | with_reducible refine Only.after (State.raiseJob_only ..) ?_ ?_
      | with_reducible refine Only.after (State.count_only ..) ?_ ?_ | with_reducible refine Only.after (State.afterWork_only ..) ?_ ?_
      | (extract_lets) | split | (with_reducible change Only _ _ (ite _ _ _); split))

theorem State.setWatch_only (s : State) (a2) (a3) : Only [.jobs] s (State.setWatch s a2 a3) := by
  unfold State.setWatch
  repeat' (first | with_reducible exact Only.refl _ _ | with_reducible decide | with_reducible refine Only.after (State.updBody_only ..) ?_ ?_)

theorem execScaleUpdate_only (a1) (a2) (a3) (s : State) (t : State) (h : execScaleUpdate a1 a2 a3 s = .next t) : Only [.port, .sessions, .jobs, .log, .dict] s t := by
  unfold execScaleUpdate at h
  injection h with h; subst h
  repeat' (first
      | with_reducible exact Only.refl _ _ | with_reducible decide | with_reducible refine Only.after (State.updStep_only ..) ?_ ?_
      | with_reducible refine Only.after (State.setWatch_only ..) ?_ ?_ | with_reducible refine Only.after (State.raiseJob_only ..) ?_ ?_
      | with_reducible refine Only.after (State.logRecord_only ..) ?_ ?_ | (extract_lets) | split
      | (with_reducible change Only _ _ (ite _ _ _); split))

theorem State.rescale_only (s : State) (a2) (a3) (a4) : Only [.port, .sessions, .jobs, .log, .dict] s (State.rescale s a2 a3 a4) := by
  unfold State.rescale
  repeat' (first
      | with_reducible exact Only.refl _ _ | with_reducible decide | with_reducible refine Only.after (State.updStep_only ..) ?_ ?_
      | with_reducible refine Only.after (State.setWatch_only ..) ?_ ?_ | with_reducible refine Only.after (State.logRecord_only ..) ?_ ?_
      | with_reducible refine Only.after (State.raiseJob_only ..) ?_ ?_ | (extract_lets) | split)

theorem State.freeze_only (s : State) (a2) (a3) (a4) (a5) : Only [.jobs] s (State.freeze s a2 a3 a4 a5) := by
  unfold State.freeze
  repeat' (first
      | with_reducible exact Only.refl _ _ | with_reducible decide | with_reducible refine Only.after (State.logRecord_only ..) ?_ ?_
      | with_reducible refine Only.after (State.updStep_only ..) ?_ ?_ | with_reducible refine Only.after (State.updBody_only ..) ?_ ?_
      | with_reducible refine Only.after (State.updJob_only ..) ?_ ?_ | (extract_lets) | split)

theorem State.watchOne_only (s : State) (a2) (a3) (a4) : Only [.port, .sessions, .jobs, .log, .dict] s (State.watchOne s a2 a3 a4) := by
  unfold State.watchOne
  repeat' (first
      | with_reducible exact Only.refl _ _ | with_reducible decide | with_reducible refine Only.after (State.updStep_only ..) ?_ ?_
      | with_reducible refine Only.after (State.setWatch_only ..) ?_ ?_ | with_reducible refine Only.after (State.raiseJob_only ..) ?_ ?_
      | with_reducible refine Only.after (State.rescale_only ..) ?_ ?_ | with_reducible refine Only.after (State.freeze_only ..) ?_ ?_
      | with_reducible refine Only.after (State.logRecord_only ..) ?_ ?_ | (extract_lets) | split
      | (with_reducible change Only _ _ (ite _ _ _); split))

theorem execStuckZeroWatch_only (a1) (a2) (s : State) (t : State) (h : execStuckZeroWatch a1 a2 s = .next t) : Only [.port, .sessions, .jobs, .log, .dict] s t := by
  unfold execStuckZeroWatch at h
  injection h with h; subst h
  repeat' (first
      | with_reducible exact Only.refl _ _ | intro _ | with_reducible decide | with_reducible refine Only.after (State.updStep_only ..) ?_ ?_
      | with_reducible refine Only.after (State.watchOne_only ..) ?_ ?_ | with_reducible refine Only.trans ?_ (Only.foldl _ _ _ ?_) | split)

theorem State.shelfBack_only (s : State) (a2) (a3) : Only [.jobs, .tiers, .draws] s (State.shelfBack s a2 a3) := by
  unfold State.shelfBack
  repeat' (first
      | with_reducible exact Only.refl _ _ | intro _ | with_reducible decide | with_reducible refine Only.after (State.writeRow_only ..) ?_ ?_
      | with_reducible refine Only.after (State.updBody_only ..) ?_ ?_ | with_reducible refine Only.trans ?_ (Only.foldl _ _ _ ?_) | split)

theorem State.widthOf_only (s : State) (a2) (a3) (a4) (a5) (a6) : Only [.port, .sessions, .jobs, .log, .dict, .tiers, .draws] s (State.widthOf s a2 a3 a4 a5 a6).1 := by
  unfold State.widthOf
  repeat' (first
      | with_reducible exact Only.refl _ _ | intro _ | with_reducible decide | with_reducible refine Only.after (State.count_only ..) ?_ ?_
      | with_reducible refine Only.after (State.updBody_only ..) ?_ ?_ | with_reducible refine Only.after (State.writePage_only ..) ?_ ?_
      | with_reducible refine Only.after (State.countRow_only ..) ?_ ?_ | with_reducible refine Only.after (State.raiseJob_only ..) ?_ ?_
      | with_reducible refine Only.trans ?_ (Only.foldl _ _ _ ?_) | (extract_lets) | split)
theorem State.widthOf_only' {s : State} {a2} {a3} {a4} {a5} {a6} {x} {t} (h : State.widthOf s a2 a3 a4 a5 a6 = (t, x)) : Only [.port, .sessions, .jobs, .log, .dict, .tiers, .draws] s t := by
  have k := State.widthOf_only s a2 a3 a4 a5 a6; rw [h] at k; exact k

theorem State.halve_only (s : State) (a2) (a3) (a4) : Only [.jobs, .tiers, .draws] s (State.halve s a2 a3 a4) := by
  unfold State.halve
  repeat' (first
      | with_reducible exact Only.refl _ _ | intro _ | with_reducible decide | with_reducible refine Only.after (State.writePage_only ..) ?_ ?_
      | with_reducible refine Only.trans ?_ (Only.foldl _ _ _ ?_) | (extract_lets) | split)

theorem State.loadShelf_only (s : State) (a2) (a3) (a4) : Only [.jobs] s (State.loadShelf s a2 a3 a4) := by
  unfold State.loadShelf
  repeat' (first
      | with_reducible exact Only.refl _ _ | intro _ | with_reducible decide | with_reducible refine Only.after (State.count_only ..) ?_ ?_
      | with_reducible refine Only.after (State.updBody_only ..) ?_ ?_ | with_reducible refine Only.trans ?_ (Only.foldl _ _ _ ?_) | (extract_lets)
      | split)

theorem State.suggest_only (s : State) (a2) : Only [.jobs] s (State.suggest s a2) := by
  unfold State.suggest
  repeat' (first
      | with_reducible exact Only.refl _ _ | with_reducible decide | with_reducible refine Only.after (State.updBody_only ..) ?_ ?_ | split)

theorem execRefresh_only (a1) (a2) (s : State) (t : State) (h : execRefresh a1 a2 s = .next t) : Only [.port, .sessions, .jobs, .log, .dict, .tiers, .draws] s t := by
  unfold execRefresh at h
  injection h with h; subst h
  repeat' (first
      | with_reducible exact Only.refl _ _ | intro _ | with_reducible decide | with_reducible refine Only.after (State.shelfBack_only ..) ?_ ?_
      | with_reducible refine Only.after (State.logRecord_only ..) ?_ ?_ | with_reducible refine Only.after (State.halve_only ..) ?_ ?_
      | with_reducible refine Only.after (State.suggest_only ..) ?_ ?_ | with_reducible refine Only.after (State.loadShelf_only ..) ?_ ?_
      | with_reducible refine Only.after (State.updJob_only ..) ?_ ?_ | with_reducible refine Only.after (State.updStep_only ..) ?_ ?_
      | with_reducible refine Only.trans ?_ (Only.foldl _ _ _ ?_) | (extract_lets) | split
      | with_reducible refine Only.after (State.widthOf_only ..) ?_ ?_ | with_reducible refine Only.trans ?_ (Only.foldlFst _ _ _ ?_))

theorem State.returnRows_only (s : State) (a2) : Only [.port, .jobs] s (State.returnRows s a2) := by
  unfold State.returnRows
  repeat' (first
      | with_reducible exact Only.refl _ _ | intro _ | with_reducible decide | with_reducible refine Only.after (State.updBody_only ..) ?_ ?_
      | with_reducible refine Only.after (State.holdFragments_only ..) ?_ ?_ | with_reducible refine Only.trans ?_ (Only.foldl _ _ _ ?_)
      | (extract_lets) | split)

theorem State.settleCounters_only (s : State) (a2) (a3) : Only [.jobs] s (State.settleCounters s a2 a3) := by
  unfold State.settleCounters
  repeat' (first | with_reducible exact Only.refl _ _ | with_reducible decide | with_reducible refine Only.after (State.updBody_only ..) ?_ ?_)

theorem State.countSkips_only (s : State) (a2) (a3) : Only [.jobs] s (State.countSkips s a2 a3) := by
  unfold State.countSkips
  repeat' (first
      | with_reducible exact Only.refl _ _ | intro _ | with_reducible decide | with_reducible refine Only.after (State.count_only ..) ?_ ?_
      | with_reducible refine Only.after (State.updBody_only ..) ?_ ?_ | with_reducible refine Only.trans ?_ (Only.foldl _ _ _ ?_) | split)

theorem State.recordPipeline_only (s : State) (a2) (a3) : Only [.jobs, .draws] s (State.recordPipeline s a2 a3) := by
  unfold State.recordPipeline
  repeat' (first
      | with_reducible exact Only.refl _ _ | with_reducible decide | with_reducible refine Only.after (State.updJob_only ..) ?_ ?_ | (extract_lets)
      | with_reducible refine Only.after (draw_only ..) ?_ ?_)

theorem State.nextReplay_only (s : State) (a2) : Only [.port, .jobs] s (State.nextReplay s a2) := by
  unfold State.nextReplay
  repeat' (first
      | with_reducible exact Only.refl _ _ | with_reducible decide | with_reducible refine Only.after (State.releaseReplay_only ..) ?_ ?_ | split)

theorem State.completeStep_only (s : State) (a2) (a3) : Only [.port, .sessions, .jobs, .sec, .log, .dict, .blocks, .tiers, .fabric, .tileUnits, .carrel, .carrelPoison, .draws] s (State.completeStep s a2 a3) := by
  unfold State.completeStep
  split
  · extract_lets
    with_reducible refine Only.after (State.wakeAll_only ..) ?_ (by decide)
    with_reducible refine Only.after (State.tryClose_only ..) ?_ (by decide)
    with_reducible refine Only.after (State.serveWaiting_only ..) ?_ (by decide)
    with_reducible refine Only.upd ?_
    with_reducible refine Only.after (State.nextReplay_only ..) ?_ (by decide)
    with_reducible refine Only.after (State.updJob_only ..) ?_ (by decide)
    with_reducible refine Only.after (State.retireEditions_only ..) ?_ (by decide)
    with_reducible refine Only.after (State.runDeferreds_only ..) ?_ (by decide)
    with_reducible refine Only.after (State.freeHeld_only ..) ?_ (by decide)
    with_reducible refine Only.after (State.clearPhase_only ..) ?_ (by decide)
    with_reducible refine Only.after (State.updJob_only ..) ?_ (by decide)
    with_reducible refine Only.after (State.freeStepTiles_only ..) ?_ (by decide)
    with_reducible refine Only.after (State.finishAsker_only ..) ?_ (by decide)
    with_reducible refine Only.after (State.updBody_only ..) ?_ (by decide)
    with_reducible refine Only.after (State.recordPipeline_only ..) ?_ (by decide)
    with_reducible refine Only.after (State.settleCounters_only ..) ?_ (by decide)
    exact (State.countSkips_only ..).mono (by decide)
  · exact Only.refl _ _


theorem State.exhaustStep_only (s : State) (a2) (a3) : Only [.port, .jobs, .sec, .dict, .blocks, .tiers, .tileUnits, .carrel, .carrelPoison] s (State.exhaustStep s a2 a3) := by
  unfold State.exhaustStep
  repeat' (first
      | with_reducible exact Only.refl _ _ | with_reducible decide | with_reducible refine Only.after (State.updBody_only ..) ?_ ?_
      | with_reducible refine Only.after (State.freeStepTiles_only ..) ?_ ?_ | with_reducible refine Only.after (State.finishAsker_only ..) ?_ ?_
      | with_reducible refine Only.after (State.tryClose_only ..) ?_ ?_ | with_reducible refine Only.after (State.clearPhase_only ..) ?_ ?_
      | with_reducible refine Only.after (State.updJob_only ..) ?_ ?_ | split)

theorem State.finishStep_only (s : State) (a2) (a3) : Only [.port, .sessions, .jobs, .sec, .log, .dict, .blocks, .tiers, .fabric, .tileUnits, .carrel, .carrelPoison, .draws] s (State.finishStep s a2 a3) := by
  unfold State.finishStep
  repeat' (first
      | with_reducible exact Only.refl _ _ | with_reducible decide | with_reducible refine Only.after (State.updStep_only ..) ?_ ?_
      | with_reducible refine Only.after (State.logRecord_only ..) ?_ ?_ | with_reducible refine Only.after (State.returnRows_only ..) ?_ ?_
      | with_reducible refine Only.after (State.completeStep_only ..) ?_ ?_ | split)

theorem execStepComplete_only (a1) (a2) (s : State) (t : State) (h : execStepComplete a1 a2 s = .next t) : Only [.port, .sessions, .jobs, .sec, .log, .dict, .blocks, .tiers, .fabric, .tileUnits, .carrel, .carrelPoison, .draws] s t := by
  unfold execStepComplete at h
  injection h with h; subst h
  repeat' (first
      | with_reducible exact Only.refl _ _ | with_reducible decide | with_reducible refine Only.after (State.finishStep_only ..) ?_ ?_
      | with_reducible refine Only.after (State.closeContributions_only ..) ?_ ?_)

end Sys2Proof.Machine
end

