-- ==== Sys2Proof/Laws/OnlyRecoveryRows.lean ====
section
/-!
SUPPORT. The parts of the state the operations of RecoveryRows may change.
-/
set_option linter.unusedTactic false
set_option linter.unusedVariables false
set_option Elab.async false
namespace Sys2Proof.Machine
open Sys2Proof

theorem State.earlyDeposits_only (s : State) : Only [.jobs] s (State.earlyDeposits s) := by
  unfold State.earlyDeposits
  repeat' (first | with_reducible exact Only.refl _ _ | (extract_lets) | split | fail_if_no_progress with_reducible refine Only.upd ?_)

theorem State.committed_only (s : State) (a2) (a3) : Only [.port, .jobs, .sec, .dict, .blocks, .tiers, .tileUnits, .carrel, .carrelPoison] s (State.committed s a2 a3) := by
  unfold State.committed
  repeat' (first
      | with_reducible exact Only.refl _ _ | with_reducible decide | with_reducible refine Only.after (State.updJob_only ..) ?_ ?_
      | with_reducible refine Only.after (State.updInFlight_only ..) ?_ ?_ | with_reducible refine Only.after (State.tryClose_only ..) ?_ ?_
      | with_reducible refine Only.after (State.answer_only ..) ?_ ?_ | (extract_lets) | split)

theorem execLogCommit_only (a1) (a2) (s : State) (t : State) (h : execLogCommit a1 a2 s = .next t) : Only [.port, .sessions, .jobs, .sec, .log, .dict, .blocks, .tiers, .fabric, .tileUnits, .carrel, .carrelPoison] s t := by
  unfold execLogCommit at h
  injection h with h; subst h
  repeat' (first
      | with_reducible exact Only.refl _ _ | with_reducible decide | with_reducible refine Only.after (State.send_only ..) ?_ ?_
      | with_reducible refine Only.after (State.updJob_only ..) ?_ ?_ | with_reducible refine Only.after (State.earlyDeposits_only ..) ?_ ?_
      | with_reducible refine Only.after (State.committed_only ..) ?_ ?_ | with_reducible refine Only.after (State.raise_only ..) ?_ ?_
      | (extract_lets) | split | (with_reducible change Only _ _ (ite _ _ _); split) | fail_if_no_progress with_reducible refine Only.upd ?_)

theorem State.startDeposit_only (s : State) (a2) (a3) : Only [.jobs, .fabric, .draws] s (State.startDeposit s a2 a3) := by
  unfold State.startDeposit
  repeat' (first
      | with_reducible exact Only.refl _ _ | intro _ | with_reducible decide | with_reducible refine Only.after (State.updJob_only ..) ?_ ?_
      | with_reducible refine Only.after (State.send_only ..) ?_ ?_ | with_reducible refine Only.trans ?_ (Only.foldl _ _ _ ?_) | (extract_lets)
      | split | with_reducible (apply Only.trans; rotate_left; apply Only.mono; apply draw_only'; assumption))

theorem execDepositStart_only (a1) (a2) (s : State) (t : State) (h : execDepositStart a1 a2 s = .next t) : Only [.port, .sessions, .jobs, .log, .dict, .fabric, .draws] s t := by
  unfold execDepositStart at h
  injection h with h; subst h
  repeat' (first
      | with_reducible exact Only.refl _ _ | with_reducible decide | with_reducible refine Only.after (State.raiseJob_only ..) ?_ ?_
      | with_reducible refine Only.after (State.updJob_only ..) ?_ ?_ | with_reducible refine Only.after (State.startDeposit_only ..) ?_ ?_
      | (extract_lets) | split)

theorem execDepositCommit_only (a1) (a2) (s : State) (t : State) (h : execDepositCommit a1 a2 s = .next t) : Only [.jobs, .dict, .fabric] s t := by
  unfold execDepositCommit at h
  injection h with h; subst h
  repeat' (first
      | with_reducible exact Only.refl _ _ | intro _ | with_reducible decide | with_reducible refine Only.after (State.updJob_only ..) ?_ ?_
      | with_reducible refine Only.after (State.setNum_only ..) ?_ ?_ | with_reducible refine Only.after (State.send_only ..) ?_ ?_
      | with_reducible refine Only.after (State.earlyDeposits_only ..) ?_ ?_ | with_reducible refine Only.trans ?_ (Only.foldl _ _ _ ?_)
      | (extract_lets) | split | (with_reducible change Only _ _ (ite _ _ _); split) | (dsimp +zetaDelta only; split))

theorem execDepositIntervalEval_only (s : State) (t : State) (h : execDepositIntervalEval s = .next t) : Only [.port, .sessions, .jobs, .log, .dict] s t := by
  unfold execDepositIntervalEval at h
  injection h with h; subst h
  repeat' (first
      | with_reducible exact Only.refl _ _ | with_reducible decide | with_reducible refine Only.after (State.setIntervals_only ..) ?_ ?_
      | with_reducible refine Only.after (State.add_only ..) ?_ ?_ | with_reducible refine Only.after (State.raise_only ..) ?_ ?_ | (extract_lets)
      | split)

theorem State.liveness_only (s : State) (a2) (a3) (a4) (a5) : Only [.fabric] s (State.liveness s a2 a3 a4 a5) := by
  unfold State.liveness
  repeat' (first | with_reducible exact Only.refl _ _ | with_reducible decide | with_reducible refine Only.after (State.send_only ..) ?_ ?_)

theorem execLivenessProbeDue_only (s : State) (t : State) (h : execLivenessProbeDue s = .next t) : Only [.fabric] s t := by
  unfold execLivenessProbeDue at h
  injection h with h; subst h
  repeat' (first
      | with_reducible exact Only.refl _ _ | intro _ | with_reducible decide | with_reducible refine Only.after (State.liveness_only ..) ?_ ?_
      | with_reducible refine Only.after (State.updAssoc_only ..) ?_ ?_ | with_reducible refine Only.trans ?_ (Only.foldl _ _ _ ?_) | (extract_lets)
      | fail_if_no_progress with_reducible refine Only.upd ?_)

theorem State.livenessIn_only (s : State) (a2) (a3) (a4) (a5) (g6) {w : List Part} (h6 : ∀ y0 x, Only w x (g6 y0 x)) (hw : Part.within [.port, .sessions, .log, .dict, .fabric, .draws] w = true) : Only w s (State.livenessIn s a2 a3 a4 a5 g6) := by
  unfold State.livenessIn
  repeat' (first
      | with_reducible exact Only.refl _ _ | with_reducible assumption | exact Part.within_trans (by decide) hw
      | with_reducible refine Only.after (State.updAssoc_only ..) ?_ ?_ | with_reducible refine Only.trans ?_ (h6 ..) | (extract_lets) | split
      | with_reducible (apply Only.trans; rotate_left; apply Only.mono; apply State.receive_only'; assumption))

theorem execProbe_only (a1) (a2) (a3) (a4) (s : State) (t : State) (h : execProbe a1 a2 a3 a4 s = .next t) : Only [.port, .sessions, .log, .dict, .fabric, .draws] s t := by
  unfold execProbe at h
  injection h with h; subst h
  repeat' (first
      | with_reducible exact Only.refl _ _ | intro _ | with_reducible decide
      | with_reducible refine Only.trans ?_ (State.livenessIn_only (h6 := ?_) (hw := ?_) ..)
      | with_reducible refine Only.after (State.liveness_only ..) ?_ ?_ | (extract_lets) | split)

theorem execAnswer_only (a1) (a2) (a3) (a4) (s : State) (t : State) (h : execAnswer a1 a2 a3 a4 s = .next t) : Only [.port, .sessions, .log, .dict, .fabric, .draws] s t := by
  unfold execAnswer at h
  injection h with h; subst h
  repeat' (first
      | with_reducible exact Only.refl _ _ | intro _ | with_reducible decide
      | with_reducible refine Only.trans ?_ (State.livenessIn_only (h6 := ?_) (hw := ?_) ..)
      | with_reducible refine Only.after (State.updAssoc_only ..) ?_ ?_)

theorem execQuery_only (a1) (a2) (a3) (a4) (s : State) (t : State) (h : execQuery a1 a2 a3 a4 s = .next t) : Only [.port, .sessions, .log, .dict, .fabric, .draws] s t := by
  unfold execQuery at h
  injection h with h; subst h
  repeat' (first
      | with_reducible exact Only.refl _ _ | intro _ | with_reducible decide
      | with_reducible refine Only.trans ?_ (State.livenessIn_only (h6 := ?_) (hw := ?_) ..)
      | with_reducible refine Only.after (State.liveness_only ..) ?_ ?_ | (extract_lets) | split)

theorem execQueryAnswer_only (a1) (a2) (a3) (a4) (s : State) (t : State) (h : execQueryAnswer a1 a2 a3 a4 s = .next t) : Only [.port, .sessions, .log, .dict, .fabric, .draws] s t := by
  unfold execQueryAnswer at h
  injection h with h; subst h
  repeat' (first
      | with_reducible exact Only.refl _ _ | intro _ | with_reducible decide
      | with_reducible refine Only.trans ?_ (State.livenessIn_only (h6 := ?_) (hw := ?_) ..)
      | with_reducible refine Only.after (State.updAssoc_only ..) ?_ ?_)

theorem execLivenessTimeout_only (a1) (s : State) (t : State) (h : execLivenessTimeout a1 s = .next t) : Only [.fabric] s t := by
  unfold execLivenessTimeout at h
  injection h with h; subst h
  repeat' (first
      | with_reducible exact Only.refl _ _ | intro _ | with_reducible decide | with_reducible refine Only.after (State.updAssoc_only ..) ?_ ?_
      | with_reducible refine Only.after (State.liveness_only ..) ?_ ?_ | with_reducible refine Only.trans ?_ (Only.foldl _ _ _ ?_) | (extract_lets)
      | split)

theorem State.fence_only (s : State) (a2) (a3) : Only [.port, .sessions, .jobs, .log, .dict, .fabric, .tileUnits] s (State.fence s a2 a3) := by
  unfold State.fence
  repeat' (first
      | with_reducible exact Only.refl _ _ | with_reducible decide | with_reducible refine Only.after (State.raise_only ..) ?_ ?_ | (extract_lets)
      | split | fail_if_no_progress with_reducible refine Only.upd ?_)

theorem State.sendFence_only (s : State) (a2) (a3) : Only [.fabric] s (State.sendFence s a2 a3) := by
  unfold State.sendFence
  repeat' (first
      | with_reducible exact Only.refl _ _ | intro _ | with_reducible decide | with_reducible refine Only.after (State.liveness_only ..) ?_ ?_
      | with_reducible refine Only.trans ?_ (Only.foldl _ _ _ ?_))

theorem execFence_only (a1) (a2) (a3) (a4) (s : State) (t : State) (h : execFence a1 a2 a3 a4 s = .next t) : Only [.port, .sessions, .jobs, .log, .dict, .fabric, .tileUnits, .draws] s t := by
  unfold execFence at h
  injection h with h; subst h
  repeat' (first
      | with_reducible exact Only.refl _ _ | intro _ | with_reducible decide
      | with_reducible refine Only.trans ?_ (State.livenessIn_only (h6 := ?_) (hw := ?_) ..)
      | with_reducible refine Only.after (State.fence_only ..) ?_ ?_ | with_reducible refine Only.after (State.sendFence_only ..) ?_ ?_
      | (extract_lets) | split)

theorem execPositionFailed_only (a1) (a2) (s : State) (t : State) (h : execPositionFailed a1 a2 s = .next t) : Only [.port, .sessions, .jobs, .log, .dict, .fabric, .tileUnits] s t := by
  unfold execPositionFailed at h
  injection h with h; subst h
  repeat' (first
      | with_reducible exact Only.refl _ _ | with_reducible decide | with_reducible refine Only.after (State.fence_only ..) ?_ ?_
      | with_reducible refine Only.after (State.sendFence_only ..) ?_ ?_ | (extract_lets) | split)

theorem execSelfFenced_only (s : State) (t : State) (h : execSelfFenced s = .next t) : Only [.port, .sessions, .jobs, .bring, .sec, .log, .dict, .blocks, .tiers, .tileUnits, .carrel, .carrelPoison] s t := by
  unfold execSelfFenced at h
  injection h with h; subst h
  repeat' (first
      | with_reducible exact Only.refl _ _ | intro _ | with_reducible decide | with_reducible refine Only.after (State.ownFailure_only ..) ?_ ?_
      | with_reducible refine Only.after (State.raise_only ..) ?_ ?_ | with_reducible refine Only.after (State.releaseRoom_only ..) ?_ ?_
      | with_reducible refine Only.after (State.freeJob_only ..) ?_ ?_ | with_reducible refine Only.trans ?_ (Only.foldl _ _ _ ?_) | (extract_lets)
      | split | (with_reducible change Only _ _ (ite _ _ _); split) | fail_if_no_progress with_reducible refine Only.upd ?_)

theorem State.fillJob_only (s : State) (a2) : Only [.port, .jobs, .dict, .tiers, .tileUnits, .draws] s (State.fillJob s a2) := by
  unfold State.fillJob
  repeat' (first
      | with_reducible exact Only.refl _ _ | intro _ | with_reducible decide | with_reducible refine Only.after (State.setRole_only ..) ?_ ?_
      | with_reducible refine Only.after (State.releaseReplay_only ..) ?_ ?_ | with_reducible refine Only.after (State.restoreJob_only ..) ?_ ?_
      | with_reducible refine Only.trans ?_ (Only.foldl _ _ _ ?_) | (extract_lets) | split | fail_if_no_progress with_reducible refine Only.upd ?_)

theorem execTakeoverStarted_only (a1) (a2) (s : State) (t : State) (h : execTakeoverStarted a1 a2 s = .next t) : Only [.port, .sessions, .jobs, .sec, .log, .dict, .blocks, .abandoned, .retainedWrites, .baseStaged, .tiers, .fabric, .tileUnits, .draws] s t := by
  unfold execTakeoverStarted at h
  injection h with h; subst h
  repeat' (first
      | with_reducible exact Only.refl _ _ | intro _ | with_reducible decide | with_reducible refine Only.after (State.raise_only ..) ?_ ?_
      | with_reducible refine Only.after (State.disarm_only ..) ?_ ?_ | with_reducible refine Only.after (State.fillJob_only ..) ?_ ?_
      | with_reducible refine Only.after (State.endSession_only ..) ?_ ?_ | with_reducible refine Only.trans ?_ (Only.foldl _ _ _ ?_)
      | (extract_lets) | split | fail_if_no_progress with_reducible refine Only.upd ?_)

theorem State.resendKept_only (s : State) (a2) (a3) : Only [.fabric] s (State.resendKept s a2 a3) := by
  unfold State.resendKept
  repeat' (first
      | with_reducible exact Only.refl _ _ | intro _ | with_reducible decide | with_reducible refine Only.after (State.send_only ..) ?_ ?_
      | with_reducible refine Only.trans ?_ (Only.foldl _ _ _ ?_) | (extract_lets) | split)

theorem execTakeoverComplete_only (a1) (a2) (a3) (s : State) (t : State) (h : execTakeoverComplete a1 a2 a3 s = .next t) : Only [.port, .sessions, .jobs, .log, .dict, .fabric] s t := by
  unfold execTakeoverComplete at h
  injection h with h; subst h
  repeat' (first
      | with_reducible exact Only.refl _ _ | with_reducible decide | with_reducible refine Only.after (State.raise_only ..) ?_ ?_
      | with_reducible refine Only.after (State.resendKept_only ..) ?_ ?_ | (extract_lets) | split
      | fail_if_no_progress with_reducible refine Only.upd ?_)

theorem State.foldIn_only (s : State) (a2) (a3) (a4) : Only [.jobs, .tiers, .draws] s (State.foldIn s a2 a3 a4) := by
  unfold State.foldIn
  repeat' (first
      | with_reducible exact Only.refl _ _ | intro _ | with_reducible decide | with_reducible refine Only.after (State.updBody_only ..) ?_ ?_
      | with_reducible refine Only.after (State.standRows_only ..) ?_ ?_ | with_reducible refine Only.after (State.standTile_only ..) ?_ ?_
      | with_reducible refine Only.trans ?_ (Only.foldl _ _ _ ?_))

theorem execPositionFolded_only (a1) (a2) (a3) (s : State) (t : State) (h : execPositionFolded a1 a2 a3 s = .next t) : Only [.port, .sessions, .jobs, .log, .dict, .tiers, .fabric, .draws] s t := by
  unfold execPositionFolded at h
  injection h with h; subst h
  repeat' (first
      | with_reducible exact Only.refl _ _ | intro _ | with_reducible decide | with_reducible refine Only.after (State.raise_only ..) ?_ ?_
      | with_reducible refine Only.after (State.foldIn_only ..) ?_ ?_ | with_reducible refine Only.after (State.resendKept_only ..) ?_ ?_
      | with_reducible refine Only.trans ?_ (Only.foldl _ _ _ ?_) | (extract_lets) | split | fail_if_no_progress with_reducible refine Only.upd ?_)

theorem execRestoreInPlace_only (a1) (s : State) (t : State) (h : execRestoreInPlace a1 s = .next t) : Only [.port, .sessions, .jobs, .log, .dict, .tiers, .fabric, .carrelPoison] s t := by
  unfold execRestoreInPlace at h
  injection h with h; subst h
  repeat' (first
      | with_reducible exact Only.refl _ _ | with_reducible decide | with_reducible refine Only.after (State.updTiles_only ..) ?_ ?_
      | with_reducible refine Only.after (State.serveWaiting_only ..) ?_ ?_ | with_reducible refine Only.after (State.updJob_only ..) ?_ ?_
      | (extract_lets) | split | fail_if_no_progress with_reducible refine Only.upd ?_)

theorem execRecoveryExhausted_only (a1) (s : State) (t : State) (h : execRecoveryExhausted a1 s = .next t) : Only [.port, .sessions, .jobs, .sec, .log, .dict, .blocks, .tiers, .tileUnits, .carrel, .carrelPoison] s t := by
  unfold execRecoveryExhausted at h
  injection h with h; subst h
  repeat' (first
      | with_reducible exact Only.refl _ _ | intro _ | with_reducible decide | with_reducible refine Only.after (State.raiseJob_only ..) ?_ ?_
      | with_reducible refine Only.after (State.updJob_only ..) ?_ ?_ | with_reducible refine Only.after (State.dropWorks_only ..) ?_ ?_
      | with_reducible refine Only.after (State.exhaustStep_only ..) ?_ ?_ | with_reducible refine Only.trans ?_ (Only.foldl _ _ _ ?_)
      | (extract_lets) | split)

end Sys2Proof.Machine
end

