-- ==== Sys2Proof/Laws/OnlyReliabilityRows.lean ====
section
/-!
SUPPORT. The parts of the state the operations of ReliabilityRows may change.
-/
set_option linter.unusedTactic false
set_option linter.unusedVariables false
set_option Elab.async false
namespace Sys2Proof.Machine
open Sys2Proof

theorem State.poisonGranule_only (s : State) (a2) (a3) : Only [.tiers, .carrelPoison] s (State.poisonGranule s a2 a3) := by
  unfold State.poisonGranule
  repeat' (first
      | with_reducible exact Only.refl _ _ | with_reducible decide | with_reducible refine Only.after (State.updTiles_only ..) ?_ ?_ | split
      | fail_if_no_progress with_reducible refine Only.upd ?_)

theorem State.linkReplay_only (s : State) (a2) (a3) (a4) (a5) (a6) : Only [.port, .sessions, .log, .dict, .tiers, .rel, .carrelPoison] s (State.linkReplay s a2 a3 a4 a5 a6) := by
  unfold State.linkReplay
  repeat' (first
      | with_reducible exact Only.refl _ _ | with_reducible decide | with_reducible refine Only.after (State.add_only ..) ?_ ?_
      | with_reducible refine Only.after (State.raise_only ..) ?_ ?_ | with_reducible refine Only.after (State.poisonGranule_only ..) ?_ ?_
      | (extract_lets) | split | fail_if_no_progress with_reducible refine Only.upd ?_)

theorem execLinkReplay_only (a1) (a2) (a3) (a4) (a5) (s : State) (t : State) (h : execLinkReplay a1 a2 a3 a4 a5 s = .next t) : Only [.port, .sessions, .log, .dict, .tiers, .rel, .carrelPoison] s t := by
  unfold execLinkReplay at h
  injection h with h; subst h
  repeat' (first | with_reducible exact Only.refl _ _ | with_reducible decide | with_reducible refine Only.after (State.linkReplay_only ..) ?_ ?_)

theorem execLinkRetrained_only (a1) (a2) (s : State) (t : State) (h : execLinkRetrained a1 a2 s = .next t) : Only [.dict, .rel] s t := by
  unfold execLinkRetrained at h
  injection h with h; subst h
  repeat' (first
      | with_reducible exact Only.refl _ _ | with_reducible decide | with_reducible refine Only.after (State.add_only ..) ?_ ?_ | (extract_lets)
      | split | fail_if_no_progress with_reducible refine Only.upd ?_)

theorem State.updRow_only (s : State) (a2) (a3) (a4) (a5) : Only [.rel] s (State.updRow s a2 a3 a4 a5) := by
  unfold State.updRow
  repeat' (first | with_reducible exact Only.refl _ _ | (extract_lets) | fail_if_no_progress with_reducible refine Only.upd ?_)

theorem State.useResource_only (s : State) (a2) (a3) : Only [.rel] s (State.useResource s a2 a3) := by
  unfold State.useResource
  repeat' (first | with_reducible exact Only.refl _ _ | (extract_lets) | fail_if_no_progress with_reducible refine Only.upd ?_)

theorem State.retireRow_only (s : State) (a2) (a3) (a4) (a5) (a6) : Only [.port, .sessions, .log, .dict, .tiers, .rel] s (State.retireRow s a2 a3 a4 a5 a6) := by
  unfold State.retireRow
  repeat' (first
      | with_reducible exact Only.refl _ _ | with_reducible decide | with_reducible refine Only.after (State.raise_only ..) ?_ ?_
      | with_reducible refine Only.after (State.updRow_only ..) ?_ ?_ | with_reducible refine Only.after (State.add_only ..) ?_ ?_ | (extract_lets)
      | split | fail_if_no_progress with_reducible refine Only.upd ?_)

theorem execRowRepair_only (a1) (a2) (a3) (a4) (a5) (a6) (s : State) (t : State) (h : execRowRepair a1 a2 a3 a4 a5 a6 s = .next t) : Only [.port, .sessions, .log, .dict, .tiers, .rel] s t := by
  unfold execRowRepair at h
  injection h with h; subst h
  repeat' (first
      | with_reducible exact Only.refl _ _ | with_reducible decide | with_reducible refine Only.after (State.retireRow_only ..) ?_ ?_
      | with_reducible refine Only.after (State.updRow_only ..) ?_ ?_ | split)

theorem execRowRepaired_only (a1) (a2) (a3) (a4) (a5) (s : State) (t : State) (h : execRowRepaired a1 a2 a3 a4 a5 s = .next t) : Only [.port, .sessions, .log, .dict, .rel] s t := by
  unfold execRowRepaired at h
  injection h with h; subst h
  repeat' (first
      | with_reducible exact Only.refl _ _ | with_reducible decide | with_reducible refine Only.after (State.updRow_only ..) ?_ ?_
      | with_reducible refine Only.after (State.useResource_only ..) ?_ ?_ | with_reducible refine Only.after (State.raise_only ..) ?_ ?_
      | with_reducible refine Only.after (State.add_only ..) ?_ ?_ | (extract_lets) | split)

theorem execHardRepair_only (a1) (a2) (a3) (a4) (a5) (a6) (s : State) (t : State) (h : execHardRepair a1 a2 a3 a4 a5 a6 s = .next t) : Only [.port, .sessions, .log, .dict, .tiers, .rel] s t := by
  unfold execHardRepair at h
  injection h with h; subst h
  repeat' (first
      | with_reducible exact Only.refl _ _ | with_reducible decide | with_reducible refine Only.after (State.retireRow_only ..) ?_ ?_
      | with_reducible refine Only.after (State.updRow_only ..) ?_ ?_ | with_reducible refine Only.after (State.useResource_only ..) ?_ ?_
      | with_reducible refine Only.after (State.raise_only ..) ?_ ?_ | with_reducible refine Only.after (State.add_only ..) ?_ ?_ | (extract_lets)
      | split)

theorem State.countCorrected_only (s : State) (a2) : Only [.day] s (State.countCorrected s a2) := by
  unfold State.countCorrected
  repeat' (first | with_reducible exact Only.refl _ _ | (extract_lets) | split | fail_if_no_progress with_reducible refine Only.upd ?_)

theorem execScrub_only (a1) (a2) (a3) (a4) (a5) (a6) (s : State) (t : State) (h : execScrub a1 a2 a3 a4 a5 a6 s = .next t) : Only [.port, .sessions, .day, .log, .dict, .tiers, .rel, .carrelPoison] s t := by
  unfold execScrub at h
  injection h with h; subst h
  repeat' (first
      | with_reducible exact Only.refl _ _ | with_reducible decide | with_reducible refine Only.after (State.countCorrected_only ..) ?_ ?_
      | with_reducible refine Only.after (State.add_only ..) ?_ ?_ | with_reducible refine Only.after (State.updRow_only ..) ?_ ?_
      | with_reducible refine Only.after (State.poisonGranule_only ..) ?_ ?_ | with_reducible refine Only.after (State.raise_only ..) ?_ ?_
      | (extract_lets) | split)

end Sys2Proof.Machine
end

