-- ==== Sys2Proof/Laws/OnlyBringUpRows.lean ====
section
/-!
SUPPORT. The parts of the state the operations of BringUpRows may change.
-/
set_option linter.unusedTactic false
set_option linter.unusedVariables false
set_option Elab.async false
namespace Sys2Proof.Machine
open Sys2Proof

theorem State.releaseHeld_only (s : State) : Only [.port, .sessions, .log, .dict] s (State.releaseHeld s) := by
  unfold State.releaseHeld
  repeat' (first
      | with_reducible exact Only.refl _ _ | intro _ | with_reducible decide | with_reducible refine Only.after (State.record_only ..) ?_ ?_
      | with_reducible refine Only.trans ?_ (Only.foldl _ _ _ ?_) | (extract_lets) | fail_if_no_progress with_reducible refine Only.upd ?_)

theorem State.trySlots_only (s : State) (l) : Only [.port, .sessions, .bring, .sec, .log, .dict, .draws] s (State.trySlots s l) := by
  induction l generalizing s with
  | nil => unfold State.trySlots; exact (State.updBring_only ..).mono (by decide)
  | cons a l ih =>
    unfold State.trySlots
    repeat' (first
        | with_reducible exact Only.refl _ _ | with_reducible decide | with_reducible refine Only.trans ?_ (ih _)
        | with_reducible refine Only.after (State.updBring_only ..) ?_ ?_ | with_reducible refine Only.after (State.runImage_only ..) ?_ ?_
        | with_reducible refine Only.after (State.raise_only ..) ?_ ?_ | split)

theorem State.startFirmware_only (s : State) (a2) : Only [.port, .sessions, .bring, .sec, .log, .dict, .draws] s (State.startFirmware s a2) := by
  unfold State.startFirmware
  repeat' (first | with_reducible exact Only.refl _ _ | with_reducible decide | with_reducible refine Only.after (State.trySlots_only ..) ?_ ?_)

theorem State.startRecords_only (s : State) (a2) : Only [.port, .sessions, .bring, .flash, .sec, .log, .dict, .draws] s (State.startRecords s a2) := by
  unfold State.startRecords
  repeat' (first
      | with_reducible exact Only.refl _ _ | with_reducible decide | with_reducible refine Only.after (State.raise_only ..) ?_ ?_
      | with_reducible refine Only.after (State.updBring_only ..) ?_ ?_ | with_reducible refine Only.after (State.startFirmware_only ..) ?_ ?_
      | with_reducible refine Only.after (State.releaseHeld_only ..) ?_ ?_ | (extract_lets) | split
      | (with_reducible change Only _ _ (ite _ _ _); split) | fail_if_no_progress with_reducible refine Only.upd ?_
      | with_reducible (apply Only.trans; rotate_left; apply Only.mono; apply draw_only'; assumption))

theorem execKeeperStart_only (a1) (a2) (s : State) (t : State) (h : execKeeperStart a1 a2 s = .next t) : Only [.port, .sessions, .bring, .power, .day, .flash, .sec, .log, .dict, .draws] s t := by
  unfold execKeeperStart at h
  injection h with h; subst h
  repeat' (first
      | with_reducible exact Only.refl _ _ | with_reducible decide | with_reducible refine Only.after (State.updPower_only ..) ?_ ?_
      | with_reducible refine Only.after (State.updBring_only ..) ?_ ?_ | with_reducible refine Only.after (State.raise_only ..) ?_ ?_
      | with_reducible refine Only.after (State.startRecords_only ..) ?_ ?_ | (extract_lets) | split
      | fail_if_no_progress with_reducible refine Only.upd ?_)

theorem State.updSeg_only (s : State) (a2) : Only [.seg] s (State.updSeg s a2) := by
  unfold State.updSeg
  repeat' (first | with_reducible exact Only.refl _ _ | fail_if_no_progress with_reducible refine Only.upd ?_)

theorem State.duplicate_only (s : State) (a2) : Only [.port, .sessions, .seg, .log, .dict] s (State.duplicate s a2) := by
  unfold State.duplicate
  repeat' (first
      | with_reducible exact Only.refl _ _ | with_reducible decide | with_reducible refine Only.after (State.raise_only ..) ?_ ?_
      | with_reducible refine Only.after (State.updSeg_only ..) ?_ ?_)

theorem State.beaconLost_only (s : State) : Only [.port, .sessions, .seg, .log, .dict] s (State.beaconLost s) := by
  unfold State.beaconLost
  repeat' (first
      | with_reducible exact Only.refl _ _ | with_reducible decide | with_reducible refine Only.after (State.raise_only ..) ?_ ?_
      | with_reducible refine Only.after (State.updSeg_only ..) ?_ ?_)

theorem execSegmentJoin_only (a1) (a2) (a3) (s : State) (t : State) (h : execSegmentJoin a1 a2 a3 s = .next t) : Only [.port, .sessions, .bring, .seg, .log, .dict] s t := by
  unfold execSegmentJoin at h
  injection h with h; subst h
  repeat' (first
      | with_reducible exact Only.refl _ _ | with_reducible decide | with_reducible refine Only.after (State.updBring_only ..) ?_ ?_
      | with_reducible refine Only.after (State.updSeg_only ..) ?_ ?_ | with_reducible refine Only.after (State.raise_only ..) ?_ ?_
      | with_reducible refine Only.after (State.duplicate_only ..) ?_ ?_ | with_reducible refine Only.after (State.beaconLost_only ..) ?_ ?_
      | (extract_lets) | split | (with_reducible change Only _ _ (ite _ _ _); split))

theorem execBeaconLost_only (s : State) (t : State) (h : execBeaconLost s = .next t) : Only [.port, .sessions, .seg, .log, .dict] s t := by
  unfold execBeaconLost at h
  injection h with h; subst h
  repeat' (first
      | with_reducible exact Only.refl _ _ | with_reducible decide | with_reducible refine Only.after (State.beaconLost_only ..) ?_ ?_ | split)

theorem execBeaconSeen_only (s : State) (t : State) (h : execBeaconSeen s = .next t) : Only [.seg] s t := by
  unfold execBeaconSeen at h
  injection h with h; subst h
  repeat' (first
      | with_reducible exact Only.refl _ _ | with_reducible decide | with_reducible refine Only.after (State.updSeg_only ..) ?_ ?_ | split)

theorem execNeighbourSolicitation_only (a1) (a2) (s : State) (t : State) (h : execNeighbourSolicitation a1 a2 s = .next t) : Only [.port, .sessions, .seg, .log, .dict, .reply] s t := by
  unfold execNeighbourSolicitation at h
  injection h with h; subst h
  repeat' (first
      | with_reducible exact Only.refl _ _ | with_reducible decide | with_reducible refine Only.after (State.duplicate_only ..) ?_ ?_ | split
      | fail_if_no_progress with_reducible refine Only.upd ?_)

theorem execIcmpv6Echo_only (a1) (a2) (s : State) (t : State) (h : execIcmpv6Echo a1 a2 s = .next t) : Only [.reply] s t := by
  unfold execIcmpv6Echo at h
  injection h with h; subst h
  repeat' (first | with_reducible exact Only.refl _ _ | split | fail_if_no_progress with_reducible refine Only.upd ?_)

theorem State.resumePlan_only (s : State) : Only [.day, .dict] s (State.resumePlan s) := by
  unfold State.resumePlan
  repeat' (first
      | with_reducible exact Only.refl _ _ | intro _ | with_reducible decide | with_reducible refine Only.after (State.setNum_only ..) ?_ ?_
      | with_reducible refine Only.trans ?_ (Only.foldl _ _ _ ?_) | (extract_lets) | split | fail_if_no_progress with_reducible refine Only.upd ?_)

theorem execRailUp_only (a1) (s : State) (t : State) (h : execRailUp a1 s = .next t) : Only [.bring, .power, .day, .dict] s t := by
  unfold execRailUp at h
  injection h with h; subst h
  repeat' (first
      | with_reducible exact Only.refl _ _ | with_reducible decide | with_reducible refine Only.after (State.resumePlan_only ..) ?_ ?_
      | with_reducible refine Only.after (State.updPower_only ..) ?_ ?_ | with_reducible refine Only.after (State.updBring_only ..) ?_ ?_
      | (extract_lets) | split)

theorem State.wornTiers_only (s : State) (a2) : Only [.port, .sessions, .log, .dict] s (State.wornTiers s a2) := by
  unfold State.wornTiers
  repeat' (first
      | with_reducible exact Only.refl _ _ | intro _ | with_reducible decide | with_reducible refine Only.after (State.raise_only ..) ?_ ?_
      | with_reducible refine Only.trans ?_ (Only.foldl _ _ _ ?_))

theorem execMemoryTrained_only (a1) (s : State) (t : State) (h : execMemoryTrained a1 s = .next t) : Only [.port, .sessions, .bring, .log, .dict] s t := by
  unfold execMemoryTrained at h
  injection h with h; subst h
  repeat' (first
      | with_reducible exact Only.refl _ _ | with_reducible decide | with_reducible refine Only.after (State.wornTiers_only ..) ?_ ?_
      | with_reducible refine Only.after (State.updBring_only ..) ?_ ?_ | split)

theorem execMemoryRetrain_only (a1) (s : State) (t : State) (h : execMemoryRetrain a1 s = .next t) : Only [.port, .sessions, .bring, .log, .dict] s t := by
  unfold execMemoryRetrain at h
  injection h with h; subst h
  repeat' (first
      | with_reducible exact Only.refl _ _ | with_reducible decide | with_reducible refine Only.after (State.updBring_only ..) ?_ ?_
      | with_reducible refine Only.after (State.wornTiers_only ..) ?_ ?_ | (extract_lets) | split)

theorem State.repairRow_only (s : State) (a2) : Only [.port, .sessions, .log, .dict, .tiers, .rel] s (State.repairRow s a2) := by
  unfold State.repairRow
  repeat' (first
      | with_reducible exact Only.refl _ _ | with_reducible decide | with_reducible refine Only.after (State.retireRow_only ..) ?_ ?_
      | with_reducible refine Only.after (State.raise_only ..) ?_ ?_ | with_reducible refine Only.after (State.add_only ..) ?_ ?_
      | with_reducible refine Only.after (State.useResource_only ..) ?_ ?_ | split)

theorem State.repairRows_only (s : State) (a2) : Only [.port, .sessions, .log, .dict, .tiers, .rel] s (State.repairRows s a2).1 := by
  unfold State.repairRows
  repeat' (first
      | with_reducible exact Only.refl _ _ | intro _ | with_reducible decide | with_reducible refine Only.after (State.repairRow_only ..) ?_ ?_
      | with_reducible refine Only.trans ?_ (Only.foldlFst _ _ _ ?_))
theorem State.repairRows_only' {s : State} {a2} {x} {t} (h : State.repairRows s a2 = (t, x)) : Only [.port, .sessions, .log, .dict, .tiers, .rel] s t := by
  have k := State.repairRows_only s a2; rw [h] at k; exact k

theorem State.failTile_only (s : State) (a2) (a3) : Only [.port, .sessions, .jobs, .bring, .log, .dict, .tiers, .dma, .fabric, .tileUnits, .spares] s (State.failTile s a2 a3) := by
  unfold State.failTile
  repeat' (first
      | with_reducible exact Only.refl _ _ | with_reducible decide | with_reducible refine Only.after (State.add_only ..) ?_ ?_
      | with_reducible refine Only.after (State.loseTile_only ..) ?_ ?_ | with_reducible refine Only.after (State.raise_only ..) ?_ ?_
      | with_reducible refine Only.after (State.updUnit_only ..) ?_ ?_ | (extract_lets) | split
      | fail_if_no_progress with_reducible refine Only.upd ?_ | (dsimp +zetaDelta only; split))

theorem execMemoryInit_only (a1) (a2) (a3) (s : State) (t : State) (h : execMemoryInit a1 a2 a3 s = .next t) : Only [.port, .sessions, .jobs, .bring, .day, .log, .dict, .tiers, .dma, .rel, .fabric, .tileUnits, .spares, .carrel, .carrelPoison] s t := by
  unfold execMemoryInit at h
  injection h with h; subst h
  repeat' (first
      | with_reducible exact Only.refl _ _ | intro _ | with_reducible decide | with_reducible refine Only.after (State.retentionTest_only ..) ?_ ?_
      | with_reducible refine Only.after (State.failTile_only ..) ?_ ?_ | with_reducible refine Only.after (State.updBring_only ..) ?_ ?_
      | with_reducible refine Only.trans ?_ (Only.foldl _ _ _ ?_) | (extract_lets) | split | fail_if_no_progress with_reducible refine Only.upd ?_
      | with_reducible (apply Only.trans; rotate_left; apply Only.mono; apply State.repairRows_only'; assumption))

theorem execModuleReady_only (a1) (s : State) (t : State) (h : execModuleReady a1 s = .next t) : Only [.port, .sessions, .bring, .log, .dict] s t := by
  unfold execModuleReady at h
  injection h with h; subst h
  repeat' (first
      | with_reducible exact Only.refl _ _ | with_reducible decide | with_reducible refine Only.after (State.updBring_only ..) ?_ ?_
      | with_reducible refine Only.after (State.mapQueues_only ..) ?_ ?_ | with_reducible refine Only.after (State.raise_only ..) ?_ ?_
      | (extract_lets) | split)

theorem State.switchOver_only (s : State) (a2) : Only [.port, .sessions, .jobs, .flash, .sec, .log, .dict, .draws] s (State.switchOver s a2) := by
  unfold State.switchOver
  repeat' (first
      | with_reducible exact Only.refl _ _ | with_reducible decide | with_reducible refine Only.after (State.runImage_only ..) ?_ ?_
      | with_reducible refine Only.after (State.add_only ..) ?_ ?_ | with_reducible refine Only.after (State.rewriteDelta_only ..) ?_ ?_
      | with_reducible refine Only.after (State.raise_only ..) ?_ ?_ | (extract_lets) | split | (with_reducible change Only _ _ (ite _ _ _); split)
      | fail_if_no_progress with_reducible refine Only.upd ?_)

theorem execFirmwareSwitch_only (a1) (a2) (s : State) (t : State) (h : execFirmwareSwitch a1 a2 s = .next t) : Only [.port, .sessions, .jobs, .flash, .sec, .log, .dict, .fabric, .draws] s t := by
  unfold execFirmwareSwitch at h
  injection h with h; subst h
  repeat' (first
      | with_reducible exact Only.refl _ _ | intro _ | with_reducible decide | with_reducible refine Only.after (State.startDeposit_only ..) ?_ ?_
      | with_reducible refine Only.after (State.switchOver_only ..) ?_ ?_ | with_reducible refine Only.trans ?_ (Only.foldl _ _ _ ?_)
      | (extract_lets) | split | fail_if_no_progress with_reducible refine Only.upd ?_)

end Sys2Proof.Machine
end

