-- ==== Sys2Proof/Laws/OnlyDma.lean ====
section
/-!
SUPPORT. The parts of the state the operations of Dma may change.
-/
set_option linter.unusedTactic false
set_option linter.unusedVariables false
set_option Elab.async false
namespace Sys2Proof.Machine
open Sys2Proof

theorem State.dmaTimer_only (s : State) (a2) (a3) : Only [.dma] s (State.dmaTimer s a2 a3) := by
  unfold State.dmaTimer
  repeat' (first
      | with_reducible exact Only.refl _ _ | with_reducible decide | with_reducible refine Only.after (State.setChan_only ..) ?_ ?_ | (extract_lets)
      | split)

theorem State.dmaComplete_only (s : State) (a2) : Only [.dma] s (State.dmaComplete s a2) := by
  unfold State.dmaComplete
  repeat' (first
      | with_reducible exact Only.refl _ _ | with_reducible decide | with_reducible refine Only.after (State.chanEnd_only ..) ?_ ?_
      | with_reducible refine Only.after (State.setChan_only ..) ?_ ?_ | (extract_lets) | split)

theorem State.dmaHalt_only (s : State) (a2) (a3) (a4) (a5) : Only [.port, .sessions, .log, .dict, .dma] s (State.dmaHalt s a2 a3 a4 a5) := by
  unfold State.dmaHalt
  repeat' (first
      | with_reducible exact Only.refl _ _ | with_reducible decide | with_reducible refine Only.after (State.raise_only ..) ?_ ?_
      | with_reducible refine Only.after (State.add_only ..) ?_ ?_ | with_reducible refine Only.after (State.setChan_only ..) ?_ ?_ | (extract_lets)
      | split)

theorem State.skipPoison_only (s : State) (a2) (a3) : Only [.tiers, .carrelPoison] s (State.skipPoison s a2 a3) := by
  unfold State.skipPoison
  repeat' (first | with_reducible exact Only.refl _ _ | (extract_lets) | split | fail_if_no_progress with_reducible refine Only.upd ?_)

theorem State.dmaAct_only (s : State) (a2) (a3) (a4) : Only [.port, .sessions, .log, .dict, .tiers, .dma, .tileUnits, .carrelPoison] s (State.dmaAct s a2 a3 a4) := by
  unfold State.dmaAct
  repeat' (first
      | with_reducible exact Only.refl _ _ | with_reducible decide | with_reducible refine Only.after (State.setChan_only ..) ?_ ?_
      | with_reducible refine Only.after (State.skipPoison_only ..) ?_ ?_ | with_reducible refine Only.after (State.chanEnd_only ..) ?_ ?_
      | with_reducible refine Only.after (State.abortOutcome_only ..) ?_ ?_ | with_reducible refine Only.after (State.raise_only ..) ?_ ?_
      | (extract_lets) | split)

theorem State.wantRepair_only (s : State) (a2) (a3) (a4) : Only [.rel] s (State.wantRepair s a2 a3 a4) := by
  unfold State.wantRepair
  repeat' (first | with_reducible exact Only.refl _ _ | (extract_lets) | fail_if_no_progress with_reducible refine Only.upd ?_)

theorem State.dmaAuto_only (s : State) (a2) (a3) (a4) : Only [.port, .sessions, .log, .dict, .tiers, .dma, .rel, .tileUnits, .carrelPoison] s (State.dmaAuto s a2 a3 a4) := by
  unfold State.dmaAuto
  repeat' (first
      | with_reducible exact Only.refl _ _ | with_reducible decide | with_reducible refine Only.after (State.wantRepair_only ..) ?_ ?_
      | with_reducible refine Only.after (State.dmaAct_only ..) ?_ ?_ | (extract_lets) | split
      | (with_reducible change Only _ _ (ite _ _ _); split))

theorem State.dmaControl_only (s : State) (a2) (a3) : Only [.port, .sessions, .jobs, .sec, .log, .dict, .blocks, .abandoned, .retainedWrites, .baseStaged, .tiers, .dma, .tileUnits, .carrelPoison, .reply] s (State.dmaControl s a2 a3) := by
  unfold State.dmaControl
  repeat' (first
      | with_reducible exact Only.refl _ _ | intro _ | with_reducible decide
      | with_reducible refine Only.trans ?_ (State.viaWrite_only (h5 := ?_) (hw := ?_) ..)
      | with_reducible refine Only.after (State.tell_only ..) ?_ ?_ | with_reducible refine Only.after (State.dmaAct_only ..) ?_ ?_)

theorem execDmaPost_only (a1) (a2) (s : State) (t : State) (h : execDmaPost a1 a2 s = .next t) : Only [.dma] s t := by
  unfold execDmaPost at h
  injection h with h; subst h
  repeat' (first | with_reducible exact Only.refl _ _ | with_reducible decide | with_reducible refine Only.after (State.dmaPost_only ..) ?_ ?_)

theorem execDmaTimer_only (a1) (a2) (s : State) (t : State) (h : execDmaTimer a1 a2 s = .next t) : Only [.dma] s t := by
  unfold execDmaTimer at h
  injection h with h; subst h
  repeat' (first | with_reducible exact Only.refl _ _ | with_reducible decide | with_reducible refine Only.after (State.dmaTimer_only ..) ?_ ?_)

theorem execDmaComplete_only (a1) (s : State) (t : State) (h : execDmaComplete a1 s = .next t) : Only [.dma] s t := by
  unfold execDmaComplete at h
  injection h with h; subst h
  repeat' (first
      | with_reducible exact Only.refl _ _ | with_reducible decide | with_reducible refine Only.after (State.dmaComplete_only ..) ?_ ?_)

theorem execDmaAccessFault_only (a1) (a2) (a3) (a4) (s : State) (t : State) (h : execDmaAccessFault a1 a2 a3 a4 s = .next t) : Only [.port, .sessions, .log, .dict, .dma] s t := by
  unfold execDmaAccessFault at h
  injection h with h; subst h
  repeat' (first
      | with_reducible exact Only.refl _ _ | with_reducible decide | with_reducible refine Only.after (State.dmaHalt_only ..) ?_ ?_ | split)

theorem execBurstTimeout_only (a1) (a2) (a3) (s : State) (t : State) (h : execBurstTimeout a1 a2 a3 s = .next t) : Only [.port, .sessions, .log, .dict, .dma] s t := by
  unfold execBurstTimeout at h
  injection h with h; subst h
  repeat' (first | with_reducible exact Only.refl _ _ | with_reducible decide | with_reducible refine Only.after (State.dmaHalt_only ..) ?_ ?_)

theorem execDmaAutoAction_only (a1) (a2) (a3) (s : State) (t : State) (h : execDmaAutoAction a1 a2 a3 s = .next t) : Only [.port, .sessions, .log, .dict, .tiers, .dma, .rel, .tileUnits, .carrelPoison] s t := by
  unfold execDmaAutoAction at h
  injection h with h; subst h
  repeat' (first | with_reducible exact Only.refl _ _ | with_reducible decide | with_reducible refine Only.after (State.dmaAuto_only ..) ?_ ?_)

theorem execResume_only (a1) (s : State) (t : State) (h : execResume a1 s = .next t) : Only [.port, .sessions, .jobs, .sec, .log, .dict, .blocks, .abandoned, .retainedWrites, .baseStaged, .tiers, .dma, .tileUnits, .carrelPoison, .reply] s t := by
  unfold execResume at h
  injection h with h; subst h
  repeat' (first | with_reducible exact Only.refl _ _ | with_reducible decide | with_reducible refine Only.after (State.dmaControl_only ..) ?_ ?_)

theorem execSkip_only (a1) (s : State) (t : State) (h : execSkip a1 s = .next t) : Only [.port, .sessions, .jobs, .sec, .log, .dict, .blocks, .abandoned, .retainedWrites, .baseStaged, .tiers, .dma, .tileUnits, .carrelPoison, .reply] s t := by
  unfold execSkip at h
  injection h with h; subst h
  repeat' (first | with_reducible exact Only.refl _ _ | with_reducible decide | with_reducible refine Only.after (State.dmaControl_only ..) ?_ ?_)

theorem execAbort_only (a1) (s : State) (t : State) (h : execAbort a1 s = .next t) : Only [.port, .sessions, .jobs, .sec, .log, .dict, .blocks, .abandoned, .retainedWrites, .baseStaged, .tiers, .dma, .tileUnits, .carrelPoison, .reply] s t := by
  unfold execAbort at h
  injection h with h; subst h
  repeat' (first | with_reducible exact Only.refl _ _ | with_reducible decide | with_reducible refine Only.after (State.dmaControl_only ..) ?_ ?_)

end Sys2Proof.Machine
end

