-- ==== Sys2Proof/Laws/OnlyLandingRows.lean ====
section
/-!
SUPPORT. The parts of the state the operations of LandingRows may change.
-/
set_option linter.unusedTactic false
set_option linter.unusedVariables false
set_option Elab.async false
namespace Sys2Proof.Machine
open Sys2Proof

theorem State.landScatter_only (s : State) (a2) (a3) (a4) (a5) (a6) : Only [.jobs] s (State.landScatter s a2 a3 a4 a5 a6) := by
  unfold State.landScatter
  repeat' (first | with_reducible exact Only.refl _ _ | with_reducible decide | with_reducible refine Only.after (State.updStep_only ..) ?_ ?_)

theorem State.addShare_only (s : State) (a2) (a3) (a4) (a5) (a6) : Only [.jobs] s (State.addShare s a2 a3 a4 a5 a6) := by
  unfold State.addShare
  repeat' (first
      | with_reducible exact Only.refl _ _ | with_reducible decide | with_reducible refine Only.after (State.updStep_only ..) ?_ ?_ | (extract_lets)
      | split)

theorem State.landSlice_only (s : State) (a2) (a3) (a4) (a5) (a6) : Only [.port, .sessions, .jobs, .log, .dict, .tiers, .fabric, .tileUnits, .draws] s (State.landSlice s a2 a3 a4 a5 a6) := by
  unfold State.landSlice
  repeat' (first
      | with_reducible exact Only.refl _ _ | with_reducible decide | with_reducible refine Only.after (State.updStep_only ..) ?_ ?_
      | with_reducible refine Only.after (State.addShare_only ..) ?_ ?_ | with_reducible refine Only.after (State.sliceOn_only ..) ?_ ?_
      | with_reducible refine Only.after (State.sliceDown_only ..) ?_ ?_ | (extract_lets) | split)

theorem State.landReduce_only (s : State) (a2) (a3) (a4) (a5) : Only [.port, .sessions, .jobs, .log, .dict, .tiers, .fabric, .tileUnits, .draws] s (State.landReduce s a2 a3 a4 a5) := by
  unfold State.landReduce
  repeat' (first
      | with_reducible exact Only.refl _ _ | with_reducible decide | with_reducible refine Only.after (State.addShare_only ..) ?_ ?_
      | with_reducible refine Only.after (State.landSlice_only ..) ?_ ?_ | with_reducible refine Only.after (State.updStep_only ..) ?_ ?_
      | (extract_lets) | split)

theorem State.landTiles_only (s : State) (a2) (a3) (a4) : Only [.port, .sessions, .jobs, .log, .dict, .tiers, .draws] s (State.landTiles s a2 a3 a4) := by
  unfold State.landTiles
  repeat' (first
      | with_reducible exact Only.refl _ _ | intro _ | with_reducible decide | with_reducible refine Only.after (State.raise_only ..) ?_ ?_
      | with_reducible refine Only.after (State.count_only ..) ?_ ?_ | with_reducible refine Only.after (State.updTile_only ..) ?_ ?_
      | with_reducible refine Only.after (State.putAll_only ..) ?_ ?_ | with_reducible refine Only.trans ?_ (Only.foldl _ _ _ ?_))

theorem State.landCopy_only (s : State) (a2) (a3) : Only [.port, .sessions, .jobs, .log, .dict, .tiers, .fabric, .draws] s (State.landCopy s a2 a3) := by
  unfold State.landCopy
  repeat' (first
      | with_reducible exact Only.refl _ _ | with_reducible decide | with_reducible refine Only.after (State.freeTiles_only ..) ?_ ?_
      | with_reducible refine Only.after (State.landTiles_only ..) ?_ ?_ | with_reducible refine Only.after (State.updJob_only ..) ?_ ?_
      | with_reducible refine Only.after (State.updStep_only ..) ?_ ?_ | with_reducible refine Only.after (State.serveWaiting_only ..) ?_ ?_
      | with_reducible refine Only.after (State.broadcastFrom_only ..) ?_ ?_ | (extract_lets) | split
      | (with_reducible change Only _ _ (ite _ _ _); split))

theorem State.landHandoff_only (s : State) (a2) (a3) (a4) : Only [.port, .sessions, .jobs, .log, .dict, .tiers, .tileUnits, .draws] s (State.landHandoff s a2 a3 a4) := by
  unfold State.landHandoff
  repeat' (first
      | with_reducible exact Only.refl _ _ | with_reducible decide | with_reducible refine Only.after (State.landTiles_only ..) ?_ ?_
      | with_reducible refine Only.after (State.updStep_only ..) ?_ ?_ | with_reducible refine Only.after (State.logRecord_only ..) ?_ ?_
      | with_reducible refine Only.after (State.wakeAll_only ..) ?_ ?_ | (extract_lets) | split)

theorem State.updWard_only (s : State) (a2) (a3) : Only [.fabric] s (State.updWard s a2 a3) := by
  unfold State.updWard
  repeat' (first | with_reducible exact Only.refl _ _ | (extract_lets) | fail_if_no_progress with_reducible refine Only.upd ?_)

theorem State.freeKept_only (s : State) (a2) (a3) (a4) : Only [.jobs, .fabric] s (State.freeKept s a2 a3 a4) := by
  unfold State.freeKept
  repeat' (first | with_reducible exact Only.refl _ _ | (extract_lets) | fail_if_no_progress with_reducible refine Only.upd ?_)

theorem State.landWard_only (s : State) (a2) (a3) : Only [.jobs, .fabric] s (State.landWard s a2 a3) := by
  unfold State.landWard
  repeat' (first
      | with_reducible exact Only.refl _ _ | with_reducible decide | with_reducible refine Only.after (State.freeKept_only ..) ?_ ?_
      | with_reducible refine Only.after (State.updWard_only ..) ?_ ?_ | (extract_lets) | split
      | fail_if_no_progress with_reducible refine Only.upd ?_)

theorem State.moveLanded_only (s : State) (a2) (a3) : Only [.port, .sessions, .jobs, .log, .dict, .tiers, .fabric, .tileUnits, .draws] s (State.moveLanded s a2 a3) := by
  unfold State.moveLanded
  repeat' (first
      | with_reducible exact Only.refl _ _ | with_reducible decide | with_reducible refine Only.after (State.landWard_only ..) ?_ ?_
      | with_reducible refine Only.after (State.landCopy_only ..) ?_ ?_ | with_reducible refine Only.after (State.landScatter_only ..) ?_ ?_
      | with_reducible refine Only.after (State.landReduce_only ..) ?_ ?_ | with_reducible refine Only.after (State.landHandoff_only ..) ?_ ?_
      | (extract_lets) | split)

theorem State.freeLanded_only (s : State) (a2) (a3) (a4) : Only [.dict, .fabric] s (State.freeLanded s a2 a3 a4) := by
  unfold State.freeLanded
  repeat' (first
      | with_reducible exact Only.refl _ _ | with_reducible decide | with_reducible refine Only.after (State.setNum_only ..) ?_ ?_ | (extract_lets)
      | fail_if_no_progress with_reducible refine Only.upd ?_)

theorem execLandingMove_only (a1) (a2) (s : State) (t : State) (h : execLandingMove a1 a2 s = .next t) : Only [.port, .sessions, .jobs, .log, .dict, .tiers, .fabric, .tileUnits, .draws] s t := by
  unfold execLandingMove at h
  injection h with h; subst h
  repeat' (first
      | with_reducible exact Only.refl _ _ | with_reducible decide | with_reducible refine Only.after (State.freeLanded_only ..) ?_ ?_
      | with_reducible refine Only.after (State.moveLanded_only ..) ?_ ?_ | (extract_lets) | split)

end Sys2Proof.Machine
end

