-- ==== Sys2Proof/Laws/OnlyTierRows.lean ====
section
/-!
SUPPORT. The parts of the state the operations of TierRows may change.
-/
set_option linter.unusedTactic false
set_option linter.unusedVariables false
set_option Elab.async false
namespace Sys2Proof.Machine
open Sys2Proof

theorem execSpaceStalled_only (a1) (a2) (s : State) (t : State) (h : execSpaceStalled a1 a2 s = .next t) : Only [.port, .sessions, .jobs, .sec, .log, .dict, .blocks, .tiers, .tileUnits, .carrel, .carrelPoison] s t := by
  unfold execSpaceStalled at h
  injection h with h; subst h
  repeat' (first
      | with_reducible exact Only.refl _ _ | with_reducible decide | with_reducible refine Only.after (State.tryClose_only ..) ?_ ?_
      | with_reducible refine Only.after (State.raiseJob_only ..) ?_ ?_ | with_reducible refine Only.after (State.updStep_only ..) ?_ ?_ | split)

theorem State.dropEviction_only (s : State) (a2) (a3) : Only [.dict, .tiers, .dma] s (State.dropEviction s a2 a3) := by
  unfold State.dropEviction
  extract_lets t
  have ht : Only [.dict, .tiers, .dma] s t := ((State.updTile_only ..).mono (by decide)).trans ((State.add_only ..).mono (by decide))
  split
  · refine ht.trans (State.endDma_only_of (by decide) _ _ _ fun s c d h => ?_)
    exact (State.abortOutcome_migrate s c d (by simp at h; exact h.1.1)).mono (by decide)
  · exact ht

theorem State.evict_only (n : Nat) (s : State) : Only [.port, .sessions, .log, .dict, .tiers, .dma] s (State.evict n s) := by
  induction n generalizing s with
  | zero => exact Only.refl _ s
  | succ n ih =>
    unfold State.evict
    split
    · exact Only.refl _ _
    · split
      · exact Only.refl _ _
      · split
        · exact ((State.dropEviction_only ..).mono (by decide)).trans (ih _)
        · split
          · exact ((State.updTile_only ..).mono (by decide)).trans (ih _)
          · exact (State.raise_only ..).mono (by decide)

theorem execPoolEvictionPass_only (s : State) (t : State) (h : execPoolEvictionPass s = .next t) : Only [.port, .sessions, .log, .dict, .tiers, .dma] s t := by
  unfold execPoolEvictionPass at h
  injection h with h; subst h
  repeat' (first
      | with_reducible exact Only.refl _ _ | with_reducible decide | with_reducible refine Only.after (State.evict_only ..) ?_ ?_ | (extract_lets)
      | split | fail_if_no_progress with_reducible refine Only.upd ?_)

theorem State.promote_only (s : State) (a2) (a3) (a4) : Only [.dict, .tiers, .dma] s (State.promote s a2 a3 a4) := by
  unfold State.promote
  repeat' (first
      | with_reducible exact Only.refl _ _ | with_reducible decide | with_reducible refine Only.after (State.dropEviction_only ..) ?_ ?_
      | with_reducible refine Only.after (State.updTile_only ..) ?_ ?_ | split)

theorem execPromotion_only (a1) (a2) (a3) (a4) (a5) (s : State) (t : State) (h : execPromotion a1 a2 a3 a4 a5 s = .next t) : Only [.dict, .tiers, .dma] s t := by
  unfold execPromotion at h
  injection h with h; subst h
  repeat' (first
      | with_reducible exact Only.refl _ _ | intro _ | with_reducible decide | with_reducible refine Only.after (State.promote_only ..) ?_ ?_
      | with_reducible refine Only.trans ?_ (Only.foldl _ _ _ ?_) | (extract_lets) | split | fail_if_no_progress with_reducible refine Only.upd ?_)

theorem execMoveCommit_only (a1) (s : State) (t : State) (h : execMoveCommit a1 s = .next t) : Only [.port, .jobs, .sec, .dict, .blocks, .tiers, .fabric, .tileUnits, .carrel, .carrelPoison, .draws] s t := by
  unfold execMoveCommit at h
  injection h with h; subst h
  repeat' (first
      | with_reducible exact Only.refl _ _ | with_reducible decide | with_reducible refine Only.after (State.tryClose_only ..) ?_ ?_
      | with_reducible refine Only.after (State.runDeferreds_only ..) ?_ ?_ | with_reducible refine Only.after (State.add_only ..) ?_ ?_
      | with_reducible refine Only.after (State.updTile_only ..) ?_ ?_ | (extract_lets) | split
      | (with_reducible change Only _ _ (ite _ _ _); split) | fail_if_no_progress with_reducible refine Only.upd ?_)

end Sys2Proof.Machine
end

