-- ==== Sys2Proof/Laws/OnlyVectorRows.lean ====
section
/-!
SUPPORT. The parts of the state the operations of VectorRows may change.
-/
set_option linter.unusedTactic false
set_option linter.unusedVariables false
set_option Elab.async false
namespace Sys2Proof.Machine
open Sys2Proof

theorem State.putOperand_only (s : State) (a2) (a3) (a4) (a5) (a6) : Only [.carrel, .carrelPoison] s (State.putOperand s a2 a3 a4 a5 a6) := by
  unfold State.putOperand
  repeat' (first
      | with_reducible exact Only.refl _ _ | intro _ | with_reducible decide | with_reducible refine Only.after (State.putBody_only ..) ?_ ?_
      | with_reducible refine Only.after (State.carrelWrite_only ..) ?_ ?_ | with_reducible refine Only.trans ?_ (Only.foldl _ _ _ ?_)
      | (extract_lets) | split)

theorem State.takeQueue_only (s : State) (a2) (a3) : Only [.tileUnits] s (State.takeQueue s a2 a3).2 := by
  unfold State.takeQueue
  repeat' (first | with_reducible exact Only.refl _ _ | with_reducible decide | with_reducible refine Only.after (State.updUnit_only ..) ?_ ?_)
theorem State.takeQueue_only' {s : State} {a2} {a3} {x} {t} (h : State.takeQueue s a2 a3 = (x, t)) : Only [.tileUnits] s t := by
  have k := State.takeQueue_only s a2 a3; rw [h] at k; exact k

theorem Ctx.vecRead_only (a1) (s : State) : Only [.tileUnits] s (Ctx.vecRead a1 s).2 := by
  unfold Ctx.vecRead
  repeat' (first
      | with_reducible exact Only.refl _ _ | with_reducible decide | (extract_lets) | split
      | with_reducible refine Only.after (State.takeQueue_only ..) ?_ ?_ | (rename_i h _ _ _ _; refine Only.ofIf h ?_ ?_))
theorem Ctx.vecRead_only' {a1} {s : State} {x} {t} (h : Ctx.vecRead a1 s = (x, t)) : Only [.tileUnits] s t := by
  have k := Ctx.vecRead_only a1 s; rw [h] at k; exact k

theorem Ctx.laneRange_only (a1) (a2) (s : State) : Only [.port, .sessions, .jobs, .log, .dict] s (Ctx.laneRange a1 a2 s) := by
  unfold Ctx.laneRange
  repeat' (first
      | with_reducible exact Only.refl _ _ | with_reducible decide | with_reducible refine Only.after (Ctx.count_only ..) ?_ ?_
      | with_reducible refine Only.after (State.raiseJob_only ..) ?_ ?_ | (extract_lets) | split | (dsimp only) | (dsimp +zetaDelta only; split))

theorem Ctx.vecWrite_only (a1) (a2) (a3) (s : State) : Only [.jobs, .carrel, .carrelPoison] s (Ctx.vecWrite a1 a2 a3 s) := by
  unfold Ctx.vecWrite
  repeat' (first
      | with_reducible exact Only.refl _ _ | with_reducible decide | with_reducible refine Only.after (State.putOperand_only ..) ?_ ?_
      | with_reducible refine Only.after (Ctx.count_only ..) ?_ ?_ | (extract_lets) | split)

theorem Ctx.vector_only (a1) (s : State) : Only [.port, .sessions, .jobs, .log, .dict, .tileUnits, .carrel, .carrelPoison] s (Ctx.vector a1 s) := by
  unfold Ctx.vector
  repeat' (first
      | with_reducible exact Only.refl _ _ | with_reducible decide | with_reducible refine Only.after (State.putOperand_only ..) ?_ ?_
      | with_reducible refine Only.after (Ctx.count_only ..) ?_ ?_ | with_reducible refine Only.after (Ctx.vecWrite_only ..) ?_ ?_
      | with_reducible refine Only.after (State.carrelWrite_only ..) ?_ ?_ | with_reducible refine Only.after (Ctx.laneRange_only ..) ?_ ?_
      | (extract_lets) | split | with_reducible (apply Only.trans; rotate_left; apply Only.mono; apply Ctx.vecRead_only'; assumption))

theorem State.vector_only (s : State) (a2) (a3) (a4) : Only [.port, .sessions, .jobs, .log, .dict, .tileUnits, .carrel, .carrelPoison] s (State.vector s a2 a3 a4) := by
  unfold State.vector
  repeat' (first
      | with_reducible exact Only.refl _ _ | intro _ | with_reducible decide
      | with_reducible refine Only.trans ?_ (State.issuePlain_only (h5 := ?_) (hw := ?_) ..)
      | with_reducible refine Only.after (Ctx.vector_only ..) ?_ ?_)

theorem execCopy_only (a1) (a2) (s : State) (t : State) (h : execCopy a1 a2 s = .next t) : Only [.port, .sessions, .jobs, .log, .dict, .tileUnits, .carrel, .carrelPoison] s t := by
  unfold execCopy at h
  injection h with h; subst h
  repeat' (first | with_reducible exact Only.refl _ _ | with_reducible decide | with_reducible refine Only.after (State.vector_only ..) ?_ ?_)

theorem execAdd_only (a1) (a2) (s : State) (t : State) (h : execAdd a1 a2 s = .next t) : Only [.port, .sessions, .jobs, .log, .dict, .tileUnits, .carrel, .carrelPoison] s t := by
  unfold execAdd at h
  injection h with h; subst h
  repeat' (first | with_reducible exact Only.refl _ _ | with_reducible decide | with_reducible refine Only.after (State.vector_only ..) ?_ ?_)

theorem execSub_only (a1) (a2) (s : State) (t : State) (h : execSub a1 a2 s = .next t) : Only [.port, .sessions, .jobs, .log, .dict, .tileUnits, .carrel, .carrelPoison] s t := by
  unfold execSub at h
  injection h with h; subst h
  repeat' (first | with_reducible exact Only.refl _ _ | with_reducible decide | with_reducible refine Only.after (State.vector_only ..) ?_ ?_)

theorem execMul_only (a1) (a2) (s : State) (t : State) (h : execMul a1 a2 s = .next t) : Only [.port, .sessions, .jobs, .log, .dict, .tileUnits, .carrel, .carrelPoison] s t := by
  unfold execMul at h
  injection h with h; subst h
  repeat' (first | with_reducible exact Only.refl _ _ | with_reducible decide | with_reducible refine Only.after (State.vector_only ..) ?_ ?_)

theorem execFma_only (a1) (a2) (s : State) (t : State) (h : execFma a1 a2 s = .next t) : Only [.port, .sessions, .jobs, .log, .dict, .tileUnits, .carrel, .carrelPoison] s t := by
  unfold execFma at h
  injection h with h; subst h
  repeat' (first | with_reducible exact Only.refl _ _ | with_reducible decide | with_reducible refine Only.after (State.vector_only ..) ?_ ?_)

theorem execMin_only (a1) (a2) (s : State) (t : State) (h : execMin a1 a2 s = .next t) : Only [.port, .sessions, .jobs, .log, .dict, .tileUnits, .carrel, .carrelPoison] s t := by
  unfold execMin at h
  injection h with h; subst h
  repeat' (first | with_reducible exact Only.refl _ _ | with_reducible decide | with_reducible refine Only.after (State.vector_only ..) ?_ ?_)

theorem execMax_only (a1) (a2) (s : State) (t : State) (h : execMax a1 a2 s = .next t) : Only [.port, .sessions, .jobs, .log, .dict, .tileUnits, .carrel, .carrelPoison] s t := by
  unfold execMax at h
  injection h with h; subst h
  repeat' (first | with_reducible exact Only.refl _ _ | with_reducible decide | with_reducible refine Only.after (State.vector_only ..) ?_ ?_)

theorem execAbs_only (a1) (a2) (s : State) (t : State) (h : execAbs a1 a2 s = .next t) : Only [.port, .sessions, .jobs, .log, .dict, .tileUnits, .carrel, .carrelPoison] s t := by
  unfold execAbs at h
  injection h with h; subst h
  repeat' (first | with_reducible exact Only.refl _ _ | with_reducible decide | with_reducible refine Only.after (State.vector_only ..) ?_ ?_)

theorem execNeg_only (a1) (a2) (s : State) (t : State) (h : execNeg a1 a2 s = .next t) : Only [.port, .sessions, .jobs, .log, .dict, .tileUnits, .carrel, .carrelPoison] s t := by
  unfold execNeg at h
  injection h with h; subst h
  repeat' (first | with_reducible exact Only.refl _ _ | with_reducible decide | with_reducible refine Only.after (State.vector_only ..) ?_ ?_)

theorem execExp_only (a1) (a2) (s : State) (t : State) (h : execExp a1 a2 s = .next t) : Only [.port, .sessions, .jobs, .log, .dict, .tileUnits, .carrel, .carrelPoison] s t := by
  unfold execExp at h
  injection h with h; subst h
  repeat' (first | with_reducible exact Only.refl _ _ | with_reducible decide | with_reducible refine Only.after (State.vector_only ..) ?_ ?_)

theorem execLog_only (a1) (a2) (s : State) (t : State) (h : execLog a1 a2 s = .next t) : Only [.port, .sessions, .jobs, .log, .dict, .tileUnits, .carrel, .carrelPoison] s t := by
  unfold execLog at h
  injection h with h; subst h
  repeat' (first | with_reducible exact Only.refl _ _ | with_reducible decide | with_reducible refine Only.after (State.vector_only ..) ?_ ?_)

theorem execRecip_only (a1) (a2) (s : State) (t : State) (h : execRecip a1 a2 s = .next t) : Only [.port, .sessions, .jobs, .log, .dict, .tileUnits, .carrel, .carrelPoison] s t := by
  unfold execRecip at h
  injection h with h; subst h
  repeat' (first | with_reducible exact Only.refl _ _ | with_reducible decide | with_reducible refine Only.after (State.vector_only ..) ?_ ?_)

theorem execSqrt_only (a1) (a2) (s : State) (t : State) (h : execSqrt a1 a2 s = .next t) : Only [.port, .sessions, .jobs, .log, .dict, .tileUnits, .carrel, .carrelPoison] s t := by
  unfold execSqrt at h
  injection h with h; subst h
  repeat' (first | with_reducible exact Only.refl _ _ | with_reducible decide | with_reducible refine Only.after (State.vector_only ..) ?_ ?_)

theorem execRsqrt_only (a1) (a2) (s : State) (t : State) (h : execRsqrt a1 a2 s = .next t) : Only [.port, .sessions, .jobs, .log, .dict, .tileUnits, .carrel, .carrelPoison] s t := by
  unfold execRsqrt at h
  injection h with h; subst h
  repeat' (first | with_reducible exact Only.refl _ _ | with_reducible decide | with_reducible refine Only.after (State.vector_only ..) ?_ ?_)

theorem execTanh_only (a1) (a2) (s : State) (t : State) (h : execTanh a1 a2 s = .next t) : Only [.port, .sessions, .jobs, .log, .dict, .tileUnits, .carrel, .carrelPoison] s t := by
  unfold execTanh at h
  injection h with h; subst h
  repeat' (first | with_reducible exact Only.refl _ _ | with_reducible decide | with_reducible refine Only.after (State.vector_only ..) ?_ ?_)

theorem execSigmoid_only (a1) (a2) (s : State) (t : State) (h : execSigmoid a1 a2 s = .next t) : Only [.port, .sessions, .jobs, .log, .dict, .tileUnits, .carrel, .carrelPoison] s t := by
  unfold execSigmoid at h
  injection h with h; subst h
  repeat' (first | with_reducible exact Only.refl _ _ | with_reducible decide | with_reducible refine Only.after (State.vector_only ..) ?_ ?_)

theorem execCmpLt_only (a1) (a2) (s : State) (t : State) (h : execCmpLt a1 a2 s = .next t) : Only [.port, .sessions, .jobs, .log, .dict, .tileUnits, .carrel, .carrelPoison] s t := by
  unfold execCmpLt at h
  injection h with h; subst h
  repeat' (first | with_reducible exact Only.refl _ _ | with_reducible decide | with_reducible refine Only.after (State.vector_only ..) ?_ ?_)

theorem execCmpLe_only (a1) (a2) (s : State) (t : State) (h : execCmpLe a1 a2 s = .next t) : Only [.port, .sessions, .jobs, .log, .dict, .tileUnits, .carrel, .carrelPoison] s t := by
  unfold execCmpLe at h
  injection h with h; subst h
  repeat' (first | with_reducible exact Only.refl _ _ | with_reducible decide | with_reducible refine Only.after (State.vector_only ..) ?_ ?_)

theorem execCmpEq_only (a1) (a2) (s : State) (t : State) (h : execCmpEq a1 a2 s = .next t) : Only [.port, .sessions, .jobs, .log, .dict, .tileUnits, .carrel, .carrelPoison] s t := by
  unfold execCmpEq at h
  injection h with h; subst h
  repeat' (first | with_reducible exact Only.refl _ _ | with_reducible decide | with_reducible refine Only.after (State.vector_only ..) ?_ ?_)

theorem execCmpNe_only (a1) (a2) (s : State) (t : State) (h : execCmpNe a1 a2 s = .next t) : Only [.port, .sessions, .jobs, .log, .dict, .tileUnits, .carrel, .carrelPoison] s t := by
  unfold execCmpNe at h
  injection h with h; subst h
  repeat' (first | with_reducible exact Only.refl _ _ | with_reducible decide | with_reducible refine Only.after (State.vector_only ..) ?_ ?_)

theorem execRsum_only (a1) (a2) (s : State) (t : State) (h : execRsum a1 a2 s = .next t) : Only [.port, .sessions, .jobs, .log, .dict, .tileUnits, .carrel, .carrelPoison] s t := by
  unfold execRsum at h
  injection h with h; subst h
  repeat' (first | with_reducible exact Only.refl _ _ | with_reducible decide | with_reducible refine Only.after (State.vector_only ..) ?_ ?_)

theorem execRsumsq_only (a1) (a2) (s : State) (t : State) (h : execRsumsq a1 a2 s = .next t) : Only [.port, .sessions, .jobs, .log, .dict, .tileUnits, .carrel, .carrelPoison] s t := by
  unfold execRsumsq at h
  injection h with h; subst h
  repeat' (first | with_reducible exact Only.refl _ _ | with_reducible decide | with_reducible refine Only.after (State.vector_only ..) ?_ ?_)

theorem execRmax_only (a1) (a2) (s : State) (t : State) (h : execRmax a1 a2 s = .next t) : Only [.port, .sessions, .jobs, .log, .dict, .tileUnits, .carrel, .carrelPoison] s t := by
  unfold execRmax at h
  injection h with h; subst h
  repeat' (first | with_reducible exact Only.refl _ _ | with_reducible decide | with_reducible refine Only.after (State.vector_only ..) ?_ ?_)

theorem execRmin_only (a1) (a2) (s : State) (t : State) (h : execRmin a1 a2 s = .next t) : Only [.port, .sessions, .jobs, .log, .dict, .tileUnits, .carrel, .carrelPoison] s t := by
  unfold execRmin at h
  injection h with h; subst h
  repeat' (first | with_reducible exact Only.refl _ _ | with_reducible decide | with_reducible refine Only.after (State.vector_only ..) ?_ ?_)

theorem execRamax_only (a1) (a2) (s : State) (t : State) (h : execRamax a1 a2 s = .next t) : Only [.port, .sessions, .jobs, .log, .dict, .tileUnits, .carrel, .carrelPoison] s t := by
  unfold execRamax at h
  injection h with h; subst h
  repeat' (first | with_reducible exact Only.refl _ _ | with_reducible decide | with_reducible refine Only.after (State.vector_only ..) ?_ ?_)

theorem execPerm_only (a1) (a2) (s : State) (t : State) (h : execPerm a1 a2 s = .next t) : Only [.port, .sessions, .jobs, .log, .dict, .tileUnits, .carrel, .carrelPoison] s t := by
  unfold execPerm at h
  injection h with h; subst h
  repeat' (first | with_reducible exact Only.refl _ _ | with_reducible decide | with_reducible refine Only.after (State.vector_only ..) ?_ ?_)

theorem execBcast_only (a1) (a2) (s : State) (t : State) (h : execBcast a1 a2 s = .next t) : Only [.port, .sessions, .jobs, .log, .dict, .tileUnits, .carrel, .carrelPoison] s t := by
  unfold execBcast at h
  injection h with h; subst h
  repeat' (first | with_reducible exact Only.refl _ _ | with_reducible decide | with_reducible refine Only.after (State.vector_only ..) ?_ ?_)

theorem execVcompress_only (a1) (a2) (s : State) (t : State) (h : execVcompress a1 a2 s = .next t) : Only [.port, .sessions, .jobs, .log, .dict, .tileUnits, .carrel, .carrelPoison] s t := by
  unfold execVcompress at h
  injection h with h; subst h
  repeat' (first | with_reducible exact Only.refl _ _ | with_reducible decide | with_reducible refine Only.after (State.vector_only ..) ?_ ?_)

theorem execVexpand_only (a1) (a2) (s : State) (t : State) (h : execVexpand a1 a2 s = .next t) : Only [.port, .sessions, .jobs, .log, .dict, .tileUnits, .carrel, .carrelPoison] s t := by
  unfold execVexpand at h
  injection h with h; subst h
  repeat' (first | with_reducible exact Only.refl _ _ | with_reducible decide | with_reducible refine Only.after (State.vector_only ..) ?_ ?_)

theorem Ctx.softmax_only (a1) (s : State) : Only [.jobs, .tileUnits, .carrel, .carrelPoison] s (Ctx.softmax a1 s) := by
  unfold Ctx.softmax
  repeat' (first
      | with_reducible exact Only.refl _ _ | intro _ | with_reducible decide | with_reducible refine Only.after (State.putBody_only ..) ?_ ?_
      | with_reducible refine Only.after (State.carrelWrite_only ..) ?_ ?_ | with_reducible refine Only.after (Ctx.report_only ..) ?_ ?_
      | with_reducible refine Only.after (Ctx.count_only ..) ?_ ?_ | with_reducible refine Only.trans ?_ (Only.foldl _ _ _ ?_) | (extract_lets)
      | split | (with_reducible change Only _ _ (ite _ _ _); split)
      | with_reducible (apply Only.trans; rotate_left; apply Only.mono; apply State.takeQueue_only'; assumption)
      | (rename_i h _ _ _ _ _ _ _ _ _ _ _ _ _ _; refine Only.ofIf h ?_ ?_))

theorem State.softmax_only (s : State) (a2) (a3) (a4) : Only [.jobs, .tileUnits, .carrel, .carrelPoison] s (State.softmax s a2 a3 a4) := by
  unfold State.softmax
  repeat' (first
      | with_reducible exact Only.refl _ _ | intro _ | with_reducible decide
      | with_reducible refine Only.trans ?_ (State.issuePlain_only (h5 := ?_) (hw := ?_) ..)
      | with_reducible refine Only.after (Ctx.softmax_only ..) ?_ ?_)

theorem execSoftmaxRow_only (a1) (a2) (s : State) (t : State) (h : execSoftmaxRow a1 a2 s = .next t) : Only [.jobs, .tileUnits, .carrel, .carrelPoison] s t := by
  unfold execSoftmaxRow at h
  injection h with h; subst h
  repeat' (first | with_reducible exact Only.refl _ _ | with_reducible decide | with_reducible refine Only.after (State.softmax_only ..) ?_ ?_)

theorem execSoftmaxStats_only (a1) (a2) (s : State) (t : State) (h : execSoftmaxStats a1 a2 s = .next t) : Only [.jobs, .tileUnits, .carrel, .carrelPoison] s t := by
  unfold execSoftmaxStats at h
  injection h with h; subst h
  repeat' (first | with_reducible exact Only.refl _ _ | with_reducible decide | with_reducible refine Only.after (State.softmax_only ..) ?_ ?_)

theorem execSoftmaxApply_only (a1) (a2) (s : State) (t : State) (h : execSoftmaxApply a1 a2 s = .next t) : Only [.jobs, .tileUnits, .carrel, .carrelPoison] s t := by
  unfold execSoftmaxApply at h
  injection h with h; subst h
  repeat' (first | with_reducible exact Only.refl _ _ | with_reducible decide | with_reducible refine Only.after (State.softmax_only ..) ?_ ?_)

theorem Ctx.convert_only (a1) (s : State) : Only [.jobs, .tileUnits, .carrel, .carrelPoison] s (Ctx.convert a1 s) := by
  unfold Ctx.convert
  repeat' (first
      | with_reducible exact Only.refl _ _ | intro _ | with_reducible decide | with_reducible refine Only.after (State.putOperand_only ..) ?_ ?_
      | with_reducible refine Only.after (State.carrelWrite_only ..) ?_ ?_ | with_reducible refine Only.after (Ctx.report_only ..) ?_ ?_
      | with_reducible refine Only.trans ?_ (Only.foldl _ _ _ ?_) | (extract_lets) | split
      | with_reducible refine Only.after (State.takeQueue_only ..) ?_ ?_ | (rename_i h _ _ _ _ _ _ _ _ _ _; refine Only.ofIf h ?_ ?_))

theorem execConvert_only (a1) (a2) (s : State) (t : State) (h : execConvert a1 a2 s = .next t) : Only [.jobs, .tileUnits, .carrel, .carrelPoison] s t := by
  unfold execConvert at h
  injection h with h; subst h
  repeat' (first
      | with_reducible exact Only.refl _ _ | intro _ | with_reducible decide
      | with_reducible refine Only.trans ?_ (State.issuePlain_only (h5 := ?_) (hw := ?_) ..)
      | with_reducible refine Only.after (Ctx.convert_only ..) ?_ ?_)

theorem Ctx.compress_only (a1) (s : State) : Only [.jobs, .tiers, .draws] s (Ctx.compress a1 s) := by
  unfold Ctx.compress
  repeat' (first
      | with_reducible exact Only.refl _ _ | intro _ | with_reducible decide | with_reducible refine Only.after (State.touch_only ..) ?_ ?_
      | with_reducible refine Only.after (State.putTile_only ..) ?_ ?_ | with_reducible refine Only.after (Ctx.report_only ..) ?_ ?_
      | with_reducible refine Only.after (Ctx.count_only ..) ?_ ?_ | with_reducible refine Only.trans ?_ (Only.foldl _ _ _ ?_) | (extract_lets)
      | split)

theorem execCompress_only (a1) (a2) (s : State) (t : State) (h : execCompress a1 a2 s = .next t) : Only [.jobs, .dict, .tiers, .tileUnits, .draws] s t := by
  unfold execCompress at h
  injection h with h; subst h
  repeat' (first
      | with_reducible exact Only.refl _ _ | intro _ | with_reducible decide
      | with_reducible refine Only.trans ?_ (State.issueSpace_only (h7 := ?_) (hw := ?_) ..)
      | with_reducible refine Only.after (Ctx.compress_only ..) ?_ ?_)

end Sys2Proof.Machine
end

