-- ==== Sys2Proof/Tests/Slice0.lean ====
section
/-!
SUPPORT. Tests: terms that the well-formedness check refuses, states that meet the hypotheses of the statements, and a few results worked out by hand from the
spec.
-/
set_option Elab.async false
namespace Sys2Proof.Tests
open Sys2Proof Sys2Proof.Machine

/-! ### A small module -/

/-- A live session formed over DOE. -/
def session1 : Session :=
  { id := 1, live := true, role := .operator, transport := .doe, tenant := zeros 64, root := some (zeros 64), inKey := 0, outKey := 0, spdmKeys := 0,
    heartbeat := 30, failures := [], describe := 0, ackUpTo := 0, gdpIn := 0, gdpOut := 0, asked := [], again := [], kept := [], sub := none }

/-- One formed over GDP. -/
def session2 : Session := { session1 with id := 2, transport := .gdp }

/-- A ready module with its ports up and two sessions. -/
def up : State :=
  let s := State.reset
  { s with
    port := { s.port with perst := false, width := 8, rate := 64, ide := 2, queues := [(0, { session := 1, ringEnable := true, job := some 0 }), (1, { session := 1 })] }
    sessions := [session1, session2]
    bring := { s.bring with phase1 := .done, segment := true, pwrGood := true, trained := true, initialised := true, ready := true }
    power := { s.power with vin := 54000, pwrEn := true, dies := List.replicate 4 .awake }
    sec := { s.sec with claimed := true }
    log := { s.log with seq := some 4096 } }

/-- A job's body with nothing in it. -/
def body0 : JobBody :=
  { graphs := [], features := [], tables := [], shelf := [], shelfSet := [], suggestions := [], params := [], held := [], calls := [], nextCall := 0,
    watches := [], results := [], dict := [], rowWrites := [], freezes := [], health := [], counters := [], nextStep := 0, lastDone := none }

/-- A running job in slot 0 with nothing in it, on queue 0. -/
def job0 : Job :=
  { slot := 0, key := 7, tenant := zeros 64, holder := some 1, state := .running, queues := [0], eventQueue := 0, positions := [0x0F00], fenced := false,
    accepted := 1, programs := [], setId := 0, tensors := [], layers := [], pipeline := none, stages := [], branches := [], resultTensors := [], body := body0,
    log := [], logEnd := 0, steps := [], signals := [], deferred := [], retained := [], owed := [], deposit := none, taking := none, depositAt := 0,
    takingAt := 0, costs := [], early := false, full := false, nextChunk := 0, fragments := [], exported := none, shelfCap := 0, interval := 1 }

/-- A step with nothing in it yet. -/
def step0 : StepRec :=
  { num := 0, accept := 2, asker := .command 1 0 2, seeds := [[(0, 0)]], timed := false, bind := [], editions := [], roles := [], pieces := [], formed := [],
    dispatched := [], completed := [], ledgers := [], staged := [], adds := [], parts := [], checks := [], bound := [], updates := [], gathered := [],
    ended := [], ownEnd := false, sentTo := [], counts := [], promised := [], copies := [], scaled := [], seeded := [], rescaled := [], frozen := [],
    rangeTiles := [], outOfTable := false, nonfinite := false, stalled := false, effects := [], handed := [], handoffs := [], watched := false,
    refreshed := false, recorded := false, poisonRuns := [], spaceWait := [], tallies := [] }

/-- A command that has arrived on a queue. -/
def arrived (q opcode step : Nat) (job : Option Nat) (payload : List Byte) : InFlight :=
  { cmd := { queue := q, session := 1, seq := 5, tag := 9, opcode := opcode, step := step, hdrBad := false, payload := payload }, stage := .arrived,
    job := job, accept := none, logged := false }

/-- The small module with a job and a command arrived for it on queue 0. -/
def asked (j : Job) (opcode step : Nat) (payload : List Byte) : State :=
  { up with jobs := [j], port := { up.port with inFlight := [arrived 0 opcode step (some 0) payload] } }


/-! ### The block -/

/-- The machine after reset with `PERST_N` to be released. -/
def released : State := { State.reset with pending := [.perstDeassert] }

theorem wit_FrontCommandRuns : released.pending = .perstDeassert :: [] := rfl
theorem wit_EmptyQueueIdles : State.reset.pending = [] := rfl
theorem wit_StepsKeepTheInvariant : released.Inv ∧ ∃ t, step released = .next t ∧ t.port.perst = false := ⟨by unfold State.Inv; decide +kernel, _, rfl, rfl⟩
theorem wit_WearOnlyGrows : ∃ t, step released = .next t ∧ t.pending = [] := ⟨_, rfl, rfl⟩
theorem wit_CommandsChangeOnlyTheirParts : ∃ t, exec .perstDeassert State.reset = .next t ∧ t.port.perst = false := ⟨_, rfl, rfl⟩
theorem wit_CarrelReadsWhatWasWritten : carrelWf [(carrelAt 255 (2 ^ 22 - 1), (7 : Byte))] = true ∧ carrelWf State.reset.carrel = true := by decide +kernel
/-! ### Witnesses: every statement's hypotheses are met -/

/-- The state a command answers. -/
def after (c : Instr) (s : State) : State := match exec c s with | .next t => t | _ => s

/-- A packet: its 64 header bytes and a plain payload (Table 14-4). -/
def packet (q session seq tag opcode step : Nat) (plain : List Byte) : List Byte :=
  toLE 64 (opcode + q * 2 ^ 16 + session * 2 ^ 32 + plain.length * 2 ^ 48 + seq * 2 ^ 64 + tag * 2 ^ 128 + plain.length * 2 ^ 160 + step * 2 ^ 224) ++ plain

/-- The small module with a packet waiting in slot 3 of queue 0. -/
def bell (js : List Job) (p : List Byte) : State :=
  { up with jobs := js, port := { up.port with queues :=
      [(0, { session := 1, ringEnable := true, job := js.head?.map (·.slot), slots := [[], [], [], p], busy := 8, bells := [(3, p.length)], lastSeq := 4 })] } }

theorem wit_SlotsAndDoorbells :
    (up.barUp 1 = true ∧ ([1, 2] : List Byte) ≠ [] ∧ 0xFFFE + 2 ≤ 0x10000 ∧ (∀ k < 4, up.slotFree 1 k = true) ∧ (up.queue 1).slots.length = 4) ∧
      up.slotFree 1 (bits 0xC0000040 31 30) = true ∧ (bell [] [0]).barUp 0 = true ∧ (bell [] [0]).slotFree 0 (bits 0xC0000040 31 30) = false := by
  decide +kernel

theorem wit_RingRegisters :
    bit 0x108 8 = true ∧ up.barUp 1 = true ∧ (up.queue 1).ringEnable = false ∧ (up.queue 0).ringEnable = true ∧ up.barUp 0 = true ∧ bit 0 8 = false := by
  decide +kernel

/-- A response of the smallest kind. -/
def response0 : Response :=
  { typ := .completion, status := .ok, queue := 0, session := 1, seq := 1, tag := 9, step := 0, retry := 0, payload := [], cmd := some 1 }

def storing (head tail : BitVec 32) (full : Bool) : State :=
  { up with port := { up.port with queues := [(0, { session := 1, ringEnable := true, ringHead := head, ringTail := tail, store := [response0], ringFull := full })] } }

theorem wit_ResponsesReachTheRing :
    let s := storing 0 255 false
    let t := storing 0 256 false
    ((s.queue 0).store = [response0] ∧ (s.queue 0).ringEnable = true ∧ s.port.ide = 2 ∧ s.port.width ≠ 0 ∧ s.outOfStepOrder response0 = false ∧
        (s.queue 0).fits response0.entries = true) ∧
      ((t.queue 0).fits response0.entries = false ∧ (t.queue 0).ringFull = false) ∧ ((storing 0 256 true).queue 0).ringFull = true ∧
      (let step (n q seq : Nat) : InFlight :=
         { arrived q 0x20 n (some 0) [] with cmd := { (arrived q 0x20 n (some 0) []).cmd with seq := seq }, accept := some n, stage := .waiting }
       ({ s with port := { s.port with inFlight := [step 4 0 1, step 3 1 6] } } : State).outOfStepOrder response0 = true) := by
  decide +kernel

theorem wit_NoSessionWithoutSequenceCheck :
    let data := packet 0 99 77 9 0x7F 0 []
    let h := leNat (data.take 64)
    within 64 16384 64 = true ∧ 64 = 64 + bits h 63 48 ∧ bits h 31 16 = 0 ∧ ¬ ((up.queue 0).dropTag = some (bits h 159 128) ∧ 0 < bits h 207 192) ∧
      ∀ x ∈ up.sessions, ¬ (x.id = bits h 47 32 ∧ x.live = true) := by
  decide +kernel

/-- The hypotheses that taking a packet shares. -/
def Taken (s : State) (q slot : Nat) (rest : List (Nat × Nat)) (plain : List Byte) (x : Session) : Prop :=
  let data := ((s.queue q).slots.getD slot []).take (64 + plain.length)
  let h := leNat (data.take 64)
  let c := headerCommand q h plain
  (s.queue q).bells = (slot, 64 + plain.length) :: rest ∧ plain.length ≤ 16320 ∧ s.port.ide = 2 ∧
    (s.queue q).hasRoom (finalEntries (leAt data 0 1)) = true ∧
    bits h 63 48 = plain.length ∧ bits h 31 16 = q ∧ bits h 191 160 = plain.length ∧ bits h 207 192 = 0 ∧ bit h 8 = false ∧
    x ∈ s.sessions ∧ x.id = c.session ∧ x.live = true ∧ x.transport = .doe ∧ (s.queue q).session = c.session ∧ c.session ≠ 0 ∧
    c.seq = (s.queue q).lastSeq + 1 ∧ (s.queue q).chain = none

/-- The small module with the recovery region full, and a packet on the job's queue. -/
def overfull : State :=
  { bell [job0] (packet 0 1 5 9 0x7F 0 []) with dict := [(entryKey 0x7120 4, .num 0), (entryKey 0x7100 1, .num 0)] }

theorem wit_PacketTakenAndChecked :
    ((overfull.queue 0).job ≠ none ∧ overfull.regionFull = true) ∧
    let s := bell [] (packet 0 1 5 9 0x7F 0 [])
    let c := headerCommand 0 (leNat (packet 0 1 5 9 0x7F 0 [])) []
    Taken s 0 3 [] [] session1 ∧ listedOpcodes.contains c.opcode = true ∧ s.gate7 0 c.opcode = none ∧ s.gate8 0 c.opcode [] = none ∧ (s.queue 0).job = none := by
  unfold Taken; decide +kernel

theorem wit_SixteenStepsAtMost :
    let j := { job0 with steps := (List.range 16).map fun n => { step0 with num := n } }
    let s := bell [j] (packet 0 1 5 9 0x20 16 [])
    Taken s 0 3 [] [] session1 ∧ s.gate7 0 0x20 = none ∧ (s.queue 0).job.bind s.job? = some j ∧ 16 ≤ j.steps.length ∧ s.inFlight? 1 0 5 = none ∧ s.regionFull = false := by
  unfold Taken; decide +kernel

theorem wit_NoDoorbellBeforeReady :
    let s := { up with bring := { up.bring with ready := false } }
    s.bring.ready = false ∧ s.barUp 0 = true := by
  decide +kernel

def chained : State :=
  let c := { (arrived 0 0x20 0 (some 0) []) with stage := .chain }
  { up with port := { up.port with inFlight := [c], queues := [(0, { session := 1, lastSeq := 5, chain := some { tag := 9, opcode := 0x20, length := 40000, next := 1, bad := false } })] } }

theorem wit_ChainGapEndsTheChain :
    (chained.queue 0).chain = some { tag := 9, opcode := 0x20, length := 40000, next := 1, bad := false } ∧
      (∃ c, chained.chainCommand 0 = some c ∧ c.queue = 0 ∧ (chained.live? c.session).isSome = true ∧ (chained.queue 0).session = c.session) :=
  ⟨by decide +kernel, (arrived 0 0x20 0 (some 0) []).cmd, by decide +kernel, rfl, by decide +kernel, by decide +kernel⟩

theorem wit_LinkAndPortReset :
    (linkForm 8 64 = true ∧ linkForm 4 8 = true ∧ 4 < up.port.width ∧ up.port.width ≤ 8 ∧ up.port.rate ≤ 64) ∧
      (let s := { up with port := { up.port with width := 0, rate := 0 } }
       s.bring.pwrGood = true ∧ s.port.perst = false ∧ s.port.width = 0) := by
  decide +kernel

theorem wit_SpdmRequestsAnswered : up.responds .doe = true ∧ up.liveOver .doe 1 = true := by decide +kernel

/-- Session 1 between `KEY_EXCHANGE` and `FINISH`. -/
def halfway : State := { up with sessions := [{ session1 with live := false }] }

theorem wit_SessionsForm :
    (up.session? 3 = none ∧ (∀ k < 2, (up.session? (k + 1)).isSome = true)) ∧
      (let s := { up with sessions := (List.range 64).map fun i => { session1 with id := i + 1 } }
       s.responds .doe = true ∧ ∀ k < 64, (s.session? (k + 1)).isSome = true) ∧
      halfway.responds .doe = true ∧ halfway.session? 1 = some { session1 with live := false } ∧ halfway.roleOf (zeros 64) = some .operator := by
  decide +kernel

theorem wit_SessionsEnd : session1 ∈ up.sessions ∧ session1.live = true ∧ session1.heartbeat ≠ 0 ∧ up.liveOver .doe 1 = true := by decide +kernel

theorem wit_SpdmKeyUpdateRenewsKeys : up.responds .doe = true ∧ up.liveOver .doe 1 = true := by decide +kernel

/-- A `COPY` of 32 INT32 elements from granule 0 to granule 4, as a `VECTOR` descriptor (Tables 03-6 and 09-2); `op` is the operation. -/
def vec (op seq : Nat) : Desc :=
  ⟨6 + seq * 2 ^ 64 + op * 2 ^ 128 + (ElemType.int32).code * 2 ^ 136 + (ElemType.int32).code * 2 ^ 141 + (ElemType.int32).code * 2 ^ 146 + 1 * 2 ^ 155 + 32 * 2 ^ 176 +
    8 * 2 ^ 241 + 4 * 2 ^ 274⟩

/-- A program of role 2 with one descriptor. -/
def prog0 : Program := { role := 2, carrel := 64, slips := 0, descs := [vec 1 1] }

/-- A program set of one program (Tables 03-4 and 03-5). -/
def setOf (p : Program) : List Byte :=
  toLE 64 (1 + 1 * 2 ^ 16 + (128 + 64 * p.descs.length) * 2 ^ 32 + 1 * 2 ^ 64) ++ toLE 64 (p.role + p.descs.length * 2 ^ 8 + p.carrel * 2 ^ 32 + p.slips * 2 ^ 64) ++
    (p.descs.map fun d => toLE 64 d.w).flatten

/-- A `JOB_OPEN` payload of given sections (Tables 14-7 and 14-8). -/
def openPayload (key flags eventQueue : Nat) (secs : List (Nat × Nat × List Byte)) : List Byte :=
  let pad (b : List Byte) : List Byte := b ++ zeros ((8 - b.length % 8) % 8)
  let at' (i : Nat) : Nat := 64 + 16 * secs.length + ((secs.take i).map fun x => (pad x.2.2).length).sum
  toLE 64 (key + flags * 2 ^ 64 + eventQueue * 2 ^ 80 + secs.length * 2 ^ 96) ++
    ((List.range secs.length).map fun i =>
      let x := secs.getD i (0, 0, [])
      toLE 16 (x.1 + x.2.1 * 2 ^ 32 + at' i * 2 ^ 64 + x.2.2.length * 2 ^ 96)).flatten ++ (secs.map fun x => pad x.2.2).flatten

def freshPayload : List Byte := openPayload 77 0 1 [(1, 2, toLE 2 1 ++ toLE 2 1023), (2, 1, toLE 2 0), (4, 1, setOf prog0)]

/-- The small module with a `JOB_OPEN` arrived on queue 1. -/
def opening (js : List Job) (p : List Byte) : State := { up with jobs := js, port := { up.port with inFlight := [arrived 1 0x01 0 none p] } }

theorem wit_JobsOpen :
    let f := arrived 1 0x01 0 none freshPayload
    (opening [] freshPayload).Front 1 0x01 f ∧ f.job = none ∧ openResume f.cmd.payload = false ∧ (opening [] freshPayload).openBads f = [] ∧
      (opening [] freshPayload).job? (opening [] freshPayload).freeSlot = none :=
  ⟨⟨by decide +kernel, rfl, by decide +kernel, fun _ h => by cases h⟩, rfl, by decide +kernel, by decide +kernel, by decide +kernel⟩

def resumePayload : List Byte := openPayload 7 1 1 [(1, 1, toLE 2 1)]

def orphan : Job := { job0 with holder := none, queues := [] }

theorem wit_JobsResume :
    let f := arrived 1 0x01 0 none resumePayload
    let s := opening [orphan] resumePayload
    s.Front 1 0x01 f ∧ f.job = none ∧ openResume f.cmd.payload = true ∧ s.resumeBads f = [] ∧ s.orphan? f = some orphan ∧ s.job? orphan.slot = some orphan :=
  ⟨⟨by decide +kernel, rfl, by decide +kernel, fun _ h => by cases h⟩, rfl, by decide +kernel, by decide +kernel, by decide +kernel, by decide +kernel⟩

/-- The host's commands for a job are ready in the small module. -/
theorem ready (j : Job) (op step : Nat) (p : List Byte) (h : j.slot = 0) (hs : (step == 0 || op == 0x20 || op == 0x22 || op == 0x23) = true) (ht : j.takes op = true) :
    (asked j op step p).Ready 0 op (arrived 0 op step (some 0) p) j := by
  refine ⟨?_, rfl, ?_, ?_, ht⟩
  · simp [asked, State.arrivedOn, arrived]
  · simp [asked, State.headerBad, arrived, State.tagHeld, InFlight.is, need] at hs ⊢; omega
  · simp [asked, arrived, State.job?, h]

theorem wit_JobsClose :
    (asked job0 0x02 0 []).Ready 0 0x02 (arrived 0 0x02 0 (some 0) []) job0 ∧ job0.steps.find? (·.stalled) = none ∧
      (let s := { up with jobs := [orphan], dict := [(entryKey 0x4010 64, .num 2)] }
       s.job? 0 = some orphan ∧ orphan.holder = none ∧ orphan.state = .running ∧ orphan.steps = [] ∧ orphan.deferred = [] ∧
         (∀ f ∈ s.port.inFlight, f.job ≠ some 0) ∧ roleA (s.roleWord 63) ≠ 0 ∧ roleSlot (s.roleWord 63) = 0) :=
  ⟨ready job0 2 0 [] rfl rfl (by decide +kernel), by decide +kernel, by decide +kernel⟩

/-- A table of 33 rows of 16 FP32 elements on one position. -/
def createPayload : List Byte := toLE 64 (3 + 3 * 2 ^ 22 + 16 * 2 ^ 32 + 32 * 2 ^ 48 + 1 * 2 ^ 112 + 0xFFFFFFFF * 2 ^ 192) ++ toLE 2 0x0F00

def table3 : Table := newTable createPayload 2

def shelfPayload (mode : Nat) : List Byte := toLE 32 (mode + 2 * 2 ^ 32) ++ toLE 8 (5 + 3 * 2 ^ 40) ++ toLE 8 (39 + 3 * 2 ^ 40)

theorem wit_TablesAndShelfSets :
    (asked job0 0x10 0 createPayload).tableCreateBads job0 createPayload = [] ∧ job0.takes 0x10 = true ∧ job0.takes 0x13 = true ∧
      ∀ m < 3, up.shelfBads job0 (shelfPayload m) = [] ∧ shelfMode (shelfPayload m) = m := by
  decide +kernel

def tabled (t : Table) (xs : List StepRec) : Job := { job0 with steps := xs, body := { body0 with tables := [t] } }

def loadPayload (flags first count : Nat) (data : List Byte) : List Byte := toLE 32 (3 + flags * 2 ^ 15 + first * 2 ^ 24 + count * 2 ^ 64) ++ data

def rowRecord : List Byte := zeros 72

def stagedLoad : List Byte := loadPayload 1 32 1 rowRecord
def pageLoad : List Byte := loadPayload 0 32 1 rowRecord
def annexLoad : List Byte := loadPayload 4 0 32 []
def waitingLoad : List Byte := loadPayload 0 32 1 rowRecord
/-- The table with its rows at another position. -/
def farTable : Table := { table3 with positions := [1], annex := [(1, 1)] }

theorem wit_TableLoads :
    ((tabled table3 []).takes 0x11 = true ∧ (tabled table3 []).table? 3 = some table3) ∧
      ((asked (tabled table3 []) 0x11 0 stagedLoad).tableLoadBads (tabled table3 []) stagedLoad = [] ∧ (loadHead stagedLoad).staging = true ∧
        (loadHead stagedLoad).annex = false ∧ (up.columns table3 32).isSome = true) ∧
      ((asked (tabled farTable []) 0x11 0 pageLoad).tableLoadBads (tabled farTable []) pageLoad = [] ∧ (loadHead pageLoad).staging = false ∧
        (loadHead pageLoad).covers farTable 1 = true ∧ (asked (tabled farTable []) 0x11 0 pageLoad).loadMoves (tabled farTable []) pageLoad 1 = false ∧
        farTable.owner farTable.edition 1 = 1 ∧ (tabled farTable []).deferred = []) ∧
      ((asked (tabled table3 []) 0x11 0 annexLoad).tableLoadBads (tabled table3 []) annexLoad = [] ∧ (loadHead annexLoad).annex = true ∧
        (loadHead annexLoad).staging = false ∧ (asked (tabled table3 []) 0x11 0 annexLoad).loadMoves (tabled table3 []) annexLoad 1 = false) ∧
      ((asked (tabled farTable [step0]) 0x11 0 waitingLoad).tableLoadBads (tabled farTable [step0]) waitingLoad = [] ∧
        (tabled farTable [step0]).steps ≠ []) := by
  refine ⟨by decide +kernel, ⟨by decide +kernel, by decide +kernel⟩, ⟨by decide +kernel, by decide +kernel⟩, ⟨by decide +kernel, by decide +kernel⟩,
    by decide +kernel, by decide +kernel⟩

theorem wit_PublishAndDiscard :
    let t := { table3 with stagedPages := [(1, 0)] }
    let u := { t with previous := some 0 }
    ((tabled t []).takes 0x12 = true ∧ up.publishBads (tabled t []) (toLE 32 3) = [] ∧ publishMode (toLE 32 3) = 0 ∧ (tabled t []).table? 3 = some t ∧ t.previous = none) ∧
      (up.publishBads (tabled u []) (toLE 32 3) = [] ∧ u.previous ≠ none) ∧
      (((tabled t [{ step0 with editions := [(3, t.edition)] }]).steps.any fun x => x.edition? 3 == some t.edition) = true) ∧
      (up.publishBads (tabled t []) (toLE 32 (3 + 2 ^ 16)) = [] ∧ publishMode (toLE 32 (3 + 2 ^ 16)) = 1) := by
  decide +kernel

def graph2 : GraphRec := { id := 2, nodes := 10, edges := 0, pinned := false, sections := [], isSealed := false }

def graphed : Job := { job0 with body := { body0 with graphs := [graph2] } }

/-- A first segment of catalogue 2, of ten nodes and no tile; a feature tensor of 16 columns over it. -/
def graphPayload : List Byte := toLE 32 (2 + 10 * 2 ^ 32)
def featurePayload : List Byte := toLE 32 (5 + 2 * 2 ^ 64 + 2 ^ 73 + 16 * 2 ^ 77)

theorem wit_CataloguesAndFeatures :
    ((asked job0 0x14 0 graphPayload).Ready 0 0x14 (arrived 0 0x14 0 (some 0) graphPayload) job0 ∧ (asked job0 0x14 0 graphPayload).graphBads job0 graphPayload = []) ∧
      ((asked graphed 0x15 0 featurePayload).Ready 0 0x15 (arrived 0 0x15 0 (some 0) featurePayload) graphed ∧
        (asked graphed 0x15 0 featurePayload).featureBads graphed featurePayload = []) :=
  ⟨⟨ready _ _ 0 _ rfl rfl (by decide +kernel), by decide +kernel⟩, ready _ _ 0 _ rfl rfl (by decide +kernel), by decide +kernel⟩

/-- A parameter of 4 rows of 8 columns in group 0 (Table 11-1), read or written from row 2. -/
def param9 : Param := { rec' := 9 * 2 ^ 96 + 0x0F00 * 2 ^ 80 + 7 * 2 ^ 64 + 3 * 2 ^ 48, master := [], m := [], v := [] }
def withParam (xs : List StepRec) : Job := { job0 with steps := xs, body := { body0 with params := [param9] } }
def paramPayload (data : List Byte) : List Byte := toLE 32 (9 + 2 * 2 ^ 48 + 1 * 2 ^ 64) ++ data

theorem wit_ParametersReadAndWritten :
    (withParam []).param? (paramHead (paramPayload [])).param = some param9 ∧
      ((asked (withParam []) 0x30 0 (paramPayload [])).Ready 0 0x30 (arrived 0 0x30 0 (some 0) (paramPayload [])) (withParam []) ∧
        (asked (withParam []) 0x30 0 (paramPayload [])).paramBads false (withParam []) (paramPayload []) = []) ∧
      ∀ xs ∈ [[], [step0]],
        (asked (withParam xs) 0x31 0 (paramPayload (zeros 96))).Ready 0 0x31 (arrived 0 0x31 0 (some 0) (paramPayload (zeros 96))) (withParam xs) ∧
          (asked (withParam xs) 0x31 0 (paramPayload (zeros 96))).paramBads true (withParam xs) (paramPayload (zeros 96)) = [] := by
  refine ⟨by decide +kernel, ⟨ready _ _ 0 _ rfl rfl (by decide +kernel), by decide +kernel⟩, fun xs h => ⟨ready _ _ 0 _ rfl rfl ?_, ?_⟩⟩
  · revert xs; decide +kernel
  · revert xs; decide +kernel

/-- A completed step 4 with an image of 5 bytes, of which two have been delivered. -/
def resulted : Job := { job0 with body := { body0 with nextStep := 5, results := [{ step := 4, image := zeros 5, delivered := [(0, 2)] }] } }
/-- Step 4 in flight. -/
def running : Job := { job0 with steps := [{ step0 with num := 4 }], body := { body0 with nextStep := 5 } }
def readPayload : List Byte := toLE 16 (1 + 16 * 2 ^ 32)

theorem wit_ResultsReadAndReleased :
    ((asked resulted 0x22 4 readPayload).Ready 0 0x22 (arrived 0 0x22 4 (some 0) readPayload) resulted ∧
        (asked resulted 0x22 4 readPayload).resultBads (arrived 0 0x22 4 (some 0) readPayload) = [] ∧ (resulted.result? 4).isSome = true) ∧
      ((asked running 0x22 4 readPayload).Ready 0 0x22 (arrived 0 0x22 4 (some 0) readPayload) running ∧
        (asked running 0x22 4 readPayload).resultBads (arrived 0 0x22 4 (some 0) readPayload) = [] ∧ running.result? 4 = none) ∧
      (asked resulted 0x23 4 []).Ready 0 0x23 (arrived 0 0x23 4 (some 0) []) resulted :=
  ⟨⟨ready _ _ 4 _ rfl rfl (by decide +kernel), by decide +kernel, by decide +kernel⟩,
    ⟨ready _ _ 4 _ rfl rfl (by decide +kernel), by decide +kernel, by decide +kernel⟩, ready _ _ 4 _ rfl rfl (by decide +kernel)⟩

/-- Two micro-batches of one and two seeds. -/
def submitPayload : List Byte := toLE 32 (2 + 3 * 2 ^ 32) ++ toLE 2 1 ++ toLE 2 2 ++ zeros 4 ++ toLE 4 7 ++ toLE 4 8 ++ toLE 4 9

/-- A job that the module fills, with the same step taken from its log. -/
def refilling : Job :=
  { job0 with filling := true, deposit := some { id := 1, step := none, cut := 0, accepted := 1, body := body0, tiles := [], retained := [], committed := true, steps := [step0] } }
def replayedStep : InFlight := { arrived 1024 0x20 0 (some 0) submitPayload with accept := some 2, logged := true, replayed := true }

theorem wit_StepsAreBoundWhenReplayed :
    let s : State := { up with jobs := [refilling], port := { up.port with inFlight := [replayedStep] } }
    s.arrivedOn 1024 0x20 = some replayedStep ∧ replayedStep.job.bind s.job? = some refilling ∧ s.fabric.requests = [] ∧
      ∃ d y, refilling.deposit = some d ∧ d.steps.find? (fun z => z.num == replayedStep.cmd.step) = some y :=
  ⟨by decide +kernel, by decide +kernel, rfl, _, _, rfl, rfl⟩

theorem wit_StepsAreBoundWhenAccepted :
    (asked job0 0x20 0 submitPayload).Ready 0 0x20 (arrived 0 0x20 0 (some 0) submitPayload) job0 ∧
      (asked job0 0x20 0 submitPayload).submitBads (arrived 0 0x20 0 (some 0) submitPayload) = [] ∧ (asked job0 0x20 0 submitPayload).fabric.requests = [] ∧ job0.decisions = [] ∧ job0.filling = false :=
  ⟨ready _ _ 0 _ rfl rfl (by decide +kernel), by decide +kernel, rfl, rfl, rfl⟩

/-- A call for row 1 of table 3, and a supply of that row. -/
def called : Job :=
  { job0 with body := { body0 with tables := [{ table3 with annex := [(1, 0)] }], nextCall := 2
                                   calls := [{ id := 1, table := 3, edition := 1, rows := [⟨1, 0, 0, 1, false⟩], sends := 1, stalled := false, steps := [] }] } }
def supplyPayload : List Byte := toLE 32 (1 + 3 * 2 ^ 32 + 1 * 2 ^ 64) ++ toLE 8 1 ++ zeros 160
/-- A row held whose return is to be acknowledged. -/
def returned : Job :=
  { called with body := { called.body with
      held := [{ call := 1, table := 3, edition := 1, row := 1, data := RowData.zero 0 16 1, steps := [], changed := false, returns := [1], bound := 1 }] } }
def ackPayload : List Byte := toLE 32 (1 + 3 * 2 ^ 32 + 2 ^ 44)

theorem wit_SuppliedRowsAreHeld :
    ((asked called 0x21 0 supplyPayload).Ready 0 0x21 (arrived 0 0x21 0 (some 0) supplyPayload) called ∧
        (asked called 0x21 0 supplyPayload).supplyBads (arrived 0 0x21 0 (some 0) supplyPayload) = [] ∧ (supplyHead supplyPayload).ack = false ∧
        (called.newRows supplyPayload).length = 1) ∧
      ((asked returned 0x21 0 ackPayload).Ready 0 0x21 (arrived 0 0x21 0 (some 0) ackPayload) returned ∧
        (asked returned 0x21 0 ackPayload).supplyBads (arrived 0 0x21 0 (some 0) ackPayload) = [] ∧ (supplyHead ackPayload).ack = true) :=
  ⟨⟨ready _ _ 0 _ rfl rfl (by decide +kernel), by decide +kernel, by decide +kernel, by decide +kernel⟩, ready _ _ 0 _ rfl rfl (by decide +kernel),
    by decide +kernel, by decide +kernel⟩

/-- A Deposit of step 4. -/
def deposit4 : Deposit := { id := 11, step := some 4, cut := 0, accepted := 9, body := body0, tiles := [], retained := [], committed := true }
def restoring : Job := { job0 with state := .restoring, body := { body0 with dict := [(entryKey 0x8030 1, .blk (zeros 32))] } }
def importPayload (flags : Nat) : List Byte := toLE 32 (flags + 1 * 2 ^ 64) ++ zeros 32

theorem wit_DepositsExportAndImport :
    (∀ d ∈ [none, some deposit4], let j := { job0 with deposit := d }
      (asked j 0x38 0 (zeros 16)).Ready 0 0x38 (arrived 0 0x38 0 (some 0) (zeros 16)) j ∧ bits (leNat (zeros 16)) 127 1 = 0) ∧
      ∀ flags ∈ [0, 2],
        (asked restoring 0x39 0 (importPayload flags)).Ready 0 0x39 (arrived 0 0x39 0 (some 0) (importPayload flags)) restoring ∧
          (asked restoring 0x39 0 (importPayload flags)).importBads true true 1 (zeros 32) deposit4 (arrived 0 0x39 0 (some 0) (importPayload flags)) = [] := by
  refine ⟨fun d _ => ⟨ready _ _ 0 _ rfl rfl rfl, by decide +kernel⟩, fun flags h => ⟨ready _ _ 0 _ rfl rfl (by decide +kernel), ?_⟩⟩
  revert flags; decide +kernel

/-- A `DICT_ACCESS` payload (Table 14-9). -/
def dictPayload (index sub op off len : Nat) (data : List Byte) : List Byte :=
  toLE 16 (index + sub * 2 ^ 16 + op * 2 ^ 24 + off * 2 ^ 64 + len * 2 ^ 96) ++ data

theorem readyFront {s : State} {q op : Nat} {f : InFlight} {j : Job} (h : s.Ready q op f j) : s.Front q op f :=
  ⟨h.front, h.sent, h.header, fun k hk => by rw [h.job] at hk; cases hk; exact h.takes⟩

theorem dictFront (p : List Byte) : (asked job0 0x40 0 p).Front 0 0x40 (arrived 0 0x40 0 (some 0) p) :=
  readyFront (ready job0 0x40 0 p rfl rfl rfl)

theorem wit_NopAndEventAck :
    (asked job0 0x7F 0 []).Front 0 0x7F (arrived 0 0x7F 0 (some 0) []) ∧
      (asked job0 0x41 0 (toLE 8 5)).Front 0 0x41 (arrived 0 0x41 0 (some 0) (toLE 8 5)) ∧ (toLE 8 5).length = 8 ∧ (asked job0 0x41 0 (toLE 8 5)).session? 1 = some session1 :=
  ⟨readyFront (ready _ _ 0 _ rfl rfl rfl), readyFront (ready _ _ 0 _ rfl rfl rfl), by decide +kernel, by decide +kernel⟩

def read1 : List Byte := dictPayload 0x1018 3 0 0 0 []
def read2 : List Byte := dictPayload 0x2310 1 2 8190 16 []

theorem wit_DictionaryReadsInBand :
    (dictHeadBads read1 = [] ∧ read1.length = 16 ∧ (dictHead read1).op = 0 ∧ (asked job0 0x40 0 read1).readEntry ⟨1, false, some 0⟩ 0x1018 3 = some [0xA1, 0]) ∧
      (dictHeadBads read2 = [] ∧ read2.length = 16 ∧ (dictHead read2).op = 2 ∧ within 1 16320 (dictHead read2).len = true ∧
        ((asked job0 0x40 0 read2).readable ⟨1, false, some 0⟩ 0x2310 1).map (·.typ) = some .domain) := by
  decide +kernel

theorem wit_TypesChooseTheirService :
    ((findEntry 0x2310 1).map (·.typ) = some .domain ∧ (findEntry 0x1018 3).map (·.typ) = some .u16) ∧
      (dictHeadBads (dictPayload 0x2310 1 0 0 0 []) = [] ∧ (dictHead (dictPayload 0x2310 1 0 0 0 [])).op = 0) ∧
      (dictHeadBads (dictPayload 0x1018 3 3 0 0 [1]) = [] ∧ (dictHead (dictPayload 0x1018 3 3 0 0 [1])).op = 3) := by
  decide +kernel

/-- A value in the module, a retained value, a value of the session, and a value of the job. -/
theorem wit_DictionaryWritesInBand :
    (∀ w ∈ [(0x3200, 2, [16]), (0x7020, 1, [1, 0, 0, 0]), (0xF010, 1, [1, 0, 0, 0]), (0x4210, 2, [64])],
      let p := dictPayload w.1 w.2.1 1 0 0 w.2.2
      dictHeadBads p = [] ∧ (findEntry w.1 w.2.1).isSome = true ∧ ownWrite w.1 w.2.1 = false ∧ (dictHead p).op = 1 ∧
        (asked job0 0x40 0 p).writeBads ⟨1, false, some 0⟩ w.1 w.2.1 (p.drop 16) 16 = []) ∧
      ∀ n ∈ [31, 32],
        let p := dictPayload 0xF310 1 3 0 0 (zeros n)
        dictHeadBads p = [] ∧ (dictHead p).op = 3 ∧ ownBlock 0xF310 1 = false ∧ (asked job0 0x40 0 p).blockBads ⟨1, false, some 0⟩ 0xF310 1 0 (p.drop 16) false = [] ∧
          (asked job0 0x40 0 p).blockStep ⟨1, false, some 0⟩ 0xF310 1 0 (p.drop 16) false = .took (zeros n) (n == 32) := by
  decide +kernel

/-- The last tile given role 2 with program 0. -/
def rolePayload : List Byte := dictPayload 0x4013 64 1 0 0 (toLE 4 2)
def programmed : Job := { job0 with programs := [prog0] }

theorem wit_RoleMapWrites :
    (asked programmed 0x40 0 rolePayload).Front 0 0x40 (arrived 0 0x40 0 (some 0) rolePayload) ∧
      (asked programmed 0x40 0 rolePayload).roleWriteBads (arrived 0 0x40 0 (some 0) rolePayload) = [] ∧ (dictHead rolePayload).op = 1 ∧
      within 0x4010 0x4013 (dictHead rolePayload).index = true :=
  ⟨readyFront (ready _ _ 0 _ rfl rfl rfl), by decide +kernel, by decide +kernel, by decide +kernel⟩

/-- A GDP request on session 2. -/
def frame (service index sub off len : Nat) (last : Bool) (data : List Byte) : GdpFrame :=
  { version := 1, typ := 0, service := service, resOk := true, lenOk := true, session := 2, seq := 1, reqId := 77, index := index, subindex := sub, offset := off,
    length := len, last := last, data := data, tagOk := true, now := 0 }

theorem serves (service index sub off len : Nat) (last : Bool) (data : List Byte) (h : dataLengthOk (frame service index sub off len last data) = true) :
    up.Serves (frame service index sub off len last data) service session2 :=
  ⟨rfl, rfl, ⟨rfl, rfl, h⟩, rfl, ⟨rfl, rfl⟩, rfl, rfl, rfl, Nat.zero_lt_one, rfl, rfl, by decide +kernel⟩

theorem wit_GdpReads :
    up.Serves (frame 1 0x1018 3 0 0 false []) 1 session2 ∧ up.Serves (frame 3 0x2310 1 8190 1024 false []) 3 session2 ∧
      up.Serves (frame 3 0x2310 1 0 1025 false []) 3 session2 ∧ within 1 1024 1024 = true ∧ within 1 1024 1025 = false :=
  ⟨serves 1 _ _ _ _ _ _ rfl, serves 3 _ _ _ _ _ _ rfl, serves 3 _ _ _ _ _ _ rfl, by decide +kernel, by decide +kernel⟩

theorem wit_GdpWrites :
    (up.Serves (frame 2 0x3200 2 0 0 false [16]) 2 session2 ∧
        (up.frameBegun (frame 2 0x3200 2 0 0 false [16])).writeBads (frameAcc (frame 2 0x3200 2 0 0 false [16])) 0x3200 2 [16] 0 = []) ∧
      ∀ last ∈ [false, true], let g := frame 4 0xF310 1 0 0 last (zeros 32)
        up.Serves g 4 session2 ∧ (up.frameBegun g).blockBads (frameAcc g) 0xF310 1 0 g.data last = [] ∧
          (up.frameBegun g).blockStep (frameAcc g) 0xF310 1 0 g.data last = .took (zeros 32) last := by
  refine ⟨⟨serves 2 _ _ _ _ _ _ rfl, by decide +kernel⟩, fun last h => ⟨serves 4 _ _ _ _ _ _ (by revert last; decide +kernel), ?_, ?_⟩⟩ <;> revert last <;> decide +kernel

theorem wit_GdpFramesChecked :
    (up.limited = false ∧ up.bring.segment = true ∧ up.live? 9 = none) ∧
      (let s := { up with sessions := [{ session2 with gdpIn := 1 }] }
       s.live? 2 = some { session2 with gdpIn := 1 } ∧ (frame 1 0 0 0 0 false []).seq ≤ 1) ∧
      (let k : KeptReply := { reqId := 77, ask := ⟨1, 0x1018, 3, 0⟩, status := .ok, total := 0, data := [] }
       let x := { session2 with kept := [k] }
       ({ up with sessions := [x] } : State).live? 2 = some x ∧ (x.kept.find? fun k => k.reqId == 77) = some k ∧ x.gdpIn < 1) ∧
      (let x := { session2 with asked := [(77, ⟨1, 0x1018, 3, 0⟩)] }
       ({ up with sessions := [x] } : State).live? 2 = some x ∧ (x.kept.find? fun k => k.reqId == 77) = none ∧
         (x.asked.any fun p => p.1 == 77) = true ∧ x.gdpIn < 1) := by
  decide +kernel

/-- Data of a `SUBSCRIBE` (Table 21-5). -/
def subscribeData (op filter upTo : Nat) : List Byte := toLE 16 (op + filter * 2 ^ 16 + upTo * 2 ^ 64)

def record (n : Nat) : EventRec := ⟨0x2202, .cxl, 0, n, 0, 0, 0, 0, 0, none⟩

/-- The small module with a subscription. -/
def subscribed (v : Subscription) : State := { up with sessions := [session1, { session2 with sub := some v }] }

theorem wit_Subscriptions :
    (∀ op < 3, up.Serves (frame 5 0 0 0 0 false (subscribeData op 1 5)) 5 session2 ∧ subscribeBads (subscribeData op 1 5) op = []) ∧
      (8 ≤ (({ up with sessions := session2 :: (List.range 8).map fun i => { session2 with id := 3 + i, sub := some ⟨1, [], []⟩ } } : State).sessions.filter fun y =>
        y.sub.isSome).length) ∧
      ((subscribed ⟨1, [record 1], []⟩).live? 2).isSome = true ∧ [record 1] ≠ [] ∧ ((subscribed ⟨1, [], [([record 1], 7)]⟩).live? 2).isSome = true := by
  refine ⟨fun op h => ⟨serves 5 _ _ _ _ _ _ ?_, ?_⟩, by decide +kernel⟩ <;> revert op <;> decide +kernel

def openBlock9 : OpenBlock := { key := entryKey 0x8040 1, session := 2, overGdp := true, job := none, data := [], next := 1024 }

theorem wit_BlockGapAbandons :
    let s := { up with blocks := [openBlock9], sec := { up.sec with standby := .loading } }
    openBlock9 ∈ s.blocks ∧ openBlock9.session = 2 ∧ s.sec.standby = .loading := by
  decide +kernel

theorem wit_SpdmOverGdp :
    (up.responds .gdp = true ∧ up.limited = false ∧ (up.sessions.any fun x => x.id == 2 && x.transport == .gdp) = true) ∧
      ({ up with bring := { up.bring with phase1 := .heldSlots } } : State).limited = true := by
  decide +kernel

/-- Two retained writes of one entry wait for the delta record. -/
def waitingWrites : State :=
  { up with retainedWrites := [⟨entryKey 0x7020 1, .num 3, .command 1 0 4⟩, ⟨entryKey 0x7020 1, .num 5, .gdp 2 6⟩] }

theorem wit_DeltaCommitAppliesWrites :
    waitingWrites.retainedWrites.getLast? = some ⟨entryKey 0x7020 1, .num 5, .gdp 2 6⟩ ∧ keyRetained (entryKey 0x7020 1) = true := by decide +kernel

theorem wit_DeltaRewriteSparesTheNewest :
    (up.flash.delta).isSome = true ∧ up.flash.deltaA.valid = true ∧ up.flash.deltaB.valid = false := by decide +kernel

/-- A base record without a chain or a body (Table 20-3), and what it says. -/
def recordBytes0 (format : Nat) : List Byte := toLE 256 format ++ zeros 256
def claim : BaseRecord := { bytes := [], values := [(entryKey 0x7020 1, .num 12)], operator := zeros 64, successors := [] }
def staging (b : List Byte) : State := { up with sec := { up.sec with claimed := false }, baseStaged := some (b, .gdp 2 6) }

theorem wit_BaseRecordClaims :
    (baseFormatOk (recordBytes0 0x0101) = true ∧ (staging (recordBytes0 0x0101)).mayClaim claim = true ∧ claim.values.all baseValueOk = true ∧
        claim.operator.length = 64 ∧ (staging []).sec.measures.length = 6) ∧
      baseFormatOk (recordBytes0 0x0102) = false ∧ up.mayClaim { claim with operator := [] } = false ∧
      ([(entryKey 0x7020 1, DVal.num 1001)].all baseValueOk) = false := by
  decide +kernel

theorem wit_EventCounterIsKept :
    up.log.seq = some 4096 ∧ up.log.checkpoint + 4096 ≤ 4096 ∧ 4096 < ({ up.log with checkpoint := 1 } : EventLog).checkpoint + 4096 := by decide +kernel

theorem arrives (service index sub off : Nat) (data : List Byte) (op : Nat) (h : dataLengthOk (frame service index sub off 0 false data) = true) :
    Arrives (.frame (frame service index sub off 0 false data)) up op service index sub off data (frameAcc (frame service index sub off 0 false data))
      (up.frameBegun (frame service index sub off 0 false data)) (up.frameBegun (frame service index sub off 0 false data)) :=
  ⟨session2, serves service index sub off 0 false data h, rfl, rfl, rfl, rfl, rfl, rfl, rfl⟩

/-- The same write in band. -/
def queueWrite (p : List Byte) : State := asked job0 0x40 0 p

theorem wit_StandbySlotFills :
    let g := frame 4 0x8040 1 0 0 false [1, 2]
    Arrives (.frame g) up 3 4 0x8040 1 0 [1, 2] (frameAcc g) (up.frameBegun g) (up.frameBegun g) ∧ (up.frameBegun g).standbyBads (frameAcc g) 0 [1, 2] = [] ∧
      (∃ a c u, Arrives (.queue 0) (queueWrite (dictPayload 0x8040 1 3 0 0 [1, 2])) 3 4 0x8040 1 0 [1, 2] a c u ∧ c.standbyBads a 0 [1, 2] = []) :=
  ⟨arrives 4 0x8040 1 0 [1, 2] 3 rfl, by decide +kernel, _, _, _,
    ⟨arrived 0 0x40 0 (some 0) (dictPayload 0x8040 1 3 0 0 [1, 2]), dictFront _, by decide +kernel, by decide +kernel, by decide +kernel, by decide +kernel,
      by decide +kernel, by decide +kernel, rfl, rfl, rfl⟩, by decide +kernel⟩

/-- An image header (Table 20-3) of numerics generation 4, security version 1 and version 9. -/
def image9 : List Byte := toLE 256 (1 + 0x2304 * 2 ^ 16 + 0xA1 * 2 ^ 32 + 4 * 2 ^ 48 + 1 * 2 ^ 64 + 9 * 2 ^ 96) ++ zeros 256
def standing (x : Standby) : State := { up with sec := { up.sec with standby := x }, flash := { up.flash with slotB := image9 } }

theorem wit_SwitchCommands :
    (∀ n ∈ [1, 2, 3], dataLengthOk (frame 2 0x8040 3 0 0 false [BitVec.ofNat 8 n]) = true ∧
        (up.frameBegun (frame 2 0x8040 3 0 0 false [BitVec.ofNat 8 n])).writeBads (frameAcc (frame 2 0x8040 3 0 0 false [BitVec.ofNat 8 n])) 0x8040 3 [BitVec.ofNat 8 n] 0
          = []) ∧
      (standing .loading).imageFails image9 true true true = none ∧ (standing .loading).imageFails image9 true false true = some 3 ∧
      (standing .loading).flash.slot (standing .loading).otherSlot = image9 ∧ (standing .verified).sec.standby = .verified ∧ (standing .verified).anyFenced = false ∧
      (standing .verified).bring.ready = true := by
  decide +kernel

/-- A job whose step has begun on tile 0. -/
def begun : Job := { job0 with steps := [{ step0 with dispatched := [(⟨0, 0, 0, 0, 2, 0, false, false⟩, 0)] }] }

theorem wit_FirmwareSwitches :
    (standing .armed).sec.standby = .armed ∧ (standing .armed).jobs = [] ∧ (standing .verified).sec.standby ≠ .armed ∧ begun.drained = false ∧
      (let s : State := { standing .armed with jobs := [job0], sec := { (standing .armed).sec with switchDeposits := [0] } }
       job0.drained = true ∧ job0.taking = none ∧ s.sec.switchDeposits.contains job0.slot = true ∧ imageField (s.flash.slot s.otherSlot) 63 48 ≠ s.sec.numericsGen) := by
  decide +kernel

theorem wit_FabricPositionWaits :
    let g := frame 2 0x2300 1 0 0 false [0xFF, 0x0F]
    Arrives (.frame g) up 1 2 0x2300 1 0 [0xFF, 0x0F] (frameAcc g) (up.frameBegun g) (up.frameBegun g) ∧
      (up.frameBegun g).writeBads (frameAcc g) 0x2300 1 [0xFF, 0x0F] 0 = [] ∧ up.jobs = [] :=
  ⟨arrives 2 0x2300 1 0 [0xFF, 0x0F] 1 rfl, by decide +kernel, rfl⟩

/-- A fill of 20 granules from the near tier into the carrel of tile 1, on a channel of function 0. -/
def fill1 : DmaDesc :=
  { func := 0, priority := 1, trigger := .immediate, afterChannel := 0, srcKind := 0, dstKind := 2, layout := 0, length := 20, src := 4096, dst := 2 ^ 51,
    ticks := 0, owner := 0 }

/-- Channel 3 as given. -/
def channel3 (x : Channel) : State := { up with dma := [(3, x)] }

def holding (n : Nat) (st : ChanState) : Channel :=
  { state := st, current := some (fill1, true), posted := List.replicate n ({ fill1 with trigger := .timer }, false) }

theorem wit_DmaPosts :
    (∀ n ∈ [0, 6], ∀ k : Trigger, k ∈ [Trigger.immediate, .timer, .after] →
      let s := channel3 (holding n .active)
      3 < 64 ∧ ({ fill1 with trigger := k } : DmaDesc).func = chanFunction 3 ∧ ({ fill1 with trigger := k } : DmaDesc).ok = true ∧ (s.chan 3).state ≠ .halted ∧
        (s.chan 3).state ≠ .acting ∧ (s.chan 3).posted.length < 7) ∧
      ¬ ((channel3 (holding 7 .active)).chan 3).posted.length < 7 ∧ fill1.func ≠ chanFunction 8 ∧ ((channel3 {}).chan 3).current = none := by
  decide +kernel

theorem wit_DmaTimersAndCompletions :
    (let s := channel3 { state := .waiting, current := some ({ fill1 with trigger := .timer }, false) }
     (s.chan 3).current = some ({ fill1 with trigger := .timer }, false) ∧ (s.chan 3).state = .waiting) ∧
      (let s := channel3 (holding 2 .active)
       (s.chan 3).current ≠ none ∧ (s.chan 3).posted[1]? = some ({ fill1 with trigger := .timer }, false) ∧ (s.chan 3).current = some (fill1, true) ∧ (s.chan 3).state = .active) := by
  decide +kernel

theorem wit_DmaHaltsOnError :
    let s := channel3 (holding 1 .active)
    (s.chan 3).current = some (fill1, true) ∧ (s.chan 3).state = .active ∧
      ∀ burst ∈ [0, 2], within (s.chan 3).burst (fill1.bursts - 1) burst = true ∧ within 1 4 4 = true ∧ within 1 4 1 = true := by
  decide +kernel

/-- Channel 3 halted at a burst. -/
def haltedAt (b : Nat) : Channel := { holding 1 .halted with burst := b, failBurst := b, kind := 2 }

theorem wit_DmaActions :
    (∀ n ∈ [1, 2, 3], ∀ b ∈ [0, 2],
      let s := channel3 (haltedAt b)
      let g := frame 2 0x3304 4 0 0 false [BitVec.ofNat 8 n]
      dataLengthOk g = true ∧ (s.frameBegun g).writeBads (frameAcc g) 0x3304 4 [BitVec.ofNat 8 n] 0 = [] ∧ s.actAllowed 3 n = true ∧
        (s.chan 3).current = some (fill1, true) ∧ s.live? 2 = some session2 ∧ s.limited = false ∧ 0 < s.port.width ∧ chanFunction 4 = chanFunction 3 ∧
        (s.chan 4).posted.length < 7 ∧ (s.chan 4).state = .idle) ∧
      (let s : State := { up with dma := (3, haltedAt 1) :: [0, 1, 2, 4, 5, 6, 7].map fun k => (k, holding 7 .active) }
       (s.chan 3).state = .halted ∧ (s.chan 3).current = some (fill1, true) ∧ 0 < s.port.width ∧ fill1.ok = true ∧ fill1.func = chanFunction 3 ∧
         (s.chan 3).posted.length ≤ 7 ∧ (∀ k ∈ [0, 1, 2, 4, 5, 6, 7], 7 ≤ (s.chan k).posted.length) ∧ chanFunction 8 ≠ chanFunction 3 ∧
         ∀ p ∈ s.dma, p.2.current ≠ none) ∧
      (let s := channel3 (haltedAt 1)
       (s.chan 3).state = .halted ∧ (s.chan 3).current = some (fill1, true) ∧ s.num 0x3300 2 = 0 ∧ (s.chan 3).autoAction = 1) := by
  decide +kernel

/-- A weight tile of one granule of image; a table page. -/
def weight7 : StoredTile :=
  { key := { space := .tensor, id := 7, edition := 0, slot := 0, scope := .job, step := 0, mb := 0, piece := 0, row := 0, col := 0 }, tier := .far, pair := 0,
    devGranule := 0, charge := 0, lastStep := 0, image := zeros 64, poison := [], promoting := false, evicting := false, pinned := false }

/-- A page of table 3. -/
def page3 : StoredTile := { weight7 with key := { weight7.key with space := .table, id := 3, edition := 1, row := 1 } }

/-- The small module with these stored tiles. -/
def tiered (pass : Bool) (l : List StoredTile) : State := { up with tiers := { up.tiers with tiles := l, pass := pass, farReads := l.map (·.key) } }

theorem wit_MovesBetweenTiers :
    (let x := { weight7 with tier := .near, evicting := true }
     (tiered true [x]).triggered 2 0 0 x.key = [x] ∧ (tiered true [x]).tile? x.key = some x ∧ (tiered true [x]).pageRead x.key = false ∧ x.promoting = false ∧
       (let d : DmaDesc := { fill1 with func := 3, owner := 0 }
        let s : State := { tiered true [x] with dma := [(40, { state := .halted, current := some (d, true) })] }
        (s.chan 40).state = .halted ∧ (s.chan 40).current = some (d, true) ∧ d.srcKind = 0 ∧ d.owner = x.devGranule % 2 ^ 32)) ∧
      ((tiered false [weight7]).triggered 2 0 0 weight7.key = [weight7] ∧ (tiered false [weight7]).tile? weight7.key = some weight7 ∧
        (tiered false [weight7]).underHigh 64 = true) ∧
      (let s : State := { tiered false [weight7] with tiers := { (tiered false [weight7]).tiers with nearRetired := 768 * gib } }
       s.underHigh 64 = false ∧ s.tiers.pass = false ∧ s.triggered 2 0 0 weight7.key = [weight7]) ∧
      (let x := { weight7 with promoting := true }
       (tiered false [x]).tile? x.key = some x ∧ (tiered false [x]).pageRead x.key = false) ∧
      (let x := { page3 with promoting := true }
       let d : Deferred := { accept := 2, asker := .command 1 0 5, opcode := 0x11, payload := pageLoad, after := none, edition := 1 }
       let j := { tabled table3 [] with deferred := [d] }
       let s : State := { tiered false [x] with jobs := [j] }
       s.pageRead x.key = false ∧ s.job? x.key.slot = some j ∧ s.loadMoves j d.payload d.edition = true ∧
         (s.updTile x.key fun t => { t with tier := .near, promoting := false }).loadMoves j d.payload d.edition = false) := by
  decide +kernel

theorem wit_EvictionPasses :
    (up.tiers.pass = false ∧ up.underHigh 0 = true) ∧ (tiered true [{ weight7 with tier := .near }]).tiers.pass = true ∧
      (let s : State := { tiered false [{ weight7 with tier := .near }] with tiers := { (tiered false [{ weight7 with tier := .near }]).tiers with nearRetired := 768 * gib } }
       s.underHigh 0 = false) := by
  decide +kernel

theorem wit_SpaceWaitStalls :
    let x := { step0 with spaceWait := [((⟨0, 0, 0, 0, 2, 0, false, false⟩, 3, [0, 0, 0, 0]), 4096)] }
    let j := { job0 with steps := [x] }
    (asked j 0 0 []).job? 0 = some j ∧ j.step? 0 = some x ∧ j.state = .running ∧ x.stalled = false ∧ (x.spaceWait.head?.map (·.2)) = some 4096 := by
  decide +kernel

/-- An association with position 5, expecting its first flit. -/
def assoc5 : Assoc :=
  { peer := 5, identity := 99, live := true, txKey := 0, rxKey := 0, phase := false, rxPhase := false, oldTxKey := 0, oldRx := none, txSeq := 1, store := [], rxLow := 1, rxAbove := [], ackOwed := 0,
    fails := [], reported := none, sentGranules := 0, freedByPeer := 0, quota := 1000, freedHere := 0, landing := [], heard := false, queried := false, delivered := 0, depositStep := 0 }

/-- The small module on the fabric: port 2 up at full width, every route through it. -/
def netted (x : Suesh) (l : List Assoc) : State :=
  { up with
    dict := [(entryKey 0x2310 1, .blk ((List.replicate 16 (toLE 2 4)).flatten ++ zeros 8160))]
    fabric := { up.fabric with ports := up.fabric.ports.set 2 x, assocs := l } }

def port4 : Suesh := { width := 4 }

/-- A message from position 5 to this module. -/
def msg (dst e2e link : Nat) (body : List Byte) : Msg :=
  { src := 5, dst := dst, e2e := e2e, linkSeq := link, ackSeq := 0, creditClass := 1, creditCount := 2, nak := false, phase := false, body := body }

theorem hears (a : Assoc) (e2e : Nat) (body : List Byte) (hp : (a.peer == 5 && a.live) = true) (h : a.rxLow ≤ e2e ∧ a.rxAbove.contains e2e = false)
    (hq : a.rxPhase = false := by rfl) :
    (netted port4 [a]).Hears 2 (msg 0x0F00 e2e 0 body) a :=
  ⟨by show 0 < port4.width; decide, by show 0 = (port4.rxSeq + 1) % 4096; decide, Or.inl rfl,
    by simp only [Bool.and_eq_true, beq_iff_eq] at hp; simp [State.assoc?, netted, hp.1, hp.2, msg], hq.symm, h⟩

theorem wit_LinkLayer :
    let x : Suesh := { port4 with retry := [1, 2, 3], rxSeq := 7, fromShared := [0, 3, 0, 0] }
    0 < ((netted x []).suesh 2).width ∧ (netted x []).fabric.outbox = [] ∧ (msg 0 1 8 []).linkSeq = (((netted x []).suesh 2).rxSeq + 1) % 4096 ∧
      (msg 0 1 9 []).linkSeq ≠ (((netted x []).suesh 2).rxSeq + 1) % 4096 := by
  decide +kernel

theorem wit_MessagesLandFirst : (netted port4 [assoc5]).Hears 2 (msg 0x0F00 1 0 (zeros 64)) assoc5 :=
  hears assoc5 1 _ rfl (by decide +kernel)

theorem wit_OtherMessagesAreDropped :
    (let s := netted port4 [assoc5]
     (0 < (s.suesh 2).width ∧ (msg 6 1 0 []).linkSeq = ((s.suesh 2).rxSeq + 1) % 4096 ∧ s.fabric.outbox = []) ∧ 6 ≠ s.fabric.position ∧ s.fabric.folded.contains 6 = false ∧
       assoc5.window false = some (1, []) ∧ (msg 0x0F00 0 0 []).e2e < 1 ∧ s.assoc? 5 = some assoc5) ∧
      (let a := { assoc5 with fails := [500] }
       (netted port4 [a]).Hears 2 (msg 0x0F00 1 0 []) a ∧ a.fails.filter (fun f => decide (1499 < f + 1000)) ≠ [] ∧
         (a.fails.filter (fun f => decide (1499 < f + 1000))).length < 15) :=
  ⟨by decide +kernel, hears _ 1 _ rfl (by decide +kernel), by decide +kernel, by decide +kernel⟩

def sent3 : Sent := { seq := 3, flits := 1, phase := false, kind := .gatherReq, body := zeros 32, port := 2, resends := 0 }

theorem wit_EndToEndAcknowledgement :
    (let a := { assoc5 with txSeq := 4, store := [sent3] }
     (netted port4 [a]).Hears 2 (msg 0x0F00 1 0 (toLE 32 4)) a ∧ (netted port4 [a]).assoc? 5 = some a ∧ a.store.find? (fun y => y.seq == 3) = some sent3 ∧
       (netted port4 [a]).fabric.outbox = [] ∧ (netted port4 [a]).route 5 sent3.kind.cls = some 2 ∧ (netted port4 [a]).holderOf 5 = 5 ∧ a.ackOwed = 0) ∧
      (let a := { assoc5 with ackOwed := 7 }
       (netted port4 [a]).assoc? 5 = some a ∧ a.ackOwed ≠ 0) :=
  ⟨⟨hears _ 1 _ rfl (by decide +kernel), by decide +kernel⟩, by decide +kernel⟩

theorem wit_KeyPhasesTurn :
    (∀ n ∈ [2 ^ 40 - 1, 2 ^ 40], (netted port4 [{ assoc5 with txSeq := n }]).assoc? 5 = some { assoc5 with txSeq := n } ∧
      { assoc5 with txSeq := n }.maySend .keyUpdate (zeros 32) = true ∧ ((netted port4 []).route 5 0).isSome = true) ∧
      { assoc5 with store := [{ sent3 with kind := .keyUpdate, flits := 7000 }] }.maySend .keyUpdate (zeros 32) = false ∧ (netted {} []).route 5 0 = none ∧
      (netted port4 [assoc5]).Hears 2 (msg 0x0F00 1 0 (zeros 32)) assoc5 :=
  ⟨by decide +kernel, by decide +kernel, by decide +kernel, hears assoc5 1 _ rfl (by decide +kernel)⟩

theorem wit_AssociationsForm :
    (let s := netted port4 []
     0 < (s.suesh 2).width ∧ s.fabric.fenced.contains 5 = false ∧ s.num 0x8000 5 ≤ 0 ∧ s.assoc? 5 = none) ∧
      (let s : State := { netted port4 [assoc5] with dict := [(entryKey 0x8000 5, .num 3)] }
       2 < s.num 0x8000 5 ∧ s.num 0x8000 5 ≤ 3 ∧ s.assoc? 5 = some assoc5 ∧ assoc5.identity ≠ 98) := by
  decide +kernel

theorem wit_PortsComeAndGo :
    (let s := netted port4 []
     s.fabric.ports.length = 12 ∧ s.fabric.outbox = [] ∧ 0 < (s.suesh 2).width ∧ (s.suesh 2).failed.contains 3 = false) ∧
      (let n := netted { width := 1, failed := [0, 1, 2] } []
       let s := { n with dict := n.dict ++ [(entryKey 0x9030 2, DVal.blk (List.replicate 56 20))] }
       s.fabric.outbox = [] ∧ s.bring.pwrGood = true ∧ 0 < (s.suesh 2).width ∧ (s.suesh 2).width < 4 ∧ (∀ l ∈ (s.suesh 2).failed, s.num 0x9030 3 ≤ s.laneMargin (4 * 2 + l)) ∧
         widthWith (insertOnce 3 (s.suesh 2).failed) = 0) ∧
      (let s := netted {} []
       s.bring.pwrGood = true ∧ (s.suesh 2).width = 0 ∧ 0 < widthWith [1] ∧ s.bring.windowOver.contains 2 = false) := by
  decide +kernel

theorem wit_FabricWaitsAreReported :
    (let s := { netted {} [] with fabric := { (netted {} []).fabric with outbox := [⟨5, .gatherReq, zeros 32⟩] } }
     (s.fabric.outbox.any fun w => w.dst == 5) = true ∧ s.routed 5 = false) ∧ ((netted port4 []).suesh 2).strict = false ∧ (5 : Nat) < 2 ^ 32 := by
  decide +kernel

/-- Link 4 with `n` replays of the granule it has refused. -/
def replayed (n : Nat) (down : List Nat) : State := { up with rel := { up.rel with replays := [(4, n)], retraining := down } }

theorem wit_InternalLinksReplay :
    (∀ n ∈ [15, 16], (replayed n []).rel.retraining.contains 4 = false ∧ aGetD (replayed n []).rel.replays 4 0 = n) ∧ 10 ≤ 10 ∧ 0 < 128 ∧
      (replayed 0 [4]).rel.retraining.contains 4 = true := by
  decide +kernel

/-- Row 3 of bank 2 of a device, with an uncorrectable granule. -/
def history (device : Nat) (repaired : Option Nat) (repairing : Bool) : RowHistory :=
  { device := device, bank := 2, row := 3, granules := [(9, 5)], bad := true, repaired := repaired, repairing := repairing }

def worn (h : RowHistory) (used near : Nat) : State :=
  { up with rel := { up.rel with rows := [h], bankUsed := [((h.device, 2), used)] }, tiers := { up.tiers with nearRetired := near } }

theorem wit_RowsAreRepaired :
    (∀ h ∈ [history 0 none false, history 25 (some 100) false], (worn h 0 0).rowHistory? h.device 2 3 = some h ∧ (worn h 0 0).rowDue h (100 + 30 * 86400000 - 1) = true ∧
        h.repairing = false ∧ h.recurs (100 + 30 * 86400000 - 1) = (h.device == 25) ∧ (worn h 0 0).bankLeft h.device 2 ≠ 0) ∧
      (let h := history 0 none false
       (worn h 16 0).bankLeft 0 2 = 0 ∧ usableFloor (tierOf 0) + 8 * gib ≤ (worn h 16 0).usable (tierOf 0) ∧
         (worn h 16 (8 * gib)).usable (tierOf 0) < usableFloor (tierOf 0) + 1) ∧
      (worn (history 0 none true) 0 0).rowHistory? 0 2 3 = some (history 0 none true) := by
  decide +kernel

/-- The device word of a zero granule with these errors. -/
def flawed (l : List (Nat × Nat)) : List Byte := l.foldl (fun w p => addError w p.1 p.2) (zeros 36)

theorem wit_ThePatrolCorrects :
    (∀ l ∈ [[], [(35, 1)], [(0, 7), (1, 9)], [(0, 1), (1, 2), (7, 3), (20, 9)]], (PatrolRead.near (flawed l)).codeword 0 = some (flawed l)) ∧
      (let gs := (List.range 8).map fun k => (List.replicate 32 (BitVec.ofNat 8 k), k == 3)
       gs.length = 8 ∧ (∀ g ∈ gs, g.1.length = 32) ∧ (PatrolRead.far 5 (farGroup gs)).codeword (farDevice 5) = some (codeword false (List.replicate 32 5))) ∧ decodeGranule (flawed []) = .clean ∧
      decodeGranule (flawed [(35, 1)]) = .corrected (zeros 36) 1 ∧ decodeGranule (flawed [(0, 7), (1, 9)]) = .corrected (zeros 36) 2 ∧
      decodeGranule (zeros 32 ++ poisonPattern) = .poisoned := by
  decide +kernel

theorem wit_ThePatrolFindsUncorrectable : decodeGranule (flawed [(0, 1), (1, 2), (7, 3), (20, 9)]) = .uncorrectable := by decide +kernel

theorem wit_InputPower :
    (up.bring.pwrGood = true ∧ 39999 < 40000 ∧ 60000 ≤ 60000) ∧ (35999 < 36000 ∧ up.bring.phase1 ≠ .off) ∧
      (up.power.alertLow = false ∧ up.power.alertHigh = false ∧ 0 < up.num 0xA020 1 ∧ up.num 0xA020 2 < 70000) := by
  decide +kernel

theorem wit_PhasesLost : (9 : Nat) < 10 ∧ up.power.phases.length = 10 ∧ 0 < nth up.power.phases 9 := by decide +kernel

def dieAt (x : DieState) : State := { up with power := { up.power with dies := up.power.dies.set 3 x } }

/-- A work item of a tile of the last die. -/
def work0 : Work :=
  { id := ⟨0, 0, 0, 0, 2, 0, false, false⟩, half := 0, prog := 0, pos := 0, regs := [0, 0, 0, 0], loops := [], flying := [], rerun := false, only := none, delivered := [] }

def inst0 : Inst := { pos := 0, regs := [0, 0, 0, 0], kind := 6, seq := 1, ranges := [], reqs := [], ready := false, targets := [], ord := 0 }

theorem wit_TemperatureAndDies :
    (∀ v : Int, v ∈ [114999, 115000] → (List.replicate 48 v).length = 48) ∧ up.bring.phase1 ≠ .off ∧ up.power.thermTrip = false ∧
      ((3 : Nat) < 4 ∧ up.power.dies.length = 4 ∧ up.dieAwake 3 = true ∧ up.dieIdle 3 = true) ∧
      ({ up with tileUnits := up.tileUnits.set 255 { (up.unit 255) with works := [work0] } } : State).dieIdle 3 = false ∧
      (dieAt .sleep).power.dies.getD 3 .sleep = .sleep ∧ (dieAt .sleep).bring.pwrGood = true ∧ (dieAt .waking).power.dies.getD 3 .sleep = .waking := by
  decide +kernel

theorem wit_SidebandAndClocks :
    (up.bring.ready = true ∧ State.reset.bring.ready = false ∧ State.reset.bring.pwrGood = false) ∧
      up.bring.segment = true ∧ State.reset.bring.segment = false := by
  decide +kernel

/-- The small module with an instance in flight on the last die, and these margins. -/
def busy (off clock : Nat) : State :=
  { up with tileUnits := up.tileUnits.set 255 { (up.unit 255) with works := [{ work0 with flying := [inst0] }] }
            dict := [(entryKey 0x9000 4, .num off), (entryKey 0x9000 8, .num clock)] }

theorem wit_PathMargins :
    (busy 0 2250).dieCode 3 = 2 ∧ 0 < (busy 0 2250).num 0x9000 13 ∧ (busy 0 2250).num 0x9000 13 ≤ 65535 ∧
      (busy 0 2250).num 0x9000 4 + 5 ≤ (busy 0 2250).num 0x9000 14 ∧ (busy 60 2250).num 0x9000 14 < (busy 60 2250).num 0x9000 4 + 5 ∧
      2025 ≤ (busy 60 2025).num 0x9000 8 ∧ (busy 60 2024).num 0x9000 8 < 2025 := by
  decide +kernel

theorem wit_LanesAndBanks :
    ((netted port4 []).laneUp 8 = true ∧ up.laneUp 55 = true ∧ linkForm up.port.width up.port.rate = true ∧ up.num 0x9030 3 ≤ 255 ∧ 0 < up.num 0x9030 3) ∧
      (25 : Nat) < 26 ∧ up.day.bankRate 25 7 < 2 ∧ 0 < up.num 0x9040 1 * 100 ∧ up.num 0x9040 1 * 100 ≤ 100000 := by
  decide +kernel

theorem wit_DailyRecord :
    let s : State := { up with bring := { up.bring with phase1 := .done } }
    s.bring.phase1 = .done ∧ s.flash.daily.length < 65504 ∧ s.flash.daily.length < 14 := by
  decide +kernel

/-- Every check of phase 1 passes. -/
def allGood : StartVerdicts := ⟨true, true, true, true, true, true, true, (true, true, true), (true, true, true)⟩

/-- The module unpowered with images in both slots, of which slot `bad` is none. -/
def flashed (bad : Option Nat) : State :=
  { State.reset with flash := { State.reset.flash with slotA := if bad = some 0 then [] else image9, slotB := if bad = some 1 then [] else image9 } }

theorem wit_KeeperStarts :
    (State.reset.bring.phase1 = .off ∧ 46000 < 46001 ∧ 46000 ≤ 46000 ∧ up.bring.phase1 ≠ .off) ∧
      (∀ bad ∈ [none, some 0, some 1], (flashed bad).flash.delta.isSome = true ∧ (flashed bad).log.held = [] ∧
        (((flashed bad).flash.cons.bind (·.eventSeq)).toList ++ ((flashed bad).flash.delta.bind (·.eventSeq)).toList).max? = some 0 ∧
        (flashed bad).activeSlot = 0 ∧ ((flashed bad).imageFails ((flashed bad).flash.slot 0) true true true = none ↔ bad ≠ some 0)) := by
  decide +kernel

/-- The module joined to the segment as node 5. -/
def joined (g : Segment) : State := { up with bring := { up.bring with phase1 := .done, segment := true }, seg := { g with node := 5 } }

theorem wit_SegmentJoins :
    (let s : State := { up with bring := { up.bring with phase1 := .done, segment := false } }
     s.bring.phase1 = .done ∧ s.bring.segment = false) ∧
      (joined up.seg).seg.csma = false ∧ (joined up.seg).bring.segment = true ∧ (joined up.seg).usesAddress false = true ∧ (joined up.seg).usesAddress true = false ∧
      ({ joined up.seg with dict := [(entryKey 0x2110 2, .blk (List.replicate 16 1))] } : State).usesAddress true = true := by
  decide +kernel

/-- Phase 1 done and the rails down. -/
def dark (trip : Bool) (temp : Int) : State :=
  { up with bring := { up.bring with phase1 := .done, pwrGood := false, trained := false, initialised := false, ready := false },
            power := { up.power with thermTrip := trip, temps := List.replicate 48 temp } }

/-- The rails up and memory not yet trained, or trained and not yet initialised. -/
def rising (trained : Bool) (failed : List Nat) : State :=
  { up with bring := { up.bring with phase1 := .done, trained := trained, failedDevices := failed, initialised := false, ready := false } }

theorem wit_RailsAndMemory :
    ((dark true 84999).bring.phase1 = .done ∧ (dark true 84999).power.pwrEn = true ∧ (dark true 84999).bring.pwrGood = false ∧
        ∀ x ∈ (dark true 84999).power.temps, x < 85000) ∧
      (¬ ∀ x ∈ (dark true 85000).power.temps, x < 85000) ∧
      (∀ failed ∈ [[], [25]], (rising false []).bring.pwrGood = true ∧ (rising false []).bring.trained = false ∧ (rising false []).bring.failedDevices = [] ∧
        failed.all (· < 26) = true) ∧
      (rising false [3, 25]).bring.failedDevices ≠ [] ∧ (rising true []).bring.trained = true ∧ (rising true []).bring.initialised = false := by
  decide +kernel

theorem wit_InitialisationRepairs :
    (let s := { rising true [] with rel := { up.rel with bankUsed := [((0, 2), 16)] }, tiers := { up.tiers with nearRetired := 8 * gib } }
     s.bankLeft 0 2 = 0 ∧ s.usable (tierOf 0) < usableFloor (tierOf 0) + 1) ∧
      ((3 : Nat) < 4 ∧ (rising true []).spares.length = 4 ∧ ((rising true []).spares.getD 3 []).contains 65 = true) ∧
      ((rising true []).tileUnits.length = 256 ∧ (rising true []).spares.getD 3 [] = 64 :: [65, 66, 67] ∧
        ((rising true []).spares.getD 3 []).contains ((rising true []).unit (64 * 3 + 63)).phys = false ∧ ((rising true []).unit (64 * 3 + 63)).lost = false ∧
        ∀ k < 63, ((rising true []).unit (64 * 3 + k)).phys ≠ ((rising true []).unit (64 * 3 + 63)).phys) := by
  decide +kernel

/-- Every phase done but the last. -/
def nearlyReady (gone : List Nat) : State :=
  { up with bring := { up.bring with phase1 := .done, initialised := true, ready := false, windowOver := gone } }

theorem wit_ModuleBecomesReady :
    ((nearlyReady []).bring.phase1 = .done ∧ (nearlyReady []).bring.pwrGood = true ∧ (nearlyReady []).bring.trained = true ∧
        (nearlyReady []).bring.initialised = true ∧ (nearlyReady []).bring.ready = false) ∧
      (∀ p < 12, 0 < ((nearlyReady (List.range 12)).suesh p).width ∨ (nearlyReady (List.range 12)).bring.windowOver.contains p = true) ∧
      ((nearlyReady (List.range 11)).suesh 11).width = 0 ∧ (nearlyReady (List.range 11)).bring.windowOver.contains 11 = false := by
  decide +kernel

/-- The first record of job 0's log. -/
def record4 (mirrored : Bool) : LogRec :=
  { kind := 1, opcode := 0x7F, mb := 0, step := 0, accept := 1, body := [], offset := 0, mirrored := mirrored, committed := false }

def logged (mirrored : Bool) : Job := { job0 with log := [record4 mirrored], logEnd := 64 }

/-- A `NOP` that waits for its record to commit. -/
def waitingNop : InFlight := { (arrived 0 0x7F 0 (some 0) []) with stage := .done .ok [] 0, accept := some 1 }

/-- The small module with a job, and position 5 its buddy. -/
def buddied (j : Job) (l : List Assoc) : State :=
  { netted port4 l with
    jobs := [j], port := { up.port with inFlight := [waitingNop] }
    dict := (netted port4 l).dict ++ [(entryKey 0x7130 1, .num 5)] }

theorem wit_LogRecordsCommit :
    (∀ m ∈ [false, true], (buddied (logged m) [assoc5]).job? 0 = some (logged m) ∧ (logged m).state = .running ∧
      (logged m).log.find? (fun x => !x.committed) = some (record4 m)) ∧
      (up.buddy? = none ∧ (buddied (logged true) [assoc5]).buddy? = some 5 ∧ (buddied (logged true) [assoc5]).holderOf 5 = 5) ∧
      (let s := buddied (logged true) [assoc5]
       let x : Sent := { sent3 with kind := .logMirror, body := s.mirrorMsg (logged true) (record4 true) }
       s.acked 5 (s.mirrorMsg (logged true) (record4 true)) = true ∧
         (buddied (logged true) [{ assoc5 with store := [x] }]).acked 5 (s.mirrorMsg (logged true) (record4 true)) = false) ∧
      ((buddied (logged true) []).port.inFlight.find? (fun f => f.job == some 0 && f.accept == some 1 && !f.logged) = some waitingNop ∧
        ((buddied (logged true) []).live? 1).isSome = true ∧ ((buddied (logged true) []).queue 0).session = 1) := by
  decide +kernel

theorem wit_DepositsAreTaken :
    (let j := { job0 with early := true }
     let s := asked j 0 0 []
     s.job? 0 = some j ∧ j.early = true ∧ j.atBoundary = true ∧ j.taking = none ∧ j.fenced = false ∧ j.filling = false ∧ j.state = .running ∧
       s.num 0x7130 1 = 0xFFFF) ∧
      (let j := { job0 with early := true }
       let s := { buddied j [] with dict := [(entryKey 0x7130 1, .num 5), (entryKey 0x7100 1, .num 0)], tiers := (tiered false [weight7]).tiers }
       s.num 0x7130 1 ≠ 0xFFFF ∧ s.num 0x7100 1 * gib < (s.depositOf j).imageBytes) ∧
      (let j := { job0 with taking := some deposit4 }
       let s := asked j 0 0 []
       s.job? 0 = some j ∧ (∀ w ∈ s.fabric.outbox, w.kind ≠ .deposit) ∧ ∀ a ∈ s.fabric.assocs, ∀ x ∈ a.store, x.kind ≠ .deposit) ∧
      up.num 0x7120 1 = 0 ∧ up.num 0x7120 5 ≤ up.num 0x7120 6 ∧ ({ up with dict := [(entryKey 0x7120 1, .num 1)] } : State).num 0x7120 1 = 1 := by
  decide +kernel

/-- A liveness message about a position. -/
def news (op subject : Nat) : List Byte :=
  ({ jobKey := 0, offset := 8, depositId := 0, step := 3, subject := subject, last := false, op := op, count := 0 } : RecHead).bytes

def assoc6 : Assoc := { assoc5 with peer := 6, heard := true }

theorem hearsTwo (a b : Assoc) (e2e : Nat) (body : List Byte) (hp : (a.peer == 5 && a.live) = true) (h : a.rxLow ≤ e2e ∧ a.rxAbove.contains e2e = false)
    (hq : a.rxPhase = false := by rfl) :
    (netted port4 [a, b]).Hears 2 (msg 0x0F00 e2e 0 body) a :=
  ⟨by show 0 < port4.width; decide, by show 0 = (port4.rxSeq + 1) % 4096; decide, Or.inl rfl,
    by simp only [Bool.and_eq_true, beq_iff_eq] at hp; simp [State.assoc?, netted, hp.1, hp.2, msg], hq.symm, h⟩

theorem wit_LivenessMessages :
    (let s := buddied job0 [assoc5]
     5 ∈ s.probed ∧ s.holderOf 5 = 5) ∧
      (netted port4 [assoc5, assoc6]).Hears 2 (msg 0x0F00 1 0 (news 2 6)) assoc5 ∧
      (let s := netted port4 [assoc5, assoc6]
       s.fabric.outbox = [] ∧ s.bring.ready = true ∧ s.bring.announcedFailure = false ∧ s.holderOf 5 = 5 ∧ s.assoc? (recHead (news 2 6)).subject = some assoc6 ∧ assoc6.heard = true ∧
         (recHead (news 2 6)).subject ≠ 5 ∧ s.assoc? 5 = some assoc5 ∧ assoc5.heard = false ∧ assoc6 ∈ s.fabric.assocs ∧ s.holderOf 6 = 6) :=
  ⟨by decide +kernel, hearsTwo assoc5 assoc6 1 _ rfl (by decide +kernel), by decide +kernel⟩

theorem wit_PositionsAreFenced :
    (netted port4 [assoc5, assoc6]).Hears 2 (msg 0x0F00 1 0 (news 4 6)) assoc5 ∧
      (let s := netted port4 [assoc5, assoc6]
       (s.fabric.fenced.contains (recHead (news 4 6)).subject = false ∧ (recHead (news 4 6)).subject ≠ s.fabric.position) ∧
         (recHead (news 4 0x0F00)).subject = s.fabric.position ∧ s.assoc? 6 = some assoc6 ∧ assoc6.queried = false ∧ up.bring.selfFenced = false) ∧
      (let a := { assoc5 with queried := true }
       (netted port4 [a]).assoc? 5 = some a ∧ a.queried = true ∧ a.heard = false) :=
  ⟨hearsTwo assoc5 assoc6 1 _ rfl (by decide +kernel), by decide +kernel, by decide +kernel⟩

/-- The small module at a position, with these positions fenced and one spare named. -/
def fencing (pos : Nat) (spares fenced : List Nat) (holders : List (Nat × Nat)) : State :=
  { up with
    dict := [(entryKey 0x7130 2, .blk (spares.map (toLE 2)).flatten)]
    fabric := { up.fabric with position := pos, fenced := fenced, holders := holders } }

/-- What the spare fills job 0 from: a Deposit after step 4 and the next command of its log. -/
def image0 : FillImage :=
  { job := job0, deposit := deposit4, roles := [],
    log := [{ record4 true with opcode := 0x20, step := 5, accept := 10, gen := 1, committed := true }] }

theorem wit_PositionsAreTakenOver :
    (fencing 9 [9] [] []).fabric.position = 9 ∧
      (let s := fencing 9 [9] [] []
       s.jobOfKey? image0.job.key = none ∧ s.jobs.length < 4 ∧ image0.job.slot < 4 ∧ s.job? image0.job.slot = none ∧
         (image0.log.filter fun r => r.gen == s.sec.numericsGen && image0.deposit.replays r).head? = image0.log.head? ∧
         ∀ r, image0.log.head? = some r → r.kind = 1) ∧
      (∀ pos ∈ [3, 4], (fencing 3 [9] [4] []).fabric.position ≠ 9 ∧ (fencing 3 [9] [4] []).sparesLeft.head? = some 9 ∧
        (pos = 3 ∨ (fencing 3 [9] [4] []).fabric.fenced.contains pos = true)) ∧
      (let s := { fencing 9 [9] [] [] with fabric := { (fencing 9 [9] [] []).fabric with filling := some 4 } }
       s.fabric.filling = some 4 ∧ s.jobs.all Job.replayDone = true ∧ (∀ f ∈ s.port.inFlight, f.replayed = true → f.stage ≠ .arrived) ∧
         ({ s with jobs := [{ job0 with filling := true, replay := [record4 true] }] } : State).jobs.all Job.replayDone = false) ∧
      ((fencing 3 [9] [4] [(4, 4)]).fabric.filling ≠ some 4 ∧ (fencing 3 [9] [4] [(4, 4)]).fabric.fenced.contains 4 = true ∧
        ((fencing 3 [9] [4] [(4, 4)]).fabric.holders.any fun h => h.1 == 4) = true) ∧
      ((fencing 3 [] [4] []).fabric.fenced.contains 4 = true ∧ (fencing 3 [] [4] []).sparesLeft = [] ∧
        ((fencing 3 [] [4] []).fabric.holders.any fun h => h.1 == 4) = false ∧ (fencing 3 [] [4] []).canHold [(0, deposit4)] = true) := by
  decide +kernel

theorem wit_RestoreAndExhaustion :
    let j := { job0 with fenced := true }
    ((asked j 0 0 []).job? 0 = some j ∧ j.fenced = true ∧ j.state = .running ∧ j.steps = [] ∧ (asked j 0 0 []).fabric.requests = []) ∧
      (let k := { job0 with unlike := true, steps := [step0] }
       (asked k 0 0 []).job? 0 = some k ∧ k.unlike = true ∧ k.state = .running ∧ k.steps = [step0]) := by
  decide +kernel

/-- A log record of the ward at position 5, of job 7. -/
def mirrored : Landed :=
  { kind := .logMirror, bytes := ({ jobKey := 7, offset := 0, depositId := 0, step := 0, subject := 5, last := false, op := 0, count := 64 } : RecHead).bytes ++ zeros 64 }

/-- A raw addend row for step 0 of job 7, which has not been accepted here. -/
def early4 : Landed :=
  let h : MsgHead := { jobKey := 7, step := 0, spaceId := 4, index := 0, mb := 2, piece := 0, tile := 0, slip := 0, segFirst := 0, segCount := 1 }
  { kind := .scatterRaw, bytes := h.bytes ++ toLE 4 0 }

/-- Messages landed from position 5, and a log held of job 7. -/
def landed (l : List Landed) : State :=
  { netted port4 [{ assoc5 with landing := l }] with
    jobs := [job0], fabric := { (netted port4 [{ assoc5 with landing := l }]).fabric with ward := some 5, wardJobs := [WardJob.fresh 7] } }

theorem wit_LandedMessagesMove :
    (let s := landed [mirrored, mirrored, early4]
     let a := { assoc5 with landing := [mirrored, mirrored, early4] }
     s.fabric.assocs.find? (fun x => x.peer == 5) = some a ∧ a.landing[0]? = some mirrored ∧ a.landing[1]? = some mirrored ∧ a.landing[2]? = some early4 ∧
       s.movable 5 mirrored = true ∧ s.movable 5 early4 = false ∧
       ((a.landing.take 0).all fun x => !(x.kind == mirrored.kind && leAt x.bytes 24 8 == leAt mirrored.bytes 24 8)) = true ∧
       ((a.landing.take 1).all fun x => !(x.kind == mirrored.kind && leAt x.bytes 24 8 == leAt mirrored.bytes 24 8)) = false ∧
       s.fabric.ward = some (recHead mirrored.bytes).subject ∧
       s.fabric.wardJobs.find? (fun x => x.key == (recHead mirrored.bytes).jobKey) = some (WardJob.fresh 7)) := by
  decide +kernel

/-- A job whose work item of step 0 stands on tile 1 at the first descriptor of its program. -/
def working (ds : List Desc) : Job :=
  { job0 with programs := [{ role := 2, carrel := 4096, slips := 0, descs := ds }], steps := [{ step0 with dispatched := [(work0.id, 1)] }] }

/-- The small module with it, as `f` makes the work item. -/
def onTile (ds : List Desc) (f : Work → Work) : State :=
  { up with jobs := [working ds], tileUnits := up.tileUnits.set 1 { (up.unit 1) with works := [f work0] } }

/-- Role 2 in program slot 0 on tile 1 (Table 03-5). -/
def ready14 (p : Program) (seeds : List (List (Nat × Nat))) (ps : List PieceRec) (formed : List Nat) : Job :=
  { job0 with programs := [p], steps := [{ step0 with seeds := seeds, roles := [(1, 2)], pieces := ps, formed := formed }] }

def piece0 : PieceRec := { mb := 0, summary := { piece := 0, first := 0, seedCount := 1, last := true, n := [1, 1, 0, 0, 0], e := [0, 0, 0, 0], t := [1, 0, 0, 0] } }

/-- A `COPY` of the step-end pass. -/
def endVec : Desc := ⟨(vec 1 1).w + 3 * 2 ^ 28⟩

def pass0 : WorkId := { work0.id with endPass := true }

def completed0 (j : Job) : Job := { j with steps := j.steps.map fun x => { x with dispatched := [(work0.id, 1)], completed := [work0.id] } }

theorem wit_WorkIsDispatched :
    (let j := ready14 prog0 [[(5, 0)]] [piece0] [0]
     let s := asked j 0 0 []
     let x := j.steps.headD step0
     s.job? 0 = some j ∧ j.step? 0 = some x ∧ j.programs[j.programFor x work0.id (progA (x.roleWord 1))]? = some prog0 ∧
       (walkOn x prog0 { work0 with half := 0, prog := 0 }).pos < prog0.descs.length ∧ (s.unit 1).work? work0.id = none ∧ 1 < s.tileUnits.length ∧ j.slot = 0 ∧
       (s.dispatchOpen j = true ∧ s.notHeld j x = true ∧ s.tileOpen x 1 0 work0.id = true ∧ j.rungsKnown work0.id = true ∧ x.again = [] ∧ s.stageOrder j x work0.id = true ∧ 0 < x.seeds.length ∧
         (∀ y ∈ j.steps, 0 < y.num + 4) ∧ x.dispatched = [] ∧ x.bound = [] ∧ j.layers = [] ∧ (x.piece? 0 0).isSome = true) ∧ (s.unit 1).bound ≠ x.roleWord 1) := by
  decide +kernel

theorem wit_StepEndPassIsDispatched :
    let j := completed0 (ready14 { prog0 with descs := [endVec] } [[(5, 0)]] [piece0] [0])
    let s := asked j 0 0 []
    let x := j.steps.headD step0
    ((walkOn x { prog0 with descs := [endVec] } { work0 with id := pass0 }).pos < 1 ∧ halvesFor (x.roleWord 1) 2 0 = [(0, 0)] ∧
      x.roleDone 2 0 false = true ∧ (∀ q ∈ x.dispatched, q ≠ (pass0, 1)) ∧ s.placeOpen 1 0 = true ∧ s.bindOpen x 1 = true ∧ ∃ q ∈ x.dispatched, q.1 = work0.id) ∧ s.afterWork 0 0 = s :=
  ⟨by decide +kernel, rfl⟩

/-- Job 0 with its work item of step 0 waiting for a place on tile 1. -/
def again0 : Rerun := ⟨work0.id, 1, none, [(1, [0, 0, 0, 0], 0)]⟩
def waitingAgain : Job :=
  let j := ready14 prog0 [[(5, 0)]] [piece0] [0]
  { j with steps := j.steps.map fun x => { x with dispatched := [(work0.id, 1)], again := [again0] } }

theorem wit_RerunsTakeAPlace :
    let s := asked waitingAgain 0 0 []
    let x := waitingAgain.steps.headD step0
    s.job? 0 = some waitingAgain ∧ waitingAgain.step? 0 = some x ∧ (x.again.find? fun a => a.id == work0.id && a.tile == 1) = some again0 ∧
      s.dispatchOpen waitingAgain = true ∧ s.placeOpen 1 (halfOf (x.roleWord 1) work0.id) = true ∧ waitingAgain.slot = 0 ∧
      waitingAgain.programs[waitingAgain.progOn x 1 work0.id]? = some prog0 ∧
      (walkOn x prog0 { work0 with half := halfOf (x.roleWord 1) work0.id, prog := waitingAgain.progOn x 1 work0.id, rerun := true, delivered := again0.delivered }).pos
        < prog0.descs.length := by
  decide +kernel

/-- What the next instance on tile 1 runs with. -/
def ctxOf (ds : List Desc) (f : Work → Work) : Ctx :=
  { slot := 0, tile := 1, job := working ds, x := (working ds).steps.headD step0, prog := (working ds).programs.headD prog0, w := f work0,
    d := ds.getD (f work0).pos ⟨0⟩, base := 0 }

theorem wit_EngineInstancesIssue :
    ((onTile [vec 1 1] id).Can 1 work0.id (ctxOf [vec 1 1] id) ∧ (true, Instr.copy 1 work0.id) ∈ plainRows 1 work0.id (vec 1 1) ∧
        (false, Instr.add 1 work0.id) ∈ plainRows 1 work0.id (vec 1 1)) ∧
      (onTile [vec 1 1] id).ctx? 1 { work0.id with mb := 3 } = none ∧
      (∀ op ∈ vectorOps, (⟨6 + op * 2 ^ 128 + 1 * 2 ^ 155 + 32 * 2 ^ 176⟩ : Desc).kind = 6) ∧
      (let s := { onTile [vec 1 1] id with bring := { up.bring with pwrGood := false } }
       s.ctx? 1 work0.id = some (ctxOf [vec 1 1] id) ∧ s.canIssue (ctxOf [vec 1 1] id) = false) := by
  refine ⟨⟨⟨by decide +kernel, by decide +kernel, by decide +kernel, by decide +kernel⟩, by decide +kernel⟩, by decide +kernel⟩

/-- A `MATMUL` of one row by a weight tile of the carrel, or of tensor 7; a `COMPRESS` of one tile; an `UPDATE` of parameter 9; a `GATHER` and a `SCATTER` of
one row of tensor 4 (Tables 08-3, 07-4, 11-4, 05-7, 05-8). -/
def matmulD (tensor : Bool) : Desc :=
  if tensor then ⟨4 + 1 * 2 ^ 64 + 1 * 2 ^ 136 + 256 * 2 ^ 256 + 7 * 2 ^ 320⟩ else ⟨4 + 1 * 2 ^ 64 + 256 * 2 ^ 256 + 128 * 2 ^ 320⟩
def compressD : Desc := ⟨9 + 1 * 2 ^ 64 + 4 * 2 ^ 192⟩
def updateD : Desc := ⟨10 + 1 * 2 ^ 64 + 9 * 2 ^ 192⟩
def moveD (kind : Nat) : Desc := ⟨kind + 1 * 2 ^ 64 + 3 * 2 ^ 128 + 2 * 2 ^ 132 + 1 * 2 ^ 144 + 32 * 2 ^ 176 + 4 * 2 ^ 192 + 64 * 2 ^ 312⟩

/-- The same with no room in either tier, or with parameter 9. -/
def crowded (s : State) : State := { s with tiers := { s.tiers with nearRetired := 768 * gib, farRetired := 1536 * gib } }
def owning (ds : List Desc) (us : List LayerUpdate) : Job :=
  { working ds with body := { body0 with params := [param9] }, steps := (working ds).steps.map fun x => { x with updates := us } }
def update9 (started : Bool) (skip : List (Nat × Nat)) : LayerUpdate := { layer := 0, started := started, released := false, done := [], skip := skip, orth := [] }
def updating (us : List LayerUpdate) : State := { onTile [updateD] id with jobs := [owning [updateD] us] }
def updateCtx (us : List LayerUpdate) : Ctx :=
  { ctxOf [updateD] id with job := owning [updateD] us, x := (owning [updateD] us).steps.headD step0 }

theorem wit_WaitingInstancesIssue :
    ((onTile [matmulD false] id).Can 1 work0.id (ctxOf [matmulD false] id) ∧ (ctxOf [matmulD false] id).weightReady up = true ∧
        (ctxOf [matmulD false] id).weightLate up = false) ∧
      (let c := ctxOf [matmulD true] id
       (∀ l ∈ [[], [(work0.id, 0, [0, 0, 0, 0])]],
         let s : State := { (onTile [matmulD true] id).updUnit 1 (fun u => { u with late := l }) with tiers := (tiered false [weight7]).tiers }
         s.ctx? 1 work0.id = some c ∧ s.canIssue c = true ∧ c.weightReady s = true ∧ c.weightLate s = true ∧ (s.unit 1).late = l) ∧ c.d.bodyBads 0 = []) ∧
      ((onTile [compressD] fun w => { w with delivered := [(1, [0, 0, 0, 0], 0)] }).Can 1 work0.id
          (ctxOf [compressD] fun w => { w with delivered := [(1, [0, 0, 0, 0], 0)] }) ∧
        (ctxOf [compressD] fun w => { w with delivered := [(1, [0, 0, 0, 0], 0)] }).hasRoom up = true) ∧
      (∀ us ∈ [[update9 true []], [update9 false []], [update9 false [(0, 9)]]],
        (updating us).ctx? 1 work0.id = some (updateCtx us) ∧ (updating us).canIssue (updateCtx us) = true ∧
          (updateCtx us).updateReady (updating us) = (us != [update9 false []]) ∧ (updateCtx us).updateRoom (updating us) = true ∧ (updateCtx us).updateIdle (updating us) = (us == [update9 false [(0, 9)]])) ∧
      updateD.bodyBads 0 = [] ∧
      ∀ k ∈ [2, 3], (onTile [moveD k] id).ctx? 1 work0.id = some (ctxOf [moveD k] id) ∧ (onTile [moveD k] id).canIssue (ctxOf [moveD k] id) = true ∧
        (moveD k).bodyBads 0 = [] ∧ (moveD k).kind = k ∧ (ctxOf [moveD k] id).refreshPast = true ∧ (ctxOf [moveD k] id).tableRank (onTile [moveD k] id) = true := by
  refine ⟨⟨⟨by decide +kernel, by decide +kernel, by decide +kernel, by decide +kernel⟩, by decide +kernel, by decide +kernel⟩, ⟨by decide +kernel, by decide +kernel⟩,
    ⟨⟨by decide +kernel, by decide +kernel, by decide +kernel, by decide +kernel⟩, by decide +kernel⟩, by decide +kernel, by decide +kernel, by decide +kernel⟩

theorem wit_CompressWaitsForRoom :
    let s := crowded { onTile [compressD] id with carrel := [⟨carrelAt 1 3, 0x3F⟩] }
    s.Can 1 work0.id (ctxOf [compressD] id) ∧ (ctxOf [compressD] id).hasRoom s = false ∧ (ctxOf [compressD] id).x.spaceWait = [] :=
  ⟨⟨by decide +kernel, by decide +kernel, by decide +kernel, by decide +kernel⟩, by decide +kernel, by decide +kernel⟩

/-- A `WAIT` for one, a `SIGNAL` of 3 to this tile, a `LOOP` of `n` or of the piece's blocks over one `VECTOR` (Tables 03-10 to 03-12); counter 1. -/
def waitD : Desc := ⟨11 + 1 * 2 ^ 64 + 1 * 2 ^ 144 + 1 * 2 ^ 160⟩
def signalD : Desc := ⟨12 + 1 * 2 ^ 64 + 1 * 2 ^ 144 + 3 * 2 ^ 168⟩
def loopD (n : Nat) : Desc := if n = 0 then ⟨13 + 1 * 2 ^ 64 + 1 * 2 ^ 128 + 3 * 2 ^ 148⟩ else ⟨13 + 1 * 2 ^ 64 + 1 * 2 ^ 128 + n * 2 ^ 160⟩

theorem wit_SequencerInstances :
    (∀ f ∈ [id, fun w : Work => { w with delivered := [(1, [0, 0, 0, 0], 0)] }],
      (onTile [signalD] f).ctx? 1 work0.id = some (ctxOf [signalD] f) ∧ (onTile [signalD] f).canIssue (ctxOf [signalD] f) = true) ∧
      (ctxOf [signalD] id).live = true ∧ (ctxOf [signalD] fun w => { w with delivered := [(1, [0, 0, 0, 0], 0)] }).live = false ∧ (working [signalD]).signals = [] ∧
      (∀ ds ∈ [[waitD], [loopD 2, vec 1 2], [loopD 0, vec 1 2], [loopD 0, vec 1 2, vec 1 3]],
        (onTile ds id).ctx? 1 work0.id = some (ctxOf ds id) ∧ (onTile ds id).canIssue (ctxOf ds id) = true ∧ (ctxOf ds id).d.bodyBads 0 = []) ∧
      signalD.bodyBads 0 = [] ∧
      (let c := ctxOf [loopD 2, vec 1 2] id
       c.d.loopCount (c.x.piece? 0 0) = 2 ∧ (walkOn c.x c.prog { c.w with latest := [(0, 0)], pos := 1, loops := [⟨0, 1⟩] }).pos < 2) ∧
      (let c := ctxOf [loopD 0, vec 1 2] id
       c.d.loopCount (c.x.piece? 0 0) = 0 ∧ 2 ≤ (walkOn c.x c.prog { c.w with latest := [(0, 0)], pos := 0 + 1 + c.d.loopLen }).pos ∧
         (walkOn c.x c.prog { c.w with latest := [(0, 0)], pos := 0 + 1 + c.d.loopLen }).flying = []) := by
  decide +kernel

/-- An instance of the first descriptor in flight. -/
def flight (kind : Nat) (ready : Bool) (ord : Nat) : Inst := { inst0 with kind := kind, ready := ready, ord := ord }

theorem wit_LongWaitsAreReported :
    let i := flight 0x0B false 3
    let k := { work0 with flying := [i], pos := 1 }
    let s := onTile [waitD] fun _ => k
    (s.unit 1).work? work0.id = some k ∧ s.job? 0 = some (working [waitD]) ∧
      (working [waitD]).programs[0]? = some { role := 2, carrel := 4096, slips := 0, descs := [waitD] } ∧
      k.flying.find? (fun i => i.ord == 3 && i.kind == 0x0B && !i.ready) = some i ∧ waitD.f 147 146 = 0 := by
  decide +kernel

/-- Tile 1's signal held by the job, to micro-batch `mb` of a step. -/
def held (step : Nat) (mb : Int) : HeldSignal :=
  { src := work0.id, srcTile := 1, half := 0, pos := 0, regs := [0, 0, 0, 0], desc := signalD, ord := 0, toStep := step, toMb := mb }
def signalling (h : HeldSignal) (count : Nat) : State :=
  { up with
    jobs := [{ working [signalD] with signals := [h], steps := [{ step0 with seeds := [[(5, 0)]] }] }]
    tileUnits := up.tileUnits.set 1 { (up.unit 1) with works := [{ work0 with flying := [flight 0x0C false 0] }], board := [((0, 0, 1, 0), count)] } }

theorem wit_SignalsArrive :
    (∀ h ∈ [held 0 0, held 0 1, held 0 (-1), held 1 0, held 4 0],
      let s := signalling h 5
      let j := s.jobs.headD job0
      s.job? 0 = some j ∧ j.signals[0]? = some h ∧ j.layers = [] ∧ (j.step? h.toStep).isSome = (h.toStep == 0) ∧ h.desc.f 149 148 = 0 ∧
        h.srcTile < s.tileUnits.length ∧ ((∀ y ∈ j.steps, y.num + 4 ≠ h.toStep) ↔ h.toStep ≠ 4)) ∧
      (0 : Int) ≤ 0 ∧ (0 : Int) ≤ ({ step0 with seeds := [[(5, 0)]] } : StepRec).lastMb ∧
      ((signalling (held 0 0) 65532).unit 1).boardCount 0 0 1 0 + signalD.f 175 168 = 65535 ∧
      65535 < ((signalling (held 0 0) 65533).unit 1).boardCount 0 0 1 0 + signalD.f 175 168 := by
  decide +kernel

/-- Tile 1 with these instances in flight past a program of `n` descriptors. -/
def flyingOn (n : Nat) (l : List Inst) (slips : List (Nat × Slip)) : State :=
  (onTile (List.replicate n (vec 1 1)) fun w => { w with flying := l, pos := 1 }).updUnit 1 fun u => { u with slips := slips }

def slip0 (st : SlipState) : Slip :=
  { state := st, work := work0.id, pos := 0, regs := [0, 0, 0, 0], seq := 1, scatter := false, space := 2, id := 4, at' := 0, row := 0, seg := 0, first := 0, count := 32,
    granules := 4, landed := 0, carrel := 64, granule := 64, source := 0, remote := false, peer := 0 }

theorem wit_InstancesComplete :
    (∀ n ∈ [1, 2],
      let s := flyingOn n [flight 6 true 0] [(3, slip0 .done)]
      ∃ k, (s.unit 1).work? work0.id = some k ∧ (s.unit 1).retiring = none ∧ k.flying.find? (fun i => i.ord == 0) = some (flight 6 true 0) ∧ k.pos = 1 ∧
        (∀ f ∈ (s.unit 1).flying, engineOf f.kind = engineOf 6 → 0 ≤ f.ord) ∧ (∀ p ∈ (s.unit 1).slips, p.2.state = .done ∨ p.2.state = .zeroed) ∧
        (flight 6 true 0).reqs = [] ∧ (flight 6 true 0).targets = [] ∧ (engineOf 6 = 0 → (s.unit 1).queue.length ≤ 16) ∧
        (working (List.replicate n (vec 1 1))).programs[k.prog]? = some { role := 2, carrel := 4096, slips := 0, descs := List.replicate n (vec 1 1) }) ∧
      (let s := flyingOn 1 [flight 6 true 0, flight 7 true 1] [(3, slip0 .issued)]
       (s.unit 1).flying = [flight 6 true 0, flight 7 true 1] ∧ engineOf 7 ≠ 4 ∧ engineOf 6 = engineOf 7 ∧ (slip0 .issued).state ≠ .done) := by
  refine ⟨fun n h => ?_, by decide +kernel⟩
  have h : n = 1 ∨ n = 2 := by simpa using h
  rcases h with rfl | rfl
  · exact ⟨{ work0 with flying := [flight 6 true 0], pos := 1 }, by decide +kernel⟩
  · exact ⟨{ work0 with flying := [flight 6 true 0], pos := 1 }, by decide +kernel⟩

/-- A `SAMPLE` of one uniform hop from catalogue 2 into tensors 20 and 30, its hash table of 2^10 entries at granule 1,024 (Table 04-6). -/
def sampleD : Desc := ⟨1 + 1 * 2 ^ 64 + 2 * 2 ^ 128 + 2 * 2 ^ 148 + 10 * 2 ^ 184 + 64 * 2 ^ 192 + 1024 * 2 ^ 208 + 20 * 2 ^ 240 + 30 * 2 ^ 272 + 64 * 2 ^ 336⟩
def sampling (seeds : List (Nat × Nat)) (ps : List PieceRec) : State :=
  let s := onTile [sampleD] id
  { s with jobs := s.jobs.map fun j => { j with steps := j.steps.map fun x => { x with seeds := [seeds], pieces := ps } } }
def sampleCtx (seeds : List (Nat × Nat)) (ps : List PieceRec) : Ctx :=
  let j := (sampling seeds ps).jobs.headD job0
  { ctxOf [sampleD] id with job := j, x := j.steps.headD step0 }

theorem wit_PiecesAreFormed :
    (∀ ps ∈ [[], [{ piece0 with summary := { piece0.summary with seedCount := 0 } }]],
      (sampling [] ps).ctx? 1 work0.id = some (sampleCtx [] ps) ∧ (sampling [] ps).canIssue (sampleCtx [] ps) = true ∧
        (sampleCtx [] ps).sampleRoom (sampling [] ps) = true ∧ (sampleCtx [] ps).sampleIn.reads ((sampling [] ps).graph 0 2) ((sampleCtx [] ps).formPiece (sampling [] ps)).1 = [] ∧ (sampleCtx [] ps).x.piece? 0 0 = (ps.map (·.summary)).head?) ∧
      sampleD.bodyBads 0 = [] ∧ sampleD.kind = 1 := by
  decide +kernel

/-- Nothing is placed in tiers with no byte left. -/
theorem place_none (s : State) (n : Nat) (far : Bool) (hp : s.poolCapacity = 0) (hf : s.farCapacity = 0) (hn : n ≠ 0) : s.place n far = none := by
  have h1 : ¬ s.farUsed + n ≤ 0 := by omega
  have h2 : ¬ 100 * (s.poolUsed + n) ≤ 0 := by omega
  have h3 : ¬ s.poolUsed + n ≤ 0 := by omega
  simp only [State.place, State.underHigh, hp, hf, Nat.mul_zero, h1, h2, h3, decide_false, Bool.false_eq_true, and_false, if_false]

/-- A tile that is not all zero has an image. -/
theorem image_length (c : Choice) (ty : ElemType) (a : TileAt) (t : List Nat)
    (h : ((clip (fun i => decide (i / 32 ≤ a.rowsM1) && decide (i % 32 ≤ a.colsM1)) t).all (· = 0)) = false) : (compressTile c ty a t).image.length ≠ 0 := by
  have hb : ∀ l : Label, l.bytes ≠ [] := fun l h => by
    have := congrArg List.length h
    simp [Label.bytes, toLE] at this
  unfold compressTile
  simp only [h, Bool.false_eq_true, if_false]
  intro hz
  simp only [List.length_eq_zero_iff, List.append_eq_nil_iff] at hz
  exact hb _ hz.1

/-- Tiers with no byte left that store nothing. -/
def Full (s : State) : Prop := s.poolCapacity = 0 ∧ s.farCapacity = 0 ∧ ∀ t ∈ s.tiers.tiles, t.image = []

theorem Full.image {s : State} (h : Full s) (k : TileKey) : s.image k = [] := by
  unfold State.image State.tile?
  cases hf : s.tiers.tiles.find? fun t => t.key == k with
  | none => rfl
  | some t => exact h.2.2 t (List.mem_of_find?_eq_some hf)

/-- An absent tile leaves them so. -/
theorem Full.put {s : State} (h : Full s) (k : TileKey) (die : Option Nat) (pinned : Bool) : Full (s.putTile k [] die pinned) := by
  refine ⟨h.1, h.2.1, fun t ht => ?_⟩
  have ht : t ∈ (s.tiers.tiles.filter fun t => t.key != k) ++ [_] := ht
  rcases List.mem_append.1 ht with ht | ht
  · exact h.2.2 t (List.mem_filter.1 ht).1
  · rw [List.mem_singleton.1 ht]

/-- A tile with an image finds no room there. -/
theorem Full.no_room {s : State} (h : Full s) (k : TileKey) (n : Nat) (hn : n ≠ 0) : s.roomFor k n = false := by
  have hp : (s.updTiles fun l => l.filter fun t => t.key != k).place n (k.space == .catalogue) = none := place_none _ _ _ h.1 h.2.1 hn
  simp [State.roomFor, h.image, hn, hp]

theorem no_room_stays (l : List (TileKey × List Byte)) (s : State) :
    (l.foldl (fun (a : State × Bool) p => (a.1.putTile p.1 p.2 none false, a.2 && a.1.roomFor p.1 p.2.length)) (s, false)).2 = false := by
  induction l generalizing s with
  | nil => rfl
  | cons p l ih => rw [List.foldl_cons, Bool.false_and]; exact ih _

/-- Of tiles that together have an image, one finds no room. -/
theorem Full.no_room_for_all {s : State} (h : Full s) (l : List (TileKey × List Byte)) (hl : ∃ p ∈ l, p.2 ≠ []) : s.roomForAll l = false := by
  unfold State.roomForAll
  induction l generalizing s with
  | nil => obtain ⟨_, hm, _⟩ := hl; cases hm
  | cons p l ih =>
    rw [List.foldl_cons]
    by_cases he : p.2 = []
    · have ht : ∃ q ∈ l, q.2 ≠ [] := by
        obtain ⟨q, hm, hq⟩ := hl
        rcases List.mem_cons.1 hm with rfl | hm
        · exact absurd he hq
        · exact ⟨q, hm, hq⟩
      have hr : s.roomFor p.1 p.2.length = true := by simp [State.roomFor, he]
      rw [hr, he]
      exact ih (h.put p.1 none false) ht
    · rw [h.no_room p.1 _ (by simpa using he), Bool.and_false]
      exact no_room_stays l _

/-- A piece with a tile waits there. -/
theorem sampleRoom_false (c : Ctx) (s : State) (t : TileOut) (hl : c.live = true) (ht : t ∈ c.sampleIn.tiles (s.graph c.slot (c.d.f 131 128)) (c.formPiece s).1)
    (hs : Full s) (hn : t.image.length ≠ 0) : c.sampleRoom s = false := by
  rw [Ctx.sampleRoom, hl, Bool.not_true, Bool.false_or]
  exact hs.no_room_for_all _ ⟨(c.key t.tensor t.row t.col, t.image), List.mem_map.2 ⟨t, ht, rfl⟩, by simpa using hn⟩

/-- The node list of a map of node 5. -/
def map5 : List Nat := [5] ++ List.replicate (1024 - [5].length) 0

theorem map5_nonzero : (clip (fun i => decide (i / 32 ≤ ([5].length - 1) / 32) && decide (i % 32 ≤ 31)) map5).all (· = 0) = false := by decide +kernel

/-- The map of one chunk is a tile of its own image. -/
theorem mapTiles_one (m : Nat) (l : List Nat) (h : chunks 1024 l.length l = [l])
    (hz : (clip (fun i => decide (i / 32 ≤ (l.length - 1) / 32) && decide (i % 32 ≤ 31)) (l ++ List.replicate (1024 - l.length) 0)).all (· = 0) = false) :
    ∃ t ∈ mapTiles m l, t.image.length ≠ 0 := by
  have hr : List.range 1 = [0] := rfl
  simp only [mapTiles, h, List.length_singleton, hr, List.map_cons, List.map_nil, List.getD_cons_zero, List.mem_singleton, exists_eq_left]
  exact image_length _ _ _ _ hz

theorem mapTiles5 : ∃ t ∈ mapTiles 30 [5], t.image.length ≠ 0 := mapTiles_one 30 [5] (by decide) map5_nonzero

/-- The piece of one seed without edges holds it alone. -/
theorem locals5 : ((sampleCtx [(5, 0)] []).formPiece (crowded (sampling [(5, 0)] []))).1.locals = [(5, 0)] := by decide +kernel

theorem tiles5 : ∃ t ∈ (sampleCtx [(5, 0)] []).sampleIn.tiles ((crowded (sampling [(5, 0)] [])).graph (sampleCtx [(5, 0)] []).slot
    ((sampleCtx [(5, 0)] []).d.f 131 128)) ((sampleCtx [(5, 0)] []).formPiece (crowded (sampling [(5, 0)] []))).1, t.image.length ≠ 0 := by
  have hm : (sampleCtx [(5, 0)] []).sampleIn.desc.f 303 272 = 30 := by decide +kernel
  obtain ⟨t, h, hn⟩ := mapTiles5
  refine ⟨t, ?_, hn⟩
  rw [SampleIn.tiles, hm, locals5]
  exact List.mem_append_left _ (List.mem_append_left _ (List.mem_append_right _ h))

theorem wit_PiecesWaitForRoom : (sampleCtx [(5, 0)] []).sampleRoom (crowded (sampling [(5, 0)] [])) = false := by
  obtain ⟨t, h, hn⟩ := tiles5
  exact sampleRoom_false _ _ t (by decide +kernel) h ⟨by decide +kernel, by decide +kernel, by decide +kernel⟩ hn

/-! ### Arithmetic of the engines -/

theorem wit_DrawsAreUniform : (2 ^ 32 - 1 < 2 ^ 32 ∧ 0 < 7) ∧ (∀ i, (fun i : Nat => i % 2 ^ 32) i < 2 ^ 32) ∧ 3 ≤ 3 :=
  ⟨by decide, fun i => Nat.mod_lt i (by decide), Nat.le_refl 3⟩

theorem wit_LedgerTotalsIgnoreOrder : 0 < 3 ∧ ([(0, 0x3F800000), (1, 0x7F800000)] : List (Nat × Nat)).Perm [(1, 0x7F800000), (0, 0x3F800000)] ∧
    0 < (ledgerInt 0 (.fin true 3 2 (-96))).natAbs ∧ (let (x, y) := inUnits 3 2 (0 : Int) 0; 2 * x = (2 * 1 + 1) * y) :=
  ⟨by decide, List.Perm.swap _ _ _, by decide +kernel, by decide +kernel⟩

theorem wit_FlagsStick : (let l : LedgerElem := { LedgerElem.zero with pos := true }; l.pos = true ∧ l.nan = false ∧ l.neg = false) ∧
    (let l : LedgerElem := { LedgerElem.zero with neg := true, nan := true }; l.neg = true ∧ l.nan = true) ∧ (Val.fin false 1 1 0).isFinite = true := by decide

theorem wit_LabelsAreChecked : labelCheck ((List.replicate 128 (1 : Byte)).take 32) = false := by decide +kernel

theorem wit_TilesRoundTrip : (List.replicate 1024 5).length = 1024 ∧ (∀ e ∈ List.replicate 1024 5, e < 2 ^ ElemType.bf16.bits) ∧
    ElemType.bf16.allows .sb = true ∧ ElemType.bf16.allows .nm = true ∧ ElemType.bf16.allows .cl = true ∧
    (let a : TileAt := { tensor := 2 ^ 32 - 1, row := 2 ^ 36 - 1, col := 2 ^ 20 - 1, rowsM1 := 31, colsM1 := 31, scale := 254 }
     a.scale < 255 ∧ a.rowsM1 < 32 ∧ a.colsM1 < 32 ∧ a.tensor < 2 ^ 32 ∧ a.row < 2 ^ 36 ∧ a.col < 2 ^ 20) :=
  ⟨List.length_replicate, fun e h => by rw [List.eq_of_mem_replicate h]; decide, by decide +kernel⟩

/-- An operand element of a tile that pairs, and one of a tile that does not. -/
def paired (raw : Nat) : Operand := ⟨raw, .ofInt (signed 8 raw), false⟩
def unpaired (raw : Nat) : Operand := ⟨raw, .nan, true⟩

theorem wit_ProductsAreSummed : (∀ x ∈ [paired 255, paired 128], x.bad = false ∧ x.raw < 256) ∧ [paired 255, paired 128].length ≤ 4096 ∧
    ([1, 2] : List Int).Perm [2, 1] ∧ (∀ x ∈ [paired 0], x.raw = 0) ∧
    ∃ p ∈ [paired 1].zip [unpaired 3], p.2.bad = true ∧ p.1.raw ≠ 0 ∧ p.2.raw ≠ 0 :=
  ⟨by decide, by decide, List.Perm.swap _ _ _, by decide, by decide⟩

/-- A `VECTOR` of 32 positions over FP32 operands. -/
def fvec (op : Nat) : Desc := ⟨6 + 1 * 2 ^ 64 + op * 2 ^ 128 + 10 * 2 ^ 136 + 1 * 2 ^ 155 + 32 * 2 ^ 176 + 8 * 2 ^ 241 + 4 * 2 ^ 274 + 16 * 2 ^ 307⟩

theorem wit_IntegerVectorsSaturate : (onTile [vec 2 1] id).Can 1 work0.id (ctxOf [vec 2 1] id) ∧ (2, Instr.add 1 work0.id) ∈ vectorRows 1 work0.id ∧
    (within 0x01 0x09 2) = true ∧ ((ctxOf [vec 2 1] id).vecRead (onTile [vec 2 1] id)).1.ints = true ∧ (elemType ((vec 2 1).f 140 136)).isInt = true ∧
    (ctxOf [vec 2 1] id).live = true :=
  ⟨⟨by decide +kernel, by decide +kernel, by decide +kernel, by decide +kernel⟩, by decide +kernel, by decide +kernel, by decide +kernel, by decide +kernel, by decide +kernel⟩

theorem wit_ComparesWriteMasks : (onTile [fvec 0x20] id).Can 1 work0.id (ctxOf [fvec 0x20] id) ∧ (0x20, Instr.cmpLt 1 work0.id) ∈ vectorRows 1 work0.id ∧
    vectorCompare 0x20 = true ∧ (fvec 0x20).f 135 128 = 0x20 :=
  ⟨⟨by decide +kernel, by decide +kernel, by decide +kernel, by decide +kernel⟩, by decide +kernel, by decide +kernel, by decide +kernel⟩

/-- A `BCAST` of element `k` of each pass of 32; a `VCOMPRESS`. -/
def bcastD (k : Nat) : Desc := ⟨(vec 0x41 1).w + k * 2 ^ 352⟩
def packD : Desc := ⟨(vec 0x42 1).w + 100 * 2 ^ 307⟩
def strictly (s : State) (c : Ctx) : State × Ctx :=
  let f (j : Job) : Job := { j with steps := j.steps.map fun x => { x with bind := [(entryKey 0x6000 4, .num 1)] } }
  ({ s with jobs := s.jobs.map f }, { c with job := f c.job, x := (f c.job).steps.headD step0 })

theorem wit_LanesAndCounts :
    (∀ k ∈ [31, 32], let p := strictly (onTile [bcastD k] id) (ctxOf [bcastD k] id)
      p.1.ctx? 1 work0.id = some p.2 ∧ p.1.canIssue p.2 = true ∧ p.2.d.bodyBads 0 = [] ∧ p.2.live = true ∧ p.2.x.strict = true ∧
        (p.2.d.outOfLane (p.2.vecRead p.1).1 = [] ↔ k = 31)) ∧
      (onTile [packD] id).ctx? 1 work0.id = some (ctxOf [packD] id) ∧ (onTile [packD] id).canIssue (ctxOf [packD] id) = true ∧ packD.bodyBads 0 = [] ∧
      packD.f 135 128 = 0x42 ∧ ((ctxOf [packD] id).vecRead (onTile [packD] id)).1.n < 2 ^ 32 := by
  decide +kernel

theorem wit_SoftmaxRows : some Val.nan ∈ [some .nan, none] ∧
    (let xs : List (Option Val) := [some (.inf false), none]
     some Val.nan ∉ xs ∧ 0 < (xs.filter fun x => x == some (.inf false)).length) ∧
    (let xs : List (Option Val) := [some (.inf true), none]
     some Val.nan ∉ xs ∧ (xs.filter fun x => x == some (.inf false)).length = 0 ∧ ∀ x ∈ xs, x = none ∨ x = some (.inf true)) ∧
    (let xs : List (Option Val) := [some (.zero false), none]
     some Val.nan ∉ xs ∧ (xs.filter fun x => x == some (.inf false)).length = 0 ∧ (∃ v, some v ∈ xs ∧ v.isFinite = true) ∧ 1 < xs.length ∧ xs.getD 1 none = none) :=
  ⟨by decide, by decide, by decide, by decide, by decide, ⟨.zero false, by decide⟩, by decide, by decide⟩

theorem wit_CurvesMeetTheirKnots : Machine.rising (([(1, 5), (4, 7)] : List (Nat × Nat)).map (·.1)) = true ∧ ([(1, 5), (4, 7)] : List (Nat × Nat)).head? = some (1, 5) ∧ 1 ≤ 1 ∧
    ([(1, 5), (4, 7)] : List (Nat × Nat)).getLast? = some (4, 7) ∧ 4 ≤ 4 := by decide

theorem wit_VectorSpecialValues : 0x22 ∈ [0x20, 0x21, 0x22] := by decide

theorem wit_ReductionsFold : (31 : Nat) ≤ 31 ∧ (0x34 = 0x30 ∨ 0x34 = 0x31 ∨ 0x34 = 0x34) := by decide

/-! ### Slips, annex calls and gathers -/

/-- A `GATHER` or `SCATTER` of one row of table 3, its indices written out (Tables 05-7, 05-8). -/
def rowD (kind : Nat) : Desc := ⟨kind + 1 * 2 ^ 64 + 3 * 2 ^ 128 + 1 * 2 ^ 144 + 16 * 2 ^ 176 + 3 * 2 ^ 192 + 64 * 2 ^ 312⟩

/-- Its row 0, home at a position. -/
def request (home : Nat) : SlipReq := { row := 0, index := some 0, out := false, seg := 0, first := 0, count := 16, home := home }

/-- The instance in flight, `slips` slips declared, these rows to ask for and these scatters delivered. -/
def moving (kind slips : Nat) (l : List SlipReq) (sent : List (Nat × Regs × Nat)) : Work :=
  { work0 with flying := [{ inst0 with kind := kind, reqs := l }], pos := 1, delivered := sent, prog := slips }
def movingJob (kind : Nat) (t : Table) : Job :=
  { working [] with
    programs := (List.range 2).map fun n => { role := 2, carrel := 4096, slips := n, descs := [rowD kind] }
    body := { body0 with tables := [t] } }
def movingOn (w : Work) (t : Table) : State :=
  { onTile [] (fun _ => w) with jobs := [movingJob ((w.flying.headD inst0).kind) t] }

theorem wit_SlipsAreIssued :
    (∀ n ∈ [0, 1], ∀ k ∈ [2, 3], ∀ h ∈ [0x0F00, 5], ∀ l ∈ [[], [(1, [0, 0, 0, 0], 1)]], ∀ o ∈ [false, true],
      let r : SlipReq := { request h with out := o }
      let w := moving k n [r] l
      let s := movingOn w table3
      let p : Program := { role := 2, carrel := 4096, slips := n, descs := [rowD k] }
      (s.unit 1).work? w.id = some w ∧ s.job? 0 = some (movingJob k table3) ∧ ((movingJob k table3).step? 0).isSome = true ∧
        (movingJob k table3).programs[w.prog]? = some p ∧
        w.flying.find? (fun i => i.reqs ≠ []) = some { inst0 with kind := k, reqs := [r] } ∧
        (s.unit 1).slipFor w.id { inst0 with kind := k, reqs := [r] } r = some 0 ∧ 0 < slipCredits ∧
        s.tileRuns 1 (movingJob k table3) = true ∧ (s.unit 1).slips = [] ∧ ((p.at 0).f 133 132 = 0) ∧ w.only = none ∧ s.holderOf h = h ∧
        (s.mine h = (h == 0x0F00)) ∧ w.delivered.contains (1, [0, 0, 0, 0], 1 + 8 * 0 + 0) = !l.isEmpty) ∧
      (let w := moving 2 1 [request 0x0F00] []
       ((movingOn w table3).served (movingJob 2 table3) ((movingJob 2 table3).steps.headD step0) 0 3 0).1 ≠ 5) ∧
      (let w := moving 3 1 [request 0x0F00] []
       ∀ r ∈ [false, true], (movingOn w table3).ledgerRoom step0 0 3 0 0 0 16 r 5 = true ∧ (crowded (movingOn w table3)).ledgerRoom step0 0 3 0 0 0 16 r 5 = false) ∧
      (let t := { table3 with placement := 1 }
       (movingJob 3 t).table? 3 = some t ∧ table3.placement ≠ 1) := by
  decide +kernel

/-- Annex calls of table 3 for row 0. -/
def call0 (id sends : Nat) (supplied stalled : Bool) : Call :=
  { id := id, table := 3, edition := 0, rows := [{ row := 0, cls := 0, segFirst := 0, segCount := 1, supplied := supplied }], sends := sends, stalled := stalled, steps := [0] }
def callingJob (l : List Call) : Job := { job0 with steps := [step0], body := { body0 with tables := [table3], calls := l } }
def calling (l : List Call) : State := { up with jobs := [callingJob l] }

/-- The job's queue with no room left in its store. -/
def brimful (l : List Call) : State := (calling l).updQueue 0 fun q => { q with reserved := 4079 }

theorem wit_AnnexRowsAreCalled :
    (∀ l ∈ [[], [call0 1 0 true false], [call0 1 0 false false], [call0 1 2 false false, call0 2 0 true false]],
      (calling l).job? 0 = some (callingJob l) ∧ (∀ c ∈ l, ∀ d ∈ l, c.id = d.id → c = d) ∧ ((calling l).callRow 0 0 3 0 0 0).2 = true) ∧
      ((brimful []).callRow 0 0 3 0 0 0).2 = false := by
  decide +kernel

/-- A slip of table 3's row 0, and where it stands. -/
def slip3 (st : SlipState) (scatter remote : Bool) (granules landed : Nat) : Slip :=
  { slip0 st with space := 0, id := 3, count := 16, scatter := scatter, remote := remote, peer := if remote then 5 else 0, granules := granules, landed := landed }
def landingOn (p : Slip) (t : Table) : State :=
  (movingOn (moving (if p.scatter then 3 else 2) 1 [] []) t).updUnit 1 fun u => { u with slips := [(0, p)] }

theorem wit_SlipsLand :
    (∀ p ∈ [slip3 .issued true false 2 0, slip3 .partly true false 2 1, slip3 .issued false false 1 0, slip3 .done false false 4 4, slip3 .issued false true 4 0],
      let s := landingOn p table3
      let j := movingJob (if p.scatter then 3 else 2) table3
      (s.unit 1).slip? 0 = some p ∧ s.job? 0 = some j ∧ (j.step? 0).isSome = true ∧ ((s.unit 1).work? p.work).isSome = true ∧ carrelWf s.carrel = true) ∧
      (let p := slip3 .issued false false 1 0
       let s := landingOn p table3
       let j := movingJob 2 table3
       s.updated j 0 3 0 = true ∧ (s.rowVals j (j.steps.headD step0) p.work 0 3 0 0 16).map List.length = some 16 ∧ (rowD 2).f 171 160 ≤ p.first ∧ p.count = 16) ∧
      (let t := { table3 with annex := [(1, 0)] }
       let p := slip3 .issued false false 1 0
       (landingOn p t).rowVals (movingJob 2 t) ((movingJob 2 t).steps.headD step0) p.work 0 3 0 0 16 = none) := by
  decide +kernel

theorem wit_FencedSlipsGoAgain :
    (∀ p ∈ [slip3 .issued false false 4 1, slip3 .fenced false false 4 1, slip3 .fenced false true 4 1],
      let s := landingOn p table3
      (s.unit 1).slip? 0 = some p ∧ s.job? 0 = some (movingJob 2 table3) ∧ s.tileRuns 1 (movingJob 2 table3) = true ∧ (moving 2 1 [] []).holds p = true ∧ (moving 2 1 [request 5] []).holds p = false ∧
        (s.unit 1).work? p.work = some (moving 2 1 [] []) ∧ s.mine 5 = false ∧ s.holderOf 5 = 5 ∧
        s.fabric.fenced.contains 5 = false) ∧
      (let s := landingOn (slip3 .fenced false true 4 1) table3
       ({ s with fabric := { s.fabric with fenced := [5] } } : State).fabric.fenced.contains (s.holderOf 5) = true) := by
  decide +kernel

/-- An earlier send of call 1 that the host has not read. -/
def unread : Response := { (callingJob []).callResponse (call0 1 1 false false) 0 with seq := 1, session := 1 }

theorem wit_RowCallsAreSent :
    (∀ c ∈ [call0 1 0 false false, call0 1 1 false false, call0 1 8 false false, call0 1 9 false false],
      let s := calling [c]
      let j := callingJob [c]
      s.job? 0 = some j ∧ j.holder = some 1 ∧ (s.live? 1).isSome = true ∧ (s.queue j.eventQueue).session = 1 ∧
        (j.body.calls.find? (fun c => c.id == 1 && c.sends == 0) = some c ↔ c.sends = 0) ∧
        (j.body.calls.find? (fun c => c.id == 1 && within 1 8 c.sends && c.rows.any fun r => !r.supplied) = some c ↔ 1 ≤ c.sends ∧ c.sends ≤ 8) ∧
        (j.body.calls.find? (fun c => c.id == 1 && c.sends == 9 && !c.stalled && c.rows.any fun r => !r.supplied) = some c ↔ c.sends = 9)) ∧
      (callingJob [call0 1 9 false false]).state = .running ∧ (call0 1 9 false false).steps.min? = some 0 ∧
      (unread.typ == .rowCall && leAt unread.payload 0 4 == 1 && bits (leAt unread.payload 0 32) 48 48 == 0) = true := by
  decide +kernel

/-- The job of position 5 that this module's job is part of, with a table of 32 rows here; a request for its row 0 and an answer to it. -/
def peering (j : Job) (p : List (Nat × Slip)) (w : Work) : State :=
  { netted port4 [assoc5] with
    jobs := [j], tileUnits := up.tileUnits.set 1 { (up.unit 1) with works := [w], slips := p } }
def headOf (step : Nat) : MsgHead := { jobKey := 7, step := step, spaceId := 3, index := 0, mb := 0, piece := 0, tile := 1, slip := 0, segFirst := 0, segCount := 1 }
def gatherMsg (step : Nat) : Msg := msg 0x0F00 1 0 (headOf step).bytes
def answerMsg : Msg := msg 0x0F00 1 0 ((headOf 0).bytes ++ toLE 32 (16 * 2 ^ 32) ++ zeros 64)

/-- Table 3 taken before step 0 was accepted; a step of number 1 after one whose update is still to come. -/
def early3 : Table := { table3 with accept := 1 }
def peerJob (n next : Nat) : Job :=
  { movingJob 2 early3 with
    steps := (List.range n).map fun k => { step0 with num := k, accept := 2 + k }
    body := { body0 with tables := [early3], nextStep := next } }

theorem peers (j : Job) (p : List (Nat × Slip)) (w : Work) (body : List Byte) : (peering j p w).Hears 2 (msg 0x0F00 1 0 body) assoc5 :=
  let h := hears assoc5 1 body rfl (by decide +kernel)
  ⟨h.up, h.order, h.mine, h.assoc, h.phase, h.fresh⟩

theorem wit_GathersForPeers :
    ((peering (peerJob 2 2) [] work0).Hears 2 (gatherMsg 0) assoc5 ∧ (peering (movingJob 2 table3) [(0, slip3 .issued false true 4 0)] (moving 2 1 [] [])).Hears 2 answerMsg assoc5) ∧
      (∀ n ∈ [0, 1, 2],
        (peering (peerJob 2 2) [] work0).jobOfKey? (msgHead (gatherMsg n).body).jobKey = some (peerJob 2 2) ∧ (peering (peerJob 2 2) [] work0).holderOf 5 = 5 ∧
          (((peerJob 2 2).step? (msgHead (gatherMsg n).body).step).isSome ↔ n < 2) ∧ (peerJob 2 2).body.nextStep = 2 ∧
          (n < 2 → (peering (peerJob 2 2) [] work0).updated (peerJob 2 2) 0 3 n = decide (n = 0))) ∧
      (let s := peering (peerJob 2 2) [] work0
       let x := (peerJob 2 2).steps.headD step0
       let i := s.spaceInfo (peerJob 2 2) x 0 3 0
       i.width = 16 ∧ (s.rowVals (peerJob 2 2) x (WorkId.none 0 0) 0 3 0 0 i.width).isSome = true ∧
         ((s.segments (peerJob 2 2) i 0 0 i.width).find? fun g => g.1 == 0 && s.mine g.2.2.2) = some (0, 0, 16, 0x0F00) ∧
         (s.served (peerJob 2 2) x 0 3 0).1 ≠ 1 ∧ s.rowPoison (peerJob 2 2) x (WorkId.none 0 0) 0 3 0 0 16 = false ∧
         (s.noteDecoded (peerJob 2 2) x (WorkId.none 0 0) 0 3 0 0 16).tiers = s.tiers) ∧
      (let s : State := { peering (peerJob 2 2) [] work0 with tiers := { up.tiers with tiles := [{ page3 with key := { page3.key with row := 0 }, poison := [0] }] } }
       let x := (peerJob 2 2).steps.headD step0
       (s.served (peerJob 2 2) x 0 3 0).1 ≠ 1 ∧ (s.rowVals (peerJob 2 2) x (WorkId.none 0 0) 0 3 0 0 16).isSome = true ∧
         (s.noteDecoded (peerJob 2 2) x (WorkId.none 0 0) 0 3 0 0 16).rowPoison (peerJob 2 2) x (WorkId.none 0 0) 0 3 0 0 16 = true) ∧
      ((peerJob 0 2).step? (msgHead (gatherMsg 1).body).step).isSome = false ∧
      (let p := slip3 .issued false true 4 0
       let w := moving 2 1 [] []
       let s := peering (movingJob 2 table3) [(0, p)] w
       let h := msgHead answerMsg.body
       (s.unit h.tile).slip? h.slip = some p ∧ s.job? p.work.slot = some (movingJob 2 table3) ∧ (s.unit h.tile).work? p.work = some w ∧
         (movingJob 2 table3).key = h.jobKey ∧ p.work.step = h.step ∧ p.id = h.spaceId ∧ p.row = h.index ∧ p.seg = h.segFirst) := by
  refine ⟨⟨peers _ _ _ _, peers _ _ _ _⟩, by decide +kernel⟩

/-! ### Ledgers and the update -/

/-- An addition of 1.0 and -inf to row 4 of a parameter's gradient, made here or staged for a position. -/
def addition (owner : Option Nat) : Addition :=
  { space := 2, id := 20, row := 4, seg := 0, raws := [(0, 0x3F800000), (1, 0xFF800000)], partials := [], owner := owner, bf16 := false, first := true }
def addingJob (l : List Addition) : Job := { job0 with steps := [{ step0 with adds := l }] }
def adding (l : List Addition) : State := { up with jobs := [addingJob l] }

theorem wit_AdditionsAreMade :
    ∀ o ∈ [none, some 5], (adding [addition o, addition none]).job? 0 = some (addingJob [addition o, addition none]) ∧
      (addingJob [addition o, addition none]).step? 0 = some { step0 with adds := [addition o, addition none] } ∧
      ({ step0 with adds := [addition o, addition none] } : StepRec).adds[0]? = some (addition o) ∧ (addition o).space < 3 ∧ (addition o).owner = o ∧
      (addition o).first = true ∧ step0.staged = [] ∧ ({ step0 with adds := [addition o, addition none] } : StepRec).adds.length ≤ 2 := by
  decide +kernel

/-- A row of table 3's ledger with one element, and the ledger. -/
def ledger3 (e : LedgerElem) (inRange : Bool) : Ledger :=
  { Ledger.fresh 0 3 0 with rows := [{ row := 0, seg := 0, near := true, elems := [(0, e)] }], inRange := inRange }
def one96 : LedgerElem := { LedgerElem.zero with sum := 2 ^ 96 }

/-- The job of this module and position 5, its step 0 with these fields. -/
def contributing (f : StepRec → StepRec) : Job :=
  { peerJob 1 2 with steps := [f step0], positions := [0x0F00, 5] }

theorem wit_PeersEndTheirContributions :
    (∀ b, (peering (contributing id) [] work0).Hears 2 (msg 0x0F00 1 0 b) assoc5) ∧
      (∀ f ∈ [id, fun x : StepRec => { x with ledgers := [Ledger.fresh 2 3 0] }], ∀ n ∈ [0, 1, 2],
        let j := contributing f
        let s := peering j [] work0
        s.jobOfKey? (msgHead (headOf n).bytes).jobKey = some j ∧ s.job? j.slot = some j ∧ ((j.step? (msgHead (headOf n).bytes).step).isSome ↔ n = 0) ∧
          j.body.nextStep = 2) ∧
      (aGet step0.promised 5 = none ∧ (contributing id).gradOf (msgHead (headOf 0).bytes).spaceId = (2, 3) ∧
        ({ step0 with ledgers := [Ledger.fresh 2 3 0] } : StepRec).ledger? 2 3 = some (Ledger.fresh 2 3 0) ∧ 5 ∉ (Ledger.fresh 2 3 0).reported) :=
  ⟨fun b => peers _ _ _ b, by decide +kernel, by decide +kernel⟩

/-- A program of the update of table 3, or of parameter 9; a step all of whose contributions are in, under a role map with that program on tile 1. -/
def updateTableD : Desc := ⟨10 + 1 * 2 ^ 64 + 1 * 2 ^ 128 + 3 * 2 ^ 192⟩
def updProgram (d : List Desc) : Program := { role := 5, carrel := 4096, slips := 0, descs := d }
def closedStep (ls : List Ledger) (us : List LayerUpdate) (roles : List (Nat × Nat)) : StepRec :=
  { step0 with ownEnd := true, ledgers := ls, updates := us, roles := roles }
def updJob (ds : List Desc) (x : StepRec) : Job :=
  { job0 with positions := [0x0F00], programs := [updProgram ds], steps := [x], body := { body0 with tables := [early3], params := [param9] } }
def updState (ds : List Desc) (x : StepRec) : State := { up with jobs := [updJob ds x] }

theorem wit_RangesAreChecked :
    (∀ e ∈ [2 ^ 127 - 1, -(2 ^ 127), 2 ^ 127], let l := ledger3 { LedgerElem.zero with sum := e } false
      let x := closedStep [l] [] []
      let j := updJob [updateTableD] x
      let s := updState [updateTableD] x
      s.job? 0 = some j ∧ j.step? 0 = some x ∧ s.contributionsIn j x = true ∧ (∀ y ∈ j.steps, y.num < 0 → y.watched = true) ∧ j.unitOfGrad x 0 3 = some ⟨1, 3⟩ ∧
        j.still x ⟨1, 3⟩ = false ∧ j.gradOwners x 0 3 = [0x0F00] ∧ s.mine 0x0F00 = true ∧ s.others j = [] ∧ x.ledger? 0 3 = some l ∧ l.inRange = false ∧
        l.reported = [] ∧ l.raising = false ∧ s.fabric.requests = [] ∧ (l.out = true ↔ e = 2 ^ 127)) ∧
      ∀ l, (updState [updateTableD] (closedStep [l] [] [])).closeContributions 0 0 = updState [updateTableD] (closedStep [l] [] []) :=
  ⟨by decide +kernel, fun _ => rfl⟩

/-- The `OWNER` reduction of tensor 20 to parameter 9 (R321), and the parameter's group skipping updates that are not finite. -/
def reducing (ls : List Ledger) : StepRec :=
  { closedStep ls [] [] with
    bind := [(entryKey 0x2340 1, .blk (toLE 8 0 ++ toLE 4 20 ++ toLE 4 9)), ((groupKey (pRecGroup param9.rec')).1 * 256 + (groupKey (pRecGroup param9.rec')).2, .blk (toLE 64 (2 ^ 9)))] }
def nanLedger : Ledger :=
  { Ledger.fresh 2 20 0 with rows := [{ row := 0, seg := 0, near := true, elems := [(0, { LedgerElem.zero with nan := true })] }], inRange := true }

/-- A table none of whose touched rows is missing has no row called. -/
theorem callTouched_none (s : State) (slot step : Nat) (u : Unit') (j : Job) (x : StepRec) (t : Table) (hj : s.job? slot = some j) (hx : s.step? slot step = some x)
    (hu : (if u.kind = 1 ∧ j.still x u = false then j.table? u.id else none) = some t)
    (hm : (s.touchedRows x t).filter (fun r => (s.rowAt j t ((x.edition? t.id).getD t.edition) r).2.isNone) = []) :
    s.callTouched slot step [u] = (s, true) := by
  simp only [State.callTouched, List.foldl_cons, List.foldl_nil, hj, hx, hu, hm, List.isEmpty_nil, Bool.and_self]

theorem wit_UpdatesStart :
    (∀ ds ∈ [[], [updateTableD]], ∀ us ∈ [[], [{ update9 true [] with layer := 4099 }]], ∀ e ∈ [one96, { one96 with nan := true }],
      let x := closedStep [ledger3 e true] us []
      let j := updJob ds x
      let s := updState ds x
      s.job? 0 = some j ∧ j.step? 0 = some x ∧ s.layerUnits j x 4099 = [⟨1, 3⟩] ∧ s.contributionsIn j x = true ∧ ((∃ l ∈ x.updates, l.layer = 4099) ↔ us ≠ []) ∧
        (∀ y ∈ j.steps, 0 ≤ y.num) ∧ j.pointsPast x = true ∧ s.dispatchOpen j = true ∧ j.still x ⟨1, 3⟩ = ds.isEmpty ∧ j.unitGrad x ⟨1, 3⟩ = some (0, 3) ∧
        (x.ledger? 0 3).map (·.inRange) = some true ∧ s.unitBad j x ⟨1, 3⟩ = e.nan) ∧
      (let s := updState [updateTableD] (closedStep [ledger3 one96 true] [] [])
       s.closeContributions 0 0 = s ∧ s.callTouched 0 0 [⟨1, 3⟩] = (s, true)) ∧
      (let x := { closedStep [] [] [] with ownEnd := false, seeds := [[(0, 0)]] }
       (updState [] x).contributionsIn (updJob [] x) x = false) := by
  refine ⟨by decide +kernel, ⟨rfl, callTouched_none _ 0 0 ⟨1, 3⟩ _ _ early3 rfl rfl (by decide +kernel) (by decide +kernel)⟩, by decide +kernel⟩

theorem wit_UnitsAreSetAside :
    (let x := reducing [nanLedger]
     let j := updJob [updateD] x
     let s := updState [updateD] x
     s.job? 0 = some j ∧ j.step? 0 = some x ∧ s.layerUnits j x (pRecLayer param9.rec') = [⟨0, 9⟩] ∧ s.contributionsIn j x = true ∧ j.scaleReady 9 0 = true ∧
       j.still x ⟨0, 9⟩ = false ∧ j.unitGrad x ⟨0, 9⟩ = some (2, 20) ∧ s.unitBad j x ⟨0, 9⟩ = true ∧ (x.group (j.unitGroup ⟨0, 9⟩)).skip = true) ∧
      (updState [updateD] (reducing [nanLedger])).callTouched 0 0 [⟨0, 9⟩] = (updState [updateD] (reducing [nanLedger]), true) :=
  ⟨by decide +kernel, rfl⟩

/-- Parameter 9's `UPDATE` on tile 1, alone or beside tile 2's, with these ranks done. -/
def updatingOn (roles : List (Nat × Nat)) (done : List (Nat × Nat × Nat)) : State × Ctx :=
  let f (j : Job) : Job := { j with steps := j.steps.map fun x => { x with roles := roles, updates := [{ update9 true [] with done := done }] } }
  ({ (updating []) with jobs := (updating []).jobs.map f }, { updateCtx [] with job := f (updateCtx []).job, x := (f (updateCtx []).job).steps.headD step0 })

theorem wit_UpdatesTakeTheirPart :
    ∀ roles ∈ [[], [(1, 5)], [(1, 5), (2, 5)]], ∀ done ∈ [[], [(0, 9, 0)]],
      let p := updatingOn roles done
      p.1.ctx? 1 work0.id = some p.2 ∧ p.1.canIssue p.2 = true ∧ p.2.d.bodyBads 0 = [] ∧ p.2.d.kind = 0x0A ∧ p.2.updateReady p.1 = true ∧ p.2.updateRoom p.1 = true ∧ p.2.updateIdle p.1 = false ∧
        p.2.d.unit.kind = 0 ∧ p.2.job.param? p.2.d.unit.id = some param9 ∧
        p.2.x.updates.find? (fun l => l.layer == p.2.job.unitLayer p.2.d.unit) = some { update9 true [] with done := done } ∧
        (p.2.job.updateTiles p.2.x p.2.d.unit).length = roles.length ∧
        (p.1.ranksFor (p.2.job.updateTiles p.2.x p.2.d.unit) 1).filter (fun r => !done.contains (0, 9, r)) = if roles ≠ [] ∧ done = [] then [0] else [] := by
  decide +kernel

/-- An `SPMM` by tile (0, 0) of tensor 7 (Table 08-4). -/
def spmmD : Desc := ⟨5 + 1 * 2 ^ 64 + 7 * 2 ^ 320⟩

/-- The small module's tile 1 at the first of these descriptors, with these tiles stored and their first bytes poisoned. -/
def poisoned (ds : List Desc) (j : Job) (l : List TileKey) : State :=
  { onTile ds id with
    jobs := [j], tiers := { up.tiers with tiles := l.map fun k => { weight7 with key := k, tier := .near, poison := [0] } } }
def poisonedCtx (ds : List Desc) (j : Job) : Ctx := { ctxOf ds id with job := j, x := j.steps.headD step0 }

/-- The job of the update of table 3 whose ledger has row 0. -/
def touching : Job :=
  { updJob [updateTableD] (closedStep [ledger3 one96 true] [{ layer := 4099, started := true, released := false, done := [], skip := [], orth := [] }] [(1, 5)]) with
    programs := [{ role := 2, carrel := 4096, slips := 0, descs := [updateTableD] }] }

theorem wit_PoisonedOperandsHold :
    (let s := poisoned [spmmD] (working [spmmD]) [weight7.key]
     let c := poisonedCtx [spmmD] (working [spmmD])
     s.ctx? 1 work0.id = some c ∧ s.canIssue c = true ∧ c.d.bodyBads 0 = [] ∧ c.d.kind = 5 ∧ c.adjacencyKeys.any s.tilePoisoned = true) ∧
    (let s := poisoned [matmulD true] (working [matmulD true]) [weight7.key]
     let c := poisonedCtx [matmulD true] (working [matmulD true])
     s.ctx? 1 work0.id = some c ∧ s.canIssue c = true ∧ c.d.bodyBads 0 = [] ∧ c.d.kind = 4 ∧ c.weightReady s = true ∧ c.weightLate s = false ∧
       c.weightKeys.any s.tilePoisoned = true) ∧
    (let j := (sampling [(5, 0)] []).jobs.headD job0
     let s := poisoned [sampleD] j [spaceKey .catalogue 0 2 0 0 0]
     let c := poisonedCtx [sampleD] j
     s.ctx? 1 work0.id = some c ∧ s.canIssue c = true ∧ c.d.bodyBads 0 = [] ∧ c.d.kind = 1 ∧ (c.sampleReads s).any s.tilePoisoned = true) ∧
    (let s := poisoned [updateTableD] touching [{ weight7.key with space := .table, id := 3, edition := 1 }]
     let c := poisonedCtx [updateTableD] touching
     s.ctx? 1 work0.id = some c ∧ s.canIssue c = true ∧ c.d.bodyBads 0 = [] ∧ c.d.kind = 10 ∧ c.updateReady s = true ∧
       (c.updateReads s).any s.tilePoisoned = true) := by
  decide +kernel

theorem wit_LayersAreReleased :
    ∀ roles ∈ [[], [(1, 5)]], ∀ done ∈ [[], [(1, 3, 0)]],
      let l : LayerUpdate := { layer := 4099, started := true, released := false, done := done, skip := [], orth := [] }
      let x := closedStep [ledger3 one96 true] [l] roles
      let j := updJob [updateTableD] x
      let s := updState [updateTableD] x
      s.job? 0 = some j ∧ j.step? 0 = some x ∧ x.updates.find? (fun l => l.layer == 4099 && !l.released) = some l ∧ s.layerUnits j x 4099 = [⟨1, 3⟩] ∧
        (j.unitDone x l ⟨1, 3⟩ = (roles.isEmpty || !done.isEmpty)) ∧ s.fabric.requests = [] ∧ (∀ u ∈ s.tileUnits, u.works = []) := by
  decide +kernel

/-! ### Checks, records and the end of a step; tiles that fail -/

/-- Layer 2 of group 0 of role 2 with its one tensor 7, E4M3, and rungs up to FP32 (Tables 10-1, 10-3). -/
def tensor7 : Nat := 3 + 2 * 2 ^ 5 + 1 * 2 ^ 19 + 7 * 2 ^ 32
def layer2 : Nat := 2 + 2 * 2 ^ 16 + 2 * 2 ^ 48
def part7 (n zeros bad : Nat) (a : Val) : HealthPart :=
  { tensor := 7, work := work0.id, elements := n, zeros := zeros, saturated := 0, nonfinite := bad, amax := a, pruned := 0, prunedBad := false }
def check2 (rung : Nat) (passed : Bool) : LayerCheck := { layer := 2, mb := 0, rung := rung, passed := passed, nonfinite := false }
/-- A `COMPRESS` of tensor 7. -/
def writeD : Desc := ⟨9 + 1 * 2 ^ 64 + 7 * 2 ^ 192⟩
def layerStep (cs : List LayerCheck) (bad enable : Nat) (done : Bool) : StepRec :=
  { step0 with seeds := [[(5, 0)]], pieces := [piece0], formed := [0], dispatched := [(work0.id, 1)], completed := if done then [work0.id] else [],
               parts := [part7 1024 0 bad (.zero false)], checks := cs, bind := [(entryKey 0x5220 1, .num enable)] }
def layerJob (x : StepRec) : Job := { (working [writeD]) with tensors := [tensor7], layers := [layer2], steps := [x] }
def layered (x : StepRec) : State := { up with jobs := [layerJob x], tileUnits := up.tileUnits.set 1 { (up.unit 1) with works := if x.completed = [] then [work0] else [] } }

theorem wit_LayersAreChecked :
    (∀ p ∈ [(0, 0, 1), (1, 0, 1), (1, 1, 1), (1, 2, 1), (1, 0, 0)], let x := layerStep [check2 p.2.1 false] p.1 p.2.2 true
      let j := layerJob x
      let s := layered x
      s.job? 0 = some j ∧ j.step? 0 = some x ∧ j.layer? 2 = some layer2 ∧ s.layerWritten j x layer2 0 = true ∧ x.layerPassed 2 0 = false ∧ 0 < x.seeds.length ∧
        x.rung j 2 0 = p.2.1 ∧ (j.rungs 2).length = 2 ∧ (j.layerTrips x layer2 0 = true ↔ p.1 = 1) ∧ (x.num' 0x5220 1 = p.2.2) ∧ (j.layerNonfinite x layer2 0 = true ↔ p.1 = 1) ∧
        x.reductions = [] ∧ (∀ q ∈ x.dispatched, s.stageOf j q.1.role q.1.group = none) ∧ (∀ q ∈ x.dispatched, q.1.slot = 0 ∧ q.1.step = 0) ∧ (x.dispatched.map (·.1)).Nodup ∧
        x.worksOf (bits layer2 19 16) (bits layer2 23 20) 0 = [(work0.id, 1)] ∧ (s.unit 1).lost = false ∧ x.nonfinite = false) ∧
      (layered (layerStep [] 0 0 false)).layerWritten (layerJob (layerStep [] 0 0 false)) (layerStep [] 0 0 false) layer2 0 = false ∧
      (layerStep [check2 0 true] 0 0 true).layerPassed 2 0 = true := by
  decide +kernel

/-- A step with nothing of its own left to do but its records: everything written, closed and checked. -/
def watchedJob (r : Nat) (w : List Watch) (x : StepRec) : Job := { job0 with positions := [0x0F00], tensors := [r], steps := [x], body := { body0 with watches := w } }
def watch7 (h : List Val) (run : Nat) (e : Int) : Watch := { tensor := 7, exps := [(0, e)], history := h, zeroRun := run, limited := false }
def writtenStep (ps : List HealthPart) (bind : List (Nat × DVal)) (scaled : List Nat) : StepRec :=
  { step0 with seeds := [], ownEnd := true, parts := ps, bind := bind, scaled := scaled }
def watching (r : Nat) (w : List Watch) (x : StepRec) : State := { up with jobs := [watchedJob r w x] }

theorem wit_ScalesFollowTheAmax :
    (∀ w ∈ [[], [watch7 [.ofInt 3] 0 0]], ∀ ps ∈ [[], [part7 1024 0 0 (.ofInt 1000)]],
      let x := writtenStep ps [] []
      let j := watchedJob tensor7 w x
      let s := watching tensor7 w x
      s.job? 0 = some j ∧ j.step? 0 = some x ∧ j.tensor? 7 = some tensor7 ∧ s.allWritten j x = true ∧ 7 ∉ x.scaled ∧ (∀ y ∈ j.steps, y.num < 0 → 7 ∈ y.scaled) ∧
        ((j.watchOf 7).history = [] ↔ w = []) ∧ j.step? 1 = none ∧ 0 < j.num 0x5110 1 ∧ ((∃ p ∈ x.parts, p.tensor = 7) ↔ ps ≠ [])) := by
  decide +kernel

theorem wit_ExponentsAreLeast : (Val.ofInt 1000).isFinite = true ∧ (Val.ofInt 1000).le (.fin false 448 1 127) = true := by decide +kernel

def stuck7 : Nat := tensor7 + 2 ^ 20

theorem wit_ZerosAreWatched :
    (∀ r ∈ [tensor7, stuck7], ∀ n ∈ [0, 1024], ∀ policy ∈ [0, 1], ∀ run ∈ [98, 99], ∀ e ∈ [-123, -124],
      let x := writtenStep [part7 n n 0 (.zero false)] [(entryKey 0x5210 1, .num 100), (entryKey 0x5210 2, .num policy)] [7]
      let w := [watch7 [.ofInt 3] run e]
      let j := watchedJob r w x
      let s := watching r w x
      s.job? 0 = some j ∧ j.step? 0 = some x ∧ j.tensors = [r] ∧ x.watched = false ∧ s.allWritten j x = true ∧ tRecTensor r ∈ x.scaled ∧
        (∀ y ∈ j.steps, y.num < 0 → y.watched = true) ∧ (tRecStuck r = true ↔ r = stuck7) ∧ x.num' 0x5210 1 = 100 ∧ x.num' 0x5210 2 = policy ∧ j.exp 7 0 = e ∧
        (j.watchOf 7).zeroRun = run ∧ (j.watchOf 7).limited = false ∧ j.replays 0 = false) ∧
      (let x := writtenStep [part7 1024 1024 0 (.zero false)] [(entryKey 0x5210 1, .num 100), (entryKey 0x5210 2, .num 0)] [7]
       let j : Job := { watchedJob tensor7 [watch7 [.ofInt 3] 99 0] x with decisions := [{ record4 true with kind := 8, body := zeros 12 }, { record4 true with kind := 0x0B }] }
       let s : State := { up with jobs := [j] }
       s.job? 0 = some j ∧ j.step? 0 = some x ∧ s.allWritten j x = true ∧ j.replays 0 = true ∧ ¬ ∃ q ∈ j.logged 8 0, leAt q.body 0 4 = 7) := by
  decide +kernel

/-- A step due for a refresh, or not. -/
def refreshStep (every : Nat) (refreshed : Bool) : StepRec := { closedStep [] [] [] with bind := [(entryKey 0x6110 1, .num every)], refreshed := refreshed }
def refreshJob (x : StepRec) : Job := { job0 with positions := [0x0F00], steps := [x] }

theorem wit_RefreshesRun :
    (∀ p ∈ [(1, false), (2, false), (1, true)], let x := refreshStep p.1 p.2
      let j := refreshJob x
      let s : State := { up with jobs := [j] }
      s.job? 0 = some j ∧ j.step? 0 = some x ∧ (x.refreshDue = true ↔ p.1 = 1) ∧ x.refreshed = p.2 ∧ s.allReleased j x = true ∧ x.updates.length = (s.ownedLayers j x).length ∧
        s.contributionsIn j x = true ∧ (∀ y ∈ j.steps, y.num < 0 → y.refreshDue = true → y.refreshed = true) ∧ j.body.tables = [] ∧ j.body.shelf = [] ∧ j.body.shelfSet = []) ∧
      (let t : Table := { table3 with narrowest := 3, widest := 0, hot8 := 1, hot16 := 2, hot32 := 3 }
       t.narrowest ≤ 3 ∧ t.widest ≤ t.narrowest ∧ t.hot8 ≤ t.hot16 ∧ t.hot16 ≤ t.hot32 ∧ 2 ≤ 3 ∧ t.hot32 ≤ 3 ∧ 0 < t.hot8) := by
  decide +kernel

def endLog (committed : Bool) : LogRec := { record4 true with kind := 0x0B, opcode := 0, committed := committed }
def endingJob (recorded : Bool) (log : List LogRec) (x : StepRec) : Job := { job0 with positions := [0x0F00], log := log, steps := [{ x with recorded := recorded, watched := true }] }

theorem wit_StepsComplete :
    ((∀ p ∈ [(false, []), (true, [endLog false]), (true, [endLog true])], let x : StepRec := { refreshStep 2 false with recorded := p.1, watched := true }
      let j := endingJob p.1 p.2 (refreshStep 2 false)
      let s : State := { up with jobs := [j] }
      x.ownEnd = true ∧ s.job? 0 = some j ∧ j.step? 0 = some x ∧ s.stepDone j x = true ∧ x.recorded = p.1 ∧ j.state = .running ∧
        s.fabric.requests = [] ∧ j.deferred = [] ∧ (∀ h ∈ j.body.held, h.changed = false) ∧
        ((∃ z ∈ j.log, z.kind = 0x0B ∧ z.step = 0 ∧ z.committed = false) ↔ p.2 = [endLog false]) ∧
        ((∀ z ∈ j.log, z.kind = 0x0B → z.step = 0 → z.committed = true) ↔ p.2 ≠ [endLog false])) ∧
      (let j : Job := { endingJob false [] (refreshStep 2 false) with fenced := true }
       let s : State := { up with jobs := [j] }
       s.stepDone j (j.steps.headD step0) = false)) ∧
    (({ up with jobs := [endingJob false [] (refreshStep 2 false)] } : State).closeContributions 0 0 = { up with jobs := [endingJob false [] (refreshStep 2 false)] }) ∧
      (({ up with jobs := [endingJob true [endLog false] (refreshStep 2 false)] } : State).closeContributions 0 0 =
        { up with jobs := [endingJob true [endLog false] (refreshStep 2 false)] }) ∧
      (({ up with jobs := [endingJob true [endLog true] (refreshStep 2 false)] } : State).closeContributions 0 0 =
        { up with jobs := [endingJob true [endLog true] (refreshStep 2 false)] }) ∧
      (let j : Job := { endingJob false [] (refreshStep 2 false) with fenced := true }
       ({ up with jobs := [j] } : State).closeContributions 0 0 = { up with jobs := [j] }) :=
  ⟨by decide +kernel, rfl, rfl, rfl, rfl⟩

/-- Tile 1 in role 2, or none, with these spares on its die. -/
def spared (role : Nat) (sp : List Nat) (f : Tile → Tile) : State :=
  { up with spares := [sp, [], [], []], dict := [(entryKey 0x4010 2, .num role)], tileUnits := up.tileUnits.set 1 (f (up.unit 1)) }

theorem wit_TilesRetire :
    (∀ role ∈ [0, 2], ∀ sp ∈ [[], [64, 65]], let s := spared role sp fun u => { u with slips := [(0, slip0 .issued), (1, slip0 .done)] }
      1 < 256 ∧ s.tileUnits.length = 256 ∧ (s.unit 1).lost = false ∧ (s.unit 1).retiring = none ∧ s.spares.getD (1 / 64) [] = sp ∧ (s.unit 1).works = [] ∧
        (s.roleWord 1 = role) ∧ (heldHalves (s.roleWord 1) = [] ↔ role = 0) ∧
        (role = 2 → ((heldHalves (s.roleWord 1)).any fun h => (s.heirOf (s.jobRoles (roleSlot (s.roleWord 1))) 1 h).isNone) = true)) ∧
      (let s := { spared 2 [] id with dict := [(entryKey 0x4010 2, .num 2), (entryKey 0x4010 3, .num 2)] }
       s.roleWord 1 = 2 ∧ ((heldHalves (s.roleWord 1)).any fun h => (s.heirOf (s.jobRoles (roleSlot (s.roleWord 1))) 1 h).isNone) = false) ∧
      (up.num 0x4100 1 ≤ up.num 0x4100 1 ∧ up.num 0x4100 1 < up.num 0x4100 1 + 1) ∧
      ((flyingOn 1 [flight 6 true 0] []).unit 1).flying ≠ [] ∧
      (∀ r ∈ [0, 1, 2], let l := if r = 1 then [] else [work0]
        let s : State := { spared 2 [64, 65] fun u => { u with retiring := some (r, 64), works := l, slips := [(0, slip0 .fenced)] } with jobs := [{ job0 with steps := [step0] }] }
        s.tileUnits.length = 256 ∧ s.spares.length = 4 ∧ (s.unit 1).retiring = some (r, 64) ∧ (s.unit 1).unchecked = [] ∧ (s.unit 1).works = l ∧
          s.job? 0 = some { job0 with steps := [step0] } ∧ ({ job0 with steps := [step0] } : Job).step? 0 = some step0) ∧
      (spared 2 [] id).spares.length = 4 ∧ ((spared 2 [64] id).unit 1).retiring = none := by
  decide +kernel

theorem wit_PoisonIsConsumed :
    (let s := layered (layerStep [] 0 0 true)
     s.job? 0 = some (layerJob (layerStep [] 0 0 true)) ∧ s.carrelPoison.contains (1 * 2 ^ 17 + 5) = false ∧ s.poisonedAt 5 = none ∧
       (s.unit 1).lost = false ∧ (s.unit 1).retiring = none ∧ 1 < s.tileUnits.length) ∧
      (let x := closedStep [{ Ledger.fresh 0 3 0 with k := 2 }] [] []
       let s := updState [updateTableD] x
       (s.job? 0).isSome = true ∧ x.ledger? 0 3 = some { Ledger.fresh 0 3 0 with k := 2 } ∧ s.fabric.requests = []) ∧
      ({ (tiered false [{ weight7 with devGranule := 4, poison := [1] }]) with jobs := [job0] } : State).poisonedAt 5 =
        some { weight7 with devGranule := 4, poison := [1] } ∧
      (spared 2 [64] id).spares.getD (1 / 64) [] = [64] := by
  decide +kernel

def branchAt (b least tgt : Nat) : BranchAt := { b := b, least := least, now := 2, work := 1, tgt := tgt, rem := 0 }

theorem wit_BranchesRebalance :
    (up.job? 0 = none ∧ ({ up with jobs := [job0] } : State).job? 0 = some job0 ∧ job0.num 0x4210 1 ≠ 0 ∧ job0.body.lastDone = none ∧ job0.branches = [] ∧
        ∀ p ∈ ([(0, 0)] : List (Nat × Nat)), p.2 = 0) ∧
      job0.worthMoving (up.branchAims 0 0 job0 []) = false ∧
      (let l := [branchAt 0 1 3, branchAt 1 1 1]
       (∀ x ∈ l, x.least ≤ x.tgt) ∧ sum (l.map (·.least)) ≤ 2 ∧ sum (l.map (·.tgt)) ≤ 2 + 2 ∧ (l.map (·.b)).Nodup ∧ 2 ≤ l.length) := by
  decide +kernel

/-- Branches 0 and 1 of virtual stage 0, a tile each at least, and a job whose step 2 is the last done, every step due, `m` moves allowed, no hysteresis; tiles 1 to 3 on
branch 0, tile 4 on branch 1 (Tables 12-2, 12-5). -/
def branching (m : Nat) : Job :=
  { job0 with
    branches := [1 * 2 ^ 64, 1 + 1 * 2 ^ 64], steps := [{ step0 with num := 3, roles := [(3, 6)], dispatched := [] }]
    body := { body0 with lastDone := some 2, dict := [(entryKey 0x4210 1, .num 1), (entryKey 0x4210 2, .num m), (entryKey 0x4210 3, .num 0)] } }
def branched (m : Nat) : State :=
  { up with jobs := [branching m], dict := [(entryKey 0x4010 2, .num 6), (entryKey 0x4010 3, .num 6), (entryKey 0x4010 4, .num 6), (entryKey 0x4010 5, .num (6 + 17 * 2 ^ 16))] }

theorem wit_TilesMoveBetweenBranches :
    ∀ m ∈ [1, 2], let s := branched m
      let j := branching m
      let l := s.branchAims 0 0 j [(0, 1), (1, 9)]
      s.job? 0 = some j ∧ j.body.lastDone = some 2 ∧ j.num 0x4210 1 = 1 ∧ (2 + 1) % 1 = 0 ∧ j.num 0x4210 2 = m ∧ j.worthMoving l = true ∧
        (furthest l (fun x => x.now - x.tgt)).map (·.b) = some 0 ∧ (furthest l (fun x => x.tgt - x.now)).map (·.b) = some 1 ∧
        (s.branchTiles 0 0).getLast? = some 3 ∧ branchRec? j 1 = some (1 + 1 * 2 ^ 64) ∧ s.tileUnits.length = 256 ∧
        j.stageBegun (j.steps.headD step0) 0 = false := by
  decide +kernel

/-! ### Well-formedness: terms that it refuses, each beside one at the edge of its range that it admits -/

theorem test_wf_queues : Instr.wf (.nop 0x400) = false ∧ Instr.wf (.nop 0x3FF) = true ∧ Instr.wf (.doorbell 0 (2 ^ 32)) = false ∧
    Instr.wf (.queueRegisterWrite 0 64 0) = false ∧ Instr.wf (.queueRegisterWrite 0 2 0) = false ∧ Instr.wf (.queueRegisterWrite 0 0x3C (2 ^ 64 - 1)) = true ∧
    Instr.wf (.dictWrite 0x400) = false := by decide

theorem test_wf_packets : Instr.wf (.packetSlotWrite 0 65535 [1, 2]) = false ∧ Instr.wf (.packetSlotWrite 0 65534 [1, 2]) = true ∧
    Instr.wf (.packetTake 0 (some (zeros 16385))) = false := by decide +kernel

theorem test_wf_links : Instr.wf (.cxlLinkTrained 3 64) = false ∧ Instr.wf (.cxlLinkTrained 8 65) = false ∧ Instr.wf (.cxlLinkTrained 1 8) = true := by decide

theorem test_wf_sessions : Instr.wf (.heartbeat 0x10000) = false ∧ Instr.wf (.heartbeat 0xFFFF) = true ∧ Instr.wf (.getMeasurements 256) = false ∧
    Instr.wf (.getCertificate 0x10000 0) = false := by decide

/-- The work item's name with one field out of range. -/
def badNames : List WorkId :=
  [{ work0.id with slot := 4 }, { work0.id with step := 2 ^ 64 }, { work0.id with mb := 4096 }, { work0.id with piece := 65536 }, { work0.id with role := 7 }, { work0.id with group := 16 }]

theorem test_wf_work : (∀ w ∈ badNames, Instr.wf (.copy 0 w) = false) ∧ Instr.wf (.copy 256 work0.id) = false ∧ Instr.wf (.copy 255 work0.id) = true ∧
    Instr.wf (.workItemDispatch 0 2 work0.id) = false ∧ Instr.wf (.slipLand 0 1024) = false ∧ Instr.wf (.slipLand 0 1023) = true := by decide

theorem test_wf_jobs : Instr.wf (.logCommit 4 true) = false ∧ Instr.wf (.stepComplete 0 (2 ^ 64)) = false ∧ Instr.wf (.rowCallClose 0 (2 ^ 32)) = false ∧
    Instr.wf (.layerCheck 0 0 4096 0) = false ∧ Instr.wf (.layerCheck 0 0 0 4096) = false ∧ Instr.wf (.layerCheck 3 (2 ^ 64 - 1) 4095 4095) = true := by decide

theorem test_wf_tiles : Instr.wf (.tileRetire 0 3 0) = false ∧ Instr.wf (.tileRetire 256 0 0) = false ∧ Instr.wf (.poisonConsumed 4 0 work0.id false 0 0 0) = false ∧
    Instr.wf (.poisonConsumed 3 255 work0.id false 0 (2 ^ 32 - 1) 0) = true := by decide

theorem test_wf_memory : Instr.wf (.moveCommit { weight7.key with row := 2 ^ 36 }) = false ∧ Instr.wf (.moveCommit { weight7.key with col := 2 ^ 20 }) = false ∧
    Instr.wf (.moveCommit weight7.key) = true ∧ Instr.wf (.promotion 3 0 0 0 weight7.key) = false ∧ Instr.wf (.promotion 0 4 0 0 weight7.key) = false ∧
    Instr.wf (.scrub 26 0 0 0 (.far 0 (zeros 288)) 0) = false ∧ Instr.wf (.scrub 25 0 0 0 (.far 0 (zeros 36)) 0) = false ∧
    Instr.wf (.scrub 7 0 0 0 (.near (zeros 36)) 0) = true ∧ Instr.wf (.scrub 25 0 0 0 (.far 0 (zeros 288)) 0) = true := by decide +kernel

theorem test_wf_dma : Instr.wf (.dmaPost 64 fill1) = false ∧ Instr.wf (.dmaPost 63 { fill1 with length := 2 ^ 24 }) = false ∧ Instr.wf (.dmaPost 63 { fill1 with priority := 8 }) = false ∧
    Instr.wf (.dmaAccessFault 0 4 0 0) = false ∧ Instr.wf (.dmaAccessFault 0 3 2 0) = false ∧ Instr.wf (.dmaAccessFault 0 3 1 0) = true := by decide

theorem test_wf_fabric : Instr.wf (.null 12 (msg 0 0 0 [])) = false ∧ Instr.wf (.null 0 (msg 0x1000 0 0 [])) = false ∧ Instr.wf (.null 0 (msg 0 (2 ^ 48) 0 [])) = false ∧
    Instr.wf (.null 0 (msg 0 0 4096 [])) = false ∧ Instr.wf (.null 11 (msg 0x0FFF (2 ^ 48 - 1) 4095 [])) = true ∧ Instr.wf (.laneFault 0 4) = false ∧
    Instr.wf (.creditWaitLong 0 4 0) = false ∧ Instr.wf (.linkReplay 11 0 false false 0) = false ∧ Instr.wf (.keyUpdateDue 0x1000) = false := by decide

theorem test_wf_services : Instr.wf (.gdpRead { frame 1 0 0 0 0 true [] with subindex := 256 }) = false ∧ Instr.wf (.gdpRead { frame 1 0 0 0 0 true [] with reqId := 2 ^ 32 }) = false ∧
    Instr.wf (.gdpRead (frame 1 0 0 0 0 true (zeros 1025))) = false ∧ Instr.wf (.gdpRead (frame 1 0x10000 0 0 0 true [])) = false ∧ Instr.wf (.gdpRead (frame 1 0xFFFF 255 0 0 true [])) = true := by
  decide +kernel

theorem test_wf_sensors : Instr.wf (.thermalSample [25000]) = false ∧ Instr.wf (.phaseLost 10 0) = false ∧ Instr.wf (.dieSleep 4) = false ∧ Instr.wf (.eyeScan 56 0 0) = false ∧
    Instr.wf (.memoryTrained [26]) = false ∧ Instr.wf (.memoryTrained [0, 25]) = true := by decide

/-! ### The spec's worked examples -/

/-- Chapter 7: the label check of the string "123456789". -/
theorem test_label_check : crc16 ([0x31, 0x32, 0x33, 0x34, 0x35, 0x36, 0x37, 0x38, 0x39] : List Byte) = 0x29B1 := by decide +kernel

/-- Chapter 5, one row from two modules: 1.5 × 2^−97 becomes 1 and 2^−98 nothing. -/
theorem test_addends_round : ledgerInt 0 (.fin false 3 1 (-98)) = 1 ∧ ledgerInt 0 (.fin false 1 1 (-98)) = 0 := by decide +kernel

/-- The same example: the BF16 addends of element 17 come to 0xF0000000_00000000_00000001, which rounds to 0.9375. -/
theorem test_row_total :
    let l := [0x3EC0, 0xBE00, 0x0F40, 0xBE80, 0x3D80, 0x3E00, 0x0E80, 0xBF00, 0x3F40, 0x3F00].map fun r => (17, r)
    let e := aGetD (addRaws 0 .bf16 l []).1 17 LedgerElem.zero
    e.sum = 0xF00000000000000000000001 ∧ round32 (e.val 0) = 0x3F700000 := by decide +kernel

/-- Chapter 6, one page at a refresh: m of 65 makes the page `W16`, m of 30 `W8`; a row of largest magnitude 3.4 takes 2^−7. -/
theorem test_page_width :
    (let t : Table := { table3 with widest := 1, narrowest := 2, hot32 := 0xFFFF, hot16 := 32, hot8 := 0 }
     t.classFor 65 = 1 ∧ t.classFor 42 = 1 ∧ t.classFor 30 = 2) ∧ leastExp (.fin false 17 5 0) 448 = -7 := by decide +kernel

/-- The same example: 409.6 lies between 384 and 416, and the nearer is 416. -/
theorem test_e4m3_neighbours : (decodeElem .e4m3 (toElem .e4m3 0 .nearest (.fin false 2048 5 0)).bits).eq (.ofInt 416) = true ∧
    (decodeElem .e4m3 (toElem .e4m3 0 .nearest (.ofInt 384)).bits).eq (.ofInt 384) = true := by decide +kernel

/-- Chapter 9, a tail permutation: pass 1 of 201 elements holds 73 from element 128. -/
theorem test_tail_pass : passOf 201 128 140 = (128, 73) ∧ passOf 201 128 127 = (0, 128) ∧ passOf 201 64 200 = (192, 9) := by decide

/-- Chapter 10, rescaling a stuck gradient: E5M2 at e = −20, the run reaching the threshold of 64 after step 0 here, gives event 0x5201 and −24. -/
theorem test_stuck_rescale :
    let r := 4 + 1 * 2 ^ 20 + 0x410 * 2 ^ 32
    let x := { writtenStep [{ part7 8 8 0 (.zero false) with tensor := 0x410 }] [(entryKey 0x5210 1, .num 64), (entryKey 0x5210 2, .num 1)] [0x410] with watched := false }
    let t := after (.stuckZeroWatch 0 0) (watching r [{ watch7 [.ofInt 1] 63 (-20) with tensor := 0x410 }] x)
    ((t.job? 0).map fun k => k.exp 0x410 1) = some (-24) ∧ (t.log.records.getLast?.map fun e => (e.code, e.arg0, e.arg1)) = some (0x5201, 0x410, 1) := by decide +kernel

/-- Chapter 10, a layer repeated: 5.1 takes 2^−6 and 11 takes 2^−5 in E4M3. -/
theorem test_layer_scale : leastExp (.fin false 51 10 0) 448 = -6 ∧ leastExp (.ofInt 11) 448 = -5 := by decide +kernel

/-- The same example: 2,048 saturated of 1,572,864 trips the check at a share of 2^−10, and 1,536 does not. -/
theorem test_saturation_share : ∀ p ∈ [(2048, true), (1536, false)],
    let x := { layerStep [] 0 1 true with parts := [{ part7 1572864 0 0 (.zero false) with saturated := p.1 }], bind := [(entryKey 0x5220 2, .num 0x3A800000)] }
    (layerJob x).layerTrips x layer2 0 = p.2 := by decide +kernel

/-- Chapter 22, the saturation threshold in band: the payload 20 52 02 01 … 00 00 80 3B sets it. -/
def thresholdWrite (v : List Byte) : State := asked job0 0x40 0 ([0x20, 0x52, 0x02, 0x01] ++ zeros 12 ++ v)

theorem test_threshold_write : ((after (.dictWrite 0) (thresholdWrite [0, 0, 0x80, 0x3B])).job? 0).map (fun k => k.num 0x5220 2) = some 0x3B800000 := by decide +kernel

/-- The same example: 2.0 is refused with `RANGE` at offset 16, and the threshold stays. -/
theorem test_threshold_range :
    let t := after (.dictWrite 0) (thresholdWrite [0, 0, 0, 0x40])
    ((t.queue 0).store.map fun r => (r.status == .range, leAt r.payload 0 4)) = [(true, 16)] ∧
      (t.job? 0).map (fun k => k.num 0x5220 2) = some (job0.num 0x5220 2) := by decide +kernel

/-- The same example: the description of 0x5220:02 has the low word 0x5308 and `SIZE` 4. -/
theorem test_description :
    (let s : State := { up with sessions := [{ session1 with describe := 0x00025220 }] }
     leNat ((s.description { session := 1, gdp := false, job := none }).take 8)) = 0x5308 + 4 * 2 ^ 32 := by decide +kernel

/-! ### Results worked out by hand -/

/-- R182: 100 + 100 saturates at 127 in INT8, and −100 − 100 at −128. -/
theorem test_int8_saturates : satInt .int8 200 = ⟨127, true, false⟩ ∧ satInt .int8 (-200) = ⟨128, true, false⟩ ∧ satInt .int8 (-1) = ⟨255, false, false⟩ := by decide +kernel

/-- R76: ⌊(w × n) / 2^32⌋. -/
theorem test_uniform : uniform (2 ^ 32 - 1) 10 = 9 ∧ uniform (2 ^ 31) 10 = 5 ∧ uniform 0 10 = 0 := by decide

/-- R472: before the module is ready a doorbell is counted in 0x2210:03 and takes no slot. -/
theorem test_early_doorbell :
    let s : State := { up with bring := { up.bring with ready := false } }
    (after (.doorbell 5 0x40) s).num 0x2210 3 = 1 ∧ ((after (.doorbell 5 0x40) s).queue 5).bells = [] ∧ ((after (.doorbell 5 0x40) up).queue 5).bells = [(0, 64)] := by
  decide +kernel

/-- Table 10-6: two positions at +inf share the row, a NaN takes it whole. -/
theorem test_softmax_special :
    (softmaxRow [some (.inf false), none, some (.inf false), some (.ofInt 3)]).1.map (fun v => v.eq (.fin false 1 2 0)) = [true, false, true, false] ∧
      (softmaxRow [some .nan, none]).1 = [.nan, .zero false] := by decide +kernel

/-- R183: compares with NaN. -/
theorem test_compare_nan : vecCompare 0x22 .nan .nan = false ∧ vecCompare 0x23 .nan .nan = true ∧ vecCompare 0x21 (.zero true) (.zero false) = true := by decide +kernel
end Sys2Proof.Tests
end

section
/-!
What the unauthenticated answer of a packet refused at steps 1 to 4 changes and leaves (R275), and the packet whose session id names no live session (R20).
-/
namespace Sys2Proof.Machine
open Sys2Proof

/-! ### Releasing the room reserved at take -/

@[simp] theorem State.inFlight_releaseRoom (s : State) (q opcode : Nat) : (s.releaseRoom q opcode).port.inFlight = s.port.inFlight := by
  unfold State.releaseRoom
  split <;> rfl

@[simp] theorem State.lastSeq_releaseRoom (s : State) (q opcode : Nat) : ((s.releaseRoom q opcode).queue q).lastSeq = (s.queue q).lastSeq := by
  unfold State.releaseRoom
  split <;> simp

@[simp] theorem State.store_releaseRoom (s : State) (q opcode : Nat) : ((s.releaseRoom q opcode).queue q).store = (s.queue q).store := by
  unfold State.releaseRoom
  split <;> simp

/-! ### The unauthenticated answer -/

/-- The unauthenticated final response of a command: `SESSION` 0 and `RSP_SEQ` 0 (R275). -/
def bareResponse (c : Command) (st : Status) (payload : List Byte) : Response :=
  { typ := finalType c.opcode, status := st, queue := c.queue, session := 0, seq := 0, tag := c.tag, step := 0, retry := 0, payload := payload, cmd := none }

@[simp] theorem State.inFlight_answerBare (s : State) (c : Command) (st : Status) (payload : List Byte) :
    (s.answerBare c st payload).port.inFlight = s.port.inFlight := by simp [State.answerBare]

@[simp] theorem State.lastSeq_answerBare (s : State) (c : Command) (st : Status) (payload : List Byte) :
    ((s.answerBare c st payload).queue c.queue).lastSeq = (s.queue c.queue).lastSeq := by simp [State.answerBare]

@[simp] theorem State.store_answerBare (s : State) (c : Command) (st : Status) (payload : List Byte) :
    ((s.answerBare c st payload).queue c.queue).store = (s.queue c.queue).store ++ [bareResponse c st payload] := by
  simp [State.answerBare, bareResponse]

/-! ### A refusal at steps 1 to 4 -/

/-- The payload of a refusal at steps 1 to 4: only `RANGE` carries one, which names the header (R278). -/
def earlyPayload (st : Status) : List Byte := if st = .range then fieldOffset headerField else []

@[simp] theorem State.inFlight_early (s : State) (c : Command) (more : Bool) (st : Status) :
    (s.early c more st).port.inFlight = s.port.inFlight := by
  unfold State.early
  split <;> simp

@[simp] theorem State.lastSeq_early (s : State) (c : Command) (more : Bool) (st : Status) :
    ((s.early c more st).queue c.queue).lastSeq = (s.queue c.queue).lastSeq := by
  unfold State.early
  split <;> simp

@[simp] theorem State.store_early (s : State) (c : Command) (more : Bool) (st : Status) :
    ((s.early c more st).queue c.queue).store = (s.queue c.queue).store ++ [bareResponse c st (earlyPayload st)] := by
  unfold State.early
  split <;> simp [earlyPayload]

/-! ### Step 2 of the check order -/

/-- Step 2 finds no live session formed over DOE under an id that no live session has. -/
theorem State.any_live_doe_eq_false {s : State} {id : Nat} (h : ∀ x ∈ s.sessions, ¬ (x.id = id ∧ x.live = true)) :
    (s.sessions.any fun x => x.id == id && x.live && x.transport == .doe) = false := by
  simp only [List.any_eq_false, Bool.and_eq_true, beq_iff_eq]
  rintro x hx ⟨hlive, -⟩
  exact h x hx hlive

/-- A packet of the right length that continues no discarded chain and names no live session is refused at step 2, before its sequence number is looked at:
its queue forgets the tag of a discarded chain, and nothing else happens but the refusal. -/
theorem State.checkPacket_of_noSession {s : State} {q nbytes : Nat} {data : List Byte} (plain : Option (List Byte))
    (hlen : within 64 16384 nbytes = true) (hbytes : nbytes = 64 + bits (leNat (data.take 64)) 63 48) (hq : bits (leNat (data.take 64)) 31 16 = q)
    (hkept : ¬ ((s.queue q).dropTag = some (bits (leNat (data.take 64)) 159 128) ∧ 0 < bits (leNat (data.take 64)) 207 192))
    (hdead : ∀ x ∈ s.sessions, ¬ (x.id = bits (leNat (data.take 64)) 47 32 ∧ x.live = true)) :
    s.checkPacket q nbytes data plain =
      (s.updQueue q fun x => { x with dropTag := none }).early (headerCommand q (leNat (data.take 64)) (plain.getD [])) (bit (leNat (data.take 64)) 8)
        .noSession := by
  have hframe : ¬ (within 64 16384 nbytes = false ∨ nbytes ≠ 64 + bits (leNat (data.take 64)) 63 48 ∨ bits (leNat (data.take 64)) 31 16 ≠ q) := by
    simp [hlen, ← hbytes, hq]
  have hnone := State.any_live_doe_eq_false hdead
  simp only [State.checkPacket, headerCommand, hkept, decide_false, Bool.false_eq_true, if_false, hframe, State.updQueue, State.setQueue_sessions, hnone,
    if_true]

/-- Settles O9: step 2 of the check order refuses the packet, and a refusal there adds its bare response to the queue's store and consumes no number. -/
theorem noSessionWithoutSequenceCheck : Obligations.NoSessionWithoutSequenceCheck := by
  intro s q nbytes data plain h hlen hbytes hq hkept hdead t r
  let c := headerCommand q h (plain.getD [])
  have ht : t = (s.updQueue q fun x => { x with dropTag := none }).early c (bit h 8) .noSession :=
    State.checkPacket_of_noSession plain hlen hbytes hq hkept hdead
  have hr : r = bareResponse c .noSession (earlyPayload .noSession) := rfl
  rw [ht, hr]
  refine ⟨?_, State.inFlight_early .., ?_⟩
  · exact (State.lastSeq_early _ c _ _).trans (by simp [c, headerCommand])
  · exact (State.store_early _ c _ _).trans (by simp [c, headerCommand])

end Sys2Proof.Machine
end

section
/-!
Ledger addends (R105, R107): each addend changes its element by the element it makes of zero, whole and in any order, and a finite addend becomes the
nearest integer.
-/
namespace Sys2Proof.Machine
open Sys2Proof

/-! ### Rounding to the nearest integer -/

theorem inUnits_den_pos {d : Nat} (n : Nat) (e q : Int) (hd : 0 < d) : 0 < (inUnits n d e q).2 := by
  unfold inUnits
  split
  · exact hd
  · exact Nat.mul_pos hd (Nat.two_pow_pos _)

/-- The two branches of rounding to nearest, told by the remainder: up past the half, and at the half from an odd magnitude. -/
theorem roundUnits_nearest_cases (neg : Bool) (m r d : Nat) :
    ((d < 2 * r ∨ d = 2 * r ∧ m % 2 = 1) ∧ roundUnits .nearest neg m r d = m + 1) ∨
      ((2 * r < d ∨ 2 * r = d ∧ m % 2 = 0) ∧ roundUnits .nearest neg m r d = m) := by
  by_cases h : d < 2 * r ∨ d = 2 * r ∧ m % 2 = 1
  · exact .inl ⟨h, if_pos h⟩
  · exact .inr ⟨by omega, if_neg h⟩

/-- The quotient x / y rounded to nearest lies within half of it, and is even where it lies at half. -/
theorem roundUnits_nearest_isNearest (neg : Bool) (x : Nat) {y : Nat} (hy : 0 < y) :
    let q := roundUnits .nearest neg (x / y) (x % y) y
    2 * x ≤ (2 * q + 1) * y ∧ (2 * q - 1) * y ≤ 2 * x ∧ (2 * x = (2 * q + 1) * y ∨ (0 < q ∧ 2 * x = (2 * q - 1) * y) → q % 2 = 0) := by
  have hx : y * (x / y) + x % y = x := Nat.div_add_mod x y
  have hr : x % y < y := Nat.mod_lt x hy
  dsimp only
  generalize x / y = m at *
  obtain ⟨hup, hq⟩ | ⟨hdown, hq⟩ := roundUnits_nearest_cases neg m (x % y) y
  · have habove : (2 * (m + 1) + 1) * y = 2 * (y * m) + 3 * y := by ring
    have hbelow : (2 * (m + 1) - 1) * y = 2 * (y * m) + y := by rw [show 2 * (m + 1) - 1 = 2 * m + 1 by omega]; ring
    rw [hq, habove, hbelow]
    omega
  · have habove : (2 * m + 1) * y = 2 * (y * m) + y := by ring
    have hbelow : (2 * m - 1) * y = 2 * (y * m) - y := by rw [Nat.sub_mul, Nat.one_mul, Nat.mul_assoc, Nat.mul_comm m]
    have hpos : 0 < m → y ≤ y * m := Nat.le_mul_of_pos_right y
    rw [hq, habove, hbelow]
    omega

/-- An integer rounded from a fraction has the rounded magnitude, and the sign asked for. -/
theorem roundInt_natAbs (rnd : Rnd) (neg : Bool) (a d : Nat) (e : Int) :
    (roundInt rnd neg a d e).natAbs =
      roundUnits rnd neg ((inUnits a d e 0).1 / (inUnits a d e 0).2) ((inUnits a d e 0).1 % (inUnits a d e 0).2) (inUnits a d e 0).2 := by
  cases neg <;> simp [roundInt]

theorem roundInt_neg_iff (rnd : Rnd) (neg : Bool) (a d : Nat) (e : Int) (h : 0 < (roundInt rnd neg a d e).natAbs) :
    roundInt rnd neg a d e < 0 ↔ neg = true := by
  cases neg
  · simp [roundInt]
  · have : roundInt rnd true a d e ≤ 0 := by simp [roundInt]
    simp; omega

/-! ### Elements add up in any order -/

theorem LedgerElem.merge_right_comm (l a b : LedgerElem) : (l.merge a).merge b = (l.merge b).merge a := by
  simp [LedgerElem.merge, add_right_comm, Bool.or_right_comm]

/-- What one raw addend makes of a zero element, and whether its integer lies outside the range. -/
def rawAddend (w : Int) (ty : ElemType) (raw : Nat) : LedgerElem × Bool := LedgerElem.zero.addVal w (decodeElem ty raw)

/-- An addend changes an element by what it makes of zero; whether it lies outside the range is its own affair (R105, R107). -/
theorem LedgerElem.addVal_eq_merge (l : LedgerElem) (w : Int) (v : Val) :
    l.addVal w v = (l.merge (LedgerElem.zero.addVal w v).1, (LedgerElem.zero.addVal w v).2) := by
  cases v with
  | inf neg => cases neg <;> simp [LedgerElem.addVal, LedgerElem.merge, LedgerElem.zero]
  | _ => simp [LedgerElem.addVal, LedgerElem.merge, LedgerElem.zero]

theorem addRaws_concat (w : Int) (ty : ElemType) (l : List (Nat × Nat)) (r : Nat × Nat) (es : List (Nat × LedgerElem)) :
    addRaws w ty (l ++ [r]) es =
      (aUpd (addRaws w ty l es).1 r.1 LedgerElem.zero fun e => e.merge (rawAddend w ty r.2).1,
        (addRaws w ty l es).2 || (rawAddend w ty r.2).2) := by
  simp only [addRaws, List.foldl_append, List.foldl_cons, List.foldl_nil]
  rw [LedgerElem.addVal_eq_merge]
  rfl

theorem aGetD_aUpd {κ α : Type} [DecidableEq κ] (l : List (κ × α)) (k q : κ) (d : α) (f : α → α) :
    aGetD (aUpd l k d f) q d = if k = q then f (aGetD l q d) else aGetD l q d := by
  split
  case isTrue h => subst h; exact aGetD_aSet_self ..
  case isFalse h => exact aGetD_aSet_other _ _ _ _ _ h

/-- The element at a column after raw addends: those of its column, added one by one to what it was. -/
theorem aGetD_addRaws (w : Int) (ty : ElemType) (l : List (Nat × Nat)) (es : List (Nat × LedgerElem)) (col : Nat) :
    aGetD (addRaws w ty l es).1 col LedgerElem.zero =
      l.foldl (fun e r => if r.1 = col then e.merge (rawAddend w ty r.2).1 else e) (aGetD es col LedgerElem.zero) := by
  induction l using List.reverseRecOn with
  | nil => rfl
  | append_singleton l r ih => simp only [addRaws_concat, aGetD_aUpd, List.foldl_append, List.foldl_cons, List.foldl_nil, ih]

/-- An addend outside the range is one of the list's. -/
theorem addRaws_excess (w : Int) (ty : ElemType) (l : List (Nat × Nat)) (es : List (Nat × LedgerElem)) :
    (addRaws w ty l es).2 = l.any fun r => (rawAddend w ty r.2).2 := by
  induction l using List.reverseRecOn with
  | nil => rfl
  | append_singleton l r ih => simp [addRaws_concat, ih]

/-- Addends in another order leave every element as it is. -/
theorem aGetD_addRaws_perm (w : Int) (ty : ElemType) {l m : List (Nat × Nat)} (h : l.Perm m) (es : List (Nat × LedgerElem)) (col : Nat) :
    aGetD (addRaws w ty l es).1 col LedgerElem.zero = aGetD (addRaws w ty m es).1 col LedgerElem.zero := by
  rw [aGetD_addRaws, aGetD_addRaws]
  refine h.foldl_eq' (fun r _ r' _ e => ?_) _
  split <;> split
  · exact LedgerElem.merge_right_comm ..
  all_goals rfl

/-- Settles O47: rounding to nearest is by quotient and remainder, and an element takes each addend as a merge, which commutes. -/
theorem ledgerTotalsIgnoreOrder : Obligations.LedgerTotalsIgnoreOrder := by
  refine ⟨fun w neg a d e hd => ?_, fun w ty l m es h => ⟨aGetD_addRaws_perm w ty h es, ?_⟩⟩
  · have hnear := roundUnits_nearest_isNearest neg (inUnits a d (e + 96 - w) 0).1 (inUnits_den_pos a (e + 96 - w) 0 hd)
    rw [← roundInt_natAbs] at hnear
    obtain ⟨habove, hbelow, heven⟩ := hnear
    exact ⟨habove, hbelow, heven, roundInt_neg_iff .nearest neg a d (e + 96 - w)⟩
  · rw [addRaws_excess, addRaws_excess, h.any_eq]

end Sys2Proof.Machine
end

section
/-!
The type of an entry decides between the plain and the block services (R425): what a command or a frame of the wrong service is answered, and what it leaves
unchanged.
-/
namespace Sys2Proof.Machine
open Sys2Proof

/-! ### Faults at offsets of the payload -/

/-- A fault at an offset of the payload, which `RANGE` names (R278): a field's or a relation's. -/
def Bad.placed : Bad → Bool
  | .field _ | .rel _ => true
  | _ => false

/-- Every fault of a list is at an offset of the payload. -/
def PlacedFaults (l : List Bad) : Prop := ∀ b ∈ l, b.placed = true

@[simp] theorem placedFaults_nil : PlacedFaults [] := by simp [PlacedFaults]

@[simp] theorem placedFaults_cons (b : Bad) (l : List Bad) : PlacedFaults (b :: l) ↔ b.placed = true ∧ PlacedFaults l := List.forall_mem_cons

@[simp] theorem placedFaults_append (l m : List Bad) : PlacedFaults (l ++ m) ↔ PlacedFaults l ∧ PlacedFaults m := List.forall_mem_append

@[simp] theorem placedFaults_flatten (ls : List (List Bad)) : PlacedFaults ls.flatten ↔ ∀ l ∈ ls, PlacedFaults l := List.forall_mem_flatten

@[simp] theorem placedFaults_need_field (ok : Bool) (off : Nat) : PlacedFaults (need ok (.field off)) := by
  cases ok <;> simp [need, Bad.placed]

@[simp] theorem placedFaults_need_rel (ok : Bool) (off : Nat) : PlacedFaults (need ok (.rel off)) := by
  cases ok <;> simp [need, Bad.placed]

@[simp] theorem need_true (b : Bad) : need true b = [] := rfl

@[simp] theorem need_false (b : Bad) : need false b = [b] := rfl

theorem least_concat_of_zero {l : List Nat} (h : least l = some 0) (n : Nat) : least (l ++ [n]) = some 0 := by
  unfold least at *
  rw [List.foldl_append, h]
  simp

theorem least_concat_zero (l : List Nat) : least (l ++ [0]) = some 0 := by
  unfold least
  rw [List.foldl_append, List.foldl_cons, List.foldl_nil]
  split <;> simp

theorem least_eq_zero_of_mem {l : List Nat} (h : 0 ∈ l) : least l = some 0 := by
  induction l using List.reverseRecOn with
  | nil => cases h
  | append_singleton l n ih =>
    obtain hl | hn := List.mem_append.1 h
    · exact least_concat_of_zero (ih hl) n
    · obtain rfl : 0 = n := by simpa using hn
      exact least_concat_zero l

/-- Faults at offsets of the payload, one of them at 0, are answered `RANGE` at 0. -/
theorem verdict_range_zero {l : List Bad} (hl : PlacedFaults l) (h0 : .field 0 ∈ l) : verdict l = some (.range, fieldOffset 0) := by
  have hlength : l.contains .length = false := by simpa using fun h => absurd (hl _ h) (by decide)
  have hheader : l.contains .header = false := by simpa using fun h => absurd (hl _ h) (by decide)
  simp only [verdict, hlength, hheader, Bool.false_eq_true, if_false]
  rw [least_eq_zero_of_mem (List.mem_filterMap.2 ⟨.field 0, h0, rfl⟩)]

/-! ### The entry's own row -/

/-- The catalogue's DOMAIN rows name no entry whose `WRITE` has a row of its own. -/
theorem catalogue_domain_apart_ownWrite :
    ∀ r ∈ catalogue, r.typ = .domain →
      (r.hi < 0x4010 ∨ 0x4013 < r.lo) ∧ (r.hi < 0x2300 ∨ 0x2300 < r.lo ∨ 1 < r.subLo) ∧ (r.hi < 0x8040 ∨ 0x8040 < r.lo ∨ r.subHi < 3) ∧
        (r.hi < 0x3301 ∨ 0x3340 < r.lo ∨ r.subHi < 4) := by
  decide +kernel

theorem findEntry_covers {index sub : Nat} {r : Entry} (h : findEntry index sub = some r) :
    r ∈ catalogue ∧ r.lo ≤ index ∧ index ≤ r.hi ∧ r.subLo ≤ sub ∧ sub ≤ r.subHi := by
  have hin := List.find?_some h
  simp only [within, Bool.and_eq_true, decide_eq_true_eq] at hin
  exact ⟨List.mem_of_find?_eq_some h, by omega⟩

theorem ownWrite_of_domain {index sub : Nat} {r : Entry} (h : findEntry index sub = some r) (hr : r.typ = .domain) : ownWrite index sub = false := by
  obtain ⟨hmem, hcovers⟩ := findEntry_covers h
  have hapart := catalogue_domain_apart_ownWrite r hmem hr
  simp [ownWrite, within]
  omega

theorem ownBlock_of_ne_domain {index sub : Nat} {r : Entry} (h : findEntry index sub = some r) (hr : r.typ ≠ .domain) : ownBlock index sub = false := by
  by_contra hown
  obtain ⟨rfl, rfl⟩ : index = 0x8040 ∧ sub = 1 := by simpa [ownBlock] using hown
  have hdomain : (findEntry 0x8040 1).map (·.typ) = some .domain := by decide
  rw [h] at hdomain
  exact hr (Option.some.inj hdomain)

/-! ### The checks of a service on an entry of the other kind -/

/-- An access reads an entry under its own catalogue row, if at all. -/
theorem State.readable_eq {s : State} {a : Acc} {index sub : Nat} {r : Entry} (h : findEntry index sub = some r) :
    s.readable a index sub = none ∨ s.readable a index sub = some r := by
  unfold State.readable
  rw [h]
  by_cases hread : r.access = .wo ∨ (r.jobScoped ∧ (s.accJob a).isNone)
  · exact .inl (if_pos hread)
  · exact .inr (if_neg hread)

theorem State.readEntry_of_domain {s : State} {a : Acc} {index sub : Nat} {r : Entry} (h : findEntry index sub = some r) (hr : r.typ = .domain) :
    s.readEntry a index sub = none := by
  unfold State.readEntry
  obtain hnone | hsome := State.readable_eq (s := s) (a := a) h
  · rw [hnone]
  · simp [hsome, hr]

theorem need_domain_of_ne {r : Entry} (hr : r.typ ≠ .domain) (b : Bad) : need (r.typ == .domain) b = [b] := by
  rw [beq_false_of_ne hr]
  rfl

theorem verdict_writeBads_of_domain {s : State} {a : Acc} {index sub : Nat} {r : Entry} (h : findEntry index sub = some r) (hr : r.typ = .domain)
    (data : List Byte) (base : Nat) : verdict (s.writeBads a index sub data base) = some (.range, fieldOffset 0) := by
  unfold State.writeBads
  rw [h]
  simp only [hr, if_true]
  exact verdict_range_zero (by simp [Bad.placed]) (by simp)

@[simp] theorem placedFaults_fieldBads (r : GroupRow) (off : Nat) : PlacedFaults (r.fieldBads off) := by simp [GroupRow.fieldBads]

@[simp] theorem placedFaults_groupBads (j : Job) (g : Nat) (r : GroupRow) (byTable : Bool) (off : Nat) : PlacedFaults (j.groupBads g r byTable off) := by
  simp [Job.groupBads]

@[simp] theorem placedFaults_curveBads (j : Job) (c : Nat) (b : List Byte) (off : Nat) : PlacedFaults (j.curveBads c b off) := by
  simp [Job.curveBads]

/-- The relations of a value to others of its job are told at the value's place (R222, R224). -/
@[simp] theorem placedFaults_jobRelationBads (s : State) (j : Job) (index sub n : Nat) (data : List Byte) (off : Nat) :
    PlacedFaults (s.jobRelationBads j index sub n data off) := by
  unfold State.jobRelationBads
  repeat' split
  all_goals simp

@[simp] theorem placedFaults_scopedBads (s : State) (a : Acc) (index sub n : Nat) (data : List Byte) (off : Nat) :
    PlacedFaults (s.scopedBads a index sub n data off) := by
  unfold State.scopedBads
  split <;> simp

theorem placedFaults_blockBads (s : State) (a : Acc) (index sub off : Nat) (data : List Byte) (last : Bool) :
    PlacedFaults (s.blockBads a index sub off data last) := by
  unfold State.blockBads
  split
  case h_1 => simp [Bad.placed]
  case h_2 r _ =>
    cases s.blockStep a index sub off data last with
    | misplaced => simp [Bad.placed]
    | timedOut => simp
    | took all ends => cases ends <;> simp

theorem verdict_blockBads_of_ne_domain {s : State} {a : Acc} {index sub : Nat} {r : Entry} (h : findEntry index sub = some r) (hr : r.typ ≠ .domain)
    (off : Nat) (data : List Byte) (last : Bool) : verdict (s.blockBads a index sub off data last) = some (.range, fieldOffset 0) := by
  refine verdict_range_zero (placedFaults_blockBads s a index sub off data last) ?_
  unfold State.blockBads
  rw [h]
  simp [need_domain_of_ne hr]

@[simp] theorem State.endBlock_none (s : State) : s.endBlock none = s := rfl

/-- A block write of an entry that is no DOMAIN takes no place in a block, so it ends none. -/
theorem State.blockFails_of_ne_domain {s : State} {a : Acc} {index sub : Nat} {r : Entry} (h : findEntry index sub = some r) (hr : r.typ ≠ .domain)
    (off : Nat) (data : List Byte) (last : Bool) : s.blockFails a index sub off data last = false := by
  unfold State.blockFails
  rw [h]
  split
  case h_1 heq _ =>
    obtain rfl := Option.some.inj heq
    simp [hr]
  case h_2 => rfl

/-! ### In band -/

/-- A command that stands first on its queue, whose header and job pass, is refused as its own checks say (R275). -/
theorem State.runCommand_refused {s : State} {q opcode : Nat} {f : InFlight} {form : Command → Bool} {check : State → InFlight → List Bad}
    {st : Status} {p : List Byte} (effect : State → InFlight → State) (hf : s.Front q opcode f) (hform : form f.cmd = true)
    (hcheck : verdict (check s f) = some (st, p)) : s.runCommand q opcode form check effect = s.refuseWith f.cmd st p := by
  obtain ⟨hfront, hsent, hheader, htakes⟩ := hf
  unfold State.runCommand State.runLogged
  rw [hfront]
  simp only [hform, hsent, hheader, if_true, Bool.false_eq_true, if_false, List.nil_append]
  cases hjob : f.job.bind s.job? with
  | none => simp [hcheck]
  | some j => simp [htakes j hjob, hcheck]

section
variable {s : State} {q : Nat} {f : InFlight} {r : Entry} (hf : s.Front q 0x40 f) (hhead : dictHeadBads f.cmd.payload = [])
  (hr : findEntry (dictHead f.cmd.payload).index (dictHead f.cmd.payload).sub = some r)
include hf hhead hr

theorem State.dictRead_of_domain (htyp : r.typ = .domain) (hop : (dictHead f.cmd.payload).op = 0) (hlen : f.cmd.payload.length = 16) :
    s.dictRead q = s.refuseWith f.cmd .range (fieldOffset 0) := by
  refine State.runCommand_refused _ hf (by simp [hop]) ?_
  simp only [hhead, hlen, State.readEntry_of_domain hr htyp]
  decide

theorem State.dictWrite_of_domain (htyp : r.typ = .domain) (hop : (dictHead f.cmd.payload).op = 1) :
    s.dictWrite q = s.refuseWith f.cmd .range (fieldOffset 0) := by
  refine State.runCommand_refused _ hf (by simp [hop, ownWrite_of_domain hr htyp]) ?_
  simp only [hhead, List.nil_append]
  exact verdict_writeBads_of_domain hr htyp ..

theorem State.dictReadBlock_of_ne_domain (htyp : r.typ ≠ .domain) (hop : (dictHead f.cmd.payload).op = 2) (hlen : f.cmd.payload.length = 16) :
    s.dictReadBlock q = s.refuseWith f.cmd .range (fieldOffset 0) := by
  refine State.runCommand_refused _ hf (by simp [hop]) ?_
  simp only [hhead, hlen]
  obtain hnone | hsome := State.readable_eq (s := s) (a := f.acc) hr
  · rw [hnone]
    exact verdict_range_zero (by simp [Bad.placed]) (by simp)
  · rw [hsome]
    exact verdict_range_zero (by simp) (by simp [need_domain_of_ne htyp])

theorem State.dictWriteBlock_of_ne_domain (htyp : r.typ ≠ .domain) (hop : (dictHead f.cmd.payload).op = 3) (hlen : 16 < f.cmd.payload.length) :
    s.dictWriteBlock q = s.refuseWith f.cmd .range (fieldOffset 0) := by
  have hends : s.failedBlock q = none := by
    unfold State.failedBlock
    rw [hf.front]
    simp [State.blockFails_of_ne_domain hr htyp]
  unfold State.dictWriteBlock
  rw [hends, State.endBlock_none]
  refine State.runCommand_refused _ hf (by simp [hop, ownBlock_of_ne_domain hr htyp]) ?_
  simp only [hhead, hlen, decide_true, need_true, List.nil_append]
  exact verdict_blockBads_of_ne_domain hr htyp ..

end

/-! ### Over GDP -/

/-- A live session changed in what it carries is live with that change. -/
theorem State.live?_updSession_self (s : State) (id : Nat) (f : Session → Session) (hid : ∀ x, (f x).id = x.id) (hlive : ∀ x, (f x).live = x.live) :
    (s.updSession id f).live? id = (s.live? id).map f := by
  unfold State.live? State.updSession
  simp only
  generalize s.sessions = l
  induction l with
  | nil => rfl
  | cons x l ih =>
    by_cases h : x.id = id
    · by_cases hx : x.live = true
      · simp [h, hx, hid, hlive]
      · simpa [h, hx, hid, hlive] using ih
    · simpa [h] using ih

/-- The session of a frame once the frame is taken. -/
def Session.begun (x : Session) (g : GdpFrame) : Session :=
  { x with gdpIn := g.seq, asked := aSet x.asked g.reqId (gdpAsk g), again := x.again.filter (· ≠ g.reqId) }

theorem State.live?_frameBegun {s : State} {g : GdpFrame} {x : Session} (h : s.live? g.session = some x) :
    (s.frameBegun g).live? g.session = some (x.begun g) := by
  simp [State.frameBegun, State.beginFrame, State.live?_updSession_self, h, Session.begun]

@[simp] theorem Session.ask_begun (x : Session) (g : GdpFrame) : (x.begun g).ask g.reqId = gdpAsk g := by simp [Session.ask, Session.begun]

@[simp] theorem Session.gdpOut_begun (x : Session) (g : GdpFrame) : (x.begun g).gdpOut = x.gdpOut := rfl

@[simp] theorem Session.again_begun (x : Session) (g : GdpFrame) : (x.begun g).again.count g.reqId = 0 := by
  simp [Session.begun, List.count_eq_zero]

theorem State.frameBegun_only (s : State) (g : GdpFrame) : Only [.sessions] s (s.frameBegun g) :=
  Only.after (State.beginFrame_only ..) (State.updSession_only ..) (by decide)

/-- A frame of a listed service that passes the checks of R413 is served. -/
theorem State.gdpRequest_of_serves {s : State} {g : GdpFrame} {service : Nat} {x : Session} (h : s.Serves g service x)
    (hlisted : within 1 5 service = true) (run : State → Session → State) : s.gdpRequest g service run = run (s.frameBegun g) x := by
  obtain ⟨hversion, htyp, ⟨hres, hlen, hdata⟩, hservice, ⟨hlimited, hsegment⟩, hlive, hown, htag, hseq, hfresh, hfirst, hroom⟩ := h
  have haccept : s.gdpRequest g service run = (s.updSession g.session fun y => { y with gdpIn := g.seq }).gdpAccept g x service run := by
    simp [State.gdpRequest, State.gdpSealed, hversion, htyp, hres, hlen, hlimited, hsegment, hlive, hown, htag, hseq.not_ge]
  rw [haccept]
  simp [State.gdpAccept, listedService, htyp, hservice, hlisted, hdata, hfresh, hfirst, hroom.not_ge, State.frameBegun]

/-- What a taken frame is answered whose service its entry's type does not have. -/
def State.turnedAway (s : State) (g : GdpFrame) : State := (s.frameBegun g).gdpAnswer g.session g.reqId .range []

theorem State.turnedAway_only (s : State) (g : GdpFrame) : Only [.sessions, .reply] s (s.turnedAway g) :=
  Only.after (State.gdpAnswer_only ..) ((State.frameBegun_only s g).mono (by decide)) (by decide)

/-- A service that does not fit its entry has no total to repeat: a plain one never has, and a block service has one for a DOMAIN alone. -/
theorem State.blockTotal_eq_zero (s : State) (id : Nat) {a : GdpAsk}
    (h : a.service = 3 ∨ a.service = 4 → ∃ r, findEntry a.index a.subindex = some r ∧ r.typ ≠ .domain) : s.blockTotal id a = 0 := by
  unfold State.blockTotal
  by_cases hblock : a.service = 3 ∨ a.service = 4
  · obtain ⟨r, hr, htyp⟩ := h hblock
    simp [hr, htyp]
  · exact if_neg hblock

theorem State.turnedAway_replies {s : State} {g : GdpFrame} {service : Nat} {x : Session} (h : s.Serves g service x)
    (htotal : service = 3 ∨ service = 4 → ∃ r, findEntry g.index g.subindex = some r ∧ r.typ ≠ .domain) : Replies (s.turnedAway g) g x .range [] := by
  have hnone (t : State) : t.blockTotal g.session (gdpAsk g) = 0 := t.blockTotal_eq_zero g.session (by simpa only [gdpAsk, h.service] using htotal)
  simp [Replies, State.turnedAway, State.gdpAnswer, State.live?_frameBegun h.live, hnone]

theorem State.gdpChecked_refused (s : State) (g : GdpFrame) {bads : List Bad} {st : Status} {p : List Byte} (go : State → State)
    (h : verdict bads = some (st, p)) : s.gdpChecked g bads go = s.gdpAnswer g.session g.reqId st [] := by
  simp [State.gdpChecked, h]

section
variable {s : State} {g : GdpFrame} {x : Session} {r : Entry} (hr : findEntry g.index g.subindex = some r)
include hr

theorem State.gdpRead_of_domain (htyp : r.typ = .domain) (h : s.Serves g 1 x) : s.gdpRead g = s.turnedAway g := by
  unfold State.gdpRead
  rw [State.gdpRequest_of_serves h (by decide)]
  simp only [State.readEntry_of_domain hr htyp]
  rfl

theorem State.gdpWrite_of_domain (htyp : r.typ = .domain) (h : s.Serves g 2 x) : s.gdpWrite g = s.turnedAway g := by
  unfold State.gdpWrite
  rw [if_neg (by simp [ownWrite_of_domain hr htyp]), State.gdpRequest_of_serves h (by decide)]
  exact State.gdpChecked_refused _ g _ (verdict_writeBads_of_domain hr htyp ..)

theorem State.gdpReadBlock_of_ne_domain (htyp : r.typ ≠ .domain) (h : s.Serves g 3 x) : s.gdpReadBlock g = s.turnedAway g := by
  unfold State.gdpReadBlock
  rw [State.gdpRequest_of_serves h (by decide)]
  obtain hnone | hsome := State.readable_eq (s := s.frameBegun g) (a := frameAcc g) hr
  · simp only [hnone]
    rfl
  · simp only [hsome, htyp, ne_eq, not_false_eq_true, true_or, if_true]
    rfl

theorem State.gdpWriteBlock_of_ne_domain (htyp : r.typ ≠ .domain) (h : s.Serves g 4 x) : s.gdpWriteBlock g = s.turnedAway g := by
  unfold State.gdpWriteBlock
  rw [if_neg (by simp [ownBlock_of_ne_domain hr htyp]), State.gdpRequest_of_serves h (by decide)]
  simp only [State.blockFails_of_ne_domain hr htyp, Bool.false_eq_true, if_false, State.endBlock_none]
  exact State.gdpChecked_refused _ g _ (verdict_blockBads_of_ne_domain hr htyp ..)

end

/-- Settles O20: the check of the entry's type finds a fault of field 0, the lowest there is, so the other service is refused with `RANGE` at `INDEX`; over
GDP the answer to the frame carries it, and nothing but the session and the answer changes. -/
theorem typesChooseTheirService : Obligations.TypesChooseTheirService := by
  constructor
  · intro s q f r hf hhead h turnedAway hr
    refine ⟨fun htyp => ⟨fun hop hlen => ?_, fun hop => ?_⟩, fun htyp => ⟨fun hop hlen => ?_, fun hop hlen => ?_⟩⟩
    · exact congrArg Host.Outcome.next (State.dictRead_of_domain hf hhead hr htyp hop hlen)
    · exact congrArg Host.Outcome.next (State.dictWrite_of_domain hf hhead hr htyp hop)
    · exact congrArg Host.Outcome.next (State.dictReadBlock_of_ne_domain hf hhead hr htyp hop hlen)
    · exact congrArg Host.Outcome.next (State.dictWriteBlock_of_ne_domain hf hhead hr htyp hop hlen)
  · intro s g x r hr
    obtain ⟨hsame⟩ := s.turnedAway_only g
    have hdict : (s.turnedAway g).dict = s.dict := hsame .dict (by decide)
    have hretained : (s.turnedAway g).retainedWrites = s.retainedWrites := hsame .retainedWrites (by decide)
    have hblocks : (s.turnedAway g).blocks = s.blocks := hsame .blocks (by decide)
    refine ⟨fun htyp => ⟨fun hserves => ?_, fun hserves => ?_⟩, fun htyp => ⟨fun hserves => ?_, fun hserves => ?_⟩⟩
    · exact ⟨_, congrArg Host.Outcome.next (State.gdpRead_of_domain hr htyp hserves), State.turnedAway_replies hserves (by simp), hdict⟩
    · exact ⟨_, congrArg Host.Outcome.next (State.gdpWrite_of_domain hr htyp hserves), State.turnedAway_replies hserves (by simp), hdict, hretained⟩
    · exact ⟨_, congrArg Host.Outcome.next (State.gdpReadBlock_of_ne_domain hr htyp hserves),
        State.turnedAway_replies hserves fun _ => ⟨r, hr, htyp⟩, hdict⟩
    · exact ⟨_, congrArg Host.Outcome.next (State.gdpWriteBlock_of_ne_domain hr htyp hserves),
        State.turnedAway_replies hserves fun _ => ⟨r, hr, htyp⟩, hdict, hretained, hblocks⟩

end Sys2Proof.Machine
end

section
/-!
The invariant, the wear and the frame of every command (R62, R351, R445), the block's step, and the state after reset.
-/
namespace Sys2Proof.Machine
open Sys2Proof

/-! ### Every command -/

/-- Whatever command runs, its meaning keeps what no operation of the model undoes. -/
theorem exec_kept : ∀ {c : Instr} {s t : State}, exec c s = .next t → Kept s t
  | .jobOpen .., _, _, h => execJobOpen_kept _ _ _ h
  | .jobResume .., _, _, h => execJobResume_kept _ _ _ h
  | .jobClose .., _, _, h => execJobClose_kept _ _ _ h
  | .tableCreate .., _, _, h => execTableCreate_kept _ _ _ h
  | .tableLoad .., _, _, h => execTableLoad_kept _ _ _ h
  | .tableLoadAnnex .., _, _, h => execTableLoadAnnex_kept _ _ _ h
  | .editionPublish .., _, _, h => execEditionPublish_kept _ _ _ h
  | .discard .., _, _, h => execDiscard_kept _ _ _ h
  | .shelfReplace .., _, _, h => execShelfReplace_kept _ _ _ h
  | .shelfAdd .., _, _, h => execShelfAdd_kept _ _ _ h
  | .shelfRemove .., _, _, h => execShelfRemove_kept _ _ _ h
  | .graphLoad .., _, _, h => execGraphLoad_kept _ _ _ h
  | .featureLoad .., _, _, h => execFeatureLoad_kept _ _ _ h
  | .stepSubmit .., _, _, h => execStepSubmit_kept _ _ _ h
  | .rowSupply .., _, _, h => execRowSupply_kept _ _ _ h
  | .rowSupplyAck .., _, _, h => execRowSupplyAck_kept _ _ _ h
  | .resultRead .., _, _, h => execResultRead_kept _ _ _ h
  | .resultRelease .., _, _, h => execResultRelease_kept _ _ _ h
  | .paramRead .., _, _, h => execParamRead_kept _ _ _ h
  | .paramWrite .., _, _, h => execParamWrite_kept _ _ _ h
  | .depositExport .., _, _, h => execDepositExport_kept _ _ _ h
  | .depositImport .., _, _, h => execDepositImport_kept _ _ _ _ _ _ _ _ h
  | .dictRead .., _, _, h => execDictRead_kept _ _ _ h
  | .dictWrite .., _, _, h => execDictWrite_kept _ _ _ h
  | .dictReadBlock .., _, _, h => execDictReadBlock_kept _ _ _ h
  | .dictWriteBlock .., _, _, h => execDictWriteBlock_kept _ _ _ h
  | .eventAck .., _, _, h => execEventAck_kept _ _ _ h
  | .nop .., _, _, h => execNop_kept _ _ _ h
  | .doorbell .., _, _, h => execDoorbell_kept _ _ _ _ h
  | .packetTake .., _, _, h => execPacketTake_kept _ _ _ _ h
  | .ringEnable .., _, _, h => execRingEnable_kept _ _ _ _ h
  | .ringHead .., _, _, h => execRingHead_kept _ _ _ _ h
  | .queueRegisterWrite .., _, _, h => execQueueRegisterWrite_kept _ _ _ _ _ h
  | .responseWrite .., _, _, h => execResponseWrite_kept _ _ _ h
  | .ringFull .., _, _, h => execRingFull_kept _ _ _ h
  | .chainGapTimeout .., _, _, h => execChainGapTimeout_kept _ _ _ h
  | .perstAssert, _, _, h => execPerstAssert_kept _ _ h
  | .cxlLinkTrained .., _, _, h => execCxlLinkTrained_kept _ _ _ _ h
  | .linkDegraded .., _, _, h => execLinkDegraded_kept _ _ _ _ h
  | .getVersion, _, _, h => execGetVersion_kept _ _ h
  | .getCapabilities, _, _, h => execGetCapabilities_kept _ _ h
  | .negotiateAlgorithms, _, _, h => execNegotiateAlgorithms_kept _ _ h
  | .getDigests, _, _, h => execGetDigests_kept _ _ h
  | .getCertificate .., _, _, h => execGetCertificate_kept _ _ _ _ h
  | .challenge, _, _, h => execChallenge_kept _ _ h
  | .getMeasurements .., _, _, h => execGetMeasurements_kept _ _ _ h
  | .keyExchange, _, _, h => execKeyExchange_kept _ _ h
  | .finish .., _, _, h => execFinish_kept _ _ _ _ h
  | .endSession .., _, _, h => execEndSession_kept _ _ _ h
  | .heartbeat .., _, _, h => execHeartbeat_kept _ _ _ h
  | .spdmKeyUpdate .., _, _, h => execSpdmKeyUpdate_kept _ _ _ h
  | .sessionHeartbeatExpired .., _, _, h => execSessionHeartbeatExpired_kept _ _ _ h
  | .baseRecordWrite .., _, _, h => execBaseRecordWrite_kept _ _ _ _ h
  | .deltaRecordCommit, _, _, h => execDeltaRecordCommit_kept _ _ h
  | .standbyImageWrite .., _, _, h => execStandbyImageWrite_kept _ _ _ h
  | .verify .., _, _, h => execVerify_kept _ _ _ _ _ _ h
  | .arm .., _, _, h => execArm_kept _ _ _ h
  | .cancel .., _, _, h => execCancel_kept _ _ _ h
  | .firmwareSwitch .., _, _, h => execFirmwareSwitch_kept _ _ _ _ h
  | .roleMapWrite .., _, _, h => execRoleMapWrite_kept _ _ _ h
  | .fabricPositionWrite .., _, _, h => execFabricPositionWrite_kept _ _ _ h
  | .workItemDispatch .., _, _, h => execWorkItemDispatch_kept _ _ _ _ _ h
  | .stepEndPass .., _, _, h => execStepEndPass_kept _ _ _ _ _ h
  | .instanceComplete .., _, _, h => execInstanceComplete_kept _ _ _ _ _ h
  | .sample .., _, _, h => execSample_kept _ _ _ _ h
  | .gather .., _, _, h => execGather_kept _ _ _ _ h
  | .scatter .., _, _, h => execScatter_kept _ _ _ _ h
  | .matmul .., _, _, h => execMatmul_kept _ _ _ _ h
  | .spmm .., _, _, h => execSpmm_kept _ _ _ _ h
  | .copy .., _, _, h => execCopy_kept _ _ _ _ h
  | .add .., _, _, h => execAdd_kept _ _ _ _ h
  | .sub .., _, _, h => execSub_kept _ _ _ _ h
  | .mul .., _, _, h => execMul_kept _ _ _ _ h
  | .fma .., _, _, h => execFma_kept _ _ _ _ h
  | .min .., _, _, h => execMin_kept _ _ _ _ h
  | .max .., _, _, h => execMax_kept _ _ _ _ h
  | .abs .., _, _, h => execAbs_kept _ _ _ _ h
  | .neg .., _, _, h => execNeg_kept _ _ _ _ h
  | .exp .., _, _, h => execExp_kept _ _ _ _ h
  | .log .., _, _, h => execLog_kept _ _ _ _ h
  | .recip .., _, _, h => execRecip_kept _ _ _ _ h
  | .sqrt .., _, _, h => execSqrt_kept _ _ _ _ h
  | .rsqrt .., _, _, h => execRsqrt_kept _ _ _ _ h
  | .tanh .., _, _, h => execTanh_kept _ _ _ _ h
  | .sigmoid .., _, _, h => execSigmoid_kept _ _ _ _ h
  | .cmpLt .., _, _, h => execCmpLt_kept _ _ _ _ h
  | .cmpLe .., _, _, h => execCmpLe_kept _ _ _ _ h
  | .cmpEq .., _, _, h => execCmpEq_kept _ _ _ _ h
  | .cmpNe .., _, _, h => execCmpNe_kept _ _ _ _ h
  | .rsum .., _, _, h => execRsum_kept _ _ _ _ h
  | .rsumsq .., _, _, h => execRsumsq_kept _ _ _ _ h
  | .rmax .., _, _, h => execRmax_kept _ _ _ _ h
  | .rmin .., _, _, h => execRmin_kept _ _ _ _ h
  | .ramax .., _, _, h => execRamax_kept _ _ _ _ h
  | .perm .., _, _, h => execPerm_kept _ _ _ _ h
  | .bcast .., _, _, h => execBcast_kept _ _ _ _ h
  | .vcompress .., _, _, h => execVcompress_kept _ _ _ _ h
  | .vexpand .., _, _, h => execVexpand_kept _ _ _ _ h
  | .softmaxRow .., _, _, h => execSoftmaxRow_kept _ _ _ _ h
  | .softmaxStats .., _, _, h => execSoftmaxStats_kept _ _ _ _ h
  | .softmaxApply .., _, _, h => execSoftmaxApply_kept _ _ _ _ h
  | .convert .., _, _, h => execConvert_kept _ _ _ _ h
  | .compress .., _, _, h => execCompress_kept _ _ _ _ h
  | .update .., _, _, h => execUpdate_kept _ _ _ _ h
  | .wait .., _, _, h => execWait_kept _ _ _ _ h
  | .signal .., _, _, h => execSignal_kept _ _ _ _ h
  | .loop .., _, _, h => execLoop_kept _ _ _ _ h
  | .signalDeliver .., _, _, h => execSignalDeliver_kept _ _ _ _ _ h
  | .waitLong .., _, _, h => execWaitLong_kept _ _ _ _ _ h
  | .tileRetire .., _, _, h => execTileRetire_kept _ _ _ _ _ h
  | .spareStart .., _, _, h => execSpareStart_kept _ _ _ h
  | .selfCheck .., _, _, h => execSelfCheck_kept _ _ _ _ h
  | .slipIssue .., _, _, h => execSlipIssue_kept _ _ _ _ h
  | .slipLand .., _, _, h => execSlipLand_kept _ _ _ _ h
  | .slipReissue .., _, _, h => execSlipReissue_kept _ _ _ _ h
  | .rowCallClose .., _, _, h => execRowCallClose_kept _ _ _ _ h
  | .rowCallResend .., _, _, h => execRowCallResend_kept _ _ _ _ h
  | .annexStalled .., _, _, h => execAnnexStalled_kept _ _ _ _ h
  | .ledgerAdd .., _, _, h => execLedgerAdd_kept _ _ _ _ _ h
  | .ledgerRangeCheck .., _, _, h => execLedgerRangeCheck_kept _ _ _ _ _ _ h
  | .updateApply .., _, _, h => execUpdateApply_kept _ _ _ _ _ h
  | .layerRelease .., _, _, h => execLayerRelease_kept _ _ _ _ _ h
  | .stepComplete .., _, _, h => execStepComplete_kept _ _ _ _ h
  | .refresh .., _, _, h => execRefresh_kept _ _ _ _ h
  | .layerCheck .., _, _, h => execLayerCheck_kept _ _ _ _ _ _ h
  | .scaleUpdate .., _, _, h => execScaleUpdate_kept _ _ _ _ _ h
  | .stuckZeroWatch .., _, _, h => execStuckZeroWatch_kept _ _ _ _ h
  | .branchRebalance .., _, _, h => execBranchRebalance_kept _ _ _ _ _ h
  | .spaceStalled .., _, _, h => execSpaceStalled_kept _ _ _ _ h
  | .poolEvictionPass, _, _, h => execPoolEvictionPass_kept _ _ h
  | .promotion .., _, _, h => execPromotion_kept _ _ _ _ _ _ _ h
  | .moveCommit .., _, _, h => execMoveCommit_kept _ _ _ h
  | .dmaPost .., _, _, h => execDmaPost_kept _ _ _ _ h
  | .dmaTimer .., _, _, h => execDmaTimer_kept _ _ _ _ h
  | .dmaComplete .., _, _, h => execDmaComplete_kept _ _ _ h
  | .dmaAccessFault .., _, _, h => execDmaAccessFault_kept _ _ _ _ _ _ h
  | .burstTimeout .., _, _, h => execBurstTimeout_kept _ _ _ _ _ h
  | .dmaAutoAction .., _, _, h => execDmaAutoAction_kept _ _ _ _ _ h
  | .resume .., _, _, h => execResume_kept _ _ _ h
  | .skip .., _, _, h => execSkip_kept _ _ _ h
  | .abort .., _, _, h => execAbort_kept _ _ _ h
  | .null .., _, _, h => execNull_kept _ _ _ _ h
  | .hello .., _, _, h => execHello_kept _ _ _ _ _ h
  | .assoc .., _, _, h => execAssoc_kept _ _ _ _ _ _ _ _ h
  | .e2eAck .., _, _, h => execE2eAck_kept _ _ _ _ _ _ h
  | .gatherReq .., _, _, h => execGatherReq_kept _ _ _ _ _ _ h
  | .gatherData .., _, _, h => execGatherData_kept _ _ _ _ _ _ h
  | .scatterRaw .., _, _, h => execScatterRaw_kept _ _ _ _ _ _ h
  | .scatterPartial .., _, _, h => execScatterPartial_kept _ _ _ _ _ _ h
  | .endContrib .., _, _, h => execEndContrib_kept _ _ _ _ _ _ h
  | .rangeReport .., _, _, h => execRangeReport_kept _ _ _ _ _ _ h
  | .reduce .., _, _, h => execReduce_kept _ _ _ _ _ _ h
  | .broadcast .., _, _, h => execBroadcast_kept _ _ _ _ _ _ h
  | .handoff .., _, _, h => execHandoff_kept _ _ _ _ _ _ h
  | .logMirror .., _, _, h => execLogMirror_kept _ _ _ _ _ _ h
  | .deposit .., _, _, h => execDeposit_kept _ _ _ _ _ _ h
  | .probe .., _, _, h => execProbe_kept _ _ _ _ _ _ h
  | .answer .., _, _, h => execAnswer_kept _ _ _ _ _ _ h
  | .query .., _, _, h => execQuery_kept _ _ _ _ _ _ h
  | .queryAnswer .., _, _, h => execQueryAnswer_kept _ _ _ _ _ _ h
  | .fence .., _, _, h => execFence_kept _ _ _ _ _ _ h
  | .keyUpdate .., _, _, h => execKeyUpdate_kept _ _ _ _ _ _ h
  | .keyUpdateDue .., _, _, h => execKeyUpdateDue_kept _ _ _ h
  | .linkAckDue .., _, _, h => execLinkAckDue_kept _ _ _ h
  | .e2eAckDue .., _, _, h => execE2eAckDue_kept _ _ _ h
  | .e2eResend .., _, _, h => execE2eResend_kept _ _ _ _ h
  | .laneFault .., _, _, h => execLaneFault_kept _ _ _ _ h
  | .portRetry .., _, _, h => execPortRetry_kept _ _ _ _ h
  | .sueshPortTrained .., _, _, h => execSueshPortTrained_kept _ _ _ _ h
  | .portWindowExpired .., _, _, h => execPortWindowExpired_kept _ _ _ h
  | .routeEmpty .., _, _, h => execRouteEmpty_kept _ _ _ h
  | .landingMove .., _, _, h => execLandingMove_kept _ _ _ _ h
  | .creditStrictOrder .., _, _, h => execCreditStrictOrder_kept _ _ _ h
  | .creditWaitLong .., _, _, h => execCreditWaitLong_kept _ _ _ _ _ h
  | .linkReplay .., _, _, h => execLinkReplay_kept _ _ _ _ _ _ _ h
  | .poisonConsumed .., _, _, h => execPoisonConsumed_kept _ _ _ _ _ _ _ _ _ h
  | .rowRepair .., _, _, h => execRowRepair_kept _ _ _ _ _ _ _ _ h
  | .rowRepaired .., _, _, h => execRowRepaired_kept _ _ _ _ _ _ _ h
  | .hardRepair .., _, _, h => execHardRepair_kept _ _ _ _ _ _ _ _ h
  | .scrub .., _, _, h => execScrub_kept _ _ _ _ _ _ _ _ h
  | .logCommit .., _, _, h => execLogCommit_kept _ _ _ _ h
  | .depositIntervalEval, _, _, h => execDepositIntervalEval_kept _ _ h
  | .depositStart .., _, _, h => execDepositStart_kept _ _ _ _ h
  | .depositCommit .., _, _, h => execDepositCommit_kept _ _ _ _ h
  | .livenessProbeDue, _, _, h => execLivenessProbeDue_kept _ _ h
  | .livenessTimeout .., _, _, h => execLivenessTimeout_kept _ _ _ h
  | .positionFailed .., _, _, h => execPositionFailed_kept _ _ _ _ h
  | .takeoverStarted .., _, _, h => execTakeoverStarted_kept _ _ _ _ h
  | .takeoverComplete .., _, _, h => execTakeoverComplete_kept _ _ _ _ _ h
  | .positionFolded .., _, _, h => execPositionFolded_kept _ _ _ _ _ h
  | .recoveryExhausted .., _, _, h => execRecoveryExhausted_kept _ _ _ h
  | .restoreInPlace .., _, _, h => execRestoreInPlace_kept _ _ _ h
  | .selfFenced, _, _, h => execSelfFenced_kept _ _ h
  | .gdpSpdm .., _, _, h => execGdpSpdm_kept _ _ _ _ _ _ h
  | .gdpRead .., _, _, h => execGdpRead_kept _ _ _ h
  | .gdpWrite .., _, _, h => execGdpWrite_kept _ _ _ h
  | .gdpReadBlock .., _, _, h => execGdpReadBlock_kept _ _ _ h
  | .gdpWriteBlock .., _, _, h => execGdpWriteBlock_kept _ _ _ h
  | .subscribeStart .., _, _, h => execSubscribeStart_kept _ _ _ h
  | .subscribeStop .., _, _, h => execSubscribeStop_kept _ _ _ h
  | .subscribeAck .., _, _, h => execSubscribeAck_kept _ _ _ h
  | .eventFrameSend .., _, _, h => execEventFrameSend_kept _ _ _ h
  | .eventFrameResend .., _, _, h => execEventFrameResend_kept _ _ _ h
  | .blockGapTimeout .., _, _, h => execBlockGapTimeout_kept _ _ _ _ h
  | .eventCheckpoint, _, _, h => execEventCheckpoint_kept _ _ h
  | .beaconLost, _, _, h => execBeaconLost_kept _ _ h
  | .beaconSeen, _, _, h => execBeaconSeen_kept _ _ h
  | .posAddrChange .., _, _, h => execPosAddrChange_kept _ _ _ h
  | .brownOut .., _, _, h => execBrownOut_kept _ _ _ h
  | .inputLow .., _, _, h => execInputLow_kept _ _ _ h
  | .inputHigh .., _, _, h => execInputHigh_kept _ _ _ h
  | .pwrEnAssert, _, _, h => execPwrEnAssert_kept _ _ h
  | .pwrEnDeassert, _, _, h => execPwrEnDeassert_kept _ _ h
  | .refclkLoss, _, _, h => execRefclkLoss_kept _ _ h
  | .sueshRefclkLoss, _, _, h => execSueshRefclkLoss_kept _ _ h
  | .phaseLost .., _, _, h => execPhaseLost_kept _ _ _ _ h
  | .thermalSample .., _, _, h => execThermalSample_kept _ _ _ h
  | .dieSleep .., _, _, h => execDieSleep_kept _ _ _ h
  | .dieWake .., _, _, h => execDieWake_kept _ _ _ h
  | .dieWakeComplete .., _, _, h => execDieWakeComplete_kept _ _ _ _ h
  | .pathMarginEval .., _, _, h => execPathMarginEval_kept _ _ _ _ h
  | .eyeScan .., _, _, h => execEyeScan_kept _ _ _ _ _ h
  | .retentionTest .., _, _, h => execRetentionTest_kept _ _ _ _ _ _ h
  | .dailyPrediction .., _, _, h => execDailyPrediction_kept _ _ _ _ h
  | .keeperStart .., _, _, h => execKeeperStart_kept _ _ _ _ h
  | .segmentJoin .., _, _, h => execSegmentJoin_kept _ _ _ _ _ h
  | .railUp .., _, _, h => execRailUp_kept _ _ _ h
  | .memoryTrained .., _, _, h => execMemoryTrained_kept _ _ _ h
  | .memoryRetrain .., _, _, h => execMemoryRetrain_kept _ _ _ h
  | .memoryInit .., _, _, h => execMemoryInit_kept _ _ _ _ _ h
  | .moduleReady .., _, _, h => execModuleReady_kept _ _ _ h
  | .orphanJobHoldTime .., _, _, h => execOrphanJobHoldTime_kept _ _ _ h
  | .perstDeassert, _, _, h => execPerstDeassert_kept _ _ h
  | .ideKm .., _, _, h => execIdeKm_kept _ _ _ h
  | .packetSlotWrite .., _, _, h => execPacketSlotWrite_kept _ _ _ _ _ h
  | .encapsulatedExchange .., _, _, h => execEncapsulatedExchange_kept _ _ _ _ _ h
  | .neighbourSolicitation .., _, _, h => execNeighbourSolicitation_kept _ _ _ _ h
  | .icmpv6Echo .., _, _, h => execIcmpv6Echo_kept _ _ _ _ h
  | .inputWarningCleared .., _, _, h => execInputWarningCleared_kept _ _ _ h
  | .currentLimit .., _, _, h => execCurrentLimit_kept _ _ _ _ _ h
  | .externalPowerLost .., _, _, h => execExternalPowerLost_kept _ _ _ h
  | .flitDiscarded .., _, _, h => execFlitDiscarded_kept _ _ _ h
  | .linkRetrained .., _, _, h => execLinkRetrained_kept _ _ _ _ h

/-- Whatever command runs, it changes only the parts that `writes` lists for it. -/
theorem exec_only : ∀ {c : Instr} {s t : State}, exec c s = .next t → Only (writes c) s t
  | .jobOpen .., _, _, h => execJobOpen_only _ _ _ h
  | .jobResume .., _, _, h => execJobResume_only _ _ _ h
  | .jobClose .., _, _, h => execJobClose_only _ _ _ h
  | .tableCreate .., _, _, h => execTableCreate_only _ _ _ h
  | .tableLoad .., _, _, h => execTableLoad_only _ _ _ h
  | .tableLoadAnnex .., _, _, h => execTableLoadAnnex_only _ _ _ h
  | .editionPublish .., _, _, h => execEditionPublish_only _ _ _ h
  | .discard .., _, _, h => execDiscard_only _ _ _ h
  | .shelfReplace .., _, _, h => execShelfReplace_only _ _ _ h
  | .shelfAdd .., _, _, h => execShelfAdd_only _ _ _ h
  | .shelfRemove .., _, _, h => execShelfRemove_only _ _ _ h
  | .graphLoad .., _, _, h => execGraphLoad_only _ _ _ h
  | .featureLoad .., _, _, h => execFeatureLoad_only _ _ _ h
  | .stepSubmit .., _, _, h => execStepSubmit_only _ _ _ h
  | .rowSupply .., _, _, h => execRowSupply_only _ _ _ h
  | .rowSupplyAck .., _, _, h => execRowSupplyAck_only _ _ _ h
  | .resultRead .., _, _, h => execResultRead_only _ _ _ h
  | .resultRelease .., _, _, h => execResultRelease_only _ _ _ h
  | .paramRead .., _, _, h => execParamRead_only _ _ _ h
  | .paramWrite .., _, _, h => execParamWrite_only _ _ _ h
  | .depositExport .., _, _, h => execDepositExport_only _ _ _ h
  | .depositImport .., _, _, h => execDepositImport_only _ _ _ _ _ _ _ _ h
  | .dictRead .., _, _, h => execDictRead_only _ _ _ h
  | .dictWrite .., _, _, h => execDictWrite_only _ _ _ h
  | .dictReadBlock .., _, _, h => execDictReadBlock_only _ _ _ h
  | .dictWriteBlock .., _, _, h => execDictWriteBlock_only _ _ _ h
  | .eventAck .., _, _, h => execEventAck_only _ _ _ h
  | .nop .., _, _, h => execNop_only _ _ _ h
  | .doorbell .., _, _, h => execDoorbell_only _ _ _ _ h
  | .packetTake .., _, _, h => execPacketTake_only _ _ _ _ h
  | .ringEnable .., _, _, h => execRingEnable_only _ _ _ _ h
  | .ringHead .., _, _, h => execRingHead_only _ _ _ _ h
  | .queueRegisterWrite .., _, _, h => execQueueRegisterWrite_only _ _ _ _ _ h
  | .responseWrite .., _, _, h => execResponseWrite_only _ _ _ h
  | .ringFull .., _, _, h => execRingFull_only _ _ _ h
  | .chainGapTimeout .., _, _, h => execChainGapTimeout_only _ _ _ h
  | .perstAssert, _, _, h => execPerstAssert_only _ _ h
  | .cxlLinkTrained .., _, _, h => execCxlLinkTrained_only _ _ _ _ h
  | .linkDegraded .., _, _, h => execLinkDegraded_only _ _ _ _ h
  | .getVersion, _, _, h => execGetVersion_only _ _ h
  | .getCapabilities, _, _, h => execGetCapabilities_only _ _ h
  | .negotiateAlgorithms, _, _, h => execNegotiateAlgorithms_only _ _ h
  | .getDigests, _, _, h => execGetDigests_only _ _ h
  | .getCertificate .., _, _, h => execGetCertificate_only _ _ _ _ h
  | .challenge, _, _, h => execChallenge_only _ _ h
  | .getMeasurements .., _, _, h => execGetMeasurements_only _ _ _ h
  | .keyExchange, _, _, h => execKeyExchange_only _ _ h
  | .finish .., _, _, h => execFinish_only _ _ _ _ h
  | .endSession .., _, _, h => execEndSession_only _ _ _ h
  | .heartbeat .., _, _, h => execHeartbeat_only _ _ _ h
  | .spdmKeyUpdate .., _, _, h => execSpdmKeyUpdate_only _ _ _ h
  | .sessionHeartbeatExpired .., _, _, h => execSessionHeartbeatExpired_only _ _ _ h
  | .baseRecordWrite .., _, _, h => execBaseRecordWrite_only _ _ _ _ h
  | .deltaRecordCommit, _, _, h => execDeltaRecordCommit_only _ _ h
  | .standbyImageWrite .., _, _, h => execStandbyImageWrite_only _ _ _ h
  | .verify .., _, _, h => execVerify_only _ _ _ _ _ _ h
  | .arm .., _, _, h => execArm_only _ _ _ h
  | .cancel .., _, _, h => execCancel_only _ _ _ h
  | .firmwareSwitch .., _, _, h => execFirmwareSwitch_only _ _ _ _ h
  | .roleMapWrite .., _, _, h => execRoleMapWrite_only _ _ _ h
  | .fabricPositionWrite .., _, _, h => execFabricPositionWrite_only _ _ _ h
  | .workItemDispatch .., _, _, h => execWorkItemDispatch_only _ _ _ _ _ h
  | .stepEndPass .., _, _, h => execStepEndPass_only _ _ _ _ _ h
  | .instanceComplete .., _, _, h => execInstanceComplete_only _ _ _ _ _ h
  | .sample .., _, _, h => execSample_only _ _ _ _ h
  | .gather .., _, _, h => execGather_only _ _ _ _ h
  | .scatter .., _, _, h => execScatter_only _ _ _ _ h
  | .matmul .., _, _, h => execMatmul_only _ _ _ _ h
  | .spmm .., _, _, h => execSpmm_only _ _ _ _ h
  | .copy .., _, _, h => execCopy_only _ _ _ _ h
  | .add .., _, _, h => execAdd_only _ _ _ _ h
  | .sub .., _, _, h => execSub_only _ _ _ _ h
  | .mul .., _, _, h => execMul_only _ _ _ _ h
  | .fma .., _, _, h => execFma_only _ _ _ _ h
  | .min .., _, _, h => execMin_only _ _ _ _ h
  | .max .., _, _, h => execMax_only _ _ _ _ h
  | .abs .., _, _, h => execAbs_only _ _ _ _ h
  | .neg .., _, _, h => execNeg_only _ _ _ _ h
  | .exp .., _, _, h => execExp_only _ _ _ _ h
  | .log .., _, _, h => execLog_only _ _ _ _ h
  | .recip .., _, _, h => execRecip_only _ _ _ _ h
  | .sqrt .., _, _, h => execSqrt_only _ _ _ _ h
  | .rsqrt .., _, _, h => execRsqrt_only _ _ _ _ h
  | .tanh .., _, _, h => execTanh_only _ _ _ _ h
  | .sigmoid .., _, _, h => execSigmoid_only _ _ _ _ h
  | .cmpLt .., _, _, h => execCmpLt_only _ _ _ _ h
  | .cmpLe .., _, _, h => execCmpLe_only _ _ _ _ h
  | .cmpEq .., _, _, h => execCmpEq_only _ _ _ _ h
  | .cmpNe .., _, _, h => execCmpNe_only _ _ _ _ h
  | .rsum .., _, _, h => execRsum_only _ _ _ _ h
  | .rsumsq .., _, _, h => execRsumsq_only _ _ _ _ h
  | .rmax .., _, _, h => execRmax_only _ _ _ _ h
  | .rmin .., _, _, h => execRmin_only _ _ _ _ h
  | .ramax .., _, _, h => execRamax_only _ _ _ _ h
  | .perm .., _, _, h => execPerm_only _ _ _ _ h
  | .bcast .., _, _, h => execBcast_only _ _ _ _ h
  | .vcompress .., _, _, h => execVcompress_only _ _ _ _ h
  | .vexpand .., _, _, h => execVexpand_only _ _ _ _ h
  | .softmaxRow .., _, _, h => execSoftmaxRow_only _ _ _ _ h
  | .softmaxStats .., _, _, h => execSoftmaxStats_only _ _ _ _ h
  | .softmaxApply .., _, _, h => execSoftmaxApply_only _ _ _ _ h
  | .convert .., _, _, h => execConvert_only _ _ _ _ h
  | .compress .., _, _, h => execCompress_only _ _ _ _ h
  | .update .., _, _, h => execUpdate_only _ _ _ _ h
  | .wait .., _, _, h => execWait_only _ _ _ _ h
  | .signal .., _, _, h => execSignal_only _ _ _ _ h
  | .loop .., _, _, h => execLoop_only _ _ _ _ h
  | .signalDeliver .., _, _, h => execSignalDeliver_only _ _ _ _ _ h
  | .waitLong .., _, _, h => execWaitLong_only _ _ _ _ _ h
  | .tileRetire .., _, _, h => execTileRetire_only _ _ _ _ _ h
  | .spareStart .., _, _, h => execSpareStart_only _ _ _ h
  | .selfCheck .., _, _, h => execSelfCheck_only _ _ _ _ h
  | .slipIssue .., _, _, h => execSlipIssue_only _ _ _ _ h
  | .slipLand .., _, _, h => execSlipLand_only _ _ _ _ h
  | .slipReissue .., _, _, h => execSlipReissue_only _ _ _ _ h
  | .rowCallClose .., _, _, h => execRowCallClose_only _ _ _ _ h
  | .rowCallResend .., _, _, h => execRowCallResend_only _ _ _ _ h
  | .annexStalled .., _, _, h => execAnnexStalled_only _ _ _ _ h
  | .ledgerAdd .., _, _, h => execLedgerAdd_only _ _ _ _ _ h
  | .ledgerRangeCheck .., _, _, h => execLedgerRangeCheck_only _ _ _ _ _ _ h
  | .updateApply .., _, _, h => execUpdateApply_only _ _ _ _ _ h
  | .layerRelease .., _, _, h => execLayerRelease_only _ _ _ _ _ h
  | .stepComplete .., _, _, h => execStepComplete_only _ _ _ _ h
  | .refresh .., _, _, h => execRefresh_only _ _ _ _ h
  | .layerCheck .., _, _, h => execLayerCheck_only _ _ _ _ _ _ h
  | .scaleUpdate .., _, _, h => execScaleUpdate_only _ _ _ _ _ h
  | .stuckZeroWatch .., _, _, h => execStuckZeroWatch_only _ _ _ _ h
  | .branchRebalance .., _, _, h => execBranchRebalance_only _ _ _ _ _ h
  | .spaceStalled .., _, _, h => execSpaceStalled_only _ _ _ _ h
  | .poolEvictionPass, _, _, h => execPoolEvictionPass_only _ _ h
  | .promotion .., _, _, h => execPromotion_only _ _ _ _ _ _ _ h
  | .moveCommit .., _, _, h => execMoveCommit_only _ _ _ h
  | .dmaPost .., _, _, h => execDmaPost_only _ _ _ _ h
  | .dmaTimer .., _, _, h => execDmaTimer_only _ _ _ _ h
  | .dmaComplete .., _, _, h => execDmaComplete_only _ _ _ h
  | .dmaAccessFault .., _, _, h => execDmaAccessFault_only _ _ _ _ _ _ h
  | .burstTimeout .., _, _, h => execBurstTimeout_only _ _ _ _ _ h
  | .dmaAutoAction .., _, _, h => execDmaAutoAction_only _ _ _ _ _ h
  | .resume .., _, _, h => execResume_only _ _ _ h
  | .skip .., _, _, h => execSkip_only _ _ _ h
  | .abort .., _, _, h => execAbort_only _ _ _ h
  | .null .., _, _, h => execNull_only _ _ _ _ h
  | .hello .., _, _, h => execHello_only _ _ _ _ _ h
  | .assoc .., _, _, h => execAssoc_only _ _ _ _ _ _ _ _ h
  | .e2eAck .., _, _, h => execE2eAck_only _ _ _ _ _ _ h
  | .gatherReq .., _, _, h => execGatherReq_only _ _ _ _ _ _ h
  | .gatherData .., _, _, h => execGatherData_only _ _ _ _ _ _ h
  | .scatterRaw .., _, _, h => execScatterRaw_only _ _ _ _ _ _ h
  | .scatterPartial .., _, _, h => execScatterPartial_only _ _ _ _ _ _ h
  | .endContrib .., _, _, h => execEndContrib_only _ _ _ _ _ _ h
  | .rangeReport .., _, _, h => execRangeReport_only _ _ _ _ _ _ h
  | .reduce .., _, _, h => execReduce_only _ _ _ _ _ _ h
  | .broadcast .., _, _, h => execBroadcast_only _ _ _ _ _ _ h
  | .handoff .., _, _, h => execHandoff_only _ _ _ _ _ _ h
  | .logMirror .., _, _, h => execLogMirror_only _ _ _ _ _ _ h
  | .deposit .., _, _, h => execDeposit_only _ _ _ _ _ _ h
  | .probe .., _, _, h => execProbe_only _ _ _ _ _ _ h
  | .answer .., _, _, h => execAnswer_only _ _ _ _ _ _ h
  | .query .., _, _, h => execQuery_only _ _ _ _ _ _ h
  | .queryAnswer .., _, _, h => execQueryAnswer_only _ _ _ _ _ _ h
  | .fence .., _, _, h => execFence_only _ _ _ _ _ _ h
  | .keyUpdate .., _, _, h => execKeyUpdate_only _ _ _ _ _ _ h
  | .keyUpdateDue .., _, _, h => execKeyUpdateDue_only _ _ _ h
  | .linkAckDue .., _, _, h => execLinkAckDue_only _ _ _ h
  | .e2eAckDue .., _, _, h => execE2eAckDue_only _ _ _ h
  | .e2eResend .., _, _, h => execE2eResend_only _ _ _ _ h
  | .laneFault .., _, _, h => execLaneFault_only _ _ _ _ h
  | .portRetry .., _, _, h => execPortRetry_only _ _ _ _ h
  | .sueshPortTrained .., _, _, h => execSueshPortTrained_only _ _ _ _ h
  | .portWindowExpired .., _, _, h => execPortWindowExpired_only _ _ _ h
  | .routeEmpty .., _, _, h => execRouteEmpty_only _ _ _ h
  | .landingMove .., _, _, h => execLandingMove_only _ _ _ _ h
  | .creditStrictOrder .., _, _, h => execCreditStrictOrder_only _ _ _ h
  | .creditWaitLong .., _, _, h => execCreditWaitLong_only _ _ _ _ _ h
  | .linkReplay .., _, _, h => execLinkReplay_only _ _ _ _ _ _ _ h
  | .poisonConsumed .., _, _, h => execPoisonConsumed_only _ _ _ _ _ _ _ _ _ h
  | .rowRepair .., _, _, h => execRowRepair_only _ _ _ _ _ _ _ _ h
  | .rowRepaired .., _, _, h => execRowRepaired_only _ _ _ _ _ _ _ h
  | .hardRepair .., _, _, h => execHardRepair_only _ _ _ _ _ _ _ _ h
  | .scrub .., _, _, h => execScrub_only _ _ _ _ _ _ _ _ h
  | .logCommit .., _, _, h => execLogCommit_only _ _ _ _ h
  | .depositIntervalEval, _, _, h => execDepositIntervalEval_only _ _ h
  | .depositStart .., _, _, h => execDepositStart_only _ _ _ _ h
  | .depositCommit .., _, _, h => execDepositCommit_only _ _ _ _ h
  | .livenessProbeDue, _, _, h => execLivenessProbeDue_only _ _ h
  | .livenessTimeout .., _, _, h => execLivenessTimeout_only _ _ _ h
  | .positionFailed .., _, _, h => execPositionFailed_only _ _ _ _ h
  | .takeoverStarted .., _, _, h => execTakeoverStarted_only _ _ _ _ h
  | .takeoverComplete .., _, _, h => execTakeoverComplete_only _ _ _ _ _ h
  | .positionFolded .., _, _, h => execPositionFolded_only _ _ _ _ _ h
  | .recoveryExhausted .., _, _, h => execRecoveryExhausted_only _ _ _ h
  | .restoreInPlace .., _, _, h => execRestoreInPlace_only _ _ _ h
  | .selfFenced, _, _, h => execSelfFenced_only _ _ h
  | .gdpSpdm .., _, _, h => execGdpSpdm_only _ _ _ _ _ _ h
  | .gdpRead .., _, _, h => execGdpRead_only _ _ _ h
  | .gdpWrite .., _, _, h => execGdpWrite_only _ _ _ h
  | .gdpReadBlock .., _, _, h => execGdpReadBlock_only _ _ _ h
  | .gdpWriteBlock .., _, _, h => execGdpWriteBlock_only _ _ _ h
  | .subscribeStart .., _, _, h => execSubscribeStart_only _ _ _ h
  | .subscribeStop .., _, _, h => execSubscribeStop_only _ _ _ h
  | .subscribeAck .., _, _, h => execSubscribeAck_only _ _ _ h
  | .eventFrameSend .., _, _, h => execEventFrameSend_only _ _ _ h
  | .eventFrameResend .., _, _, h => execEventFrameResend_only _ _ _ h
  | .blockGapTimeout .., _, _, h => execBlockGapTimeout_only _ _ _ _ h
  | .eventCheckpoint, _, _, h => execEventCheckpoint_only _ _ h
  | .beaconLost, _, _, h => execBeaconLost_only _ _ h
  | .beaconSeen, _, _, h => execBeaconSeen_only _ _ h
  | .posAddrChange .., _, _, h => execPosAddrChange_only _ _ _ h
  | .brownOut .., _, _, h => execBrownOut_only _ _ _ h
  | .inputLow .., _, _, h => execInputLow_only _ _ _ h
  | .inputHigh .., _, _, h => execInputHigh_only _ _ _ h
  | .pwrEnAssert, _, _, h => execPwrEnAssert_only _ _ h
  | .pwrEnDeassert, _, _, h => execPwrEnDeassert_only _ _ h
  | .refclkLoss, _, _, h => execRefclkLoss_only _ _ h
  | .sueshRefclkLoss, _, _, h => execSueshRefclkLoss_only _ _ h
  | .phaseLost .., _, _, h => execPhaseLost_only _ _ _ _ h
  | .thermalSample .., _, _, h => execThermalSample_only _ _ _ h
  | .dieSleep .., _, _, h => execDieSleep_only _ _ _ h
  | .dieWake .., _, _, h => execDieWake_only _ _ _ h
  | .dieWakeComplete .., _, _, h => execDieWakeComplete_only _ _ _ _ h
  | .pathMarginEval .., _, _, h => execPathMarginEval_only _ _ _ _ h
  | .eyeScan .., _, _, h => execEyeScan_only _ _ _ _ _ h
  | .retentionTest .., _, _, h => execRetentionTest_only _ _ _ _ _ _ h
  | .dailyPrediction .., _, _, h => execDailyPrediction_only _ _ _ _ h
  | .keeperStart .., _, _, h => execKeeperStart_only _ _ _ _ h
  | .segmentJoin .., _, _, h => execSegmentJoin_only _ _ _ _ _ h
  | .railUp .., _, _, h => execRailUp_only _ _ _ h
  | .memoryTrained .., _, _, h => execMemoryTrained_only _ _ _ h
  | .memoryRetrain .., _, _, h => execMemoryRetrain_only _ _ _ h
  | .memoryInit .., _, _, h => execMemoryInit_only _ _ _ _ _ h
  | .moduleReady .., _, _, h => execModuleReady_only _ _ _ h
  | .orphanJobHoldTime .., _, _, h => execOrphanJobHoldTime_only _ _ _ h
  | .perstDeassert, _, _, h => execPerstDeassert_only _ _ h
  | .ideKm .., _, _, h => execIdeKm_only _ _ _ h
  | .packetSlotWrite .., _, _, h => execPacketSlotWrite_only _ _ _ _ _ h
  | .encapsulatedExchange .., _, _, h => execEncapsulatedExchange_only _ _ _ _ _ h
  | .neighbourSolicitation .., _, _, h => execNeighbourSolicitation_only _ _ _ _ h
  | .icmpv6Echo .., _, _, h => execIcmpv6Echo_only _ _ _ _ h
  | .inputWarningCleared .., _, _, h => execInputWarningCleared_only _ _ _ h
  | .currentLimit .., _, _, h => execCurrentLimit_only _ _ _ _ _ h
  | .externalPowerLost .., _, _, h => execExternalPowerLost_only _ _ _ h
  | .flitDiscarded .., _, _, h => execFlitDiscarded_only _ _ _ h
  | .linkRetrained .., _, _, h => execLinkRetrained_only _ _ _ _ h

/-! ### Every step -/

/-- A step idles, or runs the command at the front of the queue on the state with the queue's rest. -/
theorem step_cases {s t : State} (h : step s = .next t) :
    t = s ∨ ∃ c rest, s.pending = c :: rest ∧ exec c { s with pending := rest } = .next t := by
  unfold step at h
  split at h
  · cases h
    exact .inl rfl
  · exact .inr ⟨_, _, ‹_›, h⟩

/-- Settles O4: every command keeps the canonical forms and the sizes, and taking it off the queue touches none of them. -/
theorem stepsKeepTheInvariant : Obligations.StepsKeepTheInvariant := by
  intro s t hs h
  obtain rfl | ⟨c, rest, -, hexec⟩ := step_cases h
  · exact hs
  · exact (exec_kept hexec).inv hs

/-- Settles O5: no command gives back what is worn, and an idle step wears nothing. -/
theorem wearOnlyGrows : Obligations.WearOnlyGrows := by
  intro s t h
  obtain rfl | ⟨c, rest, -, hexec⟩ := step_cases h
  · exact (Kept.refl _).wear
  · exact (exec_kept hexec).wear

/-- Settles O6, command by command. -/
theorem commandsChangeOnlyTheirParts : Obligations.CommandsChangeOnlyTheirParts :=
  fun _ _ _ => exec_only

/-- Settles O1. -/
theorem stepRunsTheFrontCommand : Obligations.StepRunsTheFrontCommand := by
  constructor
  · intro c rest s h
    simp only [step, h]
  · intro s h
    simp only [step, h]

/-- Settles O2: each arm of `exec` answers a next state as it stands. -/
theorem everyCommandAnswers : Obligations.EveryCommandAnswers := by
  intro c s
  cases c <;> exact ⟨_, rfl⟩

/-! ### Reset -/

theorem State.inv_reset : State.reset.Inv :=
  ⟨carrelWf_nil, rfl, by simp [State.reset], by simp [State.reset], rfl⟩

/-- Settles O3. -/
theorem resetMeetsTheInvariant : Obligations.ResetMeetsTheInvariant :=
  ⟨State.inv_reset, rfl, rfl, rfl, rfl, rfl⟩

end Sys2Proof.Machine
end

section
/-!
The link to the host (R268 to R271, R468) and the responder's answers over Data Object Exchange (R382, R388, R389).
-/
namespace Sys2Proof.Machine
open Sys2Proof

/-! ### A change of every queue -/

theorem aGet_map_values {κ α : Type} [DecidableEq κ] (l : List (κ × α)) (f : κ → α → α) (k : κ) :
    aGet (l.map fun p => (p.1, f p.1 p.2)) k = (aGet l k).map (f k) := by
  induction l with
  | nil => rfl
  | cons p l ih =>
    obtain ⟨x, v⟩ := p
    by_cases h : x = k
    · simp [aGet, h]
    · simp [aGet, h, ih]

/-- A change of every queue touched is one of every queue, where a queue at reset stays so. -/
theorem State.queue_mapQueues (s : State) (f : Nat → Queue → Queue) (q : Nat) (hf : f q {} = {}) : (s.mapQueues f).queue q = f q (s.queue q) := by
  unfold State.queue State.mapQueues aGetD
  simp only [aGet_map_values]
  cases aGet s.port.queues q with
  | none => exact hf.symm
  | some x => rfl

/-! ### What leaves a queue's session -/

theorem State.session_updQueue (s : State) (p q : Nat) (f : Queue → Queue) (hf : ∀ x, (f x).session = x.session) :
    ((s.updQueue p f).queue q).session = (s.queue q).session := by
  by_cases h : p = q
  · subst h
    rw [State.queue_updQueue_self, hf]
  · rw [State.queue_updQueue_other _ _ _ _ h]

theorem State.session_enqueue (s : State) (p id q : Nat) (r : Response) : ((s.enqueue p id r).queue q).session = (s.queue q).session := by
  unfold State.enqueue
  split
  · exact s.session_updQueue p q _ fun _ => rfl
  · rfl

theorem State.session_releaseRoom (s : State) (p opcode q : Nat) : ((s.releaseRoom p opcode).queue q).session = (s.queue q).session := by
  unfold State.releaseRoom
  split
  · rfl
  · exact s.session_updQueue p q _ fun _ => rfl

theorem State.session_refuseWith (s : State) (c : Command) (st : Status) (b : List Byte) (q : Nat) :
    ((s.refuseWith c st b).queue q).session = (s.queue q).session := by
  unfold State.refuseWith
  rw [State.session_enqueue, State.queue_dropInFlight, State.session_releaseRoom]

theorem State.session_dropChain (s : State) (p q : Nat) : ((s.dropChain p).queue q).session = (s.queue q).session := by
  unfold State.dropChain
  split
  · rw [State.session_refuseWith]
    exact s.session_updQueue p q _ fun _ => rfl
  · rfl

/-- Discarding the open chains of queues leaves every queue's session. -/
theorem State.session_dropChains (s : State) (l : List Nat) (q : Nat) : ((l.foldl State.dropChain s).queue q).session = (s.queue q).session := by
  induction l generalizing s with
  | nil => rfl
  | cons p l ih => rw [List.foldl_cons, ih, State.session_dropChain]

/-! ### What an event leaves of the port -/

/-- All of the port but its queues is as it was. -/
def PortKept (s t : State) : Prop := t.port = { s.port with queues := t.port.queues }

theorem PortKept.refl (s : State) : PortKept s s := rfl
theorem PortKept.trans {s t u : State} (h : PortKept s t) (g : PortKept t u) : PortKept s u := by
  unfold PortKept at *
  rw [g, h]

theorem PortKept.updQueue (s : State) (q : Nat) (f : Queue → Queue) : PortKept s (s.updQueue q f) := rfl

theorem PortKept.of_port {s t : State} (h : t.port = s.port) : PortKept s t := by
  unfold PortKept
  rw [h]

theorem PortKept.foldl {α : Type} (f : State → α → State) (l : List α) (s : State) (h : ∀ s a, PortKept s (f s a)) : PortKept s (l.foldl f s) := by
  induction l generalizing s with
  | nil => exact PortKept.refl s
  | cons a l ih => exact (h s a).trans (ih _)

theorem State.storeEvent_portKept (s : State) (q : Nat) (e : EventRec) (id : Nat) : PortKept s (s.storeEvent q e id) := by
  unfold State.storeEvent
  split
  · exact PortKept.updQueue ..
  · exact PortKept.of_port ((State.add_only ..).eq .port rfl)

theorem State.offer_port (s : State) (e : EventRec) : (s.offer e).port = s.port := (State.offer_only s e).eq .port rfl

theorem State.deliver_portKept (s : State) (e : EventRec) (slot : Option Nat) : PortKept s (s.deliver e slot) := by
  unfold State.deliver
  split
  · split
    · exact PortKept.refl s
    · split
      · exact PortKept.refl s
      · split
        · exact State.storeEvent_portKept ..
        · exact PortKept.refl s
  · exact (PortKept.foldl _ _ _ fun s p => s.storeEvent_portKept ..).trans (PortKept.of_port (State.offer_port ..))

theorem State.record_portKept (s : State) (e : EventRec) (slot : Option Nat) : PortKept s (s.record e slot) := by
  unfold State.record
  split
  · exact PortKept.refl s
  · exact State.deliver_portKept ..

theorem State.raise_portKept (s : State) (code : Nat) (src : Source) (u a b c : Nat) : PortKept s (s.raise code src u a b c) := s.record_portKept ..

theorem State.raiseJob_portKept (s : State) (code slot step a b c : Nat) : PortKept s (s.raiseJob code slot step a b c) := s.record_portKept ..

/-- An event raised after operations that leave the log alone is raised from the start. -/
theorem State.raise_raised_of_log {s u : State} {code : Nat} {src : Source} {unit a b c : Nat} (h : u.log = s.log) :
    Raised s (u.raise code src unit a b c) code src unit 0 a b c := Raised.of_log (u.raise_raised code src unit a b c) h

theorem State.raiseJob_raised_of_log {s u : State} {code slot step a b c : Nat} (h : u.log = s.log) :
    Raised s (u.raiseJob code slot step a b c) code .job slot step a b c := Raised.of_log (u.raiseJob_raised code slot step a b c) h

theorem PortKept.width {s t : State} (h : PortKept s t) : t.port.width = s.port.width := by rw [h]
theorem PortKept.rate {s t : State} (h : PortKept s t) : t.port.rate = s.port.rate := by rw [h]

/-! ### A port reset -/

theorem State.perst_dropChain (s : State) (p : Nat) : (s.dropChain p).port.perst = s.port.perst := by
  unfold State.dropChain State.refuseWith State.enqueue State.releaseRoom
  repeat' split
  all_goals rfl

theorem State.perst_dropChains (s : State) (l : List Nat) : (l.foldl State.dropChain s).port.perst = s.port.perst := by
  induction l generalizing s with
  | nil => rfl
  | cons p l ih => rw [List.foldl_cons, ih, State.perst_dropChain]

/-- The port after a reset: the chains are discarded, every queue's registers stand at reset, and the link is down. -/
theorem State.port_portReset (s : State) : s.portReset.port =
    { (((s.port.queues.map (·.1)).foldl State.dropChain s).mapQueues fun _ x => x.portReset).port with width := 0, rate := 0, ide := 0 } := by
  unfold State.portReset
  extract_lets t u
  exact (State.endDma_only_of (by decide) _ _ _ fun s c d h => State.abortOutcome_ring s c d (by simpa using h) : Only [.dma] _ _).eq .port rfl

theorem State.queue_portReset (s : State) (q : Nat) :
    s.portReset.queue q = (((s.port.queues.map (·.1)).foldl State.dropChain s).queue q).portReset := by
  rw [← State.queue_mapQueues _ (fun _ x => x.portReset) q rfl, State.queue, s.port_portReset]
  rfl

theorem State.session_portReset (s : State) (q : Nat) : (s.portReset.queue q).session = (s.queue q).session := by
  rw [State.queue_portReset]
  exact State.session_dropChains ..

/-! ### The link trains, degrades, is keyed and goes down -/

theorem State.linkTrained_up {s : State} {width rate : Nat} (hgood : s.bring.pwrGood = true) (hperst : s.port.perst = false)
    (hwidth : s.port.width ≤ width) (hrate : s.port.rate ≤ rate) (hform : linkForm width rate = true) :
    s.linkTrained width rate = { s with port := { s.port with width := width, rate := rate } } := by
  simp [State.linkTrained, hgood, hperst, hwidth, hrate, hform]

theorem State.linkDegraded_down {s : State} {width rate : Nat} (hform : linkForm width rate = true)
    (hless : width < s.port.width ∨ rate < s.port.rate) :
    let t := s.linkDegraded width rate
    t.port.width = width ∧ t.port.rate = rate ∧ Added s t 0x2200 5 1 ∧ Raised s t 0x2201 .cxl 0 0 width rate 0 := by
  let u : State := { s with port := { s.port with width := width, rate := rate } }
  have ht : s.linkDegraded width rate = (u.add 0x2200 5 1).raise 0x2201 .cxl 0 width rate 0 := by
    simp [State.linkDegraded, hform, hless, u]
  have hport := (u.add 0x2200 5 1).raise_portKept 0x2201 .cxl 0 width rate 0
  rw [ht]
  refine ⟨hport.width, hport.rate, ?_, State.raise_raised_of_log rfl⟩
  exact (State.num_raise _ _ _ _ _ _ _ _ _ (by simp [eventKey, entryKey])).trans (State.num_add_self u ..)

/-- Settles O11: a port reset leaves the binding of every queue to its session, and its registers at reset. -/
theorem linkAndPortReset : Obligations.LinkAndPortReset := by
  refine ⟨fun s width rate hgood hperst hwidth hrate hform => ?_, fun s width rate hform hless => ?_, fun s both hup => ?_, fun s => rfl, fun s => ?_,
    fun s hup => ?_⟩
  · exact congrArg Host.Outcome.next (State.linkTrained_up hgood hperst hwidth hrate hform)
  · exact ⟨_, rfl, State.linkDegraded_down hform hless⟩
  · exact congrArg Host.Outcome.next (if_pos hup)
  · refine ⟨_, rfl, ?_, ?_, ?_, fun q => ?_⟩
    · rw [State.port_portReset]
      exact State.perst_dropChains ..
    · rw [State.port_portReset]
    · rw [State.port_portReset]
    · refine ⟨?_, ?_, ?_, ?_, ?_, ?_, ?_, State.session_portReset ..⟩ <;> rw [State.queue_portReset] <;> rfl
  · refine ⟨s.portReset, ?_, ?_, ?_, ?_, fun q => ⟨?_, State.session_portReset ..⟩⟩
    · exact congrArg Host.Outcome.next (if_pos hup)
    · rw [State.port_portReset]
    · rw [State.port_portReset]
    · rw [State.port_portReset]
    · rw [State.queue_portReset]
      rfl

/-! ### The responder -/

/-- An answer whose bytes SPDM defines changes the last answer and the free values drawn. -/
theorem State.spdmFree_answers (s : State) (tr : Transport) (a : SpdmAnswer) :
    Only [.reply, .draws] s (s.spdmFree tr a) ∧ ∃ d, (s.spdmFree tr a).reply = some (.spdm tr a d) :=
  ⟨(State.spdmFree_only ..).mono (by decide), _, rfl⟩

theorem State.doe_of_responds {s : State} (h : s.responds .doe = true) (m : SpdmMsg) : s.doe m = s.spdm .doe m := if_pos h

/-- Settles O12: where the responder answers, each request is answered by its own branch. -/
theorem spdmRequestsAnswered : Obligations.SpdmRequestsAnswered := by
  intro s h
  have run (m : SpdmMsg) : (Host.Outcome.next (s.doe m) : Host.Outcome State Fault Refusal) = .next (s.spdm .doe m) := by rw [State.doe_of_responds h]
  refine ⟨run .getVersion, ⟨_, run .getCapabilities, s.spdmFree_answers ..⟩, ⟨_, run .negotiateAlgorithms, s.spdmFree_answers ..⟩,
    ⟨_, run .challenge, s.spdmFree_answers ..⟩, run .getDigests, fun off len => run (.getCertificate off len), fun i => run (.getMeasurements i),
    fun id hlive => (run (.heartbeat id)).trans ?_⟩
  exact congrArg Host.Outcome.next (if_pos hlive)

end Sys2Proof.Machine
end

section
/-!
Byte lists as little-endian numbers (R4): what is written is what is read.
-/
namespace Sys2Proof.Machine
open Sys2Proof

@[simp] theorem length_toLE (w n : Nat) : (toLE w n).length = w := by
  induction w generalizing n with
  | zero => rfl
  | succ w ih => simp [toLE, ih]

/-- Bytes written read as the number, cut to their width. -/
@[simp] theorem leNat_toLE (w n : Nat) : leNat (toLE w n) = n % 256 ^ w := by
  induction w generalizing n with
  | zero => simp [toLE, leNat, Nat.mod_one]
  | succ w ih =>
    rw [toLE, leNat, ih, pow_succ', Nat.mod_mul]
    simp

theorem leNat_append (a b : List Byte) : leNat (a ++ b) = leNat a + 256 ^ a.length * leNat b := by
  induction a with
  | nil => simp [leNat]
  | cons x a ih => rw [List.cons_append, leNat, leNat, ih, List.length_cons, pow_succ']; ring

@[simp] theorem length_zeros (n : Nat) : (zeros n).length = n := List.length_replicate

@[simp] theorem length_fitTo (n : Nat) (b : List Byte) : (fitTo n b).length = n := by
  simp [fitTo]
  omega

end Sys2Proof.Machine
end

section
/-!
Sticky flags of a ledger element (R107), and the check of a spine label (R146).
-/
namespace Sys2Proof.Machine
open Sys2Proof

/-! ### Sticky flags -/

/-- A finite addend adds its integer and leaves the flags (R105, R107). -/
theorem LedgerElem.addVal_of_finite (l : LedgerElem) (w : Int) {v : Val} (h : v.isFinite = true) :
    (l.addVal w v).1 = { l with sum := l.sum + ledgerInt w v } := by
  cases v with
  | nan => cases h
  | inf => cases h
  | zero => rfl
  | fin => rfl

/-- Settles O48: an addend merges into its element, and merging clears no flag. -/
theorem flagsStick : Obligations.FlagsStick := by
  refine ⟨fun l w => ⟨rfl, rfl, rfl⟩, fun l w v => ⟨fun h => ?_, fun h => ?_, fun h => ?_, fun h => ?_⟩, fun l w => ⟨fun h => ?_, ?_, ?_, ?_⟩⟩
  · simp [LedgerElem.addVal_eq_merge l, LedgerElem.merge, h]
  · simp [LedgerElem.addVal_eq_merge l, LedgerElem.merge, h]
  · simp [LedgerElem.addVal_eq_merge l, LedgerElem.merge, h]
  · rw [LedgerElem.addVal_of_finite l w h]
  · exact if_pos (by simpa using h)
  all_goals
    intro hnan hpos hneg
    simp [LedgerElem.val, hnan, hpos, hneg]

/-! ### The label check -/

theorem crcBit_lt (c : Nat) (b : Bool) : crcBit c b < 65536 := by
  have h : 2 * c % 65536 < 2 ^ 16 := Nat.mod_lt _ (by decide)
  unfold crcBit
  dsimp only
  split
  · exact Nat.xor_lt_two_pow h (by decide)
  · exact h

theorem crcBits_lt (l : List Nat) (x : Byte) (c : Nat) (h : c < 65536) :
    l.foldl (fun c i => crcBit c (x.toNat.testBit (7 - i))) c < 65536 := by
  induction l generalizing c with
  | nil => exact h
  | cons i l ih => exact ih _ (crcBit_lt ..)

theorem crc16_lt (b : List Byte) : crc16 b < 65536 := by
  have step (b : List Byte) (c : Nat) (h : c < 65536) :
      b.foldl (fun c x => (List.range 8).foldl (fun c i => crcBit c (x.toNat.testBit (7 - i))) c) c < 65536 := by
    induction b generalizing c with
    | nil => exact h
    | cons x b ih => exact ih _ (crcBits_lt _ x c h)
  exact step b _ (by decide)

/-- A label's bytes are 30 of fields, then the check of these. -/
theorem Label.bytes_eq (l : Label) : ∃ b : List Byte, b.length = 30 ∧ l.bytes = b ++ toLE 2 (crc16 b) :=
  ⟨_, length_toLE .., rfl⟩

theorem Label.length_bytes (l : Label) : l.bytes.length = 32 := by
  obtain ⟨b, hb, h⟩ := l.bytes_eq
  simp [h, hb]

/-- Every label written passes the check (R146). -/
theorem Label.labelCheck_bytes (l : Label) : labelCheck l.bytes = true := by
  obtain ⟨b, hb, h⟩ := l.bytes_eq
  have htake : l.bytes.take 30 = b := by rw [h, ← hb, List.take_left]
  have hdrop : l.bytes.drop 30 = toLE 2 (crc16 b) := by rw [h, ← hb, List.drop_left]
  have hcrc := crc16_lt b
  have hcheck : leAt l.bytes 30 2 = crc16 b := by
    rw [leAt, slice, hdrop, List.take_of_length_le (by simp), leNat_toLE]
    exact Nat.mod_eq_of_lt (by simpa using hcrc)
  simp [labelCheck, htake, hcheck]

/-- Settles O49: the label's last two bytes are the CRC of the others, and a label is read only where they are. -/
theorem labelsAreChecked : Obligations.LabelsAreChecked := by
  refine ⟨by decide +kernel, fun l => ⟨l.length_bytes, l.labelCheck_bytes⟩, fun g h => ?_⟩
  unfold readLabel
  exact if_neg (by simp [h])

end Sys2Proof.Machine
end

section
/-!
Draws of the sampler (R74, R76), schedule curves (R225), and the least scale exponent (R201).
-/
namespace Sys2Proof.Machine
open Sys2Proof

/-! ### Draws -/

/-- A uniform integer below n lies below n (R74). -/
theorem uniform_lt {w n : Nat} (hw : w < 2 ^ 32) (hn : 0 < n) : uniform w n < n := by
  unfold uniform
  rw [Nat.div_lt_iff_lt_mul (by decide), Nat.mul_comm n]
  exact Nat.mul_lt_mul_of_pos_right hw hn

theorem length_insertOnce {a : Nat} {l : List Nat} (h : a ∉ l) : (insertOnce a l).length = l.length + 1 := by
  induction l with
  | nil => rfl
  | cons b l ih =>
    obtain ⟨hne, hl⟩ := not_or.1 (List.mem_cons.not.1 h)
    unfold insertOnce
    split
    · rfl
    · rw [List.length_cons, ih hl, List.length_cons]

/-- What one draw of Floyd's procedure adds to positions below `j`: the draw, or `j` where the draw is there already (R76). -/
def floydPick (t j : Nat) (c : List Nat) : Nat := if c.contains t then j else t

theorem floydPick_not_mem {t j : Nat} {c : List Nat} (h : ∀ p ∈ c, p < j) : floydPick t j c ∉ c := by
  unfold floydPick
  split
  · exact fun hmem => (h j hmem).false
  · next hnot => simpa using hnot

theorem floydPick_le {t j : Nat} (c : List Nat) (h : t ≤ j) : floydPick t j c ≤ j := by
  unfold floydPick
  split
  · exact le_rfl
  · exact h

/-- One draw of Floyd's procedure selects one position more, below `j + 1`. -/
theorem floyd_step {t j : Nat} {c : List Nat} (ht : t ≤ j) (hrise : rising c = true) (hlt : ∀ p ∈ c, p < j) :
    (insertOnce (floydPick t j c) c).length = c.length + 1 ∧ rising (insertOnce (floydPick t j c) c) = true ∧
      ∀ p ∈ insertOnce (floydPick t j c) c, p < j + 1 := by
  refine ⟨length_insertOnce (floydPick_not_mem hlt), rising_insertOnce _ _ hrise, fun p hp => ?_⟩
  obtain rfl | hp := insertOnce_mem _ _ _ hp
  · exact Nat.lt_succ_of_le (floydPick_le c ht)
  · exact (hlt p hp).trans (Nat.lt_succ_self j)

/-- Floyd's procedure selects f of d positions, each once, in ascending order (R76). -/
theorem floyd_selects {word : Nat → Nat} {f d : Nat} (hword : ∀ i, word i < 2 ^ 32) (hfd : f ≤ d) :
    (floyd word f d).length = f ∧ rising (floyd word f d) = true ∧ ∀ p ∈ floyd word f d, p < d := by
  let pick (c : List Nat) (i : Nat) : List Nat := insertOnce (floydPick (uniform (word i) (d - f + i + 1)) (d - f + i) c) c
  have key (n : Nat) : ((List.range n).foldl pick []).length = n ∧ rising ((List.range n).foldl pick []) = true ∧
      ∀ p ∈ (List.range n).foldl pick [], p < d - f + n := by
    induction n with
    | zero => exact ⟨rfl, rfl, by simp⟩
    | succ n ih =>
      obtain ⟨hlen, hrise, hlt⟩ := ih
      rw [List.range_succ, List.foldl_append, List.foldl_cons, List.foldl_nil]
      obtain ⟨hlen', hrise', hlt'⟩ := floyd_step (Nat.le_of_lt_succ (uniform_lt (hword n) (Nat.succ_pos (d - f + n)))) hrise hlt
      exact ⟨hlen'.trans (by rw [hlen]), hrise', hlt'⟩
  have h := key f
  rwa [Nat.sub_add_cancel hfd] at h

/-! ### Schedule curves -/

theorem curveAt_of_le {k : Nat × Nat} {s : Nat} (rest : List (Nat × Nat)) (h : s ≤ k.1) : curveAt (k :: rest) s = k.2 := by
  cases rest with
  | nil => rfl
  | cons q rest => exact if_pos h

theorem curveAt_of_ge {p q : Nat × Nat} {s : Nat} (rest : List (Nat × Nat)) (hp : p.1 < s) (hq : q.1 ≤ s) :
    curveAt (p :: q :: rest) s = curveAt (q :: rest) s := by
  rw [curveAt, if_neg hp.not_ge, if_neg hq.not_gt]

/-- The steps of a curve's first knots lie below those of its later ones (R224). -/
theorem rising_knots {p : Nat × Nat} {ks : List (Nat × Nat)} (h : rising ((p :: ks).map (·.1)) = true) :
    (∀ k ∈ ks, p.1 < k.1) ∧ rising (ks.map (·.1)) = true := by
  rw [rising_iff, List.map_cons, List.pairwise_cons, ← rising_iff] at h
  exact ⟨fun k hk => h.1 _ (List.mem_map_of_mem hk), h.2⟩

/-- A curve from its first knot's step on is that of the rest of its knots, from their first step on. -/
theorem curveAt_skip {p q : Nat × Nat} {rest : List (Nat × Nat)} {k : Nat × Nat} {s : Nat} (h : rising ((p :: q :: rest).map (·.1)) = true)
    (hk : k ∈ q :: rest) (hs : k.1 ≤ s) : curveAt (p :: q :: rest) s = curveAt (q :: rest) s := by
  obtain ⟨hp, htail⟩ := rising_knots h
  obtain ⟨hq, -⟩ := rising_knots htail
  have hqk : q.1 ≤ k.1 := by
    obtain rfl | hk := List.mem_cons.1 hk
    · exact le_rfl
    · exact (hq k hk).le
  exact curveAt_of_ge rest ((hp k hk).trans_le hs) (hqk.trans hs)

theorem curveAt_knot {ks : List (Nat × Nat)} (h : rising (ks.map (·.1)) = true) : ∀ k ∈ ks, curveAt ks k.1 = k.2 := by
  induction ks with
  | nil => simp
  | cons p ks ih =>
    intro k hk
    obtain rfl | hk := List.mem_cons.1 hk
    · exact curveAt_of_le ks le_rfl
    · cases ks with
      | nil => cases hk
      | cons q rest => rw [curveAt_skip h hk le_rfl, ih (rising_knots h).2 k hk]

theorem curveAt_last {ks : List (Nat × Nat)} (h : rising (ks.map (·.1)) = true) {k : Nat × Nat} {s : Nat} (hk : ks.getLast? = some k) (hs : k.1 ≤ s) :
    curveAt ks s = k.2 := by
  induction ks with
  | nil => cases hk
  | cons p ks ih =>
    cases ks with
    | nil => cases hk; rfl
    | cons q rest =>
      rw [List.getLast?_cons_cons] at hk
      rw [curveAt_skip h (List.mem_of_getLast? hk) hs, ih (rising_knots h).2 hk]

/-! ### The least exponent -/

/-- Where an exponent is enough, the least one is found among −127 to 127 (R124, R201). -/
theorem leastExp_eq {a : Val} {f : Nat} (h : a.le (.fin false f 1 127) = true) :
    ∃ i : Nat, i < 255 ∧ leastExp a f = Int.ofNat i - 127 ∧ a.le (.fin false f 1 (Int.ofNat i - 127)) = true ∧
      ∀ k < i, a.le (.fin false f 1 (Int.ofNat k - 127)) = false := by
  unfold leastExp
  cases hfind : (List.range 255).find? fun (i : Nat) => a.le (.fin false f 1 (Int.ofNat i - 127)) with
  | none =>
    have := List.find?_eq_none.1 hfind 254 (by decide)
    exact absurd h this
  | some i =>
    obtain ⟨hi, hmem, hless⟩ := List.find?_range_eq_some.1 hfind
    exact ⟨i, List.mem_range.1 hmem, rfl, hi, fun k hk => by simpa using hless k hk⟩

/-- Settles O46: each draw of Floyd's procedure adds one position, a curve is searched knot by knot, and the exponents from −127 up. -/
theorem drawsCurvesAndExponents : Obligations.DrawsCurvesAndExponents := by
  refine ⟨⟨fun w n hw hn => ⟨rfl, uniform_lt hw hn⟩, fun word f d hword hfd => floyd_selects hword hfd⟩, fun ks h => ⟨curveAt_knot h, ?_, ?_⟩, ?_⟩
  · intro k s hk hs
    cases ks with
    | nil => cases hk
    | cons p ks => cases hk; exact curveAt_of_le ks hs
  · intro k s hk hs
    exact curveAt_last h hk hs
  · intro a f _ h
    obtain ⟨i, hlt, heq, hle, hless⟩ := leastExp_eq h
    simp only [Int.ofNat_eq_natCast] at heq hle hless
    rw [heq]
    refine ⟨by omega, by omega, hle, fun e he hei => ?_⟩
    obtain ⟨k, rfl⟩ : ∃ k : Nat, e = k - 127 := ⟨(e + 127).toNat, by omega⟩
    exact hless k (by omega)

end Sys2Proof.Machine
end

section
/-!
Matrix products (R162 to R164), reductions (R181, R184), and the special values of vector functions and softmax rows (R183, R212, R213).
-/
namespace Sys2Proof.Machine
open Sys2Proof

/-! ### The fixed tree -/

theorem chunks_cons {α : Type} (w fuel : Nat) (a : α) (l : List α) :
    chunks w (fuel + 1) (a :: l) = (a :: l).take w :: chunks w fuel ((a :: l).drop w) := rfl

theorem ceilDiv_zero {w : Nat} (hw : 0 < w) : ceilDiv 0 w = 0 := Nat.div_eq_of_lt (by omega)

/-- One piece more for what is left after the first. -/
theorem ceilDiv_sub {n w : Nat} (hw : 0 < w) (hn : 0 < n) : ceilDiv (n - w) w + 1 = ceilDiv n w := by
  unfold ceilDiv
  obtain hle | hlt := Nat.le_total n w
  · rw [Nat.sub_eq_zero_of_le hle, Nat.div_eq_of_lt (by omega), ← Nat.div_self hw]
    exact (Nat.div_eq_of_lt_le (by rw [Nat.div_self hw]; omega) (by rw [Nat.div_self hw]; omega)).symm
  · rw [← Nat.add_div_right _ hw]
    congr 1
    omega

/-- Pieces of `w`, the last not full, where the fuel is enough. -/
theorem length_chunks {α : Type} {w : Nat} (hw : 0 < w) (fuel : Nat) (l : List α) (h : l.length ≤ fuel) :
    (chunks w fuel l).length = ceilDiv l.length w := by
  induction fuel generalizing l with
  | zero =>
    obtain rfl : l = [] := List.length_eq_zero_iff.1 (Nat.le_zero.1 h)
    exact (ceilDiv_zero hw).symm
  | succ fuel ih =>
    cases l with
    | nil => exact (ceilDiv_zero hw).symm
    | cons a l =>
      have hdrop : ((a :: l).drop w).length = (a :: l).length - w := List.length_drop
      rw [chunks_cons, List.length_cons, ih _ (by omega), hdrop, ceilDiv_sub hw (by simp)]

/-- A list no longer than a piece is one piece. -/
theorem chunks_of_length_le {α : Type} {w fuel : Nat} {l : List α} (hl : l ≠ []) (hfuel : 0 < fuel) (h : l.length ≤ w) : chunks w fuel l = [l] := by
  obtain ⟨fuel, rfl⟩ : ∃ n, fuel = n + 1 := ⟨fuel - 1, by omega⟩
  cases l with
  | nil => exact absurd rfl hl
  | cons a l =>
    rw [chunks_cons, List.take_of_length_le h, List.drop_of_length_le h]
    cases fuel <;> rfl

theorem mem_chunks {α : Type} {w fuel : Nat} {l g : List α} (h : g ∈ chunks w fuel l) : ∀ a ∈ g, a ∈ l := by
  induction fuel generalizing l with
  | zero => cases h
  | succ fuel ih =>
    cases l with
    | nil => cases h
    | cons b l =>
      obtain rfl | h := List.mem_cons.1 h
      · exact fun a ha => List.mem_of_mem_take ha
      · exact fun a ha => List.mem_of_mem_drop (ih h a ha)

theorem pairUp_none {α : Type} (f : α → α → α) (l : List (Option α)) (h : ∀ a ∈ l, a = none) : ∀ a ∈ pairUp f l, a = none := by
  induction l using pairUp.induct with
  | case1 a b l ih =>
    obtain rfl := h a (by simp)
    obtain rfl := h b (by simp)
    intro c hc
    obtain rfl | hc := List.mem_cons.1 hc
    · rfl
    · exact ih (fun a ha => h a (by simp [ha])) c hc
  | case2 l hl =>
    rw [pairUp]
    · exact h
    · exact hl

/-- A tree of empty leaves is empty (R163). -/
theorem tree_none {α : Type} (f : α → α → α) (n : Nat) (l : List (Option α)) (h : ∀ a ∈ l, a = none) : tree f n l = none := by
  induction n generalizing l with
  | zero =>
    cases l with
    | nil => rfl
    | cons a l => exact h a (by simp)
  | succ n ih => exact ih _ (pairUp_none f l h)

theorem treeFold_none {α : Type} (f : α → α → α) (levels : Nat) (l : List (Option α)) (h : ∀ a ∈ l, a = none) : treeFold f levels l = none := by
  unfold treeFold
  have hall : ∀ g ∈ (chunks (2 ^ levels) l.length l).map (tree f levels), g = none := by
    intro g hg
    obtain ⟨c, hc, rfl⟩ := List.mem_map.1 hg
    exact tree_none f levels c fun a ha => h a (mem_chunks hc a ha)
  generalize (chunks (2 ^ levels) l.length l).map (tree f levels) = gs at hall
  induction gs with
  | nil => rfl
  | cons g gs ih =>
    obtain rfl := hall g (by simp)
    exact ih fun g hg => hall g (by simp [hg])

/-- One leaf behind empty ones passes a level of the tree. -/
theorem pairUp_last {α : Type} (f : α → α → α) (v : α) (k : Nat) :
    pairUp f (List.replicate k none ++ [some v]) = List.replicate (k / 2) none ++ [some v] := by
  induction k using Nat.twoStepInduction with
  | zero => rfl
  | one => rfl
  | more k ih _ =>
    rw [List.replicate_succ, List.replicate_succ, List.cons_append, List.cons_append, pairUp, ih, show (k + 2) / 2 = k / 2 + 1 by omega,
      List.replicate_succ]
    rfl

/-- One leaf alone is the tree's value, wherever it stands among the leaves (R184). -/
theorem tree_last {α : Type} (f : α → α → α) (v : α) (n k : Nat) (h : k < 2 ^ n) : tree f n (List.replicate k none ++ [some v]) = some v := by
  induction n generalizing k with
  | zero =>
    obtain rfl : k = 0 := by simpa using h
    rfl
  | succ n ih =>
    rw [tree, pairUp_last]
    exact ih _ (by rw [pow_succ] at h; omega)

theorem treeFold_last {α : Type} (f : α → α → α) (v : α) (levels k : Nat) (h : k < 2 ^ levels) :
    treeFold f levels (List.replicate k none ++ [some v]) = some v := by
  unfold treeFold
  rw [chunks_of_length_le (by simp) (by simp) (by simpa using h), List.map_singleton, tree_last f v levels k h]
  rfl

/-! ### Matrix products -/

theorem faulted_of_not_bad {xs ws : List Operand} (hx : ∀ x ∈ xs, x.bad = false) (hw : ∀ x ∈ ws, x.bad = false) : faulted xs ws = false := by
  rw [faulted, List.any_eq_false]
  rintro ⟨x, y⟩ hp
  obtain ⟨hx', hy'⟩ := List.of_mem_zip hp
  simp [hx x hx', hw y hy']

theorem faulted_of_empty {xs ws : List Operand} (hx : ∀ x ∈ xs, x.raw = 0) : faulted xs ws = false := by
  rw [faulted, List.any_eq_false]
  rintro ⟨x, y⟩ hp
  simp [hx x (List.of_mem_zip hp).1]

theorem dotFloat_none {ps : List (Option Val)} (h : ∀ p ∈ ps, p = none) : dotFloat ps = 0 := by
  unfold dotFloat
  have hall : ∀ g ∈ (chunks 16 ps.length ps).map (tree addR 4), g = none := by
    intro g hg
    obtain ⟨c, hc, rfl⟩ := List.mem_map.1 hg
    exact tree_none addR 4 c fun a ha => h a (mem_chunks hc a ha)
  generalize (chunks 16 ps.length ps).map (tree addR 4) = gs at hall
  induction gs with
  | nil => rfl
  | cons g gs ih =>
    obtain rfl := hall g (by simp)
    exact ih fun g hg => hall g (by simp [hg])

theorem signed_eight_bounds {n : Nat} (h : n < 256) : -128 ≤ signed 8 n ∧ signed 8 n ≤ 127 := by
  unfold signed
  norm_num
  split <;> omega

/-- Two's complement in 32 bits reads what was written, within its range. -/
theorem signed_unsigned_32 {i : Int} (hlo : -(2 ^ 31) ≤ i) (hhi : i < 2 ^ 31) : signed 32 (unsigned 32 i) = i := by
  unfold signed unsigned
  norm_num at *
  split <;> omega

/-- The product of two INT8 elements lies within 2^14. -/
theorem signed_eight_mul_bounds {a b : Nat} (ha : a < 256) (hb : b < 256) : -16384 ≤ signed 8 a * signed 8 b ∧ signed 8 a * signed 8 b ≤ 16384 := by
  obtain ⟨ha0, ha1⟩ := signed_eight_bounds ha
  obtain ⟨hb0, hb1⟩ := signed_eight_bounds hb
  constructor <;> nlinarith

theorem foldl_add_bounds (l : List Int) (c : Int) (h : ∀ x ∈ l, -c ≤ x ∧ x ≤ c) :
    -(c * l.length) ≤ l.foldl (· + ·) 0 ∧ l.foldl (· + ·) 0 ≤ c * l.length := by
  rw [← List.sum_eq_foldl]
  induction l with
  | nil => simp
  | cons a l ih =>
    obtain ⟨h0, h1⟩ := ih fun x hx => h x (by simp [hx])
    obtain ⟨ha0, ha1⟩ := h a (by simp)
    rw [List.sum_cons, List.length_cons]
    push_cast
    constructor <;> linarith

/-- INT8 products of up to 4,096 positions are exact in INT32 (R164). -/
theorem dotInt_exact {ps : List (Nat × Nat)} (h : ∀ p ∈ ps, p.1 < 256 ∧ p.2 < 256) (hlen : ps.length ≤ 4096) :
    signed 32 (dotInt (ps.map fun p => signed 8 p.1 * signed 8 p.2)) = (ps.map fun p => signed 8 p.1 * signed 8 p.2).foldl (· + ·) 0 := by
  have hb := foldl_add_bounds (ps.map fun p => signed 8 p.1 * signed 8 p.2) 16384 (by
    intro x hx
    obtain ⟨p, hp, rfl⟩ := List.mem_map.1 hx
    exact signed_eight_mul_bounds (h p hp).1 (h p hp).2)
  have hlen' : ((ps.map fun p => signed 8 p.1 * signed 8 p.2).length : Int) ≤ 4096 := by simpa using hlen
  apply signed_unsigned_32 <;> omega

theorem productsAreSummed : Claims.ProductsAreSummed := by
  refine ⟨fun xs ws hx hw hlen => ?_, fun ps qs h => ?_, fun x y v u => ⟨rfl, by simp [product]⟩, fun xs ws hx => ?_, fun xs ws hbad => ?_⟩
  · have hmap : (xs.zip ws).map (fun p => signed 8 p.1.raw * signed 8 p.2.raw) =
        ((xs.zip ws).map fun p => (p.1.raw, p.2.raw)).map fun p => signed 8 p.1 * signed 8 p.2 := by simp
    simp only [resultElem, faulted_of_not_bad (fun x hx' => (hx x hx').1) (fun x hx' => (hw x hx').1), Bool.false_eq_true, if_false, if_true]
    rw [hmap]
    refine dotInt_exact (fun p hp => ?_) (by simp; omega)
    obtain ⟨⟨x, y⟩, hxy, rfl⟩ := List.mem_map.1 hp
    obtain ⟨hx', hy'⟩ := List.of_mem_zip hxy
    exact ⟨(hx x hx').2, (hw y hy').2⟩
  · unfold dotInt
    rw [← List.sum_eq_foldl, ← List.sum_eq_foldl, h.sum_eq]
  · simp only [resultElem, faulted_of_empty hx, Bool.false_eq_true, if_false]
    refine dotFloat_none fun p hp => ?_
    obtain ⟨⟨x, y⟩, hxy, rfl⟩ := List.mem_map.1 hp
    exact if_pos (.inl (hx x (List.of_mem_zip hxy).1))
  · obtain ⟨p, hp, hb, hx, hw⟩ := hbad
    have hfault : faulted xs ws = true := List.any_eq_true.2 ⟨p, hp, by simp [hb, hx, hw]⟩
    simp [resultElem, hfault]

/-! ### Reductions -/

/-- Zero rounds to zero however it is rounded. -/
theorem toElem_zero_bits (t : ElemType) (r r' : Rnd) (n : Bool) : (toElem t 0 r (.zero n)).bits = (toElem t 0 r' (.zero n)).bits := by
  cases t <;> rfl

/-- A whole reduction of empty positions gives what its operation gives for none (R184). -/
theorem reduceAll_none (op n : Nat) (t : ElemType) (r : Rnd) (ints : Bool) :
    reduceAll op t r ints false (List.replicate n none) =
      [toElem t 0 (if op = 0x30 ∨ op = 0x31 then .nearest else r) (reduceEmpty op ints)] := by
  simp [reduceAll, treeFold_none]

theorem reduceAll_single (op : Nat) (t : ElemType) (r : Rnd) (ints : Bool) (v : Val) :
    reduceAll op t r ints false [some v] = [toElem t 0 (if op = 0x30 ∨ op = 0x31 then .nearest else r) (reduceLeaf op v)] := by
  have h : treeFold (reduceFn op) 5 [some (reduceLeaf op v)] = some (reduceLeaf op v) := treeFold_last (reduceFn op) (reduceLeaf op v) 5 0 (by decide)
  simp [reduceAll, h]

theorem reductionsFold : Claims.ReductionsFold := by
  refine ⟨fun op t r ints l => ⟨rfl, ?_⟩, fun op n r => ⟨fun ints t hop => ?_, ?_, ?_, ?_, ?_⟩, fun t r ints v => ⟨?_, ?_, ?_⟩,
    fun v => ⟨?_, fun k hk => ?_⟩⟩
  · simp only [reduceAll, if_true, List.length_map]
    rw [length_chunks (by decide) _ _ (by simp), List.length_map]
  · change (reduceAll op t r ints false (List.replicate n none)).map (·.bits) = _
    rw [reduceAll_none, List.map_singleton]
    obtain rfl | rfl | rfl := hop
    · rfl
    · rfl
    · exact congrArg (fun n => [n]) (toElem_zero_bits ..)
  · exact (congrArg _ (reduceAll_none 0x32 n .fp32 r false)).trans rfl
  · exact (congrArg _ (reduceAll_none 0x33 n .fp32 r false)).trans rfl
  · exact (congrArg _ (reduceAll_none 0x32 n .int32 r true)).trans (by cases r <;> rfl)
  · exact (congrArg _ (reduceAll_none 0x33 n .int32 r true)).trans (by cases r <;> rfl)
  · exact reduceAll_single 0x32 t r ints v
  · exact reduceAll_single 0x33 t r ints v
  · exact reduceAll_single 0x34 t r ints v
  · exact treeFold_last addR v 5 0 (by decide)
  · exact treeFold_last addR v 5 k (by omega)

/-- Settles O51: an empty position is an empty leaf of the tree, and INT8 sums stay within INT32. -/
theorem productsAndReductions : Obligations.ProductsAndReductions := ⟨productsAreSummed, reductionsFold⟩

/-! ### Vector functions -/

theorem Val.lt_nan (v : Val) : v.lt .nan = false := by cases v <;> rfl
theorem Val.eq_nan (v : Val) : v.eq .nan = false := by cases v <;> rfl
theorem Val.nan_eq (v : Val) : Val.nan.eq v = false := by cases v <;> rfl

theorem vectorSpecialValues : Claims.VectorSpecialValues := by
  refine ⟨fun n => ⟨?_, rfl, rfl⟩, fun b d => ⟨rfl, rfl, rfl, ?_⟩, fun a d e t r => ⟨rfl, rfl, rfl⟩, fun v op hop => ?_, fun v => ⟨?_, ?_⟩⟩
  · cases n <;> rfl
  · have hone : (Val.fin false 1 1 0).eq oneVal = true := by decide
    simp [vecExact, vLog, hone]
  · simp only [List.mem_cons, List.not_mem_nil, or_false] at hop
    obtain rfl | rfl | rfl := hop
    · exact ⟨rfl, v.lt_nan⟩
    · exact ⟨by simp [vecCompare, Val.le, Val.nan_eq, Val.lt], by simp [vecCompare, Val.le, Val.eq_nan, Val.lt_nan]⟩
    · exact ⟨v.nan_eq, v.eq_nan⟩
  · simp [vecCompare, Val.nan_eq]
  · simp [vecCompare, Val.eq_nan]

/-! ### Softmax rows -/

/-- A row state has met NaN where it had, or a NaN stands in the block (R213). -/
theorem foldBlock_nan (st : RowState) (xs : List (Option Val)) : (foldBlock st xs).2.nan = (st.nan || xs.any fun x => x == some .nan) := by
  unfold foldBlock
  dsimp only
  split
  · rfl
  · split <;> rfl

/-- A first block that holds +inf counts them (R213). -/
theorem foldBlock_infs {xs : List (Option Val)} (h : 0 < infCount xs) : (foldBlock .zero xs).2.infs = infCount xs := by
  have hz : RowState.zero.infs = 0 := rfl
  simp [foldBlock, hz, h]

/-- A first block without +inf leaves the count at nought, and the state has seen a value where a finite one stands in it (R213). -/
theorem foldBlock_seen {xs : List (Option Val)} (h : infCount xs = 0) :
    (foldBlock .zero xs).2.infs = 0 ∧
      (foldBlock .zero xs).2.seen = xs.any fun x => match x with | some v => v.isFinite | none => false := by
  unfold foldBlock
  dsimp only
  rw [if_neg (by simp [RowState.zero, h])]
  split
  · next hfin => exact ⟨rfl, hfin.symm⟩
  · next hfin => exact ⟨rfl, (Bool.eq_false_iff.2 hfin).symm⟩

theorem softmaxRow_eq (xs : List (Option Val)) : softmaxRow xs = applyRow (foldBlock .zero xs).2 xs := rfl

theorem softmaxRows : Claims.SoftmaxRows := by
  intro xs nan infs
  have hnan : (foldBlock .zero xs).2.nan = true ↔ nan := by simp [foldBlock_nan, RowState.zero, nan]
  have hnan' (h : ¬ nan) : (foldBlock .zero xs).2.nan = false := by simpa using hnan.not.2 h
  refine ⟨fun h => ?_, fun h hpos => ?_, fun h hzero hnone => ?_, fun h hzero hfin => ?_⟩
  · rw [softmaxRow_eq, applyRow, if_pos (hnan.2 h)]
  · have hcount : (foldBlock .zero xs).2.infs = infs := foldBlock_infs hpos
    rw [softmaxRow_eq, applyRow, if_neg (by simp [hnan' h]), if_pos (hcount ▸ hpos), hcount]
  · obtain ⟨hcount, hseen⟩ := foldBlock_seen hzero
    have hseen' : (foldBlock .zero xs).2.seen = false := by
      rw [hseen, List.any_eq_false]
      intro x hx
      obtain rfl | rfl := hnone x hx <;> simp [Val.isFinite]
    rw [softmaxRow_eq, applyRow, if_neg (by simp [hnan' h]), if_neg (by simp [hcount]), if_pos hseen']
  · obtain ⟨v, hv, hfinite⟩ := hfin
    obtain ⟨hcount, hseen⟩ := foldBlock_seen hzero
    have hseen' : (foldBlock .zero xs).2.seen = true := by
      rw [hseen, List.any_eq_true]
      exact ⟨_, hv, hfinite⟩
    rw [softmaxRow_eq, applyRow, if_neg (by simp [hnan' h]), if_neg (by simp [hcount]), if_neg (by simp [hseen'])]
    refine ⟨rfl, fun i hi hmask => ?_⟩
    rw [List.getD_eq_getElem _ _ hi] at hmask
    simp [hi, hmask]

/-- Settles O52: each special value stands in a branch of its function, and a row's state after its one block tells which row of Table 10-6 it takes. -/
theorem specialValues : Obligations.SpecialValues := ⟨vectorSpecialValues, softmaxRows⟩

end Sys2Proof.Machine
end

section
/-!
The carrels and the stored tiles read back what was written, and nothing else moves (R40, R41, R155, R159, R258).
-/
namespace Sys2Proof.Machine
open Sys2Proof

/-! ### Carrels -/

theorem carrelReadsWhatWasWritten : Claims.CarrelReadsWhatWasWritten := by
  intro s tile addr b hwf
  have hbyte (a : Nat) : carrelByte (s.carrelWrite tile addr b).carrel a = _ := carrelByte_putCells s.carrel (carrelAt tile addr) b a
  refine ⟨?_, fun a ha => ?_, carrelWf_putCells _ _ _ hwf⟩
  · rw [carrelRead_eq]
    refine List.ext_getElem (by simp) fun i hi hib => ?_
    rw [List.getElem_map, List.getElem_range, hbyte, if_pos (by omega), Nat.add_sub_cancel_left, List.getD_eq_getElem _ _ hib]
  · rw [hbyte, if_neg (by omega)]

/-! ### Stored tiles -/

theorem State.key_of_tile? {s : State} {k : TileKey} {x : StoredTile} (h : s.tile? k = some x) : x.key = k := by
  simpa using List.find?_some h

/-- Space for a tile is found in a tier (R260). -/
theorem State.place_ne_absent (s : State) (n : Nat) (far : Bool) : (s.place n far).getD .far ≠ .absent := by
  unfold State.place
  dsimp only
  repeat' split
  all_goals exact Tier.noConfusion

/-- A tile written replaces what stood under its key, and holds the image; it is `ABSENT` where the image is empty (R159, R258). -/
theorem State.tiers_putTile (s : State) (k : TileKey) (image : List Byte) (die : Option Nat) (pinned : Bool) :
    ∃ x : StoredTile, x.key = k ∧ x.image = image ∧ x.poison = [] ∧ (x.tier = .absent ↔ image = []) ∧
      (s.putTile k image die pinned).tiers = { s.tiers with tiles := (s.tiers.tiles.filter fun t => t.key != k) ++ [x] } := by
  refine ⟨_, ?_, rfl, rfl, ?_, rfl⟩
  · dsimp only
    cases h : s.tile? k with
    | none => rfl
    | some x => exact State.key_of_tile? h
  · dsimp only
    by_cases himage : image = []
    · simp [himage]
    · simp only [himage, if_false, iff_false]
      split
      · next hkeep =>
        simp only [Bool.and_eq_true, bne_iff_ne] at hkeep
        exact hkeep.2
      · split
        · exact Tier.noConfusion
        · exact State.place_ne_absent _ _ _

theorem State.tile?_putTile_self (s : State) (k : TileKey) (image : List Byte) (die : Option Nat) (pinned : Bool) :
    ∃ x : StoredTile, (s.putTile k image die pinned).tile? k = some x ∧ x.image = image ∧ x.poison = [] ∧ (x.tier = .absent ↔ image = []) := by
  obtain ⟨x, hkey, himage, hpoison, htier, htiers⟩ := s.tiers_putTile k image die pinned
  refine ⟨x, ?_, himage, hpoison, htier⟩
  rw [State.tile?, htiers]
  have hnone : (s.tiers.tiles.filter fun t => t.key != k).find? (fun t => t.key == k) = none := by
    simp [List.find?_eq_none]
  simp [List.find?_append, hnone, hkey]

theorem State.tile?_putTile_other (s : State) {k l : TileKey} (image : List Byte) (die : Option Nat) (pinned : Bool) (h : l ≠ k) :
    (s.putTile k image die pinned).tile? l = s.tile? l := by
  obtain ⟨x, hkey, -, -, -, htiers⟩ := s.tiers_putTile k image die pinned
  rw [State.tile?, htiers, State.tile?]
  have hx : (x.key == l) = false := by simpa [hkey] using h.symm
  simp only [List.find?_append, List.find?_filter, List.find?_singleton, hx, Bool.false_eq_true, if_false, Option.or_none]
  refine congrArg (fun p => List.find? p s.tiers.tiles) (funext fun t => ?_)
  by_cases ht : t.key = l <;> simp [ht, h]

theorem State.image_putTile_self (s : State) (k : TileKey) (image : List Byte) (die : Option Nat) (pinned : Bool) :
    (s.putTile k image die pinned).image k = image := by
  obtain ⟨x, hx, himage, -, -⟩ := s.tile?_putTile_self k image die pinned
  simp [State.image, hx, himage]

theorem tilesReadWhatWasWritten : Claims.TilesReadWhatWasWritten := by
  intro s k image die pinned t
  obtain ⟨x, hx, -, -, htier⟩ := s.tile?_putTile_self k image die pinned
  exact ⟨s.image_putTile_self k image die pinned, ⟨x, hx, htier⟩, fun l h => s.tile?_putTile_other image die pinned h⟩

/-- Settles O7: bytes put into the list of cells are read there alone, and a tile written replaces the one of its key. -/
theorem storesReadBack : Obligations.StoresReadBack := ⟨carrelReadsWhatWasWritten, tilesReadWhatWasWritten⟩

end Sys2Proof.Machine
end

section
/-!
Stored tiles round trip (R145 to R155): elements and labels read back as packed, each format's body names every element that is not zero with its value,
and pruning zeroes elements alone.
-/
namespace Sys2Proof.Machine
open Sys2Proof

/-! ### Lists of elements -/

theorem nth_eq_getElem {l : List Nat} {i : Nat} (h : i < l.length) : nth l i = l[i] := List.getD_eq_getElem _ _ h

theorem nth_of_length_le {l : List Nat} {i : Nat} (h : l.length ≤ i) : nth l i = 0 := List.getD_eq_default _ _ h

theorem ext_nth {a b : List Nat} (hlen : a.length = b.length) (h : ∀ i < a.length, nth a i = nth b i) : a = b :=
  List.ext_getElem hlen fun i ha hb => by rw [← nth_eq_getElem ha, ← nth_eq_getElem hb, h i ha]

theorem nth_map_range {n : Nat} (f : Nat → Nat) {i : Nat} (h : i < n) : nth ((List.range n).map f) i = f i := by
  rw [nth_eq_getElem (by simpa using h)]
  simp

theorem nth_set (t : List Nat) (i v j : Nat) : nth (t.set i v) j = if i = j ∧ i < t.length then v else nth t j := by
  unfold nth
  simp only [List.getD_eq_getElem?_getD, List.getElem?_set]
  by_cases hij : i = j
  · subst hij
    by_cases hi : i < t.length <;> simp [hi]
  · simp [hij]

/-- Writes of elements into a tile, one after the other. -/
def writeAll (ws : List (Nat × Nat)) (t : List Nat) : List Nat := ws.foldl (fun t w => t.set w.1 w.2) t

@[simp] theorem length_writeAll (ws : List (Nat × Nat)) (t : List Nat) : (writeAll ws t).length = t.length := by
  induction ws generalizing t with
  | nil => rfl
  | cons w ws ih => exact (ih _).trans (by simp)

/-- An element that no write names is as it was. -/
theorem nth_writeAll_other {ws : List (Nat × Nat)} {i : Nat} (h : ∀ w ∈ ws, w.1 ≠ i) (t : List Nat) : nth (writeAll ws t) i = nth t i := by
  induction ws generalizing t with
  | nil => rfl
  | cons w ws ih =>
    refine (ih (fun x hx => h x (by simp [hx])) _).trans ?_
    rw [nth_set, if_neg fun hw => h w (by simp) hw.1]

/-- An element that writes agree about is as they say. -/
theorem nth_writeAll {ws : List (Nat × Nat)} {i v : Nat} (h : ∀ w ∈ ws, w.1 = i → w.2 = v) {t : List Nat} (hi : i < t.length)
    (hex : nth t i = v ∨ ∃ w ∈ ws, w.1 = i) : nth (writeAll ws t) i = v := by
  induction ws generalizing t with
  | nil => exact hex.resolve_right (by simp)
  | cons w ws ih =>
    refine ih (fun x hx => h x (by simp [hx])) (by simpa using hi) ?_
    by_cases hw : w.1 = i
    · left
      rw [nth_set, if_pos ⟨hw, hw ▸ hi⟩, h w (by simp) hw]
    · obtain hv | ⟨x, hx, hxi⟩ := hex
      · left
        rw [nth_set, if_neg fun hh => hw hh.1, hv]
      · obtain rfl | hx := List.mem_cons.1 hx
        · exact absurd hxi hw
        · exact .inr ⟨x, hx, hxi⟩

/-- Writes of a tile's own elements that name every one not zero make the tile of zeros that tile. -/
theorem writeAll_zeros {n : Nat} {u : List Nat} (hu : u.length = n) {ws : List (Nat × Nat)} (hval : ∀ w ∈ ws, w.2 = nth u w.1)
    (hcover : ∀ i < n, nth u i ≠ 0 → ∃ w ∈ ws, w.1 = i) : writeAll ws (List.replicate n 0) = u := by
  refine ext_nth (by simp [hu]) fun i hi => ?_
  have hi : i < n := by simpa using hi
  refine nth_writeAll (fun w hw hwi => hwi ▸ hval w hw) (by simpa using hi) ?_
  by_cases h : nth u i = 0
  · left
    rw [h, nth_eq_getElem (by simpa using hi), List.getElem_replicate]
  · exact .inr (hcover i hi h)

/-! ### Pieces of one length -/

/-- An element of a list of pieces of one length, whatever follows. -/
theorem getElem?_flatten_append {α : Type} {l : List (List α)} {w : Nat} (h : ∀ x ∈ l, x.length = w) (r : List α) {i k : Nat} (hi : i < l.length)
    (hk : k < w) : (l.flatten ++ r)[i * w + k]? = l[i][k]? := by
  induction l generalizing i with
  | nil => simp at hi
  | cons x l ih =>
    have hx : x.length = w := h x (by simp)
    rw [List.flatten_cons, List.append_assoc]
    cases i with
    | zero => rw [List.getElem?_append_left (by omega)]; simp
    | succ i =>
      rw [List.getElem?_append_right (by rw [hx]; nlinarith), hx, show (i + 1) * w + k - w = i * w + k by rw [Nat.succ_mul]; omega,
        ih (fun y hy => h y (by simp [hy])) (by simpa using hi)]
      rfl

theorem length_flatten_of_length_eq {α : Type} {l : List (List α)} {w : Nat} (h : ∀ x ∈ l, x.length = w) : l.flatten.length = l.length * w := by
  induction l with
  | nil => simp
  | cons x l ih => rw [List.flatten_cons, List.length_append, h x (by simp), ih fun y hy => h y (by simp [hy]), List.length_cons]; ring

/-- One piece of a list of pieces of one length, whatever follows. -/
theorem slice_flatten_append {l : List (List Byte)} {w : Nat} (h : ∀ x ∈ l, x.length = w) (r : List Byte) {i : Nat} (hi : i < l.length) :
    slice (l.flatten ++ r) (i * w) w = l[i] := by
  have hx : l[i].length = w := h _ (List.getElem_mem hi)
  refine List.ext_getElem? fun k => ?_
  rw [slice, List.getElem?_take]
  split
  · next hk => rw [List.getElem?_drop, getElem?_flatten_append h r hi hk]
  · next hk => rw [List.getElem?_eq_none (by omega)]

theorem nth_flatten {l : List (List Nat)} {w : Nat} (h : ∀ x ∈ l, x.length = w) {i k : Nat} (hi : i < l.length) (hk : k < w) :
    nth l.flatten (i * w + k) = nth l[i] k := by
  unfold nth
  rw [List.getD_eq_getElem?_getD, List.getD_eq_getElem?_getD, ← getElem?_flatten_append h [] hi hk, List.append_nil]

/-- A piece of a list cut into pieces. -/
theorem getD_chunks {α : Type} {w fuel : Nat} (l : List α) (h : l.length ≤ fuel) (j : Nat) (hw : 0 < w) :
    (chunks w fuel l).getD j [] = (l.drop (j * w)).take w := by
  induction fuel generalizing l j with
  | zero =>
    obtain rfl : l = [] := List.length_eq_zero_iff.1 (Nat.le_zero.1 h)
    simp [chunks]
  | succ fuel ih =>
    cases l with
    | nil => simp [chunks]
    | cons a l =>
      rw [chunks_cons]
      cases j with
      | zero => simp
      | succ j =>
        have hlen : (a :: l).length = l.length + 1 := List.length_cons
        rw [List.getD_cons_succ, ih _ (by rw [List.length_drop]; omega), List.drop_drop, Nat.succ_mul, Nat.add_comm w]

theorem nth_take_drop (l : List Nat) (a w : Nat) {k : Nat} (hk : k < w) : nth ((l.drop a).take w) k = nth l (a + k) := by
  simp [nth, hk, List.getElem?_drop]

/-! ### Numbers packed side by side -/

theorem sum_eq (l : List Nat) : sum l = l.sum := (List.sum_eq_foldl ..).symm

/-- Numbers of `c` bits, packed from bit 0 on. -/
def packed (c n : Nat) (f : Nat → Nat) : Nat := sum ((List.range n).map fun e => f e * 2 ^ (c * e))

theorem packed_succ (c n : Nat) (f : Nat → Nat) : packed c (n + 1) f = packed c n f + f n * 2 ^ (c * n) := by
  simp [packed, sum_eq, List.range_succ]

theorem packed_lt {c : Nat} {f : Nat → Nat} (h : ∀ e, f e < 2 ^ c) (n : Nat) : packed c n f < 2 ^ (c * n) := by
  induction n with
  | zero => simp [packed, sum]
  | succ n ih =>
    have hn := Nat.mul_le_mul_right (2 ^ (c * n)) (h n)
    rw [packed_succ, Nat.mul_succ, Nat.add_comm (c * n), pow_add]
    rw [Nat.succ_mul] at hn
    omega

/-- Each packed number is read back. -/
theorem packed_div_mod {c : Nat} {f : Nat → Nat} (h : ∀ e, f e < 2 ^ c) {n e : Nat} (he : e < n) : packed c n f / 2 ^ (c * e) % 2 ^ c = f e := by
  induction n with
  | zero => omega
  | succ n ih =>
    rw [packed_succ]
    obtain hlt | rfl := Nat.lt_succ_iff_lt_or_eq.1 he
    · obtain ⟨d, rfl⟩ := Nat.exists_eq_add_of_lt hlt
      rw [show f (e + d + 1) * 2 ^ (c * (e + d + 1)) = 2 ^ c * (f (e + d + 1) * 2 ^ (c * d)) * 2 ^ (c * e) by ring,
        Nat.add_mul_div_right _ _ (Nat.two_pow_pos _), Nat.add_mul_mod_self_left, ih hlt]
    · rw [Nat.add_mul_div_right _ _ (Nat.two_pow_pos _), Nat.div_eq_of_lt (packed_lt h e), Nat.zero_add, Nat.mod_eq_of_lt (h e)]

/-! ### Packed elements -/

theorem length_packElems {b : Nat} (hb : b % 8 = 0) (l : List Nat) : (packElems b l).length = l.length * (b / 8) := by
  unfold packElems
  rw [if_pos hb, length_flatten_of_length_eq (w := b / 8) (by simp), List.length_map]

theorem two_pow_eq {b : Nat} (hb : b % 8 = 0) : 256 ^ (b / 8) = 2 ^ b := by
  rw [show (256 : Nat) = 2 ^ 8 by rfl, ← pow_mul, show 8 * (b / 8) = b by omega]

theorem leNat_slice_packElems {b : Nat} (hb : b % 8 = 0) {l : List Nat} (h : ∀ e ∈ l, e < 2 ^ b) (r : List Byte) {i : Nat} (hi : i < l.length) :
    leAt (packElems b l ++ r) (i * (b / 8)) (b / 8) = l[i] := by
  unfold packElems leAt
  rw [if_pos hb, slice_flatten_append (by simp) r (by simpa using hi), List.getElem_map, leNat_toLE, two_pow_eq hb, Nat.mod_mod,
    Nat.mod_eq_of_lt (h _ (List.getElem_mem hi))]

theorem nibble_packElems {l : List Nat} (h : ∀ e ∈ l, e < 2 ^ 4) (r : List Byte) {i : Nat} (hi : i < l.length) :
    ((packElems 4 l ++ r).getD (i / 2) 0).toNat / 16 ^ (i % 2) % 16 = l[i] := by
  have hnth (k : Nat) : nth l k < 16 := by
    by_cases hk : k < l.length
    · rw [nth_eq_getElem hk]
      exact h _ (List.getElem_mem hk)
    · rw [nth_of_length_le (by omega)]
      decide
  have hlen : i / 2 < (chunks 2 l.length l).length := by
    rw [length_chunks (by decide) _ _ le_rfl, ceilDiv]
    omega
  have hbyte : (packElems 4 l ++ r).getD (i / 2) 0 = BitVec.ofNat 8 (nth l (2 * (i / 2)) + 16 * nth l (2 * (i / 2) + 1)) := by
    unfold packElems
    rw [if_neg (by decide), List.getD_append _ _ _ _ (by simpa using hlen), List.getD_eq_getElem _ _ (by simpa using hlen), List.getElem_map,
      ← List.getD_eq_getElem _ [] hlen, getD_chunks l le_rfl _ (by decide), nth_take_drop l _ 2 (by decide), nth_take_drop l _ 2 (by decide),
      Nat.mod_eq_of_lt (hnth _), Nat.mod_eq_of_lt (hnth _), Nat.mul_comm]
    rfl
  have h0 := hnth (2 * (i / 2))
  have h1 := hnth (2 * (i / 2) + 1)
  rw [hbyte, BitVec.toNat_ofNat, ← nth_eq_getElem hi]
  obtain heven | hodd := Nat.mod_two_eq_zero_or_one i
  · rw [heven, show nth l i = nth l (2 * (i / 2)) by rw [show 2 * (i / 2) = i by omega]]
    omega
  · rw [hodd, show nth l i = nth l (2 * (i / 2) + 1) by rw [show 2 * (i / 2) + 1 = i by omega]]
    omega

/-- Elements packed are the elements unpacked, whatever follows them (R147). -/
theorem unpackElems_packElems {ty : ElemType} {l : List Nat} (h : ∀ e ∈ l, e < 2 ^ ty.bits) (r : List Byte) :
    unpackElems ty.bits l.length (packElems ty.bits l ++ r) = l := by
  have hb : ty.bits % 8 = 0 ∨ ty.bits = 4 := by cases ty <;> decide
  refine List.ext_getElem (by unfold unpackElems; split <;> simp) fun i h1 h2 => ?_
  obtain hb | hb := hb
  · simp only [unpackElems, if_pos hb, List.getElem_map, List.getElem_range]
    exact leNat_slice_packElems hb h r h2
  · rw [hb] at h
    simp only [unpackElems, hb, show ¬ 4 % 8 = 0 by decide, if_false, List.getElem_map, List.getElem_range]
    exact nibble_packElems h r h2

end Sys2Proof.Machine
end

section
/-!
Spine labels read back as written (R145, R146), where their fields are in range.
-/
namespace Sys2Proof.Machine
open Sys2Proof

/-- A label whose fields R6, R145 and Table 07-1 allow. -/
structure Label.Formed (l : Label) : Prop where
  allows : l.elem.allows l.format = true
  scale : l.scale < 255
  rows : l.rowsM1 < 32
  cols : l.colsM1 < 32
  nnz : 1 ≤ l.nnz ∧ l.nnz ≤ 1024
  col : l.tileCol < 2 ^ 20
  row : l.tileRow < 2 ^ 36
  tensor : l.tensor < 2 ^ 32
  aux : l.aux < 2 ^ 64
  axis : l.format = .nm ∨ l.nmAxis = false
  auxOk : l.format = .sb ∨ (l.format = .cl ∧ l.aux ≤ 1024) ∨ l.aux = 0

theorem bits_eq (n hi lo : Nat) : bits n hi lo = n / 2 ^ lo % 2 ^ (hi + 1 - lo) := by rw [bits, Nat.shiftRight_eq_div_pow]

theorem bit_eq (n i : Nat) : bit n i = decide (n / 2 ^ i % 2 = 1) := Nat.testBit_eq_decide_div_mod_eq

theorem format?_code (f : Format) : format? f.code = some f := by cases f <;> rfl

theorem elemType?_code (t : ElemType) : elemType? t.code = some t := by cases t <;> rfl

theorem Format.code_lt (f : Format) : f.code < 4 := by cases f <;> decide

theorem ElemType.code_lt (t : ElemType) : t.code < 13 := by cases t <;> decide

/-! ### Fields side by side -/

/-- Fields of given widths, the first at bit 0, and what lies above them. -/
def fields (above : Nat) : List (Nat × Nat) → Nat
  | [] => above
  | p :: l => p.2 + 2 ^ p.1 * fields above l

/-- A field is read back where each fits its width. -/
theorem fields_div_mod (above : Nat) {l : List (Nat × Nat)} (h : ∀ p ∈ l, p.2 < 2 ^ p.1) {i : Nat} (hi : i < l.length) :
    fields above l / 2 ^ ((l.take i).map (·.1)).sum % 2 ^ l[i].1 = l[i].2 := by
  induction l generalizing i with
  | nil => simp at hi
  | cons p l ih =>
    have hp : p.2 < 2 ^ p.1 := h p (by simp)
    rw [fields]
    cases i with
    | zero => simp [Nat.mod_eq_of_lt hp]
    | succ i =>
      rw [List.take_succ_cons, List.map_cons, List.sum_cons, pow_add, ← Nat.div_div_eq_div_mul, Nat.add_mul_div_left _ _ (Nat.two_pow_pos _),
        Nat.div_eq_of_lt hp, Nat.zero_add]
      exact ih (fun q hq => h q (by simp [hq])) (by simpa using hi)

theorem fields_above (above : Nat) (l : List (Nat × Nat)) : fields above l = fields 0 l + 2 ^ (l.map (·.1)).sum * above := by
  induction l with
  | nil => simp [fields]
  | cons p l ih => rw [fields, fields, ih, List.map_cons, List.sum_cons, pow_add]; ring

theorem fields_lt {l : List (Nat × Nat)} (h : ∀ p ∈ l, p.2 < 2 ^ p.1) : fields 0 l < 2 ^ (l.map (·.1)).sum := by
  induction l with
  | nil => simp [fields]
  | cons p l ih =>
    have hp : p.2 < 2 ^ p.1 := h p (by simp)
    have hl := Nat.mul_le_mul_left (2 ^ p.1) (ih fun q hq => h q (by simp [hq]))
    rw [fields, List.map_cons, List.sum_cons, pow_add]
    rw [Nat.mul_succ] at hl
    omega

/-- The fields of a label's first 30 bytes, with their widths (Table 07-2). -/
def Label.fieldList (l : Label) : List (Nat × Nat) :=
  [(4, l.format.code), (5, l.elem.code), (1, l.nmAxis.toNat), (1, l.indexRange.toNat), (1, l.pruned.toNat), (12, 0), (8, l.scale), (35, 0), (5, l.rowsM1),
    (5, l.colsM1), (11, l.nnz), (20, l.tileCol), (36, l.tileRow), (32, l.tensor), (64, l.aux)]

theorem Label.fieldList_fit {l : Label} (h : l.Formed) : ∀ p ∈ l.fieldList, p.2 < 2 ^ p.1 := by
  obtain ⟨-, hscale, hrows, hcols, hnnz, hcol, hrow, htensor, haux, -, -⟩ := h
  have hcode := l.format.code_lt
  have helem := l.elem.code_lt
  have ha := l.nmAxis.toNat_lt
  have hi := l.indexRange.toNat_lt
  have hp := l.pruned.toNat_lt
  simp only [Label.fieldList, List.forall_mem_cons, List.not_mem_nil, false_implies, implies_true, and_true]
  omega

theorem Bool.ite_eq_toNat_mul (b : Bool) (n : Nat) : (if b then n else 0) = b.toNat * n := by cases b <;> simp

theorem Label.bytes_fields {l : Label} (h : l.Formed) :
    l.bytes = toLE 30 (fields 0 l.fieldList) ++ toLE 2 (crc16 (toLE 30 (fields 0 l.fieldList))) := by
  have hscale : l.scale < 256 := h.scale.trans (by decide)
  have hnnz : l.nnz < 2 ^ 11 := lt_of_le_of_lt h.nnz.2 (by decide)
  have hnumber : fields 0 l.fieldList = l.format.code + l.elem.code * 2 ^ 4 + l.nmAxis.toNat * 2 ^ 9 + l.indexRange.toNat * 2 ^ 10 +
      l.pruned.toNat * 2 ^ 11 + l.scale * 2 ^ 24 + l.rowsM1 * 2 ^ 67 + l.colsM1 * 2 ^ 72 + l.nnz * 2 ^ 77 + l.tileCol * 2 ^ 88 + l.tileRow * 2 ^ 108 +
      l.tensor * 2 ^ 144 + l.aux * 2 ^ 176 := by
    simp only [Label.fieldList, fields]
    ring
  unfold Label.bytes
  simp only [Bool.ite_eq_toNat_mul, Nat.mod_eq_of_lt hscale, Nat.mod_eq_of_lt h.rows, Nat.mod_eq_of_lt h.cols, Nat.mod_eq_of_lt hnnz,
    Nat.mod_eq_of_lt h.col, Nat.mod_eq_of_lt h.row, Nat.mod_eq_of_lt h.tensor, Nat.mod_eq_of_lt h.aux, hnumber]

/-- The widths of a label's fields (Table 07-2). -/
def labelWidths : List Nat := [4, 5, 1, 1, 1, 12, 8, 35, 5, 5, 11, 20, 36, 32, 64]

theorem Label.fieldList_widths (l : Label) : l.fieldList.map (·.1) = labelWidths := rfl

theorem Label.fieldList_width (l : Label) : (l.fieldList.map (·.1)).sum = 240 := by
  rw [l.fieldList_widths]
  decide

theorem pow_thirty : (256 : Nat) ^ 30 = 2 ^ 240 := by rw [show (256 : Nat) = 2 ^ 8 from rfl, ← pow_mul]

/-- A label's granule holds its fields, the check above them. -/
theorem Label.leNat_bytes {l : Label} (h : l.Formed) : ∃ c, leNat l.bytes = fields c l.fieldList := by
  have hlt := fields_lt (l.fieldList_fit h)
  rw [l.fieldList_width, ← pow_thirty] at hlt
  refine ⟨leNat (toLE 2 (crc16 (toLE 30 (fields 0 l.fieldList)))), ?_⟩
  rw [l.bytes_fields h, leNat_append, leNat_toLE, length_toLE, Nat.mod_eq_of_lt hlt, fields_above (leNat _), l.fieldList_width, pow_thirty]

theorem Bool.eq_decide_toNat (b : Bool) : decide (b.toNat = 1) = b := by cases b <;> rfl

/-- The bits of a label's granule between which a field lies hold the field. -/
theorem Label.bits_bytes {l : Label} (h : l.Formed) (i : Nat) {hi lo v : Nat} (hlen : i < 15)
    (hlo : (labelWidths.take i).sum = lo) (hv : l.fieldList[i]'hlen = (hi + 1 - lo, v)) : bits (leNat l.bytes) hi lo = v := by
  obtain ⟨c, hn⟩ := l.leNat_bytes h
  have hfield := fields_div_mod c (l.fieldList_fit h) hlen
  rw [List.map_take, l.fieldList_widths, hlo, hv, ← hn] at hfield
  rw [bits_eq, hfield]

theorem Label.bit_bytes {l : Label} (h : l.Formed) (i : Nat) {lo : Nat} {v : Bool} (hlen : i < 15)
    (hlo : (labelWidths.take i).sum = lo) (hv : l.fieldList[i]'hlen = (1, v.toNat)) : bit (leNat l.bytes) lo = v := by
  obtain ⟨c, hn⟩ := l.leNat_bytes h
  have hfield := fields_div_mod c (l.fieldList_fit h) hlen
  rw [List.map_take, l.fieldList_widths, hlo, hv, ← hn] at hfield
  rw [bit_eq, show leNat l.bytes / 2 ^ lo % 2 = v.toNat from hfield, Bool.eq_decide_toNat]

/-- The fields of a label's granule, as a reader takes them. -/
structure Label.Fields (l : Label) (n : Nat) : Prop where
  format : bits n 3 0 = l.format.code
  elem : bits n 8 4 = l.elem.code
  axis : bit n 9 = l.nmAxis
  range : bit n 10 = l.indexRange
  pruned : bit n 11 = l.pruned
  zero : bits n 23 12 = 0
  scale : bits n 31 24 = l.scale
  zero' : bits n 66 32 = 0
  rows : bits n 71 67 = l.rowsM1
  cols : bits n 76 72 = l.colsM1
  nnz : bits n 87 77 = l.nnz
  col : bits n 107 88 = l.tileCol
  row : bits n 143 108 = l.tileRow
  tensor : bits n 175 144 = l.tensor
  aux : bits n 239 176 = l.aux

theorem Label.fields_bytes {l : Label} (h : l.Formed) : l.Fields (leNat l.bytes) where
  format := l.bits_bytes h 0 (by decide) (by decide) rfl
  elem := l.bits_bytes h 1 (by decide) (by decide) rfl
  axis := l.bit_bytes h 2 (by decide) (by decide) rfl
  range := l.bit_bytes h 3 (by decide) (by decide) rfl
  pruned := l.bit_bytes h 4 (by decide) (by decide) rfl
  zero := l.bits_bytes h 5 (by decide) (by decide) rfl
  scale := l.bits_bytes h 6 (by decide) (by decide) rfl
  zero' := l.bits_bytes h 7 (by decide) (by decide) rfl
  rows := l.bits_bytes h 8 (by decide) (by decide) rfl
  cols := l.bits_bytes h 9 (by decide) (by decide) rfl
  nnz := l.bits_bytes h 10 (by decide) (by decide) rfl
  col := l.bits_bytes h 11 (by decide) (by decide) rfl
  row := l.bits_bytes h 12 (by decide) (by decide) rfl
  tensor := l.bits_bytes h 13 (by decide) (by decide) rfl
  aux := l.bits_bytes h 14 (by decide) (by decide) rfl

/-- A granule of 32 bytes with a label's fields is read as that label. -/
theorem labelFields_of_fields {l : Label} (h : l.Formed) {g : List Byte} (hlen : g.length = 32) (hf : l.Fields (leNat g)) : labelFields g = some l := by
  have htake : g.take 32 = g := List.take_of_length_le hlen.le
  have hscale : l.scale ≠ 255 := h.scale.ne
  have hnnz : within 1 1024 l.nnz = true := by simp [within, h.nnz]
  unfold labelFields
  rw [htake]
  generalize leNat g = n at hf
  obtain ⟨hformat, helem, haxis, hrange, hpruned, hzero, hsc, hzero', hrows, hcols, hnz, hcol, hrow, htensor, haux⟩ := hf
  simp only [hformat, helem, haxis, hrange, hpruned, hzero, hsc, hzero', hrows, hcols, hnz, hcol, hrow, htensor, haux, format?_code, elemType?_code]
  exact if_pos ⟨hlen, h.allows, trivial, trivial, hscale, hnnz, h.axis, h.auxOk⟩

/-- A label written is the label read (R145, R146). -/
theorem readLabel_bytes {l : Label} (h : l.Formed) : readLabel l.bytes = some l := by
  unfold readLabel
  rw [if_pos l.labelCheck_bytes, labelFields_of_fields h l.length_bytes (l.fields_bytes h)]

end Sys2Proof.Machine
end

section
/-!
Bodies of stored tiles in each format decode to the tile encoded (R147 to R150); pruning (R154); and with the label the whole image round trips.
-/
namespace Sys2Proof.Machine
open Sys2Proof

/-! ### Sub-blocks -/

theorem sbIndex_surj {i : Nat} (hi : i < 1024) : ∃ m < 64, ∃ k < 16, sbIndex m k = i :=
  ⟨8 * (i / 128) + i % 32 / 4, by omega, 4 * (i / 32 % 4) + i % 4, by omega, by unfold sbIndex; omega⟩

theorem nth_subBlock (t : List Nat) (m : Nat) {k : Nat} (hk : k < 16) : nth (subBlock t m) k = nth t (sbIndex m k) := nth_map_range _ hk

/-- Whether a sub-block holds an element not zero, as a bit. -/
def sbBit (t : List Nat) (m : Nat) : Nat := ((subBlock t m).any (· ≠ 0)).toNat

theorem sbBit_lt (t : List Nat) (m : Nat) : sbBit t m < 2 ^ 1 := Bool.toNat_lt _

theorem sbMask_eq (t : List Nat) : sbMask t = packed 1 64 (sbBit t) := by
  unfold sbMask packed sbBit
  simp only [Bool.ite_eq_toNat_mul, Nat.one_mul]

theorem sbMask_lt (t : List Nat) : sbMask t < 2 ^ 64 := by
  rw [sbMask_eq]
  exact packed_lt (sbBit_lt t) 64

theorem testBit_sbMask (t : List Nat) {m : Nat} (hm : m < 64) : (sbMask t).testBit m = (subBlock t m).any (· ≠ 0) := by
  have h := packed_div_mod (sbBit_lt t) hm
  rw [← sbMask_eq, Nat.one_mul, Nat.pow_one] at h
  rw [Nat.testBit_eq_decide_div_mod_eq, h, sbBit, Bool.eq_decide_toNat]

/-- The sub-blocks a mask names. -/
def present (mask : Nat) : List Nat := (List.range 64).filter fun m => mask.testBit m

theorem mem_present_sbMask {t : List Nat} {m k : Nat} (hm : m < 64) (hk : k < 16) (h : nth t (sbIndex m k) ≠ 0) : m ∈ present (sbMask t) := by
  rw [present, List.mem_filter, testBit_sbMask t hm, List.any_eq_true]
  have hlen : k < (subBlock t m).length := by simpa [subBlock] using hk
  exact ⟨List.mem_range.2 hm, (subBlock t m)[k], List.getElem_mem hlen, by rw [← nth_eq_getElem hlen, nth_subBlock t m hk]; simpa using h⟩

/-- The writes by which a body of sub-blocks is decoded (R148). -/
def sbWrites (ms es : List Nat) : List (Nat × Nat) :=
  (List.range ms.length).flatMap fun i => (List.range 16).map fun k => (sbIndex (nth ms i) k, nth es (16 * i + k))

theorem rawElems_sb {l : Label} (h : l.format = .sb) (d : List Byte) :
    rawElems l d = writeAll (sbWrites (present l.aux) (unpackElems l.elem.bits (16 * (present l.aux).length) d)) (List.replicate 1024 0) := by
  simp only [rawElems, h, writeAll, sbWrites, List.foldl_flatMap, List.foldl_map, present]

theorem nth_subBlocks (t ms : List Nat) {i k : Nat} (hi : i < ms.length) (hk : k < 16) :
    nth (ms.map (subBlock t)).flatten (16 * i + k) = nth t (sbIndex (nth ms i) k) := by
  rw [Nat.mul_comm, nth_flatten (w := 16) (by simp [subBlock]) (by simpa using hi) hk, List.getElem_map, nth_subBlock t _ hk, nth_eq_getElem hi]

/-- Decoding the sub-blocks that hold an element not zero gives the tile back (R148). -/
theorem writeAll_sb {u : List Nat} (hu : u.length = 1024) :
    writeAll (sbWrites (present (sbMask u)) ((present (sbMask u)).map (subBlock u)).flatten) (List.replicate 1024 0) = u := by
  refine writeAll_zeros hu (fun w hw => ?_) fun j hj hne => ?_
  · simp only [sbWrites, List.mem_flatMap, List.mem_map, List.mem_range] at hw
    obtain ⟨i, hi, k, hk, rfl⟩ := hw
    exact nth_subBlocks u _ hi hk
  · obtain ⟨m, hm, k, hk, rfl⟩ := sbIndex_surj hj
    obtain ⟨i, hi, rfl⟩ := List.getElem_of_mem (mem_present_sbMask hm hk hne)
    refine ⟨(_, _), List.mem_flatMap.2 ⟨i, List.mem_range.2 hi, List.mem_map.2 ⟨k, List.mem_range.2 hk, rfl⟩⟩, ?_⟩
    rw [nth_eq_getElem hi]

theorem subBlocks_lt {u : List Nat} {n : Nat} (h : ∀ i, nth u i < n) (ms : List Nat) : ∀ e ∈ (ms.map (subBlock u)).flatten, e < n := by
  intro e he
  simp only [List.mem_flatten, List.mem_map] at he
  obtain ⟨b, ⟨m, -, rfl⟩, he⟩ := he
  obtain ⟨k, -, rfl⟩ := List.mem_map.1 he
  exact h _

/-- A list cut or padded to no less than its length stands at its front. -/
theorem fitTo_eq_append {n : Nat} {b : List Byte} (h : b.length ≤ n) : fitTo n b = b ++ zeros (n - b.length) := by
  rw [fitTo, List.take_of_length_le h]

/-- Sub-blocks and groups are of whole bytes (R148, R149), clusters of half words (R150). -/
theorem ElemType.bits_of_allows_sb (ty : ElemType) : ty.allows .sb = true → ty.bits % 8 = 0 := by cases ty <;> decide
theorem ElemType.bits_of_allows_nm (ty : ElemType) : ty.allows .nm = true → ty.bits % 8 = 0 := by cases ty <;> decide
theorem ElemType.bits_of_allows_cl (ty : ElemType) : ty.allows .cl = true → ty.bits = 16 := by cases ty <;> decide

theorem rawElems_encode_sb {ty : ElemType} (hty : ty.allows .sb = true) {u : List Nat} (hu : u.length = 1024) (hlt : ∀ i, nth u i < 2 ^ ty.bits)
    {l : Label} (hformat : l.format = .sb) (helem : l.elem = ty) (axis : Bool) (haux : l.aux = (encodeBody .sb ty axis u).2) :
    rawElems l (encodeBody .sb ty axis u).1 = u := by
  have haux' : l.aux = sbMask u := haux
  have hb := ty.bits_of_allows_sb hty
  have hlen : ((present (sbMask u)).map (subBlock u)).flatten.length = 16 * (present (sbMask u)).length := by
    rw [length_flatten_of_length_eq (w := 16) (by simp [subBlock]), List.length_map, Nat.mul_comm]
  have hbody : (encodeBody .sb ty axis u).1 = packElems ty.bits ((present (sbMask u)).map (subBlock u)).flatten ++
      zeros (32 * bodyGranules .sb ty (sbMask u) - (packElems ty.bits ((present (sbMask u)).map (subBlock u)).flatten).length) := by
    refine fitTo_eq_append ?_
    have hpop : popcount64 (sbMask u) = (present (sbMask u)).length := rfl
    have hle : (present (sbMask u)).length * ty.bits ≤ 16 * ceilDiv ((present (sbMask u)).length * ty.bits) 16 := by unfold ceilDiv; omega
    change (packElems ty.bits ((present (sbMask u)).map (subBlock u)).flatten).length ≤ _
    rw [length_packElems hb, hlen]
    simp only [bodyGranules, hpop]
    have hbits : 8 * (ty.bits / 8) = ty.bits := by omega
    calc 16 * (present (sbMask u)).length * (ty.bits / 8) = 2 * ((present (sbMask u)).length * (8 * (ty.bits / 8))) := by ring
      _ ≤ 32 * ceilDiv ((present (sbMask u)).length * ty.bits) 16 := by rw [hbits]; omega
  have hpack := unpackElems_packElems (subBlocks_lt hlt (present (sbMask u)))
  rw [hlen] at hpack
  rw [rawElems_sb hformat, haux', helem, hbody, hpack, writeAll_sb hu]

/-! ### Groups of four -/

theorem nmIndex_lt (axis : Bool) {r g p : Nat} (hr : r < 32) (hg : g < 8) (hp : p < 4) : nmIndex axis r g p < 1024 := by
  unfold nmIndex
  split <;> omega

theorem nmIndex_surj (axis : Bool) {i : Nat} (hi : i < 1024) : ∃ r < 32, ∃ g < 8, ∃ p < 4, nmIndex axis r g p = i := by
  cases axis
  · exact ⟨i / 32, by omega, i % 32 / 4, by omega, i % 4, by omega, by simp [nmIndex]; omega⟩
  · exact ⟨i % 32, by omega, i / 128, by omega, i / 32 % 4, by omega, by simp [nmIndex]; omega⟩

theorem nmIndex_inj (axis : Bool) {r g p r' g' p' : Nat} (hr : r < 32) (hg : g < 8) (hp : p < 4) (hr' : r' < 32) (hg' : g' < 8) (hp' : p' < 4)
    (h : nmIndex axis r g p = nmIndex axis r' g' p') : r = r' ∧ g = g' ∧ p = p' := by
  unfold nmIndex at h
  split at h <;> omega

theorem nth_nmGroup (t : List Nat) (axis : Bool) (r g : Nat) {p : Nat} (hp : p < 4) : nth (nmGroup t axis r g) p = nth t (nmIndex axis r g p) :=
  nth_map_range _ hp

/-- The positions of a group of four that are not zero. -/
def nonzeros (grp : List Nat) : List Nat := (List.range 4).filter fun p => nth grp p ≠ 0

theorem mem_nonzeros {grp : List Nat} {p : Nat} : p ∈ nonzeros grp ↔ p < 4 ∧ nth grp p ≠ 0 := by simp [nonzeros]

theorem nodup_nonzeros (grp : List Nat) : (nonzeros grp).Nodup := List.nodup_range.filter _

theorem length_nonzeros_nmGroup (t : List Nat) (axis : Bool) (r g : Nat) :
    ((nmGroup t axis r g).filter (· ≠ 0)).length = (nonzeros (nmGroup t axis r g)).length := by
  have h : nonzeros (nmGroup t axis r g) = (List.range 4).filter ((fun e => decide (e ≠ 0)) ∘ fun p => nth t (nmIndex axis r g p)) :=
    List.filter_congr fun p hp => by simp [nth_nmGroup t axis r g (List.mem_range.1 hp)]
  rw [h, nmGroup, List.filter_map, List.length_map]

theorem nmPositions_eq (grp : List Nat) : nmPositions grp = match nonzeros grp with
    | [] => (0, 1)
    | [p] => if p = 0 then (0, 1) else (0, p)
    | p :: q :: _ => (p, q) := rfl

theorem nmPositions_lt (grp : List Nat) : (nmPositions grp).1 < 4 ∧ (nmPositions grp).2 < 4 := by
  have hlt (p : Nat) (hp : p ∈ nonzeros grp) : p < 4 := (mem_nonzeros.1 hp).1
  rw [nmPositions_eq]
  match hn : nonzeros grp with
  | [] => exact ⟨by decide, by decide⟩
  | [p] =>
    have hp : p < 4 := hlt p (by simp [hn])
    dsimp only
    split
    · exact ⟨by decide, by decide⟩
    · exact ⟨Nat.succ_pos 3, hp⟩
  | p :: q :: rest => exact ⟨hlt p (by simp [hn]), hlt q (by simp [hn])⟩

/-- The two positions stored of a group are all that are not zero where no more than two are (R149). -/
theorem nmPositions_all {grp : List Nat} (h : (nonzeros grp).length ≤ 2) {p : Nat} (hp : p < 4) (hne : nth grp p ≠ 0) :
    p = (nmPositions grp).1 ∨ p = (nmPositions grp).2 := by
  have hmem : p ∈ nonzeros grp := mem_nonzeros.2 ⟨hp, hne⟩
  rw [nmPositions_eq]
  match hn : nonzeros grp with
  | [] => simp [hn] at hmem
  | [a] =>
    obtain rfl : p = a := by simpa [hn] using hmem
    by_cases h0 : p = 0 <;> simp [h0]
  | a :: b :: rest =>
    obtain rfl : rest = [] := by simpa [hn] using h
    simpa [hn] using hmem

/-- No group of a tile holds more than two elements not zero. -/
def GroupsFit (t : List Nat) (axis : Bool) : Prop := ∀ r < 32, ∀ g < 8, (nonzeros (nmGroup t axis r g)).length ≤ 2

theorem nmValid_iff (t : List Nat) (axis : Bool) : nmValid t axis = true ↔ GroupsFit t axis := by
  simp only [nmValid, List.all_eq_true, List.mem_range, decide_eq_true_eq, length_nonzeros_nmGroup]
  rfl

/-- The writes by which a body of groups is decoded (R149). -/
def nmWrites (axis : Bool) (l : List (Nat × Nat × (Nat × Nat) × (Nat × Nat))) : List (Nat × Nat) :=
  l.flatMap fun x => [(nmIndex axis x.1 x.2.1 x.2.2.1.1, x.2.2.2.1), (nmIndex axis x.1 x.2.1 x.2.2.1.2, x.2.2.2.2)]

theorem rawElems_nm {l : Label} (h : l.format = .nm) (d : List Byte) :
    rawElems l d = writeAll (nmWrites l.nmAxis (nmEntries l.elem.bits d)) (List.replicate 1024 0) := by
  simp only [rawElems, h, writeAll, nmWrites, List.foldl_flatMap, List.foldl_cons, List.foldl_nil]

/-- A group as its body holds it: line, number, the two positions stored and their values (R149). -/
def nmEntry (axis : Bool) (u : List Nat) (r g : Nat) : Nat × Nat × (Nat × Nat) × (Nat × Nat) :=
  let grp := nmGroup u axis r g
  (r, g, nmPositions grp, (nth grp (nmPositions grp).1, nth grp (nmPositions grp).2))

/-- The groups of a tile as the body holds them, line by line. -/
def nmGroups (axis : Bool) (u : List Nat) : List (Nat × Nat × (Nat × Nat) × (Nat × Nat)) :=
  ((List.range 32).map fun r => (List.range 8).map fun g => nmEntry axis u r g).flatten

theorem mem_nmGroups {axis : Bool} {u : List Nat} {x : Nat × Nat × (Nat × Nat) × (Nat × Nat)} :
    x ∈ nmGroups axis u ↔ ∃ r < 32, ∃ g < 8, nmEntry axis u r g = x := by
  simp only [nmGroups, List.mem_flatten, List.mem_map, List.mem_range]
  constructor
  · rintro ⟨l, ⟨r, hr, rfl⟩, hx⟩
    obtain ⟨g, hg, rfl⟩ := List.mem_map.1 hx
    exact ⟨r, hr, g, List.mem_range.1 hg, rfl⟩
  · rintro ⟨r, hr, g, hg, rfl⟩
    exact ⟨_, ⟨r, hr, rfl⟩, List.mem_map.2 ⟨g, List.mem_range.2 hg, rfl⟩⟩

/-- Decoding the stored positions of groups that fit gives the tile back (R149). -/
theorem writeAll_nm {u : List Nat} {axis : Bool} (hu : u.length = 1024) (hfit : GroupsFit u axis) :
    writeAll (nmWrites axis (nmGroups axis u)) (List.replicate 1024 0) = u := by
  refine writeAll_zeros hu (fun w hw => ?_) fun j hj hne => ?_
  · obtain ⟨x, hx, hw⟩ := List.mem_flatMap.1 hw
    obtain ⟨r, hr, g, hg, rfl⟩ := mem_nmGroups.1 hx
    obtain ⟨hp, hq⟩ := nmPositions_lt (nmGroup u axis r g)
    simp only [List.mem_cons, List.not_mem_nil, or_false] at hw
    obtain rfl | rfl := hw
    · exact nth_nmGroup u axis r g hp
    · exact nth_nmGroup u axis r g hq
  · obtain ⟨r, hr, g, hg, p, hp, rfl⟩ := nmIndex_surj axis hj
    have hgroup : nmEntry axis u r g ∈ nmGroups axis u := mem_nmGroups.2 ⟨r, hr, g, hg, rfl⟩
    obtain h | h := nmPositions_all (hfit r hr g hg) hp (by rwa [nth_nmGroup u axis r g hp])
    · exact ⟨_, List.mem_flatMap.2 ⟨_, hgroup, List.mem_cons_self ..⟩, by rw [h]; rfl⟩
    · exact ⟨_, List.mem_flatMap.2 ⟨_, hgroup, List.mem_cons_of_mem _ (List.mem_cons_self ..)⟩, by rw [h]; rfl⟩

/-- The values a body of groups begins with, two to a group. -/
def nmVals (axis : Bool) (u : List Nat) : List Nat := ((nmGroups axis u).map fun x => [x.2.2.2.1, x.2.2.2.2]).flatten

/-- The positions of a group, in four bits (R149). -/
def nmCode (axis : Bool) (u : List Nat) (r g : Nat) : Nat := (nmPositions (nmGroup u axis r g)).1 + 4 * (nmPositions (nmGroup u axis r g)).2

theorem nmCode_lt (axis : Bool) (u : List Nat) (r g : Nat) : nmCode axis u r g < 2 ^ 4 := by
  obtain ⟨hp, hq⟩ := nmPositions_lt (nmGroup u axis r g)
  unfold nmCode
  omega

theorem encodeBody_nm (ty : ElemType) (axis : Bool) (u : List Nat) :
    encodeBody .nm ty axis u =
      (packElems ty.bits (nmVals axis u) ++ ((List.range 32).map fun r => toLE 4 (packed 4 8 (nmCode axis u r))).flatten, 0) := by
  have hpow (g : Nat) : 16 ^ g = 2 ^ (4 * g) := by rw [pow_mul]; norm_num
  refine Prod.ext (congrArg₂ (packElems ty.bits · ++ List.flatten ·) ?_ ?_) rfl
  · simp only [nmVals, nmGroups, List.map_flatten, List.map_map]
    rfl
  · rw [List.map_map, List.map_map]
    refine List.map_congr_left fun r _ => congrArg (fun l => toLE 4 (sum l)) (List.map_congr_left fun g hg => ?_)
    rw [List.getElem?_map, List.getElem?_range (List.mem_range.1 hg), ← hpow]
    rfl

theorem length_nmGroups (axis : Bool) (u : List Nat) : (nmGroups axis u).length = 256 := by
  unfold nmGroups
  rw [length_flatten_of_length_eq (w := 8) (by simp)]
  simp

theorem length_nmVals_pair {axis : Bool} {u : List Nat} : ∀ x ∈ (nmGroups axis u).map fun x => [x.2.2.2.1, x.2.2.2.2], x.length = 2 := by
  intro x hx
  obtain ⟨y, -, rfl⟩ := List.mem_map.1 hx
  rfl

theorem length_nmVals (axis : Bool) (u : List Nat) : (nmVals axis u).length = 512 := by
  unfold nmVals
  rw [length_flatten_of_length_eq length_nmVals_pair, List.length_map, length_nmGroups]

theorem getElem_nmGroups (axis : Bool) (u : List Nat) {r g : Nat} (hr : r < 32) (hg : g < 8) :
    (nmGroups axis u)[8 * r + g]'(by rw [length_nmGroups]; omega) = nmEntry axis u r g := by
  have h := getElem?_flatten_append (l := (List.range 32).map fun r => (List.range 8).map fun g => nmEntry axis u r g) (w := 8) (by simp) []
    (i := r) (k := g) (by simpa using hr) hg
  rw [List.append_nil, Nat.mul_comm] at h
  apply Option.some.inj
  rw [← List.getElem?_eq_getElem]
  refine h.trans ?_
  simp [hg]

theorem nth_nmVals (axis : Bool) (u : List Nat) {r g : Nat} (hr : r < 32) (hg : g < 8) :
    nth (nmVals axis u) (16 * r + 2 * g) = (nmEntry axis u r g).2.2.2.1 ∧ nth (nmVals axis u) (16 * r + 2 * g + 1) = (nmEntry axis u r g).2.2.2.2 := by
  have h (k : Nat) (hk : k < 2) := nth_flatten (length_nmVals_pair (axis := axis) (u := u)) (i := 8 * r + g)
    (by rw [List.length_map, length_nmGroups]; omega) hk
  rw [show 16 * r + 2 * g = (8 * r + g) * 2 by ring]
  refine ⟨(h 0 (by decide)).trans ?_, (h 1 (by decide)).trans ?_⟩ <;> rw [List.getElem_map, getElem_nmGroups axis u hr hg] <;> rfl

theorem nmVals_lt {u : List Nat} {n : Nat} (h : ∀ i, nth u i < n) (axis : Bool) : ∀ e ∈ nmVals axis u, e < n := by
  intro e he
  simp only [nmVals, List.mem_flatten, List.mem_map] at he
  obtain ⟨b, ⟨x, hx, rfl⟩, he⟩ := he
  obtain ⟨r, -, g, -, rfl⟩ := mem_nmGroups.1 hx
  obtain ⟨hp, hq⟩ := nmPositions_lt (nmGroup u axis r g)
  simp only [nmEntry, List.mem_cons, List.not_mem_nil, or_false, nth_nmGroup u axis r g hp, nth_nmGroup u axis r g hq] at he
  obtain rfl | rfl := he <;> exact h _

theorem slice_append_right (a b : List Byte) (off n : Nat) : slice (a ++ b) (a.length + off) n = slice b off n := by
  rw [slice, slice, List.drop_append, List.drop_eq_nil_of_le (by omega), List.nil_append, Nat.add_sub_cancel_left]

/-- The positions of a group are read from its four bits of the line's word (R149). -/
theorem bits_nmCode (axis : Bool) (u : List Nat) (r : Nat) {g : Nat} (hg : g < 8) :
    (bits (packed 4 8 (nmCode axis u r)) (4 * g + 1) (4 * g), bits (packed 4 8 (nmCode axis u r)) (4 * g + 3) (4 * g + 2)) =
      nmPositions (nmGroup u axis r g) := by
  obtain ⟨hp, hq⟩ := nmPositions_lt (nmGroup u axis r g)
  have h := packed_div_mod (nmCode_lt axis u r) hg
  rw [bits_eq, bits_eq, pow_add, ← Nat.div_div_eq_div_mul, show 4 * g + 1 + 1 - 4 * g = 2 by omega, show 4 * g + 3 + 1 - (4 * g + 2) = 2 by omega]
  generalize packed 4 8 (nmCode axis u r) / 2 ^ (4 * g) = n at *
  unfold nmCode at h
  refine Prod.ext ?_ ?_ <;> dsimp only <;> omega

/-- The groups read from a body are those it was made of (R149). -/
theorem nmEntries_encode {ty : ElemType} (hty : ty.allows .nm = true) {u : List Nat} (hlt : ∀ i, nth u i < 2 ^ ty.bits) (axis : Bool) :
    nmEntries ty.bits (encodeBody .nm ty axis u).1 = nmGroups axis u := by
  have hb := ty.bits_of_allows_nm hty
  have hlen : (packElems ty.bits (nmVals axis u)).length = 64 * ty.bits := by
    rw [length_packElems hb, length_nmVals]
    omega
  have hvals := unpackElems_packElems (nmVals_lt hlt axis) ((List.range 32).map fun r => toLE 4 (packed 4 8 (nmCode axis u r))).flatten
  rw [length_nmVals] at hvals
  have hword (r : Nat) (hr : r < 32) : leAt (encodeBody .nm ty axis u).1 (64 * ty.bits + 4 * r) 4 = packed 4 8 (nmCode axis u r) := by
    have hslice := slice_flatten_append (l := (List.range 32).map fun r => toLE 4 (packed 4 8 (nmCode axis u r))) (w := 4) (by simp) [] (i := r)
      (by simpa using hr)
    rw [List.append_nil, Nat.mul_comm] at hslice
    rw [leAt, encodeBody_nm, ← hlen, slice_append_right, hslice, List.getElem_map, List.getElem_range, leNat_toLE]
    exact Nat.mod_eq_of_lt (packed_lt (nmCode_lt axis u r) 8)
  unfold nmEntries nmGroups
  rw [show unpackElems ty.bits 512 (encodeBody .nm ty axis u).1 = nmVals axis u by rw [encodeBody_nm]; exact hvals]
  refine congrArg List.flatten (List.map_congr_left fun r hr => List.map_congr_left fun g hg => ?_)
  obtain ⟨h0, h1⟩ := nth_nmVals axis u (List.mem_range.1 hr) (List.mem_range.1 hg)
  rw [h0, h1, hword r (List.mem_range.1 hr), bits_nmCode axis u r (List.mem_range.1 hg)]
  rfl

/-! ### Coordinate lists -/

/-- The entries a body of `CL` holds: element index and value, in 26 bits (R150). -/
def clCodes (u : List Nat) : List Nat := ((List.range 1024).filter fun i => nth u i ≠ 0).map fun i => i * 65536 + nth u i % 65536

theorem mem_clCodes {u : List Nat} {c : Nat} (h : c ∈ clCodes u) : ∃ i < 1024, nth u i ≠ 0 ∧ c = i * 65536 + nth u i % 65536 := by
  obtain ⟨i, hi, rfl⟩ := List.mem_map.1 h
  obtain ⟨hlt, hne⟩ := List.mem_filter.1 hi
  exact ⟨i, List.mem_range.1 hlt, by simpa using hne, rfl⟩

theorem nth_clCodes_lt (u : List Nat) (i : Nat) : nth (clCodes u) i < 2 ^ 26 := by
  by_cases hi : i < (clCodes u).length
  · obtain ⟨j, hj, -, h⟩ := mem_clCodes (List.getElem_mem hi)
    rw [nth_eq_getElem hi, h]
    omega
  · rw [nth_of_length_le (by omega)]
    decide

/-- A number is read from the granule of nine that holds it. -/
theorem bits_clGranule {l : List Nat} (h : ∀ i, nth l i < 2 ^ 26) {i : Nat} (hi : i < l.length) :
    bits (leNat (slice (((chunks 9 l.length l).map fun g => toLE 32 (packed 26 9 (nth g))).flatten) (32 * (i / 9)) 32)) (26 * (i % 9) + 25) (26 * (i % 9)) =
      nth l i := by
  have hlen : i / 9 < (chunks 9 l.length l).length := by
    rw [length_chunks (by decide) _ _ le_rfl, ceilDiv]
    omega
  have hslice := slice_flatten_append (l := (chunks 9 l.length l).map fun g => toLE 32 (packed 26 9 (nth g))) (w := 32) (by simp) [] (i := i / 9)
    (by simpa using hlen)
  have hchunk : (chunks 9 l.length l)[i / 9] = (l.drop (i / 9 * 9)).take 9 := by
    rw [← List.getD_eq_getElem _ [] hlen, getD_chunks l le_rfl _ (by decide)]
  have hfit (e : Nat) : nth ((l.drop (i / 9 * 9)).take 9) e < 2 ^ 26 := by
    by_cases he : e < 9
    · rw [nth_take_drop l _ 9 he]
      exact h _
    · rw [nth_of_length_le (by simp; omega)]
      decide
  have hlt : packed 26 9 (nth ((l.drop (i / 9 * 9)).take 9)) < 256 ^ 32 :=
    (packed_lt hfit 9).trans_le (by rw [show (256 : Nat) = 2 ^ 8 from rfl, ← pow_mul]; exact Nat.pow_le_pow_right (by decide) (by decide))
  rw [List.append_nil, List.getElem_map, hchunk, Nat.mul_comm] at hslice
  rw [hslice, leNat_toLE, Nat.mod_eq_of_lt hlt, bits_eq, show 26 * (i % 9) + 25 + 1 - 26 * (i % 9) = 26 by omega,
    packed_div_mod hfit (Nat.mod_lt _ (by decide)), nth_take_drop l _ 9 (Nat.mod_lt _ (by decide)), Nat.mul_comm, Nat.div_add_mod]

theorem encodeBody_cl (ty : ElemType) (axis : Bool) (u : List Nat) : encodeBody .cl ty axis u =
    (((chunks 9 (clCodes u).length (clCodes u)).map fun g => toLE 32 (packed 26 9 (nth g))).flatten, (clCodes u).length) := rfl

/-- The entries read from a body are those it was made of (R150). -/
theorem clEntries_encode (ty : ElemType) (axis : Bool) (u : List Nat) :
    clEntries (clCodes u).length (encodeBody .cl ty axis u).1 = (clCodes u).map fun c => (c / 65536, c % 65536) := by
  refine List.ext_getElem (by simp [clEntries]) fun i h1 h2 => ?_
  have hi : i < (clCodes u).length := by simpa using h2
  simp only [clEntries, List.getElem_map, List.getElem_range]
  rw [encodeBody_cl, bits_clGranule (nth_clCodes_lt u) hi, nth_eq_getElem hi]

theorem rawElems_encode_cl {ty : ElemType} (hty : ty.allows .cl = true) {u : List Nat} (hu : u.length = 1024) (hlt : ∀ i, nth u i < 2 ^ ty.bits)
    {l : Label} (hformat : l.format = .cl) (axis : Bool) (haux : l.aux = (encodeBody .cl ty axis u).2) :
    rawElems l (encodeBody .cl ty axis u).1 = u := by
  have hbits := ty.bits_of_allows_cl hty
  have hfit (i : Nat) : nth u i < 65536 := by simpa [hbits] using hlt i
  have haux' : l.aux = (clCodes u).length := by rw [haux, encodeBody_cl]
  have hraw : rawElems l (encodeBody .cl ty axis u).1 = writeAll ((clCodes u).map fun c => (c / 65536, c % 65536)) (List.replicate 1024 0) := by
    simp only [rawElems, hformat, haux', clEntries_encode, writeAll]
  rw [hraw]
  refine writeAll_zeros hu (fun w hw => ?_) fun i hi hne => ?_
  · obtain ⟨c, hc, rfl⟩ := List.mem_map.1 hw
    obtain ⟨i, -, -, rfl⟩ := mem_clCodes hc
    have h := hfit i
    dsimp only
    rw [show (i * 65536 + nth u i % 65536) / 65536 = i by omega]
    omega
  · have h := hfit i
    refine ⟨_, List.mem_map.2 ⟨_, List.mem_map.2 ⟨i, List.mem_filter.2 ⟨List.mem_range.2 hi, by simpa using hne⟩, rfl⟩, rfl⟩, ?_⟩
    dsimp only
    omega

/-! ### Bodies -/

/-- A body decodes to the tile it was made of, whatever the format (R147 to R150). -/
theorem rawElems_encodeBody {f : Format} {ty : ElemType} (hty : ty.allows f = true) {u : List Nat} (hu : u.length = 1024)
    (hlt : ∀ i, nth u i < 2 ^ ty.bits) {axis : Bool} (hfit : f = .nm → GroupsFit u axis) {l : Label} (hformat : l.format = f) (helem : l.elem = ty)
    (haxis : f = .nm → l.nmAxis = axis) (haux : l.aux = (encodeBody f ty axis u).2) : rawElems l (encodeBody f ty axis u).1 = u := by
  cases f with
  | dense =>
    have hmem : ∀ e ∈ u, e < 2 ^ ty.bits := by
      intro e he
      obtain ⟨i, hi, rfl⟩ := List.getElem_of_mem he
      exact nth_eq_getElem hi ▸ hlt i
    have h := unpackElems_packElems hmem []
    rw [List.append_nil, hu] at h
    simp only [rawElems, hformat, helem]
    exact h
  | sb => exact rawElems_encode_sb hty hu hlt hformat helem axis haux
  | nm => rw [rawElems_nm hformat, helem, haxis rfl, nmEntries_encode hty hlt, writeAll_nm hu (hfit rfl)]
  | cl => exact rawElems_encode_cl hty hu hlt hformat axis haux

/-! ### Pruning -/

/-- The better of two positions, one passed over (R154). -/
def betterOf (ty : ElemType) (grp : List Nat) (skip : Option Nat) (b p : Nat) : Nat :=
  if some p = skip then b else if some b = skip ∨ magOver ty (nth grp p) (nth grp b) then p else b

theorem betterOf_ok (ty : ElemType) (grp : List Nat) {skip : Option Nat} {b p : Nat} (hb : some b ≠ skip ∧ b < 4) (hp : p < 4) :
    some (betterOf ty grp skip b p) ≠ skip ∧ betterOf ty grp skip b p < 4 := by
  unfold betterOf
  split
  · exact hb
  · split
    · exact ⟨‹_›, hp⟩
    · exact hb

/-- The best position of a group, one passed over. -/
def bestOf (ty : ElemType) (grp : List Nat) (skip : Option Nat) : Nat := (List.range 4).foldl (betterOf ty grp skip) (if skip = some 0 then 1 else 0)

theorem bestOf_ok (ty : ElemType) (grp : List Nat) (skip : Option Nat) : some (bestOf ty grp skip) ≠ skip ∧ bestOf ty grp skip < 4 := by
  have hfold (l : List Nat) (hl : ∀ p ∈ l, p < 4) (b : Nat) (hb : some b ≠ skip ∧ b < 4) :
      some (l.foldl (betterOf ty grp skip) b) ≠ skip ∧ l.foldl (betterOf ty grp skip) b < 4 := by
    induction l generalizing b with
    | nil => exact hb
    | cons p l ih => exact ih (fun q hq => hl q (by simp [hq])) _ (betterOf_ok ty grp hb (hl p (by simp)))
  refine hfold _ (fun p hp => List.mem_range.1 hp) _ ?_
  split
  · next h => exact ⟨by simp [h], by decide⟩
  · next h => exact ⟨fun h0 => h h0.symm, by decide⟩

/-- Two different positions of a group are kept (R154). -/
theorem nmKeep_eq (ty : ElemType) (grp : List Nat) : ∃ a b, nmKeep ty grp = [a, b] ∧ a ≠ b ∧ a < 4 ∧ b < 4 :=
  ⟨bestOf ty grp none, bestOf ty grp (some (bestOf ty grp none)), rfl, fun h => (bestOf_ok ty grp (some (bestOf ty grp none))).1 (congrArg some h.symm),
    (bestOf_ok ty grp none).2, (bestOf_ok ty grp _).2⟩

/-- The positions of a group that pruning drops (R154). -/
def nmDrop (ty : ElemType) (grp : List Nat) : List Nat :=
  if (nonzeros grp).length ≤ 2 then [] else (nonzeros grp).filter fun p => !(nmKeep ty grp).contains p

theorem mem_nmDrop {ty : ElemType} {grp : List Nat} {p : Nat} (h : p ∈ nmDrop ty grp) : p ∈ nonzeros grp ∧ p ∉ nmKeep ty grp := by
  unfold nmDrop at h
  split at h
  · cases h
  · simpa using h

/-- The groups of a tile: lines, and groups of a line. -/
def allGroups : List (Nat × Nat) := ((List.range 32).map fun r => (List.range 8).map fun g => (r, g)).flatten

theorem mem_allGroups {x : Nat × Nat} : x ∈ allGroups ↔ x.1 < 32 ∧ x.2 < 8 := by
  obtain ⟨r, g⟩ := x
  simp [allGroups]

/-- The zeros that pruning writes (R154). -/
def pruneWrites (ty : ElemType) (axis : Bool) (t : List Nat) : List (Nat × Nat) :=
  allGroups.flatMap fun x => (nmDrop ty (nmGroup t axis x.1 x.2)).map fun p => (nmIndex axis x.1 x.2 p, 0)

/-- What pruning does with one group: the tile so far and the elements dropped so far. -/
def pruneGroup (ty : ElemType) (axis : Bool) (t : List Nat) (acc : List Nat × List Nat) (x : Nat × Nat) : List Nat × List Nat :=
  let grp := nmGroup t axis x.1 x.2
  if (grp.filter (· ≠ 0)).length ≤ 2 then acc
  else
    let drop := (List.range 4).filter fun p => !(nmKeep ty grp).contains p && nth grp p ≠ 0
    (drop.foldl (fun t p => t.set (nmIndex axis x.1 x.2 p) 0) acc.1, acc.2 ++ drop.map (nth grp))

theorem pruneTile_eq_foldl (ty : ElemType) (axis : Bool) (t : List Nat) : pruneTile ty axis t = allGroups.foldl (pruneGroup ty axis t) (t, []) := rfl

theorem pruneGroup_eq (ty : ElemType) (axis : Bool) (t : List Nat) (acc : List Nat × List Nat) (x : Nat × Nat) :
    pruneGroup ty axis t acc x = (writeAll ((nmDrop ty (nmGroup t axis x.1 x.2)).map fun p => (nmIndex axis x.1 x.2 p, 0)) acc.1,
      acc.2 ++ (nmDrop ty (nmGroup t axis x.1 x.2)).map (nth (nmGroup t axis x.1 x.2))) := by
  simp only [pruneGroup, length_nonzeros_nmGroup, nmDrop]
  split
  · simp [writeAll]
  · simp only [nonzeros, List.filter_filter, writeAll, List.foldl_map]

/-- Pruning zeroes the dropped positions of each group and tells their elements (R154). -/
theorem pruneTile_eq (ty : ElemType) (axis : Bool) (t : List Nat) : pruneTile ty axis t =
    (writeAll (pruneWrites ty axis t) t, allGroups.flatMap fun x => (nmDrop ty (nmGroup t axis x.1 x.2)).map (nth (nmGroup t axis x.1 x.2))) := by
  have hfold (l : List (Nat × Nat)) (acc : List Nat × List Nat) : l.foldl (pruneGroup ty axis t) acc =
      (writeAll (l.flatMap fun x => (nmDrop ty (nmGroup t axis x.1 x.2)).map fun p => (nmIndex axis x.1 x.2 p, 0)) acc.1,
        acc.2 ++ l.flatMap fun x => (nmDrop ty (nmGroup t axis x.1 x.2)).map (nth (nmGroup t axis x.1 x.2))) := by
    induction l generalizing acc with
    | nil => simp [writeAll]
    | cons x l ih => rw [List.foldl_cons, ih, pruneGroup_eq]; simp [writeAll, List.foldl_append]
  rw [pruneTile_eq_foldl, hfold, List.nil_append, pruneWrites]

theorem mem_pruneWrites {ty : ElemType} {axis : Bool} {t : List Nat} {w : Nat × Nat} : w ∈ pruneWrites ty axis t ↔
    ∃ r < 32, ∃ g < 8, ∃ p ∈ nmDrop ty (nmGroup t axis r g), (nmIndex axis r g p, 0) = w := by
  simp only [pruneWrites, List.mem_flatMap, List.mem_map, mem_allGroups, Prod.exists]
  exact ⟨fun ⟨r, g, ⟨hr, hg⟩, p, hp, h⟩ => ⟨r, hr, g, hg, p, hp, h⟩, fun ⟨r, hr, g, hg, p, hp, h⟩ => ⟨r, g, ⟨hr, hg⟩, p, hp, h⟩⟩

section
variable {ty : ElemType} {axis : Bool} {t : List Nat} (ht : t.length = 1024)
include ht

/-- An element of a pruned tile is nought or as it was (R154). -/
theorem nth_pruneTile (i : Nat) : nth (pruneTile ty axis t).1 i = 0 ∨ nth (pruneTile ty axis t).1 i = nth t i := by
  rw [pruneTile_eq]
  by_cases hex : ∃ w ∈ pruneWrites ty axis t, w.1 = i
  · left
    obtain ⟨w, hw, rfl⟩ := hex
    obtain ⟨r, hr, g, hg, p, hp, rfl⟩ := mem_pruneWrites.1 hw
    have hp4 : p < 4 := (mem_nonzeros.1 (mem_nmDrop hp).1).1
    refine nth_writeAll (fun v hv _ => ?_) (by rw [ht]; exact nmIndex_lt axis hr hg hp4) (.inr ⟨_, hw, rfl⟩)
    obtain ⟨-, -, -, -, -, -, rfl⟩ := mem_pruneWrites.1 hv
    rfl
  · right
    exact nth_writeAll_other (fun w hw hwi => hex ⟨w, hw, hwi⟩) t

theorem nth_pruneTile_dropped {r g p : Nat} (hr : r < 32) (hg : g < 8) (hp : p ∈ nmDrop ty (nmGroup t axis r g)) :
    nth (pruneTile ty axis t).1 (nmIndex axis r g p) = 0 := by
  have hp4 : p < 4 := (mem_nonzeros.1 (mem_nmDrop hp).1).1
  have hw := mem_pruneWrites.2 ⟨r, hr, g, hg, p, hp, rfl⟩
  rw [pruneTile_eq]
  refine nth_writeAll (fun v hv _ => ?_) (by rw [ht]; exact nmIndex_lt axis hr hg hp4) (.inr ⟨_, hw, rfl⟩)
  obtain ⟨-, -, -, -, -, -, rfl⟩ := mem_pruneWrites.1 hv
  rfl

omit ht in
theorem nth_pruneTile_kept {r g p : Nat} (hr : r < 32) (hg : g < 8) (hp : p < 4) (hkeep : p ∉ nmDrop ty (nmGroup t axis r g)) :
    nth (pruneTile ty axis t).1 (nmIndex axis r g p) = nth t (nmIndex axis r g p) := by
  rw [pruneTile_eq]
  refine nth_writeAll_other (fun w hw hwi => ?_) t
  obtain ⟨r', hr', g', hg', p', hp', rfl⟩ := mem_pruneWrites.1 hw
  have hp4 : p' < 4 := (mem_nonzeros.1 (mem_nmDrop hp').1).1
  obtain ⟨rfl, rfl, rfl⟩ := nmIndex_inj axis hr' hg' hp4 hr hg hp hwi
  exact hkeep hp'

/-- The groups of a pruned tile hold no more than two elements each (R154). -/
theorem groupsFit_pruneTile : GroupsFit (pruneTile ty axis t).1 axis := by
  intro r hr g hg
  have hsub (p : Nat) (hp : p ∈ nonzeros (nmGroup (pruneTile ty axis t).1 axis r g)) :
      p ∈ nonzeros (nmGroup t axis r g) ∧ p ∉ nmDrop ty (nmGroup t axis r g) := by
    obtain ⟨hp4, hne⟩ := mem_nonzeros.1 hp
    rw [nth_nmGroup _ axis r g hp4] at hne
    refine ⟨mem_nonzeros.2 ⟨hp4, ?_⟩, fun hdrop => hne (nth_pruneTile_dropped ht hr hg hdrop)⟩
    rw [nth_nmGroup _ axis r g hp4, ← (nth_pruneTile ht _).resolve_left hne]
    exact hne
  have hle {l : List Nat} (h : ∀ p ∈ nonzeros (nmGroup (pruneTile ty axis t).1 axis r g), p ∈ l) :
      (nonzeros (nmGroup (pruneTile ty axis t).1 axis r g)).length ≤ l.length := ((nodup_nonzeros _).subperm h).length_le
  by_cases hfit : (nonzeros (nmGroup t axis r g)).length ≤ 2
  · exact (hle fun p hp => (hsub p hp).1).trans hfit
  · obtain ⟨a, b, hkeep, -⟩ := nmKeep_eq ty (nmGroup t axis r g)
    refine (hle (l := [a, b]) fun p hp => ?_).trans_eq rfl
    obtain ⟨hnz, hdrop⟩ := hsub p hp
    rw [nmDrop, if_neg hfit, List.mem_filter, hkeep] at hdrop
    simpa [hnz, or_iff_not_imp_left] using hdrop

omit ht in
/-- A tile with a group of more than two elements keeps one not zero (R154). -/
theorem pruneTile_ne_zero (h : ¬ GroupsFit t axis) : ∃ i < 1024, nth (pruneTile ty axis t).1 i ≠ 0 := by
  simp only [GroupsFit, not_forall] at h
  obtain ⟨r, hr, g, hg, hover⟩ := h
  obtain ⟨a, b, hkeep, hab, ha, hb⟩ := nmKeep_eq ty (nmGroup t axis r g)
  have hone : nth (nmGroup t axis r g) a ≠ 0 ∨ nth (nmGroup t axis r g) b ≠ 0 := by
    by_contra hzero
    have hsub : ∀ p ∈ nonzeros (nmGroup t axis r g), p ∈ ((List.range 4).erase a).erase b := by
      intro p hp
      obtain ⟨hp4, hne⟩ := mem_nonzeros.1 hp
      rw [List.Nodup.mem_erase_iff (List.nodup_range.erase a), List.nodup_range.mem_erase_iff, List.mem_range]
      exact ⟨fun hpb => hzero (.inr (hpb ▸ hne)), fun hpa => hzero (.inl (hpa ▸ hne)), hp4⟩
    have hle := ((nodup_nonzeros _).subperm hsub).length_le
    rw [List.length_erase_of_mem ((List.mem_erase_of_ne hab.symm).2 (List.mem_range.2 hb)), List.length_erase_of_mem (List.mem_range.2 ha),
      List.length_range] at hle
    exact hover hle
  have hkept {p : Nat} (hp : p < 4) (hmem : p ∈ nmKeep ty (nmGroup t axis r g)) (hne : nth (nmGroup t axis r g) p ≠ 0) :
      ∃ i < 1024, nth (pruneTile ty axis t).1 i ≠ 0 := by
    refine ⟨_, nmIndex_lt axis hr hg hp, ?_⟩
    rw [nth_pruneTile_kept hr hg hp fun hdrop => (mem_nmDrop hdrop).2 hmem, ← nth_nmGroup t axis r g hp]
    exact hne
  exact hone.elim (hkept ha (by simp [hkeep])) (hkept hb (by simp [hkeep]))

omit ht in
/-- Where nothing was dropped the tile is as it was. -/
theorem pruneTile_of_nothing_dropped (h : (pruneTile ty axis t).2 = []) : (pruneTile ty axis t).1 = t := by
  rw [pruneTile_eq] at h ⊢
  have hnone : pruneWrites ty axis t = [] := by
    rw [List.flatMap_eq_nil_iff] at h
    rw [pruneWrites, List.flatMap_eq_nil_iff]
    exact fun x hx => by simpa using h x hx
  rw [hnone]
  rfl

end

end Sys2Proof.Machine
end

section
/-!
What the compressor stores of a tile, whatever format it picks, and what is read of it (R153 to R155).
-/
namespace Sys2Proof.Machine
open Sys2Proof

/-! ### Tiles cut to their extent -/

/-- Whether an element lies within the extent of a tile written (R155). -/
def TileAt.inside (a : TileAt) (i : Nat) : Bool := decide (i / 32 ≤ a.rowsM1) && decide (i % 32 ≤ a.colsM1)

theorem TileAt.inside_iff (a : TileAt) (i : Nat) : a.inside i = true ↔ i / 32 ≤ a.rowsM1 ∧ i % 32 ≤ a.colsM1 := by simp [TileAt.inside]

theorem length_clip (inside : Nat → Bool) (t : List Nat) : (clip inside t).length = 1024 := by simp [clip]

theorem nth_clip (inside : Nat → Bool) (t : List Nat) {i : Nat} (hi : i < 1024) : nth (clip inside t) i = if inside i then nth t i else 0 := nth_map_range _ hi

/-- A tile with nothing outside an extent is as it was when cut to it. -/
theorem clip_eq_self {inside : Nat → Bool} {u : List Nat} (hu : u.length = 1024) (h : ∀ i < 1024, inside i = false → nth u i = 0) : clip inside u = u := by
  refine List.ext_getElem ((length_clip inside u).trans hu.symm) fun i h1 h2 => ?_
  have hi : i < 1024 := by simpa [hu] using h2
  rw [← nth_eq_getElem h1, ← nth_eq_getElem h2, nth_clip inside u hi]
  split
  · rfl
  · next hout => exact (h i hi (by simpa using hout)).symm

theorem nth_lt {t : List Nat} {n : Nat} (hn : 0 < n) (h : ∀ e ∈ t, e < n) (i : Nat) : nth t i < n := by
  by_cases hi : i < t.length
  · rw [nth_eq_getElem hi]
    exact h _ (List.getElem_mem hi)
  · rw [nth_of_length_le (by omega)]
    exact hn

/-! ### The compressor's choice -/

/-- The formats the choice rule may pick from (R153). -/
def formatCands (c : Choice) (t : List Nat) : List Format :=
  (if c.nmOnly then [] else [Format.dense]) ++ (if c.nm && (nmValid t c.axis || c.prune) then [Format.nm] else []) ++
    (if c.sb && !c.nmOnly then [Format.sb] else []) ++ (if c.cl && !c.nmOnly then [Format.cl] else [])

/-- One candidate against the pick so far (R153). -/
def betterFormat (ty : ElemType) (t : List Nat) (b : Option Format) (f : Format) : Option Format :=
  match b with
  | none => some f
  | some g => if storedSize f ty t < storedSize g ty t then some f else some g

/-- The format the choice rule picks (R153). -/
def pickFormat (c : Choice) (ty : ElemType) (t : List Nat) : Format := ((formatCands c t).foldl (betterFormat ty t) none).getD .dense

/-- The tile stored in a format, and the elements dropped (R154). -/
def keptTile (c : Choice) (f : Format) (ty : ElemType) (t : List Nat) : List Nat × List Nat :=
  if f = .nm ∧ nmValid t c.axis = false then pruneTile ty c.axis t else (t, [])

/-- The label of a tile stored. -/
def storedLabel (c : Choice) (f : Format) (ty : ElemType) (a : TileAt) (k : List Nat × List Nat) : Label :=
  { format := f, elem := ty, nmAxis := f == .nm && c.axis, indexRange := false, pruned := !k.2.isEmpty, scale := a.scale, rowsM1 := a.rowsM1,
    colsM1 := a.colsM1, nnz := nnzOf k.1, tileCol := a.col, tileRow := a.row, tensor := a.tensor, aux := (encodeBody f ty c.axis k.1).2 }

/-- What the compressor makes of a tile cut to its extent. -/
def compressClipped (c : Choice) (ty : ElemType) (a : TileAt) (t : List Nat) : Compressed :=
  if t.all (· = 0) then ⟨[], t, [], false⟩
  else
    let f := pickFormat c ty t
    let k := keptTile c f ty t
    ⟨(storedLabel c f ty a k).bytes ++ (encodeBody f ty c.axis k.1).1, k.1, k.2, c.nm && !(c.nm && (nmValid t c.axis || c.prune))⟩

theorem compressTile_eq (c : Choice) (ty : ElemType) (a : TileAt) (t0 : List Nat) :
    compressTile c ty a t0 = compressClipped c ty a (clip a.inside t0) := by
  unfold compressTile compressClipped
  rfl

/-- The format picked is one that the element type may have, where those that the choice names are (R153). -/
theorem allows_pickFormat {c : Choice} {ty : ElemType} (hsb : c.sb = true → ty.allows .sb = true) (hnm : c.nm = true → ty.allows .nm = true)
    (hcl : c.cl = true → ty.allows .cl = true) (t : List Nat) : ty.allows (pickFormat c ty t) = true := by
  have hdense : ty.allows .dense = true := rfl
  have hcands (f : Format) (hf : f ∈ formatCands c t) : ty.allows f = true := by
    simp only [formatCands, List.mem_append] at hf
    obtain ((hf | hf) | hf) | hf := hf <;> split at hf <;> simp_all
  have hfold : ∀ g ∈ (formatCands c t).foldl (betterFormat ty t) none, ty.allows g = true := by
    refine List.foldlRecOn (motive := fun b : Option Format => ∀ g ∈ b, ty.allows g = true) _ _ (by simp) fun b hb f hf g hg => ?_
    unfold betterFormat at hg
    split at hg
    · exact Option.some.inj hg ▸ hcands f hf
    · split at hg
      · exact Option.some.inj hg ▸ hcands f hf
      · exact hb g hg
  unfold pickFormat
  cases hp : (formatCands c t).foldl (betterFormat ty t) none with
  | none => exact hdense
  | some g => exact hfold g hp

/-! ### The tile kept -/

section
variable (c : Choice) (f : Format) (ty : ElemType) {t : List Nat} (ht : t.length = 1024)
include ht

theorem length_keptTile : (keptTile c f ty t).1.length = 1024 := by
  unfold keptTile
  split
  · rw [pruneTile_eq, length_writeAll, ht]
  · exact ht

theorem nth_keptTile (i : Nat) : nth (keptTile c f ty t).1 i = 0 ∨ nth (keptTile c f ty t).1 i = nth t i := by
  unfold keptTile
  split
  · exact nth_pruneTile ht i
  · exact .inr rfl

theorem groupsFit_keptTile (hf : f = .nm) : GroupsFit (keptTile c f ty t).1 c.axis := by
  unfold keptTile
  split
  · exact groupsFit_pruneTile ht
  · next hvalid =>
    refine (nmValid_iff _ _).1 ?_
    simpa [hf] using hvalid

omit ht in
theorem keptTile_of_nothing_dropped (h : (keptTile c f ty t).2 = []) : (keptTile c f ty t).1 = t := by
  unfold keptTile at h ⊢
  split at h
  · next hcond => rw [if_pos hcond]; exact pruneTile_of_nothing_dropped h
  · next hcond => rw [if_neg hcond]

/-- Pruning leaves an element that is not zero where there was one. -/
theorem keptTile_ne_zero (hne : ¬ t.all (· = 0) = true) : ∃ e ∈ (keptTile c f ty t).1, e ≠ 0 := by
  unfold keptTile
  split
  · next hcond =>
    have hfit : ¬ GroupsFit t c.axis := by rw [← nmValid_iff, hcond.2]; decide
    obtain ⟨i, hi, hi0⟩ := pruneTile_ne_zero (ty := ty) hfit
    have hlen : i < (pruneTile ty c.axis t).1.length := by rw [pruneTile_eq, length_writeAll, ht]; exact hi
    exact ⟨_, List.getElem_mem hlen, by rwa [← nth_eq_getElem hlen]⟩
  · simpa using hne

end

theorem length_clCodes_le (u : List Nat) : (clCodes u).length ≤ 1024 := by
  rw [clCodes, List.length_map]
  exact (List.length_filter_le ..).trans_eq List.length_range

theorem nnzOf_le {u : List Nat} (h : u.length = 1024) : nnzOf u ≤ 1024 := h ▸ List.length_filter_le ..

theorem one_le_nnzOf {u : List Nat} (h : ∃ e ∈ u, e ≠ 0) : 1 ≤ nnzOf u := by
  obtain ⟨e, he, hne⟩ := h
  exact List.length_pos_of_mem (List.mem_filter.2 ⟨he, by simpa using hne⟩)

/-- The label written of a tile stored is one that can be read. -/
theorem storedLabel_formed {c : Choice} {f : Format} {ty : ElemType} {a : TileAt} {k : List Nat × List Nat} (hallows : ty.allows f = true)
    (hlen : k.1.length = 1024) (hne : ∃ e ∈ k.1, e ≠ 0)
    (ha : a.scale < 255 ∧ a.rowsM1 < 32 ∧ a.colsM1 < 32 ∧ a.tensor < 2 ^ 32 ∧ a.row < 2 ^ 36 ∧ a.col < 2 ^ 20) : (storedLabel c f ty a k).Formed := by
  obtain ⟨hscale, hrows, hcols, htensor, hrow, hcol⟩ := ha
  have haux : (storedLabel c f ty a k).aux < 2 ^ 64 ∧ (f = .sb ∨ (f = .cl ∧ (storedLabel c f ty a k).aux ≤ 1024) ∨ (storedLabel c f ty a k).aux = 0) := by
    rw [show (storedLabel c f ty a k).aux = (encodeBody f ty c.axis k.1).2 from rfl]
    cases f with
    | dense => simp [encodeBody]
    | sb =>
      refine ⟨?_, .inl rfl⟩
      rw [show (encodeBody .sb ty c.axis k.1).2 = sbMask k.1 from rfl]
      exact sbMask_lt k.1
    | nm => simp [encodeBody_nm]
    | cl =>
      have hcl := length_clCodes_le k.1
      rw [encodeBody_cl]
      dsimp only
      exact ⟨by omega, .inr (.inl ⟨rfl, hcl⟩)⟩
  exact ⟨hallows, hscale, hrows, hcols, ⟨one_le_nnzOf hne, nnzOf_le hlen⟩, hcol, hrow, htensor, haux.1,
    by cases f <;> simp [storedLabel], haux.2⟩

/-- A tile stored decodes to the elements kept. -/
theorem decodeTile_stored {c : Choice} {f : Format} {ty : ElemType} {a : TileAt} {k : List Nat × List Nat}
    (hl : (storedLabel c f ty a k).Formed) (hlen : k.1.length = 1024) (hlt : ∀ i, nth k.1 i < 2 ^ ty.bits) (hfit : f = .nm → GroupsFit k.1 c.axis)
    (hout : ∀ i < 1024, a.inside i = false → nth k.1 i = 0) :
    decodeTile ((storedLabel c f ty a k).bytes ++ (encodeBody f ty c.axis k.1).1) = k.1 := by
  have h32 := (storedLabel c f ty a k).length_bytes
  have hraw : rawElems (storedLabel c f ty a k) (encodeBody f ty c.axis k.1).1 = k.1 :=
    rawElems_encodeBody hl.allows hlen hlt hfit rfl rfl (fun hf => by subst hf; rfl) rfl
  rw [decodeTile, List.take_left' h32, List.drop_left' h32, readLabel_bytes hl]
  dsimp only
  rw [hraw]
  exact clip_eq_self hlen hout

/-- Settles O50: the compressor's tile has a label that reads back, and its body decodes in each format to the tile that pruning left. -/
theorem tilesRoundTrip : Obligations.TilesRoundTrip := by
  unfold Obligations.TilesRoundTrip
  intro c ty a t0 _ helems hsb hnm hcl _ hscale hrows hcols htensor hrow hcol
  obtain ⟨t, ht⟩ : ∃ t, clip a.inside t0 = t := ⟨_, rfl⟩
  have hlen : t.length = 1024 := ht ▸ length_clip ..
  have hnth {i : Nat} (hi : i < 1024) : nth t i = if a.inside i then nth t0 i else 0 := ht ▸ nth_clip _ _ hi
  have hlt (i : Nat) : nth t i < 2 ^ ty.bits := by
    by_cases hi : i < 1024
    · rw [hnth hi]
      split
      · exact nth_lt (Nat.two_pow_pos _) helems i
      · exact Nat.two_pow_pos _
    · rw [nth_of_length_le (by omega)]
      exact Nat.two_pow_pos _
  have hkeeps {u : List Nat} (hu : ∀ i, nth u i = 0 ∨ nth u i = nth t i) (i : Nat) (hi : i < 1024) :
      nth u i = 0 ∨ (nth u i = nth t0 i ∧ i / 32 ≤ a.rowsM1 ∧ i % 32 ≤ a.colsM1) := by
    have h := hu i
    rw [hnth hi] at h
    split at h
    · next hin => exact h.imp_right fun h => ⟨h, (a.inside_iff i).1 hin⟩
    · exact .inl (h.elim id id)
  have hall {i : Nat} (hi : i < 1024) (hr : i / 32 ≤ a.rowsM1) (hc : i % 32 ≤ a.colsM1) : nth t i = nth t0 i := by
    rw [hnth hi, if_pos ((a.inside_iff i).2 ⟨hr, hc⟩)]
  by_cases hzero : t.all (· = 0) = true
  · rw [compressTile_eq, ht, compressClipped, if_pos hzero]
    refine ⟨?_, hkeeps fun i => .inr rfl, fun _ i hi hr hc => hall hi hr hc⟩
    have : t = List.replicate 1024 0 := List.eq_replicate_iff.2 ⟨hlen, by simpa using hzero⟩
    rw [this]
    rfl
  · obtain ⟨f, hf⟩ : ∃ f, pickFormat c ty t = f := ⟨_, rfl⟩
    have hku := nth_keptTile c f ty hlen
    have hu := length_keptTile c f ty hlen
    have hallows : ty.allows f = true := hf ▸ allows_pickFormat hsb hnm hcl t
    have hformed := storedLabel_formed (c := c) (a := a) hallows hu (keptTile_ne_zero c f ty hlen hzero) ⟨hscale, hrows, hcols, htensor, hrow, hcol⟩
    simp only [compressTile_eq, ht, compressClipped, if_neg hzero, hf]
    refine ⟨decodeTile_stored hformed hu (fun i => ?_) (groupsFit_keptTile c f ty hlen) fun i hi hout => ?_, hkeeps hku,
      fun hdrop i hi hr hc => ?_⟩
    · exact (hku i).elim (fun h => h ▸ Nat.two_pow_pos _) fun h => h ▸ hlt i
    · exact (hku i).elim id fun h => by rw [h, hnth hi, hout]; rfl
    · rw [keptTile_of_nothing_dropped c f ty hdrop]
      exact hall hi hr hc

end Sys2Proof.Machine
end

section
/-!
What becomes of a host command or a GDP frame that passes its checks: acceptance, its record in the job's log, and its answer (R275, R278, R359, R411), whatever
module-wide events its effect raises.
-/
namespace Sys2Proof.Machine
open Sys2Proof

/-! ### What module-wide events leave of the host port and of the sessions -/

/-- A session but for its subscription and its describe key (R420, R433). -/
def Session.core (x : Session) : Session := { x with sub := none, describe := 0 }

/-- Nothing has happened on the host port but that module-wide events were stored (R290, R291), and nothing in a session's core. -/
structure Noticed (s t : State) : Prop where
  inFlight : t.port.inFlight = s.port.inFlight
  session : ∀ q, (t.queue q).session = (s.queue q).session
  rspSeq : ∀ q, (t.queue q).rspSeq = (s.queue q).rspSeq
  store : ∀ q, ∃ l, (∀ r ∈ l, r.typ = .event ∧ r.session = 0) ∧ (t.queue q).store = (s.queue q).store ++ l
  cores : t.sessions.map Session.core = s.sessions.map Session.core

theorem Noticed.of {s t : State} (hport : t.port = s.port) (hcores : t.sessions.map Session.core = s.sessions.map Session.core) : Noticed s t where
  inFlight := by rw [hport]
  session q := by rw [State.queue_port hport]
  rspSeq q := by rw [State.queue_port hport]
  store q := ⟨[], by simp, by rw [State.queue_port hport, List.append_nil]⟩
  cores := hcores

theorem Noticed.refl (s : State) : Noticed s s := .of rfl rfl

theorem Noticed.trans {s t u : State} (h : Noticed s t) (g : Noticed t u) : Noticed s u where
  inFlight := g.inFlight.trans h.inFlight
  session q := (g.session q).trans (h.session q)
  rspSeq q := (g.rspSeq q).trans (h.rspSeq q)
  store q := by
    obtain ⟨l, hl, hs⟩ := h.store q
    obtain ⟨m, hm, ht⟩ := g.store q
    exact ⟨l ++ m, fun r hr => (List.mem_append.1 hr).elim (hl r) (hm r), by rw [ht, hs, List.append_assoc]⟩
  cores := g.cores.trans h.cores

theorem Noticed.foldl {α : Type} (f : State → α → State) (l : List α) (s : State) (h : ∀ s a, Noticed s (f s a)) : Noticed s (l.foldl f s) := by
  induction l generalizing s with
  | nil => exact .refl s
  | cons a l ih => exact (h s a).trans (ih _)

/-- A queue that has stored a module-wide event. -/
def Queue.noting (x : Queue) (q : Nat) (e : EventRec) : Queue :=
  { x with
    events := x.events ++ [e.seq]
    store := x.store ++ [{ typ := .event, status := .ok, queue := q, session := 0, seq := 0, tag := 0, step := 0, retry := 0, payload := e.bytes,
                           cmd := none }] }

theorem State.storeEvent_noticed (s : State) (q : Nat) (e : EventRec) : Noticed s (s.storeEvent q e 0) := by
  unfold State.storeEvent
  split
  · change Noticed s (s.updQueue q fun x => x.noting q e)
    have hq (r : Nat) : (s.updQueue q fun x => x.noting q e).queue r = if r = q then (s.queue r).noting q e else s.queue r := by
      split
      · next h => subst h; exact State.queue_updQueue_self ..
      · next h => exact State.queue_updQueue_other _ _ _ _ fun h' => h h'.symm
    refine ⟨rfl, fun r => ?_, fun r => ?_, fun r => ?_, rfl⟩ <;> rw [hq r] <;> split
    · rfl
    · rfl
    · rfl
    · rfl
    · exact ⟨_, by simp, rfl⟩
    · exact ⟨[], by simp, (List.append_nil _).symm⟩
  · exact .of rfl rfl

theorem State.cores_updSession (s : State) (id : Nat) (f : Session → Session) (hf : ∀ x, (f x).core = x.core) :
    (s.updSession id f).sessions.map Session.core = s.sessions.map Session.core := by
  simp only [State.updSession, List.map_map]
  refine List.map_congr_left fun x _ => ?_
  simp only [Function.comp_apply]
  split
  · exact hf x
  · rfl

theorem State.offer_noticed (s : State) (e : EventRec) : Noticed s (s.offer e) := by
  unfold State.offer
  refine Noticed.foldl _ _ _ fun t x => ?_
  split
  · exact .refl t
  · split
    · split
      · exact .of rfl (t.cores_updSession _ _ fun _ => rfl)
      · exact .of rfl rfl
    · exact .refl t

theorem State.deliver_noticed (s : State) (e : EventRec) : Noticed s (s.deliver e none) :=
  (Noticed.foldl (fun t (p : Nat × Queue) => t.storeEvent p.1 e 0) _ s fun t p => t.storeEvent_noticed p.1 e).trans (State.offer_noticed ..)

theorem State.raise_noticed (s : State) (code : Nat) (src : Source) (u a b c : Nat) : Noticed s (s.raise code src u a b c) := by
  unfold State.raise State.record
  split
  · exact .of rfl rfl
  · refine Noticed.trans ?_ (State.deliver_noticed ..)
    exact .of rfl rfl

/-- A live session is found by what its core holds. -/
theorem State.live?_core (s : State) (id : Nat) :
    (s.live? id).map Session.core = (s.sessions.map Session.core).find? fun x => x.id == id && x.live := by
  unfold State.live?
  rw [List.find?_map]
  rfl

theorem Noticed.live {s t : State} (h : Noticed s t) (id : Nat) : (t.live? id).map Session.core = (s.live? id).map Session.core := by
  rw [State.live?_core, State.live?_core, h.cores]

theorem Noticed.live_isSome {s t : State} (h : Noticed s t) (id : Nat) : (t.live? id).isSome = (s.live? id).isSome := by
  simpa using congrArg Option.isSome (h.live id)

/-! ### Commands in flight -/

theorem State.inFlight?_port {s t : State} (h : t.port.inFlight = s.port.inFlight) (a b c : Nat) : t.inFlight? a b c = s.inFlight? a b c := by
  rw [State.inFlight?, State.inFlight?, h]

theorem State.inFlight?_updInFlight (s : State) (a b c : Nat) (g : InFlight → InFlight) (hg : ∀ f : InFlight, f.is a b c = true → (g f).is a b c = true) :
    (s.updInFlight a b c g).inFlight? a b c = (s.inFlight? a b c).map g := by
  unfold State.inFlight? State.updInFlight
  simp only
  generalize s.port.inFlight = l
  induction l with
  | nil => rfl
  | cons f l ih =>
    by_cases h : f.is a b c = true
    · simp [h, hg]
    · simpa [h] using ih

theorem State.mem_of_arrivedOn {s : State} {q opcode : Nat} {f : InFlight} (h : s.arrivedOn q opcode = some f) : f ∈ s.port.inFlight := List.mem_of_find?_eq_some h

theorem State.queue_of_arrivedOn {s : State} {q opcode : Nat} {f : InFlight} (h : s.arrivedOn q opcode = some f) :
    f.cmd.queue = q ∧ f.stage = .arrived ∧ f.cmd.opcode = opcode := by
  simpa [and_assoc] using List.find?_some h

theorem InFlight.is_self (f : InFlight) : f.is f.cmd.session f.cmd.queue f.cmd.seq = true := by simp [InFlight.is]

/-- A command that has arrived is one in flight under its name. -/
theorem State.inFlight?_of_mem {s : State} {f : InFlight} (h : f ∈ s.port.inFlight) :
    ∃ g, s.inFlight? f.cmd.session f.cmd.queue f.cmd.seq = some g :=
  Option.isSome_iff_exists.1 (List.find?_isSome.2 ⟨f, h, f.is_self⟩)

/-! ### Acceptance -/

/-- A command taken by its job, or by the module (R28, R275). -/
def InFlight.taken (f : InFlight) : Option Job → InFlight
  | some j => { f with stage := .waiting, accept := some (j.accepted + 1), logged := false }
  | none => { f with stage := .waiting, logged := true }

/-- A job that has accepted a command (R28, R359). -/
def Job.accepting (j : Job) (r : LogRec) : Job :=
  { j with accepted := j.accepted + 1, log := j.log ++ [r], logEnd := j.logEnd + 64 + r.body.length }

/-- The jobs once one of them has accepted a command (R28, R359). -/
def State.jobsTaking (s : State) (f : InFlight) (j : Job) : List Job :=
  s.jobs.map fun k =>
    if k.slot = j.slot then
      { k with accepted := j.accepted + 1, log := k.log ++ [{ s.commandRecord j f with offset := k.logEnd }], logEnd := k.logEnd + 64 + f.cmd.payload.length }
    else k

/-- What taking a command does to the state: it stands as taken, and the job it serves has its index and its record. -/
theorem State.begun_eq {s : State} {f : InFlight} (hsent : f.replayed = false) : s.begun f =
    { s with
      port := (s.updInFlight f.cmd.session f.cmd.queue f.cmd.seq fun _ => f.taken (f.job.bind s.job?)).port
      jobs := ((f.job.bind s.job?).map (s.jobsTaking f)).getD s.jobs } := by
  unfold State.begun State.accept
  cases hj : f.job.bind s.job? with
  | none => rfl
  | some j =>
    simp only [hsent, Bool.false_eq_true, if_false, Option.isNone_some, State.logRecord, State.updJob, State.updInFlight, bne_self_eq_false, Bool.false_and,
      List.map_map, InFlight.taken, State.commandRecord, State.jobsTaking, Option.map_some, Option.getD_some]
    congr 1
    refine List.map_congr_left fun k _ => ?_
    by_cases hk : k.slot = j.slot
    · simp [hk]
    · simp [hk]

theorem State.accept_taken {s : State} {f : InFlight} (hsent : f.replayed = false) :
    (s.accept { f with stage := .waiting } (some (1, f.cmd.payload))).2 = f.taken (f.job.bind s.job?) := by
  unfold State.accept
  cases hj : f.job.bind s.job? with
  | none => rfl
  | some j => exact (congrArg Prod.snd (if_neg (by simp [hsent]))).trans rfl

theorem State.begun_only (s : State) (f : InFlight) : Only [.port, .jobs] s (s.begun f) := (State.accept_only ..).mono (by decide)

theorem State.queue_begun {s : State} {f : InFlight} (hsent : f.replayed = false) (q : Nat) : (s.begun f).queue q = s.queue q := by
  rw [State.begun_eq hsent]
  rfl

theorem State.live?_begun (s : State) (f : InFlight) (id : Nat) : (s.begun f).live? id = s.live? id :=
  State.live?_sessions ((s.begun_only f).eq .sessions rfl) id

theorem InFlight.is_taken (f : InFlight) (j : Option Job) : (f.taken j).is f.cmd.session f.cmd.queue f.cmd.seq = true := by
  cases j <;> exact f.is_self

theorem State.inFlight?_begun {s : State} {f : InFlight} (hsent : f.replayed = false) (hmem : f ∈ s.port.inFlight) :
    (s.begun f).inFlight? f.cmd.session f.cmd.queue f.cmd.seq = some (f.taken (f.job.bind s.job?)) := by
  obtain ⟨g, hg⟩ := State.inFlight?_of_mem hmem
  have h := State.inFlight?_updInFlight s f.cmd.session f.cmd.queue f.cmd.seq (fun _ => f.taken (f.job.bind s.job?)) fun _ _ => f.is_taken _
  rw [hg] at h
  rw [State.inFlight?_port (s := s.updInFlight f.cmd.session f.cmd.queue f.cmd.seq fun _ => f.taken (f.job.bind s.job?)) (by rw [State.begun_eq hsent])]
  exact h

theorem State.slot_of_bind {s : State} {f : InFlight} {j : Job} (hj : f.job.bind s.job? = some j) : f.job = some j.slot ∧ s.job? j.slot = some j := by
  obtain ⟨n, hn, hj⟩ := Option.bind_eq_some_iff.1 hj
  obtain rfl : j.slot = n := by simpa using List.find?_some hj
  exact ⟨hn, hj⟩

/-- A job that takes a command, in the list of jobs. -/
theorem State.jobsTaking_eq (s : State) (f : InFlight) (j : Job) : s.jobsTaking f j =
    (s.updJob j.slot fun k => { k with
      accepted := j.accepted + 1, log := k.log ++ [{ s.commandRecord j f with offset := k.logEnd }], logEnd := k.logEnd + 64 + f.cmd.payload.length }).jobs := rfl

section
variable {s : State} {f : InFlight} {j : Job} (hsent : f.replayed = false) (hj : f.job.bind s.job? = some j)
include hsent hj

theorem State.jobs_begun : (s.begun f).jobs = s.jobsTaking f j := by
  rw [State.begun_eq hsent]
  simp only [hj]
  rfl

/-- A job that accepts a command takes the next index and the command's record (R28, R359). -/
theorem State.job?_begun_self : (s.begun f).job? j.slot = some (j.accepting (s.commandRecord j f)) := by
  obtain ⟨-, hs⟩ := State.slot_of_bind hj
  rw [State.job?_jobs ((State.jobs_begun hsent hj).trans (State.jobsTaking_eq ..))]
  rw [State.job?_updJob_self, hs]
  · rfl
  · exact fun _ => rfl

theorem State.job?_begun_other {n : Nat} (hn : n ≠ j.slot) : (s.begun f).job? n = s.job? n := by
  rw [State.job?_jobs ((State.jobs_begun hsent hj).trans (State.jobsTaking_eq ..))]
  refine State.job?_updJob_other s j.slot n _ ?_ hn.symm
  exact fun _ => rfl

end

theorem State.jobs_begun_none {s : State} {f : InFlight} (hsent : f.replayed = false) (hj : f.job.bind s.job? = none) : (s.begun f).jobs = s.jobs := by
  rw [State.begun_eq hsent]
  simp only [hj]
  rfl

/-! ### A command that passes -/

/-- A command of the host that stands first on its queue and passes every check is taken, and its effect performed (R275). -/
theorem State.runCommand_front {s : State} {q opcode : Nat} {f : InFlight} {form : Command → Bool} {check : State → InFlight → List Bad}
    {effect : State → InFlight → State} (hf : s.Front q opcode f) (hform : form f.cmd = true) (hcheck : check s f = []) :
    s.runCommand q opcode form check effect = effect (s.begun f) (f.taken (f.job.bind s.job?)) := by
  obtain ⟨hfront, hsent, hheader, htakes⟩ := hf
  have haccept := s.accept_taken hsent
  have hstep (t : State) (g : InFlight) : t = s.begun f → g = f.taken (f.job.bind s.job?) → effect t g = effect (s.begun f) (f.taken (f.job.bind s.job?)) := by
    rintro rfl rfl
    rfl
  unfold State.runCommand State.runLogged
  rw [hfront]
  dsimp only
  rw [if_pos hform, if_neg (by simp [hsent]), hheader, hcheck, List.nil_append, List.append_nil]
  have heffect := hstep _ _ rfl haccept
  cases hj : f.job.bind s.job? with
  | none =>
    rw [hj] at heffect
    exact heffect
  | some j =>
    rw [hj] at heffect
    dsimp only
    rw [htakes j hj]
    exact heffect

/-- A command accepted by its job has its response held until its record commits, the rest of its job as its effect left it (R360). -/
theorem State.accepted_finish {s u : State} {f : InFlight} {j k : Job} {st : Status} {p : List Byte} (hsent : f.replayed = false) (hmem : f ∈ s.port.inFlight)
    (hj : f.job.bind s.job? = some j) (hport : u.port.inFlight = (s.begun f).port.inFlight) (hk : u.job? j.slot = some k)
    (hindex : k.accepted = j.accepted + 1) (hlog : k.log = j.log ++ [s.commandRecord j f]) (hothers : ∀ n, n ≠ j.slot → u.job? n = s.job? n) :
    Accepted s (u.finish f.cmd.session f.cmd.queue f.cmd.seq st p 0) f j k (.done st p 0) := by
  have hg : u.inFlight? f.cmd.session f.cmd.queue f.cmd.seq = some (f.taken (some j)) := by
    rw [State.inFlight?_port hport, State.inFlight?_begun hsent hmem, hj]
  have hfinish : u.finish f.cmd.session f.cmd.queue f.cmd.seq st p 0 =
      u.updInFlight f.cmd.session f.cmd.queue f.cmd.seq fun g => { g with stage := .done st p 0 } := by
    unfold State.finish
    rw [hg]
    rfl
  rw [hfinish]
  refine ⟨hk, hindex, hlog, hothers, ?_⟩
  rw [State.inFlight?_updInFlight, hg]
  · rfl
  · exact fun _ h => h

/-- A command that no job takes is answered at once, last in its queue's store (R278): what its effect stored before it are module-wide events. -/
theorem State.answered_finish_of {s u : State} {f : InFlight} {st : Status} {p : List Byte} (hsent : f.replayed = false) (hmem : f ∈ s.port.inFlight)
    (hj : f.job.bind s.job? = none) (hin : u.port.inFlight = (s.begun f).port.inFlight)
    (hsession : (u.queue f.cmd.queue).session = ((s.begun f).queue f.cmd.queue).session)
    (hrsp : (u.queue f.cmd.queue).rspSeq = ((s.begun f).queue f.cmd.queue).rspSeq)
    (hevents : ∃ l, (∀ r ∈ l, r.typ = .event ∧ r.session = 0) ∧ (u.queue f.cmd.queue).store = ((s.begun f).queue f.cmd.queue).store ++ l)
    (hkept : (u.live? f.cmd.session).isSome = ((s.begun f).live? f.cmd.session).isSome) :
    Answered s (u.finish f.cmd.session f.cmd.queue f.cmd.seq st p 0) f st p := by
  intro hlive hbound
  have hg : u.inFlight? f.cmd.session f.cmd.queue f.cmd.seq = some (f.taken none) := by
    rw [State.inFlight?_port hin, State.inFlight?_begun hsent hmem, hj]
  obtain ⟨l, hl, hstore⟩ := hevents
  rw [State.queue_begun hsent] at hrsp hsession hstore
  have hlive' : (u.live? f.cmd.session).isSome = true := by rw [hkept, State.live?_begun, hlive]
  refine ⟨l, hl, ?_⟩
  have hroom : ((u.releaseRoom f.cmd.queue f.cmd.opcode).queue f.cmd.queue).rspSeq = (u.queue f.cmd.queue).rspSeq := by
    unfold State.releaseRoom
    split <;> simp
  have hroom' : ((u.releaseRoom f.cmd.queue f.cmd.opcode).live? f.cmd.session).isSome = true := by
    rw [State.live?_sessions ((State.releaseRoom_only ..).eq .sessions rfl), hlive']
  have hroom'' : ((u.releaseRoom f.cmd.queue f.cmd.opcode).queue f.cmd.queue).session = f.cmd.session := by
    rw [State.session_releaseRoom, hsession, hbound]
  have henq (t : State) (r : Response) (h1 : (t.live? f.cmd.session).isSome = true) (h2 : (t.queue f.cmd.queue).session = f.cmd.session) :
      ((t.enqueue f.cmd.queue f.cmd.session r).queue f.cmd.queue).store = (t.queue f.cmd.queue).store ++
        [{ r with seq := (t.queue f.cmd.queue).rspSeq + 1, session := f.cmd.session, queue := f.cmd.queue }] := by
    simp [State.enqueue, h1, h2]
  have hanswer : u.finish f.cmd.session f.cmd.queue f.cmd.seq st p 0 = u.answer f.cmd st p 0 := by
    unfold State.finish
    rw [hg]
    rfl
  rw [hanswer]
  unfold State.answer
  simp only [hroom', hroom'', beq_self_eq_true, Bool.and_self, if_true]
  rw [henq, State.queue_updInFlight, State.store_releaseRoom, hroom, hrsp, hstore]
  · rfl
  · exact hroom'
  · exact hroom''

/-- So is one whose effect has only raised module-wide events. -/
theorem State.answered_finish {s u : State} {f : InFlight} {st : Status} {p : List Byte} (hsent : f.replayed = false) (hmem : f ∈ s.port.inFlight)
    (hj : f.job.bind s.job? = none) (hu : Noticed (s.begun f) u) : Answered s (u.finish f.cmd.session f.cmd.queue f.cmd.seq st p 0) f st p :=
  State.answered_finish_of hsent hmem hj hu.inFlight (hu.session _) (hu.rspSeq _) (hu.store _) (hu.live_isSome _)

/-- A command whose effect leaves the jobs and, events apart, the host port has its outcome (R278, R360). -/
theorem State.completes_finish {s u : State} {f : InFlight} {st : Status} {p : List Byte} (hsent : f.replayed = false) (hmem : f ∈ s.port.inFlight)
    (hu : Noticed (s.begun f) u) (hjobs : u.jobs = (s.begun f).jobs) : Completes s (u.finish f.cmd.session f.cmd.queue f.cmd.seq st p 0) f st p := by
  unfold Completes
  cases hj : f.job.bind s.job? with
  | none => exact State.answered_finish hsent hmem hj hu
  | some j =>
    refine ⟨_, State.accepted_finish hsent hmem hj hu.inFlight ((State.job?_jobs hjobs _).trans (State.job?_begun_self hsent hj)) rfl rfl fun n hn => ?_⟩
    rw [State.job?_jobs hjobs, State.job?_begun_other hsent hj hn]

/-! ### A frame that passes -/

theorem State.blockTotal_of_service (s : State) (id : Nat) {a : GdpAsk} (h : a.service ≠ 3 ∧ a.service ≠ 4) : s.blockTotal id a = 0 :=
  if_neg (by omega)

/-- A served frame that is answered repeats its request under the next number of its session (R409, R411, R414); no block service of it is here. -/
theorem State.replies_gdpAnswer {s u : State} {g : GdpFrame} {service : Nat} {x : Session} (h : s.Serves g service x) (hu : Noticed (s.frameBegun g) u)
    (st : Status) (data : List Byte) (hservice : service ≠ 3 ∧ service ≠ 4) : Replies (u.gdpAnswer g.session g.reqId st data) g x st data := by
  have hask : (gdpAsk g).service ≠ 3 ∧ (gdpAsk g).service ≠ 4 := by
    simp only [gdpAsk, h.service]
    exact hservice
  have hlive := hu.live g.session
  rw [State.live?_frameBegun h.live] at hlive
  obtain ⟨y, hy, hcore⟩ := Option.map_eq_some_iff.1 hlive
  have hout : y.gdpOut = x.gdpOut := show y.core.gdpOut = (x.begun g).core.gdpOut by rw [hcore]
  have hasked : y.ask g.reqId = gdpAsk g := by
    rw [← x.ask_begun g]
    change y.core.ask g.reqId = (x.begun g).core.ask g.reqId
    rw [hcore]
  have hagain : y.again.count g.reqId = 0 := by
    rw [← x.again_begun g]
    change y.core.again.count g.reqId = (x.begun g).core.again.count g.reqId
    rw [hcore]
  unfold Replies State.gdpAnswer
  simp only [hy, hasked, hagain, hout, State.blockTotal_of_service _ _ hask, Nat.add_zero]

/-! ### A write of an entry with a row of its own -/

/-- A write that passes its checks takes effect in the state it arrives in, by either path. -/
theorem State.viaWrite_arrives {v : Via} {s c u : State} {service index sub off : Nat} {data : List Byte} {a : Acc} (h : Arrives v s 1 service index sub off data a c u)
    (hservice : service = 2) {mine : Nat → Nat → List Byte → Bool} {check : State → Acc → Nat → Nat → List Byte → Nat → List Bad}
    {effect : State → Acc → Asker → Nat → Nat → List Byte → State} (hmine : mine index sub data = true) (hcheck : check c a index sub data (viaBase v) = []) :
    ∃ asker, s.viaWrite v mine check effect = effect u a asker index sub data ∧
      ∀ t, Noticed u t → t.jobs = u.jobs → Succeeds v s (t.tell asker .ok 0 []) := by
  cases v with
  | queue q =>
    obtain ⟨f, hf, hhead, hop, rfl, rfl, -, rfl, rfl, rfl, rfl⟩ := h
    have hmem := State.mem_of_arrivedOn hf.front
    refine ⟨f.asker, ?_, fun t ht hjobs f' hf' => ?_⟩
    · unfold State.viaWrite
      dsimp only
      rw [State.runCommand_front hf (by simp [hop, hmine]) (by rw [hhead, List.nil_append]; exact hcheck)]
      cases f.job.bind c.job? <;> rfl
    · obtain rfl : f = f' := Option.some.inj (hf.front.symm.trans hf')
      exact State.completes_finish hf.sent hmem ht hjobs
  | frame g =>
    obtain ⟨x, hx, rfl, rfl, -, rfl, rfl, rfl, rfl⟩ := h
    refine ⟨frameAsker g, ?_, fun t ht _ x' hx' => ?_⟩
    · unfold State.viaWrite
      dsimp only
      rw [if_pos hmine, ← hservice, State.gdpRequest_of_serves hx (by rw [hservice]; decide)]
      unfold State.gdpChecked
      rw [show check (s.frameBegun g) (frameAcc g) g.index g.subindex g.data 0 = [] from hcheck]
      rfl
    · obtain rfl : x = x' := Option.some.inj (hx.live.symm.trans hx')
      exact State.replies_gdpAnswer hx ht .ok [] (by omega)

/-- What arrives changes nothing but the host port, the sessions and the jobs before it takes effect. -/
theorem Arrives.only {v : Via} {s c u : State} {op service index sub off : Nat} {data : List Byte} {a : Acc} (h : Arrives v s op service index sub off data a c u) :
    Only [.port, .jobs, .sessions] s u := by
  cases v with
  | queue q =>
    obtain ⟨f, -, -, -, -, -, -, -, -, -, rfl⟩ := h
    exact (State.begun_only ..).mono (by decide)
  | frame g =>
    obtain ⟨x, -, -, -, -, -, -, -, rfl⟩ := h
    exact (State.frameBegun_only ..).mono (by decide)

theorem Arrives.check_only {v : Via} {s c u : State} {op service index sub off : Nat} {data : List Byte} {a : Acc}
    (h : Arrives v s op service index sub off data a c u) : Only [.sessions] s c := by
  cases v with
  | queue q =>
    obtain ⟨f, -, -, -, -, -, -, -, -, rfl, -⟩ := h
    exact Only.refl ..
  | frame g =>
    obtain ⟨x, -, -, -, -, -, -, rfl, -⟩ := h
    exact State.frameBegun_only ..

end Sys2Proof.Machine
end

section
/-!
DMA channels: posting, the ends of timers and descriptors, halts, and the actions on a halted channel (R297 to R305).
-/
namespace Sys2Proof.Machine
open Sys2Proof

/-! ### A channel's line of descriptors -/

/-- What a channel holds, the descriptor in execution first. -/
def Channel.line (x : Channel) : List (DmaDesc × Bool) := x.current.toList ++ x.posted

theorem Channel.line_settle (x : Channel) : x.settle.line = x.line := by
  obtain ⟨state, current, posted, burst, attempts, kind, direction, failBurst, failAddr, haltCount, moved⟩ := x
  cases current with
  | some p => rfl
  | none => cases posted <;> rfl

theorem Channel.settle_of_current {x : Channel} {d : DmaDesc} {r : Bool} (h : x.current = some (d, r)) :
    x.settle = { x with state := if r then .active else .waiting } := by
  unfold Channel.settle
  rw [h]

theorem Channel.settle_of_none {x : Channel} (h : x.current = none) : x.settle.current = x.posted.head? ∧ x.settle.posted = x.posted.tail := by
  unfold Channel.settle
  rw [h]
  cases hp : x.posted with
  | nil => exact ⟨rfl, rfl⟩
  | cons p l => exact ⟨rfl, rfl⟩

theorem Channel.settle_moved (x : Channel) : x.settle.moved = x.moved := by
  unfold Channel.settle
  repeat' split
  all_goals rfl

/-- A channel that settles neither halts nor acts. -/
theorem Channel.settle_state (x : Channel) : x.settle.state ≠ .halted ∧ x.settle.state ≠ .acting := by
  unfold Channel.settle
  split
  · dsimp only
    split <;> decide
  · split
    · exact ⟨nofun, nofun⟩
    · dsimp only
      split <;> decide

theorem Channel.settle_length_posted (x : Channel) : x.settle.posted.length ≤ x.posted.length := by
  cases h : x.current with
  | some p => rw [Channel.settle_of_current (d := p.1) (r := p.2) h]
  | none => rw [(Channel.settle_of_none h).2, List.length_tail]; omega

/-! ### The end of a descriptor -/

/-- A descriptor that waits `AFTER` a channel may start once that channel's has ended (R299). -/
def firedAfter (c : Nat) (p : DmaDesc × Bool) : DmaDesc × Bool := (p.1, p.2 || (p.1.trigger == .after && p.1.afterChannel == c))

theorem map_fst_map_firedAfter (c : Nat) (l : List (DmaDesc × Bool)) : (l.map (firedAfter c)).map (·.1) = l.map (·.1) := by
  rw [List.map_map]
  rfl

/-- A channel once the descriptor of channel `c` has ended (R299). -/
def Channel.afterEnd (x : Channel) (c : Nat) : Channel :=
  let y := { x with current := x.current.map (firedAfter c), posted := x.posted.map (firedAfter c) }
  if y.state = .halted ∨ y.state = .acting then y else y.settle

theorem State.chan_setChan_self (s : State) (c : Nat) (x : Channel) : (s.setChan c x).chan c = x := aGetD_aSet_self ..

theorem State.chan_setChan_other (s : State) (x : Channel) {c k : Nat} (h : k ≠ c) : (s.setChan c x).chan k = s.chan k :=
  aGetD_aSet_other _ _ _ _ _ h.symm

theorem State.chan_chanEnd (s : State) (c k : Nat) :
    (s.chanEnd c).chan k = ((s.setChan c { s.chan c with current := none, state := .idle }).chan k).afterEnd c := by
  have hmap (t : State) : aGetD (t.dma.map fun p => (p.1, p.2.afterEnd c)) k {} = (t.chan k).afterEnd c := by
    rw [State.chan, aGetD, aGetD, aGet_map_values _ fun _ (x : Channel) => x.afterEnd c]
    cases aGet t.dma k with
    | none => rfl
    | some x => rfl
  exact hmap _

theorem State.chan_chanEnd_other (s : State) {c k : Nat} (h : k ≠ c) : (s.chanEnd c).chan k = (s.chan k).afterEnd c := by
  rw [State.chan_chanEnd, State.chan_setChan_other s _ h]

/-- The next in line takes the place of the descriptor that has ended (R299). -/
theorem State.chan_chanEnd_self (s : State) (c : Nat) : (s.chanEnd c).chan c =
    { s.chan c with current := none, posted := (s.chan c).posted.map (firedAfter c), state := .idle : Channel }.settle := by
  rw [State.chan_chanEnd, State.chan_setChan_self]
  rfl

theorem State.current_chanEnd (s : State) (c : Nat) : ((s.chanEnd c).chan c).current.map (·.1) = ((s.chan c).posted.map (·.1)).head? := by
  rw [State.chan_chanEnd_self, (Channel.settle_of_none rfl).1, ← map_fst_map_firedAfter c (s.chan c).posted]
  exact List.head?_map.symm

theorem State.posted_chanEnd (s : State) (c : Nat) : ((s.chanEnd c).chan c).posted.map (·.1) = ((s.chan c).posted.map (·.1)).tail := by
  rw [State.chan_chanEnd_self, (Channel.settle_of_none rfl).2, List.map_tail, map_fst_map_firedAfter]

theorem State.moved_chanEnd (s : State) (c : Nat) : ((s.chanEnd c).chan c).moved = (s.chan c).moved := by
  rw [State.chan_chanEnd_self, Channel.settle_moved]

/-! ### Channels that take a descriptor -/

/-- A channel that takes no descriptor (R299). -/
def Channel.Full (x : Channel) : Prop := x.state = .halted ∨ x.state = .acting ∨ 7 ≤ x.posted.length

theorem Channel.not_full_iff (x : Channel) : ¬ x.Full ↔ x.state ≠ .halted ∧ x.state ≠ .acting ∧ x.posted.length < 7 := by
  simp [Channel.Full]

theorem Channel.not_full_afterEnd {x : Channel} (h : ¬ x.Full) (c : Nat) : ¬ (x.afterEnd c).Full := by
  obtain ⟨hhalted, hacting, hlen⟩ := x.not_full_iff.1 h
  rw [Channel.afterEnd, if_neg (by simp [hhalted, hacting]), Channel.not_full_iff]
  refine ⟨(Channel.settle_state _).1, (Channel.settle_state _).2, lt_of_le_of_lt (Channel.settle_length_posted _) ?_⟩
  simpa using hlen

theorem Channel.full_afterEnd {x : Channel} (h : x.Full) (hline : x.posted ≠ [] → x.current ≠ none) (c : Nat) : (x.afterEnd c).Full := by
  unfold Channel.afterEnd
  dsimp only
  split
  · next hstate => exact hstate.elim .inl fun h => .inr (.inl h)
  · next hstate =>
    have hlen : 7 ≤ x.posted.length := by
      obtain h | h | h := h
      · exact absurd (.inl h) hstate
      · exact absurd (.inr h) hstate
      · exact h
    have hcurrent : x.current ≠ none := hline fun hnil => by simp [hnil] at hlen
    obtain ⟨p, hp⟩ := Option.ne_none_iff_exists'.1 hcurrent
    refine .inr (.inr ?_)
    rw [Channel.settle_of_current (d := (firedAfter c p).1) (r := (firedAfter c p).2) (by simp [hp])]
    simpa using hlen

/-- Whether a channel takes a descriptor aborted on channel `c` (R305). -/
def State.Takes (s : State) (c k : Nat) : Prop := k < 64 ∧ k ≠ c ∧ chanFunction k = chanFunction c ∧ ¬ (s.chan k).Full

theorem State.takingChannel_ne {s : State} {c : Nat} (h : ∃ k, s.Takes c k) : s.takingChannel c ≠ c := by
  obtain ⟨k, hk, hne, hfun, hfull⟩ := h
  obtain ⟨hhalted, hacting, hlen⟩ := (s.chan k).not_full_iff.1 hfull
  unfold State.takingChannel
  obtain ⟨m, hm⟩ := Option.isSome_iff_exists.1 (List.find?_isSome (p := fun k => k != c && chanFunction k == chanFunction c && (s.chan k).state != .halted &&
    (s.chan k).state != .acting && decide ((s.chan k).posted.length < 7)).2 ⟨k, List.mem_range.2 hk, by simp [hne, hfun, hhalted, hacting, hlen]⟩)
  have hmc := List.find?_some hm
  rw [hm]
  simp only [Bool.and_eq_true, bne_iff_ne] at hmc
  exact hmc.1.1.1.1

theorem State.takingChannel_self {s : State} {c : Nat} (h : ¬ ∃ k, s.Takes c k) : s.takingChannel c = c := by
  unfold State.takingChannel
  rw [List.find?_eq_none.2 fun k hk hcond => ?_]
  · rfl
  · simp only [Bool.and_eq_true, bne_iff_ne, beq_iff_eq, decide_eq_true_eq] at hcond
    obtain ⟨⟨⟨⟨hne, hfun⟩, hhalted⟩, hacting⟩, hlen⟩ := hcond
    exact h ⟨k, List.mem_range.1 hk, hne, hfun, (s.chan k).not_full_iff.2 ⟨hhalted, hacting, hlen⟩⟩

/-- A channel takes a descriptor of its function that is in range (R297, R299). -/
def State.Fits (s : State) (c : Nat) (d : DmaDesc) : Prop :=
  c < 64 ∧ d.func = chanFunction c ∧ d.ok = true ∧ (s.chan c).state ≠ .halted ∧ (s.chan c).state ≠ .acting ∧ (s.chan c).posted.length < 7

/-- Whether a descriptor's trigger has fired as it is posted (R299). -/
def State.startsAtOnce (s : State) (d : DmaDesc) : Bool :=
  match d.trigger with
  | .immediate => true
  | .timer => false
  | .after => (s.chan d.afterChannel).current.isNone

theorem State.dmaPost_fits {s : State} {c : Nat} {d : DmaDesc} (h : s.Fits c d) :
    s.dmaPost c d = s.setChan c { s.chan c with posted := (s.chan c).posted ++ [(d, s.startsAtOnce d)] : Channel }.settle := by
  obtain ⟨hc, hfun, hok, hhalted, hacting, hlen⟩ := h
  unfold State.dmaPost
  rw [if_pos (by simp [hc, hfun, hok, hhalted, hacting, hlen])]
  rfl

theorem State.dmaPost_unfit {s : State} {c : Nat} {d : DmaDesc} (h : ¬ s.Fits c d) : s.dmaPost c d = s := by
  unfold State.dmaPost
  refine if_neg fun hcond => h ?_
  simpa [and_assoc, State.Fits] using hcond

theorem State.chan_dmaPost_other (s : State) (d : DmaDesc) {c k : Nat} (h : k ≠ c) : (s.dmaPost c d).chan k = s.chan k := by
  by_cases hfit : s.Fits c d
  · rw [State.dmaPost_fits hfit, State.chan_setChan_other s _ h]
  · rw [State.dmaPost_unfit hfit]

theorem State.chan_dma {s t : State} (h : t.dma = s.dma) (c : Nat) : t.chan c = s.chan c := by rw [State.chan, State.chan, h]

theorem dmaPosts : Claims.DmaPosts := by
  intro s c d
  dsimp only
  refine ⟨fun hfit => ⟨_, rfl, ?_⟩, fun hfit => congrArg Host.Outcome.next (State.dmaPost_unfit hfit)⟩
  rw [State.dmaPost_fits hfit]
  refine ⟨?_, fun hnone hnil => ?_, fun r hr => State.chan_setChan_other s _ hr⟩
  · rw [State.chan_setChan_self]
    exact (Channel.line_settle _).trans (List.append_assoc ..).symm
  · rw [State.chan_setChan_self]
    simp only [Channel.settle, hnone, hnil]
    exact ⟨rfl, rfl⟩

theorem dmaTimersAndCompletions : Claims.DmaTimersAndCompletions := by
  refine ⟨fun s c d r hcur htrig hstate => ?_, fun s c i d r hcur hpost htrig => ?_, fun s c d r hcur hstate => ?_⟩
  · refine ⟨_, rfl, ?_⟩
    simp only [State.dmaTimer, hcur, hstate, Option.isNone_some, Bool.false_eq_true, if_false, if_true, reduceCtorEq, or_self, Option.map_some, htrig,
      beq_self_eq_true, Bool.or_true]
    rw [State.chan_setChan_self, Channel.settle_of_current rfl]
    exact ⟨rfl, rfl, rfl⟩
  · obtain ⟨p, hp⟩ := Option.ne_none_iff_exists'.1 hcur
    refine ⟨_, rfl, ?_⟩
    simp only [State.dmaTimer, hp, Option.isNone_some, Bool.false_eq_true, if_false, Nat.succ_ne_zero, Nat.add_sub_cancel, hpost, htrig, beq_self_eq_true,
      Bool.or_true]
    rw [State.chan_setChan_self]
    exact ⟨rfl, hp.symm ▸ rfl⟩
  · refine ⟨_, rfl, ?_⟩
    simp only [State.dmaComplete, hcur, hstate]
    rw [State.moved_chanEnd, State.current_chanEnd, State.posted_chanEnd, State.chan_setChan_self]
    exact ⟨rfl, rfl, rfl⟩

/-! ### Halts -/

theorem within_iff {lo hi n : Nat} : within lo hi n = true ↔ lo ≤ n ∧ n ≤ hi := by simp [within]

/-- A channel halted at a burst, its error record latched (R302). -/
def Channel.halt (x : Channel) (d : DmaDesc) (kind direction burst haltCount : Nat) : Channel :=
  { x with
    state := .halted, moved := x.moved + (burst - x.burst), burst := burst
    attempts := if decide (burst = x.failBurst) && decide (0 < x.attempts) then x.attempts else 0
    kind := kind, direction := direction, failBurst := burst, haltCount := haltCount
    failAddr := if direction = 0 then burstAddr d.srcKind d.src burst else burstAddr d.dstKind d.dst burst }

theorem State.dmaHalt_active {s : State} {c kind direction burst : Nat} {d : DmaDesc} {r : Bool} (hcur : (s.chan c).current = some (d, r))
    (hstate : (s.chan c).state = .active) (hburst : within (s.chan c).burst (d.bursts - 1) burst = true) (hdir : direction ≤ 1)
    (hkind : within 1 4 kind = true) : s.dmaHalt c kind direction burst =
      ((s.setChan c ((s.chan c).halt d kind direction burst (Config.openBits 47 s.stamp))).add 0x3300 5 1).raise 0x3301 .dma c kind direction burst := by
  unfold State.dmaHalt
  dsimp only
  split
  · next d' r' _ h =>
    obtain ⟨rfl, rfl⟩ : d = d' ∧ r = r' := by simpa [hcur] using h
    exact if_pos ⟨hburst, hkind, hdir⟩
  · next h => exact absurd hcur (h d r hstate)

theorem dmaHaltsOnError : Claims.DmaHaltsOnError := by
  intro s c kind direction burst d r hcur hstate hburst hdir hkind
  let u := s.setChan c ((s.chan c).halt d kind direction burst (Config.openBits 47 s.stamp))
  let t := (u.add 0x3300 5 1).raise 0x3301 .dma c kind direction burst
  have ht : s.dmaHalt c kind direction burst = t := State.dmaHalt_active hcur hstate hburst hdir hkind
  have hexec : exec (if kind = 4 then .burstTimeout c direction burst else .dmaAccessFault c kind direction burst) s = .next t := by
    have hkinds := within_iff.1 hkind
    split
    · next h => subst h; exact congrArg Host.Outcome.next ht
    · next h => exact congrArg Host.Outcome.next ((if_pos (within_iff.2 (by omega))).trans ht)
  have hdma : t.dma = u.dma := ((State.raise_only ..).eq .dma rfl).trans ((State.add_only ..).eq .dma rfl)
  have hself : t.chan c = (s.chan c).halt d kind direction burst (Config.openBits 47 s.stamp) := by
    rw [State.chan_dma hdma, State.chan_setChan_self]
  refine ⟨t, hexec, ?_⟩
  dsimp only
  rw [hself]
  refine ⟨rfl, hcur, rfl, rfl, rfl, rfl, rfl, ?_, State.raise_raised_of_log rfl, fun n hn => ?_⟩
  · exact (State.num_raise _ _ _ _ _ _ _ _ _ (by simp [eventKey, entryKey])).trans (State.num_add_self u ..)
  · rw [State.chan_dma hdma, State.chan_setChan_other s _ hn]

/-! ### Actions on a halted channel -/

/-- The state in which an action has been performed on a channel, but for its event (R303). -/
def State.acted (s : State) (c action : Nat) (d : DmaDesc) : State :=
  let x := s.chan c
  match action with
  | 1 => s.setChan c { x with state := .active, attempts := x.attempts + 1 }
  | 2 =>
    let t := (s.skipPoison d x.failBurst).setChan c { x with state := .active, burst := x.failBurst + 1, moved := x.moved + 1, attempts := 0 }
    if d.bursts ≤ x.failBurst + 1 then t.chanEnd c else t
  | _ => (s.chanEnd c).abortOutcome c d

theorem State.dmaAct_eq {s : State} {c : Nat} {d : DmaDesc} {r : Bool} (hcur : (s.chan c).current = some (d, r)) (action who : Nat) :
    s.dmaAct c action who = (s.acted c action d).raise 0x3302 .dma c action who 0 := by
  unfold State.dmaAct
  dsimp only
  split
  · next h => simp [hcur] at h
  · next d' r' h =>
    obtain ⟨rfl, rfl⟩ : d = d' ∧ r = r' := by simpa [hcur] using h
    rfl

theorem State.acted_only (s : State) (c action : Nat) (d : DmaDesc) : Only [.tiers, .dma, .tileUnits, .carrelPoison] s (s.acted c action d) := by
  unfold State.acted
  split
  · exact (State.setChan_only ..).mono (by decide)
  · have h : Only [.tiers, .dma, .tileUnits, .carrelPoison] s ((s.skipPoison d (s.chan c).failBurst).setChan c
        { s.chan c with state := .active, burst := (s.chan c).failBurst + 1, moved := (s.chan c).moved + 1, attempts := 0 }) :=
      (State.setChan_only ..).after ((State.skipPoison_only ..).mono (by decide)) (by decide)
    dsimp only
    split
    · exact (State.chanEnd_only ..).after h (by decide)
    · exact h
  · exact (State.abortOutcome_only ..).after ((State.chanEnd_only ..).mono (by decide)) (by decide)

/-- An action leaves the jobs as they are, and the port and the sessions but for its event. -/
theorem State.dmaAct_leaves {s : State} {c : Nat} {d : DmaDesc} {r : Bool} (hcur : (s.chan c).current = some (d, r)) (action who : Nat) :
    Noticed s (s.dmaAct c action who) ∧ (s.dmaAct c action who).jobs = s.jobs ∧ (s.dmaAct c action who).dma = (s.acted c action d).dma ∧
      Raised s (s.dmaAct c action who) 0x3302 .dma c 0 action who 0 := by
  have hacted := s.acted_only c action d
  rw [State.dmaAct_eq hcur]
  refine ⟨Noticed.trans (.of (hacted.eq .port rfl) (congrArg _ (hacted.eq .sessions rfl))) (State.raise_noticed ..), ?_, (State.raise_only ..).eq .dma rfl,
    State.raise_raised_of_log (hacted.eq .log rfl)⟩
  exact ((State.raise_only ..).eq .jobs rfl).trans (hacted.eq .jobs rfl)

theorem State.chan_resumed (s : State) (c : Nat) (d : DmaDesc) :
    (s.acted c 1 d).chan c = { s.chan c with state := .active, attempts := (s.chan c).attempts + 1 } := State.chan_setChan_self ..

/-- What an aborted descriptor's function does leaves the channels as they are, unless it posts it again (R305). -/
theorem State.chan_abortOutcome_gone (s : State) {c : Nat} {d : DmaDesc}
    (h : d.func = 2 ∨ d.func = 3 ∨ (d.func = 0 ∧ s.port.width = 0) ∨ ∃ k, s.Takes c k) : (s.abortOutcome c d).chan c = s.chan c := by
  have hagain (hk : ∃ k, s.Takes c k) (e : DmaDesc) : (s.dmaPost (s.takingChannel c) e).chan c = s.chan c :=
    State.chan_dmaPost_other s e (State.takingChannel_ne hk).symm
  unfold State.abortOutcome
  dsimp only
  split
  · next hfun =>
    split
    · rfl
    · next hwidth => exact hagain (by simpa [hfun, hwidth] using h) _
  · rfl
  · rfl
  · next h0 h2 h3 => exact hagain (((h.resolve_left h2).resolve_left h3).resolve_left fun hw => h0 hw.1) _

/-- The descriptor that is posted again for an aborted one (R305). -/
def DmaDesc.again (d : DmaDesc) : DmaDesc := { d with trigger := .immediate, afterChannel := 0, ticks := 0 }

theorem DmaDesc.ok_again {d : DmaDesc} (h : d.ok = true) : d.again.ok = true := by
  simp only [DmaDesc.ok, Bool.and_eq_true] at h ⊢
  obtain ⟨⟨⟨⟨⟨⟨⟨⟨⟨⟨⟨hfun, hpri⟩, -⟩, -⟩, hsrc⟩, hdst⟩, hlay⟩, hlayout⟩, hlen⟩, hsa⟩, hda⟩, hown⟩ := h
  exact ⟨⟨⟨⟨⟨⟨⟨⟨⟨⟨⟨hfun, hpri⟩, rfl⟩, rfl⟩, hsrc⟩, hdst⟩, hlay⟩, hlayout⟩, hlen⟩, hsa⟩, hda⟩, hown⟩

/-- Where its function posts it again and no other channel takes it, an aborted descriptor joins the end of its own channel (R305). -/
theorem State.abortOutcome_again {s : State} {c : Nat} {d : DmaDesc} (h2 : d.func ≠ 2) (h3 : d.func ≠ 3) (h0 : ¬ (d.func = 0 ∧ s.port.width = 0))
    (hk : ¬ ∃ k, s.Takes c k) : s.abortOutcome c d = s.dmaPost c d.again := by
  unfold State.abortOutcome
  dsimp only
  rw [State.takingChannel_self hk]
  split
  · next hfun => exact if_neg fun hw => h0 ⟨hfun, hw⟩
  · next hfun => exact absurd hfun h2
  · next hfun => exact absurd hfun h3
  · rfl

/-- A channel other than the one that ends takes a descriptor after the end as before it, where no line waits without one in execution. -/
theorem State.takes_chanEnd (s : State) (c : Nat) {k : Nat} (h : s.Takes c k) : (s.chanEnd c).Takes c k := by
  obtain ⟨hk, hne, hfun, hfull⟩ := h
  refine ⟨hk, hne, hfun, ?_⟩
  rw [State.chan_chanEnd_other s hne]
  exact Channel.not_full_afterEnd hfull c

theorem State.takes_of_chanEnd {s : State} {c k : Nat} (hline : ∀ k, (s.chan k).posted ≠ [] → (s.chan k).current ≠ none) (h : (s.chanEnd c).Takes c k) :
    s.Takes c k := by
  obtain ⟨hk, hne, hfun, hfull⟩ := h
  rw [State.chan_chanEnd_other s hne] at hfull
  exact ⟨hk, hne, hfun, fun hf => hfull (Channel.full_afterEnd hf (hline k) c)⟩

theorem State.line_dmaPost {s : State} {c : Nat} {d : DmaDesc} (h : s.Fits c d) :
    ((s.dmaPost c d).chan c).line.map (·.1) = (s.chan c).line.map (·.1) ++ [d] := by
  rw [State.dmaPost_fits h, State.chan_setChan_self, Channel.line_settle]
  simp [Channel.line]

theorem State.line_chanEnd (s : State) (c : Nat) : ((s.chanEnd c).chan c).line.map (·.1) = (s.chan c).posted.map (·.1) := by
  rw [State.chan_chanEnd_self, Channel.line_settle]
  simp only [Channel.line, Option.toList_none, List.nil_append]
  exact map_fst_map_firedAfter ..

/-- An aborted descriptor that its function posts again, and that no other channel takes, goes behind the others of its own (R305). -/
theorem State.line_aborted {s : State} {c : Nat} {d : DmaDesc} (hc : c < 64) (h2 : d.func ≠ 2) (h3 : d.func ≠ 3)
    (h0 : ¬ (d.func = 0 ∧ s.port.width = 0)) (hk : ¬ ∃ k, s.Takes c k) (hline : ∀ k, (s.chan k).posted ≠ [] → (s.chan k).current ≠ none) (hok : d.ok = true)
    (hfun : d.func = chanFunction c) (hlen : (s.chan c).posted.length ≤ 7) :
    ((s.acted c 3 d).chan c).line.map (·.1) = (s.chan c).posted.map (·.1) ++ [d.again] := by
  have hport : (s.chanEnd c).port = s.port := (State.chanEnd_only ..).eq .port rfl
  change (((s.chanEnd c).abortOutcome c d).chan c).line.map (·.1) = _
  rw [State.abortOutcome_again h2 h3 (by rwa [hport]) fun ⟨k, h⟩ => hk ⟨k, State.takes_of_chanEnd hline h⟩, State.line_dmaPost, State.line_chanEnd]
  refine ⟨hc, hfun, DmaDesc.ok_again hok, ?_, ?_, ?_⟩
  · rw [State.chan_chanEnd_self]
    exact (Channel.settle_state _).1
  · rw [State.chan_chanEnd_self]
    exact (Channel.settle_state _).2
  · have hposted := congrArg List.length (s.posted_chanEnd c)
    simp only [List.length_map, List.length_tail] at hposted
    omega

/-- The write of a channel's control entry that asks for an action performs it and is answered, with event 0x3302 (R303). -/
theorem State.dmaControl_arrives {v : Via} {s c u : State} {i off : Nat} {data : List Byte} {a : Acc} {d : DmaDesc} {r : Bool} {action : Nat} (hi : i < 64)
    (h : Arrives v s 1 2 (0x3301 + i) 4 off data a c u) (hbads : c.writeBads a (0x3301 + i) 4 data (viaBase v) = [])
    (hallowed : s.actAllowed i (leNat data) = true) (hcur : (s.chan i).current = some (d, r)) (haction : leNat data = action) :
    u.dma = s.dma ∧ u.port.width = s.port.width ∧ ∃ t, s.dmaControl v action = t ∧ Succeeds v s t ∧ Raised s t 0x3302 .dma i 0 action 0 0 ∧
      t.dma = (u.acted i action d).dma := by
  have hcdma : c.dma = s.dma := h.check_only.eq .dma rfl
  have hudma : u.dma = s.dma := h.only.eq .dma rfl
  have hallowed' : c.actAllowed i (leNat data) = true := by
    rw [← hallowed]
    simp only [State.actAllowed, State.chan_dma hcdma]
  have hindex : 0x3301 + i - 0x3301 = i := by omega
  have hwidth : u.port.width = s.port.width := by
    cases v with
    | queue q =>
      obtain ⟨f, hf, -, -, -, -, -, -, -, -, rfl⟩ := h
      rw [State.begun_eq hf.sent]
      rfl
    | frame g =>
      obtain ⟨x, -, -, -, -, -, -, -, rfl⟩ := h
      rw [(State.frameBegun_only s g).eq .port rfl]
  obtain ⟨asker, hrun, hsucceeds⟩ := State.viaWrite_arrives h rfl
    (mine := fun index sub data => within 0x3301 0x3340 index && sub == 4 && ownCommand action (leNat data))
    (check := fun s a index sub data base =>
      s.writeBads a index sub data base ++ need (leNat data == action) (.field base) ++ need (s.actAllowed (index - 0x3301) action) (.field base))
    (effect := fun s _ asker index _ _ => (s.dmaAct (index - 0x3301) action 0).tell asker .ok 0 [])
    (by simp [within_iff, ownCommand, haction]; omega) (by simp [hbads, haction, hindex, haction ▸ hallowed'])
  have hcur' : (u.chan i).current = some (d, r) := by rw [State.chan_dma hudma, hcur]
  obtain ⟨hnoticed, hjobs, hdma, hraised⟩ := State.dmaAct_leaves hcur' action 0
  refine ⟨hudma, hwidth, _, hrun, ?_, ?_, ?_⟩
  · rw [hindex]
    exact hsucceeds _ hnoticed hjobs
  · rw [hindex]
    exact (hraised.of_log (h.only.eq .log rfl)).then_log ((State.tell_only ..).eq .log rfl)
  · rw [hindex, (State.tell_only ..).eq .dma rfl, hdma]

/-- The keeper's action on a halt, where `AUTO` has it act, once repair is asked for where it is (R304). -/
theorem State.dmaAuto_halted {s : State} {c : Nat} (bank row : Nat) (hstate : (s.chan c).state = .halted) (hauto : s.num 0x3300 2 = 0 ∨ c < 16) :
    ∃ w : State, w.dma = s.dma ∧ w.log = s.log ∧ s.dmaAuto c bank row = w.dmaAct c (s.chan c).autoAction 1 := by
  have hasked (p : Prop) [Decidable p] (n : Nat) : Only [.rel] s (if p then s.wantRepair n bank row else s) := by
    split
    · exact State.wantRepair_only ..
    · exact Only.refl ..
  unfold State.dmaAuto
  dsimp only
  rw [if_pos ⟨hstate, hauto⟩]
  exact ⟨_, (hasked _ _).eq .dma rfl, (hasked _ _).eq .log rfl, rfl⟩

theorem dmaActions : Claims.DmaActions := by
  refine ⟨fun s v i off data a c u d r hi harrives hbads hallowed hcur => ⟨fun haction => ?_, fun haction => ?_, fun haction => ?_⟩,
    fun s c bank row d r hstate hcur hauto => ?_⟩
  · obtain ⟨hudma, -, t, ht, hsucceeds, hraised, hdma⟩ := State.dmaControl_arrives hi harrives hbads hallowed hcur haction
    refine ⟨t, congrArg Host.Outcome.next ht, hsucceeds, hraised, ?_⟩
    rw [State.chan_dma hdma, State.chan_resumed, State.chan_dma hudma]
    exact ⟨rfl, rfl, hcur, rfl⟩
  · obtain ⟨hudma, -, t, ht, hsucceeds, hraised, hdma⟩ := State.dmaControl_arrives hi harrives hbads hallowed hcur haction
    refine ⟨t, congrArg Host.Outcome.next ht, hsucceeds, hraised, ?_⟩
    rw [State.chan_dma hdma, ← State.chan_dma hudma]
    simp only [State.acted]
    split
    · rw [State.current_chanEnd, State.chan_setChan_self]
    · rw [State.chan_setChan_self]
      exact ⟨rfl, rfl, by rw [State.chan_dma hudma, hcur]⟩
  · obtain ⟨hudma, hwidth, t, ht, hsucceeds, hraised, hdma⟩ := State.dmaControl_arrives hi harrives hbads hallowed hcur haction
    have hport : (u.chanEnd i).port = u.port := (State.chanEnd_only ..).eq .port rfl
    refine ⟨t, congrArg Host.Outcome.next ht, hsucceeds, hraised, ?_⟩
    dsimp only
    simp only [← hwidth, ← State.chan_dma hudma, State.chan_dma hdma]
    refine ⟨fun hgone => ?_, fun hgone hline hok hfun hlen => ?_⟩
    · have hchan : (u.acted i 3 d).chan i = (u.chanEnd i).chan i := by
        refine State.chan_abortOutcome_gone _ ?_
        rw [hport]
        exact hgone.imp_right fun h => h.imp_right fun h => h.imp_right fun ⟨k, hk⟩ => ⟨k, State.takes_chanEnd u i hk⟩
      rw [hchan]
      exact ⟨State.current_chanEnd .., State.posted_chanEnd ..⟩
    · rw [not_or, not_or, not_or] at hgone
      obtain ⟨h2, h3, h0, hk⟩ := hgone
      exact State.line_aborted hi h2 h3 h0 hk hline hok hfun hlen
  · refine ⟨_, rfl, ?_⟩
    obtain ⟨w, hdma, hlog, hact⟩ := State.dmaAuto_halted bank row hstate hauto
    have hwcur : (w.chan c).current = some (d, r) := by rw [State.chan_dma hdma, hcur]
    obtain ⟨-, -, hacted, hraised⟩ := State.dmaAct_leaves hwcur (s.chan c).autoAction 1
    rw [hact]
    refine ⟨hraised.of_log hlog, fun hone => ?_⟩
    rw [State.chan_dma hacted, hone, State.chan_resumed, State.chan_dma hdma]
    exact ⟨rfl, rfl⟩

/-- Settles O25: a channel is a line of descriptors; what settles keeps the line, and an end takes its head. -/
theorem dmaChannels : Obligations.DmaChannels := ⟨dmaPosts, dmaTimersAndCompletions, dmaHaltsOnError, dmaActions⟩

end Sys2Proof.Machine
end

section
/-!
What sending to peers leaves of the fabric: ports but for what flits take, associations but for what they send, and the rest as it was (R314 to R317, R333, R336).
-/
namespace Sys2Proof.Machine
open Sys2Proof

/-! ### The parts of the fabric that sending leaves -/

/-- A port but for the credits and the retry buffer that outgoing flits take (R311, R333). -/
def Suesh.still (x : Suesh) : Suesh := { x with credits := [], shared := 0, fromShared := [], short := [], txSeq := 0, retry := [], ackOwed := 0 }

/-- An association but for what it sends (R316, R317, R336). -/
def Assoc.still (a : Assoc) : Assoc := { a with txSeq := 0, store := [], sentGranules := 0 }

/-- The fabric but for what sending changes. -/
def Fabric.still (f : Fabric) : Fabric := { f with ports := f.ports.map Suesh.still, assocs := f.assocs.map Assoc.still, outbox := [] }

/-- Nothing has happened but that messages were sent, or wait to be. -/
structure Sends (s t : State) : Prop where
  only : Only [.fabric] s t
  still : t.fabric.still = s.fabric.still

theorem Sends.refl (s : State) : Sends s s := ⟨Only.refl .., rfl⟩
theorem Sends.trans {s t u : State} (h : Sends s t) (g : Sends t u) : Sends s u := ⟨h.only.trans g.only, g.still.trans h.still⟩

theorem Sends.foldl {α : Type} (f : State → α → State) (l : List α) (s : State) (h : ∀ s a, Sends s (f s a)) : Sends s (l.foldl f s) := by
  induction l generalizing s with
  | nil => exact .refl s
  | cons a l ih => exact (h s a).trans (ih _)

theorem State.getD_ports (s : State) (p : Nat) : s.fabric.ports.set p (s.suesh p) = s.fabric.ports := by
  unfold State.suesh
  by_cases h : p < s.fabric.ports.length
  · simp [h]
  · exact List.set_eq_of_length_le (by omega)

theorem State.setSuesh_sends (s : State) (p : Nat) (x : Suesh) (h : x.still = (s.suesh p).still) : Sends s (s.setSuesh p x) := by
  refine ⟨State.setSuesh_only .., ?_⟩
  unfold Fabric.still State.setSuesh
  simp only [List.map_set, h]
  rw [← List.map_set, State.getD_ports]

theorem State.updAssoc_sends (s : State) (peer : Nat) (f : Assoc → Assoc) (hf : ∀ a, (f a).still = a.still) : Sends s (s.updAssoc peer f) := by
  refine ⟨State.updAssoc_only .., ?_⟩
  unfold Fabric.still State.updAssoc
  simp only [List.map_map]
  congr 1
  refine List.map_congr_left fun a _ => ?_
  simp only [Function.comp_apply]
  split
  · exact hf a
  · rfl

theorem State.onPort_sends (s : State) (p : Nat) (k : FlitKind) (n : Nat) : Sends s (s.onPort p k n) := s.setSuesh_sends _ _ rfl

theorem State.seal_sends (s : State) (a : Assoc) (k : FlitKind) (b : List Byte) (p : Nat) : Sends s (s.seal a k b p) :=
  (s.onPort_sends ..).trans (State.updAssoc_sends _ _ _ fun _ => rfl)

theorem State.outbox_sends (s : State) (l : List Waiting) : Sends s { s with fabric := { s.fabric with outbox := l } } :=
  ⟨(Only.refl [.fabric] s).upd, rfl⟩

theorem State.send_sends (s : State) (dst : Nat) (k : FlitKind) (b : List Byte) : Sends s (s.send dst k b) := by
  unfold State.send
  dsimp only
  repeat' split
  · exact s.outbox_sends _
  · exact s.seal_sends ..
  · exact s.outbox_sends _
  · exact s.outbox_sends _

theorem State.flush_sends (s : State) (dst : Nat) : Sends s (s.flush dst) :=
  (s.outbox_sends _).trans (Sends.foldl _ _ _ fun t (w : Waiting) => t.send_sends w.dst w.kind w.bytes)

theorem State.flushWaiting_sends (s : State) : Sends s s.flushWaiting := Sends.foldl _ _ _ State.flush_sends

/-! ### What is read of the fabric after sending -/

theorem State.still_suesh (s : State) (p : Nat) : s.fabric.still.ports.getD p ({} : Suesh).still = (s.suesh p).still := by
  unfold Fabric.still State.suesh
  simp only [List.getD_eq_getElem?_getD, List.getElem?_map]
  cases s.fabric.ports[p]? <;> rfl

theorem Sends.suesh {s t : State} (h : Sends s t) (p : Nat) : (t.suesh p).still = (s.suesh p).still := by
  rw [← State.still_suesh, h.still, State.still_suesh]

theorem Sends.width {s t : State} (h : Sends s t) (p : Nat) : (t.suesh p).width = (s.suesh p).width :=
  show (t.suesh p).still.width = (s.suesh p).still.width by rw [h.suesh]
theorem Sends.failed {s t : State} (h : Sends s t) (p : Nat) : (t.suesh p).failed = (s.suesh p).failed :=
  show (t.suesh p).still.failed = (s.suesh p).still.failed by rw [h.suesh]
theorem Sends.peer {s t : State} (h : Sends s t) (p : Nat) : (t.suesh p).peer = (s.suesh p).peer :=
  show (t.suesh p).still.peer = (s.suesh p).still.peer by rw [h.suesh]
theorem Sends.rxSeq {s t : State} (h : Sends s t) (p : Nat) : (t.suesh p).rxSeq = (s.suesh p).rxSeq :=
  show (t.suesh p).still.rxSeq = (s.suesh p).still.rxSeq by rw [h.suesh]
theorem Sends.position {s t : State} (h : Sends s t) : t.fabric.position = s.fabric.position :=
  show t.fabric.still.position = s.fabric.still.position by rw [h.still]
theorem Sends.folded {s t : State} (h : Sends s t) : t.fabric.folded = s.fabric.folded :=
  show t.fabric.still.folded = s.fabric.still.folded by rw [h.still]
theorem Sends.fenced {s t : State} (h : Sends s t) : t.fabric.fenced = s.fabric.fenced :=
  show t.fabric.still.fenced = s.fabric.still.fenced by rw [h.still]
theorem Sends.holders {s t : State} (h : Sends s t) : t.fabric.holders = s.fabric.holders :=
  show t.fabric.still.holders = s.fabric.still.holders by rw [h.still]

/-- A live association is found by what sending leaves of it. -/
theorem State.still_assoc? (s : State) (peer : Nat) :
    (s.assoc? peer).map Assoc.still = s.fabric.still.assocs.find? fun a => a.peer == peer && a.live := by
  unfold State.assoc? Fabric.still
  rw [List.find?_map]
  rfl

theorem Sends.assoc? {s t : State} (h : Sends s t) (peer : Nat) : (t.assoc? peer).map Assoc.still = (s.assoc? peer).map Assoc.still := by
  rw [State.still_assoc?, State.still_assoc?, h.still]

/-- A live association is there after sending, changed only in what it sends. -/
theorem Sends.assoc {s t : State} (h : Sends s t) {peer : Nat} {a : Assoc} (ha : s.assoc? peer = some a) :
    ∃ b, t.assoc? peer = some b ∧ b.still = a.still := by
  have h' := h.assoc? peer
  rw [ha] at h'
  exact Option.map_eq_some_iff.1 h'

/-! ### Reading after a write -/

theorem State.suesh_setSuesh_self (s : State) {p : Nat} (x : Suesh) (hp : p < s.fabric.ports.length) : (s.setSuesh p x).suesh p = x := by
  simp [State.suesh, State.setSuesh, hp]

theorem State.suesh_setSuesh_other (s : State) {p r : Nat} (x : Suesh) (h : r ≠ p) : (s.setSuesh p x).suesh r = s.suesh r := by
  simp [State.suesh, State.setSuesh, List.getD_eq_getElem?_getD, List.getElem?_set_ne h.symm]

theorem State.suesh_fabric {s t : State} (h : t.fabric = s.fabric) (p : Nat) : t.suesh p = s.suesh p := by rw [State.suesh, State.suesh, h]

theorem State.assoc?_fabric {s t : State} (h : t.fabric = s.fabric) (peer : Nat) : t.assoc? peer = s.assoc? peer := by rw [State.assoc?, State.assoc?, h]

/-- A port that is up is one of the module's. -/
theorem State.lt_of_width {s : State} {p : Nat} (h : 0 < (s.suesh p).width) : p < s.fabric.ports.length := by
  by_contra hp
  have hdefault : s.suesh p = {} := List.getD_eq_default _ _ (by omega)
  rw [hdefault] at h
  cases h

/-- A live association changed in what names it not is found as changed. -/
theorem State.assoc?_updAssoc_self (s : State) (peer : Nat) (f : Assoc → Assoc) (hpeer : ∀ a, (f a).peer = a.peer) (hlive : ∀ a, (f a).live = a.live) :
    (s.updAssoc peer f).assoc? peer = (s.assoc? peer).map f := by
  unfold State.assoc? State.updAssoc
  simp only
  generalize s.fabric.assocs = l
  induction l with
  | nil => rfl
  | cons a l ih =>
    by_cases h : a.peer = peer
    · by_cases hl : a.live = true
      · simp [h, hl, hpeer, hlive]
      · simpa [h, hl, hpeer, hlive] using ih
    · simpa [h] using ih

theorem State.peer_of_assoc? {s : State} {peer : Nat} {a : Assoc} (h : s.assoc? peer = some a) : a.peer = peer ∧ a.live = true := by
  simpa using List.find?_some h

/-! ### Messages on their way -/

theorem mem_addWaiting (l : List Waiting) (w : Waiting) : w ∈ addWaiting l w := by
  unfold addWaiting
  split
  · next h =>
    obtain ⟨v, hv, hsame⟩ := List.any_eq_true.1 h
    exact List.mem_map.2 ⟨v, hv, if_pos hsame⟩
  · simp

/-- An association that has sealed a message (R316). -/
def Assoc.sealing (a : Assoc) (k : FlitKind) (b : List Byte) (p : Nat) : Assoc :=
  { a with
    txSeq := a.txSeq + flitsOf b, sentGranules := a.sentGranules + (if k.lands then granulesOf b else 0)
    store := a.store ++ [{ seq := a.txSeq, flits := flitsOf b, phase := a.phase, kind := k, body := b, port := p, resends := 0 }] }

theorem State.assoc?_onPort (s : State) (p : Nat) (k : FlitKind) (n peer : Nat) : (s.onPort p k n).assoc? peer = s.assoc? peer := rfl

/-- A message sealed is held by its association until it is acknowledged (R316, R317). -/
theorem State.assoc?_seal {s : State} {peer : Nat} {a : Assoc} (ha : s.assoc? peer = some a) (k : FlitKind) (b : List Byte) (p : Nat) :
    (s.seal a k b p).assoc? peer = some (a.sealing k b p) := by
  obtain ⟨rfl, -⟩ := State.peer_of_assoc? ha
  have h := State.assoc?_updAssoc_self (s.onPort p k (flitsOf b)) a.peer (fun a => a.sealing k b p) (fun _ => rfl) fun _ => rfl
  rw [State.assoc?_onPort, ha] at h
  exact h

/-- What `send` does to a message for a position that answers for itself: it is sealed on a port, or waits (R314, R315, R336). -/
theorem State.send_cases {s : State} {dst : Nat} (k : FlitKind) (b : List Byte) (h : s.holderOf dst = dst) :
    (∃ a p, s.assoc? dst = some a ∧ s.send dst k b = s.seal a k b p) ∨
      s.send dst k b = { s with fabric := { s.fabric with outbox := addWaiting s.fabric.outbox { dst := dst, kind := k, bytes := b } } } := by
  unfold State.send
  rw [h]
  dsimp only
  repeat' split
  · exact .inr rfl
  · next a ha _ _ p _ => exact .inl ⟨a, p, ha, rfl⟩
  · exact .inr rfl
  · exact .inr rfl

/-- A message sent is sealed and held, or waits (R314 to R317). -/
theorem State.send_onItsWay {s : State} {dst : Nat} (k : FlitKind) (b : List Byte) (h : s.holderOf dst = dst) : OnItsWay (s.send dst k b) dst k b := by
  obtain ⟨a, p, ha, hsend⟩ | hsend := State.send_cases k b h
  · rw [hsend]
    exact .inl ⟨_, State.assoc?_seal ha k b p, _, List.mem_append_right _ (List.mem_singleton.2 rfl), rfl, rfl⟩
  · rw [hsend]
    exact .inr ⟨_, mem_addWaiting .., rfl, rfl, rfl⟩

/-- With nothing waiting nothing goes. -/
theorem State.flushWaiting_of_empty {s : State} (h : s.fabric.outbox = []) : s.flushWaiting = s := by
  unfold State.flushWaiting
  rw [h]
  rfl

theorem State.flush_of_empty {s : State} (h : s.fabric.outbox = []) (dst : Nat) : s.flush dst = s := by
  unfold State.flush
  dsimp only
  rw [h]
  simp only [List.filter_nil, List.foldl_nil]
  exact h ▸ rfl

end Sys2Proof.Machine
end

section
/-!
The fabric's link layer (R311, R333): what an arriving message does to its port.
-/
namespace Sys2Proof.Machine
open Sys2Proof

/-- The flits a port still holds once a message has acknowledged some (R311). -/
def Suesh.unacked (x : Suesh) (m : Msg) : List Nat :=
  if x.retry.contains m.ackSeq then (x.retry.dropWhile fun q => q != m.ackSeq).drop 1 else x.retry

/-- Whether a message acknowledges flits. -/
def Suesh.moves (x : Suesh) (m : Msg) : Bool := decide ((x.unacked m).length < x.retry.length)

/-- A port after the acknowledgements and credits of a message, and its NAK: the eighth replay without progress retrains it (R311, R333). -/
def Suesh.hears (x : Suesh) (m : Msg) : Suesh :=
  let y : Suesh := { x.giveCredits (m.creditClass % 4) m.creditCount with retry := x.unacked m, replays := if x.moves m then 0 else x.replays }
  if m.nak then (if 7 ≤ y.replays then y.linkUp y.failed else { y with replays := y.replays + 1 }) else y

/-- Whether a message is the one its port expects (R311). -/
def Suesh.expects (x : Suesh) (k : FlitKind) (m : Msg) : Bool := decide (k ≠ .null ∧ m.linkSeq = (x.rxSeq + 1) % 4096)

/-- A port that takes the message it expects, or discards another (R311). -/
def Suesh.takes (x : Suesh) (k : FlitKind) (m : Msg) : Suesh :=
  if x.expects k m then
    { x with rxSeq := (x.rxSeq + flitsOf m.body) % 4096, ackOwed := x.ackOwed + flitsOf m.body, owed := x.owed.set k.cls (nth x.owed k.cls + flitsOf m.body) }
  else if k = .null then x else { x with nakOwed := true }

theorem Suesh.length_unacked_le (x : Suesh) (m : Msg) : (x.unacked m).length ≤ x.retry.length := by
  unfold Suesh.unacked
  split
  · rw [List.length_drop]
    have := (List.dropWhile_sublist (l := x.retry) fun q => q != m.ackSeq).length_le
    omega
  · exact le_rfl

/-- What giving credits leaves of a port (R333). -/
theorem Suesh.giveCredits_leaves (x : Suesh) (c n : Nat) : (x.giveCredits c n).rxSeq = x.rxSeq ∧ (x.giveCredits c n).peer = x.peer ∧
    (x.giveCredits c n).ackOwed = x.ackOwed ∧ (x.giveCredits c n).replays = x.replays ∧ (x.giveCredits c n).width = x.width ∧
    (x.giveCredits c n).failed = x.failed := ⟨rfl, rfl, rfl, rfl, rfl, rfl⟩

/-- Whether a NAK is the eighth replay without progress, at which the credits are set anew (R311, R339). -/
def Suesh.retrains (x : Suesh) (m : Msg) : Bool := m.nak && decide (7 ≤ x.replays) && (x.unacked m).length == x.retry.length

theorem Suesh.hears_eq (x : Suesh) (m : Msg) :
    (x.hears m).retry = x.unacked m ∧
      (x.hears m).credits = (if x.retrains m then [32, 32, 32, 32] else (x.giveCredits (m.creditClass % 4) m.creditCount).credits) ∧
      (x.hears m).shared = (if x.retrains m then 128 else (x.giveCredits (m.creditClass % 4) m.creditCount).shared) ∧
      (x.hears m).rxSeq = x.rxSeq ∧ (x.hears m).peer = x.peer ∧ (x.hears m).ackOwed = x.ackOwed := by
  obtain ⟨hseq, hpeer, hack, -, -, -⟩ := x.giveCredits_leaves (m.creditClass % 4) m.creditCount
  have hle := x.length_unacked_le m
  unfold Suesh.hears Suesh.retrains Suesh.moves
  dsimp only
  generalize x.giveCredits (m.creditClass % 4) m.creditCount = y at hseq hpeer hack ⊢
  cases hnak : m.nak with
  | false => exact ⟨rfl, rfl, rfl, hseq, hpeer, hack⟩
  | true =>
    by_cases hmoved : (x.unacked m).length < x.retry.length
    · have hne : ((x.unacked m).length == x.retry.length) = false := by simp; omega
      simp only [hmoved, hne, decide_true, if_true, Bool.and_false, Bool.false_eq_true, if_false]
      exact ⟨rfl, rfl, rfl, hseq, hpeer, hack⟩
    · have heq : ((x.unacked m).length == x.retry.length) = true := by simp; omega
      by_cases hreplays : 7 ≤ x.replays
      · simp only [hmoved, heq, hreplays, decide_false, decide_true, Bool.false_eq_true, if_true, if_false, Bool.and_true]
        exact ⟨rfl, rfl, rfl, hseq, hpeer, hack⟩
      · simp only [hmoved, heq, hreplays, decide_false, Bool.false_eq_true, if_true, if_false, Bool.and_false, Bool.and_true]
        exact ⟨trivial, trivial, trivial, hseq, hpeer, hack⟩

/-- The replays of a NAK, counted (R311). -/
def State.countReplay (s : State) (x : Suesh) (m : Msg) : State := if m.nak then s.add 0x2300 5 (x.unacked m).length else s

theorem State.countReplay_only (s : State) (x : Suesh) (m : Msg) : Only [.dict] s (s.countReplay x m) := by
  unfold State.countReplay
  split
  · exact State.add_only ..
  · exact Only.refl ..

/-- A port once an arriving message has been heard, and taken or discarded. -/
def State.heard (s : State) (p : Nat) (k : FlitKind) (m : Msg) : State :=
  (s.countReplay (s.suesh p) m).setSuesh p (((s.suesh p).hears m).takes k m)

/-- What an arriving message does on a port that is up; what waited for credit or room goes (R311, R333). -/
theorem State.linkIn_up {s : State} {p : Nat} (k : FlitKind) (m : Msg) (hup : 0 < (s.suesh p).width) :
    s.linkIn p k m = (if (s.suesh p).moves m || decide (0 < m.creditCount) || m.nak then (s.heard p k m).flushWaiting else s.heard p k m,
      ((s.suesh p).hears m).expects k m) := by
  unfold State.linkIn
  dsimp only
  rw [if_neg (by omega)]
  rfl

theorem State.linkIn_sends {s : State} {p : Nat} (k : FlitKind) (m : Msg) (hup : 0 < (s.suesh p).width) : Sends (s.heard p k m) (s.linkIn p k m).1 := by
  rw [State.linkIn_up k m hup]
  dsimp only
  split
  · exact State.flushWaiting_sends _
  · exact .refl _

/-- Where nothing waits nothing goes. -/
theorem State.linkIn_idle {s : State} {p : Nat} (k : FlitKind) (m : Msg) (hup : 0 < (s.suesh p).width) (hidle : s.fabric.outbox = []) :
    (s.linkIn p k m).1 = s.heard p k m := by
  have houtbox : (s.heard p k m).fabric.outbox = [] := by
    change (s.countReplay (s.suesh p) m).fabric.outbox = []
    rw [(s.countReplay_only (s.suesh p) m).eq .fabric rfl, hidle]
  rw [State.linkIn_up k m hup, State.flushWaiting_of_empty houtbox]
  exact ite_self _

theorem State.suesh_heard_self {s : State} {p : Nat} (k : FlitKind) (m : Msg) (hup : 0 < (s.suesh p).width) :
    (s.heard p k m).suesh p = ((s.suesh p).hears m).takes k m := by
  refine State.suesh_setSuesh_self _ _ ?_
  rw [(s.countReplay_only (s.suesh p) m).eq .fabric rfl]
  exact State.lt_of_width hup

theorem State.suesh_heard_other (s : State) {p r : Nat} (k : FlitKind) (m : Msg) (h : r ≠ p) : (s.heard p k m).suesh r = s.suesh r := by
  rw [State.heard, State.suesh_setSuesh_other _ _ h, State.suesh_fabric ((s.countReplay_only (s.suesh p) m).eq .fabric rfl)]

theorem Suesh.expects_hears (x : Suesh) (k : FlitKind) (m : Msg) : (x.hears m).expects k m = x.expects k m := by
  obtain ⟨-, -, -, hseq, -, -⟩ := x.hears_eq m
  rw [Suesh.expects, Suesh.expects, hseq]

/-- What taking or discarding a message leaves of a port. -/
theorem Suesh.takes_leaves (x : Suesh) (k : FlitKind) (m : Msg) :
    (x.takes k m).retry = x.retry ∧ (x.takes k m).credits = x.credits ∧ (x.takes k m).shared = x.shared ∧ (x.takes k m).peer = x.peer := by
  unfold Suesh.takes
  repeat' split
  all_goals exact ⟨rfl, rfl, rfl, rfl⟩

theorem Suesh.takes_expected {x : Suesh} {k : FlitKind} {m : Msg} (h : x.expects k m = true) : x.takes k m =
    { x with rxSeq := (x.rxSeq + flitsOf m.body) % 4096, ackOwed := x.ackOwed + flitsOf m.body, owed := x.owed.set k.cls (nth x.owed k.cls + flitsOf m.body) } :=
  if_pos h

theorem Suesh.takes_other {x : Suesh} {k : FlitKind} {m : Msg} (h : x.expects k m = false) (hk : k ≠ .null) : x.takes k m = { x with nakOwed := true } := by
  rw [Suesh.takes, if_neg (by simp [h]), if_neg hk]

theorem exec_hello {s u : State} {p : Nat} {m : Msg} {taken : Bool} (pos : Nat) (h : s.linkIn p .hello m = (u, taken)) :
    exec (.hello p pos m) s = .next (if taken then u.setSuesh p { u.suesh p with peer := some pos } else u) := by
  change execHello p pos m s = _
  unfold execHello
  rw [h]
  cases taken <;> rfl

theorem State.lt_heard {s : State} {p : Nat} (k : FlitKind) (m : Msg) (hp : p < s.fabric.ports.length) : p < (s.heard p k m).fabric.ports.length := by
  have h : (s.countReplay (s.suesh p) m).fabric = s.fabric := (s.countReplay_only (s.suesh p) m).eq .fabric rfl
  simpa [State.heard, State.setSuesh, h] using hp

/-- Settles O27: a message is heard on its port alone, and then taken where it is the one expected. -/
theorem linkLayer : Obligations.LinkLayer := by
  intro s p m hup hidle x rest anew given freed
  obtain ⟨hretry, hcredits, hshared, hseq, hpeer, hack⟩ := x.hears_eq m
  have hfreed (k : FlitKind) : freed ((x.hears m).takes k m) := by
    obtain ⟨hr, hc, hs, -⟩ := (x.hears m).takes_leaves k m
    exact ⟨hr.trans hretry, hc.trans hcredits, hs.trans hshared⟩
  have hlink (k : FlitKind) : s.linkIn p k m = (s.heard p k m, x.expects k m) := by
    rw [← State.linkIn_idle k m hup hidle, ← x.expects_hears k m, State.linkIn_up k m hup]
  have hself (k : FlitKind) : (s.heard p k m).suesh p = (x.hears m).takes k m := State.suesh_heard_self k m hup
  have hp : p < s.fabric.ports.length := State.lt_of_width hup
  refine ⟨⟨s.heard p .null m, ?_, ?_, ?_, ?_, fun r hr => s.suesh_heard_other .null m hr⟩, fun pos hpos => ?_, fun pos hpos => ?_, ⟨_, rfl, ?_⟩, ⟨_, rfl, ?_⟩⟩
  · exact congrArg (fun r => Host.Outcome.next r.1) (hlink .null)
  · rw [hself]
    exact hfreed .null
  · rw [hself]
    exact hseq
  · rw [hself]
    exact ((x.hears m).takes_leaves .null m).2.2.2.trans hpeer
  · have hexp : x.expects .hello m = true := by simpa [Suesh.expects] using hpos
    have hlink := hlink .hello
    rw [hexp] at hlink
    have htakes := Suesh.takes_expected ((x.expects_hears .hello m).trans hexp)
    refine ⟨_, exec_hello pos hlink, ?_⟩
    dsimp only
    rw [if_pos rfl, State.suesh_setSuesh_self _ _ (State.lt_heard .hello m hp), hself]
    refine ⟨hfreed .hello, rfl, ?_, ?_⟩
    · rw [htakes, ← hseq]
    · rw [htakes, ← hack]
  · have hexp : x.expects .hello m = false := by simpa [Suesh.expects] using hpos
    have hlink := hlink .hello
    rw [hexp] at hlink
    have htakes := Suesh.takes_other ((x.expects_hears .hello m).trans hexp) (by decide)
    refine ⟨_, exec_hello pos hlink, ?_⟩
    dsimp only
    rw [if_neg (by decide), hself]
    refine ⟨hfreed .hello, ?_, ?_, ?_⟩ <;> rw [htakes]
    · exact hpeer
    · exact hseq
  · unfold State.flitDiscarded
    dsimp only
    rw [if_pos hup, State.suesh_setSuesh_self _ _ hp]
    exact ⟨rfl, rfl⟩
  · unfold State.linkAckOut
    dsimp only
    rw [State.suesh_setSuesh_self _ _ hp]
    exact ⟨rfl, rfl⟩

end Sys2Proof.Machine
end

section
/-!
Associations with peers: receiving, acknowledgement and resending end to end, key phases, and their forming (R315 to R318, R336, R399).
-/
namespace Sys2Proof.Machine
open Sys2Proof

/-! ### Receiving -/

theorem State.fabric_heard (s : State) (p : Nat) (k : FlitKind) (m : Msg) : (s.heard p k m).fabric = { s.fabric with ports := (s.heard p k m).fabric.ports } := by
  have h : (s.countReplay (s.suesh p) m).fabric = s.fabric := (s.countReplay_only (s.suesh p) m).eq .fabric rfl
  unfold State.heard State.setSuesh
  rw [h]

theorem State.assoc?_heard (s : State) (p : Nat) (k : FlitKind) (m : Msg) (peer : Nat) : (s.heard p k m).assoc? peer = s.assoc? peer := by
  unfold State.assoc?
  rw [s.fabric_heard p k m]

/-- What sending leaves of an association decides what it takes. -/
theorem Assoc.window_still {a b : Assoc} (h : b.still = a.still) (phase : Bool) : b.window phase = a.window phase := by
  have hwindow (c : Assoc) : c.window phase = c.still.window phase := rfl
  rw [hwindow, h, ← hwindow]

/-- A message heard from a live association that has not taken it yet is taken (R311, R312, R316). -/
theorem State.receive_taken {s : State} {p : Nat} {k : FlitKind} {m : Msg} {a : Assoc} (h : s.Hears p m a) (hk : k ≠ .null) (now : Nat) :
    s.receive p k m true now = ((s.linkIn p k m).1.updAssoc m.src fun a => a.took m.phase m.e2e (flitsOf m.body), some m.body) := by
  obtain ⟨hup, horder, hmine, hassoc, hphase, hlow, habove⟩ := h
  have hsends := State.linkIn_sends k m hup
  have htaken : (s.linkIn p k m).2 = true := by
    rw [State.linkIn_up k m hup, Suesh.expects_hears]
    simpa [Suesh.expects, hk] using horder
  obtain ⟨b, hb, hstill⟩ := hsends.assoc ((s.assoc?_heard p k m m.src).trans hassoc)
  have hwindow : b.window m.phase = some (a.rxLow, a.rxAbove) := by
    rw [Assoc.window_still hstill, Assoc.window, if_pos hphase]
  have hposition : (s.linkIn p k m).1.fabric.position = s.fabric.position := hsends.position.trans (by rw [s.fabric_heard p k m])
  have hfolded : (s.linkIn p k m).1.fabric.folded = s.fabric.folded := hsends.folded.trans (by rw [s.fabric_heard p k m])
  obtain ⟨⟨u, taken⟩, hu⟩ : ∃ r, s.linkIn p k m = r := ⟨_, rfl⟩
  rw [hu] at htaken hb hposition hfolded ⊢
  dsimp only at htaken hb hposition hfolded ⊢
  subst htaken
  unfold State.receive
  rw [hu]
  dsimp only
  rw [if_neg, hb]
  · dsimp only
    rw [hwindow]
    dsimp only
    rw [if_neg, if_neg]
    · decide
    · rw [habove]
      simpa using hlow
  · rw [hposition, hfolded]
    obtain h | h := hmine
    · exact fun hc => hc.1 h
    · exact fun hc => absurd (h.symm.trans hc.2) (by decide)

/-- What taking a message leaves of an association. -/
theorem Assoc.took_leaves (a : Assoc) (phase : Bool) (seq n : Nat) : (a.took phase seq n).peer = a.peer ∧ (a.took phase seq n).live = a.live ∧
    (a.took phase seq n).store = a.store ∧ (a.took phase seq n).phase = a.phase ∧ (a.took phase seq n).txSeq = a.txSeq ∧
    (a.took phase seq n).rxPhase = a.rxPhase ∧ (a.took phase seq n).rxKey = a.rxKey := by
  unfold Assoc.took
  dsimp only
  repeat' split
  all_goals exact ⟨rfl, rfl, rfl, rfl, rfl, rfl, rfl⟩

/-- A live association after it has taken a message and been changed by what follows. -/
theorem State.assoc?_updAssoc_took {s : State} {peer : Nat} {a : Assoc} (ha : s.assoc? peer = some a) (phase : Bool) (seq n : Nat) :
    (s.updAssoc peer fun a => a.took phase seq n).assoc? peer = some (a.took phase seq n) := by
  rw [State.assoc?_updAssoc_self, ha]
  · rfl
  · exact fun a => (a.took_leaves phase seq n).1
  · exact fun a => (a.took_leaves phase seq n).2.1

/-! ### Acknowledgement and resending -/

/-- An association that frees what an acknowledgement covers (R317, R336). -/
def Assoc.freeing (a : Assoc) (n : Nat) : Assoc :=
  { a with
    store := a.store.filter (fun x => !a.covers (bits n 47 0) x)
    freedByPeer := a.freedByPeer + (bits n 95 64 + 2 ^ 32 - a.freedByPeer % 2 ^ 32) % 2 ^ 32 }

theorem Assoc.covers_congr {a b : Assoc} (hphase : b.phase = a.phase) (hseq : b.txSeq = a.txSeq) : b.covers = a.covers := by
  funext upTo x
  unfold Assoc.covers
  rw [hphase, hseq]

/-- An `E2E_ACK` frees what it covers, where nothing waits to go (R317). -/
theorem State.e2eAckIn_frees {s : State} {p : Nat} {m : Msg} {a : Assoc} (h : s.Hears p m a) (hidle : s.fabric.outbox = []) (now : Nat) :
    ∃ b, (s.e2eAckIn p m true now).assoc? m.src = some b ∧ b.store = a.store.filter (fun x => !a.covers (bits (leNat (m.body.take 32)) 47 0) x) := by
  have hassoc := (s.assoc?_heard p .e2eAck m m.src).trans h.assoc
  have houtbox : (s.heard p .e2eAck m).fabric.outbox = [] := by rw [s.fabric_heard p .e2eAck m, hidle]
  unfold State.e2eAckIn
  rw [State.receive_taken h (by decide), State.linkIn_idle .e2eAck m h.up hidle]
  dsimp only
  rw [State.flush_of_empty]
  swap
  · exact houtbox
  have hfree := State.assoc?_updAssoc_self ((s.heard p .e2eAck m).updAssoc m.src fun a => a.took m.phase m.e2e (flitsOf m.body)) m.src
    (fun a => a.freeing (leNat (m.body.take 32))) (fun _ => rfl) fun _ => rfl
  rw [State.assoc?_updAssoc_took hassoc] at hfree
  refine ⟨_, hfree, ?_⟩
  obtain ⟨-, -, hstore, hphase, hseq, -, -⟩ := a.took_leaves m.phase m.e2e (flitsOf m.body)
  simp only [Assoc.freeing, hstore, Assoc.covers_congr hphase hseq]

/-- An acknowledgement that is due is sent, and none is owed any longer (R317). -/
theorem State.e2eAckOut_due {s : State} {peer : Nat} {a : Assoc} (ha : s.assoc? peer = some a) (hholder : s.holderOf peer = peer) (howed : a.ackOwed ≠ 0) :
    (∃ b, (s.e2eAckOut peer).assoc? peer = some b ∧ b.ackOwed = 0) ∧
      OnItsWay (s.e2eAckOut peer) peer .e2eAck (toLE 32 (((a.oldRx.map (·.low)).getD a.rxLow) % 2 ^ 48 + (a.freedHere % 2 ^ 32) * 2 ^ 64)) := by
  have hpaid : (s.updAssoc peer fun a => { a with ackOwed := 0 }).assoc? peer = some { a with ackOwed := 0 } := by
    rw [State.assoc?_updAssoc_self, ha]
    · rfl
    · exact fun _ => rfl
    · exact fun _ => rfl
  unfold State.e2eAckOut
  rw [ha]
  dsimp only
  rw [if_neg howed]
  refine ⟨?_, State.send_onItsWay _ _ hholder⟩
  obtain ⟨b, hb, hstill⟩ := (State.send_sends _ peer .e2eAck
    (toLE 32 (((a.oldRx.map (·.low)).getD a.rxLow) % 2 ^ 48 + (a.freedHere % 2 ^ 32) * 2 ^ 64))).assoc hpaid
  exact ⟨b, hb, show b.still.ackOwed = _ by rw [hstill]; rfl⟩

theorem List.find?_map_replace {α : Type} [DecidableEq α] {p : α → Bool} {l : List α} {x y : α} (hx : l.find? p = some x) (hy : p y = true) :
    (l.map fun z => if z = x then y else z).find? p = some y := by
  induction l with
  | nil => cases hx
  | cons z l ih =>
    by_cases hz : p z = true
    · obtain rfl : z = x := by simpa [hz] using hx
      simp [hy]
    · have hzx : z ≠ x := fun h => hz (h ▸ List.find?_some hx)
      rw [List.map_cons, if_neg hzx, List.find?_cons_of_neg hz]
      exact ih (by simpa [hz] using hx)

theorem State.e2eResend_again {s : State} {peer seq p : Nat} {a : Assoc} {x : Sent} (ha : s.assoc? peer = some a)
    (hx : a.store.find? (fun y => y.seq == seq) = some x) (hroute : s.route peer x.kind.cls = some p) :
    Added s (s.e2eResend peer seq) 0x2300 10 x.flits ∧ ∃ b, (s.e2eResend peer seq).assoc? peer = some b ∧
      b.store.find? (fun y => y.seq == seq) = some { x with resends := x.resends + 1, port := p } ∧ b.store.length = a.store.length := by
  have hresend : s.e2eResend peer seq = ((s.onPort p x.kind x.flits).updAssoc peer fun a =>
      { a with store := a.store.map fun y => if y = x then { x with resends := x.resends + 1, port := p } else y }).add 0x2300 10 x.flits := by
    unfold State.e2eResend
    rw [ha]
    dsimp only
    rw [hx]
    dsimp only
    rw [hroute]
    dsimp only
    congr 2
    funext a
    congr 1
    refine List.map_congr_left fun y _ => ?_
    by_cases hy : y = x
    · rw [if_pos hy, if_pos hy, hy]
    · rw [if_neg hy, if_neg hy]
  rw [hresend]
  refine ⟨State.num_add_self .., ?_⟩
  have hupd := State.assoc?_updAssoc_self (s.onPort p x.kind x.flits) peer
    (fun a => { a with store := a.store.map fun y => if y = x then { x with resends := x.resends + 1, port := p } else y }) (fun _ => rfl) fun _ => rfl
  rw [State.assoc?_onPort, ha] at hupd
  refine ⟨_, (State.assoc?_fabric ((State.add_only ..).eq .fabric rfl) peer).trans hupd, ?_, List.length_map ..⟩
  have hseq : (x.seq == seq) = true := List.find?_some (p := fun y : Sent => y.seq == seq) hx
  exact List.find?_map_replace hx hseq

/-- Settles O29: what covers, frees, goes or goes again is one association's, and the rest of sending leaves it. -/
theorem endToEndAcknowledgement : Obligations.EndToEndAcknowledgement := by
  refine ⟨fun s p m now a h hidle => ⟨_, rfl, State.e2eAckIn_frees h hidle now⟩, fun s peer a ha hholder => ⟨fun howed => ?_, fun howed => ?_⟩,
    fun s peer seq p a x ha hx hroute => ⟨_, rfl, State.e2eResend_again ha hx hroute⟩⟩
  · refine congrArg Host.Outcome.next ?_
    unfold State.e2eAckOut
    rw [ha]
    exact if_pos howed
  · exact ⟨_, rfl, State.e2eAckOut_due ha hholder howed⟩

/-! ### Key phases -/

theorem State.draw_assoc? (s : State) (peer : Nat) : (draw s).2.assoc? peer = s.assoc? peer := rfl

/-- A sender's update goes under the old key, and its phase turns (R318). -/
theorem State.keyUpdateOut_turns {s : State} {peer : Nat} {a : Assoc} (ha : s.assoc? peer = some a) (hlimit : 2 ^ 40 ≤ a.txSeq)
    (hmay : a.maySend .keyUpdate (zeros 32) = true) (hroute : (s.route peer 0).isSome = true) :
    ∃ b, (s.keyUpdateOut peer).assoc? peer = some b ∧ (∃ x ∈ b.store, x.kind = .keyUpdate ∧ x.body = zeros 32) ∧ b.phase = !a.phase ∧ b.txSeq = 1 ∧
      b.rxPhase = a.rxPhase := by
  obtain ⟨p, hp⟩ := Option.isSome_iff_exists.1 hroute
  have hout : s.keyUpdateOut peer = ((draw s).2.seal a .keyUpdate (zeros 32) p).updAssoc peer fun a =>
      { a with phase := !a.phase, oldTxKey := a.txKey, txKey := Config.freeNat (draw s).1, txSeq := 1 } := by
    unfold State.keyUpdateOut
    rw [ha]
    dsimp only
    rw [if_neg (by rw [hmay]; simp; omega), show FlitKind.keyUpdate.cls = 0 from rfl, hp]
  have hupd := State.assoc?_updAssoc_self ((draw s).2.seal a .keyUpdate (zeros 32) p) peer
    (fun a => { a with phase := !a.phase, oldTxKey := a.txKey, txKey := Config.freeNat (draw s).1, txSeq := 1 }) (fun _ => rfl) fun _ => rfl
  rw [State.assoc?_seal ((s.draw_assoc? peer).trans ha), ← hout] at hupd
  exact ⟨_, hupd, ⟨_, List.mem_append_right _ (List.mem_singleton.2 rfl), rfl, rfl⟩, rfl, rfl, rfl⟩

/-- An association whose receive phase a peer's update has turned (R318). -/
def Assoc.turned (a : Assoc) (key last : Nat) : Assoc :=
  { a with
    rxPhase := !a.rxPhase, rxKey := key, rxLow := 1, rxAbove := []
    oldRx := if last < a.rxLow then none else some { key := a.rxKey, low := a.rxLow, above := a.rxAbove, last := last } }

theorem Assoc.oldRx_turned {a : Assoc} {key last : Nat} {o : OldPhase} (h : (a.turned key last).oldRx = some o) :
    o.last = last ∧ o.key = a.rxKey ∧ o.low ≤ last := by
  unfold Assoc.turned at h
  dsimp only at h
  split at h
  · cases h
  · next hlast =>
    obtain rfl := Option.some.inj h
    exact ⟨rfl, rfl, not_lt.1 hlast⟩

theorem State.keyUpdateIn_turns {s : State} {p : Nat} {m : Msg} {a : Assoc} (h : s.Hears p m a) (now : Nat) :
    ∃ (b : Assoc) (key : Nat), (s.keyUpdateIn p m true now).assoc? m.src = some (b.turned key m.e2e) ∧ b.rxPhase = a.rxPhase ∧ b.rxKey = a.rxKey ∧ b.phase = a.phase := by
  obtain ⟨a', ha', hstill⟩ := (State.linkIn_sends .keyUpdate m h.up).assoc ((s.assoc?_heard p .keyUpdate m m.src).trans h.assoc)
  have hin : s.keyUpdateIn p m true now =
      (draw ((s.linkIn p .keyUpdate m).1.updAssoc m.src fun a => a.took m.phase m.e2e (flitsOf m.body))).2.updAssoc m.src fun a =>
        a.turned (Config.freeNat (draw ((s.linkIn p .keyUpdate m).1.updAssoc m.src fun a => a.took m.phase m.e2e (flitsOf m.body))).1) m.e2e := by
    unfold State.keyUpdateIn
    rw [State.receive_taken h (by decide)]
    rfl
  obtain ⟨-, -, -, hphase, -, hrxPhase, hrxKey⟩ := a'.took_leaves m.phase m.e2e (flitsOf m.body)
  have hupd (key : Nat) := State.assoc?_updAssoc_self
    (draw ((s.linkIn p .keyUpdate m).1.updAssoc m.src fun a => a.took m.phase m.e2e (flitsOf m.body))).2 m.src (fun a => a.turned key m.e2e)
    (fun _ => rfl) fun _ => rfl
  simp only [State.draw_assoc?, State.assoc?_updAssoc_took ha'] at hupd
  refine ⟨a'.took m.phase m.e2e (flitsOf m.body), _, hin ▸ hupd _, hrxPhase.trans ?_, hrxKey.trans ?_, hphase.trans ?_⟩
  · exact show a'.still.rxPhase = a.still.rxPhase by rw [hstill]
  · exact show a'.still.rxKey = a.still.rxKey by rw [hstill]
  · exact show a'.still.phase = a.still.phase by rw [hstill]

theorem keyPhasesTurn : Claims.KeyPhasesTurn := by
  refine ⟨fun s peer a ha => ⟨fun hkeeps => ?_, fun hlimit hmay hroute => ?_⟩, fun s p m now a h => ?_⟩
  · refine congrArg Host.Outcome.next ?_
    unfold State.keyUpdateOut
    rw [ha]
    dsimp only
    split
    · rfl
    · next hgoes =>
      rw [show FlitKind.keyUpdate.cls = 0 from rfl]
      have hnone : s.route peer 0 = none := by
        rw [not_or] at hgoes
        exact (hkeeps.resolve_left hgoes.1).resolve_left hgoes.2
      rw [hnone]
  · obtain ⟨b, hb, hstore, hphase, hseq, hrx⟩ := State.keyUpdateOut_turns ha hlimit hmay hroute
    exact ⟨_, rfl, .inl ⟨b, hb, hstore⟩, b, hb, hphase, hseq, hrx⟩
  · obtain ⟨b, key, hb, hrxPhase, hrxKey, hphase⟩ := State.keyUpdateIn_turns h now
    refine ⟨_, rfl, _, hb, ?_, rfl, rfl, hphase, fun o ho => ?_⟩
    · exact show (!b.rxPhase) = !a.rxPhase by rw [hrxPhase]
    · obtain ⟨hlast, hkey, hlow⟩ := Assoc.oldRx_turned ho
      exact ⟨hlast, hkey.trans hrxKey, hlow⟩

/-! ### Forming -/

theorem List.find?_filter_ne_append {l : List Assoc} {peer : Nat} {a : Assoc} (hpeer : a.peer = peer) (hlive : a.live = true) :
    (l.filter (fun b => b.peer != peer) ++ [a]).find? (fun b => b.peer == peer && b.live) = some a := by
  rw [List.find?_append, List.find?_eq_none.2 fun b hb hcond => ?_]
  · simp [hpeer, hlive]
  · have hne := (List.mem_filter.1 hb).2
    simp only [bne_iff_ne, Bool.and_eq_true, beq_iff_eq] at hne hcond
    exact hne hcond.1

/-- The association that is formed with a peer (R315). -/
def State.newAssoc (s : State) (peer identity : Nat) : Assoc :=
  let old := s.fabric.assocs.find? fun a => a.peer == peer
  { peer := peer, identity := identity, live := true, txKey := Config.freeNat (draw s).1, rxKey := Config.freeNat (draw (draw s).2).1, phase := false,
    rxPhase := false, oldTxKey := 0, oldRx := none, txSeq := 1, store := [], rxLow := 1, rxAbove := [], ackOwed := 0, fails := [],
    reported := (old.map (·.reported)).getD none, sentGranules := 0, freedByPeer := 0, quota := s.quotaNow peer, freedHere := 0,
    landing := (old.map (·.landing)).getD [], heard := true, queried := false, delivered := (old.map (·.delivered)).getD 0,
    depositStep := (old.map (·.depositStep)).getD 0 }

/-- The state in which an association stands formed and what waited for it has not gone. -/
def State.joined (s : State) (peer identity : Nat) : State :=
  let t := (draw (draw s).2).2
  let held := (((s.fabric.assocs.find? fun a => a.peer == peer).map (·.store)).getD []).map fun x => ({ dst := peer, kind := x.kind, bytes := x.body } : Waiting)
  { t with fabric := { t.fabric with
      assocs := t.fabric.assocs.filter (fun a => a.peer != peer) ++ [s.newAssoc peer identity], outbox := held ++ t.fabric.outbox } }

theorem State.formAssoc_eq (s : State) (peer identity : Nat) : s.formAssoc peer identity = (s.joined peer identity).flush peer := rfl

theorem State.assoc?_joined (s : State) (peer identity : Nat) : (s.joined peer identity).assoc? peer = some (s.newAssoc peer identity) :=
  List.find?_filter_ne_append rfl rfl

/-- An association formed is live, expects its first flit, and grants its peer the quota (R315, R336). -/
theorem State.formAssoc_forms (s : State) (peer identity : Nat) : ∃ b, (s.formAssoc peer identity).assoc? peer = some b ∧ b.identity = identity ∧ b.rxLow = 1 ∧
    b.rxAbove = [] ∧ b.quota = s.quotaNow peer := by
  obtain ⟨b, hb, hstill⟩ := (State.flush_sends _ peer).assoc (s.assoc?_joined peer identity)
  refine ⟨b, s.formAssoc_eq peer identity ▸ hb, ?_, ?_, ?_, ?_⟩
  · exact show b.still.identity = _ by rw [hstill]; rfl
  · exact show b.still.rxLow = _ by rw [hstill]; rfl
  · exact show b.still.rxAbove = _ by rw [hstill]; rfl
  · exact show b.still.quota = _ by rw [hstill]; rfl

theorem associationsForm : Claims.AssociationsForm := by
  intro s p peer identity version chainOk sameOperator hup hfenced
  have hexec : exec (.assoc p peer identity chainOk version sameOperator) s = .next (s.assocSetup p peer identity chainOk version sameOperator) :=
    congrArg Host.Outcome.next (if_pos hup)
  have hsetup : s.assocSetup p peer identity chainOk version sameOperator =
      if chainOk = false then s.raise 0x8006 .security 0 peer 0 0
      else if version < s.num 0x8000 5 then s.raise 0x8006 .security 0 peer 1 0
      else if sameOperator = false then s.raise 0x8006 .security 0 peer 2 0
      else match s.assoc? peer with
        | some a => if a.identity = identity then s.formAssoc peer identity else s.raise 0x2305 .suesh p peer 0 0
        | none => s.formAssoc peer identity := by
    unfold State.assocSetup
    dsimp only
    exact if_neg (by rw [hfenced]; simp)
  rw [hsetup] at hexec
  have hraise (code : Nat) (src : Source) (u a b c : Nat) :
      Raised s (s.raise code src u a b c) code src u 0 a b c ∧ (s.raise code src u a b c).fabric = s.fabric :=
    ⟨s.raise_raised code src u a b c, (State.raise_only ..).eq .fabric rfl⟩
  refine ⟨fun hchain => ⟨_, hexec, ?_⟩, fun hchain hversion => ⟨_, hexec, ?_⟩, fun hchain hversion hoperator => ⟨_, hexec, ?_⟩,
    fun hchain hversion hoperator => ⟨fun a ha hne => ⟨_, hexec, ?_⟩, fun hsame => ⟨_, hexec, ?_⟩⟩⟩
  · rw [if_pos hchain]
    exact hraise ..
  · rw [if_neg (by simp [hchain]), if_pos hversion]
    exact hraise ..
  · rw [if_neg (by simp [hchain]), if_neg (by omega), if_pos hoperator]
    exact hraise ..
  · rw [if_neg (by simp [hchain]), if_neg (by omega), if_neg (by simp [hoperator]), ha]
    dsimp only
    rw [if_neg hne]
    exact hraise ..
  · rw [if_neg (by simp [hchain]), if_neg (by omega), if_neg (by simp [hoperator])]
    cases ha : s.assoc? peer with
    | none => exact s.formAssoc_forms peer identity
    | some a =>
      dsimp only
      rw [if_pos (hsame a ha)]
      exact s.formAssoc_forms peer identity

/-- Settles O30: a phase turns on the association that sending and receiving leave, and one is formed of the peer's identity alone. -/
theorem associationsAndKeys : Obligations.AssociationsAndKeys := ⟨keyPhasesTurn, associationsForm⟩

end Sys2Proof.Machine
end

section
/-!
Ports of the fabric that narrow, go down and come up, and waits that are reported (R309, R313, R314, R334, R340, R455, R469).
-/
namespace Sys2Proof.Machine
open Sys2Proof

/-- A port set, whatever leaves the fabric alone or only sends afterwards. -/
theorem State.suesh_raise (s : State) (code : Nat) (src : Source) (u a b c p : Nat) : (s.raise code src u a b c).suesh p = s.suesh p :=
  State.suesh_fabric ((State.raise_only ..).eq .fabric rfl) p

theorem State.suesh_add (s : State) (i k n p : Nat) : (s.add i k n).suesh p = s.suesh p := State.suesh_fabric ((State.add_only ..).eq .fabric rfl) p

theorem Sends.log {s t : State} (h : Sends s t) : t.log = s.log := h.only.eq .log rfl
theorem Sends.dict {s t : State} (h : Sends s t) : t.dict = s.dict := h.only.eq .dict rfl

theorem State.raise_outbox (s : State) (code : Nat) (src : Source) (u a b c : Nat) : (s.raise code src u a b c).fabric.outbox = s.fabric.outbox := by
  rw [(State.raise_only s code src u a b c).eq .fabric rfl]

theorem State.add_outbox (s : State) (i k n : Nat) : (s.add i k n).fabric.outbox = s.fabric.outbox := by rw [(State.add_only s i k n).eq .fabric rfl]

theorem State.suesh_setSuesh_port {s : State} {p : Nat} (hp : p < 12) (hports : s.fabric.ports.length = 12) (x : Suesh) : (s.setSuesh p x).suesh p = x :=
  State.suesh_setSuesh_self s x (by omega)

/-! ### Lanes and ports -/

/-- A lane that fails leaves its port: the port goes down with none in service (R309). -/
theorem State.laneFault_down {s : State} {p lane : Nat} (hp : p < 12) (hlane : lane < 4) (hup : 0 < (s.suesh p).width)
    (hnew : (s.suesh p).failed.contains lane = false) (hw : widthWith (insertOnce lane (s.suesh p).failed) = 0) :
    s.laneFault p lane = s.portDown p (insertOnce lane (s.suesh p).failed) := by
  unfold State.laneFault
  dsimp only
  rw [if_pos (by simp only [hp, hlane, hup, hnew]; decide), if_pos hw]

/-- A port that retrains at a width below its own once a lane has left it, and its event; held flits are replayed (R309, R327). -/
def State.retrained (s : State) (p lane : Nat) (failed : List Nat) : State :=
  ((((s.setSuesh p ((s.suesh p).linkUp failed)).add 0x2300 4 1).add 0x2300 5 (s.suesh p).retry.length).raise 0x2301 .suesh p (widthWith failed) lane
    0).flushWaiting

theorem State.laneFault_narrow {s : State} {p lane : Nat} (hp : p < 12) (hlane : lane < 4) (hup : 0 < (s.suesh p).width)
    (hnew : (s.suesh p).failed.contains lane = false) (hw : widthWith (insertOnce lane (s.suesh p).failed) ≠ 0) :
    s.laneFault p lane = s.retrained p lane (insertOnce lane (s.suesh p).failed) := by
  unfold State.laneFault
  dsimp only
  rw [if_pos (by simp only [hp, hlane, hup, hnew]; decide), if_neg hw]
  rfl

theorem State.retrained_narrow {s : State} {p : Nat} (hp : p < 12) (hports : s.fabric.ports.length = 12) (lane : Nat) (failed : List Nat) :
    ((s.retrained p lane failed).suesh p).width = widthWith failed ∧ ((s.retrained p lane failed).suesh p).failed = failed ∧
      Raised s (s.retrained p lane failed) 0x2301 .suesh p 0 (widthWith failed) lane 0 ∧ Added s (s.retrained p lane failed) 0x2300 4 1 ∧
      (s.fabric.outbox = [] →
        ((s.retrained p lane failed).suesh p).credits = [32, 32, 32, 32] ∧ ((s.retrained p lane failed).suesh p).shared = 128) := by
  unfold State.retrained
  let u := ((s.setSuesh p ((s.suesh p).linkUp failed)).add 0x2300 4 1).add 0x2300 5 (s.suesh p).retry.length
  let v := u.raise 0x2301 .suesh p (widthWith failed) lane 0
  have hv : v.suesh p = (s.suesh p).linkUp failed := by
    simp only [v, u, State.suesh_raise, State.suesh_add, State.suesh_setSuesh_port hp hports]
  have hraised : Raised s v 0x2301 .suesh p 0 (widthWith failed) lane 0 := State.raise_raised_of_log rfl
  have hadded : Added s v 0x2300 4 1 := by
    have hu : u.num 0x2300 4 = (s.setSuesh p ((s.suesh p).linkUp failed) |>.add 0x2300 4 1).num 0x2300 4 := State.num_add_other _ _ _ _ _ _ (by decide)
    exact (State.num_raise u _ _ _ _ _ _ _ _ (by simp [eventKey, entryKey])).trans (hu.trans (State.num_add_self (s.setSuesh p _) ..))
  have hsends := v.flushWaiting_sends
  refine ⟨?_, ?_, hraised.then_log hsends.log, ?_, fun hidle => ?_⟩
  · exact (hsends.width p).trans (congrArg Suesh.width hv)
  · exact (hsends.failed p).trans (congrArg Suesh.failed hv)
  · exact (State.num_dict hsends.dict ..).trans hadded
  · have houtbox : v.fabric.outbox = [] := by simp only [v, u, State.raise_outbox, State.add_outbox]; exact hidle
    have hsame : v.flushWaiting.suesh p = (s.suesh p).linkUp failed := by rw [State.flushWaiting_of_empty houtbox, hv]
    exact ⟨congrArg Suesh.credits hsame, congrArg Suesh.shared hsame⟩

/-- A port that comes up has the width its lanes give, and the position written last is in force (R309, R313). -/
theorem State.portUp_up {s : State} {p : Nat} (hp : p < 12) (hports : s.fabric.ports.length = 12) (failed : List Nat) :
    ((s.portUp p failed).suesh p).width = widthWith failed ∧ ((s.portUp p failed).suesh p).failed = failed ∧ ((s.portUp p failed).suesh p).rxSeq = 4095 ∧
      (s.portUp p failed).fabric.position = s.num 0x2300 1 ∧ (s.portUp p failed).log = s.log ∧
      (s.fabric.outbox = [] → ((s.portUp p failed).suesh p).retry = [] ∧ ((s.portUp p failed).suesh p).txSeq = 0) := by
  let u : State := { s.setSuesh p ((s.suesh p).fresh failed) with
    fabric := { (s.setSuesh p ((s.suesh p).fresh failed)).fabric with position := s.num 0x2300 1 } }
  have hu : u.suesh p = (s.suesh p).fresh failed := State.suesh_setSuesh_port hp hports _
  have hsends : Sends u (s.portUp p failed) := u.flushWaiting_sends
  refine ⟨?_, ?_, ?_, hsends.position, hsends.log, fun hidle => ?_⟩
  · exact (hsends.width p).trans (congrArg Suesh.width hu)
  · exact (hsends.failed p).trans (congrArg Suesh.failed hu)
  · exact (hsends.rxSeq p).trans (congrArg Suesh.rxSeq hu)
  · have hsame : (s.portUp p failed).suesh p = (s.suesh p).fresh failed := by
      rw [← hu]
      exact congrArg (·.suesh p) (State.flushWaiting_of_empty (show u.fabric.outbox = [] from hidle))
    exact ⟨congrArg Suesh.retry hsame, congrArg Suesh.txSeq hsame⟩

/-- The retry of a port, down or degraded, brings it up at the width its lanes give, with its event (R309, R455). -/
theorem State.portRetry_up {s : State} {p : Nat} {failed : List Nat} (hp : p < 12) (hports : s.fabric.ports.length = 12) (hgood : s.bring.pwrGood = true)
    (hlanes : failed.all (· < 4) = true)
    (hcase : ((s.suesh p).width = 0 ∧ 0 < widthWith failed) ∨ (0 < (s.suesh p).width ∧ (s.suesh p).width < 4 ∧ failed = [] ∧
      ∀ l ∈ (s.suesh p).failed, s.num 0x9030 3 ≤ s.laneMargin (4 * p + l))) :
    ((s.portRetry p failed).suesh p).width = widthWith failed ∧ ((s.portRetry p failed).suesh p).failed = failed ∧
      Raised s (s.portRetry p failed) 0x2302 .suesh p 0 (widthWith failed) 0 0 := by
  have hmay : (decide (p < 12) && s.bring.pwrGood && decide (failed.all (· < 4))) = true := by simp only [hp, hgood, hlanes]; decide
  unfold State.portRetry
  dsimp only
  rw [if_pos hmay]
  obtain hdown | ⟨hup, hnarrow, hall, hmargins⟩ := hcase
  · obtain ⟨hwidth, hfailed, -, -, hlog, -⟩ := State.portUp_up hp hports failed
    rw [if_pos hdown, State.suesh_raise]
    exact ⟨hwidth, hfailed, State.raise_raised_of_log hlog⟩
  · have hmargins' : ((s.suesh p).failed.all fun l => decide (s.num 0x9030 3 ≤ s.laneMargin (4 * p + l))) = true := by simpa using hmargins
    let u := (s.setSuesh p ((s.suesh p).linkUp failed)).add 0x2300 5 (s.suesh p).retry.length
    let v := u.raise 0x2302 .suesh p (widthWith failed) 0 0
    have hv : v.suesh p = (s.suesh p).linkUp failed := by simp only [v, u, State.suesh_raise, State.suesh_add, State.suesh_setSuesh_port hp hports]
    have hraised : Raised s v 0x2302 .suesh p 0 (widthWith failed) 0 0 := State.raise_raised_of_log rfl
    have hsends := v.flushWaiting_sends
    rw [if_neg (by omega), if_pos ⟨hup, hnarrow, hall, hmargins'⟩]
    refine ⟨?_, ?_, hraised.then_log hsends.log⟩
    · exact (hsends.width p).trans (congrArg Suesh.width hv)
    · exact (hsends.failed p).trans (congrArg Suesh.failed hv)

theorem mem_insertOnce_self (n : Nat) (l : List Nat) : n ∈ insertOnce n l := by
  induction l with
  | nil => simp [insertOnce]
  | cons b l ih =>
    unfold insertOnce
    split
    · simp
    · split
      · next h => simp [h]
      · simp [ih]

theorem portsComeAndGo : Claims.PortsComeAndGo := by
  intro s p hp hports x
  refine ⟨fun lane hlane hup hnew => ?_, fun failed hgood hlanes hcase => ⟨_, rfl, State.portRetry_up hp hports hgood hlanes hcase⟩,
    fun failed hgood hdown hw => ⟨_, rfl, ?_⟩, fun hgood hdown hwait => ⟨_, rfl, ?_⟩⟩
  · refine ⟨_, rfl, ?_⟩
    dsimp only
    split
    · next hw =>
      rw [State.laneFault_down hp hlane hup hnew hw]
      unfold State.portDown
      rw [State.suesh_raise, State.suesh_setSuesh_port hp hports]
      exact ⟨hw.symm, rfl, State.raise_raised_of_log rfl, rfl⟩
    · next hw =>
      rw [State.laneFault_narrow hp hlane hup hnew hw]
      exact State.retrained_narrow hp hports lane _
  · obtain ⟨hwidth, -, hseq, hposition, -, hempty⟩ := State.portUp_up hp hports failed
    unfold State.portTrained
    rw [if_pos (by simp only [hp, hgood, show (s.suesh p).width = 0 from hdown, hw]; decide)]
    exact ⟨hwidth, hposition, hseq, hempty⟩
  · unfold State.portWindow
    rw [if_pos (by simp only [hp, hgood, show (s.suesh p).width = 0 from hdown, hwait]; decide)]
    refine ⟨State.raise_raised_of_log rfl, ?_, (State.raise_only ..).eq .fabric rfl⟩
    rw [(State.raise_only ..).eq .bring rfl]
    exact mem_insertOnce_self ..

/-! ### Waits -/

/-- A wait counted in its class and kept when the longest, before it is reported (R340). -/
def State.waited (s : State) (cls ticks : Nat) : State :=
  let t := s.add 0xF320 (1 + cls % 4) 1
  if t.num 0xF320 6 < ticks then t.setNum 0xF320 6 (ticks % 2 ^ 32) else t

theorem State.num_setNum_other (s : State) (i k n i' k' : Nat) (h : entryKey i k ≠ entryKey i' k') : (s.setNum i k n).num i' k' = s.num i' k' := by
  simp [State.num, State.setNum, State.entry_setEntry_other _ _ _ _ _ _ h]

theorem State.waited_counts (s : State) (cls : Nat) {ticks : Nat} (hticks : ticks < 2 ^ 32) :
    Added s (s.waited cls ticks) 0xF320 (1 + cls % 4) 1 ∧ (s.waited cls ticks).num 0xF320 7 = s.num 0xF320 7 ∧
      (s.waited cls ticks).num 0xF320 6 = max (s.num 0xF320 6) ticks ∧ (s.waited cls ticks).log = s.log := by
  have hkey {k : Nat} (hk : k = 6 ∨ k = 7) : entryKey 0xF320 (1 + cls % 4) ≠ entryKey 0xF320 k := by unfold entryKey; omega
  have hother {k : Nat} (hk : k = 6 ∨ k = 7) : (s.add 0xF320 (1 + cls % 4) 1).num 0xF320 k = s.num 0xF320 k := State.num_add_other _ _ _ _ _ _ (hkey hk)
  unfold State.waited
  dsimp only
  rw [hother (.inl rfl)]
  split
  · next hlong =>
    rw [State.num_setNum_self, Nat.mod_eq_of_lt hticks, Nat.max_eq_right hlong.le]
    refine ⟨?_, ?_, rfl, rfl⟩
    · exact (State.num_setNum_other _ _ _ _ _ _ (hkey (.inl rfl)).symm).trans (State.num_add_self s ..)
    · rw [State.num_setNum_other _ _ _ _ _ _ (by decide), hother (.inr rfl)]
  · next hshort => exact ⟨State.num_add_self s .., hother (.inr rfl), by rw [hother (.inl rfl)]; omega, rfl⟩

theorem State.creditWait_waits (s : State) (hop cls : Nat) {ticks : Nat} (hticks : ticks < 2 ^ 32) : let t := s.creditWait hop cls ticks
    Added s t 0xF320 (1 + cls % 4) 1 ∧ (if 25 * s.num 0xF320 7 < ticks then Raised s t 0xF321 .module 0 0 hop cls ticks else t.log = s.log) ∧
      t.num 0xF320 6 = max (s.num 0xF320 6) ticks := by
  obtain ⟨hadded, hlimit, hlongest, hlog⟩ := s.waited_counts cls hticks
  have hwait : s.creditWait hop cls ticks =
      if 25 * (s.waited cls ticks).num 0xF320 7 < ticks then (s.waited cls ticks).raise 0xF321 .module 0 hop cls ticks else s.waited cls ticks := rfl
  have hnum (k : Nat) : (s.creditWait hop cls ticks).num 0xF320 k = (s.waited cls ticks).num 0xF320 k := by
    rw [hwait]
    split
    · exact State.num_raise _ _ _ _ _ _ _ _ _ (by simp only [eventKey, entryKey]; omega)
    · rfl
  refine ⟨(hnum _).trans hadded, ?_, (hnum 6).trans hlongest⟩
  rw [hwait, hlimit]
  split
  · exact State.raise_raised_of_log hlog
  · exact hlog

theorem fabricWaitsAreReported : Claims.FabricWaitsAreReported := by
  refine ⟨fun s dst hwaits hroute => ⟨_, rfl, ?_⟩, fun s p hp hports hstrict => ⟨_, rfl, ?_⟩, fun s hop cls ticks hticks =>
    ⟨_, rfl, s.creditWait_waits hop cls hticks⟩⟩
  · unfold State.routeEmpty
    rw [if_pos (by rw [hwaits, hroute]; rfl)]
    exact ⟨State.raise_raised_of_log rfl, (State.raise_only ..).eq .fabric rfl⟩
  · unfold State.strictOrder
    dsimp only
    rw [if_pos ⟨hp, hstrict⟩, State.suesh_add, State.suesh_setSuesh_port hp hports]
    exact ⟨rfl, State.num_add_self (s.setSuesh p _) ..⟩

/-- Settles O31: sending leaves width, lanes, position and log, so a port stands after what waited has gone as it came up. -/
theorem portsAndFabricWaits : Obligations.PortsAndFabricWaits := ⟨portsComeAndGo, fabricWaitsAreReported⟩

end Sys2Proof.Machine
end

section
/-!
Replays of internal links, row repair and retirement, and the patrol (R350 to R352).
-/
namespace Sys2Proof.Machine
open Sys2Proof

/-! ### Internal links -/

theorem State.linkReplay_again {s : State} {link granules : Nat} {again : Bool} (carrel : Bool) (loc : Nat) (hlink : link ≤ 10) (hpos : 0 < granules)
    (hmax : granules ≤ 128) (hidle : s.rel.retraining.contains link = false) (hn : (if again then aGetD s.rel.replays link 0 else 0) < 16) :
    s.linkReplay link granules again carrel loc =
      ({ s with rel := { s.rel with replays := aSet s.rel.replays link ((if again then aGetD s.rel.replays link 0 else 0) + 1) } } : State).add 0x7040 1 granules := by
  unfold State.linkReplay
  dsimp only
  rw [if_neg (by rw [hidle]; simp; omega), if_pos hn]

/-- After 16 replays the granule is delivered poisoned and the link retrains (R350). -/
theorem State.linkReplay_poisons {s : State} {link granules : Nat} {again : Bool} (carrel : Bool) (loc : Nat) (hlink : link ≤ 10) (hpos : 0 < granules)
    (hmax : granules ≤ 128) (hidle : s.rel.retraining.contains link = false) (hn : 16 ≤ if again then aGetD s.rel.replays link 0 else 0) :
    s.linkReplay link granules again carrel loc =
      let t := (s.poisonGranule carrel loc).raise 0x7006 .module 0 link 0 0
      { t with rel := { t.rel with replays := aSet t.rel.replays link 0, retraining := t.rel.retraining ++ [link] } } := by
  unfold State.linkReplay
  dsimp only
  rw [if_neg (by rw [hidle]; simp; omega), if_neg (by omega)]

theorem internalLinksReplay : Claims.InternalLinksReplay := by
  refine ⟨fun s link granules loc again carrel hlink hpos hmax hidle => ⟨fun hn => ⟨_, rfl, ?_⟩, fun hn => ⟨_, rfl, ?_⟩⟩, fun s link granules hbusy hmax => ?_⟩
  · rw [State.linkReplay_again carrel loc hlink hpos hmax hidle hn]
    exact ⟨State.num_add_self ({ s with rel := _ } : State) .., aGetD_aSet_self .., rfl, rfl⟩
  · rw [State.linkReplay_poisons carrel loc hlink hpos hmax hidle hn]
    have hlog : (s.poisonGranule carrel loc).log = s.log := (State.poisonGranule_only ..).eq .log rfl
    refine ⟨(State.raise_raised_of_log hlog).then_log rfl, List.mem_append_right _ (List.mem_singleton.2 rfl), aGetD_aSet_self .., fun hcarrel => ?_⟩
    subst hcarrel
    change loc ∈ ((s.poisonGranule true loc).raise 0x7006 .module 0 link 0 0).carrelPoison
    rw [(State.raise_only ..).eq .carrelPoison rfl]
    exact mem_insertOnce_self ..
  · refine ⟨_, congrArg Host.Outcome.next (if_pos ⟨hbusy, hmax⟩), State.num_add_self ({ s with rel := _ } : State) .., ?_⟩
    change link ∉ s.rel.retraining.filter (· != link)
    simp

/-! ### Rows -/

/-- Whether a history is a row's. -/
def RowHistory.is (h : RowHistory) (device bank row : Nat) : Bool := h.device == device && h.bank == bank && h.row == row

theorem State.rowHistory?_rel {s t : State} (h : t.rel = s.rel) (device bank row : Nat) : t.rowHistory? device bank row = s.rowHistory? device bank row := by
  rw [State.rowHistory?, State.rowHistory?, h]

/-- The history a row has, or begins with. -/
def State.rowOf (s : State) (device bank row : Nat) : RowHistory :=
  (s.rowHistory? device bank row).getD { device := device, bank := bank, row := row, granules := [], bad := false, repaired := none, repairing := false }

theorem State.rowOf_is (s : State) (device bank row : Nat) : (s.rowOf device bank row).is device bank row = true := by
  unfold State.rowOf
  cases h : s.rowHistory? device bank row with
  | none => simp [RowHistory.is]
  | some x => exact List.find?_some (p := fun h : RowHistory => h.device == device && h.bank == bank && h.row == row) h

/-- A row's history after a change is the one changed (R351). -/
theorem State.rowHistory?_updRow (s : State) (device bank row : Nat) (f : RowHistory → RowHistory)
    (hf : ∀ h : RowHistory, (f h).is device bank row = h.is device bank row) :
    (s.updRow device bank row f).rowHistory? device bank row = some (f (s.rowOf device bank row)) := by
  have hlast : (f (s.rowOf device bank row)).is device bank row = true := (hf _).trans (s.rowOf_is device bank row)
  have hnone : (s.rel.rows.filter fun h => !h.is device bank row).find? (fun h => h.is device bank row) = none :=
    List.find?_eq_none.2 fun h hh => by simpa using (List.mem_filter.1 hh).2
  have hfind : ((s.rel.rows.filter fun h => !h.is device bank row) ++ [f (s.rowOf device bank row)]).find? (fun h => h.is device bank row) =
      some (f (s.rowOf device bank row)) := by
    rw [List.find?_append, hnone, Option.none_or]
    exact List.find?_cons_of_pos (p := fun h : RowHistory => h.is device bank row) hlast
  exact hfind

theorem State.rowOf_of_some {s : State} {device bank row : Nat} {h : RowHistory} (hh : s.rowHistory? device bank row = some h) : s.rowOf device bank row = h := by
  rw [State.rowOf, hh]
  rfl

theorem State.bankLeft_rel {s t : State} (h : t.rel = s.rel) (device bank : Nat) : t.bankLeft device bank = s.bankLeft device bank := by
  rw [State.bankLeft, State.bankLeft, h]

theorem State.bankLeft_useResource (s : State) (device bank : Nat) : (s.useResource device bank).bankLeft device bank = s.bankLeft device bank - 1 := by
  unfold State.bankLeft State.useResource
  simp only [aGetD_aSet_self]
  omega

theorem State.usable_tiers {s t : State} (h : t.tiers = s.tiers) (tier : Nat) : t.usable tier = s.usable tier := by rw [State.usable, State.usable, h]

/-- A row is not retired where its tier would fall below its floor (R351). -/
theorem State.retireRow_floor {s : State} {device bytes : Nat} (bank row loc : Nat) (h : s.usable (tierOf device) < usableFloor (tierOf device) + bytes) :
    s.retireRow device bank row loc bytes = s.raise 0x7005 .memory 0 (tierOf device) (s.usable (tierOf device) / mib) 0 := if_pos h

/-- A row retired takes its bytes from its tier (R351). -/
theorem State.retireRow_retires {s : State} {device bytes : Nat} (bank row loc : Nat) (h : usableFloor (tierOf device) + bytes ≤ s.usable (tierOf device)) :
    (s.retireRow device bank row loc bytes).usable (tierOf device) + bytes = s.usable (tierOf device) ∧
      Added s (s.retireRow device bank row loc bytes) 0x7010 3 bytes ∧
      Raised s (s.retireRow device bank row loc bytes) 0x7003 .memory 0 0 (loc % 2 ^ 32) (loc / 2 ^ 32) 2 := by
  let u : State := { s with tiers := if tierOf device = 0 then { s.tiers with nearRetired := s.tiers.nearRetired + bytes }
                                     else { s.tiers with farRetired := s.tiers.farRetired + bytes } }
  let v := (u.add 0x7010 3 bytes).updRow device bank row fun h => { h with granules := [], bad := false, repairing := false }
  have hretire : s.retireRow device bank row loc bytes = v.raise 0x7003 .memory 0 (loc % 2 ^ 32) (loc / 2 ^ 32) 2 := if_neg (by omega)
  rw [hretire]
  refine ⟨?_, ?_, State.raise_raised_of_log rfl⟩
  · rw [State.usable_tiers ((State.raise_only ..).eq .tiers rfl), show v.usable (tierOf device) = u.usable (tierOf device) from rfl]
    unfold State.usable usableFloor at *
    by_cases htier : tierOf device = 0
    · simp only [u, htier, if_true] at *
      omega
    · simp only [u, htier, if_false] at *
      omega
  · exact (State.num_raise v _ _ _ _ _ _ _ _ (by simp [eventKey, entryKey])).trans (State.num_add_self u ..)

section
variable {s : State} {device bank row now : Nat} {h : RowHistory} (loc bytes : Nat) (hh : s.rowHistory? device bank row = some h) (hdevice : device < 26)
  (hdue : s.rowDue h now = true) (hidle : h.repairing = false)
include hh hdevice hdue hidle

/-- A row with none of its bank's repair resource left is retired, by either command (R351). -/
theorem exec_repair_retires (hleft : s.bankLeft device bank = 0) :
    exec (if h.recurs now then .hardRepair device bank row loc bytes now else .rowRepair device bank row loc bytes now) s =
      .next (s.retireRow device bank row loc bytes) := by
  split
  · next hhard =>
    change execHardRepair device bank row loc bytes now s = _
    unfold execHardRepair
    rw [hh]
    dsimp only
    rw [if_pos ⟨hdevice, hdue, hidle, hhard⟩, if_pos hleft]
  · next hsoft =>
    change execRowRepair device bank row loc bytes now s = _
    unfold execRowRepair
    rw [hh]
    dsimp only
    rw [if_pos ⟨hdevice, hdue, hidle, by simpa using hsoft⟩, if_pos hleft]

theorem exec_hardRepair (hhard : h.recurs now = true) (hleft : s.bankLeft device bank ≠ 0) : exec (.hardRepair device bank row loc bytes now) s =
    .next ((((s.useResource device bank).updRow device bank row fun h => { h with granules := [], bad := false, repaired := none }).add 0x7010 1 1).raise 0x7003
      .memory 0 (loc % 2 ^ 32) (loc / 2 ^ 32) 1) := by
  change execHardRepair device bank row loc bytes now s = _
  unfold execHardRepair
  rw [hh]
  dsimp only
  rw [if_pos ⟨hdevice, hdue, hidle, hhard⟩, if_neg hleft]

theorem exec_rowRepair (hsoft : h.recurs now = false) (hleft : s.bankLeft device bank ≠ 0) : exec (.rowRepair device bank row loc bytes now) s =
    .next (s.updRow device bank row fun h => { h with repairing := true }) := by
  change execRowRepair device bank row loc bytes now s = _
  unfold execRowRepair
  rw [hh]
  dsimp only
  rw [if_pos ⟨hdevice, hdue, hidle, hsoft⟩, if_neg hleft]

end

theorem exec_rowRepaired {s : State} {device bank row : Nat} {h : RowHistory} (loc now : Nat) (hh : s.rowHistory? device bank row = some h)
    (hrepairing : h.repairing = true) : exec (.rowRepaired device bank row loc now) s =
      .next ((((s.useResource device bank).updRow device bank row fun h =>
        { h with granules := [], bad := false, repaired := some now, repairing := false }).add 0x7010 1 1).raise 0x7003 .memory 0 (loc % 2 ^ 32) (loc / 2 ^ 32) 0) := by
  change execRowRepaired device bank row loc now s = _
  unfold execRowRepaired
  rw [hh]
  dsimp only
  rw [if_pos hrepairing]

/-- A repair that is done: the row's history as changed, one row of its bank's resource used, counted and reported (R351). -/
theorem State.repaired_row {s : State} {device bank row : Nat} {h : RowHistory} (hh : s.rowHistory? device bank row = some h) (f : RowHistory → RowHistory)
    (hf : ∀ h : RowHistory, (f h).is device bank row = h.is device bank row) (a b c : Nat) :
    let t := (((s.useResource device bank).updRow device bank row f).add 0x7010 1 1).raise 0x7003 .memory 0 a b c
    t.rowHistory? device bank row = some (f h) ∧ t.bankLeft device bank = s.bankLeft device bank - 1 ∧ Added s t 0x7010 1 1 ∧
      Raised s t 0x7003 .memory 0 0 a b c := by
  let u := (s.useResource device bank).updRow device bank row f
  have hrel : ((u.add 0x7010 1 1).raise 0x7003 .memory 0 a b c).rel = u.rel := ((State.raise_only ..).eq .rel rfl).trans ((State.add_only ..).eq .rel rfl)
  refine ⟨?_, ?_, ?_, State.raise_raised_of_log rfl⟩
  · rw [State.rowHistory?_rel hrel, State.rowHistory?_updRow _ _ _ _ _ hf, State.rowOf_of_some]
    exact hh
  · rw [State.bankLeft_rel hrel]
    exact s.bankLeft_useResource device bank
  · exact (State.num_raise (u.add 0x7010 1 1) _ _ _ _ _ _ _ _ (by simp [eventKey, entryKey])).trans (State.num_add_self u ..)

theorem rowsAreRepaired : Claims.RowsAreRepaired := by
  intro s device bank row loc bytes now h hdevice hh
  dsimp only
  refine ⟨fun hdue hidle => ⟨fun hleft => ?_, fun hleft hroom => ?_, fun hleft hfloor => ?_⟩, fun hrepairing => ?_⟩
  · by_cases hhard : h.recurs now = true
    · rw [if_pos hhard]
      refine ⟨_, exec_hardRepair loc bytes hh hdevice hdue hidle hhard hleft, ?_⟩
      obtain ⟨hrow, hbank, hadded, hraised⟩ := State.repaired_row hh (fun h => { h with granules := [], bad := false, repaired := none }) (fun _ => rfl)
        (loc % 2 ^ 32) (loc / 2 ^ 32) 1
      refine ⟨_, hrow, ?_⟩
      rw [if_pos hhard]
      exact ⟨rfl, rfl, rfl, by omega, hadded, hraised⟩
    · rw [if_neg hhard]
      refine ⟨_, exec_rowRepair loc bytes hh hdevice hdue hidle (by simpa using hhard) hleft, _, State.rowHistory?_updRow _ _ _ _ _ fun _ => rfl, ?_⟩
      rw [if_neg hhard, State.rowOf_of_some hh]
      exact ⟨rfl, rfl⟩
  · exact ⟨_, exec_repair_retires loc bytes hh hdevice hdue hidle hleft, State.retireRow_retires bank row loc hroom⟩
  · refine ⟨_, exec_repair_retires loc bytes hh hdevice hdue hidle hleft, ?_⟩
    rw [State.retireRow_floor bank row loc hfloor]
    exact ⟨(State.raise_only ..).eq .tiers rfl, State.raise_raised_of_log rfl⟩
  · refine ⟨_, exec_rowRepaired loc now hh hrepairing, ?_⟩
    obtain ⟨hrow, hbank, hadded, hraised⟩ := State.repaired_row hh
      (fun h => { h with granules := [], bad := false, repaired := some now, repairing := false }) (fun _ => rfl) (loc % 2 ^ 32) (loc / 2 ^ 32) 0
    exact ⟨_, hrow, rfl, rfl, rfl, rfl, hbank, hadded, hraised⟩

/-! ### The patrol -/

theorem length_rsRemainder (data : List Nat) : (rsRemainder data).length = 4 := by
  unfold rsRemainder
  refine List.foldlRecOn (motive := fun r : List Nat => r.length = 4) data _ rfl fun r hr d _ => ?_
  match r, hr with
  | [r3, r2, r1, r0], _ => rfl

theorem length_check (p : Bool) (g : List Byte) : (if p then poisonedCheck g else checkBytes g).length = 4 := by
  split
  · simp [poisonedCheck]
  · rw [checkBytes, List.length_map, length_rsRemainder]

theorem codeword_drop {g : List Byte} (hg : g.length = 32) (p : Bool) : (codeword p g).drop 32 = if p then poisonedCheck g else checkBytes g :=
  List.drop_left' hg

/-- The eight granules of a group and their check bytes are found where the group holds them (R255). -/
theorem farCodeword_farGroup {gs : List (List Byte × Bool)} (hlen : gs.length = 8) (hg : ∀ g ∈ gs, g.1.length = 32) :
    (farGroup gs).length = 288 ∧ ∀ k < 8, farCodeword (farGroup gs) k = codeword (gs.getD k ([], false)).2 (gs.getD k ([], false)).1 := by
  have hbursts : ∀ b ∈ gs.map (·.1), b.length = 32 := by
    intro b hb
    obtain ⟨g, hgs, rfl⟩ := List.mem_map.1 hb
    exact hg g hgs
  have hchecks : ∀ b ∈ gs.map fun g => (codeword g.2 g.1).drop 32, b.length = 4 := by
    intro b hb
    obtain ⟨g, hgs, rfl⟩ := List.mem_map.1 hb
    rw [codeword_drop (hg g hgs), length_check]
  have hgroup : farGroup gs = (gs.map (·.1)).flatten ++ (gs.map fun g => (codeword g.2 g.1).drop 32).flatten := by
    rw [farGroup, List.flatMap_def, List.flatMap_def]
  have h256 : (gs.map (·.1)).flatten.length = 256 := by rw [length_flatten_of_length_eq hbursts, List.length_map, hlen]
  refine ⟨?_, fun k hk => ?_⟩
  · rw [hgroup, List.length_append, h256, length_flatten_of_length_eq hchecks, List.length_map, hlen]
  · have hk' : k < gs.length := by omega
    have hburst := slice_flatten_append hbursts (gs.map fun g => (codeword g.2 g.1).drop 32).flatten (i := k) (by simpa using hk')
    have hcheck := slice_flatten_append hchecks [] (i := k) (by simpa using hk')
    rw [List.append_nil] at hcheck
    simp only [slice, List.getElem_map] at hburst hcheck
    have hget : gs.getD k ([], false) = gs[k] := List.getD_eq_getElem _ _ hk'
    rw [farCodeword, hgroup, Nat.mul_comm 32 k, hburst, ← h256, List.drop_length_add_append, Nat.mul_comm 4 k, hcheck, hget,
      codeword_drop (hg _ (List.getElem_mem hk'))]
    rfl

section
variable {s : State} {device bank row loc now : Nat} {read : PatrolRead} {word : List Byte} (hword : read.codeword device = some word)
include hword

/-- A corrected granule is counted and charged to its row (R352). -/
theorem exec_scrub_corrected {d : List Byte} {n : Nat} (hd : decodeGranule word = .corrected d n) : exec (.scrub device bank row loc read now) s =
    .next ((if n = 2 then ((s.add 0x7000 1 1).countCorrected (tierOf device)).add 0x7000 2 1 else (s.add 0x7000 1 1).countCorrected (tierOf device)).updRow device
      bank row fun h => { h with granules := aSet h.granules loc now }) := by
  change execScrub device bank row loc read now s = _
  unfold execScrub
  rw [hword]
  dsimp only
  rw [hd]

/-- An uncorrectable granule is counted, written poisoned and reported (R346, R352). -/
theorem exec_scrub_uncorrectable (hd : decodeGranule word = .uncorrectable) : exec (.scrub device bank row loc read now) s =
    .next ((((s.add 0x7000 3 1).poisonGranule false loc).updRow device bank row fun h => { h with bad := true }).raise 0x7001 .memory 0 (loc % 2 ^ 32)
      (loc / 2 ^ 32) 0) := by
  change execScrub device bank row loc read now s = _
  unfold execScrub
  rw [hword]
  dsimp only
  rw [hd]

end

/-- A granule written poisoned is so in the stored tile it lies in (R346). -/
theorem State.poisoned_tile {s : State} {loc : Nat} {x : StoredTile} (hx : x ∈ (s.poisonGranule false loc).tiers.tiles) (hhere : x.tier ≠ .absent)
    (hlow : x.devGranule ≤ loc) (hhigh : loc < x.devGranule + x.image.length / 32) : loc - x.devGranule ∈ x.poison := by
  obtain ⟨y, -, rfl⟩ := List.mem_map.1 hx
  by_cases hy : y.tier ≠ .absent ∧ y.devGranule ≤ loc ∧ loc < y.devGranule + y.image.length / 32
  · rw [if_pos hy]
    exact mem_insertOnce_self ..
  · rw [if_neg hy] at hhere hlow hhigh
    exact absurd ⟨hhere, hlow, hhigh⟩ hy

theorem thePatrolCorrects : Claims.ThePatrolCorrects := by
  refine ⟨fun gs hlen hg => farCodeword_farGroup hlen hg, fun s device bank row loc now read word hword => ⟨fun hclean => ?_, fun d n hd => ?_, fun hd => ?_⟩⟩
  · change execScrub device bank row loc read now s = _
    unfold execScrub
    rw [hword]
    obtain h | h := hclean
    · dsimp only
      rw [h]
    · dsimp only
      rw [h]
  · refine ⟨_, exec_scrub_corrected hword hd, ?_⟩
    let u := (s.add 0x7000 1 1).countCorrected (tierOf device)
    have hone : u.num 0x7000 1 = _ := State.num_add_self s 0x7000 1 1
    have htwo : u.num 0x7000 2 = s.num 0x7000 2 := State.num_add_other s _ _ _ _ _ (by decide)
    refine ⟨?_, ?_, ⟨_, State.rowHistory?_updRow _ _ _ _ _ fun _ => rfl, aGet_aSet_self ..⟩, ?_⟩
    · split
      · exact (State.num_add_other u _ _ _ _ _ (by decide)).trans hone
      · exact hone
    · split
      · exact (State.num_add_self u 0x7000 2 1).trans (by rw [htwo])
      · exact htwo
    · split <;> rfl
  · refine ⟨_, exec_scrub_uncorrectable hword hd, ?_⟩
    let u := (s.add 0x7000 3 1).poisonGranule false loc
    have hrel : ((u.updRow device bank row fun h => { h with bad := true }).raise 0x7001 .memory 0 (loc % 2 ^ 32) (loc / 2 ^ 32) 0).rel =
      (u.updRow device bank row fun h => { h with bad := true }).rel := (State.raise_only ..).eq .rel rfl
    refine ⟨?_, State.raise_raised_of_log rfl, ⟨_, (State.rowHistory?_rel hrel ..).trans (State.rowHistory?_updRow _ _ _ _ _ fun _ => rfl), rfl⟩,
      fun x hx hhere hlow hhigh => ?_⟩
    · exact (State.num_raise _ _ _ _ _ _ _ _ _ (by simp [eventKey, entryKey])).trans (State.num_add_self s ..)
    · rw [(State.raise_only ..).eq .tiers rfl] at hx
      exact State.poisoned_tile (s := s.add 0x7000 3 1) hx hhere hlow hhigh

/-- Settles O32: each outcome of a link, a row or a patrol read is one change of its record, counted and reported. -/
theorem memoryRepairs : Obligations.MemoryRepairs := ⟨internalLinksReplay, rowsAreRepaired, thePatrolCorrects⟩

end Sys2Proof.Machine
end

section
/-!
Margins of dies, lanes and banks, and the daily record (R353, R452 to R459).
-/
namespace Sys2Proof.Machine
open Sys2Proof

/-! ### Entries that an event leaves -/

/-- Every entry but the two counters that an event may raise stands as before. -/
structure EntryKept (s t : State) : Prop where
  entry : ∀ {i k : Nat}, ¬ eventKey i k → t.entry i k = s.entry i k

theorem EntryKept.of_dict {s t : State} (h : t.dict = s.dict) : EntryKept s t := ⟨fun _ => State.entry_dict h ..⟩
theorem EntryKept.refl (s : State) : EntryKept s s := .of_dict rfl
theorem EntryKept.trans {s t u : State} (h : EntryKept s t) (g : EntryKept t u) : EntryKept s u := ⟨fun hk => (g.entry hk).trans (h.entry hk)⟩

theorem EntryKept.foldl {α : Type} (f : State → α → State) (l : List α) (s : State) (h : ∀ s a, EntryKept s (f s a)) : EntryKept s (l.foldl f s) :=
  List.foldlRecOn (motive := fun t => EntryKept s t) l f (EntryKept.refl s) fun t ht a _ => ht.trans (h t a)

theorem State.add_entryKept (s : State) {i k : Nat} (n : Nat) (h : eventKey i k) : EntryKept s (s.add i k n) :=
  ⟨fun hk => State.entry_setEntry_other _ _ _ _ _ _ fun g => hk (by rwa [eventKey, ← g])⟩

theorem State.storeEvent_entryKept (s : State) (q : Nat) (e : EventRec) (id : Nat) : EntryKept s (s.storeEvent q e id) := by
  unfold State.storeEvent
  split
  · exact .of_dict rfl
  · exact s.add_entryKept 1 (.inl rfl)

theorem State.offer_entryKept (s : State) (e : EventRec) : EntryKept s (s.offer e) := by
  refine EntryKept.foldl _ _ _ fun t x => ?_
  split
  · exact .refl t
  · split
    · split
      · exact .of_dict rfl
      · exact t.add_entryKept 1 (.inr rfl)
    · exact .refl t

theorem State.deliver_entryKept (s : State) (e : EventRec) (slot : Option Nat) : EntryKept s (s.deliver e slot) := by
  unfold State.deliver
  split
  · split
    · exact .refl s
    · split
      · exact .refl s
      · split
        · exact s.storeEvent_entryKept ..
        · exact .refl s
  · exact (EntryKept.foldl _ _ _ fun s p => s.storeEvent_entryKept ..).trans (State.offer_entryKept ..)

theorem State.record_entryKept (s : State) (e : EventRec) (slot : Option Nat) : EntryKept s (s.record e slot) := by
  unfold State.record
  split
  · exact .of_dict rfl
  · exact ⟨fun hk => (State.deliver_entryKept ..).entry hk⟩

theorem State.raise_entryKept (s : State) (code : Nat) (src : Source) (u a b c : Nat) : EntryKept s (s.raise code src u a b c) := s.record_entryKept ..

/-! ### Dies -/

/-- An entry outside the event counts, through a raised event. -/
theorem State.num_raise_of_ne (s : State) (code : Nat) (src : Source) (u a b c i k : Nat) (h5 : 256 * i + k ≠ 0x221005) (h6 : 256 * i + k ≠ 0x211006) :
    (s.raise code src u a b c).num i k = s.num i k :=
  State.num_raise _ _ _ _ _ _ _ _ _ (by simp only [eventKey, entryKey]; omega)

/-- A die's margin held, its entry and the day's least (R452). -/
def State.marginHeld (s : State) (d margin : Nat) : State :=
  { s.setNum 0x9000 (9 + d) (margin % 65536) with day := { s.day with pathMin := s.day.pathMin.set d (min (nth s.day.pathMin d) (margin % 65536)) } }

theorem State.marginHeld_num {s : State} {d margin k : Nat} (hk : k ≠ 9 + d) : (s.marginHeld d margin).num 0x9000 k = s.num 0x9000 k :=
  State.num_setNum_other _ _ _ _ _ _ (by unfold entryKey; omega)

theorem State.marginHeld_self {s : State} {d margin : Nat} (h : margin < 65536) : (s.marginHeld d margin).num 0x9000 (9 + d) = margin :=
  (State.num_setNum_self s ..).trans (Nat.mod_eq_of_lt h)

/-- A busy die's margin is held, and below the floor its rail, its clock or the end of life follows (R452, R453). -/
theorem State.pathMargin_busy {s : State} {d : Nat} (margin : Nat) (hd : d < 4) (hbusy : s.dieCode d = 2) : s.pathMargin d margin =
    let u := s.marginHeld d margin
    if u.num 0x9000 13 ≤ margin then u
    else if u.num 0x9000 (1 + d) + 5 ≤ u.num 0x9000 14 then
      (u.setNum 0x9000 (1 + d) (u.num 0x9000 (1 + d) + 5)).raise 0x9001 .module 0 d 0 (u.num 0x9000 (1 + d) + 5)
    else if 2025 ≤ u.num 0x9000 (5 + d) then (u.setNum 0x9000 (5 + d) (u.num 0x9000 (5 + d) - 25)).raise 0x9002 .module 0 d (u.num 0x9000 (5 + d) - 25) 0
    else u.raise 0x9003 .module 0 0 (u.num 0x9010 2) 0 :=
  if_pos ⟨hd, hbusy⟩

theorem pathMargins : Claims.PathMargins := by
  intro s d margin hd hbusy hmargin
  refine ⟨_, rfl, ?_⟩
  let u := s.marginHeld d margin
  have hself : u.num 0x9000 (9 + d) = margin := State.marginHeld_self hmargin
  have hraise (v : State) (code a b c k : Nat) : (v.raise code .module 0 a b c).num 0x9000 (k + d) = v.num 0x9000 (k + d) :=
    v.num_raise_of_ne _ _ _ _ _ _ _ _ (by omega) (by omega)
  have hother (k k' n : Nat) (h : k ≠ k') : (u.setNum 0x9000 (k + d) n).num 0x9000 (k' + d) = u.num 0x9000 (k' + d) :=
    State.num_setNum_other _ _ _ _ _ _ (by unfold entryKey; omega)
  rw [State.pathMargin_busy margin hd hbusy]
  dsimp only
  rw [State.marginHeld_num (k := 13) (by omega), State.marginHeld_num (k := 14) (by omega), State.marginHeld_num (k := 1 + d) (by omega),
    State.marginHeld_num (k := 5 + d) (by omega)]
  split
  · exact ⟨hself, State.marginHeld_num (by omega), State.marginHeld_num (by omega), rfl⟩
  · split
    · rw [hraise, hraise, hraise, hother 1 9 _ (by decide), hother 1 5 _ (by decide), State.num_setNum_self]
      exact ⟨hself, rfl, State.marginHeld_num (by omega), State.raise_raised_of_log rfl⟩
    · split
      · rw [hraise, hraise, hraise, hother 5 9 _ (by decide), hother 5 1 _ (by decide), State.num_setNum_self]
        exact ⟨hself, State.marginHeld_num (by omega), rfl, State.raise_raised_of_log rfl⟩
      · rw [hraise, hraise, hraise]
        refine ⟨hself, State.marginHeld_num (by omega), State.marginHeld_num (by omega), ?_⟩
        rw [show (s.marginHeld d margin).num 0x9010 2 = s.num 0x9010 2 from State.num_setNum_other _ _ _ _ _ _ (by unfold entryKey; omega)]
        exact State.raise_raised_of_log rfl

/-! ### Lanes -/

theorem State.laneUp_of {s t : State} (hfabric : t.fabric = s.fabric) (hwidth : t.port.width = s.port.width) (l : Nat) : t.laneUp l = s.laneUp l := by
  rw [State.laneUp, State.laneUp, State.suesh_fabric hfabric, hwidth]

theorem State.num_setMargin {s : State} {l m k : Nat} (hk : k ≠ 2) : (s.setMargin l m).num 0x9030 k = s.num 0x9030 k :=
  congrArg DVal.toNat (State.entry_setEntry_other _ _ _ _ _ _ (by unfold entryKey; omega))

theorem State.laneMargin_setMargin (s : State) {l : Nat} (hl : l < 56) (m : Nat) : (s.setMargin l m).laneMargin l = min m 255 := by
  unfold State.laneMargin State.setMargin
  rw [State.entry_setEntry_self]
  simp only [DVal.toBytes]
  rw [List.getD_eq_getElem _ _ (by simpa using hl), List.getElem_set_self, BitVec.toNat_ofNat]
  omega

/-- A lane whose equaliser has adapted again: its margin held, the retune counted and reported (R455). -/
def State.retuned (s : State) (l after : Nat) : State :=
  let u := (s.setMargin l after).raise 0x9001 .module 0 (4 + laneGroup l) 1 (laneWithin l)
  { u with day := { u.day with retunes := u.day.retunes + 1 } }

theorem State.retuned_fabric (s : State) (l after : Nat) : (s.retuned l after).fabric = s.fabric := (State.raise_only (s.setMargin l after) ..).eq .fabric rfl

theorem State.retuned_width (s : State) (l after : Nat) : (s.retuned l after).port.width = s.port.width :=
  (State.raise_portKept (s.setMargin l after) ..).width

theorem State.retuned_rate (s : State) (l after : Nat) : (s.retuned l after).port.rate = s.port.rate :=
  (State.raise_portKept (s.setMargin l after) ..).rate

theorem State.retuned_retunes (s : State) (l after : Nat) : (s.retuned l after).day.retunes = s.day.retunes + 1 :=
  congrArg (fun d : DayStats => d.retunes + 1) ((State.raise_only (s.setMargin l after) ..).eq .day rfl)

theorem State.retuned_raised (s : State) (l after : Nat) : Raised s (s.retuned l after) 0x9001 .module 0 0 (4 + laneGroup l) 1 (laneWithin l) :=
  (State.raise_raised_of_log (u := s.setMargin l after) rfl).then_log (u := s.retuned l after) rfl

theorem State.retuned_floor (s : State) (l after : Nat) : (s.retuned l after).num 0x9030 3 = s.num 0x9030 3 :=
  (State.num_raise_of_ne (s.setMargin l after) _ _ _ _ _ _ _ _ (by omega) (by omega)).trans (State.num_setMargin (by decide))

theorem State.retuned_laneUp (s : State) (l after : Nat) : (s.retuned l after).laneUp l = s.laneUp l :=
  State.laneUp_of (s.retuned_fabric l after) (s.retuned_width l after) l

theorem State.retuned_laneMargin (s : State) {l : Nat} (hl : l < 56) (after : Nat) : (s.retuned l after).laneMargin l = min after 255 := by
  rw [← s.laneMargin_setMargin hl after]
  have hentry : (s.retuned l after).entry 0x9030 2 = (s.setMargin l after).entry 0x9030 2 :=
    (State.raise_entryKept (s.setMargin l after) ..).entry (by simp [eventKey, entryKey])
  rw [State.laneMargin, hentry, State.laneMargin]

/-- The scan of a lane in service or removed: a margin at the floor is held, one below it is adapted, and a lane that stays short is dropped (R455). -/
theorem State.eyeScan_scans {s : State} {l : Nat} (margin after : Nat) (h : s.laneUp l = true ∨ s.laneRemoved l = true) : s.eyeScan l margin after =
    if s.num 0x9030 3 ≤ margin then s.setMargin l margin
    else if s.num 0x9030 3 ≤ after ∨ s.laneUp l = false then s.retuned l after
    else if l < 48 then (s.retuned l after).laneFault (l / 4) (l % 4) else (s.retuned l after).dropCxlLane := by
  unfold State.eyeScan
  rw [if_neg (by rintro ⟨hup, hremoved⟩; simp [hup, hremoved] at h)]
  split
  · rfl
  · change (if (s.retuned l after).num 0x9030 3 ≤ after ∨ (s.retuned l after).laneUp l = false then s.retuned l after
      else if l < 48 then (s.retuned l after).laneFault (l / 4) (l % 4) else (s.retuned l after).dropCxlLane) = _
    rw [s.retuned_floor, s.retuned_laneUp]

theorem State.laneUp_port {s : State} {l : Nat} (hl : l < 48) (h : s.laneUp l = true) :
    0 < (s.suesh (l / 4)).width ∧ (s.suesh (l / 4)).failed.contains (l % 4) = false := by
  simpa [State.laneUp, hl] using h

theorem State.laneUp_cxl {s : State} {l : Nat} (hl : ¬ l < 48) (h : s.laneUp l = true) : l - 48 < s.port.width := by
  have := (show l < 56 ∧ l - 48 < s.port.width by simpa [State.laneUp, hl] using h).2
  exact this

theorem State.laneRemoved_port {s : State} {l : Nat} (h : s.laneRemoved l = true) : l < 48 ∧ s.laneUp l = false := by
  obtain ⟨⟨hl, hwidth⟩, hfailed⟩ : (l < 48 ∧ 0 < (s.suesh (l / 4)).width) ∧ (s.suesh (l / 4)).failed.contains (l % 4) = true := by
    simpa [State.laneRemoved] using h
  exact ⟨hl, by simpa [State.laneUp, hl, hwidth] using hfailed⟩

/-- A lane of a port that fails is among those the port has lost, and the port has the width that the others give (R309). -/
theorem State.laneFault_loses {s : State} {p lane : Nat} (hp : p < 12) (hlane : lane < 4) (hup : 0 < (s.suesh p).width)
    (hnew : (s.suesh p).failed.contains lane = false) : lane ∈ ((s.laneFault p lane).suesh p).failed ∧
      ((s.laneFault p lane).suesh p).width = widthWith ((s.laneFault p lane).suesh p).failed := by
  have hports := State.lt_of_width hup
  by_cases hw : widthWith (insertOnce lane (s.suesh p).failed) = 0
  · rw [State.laneFault_down hp hlane hup hnew hw, State.portDown, State.suesh_raise, State.suesh_setSuesh_self _ _ hports]
    exact ⟨mem_insertOnce_self .., hw.symm⟩
  · rw [State.laneFault_narrow hp hlane hup hnew hw]
    have hsends := State.flushWaiting_sends ((((s.setSuesh p ((s.suesh p).linkUp (insertOnce lane (s.suesh p).failed))).add 0x2300 4 1).add 0x2300 5
      (s.suesh p).retry.length).raise 0x2301 .suesh p (widthWith (insertOnce lane (s.suesh p).failed)) lane 0)
    have hfailed := hsends.failed p
    have hwidth := hsends.width p
    rw [State.suesh_raise, State.suesh_add, State.suesh_add, State.suesh_setSuesh_self _ _ hports] at hfailed hwidth
    unfold State.retrained
    rw [hfailed, hwidth]
    exact ⟨mem_insertOnce_self .., rfl⟩

/-- The CXL link that loses a lane retrains at half its width, or is lost (R455). -/
theorem State.dropCxlLane_narrower {s : State} (hup : 0 < s.port.width) (hform : linkForm s.port.width s.port.rate = true) :
    s.dropCxlLane.port.width < s.port.width := by
  unfold State.dropCxlLane
  split
  · rw [State.port_portReset]
    exact hup
  · next hwide =>
    have hhalf : linkForm (s.port.width / 2) s.port.rate = true := by
      obtain ⟨hwidth, hrate⟩ : s.port.width ∈ [1, 2, 4, 8] ∧ s.port.rate ∈ [8, 16, 32, 64] := by simpa [linkForm] using hform
      have hmem : s.port.width / 2 ∈ [1, 2, 4, 8] := by
        simp only [List.mem_cons, List.not_mem_nil, or_false] at hwidth ⊢
        omega
      simpa [linkForm] using And.intro hmem hrate
    rw [(State.linkDegraded_down hhalf (.inl (by omega))).1]
    omega

/-! ### Banks -/

theorem State.retentionTest_refreshes {s : State} {device bank failTime interval : Nat} (hdevice : device < 26) (hfail : failTime < s.num 0x9040 1 * interval)
    (hrate : s.day.bankRate device bank < 2) : s.retentionTest device bank failTime interval =
      ({ s with day := { s.day with refreshBanks := aSet s.day.refreshBanks (device, bank) (s.day.bankRate device bank + 1) } } : State).raise 0x9001 .module 0
        (17 + device) 2 (s.day.bankRate device bank + 1) :=
  if_pos ⟨hdevice, hfail, hrate⟩

theorem lanesAndBanks : Claims.LanesAndBanks := by
  refine ⟨fun s l margin after hup => ⟨fun henough => ?_, fun hshort hmended => ⟨_, rfl, ?_⟩, fun hshort hlost hform => ⟨_, rfl, ?_⟩⟩,
    fun s l margin after hremoved => ⟨_, rfl, ?_⟩, fun s device bank failTime interval hdevice => ⟨fun hfail hrate => ⟨_, rfl, ?_⟩, fun hkeep => ?_⟩⟩
  · exact congrArg Host.Outcome.next ((State.eyeScan_scans margin after (.inl hup)).trans (if_pos henough))
  · rw [State.eyeScan_scans margin after (.inl hup), if_neg (by omega), if_pos (.inl hmended)]
    exact ⟨s.retuned_retunes l after, s.retuned_raised l after, s.retuned_fabric l after, s.retuned_width l after⟩
  · rw [State.eyeScan_scans margin after (.inl hup), if_neg (by omega), if_neg (by simp [hup, hlost])]
    have hup' : (s.retuned l after).laneUp l = true := (s.retuned_laneUp l after).trans hup
    split
    · next hl =>
      obtain ⟨hwidth, hnew⟩ := State.laneUp_port hl hup'
      refine ⟨?_, ?_, State.laneFault_loses (by omega) (by omega) hwidth hnew⟩
      · rw [(State.laneFault_only ..).eq .day rfl]
        exact s.retuned_retunes l after
      · have := State.lt_of_width hwidth
        rwa [s.retuned_fabric] at this
    · next hl =>
      refine ⟨?_, ?_⟩
      · rw [(State.dropCxlLane_only ..).eq .day rfl]
        exact s.retuned_retunes l after
      · have hform' : linkForm (s.retuned l after).port.width (s.retuned l after).port.rate = true := by
          rw [s.retuned_width, s.retuned_rate]
          exact hform (by omega)
        have hless := State.dropCxlLane_narrower (by have := State.laneUp_cxl hl hup'; omega) hform'
        rwa [s.retuned_width] at hless
  · obtain ⟨hl, hdown⟩ := State.laneRemoved_port hremoved
    rw [State.eyeScan_scans margin after (.inr hremoved)]
    split
    · exact ⟨rfl, s.laneMargin_setMargin (by omega) margin⟩
    · rw [if_pos (.inr hdown)]
      exact ⟨s.retuned_fabric l after, s.retuned_laneMargin (by omega) after⟩
  · rw [State.retentionTest_refreshes hdevice hfail hrate]
    refine ⟨?_, State.raise_raised_of_log rfl⟩
    rw [(State.raise_only ..).eq .day rfl]
    exact aGetD_aSet_self ..
  · exact congrArg Host.Outcome.next (if_neg (by omega))

/-! ### The daily record -/

/-- The half written is the newest valid one (R459). -/
theorem Flash.cons_writeCons (f : Flash) (count : Nat) (eventSeq : Option Nat) : ∃ c, (f.writeCons count eventSeq).cons = some c ∧ c.count = count := by
  let n : ConsHalf := { gen := ((f.cons.map (·.gen)).getD 0) + 1, valid := true, count := count, eventSeq := eventSeq }
  refine ⟨n, ?_, rfl⟩
  by_cases hA : f.cons = some f.consA
  · have hwrite : f.writeCons count eventSeq = { f with consB := n } := if_pos hA
    have hgen : f.consA.gen < n.gen := by simp [n, hA]
    rw [hwrite]
    cases ha : f.consA.valid <;> simp [Flash.cons, ha, n] at hgen ⊢
    omega
  · have hwrite : f.writeCons count eventSeq = { f with consA := n } := if_neg hA
    have hB : f.consB.valid = true → ¬ n.gen < f.consB.gen := by
      intro hb
      cases ha : f.consA.valid <;> simp [Flash.cons, ha, hb] at hA
      · simp [n, Flash.cons, ha, hb]
      · simp [n, Flash.cons, ha, hb, hA.1]
    rw [hwrite, Flash.cons]
    cases hb : f.consB.valid
    · rfl
    · exact congrArg some (if_neg (hB hb))

theorem length_packFields (w : Nat) (l : List (Nat × Nat)) : (packFields w l).length = w := length_toLE ..

/-- What a day's record is written from: the prediction and the efficiency stand in the dictionary (R458). -/
def State.predicted (s : State) (efficiency : List Nat) : State :=
  let p := s.predict efficiency
  (((((s.setNum 0x9010 1 p.1).setNum 0x9010 2 p.2.1).setNum 0x9010 3 p.2.2.1).setNum 0x9010 5 p.2.2.2).setEntry 0x9050 1
    (.blk (efficiency.map (BitVec.ofNat 8))))

theorem State.num_setEntry_other (s : State) (i k : Nat) (v : DVal) (i' k' : Nat) (h : entryKey i k ≠ entryKey i' k') :
    (s.setEntry i k v).num i' k' = s.num i' k' := congrArg DVal.toNat (State.entry_setEntry_other _ _ _ _ _ _ h)

theorem State.predicted_num (s : State) (efficiency : List Nat) : let u := s.predicted efficiency
    u.num 0x9010 1 = (s.predict efficiency).1 ∧ u.num 0x9010 2 = (s.predict efficiency).2.1 ∧ u.num 0x9010 3 = (s.predict efficiency).2.2.1 := by
  unfold State.predicted
  refine ⟨?_, ?_, ?_⟩
  · rw [State.num_setEntry_other, State.num_setNum_other, State.num_setNum_other, State.num_setNum_other, State.num_setNum_self]
    all_goals decide
  · rw [State.num_setEntry_other, State.num_setNum_other, State.num_setNum_other, State.num_setNum_self]
    all_goals decide
  · rw [State.num_setEntry_other, State.num_setNum_other, State.num_setNum_self]
    all_goals decide

/-- Whether the day's lower prediction is reported again (R459). -/
def State.reportsEnd (s : State) (efficiency : List Nat) : Bool :=
  let lo := (s.predict efficiency).2.1
  let u := s.predicted efficiency
  decide (lo < u.num 0x9010 4) && (match u.day.lastLow with | none => true | some l => decide (lo < l))

/-- The day closed: its record stands in the conservation record and its counts begin again (R459). -/
def State.dayClosed (s : State) (avgPower : Nat) (efficiency : List Nat) : State :=
  let p := s.predict efficiency
  let u := s.predicted efficiency
  let v : State := { u with
    flash := ({ u.flash with daily := u.flash.daily ++ [u.dailyRecord avgPower efficiency p.2.2.2 p.1 p.2.1 p.2.2.1] }).writeCons (u.flash.daily.length + 1)
      ((u.flash.cons).bind (·.eventSeq))
    day := { u.day with correctedNear := 0, correctedFar := 0, retunes := 0, tempMax := 0, pathMin := [65535, 65535, 65535, 65535],
                        firstEfficiency := some ((u.day.firstEfficiency).getD (leastOr255 efficiency)),
                        lastLow := if s.reportsEnd efficiency then some p.2.1 else u.day.lastLow } }
  v.setNum 0x9020 2 v.flash.daily.length

theorem State.daily_closes {s : State} (avgPower : Nat) (efficiency : List Nat) (hphase : s.bring.phase1 = .done) (hroom : s.flash.daily.length < 65504) :
    s.daily avgPower efficiency =
      if s.reportsEnd efficiency then (s.dayClosed avgPower efficiency).raise 0x9003 .module 0 (s.predict efficiency).1 (s.predict efficiency).2.1 0
      else s.dayClosed avgPower efficiency :=
  if_pos ⟨hphase, hroom⟩

theorem State.predict_first {s : State} (efficiency : List Nat) (h : s.flash.daily.length < 14) : (s.predict efficiency).1 = 2557 - s.flash.daily.length := by
  unfold State.predict
  rw [if_pos h]

/-- What a day's close leaves, the event of its prediction apart (R458, R459). -/
theorem State.dayClosed_leaves (s : State) (avgPower : Nat) (efficiency : List Nat) : let t := s.dayClosed avgPower efficiency
    (∃ r, t.flash.daily = s.flash.daily ++ [r] ∧ r.length = 128) ∧ (∃ c, t.flash.cons = some c ∧ c.count = s.flash.daily.length + 1) ∧
      t.num 0x9010 1 = (s.predict efficiency).1 ∧ t.num 0x9010 2 = (s.predict efficiency).2.1 ∧ t.num 0x9010 3 = (s.predict efficiency).2.2.1 ∧
      t.day.retunes = 0 ∧ t.day.correctedNear = 0 ∧ t.day.correctedFar = 0 := by
  have hdaily (f : Flash) (n : Nat) (e : Option Nat) : (f.writeCons n e).daily = f.daily := by
    unfold Flash.writeCons
    split <;> rfl
  refine ⟨⟨_, hdaily _ _ _, length_packFields ..⟩, Flash.cons_writeCons .., ?_, ?_, ?_, rfl, rfl, rfl⟩
  all_goals refine (State.num_setNum_other _ _ _ _ _ _ (by decide)).trans ?_
  · exact (s.predicted_num efficiency).1
  · exact (s.predicted_num efficiency).2.1
  · exact (s.predicted_num efficiency).2.2

theorem dailyRecord : Claims.DailyRecord := by
  intro s avgPower efficiency hphase hroom
  refine ⟨_, rfl, ?_⟩
  obtain ⟨hrecord, hcons, hc, hlo, hhi, hretunes, hnear, hfar⟩ := s.dayClosed_leaves avgPower efficiency
  have hfirst := State.predict_first (s := s) efficiency
  rw [State.daily_closes avgPower efficiency hphase hroom]
  split
  · have honly := (s.dayClosed avgPower efficiency).raise_only 0x9003 .module 0 (s.predict efficiency).1 (s.predict efficiency).2.1 0
    rw [honly.eq .flash rfl, honly.eq .day rfl, State.num_raise_of_ne, State.num_raise_of_ne, State.num_raise_of_ne]
    · exact ⟨hrecord, hcons, hc, hlo, hhi, hretunes, hnear, hfar, fun h => hc.trans (hfirst h)⟩
    all_goals decide
  · exact ⟨hrecord, hcons, hc, hlo, hhi, hretunes, hnear, hfar, fun h => hc.trans (hfirst h)⟩

/-- Settles O34: a margin, a lane, a bank or a day each has one outcome by the value measured, and an event raised of it leaves what it recorded. -/
theorem ageing : Obligations.Ageing := ⟨pathMargins, lanesAndBanks, dailyRecord⟩

end Sys2Proof.Machine
end

section
/-!
From rails to a ready module (R351, R467, R469 to R473, R482).
-/
namespace Sys2Proof.Machine
open Sys2Proof

/-! ### What an event leaves of a queue -/

/-- A queue but for the events it stores. -/
def Queue.rest (x : Queue) : Queue := { x with events := [], store := [], rspSeq := 0 }

/-- Every queue stands as before but for the events it stores. -/
structure QueuesKept (s t : State) : Prop where
  rest : ∀ q, (t.queue q).rest = (s.queue q).rest

theorem QueuesKept.of_port {s t : State} (h : t.port = s.port) : QueuesKept s t := ⟨fun q => by rw [State.queue_port h]⟩
theorem QueuesKept.refl (s : State) : QueuesKept s s := .of_port rfl
theorem QueuesKept.trans {s t u : State} (h : QueuesKept s t) (g : QueuesKept t u) : QueuesKept s u := ⟨fun q => (g.rest q).trans (h.rest q)⟩
theorem QueuesKept.busy {s t : State} (h : QueuesKept s t) (q : Nat) : (t.queue q).busy = (s.queue q).busy :=
  (show (t.queue q).rest.busy = (s.queue q).rest.busy by rw [h.rest])

theorem QueuesKept.foldl {α : Type} (f : State → α → State) (l : List α) (s : State) (h : ∀ s a, QueuesKept s (f s a)) : QueuesKept s (l.foldl f s) :=
  List.foldlRecOn (motive := fun t => QueuesKept s t) l f (.refl s) fun t ht a _ => ht.trans (h t a)

theorem State.storeEvent_queuesKept (s : State) (q : Nat) (e : EventRec) (id : Nat) : QueuesKept s (s.storeEvent q e id) := by
  unfold State.storeEvent
  split
  · refine ⟨fun r => ?_⟩
    by_cases h : q = r
    · subst h
      rw [State.queue_updQueue_self]
      rfl
    · rw [State.queue_updQueue_other _ _ _ _ h]
  · exact .of_port rfl

theorem State.deliver_queuesKept (s : State) (e : EventRec) (slot : Option Nat) : QueuesKept s (s.deliver e slot) := by
  unfold State.deliver
  split
  · split
    · exact .refl s
    · split
      · exact .refl s
      · split
        · exact s.storeEvent_queuesKept ..
        · exact .refl s
  · exact (QueuesKept.foldl _ _ _ fun s p => s.storeEvent_queuesKept ..).trans (.of_port (State.offer_port ..))

theorem State.record_queuesKept (s : State) (e : EventRec) (slot : Option Nat) : QueuesKept s (s.record e slot) := by
  unfold State.record
  split
  · exact .of_port rfl
  · exact ⟨fun q => (State.deliver_queuesKept ..).rest q⟩

theorem State.raise_queuesKept (s : State) (code : Nat) (src : Source) (u a b c : Nat) : QueuesKept s (s.raise code src u a b c) := s.record_queuesKept ..

/-! ### Rails and memory -/

/-- The state once the rails are up (R467, R473, R482). -/
def State.railsUp (s : State) (vin : Nat) : State :=
  let u := (s.updPower fun p => { p with vin := vin, thermTrip := false, dies := List.replicate 4 .awake }).resumePlan
  u.updBring fun b => { b with pwrGood := true, restartAfterBrownOut := false,
                               announcedFailure := (List.range 10).any fun r => phasesFail r (nth u.power.phases r), windowOver := [] }

/-- Whether the rails may come up (R463, R473, R482). -/
def State.mayRailUp (s : State) (vin : Nat) : Prop :=
  s.bring.phase1 = .done ∧ s.power.pwrEn = true ∧ s.bring.pwrGood = false ∧ 46000 < vin ∧ (s.power.thermTrip = true → ∀ x ∈ s.power.temps, x < 85000)

theorem State.exec_railUp (s : State) (vin : Nat) :
    (s.mayRailUp vin → exec (.railUp vin) s = .next (s.railsUp vin)) ∧ (¬ s.mayRailUp vin → exec (.railUp vin) s = .next s) := by
  have hcool : (!s.power.thermTrip || s.power.temps.all fun t => decide (t < 85000)) = true ↔
      (s.power.thermTrip = true → ∀ x ∈ s.power.temps, x < 85000) := by
    cases s.power.thermTrip <;> simp
  have hmay : (s.bring.phase1 = .done ∧ s.power.pwrEn = true ∧ s.bring.pwrGood = false ∧ 46000 < vin ∧
      (!s.power.thermTrip || s.power.temps.all fun t => decide (t < 85000)) = true) ↔ s.mayRailUp vin := by rw [hcool, State.mayRailUp]
  exact ⟨fun h => congrArg Host.Outcome.next (if_pos (hmay.2 h)), fun h => congrArg Host.Outcome.next (if_neg (mt hmay.1 h))⟩

theorem State.railsUp_power (s : State) (vin : Nat) : (s.railsUp vin).power = { s.power with vin := vin, thermTrip := false, dies := List.replicate 4 .awake } :=
  (State.resumePlan_only (s.updPower _)).eq .power rfl

theorem State.railsUp_log (s : State) (vin : Nat) : (s.railsUp vin).log = s.log := (State.resumePlan_only (s.updPower _)).eq .log rfl

/-- The module's memory as both tiers are written with zeros (R470). -/
def State.memoryZeroed (s : State) : State :=
  { s with tiers := { s.tiers with tiles := [], pass := false, readOrder := [], pageRuns := [], farReads := [] }, carrel := [], carrelPoison := []
           rel := { s.rel with rows := [] } }

/-- What follows the repairs where no tier holds bring-up: the retention baseline, and the tiles' self-check (R470). -/
def State.selfChecked (s : State) (banks : List (Nat × Nat × Nat × Nat)) (tiles : List (Nat × Nat)) : State :=
  let u := banks.foldl (fun s b => s.retentionTest b.1 b.2.1 b.2.2.1 b.2.2.2) s
  (tiles.foldl (fun s t => if t.1 < 4 then s.failTile t.1 t.2 else s) u).updBring fun b => { b with initialised := true }

theorem State.exec_memoryInit {s : State} (rows : List (Nat × Nat × Nat × Nat × Nat)) (banks : List (Nat × Nat × Nat × Nat)) (tiles : List (Nat × Nat))
    (htrained : s.bring.trained = true) (hnew : s.bring.initialised = false) : exec (.memoryInit rows banks tiles) s =
      .next (if (s.memoryZeroed.repairRows rows).2 then (s.memoryZeroed.repairRows rows).1
        else (s.memoryZeroed.repairRows rows).1.selfChecked banks tiles) :=
  congrArg Host.Outcome.next (if_pos ⟨htrained, hnew⟩)

theorem State.baseline_only (s : State) (banks : List (Nat × Nat × Nat × Nat)) :
    Only [.port, .sessions, .day, .log, .dict] s (banks.foldl (fun s b => s.retentionTest b.1 b.2.1 b.2.2.1 b.2.2.2) s) :=
  Only.foldl _ _ _ fun _ _ => State.retentionTest_only ..

theorem railsAndMemory : Claims.RailsAndMemory := by
  refine ⟨fun s vin => ⟨fun hmay => ⟨_, (s.exec_railUp vin).1 hmay, ?_⟩, (s.exec_railUp vin).2⟩, fun s failed hgood htrained hfailed hdevices => ?_,
    fun s still hgood hfailed => ?_, fun s banks htrained hnew => ⟨_, State.exec_memoryInit [] banks [] htrained hnew, ?_⟩⟩
  · dsimp only
    rw [s.railsUp_power, s.railsUp_log]
    exact ⟨rfl, rfl, rfl, rfl, rfl, rfl⟩
  · refine ⟨_, congrArg Host.Outcome.next (if_pos ⟨hgood, htrained, hfailed, hdevices⟩), ?_⟩
    dsimp only
    rw [(State.wornTiers_only ..).eq .bring rfl]
    refine ⟨rfl, rfl, ?_⟩
    rintro rfl
    rfl
  · refine ⟨_, congrArg Host.Outcome.next (if_pos ⟨hgood, hfailed⟩), ?_⟩
    let left := s.bring.failedDevices.filter still.contains
    let u := s.updBring fun b => { b with trained := left.isEmpty, failedDevices := left, retrains := (s.bring.retrains + 1) % 60 }
    have hleft : left.isEmpty = true ↔ ∀ d ∈ s.bring.failedDevices, d ∉ still := by simp [left, List.isEmpty_iff, List.filter_eq_nil_iff]
    have hbring : (if (s.bring.retrains + 1) % 60 = 0 then u.wornTiers left else u).bring = u.bring := by
      split
      · exact (State.wornTiers_only ..).eq .bring rfl
      · rfl
    change (if _ then u.wornTiers left else u).bring.failedDevices = left ∧ ((if _ then u.wornTiers left else u).bring.trained = true ↔ _) ∧
      (_ → (if _ then u.wornTiers left else u).log = s.log)
    rw [hbring]
    exact ⟨rfl, hleft, fun h => by rw [if_neg h]; rfl⟩
  · have honly := s.memoryZeroed.baseline_only banks
    exact ⟨rfl, congrArg Tiers.tiles (honly.eq .tiers rfl), honly.eq .carrel rfl, honly.eq .carrelPoison rfl, congrArg Reliability.rows (honly.eq .rel rfl),
      honly.eq .spares rfl, (congrArg Reliability.resources (honly.eq .rel rfl) : _ = s.memoryZeroed.rel.resources)⟩

/-! ### Repairs during initialisation -/

/-- A row with no repair resource left in a tier at its floor holds bring-up, and is reported (R351, R470). -/
theorem State.repairRows_holds {s : State} {device bank row loc bytes : Nat} (hdevice : device < 26) (hleft : s.bankLeft device bank = 0)
    (hfloor : s.usable (tierOf device) < usableFloor (tierOf device) + bytes) : s.repairRows [(device, bank, row, loc, bytes)] =
      (s.raise 0x7005 .memory 0 (tierOf device) (s.usable (tierOf device) / mib) 0, true) := by
  have hrow : s.repairRow (device, bank, row, loc, bytes) = s.retireRow device bank row loc bytes := by
    unfold State.repairRow
    dsimp only
    rw [if_neg (by omega), if_pos hleft]
  have hhold : s.mustHold (device, bank, row, loc, bytes) = true := by simp [State.mustHold, hdevice, hleft, hfloor]
  unfold State.repairRows
  rw [List.foldl_cons, List.foldl_nil, hrow, hhold, State.retireRow_floor bank row loc hfloor]
  rfl

/-- A spare tile that fails its self-check is a spare no longer (R470). -/
theorem State.failTile_spare {s : State} {die phys : Nat} (h : (s.spares.getD die []).contains phys = true) : s.failTile die phys =
    { s.add 0x7020 2 1 with spares := s.spares.set die ((s.spares.getD die []).filter (· != phys)) } := if_pos h

/-- An active tile that fails its self-check is replaced by a spare (R62, R470). -/
theorem State.failTile_active {s : State} {die i sp phys : Nat} {rest : List Nat} (hspares : s.spares.getD die [] = sp :: rest)
    (hactive : (s.spares.getD die []).contains phys = false) (hfind : (List.range 64).find? (fun i => (s.unit (64 * die + i)).phys == phys &&
      !(s.unit (64 * die + i)).lost) = some i) : s.failTile die phys =
    (({ s.add 0x7020 2 1 with spares := s.spares.set die rest } : State).updUnit (64 * die + i) fun u => { u with phys := sp }).raise 0x4001 .tile
      (64 * die + i) 1 phys sp := by
  unfold State.failTile
  extract_lets u spares
  have hspares' : spares = sp :: rest := hspares
  have hfind' : (List.range 64).find? (fun i => (u.unit (64 * die + i)).phys == phys && !(u.unit (64 * die + i)).lost) = some i := hfind
  rw [if_neg (show ¬ spares.contains phys = true by rw [show spares.contains phys = false from hactive]; decide)]
  split
  · next h => rw [hfind'] at h; cases h
  · next j h =>
    obtain rfl : i = j := by
      rw [hfind'] at h
      exact Option.some.inj h
    rw [hspares']
    rfl

/-- The first active tile of a die at a physical place (R470). -/
theorem State.find_active {s : State} {die i : Nat} (hi : i < 64) (hlost : (s.unit (64 * die + i)).lost = false)
    (hfirst : ∀ k < i, (s.unit (64 * die + k)).phys ≠ (s.unit (64 * die + i)).phys) : (List.range 64).find? (fun k =>
      (s.unit (64 * die + k)).phys == (s.unit (64 * die + i)).phys && !(s.unit (64 * die + k)).lost) = some i :=
  List.find?_range_eq_some.2 ⟨by simp [hlost], List.mem_range.2 hi, fun k hk => by simp [hfirst k hk]⟩

theorem State.unit_updUnit_self (s : State) {t : Nat} (f : Tile → Tile) (ht : t < s.tileUnits.length) : (s.updUnit t f).unit t = f (s.unit t) := by
  simp [State.unit, State.updUnit, ht]

theorem State.unit_tileUnits {s t : State} (h : t.tileUnits = s.tileUnits) (i : Nat) : t.unit i = s.unit i := by rw [State.unit, State.unit, h]

/-- One tile that fails its self-check, with every row sound (R470). -/
theorem State.exec_memoryInit_tile {s : State} {die phys : Nat} (htrained : s.bring.trained = true) (hnew : s.bring.initialised = false) (hdie : die < 4) :
    exec (.memoryInit [] [] [(die, phys)]) s =
      .next ((s.memoryZeroed.failTile die phys).updBring fun b => { b with initialised := true }) := by
  have htile : s.memoryZeroed.selfChecked [] [(die, phys)] = (s.memoryZeroed.failTile die phys).updBring fun b => { b with initialised := true } := by
    unfold State.selfChecked
    simp only [List.foldl_cons, List.foldl_nil, hdie, if_true]
  rw [State.exec_memoryInit [] [] _ htrained hnew, ← htile]
  rfl

theorem initialisationRepairs : Claims.InitialisationRepairs := by
  refine ⟨fun s device bank row loc bytes htrained hnew hdevice hleft hfloor => ?_, fun s die phys htrained hnew hdie hlen hspare => ?_,
    fun s die i sp rest htrained hnew hdie hi hlen hunits hspares hactive hlost hfirst => ?_⟩
  · have hrow := State.repairRows_holds (s := s.memoryZeroed) (row := row) (loc := loc) hdevice hleft hfloor
    refine ⟨_, State.exec_memoryInit _ [] [] htrained hnew, ?_⟩
    rw [hrow, if_pos rfl]
    exact ⟨(congrArg BringUp.initialised ((State.raise_only ..).eq .bring rfl)).trans hnew, State.raise_raised_of_log rfl⟩
  · refine ⟨_, State.exec_memoryInit_tile htrained hnew hdie, ?_⟩
    rw [State.failTile_spare (s := s.memoryZeroed) hspare]
    refine ⟨rfl, ?_, State.num_add_self s .., rfl⟩
    change (s.spares.set die _).getD die [] = _
    rw [List.getD_eq_getElem _ _ (by simpa [hlen] using hdie), List.getElem_set_self]
    rfl
  · refine ⟨_, State.exec_memoryInit_tile htrained hnew hdie, ?_⟩
    rw [State.failTile_active (s := s.memoryZeroed) hspares hactive (State.find_active (s := s.memoryZeroed) hi hlost hfirst)]
    let v := ({ s.memoryZeroed.add 0x7020 2 1 with spares := s.spares.set die rest } : State)
    let w := v.updUnit (64 * die + i) fun u => { u with phys := sp }
    have honly := w.raise_only 0x4001 .tile (64 * die + i) 1 (s.unit (64 * die + i)).phys sp
    refine ⟨?_, ?_, (State.raise_raised_of_log (u := w) rfl).then_log rfl⟩
    · refine (congrArg Tile.phys (State.unit_tileUnits (honly.eq .tileUnits rfl) (64 * die + i))).trans ?_
      rw [State.unit_updUnit_self v _ (show 64 * die + i < s.tileUnits.length by omega)]
    · refine (congrArg (List.getD · die []) (honly.eq .spares rfl)).trans ?_
      change (s.spares.set die rest).getD die [] = rest
      rw [List.getD_eq_getElem _ _ (by simpa [hlen] using hdie), List.getElem_set_self]

/-! ### Ready -/

/-- A ready module with every packet slot free. -/
def State.slotsFreed (s : State) : State := (s.mapQueues fun _ x => { x with busy := 0 }).updBring fun b => { b with ready := true }

theorem State.busy_slotsFreed (s : State) (q : Nat) : (s.slotsFreed.queue q).busy = 0 :=
  congrArg Queue.busy (s.queue_mapQueues (fun _ x => { x with busy := 0 }) q rfl)

/-- Whether no port is awaited: it has trained, or its window has ended (R469). -/
def State.portsSettled (s : State) : Bool := (List.range 12).all fun p => decide (0 < (s.suesh p).width) || s.bring.windowOver.contains p

theorem State.portsSettled_iff (s : State) : s.portsSettled = true ↔ ∀ p < 12, 0 < (s.suesh p).width ∨ s.bring.windowOver.contains p = true := by
  simp [State.portsSettled]

theorem moduleBecomesReady : Claims.ModuleBecomesReady := by
  intro s ms hphase hgood htrained hinit hnew
  refine ⟨fun hports => ⟨_, congrArg Host.Outcome.next (if_pos ⟨hphase, hgood, htrained, hinit, hnew, s.portsSettled_iff.2 hports⟩), ?_⟩, fun hwait => ?_⟩
  · change (s.slotsFreed.raise 0x1001 .keeper 0 ms s.sec.numericsGen 0).bring.ready = true ∧ Raised s (s.slotsFreed.raise 0x1001 .keeper 0 ms s.sec.numericsGen 0) _ _ _ _ _ _ _ ∧
      ∀ q < 1024, ∀ k < 4, (s.slotsFreed.raise 0x1001 .keeper 0 ms s.sec.numericsGen 0).slotFree q k = true
    have hready : (s.slotsFreed.raise 0x1001 .keeper 0 ms s.sec.numericsGen 0).bring.ready = true :=
      congrArg BringUp.ready ((State.raise_only ..).eq .bring rfl)
    refine ⟨hready, State.raise_raised_of_log rfl, fun q _ k _ => ?_⟩
    unfold State.slotFree
    rw [hready, (State.raise_queuesKept ..).busy, s.busy_slotsFreed]
    simp
  · obtain ⟨p, hp, hdown, hwindow⟩ := hwait
    have hnot : ¬ s.portsSettled = true := fun h => by
      have := s.portsSettled_iff.1 h p hp
      simp [hdown] at this
      simp [this] at hwindow
    exact congrArg Host.Outcome.next (if_neg fun h => hnot h.2.2.2.2.2)

/-- Settles O36: each row of bring-up acts only behind its conditions, and what fails its test is repaired, replaced or holds the module. -/
theorem bringUp : Obligations.BringUp := ⟨railsAndMemory, initialisationRepairs, moduleBecomesReady⟩

end Sys2Proof.Machine
end

section
/-!
Deposits are taken, commit and free the log; the interval is set hourly (R363 to R367).
-/
namespace Sys2Proof.Machine
open Sys2Proof

/-- A job that a change of it leaves in its slot is found changed. -/
theorem State.job?_updJob_of {s : State} {slot : Nat} {j : Job} (hj : s.job? slot = some j) (f : Job → Job) (hf : ∀ j, (f j).slot = j.slot) :
    (s.updJob slot f).job? slot = some (f j) := by
  rw [State.job?_updJob_self s slot f hf, hj]
  rfl

/-! ### Taking -/

theorem Sends.jobs {s t : State} (h : Sends s t) : t.jobs = s.jobs := h.only.eq .jobs rfl

/-- Taking a Deposit changes the job's own record of it; sending it to the buddy changes no job (R364, R365). -/
theorem State.job?_startDeposit {s : State} {slot : Nat} {j : Job} (now : Nat) (hj : s.job? slot = some j) :
    (s.startDeposit slot now).job? slot = some { j with taking := some (s.depositOf j), takingAt := now, early := false } := by
  let u : State := { s with draws := s.draws + 1 }
  let v := u.updJob slot fun k => { k with taking := some (s.depositOf j), takingAt := now, early := false }
  have hv : v.job? slot = some { j with taking := some (s.depositOf j), takingAt := now, early := false } :=
    State.job?_updJob_of (s := u) hj (fun k => { k with taking := some (s.depositOf j), takingAt := now, early := false }) fun _ => rfl
  have hsends : Sends v (s.startDeposit slot now) := by
    unfold State.startDeposit
    rw [hj]
    dsimp only
    split
    · exact Sends.foldl _ _ _ fun t m => t.send_sends ..
    · exact .refl _
  rw [State.job?_jobs hsends.jobs, hv]

section
variable {s : State} {slot now : Nat} {j : Job} (hj : s.job? slot = some j) (hdue : j.early = true ∨ (s.num 0x7120 1 ≠ 2 ∧ j.depositAt + j.interval ≤ now))
  (hboundary : j.atBoundary = true) (hidle : j.taking = none) (hfenced : j.fenced = false) (hfilling : j.filling = false) (hrunning : j.state = .running)
include hj hdue hboundary hidle hfenced hfilling hrunning

/-- A Deposit that is due is taken, or put off where the buddy has no room (R363, R367). -/
theorem exec_depositStart : exec (.depositStart slot now) s = .next (
    if s.num 0x7130 1 ≠ 0xFFFF ∧ s.num 0x7100 1 * gib < (s.depositOf j).imageBytes then
      (s.updJob slot fun j => { j with early := false, depositAt := now }).raiseJob 0x7108 slot 0 ((s.depositOf j).imageBytes % 2 ^ 32)
        ((s.depositOf j).imageBytes / 2 ^ 32) 0
    else s.startDeposit slot now) := by
  have hmay : ((j.early || (s.num 0x7120 1 != 2 && decide (j.depositAt + j.interval ≤ now))) && j.atBoundary && j.taking.isNone && !j.fenced && !j.filling &&
      j.state == .running) = true := by
    have hwhen : (j.early || (s.num 0x7120 1 != 2 && decide (j.depositAt + j.interval ≤ now))) = true := by simpa using hdue
    simp [hwhen, hboundary, hidle, hfenced, hfilling, hrunning]
  change execDepositStart slot now s = _
  unfold execDepositStart
  rw [hj]
  exact congrArg Host.Outcome.next (if_pos hmay)

end

/-! ### Commit -/

/-- Whether two jobs are one but for a wish for an early Deposit (R363). -/
def Job.calm (j : Job) : Job := { j with early := false }

theorem State.earlyDeposits_jobs (s : State) : s.earlyDeposits.jobs.map Job.calm = s.jobs.map Job.calm := by
  unfold State.earlyDeposits
  extract_lets held all
  split
  · simp only [List.map_map]
    refine List.map_congr_left fun j _ => ?_
    simp only [Function.comp_apply]
    split <;> rfl
  · rfl

theorem State.job?_calm (s : State) (slot : Nat) : (s.job? slot).map Job.calm = (s.jobs.map Job.calm).find? fun j => j.slot == slot := by
  rw [List.find?_map]
  rfl

/-- A job stands where early Deposits have been asked for as it did, but for that wish. -/
theorem State.job?_earlyDeposits {s : State} {slot : Nat} {j : Job} (h : s.job? slot = some j) : ∃ k, s.earlyDeposits.job? slot = some k ∧ k.calm = j.calm := by
  have hcalm : (s.earlyDeposits.job? slot).map Job.calm = some j.calm := by rw [State.job?_calm, State.earlyDeposits_jobs, ← State.job?_calm, h]; rfl
  exact Option.map_eq_some_iff.1 hcalm

/-- A job whose Deposit has committed (R364, R365). -/
def Job.deposited (j : Job) (d : Deposit) (now : Nat) : Job :=
  { j with deposit := some { d with committed := true }, taking := none, depositAt := now, full := false,
           costs := (j.costs ++ [now - j.takingAt]).drop (j.costs.length - 7), log := j.keptLog d }

theorem Job.num_setNum_self (j : Job) (i k n : Nat) : (j.setNum i k n).num i k = n := by
  simp [Job.num, Job.setNum, Job.entry, Job.setEntry, DVal.toNat]

/-- The job once its Deposit commits, before early Deposits are asked for: its own record and the step it notes (R364, R365). -/
def State.depositNoted (s : State) (slot now : Nat) (d : Deposit) : State :=
  let u := s.updJob slot fun j => j.deposited d now
  let v := match u.job? slot with | some j => u.setNum 0x7120 3 (round32 (.fin false (j.depositCost).1 (j.depositCost).2 0)) | none => u
  v.updJob slot fun j => j.setNum 0x7100 6 (d.step.getD 0)

theorem State.job?_depositNoted {s : State} {slot now : Nat} {j : Job} (d : Deposit) (hj : s.job? slot = some j) :
    (s.depositNoted slot now d).job? slot = some ((j.deposited d now).setNum 0x7100 6 (d.step.getD 0)) := by
  have hu : (s.updJob slot fun j => j.deposited d now).job? slot = some (j.deposited d now) :=
    State.job?_updJob_of hj (fun j => j.deposited d now) fun _ => rfl
  unfold State.depositNoted
  dsimp only
  rw [hu]
  exact State.job?_updJob_of (s := (s.updJob slot fun j => j.deposited d now).setNum 0x7120 3 _) hu (fun j => j.setNum 0x7100 6 (d.step.getD 0)) fun _ => rfl

/-- With nothing of it on its way, a Deposit commits: the job notes it, peers are told, and early Deposits are asked for (R364, R365). -/
theorem exec_depositCommit {s : State} {slot : Nat} {j : Job} {d : Deposit} (now : Nat) (hj : s.job? slot = some j) (hd : j.taking = some d)
    (hout : ∀ w ∈ s.fabric.outbox, w.kind ≠ .deposit) (hstore : ∀ a ∈ s.fabric.assocs, ∀ x ∈ a.store, x.kind ≠ .deposit) :
    ∃ t, Sends (s.depositNoted slot now d) t ∧ exec (.depositCommit slot now) s = .next t.earlyDeposits := by
  let waiting (b : List Byte) : Bool := (recHead b).jobKey == j.key && (recHead b).depositId == d.id && (recHead b).subject == s.fabric.position
  have hclear : ((s.fabric.outbox.any fun w => w.kind == .deposit && waiting w.bytes) ||
      s.fabric.assocs.any fun a => a.store.any fun x => x.kind == .deposit && waiting x.body) = false := by
    rw [Bool.or_eq_false_iff, List.any_eq_false, List.any_eq_false]
    refine ⟨fun w hw => by simp [hout w hw], fun a ha => ?_⟩
    rw [Bool.not_eq_true, List.any_eq_false]
    exact fun x hx => by simp [hstore a ha x hx]
  have hexec : exec (.depositCommit slot now) s = .next (
      let u := s.depositNoted slot now d
      let told : List Byte := ({ jobKey := j.key, offset := 0, depositId := d.id, step := d.step.getD 0, subject := u.fabric.position, last := true, op := 0,
                                 count := 0 } : RecHead).bytes
      let v := if d.step.isSome then (u.others j).foldl (fun s p => s.send p .deposit told) u else u
      v.earlyDeposits) := by
    change execDepositCommit slot now s = _
    unfold execDepositCommit
    rw [hj]
    dsimp only
    rw [hd]
    exact congrArg Host.Outcome.next (if_neg (Bool.not_eq_true _ ▸ hclear))
  refine ⟨_, ?_, hexec⟩
  split
  · exact Sends.foldl _ _ _ fun t p => t.send_sends ..
  · exact .refl _
/-! ### The interval -/

theorem State.setIntervals_num {s : State} {k : Nat} (hk : k ≠ 7) : s.setIntervals.num 0x7120 k = s.num 0x7120 k := by
  unfold State.setIntervals
  dsimp only
  split
  · exact State.num_setNum_other _ _ _ _ _ _ (by unfold entryKey; omega)
  · rfl

/-- The interval that the mode gives a job (R367). -/
def State.intervalOf (s : State) (j : Job) : Nat := match s.num 0x7120 1 with | 0 => s.adaptive j | 1 => s.num 0x7120 5 | _ => j.interval

theorem State.setIntervals_jobs (s : State) : s.setIntervals.jobs = s.jobs.map fun j => { j with interval := s.intervalOf j } := by
  unfold State.setIntervals
  extract_lets t l
  split
  · rfl
  · next h =>
    have hnil : l = [] := List.head?_eq_none_iff.1 h
    have hjobs : s.jobs = [] := List.map_eq_nil_iff.1 hnil
    rw [hjobs]
    rfl

/-- The adaptive interval lies between the bounds written (R367). -/
theorem State.adaptive_bounds {s : State} (j : Job) (h : s.num 0x7120 5 ≤ s.num 0x7120 6) : s.num 0x7120 5 ≤ s.adaptive j ∧ s.adaptive j ≤ s.num 0x7120 6 := by
  unfold State.adaptive
  dsimp only
  split
  · split <;> omega
  · exact ⟨h, le_refl _⟩

theorem depositIntervals (s : State) : Runs .depositIntervalEval s fun t => Added s t 0x7120 8 1 ∧ t.jobs.map (·.body) = s.jobs.map (·.body) ∧
    (s.num 0x7120 1 = 1 → ∀ j ∈ t.jobs, j.interval = s.num 0x7120 5) ∧ (s.num 0x7120 1 = 0 → s.num 0x7120 5 ≤ s.num 0x7120 6 → ∀ j ∈ t.jobs,
      s.num 0x7120 5 ≤ j.interval ∧ j.interval ≤ s.num 0x7120 6) := by
  refine ⟨_, rfl, ?_⟩
  let u := s.add 0x7120 8 1
  have hjobs : u.setIntervals.jobs = s.jobs.map fun j => { j with interval := u.intervalOf j } := u.setIntervals_jobs
  have hnum : u.setIntervals.num 0x7120 8 = (s.num 0x7120 8 + 1) % 2 ^ (8 * ((findEntry 0x7120 8).map (·.width)).getD 8) :=
    (State.setIntervals_num (by decide)).trans (State.num_add_self s ..)
  have hkept {k : Nat} (hk : k ≠ 8) : u.num 0x7120 k = s.num 0x7120 k := State.num_add_other _ _ _ _ _ _ (by unfold entryKey; omega)
  have hgoal : ∀ t : State, t.jobs = u.setIntervals.jobs → t.num 0x7120 8 = u.setIntervals.num 0x7120 8 → Added s t 0x7120 8 1 ∧
      t.jobs.map (·.body) = s.jobs.map (·.body) ∧ (s.num 0x7120 1 = 1 → ∀ j ∈ t.jobs, j.interval = s.num 0x7120 5) ∧
      (s.num 0x7120 1 = 0 → s.num 0x7120 5 ≤ s.num 0x7120 6 → ∀ j ∈ t.jobs, s.num 0x7120 5 ≤ j.interval ∧ j.interval ≤ s.num 0x7120 6) := by
    intro t ht hn
    rw [ht, hjobs]
    refine ⟨hn.trans hnum, by rw [List.map_map]; rfl, fun hmode j hj => ?_, fun hmode hbounds j hj => ?_⟩
    · obtain ⟨k, -, rfl⟩ := List.mem_map.1 hj
      simp [State.intervalOf, hkept, hmode]
    · obtain ⟨k, -, rfl⟩ := List.mem_map.1 hj
      have hb := State.adaptive_bounds (s := u) k (by rw [hkept (by decide), hkept (by decide)]; exact hbounds)
      rw [hkept (by decide), hkept (by decide)] at hb
      simpa [State.intervalOf, hkept, hmode] using hb
  dsimp only
  split
  · exact hgoal _ ((State.raise_only ..).eq .jobs rfl) (State.num_raise_of_ne _ _ _ _ _ _ _ _ _ (by decide) (by decide))
  · exact hgoal _ rfl rfl

/-- Settles O38: what a Deposit's commit sends and asks for leaves every job's record of it. -/
theorem depositsAreTaken : Obligations.DepositsAreTaken := by
  refine ⟨fun s slot now j hj hdue hboundary hidle hfenced hfilling hrunning => ⟨fun hroom => ?_, fun hlarge => ?_⟩, fun s slot now j d hj hd hout hstore => ?_,
    depositIntervals⟩
  · refine ⟨_, exec_depositStart hj hdue hboundary hidle hfenced hfilling hrunning, ?_⟩
    rw [if_neg hroom]
    exact ⟨{ j with taking := some (s.depositOf j), takingAt := now, early := false }, State.job?_startDeposit now hj, rfl, rfl, rfl, rfl, rfl⟩
  · refine ⟨_, exec_depositStart hj hdue hboundary hidle hfenced hfilling hrunning, ?_⟩
    rw [if_pos hlarge]
    let u := s.updJob slot fun j => { j with early := false, depositAt := now }
    have hu : u.job? slot = some { j with early := false, depositAt := now } := State.job?_updJob_of hj (fun j => { j with early := false, depositAt := now }) fun _ => rfl
    have ht (code step a b c : Nat) : (u.raiseJob code slot step a b c).job? slot = some { j with early := false, depositAt := now } :=
      (State.job?_jobs ((State.raiseJob_only u ..).eq .jobs rfl) slot).trans hu
    exact ⟨⟨{ j with early := false, depositAt := now }, ht .., hidle, rfl, rfl⟩, State.raiseJob_raised_of_log rfl⟩
  · obtain ⟨t, hsends, hexec⟩ := exec_depositCommit now hj hd hout hstore
    refine ⟨_, hexec, ?_⟩
    obtain ⟨k, hk, hcalm⟩ := State.job?_earlyDeposits ((State.job?_jobs hsends.jobs slot).trans (State.job?_depositNoted (now := now) d hj))
    have hkept {α : Type} (f : Job → α) (hf : ∀ j, f j.calm = f j) : f k = f ((j.deposited d now).setNum 0x7100 6 (d.step.getD 0)) := by
      rw [← hf k, hcalm, hf]
    exact ⟨k, hk, hkept Job.deposit fun _ => rfl, hkept Job.taking fun _ => rfl, hkept Job.depositAt fun _ => rfl, hkept Job.full fun _ => rfl,
      hkept Job.log fun _ => rfl, (hkept (Job.num · 0x7100 6) fun _ => rfl).trans (Job.num_setNum_self ..)⟩

end Sys2Proof.Machine
end

section
/-!
Liveness messages where a position answers for another (R331, R368): two obligations of one operation and subject toward one holder merge while they wait.
-/
namespace Sys2Proof.Machine
open Sys2Proof

/-! ### A module whose peer answers for another -/

/-- A live association that has not been heard of lately. -/
def silentAssoc (peer : Nat) : Assoc :=
  { peer := peer, identity := peer, live := true, txKey := 0, rxKey := 0, phase := false, rxPhase := false, oldTxKey := 0, oldRx := none, txSeq := 1, store := [],
    rxLow := 1, rxAbove := [], ackOwed := 0, fails := [], reported := none, sentGranules := 0, freedByPeer := 0, quota := 0, freedHere := 0, landing := [],
    heard := false, queried := false, delivered := 0, depositStep := 0 }

/-- A job's body that has come to step 5. -/
def bodyAtFive : JobBody :=
  { graphs := [], features := [], tables := [], shelf := [], shelfSet := [], suggestions := [], params := [], held := [], calls := [], nextCall := 0,
    watches := [], results := [], dict := [], rowWrites := [], freezes := [], health := [], counters := [], nextStep := 6, lastDone := some 5 }

/-- A job that position 1 shares, with step 5 done. -/
def sharedJob : Job :=
  { slot := 0, key := 7, tenant := [], holder := none, state := .running, queues := [0], eventQueue := 0, positions := [0x0F00, 1], fenced := false,
    accepted := 1, programs := [], setId := 0, tensors := [], layers := [], pipeline := none, stages := [], branches := [], resultTensors := [], body := bodyAtFive,
    log := [], logEnd := 0, steps := [], signals := [], deferred := [], retained := [], owed := [], deposit := none, taking := none, depositAt := 0,
    takingAt := 0, costs := [], early := false, full := false, nextChunk := 0, fragments := [], exported := none, shelfCap := 0, interval := 1 }

/-- Positions 1, 2 and 3 are associated, 1 answers for 2 as well, no port is up, and a job is shared with 1 alone. -/
def peerForTwo : State :=
  { State.reset with
    jobs := [sharedJob]
    fabric := { State.reset.fabric with assocs := [silentAssoc 1, silentAssoc 2, silentAssoc 3], holders := [(2, 1)] } }

/-- The query sent to position 2 goes to position 1 and merges with the one sent there, whose last step delivered it does not report. -/
theorem peerForTwo_merges : ∃ t, exec (.livenessTimeout 3) peerForTwo = .next t ∧ t.assoc? 1 = some (silentAssoc 1) ∧
    t.fabric.outbox = [{ dst := 1, kind := .liveness, bytes := peerForTwo.livenessTo 2 2 0 3 }] := by
  refine ⟨_, rfl, ?_, ?_⟩
  · rfl
  · rfl

theorem peerForTwo_differ : peerForTwo.livenessTo 2 2 0 3 ≠ peerForTwo.livenessTo 1 2 0 3 := by decide

/-- Refutes O39: in `LivenessMessages`, position 1 answers for itself and for position 2, both are asked about position 3, and the two queries wait; as
obligations of one operation and subject toward one holder they merge (R331), so the query that carries the last step delivered from 1 is on its way no longer. -/
theorem not_positionsFail : ¬ Obligations.PositionsFail := by
  unfold Obligations.PositionsFail Claims.LivenessMessages
  rintro ⟨⟨-, -, htimeout⟩, -⟩
  obtain ⟨t, ht, hassoc, houtbox⟩ := peerForTwo_merges
  obtain ⟨u, hu, -, hasked⟩ := (htimeout peerForTwo 3 (silentAssoc 3) rfl).2 rfl
  obtain rfl : t = u := Host.Outcome.next.inj (ht.symm.trans hu)
  obtain ⟨a, ha, x, hx, -⟩ | ⟨w, hw, -, -, hbytes⟩ := hasked (silentAssoc 1) (List.mem_cons_self ..) rfl (by decide) rfl
  · obtain rfl : silentAssoc 1 = a := Option.some.inj (hassoc.symm.trans ha)
    cases hx
  · rw [houtbox, List.mem_singleton] at hw
    subst hw
    exact peerForTwo_differ hbytes

end Sys2Proof.Machine
end

section
/-!
Moves between tiers, and the space a wait stalls for (R256, R263 to R266, R306).
-/
namespace Sys2Proof.Machine
open Sys2Proof

/-! ### Stored tiles -/

theorem State.tile?_tiles {s t : State} (h : t.tiers.tiles = s.tiers.tiles) (k : TileKey) : t.tile? k = s.tile? k := by rw [State.tile?, State.tile?, h]

/-- A change of tiles that leaves their keys changes the tile found of a key. -/
theorem State.tile?_map (s : State) (f : StoredTile → StoredTile) (hf : ∀ t, (f t).key = t.key) (k : TileKey) :
    (s.updTiles fun l => l.map f).tile? k = (s.tile? k).map f := by
  unfold State.tile? State.updTiles
  dsimp only
  rw [List.find?_map]
  congr 2
  funext t
  simp [hf]

theorem State.tile?_updTile_self {s : State} {k : TileKey} {x : StoredTile} (hx : s.tile? k = some x) (f : StoredTile → StoredTile) (hf : ∀ t, (f t).key = t.key) :
    (s.updTile k f).tile? k = some (f x) := by
  have hkey := State.key_of_tile? hx
  unfold State.updTile
  rw [State.tile?_map, hx]
  · simp [hkey]
  · intro t
    split
    · exact hf t
    · rfl

theorem State.tile?_updTile_other (s : State) {k l : TileKey} (f : StoredTile → StoredTile) (hf : ∀ t, (f t).key = t.key) (h : l ≠ k) :
    (s.updTile k f).tile? l = s.tile? l := by
  unfold State.updTile
  rw [State.tile?_map]
  · cases hx : s.tile? l with
    | none => rfl
    | some x =>
      have hkey := State.key_of_tile? hx
      simp [hkey, h]
  · intro t
    split
    · exact hf t
    · rfl

theorem aGet_none_of_not_mem {κ α : Type} [DecidableEq κ] {l : List (κ × α)} {k : κ} (h : k ∉ l.map (·.1)) : aGet l k = none := by
  induction l with
  | nil => rfl
  | cons p l ih =>
    obtain ⟨x, v⟩ := p
    have hne : x ≠ k := fun hx => h (by simp [hx])
    simpa [aGet, hne] using ih fun hk => h (List.mem_cons_of_mem _ hk)

/-! ### Halted descriptors of moves that end (R306) -/

/-- What ending descriptors does at one channel. -/
def State.endOn (st : ChanState → Bool) (f : DmaDesc → Bool) (s : State) (c : Nat) : State :=
  let x := s.chan c
  if st x.state then
    let s := s.setChan c { x with posted := x.posted.filter fun p => !f p.1 }
    match x.current with
    | some (d, _) => if f d then (s.chanEnd c).abortOutcome c d else s
    | none => s
  else s

theorem State.endDma_eq (s : State) (st : ChanState → Bool) (f : DmaDesc → Bool) : s.endDma st f = (s.dma.map (·.1)).foldl (State.endOn st f) s := rfl

/-- An aborted move unmarks the tiles that its granule belongs to (R305). -/
def unmarked (owner : Nat) (t : StoredTile) : StoredTile := if t.devGranule % 2 ^ 32 = owner then { t with evicting := false, promoting := false } else t

theorem State.abortOutcome_move {s : State} {c : Nat} {d : DmaDesc} (h : d.func = 3) : s.abortOutcome c d = s.updTiles fun l => l.map (unmarked d.owner) := by
  unfold State.abortOutcome
  rw [h]
  rfl

theorem Channel.afterEnd_halted (x : Channel) (c : Nat) : (x.afterEnd c).state = .halted ↔ x.state = .halted := by
  unfold Channel.afterEnd
  dsimp only
  by_cases h : x.state = .halted ∨ x.state = .acting
  · rw [if_pos h]
  · rw [if_neg h]
    exact ⟨fun g => absurd g (Channel.settle_state _).1, fun g => absurd (.inl g) h⟩

theorem Channel.afterEnd_current {x : Channel} (h : x.state = .halted) (c : Nat) : (x.afterEnd c).current = x.current.map (firedAfter c) := by
  unfold Channel.afterEnd
  dsimp only
  rw [if_pos (.inl h)]

section
variable {f : DmaDesc → Bool} (hf : ∀ d, f d = true → d.func = 3)
include hf

/-- The outcomes at a channel: it is left, its posted descriptors are thinned, or its descriptor ends. -/
theorem State.endOn_cases (s : State) (c : Nat) :
    ((s.chan c).state ≠ .halted ∧ State.endOn (fun st => st == .halted) f s c = s) ∨
      (s.chan c).state = .halted ∧
        (((∀ d r, (s.chan c).current = some (d, r) → f d = false) ∧
            State.endOn (fun st => st == .halted) f s c = s.setChan c { s.chan c with posted := (s.chan c).posted.filter fun p => !f p.1 }) ∨
          ∃ d, f d = true ∧ State.endOn (fun st => st == .halted) f s c =
            ((s.setChan c { s.chan c with posted := (s.chan c).posted.filter fun p => !f p.1 }).chanEnd c).updTiles fun l => l.map (unmarked d.owner)) := by
  unfold State.endOn
  dsimp only
  by_cases hst : (s.chan c).state = .halted
  · right
    refine ⟨hst, ?_⟩
    rw [if_pos (by simp [hst])]
    split
    · next d r hcur =>
      by_cases hd : f d = true
      · exact .inr ⟨d, hd, (if_pos hd).trans (State.abortOutcome_move (hf d hd))⟩
      · refine .inl ⟨fun e r' h => ?_, if_neg hd⟩
        obtain ⟨rfl, rfl⟩ : d = e ∧ r = r' := by simpa [hcur] using h
        simpa using hd
    · next hcur => exact .inl ⟨fun _ _ h => (by rw [hcur] at h; cases h), rfl⟩
  · exact .inl ⟨hst, by simp [hst]⟩

/-- A channel that is not halted is not halted once descriptors of halted channels have ended. -/
theorem State.endOn_running {s : State} {k : Nat} (c : Nat) (h : (s.chan k).state ≠ .halted) : ((State.endOn (fun st => st == .halted) f s c).chan k).state ≠ .halted := by
  obtain ⟨-, heq⟩ | ⟨hst, ⟨-, heq⟩ | ⟨d, -, heq⟩⟩ := State.endOn_cases hf s c
  · rwa [heq]
  · have hk : k ≠ c := fun hc => h (hc ▸ hst)
    rwa [heq, State.chan_setChan_other _ _ hk]
  · have hk : k ≠ c := fun hc => h (hc ▸ hst)
    rw [heq]
    change (((s.setChan c _).chanEnd c).chan k).state ≠ .halted
    rw [State.chan_chanEnd_other _ hk, State.chan_setChan_other _ _ hk]
    exact fun hh => h ((Channel.afterEnd_halted ..).1 hh)

/-- A descriptor of a halted channel that is to end stays until its channel's turn. -/
theorem State.endOn_waits {s : State} {c k : Nat} (hk : k ≠ c) {d : DmaDesc} {r : Bool} (hst : (s.chan k).state = .halted) (hcur : (s.chan k).current = some (d, r)) :
    ((State.endOn (fun st => st == .halted) f s c).chan k).state = .halted ∧
      ∃ r, ((State.endOn (fun st => st == .halted) f s c).chan k).current = some (d, r) := by
  obtain ⟨-, heq⟩ | ⟨-, ⟨-, heq⟩ | ⟨e, -, heq⟩⟩ := State.endOn_cases hf s c
  · rw [heq]
    exact ⟨hst, r, hcur⟩
  · rw [heq, State.chan_setChan_other _ _ hk]
    exact ⟨hst, r, hcur⟩
  · rw [heq]
    change (((s.setChan c _).chanEnd c).chan k).state = .halted ∧ ∃ r, (((s.setChan c _).chanEnd c).chan k).current = some (d, r)
    rw [State.chan_chanEnd_other _ hk, State.chan_setChan_other _ _ hk, Channel.afterEnd_halted, Channel.afterEnd_current hst, hcur]
    exact ⟨hst, _, rfl⟩

theorem State.endOn_ends {s : State} {c : Nat} {d : DmaDesc} {r : Bool} (hst : (s.chan c).state = .halted) (hcur : (s.chan c).current = some (d, r))
    (hd : f d = true) : ((State.endOn (fun st => st == .halted) f s c).chan c).state ≠ .halted := by
  obtain ⟨hrun, -⟩ | ⟨-, ⟨hnone, -⟩ | ⟨e, -, heq⟩⟩ := State.endOn_cases hf s c
  · exact absurd hst hrun
  · rw [hnone d r hcur] at hd
    cases hd
  · rw [heq]
    change (((s.setChan c _).chanEnd c).chan c).state ≠ .halted
    rw [State.chan_chanEnd_self]
    exact (Channel.settle_state _).1

theorem State.endOns_end (l : List Nat) {s : State} {c : Nat} {d : DmaDesc} {r : Bool} (hc : c ∈ l) (hst : (s.chan c).state = .halted)
    (hcur : (s.chan c).current = some (d, r)) (hd : f d = true) : ((l.foldl (State.endOn (fun st => st == .halted) f) s).chan c).state ≠ .halted := by
  have hkept (l : List Nat) : ∀ s : State, (s.chan c).state ≠ .halted → ((l.foldl (State.endOn (fun st => st == .halted) f) s).chan c).state ≠ .halted := by
    induction l with
    | nil => exact fun s h => h
    | cons e l ih => exact fun s h => ih _ (State.endOn_running hf e h)
  induction l generalizing s r with
  | nil => cases hc
  | cons e l ih =>
    rw [List.foldl_cons]
    by_cases he : c = e
    · subst he
      exact hkept l _ (State.endOn_ends hf hst hcur hd)
    · obtain ⟨hst', r', hcur'⟩ := State.endOn_waits hf he hst hcur
      exact ih ((List.mem_cons.1 hc).resolve_left he) hst' hcur'

/-- No halted channel keeps a descriptor of a move that is to end (R306). -/
theorem State.endDma_ends {s : State} {c : Nat} {d : DmaDesc} {r : Bool} (hst : (s.chan c).state = .halted) (hcur : (s.chan c).current = some (d, r))
    (hd : f d = true) : ((s.endDma (fun st => st == .halted) f).chan c).state ≠ .halted := by
  rw [State.endDma_eq]
  refine State.endOns_end hf _ ?_ hst hcur hd
  by_contra hc
  have hnone : aGet s.dma c = none := aGet_none_of_not_mem hc
  have hdefault : s.chan c = {} := by rw [State.chan, aGetD, hnone]; rfl
  rw [hdefault] at hst
  cases hst

/-- A tile that no move is under way of stays as it is. -/
theorem State.tile?_endDma {s : State} {k : TileKey} {x : StoredTile} (hx : s.tile? k = some x) (hevict : x.evicting = false) (hpromote : x.promoting = false) :
    (s.endDma (fun st => st == .halted) f).tile? k = some x := by
  have hstay (owner : Nat) : unmarked owner x = x := by
    unfold unmarked
    split
    · exact congrArg₂ (fun a b => { x with evicting := a, promoting := b }) hevict.symm hpromote.symm
    · rfl
  rw [State.endDma_eq]
  refine List.foldlRecOn (motive := fun t : State => t.tile? k = some x) _ _ hx fun t ht c _ => ?_
  obtain ⟨-, heq⟩ | ⟨-, ⟨-, heq⟩ | ⟨d, -, heq⟩⟩ := State.endOn_cases hf t c
  · rwa [heq]
  · rw [heq]
    exact ht
  · rw [heq, State.tile?_map _ _ fun t => by unfold unmarked; split <;> rfl]
    rw [show ((t.setChan c _).chanEnd c).tile? k = some x from ht]
    exact congrArg some (hstay _)

end

/-! ### Promotion -/

/-- The promotion of the one tile that a trigger names, and what is forgotten of it (R263). -/
theorem State.exec_promotion {s : State} {kind group step : Nat} {k : TileKey} {x : StoredTile} (die : Nat) (htrig : s.triggered kind group step k = [x]) :
    exec (.promotion kind die group step k) s = .next (
      let t := s.promote (die % 4) k.slot x
      if kind = 2 then { t with tiers := { t.tiers with farReads := t.tiers.farReads.filter fun r => r != k } } else t) := by
  change execPromotion kind die group step k s = _
  unfold execPromotion
  rw [htrig]
  rfl

/-- Forgetting a far read changes nothing but the tiers' record of them. -/
theorem State.farReads_kept (t : State) (kind : Nat) (k : TileKey) :
    let u := if kind = 2 then { t with tiers := { t.tiers with farReads := t.tiers.farReads.filter fun r => r != k } } else t
    Only [.tiers] t u ∧ u.tiers.tiles = t.tiers.tiles := by
  split
  · exact ⟨(Only.refl [.tiers] t).upd, rfl⟩
  · exact ⟨Only.refl .., rfl⟩

theorem State.poolUsed_of {s t : State} (htiles : t.tiers.tiles = s.tiers.tiles) (hjobs : t.jobs = s.jobs) : t.poolUsed = s.poolUsed := by
  simp only [State.poolUsed, State.tileBytes, State.ledgerBytes, htiles, hjobs]

/-- Bytes of a pool's tiles once a tile that alone bears its key has come to count in it. -/
theorem State.tileBytes_updTile {s : State} {k : TileKey} {x : StoredTile} {p : StoredTile → Bool} {f : StoredTile → StoredTile}
    (hone : (s.tiers.tiles.filter fun y => y.key == k) = [x]) (hnot : p x = false) (hnow : p (f x) = true) (himage : (f x).image = x.image) :
    (s.updTile k f).tileBytes p = s.tileBytes p + x.image.length := by
  unfold State.tileBytes State.updTile State.updTiles
  dsimp only
  rw [sum_eq, sum_eq]
  generalize s.tiers.tiles = l at hone
  induction l with
  | nil => cases hone
  | cons y l ih =>
    by_cases hy : y.key = k
    · obtain ⟨rfl, hrest⟩ : y = x ∧ l.filter (fun y => y.key == k) = [] := by simpa [hy] using hone
      have hsame : (l.map fun t => if t.key = k then f t else t) = l := by
        refine (List.map_congr_left fun t ht => if_neg fun hk => ?_).trans (List.map_id l)
        simpa [hk] using List.filter_eq_nil_iff.1 hrest t ht
      simp [hy, hsame, hnot, hnow, himage, Nat.add_comm]
    · have hone' : l.filter (fun y => y.key == k) = [x] := by simpa [hy] using hone
      have ih' := ih hone'
      by_cases hp : p y = true
      · simp only [List.map_cons, hy, if_false, List.filter_cons_of_pos hp, List.sum_cons, ih']
        omega
      · simpa only [List.map_cons, hy, if_false, List.filter_cons_of_neg hp] using ih'

/-- A tile on its way out that is to be promoted stays, its age zero, and the halted descriptor that moved it ends (R264, R306). -/
theorem State.promote_stays {s : State} {x : StoredTile} (hx : s.tile? x.key = some x) (die slot : Nat) (htier : x.tier = .near) (hevict : x.evicting = true)
    (hpromote : x.promoting = false) : let t := s.promote die slot x
    Added s t 0x3110 6 1 ∧ t.tile? x.key = some { x with evicting := false, lastStep := s.highest x.key.slot, charge := slot } ∧
      ∀ c d r, (s.chan c).state = .halted → (s.chan c).current = some (d, r) → d.func = 3 → d.srcKind = 0 → d.owner = x.devGranule % 2 ^ 32 →
        (t.chan c).state ≠ .halted := by
  let moves (d : DmaDesc) : Bool := d.func == 3 && d.owner == x.devGranule % 2 ^ 32 && d.srcKind == 0
  have hmoves : ∀ d, moves d = true → d.func = 3 := fun d hd => by
    simp only [moves, Bool.and_eq_true, beq_iff_eq] at hd
    exact hd.1.1
  let u := (s.updTile x.key fun u => { u with evicting := false, lastStep := s.highest x.key.slot, charge := slot }).add 0x3110 6 1
  have hu : u.tile? x.key = some { x with evicting := false, lastStep := s.highest x.key.slot, charge := slot } :=
    State.tile?_updTile_self hx (fun u => { u with evicting := false, lastStep := s.highest x.key.slot, charge := slot }) fun _ => rfl
  have hpromotes : s.promote die slot x = u.endDma (fun st => st == .halted) moves := by
    have hdrop : s.dropEviction x slot = u.endDma (fun st => st == .halted) moves := by
      unfold State.dropEviction
      dsimp only
      exact if_pos hevict
    exact (if_pos (by simp [htier, hevict])).trans hdrop
  dsimp only
  rw [hpromotes]
  refine ⟨?_, State.tile?_endDma hmoves hu rfl hpromote, fun c d r hst hcur hfunc hsrc howner => ?_⟩
  · exact (State.num_dict ((State.endDma_only u _ moves).eq .dict rfl) ..).trans (State.num_add_self (s.updTile _ _) ..)
  · exact State.endDma_ends hmoves (s := u) hst hcur (by simp [moves, hfunc, hsrc, howner])

/-- A far tile that is to be promoted counts in the pool where there is room for it (R263, R264). -/
theorem State.promote_moves {s : State} {x : StoredTile} (die slot : Nat) (htier : x.tier = .far) (hpromote : x.promoting = false)
    (hroom : s.underHigh x.image.length = true ∨ (s.tiers.pass = true ∧ s.poolUsed + x.image.length ≤ s.poolCapacity)) :
    s.promote die slot x = s.updTile x.key fun t => { t with promoting := true, pair := die, charge := slot } := by
  unfold State.promote
  rw [if_neg (by simp [htier]), if_pos]
  simpa [htier, hpromote] using hroom

theorem State.promote_waits {s : State} {x : StoredTile} (die slot : Nat) (htier : x.tier = .far)
    (hfull : s.underHigh x.image.length = false) (hlow : s.tiers.pass = false ∨ s.poolCapacity < s.poolUsed + x.image.length) : s.promote die slot x = s := by
  unfold State.promote
  rw [if_neg (by simp [htier]), if_neg]
  simp only [hfull, Bool.false_or, Bool.and_eq_true, decide_eq_true_eq, not_and]
  obtain h | h := hlow
  · simp [h]
  · exact fun _ _ => by omega

/-! ### Moves that are complete -/

theorem State.runDeferreds_none {s : State} {slot : Nat} (h : ∀ j, s.job? slot = some j → j.deferred = []) : s.runDeferreds slot = s := by
  unfold State.runDeferreds
  cases hj : s.job? slot with
  | none => rfl
  | some j => rw [Option.map_some, h j hj]; rfl

theorem State.tryClose_open {s : State} {slot : Nat} (h : ∀ j, s.job? slot = some j → j.state = .running) : s.tryClose slot = s := by
  unfold State.tryClose
  cases hj : s.job? slot with
  | none => rfl
  | some j => dsimp only; rw [h j hj]

/-- A job but for its body. -/
def Job.shell (j : Job) : Job :=
  { j with body :=
      { graphs := [], features := [], tables := [], shelf := [], shelfSet := [], suggestions := [], params := [], held := [], calls := [], nextCall := 0,
        watches := [], results := [], dict := [], rowWrites := [], freezes := [], health := [], counters := [], nextStep := 0, lastDone := none } }

/-- No job has changed but in its body. -/
structure ShellsKept (s t : State) : Prop where
  shells : t.jobs.map Job.shell = s.jobs.map Job.shell

theorem ShellsKept.of_jobs {s t : State} (h : t.jobs = s.jobs) : ShellsKept s t := ⟨by rw [h]⟩
theorem ShellsKept.refl (s : State) : ShellsKept s s := .of_jobs rfl
theorem ShellsKept.trans {s t u : State} (h : ShellsKept s t) (g : ShellsKept t u) : ShellsKept s u := ⟨g.shells.trans h.shells⟩

theorem ShellsKept.foldl {α : Type} (f : State → α → State) (l : List α) (s : State) (h : ∀ s a, ShellsKept s (f s a)) : ShellsKept s (l.foldl f s) :=
  List.foldlRecOn (motive := fun t => ShellsKept s t) l f (.refl s) fun t ht a _ => ht.trans (h t a)

theorem State.updBody_shells (s : State) (slot : Nat) (f : JobBody → JobBody) : ShellsKept s (s.updBody slot f) := by
  refine ⟨?_⟩
  unfold State.updBody State.updJob
  simp only [List.map_map]
  refine List.map_congr_left fun j _ => ?_
  simp only [Function.comp_apply]
  split <;> rfl

/-- A job stands in its slot, changed at most in its body. -/
theorem ShellsKept.job {s t : State} (h : ShellsKept s t) {slot : Nat} {j : Job} (hj : s.job? slot = some j) : ∃ k, t.job? slot = some k ∧ k.shell = j.shell := by
  have hshell (u : State) : (u.job? slot).map Job.shell = (u.jobs.map Job.shell).find? fun j => j.slot == slot := by
    rw [List.find?_map]
    rfl
  have hkept : (t.job? slot).map Job.shell = some j.shell := by rw [hshell, h.shells, ← hshell, hj]; rfl
  exact Option.map_eq_some_iff.1 hkept

theorem State.writePage_shells (s : State) (j : Job) (t : Table) (g : GroupRow) (own page cls : Nat) (rows : List RowData) (die : Option Nat) :
    ShellsKept s (s.writePage j t g own page cls rows die) := by
  unfold State.writePage
  refine ShellsKept.trans (.of_jobs ?_) (State.updBody_shells ..)
  exact ((State.putAll_only ..).eq .jobs rfl).trans ((State.freeTiles_only ..).eq .jobs rfl)

/-- A load that takes effect changes the bodies of jobs alone (R133, R139). -/
theorem State.applyLoad_shells (s : State) (slot : Nat) (b : List Byte) (ed : Nat) : ShellsKept s (s.applyLoad slot b ed) := by
  unfold State.applyLoad
  dsimp only
  split
  · exact .refl s
  split
  · exact .refl s
  split
  · exact ShellsKept.trans (ShellsKept.foldl _ _ _ fun t m => .of_jobs ((State.annexPage_only ..).eq .jobs rfl)) (State.updBody_shells ..)
  split
  · refine ShellsKept.foldl _ _ _ fun t p => ?_
    split
    · exact .refl t
    · exact State.updBody_shells ..
  · refine ShellsKept.trans (State.updBody_shells ..) (ShellsKept.foldl _ _ _ fun t p => ?_)
    split
    · exact .refl t
    split
    · exact .refl t
    split
    · exact .refl t
    · exact ShellsKept.trans (State.writePage_shells ..) (State.updBody_shells ..)

/-- The copy of a tile that is complete, with no read of its source outstanding: promoted, counted, and what waited for it is performed (R265, R266). -/
theorem exec_moveCommit_promoted {s : State} {k : TileKey} {x : StoredTile} (hx : s.tile? k = some x) (hread : s.pageRead k = false) (hpromote : x.promoting = true) :
    exec (.moveCommit k) s =
      .next (((((s.updTile k fun t => { t with tier := .near, promoting := false }).add 0x3200 1 1)).runDeferreds k.slot).tryClose k.slot) := by
  change execMoveCommit k s = _
  unfold execMoveCommit
  rw [hx]
  dsimp only
  rw [if_neg (by simp [hread]), if_pos hpromote]

/-- A tile that has left the pool, counted; an eviction pass that is down to the low watermark ends (R262, R265). -/
def State.evicted (s : State) (k : TileKey) : State :=
  let u := (s.updTile k fun t => { t with tier := .far, evicting := false, pair := 0 }).add 0x3110 5 1
  if u.atLow && u.leaving == 0 then { u with tiers := { u.tiers with pass := false } } else u

theorem State.evicted_kept (s : State) (k : TileKey) : let u := (s.updTile k fun t => { t with tier := .far, evicting := false, pair := 0 }).add 0x3110 5 1
    (s.evicted k).tiers.tiles = u.tiers.tiles ∧ (s.evicted k).jobs = s.jobs ∧ (s.evicted k).dict = u.dict := by
  unfold State.evicted
  dsimp only
  split <;> exact ⟨rfl, rfl, rfl⟩

theorem exec_moveCommit_evicted {s : State} {k : TileKey} {x : StoredTile} (hx : s.tile? k = some x) (hread : s.pageRead k = false) (hpromote : x.promoting = false)
    (hevict : x.evicting = true) : exec (.moveCommit k) s = .next (((s.evicted k).runDeferreds k.slot).tryClose k.slot) := by
  change execMoveCommit k s = _
  unfold execMoveCommit
  rw [hx]
  dsimp only
  rw [if_neg (by simp [hread]), if_neg (by simp [hpromote]), if_pos hevict]
  rfl

/-- A load that waited for the move alone writes, and waits no longer (R266). -/
theorem State.runDeferreds_load {s : State} {slot : Nat} {j : Job} {d : Deferred} (hj : s.job? slot = some j) (hd : j.deferred = [d]) (hop : d.opcode = 0x11)
    (hafter : d.after = none) (hmoves : s.loadMoves j d.payload d.edition = false) :
    s.runDeferreds slot = ((s.updJob slot fun j => { j with deferred := [] }).applyLoad slot d.payload d.edition).finishAsker d.asker .ok [] := by
  have hpoint : s.pointReached j d = true := by simp [State.pointReached, hafter, hmoves]
  have hj' : (s.updJob slot fun j => { j with deferred := [] }).job? slot = some { j with deferred := [] } :=
    State.job?_updJob_of hj (fun j => { j with deferred := [] }) fun _ => rfl
  have hrun : (s.updJob slot fun j => { j with deferred := [] }).runDeferred slot d =
      ((s.updJob slot fun j => { j with deferred := [] }).applyLoad slot d.payload d.edition).finishAsker d.asker .ok [] := by
    unfold State.runDeferred
    simp only [hj', hop]
  unfold State.runDeferreds
  rw [hj]
  simp only [Option.map_some, Option.getD_some, hd, List.length_singleton]
  unfold runDeferredsOf
  rw [hj]
  dsimp only
  rw [hd]
  dsimp only
  rw [if_pos hpoint, hrun]
  rfl

theorem movesBetweenTiers : Claims.MovesBetweenTiers := by
  refine ⟨fun s kind die group step k x htrig hx => ⟨fun htier hevict hpromote => ?_, fun htier hpromote hroom => ?_, fun htier hpromote hfull hlow => ?_⟩,
    fun s k x hx => ⟨fun hread => ?_, fun hread hidle hpromote => ?_, fun hread hidle hpromote hevict => ?_, fun j d hread hpromote hj hrunning hd hop hafter hmoves => ?_⟩⟩
  · refine ⟨_, State.exec_promotion die htrig, ?_⟩
    obtain ⟨hadded, htile, hhalted⟩ := State.promote_stays hx (die % 4) k.slot htier hevict hpromote
    obtain ⟨honly, htiles⟩ := (s.promote (die % 4) k.slot x).farReads_kept kind k
    exact ⟨(State.num_dict (honly.eq .dict rfl) ..).trans hadded, ⟨_, (State.tile?_tiles htiles _).trans htile, rfl⟩, fun c d r hst hcur hfunc hsrc howner =>
      (State.chan_dma (honly.eq .dma rfl) c).symm ▸ hhalted c d r hst hcur hfunc hsrc howner⟩
  · refine ⟨_, State.exec_promotion die htrig, ?_⟩
    obtain ⟨honly, htiles⟩ := (s.promote (die % 4) k.slot x).farReads_kept kind k
    have hmoves := State.promote_moves (die % 4) k.slot htier hpromote hroom
    refine ⟨?_, fun hone => ?_⟩
    · rw [State.tile?_tiles htiles, hmoves]
      exact State.tile?_updTile_self hx (fun t => { t with promoting := true, pair := die % 4, charge := k.slot }) fun _ => rfl
    · rw [State.poolUsed_of htiles (honly.eq .jobs rfl), hmoves]
      unfold State.poolUsed
      rw [State.tileBytes_updTile hone (by simp [htier, hpromote]) (by simp [htier]) rfl]
      change s.tileBytes _ + x.image.length + s.ledgerBytes true + sum (s.jobs.map Job.iterateBytes) =
        s.tileBytes _ + s.ledgerBytes true + sum (s.jobs.map Job.iterateBytes) + x.image.length
      omega
  · refine ⟨_, State.exec_promotion die htrig, ?_⟩
    rw [State.promote_waits (die % 4) k.slot htier hfull hlow]
    exact s.farReads_kept kind k
  · change execMoveCommit k s = _
    unfold execMoveCommit
    rw [hx]
    exact congrArg Host.Outcome.next (if_pos hread)
  · let u := (s.updTile k fun t => { t with tier := .near, promoting := false }).add 0x3200 1 1
    refine ⟨_, exec_moveCommit_promoted hx hread hpromote, ?_⟩
    rw [State.runDeferreds_none (s := u) fun j hj => (hidle j hj).1, State.tryClose_open (s := u) fun j hj => (hidle j hj).2]
    exact ⟨State.num_add_self (s.updTile _ _) .., State.tile?_updTile_self hx (fun t => { t with tier := .near, promoting := false }) fun _ => rfl,
      fun l hl => State.tile?_updTile_other s (fun t => { t with tier := .near, promoting := false }) (fun _ => rfl) hl⟩
  · refine ⟨_, exec_moveCommit_evicted hx hread hpromote hevict, ?_⟩
    obtain ⟨htiles, hjobs, hdict⟩ := s.evicted_kept k
    rw [State.runDeferreds_none fun j hj => (hidle j ((State.job?_jobs hjobs _).symm.trans hj)).1,
      State.tryClose_open fun j hj => (hidle j ((State.job?_jobs hjobs _).symm.trans hj)).2]
    refine ⟨(State.num_dict hdict ..).trans (State.num_add_self (s.updTile _ _) ..), ?_, fun l hl => ?_⟩
    · rw [State.tile?_tiles htiles]
      exact State.tile?_updTile_self hx (fun t => { t with tier := .far, evicting := false, pair := 0 }) fun _ => rfl
    · rw [State.tile?_tiles htiles]
      exact State.tile?_updTile_other s (fun t => { t with tier := .far, evicting := false, pair := 0 }) (fun _ => rfl) hl
  · let u := (s.updTile k fun t => { t with tier := .near, promoting := false }).add 0x3200 1 1
    let v := u.updJob k.slot fun j => { j with deferred := [] }
    let w := (v.applyLoad k.slot d.payload d.edition).finishAsker d.asker .ok []
    have hv : v.job? k.slot = some { j with deferred := [] } := State.job?_updJob_of (s := u) hj (fun j => { j with deferred := [] }) fun _ => rfl
    obtain ⟨i, hi, hshell⟩ := (v.applyLoad_shells k.slot d.payload d.edition).job hv
    have hi' : w.job? k.slot = some i := (State.job?_jobs ((State.finishAsker_only ..).eq .jobs rfl) _).trans hi
    have hstate : i.state = .running := (congrArg Job.state (show i.shell = _ from hshell)).trans hrunning
    refine ⟨_, exec_moveCommit_promoted hx hread hpromote, ?_⟩
    rw [State.runDeferreds_load (s := u) hj hd hop hafter hmoves, State.tryClose_open (s := w) fun g hg => ?_]
    · refine ⟨?_, i, hi', congrArg Job.deferred (show i.shell = _ from hshell)⟩
      refine (State.num_dict (((State.finishAsker_only ..).eq .dict rfl).trans ((State.applyLoad_only v ..).eq .dict rfl)) ..).trans ?_
      exact State.num_add_self (s.updTile _ _) ..
    · rw [hi'] at hg
      exact Option.some.inj hg ▸ hstate

/-! ### A wait for space (R256) -/

/-- A job once one of its steps has been changed. -/
def Job.withStep (j : Job) (n : Nat) (f : StepRec → StepRec) : Job := { j with steps := j.steps.map fun x => if x.num = n then f x else x }

theorem Job.step?_withStep_self {j : Job} {n : Nat} {x : StepRec} (hx : j.step? n = some x) (f : StepRec → StepRec) (hf : ∀ x, (f x).num = x.num) :
    (j.withStep n f).step? n = some (f x) := by
  have hnum : x.num = n := by simpa using List.find?_some hx
  have hcomp : ((fun x : StepRec => x.num == n) ∘ fun x => if x.num = n then f x else x) = fun x => x.num == n := by
    funext y
    by_cases h : y.num = n <;> simp [h, hf]
  rw [Job.step?, Job.withStep, List.find?_map, hcomp, show j.steps.find? (fun x => x.num == n) = some x from hx]
  simp [hnum]

theorem Job.step?_withStep_other (j : Job) {n r : Nat} (f : StepRec → StepRec) (hf : ∀ x, (f x).num = x.num) (h : r ≠ n) :
    (j.withStep n f).step? r = j.step? r := by
  have hcomp : ((fun x : StepRec => x.num == r) ∘ fun x => if x.num = n then f x else x) = fun x => x.num == r := by
    funext y
    by_cases h : y.num = n <;> simp [h, hf]
  rw [Job.step?, Job.withStep, List.find?_map, hcomp, Job.step?]
  cases hx : j.steps.find? (fun x => x.num == r) with
  | none => rfl
  | some x =>
    have hnum : x.num = r := by simpa using List.find?_some hx
    simp [hnum, h]

theorem State.job?_updStep {s : State} {slot : Nat} {j : Job} (hj : s.job? slot = some j) (n : Nat) (f : StepRec → StepRec) :
    (s.updStep slot n f).job? slot = some (j.withStep n f) :=
  State.job?_updJob_of hj (fun j => j.withStep n f) fun _ => rfl

theorem State.step?_of_job {s : State} {slot : Nat} {j : Job} (hj : s.job? slot = some j) (n : Nat) : s.step? slot n = j.step? n := by
  rw [State.step?, hj]
  rfl

theorem State.step?_jobs {s t : State} (h : t.jobs = s.jobs) (slot n : Nat) : t.step? slot n = s.step? slot n := by
  rw [State.step?, State.step?, State.job?_jobs h]

theorem spaceWaitStalls : Claims.SpaceWaitStalls := by
  intro s slot step n i j x hj hx hrunning hstalled hwait
  let u := s.updStep slot step fun x => { x with stalled := true }
  let v := u.raiseJob 0x3103 slot step (n % 2 ^ 32) (n / 2 ^ 32) 0
  have hu : u.job? slot = some (j.withStep step fun x => { x with stalled := true }) := State.job?_updStep hj step _
  have hv : v.job? slot = some (j.withStep step fun x => { x with stalled := true }) := (State.job?_jobs ((State.raiseJob_only ..).eq .jobs rfl) slot).trans hu
  have hexec : exec (.spaceStalled slot step) s = .next (v.tryClose slot) := by
    change execSpaceStalled slot step s = _
    unfold execSpaceStalled
    rw [State.step?_of_job hj, hx]
    simp only [Option.bind_some, hstalled, Bool.false_eq_true, if_false, hwait] <;> rfl
  have hopen : v.tryClose slot = v := State.tryClose_open fun k hk => by
    rw [hv] at hk
    exact Option.some.inj hk ▸ hrunning
  refine ⟨_, hexec, ?_⟩
  rw [hopen]
  refine ⟨State.raiseJob_raised_of_log rfl, ?_, fun r hr => ?_⟩
  · rw [State.step?_of_job hv]
    exact Job.step?_withStep_self hx _ fun _ => rfl
  · rw [State.step?_of_job hv, State.step?_of_job hj]
    exact Job.step?_withStep_other j _ (fun _ => rfl) hr

end Sys2Proof.Machine
end

section
/-!
Eviction passes (R262): what a pass marks, and why it ends. Each choice takes a tile's key out of those with an eligible promoted tile, or out of those with an
eligible tile at all, so no key is chosen more than twice.
-/
namespace Sys2Proof.Machine
open Sys2Proof

/-! ### The tile a pass takes next -/

theorem foldl_pick_mem {α : Type} {f : Option α → α → Option α} (hf : ∀ m a, f m a = some a ∨ f m a = m) (l : List α) {m : Option α} {x : α}
    (h : l.foldl f m = some x) : m = some x ∨ x ∈ l := by
  induction l generalizing m with
  | nil => exact .inl h
  | cons a l ih =>
    obtain hx | hx := ih h
    · obtain ha | ha := hf m a
      · exact .inr (by rw [ha] at hx; simp [Option.some.inj hx])
      · exact .inl (ha ▸ hx)
    · exact .inr (List.mem_cons_of_mem _ hx)

/-- The older of the tile held and another (R262). -/
def State.elder (s : State) (m : Option StoredTile) (t : StoredTile) : Option StoredTile :=
  match m with
  | none => some t
  | some u =>
    let a := s.age t
    let b := s.age u
    if b < a ∨ (a = b ∧ (t.key.slot < u.key.slot ∨ (t.key.slot = u.key.slot ∧ t.devGranule < u.devGranule))) then some t else some u

theorem State.elder_picks (s : State) (m : Option StoredTile) (t : StoredTile) : s.elder m t = some t ∨ (s.elder m t = m ∧ m ≠ none) := by
  unfold State.elder
  split
  · exact .inl rfl
  · dsimp only
    split
    · exact .inl rfl
    · exact .inr ⟨rfl, Option.some_ne_none _⟩

theorem State.nextEvicted_eq (s : State) : s.nextEvicted = (s.tiers.tiles.filter s.evictable).foldl s.elder none := rfl

theorem State.nextEvicted_some {s : State} {x : StoredTile} (h : s.nextEvicted = some x) : x ∈ s.tiers.tiles ∧ s.evictable x = true := by
  rw [State.nextEvicted_eq] at h
  obtain h | h := foldl_pick_mem (fun m t => (s.elder_picks m t).imp_right And.left) _ h
  · cases h
  · exact List.mem_filter.1 h

theorem State.nextEvicted_none {s : State} (h : ∀ x ∈ s.tiers.tiles, s.evictable x = false) : s.nextEvicted = none := by
  rw [State.nextEvicted_eq, List.filter_eq_nil_iff.2 fun x hx => by simp [h x hx]]
  rfl

/-- Ages, and so what is eligible, follow from the jobs. -/
theorem State.age_jobs {s t : State} (h : t.jobs = s.jobs) (x : StoredTile) : t.age x = s.age x := by
  simp only [State.age, State.highest, State.job?_jobs h]

theorem State.evictable_jobs {s t : State} (h : t.jobs = s.jobs) (x : StoredTile) : t.evictable x = s.evictable x := by
  simp only [State.evictable, State.age_jobs h, State.holdsLedger, State.job?_jobs h, State.step?_jobs h]

theorem State.nextEvicted_of {s t : State} (htiles : t.tiers.tiles = s.tiers.tiles) (hjobs : t.jobs = s.jobs) : t.nextEvicted = s.nextEvicted := by
  have helder : t.elder = s.elder := by
    funext m x
    simp only [State.elder, State.age_jobs hjobs]
  have hevictable : t.evictable = s.evictable := funext fun x => State.evictable_jobs hjobs x
  rw [State.nextEvicted_eq, State.nextEvicted_eq, htiles, helder, hevictable]

/-- Eligible tiles are not on their way out. -/
theorem State.evicting_of_evictable {s : State} {x : StoredTile} (h : s.evictable x = true) : x.evicting = false := by
  simp only [State.evictable, Bool.and_eq_true, Bool.not_eq_true'] at h
  exact h.1.1.1.2

/-! ### One choice of a pass -/

/-- What a pass does to every tile of the key it has chosen (R262, R264). -/
def State.takes (s : State) (x t : StoredTile) : StoredTile :=
  if x.promoting then { t with evicting := false, lastStep := s.highest x.key.slot, charge := x.charge } else { t with evicting := true }

/-- The state once a pass has chosen a tile. -/
def State.evictOne (s : State) (x : StoredTile) : State :=
  if x.promoting then s.dropEviction x x.charge else s.updTile x.key fun t => { t with evicting := true }

theorem State.evictOne_tiles {s : State} {x : StoredTile} (h : s.evictable x = true) :
    (s.evictOne x).tiers.tiles = s.tiers.tiles.map (fun t => if t.key = x.key then s.takes x t else t) ∧ (s.evictOne x).jobs = s.jobs := by
  unfold State.evictOne State.takes
  split
  · have hdrop : s.dropEviction x x.charge =
        (s.updTile x.key fun u => { u with evicting := false, lastStep := s.highest x.key.slot, charge := x.charge }).add 0x3110 6 1 := by
      unfold State.dropEviction
      dsimp only
      exact if_neg (by simp [State.evicting_of_evictable h])
    rw [hdrop]
    exact ⟨rfl, rfl⟩
  · exact ⟨rfl, rfl⟩

theorem State.evict_step {s : State} {x : StoredTile} (fuel : Nat) (hlow : s.atLow = false) (hx : s.nextEvicted = some x) : State.evict (fuel + 1) s =
    if x.promoting = true ∨ s.farUsed + x.image.length ≤ s.farCapacity then State.evict fuel (s.evictOne x)
    else s.raise 0x3102 .module 0 (x.image.length % 2 ^ 32) (x.image.length / 2 ^ 32) 0 := by
  rw [State.evict, if_neg (by simp [hlow]), hx]
  unfold State.evictOne
  by_cases hpromote : x.promoting = true <;> simp [hpromote]

/-- What holds of the tiles at every moment of a pass: keys, tiers and images are those it began with, and only tiles whose key was eligible have changed. -/
structure Marked (s t : State) : Prop where
  jobs : t.jobs = s.jobs
  kept : t.tiers.tiles.map (fun x => (x.key, x.tier, x.image)) = s.tiers.tiles.map (fun x => (x.key, x.tier, x.image))
  eligible : ∀ x ∈ t.tiers.tiles, x ∈ s.tiers.tiles ∨ ∃ y ∈ s.tiers.tiles, y.key = x.key ∧ s.evictable y = true

theorem Marked.refl (s : State) : Marked s s := ⟨rfl, rfl, fun _ hx => .inl hx⟩

theorem Marked.of_tiles {s t u : State} (h : Marked s t) (htiles : u.tiers.tiles = t.tiers.tiles) (hjobs : u.jobs = t.jobs) : Marked s u :=
  ⟨hjobs.trans h.jobs, by rw [htiles, h.kept], by rw [htiles]; exact h.eligible⟩

theorem Marked.evictOne {s t : State} (h : Marked s t) {x : StoredTile} (hmem : x ∈ t.tiers.tiles) (hx : t.evictable x = true) : Marked s (t.evictOne x) := by
  obtain ⟨htiles, hjobs⟩ := State.evictOne_tiles hx
  have hkey : ∃ y ∈ s.tiers.tiles, y.key = x.key ∧ s.evictable y = true := by
    obtain hs | hs := h.eligible x hmem
    · exact ⟨x, hs, rfl, State.evictable_jobs h.jobs x ▸ hx⟩
    · exact hs
  refine ⟨hjobs.trans h.jobs, ?_, fun z hz => ?_⟩
  · rw [htiles, List.map_map, ← h.kept]
    refine List.map_congr_left fun z _ => ?_
    simp only [Function.comp_apply, State.takes]
    split
    · split <;> rfl
    · rfl
  · rw [htiles] at hz
    obtain ⟨y, hy, rfl⟩ := List.mem_map.1 hz
    split
    · next hyx =>
      obtain ⟨w, hw, hwkey, hwev⟩ := hkey
      refine .inr ⟨w, hw, hwkey.trans (hyx.symm.trans ?_), hwev⟩
      unfold State.takes
      split <;> rfl
    · exact h.eligible y hy

theorem State.evict_marked {s : State} (fuel : Nat) {t : State} (h : Marked s t) : Marked s (State.evict fuel t) := by
  induction fuel generalizing t with
  | zero => exact h
  | succ fuel ih =>
    by_cases hlow : t.atLow = true
    · rw [State.evict, if_pos hlow]
      exact h
    · cases hx : t.nextEvicted with
      | none =>
        rw [State.evict, if_neg hlow, hx]
        exact h
      | some x =>
        obtain ⟨hmem, hev⟩ := State.nextEvicted_some hx
        rw [State.evict_step fuel (by simpa using hlow) hx]
        split
        · exact ih (h.evictOne hmem hev)
        · exact h.of_tiles (congrArg Tiers.tiles ((State.raise_only ..).eq .tiers rfl)) ((State.raise_only ..).eq .jobs rfl)

/-! ### Why a pass ends -/

/-- Keys of the eligible tiles, and of those among them that are being promoted. -/
def State.eligibleKeys (s : State) : Finset TileKey := ((s.tiers.tiles.filter s.evictable).map (·.key)).toFinset
def State.promotedKeys (s : State) : Finset TileKey := ((s.tiers.tiles.filter fun x => s.evictable x && x.promoting).map (·.key)).toFinset

theorem State.mem_eligibleKeys {s : State} {k : TileKey} : k ∈ s.eligibleKeys ↔ ∃ x ∈ s.tiers.tiles, s.evictable x = true ∧ x.key = k := by
  simp [State.eligibleKeys, and_assoc]

theorem State.mem_promotedKeys {s : State} {k : TileKey} : k ∈ s.promotedKeys ↔ ∃ x ∈ s.tiers.tiles, s.evictable x = true ∧ x.promoting = true ∧ x.key = k := by
  simp [State.promotedKeys, and_assoc]

/-- How often a pass can still choose. -/
def State.choices (s : State) : Nat := s.promotedKeys.card + s.eligibleKeys.card

theorem State.choices_le (s : State) : s.choices ≤ 2 * s.tiers.tiles.length := by
  have hlen (p : StoredTile → Bool) : ((s.tiers.tiles.filter p).map (·.key)).toFinset.card ≤ s.tiers.tiles.length :=
    (List.toFinset_card_le _).trans (by rw [List.length_map]; exact List.length_filter_le _ _)
  have h := hlen s.evictable
  have g := hlen fun x => s.evictable x && x.promoting
  unfold State.choices State.eligibleKeys State.promotedKeys
  omega

/-- A tile of another key is what it was, after a choice. -/
theorem State.evictOne_other {s : State} {x z : StoredTile} (hx : s.evictable x = true) (hz : z ∈ (s.evictOne x).tiers.tiles) (hkey : z.key ≠ x.key) :
    z ∈ s.tiers.tiles := by
  rw [(State.evictOne_tiles hx).1] at hz
  obtain ⟨y, hy, rfl⟩ := List.mem_map.1 hz
  by_cases hyx : y.key = x.key
  · rw [if_pos hyx] at hkey
    refine absurd ?_ hkey
    unfold State.takes
    split <;> exact hyx
  · rwa [if_neg hyx]

theorem State.evictOne_self {s : State} {x z : StoredTile} (hx : s.evictable x = true) (hz : z ∈ (s.evictOne x).tiers.tiles) (hkey : z.key = x.key) :
    ∃ y ∈ s.tiers.tiles, y.key = x.key ∧ z = s.takes x y := by
  rw [(State.evictOne_tiles hx).1] at hz
  obtain ⟨y, hy, rfl⟩ := List.mem_map.1 hz
  by_cases hyx : y.key = x.key
  · exact ⟨y, hy, hyx, if_pos hyx⟩
  · rw [if_neg hyx] at hkey
    exact absurd hkey hyx

/-- A promoted tile whose eviction was dropped has no age, and is not eligible (R262, R264). -/
theorem State.takes_promoted {s : State} {x y : StoredTile} (hkey : y.key = x.key) (hpromote : x.promoting = true)
    (h : s.evictable (s.takes x y) = true) : (s.takes x y).promoting = false := by
  have hage : s.age (s.takes x y) = 0 := by
    unfold State.takes State.age
    rw [if_pos hpromote]
    simp [hkey]
  by_contra hp
  rw [Bool.not_eq_false] at hp
  simp [State.evictable, hp, hage] at h

theorem State.choices_evictOne {s : State} {x : StoredTile} (hmem : x ∈ s.tiers.tiles) (hx : s.evictable x = true) : (s.evictOne x).choices < s.choices := by
  have hjobs := (State.evictOne_tiles hx).2
  have hev (z : StoredTile) : (s.evictOne x).evictable z = s.evictable z := State.evictable_jobs hjobs z
  have hin : x.key ∈ s.eligibleKeys := State.mem_eligibleKeys.2 ⟨x, hmem, hx, rfl⟩
  have helig : (s.evictOne x).eligibleKeys ⊆ s.eligibleKeys := fun k hk => by
    obtain ⟨z, hz, hzev, rfl⟩ := State.mem_eligibleKeys.1 hk
    by_cases hkey : z.key = x.key
    · rwa [hkey]
    · exact State.mem_eligibleKeys.2 ⟨z, State.evictOne_other hx hz hkey, hev z ▸ hzev, rfl⟩
  by_cases hpromote : x.promoting = true
  · have hless : (s.evictOne x).promotedKeys ⊂ s.promotedKeys := by
      have hnot : x.key ∉ (s.evictOne x).promotedKeys := fun hk => by
        obtain ⟨z, hz, hzev, hzp, hkey⟩ := State.mem_promotedKeys.1 hk
        obtain ⟨y, -, hykey, rfl⟩ := State.evictOne_self hx hz hkey
        rw [hev] at hzev
        rw [State.takes_promoted hykey hpromote hzev] at hzp
        cases hzp
      refine (Finset.ssubset_iff_of_subset fun k hk => ?_).2 ⟨x.key, State.mem_promotedKeys.2 ⟨x, hmem, hx, hpromote, rfl⟩, hnot⟩
      obtain ⟨z, hz, hzev, hzp, rfl⟩ := State.mem_promotedKeys.1 hk
      have hkey : z.key ≠ x.key := fun h => hnot (h ▸ hk)
      exact State.mem_promotedKeys.2 ⟨z, State.evictOne_other hx hz hkey, hev z ▸ hzev, hzp, rfl⟩
    exact Nat.add_lt_add_of_lt_of_le (Finset.card_lt_card hless) (Finset.card_le_card helig)
  · have hnot : x.key ∉ (s.evictOne x).eligibleKeys := fun hk => by
      obtain ⟨z, hz, hzev, hkey⟩ := State.mem_eligibleKeys.1 hk
      obtain ⟨y, -, -, rfl⟩ := State.evictOne_self hx hz hkey
      have hout := State.evicting_of_evictable hzev
      rw [State.takes, if_neg hpromote] at hout
      cases hout
    have hless : (s.evictOne x).eligibleKeys ⊂ s.eligibleKeys := (Finset.ssubset_iff_of_subset helig).2 ⟨x.key, hin, hnot⟩
    have hprom : (s.evictOne x).promotedKeys ⊆ s.promotedKeys := fun k hk => by
      obtain ⟨z, hz, hzev, hzp, rfl⟩ := State.mem_promotedKeys.1 hk
      have hkey : z.key ≠ x.key := fun h => hnot (h ▸ State.mem_eligibleKeys.2 ⟨z, hz, hzev, rfl⟩)
      exact State.mem_promotedKeys.2 ⟨z, State.evictOne_other hx hz hkey, hev z ▸ hzev, hzp, rfl⟩
    exact Nat.add_lt_add_of_le_of_lt (Finset.card_le_card hprom) (Finset.card_lt_card hless)

theorem State.far_of {s t : State} (htiles : t.tiers.tiles = s.tiers.tiles) (hretired : t.tiers.farRetired = s.tiers.farRetired) (hjobs : t.jobs = s.jobs)
    (hnum : ∀ i k, 256 * i + k ≠ 0x221005 → 256 * i + k ≠ 0x211006 → t.num i k = s.num i k) : t.farUsed = s.farUsed ∧ t.farCapacity = s.farCapacity := by
  refine ⟨?_, ?_⟩
  · simp only [State.farUsed, State.tileBytes, State.ledgerBytes, htiles, hjobs]
  · rw [State.farCapacity, State.farCapacity, hretired, hnum 0x7120 4 (by omega) (by omega), hnum 0x7100 1 (by omega) (by omega)]

/-- Where a pass stops: at the low watermark, with nothing eligible, or with the far tier full (R262). -/
def State.Stops (t : State) : Prop := t.atLow = true ∨ t.nextEvicted = none ∨ ∃ x, t.nextEvicted = some x ∧ t.farCapacity < t.farUsed + x.image.length

theorem State.evict_stops (fuel : Nat) {s : State} (hfuel : s.choices ≤ fuel) : (State.evict fuel s).Stops := by
  induction fuel generalizing s with
  | zero =>
    change s.Stops
    have hempty : s.eligibleKeys = ∅ := Finset.card_eq_zero.1 (by unfold State.choices at hfuel; omega)
    refine .inr (.inl (State.nextEvicted_none fun x hx => ?_))
    by_contra hev
    have hin : x.key ∈ s.eligibleKeys := State.mem_eligibleKeys.2 ⟨x, hx, by simpa using hev, rfl⟩
    rw [hempty] at hin
    exact absurd hin (Finset.notMem_empty _)
  | succ fuel ih =>
    by_cases hlow : s.atLow = true
    · rw [State.evict, if_pos hlow]
      exact .inl hlow
    · cases hx : s.nextEvicted with
      | none =>
        rw [State.evict, if_neg hlow, hx]
        exact .inr (.inl hx)
      | some x =>
        obtain ⟨hmem, hev⟩ := State.nextEvicted_some hx
        rw [State.evict_step fuel (by simpa using hlow) hx]
        split
        · exact ih (by have := State.choices_evictOne hmem hev; omega)
        · next hfull =>
          have honly := s.raise_only 0x3102 .module 0 (x.image.length % 2 ^ 32) (x.image.length / 2 ^ 32) 0
          refine .inr (.inr ⟨x, (State.nextEvicted_of (congrArg Tiers.tiles (honly.eq .tiers rfl)) (honly.eq .jobs rfl)).trans hx, ?_⟩)
          obtain ⟨hfar, hcap⟩ := State.far_of (congrArg Tiers.tiles (honly.eq .tiers rfl)) (congrArg Tiers.farRetired (honly.eq .tiers rfl)) (honly.eq .jobs rfl)
            (fun i k h5 h6 => s.num_raise_of_ne 0x3102 .module 0 (x.image.length % 2 ^ 32) (x.image.length / 2 ^ 32) 0 i k h5 h6)
          rw [hfar, hcap]
          omega

theorem evictionPasses : Claims.EvictionPasses := by
  refine ⟨fun s hpass hhigh => congrArg Host.Outcome.next (if_neg (by simp [hpass, hhigh])), fun s hgo => ?_⟩
  let u : State := { s with tiers := { s.tiers with pass := true } }
  let v := State.evict (2 * u.tiers.tiles.length) u
  have hexec : exec .poolEvictionPass s = .next (if v.atLow && v.leaving == 0 then { v with tiers := { v.tiers with pass := false } } else v) :=
    congrArg Host.Outcome.next (if_pos (by simpa using hgo))
  have hmarked : Marked s v := State.evict_marked _ ((Marked.refl s).of_tiles rfl rfl)
  have hstops : v.Stops := State.evict_stops _ u.choices_le
  refine ⟨_, hexec, ?_⟩
  split
  · exact ⟨hmarked.kept, fun x hx _ => hmarked.eligible x hx, hstops⟩
  · exact ⟨hmarked.kept, fun x hx _ => hmarked.eligible x hx, hstops⟩

/-- Settles O26: a pass ends because each choice lowers the number of keys it can still choose, and no key more than twice. -/
theorem tiersMoveAndStall : Obligations.TiersMoveAndStall := ⟨movesBetweenTiers, evictionPasses, spaceWaitStalls⟩

end Sys2Proof.Machine
end

section
/-!
Commands that their job runs, and Deposits over the host port (R275, R288, R366).
-/
namespace Sys2Proof.Machine
open Sys2Proof

/-! ### A command that its job runs -/

section
variable {s : State} {q opcode : Nat} {f : InFlight} {j : Job} (h : s.Ready q opcode f j)
include h

theorem State.Ready.asFront : s.Front q opcode f :=
  ⟨h.front, h.sent, h.header, fun k hk => by
    rw [h.job] at hk
    exact Option.some.inj hk ▸ h.takes⟩

theorem State.Ready.mem : f ∈ s.port.inFlight := State.mem_of_arrivedOn h.front
theorem State.Ready.slot : f.job = some j.slot ∧ s.job? j.slot = some j := State.slot_of_bind h.job

/-- The job once it has accepted the command. -/
theorem State.Ready.begun : (s.begun f).job? j.slot = some (j.accepting (s.commandRecord j f)) := State.job?_begun_self h.sent h.job

theorem State.Ready.others {n : Nat} (hn : n ≠ j.slot) : (s.begun f).job? n = s.job? n := State.job?_begun_other h.sent h.job hn

/-- A command that needs its job and passes its checks takes effect on the job as it has accepted it (R275, R278). -/
theorem State.Ready.runs {form : Command → Bool} {check : State → Job → List Byte → List Bad} (effect : State → Job → InFlight → State)
    (hform : form f.cmd = true) (hcheck : check s j f.cmd.payload = []) :
    s.jobCommand q opcode form check effect = effect (s.begun f) (j.accepting (s.commandRecord j f)) (f.taken (some j)) := by
  have hjob : s.jobOf f = some j := h.job
  have hbegun : (s.begun f).jobOf (f.taken (some j)) = some (j.accepting (s.commandRecord j f)) := by
    change f.job.bind (s.begun f).job? = _
    rw [h.slot.1]
    exact h.begun
  unfold State.jobCommand
  rw [State.runCommand_front h.asFront hform (by rw [hjob]; exact hcheck), h.job, hbegun]

/-- The final response of such a command is held until its record commits; its job is as the effect left it (R360). -/
theorem State.Ready.done {u : State} {k : Job} (hport : u.port.inFlight = (s.begun f).port.inFlight) (hk : u.job? j.slot = some k)
    (hindex : k.accepted = j.accepted + 1) (hlog : k.log = j.log ++ [s.commandRecord j f]) (hothers : ∀ n, n ≠ j.slot → u.job? n = (s.begun f).job? n)
    (st : Status) (p : List Byte) : Accepted s (u.done (f.taken (some j)) st p) f j k (.done st p 0) :=
  State.accepted_finish h.sent h.mem h.job hport hk hindex hlog fun n hn => (hothers n hn).trans (h.others hn)

end

/-! ### Responses that a job holds back -/

/-- A job but for the responses it holds back. -/
def Job.unheld (j : Job) : Job := { j with fragments := [] }

/-- No job has changed but in what it holds back. -/
structure JobsUnheld (s t : State) : Prop where
  jobs : t.jobs.map Job.unheld = s.jobs.map Job.unheld

theorem JobsUnheld.of_jobs {s t : State} (h : t.jobs = s.jobs) : JobsUnheld s t := ⟨by rw [h]⟩
theorem JobsUnheld.trans {s t u : State} (h : JobsUnheld s t) (g : JobsUnheld t u) : JobsUnheld s u := ⟨g.jobs.trans h.jobs⟩

theorem State.fragments_unheld (s : State) (slot : Nat) (f : Job → List Fragment) : JobsUnheld s (s.updJob slot fun j => { j with fragments := f j }) := by
  refine ⟨?_⟩
  simp only [State.updJob, List.map_map]
  refine List.map_congr_left fun j _ => ?_
  simp only [Function.comp_apply]
  split <;> rfl

theorem flushFragments_unheld (slot fuel : Nat) (s : State) : JobsUnheld s (flushFragments slot fuel s) := by
  induction fuel generalizing s with
  | zero => exact .of_jobs rfl
  | succ fuel ih =>
    unfold flushFragments
    split
    · exact .of_jobs rfl
    split
    · exact .of_jobs rfl
    split
    · next f rest _ _ =>
      refine JobsUnheld.trans ?_ (ih _)
      refine (s.fragments_unheld slot fun _ => rest).trans (.of_jobs ?_)
      split
      · exact ((State.finishAsker_only ..).eq .jobs rfl).trans ((State.enqueue_only ..).eq .jobs rfl)
      · exact (State.enqueue_only ..).eq .jobs rfl
    · exact .of_jobs rfl

theorem State.holdFragments_unheld (s : State) (slot : Nat) (l : List Fragment) : JobsUnheld s (s.holdFragments slot l) :=
  (s.fragments_unheld slot _).trans
    (List.foldlRecOn (motive := fun t => JobsUnheld _ t) _ _ (.of_jobs rfl) fun _ ht j _ => ht.trans (flushFragments_unheld j.slot _ _))

/-- A job stands in its slot, changed at most in what it holds back. -/
theorem JobsUnheld.job {s t : State} (h : JobsUnheld s t) {slot : Nat} {j : Job} (hj : s.job? slot = some j) : ∃ k, t.job? slot = some k ∧ k.unheld = j.unheld := by
  have hfind (u : State) : (u.job? slot).map Job.unheld = (u.jobs.map Job.unheld).find? fun j => j.slot == slot := by
    rw [List.find?_map]
    rfl
  have hkept : (t.job? slot).map Job.unheld = some j.unheld := by rw [hfind, h.jobs, ← hfind, hj]; rfl
  exact Option.map_eq_some_iff.1 hkept

/-! ### Export -/

/-- An export of a Deposit notes it before its chunks are held back (R288, R366). -/
theorem depositExports {s : State} {q : Nat} {f : InFlight} {j : Job} (h : s.Ready q 0x38 f j) (hlen : f.cmd.payload.length = 16)
    (hres : bits (leNat f.cmd.payload) 127 1 = 0) : Runs (.depositExport q) s fun t => ∃ k, k.body = j.body ∧ match j.deposit with
        | none => Accepted s t f j k (.done .ok (zeros 64) 0)
        | some d => t.job? j.slot = some k ∧ k.exported = some d.id ∧ k.accepted = j.accepted + 1 ∧ k.log = j.log ++ [s.commandRecord j f] := by
  refine ⟨_, congrArg Host.Outcome.next (h.runs _ rfl (by simp [need, hlen, hres])), ?_⟩
  have hdeposit : (j.accepting (s.commandRecord j f)).deposit = j.deposit := rfl
  dsimp only
  rw [hdeposit]
  cases hd : j.deposit with
  | none => exact ⟨j.accepting (s.commandRecord j f), rfl, h.done rfl h.begun rfl rfl (fun _ _ => rfl) .ok (zeros 64)⟩
  | some d =>
    have hu : ((draw (s.begun f)).2.updJob j.slot fun j => { j with exported := some d.id }).job? j.slot =
        some { j.accepting (s.commandRecord j f) with exported := some d.id } :=
      State.job?_updJob_of (s := (draw (s.begun f)).2) h.begun (fun j => { j with exported := some d.id }) fun _ => rfl
    obtain ⟨k, hk, hsame⟩ := (State.holdFragments_unheld _ j.slot _).job hu
    have hkept {α : Type} (g : Job → α) (hg : ∀ j, g j.unheld = g j) : g k = g { j.accepting (s.commandRecord j f) with exported := some d.id } := by
      rw [← hg k, hsame, hg]
    exact ⟨k, hkept Job.body fun _ => rfl, hk, hkept Job.exported fun _ => rfl, hkept Job.accepted fun _ => rfl, hkept Job.log fun _ => rfl⟩

/-! ### Rows that are written where they stand -/

/-- A table but for how its pages are stored. -/
def Table.bare (t : Table) : Table := { t with classes := [], layouts := [] }

/-- A shelf row but for what it holds. -/
def ShelfRow.bare (x : ShelfRow) : ShelfRow := { x with data := RowData.zero 0 0 0, dirty := true }

/-- A job's body but for how its tables' pages are stored, what its rows hold and the annex rows held for it. -/
def JobBody.lasting (b : JobBody) : JobBody := { b with tables := b.tables.map Table.bare, held := [], shelf := b.shelf.map ShelfRow.bare }
def Job.lasting (j : Job) : Job := { j with body := j.body.lasting }

theorem map_update_bare {α β : Type} (l : List α) (p : α → Prop) [DecidablePred p] (f : α → α) (g : α → β) (h : ∀ x, g (f x) = g x) :
    (l.map fun x => if p x then f x else x).map g = l.map g := by
  rw [List.map_map]
  refine List.map_congr_left fun x _ => ?_
  simp only [Function.comp_apply]
  split
  · exact h x
  · rfl

theorem JobBody.lasting_updTable (b : JobBody) (id : Nat) (f : Table → Table) (hf : ∀ t, (f t).bare = t.bare) : (b.updTable id f).lasting = b.lasting :=
  congrArg (fun l => { b with tables := l, held := [], shelf := b.shelf.map ShelfRow.bare }) (map_update_bare b.tables (fun t => t.id = id) f Table.bare hf)

theorem JobBody.lasting_shelf (b : JobBody) (p : ShelfRow → Prop) [DecidablePred p] (f : ShelfRow → ShelfRow) (hf : ∀ x, (f x).bare = x.bare) :
    ({ b with shelf := b.shelf.map fun x => if p x then f x else x } : JobBody).lasting = b.lasting :=
  congrArg (fun l => { b with tables := b.tables.map Table.bare, held := [], shelf := l }) (map_update_bare b.shelf p f ShelfRow.bare hf)

/-- Nothing of any job has changed but how its tables' pages are stored, what its rows hold and the annex rows held for it. -/
structure RowsOnly (s t : State) : Prop where
  jobs : t.jobs.map Job.lasting = s.jobs.map Job.lasting

theorem RowsOnly.of_jobs {s t : State} (h : t.jobs = s.jobs) : RowsOnly s t := ⟨by rw [h]⟩
theorem RowsOnly.refl (s : State) : RowsOnly s s := .of_jobs rfl
theorem RowsOnly.trans {s t u : State} (h : RowsOnly s t) (g : RowsOnly t u) : RowsOnly s u := ⟨g.jobs.trans h.jobs⟩

theorem RowsOnly.foldl {α : Type} (f : State → α → State) (l : List α) (s : State) (h : ∀ s a, RowsOnly s (f s a)) : RowsOnly s (l.foldl f s) :=
  List.foldlRecOn (motive := fun t => RowsOnly s t) l f (.refl s) fun t ht a _ => ht.trans (h t a)

theorem State.updBody_rowsOnly (s : State) (slot : Nat) (f : JobBody → JobBody) (hf : ∀ b, (f b).lasting = b.lasting) :
    RowsOnly s (s.updBody slot f) := by
  refine ⟨?_⟩
  simp only [State.updBody, State.updJob, List.map_map]
  refine List.map_congr_left fun j _ => ?_
  simp only [Function.comp_apply]
  split
  · exact congrArg (fun b => { j with body := b }) (hf j.body)
  · rfl

/-- A job stands in its slot, changed at most in its rows. -/
theorem RowsOnly.job {s t : State} (h : RowsOnly s t) {slot : Nat} {j : Job} (hj : s.job? slot = some j) : ∃ k, t.job? slot = some k ∧ k.lasting = j.lasting := by
  have hfind (u : State) : (u.job? slot).map Job.lasting = (u.jobs.map Job.lasting).find? fun j => j.slot == slot := by
    rw [List.find?_map]
    rfl
  have hkept : (t.job? slot).map Job.lasting = some j.lasting := by rw [hfind, h.jobs, ← hfind, hj]; rfl
  exact Option.map_eq_some_iff.1 hkept

theorem State.writePage_rowsOnly (s : State) (j : Job) (t : Table) (g : GroupRow) (own page cls : Nat) (rows : List RowData) (die : Option Nat) :
    RowsOnly s (s.writePage j t g own page cls rows die) := by
  unfold State.writePage
  exact RowsOnly.trans (.of_jobs (((State.putAll_only ..).eq .jobs rfl).trans ((State.freeTiles_only ..).eq .jobs rfl)))
    (State.updBody_rowsOnly _ _ _ fun b => b.lasting_updTable _ _ fun _ => rfl)

theorem State.writeRow_rowsOnly (s : State) (slot : Nat) (g : GroupRow) (die : Option Nat) (tid ed row : Nat) (update : Bool) (f : RowData → RowData) :
    RowsOnly s (s.writeRow slot g die tid ed row update f) := by
  unfold State.writeRow
  dsimp only
  split
  · exact .refl s
  split
  · exact .refl s
  split
  · exact State.updBody_rowsOnly _ _ _ fun b => b.lasting_shelf _ _ fun _ => rfl
  split
  · exact State.updBody_rowsOnly _ _ _ fun _ => rfl
  · exact s.writePage_rowsOnly ..

theorem State.standRows_rowsOnly (s : State) (slot : Nat) (rows : List ShelfRow) : RowsOnly s (s.standRows slot rows) :=
  RowsOnly.foldl _ _ _ fun t x => by
    split
    · exact t.writeRow_rowsOnly ..
    · exact .refl t

/-! ### Import -/

/-- The entries of a Deposit that a restored job takes over: those it cannot write (R23). -/
def Deposit.keptDict (d : Deposit) : List (Nat × DVal) :=
  d.body.dict.filter fun p => ((findEntry (p.1 / 256) (p.1 % 256)).map fun r => r.access != .rw && r.access != .wo).getD false

theorem Deposit.mem_keptDict (d : Deposit) (p : Nat × DVal) :
    p ∈ d.keptDict ↔ p ∈ d.body.dict ∧ ∃ r, findEntry (p.1 / 256) (p.1 % 256) = some r ∧ r.access ≠ .rw ∧ r.access ≠ .wo := by
  unfold Deposit.keptDict
  rw [List.mem_filter]
  cases findEntry (p.1 / 256) (p.1 % 256) with
  | none => simp
  | some r => simp

/-- A job that runs from a Deposit's contents, at the step after it (R23, R364). -/
def Job.restored (j : Job) (d : Deposit) : Job :=
  { j with state := .running, accepted := max j.accepted d.accepted,
           body := { d.body with dict := d.keptDict, nextStep := match d.step with | some n => n + 1 | none => 0, lastDone := d.step, shelf := [] } }

/-- Restoring stands a job from its Deposit, and then only writes rows where they stand (R23, R130, R364). -/
theorem State.job?_restoreJob {s : State} {slot : Nat} {j : Job} (d : Deposit) (hj : s.job? slot = some j) :
    ∃ k, (s.restoreJob slot d).job? slot = some k ∧ k.lasting = (j.restored d).lasting := by
  have hu : (s.updJob slot fun j => j.restored d).job? slot = some (j.restored d) := State.job?_updJob_of hj (fun j => j.restored d) fun _ => rfl
  have hrows : RowsOnly (s.updJob slot fun j => j.restored d) (s.restoreJob slot d) :=
    RowsOnly.trans (RowsOnly.foldl _ _ _ fun t x => .of_jobs ((State.standTile_only ..).eq .jobs rfl)) (State.standRows_rowsOnly ..)
  exact hrows.job hu

theorem depositImports {s : State} {q : Nat} {f : InFlight} {j : Job} {tagsOk signed : Bool} {gen : Nat} {tenant : List Byte} {d : Deposit}
    (h : s.Ready q 0x39 f j) (hbads : s.importBads tagsOk signed gen tenant d f = []) : let h := importHead f.cmd.payload
      Runs (.depositImport q tagsOk signed gen tenant d) s fun t => ∃ k, t.job? j.slot = some k ∧ k.nextChunk = bits h 63 32 + bits h 95 64 ∧
        k.log = j.log ++ [s.commandRecord j f] ∧
        if bit h 1 then
          k.state = .running ∧ k.accepted = max (j.accepted + 1) d.accepted ∧ k.body.nextStep = (match d.step with | some n => n + 1 | none => 0) ∧
            k.body.lastDone = d.step ∧ k.body.tables.map (fun a => (a.id, a.edition)) = d.body.tables.map (fun a => (a.id, a.edition)) ∧
            k.body.params = d.body.params ∧ k.body.shelf = [] ∧
            ∀ p, p ∈ k.body.dict ↔ p ∈ d.body.dict ∧ ∃ r, findEntry (p.1 / 256) (p.1 % 256) = some r ∧ r.access ≠ .rw ∧ r.access ≠ .wo
        else k.state = j.state ∧ k.body = j.body ∧ k.accepted = j.accepted + 1 ∧ t.tiers = s.tiers := by
  intro head
  refine ⟨_, congrArg Host.Outcome.next (State.runCommand_front h.asFront rfl hbads), ?_⟩
  rw [h.job]
  dsimp only
  rw [show (f.taken (some j)).job = some j.slot from h.slot.1]
  dsimp only
  let i : Job := { j.accepting (s.commandRecord j f) with nextChunk := bits head 63 32 + bits head 95 64 }
  let u := (s.begun f).updJob j.slot fun j => { j with nextChunk := bits head 63 32 + bits head 95 64 }
  have hu : u.job? j.slot = some i := State.job?_updJob_of h.begun (fun j => { j with nextChunk := bits head 63 32 + bits head 95 64 }) fun _ => rfl
  have hdone (v : State) : (v.done (f.taken (some j)) .ok []).job? j.slot = v.job? j.slot := State.job?_jobs ((State.done_only ..).eq .jobs rfl) _
  change ∃ k, ((if bit head 1 = true then u.restoreJob j.slot d else u).done (f.taken (some j)) .ok []).job? j.slot = some k ∧ _
  rw [hdone]
  by_cases hfinal : bit head 1 = true
  · obtain ⟨k, hk, hsame⟩ := State.job?_restoreJob d hu
    have hkept {α : Type} (g : Job → α) (hg : ∀ j, g j.lasting = g j) : g k = g (i.restored d) := by rw [← hg k, hsame, hg]
    have hids (j : Job) : j.lasting.body.tables.map (fun a => (a.id, a.edition)) = j.body.tables.map fun a => (a.id, a.edition) := List.map_map ..
    have hshelf : k.body.shelf = [] := by
      have h0 : k.lasting.body.shelf = (i.restored d).lasting.body.shelf := by rw [hsame]
      exact List.map_eq_nil_iff.1 h0
    simp only [hfinal, if_true]
    refine ⟨k, hk, hkept Job.nextChunk fun _ => rfl, hkept Job.log fun _ => rfl, hkept Job.state fun _ => rfl, hkept Job.accepted fun _ => rfl,
      hkept (·.body.nextStep) fun _ => rfl, hkept (·.body.lastDone) fun _ => rfl, hkept (fun j => j.body.tables.map fun a => (a.id, a.edition)) hids,
      hkept (·.body.params) fun _ => rfl, hshelf, fun p => ?_⟩
    rw [show k.body.dict = d.keptDict from hkept (·.body.dict) fun _ => rfl]
    exact d.mem_keptDict p
  · have htiers : ((if bit head 1 = true then u.restoreJob j.slot d else u).done (f.taken (some j)) .ok []).tiers = s.tiers := by
      rw [if_neg hfinal]
      exact ((State.done_only u ..).eq .tiers rfl).trans ((s.begun_only f).eq .tiers rfl)
    simp only [hfinal, Bool.false_eq_true, if_false]
    exact ⟨i, hu, rfl, rfl, rfl, rfl, rfl, htiers⟩

/-- Settles O18: holding chunks back changes a job only in what it holds back, and restoring writes rows only where they stand. -/
theorem depositsExportAndImport : Obligations.DepositsExportAndImport :=
  fun _ _ _ _ => ⟨fun h hlen hres => depositExports h hlen hres, fun _ _ _ _ _ h hbads => depositImports h hbads⟩

end Sys2Proof.Machine
end

section
/-!
Commands of a queue on the module's own state (R278, R289, R292, R425 to R429): NOP, EVENT_ACK, and the dictionary in band.
-/
namespace Sys2Proof.Machine
open Sys2Proof

/-! ### NOP and EVENT_ACK -/

/-- What finishing a command changes of a queue is its room and its store. -/
theorem State.events_updQueue (s : State) (p q : Nat) (f : Queue → Queue) (hf : ∀ x, (f x).events = x.events) :
    ((s.updQueue p f).queue q).events = (s.queue q).events := by
  by_cases h : p = q
  · subst h
    rw [State.queue_updQueue_self, hf]
  · rw [State.queue_updQueue_other _ _ _ _ h]

theorem State.events_releaseRoom (s : State) (p opcode q : Nat) : ((s.releaseRoom p opcode).queue q).events = (s.queue q).events := by
  unfold State.releaseRoom
  split
  · rfl
  · exact s.events_updQueue p q _ fun _ => rfl

theorem State.events_enqueue (s : State) (p id q : Nat) (r : Response) : ((s.enqueue p id r).queue q).events = (s.queue q).events := by
  unfold State.enqueue
  split
  · exact s.events_updQueue p q _ fun _ => rfl
  · rfl

theorem State.events_finish (s : State) (a b c : Nat) (st : Status) (p : List Byte) (n q : Nat) :
    ((s.finish a b c st p n).queue q).events = (s.queue q).events := by
  unfold State.finish
  split
  · rfl
  split
  · unfold State.answer
    dsimp only
    split
    · rw [State.events_enqueue, State.queue_updInFlight, State.events_releaseRoom]
    · rw [State.queue_dropInFlight, State.events_releaseRoom]
  · rfl

/-- A queue of a session whose events up to a number are acknowledged (R292). -/
def Queue.acked (x : Queue) (id upTo : Nat) : Queue := if x.session = id then { x with events := x.events.filter fun n => decide (upTo < n) } else x

/-- The queues and sessions once a session's events are acknowledged (R292). -/
def State.eventsAcked (s : State) (id upTo : Nat) : State := (s.updSession id fun y => { y with ackUpTo := upTo }).mapQueues fun _ v => v.acked id upTo

theorem State.eventAck_of {s : State} {id : Nat} {x : Session} (hx : s.session? id = some x) (n : Nat) :
    s.eventAck id n = if n < x.ackUpTo then s else s.eventsAcked id n := by
  unfold State.eventAck
  rw [hx]
  rfl

theorem State.queue_eventsAcked (s : State) (id upTo q : Nat) : (s.eventsAcked id upTo).queue q = (s.queue q).acked id upTo :=
  State.queue_mapQueues _ _ _ (by unfold Queue.acked; split <;> rfl)

theorem State.live?_updSession_isSome (s : State) (id n : Nat) (f : Session → Session) (hid : ∀ x, (f x).id = x.id) (hlive : ∀ x, (f x).live = x.live) :
    ((s.updSession id f).live? n).isSome = (s.live? n).isSome := by
  unfold State.live? State.updSession
  dsimp only
  rw [List.find?_map, Option.isSome_map]
  congr 2
  funext x
  simp only [Function.comp_apply]
  split
  · rw [hid, hlive]
  · rfl

theorem Queue.session_acked (x : Queue) (id upTo : Nat) : (x.acked id upTo).session = x.session := by unfold Queue.acked; split <;> rfl
theorem Queue.rspSeq_acked (x : Queue) (id upTo : Nat) : (x.acked id upTo).rspSeq = x.rspSeq := by unfold Queue.acked; split <;> rfl
theorem Queue.store_acked (x : Queue) (id upTo : Nat) : (x.acked id upTo).store = x.store := by unfold Queue.acked; split <;> rfl

/-- An acknowledgement leaves a command in flight, and its queue as its answer needs it. -/
theorem State.completes_eventsAcked {s : State} {f : InFlight} (hsent : f.replayed = false) (hmem : f ∈ s.port.inFlight) (id upTo : Nat) :
    Completes s (((s.begun f).eventsAcked id upTo).finish f.cmd.session f.cmd.queue f.cmd.seq .ok [] 0) f .ok [] := by
  unfold Completes
  cases hj : f.job.bind s.job? with
  | none =>
    refine State.answered_finish_of hsent hmem hj rfl ?_ ?_ ⟨[], by simp, ?_⟩ ?_
    · rw [State.queue_eventsAcked, Queue.session_acked]
    · rw [State.queue_eventsAcked, Queue.rspSeq_acked]
    · rw [State.queue_eventsAcked, Queue.store_acked, List.append_nil]
    · exact State.live?_updSession_isSome _ _ _ _ (fun _ => rfl) fun _ => rfl
  | some j =>
    exact ⟨_, State.accepted_finish hsent hmem hj rfl (State.job?_begun_self hsent hj) rfl rfl fun n hn => State.job?_begun_other hsent hj hn⟩

theorem State.bodies_begun {s : State} {f : InFlight} (hsent : f.replayed = false) : (s.begun f).jobs.map (·.body) = s.jobs.map (·.body) := by
  cases hj : f.job.bind s.job? with
  | none => rw [State.jobs_begun_none hsent hj]
  | some j =>
    rw [State.jobs_begun hsent hj, State.jobsTaking, List.map_map]
    refine List.map_congr_left fun k _ => ?_
    simp only [Function.comp_apply]
    split <;> rfl

theorem InFlight.taken_cmd (f : InFlight) (j : Option Job) : (f.taken j).cmd = f.cmd := by cases j <;> rfl
theorem InFlight.taken_job (f : InFlight) (j : Option Job) : (f.taken j).job = f.job := by cases j <;> rfl
theorem InFlight.taken_acc (f : InFlight) (j : Option Job) : (f.taken j).acc = f.acc := by cases j <;> rfl
theorem InFlight.taken_asker (f : InFlight) (j : Option Job) : (f.taken j).asker = f.asker := by cases j <;> rfl

/-- The command a job or the module has taken is finished under its own name. -/
theorem State.done_taken (u : State) (f : InFlight) (j : Option Job) (st : Status) (p : List Byte) :
    u.done (f.taken j) st p = u.finish f.cmd.session f.cmd.queue f.cmd.seq st p 0 := by
  unfold State.done
  rw [f.taken_cmd]

theorem nopAndEventAck : Claims.NopAndEventAck := by
  intro s q f
  refine ⟨fun hf hpayload => ⟨_, congrArg Host.Outcome.next (State.runCommand_front hf rfl (by rw [hpayload]; rfl)), ?_, ?_⟩,
    fun x hf hlen hx => ⟨_, congrArg Host.Outcome.next (State.runCommand_front hf rfl (by rw [hlen]; rfl)), ?_⟩⟩
  · rw [State.done_taken]
    exact State.completes_finish hf.sent (State.mem_of_arrivedOn hf.front) (.refl _) rfl
  · rw [(State.done_only ..).eq .jobs rfl, State.bodies_begun hf.sent]
  · have hx' : (s.begun f).session? f.cmd.session = some x := (State.session?_sessions ((s.begun_only f).eq .sessions rfl) _).trans hx
    have hmem := State.mem_of_arrivedOn hf.front
    dsimp only
    rw [State.done_taken, InFlight.taken_cmd, State.eventAck_of hx', State.session?_sessions ((State.finish_only ..).eq .sessions rfl)]
    simp only [State.events_finish]
    by_cases hold : leNat f.cmd.payload < x.ackUpTo
    · simp only [if_pos hold, hx', max_eq_left hold.le, if_neg (show ¬ x.ackUpTo ≤ leNat f.cmd.payload by omega)]
      exact ⟨State.completes_finish hf.sent hmem (.refl _) rfl, rfl, fun r _ => by rw [State.queue_begun hf.sent],
        fun r _ => by rw [State.queue_begun hf.sent]⟩
    · simp only [if_neg hold, max_eq_right (not_lt.1 hold), if_pos (not_lt.1 hold)]
      refine ⟨State.completes_eventsAcked hf.sent hmem _ _, ?_, fun r hr => ?_, fun r hr => ?_⟩
      · change (((s.begun f).updSession f.cmd.session fun y => { y with ackUpTo := leNat f.cmd.payload }).session? f.cmd.session).map (·.ackUpTo) = _
        rw [State.session?_updSession_self, hx']
        · rfl
        · exact fun _ => rfl
      · rw [State.queue_eventsAcked, State.queue_begun hf.sent]
        exact congrArg Queue.events (if_pos hr)
      · rw [State.queue_eventsAcked, State.queue_begun hf.sent]
        exact congrArg Queue.events (if_neg hr)

/-! ### Reads -/

/-- Taking a command leaves its job where it stands. -/
theorem State.accJob_begun_isNone {s : State} {f : InFlight} (hsent : f.replayed = false) : ((s.begun f).accJob f.acc).isNone = (s.accJob f.acc).isNone := by
  change (f.job.bind (s.begun f).job?).isNone = (f.job.bind s.job?).isNone
  cases hj : f.job.bind s.job? with
  | none => rw [show (s.begun f).job? = s.job? from funext fun n => State.job?_jobs (State.jobs_begun_none hsent hj) n, hj]
  | some j =>
    rw [(State.slot_of_bind hj).1, Option.bind_some, State.job?_begun_self hsent hj]
    rfl

theorem State.readable_begun {s : State} {f : InFlight} (hsent : f.replayed = false) (index sub : Nat) :
    (s.begun f).readable f.acc index sub = s.readable f.acc index sub := by
  unfold State.readable
  rw [State.accJob_begun_isNone hsent]

theorem dictionaryReadsInBand : Claims.DictionaryReadsInBand := by
  intro s q f hf hhead hlen h
  have hmem := State.mem_of_arrivedOn hf.front
  refine ⟨fun d hop hsome hd => ⟨_, congrArg Host.Outcome.next (State.runCommand_front hf (by simpa using hop) ?_), ?_⟩,
    fun r n d hop hrange hr htyp hsome hd => ⟨_, congrArg Host.Outcome.next (State.runCommand_front hf (by simpa using hop) ?_), ?_⟩⟩
  · simp [hhead, need, hlen, hsome, h]
  · dsimp only
    rw [State.done_taken, InFlight.taken_cmd, InFlight.taken_acc, hd]
    exact State.completes_finish hf.sent hmem (.refl _) rfl
  · simp [hhead, need, hlen, hrange, hr, htyp, hsome, h]
  · dsimp only
    rw [InFlight.taken_cmd, InFlight.taken_acc, State.readable_begun hf.sent, hr]
    dsimp only
    rw [State.done_taken, hd]
    exact State.completes_finish hf.sent hmem (.refl _) rfl

/-! ### Writes -/

theorem Noticed.raise {s t : State} (h : Noticed s t) (code : Nat) (src : Source) (u a b c : Nat) : Noticed s (t.raise code src u a b c) :=
  h.trans (t.raise_noticed code src u a b c)

theorem EntryKept.raise {s t : State} (h : EntryKept s t) (code : Nat) (src : Source) (u a b c : Nat) : EntryKept s (t.raise code src u a b c) :=
  h.trans (t.raise_entryKept code src u a b c)

theorem State.takeNode_noticed (s : State) : Noticed s s.takeNode := by
  unfold State.takeNode
  dsimp only
  split
  · exact .refl s
  split
  · refine Noticed.raise (Noticed.raise ?_ ..) ..
    exact .of rfl rfl
  · refine Noticed.raise ?_ ..
    exact .of rfl rfl

theorem State.takeNode_entryKept (s : State) : EntryKept s s.takeNode := by
  unfold State.takeNode
  dsimp only
  split
  · exact .refl s
  split
  · refine EntryKept.raise (EntryKept.raise ?_ ..) ..
    exact .of_dict rfl
  · refine EntryKept.raise ?_ ..
    exact .of_dict rfl

theorem State.afterWrite_noticed (s : State) (key : Nat) : Noticed s (s.afterWrite key) := by
  unfold State.afterWrite
  split
  · exact s.takeNode_noticed
  · exact .refl s

/-- What follows a write leaves the value written. -/
theorem State.entry_afterWrite (s : State) (index sub : Nat) : (s.afterWrite (entryKey index sub)).entry index sub = s.entry index sub := by
  unfold State.afterWrite
  split
  · next h =>
    refine s.takeNode_entryKept.entry ?_
    simp only [entryKey] at h
    unfold eventKey entryKey
    omega
  · rfl

/-- What a write that has passed its checks leaves (R427, R429, R433). -/
def EntryStored (s t : State) (f : InFlight) (r : Entry) (index sub : Nat) (v : DVal) : Prop :=
  if r.retained then t.retainedWrites = s.retainedWrites ++ [{ key := entryKey index sub, value := v, asker := f.asker }] ∧ t.dict = s.dict
  else Completes s t f .ok [] ∧
    if index = 0xF010 ∧ sub = 1 then ∀ x ∈ t.sessions, x.id = f.cmd.session → x.describe = v.toNat
    else if r.jobScoped then ∃ j k, f.job.bind s.job? = some j ∧ t.job? j.slot = some k ∧ k.entry index sub = v
    else t.entry index sub = v

/-- A job with a value of its own written, and the acceptance a row's write waits for noted (R428). -/
def Job.written (j : Job) (index sub : Nat) (v : DVal) : Job :=
  let j := j.setEntry index sub v
  if within 0x5401 0x5408 index then { j with body := { j.body with rowWrites := j.body.rowWrites ++ [(entryKey index sub, j.accepted)] } } else j

theorem Job.slot_written (j : Job) (index sub : Nat) (v : DVal) : (j.written index sub v).slot = j.slot := by unfold Job.written; dsimp only; split <;> rfl
theorem Job.accepted_written (j : Job) (index sub : Nat) (v : DVal) : (j.written index sub v).accepted = j.accepted := by
  unfold Job.written; dsimp only; split <;> rfl
theorem Job.log_written (j : Job) (index sub : Nat) (v : DVal) : (j.written index sub v).log = j.log := by unfold Job.written; dsimp only; split <;> rfl
theorem Job.entry_written (j : Job) (index sub : Nat) (v : DVal) : (j.written index sub v).entry index sub = v := by
  have hset : (j.setEntry index sub v).entry index sub = v := aGetD_aSet_self ..
  unfold Job.written
  dsimp only
  split <;> exact hset

section
variable {s u : State} {f : InFlight} (hsent : f.replayed = false) (hmem : f ∈ s.port.inFlight) (hu : Only [.blocks, .abandoned] (s.begun f) u)
include hsent hmem hu

/-- An effect after acceptance that leaves jobs and, events apart, the host port. -/
theorem State.completes_after {t : State} (ht : Noticed u t) (hjobs : t.jobs = u.jobs) (st : Status) (p : List Byte) :
    Completes s (t.finish f.cmd.session f.cmd.queue f.cmd.seq st p 0) f st p :=
  State.completes_finish hsent hmem (Noticed.trans (.of (hu.eq .port rfl) (by rw [hu.eq .sessions rfl])) ht) (hjobs.trans (hu.eq .jobs rfl))

/-- A write takes effect where its entry stands: with the session, in the job or in the module (R427, R433). -/
theorem State.applyWrite_stored {r : Entry} (index sub : Nat) (v : DVal) (hmay : r.jobScoped = true → (f.job.bind s.job?).isSome = true) :
    EntryStored s (u.applyWrite f.acc r index sub v f.asker) f r index sub v := by
  unfold EntryStored State.applyWrite
  by_cases hretained : r.retained = true
  · rw [if_pos hretained, if_pos hretained]
    refine ⟨?_, (hu.eq .dict rfl).trans ((s.begun_only f).eq .dict rfl)⟩
    exact congrArg (· ++ _) ((hu.eq .retainedWrites rfl).trans ((s.begun_only f).eq .retainedWrites rfl))
  rw [if_neg hretained, if_neg hretained]
  change Completes s ((u.store f.acc r index sub v).finish f.cmd.session f.cmd.queue f.cmd.seq .ok [] 0) f .ok [] ∧
    (if index = 0xF010 ∧ sub = 1 then ∀ x ∈ ((u.store f.acc r index sub v).finish f.cmd.session f.cmd.queue f.cmd.seq .ok [] 0).sessions,
        x.id = f.cmd.session → x.describe = v.toNat
      else if r.jobScoped then ∃ j k, f.job.bind s.job? = some j ∧
        ((u.store f.acc r index sub v).finish f.cmd.session f.cmd.queue f.cmd.seq .ok [] 0).job? j.slot = some k ∧ k.entry index sub = v
      else ((u.store f.acc r index sub v).finish f.cmd.session f.cmd.queue f.cmd.seq .ok [] 0).entry index sub = v)
  unfold State.store
  by_cases hdescribe : index = 0xF010 ∧ sub = 1
  · simp only [if_pos hdescribe]
    have hnoticed : Noticed u (u.updSession f.acc.session fun x => { x with describe := v.toNat }) := .of rfl (State.cores_updSession _ _ _ fun _ => rfl)
    refine ⟨State.completes_after hsent hmem hu hnoticed rfl .ok [], fun x hx hid => ?_⟩
    rw [(State.finish_only ..).eq .sessions rfl] at hx
    obtain ⟨y, -, rfl⟩ := List.mem_map.1 hx
    split
    · rfl
    · next hy => exact absurd (by rwa [if_neg hy] at hid) hy
  simp only [if_neg hdescribe]
  by_cases hjob : r.jobScoped = true
  · obtain ⟨j, hj⟩ := Option.isSome_iff_exists.1 (hmay hjob)
    have hk : u.job? j.slot = some (j.accepting (s.commandRecord j f)) := (State.job?_jobs (hu.eq .jobs rfl) _).trans (State.job?_begun_self hsent hj)
    have hacc : u.accJob f.acc = some (j.accepting (s.commandRecord j f)) := by
      change f.job.bind u.job? = _
      rw [(State.slot_of_bind hj).1]
      exact hk
    simp only [if_pos hjob, hacc]
    have hwritten : (u.updJob j.slot fun k => k.written index sub v).job? j.slot = some ((j.accepting (s.commandRecord j f)).written index sub v) :=
      State.job?_updJob_of hk _ fun k => k.slot_written ..
    have haccepted := State.accepted_finish (st := .ok) (p := []) (u := u.updJob j.slot fun k => k.written index sub v) hsent hmem hj
      (by rw [← hu.eq .port rfl]; rfl) hwritten (Job.accepted_written ..) (Job.log_written ..) fun n hn => by
        rw [State.job?_updJob_other _ _ _ _ (fun k => k.slot_written ..) hn.symm, State.job?_jobs (hu.eq .jobs rfl), State.job?_begun_other hsent hj hn]
    refine ⟨?_, j, _, hj, haccepted.job, Job.entry_written ..⟩
    unfold Completes
    rw [hj]
    exact ⟨_, haccepted⟩
  · simp only [if_neg hjob]
    have hnoticed : Noticed u (u.setEntry index sub v) := .of rfl rfl
    refine ⟨State.completes_after hsent hmem hu (hnoticed.trans (State.afterWrite_noticed ..)) ((State.afterWrite_only ..).eq .jobs rfl) .ok [], ?_⟩
    rw [State.entry_dict ((State.finish_only ..).eq .dict rfl), State.entry_afterWrite, State.entry_setEntry_self]

end

/-- An access that may write a job-scoped entry serves a job (R428). -/
theorem State.serves_of_mayWrite {s : State} {f : InFlight} {r : Entry} {index sub : Nat} (h : s.mayWrite f.acc r index sub = true)
    (hjob : r.jobScoped = true) : (f.job.bind s.job?).isSome = true := by
  unfold State.mayWrite at h
  rw [if_pos hjob, Bool.and_eq_true] at h
  exact h.2

theorem need_eq_nil {b : Bool} {x : Bad} : need b x = [] ↔ b = true := by cases b <;> simp [need]

theorem State.mayWrite_of_writeBads {s : State} {a : Acc} {r : Entry} {index sub base : Nat} {data : List Byte} (hr : findEntry index sub = some r)
    (h : s.writeBads a index sub data base = []) : s.mayWrite a r index sub = true := by
  unfold State.writeBads at h
  rw [hr] at h
  simp only [List.append_eq_nil_iff, need_eq_nil] at h
  exact h.1.1

theorem State.mayWrite_of_blockBads {s : State} {a : Acc} {r : Entry} {index sub off : Nat} {data : List Byte} {last : Bool}
    (hr : findEntry index sub = some r) (h : s.blockBads a index sub off data last = []) : s.mayWrite a r index sub = true := by
  unfold State.blockBads at h
  rw [hr] at h
  simp only [List.append_eq_nil_iff, need_eq_nil] at h
  exact h.1.1.1

/-! ### Block writes -/

theorem State.blockStep_begun (s : State) (f : InFlight) (index sub off : Nat) (data : List Byte) (last : Bool) :
    (s.begun f).blockStep f.acc index sub off data last = s.blockStep f.acc index sub off data last := by
  have hblocks : (s.begun f).blocks = s.blocks := (s.begun_only f).eq .blocks rfl
  have habandoned : (s.begun f).abandoned = s.abandoned := (s.begun_only f).eq .abandoned rfl
  unfold State.blockStep State.openBlock
  rw [hblocks, habandoned]

theorem State.openBlock_closeBlock (s : State) (a : Acc) (key : Nat) : (s.closeBlock a key).openBlock a key = none := by
  unfold State.openBlock State.closeBlock
  simp only [List.find?_eq_none, List.mem_filter]
  rintro b ⟨-, hb⟩ h
  simp only [h, Bool.not_true, Bool.false_eq_true] at hb

theorem State.openBlock_blocks {s t : State} (h : t.blocks = s.blocks) (a : Acc) (key : Nat) : t.openBlock a key = s.openBlock a key := by
  rw [State.openBlock, State.openBlock, h]

/-- A block that is kept is the open block of its access. -/
theorem State.openBlock_keepBlock (s : State) (a : Acc) (key : Nat) (data : List Byte) : (s.keepBlock a key data).openBlock a key =
    some { key := key, session := a.session, overGdp := a.gdp, job := a.job, data := data, next := data.length } := by
  have hnone := s.openBlock_closeBlock a key
  unfold State.openBlock at hnone
  unfold State.keepBlock State.openBlock
  dsimp only
  rw [List.find?_append, hnone]
  simp

/-- A WRITE_BLOCK that passes its checks ends no block by failing (R426). -/
theorem State.failedBlock_of_passes {s : State} {q : Nat} {f : InFlight} (hf : s.arrivedOn q 0x40 = some f)
    (h : let h := dictHead f.cmd.payload; s.blockBads f.acc h.index h.sub h.off (f.cmd.payload.drop 16) false = []) : s.failedBlock q = none := by
  unfold State.failedBlock
  rw [hf]
  refine if_neg fun hfails => ?_
  obtain ⟨-, -, -, -, -, hfails⟩ := hfails
  unfold State.blockFails at hfails
  rw [h] at hfails
  split at hfails
  · simp at hfails
  · exact Bool.false_ne_true hfails

/-- A WRITE_BLOCK that passes its checks is performed as its command is taken (R289, R426). -/
theorem State.dictWriteBlock_front {s : State} {q : Nat} {f : InFlight} (hf : s.Front q 0x40 f) (hhead : dictHeadBads f.cmd.payload = [])
    (hop : (dictHead f.cmd.payload).op = 3) (hown : ownBlock (dictHead f.cmd.payload).index (dictHead f.cmd.payload).sub = false)
    (hdata : f.cmd.payload.drop 16 ≠ [])
    (hbads : let h := dictHead f.cmd.payload; s.blockBads f.acc h.index h.sub h.off (f.cmd.payload.drop 16) false = []) :
    s.dictWriteBlock q = let h := dictHead f.cmd.payload
      (s.begun f).blockWrite f.acc h.index h.sub h.off (f.cmd.payload.drop 16) false f.asker := by
  have hlen : 16 < f.cmd.payload.length := by
    by_contra hshort
    exact hdata (List.drop_eq_nil_of_le (by omega))
  unfold State.dictWriteBlock
  rw [State.failedBlock_of_passes hf.front hbads, State.runCommand_front hf (by simp [hop, hown]) (by simp [hhead, hlen, need]; exact hbads)]
  dsimp only [State.endBlock]
  rw [f.taken_cmd, f.taken_acc, f.taken_asker]

theorem dictionaryWritesInBand : Claims.DictionaryWritesInBand := by
  intro s q f r hf hhead h data key stored hr
  have hmem := State.mem_of_arrivedOn hf.front
  refine ⟨fun hop hown hbads => ?_, fun hop hown hdata hbads => ⟨fun all hstep => ?_, fun all hstep => ?_⟩⟩
  · refine ⟨_, congrArg Host.Outcome.next (State.runCommand_front hf (by simp [h, hop, hown]) (by rw [hhead]; exact hbads)), ?_⟩
    dsimp only
    rw [f.taken_cmd, hr, f.taken_acc, f.taken_asker]
    exact State.applyWrite_stored hf.sent hmem (.refl _ _) h.index h.sub _ (State.serves_of_mayWrite (State.mayWrite_of_writeBads hr hbads))
  · refine ⟨_, congrArg Host.Outcome.next (State.dictWriteBlock_front hf hhead hop hown hdata hbads), ?_⟩
    have hwrite : (s.begun f).blockWrite f.acc h.index h.sub h.off data false f.asker =
        ((s.begun f).keepBlock f.acc key all).finish f.cmd.session f.cmd.queue f.cmd.seq .ok [] 0 := by
      unfold State.blockWrite
      rw [hr, State.blockStep_begun, hstep]
      rfl
    dsimp only
    rw [hwrite]
    refine ⟨State.completes_after hf.sent hmem (State.keepBlock_only ..) (.refl _) rfl .ok [],
      { key := key, session := f.acc.session, overGdp := f.acc.gdp, job := f.acc.job, data := all, next := all.length }, ?_, rfl, rfl⟩
    rw [State.openBlock_blocks ((State.finish_only ..).eq .blocks rfl), State.openBlock_keepBlock]
  · refine ⟨_, congrArg Host.Outcome.next (State.dictWriteBlock_front hf hhead hop hown hdata hbads), ?_⟩
    have hwrite : (s.begun f).blockWrite f.acc h.index h.sub h.off data false f.asker =
        if h.index = 0x8020 ∧ h.sub = 3 then { (s.begun f).closeBlock f.acc key with baseStaged := some (all, f.asker) }
        else ((s.begun f).closeBlock f.acc key).applyWrite f.acc r h.index h.sub (.blk all) f.asker := by
      unfold State.blockWrite
      rw [hr, State.blockStep_begun, hstep]
    dsimp only
    rw [hwrite]
    by_cases hbase : h.index = 0x8020 ∧ h.sub = 3
    · rw [if_pos hbase, if_pos hbase]
      exact ⟨State.openBlock_closeBlock .., rfl⟩
    · rw [if_neg hbase, if_neg hbase]
      refine ⟨?_, State.applyWrite_stored hf.sent hmem (State.closeBlock_only ..) h.index h.sub _ (State.serves_of_mayWrite (State.mayWrite_of_blockBads hr hbads))⟩
      rw [State.openBlock_blocks ((State.applyWrite_only ..).eq .blocks rfl), State.openBlock_closeBlock]

/-! ### Role map writes -/

/-- Cancelling a move changes of a job only what its steps bind (R245). -/
theorem State.job?_cancelMove {s : State} {slot : Nat} {j : Job} (hj : s.job? slot = some j) (tile : Nat) :
    ∃ k, (s.cancelMove slot tile).job? slot = some k ∧ k.accepted = j.accepted ∧ k.log = j.log := by
  unfold State.cancelMove
  refine ⟨_, State.job?_updJob_of hj _ fun k => ?_, ?_, ?_⟩
  · dsimp only
    split <;> rfl
  · dsimp only
    split <;> rfl
  · dsimp only
    split <;> rfl

theorem State.job?_cancelMove_other (s : State) (slot tile : Nat) {n : Nat} (hn : n ≠ slot) : (s.cancelMove slot tile).job? n = s.job? n := by
  unfold State.cancelMove
  refine State.job?_updJob_other _ _ _ _ (fun k => ?_) hn.symm
  dsimp only
  split <;> rfl

/-- A role map word that is written stands, and no other changes (R44). -/
theorem State.roleWord_setRole (s : State) (t w : Nat) (i : Nat) :
    (s.setRole t w).roleWord i = if i = t then w else s.roleWord i := by
  have hdict : (if s.roleWord t = w then s else s.updUnit t fun u => { u with epoch := u.epoch + 1 }).dict = s.dict := by split <;> rfl
  change (State.setNum _ (0x4010 + t / 64) (t % 64 + 1) w).num (0x4010 + i / 64) (i % 64 + 1) = _
  by_cases h : i = t
  · rw [if_pos h, h, State.num_setNum_self]
  · rw [if_neg h, State.num_setNum_other]
    · exact State.num_dict hdict ..
    · unfold entryKey
      omega

theorem roleMapWrites : Claims.RoleMapWrites := by
  intro s q f hf hbads h hop hindex
  have hsub : 1 ≤ h.sub ∧ h.sub ≤ 64 := by
    unfold State.roleWriteBads at hbads
    simp only [List.append_eq_nil_iff, need_eq_nil] at hbads
    simpa [within] using hbads.1.1.2
  obtain ⟨j, hj⟩ : ∃ j, f.job.bind s.job? = some j := by
    cases hj : f.job.bind s.job? with
    | none => simp [State.roleWriteBads, hj] at hbads
    | some j => exact ⟨j, rfl⟩
  obtain ⟨hslot, -⟩ := State.slot_of_bind hj
  refine ⟨_, congrArg Host.Outcome.next (State.runCommand_front hf (by simp [h, hop, hindex, Nat.lt_of_succ_le hsub.1]) hbads), ?_⟩
  dsimp only
  rw [State.done_taken, f.taken_cmd, f.taken_job, hslot]
  dsimp only
  obtain ⟨k, hk, haccepted, hlog⟩ := State.job?_cancelMove (State.job?_begun_self hf.sent hj) (64 * (h.index - 0x4010) + h.sub - 1)
  have honly := State.setRole_only ((s.begun f).cancelMove j.slot (64 * (h.index - 0x4010) + h.sub - 1)) (64 * (h.index - 0x4010) + h.sub - 1)
    (leNat (f.cmd.payload.drop 16))
  refine ⟨?_, fun i hi => ?_⟩
  · unfold Completes
    rw [hj]
    refine ⟨k, State.accepted_finish hf.sent (State.mem_of_arrivedOn hf.front) hj ?_ ((State.job?_jobs (honly.eq .jobs rfl) _).trans hk) haccepted hlog fun n hn => ?_⟩
    · rw [honly.eq .port rfl]
      rfl
    · rw [State.job?_jobs (honly.eq .jobs rfl), State.job?_cancelMove_other _ _ _ hn, State.job?_begun_other hf.sent hj hn]
  · have hdict (t : State) (hd : t.dict = s.dict) : t.roleWord i = s.roleWord i := State.num_dict hd ..
    rw [State.roleWord, State.num_dict ((State.finish_only ..).eq .dict rfl)]
    change (State.setRole _ _ _).roleWord i = _
    rw [State.roleWord_setRole, hdict]
    exact (s.begun_only f).eq .dict rfl

/-- Settles O19: a write takes effect behind its acceptance, and nothing of the effect touches what the answer needs. -/
theorem dictionaryInBand : Obligations.DictionaryInBand := ⟨nopAndEventAck, dictionaryReadsInBand, dictionaryWritesInBand, roleMapWrites⟩

end Sys2Proof.Machine
end

section
/-!
Jobs that open, resume and close (R22, R45, R47, R279 to R281).
-/
namespace Sys2Proof.Machine
open Sys2Proof

/-! ### A command that opens or resumes its job -/

/-- The command that a job it opens or resumes has taken (R279, R280). -/
def InFlight.opening (f : InFlight) (j : Job) : InFlight := { f with job := some j.slot, accept := some (j.accepted + 1), logged := false }

/-- The record of that command (R37, R359). -/
def State.openRecord (s : State) (j : Job) (f : InFlight) : LogRec :=
  { kind := 1, opcode := f.cmd.opcode, mb := 0, step := f.cmd.step, accept := j.accepted + 1, body := f.cmd.payload, offset := j.logEnd, mirrored := false,
    committed := false, gen := s.sec.numericsGen }

theorem State.inFlight?_updInFlight_of {s : State} {a b c : Nat} {f : InFlight} (hf : s.inFlight? a b c = some f) (g : InFlight → InFlight)
    (hg : ∀ f : InFlight, f.is a b c = true → (g f).is a b c = true) : (s.updInFlight a b c g).inFlight? a b c = some (g f) := by
  rw [State.inFlight?_updInFlight _ _ _ _ _ hg, hf]
  rfl

/-- The command as the job it opens or resumes takes it up. -/
def InFlight.joined (f : InFlight) (slot : Nat) : InFlight := { f with job := some slot, logged := false }

/-- A job that accepts the command that opens or resumes it. -/
def Job.opening (k : Job) (n : Nat) (r : LogRec) : Job :=
  { k with accepted := n, log := k.log ++ [{ r with offset := k.logEnd }], logEnd := k.logEnd + 64 + r.body.length }

/-- A job's acceptance of a command of the host: its index, and its record at the log's end (R28, R359). -/
theorem State.accept_job {s : State} {f : InFlight} {j : Job} (hsent : f.replayed = false) (hj : f.job.bind s.job? = some j) :
    s.accept f (some (1, f.cmd.payload)) =
      ((s.updInFlight f.cmd.session f.cmd.queue f.cmd.seq fun _ => { f with accept := some (j.accepted + 1), logged := false }).updJob j.slot fun k =>
          k.opening (j.accepted + 1) (s.openRecord j f),
        { f with accept := some (j.accepted + 1), logged := false }) := by
  unfold State.accept
  rw [hj]
  simp only [hsent, Bool.false_eq_true, if_false, Option.isNone_some, State.logRecord, State.updJob, bne_self_eq_false, Bool.false_and, List.map_map,
    if_true, State.updInFlight, Job.opening, State.openRecord]
  congr 2
  refine List.map_congr_left fun k _ => ?_
  simp only [Function.comp_apply]
  by_cases h : k.slot = j.slot
  · simp [h]
  · simp [h]

section
variable {s : State} {f : InFlight} {j : Job} (hsent : f.replayed = false) (hj : s.job? j.slot = some j)
include hsent hj

theorem State.acceptOpen_eq : s.acceptOpen f j.slot =
    (((s.updInFlight f.cmd.session f.cmd.queue f.cmd.seq fun g => g.joined j.slot).updInFlight f.cmd.session f.cmd.queue f.cmd.seq fun _ =>
        f.opening j).updJob j.slot fun k => k.opening (j.accepted + 1) (s.openRecord j f),
      f.opening j) :=
  State.accept_job (s := s.updInFlight f.cmd.session f.cmd.queue f.cmd.seq fun g => g.joined j.slot) (f := f.joined j.slot) hsent hj

theorem State.acceptOpen_snd : (s.acceptOpen f j.slot).2 = f.opening j := congrArg Prod.snd (State.acceptOpen_eq hsent hj)

theorem State.job?_acceptOpen_self : (s.acceptOpen f j.slot).1.job? j.slot = some (j.accepting (s.openRecord j f)) := by
  rw [State.acceptOpen_eq hsent hj]
  dsimp only
  exact State.job?_updJob_of (s := (s.updInFlight f.cmd.session f.cmd.queue f.cmd.seq fun g => g.joined j.slot).updInFlight
    f.cmd.session f.cmd.queue f.cmd.seq fun _ => f.opening j) hj (fun k => k.opening (j.accepted + 1) (s.openRecord j f)) fun _ => rfl

theorem State.job?_acceptOpen_other {n : Nat} (hn : n ≠ j.slot) : (s.acceptOpen f j.slot).1.job? n = s.job? n := by
  rw [State.acceptOpen_eq hsent hj]
  exact State.job?_updJob_other _ _ _ _ (fun _ => rfl) hn.symm

theorem State.queue_acceptOpen (q : Nat) : (s.acceptOpen f j.slot).1.queue q = s.queue q := by
  rw [State.acceptOpen_eq hsent hj]
  rfl

theorem State.inFlight?_acceptOpen (hmem : (s.inFlight? f.cmd.session f.cmd.queue f.cmd.seq).isSome = true) :
    (s.acceptOpen f j.slot).1.inFlight? f.cmd.session f.cmd.queue f.cmd.seq = some (f.opening j) := by
  obtain ⟨g, hg⟩ := Option.isSome_iff_exists.1 hmem
  rw [State.acceptOpen_eq hsent hj]
  exact State.inFlight?_updInFlight_of (State.inFlight?_updInFlight_of hg (fun g => g.joined j.slot) fun _ h => h) (fun _ => f.opening j) fun _ _ => f.is_self

end

/-- A command not yet logged has its response held until its record commits (R360). -/
theorem State.finish_unlogged {s : State} {a b c : Nat} {g : InFlight} (hg : s.inFlight? a b c = some g) (hlogged : g.logged = false) (st : Status)
    (p : List Byte) (n : Nat) : s.finish a b c st p n = s.updInFlight a b c fun g => { g with stage := .done st p n } := by
  unfold State.finish
  rw [hg]
  exact if_neg (by rw [hlogged]; decide)

/-- What a command has done that its job, new or resumed, has accepted and that is finished (R279, R280, R360). -/
structure Opened (u t : State) (f : InFlight) (i : Job) (st : Status) (p : List Byte) : Prop where
  job : t.job? i.slot = some (i.accepting (u.openRecord i f))
  others : ∀ n, n ≠ i.slot → t.job? n = u.job? n
  stands : t.inFlight? f.cmd.session f.cmd.queue f.cmd.seq = some { f.opening i with stage := .done st p 0 }
  queue : ∀ q, t.queue q = u.queue q
  dict : t.dict = u.dict

theorem State.opened {u : State} {f : InFlight} {i : Job} (hsent : f.replayed = false) (hi : u.job? i.slot = some i)
    (hmem : (u.inFlight? f.cmd.session f.cmd.queue f.cmd.seq).isSome = true) (st : Status) (p : List Byte) :
    Opened u ((u.acceptOpen f i.slot).1.done (u.acceptOpen f i.slot).2 st p) f i st p := by
  have hin := State.inFlight?_acceptOpen hsent hi hmem
  have hdone : (u.acceptOpen f i.slot).1.done (u.acceptOpen f i.slot).2 st p =
      (u.acceptOpen f i.slot).1.updInFlight f.cmd.session f.cmd.queue f.cmd.seq fun g => { g with stage := .done st p 0 } := by
    rw [State.acceptOpen_snd hsent hi]
    exact State.finish_unlogged hin rfl st p 0
  rw [hdone]
  refine ⟨State.job?_acceptOpen_self hsent hi, fun n hn => State.job?_acceptOpen_other hsent hi hn, ?_, fun q => ?_, (State.acceptOpen_only ..).eq .dict rfl⟩
  · exact State.inFlight?_updInFlight_of hin (fun g => { g with stage := .done st p 0 }) fun _ h => h
  · rw [State.queue_updInFlight, State.queue_acceptOpen hsent hi]

/-! ### Binding queues -/

/-- A queue once its job has bound it (R19, R279). -/
def Queue.bound (x : Queue) (session slot : Nat) : Queue :=
  if x.session = 0 then { x with session := session, lastSeq := 0, rspSeq := 0, events := [], job := some slot } else { x with job := some slot }

theorem State.bindQueues_cons (s : State) (q : Nat) (qs : List Nat) (session slot : Nat) :
    s.bindQueues (q :: qs) session slot = (s.updQueue q fun x => x.bound session slot).bindQueues qs session slot := rfl

theorem Queue.bound_job (x : Queue) (session slot : Nat) : (x.bound session slot).job = some slot := by unfold Queue.bound; split <;> rfl

theorem Queue.bound_session (x : Queue) (session slot : Nat) : (x.bound session slot).session = if x.session = 0 then session else x.session := by
  unfold Queue.bound
  split <;> rfl

/-- Every queue that is bound serves the job, and a free one the session as well. -/
theorem State.queue_bindQueues (qs : List Nat) (session slot p : Nat) (s : State)
    (h : p ∈ qs ∨ (s.queue p).job = some slot) :
    ((s.bindQueues qs session slot).queue p).job = some slot := by
  induction qs generalizing s with
  | nil => simpa [State.bindQueues] using h
  | cons q qs ih =>
    rw [State.bindQueues_cons]
    refine ih _ ?_
    by_cases hq : q = p
    · subst hq
      exact .inr (by rw [State.queue_updQueue_self, Queue.bound_job])
    · rw [State.queue_updQueue_other _ _ _ _ hq]
      exact h.imp_left fun hp => (List.mem_cons.1 hp).resolve_left fun h => hq h.symm

theorem State.session_bindQueues (qs : List Nat) (session slot p : Nat) (s : State)
    (h : p ∈ qs ∧ (s.queue p).session = 0 ∨ (s.queue p).session = session) :
    ((s.bindQueues qs session slot).queue p).session = session := by
  induction qs generalizing s with
  | nil => simpa [State.bindQueues] using h
  | cons q qs ih =>
    rw [State.bindQueues_cons]
    refine ih _ ?_
    by_cases hq : q = p
    · subst hq
      rw [State.queue_updQueue_self, Queue.bound_session]
      refine .inr ?_
      split
      · rfl
      · next hne => exact h.resolve_left fun h => hne h.2
    · rw [State.queue_updQueue_other _ _ _ _ hq]
      exact h.imp_left fun hp => ⟨(List.mem_cons.1 hp.1).resolve_left fun h => hq h.symm, hp.2⟩

theorem State.inFlight_bindQueues (qs : List Nat) (session slot : Nat) (s : State) : (s.bindQueues qs session slot).port.inFlight = s.port.inFlight :=
  List.foldlRecOn (motive := fun t : State => t.port.inFlight = s.port.inFlight) qs _ rfl fun _ ht _ _ => ht

/-! ### The role map of a job that opens -/

theorem State.setRoles_only (s : State) (ws : List Nat) (ts : List Nat) :
    Only [.dict, .tileUnits] s (ts.foldl (fun s t => if nth ws t = 0 then s else s.setRole t (nth ws t)) s) :=
  Only.foldl _ _ _ fun t i => by
    split
    · exact .refl ..
    · exact State.setRole_only ..

/-- Each word that holds a role stands in the role map, and no other changes. -/
theorem State.roleWord_setRoles (ws ts : List Nat) (i : Nat) (s : State) :
    (ts.foldl (fun s t => if nth ws t = 0 then s else s.setRole t (nth ws t)) s).roleWord i =
      if i ∈ ts ∧ nth ws i ≠ 0 then nth ws i else s.roleWord i := by
  induction ts generalizing s with
  | nil => simp
  | cons t ts ih =>
    rw [List.foldl_cons, ih]
    by_cases hi : i = t
    · subst hi
      by_cases hw : nth ws i = 0
      · simp [hw]
      · simp [hw, State.roleWord_setRole]
    · have hkept : (if nth ws t = 0 then s else s.setRole t (nth ws t)).roleWord i = s.roleWord i := by
        split
        · rfl
        · rw [State.roleWord_setRole, if_neg hi]
      simp [hi, hkept]

/-! ### Opening and resuming -/

/-- The acceptance of a command that opens or resumes job `i`, which is `j` but for what the command has changed before it is accepted. -/
theorem Opened.accepted {s u t : State} {f : InFlight} {i j : Job} {st : Status} {p : List Byte} (h : Opened u t (f.taken none) i st p)
    (hslot : i.slot = j.slot) (haccepted : i.accepted = j.accepted) (hlog : i.log = j.log) (hend : i.logEnd = j.logEnd) (hsec : u.sec = s.sec)
    (hothers : ∀ n, n ≠ j.slot → u.job? n = s.job? n) :
    Accepted s t { f with job := some j.slot } j (i.accepting (s.commandRecord j f)) (.done st p 0) := by
  have hrecord : u.openRecord i (f.taken none) = s.commandRecord j f := by
    unfold State.openRecord State.commandRecord
    rw [haccepted, hend, hsec]
    rfl
  have hjob := h.job
  have hstands := h.stands
  rw [hslot, hrecord] at hjob
  rw [InFlight.opening, hslot, haccepted] at hstands
  exact ⟨hjob, congrArg (· + 1) haccepted, congrArg (· ++ _) hlog, fun n hn => (h.others n (hslot ▸ hn)).trans (hothers n hn), hstands⟩

section
variable {s : State} {f : InFlight} (hsent : f.replayed = false) (hnone : f.job = none)
include hsent hnone

/-- A command that serves no job yet changes no job as it is taken. -/
theorem State.jobs_begun_of_none : (s.begun f).jobs = s.jobs := State.jobs_begun_none hsent (by rw [hnone]; rfl)

theorem State.jobAsked_begun : (s.begun f).jobAsked (f.taken none) = s.jobAsked f := by
  have hjobs : (s.begun f).freeSlot = s.freeSlot := by
    unfold State.freeSlot State.job?
    rw [State.jobs_begun_of_none hsent hnone]
  unfold State.jobAsked
  dsimp only
  rw [hjobs, f.taken_cmd, State.live?_begun]

end

theorem State.inFlight?_begun_isSome {s u : State} {f : InFlight} (hsent : f.replayed = false) (hmem : f ∈ s.port.inFlight)
    (hport : u.port.inFlight = (s.begun f).port.inFlight) :
    (u.inFlight? (f.taken none).cmd.session (f.taken none).cmd.queue (f.taken none).cmd.seq).isSome = true := by
  rw [f.taken_cmd, State.inFlight?_port hport, State.inFlight?_begun hsent hmem]
  rfl

/-- A state with its new job, the queues it binds and the role map words it brings, before its command is accepted (R279). -/
def State.opening (s : State) (f : InFlight) : State :=
  let j := s.jobAsked f
  let ws := filledWords f.cmd.payload j.slot
  (List.range ws.length).foldl (fun s t => if nth ws t = 0 then s else s.setRole t (nth ws t))
    (({ s with jobs := s.jobs ++ [j] } : State).bindQueues j.queues f.cmd.session j.slot)

theorem State.openJob_eq (s : State) (f : InFlight) : s.openJob f =
    ((s.opening f).acceptOpen f (s.jobAsked f).slot).1.done ((s.opening f).acceptOpen f (s.jobAsked f).slot).2 .ok (openAnswer (s.jobAsked f).slot 0) := rfl

theorem State.opening_only (s : State) (f : InFlight) : Only [.port, .jobs, .dict, .tileUnits] s (s.opening f) := by
  have hbind : Only [.port, .jobs, .dict, .tileUnits] s
      (({ s with jobs := s.jobs ++ [s.jobAsked f] } : State).bindQueues (s.jobAsked f).queues f.cmd.session (s.jobAsked f).slot) :=
    Only.after (State.bindQueues_only ..) (Only.upd (Only.refl ..)) (by decide)
  exact (State.setRoles_only ..).after hbind (by decide)

theorem State.jobs_opening (s : State) (f : InFlight) : (s.opening f).jobs = s.jobs ++ [s.jobAsked f] :=
  ((State.setRoles_only ..).eq .jobs rfl).trans ((State.bindQueues_only ..).eq .jobs rfl)

theorem State.job?_opening_self {s : State} {f : InFlight} (hfree : s.job? (s.jobAsked f).slot = none) :
    (s.opening f).job? (s.jobAsked f).slot = some (s.jobAsked f) := by
  unfold State.job? at hfree ⊢
  rw [State.jobs_opening, List.find?_append, hfree]
  simp

theorem State.job?_opening_other (s : State) (f : InFlight) {n : Nat} (hn : n ≠ (s.jobAsked f).slot) : (s.opening f).job? n = s.job? n := by
  unfold State.job?
  rw [State.jobs_opening, List.find?_append]
  simp [hn.symm]

theorem State.queue_opening (s : State) (f : InFlight) (q : Nat) : (s.opening f).queue q =
    (({ s with jobs := s.jobs ++ [s.jobAsked f] } : State).bindQueues (openQueues f.cmd.payload) f.cmd.session (s.jobAsked f).slot).queue q :=
  State.queue_port ((State.setRoles_only ..).eq .port rfl) q

theorem nth_of_le {l : List Nat} {i : Nat} (h : l.length ≤ i) : nth l i = 0 := List.getD_eq_default _ _ h

theorem State.roleWord_opening (s : State) (f : InFlight) (i : Nat) : (s.opening f).roleWord i =
    let w := nth (filledWords f.cmd.payload (s.jobAsked f).slot) i
    if w = 0 then s.roleWord i else w := by
  have hdict : (({ s with jobs := s.jobs ++ [s.jobAsked f] } : State).bindQueues (s.jobAsked f).queues f.cmd.session (s.jobAsked f).slot).roleWord i = s.roleWord i :=
    State.num_dict ((State.bindQueues_only ..).eq .dict rfl) ..
  unfold State.opening
  dsimp only
  rw [State.roleWord_setRoles, hdict]
  by_cases hw : nth (filledWords f.cmd.payload (s.jobAsked f).slot) i = 0
  · rw [if_neg fun h => h.2 hw, if_pos hw]
  · have hi : i < (filledWords f.cmd.payload (s.jobAsked f).slot).length := by
      by_contra h
      exact hw (nth_of_le (not_lt.1 h))
    rw [if_pos ⟨List.mem_range.2 hi, hw⟩, if_neg hw]

/-- Opening a job is the acceptance of its command in the state with the job, its queues and its roles. -/
theorem State.openJob_opened {s : State} {f : InFlight} (hsent : f.replayed = false) (hmem : f ∈ s.port.inFlight) (hnone : f.job = none)
    (hfree : s.job? s.freeSlot = none) : Opened ((s.begun f).opening (f.taken none)) ((s.begun f).openJob (f.taken none)) (f.taken none) (s.jobAsked f) .ok
      (openAnswer (s.jobAsked f).slot 0) := by
  have hasked : (s.begun f).jobAsked (f.taken none) = s.jobAsked f := State.jobAsked_begun hsent hnone
  have hjob : ((s.begun f).opening (f.taken none)).job? (s.jobAsked f).slot = some (s.jobAsked f) := by
    have h := State.job?_opening_self (s := s.begun f) (f := f.taken none) (by rw [hasked, State.job?_jobs (State.jobs_begun_of_none hsent hnone)]; exact hfree)
    rwa [hasked] at h
  have hport : ((s.begun f).opening (f.taken none)).port.inFlight = (s.begun f).port.inFlight :=
    (congrArg Port.inFlight ((State.setRoles_only ..).eq .port rfl)).trans (State.inFlight_bindQueues ..)
  rw [State.openJob_eq, hasked]
  exact State.opened (f := f.taken none) hsent hjob (State.inFlight?_begun_isSome hsent hmem hport) _ _

theorem jobsOpen : Claims.JobsOpen := by
  intro s q f hf hnone hfresh hbads hfree j
  have hopened := State.openJob_opened hf.sent (State.mem_of_arrivedOn hf.front) hnone hfree
  have hasked : (s.begun f).jobAsked (f.taken none) = j := State.jobAsked_begun hf.sent hnone
  have hjobs : (s.begun f).jobs = s.jobs := State.jobs_begun_of_none hf.sent hnone
  refine ⟨_, congrArg Host.Outcome.next (State.runCommand_front hf (by rw [hfresh]; rfl) hbads), ?_⟩
  rw [show f.job.bind s.job? = none by rw [hnone]; rfl]
  refine ⟨⟨_, hopened.accepted rfl rfl rfl rfl ?_ fun n hn => ?_, rfl⟩, fun p hp => ?_, fun i _ => ?_⟩
  · rw [(State.opening_only ..).eq .sec rfl, (s.begun_only f).eq .sec rfl]
  · rw [State.job?_opening_other _ _ (by rw [hasked]; exact hn), State.job?_jobs hjobs]
  · rw [hopened.queue, State.queue_opening, hasked, f.taken_cmd]
    exact ⟨State.queue_bindQueues _ _ _ _ _ (.inl hp),
      fun h0 => State.session_bindQueues _ _ _ _ _ (.inl ⟨hp, (congrArg Queue.session (State.queue_begun hf.sent p)).trans h0⟩)⟩
  · have hrole := State.roleWord_opening (s.begun f) (f.taken none) i
    rw [hasked, f.taken_cmd, show (s.begun f).roleWord i = s.roleWord i from State.num_dict ((s.begun_only f).eq .dict rfl) ..] at hrole
    exact (State.num_dict hopened.dict ..).trans hrole

theorem State.orphan?_begun {s : State} {f : InFlight} (hsent : f.replayed = false) (hnone : f.job = none) : (s.begun f).orphan? (f.taken none) = s.orphan? f := by
  unfold State.orphan?
  rw [State.jobs_begun_of_none hsent hnone, f.taken_cmd, State.live?_begun]

/-- A job that a session resumes (R280). -/
def Job.heldFor (j : Job) (f : InFlight) : Job :=
  { j with holder := some f.cmd.session, queues := openQueues f.cmd.payload, eventQueue := openEventQueue f.cmd.payload }

/-- A state whose session holds the job it resumes, before its command is accepted (R280). -/
def State.resuming (s : State) (f : InFlight) (j : Job) : State :=
  (s.updJob j.slot fun j => j.heldFor f).bindQueues (openQueues f.cmd.payload) f.cmd.session j.slot

theorem State.resumeJob_eq {s : State} {f : InFlight} {j : Job} (h : s.orphan? f = some j) : s.resumeJob f =
    ((s.resuming f j).acceptOpen f j.slot).1.done ((s.resuming f j).acceptOpen f j.slot).2 .ok (openAnswer j.slot j.body.nextStep) := by
  unfold State.resumeJob
  rw [h]
  rfl

theorem State.jobs_resuming (s : State) (f : InFlight) (j : Job) : (s.resuming f j).jobs = (s.updJob j.slot fun j => j.heldFor f).jobs :=
  (State.bindQueues_only ..).eq .jobs rfl

theorem State.job?_resuming_self {s : State} {j : Job} (hj : s.job? j.slot = some j) (f : InFlight) : (s.resuming f j).job? j.slot = some (j.heldFor f) :=
  (State.job?_jobs (s.jobs_resuming f j) _).trans (State.job?_updJob_of hj (fun j => j.heldFor f) fun _ => rfl)

theorem State.job?_resuming_other (s : State) (f : InFlight) (j : Job) {n : Nat} (hn : n ≠ j.slot) : (s.resuming f j).job? n = s.job? n := by
  rw [State.job?_jobs (s.jobs_resuming f j)]
  exact State.job?_updJob_other _ _ _ (fun j => j.heldFor f) (fun _ => rfl) hn.symm

/-- Resuming a job is the acceptance of its command in the state in which the session holds it. -/
theorem State.resumeJob_opened {s : State} {f : InFlight} {j : Job} (hsent : f.replayed = false) (hmem : f ∈ s.port.inFlight) (hnone : f.job = none)
    (horphan : s.orphan? f = some j) (hj : s.job? j.slot = some j) :
    Opened ((s.begun f).resuming (f.taken none) j) ((s.begun f).resumeJob (f.taken none)) (f.taken none) (j.heldFor (f.taken none)) .ok
      (openAnswer j.slot j.body.nextStep) := by
  have hbegun : (s.begun f).job? j.slot = some j := (State.job?_jobs (State.jobs_begun_of_none hsent hnone) _).trans hj
  rw [State.resumeJob_eq ((State.orphan?_begun hsent hnone).trans horphan)]
  exact State.opened (f := f.taken none) (i := j.heldFor (f.taken none)) hsent (State.job?_resuming_self hbegun _)
    (State.inFlight?_begun_isSome hsent hmem (State.inFlight_bindQueues ..)) _ _

theorem jobsResume : Claims.JobsResume := by
  intro s q f j hf hnone hresume hbads horphan hj
  have hopened := State.resumeJob_opened hf.sent (State.mem_of_arrivedOn hf.front) hnone horphan hj
  refine ⟨_, congrArg Host.Outcome.next (State.runCommand_front hf hresume hbads), ?_⟩
  rw [show f.job.bind s.job? = none by rw [hnone]; rfl]
  refine ⟨_, hopened.accepted rfl rfl rfl rfl ?_ fun n hn => ?_, ?_⟩
  · exact ((State.bindQueues_only ..).eq .sec rfl).trans ((s.begun_only f).eq .sec rfl)
  · rw [State.job?_resuming_other _ _ _ hn, State.job?_jobs (State.jobs_begun_of_none hf.sent hnone)]
  · rfl

/-! ### Closing -/

/-- A close waits until its job has nothing left to wait for (R281). -/
theorem State.tryClose_waits {s : State} {j : Job} {slot n : Nat} {asker : Option Asker} {b : Bool} (hj : s.job? slot = some j)
    (hstate : j.state = .closing n asker b) (hstalled : j.steps.find? (·.stalled) = none) (hwaits : s.closeReady j asker = false) :
    s.tryClose slot = s := by
  unfold State.tryClose
  rw [hj]
  dsimp only
  rw [hstate]
  dsimp only
  rw [hstalled]
  dsimp only
  rw [hj]
  exact if_neg (by rw [hwaits]; decide)

/-- A close that no command asked for frees its job once nothing is left to wait for (R22, R281). -/
theorem State.tryClose_frees {s : State} {j : Job} {slot n : Nat} {b : Bool} (hj : s.job? slot = some j)
    (hstate : j.state = .closing n none b) (hstalled : j.steps.find? (·.stalled) = none) (hready : s.closeReady j none = true) :
    s.tryClose slot = s.freeJob slot := by
  unfold State.tryClose
  rw [hj]
  dsimp only
  rw [hstate]
  dsimp only
  rw [hstalled]
  dsimp only
  rw [hj]
  exact if_pos hready

theorem State.mem_begun {s : State} {f : InFlight} (hsent : f.replayed = false) (hmem : f ∈ s.port.inFlight) :
    f.taken (f.job.bind s.job?) ∈ (s.begun f).port.inFlight := by
  rw [State.begun_eq hsent]
  exact List.mem_map.2 ⟨f, hmem, if_pos f.is_self⟩

/-- A close waits at least for its own record. -/
theorem State.closeReady_of_mem {s : State} {j : Job} {f : InFlight} {asker : Option Asker} (hmem : f ∈ s.port.inFlight) (hjob : f.job = some j.slot)
    (haccept : f.accept.isSome = true) (hstage : f.stage = .waiting) (hlogged : f.logged = false) : s.closeReady j asker = false := by
  have hall : (s.port.inFlight.all fun g => g.job != some j.slot || g.accept.isNone || g.stage == .formed || (asker == some g.asker && g.logged)) = false := by
    refine List.all_eq_false.2 ⟨f, hmem, ?_⟩
    rw [hjob, Option.isNone_eq_false_iff.2 haccept, hstage, hlogged]
    simp
  unfold State.closeReady
  rw [hall, Bool.and_false]

/-- A close that its job has accepted stands until its record is in the log (R281, R360). -/
theorem jobCloseWaits {s : State} {q : Nat} {f : InFlight} {j : Job} (h : s.Ready q 0x02 f j) (hempty : f.cmd.payload = [])
    (hstalled : j.steps.find? (·.stalled) = none) : Runs (.jobClose q) s fun t =>
      ∃ k, Accepted s t f j k .waiting ∧ k.state = .closing (j.accepted + 1) (some f.asker) false ∧ k.body = j.body ∧ k.steps = j.steps := by
  let closing (k : Job) : Job := { k with state := .closing (j.accepted + 1) (some f.asker) false }
  let u := (s.begun f).updJob j.slot closing
  have hu : u.job? j.slot = some (closing (j.accepting (s.commandRecord j f))) := State.job?_updJob_of h.begun closing fun _ => rfl
  have hmem : f.taken (some j) ∈ u.port.inFlight := by
    have h' := State.mem_begun h.sent h.mem
    rwa [h.job] at h'
  have hwaits : u.tryClose j.slot = u :=
    State.tryClose_waits hu rfl hstalled (State.closeReady_of_mem hmem (f.taken_job _ |>.trans h.slot.1) rfl rfl rfl)
  refine ⟨_, congrArg Host.Outcome.next (h.runs _ rfl (by rw [hempty]; rfl)), ?_⟩
  change ∃ k, Accepted s (u.tryClose j.slot) f j k .waiting ∧ _
  rw [hwaits]
  refine ⟨_, ⟨hu, rfl, rfl, fun n hn => ?_, ?_⟩, rfl, rfl, rfl⟩
  · rw [State.job?_updJob_other _ _ _ closing (fun _ => rfl) hn.symm, h.others hn]
  · have hin := State.inFlight?_begun h.sent h.mem
    rw [h.job] at hin
    exact hin

/-! ### What a closed job leaves -/

theorem carrelByte_carrelZero (s : State) (tile first len x : Nat) : carrelByte (s.carrelZero tile first len).carrel x =
    if carrelAt tile (32 * first) ≤ x ∧ x < carrelAt tile (32 * (first + len)) then 0 else carrelByte s.carrel x := by
  unfold State.carrelZero
  dsimp only
  split
  · next h =>
    unfold carrelByte
    rw [find_filter_none]
    · rfl
    · rintro q rfl
      simp [h]
  · next h =>
    refine carrelByte_filter _ _ _ ?_
    rintro q rfl
    simp only [Bool.not_eq_true', Bool.and_eq_false_iff, decide_eq_false_iff_not]
    exact not_and_or.1 h

theorem State.roleWord_releaseTile (s : State) (t i : Nat) : (s.releaseTile t).roleWord i = if i = t then 0 else s.roleWord i :=
  s.roleWord_setRole t 0 i

/-- A tile that leaves its job has a carrel of zeros, and no other carrel changes (R47). -/
theorem State.carrel_releaseTile (s : State) (t i : Nat) {a : Nat} (ha : a < 2 ^ 22) :
    carrelByte (s.releaseTile t).carrel (carrelAt i a) = if i = t then 0 else carrelByte s.carrel (carrelAt i a) := by
  have hsame : (s.setRole t 0).carrel = s.carrel := (State.setRole_only ..).eq .carrel rfl
  unfold State.releaseTile
  rw [carrelByte_carrelZero]
  by_cases hi : i = t
  · subst hi
    rw [if_pos rfl, if_pos]
    simp only [carrelAt]
    omega
  · rw [if_neg hi, if_neg]
    · exact congrArg (carrelByte · _) hsame
    · simp only [carrelAt]
      omega

theorem State.releaseTiles_only (s : State) (ts : List Nat) : Only [.dict, .tileUnits, .carrel, .carrelPoison] s (ts.foldl State.releaseTile s) :=
  Only.foldl _ _ _ fun t i => t.releaseTile_only i

theorem State.roleWord_releaseTiles (ts : List Nat) (i : Nat) (s : State) :
    (ts.foldl State.releaseTile s).roleWord i = if i ∈ ts then 0 else s.roleWord i := by
  induction ts generalizing s with
  | nil => simp
  | cons t ts ih =>
    rw [List.foldl_cons, ih, State.roleWord_releaseTile]
    by_cases hi : i = t <;> simp [hi]

theorem State.carrel_releaseTiles (ts : List Nat) (i : Nat) {a : Nat} (ha : a < 2 ^ 22) (s : State) :
    carrelByte (ts.foldl State.releaseTile s).carrel (carrelAt i a) = if i ∈ ts then 0 else carrelByte s.carrel (carrelAt i a) := by
  induction ts generalizing s with
  | nil => simp
  | cons t ts ih =>
    rw [List.foldl_cons, ih, State.carrel_releaseTile _ _ _ ha]
    by_cases hi : i = t <;> simp [hi]

/-- The tiles a job holds by the role map (R44). -/
def State.heldTiles (s : State) (slot : Nat) : List Nat :=
  (List.range 256).filter fun t => roleA (s.roleWord t) != 0 && roleSlot (s.roleWord t) == slot

theorem State.mem_heldTiles {s : State} {slot i : Nat} : i ∈ s.heldTiles slot ↔ i < 256 ∧ roleA (s.roleWord i) ≠ 0 ∧ roleSlot (s.roleWord i) = slot := by
  simp [State.heldTiles]

/-- Closing a job leaves nothing of it (R45, R47, R281). -/
structure Freed (s t : State) (slot : Nat) : Prop where
  job : t.job? slot = none
  others : ∀ n, n ≠ slot → t.job? n = s.job? n
  tiles : ∀ x ∈ t.tiers.tiles, x.key.slot ≠ slot
  queues : ∀ q, (t.queue q).job ≠ some slot
  idle : ∀ i ∈ s.heldTiles slot, t.roleWord i = 0 ∧ ∀ a < 2 ^ 22, carrelByte t.carrel (carrelAt i a) = 0

theorem State.freeJob_frees (s : State) (slot : Nat) : Freed s (s.freeJob slot) slot := by
  have hjobs : (s.freeJob slot).jobs = s.jobs.filter fun j => j.slot != slot :=
    congrArg (List.filter _) ((s.releaseTiles_only (s.heldTiles slot)).eq .jobs rfl)
  refine ⟨?_, fun n hn => ?_, fun x hx => ?_, fun q => ?_, fun i hi => ⟨?_, fun a ha => ?_⟩⟩
  · unfold State.job?
    rw [hjobs, List.find?_filter, List.find?_eq_none]
    simp
  · unfold State.job?
    rw [hjobs, List.find?_filter]
    refine congrArg (List.find? · s.jobs) (funext fun j => ?_)
    by_cases hj : j.slot = n <;> simp [hj, hn]
  · obtain ⟨-, hx⟩ := List.mem_filter.1 hx
    simpa using hx
  · let v := (((s.heldTiles slot).foldl State.releaseTile s).dropWorks fun w => w.slot == slot).freeTiles fun k => k.slot == slot
    have hqueue : (s.freeJob slot).queue q = (if (v.queue q).job = some slot then { v.queue q with job := none } else v.queue q) :=
      State.queue_mapQueues v (fun _ x => if x.job = some slot then { x with job := none } else x) q rfl
    rw [hqueue]
    split
    · simp
    · assumption
  · refine (State.roleWord_releaseTiles (s.heldTiles slot) i s).trans (if_pos hi)
  · exact (State.carrel_releaseTiles (s.heldTiles slot) i ha s).trans (if_pos hi)

theorem orphanJobCloses {s : State} {slot : Nat} {j : Job} (hj : s.job? slot = some j) (hholder : j.holder = none) (hstate : j.state = .running)
    (hsteps : j.steps = []) (hdeferred : j.deferred = []) (hidle : ∀ f ∈ s.port.inFlight, f.job ≠ some slot) :
    Runs (.orphanJobHoldTime slot) s fun t => Freed s t slot := by
  obtain rfl : j.slot = slot := by simpa using List.find?_some hj
  let closing (k : Job) : Job := { k with state := .closing k.accepted none false }
  let u := s.updJob j.slot closing
  have hu : u.job? j.slot = some (closing j) := State.job?_updJob_of hj closing fun _ => rfl
  have hready : u.closeReady (closing j) none = true := by
    have hall : (s.port.inFlight.all fun g => g.job != some j.slot || g.accept.isNone || g.stage == .formed || ((none : Option Asker) == some g.asker && g.logged)) = true :=
      List.all_eq_true.2 fun f hf => by simp [hidle f hf]
    unfold State.closeReady
    rw [show (closing j).steps = [] from hsteps, show (closing j).deferred = [] from hdeferred]
    exact hall
  have hfreed : Freed s (u.freeJob j.slot) j.slot := by
    obtain ⟨hjob, hothers, htiles, hqueues, hzero⟩ := u.freeJob_frees j.slot
    exact ⟨hjob, fun n hn => (hothers n hn).trans (State.job?_updJob_other _ _ _ closing (fun _ => rfl) hn.symm), htiles, hqueues, hzero⟩
  have hclose : u.tryClose j.slot = u.freeJob j.slot := State.tryClose_frees hu rfl (by rw [show (closing j).steps = [] from hsteps]; rfl) hready
  refine ⟨u.freeJob j.slot, ?_, hfreed⟩
  rw [← hclose]
  change execOrphanJobHoldTime j.slot s = _
  unfold execOrphanJobHoldTime
  rw [hj]
  dsimp only
  rw [hholder, hstate]
  rfl

theorem jobsClose : Claims.JobsClose := by
  refine ⟨fun _ _ _ _ h hempty hstalled => jobCloseWaits h hempty hstalled, fun s slot j hj hholder hstate hsteps hdeferred hidle => ?_⟩
  obtain ⟨t, ht, hfreed⟩ := orphanJobCloses hj hholder hstate hsteps hdeferred hidle
  exact ⟨t, ht, hfreed.job, hfreed.others, hfreed.tiles, hfreed.queues, fun i hi ha hslot => hfreed.idle i (State.mem_heldTiles.2 ⟨hi, ha, hslot⟩)⟩

/-- Settles O14: a job's first command is accepted in the state it has prepared, and closing a job is the release of everything it holds. -/
theorem jobsOpenAndClose : Obligations.JobsOpenAndClose := ⟨jobsOpen, jobsResume, jobsClose⟩

end Sys2Proof.Machine
end

section
/-!
Tables over the host port (R132 to R141, R267): creation, shelf sets, loads and editions.
-/
namespace Sys2Proof.Machine
open Sys2Proof

/-! ### Operations on one job's body -/

/-- No job but the one in a slot has changed. -/
structure OthersKept (slot : Nat) (s t : State) : Prop where
  job : ∀ n, n ≠ slot → t.job? n = s.job? n

theorem OthersKept.of_jobs {slot : Nat} {s t : State} (h : t.jobs = s.jobs) : OthersKept slot s t := ⟨fun _ _ => State.job?_jobs h _⟩
theorem OthersKept.refl (slot : Nat) (s : State) : OthersKept slot s s := .of_jobs rfl
theorem OthersKept.trans {slot : Nat} {s t u : State} (h : OthersKept slot s t) (g : OthersKept slot t u) : OthersKept slot s u :=
  ⟨fun n hn => (g.job n hn).trans (h.job n hn)⟩

theorem OthersKept.foldl {α : Type} {slot : Nat} (f : State → α → State) (l : List α) (s : State) (h : ∀ s a, OthersKept slot s (f s a)) :
    OthersKept slot s (l.foldl f s) :=
  List.foldlRecOn (motive := fun t => OthersKept slot s t) l f (.refl slot s) fun t ht a _ => ht.trans (h t a)

theorem State.updBody_others (s : State) (slot : Nat) (f : JobBody → JobBody) : OthersKept slot s (s.updBody slot f) :=
  ⟨fun _ hn => State.job?_updJob_other _ _ _ (fun j => { j with body := f j.body }) (fun _ => rfl) hn.symm⟩

theorem State.writePage_others (s : State) (j : Job) (t : Table) (g : GroupRow) (own page cls : Nat) (rows : List RowData) (die : Option Nat) :
    OthersKept j.slot s (s.writePage j t g own page cls rows die) := by
  unfold State.writePage
  exact OthersKept.trans (.of_jobs (((State.putAll_only ..).eq .jobs rfl).trans ((State.freeTiles_only ..).eq .jobs rfl))) (State.updBody_others ..)

theorem State.slot_of_job? {s : State} {slot : Nat} {j : Job} (hj : s.job? slot = some j) : j.slot = slot := by
  simpa using List.find?_some hj

theorem Job.eq_of_shell {α : Type} {i j : Job} (h : i.shell = j.shell) (g : Job → α) (hg : ∀ j : Job, g j.shell = g j) : g i = g j := by
  rw [← hg i, h, hg]

section
variable {s : State} {q opcode : Nat} {f : InFlight} {j : Job} (h : s.Ready q opcode f j)
include h

/-- A command whose effect changes its job in its body alone has its outcome (R360). -/
theorem State.Ready.shelled {u : State} (hshells : ShellsKept (s.begun f) u) (hothers : OthersKept j.slot (s.begun f) u)
    (hport : u.port.inFlight = (s.begun f).port.inFlight) (st : Status) (p : List Byte) :
    ∃ k, Accepted s (u.done (f.taken (some j)) st p) f j k (.done st p 0) ∧ u.job? j.slot = some k := by
  obtain ⟨k, hk, hshell⟩ := hshells.job h.begun
  have haccepted : k.accepted = j.accepted + 1 := Job.eq_of_shell hshell Job.accepted fun _ => rfl
  have hlog : k.log = j.log ++ [s.commandRecord j f] := Job.eq_of_shell hshell Job.log fun _ => rfl
  exact ⟨k, h.done hport hk haccepted hlog hothers.job st p, hk⟩

/-- A command whose effect is one change of its job's body (R360). -/
theorem State.Ready.bodied (g : JobBody → JobBody) (st : Status) (p : List Byte) :
    ∃ k, Accepted s (((s.begun f).updBody j.slot g).done (f.taken (some j)) st p) f j k (.done st p 0) ∧ k.body = g j.body := by
  have hk : ((s.begun f).updBody j.slot g).job? j.slot = some { j.accepting (s.commandRecord j f) with body := g j.body } :=
    State.job?_updJob_of h.begun (fun j => { j with body := g j.body }) fun _ => rfl
  exact ⟨_, h.done (u := (s.begun f).updBody j.slot g) rfl hk rfl rfl (State.updBody_others ..).job st p, rfl⟩

end

/-! ### Creation and shelf sets -/

theorem State.Ready.shelfSets {s : State} {q : Nat} {f : InFlight} {j : Job} (h : s.Ready q 0x13 f j) (hbads : s.shelfBads j f.cmd.payload = []) {mode : Nat}
    (hmode : shelfMode f.cmd.payload = mode) (g : List (Nat × Nat) → List (Nat × Nat) → List (Nat × Nat)) :
    ∃ k, Accepted s (s.shelfSet q mode g) f j k (.done .ok [] 0) ∧ k.body = { j.body with shelfSet := g j.body.shelfSet (shelfEntries f.cmd.payload) } := by
  have hbodied := h.bodied (fun b => { b with shelfSet := g b.shelfSet (shelfEntries f.cmd.payload) }) .ok []
  unfold State.shelfSet
  rw [h.runs _ (by simp [hmode]) hbads]
  exact hbodied

theorem tablesAndShelfSets : Claims.TablesAndShelfSets := by
  intro s q f j
  refine ⟨fun h hbads => ⟨_, congrArg Host.Outcome.next (h.runs _ rfl hbads), ?_⟩, fun h hbads => ⟨fun hmode => ?_, fun hmode => ?_, fun hmode => ?_⟩⟩
  · exact h.bodied (fun b => { b with tables := b.tables ++ [newTable f.cmd.payload (j.accepted + 1)] }) .ok []
  · exact ⟨_, rfl, h.shelfSets hbads hmode _⟩
  · exact ⟨_, rfl, h.shelfSets hbads hmode _⟩
  · exact ⟨_, rfl, h.shelfSets hbads hmode _⟩

/-! ### A table of a job -/

/-- A table of the job in a slot. -/
def State.tableOf (s : State) (slot id : Nat) : Option Table := (s.job? slot).bind fun j => j.table? id

theorem State.tableOf_job {s : State} {slot : Nat} {j : Job} (hj : s.job? slot = some j) (id : Nat) : s.tableOf slot id = j.table? id := by
  unfold State.tableOf
  rw [hj]
  rfl

theorem State.tableOf_jobs {s t : State} (h : t.jobs = s.jobs) (slot id : Nat) : t.tableOf slot id = s.tableOf slot id := by
  unfold State.tableOf
  rw [State.job?_jobs h]

theorem Table.find?_updTable (l : List Table) (t id : Nat) (f : Table → Table) (hf : ∀ x, x.id = t → (f x).id = x.id) :
    (l.map fun x => if x.id = t then f x else x).find? (fun x => x.id == id) =
      (l.find? fun x => x.id == id).map fun x => if id = t then f x else x := by
  induction l with
  | nil => rfl
  | cons x l ih =>
    have hid : (if x.id = t then f x else x).id = x.id := by
      split
      · next hx => exact hf x hx
      · rfl
    rw [List.map_cons, List.find?_cons, List.find?_cons, hid]
    by_cases hx : x.id = id
    · simp [hx]
    · rw [beq_eq_false_iff_ne.2 hx]
      exact ih

theorem State.job?_updBody (s : State) (slot : Nat) (g : JobBody → JobBody) :
    (s.updBody slot g).job? slot = (s.job? slot).map fun j => { j with body := g j.body } :=
  State.job?_updJob_self s slot (fun j => { j with body := g j.body }) fun _ => rfl

/-- A change of one table is seen in that table alone, whatever else of the body changes with it. -/
theorem State.tableOf_updBody (s : State) (slot : Nat) {g : JobBody → JobBody} {t : Nat} (f : Table → Table) (hf : ∀ x, x.id = t → (f x).id = x.id)
    (hg : ∀ b, (g b).tables = (b.updTable t f).tables) (id : Nat) :
    (s.updBody slot g).tableOf slot id = (s.tableOf slot id).map fun x => if id = t then f x else x := by
  unfold State.tableOf
  rw [State.job?_updBody]
  cases s.job? slot with
  | none => rfl
  | some j => exact (congrArg (List.find? fun x => x.id == id) (hg j.body)).trans (Table.find?_updTable _ _ _ _ hf)

theorem State.tableOf_updBody_self (s : State) (slot : Nat) {g : JobBody → JobBody} {t : Nat} (f : Table → Table) (hf : ∀ x, x.id = t → (f x).id = x.id)
    (hg : ∀ b, (g b).tables = (b.updTable t f).tables) : (s.updBody slot g).tableOf slot t = (s.tableOf slot t).map f := by
  rw [State.tableOf_updBody s slot f hf hg]
  simp

theorem State.id_of_tableOf {s : State} {slot id : Nat} {t : Table} (h : s.tableOf slot id = some t) : t.id = id := by
  obtain ⟨j, -, hj⟩ := Option.bind_eq_some_iff.1 h
  simpa using List.find?_some hj

theorem Table.eq_of_bare {α : Type} {a b : Table} (h : b.bare = a.bare) (g : Table → α) (hg : ∀ t : Table, g t.bare = g t) : g b = g a := by
  rw [← hg b, h, hg]

/-- Where only rows have changed, a table is the same but for how its pages are stored. -/
theorem RowsOnly.table {s t : State} (h : RowsOnly s t) {slot id : Nat} {a : Table} (ha : s.tableOf slot id = some a) :
    ∃ b, t.tableOf slot id = some b ∧ b.bare = a.bare := by
  obtain ⟨j, hj, hja⟩ := Option.bind_eq_some_iff.1 ha
  obtain ⟨k, hk, hkj⟩ := h.job hj
  have htables : k.body.tables.map Table.bare = j.body.tables.map Table.bare := congrArg (fun j : Job => j.body.tables) (show k.lasting = j.lasting from hkj)
  have hfind (l : List Table) : (l.find? fun x => x.id == id).map Table.bare = (l.map Table.bare).find? fun x => x.id == id := by
    rw [List.find?_map]
    rfl
  have hkept : (k.table? id).map Table.bare = some a.bare := by
    unfold Job.table? at hja ⊢
    rw [hfind, htables, ← hfind, hja]
    rfl
  obtain ⟨b, hb, hbare⟩ := Option.map_eq_some_iff.1 hkept
  exact ⟨b, (State.tableOf_job hk id).trans hb, hbare⟩

/-- What every step of a fold keeps holds at its end, and what the step for an element brings about holds there where no step undoes it. -/
theorem foldl_covers {σ α : Type} {P : σ → Prop} {Q : α → σ → Prop} (f : σ → α → σ) (l : List α) (s : σ) (hP : P s)
    (hstep : ∀ s, ∀ a ∈ l, P s → P (f s a)) (hnew : ∀ s, ∀ a ∈ l, P s → Q a (f s a)) (hkeep : ∀ s a, ∀ b ∈ l, P s → Q a s → Q a (f s b)) :
    P (l.foldl f s) ∧ ∀ a ∈ l, Q a (l.foldl f s) := by
  have hgo (m : List α) (hm : ∀ b ∈ m, b ∈ l) (s : σ) (hP : P s) :
      P (m.foldl f s) ∧ (∀ a, Q a s → Q a (m.foldl f s)) ∧ ∀ a ∈ m, Q a (m.foldl f s) := by
    induction m generalizing s with
    | nil => exact ⟨hP, fun _ h => h, by simp⟩
    | cons b m ih =>
      have hb := hm b List.mem_cons_self
      obtain ⟨hend, hkept, hall⟩ := ih (fun c hc => hm c (List.mem_cons_of_mem _ hc)) (f s b) (hstep s b hb hP)
      refine ⟨hend, fun a ha => hkept a (hkeep s a b hb hP ha), fun a ha => ?_⟩
      obtain rfl | ha := List.mem_cons.1 ha
      · exact hkept a (hnew s a hb hP)
      · exact hall a ha
  obtain ⟨hend, -, hall⟩ := hgo l (fun _ h => h) s hP
  exact ⟨hend, hall⟩

/-! ### Loads -/

/-- Rows of a page that a load brings to this module (R139). -/
def State.loadRows (s : State) (t : Table) (h : LoadHead) (p : Nat) : List Nat :=
  ((List.range 32).map fun i => 32 * p + i).filter fun r => decide (h.first ≤ r) && decide (r < h.first + h.count) && (s.columns t r).isSome

theorem State.mem_loadRows {s : State} {t : Table} {h : LoadHead} {p r : Nat} :
    r ∈ s.loadRows t h p ↔ r / 32 = p ∧ h.first ≤ r ∧ r < h.first + h.count ∧ (s.columns t r).isSome = true := by
  simp only [State.loadRows, List.mem_filter, List.mem_map, List.mem_range, Bool.and_eq_true, decide_eq_true_eq, and_assoc]
  refine and_congr_left fun _ => ⟨?_, fun h => ⟨r % 32, Nat.mod_lt _ (by decide), ?_⟩⟩
  · rintro ⟨i, hi, rfl⟩
    omega
  · omega

/-- A row lies in one of the pages of the load that covers it. -/
theorem LoadHead.mem_pages {h : LoadHead} {r : Nat} (hfirst : h.first ≤ r) (hlast : r < h.first + h.count) : r / 32 ∈ h.pages := by
  unfold LoadHead.pages
  exact List.mem_map.2 ⟨r / 32 - h.first / 32, List.mem_range.2 (by omega), by omega⟩

/-- A row of a load as it is staged for a page, in the page's class (R132, R139). -/
def State.stagedRow (s : State) (a t : Table) (rule : Nat) (b : List Byte) (pc r : Nat) : StagedRow :=
  let h := loadHead b
  let rb := recordBytes a.wp h.cls
  let (c0, n) := (s.columns t r).getD (0, 0)
  let d := readRecord a.width a.wp h rule (slice b (32 + rb * (r - h.first)) rb)
  let d := { d with elems := (d.elems.drop c0).take n, m := [], v := [] }
  { row := r, state := h.state, data := d.recode pc (fun _ => .nearest) (s.realColumns t r) }

/-- A table with rows of a page staged (R132, R139). -/
def State.withStaged (s : State) (a t : Table) (rule : Nat) (b : List Byte) (p : Nat) : Table :=
  let pc := (aGet t.stagedPages p).getD (a.cls a.edition p)
  { t with stagedPages := aSet t.stagedPages p pc,
           staged := t.staged.filter (fun x => !(s.loadRows a (loadHead b) p).contains x.row) ++ (s.loadRows a (loadHead b) p).map (s.stagedRow a t rule b pc) }

/-- Stage the rows of a page that a load brings (R139). -/
def State.stagePage (s : State) (slot : Nat) (a : Table) (rule : Nat) (b : List Byte) (p : Nat) : State :=
  if s.loadRows a (loadHead b) p = [] then s else s.updBody slot fun x => x.updTable a.id fun t => s.withStaged a t rule b p

theorem State.stagePage_only (s : State) (slot : Nat) (a : Table) (rule : Nat) (b : List Byte) (p : Nat) : Only [.jobs] s (s.stagePage slot a rule b p) := by
  unfold State.stagePage
  split
  · exact .refl ..
  · exact State.updBody_only ..

theorem State.applyLoad_staging {s : State} {slot : Nat} {j : Job} {a : Table} {b : List Byte} (hj : s.job? slot = some j)
    (ha : j.table? (loadHead b).table = some a) (hannex : (loadHead b).annex = false) (hstaging : (loadHead b).staging = true) (ed : Nat) :
    s.applyLoad slot b ed = (loadHead b).pages.foldl (fun s p => s.stagePage slot a (j.group a.group).rule b p) s := by
  unfold State.applyLoad
  dsimp only
  rw [hj]
  dsimp only
  rw [ha]
  simp only [hannex, hstaging, Bool.false_eq_true, if_false, if_true]
  rfl

theorem State.columns_fabric {s t : State} (h : t.fabric = s.fabric) (a : Table) (r : Nat) : t.columns a r = s.columns a r := by
  unfold State.columns State.mine
  rw [h]

theorem State.loadRows_fabric {s t : State} (h : t.fabric = s.fabric) (a : Table) (head : LoadHead) (p : Nat) : t.loadRows a head p = s.loadRows a head p := by
  unfold State.loadRows
  simp only [State.columns_fabric h]

/-- The rows just staged are in the staging area, and no row leaves it but for its new contents. -/
theorem State.mem_withStaged (s : State) (a t : Table) (rule : Nat) (b : List Byte) (p r : Nat)
    (h : r ∈ s.loadRows a (loadHead b) p ∨ ∃ x ∈ t.staged, x.row = r) : ∃ x ∈ (s.withStaged a t rule b p).staged, x.row = r := by
  by_cases hr : r ∈ s.loadRows a (loadHead b) p
  · exact ⟨_, List.mem_append_right _ (List.mem_map_of_mem hr), rfl⟩
  · obtain ⟨x, hx, rfl⟩ := h.resolve_left hr
    exact ⟨x, List.mem_append_left _ (List.mem_filter.2 ⟨hx, by simpa using hr⟩), rfl⟩

/-- What staging keeps of a table. -/
structure Table.Staging (a b : Table) : Prop where
  edition : b.edition = a.edition
  annex : b.annex = a.annex

/-- A load for the staging area stages every row of it that this module holds, and changes nothing of the table beside (R133, R139). -/
theorem State.tableOf_staging {s : State} {slot : Nat} {j : Job} {a : Table} {b : List Byte} (hj : s.job? slot = some j)
    (ha : j.table? (loadHead b).table = some a) (hannex : (loadHead b).annex = false) (hstaging : (loadHead b).staging = true) (ed : Nat) :
    let h := loadHead b
    ∃ c, (s.applyLoad slot b ed).tableOf slot h.table = some c ∧ a.Staging c ∧
      ∀ r, h.first ≤ r → r < h.first + h.count → (s.columns a r).isSome = true → ∃ x ∈ c.staged, x.row = r := by
  intro h
  have haid : a.id = h.table := State.id_of_tableOf ((State.tableOf_job hj h.table).trans ha)
  have hstage {v : State} {c : Table} (hv : v.tableOf slot h.table = some c) (p : Nat) (hrows : ¬ v.loadRows a h p = []) :
      (v.stagePage slot a (j.group a.group).rule b p).tableOf slot h.table = some (v.withStaged a c (j.group a.group).rule b p) := by
    unfold State.stagePage
    rw [if_neg hrows, ← haid, State.tableOf_updBody_self v slot (fun t => v.withStaged a t (j.group a.group).rule b p) (fun _ _ => rfl) fun _ => rfl, haid, hv]
    rfl
  have hidle {v : State} (p : Nat) (hrows : v.loadRows a h p = []) : v.stagePage slot a (j.group a.group).rule b p = v := if_pos hrows
  obtain ⟨⟨c, hc, hkept, -⟩, hall⟩ := foldl_covers (P := fun v : State => ∃ c, v.tableOf slot h.table = some c ∧ a.Staging c ∧ v.fabric = s.fabric)
    (Q := fun p (v : State) => ∀ c, v.tableOf slot h.table = some c → ∀ r ∈ s.loadRows a h p, ∃ x ∈ c.staged, x.row = r)
    (fun v p => v.stagePage slot a (j.group a.group).rule b p) h.pages s ⟨a, (State.tableOf_job hj _).trans ha, ⟨rfl, rfl⟩, rfl⟩
    (fun v p _ ⟨c, hc, hkept, hfabric⟩ => by
      have hfab : (v.stagePage slot a (j.group a.group).rule b p).fabric = s.fabric := ((v.stagePage_only ..).eq .fabric rfl).trans hfabric
      by_cases hrows : v.loadRows a h p = []
      · exact ⟨c, by rw [hidle p hrows, hc], hkept, hfab⟩
      · exact ⟨_, hstage hc p hrows, ⟨hkept.edition, hkept.annex⟩, hfab⟩)
    (fun v p _ ⟨c, hc, _, hfabric⟩ d hd r hr => by
      rw [← State.loadRows_fabric hfabric] at hr
      rw [hstage hc p (List.ne_nil_of_mem hr)] at hd
      obtain rfl := Option.some.inj hd
      exact State.mem_withStaged _ _ _ _ _ _ _ (.inl hr))
    (fun v p p' _ ⟨c, hc, _, hfabric⟩ hQ d hd r hr => by
      by_cases hrows : v.loadRows a h p' = []
      · rw [hidle p' hrows] at hd
        exact hQ d hd r hr
      · rw [hstage hc p' hrows] at hd
        obtain rfl := Option.some.inj hd
        exact State.mem_withStaged _ _ _ _ _ _ _ (.inr (hQ c hc r hr)))
  refine ⟨c, ?_, hkept, fun r hfirst hlast hcolumns => ?_⟩
  · rw [State.applyLoad_staging hj ha hannex hstaging, hc]
  · exact hall (r / 32) (LoadHead.mem_pages hfirst hlast) c hc r (State.mem_loadRows.2 ⟨rfl, hfirst, hlast, hcolumns⟩)

/-- A table of which a load makes the pages it covers device-held again (R139, R267). -/
def Table.loaded (t : Table) (h : LoadHead) (ed : Nat) : Table :=
  { t with annex := t.annex.filter fun a => !(h.pages.contains a.2 && h.covers t a.2 && a.1 == t.owner ed a.2) }

/-- A load of an edition makes pages device-held, and then changes only how pages are stored and what rows hold (R133, R139). -/
theorem State.applyLoad_current {s : State} {slot : Nat} {j : Job} {a : Table} {b : List Byte} (hj : s.job? slot = some j)
    (ha : j.table? (loadHead b).table = some a) (hannex : (loadHead b).annex = false) (hstaging : (loadHead b).staging = false) (ed : Nat) :
    RowsOnly (s.updBody slot fun x => x.updTable a.id fun t => t.loaded (loadHead b) ed) (s.applyLoad slot b ed) := by
  unfold State.applyLoad
  dsimp only
  rw [hj]
  dsimp only
  rw [ha]
  simp only [hannex, hstaging, Bool.false_eq_true, if_false]
  refine RowsOnly.foldl _ _ _ fun v p => ?_
  split
  · exact .refl v
  split
  · exact .refl v
  split
  · exact .refl v
  · exact RowsOnly.trans (v.writePage_rowsOnly ..)
      (State.updBody_rowsOnly _ _ _ fun x => x.lasting_shelf _ _ fun _ => rfl)

/-- A table with pages marked annex-held (R139, R267). -/
def Table.annexed (t : Table) (marks : List (Nat × Nat)) : Table := { t with annex := (t.annex.filter fun a => !marks.contains a) ++ marks }

theorem Table.mem_annexed {t : Table} {marks : List (Nat × Nat)} {m : Nat × Nat} : m ∈ (t.annexed marks).annex ↔ m ∈ t.annex ∨ m ∈ marks := by
  unfold Table.annexed
  by_cases hm : m ∈ marks <;> simp [hm]

/-- A body with pages of a table annex-held, which leave the shelf (R130, R267). -/
def JobBody.annexed (x : JobBody) (id : Nat) (marks : List (Nat × Nat)) : JobBody :=
  { x.updTable id fun t => t.annexed marks with shelf := x.shelf.filter fun r => !(r.table == id && marks.contains (r.edition, r.row / 32)) }

/-- A load with `ANNEX` marks its pages in its table (R139, R267). -/
theorem State.tableOf_annex {s : State} {slot : Nat} {j : Job} {a : Table} {b : List Byte} (hj : s.job? slot = some j)
    (ha : j.table? (loadHead b).table = some a) (hannex : (loadHead b).annex = true) (ed : Nat) :
    (s.applyLoad slot b ed).tableOf slot (loadHead b).table = some (a.annexed ((loadHead b).pages.map fun p => (a.owner ed p, p))) := by
  have haid : a.id = (loadHead b).table := State.id_of_tableOf ((State.tableOf_job hj (loadHead b).table).trans ha)
  have hjobs (l : List (Nat × Nat)) : (l.foldl (fun s m => s.annexPage slot a.id m.1 m.2) s).jobs = s.jobs :=
    List.foldlRecOn (motive := fun t : State => t.jobs = s.jobs) l _ rfl fun t ht m _ => ((State.annexPage_only ..).eq .jobs rfl).trans ht
  unfold State.applyLoad
  dsimp only
  rw [hj]
  dsimp only
  rw [ha]
  simp only [hannex, if_true]
  rw [← haid]
  refine (State.tableOf_updBody_self (g := fun x => x.annexed a.id ((loadHead b).pages.map fun p => (a.owner ed p, p))) _ _
    (fun t => t.annexed ((loadHead b).pages.map fun p => (a.owner ed p, p))) (fun _ _ => rfl) fun _ => rfl).trans ?_
  rw [State.tableOf_jobs (hjobs _), haid, State.tableOf_job hj, ha]
  rfl

theorem State.applyLoad_others (s : State) (slot : Nat) (b : List Byte) (ed : Nat) : OthersKept slot s (s.applyLoad slot b ed) := by
  unfold State.applyLoad
  dsimp only
  split
  · exact .refl slot s
  split
  · exact .refl slot s
  split
  · exact OthersKept.trans (OthersKept.foldl _ _ _ fun t m => .of_jobs ((State.annexPage_only ..).eq .jobs rfl)) (State.updBody_others ..)
  split
  · refine OthersKept.foldl _ _ _ fun t p => ?_
    split
    · exact .refl slot t
    · exact State.updBody_others ..
  · refine OthersKept.trans (State.updBody_others ..) (OthersKept.foldl _ _ _ fun t p => ?_)
    split
    · exact .refl slot t
    next k hk =>
    split
    · exact .refl slot t
    split
    · exact .refl slot t
    · refine OthersKept.trans ?_ (State.updBody_others ..)
      obtain rfl := State.slot_of_job? hk
      exact State.writePage_others ..

/-- A job with a load that waits for its acceptance point, for an edition (R31, R133). -/
def Job.awaiting (k : Job) (f : InFlight) (n ed : Nat) : Job :=
  { k with deferred := k.deferred ++
      [{ accept := n, asker := f.asker, opcode := f.cmd.opcode, payload := f.cmd.payload, after := (k.steps.getLast?).map (·.num), edition := ed }] }

theorem State.loadMoves_begun {s : State} {f : InFlight} {j : Job} (r : LogRec) (b : List Byte) (ed : Nat) :
    (s.begun f).loadMoves (j.accepting r) b ed = s.loadMoves j b ed := by
  have htiers : (s.begun f).tiers = s.tiers := (s.begun_only f).eq .tiers rfl
  unfold State.loadMoves
  rw [htiers]
  rfl

section
variable {s : State} {q : Nat} {f : InFlight} {j : Job} {a : Table} (h : s.Ready q 0x11 f j) (hbads : s.tableLoadBads j f.cmd.payload = [])
  (ha : j.table? (loadHead f.cmd.payload).table = some a)
include h hbads ha

/-- What a load does once it is accepted: for the staging area at once, else at its acceptance point (R133, R139). -/
theorem State.tableLoad_ready {annex : Bool} (hannex : (loadHead f.cmd.payload).annex = annex) : s.tableLoad q annex =
    if (loadHead f.cmd.payload).staging then ((s.begun f).applyLoad j.slot f.cmd.payload a.edition).done (f.taken (some j)) .ok []
    else (s.begun f).atPoint (j.accepting (s.commandRecord j f)) (f.taken (some j)) fun s => s.applyLoad j.slot f.cmd.payload a.edition := by
  unfold State.tableLoad
  rw [h.runs _ (by rw [hannex]; exact beq_self_eq_true _) hbads]
  change (if (loadHead f.cmd.payload).staging then
      ((s.begun f).applyLoad j.slot f.cmd.payload (((j.table? (loadHead f.cmd.payload).table).map (·.edition)).getD 0)).done (f.taken (some j)) .ok []
    else (s.begun f).atPoint (j.accepting (s.commandRecord j f)) (f.taken (some j)) fun s =>
      s.applyLoad j.slot f.cmd.payload (((j.table? (loadHead f.cmd.payload).table).map (·.edition)).getD 0)) = _
  rw [ha]
  rfl

omit hbads in
theorem State.atPoint_load (now : State → State) : (s.begun f).atPoint (j.accepting (s.commandRecord j f)) (f.taken (some j)) now =
    if j.steps.isEmpty && j.deferred.isEmpty && !s.loadMoves j f.cmd.payload a.edition then (now (s.begun f)).done (f.taken (some j)) .ok []
    else (s.begun f).updJob j.slot fun k => k.awaiting f (j.accepted + 1) a.edition := by
  have hop : f.cmd.opcode = 0x11 := (State.queue_of_arrivedOn h.front).2.2
  have htable : (j.accepting (s.commandRecord j f)).table? (loadHead f.cmd.payload).table = some a := ha
  unfold State.atPoint
  simp only [hop, if_true, beq_self_eq_true, Bool.true_and, f.taken_cmd, htable, Option.map_some, Option.getD_some, State.loadMoves_begun, Job.awaiting]
  rfl

end

/-- The table of the job a command leaves is the one its effect left. -/
theorem State.table_of_shelled {u : State} {slot id : Nat} {k : Job} {b : Table} (hk : u.job? slot = some k) (hb : u.tableOf slot id = some b) :
    k.table? id = some b := (State.tableOf_job hk id).symm.trans hb

theorem tableLoads : Claims.TableLoads := by
  intro s q f j a h hbads head ha
  have hbegun : (s.begun f).tableOf j.slot head.table = some a := (State.tableOf_job h.begun _).trans ha
  have hport (b : List Byte) (ed : Nat) : ((s.begun f).applyLoad j.slot b ed).port.inFlight = (s.begun f).port.inFlight :=
    congrArg Port.inFlight ((State.applyLoad_only ..).eq .port rfl)
  have hloads := h.shelled (State.applyLoad_shells (s.begun f) j.slot f.cmd.payload a.edition) (State.applyLoad_others ..) (hport ..) .ok []
  have hnow {annex : Bool} (hannex : head.annex = annex) (hstaging : head.staging = false) (hsteps : j.steps = []) (hdeferred : j.deferred = [])
      (hmoves : s.loadMoves j f.cmd.payload a.edition = false) :
      s.tableLoad q annex = ((s.begun f).applyLoad j.slot f.cmd.payload a.edition).done (f.taken (some j)) .ok [] := by
    rw [State.tableLoad_ready h hbads ha hannex, if_neg (by rw [show (loadHead f.cmd.payload).staging = false from hstaging]; decide),
      State.atPoint_load h ha, hsteps, hdeferred, hmoves]
    exact if_pos rfl
  obtain ⟨k, hk, hjob⟩ := hloads
  refine ⟨fun hannex hstaging => ?_, fun hannex hstaging hsteps hdeferred hmoves => ?_, fun hannex hstaging hsteps hdeferred hmoves => ?_, fun hstaging hwaits => ?_⟩
  · obtain ⟨b, hb, hkept, hstaged⟩ := State.tableOf_staging h.begun ha hannex hstaging a.edition
    refine ⟨_, congrArg Host.Outcome.next ((State.tableLoad_ready h hbads ha hannex).trans (if_pos hstaging)), k, b, hk, State.table_of_shelled hjob hb, hkept.edition, hkept.annex,
      fun r hfirst hlast hcolumns => hstaged r hfirst hlast ?_⟩
    rw [State.columns_fabric ((s.begun_only f).eq .fabric rfl)]
    exact hcolumns
  · have haid : a.id = head.table := State.id_of_tableOf hbegun
    have hloaded := State.tableOf_updBody_self (s.begun f) j.slot (fun t => t.loaded head a.edition) (t := a.id) (fun _ _ => rfl) fun _ => rfl
    rw [haid, hbegun] at hloaded
    have hrows := State.applyLoad_current h.begun ha hannex hstaging a.edition
    rw [haid] at hrows
    obtain ⟨b, hb, hbare⟩ := hrows.table hloaded
    have hannexed : b.annex = (a.loaded head a.edition).annex := Table.eq_of_bare hbare Table.annex fun _ => rfl
    refine ⟨_, congrArg Host.Outcome.next (hnow hannex hstaging hsteps hdeferred hmoves), k, b, hk, State.table_of_shelled hjob hb,
      Table.eq_of_bare hbare Table.edition fun _ => rfl, Table.eq_of_bare hbare Table.staged fun _ => rfl, fun p hp hcovers hmem => ?_⟩
    rw [hannexed] at hmem
    obtain ⟨-, hmem⟩ := List.mem_filter.1 hmem
    simp [hp, hcovers] at hmem
  · have hmarked := State.tableOf_annex h.begun ha hannex a.edition
    exact ⟨_, congrArg Host.Outcome.next (hnow hannex hstaging hsteps hdeferred hmoves), k, _, hk, State.table_of_shelled hjob hmarked, rfl,
      fun p hp => Table.mem_annexed.2 (.inr (List.mem_map.2 ⟨p, hp, rfl⟩)), fun m hm => Table.mem_annexed.2 (.inl hm)⟩
  · have hlate : (j.steps.isEmpty && j.deferred.isEmpty && !s.loadMoves j f.cmd.payload a.edition) = false := by
      obtain hsteps | hdeferred | hmoves := hwaits
      · simp [hsteps]
      · simp [hdeferred]
      · simp [hmoves]
    have hload : s.tableLoad q head.annex = (s.begun f).updJob j.slot fun k => k.awaiting f (j.accepted + 1) a.edition := by
      rw [State.tableLoad_ready h hbads ha rfl, if_neg (by rw [show (loadHead f.cmd.payload).staging = false from hstaging]; decide),
        State.atPoint_load h ha, hlate]
      exact if_neg Bool.false_ne_true
    have hexec : exec (if head.annex then .tableLoadAnnex q else .tableLoad q) s = .next (s.tableLoad q head.annex) := by
      cases head.annex <;> rfl
    have hin := State.inFlight?_begun h.sent h.mem
    rw [h.job] at hin
    have hwaiting := State.job?_updJob_of h.begun (fun k => k.awaiting f (j.accepted + 1) a.edition) fun _ => rfl
    have hothers (n : Nat) (hn : n ≠ j.slot) : ((s.begun f).updJob j.slot fun k => k.awaiting f (j.accepted + 1) a.edition).job? n = s.job? n :=
      (State.job?_updJob_other _ _ _ (fun k => k.awaiting f (j.accepted + 1) a.edition) (fun _ => rfl) hn.symm).trans (h.others hn)
    exact ⟨_, hexec.trans (congrArg Host.Outcome.next hload), _, ⟨hwaiting, rfl, rfl, hothers, hin⟩, rfl, (s.begun_only f).eq .tiers rfl, rfl⟩

/-! ### Editions -/

/-- A table whose staged pages have become a new edition (R134). -/
def Table.published (t : Table) : Table :=
  { t with edition := t.edition + 1, previous := some t.edition,
           replaced := t.replaced ++ (t.stagedPages.filter fun p => t.stagedHeld p.1).map fun p => (t.edition + 1, p.1),
           stagedPages := [], staged := [], deferred := false }

/-- A publish makes the new edition, and then changes only how pages are stored (R134). -/
theorem State.publish_rows {s : State} {slot id : Nat} {j : Job} {a : Table} (hj : s.job? slot = some j) (ha : j.table? id = some a) :
    RowsOnly (s.updBody slot fun b => b.updTable id fun _ => a.published) (s.publish slot id) := by
  unfold State.publish
  rw [hj]
  dsimp only
  rw [ha]
  exact RowsOnly.foldl _ _ _ fun t p => t.writePage_rowsOnly ..

theorem State.publish_shells (s : State) (slot id : Nat) : ShellsKept s (s.publish slot id) := by
  unfold State.publish
  split
  · exact .refl s
  split
  · exact .refl s
  · exact ShellsKept.trans (State.updBody_shells ..) (ShellsKept.foldl _ _ _ fun t p => State.writePage_shells ..)

theorem State.publish_others (s : State) (slot id : Nat) : OthersKept slot s (s.publish slot id) := by
  unfold State.publish
  split
  · exact .refl slot s
  next j hj =>
  obtain rfl := State.slot_of_job? hj
  split
  · exact .refl _ s
  · exact OthersKept.trans (State.updBody_others ..) (OthersKept.foldl _ _ _ fun t p => State.writePage_others ..)

/-- Whether a step in flight is bound to an edition, or a load waits for it (R132, R133). -/
def Job.editionUsed (j : Job) (id p : Nat) : Bool :=
  (j.steps.any fun x => x.edition? id == some p) || j.deferred.any fun d => d.opcode == 0x11 && bits (leAt d.payload 0 32) 11 0 == id && d.edition == p

/-- A body of which a table has no previous edition any longer, the pages replaced gone from annex and shelf (R132, R135). -/
def JobBody.retired (b : JobBody) (t : Table) (gone : List Nat) : JobBody :=
  { b.updTable t.id fun t => { t with previous := none, annex := t.annex.filter fun a => !(gone.contains a.2 && a.1 != t.edition) } with
    shelf := b.shelf.filter fun x => !(x.table == t.id && gone.contains (x.row / 32) && x.edition != t.edition) }

/-- Free the previous edition of a table where nothing uses it (R132, R135). -/
def State.retireEdition (s : State) (slot : Nat) (j : Job) (t : Table) : State :=
  match t.previous with
  | none => s
  | some p =>
    if j.editionUsed t.id p then s
    else
      let gone := (t.replaced.filter fun r => r.1 == t.edition).map (·.2)
      (gone.foldl (fun s page => s.dropPage slot t.id (t.owner p page) page) s).updBody slot fun b => b.retired t gone

theorem State.retireEditions_eq {s : State} {slot : Nat} {j : Job} (hj : s.job? slot = some j) :
    s.retireEditions slot = j.body.tables.foldl (fun s t => s.retireEdition slot j t) s := by
  unfold State.retireEditions
  rw [hj]
  rfl

theorem State.jobs_dropPages (s : State) (slot p : Nat) (t : Table) (l : List Nat) :
    (l.foldl (fun s page => s.dropPage slot t.id (t.owner p page) page) s).jobs = s.jobs :=
  List.foldlRecOn (motive := fun t : State => t.jobs = s.jobs) l _ rfl fun _ ht _ _ => ((State.dropPage_only ..).eq .jobs rfl).trans ht

theorem State.retireEdition_shells (s : State) (slot : Nat) (j : Job) (t : Table) : ShellsKept s (s.retireEdition slot j t) := by
  unfold State.retireEdition
  split
  · exact .refl s
  split
  · exact .refl s
  · exact ShellsKept.trans (.of_jobs (State.jobs_dropPages ..)) (State.updBody_shells ..)

theorem State.retireEdition_others (s : State) (slot : Nat) (j : Job) (t : Table) : OthersKept slot s (s.retireEdition slot j t) := by
  unfold State.retireEdition
  split
  · exact .refl slot s
  split
  · exact .refl slot s
  · exact OthersKept.trans (.of_jobs (State.jobs_dropPages ..)) (State.updBody_others ..)

theorem State.retireEditions_shells (s : State) (slot : Nat) : ShellsKept s (s.retireEditions slot) := by
  cases hj : s.job? slot with
  | none =>
    unfold State.retireEditions
    rw [hj]
    exact .refl s
  | some j =>
    rw [State.retireEditions_eq hj]
    exact ShellsKept.foldl _ _ _ fun v t => v.retireEdition_shells slot j t

theorem State.retireEditions_others (s : State) (slot : Nat) : OthersKept slot s (s.retireEditions slot) := by
  cases hj : s.job? slot with
  | none =>
    unfold State.retireEditions
    rw [hj]
    exact .refl slot s
  | some j =>
    rw [State.retireEditions_eq hj]
    exact OthersKept.foldl _ _ _ fun v t => v.retireEdition_others slot j t

/-- A table whose previous edition is free, and whose annex marks are some of those before (R132). -/
def Table.retired (t : Table) (gone : List Nat) : Table :=
  { t with previous := none, annex := t.annex.filter fun a => !(gone.contains a.2 && a.1 != t.edition) }

/-- What retiring editions keeps of a table. -/
structure Table.Retiring (a b : Table) : Prop where
  edition : b.edition = a.edition
  staged : b.staged = a.staged
  stagedPages : b.stagedPages = a.stagedPages
  deferred : b.deferred = a.deferred

theorem State.tableOf_retireEdition (s : State) (slot id : Nat) (j : Job) (t : Table) : (s.retireEdition slot j t).tableOf slot id = s.tableOf slot id ∨
    t.id = id ∧ (∃ p, t.previous = some p ∧ j.editionUsed t.id p = false) ∧ ∃ gone, (s.retireEdition slot j t).tableOf slot id = (s.tableOf slot id).map (·.retired gone) := by
  unfold State.retireEdition
  split
  · exact .inl rfl
  next p hp =>
  split
  · exact .inl rfl
  next hused =>
  have hchange (gone : List Nat) (v : State) : (v.updBody slot fun b => b.retired t gone).tableOf slot id =
      (v.tableOf slot id).map fun x => if id = t.id then x.retired gone else x :=
    State.tableOf_updBody (g := fun b => b.retired t gone) v slot (t := t.id) (fun t => t.retired gone) (fun _ _ => rfl) (fun _ => rfl) id
  dsimp only
  rw [hchange, State.tableOf_jobs (State.jobs_dropPages ..)]
  by_cases hid : id = t.id
  · exact .inr ⟨hid.symm, ⟨p, hp, Bool.not_eq_true _ ▸ hused⟩, (t.replaced.filter fun r => r.1 == t.edition).map (·.2), by simp only [if_pos hid]⟩
  · refine .inl ?_
    simp only [if_neg hid, Option.map_id']

/-- An edition no longer current goes once nothing uses it, and nothing else of its table changes but annex marks of its pages (R132, R135). -/
theorem State.tableOf_retireEditions {s : State} {slot id : Nat} {j : Job} {a : Table} {p : Nat} (hj : s.job? slot = some j) (ha : j.table? id = some a)
    (hprevious : ∀ t ∈ j.body.tables, t.id = id → t.previous = some p) :
    ∃ b, (s.retireEditions slot).tableOf slot id = some b ∧ a.Retiring b ∧ b.previous = if j.editionUsed id p then some p else none := by
  have hmem : a ∈ j.body.tables := List.mem_of_find?_eq_some ha
  have haid : a.id = id := by simpa using List.find?_some ha
  rw [State.retireEditions_eq hj]
  by_cases hused : j.editionUsed id p = true
  · have hidle (v : State) : ∀ t ∈ j.body.tables, (v.retireEdition slot j t).tableOf slot id = v.tableOf slot id := by
      intro t ht
      refine (v.tableOf_retireEdition slot id j t).resolve_right ?_
      rintro ⟨hid, ⟨p', hp', hused'⟩, -⟩
      rw [hprevious t ht hid] at hp'
      obtain rfl := Option.some.inj hp'
      rw [hid, hused] at hused'
      exact Bool.noConfusion hused'
    have hall := List.foldlRecOn (motive := fun v : State => v.tableOf slot id = s.tableOf slot id) j.body.tables (fun s t => s.retireEdition slot j t) rfl
      fun v hv t ht => (hidle v t ht).trans hv
    rw [if_pos hused]
    exact ⟨a, hall.trans ((State.tableOf_job hj id).trans ha), ⟨rfl, rfl, rfl, rfl⟩, hprevious a hmem haid⟩
  · rw [if_neg hused]
    obtain ⟨⟨b, hb, hkept⟩, hall⟩ := foldl_covers (P := fun v : State => ∃ b, v.tableOf slot id = some b ∧ a.Retiring b)
      (Q := fun (t : Table) (v : State) => t.id = id → ∀ b, v.tableOf slot id = some b → b.previous = none)
      (fun s t => s.retireEdition slot j t) j.body.tables s ⟨a, (State.tableOf_job hj id).trans ha, ⟨rfl, rfl, rfl, rfl⟩⟩
      (fun v t _ ⟨b, hb, hkept⟩ => by
        obtain hsame | ⟨-, -, gone, hgone⟩ := v.tableOf_retireEdition slot id j t
        · exact ⟨b, hsame.trans hb, hkept⟩
        · exact ⟨b.retired gone, by rw [hgone, hb]; rfl, ⟨hkept.edition, hkept.staged, hkept.stagedPages, hkept.deferred⟩⟩)
      (fun v t ht ⟨c, hc, _⟩ hid b hb => by
        have hgone : (v.retireEdition slot j t).tableOf slot id = some (c.retired ((t.replaced.filter fun r => r.1 == t.edition).map (·.2))) := by
          unfold State.retireEdition
          rw [hprevious t ht hid]
          dsimp only
          rw [hid, if_neg hused, ← hid]
          refine (State.tableOf_updBody_self (g := fun b => b.retired t _) _ _ (fun t => t.retired _) (fun _ _ => rfl) fun _ => rfl).trans ?_
          rw [State.tableOf_jobs (State.jobs_dropPages ..), hid, hc]
          rfl
        rw [hgone] at hb
        obtain rfl := Option.some.inj hb
        rfl)
      (fun v t u _ ⟨c, hc, _⟩ hQ hid b hb => by
        obtain hsame | ⟨-, -, gone, hgone⟩ := v.tableOf_retireEdition slot id j u
        · exact hQ hid b (hsame.symm.trans hb)
        · rw [hgone, hc] at hb
          obtain rfl := Option.some.inj hb
          rfl)
    exact ⟨b, hb, hkept, hall a hmem haid b hb⟩

/-- After a publish, every table of its id has the edition that was current for its previous one. -/
theorem State.previous_publish {s : State} {slot id : Nat} {j k : Job} {a : Table} (hj : s.job? slot = some j) (ha : j.table? id = some a)
    (hk : (s.publish slot id).job? slot = some k) : ∀ t ∈ k.body.tables, t.id = id → t.previous = some a.edition := by
  intro t ht hid
  have hmade : (s.updBody slot fun b => b.updTable id fun _ => a.published).job? slot = some { j with body := j.body.updTable id fun _ => a.published } :=
    State.job?_updJob_of hj (fun j => { j with body := j.body.updTable id fun _ => a.published }) fun _ => rfl
  obtain ⟨i, hi, hrows⟩ := (State.publish_rows hj ha).job hmade
  obtain rfl : i = k := Option.some.inj (hi.symm.trans hk)
  have htables : i.body.tables.map Table.bare = (j.body.updTable id fun _ => a.published).tables.map Table.bare :=
    congrArg (fun j : Job => j.body.tables) (show i.lasting = _ from hrows)
  have hbare : t.bare ∈ (j.body.updTable id fun _ => a.published).tables.map Table.bare := htables ▸ List.mem_map_of_mem ht
  obtain ⟨x, hx, hxt⟩ := List.mem_map.1 hbare
  obtain ⟨y, -, rfl⟩ := List.mem_map.1 hx
  have hname := Table.eq_of_bare hxt Table.id fun _ => rfl
  rw [hid] at hname
  rw [← Table.eq_of_bare hxt Table.previous fun _ => rfl]
  split
  · rfl
  · next hy => exact absurd (by rwa [if_neg hy] at hname) hy

/-- Publishing where one edition is live (R134, R135, R140). -/
theorem editionPublishes {s : State} {q : Nat} {f : InFlight} {j : Job} {a : Table} {id : Nat} (h : s.Ready q 0x12 f j) (hbads : s.publishBads j f.cmd.payload = [])
    (hid : bits (leAt f.cmd.payload 0 32) 11 0 = id) (ha : j.table? id = some a) (hmode : publishMode f.cmd.payload = 0) (hone : a.previous = none) :
    Runs (.editionPublish q) s fun t => ∃ k b, Accepted s t f j k (.done .ok [] 0) ∧ k.table? id = some b ∧ b.edition = a.edition + 1 ∧ b.staged = [] ∧
      b.stagedPages = [] ∧ b.deferred = false ∧ b.previous = if j.editionUsed id a.edition then some a.edition else none := by
  have hbegun : (s.begun f).job? j.slot = some (j.accepting (s.commandRecord j f)) := h.begun
  have hname : a.id = id := State.id_of_tableOf ((State.tableOf_job hbegun id).trans ha)
  have hmade : ((s.begun f).updBody j.slot fun b => b.updTable id fun _ => a.published).tableOf j.slot id = some a.published := by
    rw [State.tableOf_updBody_self _ _ (fun _ => a.published) (fun x hx => hname.trans hx.symm) fun _ => rfl, State.tableOf_job hbegun]
    exact congrArg (Option.map _) ha
  obtain ⟨c, hc, hbare⟩ := (State.publish_rows hbegun ha).table hmade
  obtain ⟨i, hi, hshell⟩ := ((s.begun f).publish_shells j.slot id).job hbegun
  have hused : i.editionUsed id a.edition = j.editionUsed id a.edition :=
    Job.eq_of_shell hshell (fun i => i.editionUsed id a.edition) fun _ => rfl
  obtain ⟨b, hb, hretired, hprevious⟩ := State.tableOf_retireEditions hi ((State.tableOf_job hi id).symm.trans hc) (State.previous_publish hbegun ha hi)
  have hshells : ShellsKept (s.begun f) (((s.begun f).publish j.slot id).retireEditions j.slot) :=
    ((s.begun f).publish_shells j.slot id).trans (State.retireEditions_shells ..)
  have hothers : OthersKept j.slot (s.begun f) (((s.begun f).publish j.slot id).retireEditions j.slot) :=
    ((s.begun f).publish_others j.slot id).trans (State.retireEditions_others ..)
  have hport : (((s.begun f).publish j.slot id).retireEditions j.slot).port.inFlight = (s.begun f).port.inFlight :=
    congrArg Port.inFlight (((State.retireEditions_only ..).eq .port rfl).trans ((State.publish_only ..).eq .port rfl))
  obtain ⟨k, hk, hjob⟩ := h.shelled hshells hothers hport .ok []
  have ha' : (j.accepting (s.commandRecord j f)).table? id = some a := ha
  refine ⟨_, congrArg Host.Outcome.next (h.runs _ (by rw [hmode]; rfl) hbads), k, b, ?_, State.table_of_shelled hjob hb,
    hretired.edition.trans (Table.eq_of_bare hbare Table.edition fun _ => rfl), hretired.staged.trans (Table.eq_of_bare hbare Table.staged fun _ => rfl),
    hretired.stagedPages.trans (Table.eq_of_bare hbare Table.stagedPages fun _ => rfl), hretired.deferred.trans (Table.eq_of_bare hbare Table.deferred fun _ => rfl), ?_⟩
  · dsimp only
    rw [f.taken_cmd, hid, ha', Option.bind_some, hone]
    exact hk
  · rw [hprevious, hused]

theorem State.inFlight_raiseJob (s : State) (code slot step a b c : Nat) : (s.raiseJob code slot step a b c).port.inFlight = s.port.inFlight := by
  have h : (s.raiseJob code slot step a b c).port = { s.port with queues := (s.raiseJob code slot step a b c).port.queues } := s.raiseJob_portKept ..
  rw [h]

/-- Publishing where two editions are live (R136). -/
theorem editionPublishDefers {s : State} {q : Nat} {f : InFlight} {j : Job} {a : Table} {id : Nat} (h : s.Ready q 0x12 f j)
    (hbads : s.publishBads j f.cmd.payload = []) (hid : bits (leAt f.cmd.payload 0 32) 11 0 = id) (ha : j.table? id = some a)
    (hmode : publishMode f.cmd.payload = 0) (htwo : a.previous ≠ none) :
    Runs (.editionPublish q) s fun t => ∃ k, Accepted s t f j k (.done .deferred [] 0) ∧ Raised s t 0x6006 .job j.slot 0 id (a.edition + 1) 0 ∧
      k.body = j.body.updTable id fun b => { b with deferred := true } := by
  obtain ⟨p, hp⟩ := Option.ne_none_iff_exists'.1 htwo
  have ha' : (j.accepting (s.commandRecord j f)).table? id = some a := ha
  let u := (s.begun f).updBody j.slot fun b => b.updTable id fun t => { t with deferred := true }
  have hu : u.job? j.slot = some { j.accepting (s.commandRecord j f) with body := j.body.updTable id fun t => { t with deferred := true } } :=
    State.job?_updJob_of h.begun (fun j => { j with body := j.body.updTable id fun t => { t with deferred := true } }) fun _ => rfl
  have hjobs : (u.raiseJob 0x6006 j.slot 0 id (a.edition + 1) 0).jobs = u.jobs := (State.raiseJob_only ..).eq .jobs rfl
  have hdone := h.done (u := u.raiseJob 0x6006 j.slot 0 id (a.edition + 1) 0) (State.inFlight_raiseJob ..) ((State.job?_jobs hjobs _).trans hu) rfl rfl
    (fun n hn => (State.job?_jobs hjobs _).trans ((State.updBody_others ..).job n hn)) .deferred []
  have hraised : Raised s (u.raiseJob 0x6006 j.slot 0 id (a.edition + 1) 0) 0x6006 .job j.slot 0 id (a.edition + 1) 0 :=
    State.raiseJob_raised_of_log (u := u) ((s.begun_only f).eq .log rfl)
  have hlog : ((u.raiseJob 0x6006 j.slot 0 id (a.edition + 1) 0).done (f.taken (some j)) .deferred []).log = (u.raiseJob 0x6006 j.slot 0 id (a.edition + 1) 0).log :=
    (State.done_only ..).eq .log rfl
  refine ⟨_, congrArg Host.Outcome.next (h.runs _ (by rw [hmode]; rfl) hbads),
    { j.accepting (s.commandRecord j f) with body := j.body.updTable id fun t => { t with deferred := true } }, ?_, ?_, rfl⟩
  · dsimp only
    rw [f.taken_cmd, hid, ha', Option.bind_some, hp]
    exact hdone
  · dsimp only
    rw [f.taken_cmd, hid, ha', Option.bind_some, hp]
    exact hraised.then_log hlog

theorem publishAndDiscard : Claims.PublishAndDiscard := by
  intro s q f j a h hbads id ha
  refine ⟨fun hmode hone => editionPublishes h hbads rfl ha hmode hone, fun hmode htwo => editionPublishDefers h hbads rfl ha hmode htwo, fun hmode => ?_⟩
  refine ⟨_, congrArg Host.Outcome.next (h.runs _ (by rw [hmode]; rfl) hbads), ?_⟩
  dsimp only
  rw [f.taken_cmd]
  exact h.bodied (fun b => b.updTable id fun t => { t with staged := [], stagedPages := [], deferred := false }) .ok []

/-- Settles O15: each command changes its job's tables alone, and the rows a load or publish writes change only how pages are stored. -/
theorem tablesLoadAndPublish : Obligations.TablesLoadAndPublish := ⟨tablesAndShelfSets, tableLoads, publishAndDiscard⟩

end Sys2Proof.Machine
end

section
/-!
Completion of instances and work items (R42, R50, R52, R62, R93), and what follows it.
-/
namespace Sys2Proof.Machine
open Sys2Proof

/-! ### What follows a completion leaves the work on tiles and what has completed -/

/-- An instance in flight but for whether a wait of it is over. -/
def Inst.quiet (i : Inst) : Inst := { i with ready := false }
/-- A work item but for its waits. -/
def Work.quiet (w : Work) : Work := { w with flying := w.flying.map Inst.quiet }
/-- A tile but for its signal board and the waits of its work items. -/
def Tile.quiet (u : Tile) : Tile := { u with board := [], works := u.works.map Work.quiet }
/-- The steps of a job with what has completed of each. -/
def Job.marks (j : Job) : Nat × List (Nat × List WorkId) := (j.slot, j.steps.map fun x => (x.num, x.completed))

/-- No tile has changed but in its board and the waits of its work items, and no step in what has completed of it. -/
structure WorkKept (s t : State) : Prop where
  tiles : t.tileUnits.map Tile.quiet = s.tileUnits.map Tile.quiet
  marks : t.jobs.map Job.marks = s.jobs.map Job.marks

theorem WorkKept.of_eq {s t : State} (htiles : t.tileUnits = s.tileUnits) (hjobs : t.jobs = s.jobs) : WorkKept s t := ⟨by rw [htiles], by rw [hjobs]⟩
theorem WorkKept.refl (s : State) : WorkKept s s := .of_eq rfl rfl
theorem WorkKept.trans {s t u : State} (h : WorkKept s t) (g : WorkKept t u) : WorkKept s u := ⟨g.tiles.trans h.tiles, g.marks.trans h.marks⟩

theorem WorkKept.foldl {α : Type} (f : State → α → State) (l : List α) (s : State) (h : ∀ s a, WorkKept s (f s a)) : WorkKept s (l.foldl f s) :=
  List.foldlRecOn (motive := fun t => WorkKept s t) l f (.refl s) fun t ht a _ => ht.trans (h t a)

theorem WorkKept.ite {c : Prop} [Decidable c] {s a b : State} (ha : WorkKept s a) (hb : WorkKept s b) : WorkKept s (if c then a else b) := by
  split
  · exact ha
  · exact hb

theorem State.updJob_workKept (s : State) (slot : Nat) (f : Job → Job) (hf : ∀ j, (f j).marks = j.marks) : WorkKept s (s.updJob slot f) := by
  refine ⟨rfl, ?_⟩
  simp only [State.updJob, List.map_map]
  refine List.map_congr_left fun j _ => ?_
  simp only [Function.comp_apply]
  split
  · exact hf j
  · rfl

theorem State.updStep_workKept (s : State) (slot n : Nat) (f : StepRec → StepRec) (hf : ∀ x, ((f x).num, (f x).completed) = (x.num, x.completed)) :
    WorkKept s (s.updStep slot n f) :=
  s.updJob_workKept slot (fun j => j.withStep n f) fun j => by
    simp only [Job.marks, Job.withStep, List.map_map, Prod.mk.injEq, true_and]
    refine List.map_congr_left fun x _ => ?_
    simp only [Function.comp_apply]
    split
    · exact hf x
    · rfl

theorem State.updUnit_workKept (s : State) (tile : Nat) (f : Tile → Tile) (hf : (f (s.unit tile)).quiet = (s.unit tile).quiet) : WorkKept s (s.updUnit tile f) := by
  refine ⟨?_, rfl⟩
  simp only [State.updUnit, List.map_set, hf]
  unfold State.unit
  by_cases ht : tile < s.tileUnits.length
  · rw [List.getD_eq_getElem _ _ ht]
    have hset := List.set_getElem_self (as := s.tileUnits.map Tile.quiet) (i := tile) (by simpa using ht)
    rwa [List.getElem_map] at hset
  · exact List.set_eq_of_length_le (by simpa using ht)

theorem WorkKept.unit {s t : State} (h : WorkKept s t) (n : Nat) : (t.unit n).quiet = (s.unit n).quiet := by
  have hget (l : List Tile) : (l.getD n { phys := 0 }).quiet = (l.map Tile.quiet).getD n ({ phys := 0 } : Tile).quiet := (List.getD_map ..).symm
  unfold State.unit
  rw [hget, hget, h.tiles]

theorem WorkKept.slips {s t : State} (h : WorkKept s t) (n : Nat) : (t.unit n).slips = (s.unit n).slips :=
  show (t.unit n).quiet.slips = (s.unit n).quiet.slips by rw [h.unit]

theorem Tile.work?_quiet (u : Tile) (w : WorkId) : u.quiet.work? w = (u.work? w).map Work.quiet := by
  unfold Tile.work? Tile.quiet
  rw [List.find?_map]
  rfl

theorem WorkKept.work {s t : State} (h : WorkKept s t) (n : Nat) (w : WorkId) : ((t.unit n).work? w).map Work.quiet = ((s.unit n).work? w).map Work.quiet := by
  rw [← Tile.work?_quiet, ← Tile.work?_quiet, h.unit]

theorem State.completed_marks (s : State) (slot n : Nat) : (s.step? slot n).map (fun x => (x.num, x.completed)) =
    ((s.jobs.map Job.marks).find? fun m => m.1 == slot).bind fun m => m.2.find? fun y => y.1 == n := by
  unfold State.step? State.job?
  rw [List.find?_map]
  change _ = ((s.jobs.find? fun j => j.slot == slot).map Job.marks).bind _
  cases s.jobs.find? fun j => j.slot == slot with
  | none => rfl
  | some j =>
    simp only [Option.bind_some, Option.map_some, Job.marks, Job.step?, List.find?_map]
    rfl

theorem WorkKept.completed {s t : State} (h : WorkKept s t) (slot n : Nat) :
    (t.step? slot n).map (fun x => (x.num, x.completed)) = (s.step? slot n).map fun x => (x.num, x.completed) := by
  rw [State.completed_marks, State.completed_marks, h.marks]

theorem State.sendKept_workKept (s : State) (slot dst : Nat) (k : FlitKind) (step : Nat) (b : List Byte) : WorkKept s (s.sendKept slot dst k step b) := by
  have hkept := s.updJob_workKept slot (fun j => { j with retained := j.retained ++ [{ dst := dst, kind := k.code, step := step, bytes := b }] }) fun _ => rfl
  unfold State.sendKept
  dsimp only
  split
  · exact hkept
  · exact hkept.trans (.of_eq ((State.send_only ..).eq .tileUnits rfl) ((State.send_only ..).eq .jobs rfl))

theorem State.handOn_workKept (s : State) (slot step : Nat) (id : WorkId) (tile : Nat) : WorkKept s (s.handOn slot step id tile) := by
  unfold State.handOn
  split
  case h_2 => exact .refl s
  split
  · exact .refl s
  split
  · exact .refl s
  dsimp only
  refine WorkKept.ite (.refl s) (WorkKept.ite (WorkKept.trans ?_ (State.updStep_workKept _ _ _ _ ?_)) (WorkKept.trans ?_ (State.sendKept_workKept ..)))
  · exact State.updStep_workKept _ _ _ _ fun _ => rfl
  · exact fun _ => rfl
  · exact State.updStep_workKept _ _ _ _ fun _ => rfl

theorem State.handAll_workKept (s : State) (slot step : Nat) : WorkKept s (s.handAll slot step) := by
  unfold State.handAll
  split
  · exact .refl s
  · exact WorkKept.foldl _ _ _ fun t p => t.handOn_workKept ..

theorem StepRec.marks_updLedger (x : StepRec) (space id : Nat) (f : Ledger → Ledger) :
    ((x.updLedger space id f).num, (x.updLedger space id f).completed) = (x.num, x.completed) := by
  unfold StepRec.updLedger
  split <;> rfl

theorem State.wakeWaits_workKept (s : State) (tile : Nat) : WorkKept s (s.wakeWaits tile) := by
  unfold State.wakeWaits
  refine s.updUnit_workKept tile _ ?_
  unfold Tile.quiet
  simp only [List.map_map]
  congr 1
  refine List.map_congr_left fun w _ => ?_
  simp only [Function.comp_apply]
  split
  · rfl
  · unfold Work.quiet
    simp only [List.map_map]
    congr 1
    refine List.map_congr_left fun i _ => ?_
    simp only [Function.comp_apply]
    split <;> rfl

theorem WorkKept.raiseJob {s t : State} (h : WorkKept s t) (code slot step a b c : Nat) : WorkKept s (t.raiseJob code slot step a b c) :=
  h.trans (.of_eq ((t.raiseJob_only ..).eq .tileUnits rfl) ((t.raiseJob_only ..).eq .jobs rfl))

theorem State.raiseCount_workKept (s : State) (slot step tile half counter mb n : Nat) : WorkKept s (s.raiseCount slot step tile half counter mb n) := by
  unfold State.raiseCount Tile.boardAdd
  dsimp only
  refine WorkKept.trans ?_ (State.wakeWaits_workKept ..)
  refine WorkKept.ite (WorkKept.raiseJob ?_ ..) ?_
  · exact s.updUnit_workKept _ _ rfl
  · exact s.updUnit_workKept _ _ rfl

theorem State.sendReduce_workKept (s : State) (slot step dst : Nat) (ms : List (List Byte)) : WorkKept s (s.sendReduce slot step dst ms) :=
  WorkKept.foldl _ _ _ fun t _ => (t.updStep_workKept slot step (fun x => x.counted dst) fun _ => rfl).trans (State.sendKept_workKept ..)

theorem State.deliverSlice_workKept (s : State) (slot step r mb piece : Nat) : WorkKept s (s.deliverSlice slot step r mb piece) := by
  unfold State.deliverSlice
  split
  case h_2 => exact .refl s
  dsimp only
  refine WorkKept.trans ?_ (WorkKept.foldl _ _ _ fun t k => t.raiseCount_workKept ..)
  refine WorkKept.trans (WorkKept.foldl _ _ _ fun t k => ?_) (State.updStep_workKept _ _ _ _ fun x => x.marks_updLedger ..)
  exact .of_eq ((State.putTile_only ..).eq .tileUnits rfl) ((State.putTile_only ..).eq .jobs rfl)

theorem State.sliceOn_workKept (s : State) (slot step r mb piece : Nat) : WorkKept s (s.sliceOn slot step r mb piece) := by
  unfold State.sliceOn
  split
  case h_2 => exact .refl s
  dsimp only
  split
  · exact .refl s
  split
  · exact .refl s
  split
  · exact (WorkKept.foldl _ _ _ fun t k => t.sendReduce_workKept ..).trans (State.deliverSlice_workKept ..)
  · exact (State.updStep_workKept _ _ _ _ fun x => x.marks_updLedger ..).trans (State.sendReduce_workKept ..)

/-- What follows a completion changes no work on a tile and nothing of what has completed (R240, R322). -/
theorem State.afterWork_workKept (s : State) (slot step : Nat) : WorkKept s (s.afterWork slot step) := by
  refine (s.handAll_workKept slot step).trans ?_
  change WorkKept _ ((s.handAll slot step).slicesOn slot step)
  unfold State.slicesOn
  split
  · exact .refl _
  · exact WorkKept.foldl _ _ _ fun t r => WorkKept.foldl _ _ _ fun t p => t.sliceOn_workKept ..

/-! ### An instance leaves its tile -/

theorem State.lt_of_work? {s : State} {tile : Nat} {w : WorkId} {k : Work} (h : (s.unit tile).work? w = some k) : tile < s.tileUnits.length := by
  by_contra hlt
  unfold State.unit at h
  rw [List.getD_eq_default _ _ (not_lt.1 hlt)] at h
  cases h

theorem Tile.work?_id {u : Tile} {w : WorkId} {k : Work} (h : u.work? w = some k) : k.id = w := by simpa using List.find?_some h

/-- A tile without a work item whose program has ended (R50). -/
def Tile.settled (u : Tile) (w : WorkId) : Tile :=
  { u with works := u.works.filter (fun v => v.id != w), unchecked := u.unchecked ++ [w], slips := u.slips.filter fun p => p.2.work != w }

/-- A step with a work item completed (R50). -/
def StepRec.withDone (x : StepRec) (w : WorkId) (delivered : List (Nat × Regs × Nat)) : StepRec :=
  { x with completed := x.completed ++ [w], effects := aUpd x.effects w [] fun l => (l ++ delivered).eraseDups }

/-- A work item stays on its tile until its program has ended with nothing in flight (R50). -/
theorem State.settle_eq {s : State} {tile : Nat} {w : WorkId} {k : Work} {j : Job} {p : Program} (hk : (s.unit tile).work? w = some k)
    (hj : s.job? w.slot = some j) (hp : j.programs[k.prog]? = some p) : s.settle tile w =
      if p.descs.length ≤ k.pos ∧ k.flying = [] then (s.updUnit tile fun u => u.settled w).updStep w.slot w.step fun x => x.withDone w k.delivered else s := by
  unfold State.settle
  rw [hk, hj]
  dsimp only
  rw [hp]
  rfl

theorem Tile.work?_settled (u : Tile) (w : WorkId) : (u.settled w).work? w = none := by
  unfold Tile.work? Tile.settled
  simp [List.find?_filter]

/-- Settling a work item takes it off its tile with its slips, or changes nothing there. -/
theorem State.settle_unit (s : State) (tile : Nat) (w : WorkId) : (s.settle tile w).unit tile = s.unit tile ∨ (s.settle tile w).unit tile = (s.unit tile).settled w := by
  unfold State.settle
  split
  case h_2 => exact .inl rfl
  next k j hk hj =>
  dsimp only
  split
  · exact .inr (s.unit_updUnit_self (fun u => u.settled w) (State.lt_of_work? hk))
  · exact .inl rfl

/-- A work item without an instance that has completed. -/
def Work.without (k : Work) (ord : Nat) : Work := { k with flying := k.flying.filter fun i => i.ord != ord }

theorem Tile.work?_upd (u : Tile) (w : WorkId) (f : Work → Work) (hf : ∀ k, (f k).id = k.id) :
    ({ u with works := u.works.map fun k => if k.id = w then f k else k } : Tile).work? w = (u.work? w).map f := by
  unfold Tile.work?
  dsimp only
  induction u.works with
  | nil => rfl
  | cons k l ih =>
    have hid : (if k.id = w then f k else k).id = k.id := by split <;> simp [hf]
    rw [List.map_cons, List.find?_cons, List.find?_cons, hid]
    by_cases hk : k.id = w
    · simp [hk]
    · rw [beq_eq_false_iff_ne.2 hk]
      exact ih

theorem State.unit_updWork (s : State) {tile : Nat} (w : WorkId) (f : Work → Work) (ht : tile < s.tileUnits.length) :
    (s.updWork tile w f).unit tile = { s.unit tile with works := (s.unit tile).works.map fun k => if k.id = w then f k else k } :=
  s.unit_updUnit_self _ ht

/-- The state in which an instance has left its tile, before its work item is settled (R52, R93). -/
def State.withoutInst (s : State) (tile : Nat) (w : WorkId) (ord : Nat) (i : Inst) : State :=
  let u := s.updUnit tile fun u => { u with slips := u.slips.filter fun p => !(p.2.work == w && p.2.pos == i.pos && p.2.regs == i.regs) }
  (match u.instDesc? tile w ord with | some d => u.trace tile w d | none => u).updWork tile w fun k => k.without ord

section
variable {s : State} {tile ord : Nat} {w : WorkId} {k : Work} {i : Inst} (hk : (s.unit tile).work? w = some k)
include hk

theorem State.instDesc?_slips (f : List (Nat × Slip) → List (Nat × Slip)) :
    (s.updUnit tile fun u => { u with slips := f u.slips }).instDesc? tile w ord = s.instDesc? tile w ord := by
  have hunit := s.unit_updUnit_self (fun u => { u with slips := f u.slips }) (State.lt_of_work? hk)
  unfold State.instDesc?
  rw [hunit]
  rfl

theorem State.withoutInst_unit : (s.withoutInst tile w ord i).unit tile =
    { s.unit tile with
      slips := (s.unit tile).slips.filter fun p => !(p.2.work == w && p.2.pos == i.pos && p.2.regs == i.regs)
      works := (s.unit tile).works.map fun k => if k.id = w then k.without ord else k } := by
  have ht := State.lt_of_work? hk
  have hunit := s.unit_updUnit_self (fun u => { u with slips := u.slips.filter fun p => !(p.2.work == w && p.2.pos == i.pos && p.2.regs == i.regs) }) ht
  have hlen : tile < (s.updUnit tile fun u =>
      { u with slips := u.slips.filter fun p => !(p.2.work == w && p.2.pos == i.pos && p.2.regs == i.regs) }).tileUnits.length := by
    simpa [State.updUnit] using ht
  have htrace (u : State) (o : Option Desc) : (match o with | some d => u.trace tile w d | none => u).tileUnits = u.tileUnits := by
    cases o with
    | none => rfl
    | some d =>
      dsimp only [State.trace]
      split <;> rfl
  unfold State.withoutInst
  dsimp only
  rw [State.unit_updWork _ _ _ (by rw [htrace]; exact hlen)]
  unfold State.unit at hunit ⊢
  rw [htrace, hunit]

theorem State.withoutInst_work : ((s.withoutInst tile w ord i).unit tile).work? w = some (k.without ord) := by
  rw [State.withoutInst_unit hk]
  exact (Tile.work?_upd { s.unit tile with slips := _ } w (fun k => k.without ord) fun _ => rfl).trans (congrArg (Option.map _) hk)

theorem State.withoutInst_traces {d : Desc} (hd : s.instDesc? tile w ord = some d) :
    (s.withoutInst tile w ord i).traces = s.traces ++ if d.trace = true then [(tile, w, d.seq)] else [] := by
  have hd' := (State.instDesc?_slips (ord := ord) hk fun l => l.filter fun p => !(p.2.work == w && p.2.pos == i.pos && p.2.regs == i.regs)).trans hd
  unfold State.withoutInst
  dsimp only
  rw [hd']
  dsimp only
  change (State.trace _ tile w d).traces = _
  unfold State.trace
  split
  · rfl
  · exact (List.append_nil _).symm

end

theorem State.withoutInst_jobs (s : State) (tile ord : Nat) (w : WorkId) (i : Inst) : (s.withoutInst tile w ord i).jobs = s.jobs := by
  unfold State.withoutInst
  dsimp only
  split
  · dsimp only [State.updWork, State.updUnit, State.trace]
    split <;> rfl
  · rfl

/-- An instance that may complete leaves its tile, its work item is settled, and what follows it is done (R52). -/
theorem State.exec_instanceComplete {s : State} {tile ord : Nat} {w : WorkId} {k : Work} {i : Inst} (hk : (s.unit tile).work? w = some k)
    (hi : k.flying.find? (fun i => i.ord == ord) = some i) : exec (.instanceComplete tile w ord) s =
      .next (if (engineOf i.kind == 4 || !((s.unit tile).flying.any fun f => engineOf f.kind == engineOf i.kind && decide (f.ord < ord)))
          && (engineOf i.kind != 0 || decide ((s.unit tile).queue.length ≤ 16)) && i.ready
          && (i.reqs.isEmpty && ((s.unit tile).slips.filter fun p => p.2.work == w && p.2.pos == i.pos && p.2.regs == i.regs).all fun p =>
            p.2.state == .done || p.2.state == .zeroed)
          && i.targets.isEmpty && (s.unit tile).retiring.isNone
        then ((s.withoutInst tile w ord i).settle tile w).afterWork w.slot w.step else s) := by
  change execInstanceComplete tile w ord s = _
  unfold execInstanceComplete
  dsimp only
  rw [hk, Option.bind_some, hi]
  rfl

theorem Work.without_flying_nil {k : Work} {ord : Nat} : (k.without ord).flying = [] ↔ ∀ f ∈ k.flying, f.ord = ord := by
  simp [Work.without]

theorem Work.ords_quiet (k : Work) : k.quiet.flying.map (·.ord) = k.flying.map (·.ord) := by
  simp [Work.quiet, Inst.quiet, Function.comp_def]

theorem Work.ords_without (k : Work) (ord : Nat) : (k.without ord).flying.map (·.ord) = (k.flying.filter fun f => f.ord != ord).map (·.ord) := rfl

/-- What completion leaves where the instance may complete: the trace, the slips and the other instances, and the work item where its program goes on. -/
theorem instanceCompletes {s : State} {tile ord : Nat} {w : WorkId} {k : Work} {i : Inst} (hk : (s.unit tile).work? w = some k) :
    let mine (x : Slip) : Bool := x.work == w && x.pos == i.pos && x.regs == i.regs
    let t := ((s.withoutInst tile w ord i).settle tile w).afterWork w.slot w.step
    (∀ d, s.instDesc? tile w ord = some d → t.traces = s.traces ++ (if d.trace = true then [(tile, w, d.seq)] else [])) ∧
    (∀ p ∈ (t.unit tile).slips, p ∈ (s.unit tile).slips ∧ mine p.2 = false) ∧
    (∀ v, (t.unit tile).work? w = some v → v.flying.map (·.ord) = (k.flying.filter fun f => f.ord != ord).map (·.ord) ∧ v.pos = k.pos ∧ v.regs = k.regs) ∧
    ∀ (j : Job) (x : StepRec) (p : Program), s.job? w.slot = some j → j.step? w.step = some x → j.programs[k.prog]? = some p →
      if p.descs.length ≤ k.pos ∧ ∀ f ∈ k.flying, f.ord = ord then (t.unit tile).work? w = none ∧ ∃ y, t.step? w.slot w.step = some y ∧ w ∈ y.completed
      else ((t.unit tile).work? w).isSome = true := by
  intro mine t
  let v := s.withoutInst tile w ord i
  have hv : (v.unit tile).work? w = some (k.without ord) := State.withoutInst_work hk
  have hkept : WorkKept (v.settle tile w) t := State.afterWork_workKept ..
  refine ⟨fun d hd => ?_, fun p hp => ?_, fun y hy => ?_, fun j x p hj hx hp => ?_⟩
  · rw [(State.afterWork_only ..).eq .traces rfl, (State.settle_only ..).eq .traces rfl, State.withoutInst_traces hk hd]
  · rw [hkept.slips] at hp
    have hp : p ∈ (v.unit tile).slips := by
      obtain h | h := v.settle_unit tile w
      · rwa [h] at hp
      · rw [h] at hp
        exact (List.mem_filter.1 hp).1
    rw [State.withoutInst_unit hk] at hp
    obtain ⟨hmem, hmine⟩ := List.mem_filter.1 hp
    exact ⟨hmem, (Bool.not_eq_true' _).mp hmine⟩
  · have hquiet := hkept.work tile w
    rw [hy] at hquiet
    obtain h | h := v.settle_unit tile w
    · rw [h, hv] at hquiet
      have hsame : y.quiet = (k.without ord).quiet := Option.some.inj hquiet
      refine ⟨?_, show y.quiet.pos = (k.without ord).quiet.pos by rw [hsame], show y.quiet.regs = (k.without ord).quiet.regs by rw [hsame]⟩
      rw [← Work.ords_quiet, hsame, Work.ords_quiet, Work.ords_without]
    · rw [h, Tile.work?_settled] at hquiet
      exact absurd hquiet (by simp)
  · have hjv : v.job? w.slot = some j := (State.job?_jobs (State.withoutInst_jobs ..) _).trans hj
    have hsettle := State.settle_eq hv hjv hp
    by_cases hends : p.descs.length ≤ k.pos ∧ ∀ f ∈ k.flying, f.ord = ord
    · rw [if_pos hends]
      rw [if_pos ⟨hends.1, Work.without_flying_nil.2 hends.2⟩] at hsettle
      refine ⟨?_, ?_⟩
      · have hgone := hkept.work tile w
        have hunit := v.unit_updUnit_self (fun u => u.settled w) (State.lt_of_work? hv)
        have hunit : (v.settle tile w).unit tile = (v.unit tile).settled w := hsettle ▸ hunit
        rw [hunit, Tile.work?_settled] at hgone
        exact Option.map_eq_none_iff.1 hgone
      · have hstep : (v.settle tile w).step? w.slot w.step = some (x.withDone w (k.without ord).delivered) := by
          rw [hsettle]
          exact (State.step?_of_job (State.job?_updStep (s := v.updUnit tile fun u => u.settled w) hjv _ _) _).trans
            (Job.step?_withStep_self hx (fun x => x.withDone w (k.without ord).delivered) fun _ => rfl)
        have hcompleted := hkept.completed w.slot w.step
        rw [hstep] at hcompleted
        obtain ⟨y, hy, hsame⟩ := Option.map_eq_some_iff.1 hcompleted
        refine ⟨y, hy, ?_⟩
        rw [(Prod.mk.inj hsame).2]
        exact List.mem_append_right _ List.mem_cons_self
    · rw [if_neg hends]
      rw [if_neg fun h => hends ⟨h.1, Work.without_flying_nil.1 h.2⟩] at hsettle
      have hquiet := hkept.work tile w
      rw [hsettle, hv] at hquiet
      simpa using congrArg Option.isSome hquiet

/-- Settles O45: the condition of completion is decided once, and what follows a completion leaves the tile's work as it stands. -/
theorem instancesComplete : Obligations.InstancesComplete := by
  intro s tile ord w k i hk hi mine first landed
  have hord : i.ord = ord := by simpa using List.find?_some hi
  have hexec := State.exec_instanceComplete hk hi
  refine ⟨fun hfirst hlanded hready hretiring hqueue => ⟨_, hexec.trans ?_, instanceCompletes (i := i) hk⟩, fun hwaits => hexec.trans ?_⟩
  · obtain ⟨hreqs, htargets, hslips⟩ := hlanded
    refine congrArg Host.Outcome.next (if_pos ?_)
    simp only [Bool.and_eq_true, Bool.or_eq_true, beq_iff_eq, bne_iff_ne, ne_eq, Bool.not_eq_true', decide_eq_true_eq, hready, hretiring, hreqs, htargets,
      List.isEmpty_nil, Option.isNone_none, and_true, true_and, List.all_eq_true, List.mem_filter, List.any_eq_false, Bool.and_eq_true, not_and, not_lt]
    refine ⟨⟨?_, ?_⟩, fun p hp => ?_⟩
    · exact hfirst
    · exact or_iff_not_imp_left.2 fun h => hqueue (not_not.1 h)
    · exact hslips p hp.1 (by simpa [mine, and_assoc] using hp.2)
  · refine congrArg Host.Outcome.next (if_neg fun h => ?_)
    simp only [Bool.and_eq_true, Bool.or_eq_true, beq_iff_eq, bne_iff_ne, ne_eq, Bool.not_eq_true', decide_eq_true_eq, List.isEmpty_iff, Option.isNone_iff_eq_none,
      List.all_eq_true, List.mem_filter, List.any_eq_false, not_and, not_lt] at h
    obtain ⟨⟨⟨⟨⟨hfirst, hqueue⟩, hready⟩, hreqs, hslips⟩, htargets⟩, hretiring⟩ := h
    obtain h | ⟨h0, hfull⟩ | h | h | h | ⟨h4, f, hf, hengine, hlt⟩ | ⟨p, hp, hmine, hdone, hzeroed⟩ := hwaits
    · exact h hretiring
    · obtain h | h := hqueue
      · exact h h0
      · omega
    · rw [h] at hready
      exact Bool.noConfusion hready
    · exact h hreqs
    · exact h htargets
    · obtain h | h := hfirst
      · exact h4 h
      · exact absurd (h f hf hengine) (not_le.2 hlt)
    · obtain h | h := hslips p ⟨hp, by simpa [mine, and_assoc] using hmine⟩
      · exact hdone h
      · exact hzeroed h

end Sys2Proof.Machine
end

section
/-!
Work items and step-end passes start on tiles, and a rerun takes the place it waited for (R46, R47, R50, R51, R59, R63, R108).
-/
namespace Sys2Proof.Machine
open Sys2Proof

/-! ### What starts on a tile -/

/-- Walking a work item on moves its position, its loops and its loop registers alone. -/
theorem normalise_kept (x : StepRec) (p : Program) (n : Nat) (w : Work) :
    ∃ pos loops regs, normalise x p n w = { w with pos := pos, loops := loops, regs := regs } := by
  induction n generalizing w with
  | zero => exact ⟨w.pos, w.loops, w.regs, rfl⟩
  | succ n ih =>
    unfold normalise
    dsimp only
    split
    · split
      · exact ih _
      · exact ih _
    · split
      · exact ih _
      · exact ⟨w.pos, w.loops, w.regs, rfl⟩

theorem walkOn_kept (x : StepRec) (p : Program) (w : Work) : ∃ pos loops regs, walkOn x p w = { w with pos := pos, loops := loops, regs := regs } :=
  normalise_kept ..

theorem walkOn_id (x : StepRec) (p : Program) (w : Work) : (walkOn x p w).id = w.id := by
  obtain ⟨_, _, _, h⟩ := walkOn_kept x p w
  rw [h]

theorem walkOn_prog (x : StepRec) (p : Program) (w : Work) : (walkOn x p w).prog = w.prog := by
  obtain ⟨_, _, _, h⟩ := walkOn_kept x p w
  rw [h]

/-- A tile that has taken a work item. -/
def Tile.taking (u : Tile) (k : Work) : Tile := { u with works := u.works ++ [k] }

theorem Tile.work?_taking {u : Tile} {k : Work} {w : WorkId} (hk : k.id = w) (hnone : u.work? w = none) : (u.taking k).work? w = some k := by
  unfold Tile.work? at hnone ⊢
  unfold Tile.taking
  rw [List.find?_append, hnone]
  simp [hk]

/-- A step that has dispatched a work item to a tile. -/
def StepRec.dispatching (x : StepRec) (w : WorkId) (tile : Nat) : StepRec := { x with dispatched := x.dispatched ++ [(w, tile)] }

theorem State.unit_updUnit_other (s : State) {t r : Nat} (f : Tile → Tile) (h : r ≠ t) : (s.updUnit t f).unit r = s.unit r := by
  simp [State.unit, State.updUnit, List.getElem?_set_ne (Ne.symm h)]

/-- A work item that has a descriptor to run stays on its tile (R50). -/
theorem State.settle_open {s : State} {tile : Nat} {w : WorkId} {k : Work} {j : Job} {p : Program} (hk : (s.unit tile).work? w = some k)
    (hj : s.job? w.slot = some j) (hp : j.programs[k.prog]? = some p) (hpos : k.pos < p.descs.length) : s.settle tile w = s := by
  rw [State.settle_eq hk hj hp]
  exact if_neg fun h => absurd h.1 (not_le.2 hpos)

/-! ### The tile takes the role (R47, R59) -/

theorem State.bindTile_jobs (s : State) (slot tile word epoch : Nat) : (s.bindTile slot tile word epoch).jobs = s.jobs := by
  unfold State.bindTile
  split <;> rfl

theorem State.bindTile_length (s : State) (slot tile word epoch : Nat) : (s.bindTile slot tile word epoch).tileUnits.length = s.tileUnits.length := by
  unfold State.bindTile
  split
  · rfl
  · simp [State.carrelZero, State.updUnit]

theorem State.bindTile_same {s : State} {slot tile word epoch : Nat} (h : (s.unit tile).bound = word ∧ (s.unit tile).boundEpoch = epoch) :
    s.bindTile slot tile word epoch = s := if_pos h

theorem State.bindTile_unit {s : State} {slot tile word epoch : Nat} (h : ¬ ((s.unit tile).bound = word ∧ (s.unit tile).boundEpoch = epoch))
    (ht : tile < s.tileUnits.length) : (s.bindTile slot tile word epoch).unit tile =
      { s.unit tile with bound := word, boundEpoch := epoch, board := s.boardFor slot tile word epoch } := by
  unfold State.bindTile
  rw [if_neg h]
  exact s.unit_updUnit_self (fun u => { u with bound := word, boundEpoch := epoch, board := s.boardFor slot tile word epoch }) ht

theorem State.bindTile_other (s : State) {slot tile word epoch r : Nat} (h : r ≠ tile) : (s.bindTile slot tile word epoch).unit r = s.unit r := by
  unfold State.bindTile
  split
  · rfl
  · exact s.unit_updUnit_other (fun u => { u with bound := word, boundEpoch := epoch, board := s.boardFor slot tile word epoch }) h

theorem State.bindTile_zero {s : State} {slot tile word epoch : Nat} (h : ¬ ((s.unit tile).bound = word ∧ (s.unit tile).boundEpoch = epoch)) {a : Nat}
    (ha : a < 2 ^ 22) : carrelByte (s.bindTile slot tile word epoch).carrel (carrelAt tile a) = 0 := by
  unfold State.bindTile
  rw [if_neg h, carrelByte_carrelZero]
  exact if_pos (by unfold carrelAt; omega)

theorem State.bindTile_works (s : State) (slot tile word epoch : Nat) (ht : tile < s.tileUnits.length) (w : WorkId) :
    ((s.bindTile slot tile word epoch).unit tile).work? w = (s.unit tile).work? w := by
  by_cases h : (s.unit tile).bound = word ∧ (s.unit tile).boundEpoch = epoch
  · rw [State.bindTile_same h]
  · rw [State.bindTile_unit h ht]
    rfl

theorem State.bindTile_bound (s : State) (slot tile word epoch : Nat) (ht : tile < s.tileUnits.length) :
    ((s.bindTile slot tile word epoch).unit tile).bound = word ∧ ((s.bindTile slot tile word epoch).unit tile).boundEpoch = epoch := by
  by_cases h : (s.unit tile).bound = word ∧ (s.unit tile).boundEpoch = epoch
  · rwa [State.bindTile_same h]
  · rw [State.bindTile_unit h ht]
    exact ⟨rfl, rfl⟩

/-- A count stands on a tile that changes its role where the step whose phase it has binds the new entry (R59). -/
theorem State.mem_boardFor {s : State} {slot tile word epoch : Nat} {j : Job} (hj : s.job? slot = some j) (e : (Nat × Nat × Nat × Nat) × Nat) :
    e ∈ s.boardFor slot tile word epoch ↔ e ∈ (s.unit tile).board ∧
      ∃ y, (j.steps.find? fun y => y.num % 4 == e.1.2.1) = some y ∧ y.roleWord tile = word ∧ y.epoch tile = epoch := by
  unfold State.boardFor
  rw [List.mem_filter, hj, Option.bind_some]
  cases j.steps.find? fun y => y.num % 4 == e.1.2.1 with
  | none => simp
  | some y => simp

/-! ### A work item starts (R50, R51) -/

/-- A work item as it starts on a tile, before it is walked on. -/
def Work.fresh (w : WorkId) (half prog : Nat) : Work :=
  { id := w, half := half, prog := prog, pos := 0, regs := [0, 0, 0, 0], loops := [], flying := [], rerun := false, only := none, delivered := [] }

/-- What the start of a work item leaves (R47, R50, R51, R59). -/
structure Started (s t : State) (tile : Nat) (w : WorkId) (j : Job) (x : StepRec) (first : Work) : Prop where
  work : (t.unit tile).work? w = some first
  dispatched : ∃ y, t.step? w.slot w.step = some y ∧ y.dispatched = x.dispatched ++ [(w, tile)]
  bound : (t.unit tile).bound = x.roleWord tile
  epoch : (t.unit tile).boundEpoch = x.epoch tile
  others : ∀ r, r ≠ tile → t.unit r = s.unit r
  role : if (s.unit tile).bound = x.roleWord tile ∧ (s.unit tile).boundEpoch = x.epoch tile then
      t.carrel = s.carrel ∧ (t.unit tile).board = (s.unit tile).board
    else (∀ e, e ∈ (t.unit tile).board ↔ e ∈ (s.unit tile).board ∧
        ∃ y, (j.steps.find? fun y => y.num % 4 == e.1.2.1) = some y ∧ y.roleWord tile = x.roleWord tile ∧ y.epoch tile = x.epoch tile) ∧
      ∀ a, a < 2 ^ 22 → carrelByte t.carrel (carrelAt tile a) = 0

/-- A state in which a tile bound to a step's role has taken a work item. -/
def State.taking (s : State) (tile : Nat) (w : WorkId) (k : Work) : State :=
  (s.updUnit tile fun u => u.taking k).updStep w.slot w.step fun x => x.dispatching w tile

theorem State.startWork_started {s : State} {tile half : Nat} {w : WorkId} {j : Job} {x : StepRec} {p : Program} (hj : s.job? w.slot = some j)
    (hx : j.step? w.step = some x) (hp : j.programs[j.programFor x w (if half = 0 then progA (x.roleWord tile) else progB (x.roleWord tile))]? = some p)
    (hfirst : (walkOn x p (.fresh w half (j.programFor x w (if half = 0 then progA (x.roleWord tile) else progB (x.roleWord tile))))).pos < p.descs.length)
    (hnone : (s.unit tile).work? w = none) (ht : tile < s.tileUnits.length) :
    Started s (s.startWork tile half w) tile w j x
      (walkOn x p (.fresh w half (j.programFor x w (if half = 0 then progA (x.roleWord tile) else progB (x.roleWord tile))))) := by
  let k := walkOn x p (.fresh w half (j.programFor x w (if half = 0 then progA (x.roleWord tile) else progB (x.roleWord tile))))
  let b := s.bindTile w.slot tile (x.roleWord tile) (x.epoch tile)
  have hstart : s.startWork tile half w = (b.taking tile w k).settle tile w := by
    unfold State.startWork
    rw [hj]
    dsimp only
    rw [hx]
    dsimp only
    rw [hp]
    rfl
  have hb : tile < b.tileUnits.length := by rwa [State.bindTile_length]
  have hunit : (b.taking tile w k).unit tile = (b.unit tile).taking k := b.unit_updUnit_self (fun u => u.taking k) hb
  have hwork : ((b.taking tile w k).unit tile).work? w = some k := by
    rw [hunit]
    exact Tile.work?_taking (walkOn_id ..) ((State.bindTile_works _ _ _ _ _ ht w).trans hnone)
  have hjob : (b.taking tile w k).job? w.slot = some (j.withStep w.step fun x => x.dispatching w tile) :=
    State.job?_updStep ((State.job?_jobs (State.bindTile_jobs ..) _).trans hj) ..
  rw [hstart, State.settle_open hwork hjob (p := p) (by rw [walkOn_prog]; exact hp) hfirst]
  refine ⟨hwork, ⟨x.dispatching w tile, ?_, rfl⟩, ?_, ?_, fun r hr => ?_, ?_⟩
  · rw [State.step?_of_job hjob]
    exact Job.step?_withStep_self hx (fun x => x.dispatching w tile) fun _ => rfl
  · rw [hunit]
    exact (State.bindTile_bound _ _ _ _ _ ht).1
  · rw [hunit]
    exact (State.bindTile_bound _ _ _ _ _ ht).2
  · exact (b.unit_updUnit_other (fun u => u.taking k) hr).trans (State.bindTile_other _ hr)
  · rw [hunit]
    by_cases hsame : (s.unit tile).bound = x.roleWord tile ∧ (s.unit tile).boundEpoch = x.epoch tile
    · rw [if_pos hsame]
      have hs : b = s := State.bindTile_same hsame
      exact ⟨show b.carrel = s.carrel by rw [hs], show (b.unit tile).board = (s.unit tile).board by rw [hs]⟩
    · rw [if_neg hsame]
      have hboard : (b.unit tile).board = s.boardFor w.slot tile (x.roleWord tile) (x.epoch tile) := by rw [State.bindTile_unit hsame ht]
      refine ⟨fun e => ?_, fun a ha => State.bindTile_zero hsame ha⟩
      change e ∈ (b.unit tile).board ↔ _
      rw [hboard]
      exact State.mem_boardFor hj e

/-! ### Dispatch -/

/-- A work item that waits for no place to run again is not run again (R51, R63). -/
theorem State.againOpen_eq_false {x : StepRec} {tile : Nat} {w : WorkId} (h : ∀ a ∈ x.again, a.id ≠ w ∨ a.tile ≠ tile) (s : State) (j : Job) :
    s.againOpen j x tile w = false := by
  have hnone : (x.again.any fun a => a.id == w && a.tile == tile) = false := by
    simpa [List.any_eq_false, imp_iff_not_or] using h
  simp [State.againOpen, hnone]

section
variable {s : State} {tile half : Nat} {w : WorkId} {j : Job} {x : StepRec} (hj : s.job? w.slot = some j) (hx : j.step? w.step = some x)
include hj hx

theorem State.exec_workItemDispatch : exec (.workItemDispatch tile half w) s = .next (
    if s.againOpen j x tile w then s.runAgain tile w
    else if !w.endPass && decide (w.mb < x.seeds.length) && s.pieceOpen j x w && s.dispatchOpen j && s.notHeld j x
        && !(j.steps.any fun y => decide (y.num + 4 ≤ w.step)) && !(x.dispatched.any fun p => p.1 == w) && s.tileOpen x tile half w
        && (((x.bound.filter fun b => b.1 == (w.mb, w.role, w.group)).map (·.2)).contains tile
          || ((x.bound.filter fun b => b.1 == (w.mb, w.role, w.group)).map (·.2)).all fun t => (s.unit t).lost)
        && j.rungsKnown w && s.stageOrder j x w then s.startWork tile half w
    else s) := by
  change execWorkItemDispatch tile half w s = _
  unfold execWorkItemDispatch
  dsimp only
  rw [hj]
  dsimp only
  rw [hx]

theorem State.exec_stepEndPass (hrole : w.role ≠ 5) (hafter : s.afterWork w.slot w.step = s) : exec (.stepEndPass tile half w) s = .next (
    if w.endPass && s.againOpen j x tile w then s.runAgain tile w
    else if (w.endPass && w.mb == 0 && w.piece == 0 && (halvesFor (x.roleWord tile) w.role w.group).any (fun h => h.1 == half)
          && w.back == (decide (1 < (halvesFor (x.roleWord tile) w.role w.group).length) && half == 1))
        && x.roleDone w.role w.group (decide (1 < (halvesFor (x.roleWord tile) w.role w.group).length))
        && !(x.dispatched.any fun p => p.1 == w && p.2 == tile)
        && (s.dispatchOpen j && ((s.unit tile).work? w).isNone && s.placeOpen tile half && s.bindOpen x tile) then s.startWork tile half w
    else s) := by
  change execStepEndPass tile half w s = _
  unfold execStepEndPass
  dsimp only
  rw [hafter, if_neg hrole, hj, State.step?_of_job hj, hx]
  dsimp only
  rw [if_neg hrole]

end

theorem workIsDispatched : Claims.WorkIsDispatched := by
  intro s tile half w j x p hj hx fresh prog first starts hp hpos hnone ht hslot hagain
  have hstarted := State.startWork_started hj hx hp hpos hnone ht
  have hrerun := State.againOpen_eq_false hagain s j
  refine ⟨fun hpass hopen hheld htile horder hmb hnum hnew hbound hrungs hpiece => ?_, fun hpass hrole hafter hopen hmb hpiece hback hhalves hdone hnew hplace hbind => ?_,
    fun ⟨q, hq, hqw⟩ => ?_⟩
  · refine ⟨s.startWork tile half w, (State.exec_workItemDispatch hj hx).trans ?_, ?_⟩
    · have hpieceOpen : s.pieceOpen j x w = true := by
        unfold State.pieceOpen
        split at hpiece
        · next h =>
          obtain ⟨hformed, hcount, hsampling⟩ := hpiece
          rw [if_pos h]
          simp only [Bool.and_eq_true, Bool.not_eq_true', beq_iff_eq, List.contains_eq_mem, decide_eq_false_iff_not, Bool.and_eq_false_iff]
          refine ⟨⟨hformed, hcount⟩, ?_⟩
          by_cases h0 : 0 < w.piece
          · exact .inr (hsampling h0)
          · exact .inl h0
        · next h => rwa [if_neg h]
      have hunbound : (x.bound.filter fun b => b.1 == (w.mb, w.role, w.group)) = [] :=
        List.filter_eq_nil_iff.2 fun b hb => by simpa using hbound b hb
      have hearly : (j.steps.any fun y => decide (y.num + 4 ≤ w.step)) = false :=
        List.any_eq_false.2 fun y hy => by simpa using hnum y hy
      have hfresh : (x.dispatched.any fun p => p.1 == w) = false := List.any_eq_false.2 fun q hq => by simpa using hnew q hq
      simp [hrerun, hpass, hmb, hpieceOpen, hopen, hheld, hearly, hfresh, htile, hunbound, hrungs, horder]
    · exact ⟨hstarted.work, hstarted.dispatched, hstarted.bound, hstarted.epoch, hstarted.others, hstarted.role⟩
  · obtain ⟨n, hhalves⟩ := hhalves
    refine ⟨s.startWork tile half w, (State.exec_stepEndPass hj hx hrole hafter).trans ?_, ?_⟩
    · have hfresh : (x.dispatched.any fun p => p.1 == w && p.2 == tile) = false :=
        List.any_eq_false.2 fun q hq => by simpa [Prod.ext_iff] using hnew q hq
      simp [hrerun, hpass, hmb, hpiece, hback, hhalves, hdone, hfresh, hopen, hnone, hplace, hbind]
    · exact ⟨hstarted.work, hstarted.dispatched, hstarted.bound, hstarted.epoch, hstarted.others, hstarted.role⟩
  · have hdispatched : (x.dispatched.any fun p => p.1 == w) = true := List.any_eq_true.2 ⟨q, hq, by simpa using hqw⟩
    refine (State.exec_workItemDispatch hj hx).trans ?_
    simp [hrerun, hdispatched]

/-! ### A rerun takes its place (R51, R63, R108) -/

/-- A work item as it starts over on a tile, before it is walked on. -/
def Rerun.start (a : Rerun) (w : WorkId) (half prog : Nat) : Work := ⟨w, half, prog, 0, [0, 0, 0, 0], [], [], true, a.only, a.delivered, []⟩

/-- A slip of a work item that starts over: fenced where it is in flight and the program is the same, gone otherwise (R90). -/
def Slip.restarted (w : WorkId) (same : Bool) (p : Nat × Slip) : Option (Nat × Slip) :=
  if p.2.work != w then some p
  else if same && p.2.holdsCredit then some (p.1, { p.2 with state := .fenced })
  else none

/-- A tile on which a work item starts over. -/
def Tile.restarted (u : Tile) (w : WorkId) (same : Bool) (k : Work) : Tile :=
  { u with works := u.works.filter (fun v => v.id != w) ++ [k], slips := u.slips.filterMap (Slip.restarted w same),
           queue := if u.queueBy = some w then [] else u.queue, queueBy := if u.queueBy = some w then none else u.queueBy }

theorem Tile.work?_restarted (u : Tile) {w : WorkId} (same : Bool) {k : Work} (hk : k.id = w) : (u.restarted w same k).work? w = some k := by
  have hnone : (u.works.filter fun v => v.id != w).find? (fun v => v.id == w) = none := List.find?_eq_none.2 fun v hv => by simpa using (List.mem_filter.1 hv).2
  unfold Tile.work? Tile.restarted
  rw [List.find?_append, hnone]
  simp [hk]

/-- A step one of whose work items starts over on a tile. -/
def StepRec.restarted (x : StepRec) (w : WorkId) (tile : Nat) (a : Rerun) : StepRec :=
  { x with completed := x.completed.erase w
           again := x.again.filter (fun b => b.id != w || b.tile != tile) ++ []
           tallies := if a.only.isSome then x.tallies else x.tallies.filter fun t => t.1.1 != w || a.delivered.any fun e => e.1 == t.1.2.1 && e.2.2 == 0 }

theorem State.restart_of_room {s : State} {tile : Nat} {w : WorkId} {j : Job} {x : StepRec} {p : Program} (a : Rerun) (hj : s.job? w.slot = some j)
    (hx : j.step? w.step = some x) (hp : j.programs[j.progOn x tile w]? = some p)
    (hroom : ((s.unit tile).works.filter fun v => v.half == halfOf (x.roleWord tile) w && v.id != w).length < 4) :
    s.restart tile w a.only a.delivered =
      ((s.updUnit tile fun u => u.restarted w (((s.unit tile).work? w).map (·.prog) == some (j.progOn x tile w))
        (walkOn x p (a.start w (halfOf (x.roleWord tile) w) (j.progOn x tile w)))).updStep w.slot w.step fun x => x.restarted w tile a).settle tile w := by
  unfold State.restart
  rw [hj, State.step?_of_job hj, hx]
  dsimp only
  rw [hp]
  simp only [hroom, decide_true, if_true]
  rfl

theorem rerunsTakeAPlace : Claims.RerunsTakeAPlace := by
  intro s tile half w j x p a hj hx ha hopen hplace ht hslot hp start k hpos
  let same := ((s.unit tile).work? w).map (·.prog) == some (j.progOn x tile w)
  let u := (s.updUnit tile fun u => u.restarted w same k).updStep w.slot w.step fun x => x.restarted w tile a
  have hwork : (u.unit tile).work? w = some k := by
    rw [show u.unit tile = (s.unit tile).restarted w same k from s.unit_updUnit_self (fun u => u.restarted w same k) ht]
    exact Tile.work?_restarted _ _ (walkOn_id ..)
  have hjob : u.job? w.slot = some (j.withStep w.step fun x => x.restarted w tile a) := State.job?_updStep hj ..
  have hroom : ((s.unit tile).works.filter fun v => v.half == halfOf (x.roleWord tile) w && v.id != w).length < 4 := by
    have hfew : ((s.unit tile).works.filter fun v => v.half == halfOf (x.roleWord tile) w).length < 4 := by
      simp only [State.placeOpen, Bool.and_eq_true, decide_eq_true_eq] at hplace
      exact hplace.2
    refine lt_of_le_of_lt ?_ hfew
    exact (List.monotone_filter_right _ fun v hv => by simp_all).length_le
  have hrun : s.runAgain tile w = u := by
    unfold State.runAgain
    rw [State.step?_of_job hj, hx, Option.bind_some, ha]
    exact (State.restart_of_room a hj hx hp hroom).trans
      (State.settle_open hwork hjob (p := p) (show j.programs[k.prog]? = some p by rw [show k.prog = j.progOn x tile w from walkOn_prog ..]; exact hp) hpos)
  have hagain : s.againOpen j x tile w = true := by
    have hany : x.again.any (fun a => a.id == w && a.tile == tile) = true :=
      List.any_eq_true.2 ⟨a, List.mem_of_find?_eq_some ha, List.find?_some (p := fun a : Rerun => a.id == w && a.tile == tile) ha⟩
    simp [State.againOpen, hany, hopen, hplace]
  refine ⟨u, (State.exec_workItemDispatch hj hx).trans (congrArg Host.Outcome.next ((if_pos hagain).trans hrun)), hwork, x.restarted w tile a, ?_, fun b hb => ?_, rfl⟩
  · rw [State.step?_of_job hjob]
    exact Job.step?_withStep_self hx (fun x => x.restarted w tile a) fun _ => rfl
  · have hb := (List.mem_filter.1 (by simpa only [List.append_nil] using (show b ∈ x.again.filter _ ++ [] from hb))).2
    simpa [imp_iff_not_or] using hb

/-- Settles O41: what the start of a work item leaves is said once, and both rows come to it. -/
theorem workStartsOnTiles : Obligations.WorkStartsOnTiles := ⟨workIsDispatched, rerunsTakeAPlace⟩

end Sys2Proof.Machine
end

section
/-!
The issue of an instance (R49, R52, R61): what an effect may change, and what stands on the tile after it.
-/
namespace Sys2Proof.Machine
open Sys2Proof

/-! ### What an instance runs with -/

/-- What `ctx?` has found. -/
structure State.Context (s : State) (tile : Nat) (w : WorkId) (c : Ctx) : Prop where
  onTile : c.tile = tile
  slot : c.slot = w.slot
  work : (s.unit tile).work? w = some c.w
  job : s.job? w.slot = some c.job
  step : c.job.step? w.step = some c.x
  prog : c.job.programs[c.w.prog]? = some c.prog
  pos : c.w.pos < c.prog.descs.length
  desc : c.d = c.prog.at c.w.pos
  base : c.base = c.job.regionBase (c.x.roleWord tile) c.w.half

theorem State.context_of_ctx? {s : State} {tile : Nat} {w : WorkId} {c : Ctx} (h : s.ctx? tile w = some c) : s.Context tile w c := by
  unfold State.ctx? at h
  simp only [Option.bind_eq_bind, Option.bind_eq_some_iff] at h
  obtain ⟨k, hk, j, hj, x, hx, p, hp, h⟩ := h
  split at h
  · next hpos =>
    obtain rfl := Option.some.inj h
    exact ⟨rfl, rfl, hk, hj, hx, hp, hpos, rfl, rfl⟩
  · cases h

theorem State.Context.id {s : State} {tile : Nat} {w : WorkId} {c : Ctx} (h : s.Context tile w c) : c.w.id = w := Tile.work?_id h.work

theorem State.Context.num {s : State} {tile : Nat} {w : WorkId} {c : Ctx} (h : s.Context tile w c) : c.x.num = w.step := by
  simpa using List.find?_some (show c.job.steps.find? _ = some c.x from h.step)

theorem State.Context.getStep {s : State} {tile : Nat} {w : WorkId} {c : Ctx} (h : s.Context tile w c) : s.step? w.slot w.step = some c.x :=
  (State.step?_of_job h.job _).trans h.step

/-! ### Effects -/

/-- An effect has changed no carrel byte outside the ranges its instance writes, and of the tiles nothing that stands on them. -/
structure Effected (c : Ctx) (s t : State) : Prop where
  length : t.tileUnits.length = s.tileUnits.length
  others : ∀ r, r ≠ c.tile → t.unit r = s.unit r
  works : (t.unit c.tile).works = (s.unit c.tile).works
  slips : (t.unit c.tile).slips = (s.unit c.tile).slips
  carrel : ∀ a, ¬ c.Writes a → carrelByte t.carrel a = carrelByte s.carrel a

theorem Effected.of_carrel {c : Ctx} {s t : State} (htiles : t.tileUnits = s.tileUnits)
    (hcarrel : ∀ a, ¬ c.Writes a → carrelByte t.carrel a = carrelByte s.carrel a) : Effected c s t :=
  ⟨by rw [htiles], fun r _ => State.unit_tileUnits htiles r, by rw [State.unit_tileUnits htiles], by rw [State.unit_tileUnits htiles], hcarrel⟩

theorem Effected.of_eq {c : Ctx} {s t : State} (htiles : t.tileUnits = s.tileUnits) (hcarrel : t.carrel = s.carrel) : Effected c s t :=
  .of_carrel htiles fun a _ => by rw [hcarrel]

theorem Effected.of_only {c : Ctx} {w : List Part} {s t : State} (h : Only w s t) (htiles : w.contains .tileUnits = false) (hcarrel : w.contains .carrel = false) :
    Effected c s t := .of_eq (h.eq .tileUnits htiles) (h.eq .carrel hcarrel)

theorem Effected.refl (c : Ctx) (s : State) : Effected c s s := .of_eq rfl rfl

theorem Effected.trans {c : Ctx} {s t u : State} (h : Effected c s t) (g : Effected c t u) : Effected c s u :=
  ⟨g.length.trans h.length, fun r hr => (g.others r hr).trans (h.others r hr), g.works.trans h.works, g.slips.trans h.slips,
    fun a ha => (g.carrel a ha).trans (h.carrel a ha)⟩

theorem Effected.foldl {α : Type} {c : Ctx} (f : State → α → State) (l : List α) (s : State) (h : ∀ s, ∀ a ∈ l, Effected c s (f s a)) :
    Effected c s (l.foldl f s) :=
  List.foldlRecOn (motive := fun t => Effected c s t) l f (.refl c s) fun t ht a ha => ht.trans (h t a ha)

theorem Effected.ite {p : Prop} [Decidable p] {c : Ctx} {s a b : State} (ha : p → Effected c s a) (hb : ¬ p → Effected c s b) : Effected c s (if p then a else b) := by
  split
  · next h => exact ha h
  · next h => exact hb h

/-- Tiles enter the result queue or leave it, and nothing else of the tile changes. -/
theorem Effected.updQueue (c : Ctx) (s : State) (f : Tile → Tile) (hworks : ∀ u, (f u).works = u.works) (hslips : ∀ u, (f u).slips = u.slips) :
    Effected c s (s.updUnit c.tile f) := by
  have hself : (s.updUnit c.tile f).unit c.tile = f (s.unit c.tile) ∨ (s.updUnit c.tile f).unit c.tile = s.unit c.tile := by
    by_cases ht : c.tile < s.tileUnits.length
    · exact .inl (s.unit_updUnit_self f ht)
    · refine .inr (State.unit_tileUnits ?_ _)
      exact List.set_eq_of_length_le (not_lt.1 ht)
  refine ⟨by simp [State.updUnit], fun r hr => s.unit_updUnit_other f hr, ?_, ?_, fun _ _ => rfl⟩
  · obtain h | h := hself
    · rw [h, hworks]
    · rw [h]
  · obtain h | h := hself
    · rw [h, hslips]
    · rw [h]

theorem State.takeQueue_effected (c : Ctx) (s : State) (n : Nat) : Effected c s (s.takeQueue c.tile n).2 :=
  .updQueue c s (fun u => { u with queue := u.queue.drop n }) (fun _ => rfl) fun _ => rfl

/-! ### Writes to the carrel -/

/-- The bytes of a tile's carrel from an address on lie in a range the instance writes. -/
def Ctx.Covers (c : Ctx) (addr n : Nat) : Prop := ∃ r ∈ c.ranges, r.write = true ∧ 32 * r.first ≤ addr ∧ addr + n ≤ 32 * (r.first + r.len)

theorem Ctx.covers_of_operand {c : Ctx} {p : Placed} (hp : p ∈ c.d.operands c.w.regs) (hw : p.2.write = true) {addr n : Nat}
    (hlo : 32 * (c.base + p.2.first) ≤ addr) (hhi : addr + n ≤ 32 * (c.base + p.2.first + p.2.len)) : c.Covers addr n :=
  ⟨{ p.2 with first := c.base + p.2.first }, List.mem_map.2 ⟨p.2, List.mem_map.2 ⟨p, hp, rfl⟩, rfl⟩, hw, hlo, hhi⟩

theorem Ctx.Covers.sub {c : Ctx} {a n b m : Nat} (h : c.Covers a n) (hlo : a ≤ b) (hhi : b + m ≤ a + n) : c.Covers b m := by
  obtain ⟨r, hr, hw, h1, h2⟩ := h
  exact ⟨r, hr, hw, h1.trans hlo, hhi.trans h2⟩

theorem Ctx.Covers.writes {c : Ctx} {addr n a : Nat} (h : c.Covers addr n) (hlo : carrelAt c.tile addr ≤ a) (hhi : a < carrelAt c.tile addr + n) : c.Writes a := by
  obtain ⟨r, hr, hw, h1, h2⟩ := h
  have hadd (m : Nat) : carrelAt c.tile m = carrelAt c.tile 0 + m := by rw [carrelAt, carrelAt, Nat.add_zero]
  rw [hadd addr] at hlo hhi
  refine ⟨r, hr, hw, ?_, ?_⟩
  · rw [hadd]
    omega
  · rw [hadd]
    omega

theorem State.carrelWrite_effected {c : Ctx} (s : State) {addr : Nat} {b : List Byte} (h : c.Covers addr b.length) : Effected c s (s.carrelWrite c.tile addr b) := by
  refine .of_carrel rfl fun a ha => ?_
  refine (carrelByte_putCells s.carrel (carrelAt c.tile addr) b a).trans (if_neg fun hin => ha ?_)
  exact h.writes hin.1 hin.2

/-- The bytes of an element are those of its width. -/
theorem length_packElems_le (b : Nat) (l : List Nat) (h : l.length ≤ 1024) (hb : b % 4 = 0) : (packElems b l).length ≤ 128 * b := by
  by_cases h8 : b % 8 = 0
  · rw [length_packElems h8]
    have hmul : l.length * (b / 8) ≤ 1024 * (b / 8) := Nat.mul_le_mul_right _ h
    omega
  · unfold packElems
    rw [if_neg h8, List.length_map, length_chunks (by omega) _ _ (le_refl _)]
    unfold ceilDiv
    omega

theorem length_slice_le (l : List Byte) (off n : Nat) : (slice l off n).length ≤ n := List.length_take_le ..

/-- A body of 1,024 elements or fewer takes 128 bytes a bit of their width. -/
theorem length_skewBody_le (b : Nat) (l : List Nat) (h : l.length ≤ 1024) (hb : b % 4 = 0) : (skewBody b l).length ≤ 128 * b := by
  unfold skewBody
  split
  · next hwidth =>
    dsimp only
    have hsum : ∀ (f : Nat → List Byte), (∀ i, (f i).length ≤ 32) → ∀ n, ((List.range n).map f).flatten.length ≤ n * 32 := by
      intro f hf n
      induction n with
      | zero => simp
      | succ n ih =>
        rw [List.range_succ, List.map_append, List.flatten_append, List.length_append]
        have := hf n
        simp only [List.map_cons, List.map_nil, List.flatten_cons, List.flatten_nil, List.append_nil]
        omega
    refine (hsum _ (fun i => length_slice_le ..) _).trans ?_
    unfold partsOf
    omega
  · exact length_packElems_le b l h hb

theorem State.putBody_effected {c : Ctx} (s : State) {granule b : Nat} {es : List Nat} (hlen : es.length ≤ 1024) (hb : b % 4 = 0)
    (h : c.Covers (32 * granule) (128 * b)) : Effected c s (s.putBody c.tile granule b es) :=
  s.carrelWrite_effected (h.sub (le_refl _) (Nat.add_le_add_left (length_skewBody_le b es hlen hb) _))

/-- Elements written to an operand stay within the granules it has room for. -/
theorem State.putOperand_effected {c : Ctx} (s : State) {granule b : Nat} {es : List Nat} (hb : b % 4 = 0)
    (h : c.Covers (32 * granule) (128 * b * (es.length / 1024))) : Effected c s (s.putOperand c.tile granule b true es) := by
  unfold State.putOperand
  rw [if_pos rfl]
  refine .foldl _ _ _ fun t i hi => ?_
  refine t.putBody_effected (List.length_take_le ..) hb (h.sub (by omega) ?_)
  have hi : i + 1 ≤ es.length / 1024 := by simpa using hi
  have hmul : 128 * b * (i + 1) ≤ 128 * b * (es.length / 1024) := Nat.mul_le_mul_left _ hi
  have hexp : 128 * b * (i + 1) = 128 * b * i + 128 * b := Nat.mul_succ ..
  have hat : 32 * (granule + 4 * b * i) = 32 * granule + 128 * b * i := by
    rw [Nat.mul_add, ← Nat.mul_assoc, ← Nat.mul_assoc]
  omega

theorem State.putOperand_effected_flat {c : Ctx} (s : State) {granule b : Nat} {es : List Nat} (h : c.Covers (32 * granule) (ceilDiv (es.length * b) 8)) :
    Effected c s (s.putOperand c.tile granule b false es) := by
  unfold State.putOperand
  rw [if_neg Bool.false_ne_true]
  exact s.carrelWrite_effected (h.sub (le_refl _) (by rw [length_toLE]))

/-! ### The instance stands on its tile -/

theorem State.updWork_jobs (s : State) (t : Nat) (w : WorkId) (f : Work → Work) : (s.updWork t w f).jobs = s.jobs := rfl
theorem State.updWork_carrel (s : State) (t : Nat) (w : WorkId) (f : Work → Work) : (s.updWork t w f).carrel = s.carrel := rfl

section
variable {s : State} {tile : Nat} {w : WorkId} {c : Ctx} (hctx : s.ctx? tile w = some c)
include hctx

theorem State.issue_of_not {ok : Ctx → State → Bool} {effect : Ctx → State → State} {mk : Ctx → State → Inst → Inst} (h : ok c s = false ∨ s.canIssue c = false) :
    s.issue tile w ok effect mk = s := by
  unfold State.issue
  rw [hctx]
  dsimp only
  refine if_neg ?_
  obtain h | h := h
  · simp [h]
  · simp [h]

/-- A work item is issued from its tile as `walkOn` leaves it, whatever the effect was. -/
theorem State.issue_issued {ok : Ctx → State → Bool} {effect : Ctx → State → State} {mk : Ctx → State → Inst → Inst} (hok : ok c s = true) (hcan : s.canIssue c = true)
    (heff : Effected c s (effect c s)) (hmk : ∃ ready reqs targets, mk c s (c.inst (s.unit tile).nextOrd) =
      { c.inst (s.unit tile).nextOrd with ready := ready, reqs := reqs, targets := targets }) :
    Issued s (s.issue tile w ok effect mk) w c (mk c s (c.inst (s.unit tile).nextOrd)) ∧
      ((s.issue tile w ok effect mk).unit tile).slips = (s.unit tile).slips ∧ (s.issue tile w ok effect mk).jobs = (effect c s).jobs := by
  have h := State.context_of_ctx? hctx
  obtain ⟨ready, reqs, targets, hmk⟩ := hmk
  let i := mk c s (c.inst (s.unit tile).nextOrd)
  let t := effect c s
  let x := (t.step? w.slot w.step).getD c.x
  let go (k : Work) : Work := walkOn x c.prog
    { k with flying := k.flying ++ [i], delivered := if c.live then k.delivered ++ [(c.d.seq, k.regs, 0)] else k.delivered,
             latest := aSet k.latest k.pos (s.unit tile).nextOrd, pos := k.pos + 1 }
  have hissue : s.issue tile w ok effect mk = (t.updWork tile w go).updUnit tile fun u => u.issued c.w := by
    unfold State.issue
    rw [hctx]
    dsimp only
    rw [hok, hcan]
    rfl
  have hord : i.ord = (s.unit tile).nextOrd := by
    change (mk c s (c.inst (s.unit tile).nextOrd)).ord = _
    rw [hmk]
    rfl
  have ht : tile < t.tileUnits.length := heff.length ▸ State.lt_of_work? h.work
  have hgo (k : Work) : (go k).id = k.id := walkOn_id ..
  obtain ⟨hlength, hothers, hworks, hslips, hcarrel⟩ := heff
  rw [h.onTile] at hothers hworks hslips
  have hunit : (s.issue tile w ok effect mk).unit tile =
      ({ t.unit tile with works := (t.unit tile).works.map fun k => if k.id = w then go k else k } : Tile).issued c.w := by
    rw [hissue, State.unit_updUnit_self _ _ (by simpa [State.updWork, State.updUnit] using ht), State.unit_updWork _ _ _ ht]
  have hwork (v : WorkId) : ((s.issue tile w ok effect mk).unit tile).work? v =
      ((s.unit tile).works.map fun k => if k.id = w then go k else k).find? fun k => k.id == v := by
    rw [hunit]
    unfold Tile.work? Tile.issued
    dsimp only
    rw [hworks]
  refine ⟨⟨?_, ?_, ?_, ?_, fun v hv => ?_, fun r hr => ?_, fun a ha => ?_⟩, ?_, ?_⟩
  · rw [hmk]
    exact ⟨rfl, rfl, rfl, rfl, rfl⟩
  · rw [h.onTile, hmk]
    rfl
  · have hstep : (s.issue tile w ok effect mk).step? w.slot w.step = t.step? w.slot w.step := by
      rw [hissue]
      exact State.step?_jobs (by rw [State.updUnit_jobs, State.updWork_jobs]) ..
    rw [h.onTile, hwork, hstep]
    refine (Tile.work?_upd (s.unit tile) w go hgo).trans ?_
    rw [h.work, show (mk c s (c.inst (s.unit tile).nextOrd)).ord = (s.unit tile).nextOrd from hord]
    rfl
  · rw [h.onTile, hunit]
    rfl
  · rw [h.onTile, hwork]
    unfold Tile.work?
    rw [List.find?_map]
    have hsame : ((fun k : Work => k.id == v) ∘ fun k => if k.id = w then go k else k) = fun k => k.id == v := by
      funext k
      simp only [Function.comp_apply]
      split
      · rw [hgo]
      · rfl
    rw [hsame]
    cases hfind : (s.unit tile).works.find? fun k => k.id == v with
    | none => rfl
    | some k =>
      have hk : k.id = v := by simpa using List.find?_some hfind
      simp [hk, hv]
  · rw [h.onTile] at hr
    rw [hissue, State.unit_updUnit_other _ _ hr]
    exact (State.unit_updUnit_other _ _ hr).trans (hothers r hr)
  · rw [hissue, State.updUnit_carrel, State.updWork_carrel]
    exact hcarrel a ha
  · rw [hunit]
    exact hslips
  · rw [hissue, State.updUnit_jobs, State.updWork_jobs]

end

end Sys2Proof.Machine
end

section
/-!
`VECTOR`, `SOFTMAX_BLOCK`, `CONVERT` and `SPMM` write their declared ranges alone, and their instances issue (R49, R52).
-/
namespace Sys2Proof.Machine
open Sys2Proof

/-! ### Sizes of operands -/

theorem ElemType.bits_mod (t : ElemType) : t.bits % 4 = 0 := by cases t <;> rfl

theorem ceilDiv_mono {m n : Nat} (h : m ≤ n) (k : Nat) : ceilDiv m k ≤ ceilDiv n k := Nat.div_le_div_right (by omega)

theorem ceilDiv_bits_le (n : Nat) : ceilDiv n 8 ≤ 32 * ceilDiv n 256 := by
  unfold ceilDiv
  omega

theorem ceilDiv_words_le (n : Nat) : 4 * n ≤ 32 * ceilDiv n 8 := by
  unfold ceilDiv
  omega

/-- Elements of an operand's shape stay within the operand's granules (R177, R178). -/
theorem State.putOperand_shape {c : Ctx} (s : State) {sh : Shape} {wide : Bool} {t : ElemType} {granule : Nat} {es : List Nat} (hlen : es.length ≤ sh.elems wide)
    (h : c.Covers (32 * granule) (32 * sh.granules wide t.bits)) : Effected c s (s.putOperand c.tile granule t.bits (sh.shape == 2) es) := by
  by_cases h2 : sh.shape = 2
  · rw [beq_iff_eq.2 h2]
    refine s.putOperand_effected t.bits_mod (h.sub (le_refl _) (Nat.add_le_add_left ?_ _))
    have hcount : es.length / 1024 ≤ sh.count := by
      simp only [Shape.elems, h2] at hlen
      omega
    calc 128 * t.bits * (es.length / 1024) ≤ 128 * t.bits * sh.count := Nat.mul_le_mul_left _ hcount
      _ = 32 * sh.granules wide t.bits := by
        rw [Shape.granules, if_pos h2]
        ring
  · rw [beq_eq_false_iff_ne.2 h2]
    refine s.putOperand_effected_flat (h.sub (le_refl _) (Nat.add_le_add_left ?_ _))
    rw [Shape.granules, if_neg h2]
    exact (ceilDiv_mono (Nat.mul_le_mul_right _ hlen) 8).trans (ceilDiv_bits_le _)

theorem length_unpackElems (b n : Nat) (d : List Byte) : (unpackElems b n d).length = n := by
  unfold unpackElems
  split <;> simp

theorem length_unskewBody (b : Nat) (d : List Byte) : (unskewBody b d).length = 1024 := by
  unfold unskewBody
  split <;> exact length_unpackElems ..

theorem State.length_operand (s : State) (tile granule bits n : Nat) (tiles : Bool) : (s.operand tile granule bits n tiles).length ≤ n := by
  unfold State.operand
  cases tiles with
  | false => exact (length_unpackElems ..).le
  | true =>
    have hbody (i : Nat) : (s.body tile (granule + 4 * bits * i) bits).length = 1024 := length_unskewBody ..
    simp only [if_true, List.length_flatten, List.map_map, Function.comp_def, hbody, List.map_const', List.length_range, List.sum_replicate, smul_eq_mul]
    omega

theorem State.length_takeQueue (s : State) (tile n : Nat) : (s.takeQueue tile n).1.length ≤ 1024 * n := List.length_take_le ..

/-! ### `VECTOR` -/

/-- The destination of a `VECTOR` instance (Table 09-2). -/
theorem Ctx.covers_vector {c : Ctx} (hk : c.d.kind = 0x06) : c.Covers (32 * c.gran 290 274 306 291 205 204)
    (32 * (if vectorCompare (c.d.f 135 128) then ceilDiv (c.d.vShape.elems c.d.vWide) 256
      else if vectorReduce (c.d.f 135 128) then (if c.d.b 160 then ceilDiv (ceilDiv (c.d.vShape.elems c.d.vWide) 32) 8 else 1)
      else c.d.vShape.granules c.d.vWide (elemType (c.d.f 140 136)).bits)) := by
  refine Ctx.covers_of_operand (p := (274, ⟨c.d.addr c.w.regs 290 274 306 291 205 204, if vectorCompare (c.d.f 135 128) then ceilDiv (c.d.vShape.elems c.d.vWide) 256
      else if vectorReduce (c.d.f 135 128) then (if c.d.b 160 then ceilDiv (ceilDiv (c.d.vShape.elems c.d.vWide) 32) 8 else 1)
      else c.d.vShape.granules c.d.vWide (elemType (c.d.f 140 136)).bits, true⟩)) ?_ rfl (le_refl _) (by rw [← Nat.mul_add]; rfl)
  unfold Desc.operands
  rw [hk]
  exact List.mem_append_right _ (List.mem_singleton.2 rfl)

/-- The count that `VCOMPRESS` leaves (R187). -/
theorem Ctx.covers_packed {c : Ctx} (hk : c.d.kind = 0x06) (hop : c.d.f 135 128 = 0x42) : c.Covers (32 * c.gran 257 241 273 258 203 202) 4 := by
  refine Ctx.covers_of_operand (p := (241, ⟨c.d.addr c.w.regs 257 241 273 258 203 202, 1, true⟩)) ?_ rfl (le_refl _) (by rw [Nat.mul_add]; exact Nat.add_le_add_left (show 4 ≤ 32 * 1 by decide) _)
  unfold Desc.operands
  rw [hk]
  simp [hop]

theorem Ctx.vecRead_n (c : Ctx) (s : State) : (c.vecRead s).1.n = c.d.vShape.elems c.d.vWide := rfl

theorem Ctx.vecRead_effected (c : Ctx) (s : State) : Effected c s (c.vecRead s).2 := by
  unfold Ctx.vecRead
  dsimp only
  split
  · exact s.takeQueue_effected c _
  · exact .refl c s

theorem Ctx.count_effected (c : Ctx) (i sub n : Nat) (s : State) : Effected c s (c.count i sub n s) := .of_only (Ctx.count_only ..) rfl rfl
theorem Ctx.report_effected (c : Ctx) (t : Nat) (n : Counted) (s : State) : Effected c s (c.report t n s) := .of_only (Ctx.report_only ..) rfl rfl

theorem Ctx.vecWrite_effected {c : Ctx} {v : VecIn} (rs : List (Option Rounded)) (s : State) (hn : v.n = c.d.vShape.elems c.d.vWide)
    (h : c.Covers (32 * c.gran 290 274 306 291 205 204) (32 * c.d.vShape.granules c.d.vWide (elemType (c.d.f 140 136)).bits)) :
    Effected c s (c.vecWrite v rs s) := by
  have hwrite : ∀ es : List Nat, es.length = v.n →
      Effected c s (s.putOperand c.tile (c.gran 290 274 306 291 205 204) (elemType (c.d.f 140 136)).bits (c.d.vShape.shape == 2) es) :=
    fun es hes => s.putOperand_shape (sh := c.d.vShape) (wide := c.d.vWide) (hes.trans hn).le h
  unfold Ctx.vecWrite
  dsimp only
  refine .ite (fun _ => .trans (hwrite _ (by simp)) (c.count_effected ..)) fun _ => hwrite _ (by simp)

/-- What a well-formed reduction's destination holds is 32 bits wide (R184). -/
theorem Desc.reduce_bits {d : Desc} (hk : d.kind = 0x06) (hform : d.bodyBads 0 = []) (hred : vectorReduce (d.f 135 128) = true) :
    (elemType (d.f 140 136)).bits = 32 := by
  unfold Desc.bodyBads at hform
  rw [hk] at hform
  simp only [Desc.vectorBads, List.append_eq_nil_iff, Desc.rel, need_eq_nil, Bool.and_eq_true, hred, Bool.not_true, Bool.false_or] at hform
  obtain ⟨-, ⟨⟨⟨⟨-, hty⟩, -⟩, -⟩, -⟩⟩ := hform
  split at hty
  · rw [beq_iff_eq.1 hty]
    rfl
  · split at hty
    · rw [beq_iff_eq.1 hty]
      rfl
    · rw [beq_iff_eq.1 hty]
      rfl

theorem length_reduceAll (op : Nat) (t : ElemType) (r : Rnd) (ints group : Bool) (l : List (Option Val)) :
    (reduceAll op t r ints group l).length = if group then ceilDiv l.length 32 else 1 := by
  unfold reduceAll
  cases group with
  | false => rfl
  | true => simp [length_chunks]

theorem Ctx.vector_effected {c : Ctx} (s : State) (hk : c.d.kind = 0x06) (hform : c.d.bodyBads 0 = []) : Effected c s (c.vector s) := by
  have hn := c.vecRead_n s
  have hread := c.vecRead_effected s
  have hcovers := Ctx.covers_vector hk
  unfold Ctx.vector
  dsimp only
  generalize c.vecRead s = q at hn hread ⊢
  obtain ⟨v, u⟩ := q
  dsimp only at hn hread ⊢
  refine hread.trans (.ite (fun hcmp => ?_) fun hcmp => .ite (fun hred => ?_) fun hred => ?_)
  · rw [if_pos hcmp] at hcovers
    refine u.putOperand_effected_flat (hcovers.sub (le_refl _) (Nat.add_le_add_left ?_ _))
    rw [List.length_map, List.length_range, hn, Nat.mul_one]
    exact ceilDiv_bits_le _
  · rw [if_neg hcmp, if_pos hred] at hcovers
    have hbits := Desc.reduce_bits hk hform hred
    have hwrite : ∀ rs : List Rounded, rs.length = (if c.d.b 160 then ceilDiv v.n 32 else 1) →
        Effected c u (u.putOperand c.tile (c.gran 290 274 306 291 205 204) (elemType (c.d.f 140 136)).bits false (rs.map (·.bits))) := by
      intro rs hrs
      refine u.putOperand_effected_flat (hcovers.sub (le_refl _) (Nat.add_le_add_left ?_ _))
      rw [List.length_map, hrs, hbits, hn]
      split
      · refine le_trans ?_ (ceilDiv_words_le _)
        unfold ceilDiv
        omega
      · decide
    have hlen (l : List (Option Val)) (hl : l.length = v.n) := (length_reduceAll (c.d.f 135 128) (elemType (c.d.f 140 136)) c.d.vRnd v.ints (c.d.b 160) l).trans (by rw [hl])
    exact .ite (fun _ => (hwrite _ (hlen _ (by simp))).trans (c.count_effected ..)) fun _ => hwrite _ (hlen _ (by simp))
  · rw [if_neg hcmp, if_neg hred] at hcovers
    refine .ite (fun _ => .ite (fun hop => ?_) fun _ => ?_) fun _ => .ite (fun _ => ?_) fun _ => ?_
    · exact (Ctx.vecWrite_effected _ u hn hcovers).trans (State.carrelWrite_effected _ (by rw [length_toLE]; exact Ctx.covers_packed hk hop))
    · exact Ctx.vecWrite_effected _ u hn hcovers
    · exact (Ctx.vecWrite_effected _ u hn hcovers).trans (.of_only (Ctx.laneRange_only ..) rfl rfl)
    · exact Ctx.vecWrite_effected _ u hn hcovers

/-! ### `SOFTMAX_BLOCK` -/

/-- A block's result and state are FP32 or BF16 (Table 10-7). -/
theorem Desc.softmax_type {d : Desc} (hk : d.kind = 0x07) (hform : d.bodyBads 0 = []) :
    32 * (if d.f 145 141 = 0 then 128 else 64) = 128 * (elemType (d.f 145 141)).bits := by
  unfold Desc.bodyBads at hform
  rw [hk] at hform
  simp only [Desc.softmaxBads, List.append_eq_nil_iff, Desc.ok, need_eq_nil, Bool.or_eq_true, beq_iff_eq] at hform
  obtain ⟨⟨⟨⟨⟨-, hty⟩, -⟩, -⟩, -⟩, -⟩ := hform
  obtain h | h := hty
  · rw [h]
    rfl
  · rw [h]
    rfl

/-- Where a block's results go (Table 10-7). -/
theorem Ctx.covers_softmax {c : Ctx} (hk : c.d.kind = 0x07) (hform : c.d.bodyBads 0 = []) : c.Covers (32 * c.gran 209 193 287 272 247 246)
    (128 * (elemType (c.d.f 145 141)).bits * (ceilDiv (c.d.f 154 148 + 1) 32 * ceilDiv (c.d.f 167 156 + 1) 32)) := by
  refine Ctx.covers_of_operand (p := (193, ⟨c.d.addr c.w.regs 209 193 287 272 247 246,
    ceilDiv (c.d.f 154 148 + 1) 32 * ceilDiv (c.d.f 167 156 + 1) 32 * (if c.d.f 145 141 = 0 then 128 else 64), true⟩)) ?_ rfl (le_refl _) (Eq.le ?_)
  · unfold Desc.operands
    rw [hk]
    simp
  · dsimp only
    rw [← Desc.softmax_type hk hform, Nat.mul_add 32 (c.base + _)]
    refine congrArg (32 * c.gran 209 193 287 272 247 246 + ·) ?_
    ring

/-- Where the rows' running states go (Table 10-7). -/
theorem Ctx.covers_states {c : Ctx} (hk : c.d.kind = 0x07) (hmode : c.d.f 131 128 = 1) :
    c.Covers (32 * c.gran 226 210 303 288 249 248) (32 * ceilDiv (c.d.f 154 148 + 1) 2) := by
  refine Ctx.covers_of_operand (p := (210, ⟨c.d.addr c.w.regs 226 210 303 288 249 248, ceilDiv (c.d.f 154 148 + 1) 2, c.d.f 131 128 == 1⟩)) ?_ ?_ (le_refl _)
    (by rw [Nat.mul_add 32 (c.base + _)]; rfl)
  · unfold Desc.operands
    rw [hk]
    simp [hmode]
  · exact beq_iff_eq.2 hmode

theorem RowState.length_bytes (r : RowState) : r.bytes.length = 16 := length_toLE ..

/-- Bodies written one behind the other. -/
theorem State.putBodies_effected {c : Ctx} {b at' n : Nat} (f : Nat → List Nat) (hf : ∀ i, (f i).length ≤ 1024) (hb : b % 4 = 0) (s : State)
    (h : c.Covers (32 * at') (128 * b * n)) : Effected c s ((List.range n).foldl (fun s i => s.putBody c.tile (at' + 4 * b * i) b (f i)) s) := by
  refine .foldl _ _ _ fun t i hi => t.putBody_effected (hf i) hb (h.sub (by omega) ?_)
  have hmul : 128 * b * (i + 1) ≤ 128 * b * n := Nat.mul_le_mul_left _ (List.mem_range.1 hi)
  have hexp : 128 * b * (i + 1) = 128 * b * i + 128 * b := Nat.mul_succ ..
  have hat : 32 * (at' + 4 * b * i) = 32 * at' + 128 * b * i := by
    rw [Nat.mul_add, ← Nat.mul_assoc, ← Nat.mul_assoc]
  omega

/-- Words of `k` bytes written one behind the other. -/
theorem State.putWords_effected {c : Ctx} {at' k n : Nat} (f : Nat → List Byte) (hf : ∀ i, (f i).length = k) (s : State) (h : c.Covers at' (k * n)) :
    Effected c s ((List.range n).foldl (fun s i => s.carrelWrite c.tile (at' + k * i) (f i)) s) := by
  refine .foldl _ _ _ fun t i hi => t.carrelWrite_effected (h.sub (by omega) ?_)
  have hmul : k * (i + 1) ≤ k * n := Nat.mul_le_mul_left _ (List.mem_range.1 hi)
  have hexp : k * (i + 1) = k * i + k := Nat.mul_succ ..
  rw [hf]
  omega

theorem Ctx.softmax_effected {c : Ctx} (s : State) (hk : c.d.kind = 0x07) (hform : c.d.bodyBads 0 = []) : Effected c s (c.softmax s) := by
  have hout := Ctx.covers_softmax hk hform
  unfold Ctx.softmax
  extract_lets d mode rows cols ct n ts td at' stAt dAt
  split
  next bodies u hread =>
  have hread : Effected c s u := by
    split at hread
    · rw [← (Prod.mk.inj hread).2]
      exact s.takeQueue_effected c n
    · rw [← (Prod.mk.inj hread).2]
      exact .refl c s
  extract_lets mask xs sts st outs val v v' nan maskedRows v''
  have hv : Effected c u v := State.putBodies_effected _ (fun b => by simp) td.bits_mod u hout
  have hv' : Effected c v v' := by
    refine .ite (fun hmode => ?_) fun _ => .refl c v
    refine State.putWords_effected (k := 16) (fun i => (outs.getD i ([], false, false, RowState.zero)).2.2.2.bytes) (fun i => RowState.length_bytes _) v ?_
    refine (Ctx.covers_states hk hmode).sub (le_refl _) (Nat.add_le_add_left ?_ _)
    change 16 * (c.d.f 154 148 + 1) ≤ _
    unfold ceilDiv
    omega
  have hv'' : Effected c v' v'' := .ite (fun _ => c.report_effected ..) fun _ => .refl c v'
  exact hread.trans (hv.trans (hv'.trans (hv''.trans (.ite (fun _ => c.count_effected ..) fun _ => .refl c v''))))

/-! ### `CONVERT` -/

theorem flatten_chunks {α : Type} {w : Nat} (hw : 0 < w) (fuel : Nat) (l : List α) (h : l.length ≤ fuel) : (chunks w fuel l).flatten = l := by
  induction fuel generalizing l with
  | zero =>
    obtain rfl : l = [] := List.length_eq_zero_iff.1 (Nat.le_zero.1 h)
    rfl
  | succ fuel ih =>
    cases l with
    | nil => rfl
    | cons a l =>
      rw [chunks_cons, List.flatten_cons, ih _ (by simp at h ⊢; omega), List.take_append_drop]

/-- A conversion gives a result an element, and a word for a group of 32 where it packs affine groups (R192). -/
theorem ConvertSpec.length_run (c : ConvertSpec) (words raws : List Nat) : (c.run words raws).1.length = raws.length ∧
    (c.run words raws).2.length ≤ (if c.dst = .u4 then ceilDiv raws.length 32 else 0) := by
  unfold ConvertSpec.run
  dsimp only
  split
  · next hu4 =>
    rw [hu4, if_pos rfl]
    have hvals : ((List.range raws.length).map fun e => c.decode words e (nth raws e)).length = raws.length := by simp
    generalize (List.range raws.length).map (fun e => c.decode words e (nth raws e)) = vals at hvals ⊢
    rw [← hvals]
    refine ⟨?_, by simp [length_chunks]⟩
    rw [List.length_flatten, List.map_map, List.map_map]
    conv_rhs => rw [← flatten_chunks (w := 32) (by decide) vals.length vals (le_refl _), List.length_flatten]
    generalize chunks 32 vals.length vals = gs
    congr 1
    refine List.ext_getElem (by simp) fun i hi hi' => ?_
    simp only [List.getElem_map, List.getElem_range, Function.comp_apply]
    rw [List.getD_eq_getElem _ _ (by simpa using hi')]
    split <;> simp
  · next hu4 =>
    rw [if_neg hu4]
    exact ⟨by simp, le_refl _⟩

/-- An operand that comes from the result queue comes as tiles (R193). -/
theorem Desc.convert_queue {d : Desc} (hk : d.kind = 0x08) (hform : d.bodyBads 0 = []) (hq : d.b 142 = true) : d.cShape.shape = 2 := by
  unfold Desc.bodyBads at hform
  rw [hk] at hform
  simp only [Desc.convertBads, List.append_eq_nil_iff, Desc.rel, need_eq_nil, Bool.and_eq_true, hq, Bool.not_true, Bool.false_or, beq_iff_eq] at hform
  obtain ⟨-, -, hshape, -⟩ := hform
  exact hshape

theorem elemType_u4 {n : Nat} (h : elemType n = .u4) : n = 9 := by
  have hlisted : ∀ n < 13, elemType n = .u4 → n = 9 := by decide
  by_cases hn : n < 13
  · exact hlisted n hn h
  · unfold elemType elemType? at h
    rw [List.getElem?_eq_none (not_lt.1 hn)] at h
    cases h

theorem Ctx.covers_convert {c : Ctx} (hk : c.d.kind = 0x08) :
    c.Covers (32 * c.gran 241 225 257 242 185 184) (32 * c.d.cShape.granules c.d.cWide (elemType (c.d.f 137 133)).bits) := by
  refine Ctx.covers_of_operand (p := (225, ⟨c.d.addr c.w.regs 241 225 257 242 185 184, c.d.cShape.granules c.d.cWide (elemType (c.d.f 137 133)).bits, true⟩)) ?_ rfl
    (le_refl _) (by rw [Nat.mul_add 32 (c.base + _)]; rfl)
  unfold Desc.operands
  rw [hk]
  simp

/-- Where the words of affine groups go (Table 09-4). -/
theorem Ctx.covers_affine {c : Ctx} (hk : c.d.kind = 0x08) (hty : elemType (c.d.f 137 133) = .u4) :
    c.Covers (32 * (c.base + c.d.f 274 258)) (32 * ceilDiv (ceilDiv (c.d.cShape.elems c.d.cWide) 32) 8) := by
  have h9 := elemType_u4 hty
  refine Ctx.covers_of_operand (p := (258, ⟨c.d.f 274 258, ceilDiv (ceilDiv (c.d.cShape.elems c.d.cWide) 32) 8, c.d.f 137 133 == 9⟩)) ?_ ?_ (le_refl _)
    (by rw [Nat.mul_add 32 (c.base + _)])
  · unfold Desc.operands
    rw [hk]
    simp [h9]
  · exact beq_iff_eq.2 h9

theorem Ctx.convert_effected {c : Ctx} (s : State) (hk : c.d.kind = 0x08) (hform : c.d.bodyBads 0 = []) : Effected c s (c.convert s) := by
  have hout := Ctx.covers_convert hk
  unfold Ctx.convert
  extract_lets d ts td sh n tiles tensor affAt groups spec
  split
  next raws u hread =>
  have hraws : Effected c s u ∧ raws.length ≤ n := by
    split at hread
    · next hq =>
      have hq := Desc.convert_queue hk hform hq
      obtain ⟨hraws, hu⟩ := Prod.mk.inj hread
      refine ⟨hu ▸ s.takeQueue_effected c sh.count, ?_⟩
      have hn : n = 1024 * sh.count := by
        change c.d.cShape.elems c.d.cWide = 1024 * c.d.cShape.count
        simp only [Shape.elems, hq]
      rw [hn, ← hraws]
      exact s.length_takeQueue ..
    · obtain ⟨hraws, hu⟩ := Prod.mk.inj hread
      exact ⟨hu ▸ .refl c s, hraws ▸ s.length_operand ..⟩
  obtain ⟨hread, hlen⟩ := hraws
  extract_lets words
  have hrun := spec.length_run words raws
  split
  next rs aff haff =>
  rw [haff] at hrun
  obtain ⟨hrs, hwords⟩ := hrun
  extract_lets v v' vals
  have hv : Effected c u v := u.putOperand_shape (by rw [List.length_map, hrs]; exact hlen) hout
  have hv' : Effected c v v' := by
    by_cases hu4 : td = .u4
    · rw [if_pos (show spec.dst = .u4 from hu4)] at hwords
      refine State.putWords_effected (k := 4) (fun k => toLE 4 (nth aff k)) (fun _ => length_toLE ..) v ?_
      refine (Ctx.covers_affine hk hu4).sub (le_refl _) (Nat.add_le_add_left ?_ _)
      exact (Nat.mul_le_mul_left 4 (hwords.trans (ceilDiv_mono hlen 32))).trans (ceilDiv_words_le _)
    · rw [if_neg (show ¬ spec.dst = .u4 from hu4), Nat.le_zero] at hwords
      change Effected c v ((List.range aff.length).foldl _ v)
      rw [hwords]
      exact .refl c v
  exact hread.trans (hv.trans (hv'.trans (.ite (fun _ => c.report_effected ..) fun _ => .refl c v')))

/-! ### `SPMM` -/

/-- Result tiles go to the result queue or to their range (R170). -/
theorem Ctx.deliver_effected {c : Ctx} (tiles : List (List Nat)) (s : State) (hlen : ∀ t ∈ tiles, t.length ≤ 1024)
    (h : c.d.b 137 = false → c.Covers (32 * c.gran 272 256 255 240 143 142) (32 * (tiles.length * 128))) : Effected c s (c.deliver tiles s) := by
  unfold Ctx.deliver
  refine .ite (fun _ => ?_) fun hcarrel => ?_
  · have hqueue : Effected c s (s.updUnit c.tile fun u => { u with queue := u.queue ++ tiles, queueBy := some c.w.id }) :=
      .updQueue c s (fun u => { u with queue := u.queue ++ tiles, queueBy := some c.w.id }) (fun _ => rfl) fun _ => rfl
    exact .ite (fun _ => hqueue.trans (.of_only (State.stallRamp_only ..) rfl rfl)) fun _ => hqueue
  · refine State.putBodies_effected (b := 32) (fun i => tiles.getD i []) (fun i => ?_) rfl s ((h (by simpa using hcarrel)).sub (le_refl _) (by omega))
    by_cases hi : i < tiles.length
    · rw [List.getD_eq_getElem _ _ hi]
      exact hlen _ (List.getElem_mem hi)
    · rw [List.getD_eq_default _ _ (not_lt.1 hi)]
      exact Nat.zero_le _

/-- Elements of a tile made row by row. -/
theorem length_rows (f : Nat → Nat → Nat) : ((List.range 32).map fun i => (List.range 32).map (f i)).flatten.length = 1024 := by
  simp [List.length_flatten, Function.comp_def]

theorem Ctx.covers_spmm {c : Ctx} (hk : c.d.kind = 0x05) (hcarrel : c.d.b 137 = false) :
    c.Covers (32 * c.gran 272 256 255 240 143 142) (32 * ((c.d.f 158 152 + 1) * 128)) := by
  refine Ctx.covers_of_operand (p := (256, ⟨c.d.addr c.w.regs 272 256 255 240 143 142, (c.d.f 158 152 + 1) * 128, true⟩)) ?_ rfl (le_refl _)
    (by rw [Nat.mul_add 32 (c.base + _)]; rfl)
  unfold Desc.operands
  rw [hk]
  simp [hcarrel]

theorem Ctx.readStored_effected (c : Ctx) (ts : List Stored) (s : State) : Effected c s (c.readStored ts s) := .of_only (Ctx.readStored_only ..) rfl rfl
theorem Ctx.reportFaults_effected (c : Ctx) (t n : Nat) (s : State) : Effected c s (c.reportFaults t n s) := .of_only (Ctx.reportFaults_only ..) rfl rfl
theorem Ctx.rampStart_effected (c : Ctx) (s : State) : Effected c s (c.rampStart s) := .of_only (Ctx.rampStart_only ..) rfl rfl

theorem Ctx.spmm_effected {c : Ctx} (s : State) (hk : c.d.kind = 0x05) : Effected c s (c.spmm s) := by
  unfold Ctx.spmm
  extract_lets d bt g at' ft bAt be as bodies a b tiles u v
  have hu : Effected c s u := c.readStored_effected ..
  have hv : Effected c u v := .ite (fun _ => c.reportFaults_effected ..) fun _ => .refl c u
  refine hu.trans (hv.trans ((c.rampStart_effected v).trans (Ctx.deliver_effected tiles _ (fun t ht => ?_) fun hcarrel => ?_)))
  · obtain ⟨f, -, rfl⟩ := List.mem_map.1 ht
    exact (length_rows _).le
  · have hlen : tiles.length = c.d.f 158 152 + 1 := by simp [tiles, ft, d]
    rw [hlen]
    exact Ctx.covers_spmm hk hcarrel

/-! ### The rows -/

theorem State.exec_vectorRows (s : State) (tile : Nat) (w : WorkId) : ∀ r ∈ vectorRows tile w, exec r.2 s = .next (s.vector tile w r.1) := by
  unfold vectorRows
  simp only [List.forall_mem_cons]
  exact ⟨rfl, rfl, rfl, rfl, rfl, rfl, rfl, rfl, rfl, rfl, rfl, rfl, rfl, rfl, rfl, rfl, rfl, rfl, rfl, rfl, rfl, rfl, rfl, rfl, rfl, rfl, rfl, rfl, rfl,
    fun _ h => absurd h List.not_mem_nil⟩

/-- An instance whose stored operands are whole runs as any other. -/
theorem State.unlessPoisoned_run {s : State} {tile : Nat} {w : WorkId} {ok : Ctx → State → Bool} {keys : Ctx → State → List TileKey} (run : State → State)
    (h : ∀ c, s.ctx? tile w = some c → ok c s = false ∨ s.canIssue c = false ∨ (keys c s).any s.tilePoisoned = false) :
    s.unlessPoisoned tile w ok keys run = run s := by
  unfold State.unlessPoisoned
  split
  · rfl
  · next c hc =>
    refine if_neg ?_
    obtain h | h | h := h c hc
    · simp [h]
    · simp [h]
    · simp [h]

/-- A row of a plain instance issues the next instance of the work item where the descriptor is its. -/
structure PlainRow (s : State) (tile : Nat) (w : WorkId) (c : Ctx) (r : Bool × Instr) (ok : Desc → Bool) (effect : Ctx → State → State) : Prop where
  own : ok c.d = r.1
  runs : (r.1 = true → s.canIssue c = true → c.d.kind = 0x05 → c.adjacencyKeys.any s.tilePoisoned = false) →
    exec r.2 s = .next (s.issuePlain tile w ok effect)
  writes : r.1 = true → c.d.bodyBads 0 = [] → Effected c s (effect c s)

theorem plainRows_issue {s : State} {tile : Nat} {w : WorkId} {c : Ctx} (hctx : s.ctx? tile w = some c) :
    ∀ r ∈ plainRows tile w c.d, ∃ ok effect, PlainRow s tile w c r ok effect := by
  have hsoft (mode : Nat) (i : Instr) (hi : exec i s = .next (s.softmax tile w mode)) : ∃ ok effect, PlainRow s tile w c (c.d.kind == 0x07 && c.d.f 131 128 == mode, i) ok effect :=
    ⟨_, _, rfl, fun _ => hi, fun h hform => c.softmax_effected s (by simp_all) hform⟩
  unfold plainRows
  simp only [List.forall_mem_append, List.forall_mem_map, List.forall_mem_cons]
  refine ⟨fun r hr => ?_, hsoft 0 _ rfl, hsoft 1 _ rfl, hsoft 2 _ rfl, ?_, ?_, fun _ h => absurd h List.not_mem_nil⟩
  · exact ⟨fun d => d.kind == 0x06 && d.f 135 128 == r.1, Ctx.vector, rfl, fun _ => s.exec_vectorRows tile w r hr,
      fun h hform => c.vector_effected s (by simp_all) hform⟩
  · exact ⟨fun d => d.kind == 0x08, Ctx.convert, rfl, fun _ => rfl, fun h hform => c.convert_effected s (beq_iff_eq.1 h) hform⟩
  · refine ⟨fun d => d.kind == 0x05, Ctx.spmm, rfl, fun hclean => ?_, fun h _ => c.spmm_effected s (beq_iff_eq.1 h)⟩
    refine congrArg Host.Outcome.next (State.unlessPoisoned_run _ fun e he => ?_)
    obtain rfl : c = e := Option.some.inj (hctx.symm.trans he)
    by_cases hk : c.d.kind = 0x05
    · by_cases hcan : s.canIssue c = true
      · exact .inr (.inr (hclean (beq_iff_eq.2 hk) hcan hk))
      · exact .inr (.inl (by simpa using hcan))
    · exact .inl (by simpa using hk)

/-- A tile that runs no such work item issues nothing. -/
theorem State.issue_of_none {s : State} {tile : Nat} {w : WorkId} (hnone : s.ctx? tile w = none) (ok : Ctx → State → Bool) (effect : Ctx → State → State)
    (mk : Ctx → State → Inst → Inst) : s.issue tile w ok effect mk = s := by
  unfold State.issue
  rw [hnone]

/-- Settles O42: each engine's effect stays within its declared ranges, and the issue is said once for all of them. -/
theorem engineInstancesIssue : Obligations.EngineInstancesIssue := by
  intro s tile w
  refine ⟨fun c hcan r hr hown hclean => ?_, fun c hctx r hr hnot => ?_, fun hnone d r hr => ?_⟩
  · obtain ⟨hctx, hfree, hform, -⟩ := hcan
    obtain ⟨ok, effect, hok, hruns, hwrites⟩ := plainRows_issue hctx r hr
    refine ⟨_, hruns fun _ _ => hclean, c.inst (s.unit tile).nextOrd, ?_, rfl, rfl⟩
    exact (State.issue_issued hctx (ok := fun c _ => ok c.d) (mk := fun _ _ i => i) (hok.trans hown) hfree (hwrites hown hform) ⟨true, [], [], rfl⟩).1
  · obtain ⟨ok, effect, hok, hruns, -⟩ := plainRows_issue hctx r hr
    refine (hruns fun hown hfree _ => ?_).trans (congrArg Host.Outcome.next (State.issue_of_not hctx ?_))
    · obtain h | h := hnot
      · exact absurd (h.symm.trans hown) Bool.false_ne_true
      · exact absurd (h.symm.trans hfree) Bool.false_ne_true
    · exact hnot.imp_left hok.trans
  · have hissue (ok : Desc → Bool) (effect : Ctx → State → State) : s.issuePlain tile w ok effect = s := State.issue_of_none hnone ..
    unfold plainRows at hr
    simp only [List.mem_append, List.mem_map, List.mem_cons, List.not_mem_nil, or_false] at hr
    obtain ⟨q, hq, rfl⟩ | rfl | rfl | rfl | rfl | rfl := hr
    · exact (s.exec_vectorRows tile w q hq).trans (congrArg Host.Outcome.next (hissue ..))
    · exact congrArg Host.Outcome.next (hissue ..)
    · exact congrArg Host.Outcome.next (hissue ..)
    · exact congrArg Host.Outcome.next (hissue ..)
    · exact congrArg Host.Outcome.next (hissue ..)
    · refine congrArg Host.Outcome.next ((State.unlessPoisoned_run _ fun e he => ?_).trans (hissue ..))
      exact absurd (hnone.symm.trans he) (by simp)

end Sys2Proof.Machine
end

section
/-!
What the engines count: effects that change of the jobs nothing but counts, health and notes of decodes (R155, R203, R428).
-/
namespace Sys2Proof.Machine
open Sys2Proof

/-- A step but for what its instances count and note (R63, R102, R155, R203). -/
def StepRec.uncounted (x : StepRec) : StepRec := { x with parts := [], rangeTiles := [], outOfTable := false, tallies := [] }
/-- A job but for what its instances count and note. -/
def Job.uncounted (j : Job) : Job := { j with steps := j.steps.map StepRec.uncounted, body := { j.body with counters := [] } }

/-- Nothing of the jobs has changed but counts and notes. -/
structure Calm (s t : State) : Prop where
  jobs : t.jobs.map Job.uncounted = s.jobs.map Job.uncounted

theorem Calm.of_eq {s t : State} (h : t.jobs = s.jobs) : Calm s t := ⟨by rw [h]⟩
theorem Calm.of_only {w : List Part} {s t : State} (h : Only w s t) (hw : w.contains .jobs = false) : Calm s t := .of_eq (h.eq .jobs hw)
theorem Calm.refl (s : State) : Calm s s := .of_eq rfl
theorem Calm.trans {s t u : State} (h : Calm s t) (g : Calm t u) : Calm s u := ⟨g.jobs.trans h.jobs⟩

theorem Calm.foldl {α : Type} (f : State → α → State) (l : List α) (s : State) (h : ∀ s a, Calm s (f s a)) : Calm s (l.foldl f s) :=
  List.foldlRecOn (motive := fun t => Calm s t) l f (.refl s) fun t ht a _ => ht.trans (h t a)

theorem Calm.ite {p : Prop} [Decidable p] {s a b : State} (ha : Calm s a) (hb : Calm s b) : Calm s (if p then a else b) := by
  split
  · exact ha
  · exact hb

theorem State.updJob_calm (s : State) (slot : Nat) (f : Job → Job) (hf : ∀ j, (f j).uncounted = j.uncounted) : Calm s (s.updJob slot f) := by
  refine ⟨?_⟩
  simp only [State.updJob, List.map_map]
  refine List.map_congr_left fun j _ => ?_
  simp only [Function.comp_apply]
  split
  · exact hf j
  · rfl

theorem State.updStep_calm (s : State) (slot n : Nat) (f : StepRec → StepRec) (hf : ∀ x, (f x).uncounted = x.uncounted) : Calm s (s.updStep slot n f) :=
  s.updJob_calm slot (fun j => j.withStep n f) fun j => by
    have hsteps : (j.steps.map fun x => if x.num = n then f x else x).map StepRec.uncounted = j.steps.map StepRec.uncounted := by
      rw [List.map_map]
      refine List.map_congr_left fun x _ => ?_
      simp only [Function.comp_apply]
      split
      · exact hf x
      · rfl
    unfold Job.uncounted Job.withStep
    dsimp only
    rw [hsteps]

/-! ### What stays -/

theorem Calm.find {s t : State} (h : Calm s t) (slot : Nat) : (t.job? slot).map Job.uncounted = (s.job? slot).map Job.uncounted := by
  have hfind (u : State) : (u.job? slot).map Job.uncounted = (u.jobs.map Job.uncounted).find? fun j => j.slot == slot := by
    unfold State.job?
    rw [List.find?_map]
    rfl
  rw [hfind, hfind, h.jobs]

theorem Calm.job {s t : State} (h : Calm s t) {slot : Nat} {j : Job} (hj : s.job? slot = some j) : ∃ k, t.job? slot = some k ∧ k.uncounted = j.uncounted := by
  have hmap := h.find slot
  rw [hj] at hmap
  exact Option.map_eq_some_iff.1 hmap

theorem Job.step?_uncounted (j : Job) (n : Nat) : j.uncounted.step? n = (j.step? n).map StepRec.uncounted := by
  unfold Job.step? Job.uncounted
  dsimp only
  rw [List.find?_map]
  rfl

theorem Calm.getStep {s t : State} (h : Calm s t) (slot n : Nat) : (t.step? slot n).map StepRec.uncounted = (s.step? slot n).map StepRec.uncounted := by
  have hstep (u : State) : (u.step? slot n).map StepRec.uncounted = ((u.job? slot).map Job.uncounted).bind fun j => j.step? n := by
    unfold State.step?
    cases u.job? slot with
    | none => rfl
    | some j => exact (j.step?_uncounted n).symm
  rw [hstep, hstep, h.find]

theorem Calm.step {s t : State} (h : Calm s t) {slot n : Nat} {x : StepRec} (hx : s.step? slot n = some x) : ∃ y, t.step? slot n = some y ∧ y.uncounted = x.uncounted := by
  have hmap := h.getStep slot n
  rw [hx] at hmap
  exact Option.map_eq_some_iff.1 hmap

/-- A counter of a job that is not of a step stands as it was (R424). -/
theorem Calm.num {s t : State} (h : Calm s t) (slot index sub : Nat) : (t.job? slot).map (·.num index sub) = (s.job? slot).map (·.num index sub) := by
  have hnum (o : Option Job) : o.map (·.num index sub) = (o.map Job.uncounted).map (·.num index sub) := by
    rw [Option.map_map]
    rfl
  rw [hnum (t.job? slot), hnum (s.job? slot), h.find]

/-! ### What is calm -/

theorem State.count_calm (s : State) (slot step index sub n : Nat) : Calm s (s.count slot step index sub n) := by
  unfold State.count
  split
  · exact .refl s
  · exact s.updJob_calm slot (fun j => { j with body := { j.body with counters := aUpd j.body.counters (step, entryKey index sub) 0 (· + n) } }) fun _ => rfl

theorem State.tally_calm (s : State) (w : WorkId) (seq index sub n : Nat) : Calm s (s.tally w seq index sub n) := by
  unfold State.tally
  split
  · exact .refl s
  · exact s.updStep_calm _ _ _ fun _ => rfl

theorem Ctx.count_calm (c : Ctx) (i sub n : Nat) (s : State) : Calm s (c.count i sub n s) := .ite (s.tally_calm ..) (.refl s)

theorem Ctx.report_calm (c : Ctx) (t : Nat) (n : Counted) (s : State) : Calm s (c.report t n s) := .ite (s.updStep_calm _ _ _ fun _ => rfl) (.refl s)

theorem State.raiseJob_calm (s : State) (code slot step a b c : Nat) : Calm s (s.raiseJob code slot step a b c) := .of_only (s.raiseJob_only ..) rfl

theorem State.poisonLabel_calm (s : State) (slot step : Nat) (k : TileKey) : Calm s (s.poisonLabel slot step k) := by
  unfold State.poisonLabel
  split
  · refine .ite ?_ (.refl s)
    refine Calm.trans (t := s.updTile k fun t => { t with poison := insertOnce 0 t.poison }) (.of_eq rfl) ?_
    exact (State.count_calm ..).trans (.of_only (State.raise_only ..) rfl)
  · exact .refl s

theorem Ctx.noteDecode_calm (c : Ctx) (k : TileKey) (l : Label) (first : Bool) (s : State) : Calm s (c.noteDecode k l first s) := by
  unfold Ctx.noteDecode
  dsimp only
  refine .ite ?_ (.refl s)
  have hseen : Calm s (if ((s.step? c.slot c.x.num).map fun x => x.rangeTiles.contains k).getD true then s
      else (s.updStep c.slot c.x.num fun x => { x with rangeTiles := x.rangeTiles ++ [k] }).count c.slot c.x.num 0x5240 2 1) :=
    .ite (.refl s) ((s.updStep_calm c.slot c.x.num (fun x => { x with rangeTiles := x.rangeTiles ++ [k] }) fun _ => rfl).trans (State.count_calm ..))
  exact .ite (hseen.trans (State.raiseJob_calm ..)) hseen

theorem Ctx.noteDecodes_calm (c : Ctx) (ks : List TileKey) (s : State) : Calm s (c.noteDecodes ks s) := by
  unfold Ctx.noteDecodes
  refine List.foldlRecOn (motive := fun (p : State × Bool) => Calm s p.1) ks _ (.refl s) fun p hp k _ => ?_
  split
  · exact hp.trans (c.noteDecode_calm ..)
  · exact hp.trans (State.poisonLabel_calm ..)

theorem Ctx.readStored_calm (c : Ctx) (ts : List Stored) (s : State) : Calm s (c.readStored ts s) := by
  unfold Ctx.readStored
  extract_lets u v w bads x
  have hu : Calm s u :=
    (Calm.foldl (fun (s : State) (t : Stored) => s.touch t.key c.x.num) ts s fun s t => .of_only (State.touch_only ..) rfl).trans (.of_only (State.noteFar_only ..) rfl)
  have hx : Calm s x := hu.trans ((c.noteDecodes_calm ..).trans ((c.count_calm ..).trans (c.count_calm ..)))
  exact .ite (hx.trans (.foldl _ _ _ fun s t => State.raiseJob_calm ..)) hx

theorem Ctx.reportFaults_calm (c : Ctx) (t n : Nat) (s : State) : Calm s (c.reportFaults t n s) := .ite (.refl s) (c.report_calm ..)

theorem State.stallRamp_calm (s : State) (slot step : Nat) : Calm s (s.stallRamp slot step) :=
  Calm.trans (t := { s with draws := s.draws + 1 }) (.of_eq rfl) (State.count_calm ..)

theorem Ctx.rampStart_calm (c : Ctx) (s : State) : Calm s (c.rampStart s) := .ite (.refl s) (State.count_calm ..)

theorem Ctx.deliver_calm (c : Ctx) (tiles : List (List Nat)) (s : State) : Calm s (c.deliver tiles s) := by
  unfold Ctx.deliver
  refine .ite ?_ ?_
  · have hqueue : Calm s (s.updUnit c.tile fun u => { u with queue := u.queue ++ tiles, queueBy := some c.w.id }) := .of_eq rfl
    exact .ite (hqueue.trans (State.stallRamp_calm ..)) hqueue
  · exact .foldl _ _ _ fun s i => .of_only (State.putBody_only ..) rfl

end Sys2Proof.Machine
end

section
/-!
A `MATMUL` that never waited for a weight, in a job whose counter of such waits stands above its width (R174, R248, R424).
-/
namespace Sys2Proof.Machine
open Sys2Proof

/-! ### What a `MATMUL` counts -/

theorem Ctx.matmul_calm (c : Ctx) (s : State) : Calm s (c.matmul s) := by
  unfold Ctx.matmul
  extract_lets d xt g rows kt xAt xe bodies x col wt at' ws w u t key src v y
  have hu : Calm s u := .ite (c.readStored_calm ..) (.refl s)
  have hv : Calm u v := .ite (.of_eq rfl) (.refl u)
  have hy : Calm v y := .ite (c.reportFaults_calm ..) (.refl v)
  exact hu.trans (hv.trans (hy.trans ((c.rampStart_calm y).trans (c.deliver_calm ..))))

theorem State.issue_jobs {s : State} {tile : Nat} {w : WorkId} {c : Ctx} (hctx : s.ctx? tile w = some c) {ok : Ctx → State → Bool} {effect : Ctx → State → State}
    {mk : Ctx → State → Inst → Inst} (hok : ok c s = true) (hcan : s.canIssue c = true) : (s.issue tile w ok effect mk).jobs = (effect c s).jobs := by
  unfold State.issue
  rw [hctx]
  dsimp only
  rw [hok, hcan]
  rfl

/-- A `MATMUL` whose weights are at hand, and that has not waited for them, changes no counter of its job beside those of its step (R174, R248). -/
theorem State.num_matmul {s t : State} {tile : Nat} {w : WorkId} {c : Ctx} (hcan : s.Can tile w c) (hkind : c.d.kind = 0x04) (hready : c.weightReady s = true)
    (hnear : c.weightLate s = false) (hwhole : c.weightKeys.any s.tilePoisoned = false) (hnew : (w, c.w.pos, c.w.regs) ∉ (s.unit tile).late)
    (ht : exec (.matmul tile w) s = .next t) (slot index sub : Nat) : (t.job? slot).map (·.num index sub) = (s.job? slot).map (·.num index sub) := by
  obtain ⟨hctx, hfree, -, -⟩ := hcan
  let ok (c : Ctx) (s : State) : Bool := c.d.kind == 0x04 && c.weightReady s && !c.weightLate s
  have hrun := State.unlessPoisoned_run (s := s) (tile := tile) (w := w) (ok := ok) (keys := fun c _ => c.weightKeys)
    (fun s => (s.issue tile w ok Ctx.matmul fun _ _ i => i).updUnit tile fun u => { u with late := u.late.filter fun l => !(l.1 == w && l.2.1 == c.w.pos) })
    fun e he => .inr (.inr (Option.some.inj (hctx.symm.trans he) ▸ hwhole))
  have hexec : exec (.matmul tile w) s = .next (s.unlessPoisoned tile w ok (fun c _ => c.weightKeys) fun s =>
      (s.issue tile w ok Ctx.matmul fun _ _ i => i).updUnit tile fun u => { u with late := u.late.filter fun l => !(l.1 == w && l.2.1 == c.w.pos) }) := by
    change execMatmul tile w s = _
    unfold execMatmul
    rw [hctx]
    dsimp only
    rw [if_neg (by simp [hnear]), if_neg (by simp [hnew])]
  obtain rfl := Host.Outcome.next.inj (ht.symm.trans (hexec.trans (congrArg Host.Outcome.next hrun)))
  have hjobs := State.issue_jobs hctx (ok := ok) (effect := Ctx.matmul) (mk := fun _ _ i => i) (by simp [ok, hkind, hready, hnear]) hfree
  rw [State.job?_jobs (s := c.matmul s) ((State.updUnit_jobs ..).trans hjobs)]
  exact (c.matmul_calm s).num slot index sub

/-! ### A counter above its width -/

/-- A `MATMUL` of one row by a weight tile of the carrel (Table 08-3). -/
def oneMatmul : Desc := ⟨4 + 2 ^ 64 + 256 * 2 ^ 256 + 128 * 2 ^ 320⟩

/-- The work item that runs it. -/
def oneMatmulWork : Work := .fresh ⟨0, 0, 0, 0, 2, 0, false, false⟩ 0 0

/-- A step with nothing in it yet. -/
def newStep : StepRec :=
  { num := 0, accept := 2, asker := .command 1 0 2, seeds := [[(0, 0)]], timed := false, bind := [], editions := [], roles := [], pieces := [], formed := [],
    dispatched := [], completed := [], ledgers := [], staged := [], adds := [], parts := [], checks := [], bound := [], updates := [], gathered := [],
    ended := [], ownEnd := false, sentTo := [], counts := [], promised := [], copies := [], scaled := [], seeded := [], rescaled := [], frozen := [],
    rangeTiles := [], outOfTable := false, nonfinite := false, stalled := false, effects := [], handed := [], handoffs := [], watched := false,
    refreshed := false, recorded := false, poisonRuns := [], spaceWait := [], tallies := [] }

/-- The program of that one instance. -/
def oneMatmulProgram : Program := { role := 2, carrel := 512, slips := 0, descs := [oneMatmul] }

/-- A job that runs it, with 2^64 in its 64-bit counter of keeper ticks (0x4200:03). -/
def overfullJob : Job :=
  { sharedJob with programs := [oneMatmulProgram], steps := [newStep], body := { bodyAtFive with dict := [(entryKey 0x4200 3, .num (2 ^ 64))] } }

/-- The module with that work item on tile 0. -/
def overfull : State :=
  { State.reset with
    jobs := [overfullJob]
    bring := { State.reset.bring with pwrGood := true }
    tileUnits := State.reset.tileUnits.set 0 { phys := 0, works := [oneMatmulWork] } }

/-- What its next instance runs with. -/
def overfullCtx : Ctx :=
  { slot := 0, tile := 0, job := overfullJob, x := newStep, prog := oneMatmulProgram, w := oneMatmulWork, d := oneMatmul, base := 0 }

theorem overfull_can : overfull.Can 0 oneMatmulWork.id overfullCtx :=
  ⟨by decide +kernel, by decide +kernel, by decide +kernel, by decide +kernel⟩

theorem overfull_near : overfullCtx.d.kind = 0x04 ∧ overfullCtx.weightReady overfull = true ∧ overfullCtx.weightLate overfull = false ∧ overfullCtx.weightKeys.any overfull.tilePoisoned = false ∧
    (oneMatmulWork.id, overfullCtx.w.pos, overfullCtx.w.regs) ∉ (overfull.unit 0).late := by decide +kernel

/-- A counter above its width is not what its rise by nothing leaves (R424). -/
theorem overfull_num : (overfull.job? 0).map (·.num 0x4200 3) ≠
    (overfull.job? 0).map fun j => (j.num 0x4200 3 + 0) % 2 ^ (8 * ((findEntry 0x4200 3).map (·.width)).getD 8) := by decide +kernel

/-- Refutes O43: in `WaitingInstancesIssue`, a `MATMUL` that has not waited is to leave the job's 64-bit counter 0x4200:03 risen by nothing, which is its value
modulo 2^64; where the counter holds 2^64 the instance issues and leaves it as it is. -/
theorem not_waitingInstancesIssue : ¬ Obligations.WaitingInstancesIssue := by
  rintro ⟨h, -⟩
  obtain ⟨-, -, -, -, hmatmul, -⟩ := h overfull 0 oneMatmulWork.id overfullCtx overfull_can
  obtain ⟨hkind, hready, hnear, hwhole, hnew⟩ := overfull_near
  obtain ⟨t, ht, -, -, hadded⟩ := (hmatmul hkind hready).1 hnear fun h => Bool.false_ne_true (hwhole.symm.trans h)
  have hsame := State.num_matmul overfull_can hkind hready hnear hwhole hnew ht 0 0x4200 3
  exact overfull_num (hsame.symm.trans (hadded.trans (by rw [if_neg hnew]; rfl)))

end Sys2Proof.Machine
end

section
/-!
What a step's writes leave for the next: scale histories and exponents, and the stuck-zero watch (R38, R201, R202, R205, R209 to R211).
-/
namespace Sys2Proof.Machine
open Sys2Proof

/-! ### Watches and log records of a job -/

/-- A job with the watch of a tensor replaced. -/
def Job.withWatch (j : Job) (w : Watch) : Job := { j with body := { j.body with watches := j.body.watches.filter (fun v => v.tensor != w.tensor) ++ [w] } }

theorem Job.watch?_withWatch (j : Job) (w : Watch) : (j.withWatch w).watch? w.tensor = some w := by
  have hnone : (j.body.watches.filter fun v => v.tensor != w.tensor).find? (fun v => v.tensor == w.tensor) = none :=
    List.find?_eq_none.2 fun v hv => by simpa using (List.mem_filter.1 hv).2
  unfold Job.watch? Job.withWatch
  dsimp only
  rw [List.find?_append, hnone]
  simp

theorem Job.watchOf_of_watch? {j : Job} {t : Nat} {w : Watch} (h : j.watch? t = some w) : j.watchOf t = w := by rw [Job.watchOf, h, Option.getD_some]

theorem Job.tensor_watchOf (j : Job) (t : Nat) : (j.watchOf t).tensor = t := by
  unfold Job.watchOf
  cases h : j.watch? t with
  | none => rfl
  | some w => simpa using List.find?_some (show j.body.watches.find? _ = some w from h)

/-- A watch that keeps the tensor's exponents leaves the exponent of every step (R202). -/
theorem Job.exp_withWatch (j : Job) {t step : Nat} {w : Watch} (ht : w.tensor = t) (hexps : w.exps = (j.watchOf t).exps) :
    (j.withWatch w).exp t step = j.exp t step := by
  subst ht
  have hfixed (k : Job) : ((k.body.watches.find? fun v => v.tensor == w.tensor).map (·.exps)).getD [] = (k.watchOf w.tensor).exps := by
    unfold Job.watchOf Job.watch?
    cases k.body.watches.find? fun v => v.tensor == w.tensor with
    | none => rfl
    | some v => rfl
  unfold Job.exp
  rw [hfixed, hfixed, Job.watchOf_of_watch? (j.watch?_withWatch w), hexps]
  rfl

theorem State.job?_setWatch {s : State} {slot : Nat} {j : Job} (hj : s.job? slot = some j) (w : Watch) : (s.setWatch slot w).job? slot = some (j.withWatch w) :=
  State.job?_updJob_of hj (fun j => j.withWatch w) fun _ => rfl

/-- A record taken into a job's log changes the log alone (R38, R359). -/
theorem State.job?_logRecord {s : State} {slot : Nat} {j : Job} (hj : s.job? slot = some j) {kind : Nat} (hkind : kind ≠ 1) (mb step accept : Nat) (body : List Byte) :
    ∃ k l e, (s.logRecord slot kind 0 mb step accept body).job? slot = some k ∧ k = { j with log := l, logEnd := e } ∧ Logged j k kind mb step accept body := by
  let record (j : Job) : Job :=
    if kind != 1 && j.decisions.any fun r => r.kind == kind && r.mb == mb && r.step == step && r.accept == accept && r.body == body then j else
    { j with log := j.log ++ [{ kind := kind, opcode := 0, mb := mb, step := step, accept := accept, body := body, offset := j.logEnd, mirrored := false,
                                committed := false, gen := s.sec.numericsGen }]
             logEnd := j.logEnd + 64 + body.length }
  have hslot (j : Job) : (record j).slot = j.slot := by
    unfold record
    split <;> rfl
  have hrecord : (s.logRecord slot kind 0 mb step accept body).job? slot = some (record j) := State.job?_updJob_of hj record hslot
  have hk : (kind != 1) = true := bne_iff_ne.2 hkind
  by_cases hdec : (j.decisions.any fun r => r.kind == kind && r.mb == mb && r.step == step && r.accept == accept && r.body == body) = true
  · have hsame : record j = j := if_pos (by rw [hk, hdec]; rfl)
    refine ⟨j, j.log, j.logEnd, hrecord.trans (congrArg some hsame), rfl, ?_⟩
    unfold Logged
    rw [if_pos hdec]
  · refine ⟨record j, _, _, hrecord, if_neg (by rw [hk, Bool.true_and]; exact hdec), ?_⟩
    unfold Logged
    rw [if_neg hdec, show record j = _ from if_neg (by rw [hk, Bool.true_and]; exact hdec)]
    exact ⟨_, rfl, rfl, rfl, rfl, rfl, rfl⟩

/-- What is logged for a job of the same log and decisions is logged for the job (R38). -/
theorem Logged.of_eq {i j k : Job} {kind mb step accept : Nat} {body : List Byte} (h : Logged i k kind mb step accept body) (hlog : i.log = j.log)
    (hdec : i.decisions = j.decisions) : Logged j k kind mb step accept body := by
  unfold Logged at h ⊢
  rwa [← hlog, ← hdec]

/-! ### Scale exponents (R201, R202, R211) -/

/-- A step whose writes of a tensor are all in (R202). -/
def StepRec.scaledBy (x : StepRec) (tensor : Nat) (seeds : Bool) : StepRec :=
  { x with scaled := x.scaled ++ [tensor], seeded := if seeds then x.seeded ++ [tensor] else x.seeded }

/-- The history's length that holds after a step (R201). -/
def Job.historyLen (j : Job) (step : Nat) : Nat := match j.step? (step + 1) with | some y => y.num' 0x5110 1 | none => j.num 0x5110 1

/-- The exponent for the next step: as it is logged, where the log is replayed (R38). -/
def Job.exponentFixed (j : Job) (step tensor : Nat) (e1 : Int) : Int :=
  match (j.logged 7 step).find? fun z => leAt z.body 0 4 == tensor with
  | some z => signed 32 (leAt z.body 4 4)
  | none => e1

section
variable {s : State} {slot step tensor r : Nat} {j : Job} {x : StepRec} (hj : s.job? slot = some j) (hx : j.step? step = some x) (hr : j.tensor? tensor = some r)
  (hwritten : s.allWritten j x = true) (hnew : tensor ∉ x.scaled) (hearlier : ∀ y ∈ j.steps, y.num < step → tensor ∈ y.scaled)
include hj hx hr hwritten hnew hearlier

theorem State.exec_scaleUpdate :
    let w := j.watchOf tensor
    let a := x.amax tensor
    let h := j.historyLen step
    let e := j.exp tensor step
    let seeds := w.history.isEmpty && x.parts.any fun p => p.tensor == tensor
    let hist := if seeds then List.replicate h a else if w.history.isEmpty then [] else w.history ++ [a]
    let cut := hist.drop (hist.length - h)
    let e1 := j.exponentFixed step tensor (if cut = [] then e else exponentOf cut h (ElemType.top (tRecType r)) e)
    let u := s.updStep slot step fun x => x.scaledBy tensor seeds
    let v := u.setWatch slot { w with history := cut, exps := keepExps (((j.steps.head?).map (·.num)).getD step) w.exps (step + 1, e1) }
    exec (.scaleUpdate slot step tensor) s = .next (
      if cut = [] then u
      else if seeds then (v.logRecord slot 7 0 0 step x.accept (toLE 4 tensor ++ toLE 4 (unsigned 32 e1) ++ toLE 4 1)).raiseJob 0x5102 slot step tensor (unsigned 32 e1) 0
      else if e1 ≠ e then v.logRecord slot 7 0 0 step x.accept (toLE 4 tensor ++ toLE 4 (unsigned 32 e1) ++ toLE 4 0)
      else v) := by
  intro w a h e seeds hist cut e1 u v
  have hall : ((j.steps.filter fun y => decide (y.num < step)).all fun y => y.scaled.contains tensor) = true := by
    simp only [List.all_eq_true, List.mem_filter, decide_eq_true_eq, List.contains_eq_mem, and_imp]
    exact hearlier
  change execScaleUpdate slot step tensor s = _
  unfold execScaleUpdate
  rw [hj, State.step?_of_job hj, hx]
  dsimp only
  rw [hr]
  dsimp only
  rw [if_pos (by rw [hwritten, hall]; simpa using hnew)]
  rfl

end

/-- A watch with its history and the next step's exponent (R201, R202). -/
def Watch.fixing (w : Watch) (hist : List Val) (first step : Nat) (e1 : Int) : Watch := { w with history := hist, exps := keepExps first w.exps (step + 1, e1) }

/-- The job once a tensor's history and exponent stand for the next step. -/
def Job.rescaled (j : Job) (step tensor : Nat) (seeds : Bool) (w : Watch) : Job := (j.withStep step fun x => x.scaledBy tensor seeds).withWatch w

section
variable {j : Job} {x : StepRec} {step tensor : Nat} (hx : j.step? step = some x)
include hx

theorem Job.step?_rescaled (seeds : Bool) (w : Watch) : (j.rescaled step tensor seeds w).step? step = some (x.scaledBy tensor seeds) :=
  Job.step?_withStep_self hx (fun x => x.scaledBy tensor seeds) fun _ => rfl

/-- What stands for the next step, whatever else is logged (R201, R202). -/
theorem Job.rescaled_ends (seeds : Bool) {w : Watch} (ht : w.tensor = tensor) {k : Job} {l : List LogRec} {e : Nat}
    (hk : k = { j.rescaled step tensor seeds w with log := l, logEnd := e }) :
    ∃ y v, k.step? step = some y ∧ tensor ∈ y.scaled ∧ k.watch? tensor = some v ∧ v = w := by
  subst hk ht
  exact ⟨_, _, Job.step?_rescaled hx seeds w, List.mem_append_right _ (List.mem_singleton.2 rfl), (j.withStep step _).watch?_withWatch w, rfl⟩

end

theorem keepExps_mem (first : Nat) (l : List (Nat × Int)) (p : Nat × Int) : p ∈ keepExps first l p := List.mem_append_right _ (List.mem_singleton.2 rfl)

theorem Job.exponentFixed_eq (j : Job) (step tensor : Nat) (e1 : Int) : j.exponentFixed step tensor e1 =
    (((j.logged 7 step).find? fun z => leAt z.body 0 4 == tensor).map fun z => signed 32 (leAt z.body 4 4)).getD e1 := by
  unfold Job.exponentFixed
  cases (j.logged 7 step).find? fun z => leAt z.body 0 4 == tensor with
  | none => rfl
  | some z => rfl

theorem drop_ne_nil {α : Type} {l : List α} {h : Nat} (hl : l ≠ []) (hh : 0 < h) : l.drop (l.length - h) ≠ [] := by
  have hpos := List.length_pos_iff.2 hl
  rw [Ne, List.drop_eq_nil_iff]
  omega

theorem scalesFollowTheAmax : Claims.ScalesFollowTheAmax := by
  intro s slot step tensor r j x hj hx hr hwritten hnew hearlier a h e old wrote fixed ends
  have hexec := State.exec_scaleUpdate hj hx hr hwritten hnew hearlier
  have hfixed (e1 : Int) : j.exponentFixed step tensor e1 = fixed e1 := j.exponentFixed_eq step tensor e1
  have hlen : j.historyLen step = h := rfl
  let first := ((j.steps.head?).map (·.num)).getD step
  let stand (seeds : Bool) (w : Watch) : State := (s.updStep slot step fun x => x.scaledBy tensor seeds).setWatch slot w
  have hstand (seeds : Bool) (w : Watch) : (stand seeds w).job? slot = some (j.rescaled step tensor seeds w) := State.job?_setWatch (State.job?_updStep hj ..) w
  have hends {t : State} {seeds : Bool} {hist : List Val} {e1 : Int} {k : Job} {l : List LogRec} {n : Nat} (hk : t.job? slot = some k)
      (hkeq : k = { j.rescaled step tensor seeds ((j.watchOf tensor).fixing hist first step e1) with log := l, logEnd := n }) : ends t hist e1 := by
    obtain ⟨y, v, hy, hmem, hv, rfl⟩ := Job.rescaled_ends hx seeds (w := (j.watchOf tensor).fixing hist first step e1) (j.tensor_watchOf tensor) hkeq
    exact ⟨k, y, _, hk, hy, hmem, hv, rfl, keepExps_mem .., rfl⟩
  refine ⟨fun hold hh => ?_, fun hold hwrote hh => ?_, fun hold hwrote => ?_⟩
  · have hempty : (j.watchOf tensor).history.isEmpty = false := by simpa [List.isEmpty_iff] using hold
    simp only [hempty, Bool.false_and, Bool.false_eq_true, if_false, hlen] at hexec
    have hcut : (old ++ [a]).drop ((old ++ [a]).length - h) ≠ [] := drop_ne_nil (by simp) hh
    rw [if_neg hcut, if_neg hcut, hfixed] at hexec
    intro hist e1
    by_cases he : e1 = e
    · rw [if_neg (not_not.2 he)] at hexec
      refine ⟨_, hexec, hends (hstand ..) rfl, rfl, _, hstand .., fun h => absurd he h, fun _ => rfl⟩
    · rw [if_pos he] at hexec
      obtain ⟨k, l, n, hk, hkeq, hlogged⟩ := State.job?_logRecord (hstand false _) (show 7 ≠ 1 by decide) 0 step x.accept (toLE 4 tensor ++ toLE 4 (unsigned 32 e1) ++ toLE 4 0)
      exact ⟨_, hexec, hends hk hkeq, rfl, k, hk, fun _ => hlogged.of_eq rfl rfl, fun h => absurd h he⟩
  · have hempty : (j.watchOf tensor).history.isEmpty = true := by simpa [List.isEmpty_iff] using hold
    have hparts : (x.parts.any fun p => p.tensor == tensor) = true := by simpa [List.any_eq_true] using hwrote
    simp only [hempty, hparts, Bool.and_true, if_true, hlen, List.length_replicate, Nat.sub_self, List.drop_zero] at hexec
    have hcut : List.replicate h a ≠ [] := fun hnil => hh.ne' ((List.replicate_eq_nil_iff a).1 hnil)
    rw [if_neg hcut, if_neg hcut, hfixed] at hexec
    intro e1
    obtain ⟨k, l, n, hk, hkeq, -⟩ := State.job?_logRecord (hstand true ((j.watchOf tensor).fixing (List.replicate h a) first step e1))
      (show 7 ≠ 1 by decide) 0 step x.accept (toLE 4 tensor ++ toLE 4 (unsigned 32 e1) ++ toLE 4 1)
    have hraised := State.raiseJob_raised ((stand true ((j.watchOf tensor).fixing (List.replicate h a) first step e1)).logRecord slot 7 0 0 step x.accept
        (toLE 4 tensor ++ toLE 4 (unsigned 32 e1) ++ toLE 4 1)) 0x5102 slot step tensor (unsigned 32 e1) 0
    exact ⟨_, hexec, hends ((State.job?_jobs ((State.raiseJob_only ..).eq .jobs rfl) slot).trans hk) hkeq, hraised.of_log rfl⟩
  · have hempty : (j.watchOf tensor).history.isEmpty = true := by simpa [List.isEmpty_iff] using hold
    have hparts : (x.parts.any fun p => p.tensor == tensor) = false := by
      simpa [List.any_eq_false] using fun p hp ht => hwrote ⟨p, hp, ht⟩
    simp only [hempty, hparts, Bool.and_false, Bool.false_eq_true, if_false, if_true, List.drop_nil] at hexec
    exact ⟨_, hexec, rfl, _, _, State.job?_updStep hj .., Job.step?_withStep_self hx (fun x => x.scaledBy tensor false) fun _ => rfl,
      List.mem_append_right _ (List.mem_singleton.2 rfl), rfl⟩

end Sys2Proof.Machine
end

section
/-!
The stuck-zero watch (R38, R205, R209, R210).
-/
namespace Sys2Proof.Machine
open Sys2Proof

/-- A step that shows a tensor's run of zeros (R205). -/
def StepRec.withRun (x : StepRec) (t run : Nat) : StepRec := { x with runs := aSet x.runs t run }
/-- A step whose watch is done (R209). -/
def StepRec.watchedNow (x : StepRec) : StepRec := { x with watched := true }
/-- A step after which a tensor is rescaled (R210). -/
def StepRec.rescaling (x : StepRec) (t : Nat) : StepRec := { x with rescaled := x.rescaled ++ [t] }
/-- A step after which a tensor's group is frozen (R210). -/
def StepRec.freezing (x : StepRec) (t : Nat) : StepRec := { x with frozen := x.frozen ++ [t] }

/-- A watch with its run of zeros; a limit reached stands until the run returns to 0 (R209, R210). -/
def Watch.ran (w : Watch) (run : Nat) : Watch := { w with zeroRun := run, limited := w.limited && run != 0 }

/-- A watch whose tensor is rescaled (R210). -/
def Watch.lowered (w : Watch) (step : Nat) (top : Val → Val) (e : Int) : Watch :=
  { w with history := w.history.map top, limited := decide (e - 4 < -127)
           exps := w.exps.filter (fun p => p.1 != step + 1) ++ [(step + 1, if decide (e - 4 < -127) then -127 else e - 4)] }

/-- The run of zeros of a tensor after a step (R209). -/
def StepRec.runAfter (x : StepRec) (t old : Nat) : Nat :=
  if sum ((x.parts.filter fun p => p.tensor == t).map (·.elements)) = 0 then old
  else if sum ((x.parts.filter fun p => p.tensor == t).map (·.zeros)) = sum ((x.parts.filter fun p => p.tensor == t).map (·.elements)) then min 65535 (old + 1) else 0

/-- Whether the watch acts on a tensor after a step: as the log says, where it is replayed (R38, R210). -/
def Job.watchActs (j : Job) (x : StepRec) (step t run : Nat) : Bool :=
  if j.replays step then (j.logged 8 step).any fun q => leAt q.body 0 4 == t else tRecStuck ((j.tensor? t).getD 0) && decide (x.num' 0x5210 1 ≤ run)

/-! ### What stands after the watch of a tensor -/

/-- A job shows a tensor's watch and run after a step. -/
structure Job.Shows (k : Job) (step t run : Nat) (w : Watch) (y : StepRec) : Prop where
  watch : k.watch? t = some w
  step : k.step? step = some y
  run : aGet y.runs t = some run

theorem Job.Shows.withStep {k : Job} {step t run : Nat} {w : Watch} {y : StepRec} (h : k.Shows step t run w y) (f : StepRec → StepRec) (hnum : ∀ x, (f x).num = x.num)
    (hruns : ∀ x, (f x).runs = x.runs) : (k.withStep step f).Shows step t run w (f y) :=
  ⟨h.watch, Job.step?_withStep_self h.step f hnum, by rw [hruns, h.run]⟩

theorem Job.Shows.logged {k i : Job} {step t run : Nat} {w : Watch} {y : StepRec} (h : k.Shows step t run w y) {l : List LogRec} {e : Nat}
    (hi : i = { k with log := l, logEnd := e }) : i.Shows step t run w y := by
  subst hi
  exact ⟨h.watch, h.step, h.run⟩

theorem Job.Shows.withWatch {k : Job} {step t run : Nat} {w v : Watch} {y : StepRec} (h : k.Shows step t run w y) (hv : v.tensor = t) :
    (k.withWatch v).Shows step t run v y := by
  subst hv
  exact ⟨k.watch?_withWatch v, h.step, h.run⟩

/-- A freeze leaves watches and runs as they are (R210, R223). -/
theorem State.freeze_shows {s : State} {slot step t g run : Nat} {k : Job} {w : Watch} {y : StepRec} (hk : s.job? slot = some k) (h : k.Shows step t run w y) :
    ∃ i z, (s.freeze slot step t g).job? slot = some i ∧ i.Shows step t run w z := by
  obtain ⟨i, l, e, hi, hieq, -⟩ := State.job?_logRecord hk (show 8 ≠ 1 by decide) 0 step y.accept (toLE 4 t ++ toLE 4 2 ++ toLE 4 g)
  have hshown := (h.logged hieq).withStep (fun x => x.freezing t) (fun _ => rfl) fun _ => rfl
  have hfrozen := State.job?_updStep hi step fun x => x.freezing t
  unfold State.freeze
  rw [hk, State.step?_of_job hk, h.step]
  dsimp only
  split
  · exact ⟨_, _, State.job?_updJob_of hfrozen (fun j => { j with body := { j.body with freezes := insertOnce g j.body.freezes } }) fun _ => rfl,
      hshown.watch, hshown.step, hshown.run⟩
  · next n hn =>
    let bindStep (x : StepRec) : StepRec :=
      if n.num ≤ x.num ∧ (k.body.rowWrites.any fun w => w.1 == entryKey (groupKey g).1 (groupKey g).2 && decide (n.accept < w.2) && decide (w.2 < x.accept)) = false then
        { x with bind := aSet x.bind (entryKey (groupKey g).1 (groupKey g).2)
                   (.blk (toLE 64 (if bit (x.entry (groupKey g).1 (groupKey g).2).toNat 8 then (x.entry (groupKey g).1 (groupKey g).2).toNat else (x.entry (groupKey g).1 (groupKey g).2).toNat + 256))) }
      else x
    have hnum (x : StepRec) : (bindStep x).num = x.num := by
      unfold bindStep
      split <;> rfl
    have hruns (x : StepRec) : (bindStep x).runs = x.runs := by
      unfold bindStep
      split <;> rfl
    let bound (j : Job) : Job := { j with steps := j.steps.map bindStep }
    have hbound := State.job?_updJob_of hfrozen bound fun _ => rfl
    have hstep : (bound (i.withStep step fun x => x.freezing t)).step? step = some (bindStep (y.freezing t)) := by
      have hfind := hshown.step
      unfold Job.step? at hfind ⊢
      rw [List.find?_map]
      have hcomp : ((fun x : StepRec => x.num == step) ∘ bindStep) = fun x => x.num == step := by
        funext x
        simp [hnum]
      rw [hcomp, hfind]
      rfl
    have hall : (bound (i.withStep step fun x => x.freezing t)).Shows step t run w (bindStep (y.freezing t)) := ⟨hshown.watch, hstep, by rw [hruns]; exact hshown.run⟩
    split
    · exact ⟨_, _, hbound, hall⟩
    · let set (j : Job) : Job := j.setEntry (groupKey g).1 (groupKey g).2
        (.blk (toLE 64 (if bit (j.entry (groupKey g).1 (groupKey g).2).toNat 8 then (j.entry (groupKey g).1 (groupKey g).2).toNat else (j.entry (groupKey g).1 (groupKey g).2).toNat + 256)))
      exact ⟨_, _, State.job?_updJob_of hbound set fun _ => rfl, hall.watch, hall.step, hall.run⟩

/-- A rescale lowers the next exponent by 4, to no less than −127, which is reported as its limit (R210). -/
theorem State.rescale_shows {s : State} {slot step t run : Nat} {k : Job} {w : Watch} {y : StepRec} (hk : s.job? slot = some k) (h : k.Shows step t run w y) :
    (∃ i top, (s.rescale slot step t).job? slot = some i ∧ i.Shows step t run (w.lowered step top (k.exp t step)) (y.rescaling t)) ∧
      (-127 ≤ k.exp t step - 4 → (s.rescale slot step t).log = s.log) := by
  have hw := Job.watchOf_of_watch? h.watch
  have htensor : w.tensor = t := hw ▸ k.tensor_watchOf t
  let e := k.exp t step
  let e1 : Int := if decide (e - 4 < -127) then -127 else e - 4
  let top : Val → Val := fun _ => Val.fin false (ElemType.top (((k.tensor? t).map tRecType).getD .fp32)) 1 e1
  have hshown := (h.withWatch (v := w.lowered step top e) htensor).withStep (fun x => x.rescaling t) (fun _ => rfl) fun _ => rfl
  have hset := State.job?_updStep (State.job?_setWatch hk (w.lowered step top e)) step fun x => x.rescaling t
  obtain ⟨i, l, n, hi, hieq, -⟩ := State.job?_logRecord hset (show 8 ≠ 1 by decide) 0 step y.accept (toLE 4 t ++ toLE 4 1 ++ toLE 4 (unsigned 32 e1))
  let u := ((s.setWatch slot (w.lowered step top e)).updStep slot step fun x => x.rescaling t).logRecord slot 8 0 0 step y.accept
    (toLE 4 t ++ toLE 4 1 ++ toLE 4 (unsigned 32 e1))
  have heq : s.rescale slot step t = if decide (e - 4 < -127) then u.raiseJob 0x5201 slot step t 1 1 else u := by
    unfold State.rescale
    rw [hk, State.step?_of_job hk, h.step]
    dsimp only
    rw [hw]
    rfl
  refine ⟨⟨i, top, ?_, hshown.logged hieq⟩, fun hlow => ?_⟩
  · rw [heq]
    split
    · exact (State.job?_jobs ((State.raiseJob_only ..).eq .jobs rfl) slot).trans hi
    · exact hi
  · rw [heq, if_neg (by simpa using hlow)]
    rfl

/-! ### The watch of a tensor -/

section
variable {s : State} {slot step t : Nat} {j : Job} {x : StepRec} (hj : s.job? slot = some j) (hx : j.step? step = some x)
include hj hx

/-- The state in which a tensor's run of zeros stands, before any action. -/
def State.counting (s : State) (slot step t run : Nat) (w : Watch) : State := (s.setWatch slot (w.ran run)).updStep slot step fun x => x.withRun t run

theorem State.counting_shows (run : Nat) : ∃ k, (s.counting slot step t run (j.watchOf t)).job? slot = some k ∧
    k.Shows step t run ((j.watchOf t).ran run) (x.withRun t run) ∧ k.exp t step = j.exp t step ∧ k.log = j.log ∧ k.decisions = j.decisions := by
  have hw : ((j.watchOf t).ran run).tensor = t := j.tensor_watchOf t
  have hk := State.job?_updStep (State.job?_setWatch hj ((j.watchOf t).ran run)) step fun x => x.withRun t run
  refine ⟨_, hk, ⟨?_, ?_, ?_⟩, ?_, rfl, rfl⟩
  · have hwatch := j.watch?_withWatch ((j.watchOf t).ran run)
    rwa [hw] at hwatch
  · exact Job.step?_withStep_self (j := j.withWatch ((j.watchOf t).ran run)) hx (fun x => x.withRun t run) fun _ => rfl
  · exact aGet_aSet_self ..
  · have hsame : (j.withWatch ((j.watchOf t).ran run)).exp t step = j.exp t step := j.exp_withWatch hw rfl
    rw [← hsame]
    have hstep := Job.step?_withStep_self (j := j.withWatch ((j.watchOf t).ran run)) hx (fun x => x.withRun t run) fun _ => rfl
    unfold Job.exp
    rw [hstep, show (j.withWatch ((j.watchOf t).ran run)).step? step = some x from hx]
    rfl

theorem State.watchOne_eq :
    let w := j.watchOf t
    let run := x.runAfter t w.zeroRun
    let reached := run == x.num' 0x5210 1 && run != w.zeroRun
    let u := s.counting slot step t run w
    let v := if reached then u.raiseJob 0x5201 slot step t (x.num' 0x5210 2) 0 else u
    s.watchOne slot step t =
      if j.watchActs x step t run then
        if x.num' 0x5210 2 = 1 then (if (w.ran run).limited then v else v.rescale slot step t)
        else if reached then
          match (if x.num' 0x5210 2 = 2 then tRecGroup ((j.tensor? t).getD 0) else none) with
          | some g => v.freeze slot step t g
          | none => v.logRecord slot 8 0 0 step x.accept (toLE 4 t ++ toLE 4 0 ++ toLE 4 0)
        else v
      else u := by
  intro w run reached u v
  unfold State.watchOne
  rw [hj, State.step?_of_job hj, hx]
  dsimp only
  rfl

end

theorem Job.watchActs_iff {j : Job} {x : StepRec} {step t r run : Nat} (hr : j.tensor? t = some r) : j.watchActs x step t run = true ↔
    if j.replays step = true then ∃ q ∈ j.logged 8 step, leAt q.body 0 4 = t else tRecStuck r = true ∧ x.num' 0x5210 1 ≤ run := by
  unfold Job.watchActs
  rw [hr]
  split
  · simp [List.any_eq_true]
  · simp

theorem State.exec_stuckZeroWatch {s : State} {slot step r : Nat} {j : Job} {x : StepRec} (hj : s.job? slot = some j) (hx : j.step? step = some x)
    (hone : j.tensors = [r]) (hnew : x.watched = false) (hwritten : s.allWritten j x = true) (hscaled : tRecTensor r ∈ x.scaled)
    (hearlier : ∀ y ∈ j.steps, y.num < step → y.watched = true) :
    exec (.stuckZeroWatch slot step) s = .next ((s.watchOne slot step (tRecTensor r)).updStep slot step StepRec.watchedNow) := by
  have hall : ((j.steps.filter fun y => decide (y.num < step)).all (·.watched)) = true := by
    simp only [List.all_eq_true, List.mem_filter, decide_eq_true_eq, and_imp]
    exact hearlier
  change execStuckZeroWatch slot step s = _
  unfold execStuckZeroWatch
  rw [hj, State.step?_of_job hj, hx]
  dsimp only
  rw [if_pos (by rw [hwritten, hall, hnew, hone]; simpa using hscaled), hone]
  rfl

/-- What follows the watch of the job's one tensor. -/
theorem Job.Shows.done {v : State} {slot step t run : Nat} {k : Job} {w : Watch} {y : StepRec} (hk : v.job? slot = some k) (h : k.Shows step t run w y) :
    (v.updStep slot step StepRec.watchedNow).job? slot = some (k.withStep step StepRec.watchedNow) ∧
      (k.withStep step StepRec.watchedNow).Shows step t run w y.watchedNow :=
  ⟨State.job?_updStep hk .., h.withStep StepRec.watchedNow (fun _ => rfl) fun _ => rfl⟩

theorem zerosAreWatched : Claims.ZerosAreWatched := by
  intro s slot step r j x hj hx hone hnew hwritten hscaled hearlier t' v ps n run limit acts reached
  have hr : j.tensor? t' = some r := by simp [Job.tensor?, hone, t']
  have hacts : j.watchActs x step t' (x.runAfter t' (j.watchOf t').zeroRun) = true ↔ acts := Job.watchActs_iff hr
  have hreached : (x.runAfter t' (j.watchOf t').zeroRun == x.num' 0x5210 1 && x.runAfter t' (j.watchOf t').zeroRun != (j.watchOf t').zeroRun) = true ↔ reached := by
    simp only [Bool.and_eq_true, beq_iff_eq, bne_iff_ne]
    exact Iff.rfl
  have hexec := State.exec_stuckZeroWatch hj hx hone hnew hwritten hscaled hearlier
  obtain ⟨k, hk, hshows, hexp, hlog, hdec⟩ := State.counting_shows (t := t') hj hx run
  let u := s.counting slot step t' run v
  have hwatch := State.watchOne_eq (t := t') hj hx
  dsimp only at hwatch
  rw [hwatch] at hexec
  by_cases hact : acts
  case neg =>
    rw [if_neg fun h => hact (hacts.1 h)] at hexec
    obtain ⟨hdone, hshown⟩ := hshows.done hk
    exact ⟨_, hexec, ⟨_, _, _, hdone, hshown.step, rfl, hshown.watch, rfl, hshown.run, fun h => absurd h hact, fun _ => ⟨rfl, rfl, rfl, rfl⟩, fun h => absurd h hact⟩,
      fun h => absurd h hact, fun _ => rfl⟩
  rw [if_pos (hacts.2 hact)] at hexec
  let e := if x.runAfter t' v.zeroRun == x.num' 0x5210 1 && x.runAfter t' v.zeroRun != v.zeroRun then u.raiseJob 0x5201 slot step t' (x.num' 0x5210 2) 0 else u
  have hkept : e.job? slot = some k := by
    unfold e
    split
    · exact (State.job?_jobs ((State.raiseJob_only ..).eq .jobs rfl) slot).trans hk
    · exact hk
  have hraised (h : reached) : Raised s e 0x5201 .job slot step t' (x.num' 0x5210 2) 0 := by
    rw [show e = _ from if_pos (hreached.2 h)]
    exact (State.raiseJob_raised u 0x5201 slot step t' (x.num' 0x5210 2) 0).of_log rfl
  have hquiet (h : ¬ reached) : e.log = s.log := by
    rw [show e = u from if_neg fun h' => h (hreached.1 h')]
    rfl
  by_cases hone' : x.num' 0x5210 2 = 1
  · have hzero : x.num' 0x5210 2 ≠ 0 := by omega
    rw [if_pos hone'] at hexec
    by_cases hlimited : ((j.watchOf t').ran (x.runAfter t' (j.watchOf t').zeroRun)).limited = true
    · rw [if_pos hlimited] at hexec
      obtain ⟨hdone, hshown⟩ := hshows.done hkept
      refine ⟨_, hexec, ⟨_, _, _, hdone, hshown.step, rfl, hshown.watch, rfl, hshown.run, fun _ _ h => ?_, fun h => absurd h ?_, fun _ _ h => absurd h hzero⟩,
        fun _ h _ => (hraised h).then_log rfl, fun h => absurd h ?_⟩
      · exact absurd (h.symm.trans hlimited) Bool.false_ne_true
      · exact not_or.2 ⟨not_not.2 hact, hzero⟩
      · exact not_or.2 ⟨not_not.2 hact, fun h => h.2 hone'⟩
    · rw [if_neg hlimited] at hexec
      obtain ⟨⟨i, top, hi, hshown⟩, hlow⟩ := State.rescale_shows hkept hshows
      rw [hexp] at hshown hlow
      obtain ⟨hdone, hshown⟩ := hshown.done hi
      refine ⟨_, hexec, ⟨_, _, _, hdone, hshown.step, rfl, hshown.watch, rfl, hshown.run, fun _ _ _ => ⟨?_, ?_, ?_⟩, fun h => absurd h ?_, fun _ _ h => absurd h hzero⟩,
        fun _ h hor => ?_, fun h => absurd h ?_⟩
      · refine List.mem_append_right _ (List.mem_singleton.2 (Prod.ext rfl ?_))
        change max (-127) _ = if decide (_ < -127) = true then _ else _
        split
        · next h => exact max_eq_left (of_decide_eq_true h).le
        · next h => exact max_eq_right (not_lt.1 fun h' => h (decide_eq_true h'))
      · exact decide_eq_true_iff
      · exact List.mem_append_right _ (List.mem_singleton.2 rfl)
      · exact not_or.2 ⟨not_not.2 hact, hzero⟩
      · obtain h0 | ⟨-, hfloor⟩ := hor
        · exact absurd h0 hzero
        · exact (hraised h).then_log (hlow hfloor)
      · exact not_or.2 ⟨not_not.2 hact, fun h => h.2 hone'⟩
  rw [if_neg hone'] at hexec
  by_cases hreach : reached
  case neg =>
    rw [if_neg fun h => hreach (hreached.1 h)] at hexec
    obtain ⟨hdone, hshown⟩ := hshows.done hkept
    exact ⟨_, hexec, ⟨_, _, _, hdone, hshown.step, rfl, hshown.watch, rfl, hshown.run, fun _ h => absurd h hone', fun _ => ⟨rfl, rfl, rfl, rfl⟩, fun _ h => absurd h hreach⟩,
      fun _ h => absurd h hreach, fun _ => hquiet hreach⟩
  rw [if_pos (hreached.2 hreach)] at hexec
  have hloud : ¬ (¬ acts ∨ ¬ reached ∧ x.num' 0x5210 2 ≠ 1) := not_or.2 ⟨not_not.2 hact, fun h => h.1 hreach⟩
  cases hgroup : (if x.num' 0x5210 2 = 2 then tRecGroup ((j.tensor? t').getD 0) else none) with
  | some g =>
    have htwo : x.num' 0x5210 2 = 2 := by
      by_contra h
      rw [if_neg h] at hgroup
      cases hgroup
    rw [hgroup] at hexec
    obtain ⟨i, z, hi, hshown⟩ := State.freeze_shows (g := g) hkept hshows
    obtain ⟨hdone, hshown⟩ := hshown.done hi
    have hzero : x.num' 0x5210 2 ≠ 0 := by omega
    refine ⟨_, hexec, ⟨_, _, _, hdone, hshown.step, rfl, hshown.watch, rfl, hshown.run, fun _ h => absurd h hone', fun h => absurd h ?_, fun _ _ h => absurd h hzero⟩,
      fun _ _ h => absurd h ?_, fun h => absurd h hloud⟩
    · exact not_or.2 ⟨not_not.2 hact, hzero⟩
    · exact not_or.2 ⟨hzero, fun h => hone' h.1⟩
  | none =>
    rw [hgroup] at hexec
    obtain ⟨i, l, m, hi, hieq, hlogged⟩ := State.job?_logRecord hkept (show 8 ≠ 1 by decide) 0 step x.accept (toLE 4 t' ++ toLE 4 0 ++ toLE 4 0)
    obtain ⟨hdone, hshown⟩ := (hshows.logged hieq).done hi
    refine ⟨_, hexec, ⟨_, _, _, hdone, hshown.step, rfl, hshown.watch, rfl, hshown.run, fun _ h => absurd h hone', fun _ => ⟨rfl, rfl, rfl, rfl⟩, fun _ _ _ => ?_⟩,
      fun _ h _ => (hraised h).then_log rfl, fun h => absurd h hloud⟩
    exact hlogged.of_eq hlog hdec

/-- Settles O59: the history and the watch of a tensor are followed through the job that holds them, and what each row raises is the one event it names. -/
theorem numericsFollowTheStep : Obligations.NumericsFollowTheStep := ⟨scalesFollowTheAmax, zerosAreWatched⟩

end Sys2Proof.Machine
end

section
/-!
The update of a layer: its start, its parts and its release (R219, R232 to R234, R326).
-/
namespace Sys2Proof.Machine
open Sys2Proof

/-! ### The start (R219, R232, R233) -/

/-- A layer's update at its start. -/
def LayerUpdate.begun (layer : Nat) : LayerUpdate := { layer := layer, started := true, released := false, done := [], skip := [], orth := [] }

/-- A step in which another layer's update stands. -/
def StepRec.withUpdate (x : StepRec) (n : LayerUpdate) : StepRec := { x with updates := x.updates ++ [n] }

/-- A step whose updates of a layer have changed. -/
def StepRec.mapUpdate (layer : Nat) (f : LayerUpdate → LayerUpdate) (x : StepRec) : StepRec :=
  { x with updates := x.updates.map fun l => if l.layer = layer then f l else l }

/-- A change of a step that keeps what the step is bound to leaves every scale exponent (R202). -/
theorem Job.exp_withStep (j : Job) (n : Nat) (f : StepRec → StepRec) (hnum : ∀ x, (f x).num = x.num) (hbind : ∀ x, (f x).bind = x.bind) (t step : Nat) :
    (j.withStep n f).exp t step = j.exp t step := by
  by_cases h : step = n
  · subst h
    cases hx : j.step? step with
    | none =>
      have hnone : (j.withStep step f).step? step = none := by
        simp only [Job.step?, Job.withStep, List.find?_eq_none, beq_iff_eq, List.mem_map, forall_exists_index, and_imp] at hx ⊢
        rintro _ y hy rfl
        have hother : ¬ y.num = step := hx y hy
        rwa [if_neg hother]
      unfold Job.exp
      rw [hnone, hx]
      rfl
    | some x =>
      unfold Job.exp
      rw [Job.step?_withStep_self hx f hnum, hx]
      dsimp only [StepRec.num', StepRec.entry]
      rw [hbind]
      rfl
  · unfold Job.exp
    rw [Job.step?_withStep_other j f hnum h]
    rfl

section
variable (j : Job) (x : StepRec) (n : Nat) (l : LayerUpdate)

theorem Job.exp_withUpdate (t step : Nat) : (j.withStep n fun x => x.withUpdate l).exp t step = j.exp t step :=
  j.exp_withStep n (fun x => x.withUpdate l) (fun _ => rfl) (fun _ => rfl) t step

theorem Job.g0_withUpdate (sp id r c : Nat) : (j.withStep n fun x => x.withUpdate l).g0 (x.withUpdate l) sp id r c = j.g0 x sp id r c := by
  unfold Job.g0 Job.gradWindow
  simp only [Job.exp_withUpdate]
  rfl

theorem Job.gradRow_withUpdate (u : Unit') (r a b : Nat) : (j.withStep n fun x => x.withUpdate l).gradRow (x.withUpdate l) u r a b = j.gradRow x u r a b := by
  unfold Job.gradRow
  simp only [Job.g0_withUpdate]
  rfl

/-- A gradient is not finite whether or not the update stands already. -/
theorem State.unitBad_withUpdate (s : State) (slot : Nat) (u : Unit') :
    (s.updStep slot n fun x => x.withUpdate l).unitBad (j.withStep n fun x => x.withUpdate l) (x.withUpdate l) u = s.unitBad j x u := by
  unfold State.unitBad Job.paramBad State.tableGrad
  simp only [Job.gradRow_withUpdate]
  rfl

end

theorem State.counted_updStep (s : State) (slot n : Nat) (f : StepRec → StepRec) (slot' step i k : Nat) :
    (s.updStep slot n f).counted slot' step i k = s.counted slot' step i k := by
  unfold State.counted State.job? State.updStep State.updJob
  rw [List.find?_map]
  have hsame : ((fun j : Job => j.slot == slot') ∘ fun j => if j.slot = slot then { j with steps := j.steps.map fun x => if x.num = n then f x else x } else j) =
      fun j => j.slot == slot' := by
    funext j
    simp only [Function.comp_apply]
    split <;> rfl
  rw [hsame]
  cases s.jobs.find? fun j => j.slot == slot' with
  | none => rfl
  | some j =>
    simp only [Option.map_some]
    split <;> rfl

theorem State.counted_of_jobs {s t : State} (h : t.jobs = s.jobs) (slot step i k : Nat) : t.counted slot step i k = s.counted slot step i k := by
  rw [State.counted, State.counted, State.job?_jobs h]

/-- What a step counts once is one more (R428). -/
theorem State.counted_count {s : State} {slot : Nat} {j : Job} (hj : s.job? slot = some j) (step i k : Nat) :
    (s.count slot step i k 1).counted slot step i k = s.counted slot step i k + 1 := by
  have hcount : (s.count slot step i k 1).job? slot =
      some { j with body := { j.body with counters := aUpd j.body.counters (step, entryKey i k) 0 (· + 1) } } :=
    State.job?_updJob_of hj (fun j => { j with body := { j.body with counters := aUpd j.body.counters (step, entryKey i k) 0 (· + 1) } }) fun _ => rfl
  rw [State.counted, State.counted, hcount, hj]
  exact aGetD_aSet_self ..

theorem StepRec.updates_of_uncounted {x y : StepRec} (h : y.uncounted = x.uncounted) : y.updates = x.updates :=
  congrArg (β := List LayerUpdate) (fun z => z.updates) h

theorem State.countGrad_calm (s : State) (slot step : Nat) (u : Unit') : Calm s (s.countGrad slot step u) := by
  unfold State.countGrad
  split
  · split
    · exact .refl s
    · split
      · exact .refl s
      · exact s.updStep_calm _ _ _ fun _ => rfl
  · exact .refl s

theorem State.counted_countGrad (s : State) (slot step : Nat) (u : Unit') (slot' step' i k : Nat) :
    (s.countGrad slot step u).counted slot' step' i k = s.counted slot' step' i k := by
  unfold State.countGrad
  split
  · split
    · rfl
    · split
      · rfl
      · exact s.counted_updStep ..
  · rfl

/-- The report of a gradient that is not finite, where there is one (R233). -/
def State.reportGrad (s : State) (slot step : Nat) (u : Unit') (bad skip : Bool) : State :=
  if bad then ((s.countGrad slot step u).raiseJob 0x5401 slot step u.id u.kind (if skip then 1 else 0)).count slot step 0x5400 4 1
  else s.countGrad slot step u

theorem State.reportGrad_calm (s : State) (slot step : Nat) (u : Unit') (bad skip : Bool) : Calm s (s.reportGrad slot step u bad skip) := by
  have hgrad := s.countGrad_calm slot step u
  exact .ite (hgrad.trans ((State.raiseJob_calm ..).trans (State.count_calm ..))) hgrad

/-- A gradient that is not finite is raised and counted (R233). -/
theorem State.reportGrad_bad {s : State} {slot : Nat} {j : Job} (hj : s.job? slot = some j) (step : Nat) (u : Unit') (skip : Bool) :
    Raised s (s.reportGrad slot step u true skip) 0x5401 .job slot step u.id u.kind (if skip then 1 else 0) ∧
      (s.reportGrad slot step u true skip).counted slot step 0x5400 4 = s.counted slot step 0x5400 4 + 1 := by
  let v := (s.countGrad slot step u).raiseJob 0x5401 slot step u.id u.kind (if skip then 1 else 0)
  obtain ⟨k, hk, -⟩ := (s.countGrad_calm slot step u).job hj
  have hjobs : v.jobs = (s.countGrad slot step u).jobs := (State.raiseJob_only ..).eq .jobs rfl
  have hv : v.job? slot = some k := (State.job?_jobs hjobs slot).trans hk
  refine ⟨?_, ?_⟩
  · have hraised : Raised s v 0x5401 .job slot step u.id u.kind (if skip then 1 else 0) := State.raiseJob_raised_of_log ((State.countGrad_only ..).eq .log rfl)
    unfold Raised at hraised ⊢
    rwa [show (s.reportGrad slot step u true skip).log = v.log from (v.count_only slot step 0x5400 4 1).eq .log rfl]
  · calc (s.reportGrad slot step u true skip).counted slot step 0x5400 4 = v.counted slot step 0x5400 4 + 1 := State.counted_count hv ..
      _ = s.counted slot step 0x5400 4 + 1 := by rw [State.counted_of_jobs hjobs, State.counted_countGrad]

theorem State.reportGrad_log (s : State) (slot step : Nat) (u : Unit') (skip : Bool) : (s.reportGrad slot step u false skip).log = s.log :=
  (State.countGrad_only ..).eq .log rfl

/-- A unit set aside, of a layer's update. -/
def LayerUpdate.aside (u : Unit') (l : LayerUpdate) : LayerUpdate := { l with skip := l.skip ++ [(u.kind, u.id)] }

/-- A parameter's new m and direction, of a layer's update (R228). -/
def LayerUpdate.withOrth (o : Nat × Mat × Mat) (l : LayerUpdate) : LayerUpdate := { l with orth := l.orth ++ [o] }

/-- How a unit begins: set aside as it is, set aside once it is reported, with its directions, or with nothing more. -/
theorem State.beginUnit_eq {s : State} {slot step layer : Nat} {j : Job} {x : StepRec} (hj : s.job? slot = some j) (hx : j.step? step = some x) (u : Unit') :
    s.beginUnit slot step layer u =
      let v := s.reportGrad slot step u (s.unitBad j x u) (x.group (j.unitGroup u)).skip
      if j.still x u then s.updStep slot step (StepRec.mapUpdate layer (LayerUpdate.aside u))
      else if u.kind = 0 ∧ s.unitBad j x u = true ∧ (x.group (j.unitGroup u)).skip = true then v.updStep slot step (StepRec.mapUpdate layer (LayerUpdate.aside u))
      else if u.kind = 0 ∧ (x.group (j.unitGroup u)).rule = 3 then
        match j.param? u.id with
        | some p => v.updStep slot step (StepRec.mapUpdate layer (LayerUpdate.withOrth (u.id, j.orthOf x p)))
        | none => v
      else v := by
  unfold State.beginUnit
  rw [hj, State.step?_of_job hj, hx]
  rfl

/-- The update of the layer stands last among those of its step. -/
theorem StepRec.mapUpdate_withUpdate (x : StepRec) {layer : Nat} (n : LayerUpdate) (f : LayerUpdate → LayerUpdate) (hn : n.layer = layer)
    (hnew : ∀ l ∈ x.updates, l.layer ≠ layer) : ((x.withUpdate n).mapUpdate layer f).updates = x.updates ++ [f n] := by
  unfold StepRec.mapUpdate StepRec.withUpdate
  dsimp only
  rw [List.map_append, List.map_cons, List.map_nil, if_pos hn]
  refine congrArg (· ++ [f n]) ((List.map_congr_left fun l hl => ?_).trans (List.map_id _))
  exact if_neg (hnew l hl)

/-- What stands of an update once it has begun (R219). -/
structure LayerUpdate.Begun (n : LayerUpdate) (layer : Nat) (skip : List (Nat × Nat)) : Prop where
  layer : n.layer = layer
  started : n.started = true
  released : n.released = false
  done : n.done = []
  skip : n.skip = skip

/-- Whether a unit is set aside at the start of its layer's update (R232, R233). -/
def State.SetAside (s : State) (j : Job) (x : StepRec) (u : Unit') : Prop :=
  j.still x u = true ∨ (u.kind = 0 ∧ s.unitBad j x u = true ∧ (x.group (j.unitGroup u)).skip = true)

section
variable {s : State} {slot step layer : Nat} {j : Job} {x : StepRec} {u : Unit'} (hj : s.job? slot = some j) (hx : j.step? step = some x)
  (hnew : ∀ l ∈ x.updates, l.layer ≠ layer)
include hj hx hnew

/-- A unit begins in the update that has been set up for its layer. -/
theorem State.beginUnit_updates :
    ∃ y n, ((s.updStep slot step fun x => x.withUpdate (.begun layer)).beginUnit slot step layer u).step? slot step = some y ∧ y.updates = x.updates ++ [n] ∧
      (s.SetAside j x u → n.Begun layer [(u.kind, u.id)]) ∧ (¬ s.SetAside j x u → n.Begun layer []) := by
  let a := s.updStep slot step fun x => x.withUpdate (.begun layer)
  let k := j.withStep step fun x => x.withUpdate (.begun layer)
  have ha : a.job? slot = some k := State.job?_updStep hj ..
  have hk : k.step? step = some (x.withUpdate (.begun layer)) := Job.step?_withStep_self hx (fun x => x.withUpdate (.begun layer)) fun _ => rfl
  have hbad : a.unitBad k (x.withUpdate (.begun layer)) u = s.unitBad j x u := State.unitBad_withUpdate ..
  have heq := State.beginUnit_eq (layer := layer) ha hk u
  rw [hbad] at heq
  have hlast (f : LayerUpdate → LayerUpdate) {v : State} (hv : Calm a v) :
      ∃ y, (v.updStep slot step (StepRec.mapUpdate layer f)).step? slot step = some y ∧ y.updates = x.updates ++ [f (.begun layer)] := by
    obtain ⟨i, hi, -⟩ := hv.job ha
    obtain ⟨z, hz, hsame⟩ := hv.step ((State.step?_of_job ha _).trans hk)
    rw [State.step?_of_job hi] at hz
    have hupd : z.updates = (x.withUpdate (.begun layer)).updates := StepRec.updates_of_uncounted hsame
    refine ⟨z.mapUpdate layer f, ?_, ?_⟩
    · rw [State.step?_of_job (State.job?_updStep hi ..)]
      exact Job.step?_withStep_self hz _ fun _ => rfl
    · rw [← x.mapUpdate_withUpdate (.begun layer) f rfl hnew]
      exact congrArg (List.map fun l : LayerUpdate => if l.layer = layer then f l else l) hupd
  have hcalm := a.reportGrad_calm slot step u (s.unitBad j x u) (x.group (j.unitGroup u)).skip
  have hplain : ∃ y, (a.reportGrad slot step u (s.unitBad j x u) (x.group (j.unitGroup u)).skip).step? slot step = some y ∧ y.updates = x.updates ++ [.begun layer] := by
    obtain ⟨z, hz, hsame⟩ := hcalm.step ((State.step?_of_job ha _).trans hk)
    exact ⟨z, hz, StepRec.updates_of_uncounted hsame⟩
  have haside : (LayerUpdate.aside u (.begun layer)).Begun layer [(u.kind, u.id)] := ⟨rfl, rfl, rfl, rfl, rfl⟩
  have hbegun : (LayerUpdate.begun layer).Begun layer [] := ⟨rfl, rfl, rfl, rfl, rfl⟩
  dsimp only at heq
  by_cases hstill : j.still x u = true
  · obtain ⟨y, hy, hupd⟩ := hlast (LayerUpdate.aside u) (.refl a)
    exact ⟨y, _, by rw [heq.trans (if_pos hstill)]; exact hy, hupd, fun _ => haside, fun h => absurd (.inl hstill) h⟩
  replace heq := heq.trans (if_neg hstill)
  by_cases hskip : u.kind = 0 ∧ s.unitBad j x u = true ∧ (x.group (j.unitGroup u)).skip = true
  · obtain ⟨y, hy, hupd⟩ := hlast (LayerUpdate.aside u) hcalm
    exact ⟨y, _, by rw [heq.trans (if_pos hskip)]; exact hy, hupd, fun _ => haside, fun h => absurd (.inr hskip) h⟩
  replace heq := heq.trans (if_neg hskip)
  have hkeeps : ¬ s.SetAside j x u := fun h => h.elim hstill hskip
  by_cases horth : u.kind = 0 ∧ (x.group (j.unitGroup u)).rule = 3
  · replace heq := heq.trans (if_pos horth)
    cases hp : k.param? u.id with
    | none =>
      rw [hp] at heq
      obtain ⟨y, hy, hupd⟩ := hplain
      exact ⟨y, _, by rw [heq]; exact hy, hupd, fun h => absurd h hkeeps, fun _ => hbegun⟩
    | some p =>
      rw [hp] at heq
      obtain ⟨y, hy, hupd⟩ := hlast (LayerUpdate.withOrth (u.id, k.orthOf (x.withUpdate (.begun layer)) p)) hcalm
      exact ⟨y, _, by rw [heq]; exact hy, hupd, fun h => absurd h hkeeps, fun _ => ⟨rfl, rfl, rfl, rfl, rfl⟩⟩
  · obtain ⟨y, hy, hupd⟩ := hplain
    exact ⟨y, _, by rw [heq.trans (if_neg horth)]; exact hy, hupd, fun h => absurd h hkeeps, fun _ => hbegun⟩

omit hnew in
/-- A unit whose gradient is not finite is reported as it begins, any other begins without an event (R233). -/
theorem State.beginUnit_report :
    let t := (s.updStep slot step fun x => x.withUpdate (.begun layer)).beginUnit slot step layer u
    (j.still x u = false → s.unitBad j x u = true → Raised s t 0x5401 .job slot step u.id u.kind (if (x.group (j.unitGroup u)).skip then 1 else 0) ∧
        t.counted slot step 0x5400 4 = s.counted slot step 0x5400 4 + 1) ∧
      (j.still x u = true ∨ s.unitBad j x u = false → t.log = s.log) := by
  intro t
  let a := s.updStep slot step fun x => x.withUpdate (.begun layer)
  let k := j.withStep step fun x => x.withUpdate (.begun layer)
  let v := a.reportGrad slot step u (s.unitBad j x u) (x.group (j.unitGroup u)).skip
  have ha : a.job? slot = some k := State.job?_updStep hj ..
  have hk : k.step? step = some (x.withUpdate (.begun layer)) := Job.step?_withStep_self hx (fun x => x.withUpdate (.begun layer)) fun _ => rfl
  have hbad : a.unitBad k (x.withUpdate (.begun layer)) u = s.unitBad j x u := State.unitBad_withUpdate ..
  have heq := State.beginUnit_eq (layer := layer) ha hk u
  rw [hbad] at heq
  dsimp only at heq
  by_cases hstill : j.still x u = true
  · have ht : t = _ := heq.trans (if_pos hstill)
    refine ⟨fun h => absurd (hstill.symm.trans h) (by decide), fun _ => ?_⟩
    rw [ht]
    rfl
  replace heq := heq.trans (if_neg hstill)
  have hv : t.log = v.log ∧ t.counted slot step 0x5400 4 = v.counted slot step 0x5400 4 := by
    have hlater (f : StepRec → StepRec) : (v.updStep slot step f).log = v.log ∧ (v.updStep slot step f).counted slot step 0x5400 4 = v.counted slot step 0x5400 4 :=
      ⟨rfl, v.counted_updStep ..⟩
    rw [show t = _ from heq]
    split
    · exact hlater _
    split
    · split
      · exact hlater _
      · exact ⟨rfl, rfl⟩
    · exact ⟨rfl, rfl⟩
  obtain ⟨hlog, hcounted⟩ := hv
  refine ⟨fun _ hb => ?_, fun h => ?_⟩
  · have hva : v = a.reportGrad slot step u true (x.group (j.unitGroup u)).skip := by rw [← hb]
    obtain ⟨hraised, hadd⟩ := State.reportGrad_bad ha step u (x.group (j.unitGroup u)).skip
    rw [← hva] at hraised hadd
    refine ⟨?_, hcounted.trans (hadd.trans (by rw [show a.counted slot step 0x5400 4 = s.counted slot step 0x5400 4 from s.counted_updStep ..]))⟩
    unfold Raised at hraised ⊢
    rwa [hlog]
  · have hb := h.resolve_left hstill
    have hva : v = a.reportGrad slot step u false (x.group (j.unitGroup u)).skip := by rw [← hb]
    rw [hlog, hva]
    exact a.reportGrad_log ..

end

theorem updatesStart : Claims.UpdatesStart := by
  intro s slot step layer j x u hj hx hclosed hunits
  have hstep : s.step? slot step = some x := (State.step?_of_job hj step).trans hx
  refine ⟨fun hin => ?_, fun ⟨l, hl, hlayer⟩ => ?_, fun hin hnew hfirst hpoint hopen hscale hcalled hrange => ?_⟩
  · change execUpdateApply slot step layer s = _
    unfold execUpdateApply
    simp only [hclosed, hj, hstep, hin, Bool.and_false, Bool.false_and, Bool.false_eq_true, if_false]
  · have hstands : (x.updates.any fun l => l.layer == layer) = true := List.any_eq_true.2 ⟨l, hl, beq_iff_eq.2 hlayer⟩
    change execUpdateApply slot step layer s = _
    unfold execUpdateApply
    simp only [hclosed, hj, hstep, hstands, Bool.not_true, Bool.and_false, Bool.false_and, Bool.false_eq_true, if_false]
  · have hfree : (x.updates.any fun l => l.layer == layer) = false := by simpa [List.any_eq_false] using hnew
    have hearlier : (j.steps.filter fun y => decide (y.num < step)) = [] := by simpa [List.filter_eq_nil_iff] using hfirst
    have hscaled : (u.kind == 1 || j.scaleReady u.id step) = true := by simpa using hscale
    have hexec : exec (.updateApply slot step layer) s =
        .next ((s.updStep slot step fun x => x.withUpdate (.begun layer)).beginUnit slot step layer u) := by
      change execUpdateApply slot step layer s = _
      unfold execUpdateApply
      simp only [hclosed, hj, hstep, hunits]
      rw [hcalled]
      refine congrArg Host.Outcome.next ((if_pos ?_).trans (if_pos rfl))
      simp only [hfree, hearlier, hin, hpoint, hopen, hscaled, List.all_cons, List.all_nil, Bool.and_true, Bool.not_false, decide_not, reduceCtorEq,
        decide_false, Bool.true_and, Bool.or_eq_true]
      refine hrange.imp_right fun hledger => ?_
      cases hg : j.unitGrad x u with
      | none => rfl
      | some g =>
        obtain ⟨l, hl, hlr⟩ := hledger g hg
        simp [hl, hlr]
    obtain ⟨y, n, hy, hupd, hset, hkeep⟩ := State.beginUnit_updates (u := u) hj hx hnew
    obtain ⟨hbad, hgood⟩ := State.beginUnit_report (layer := layer) (u := u) hj hx
    refine ⟨_, hexec, ?_, hbad, hgood⟩
    have hbegun : ∃ l, n.Begun layer l := (em (s.SetAside j x u)).elim (fun h => ⟨_, hset h⟩) fun h => ⟨_, hkeep h⟩
    obtain ⟨l, hlayer, hstarted, hreleased, hdone, -⟩ := hbegun
    exact ⟨y, n, hy, hupd, hlayer, hstarted, hreleased, hdone, fun h => (hset h).skip, fun h => (hkeep h).skip⟩

end Sys2Proof.Machine
end

section
/-!
The parts of a layer's update (R234): the row tiles a tile takes, and what else of the parameter and the step stands as before.
-/
namespace Sys2Proof.Machine
open Sys2Proof

/-! ### An instance with the space it sought (R52, R256) -/

/-- A step's waits for space but those of the instance. -/
def Ctx.otherWaits (c : Ctx) (x : StepRec) : List ((WorkId × Nat × Regs) × Nat) := x.spaceWait.filter fun e => e.1 != (c.w.id, c.w.pos, c.w.regs)

/-- A step whose instance has its space. -/
def Ctx.spaced (c : Ctx) (x : StepRec) : StepRec :=
  { x with spaceWait := c.otherWaits x
           stalled := x.stalled && (!(c.otherWaits x).isEmpty ||
             c.job.body.calls.any fun k => k.stalled && k.steps.contains x.num && !(k.rows.all (·.supplied))) }

section
variable {s : State} {tile : Nat} {w : WorkId} {c : Ctx} (hctx : s.ctx? tile w = some c)
include hctx

/-- An instance that has room is issued with its effect, and waits no longer (R52, R256). -/
theorem State.jobs_issueSpace {ok room : Ctx → State → Bool} {sought : Ctx → State → Nat} {effect : Ctx → State → State}
    (hok : ok c s = true) (hcan : s.canIssue c = true) (hroom : room c s = true) (heff : Effected c s (effect c s)) :
    (s.issueSpace tile w ok room sought effect).jobs = (c.spaceFound (effect c s)).jobs := by
  have hissue : s.issueSpace tile w ok room sought effect =
      s.issue tile w (fun c s => ok c s && room c s) (fun c s => c.spaceFound (effect c s)) fun _ _ i => i := by
    unfold State.issueSpace
    rw [hctx]
    dsimp only
    exact if_neg (by simp [hroom])
  rw [hissue]
  exact (State.issue_issued hctx (ok := fun c s => ok c s && room c s) (effect := fun c s => c.spaceFound (effect c s)) (mk := fun _ _ i => i)
    (by simp [hok, hroom]) hcan (heff.trans (.of_only (Ctx.spaceFound_only ..) rfl rfl)) ⟨true, [], [], rfl⟩).2.2

/-- The end of a wait for space changes of a job nothing but its step's waits. -/
theorem Ctx.spaceFound_job {u : State} {k : Job} {y : StepRec} (hk : u.job? w.slot = some k) (hy : k.step? w.step = some y) :
    ∃ i z, (c.spaceFound u).job? w.slot = some i ∧ i.body = k.body ∧ i.step? w.step = some z ∧ z.updates = y.updates := by
  have hc := State.context_of_ctx? hctx
  unfold Ctx.spaceFound
  rw [hc.slot, hc.num]
  split
  · exact ⟨_, _, State.job?_updStep hk w.step c.spaced, rfl, Job.step?_withStep_self hy c.spaced fun _ => rfl, rfl⟩
  · exact ⟨k, y, hk, rfl, hy, rfl⟩

end

/-! ### Rows of a parameter -/

/-- The first entry of a key is found changed where each entry of the key is changed in its place. -/
theorem find?_map_update {α : Type} (l : List α) (key : α → Nat) (k : Nat) (f : α → α) {a : α} (ha : l.find? (fun a => key a == k) = some a)
    (hf : ∀ a, key a = k → key (f a) = k) : (l.map fun a => if key a = k then f a else a).find? (fun a => key a == k) = some (f a) := by
  have hcomp : ((fun a => key a == k) ∘ fun a => if key a = k then f a else a) = fun a => key a == k := by
    funext b
    by_cases h : key b = k
    · simp [h, hf b h]
    · simp [h]
  have hkey : key a = k := by simpa using List.find?_some ha
  rw [List.find?_map, hcomp, ha, Option.map_some, if_pos hkey]

/-- A parameter changed in some of its rows alone. -/
structure Param.OnlyRows (rows : Nat → Prop) (p q : Param) : Prop where
  rec' : q.rec' = p.rec'
  others : ∀ i part, ¬ rows i → rowOf (q.part part) (pRecCols p.rec') i = rowOf (p.part part) (pRecCols p.rec') i

theorem Param.OnlyRows.refl (rows : Nat → Prop) (p : Param) : p.OnlyRows rows p := ⟨rfl, fun _ _ _ => rfl⟩

theorem Param.OnlyRows.trans {rows : Nat → Prop} {p q r : Param} (h : p.OnlyRows rows q) (g : q.OnlyRows rows r) : p.OnlyRows rows r :=
  ⟨g.rec'.trans h.rec', fun i part hi => (h.rec' ▸ g.others i part hi).trans (h.others i part hi)⟩

theorem Param.OnlyRows.mono {rows more : Nat → Prop} {p q : Param} (h : p.OnlyRows rows q) (hmore : ∀ i, rows i → more i) : p.OnlyRows more q :=
  ⟨h.rec', fun i part hi => h.others i part fun hr => hi (hmore i hr)⟩

theorem Param.setRow_onlyRows (p : Param) (part r : Nat) (es : List Nat) : p.OnlyRows (· = r) (p.setRow part r es) := by
  have hset (l : List (Nat × List Nat)) (cols i : Nat) (hi : ¬ i = r) : rowOf (aSet l r es) cols i = rowOf l cols i := aGetD_aSet_other l r i es _ (Ne.symm hi)
  refine ⟨?_, fun i k hi => ?_⟩
  · unfold Param.setRow
    split <;> rfl
  · unfold Param.setRow Param.part
    split
    · split
      · exact hset p.m _ i hi
      · rfl
      · rfl
    · split
      · rfl
      · exact hset p.v _ i hi
      · rfl
    · split
      · rfl
      · rfl
      · exact hset p.master _ i hi

theorem Job.updateRow_onlyRows (j : Job) (x : StepRec) (p : Param) (orths : Option (Mat × Mat)) (i : Nat) : p.OnlyRows (· = i) (j.updateRow x p orths i) := by
  have hset (c : Prop) [Decidable c] (q : Param) (part : Nat) (es : List Nat) (h : p.OnlyRows (· = i) q) :
      p.OnlyRows (· = i) (if c then q.setRow part i es else q) := by
    split
    · exact h.trans (q.setRow_onlyRows ..)
    · exact h
  exact hset _ _ _ _ (hset _ _ _ _ (p.setRow_onlyRows ..))

/-- A job's parameter and its step's updates stand as before, but for rows of the parameter. -/
def RowsUpdated (slot step id : Nat) (rows : Nat → Prop) (s t : State) : Prop :=
  ∀ j x p, s.job? slot = some j → j.step? step = some x → j.param? id = some p →
    ∃ k y q, t.job? slot = some k ∧ k.step? step = some y ∧ k.param? id = some q ∧ y.updates = x.updates ∧ p.OnlyRows rows q

section
variable {slot step id : Nat} {rows : Nat → Prop}

theorem RowsUpdated.refl (s : State) : RowsUpdated slot step id rows s s := fun j x p hj hx hp => ⟨j, x, p, hj, hx, hp, rfl, .refl rows p⟩

theorem RowsUpdated.trans {s t u : State} (h : RowsUpdated slot step id rows s t) (g : RowsUpdated slot step id rows t u) : RowsUpdated slot step id rows s u := by
  intro j x p hj hx hp
  obtain ⟨k, y, q, hk, hy, hq, hupd, hrows⟩ := h j x p hj hx hp
  obtain ⟨l, z, r, hl, hz, hr, hupd', hrows'⟩ := g k y q hk hy hq
  exact ⟨l, z, r, hl, hz, hr, hupd'.trans hupd, hrows.trans hrows'⟩

theorem Calm.rowsUpdated {s t : State} (h : Calm s t) : RowsUpdated slot step id rows s t := by
  intro j x p hj hx hp
  obtain ⟨k, hk, hsame⟩ := h.job hj
  obtain ⟨y, hy, hcount⟩ := h.step ((State.step?_of_job hj step).trans hx)
  rw [State.step?_of_job hk] at hy
  have hparam : k.uncounted.param? id = j.uncounted.param? id := by rw [hsame]
  exact ⟨k, y, p, hk, hy, hparam.trans hp, StepRec.updates_of_uncounted hcount, .refl rows p⟩

/-- A parameter is replaced by one that keeps its record. -/
theorem State.updParam_rowsUpdated {s : State} {j : Job} {p q : Param} (hj : s.job? slot = some j) (hp : j.param? id = some p) (hq : p.OnlyRows rows q) :
    RowsUpdated slot step id rows s (s.updParam slot id fun _ => q) := by
  intro j' x p' hj' hx hp'
  obtain rfl : j = j' := Option.some.inj (hj.symm.trans hj')
  obtain rfl : p = p' := Option.some.inj (hp.symm.trans hp')
  have hid : pRecTensor p.rec' = id := by simpa using List.find?_some (show j.body.params.find? _ = some p from hp)
  let f (j : Job) : Job := { j with body := { j.body with params := j.body.params.map fun p => if pRecTensor p.rec' = id then q else p } }
  refine ⟨f j, x, q, State.job?_updJob_of hj f fun _ => rfl, hx, ?_, rfl, hq⟩
  exact find?_map_update j.body.params (fun p => pRecTensor p.rec') id (fun _ => q) hp fun _ _ => by rw [hq.rec', hid]

/-- The rows of a row tile. -/
def Param.tileRows (p : Param) (tile : Nat) : List Nat := (List.range 32).map (32 * tile + ·) |>.filter (· < pRecRows p.rec')

/-- A parameter with the rows of a row tile updated (R226, R228). -/
def Job.updatedTile (j : Job) (x : StepRec) (p : Param) (t tile : Nat) : Param :=
  (p.tileRows tile).foldl (fun p' i => j.updateRow x p'
    ((x.updates.find? fun u => u.layer == pRecLayer p.rec').bind fun u => (u.orth.find? fun o => o.1 == t).map (·.2)) i) p

theorem Job.updatedTile_onlyRows (j : Job) (x : StepRec) (p : Param) (t tile : Nat) : p.OnlyRows (fun i => i / 32 = tile) (j.updatedTile x p t tile) := by
  refine List.foldlRecOn (motive := fun q => p.OnlyRows (fun i => i / 32 = tile) q) (p.tileRows tile) _ (.refl _ p) fun q hq i hi => hq.trans ?_
  refine (j.updateRow_onlyRows x q _ i).mono fun r hr => ?_
  obtain ⟨m, hm, rfl⟩ := List.mem_map.1 (List.mem_filter.1 hi).1
  have := List.mem_range.1 hm
  omega

theorem State.touch_calm (s : State) (k : TileKey) (n : Nat) : Calm s (s.touch k n) := .of_only (s.touch_only k n) rfl

theorem State.reportedCopy_calm (s : State) (counts : Bool) (slot step t : Nat) (c : Counted) :
    Calm s (if counts = true then s.updStep slot step fun x => x.report t (WorkId.none slot step) c else s) :=
  .ite (s.updStep_calm _ _ _ fun _ => rfl) (.refl s)

/-- A row tile is updated in its 32 rows (R226). -/
theorem State.updateRowTile_rowsUpdated (s : State) (die tile : Nat) : RowsUpdated slot step id (fun i => i / 32 = tile) s (s.updateRowTile slot step id die tile) := by
  intro j x p hj hx hp
  let s1 := (s.updParam slot id fun _ => j.updatedTile x p id tile).writeCopyRow slot id (x.group (pRecGroup p.rec')) (j.exp id step) (some die) tile
  have hcopy : Calm (s.updParam slot id fun _ => j.updatedTile x p id tile) s1 := .of_only (State.writeCopyRow_only ..) rfl
  have hcounts : Calm s1 (s.updateRowTile slot step id die tile) := by
    unfold State.updateRowTile
    rw [hj, State.step?_of_job hj, hx]
    dsimp only
    rw [hp]
    refine Calm.foldl _ _ s1 fun t rc => ?_
    exact (t.reportedCopy_calm ..).trans ((State.touch_calm ..).trans ((State.count_calm ..).trans (State.count_calm ..)))
  exact ((State.updParam_rowsUpdated hj hp (j.updatedTile_onlyRows x p id tile)).trans (hcopy.trans hcounts).rowsUpdated) j x p hj hx hp

end

/-! ### A tile's part (R234) -/

/-- The ranks a tile has still to update. -/
def Ctx.openRanks (c : Ctx) (s : State) (done : List (Nat × Nat × Nat)) : List Nat :=
  (s.ranksFor (c.job.updateTiles c.x c.d.unit) c.tile).filter fun r => !done.contains (c.d.unit.kind, c.d.unit.id, r)

/-- The row tiles of a tile's ranks, updated. -/
def Ctx.updateTiles (c : Ctx) (s : State) (p : Param) (ranks : List Nat) : State :=
  ((List.range (ceilDiv (pRecRows p.rec') 32)).filter fun i => ranks.contains (i % (c.job.updateTiles c.x c.d.unit).length)).foldl
    (fun s i => s.updateRowTile c.slot c.x.num c.d.unit.id (c.tile / 64) i) s

/-- A layer's update with parts of a unit done. -/
def LayerUpdate.withDone (u : Unit') (ranks : List Nat) (l : LayerUpdate) : LayerUpdate := { l with done := l.done ++ ranks.map fun r => (u.kind, u.id, r) }

theorem Ctx.update_of_param {c : Ctx} {s : State} {p : Param} {l : LayerUpdate} (hidle : c.updateIdle s = false) (hkind : c.d.unit.kind = 0)
    (hp : c.job.param? c.d.unit.id = some p) (hl : c.x.updates.find? (fun l => l.layer == c.job.unitLayer c.d.unit) = some l) :
    c.update s = (c.updateTiles s p (c.openRanks s l.done)).updStep c.slot c.x.num
      (StepRec.mapUpdate (c.job.unitLayer c.d.unit) (LayerUpdate.withDone c.d.unit (c.openRanks s l.done))) := by
  unfold Ctx.update
  rw [if_neg (by rw [hidle]; exact Bool.false_ne_true)]
  dsimp only
  rw [hl, if_pos hkind, hp]
  rfl

theorem updatesTakeTheirPart : Claims.UpdatesTakeTheirPart := by
  intro s tile w c p l hcan hd hready hroom hclean hidle hkind hp hl n ranks
  obtain ⟨hctx, hfree, hform, -⟩ := hcan
  have hc := State.context_of_ctx? hctx
  have hok : (c.d.kind == 0x0A && c.updateReady s) = true := by rw [hready, Bool.and_true, beq_iff_eq, hd]
  have hranks : c.openRanks s l.done = ranks := by
    unfold Ctx.openRanks
    rw [hkind, hc.onTile]
  let v := c.updateTiles s p ranks
  let layer := c.job.unitLayer c.d.unit
  have hv : RowsUpdated w.slot w.step c.d.unit.id (fun i => ranks.contains (i / 32 % n) = true) s v := by
    refine List.foldlRecOn (motive := fun t => RowsUpdated w.slot w.step c.d.unit.id (fun i => ranks.contains (i / 32 % n) = true) s t) _ _ (.refl s)
      fun t ht i hi => ht.trans ?_
    have hrank : ranks.contains (i % n) = true := (List.mem_filter.1 hi).2
    rw [hc.slot, hc.num]
    intro j x p hj hx hp
    obtain ⟨k, y, q, hk, hy, hq, hupd, hrows⟩ := t.updateRowTile_rowsUpdated (c.tile / 64) i j x p hj hx hp
    exact ⟨k, y, q, hk, hy, hq, hupd, hrows.mono fun r hr => hr ▸ hrank⟩
  obtain ⟨k, y, q, hk, hy, hq, hupd, hrows⟩ := hv c.job c.x p hc.job hc.step hp
  let f := LayerUpdate.withDone c.d.unit ranks
  have hupdate : c.update s = v.updStep w.slot w.step (StepRec.mapUpdate layer f) := by
    rw [Ctx.update_of_param hidle hkind hp hl, hranks, hc.slot, hc.num]
  have heff : Effected c s (c.update s) := .of_only (Ctx.update_only ..) rfl rfl
  have hdone : (c.update s).job? w.slot = some (k.withStep w.step (StepRec.mapUpdate layer f)) := by
    rw [hupdate]
    exact State.job?_updStep hk ..
  have hstep : (k.withStep w.step (StepRec.mapUpdate layer f)).step? w.step = some (y.mapUpdate layer f) := Job.step?_withStep_self hy _ fun _ => rfl
  obtain ⟨i, z, hi, hbody, hz, hzupd⟩ := Ctx.spaceFound_job hctx hdone hstep
  have hjobs := State.jobs_issueSpace hctx (ok := fun c s => c.d.kind == 0x0A && c.updateReady s) (room := Ctx.updateRoom) (sought := Ctx.updateSought)
    (effect := Ctx.update) hok hfree hroom heff
  refine ⟨_, congrArg Host.Outcome.next (State.unlessPoisoned_run _ fun e he => .inr (.inr (Option.some.inj (hctx.symm.trans he) ▸ hclean))),
    i, q, z, f l, (State.job?_jobs hjobs w.slot).trans hi, ?_, hz, hrows.rec', ?_, ?_, fun j part _ hj _ => hrows.others j part (by rw [hj]; exact Bool.false_ne_true), ?_⟩
  · rw [Job.param?, hbody]
    exact hq
  · rw [hzupd]
    rw [← hupd] at hl
    exact find?_map_update y.updates LayerUpdate.layer layer f hl fun _ h => h
  · change l.done ++ ranks.map (fun r => (c.d.unit.kind, c.d.unit.id, r)) = _
    rw [hkind]
  · intro hnone
    have hsame : v = s := by
      have hempty : ((List.range (ceilDiv (pRecRows p.rec') 32)).filter fun i => ranks.contains (i % n)) = [] := by simp [hnone]
      change (List.filter _ _).foldl _ s = s
      rw [show ((List.range (ceilDiv (pRecRows p.rec') 32)).filter fun i => ranks.contains (i % (c.job.updateTiles c.x c.d.unit).length)) = [] from hempty]
      rfl
    rw [hsame, hc.job] at hk
    obtain rfl := Option.some.inj hk
    exact Option.some.inj (hq.symm.trans hp)

end Sys2Proof.Machine
end

section
/-!
The release of a layer (R126, R219, R326).
-/
namespace Sys2Proof.Machine
open Sys2Proof

/-! ### What a release passes on -/

/-- Every step stands as it was, and no other message of a peer waits. -/
structure StepsKept (s t : State) : Prop where
  steps : ∀ slot n, t.step? slot n = s.step? slot n
  requests : t.fabric.requests = s.fabric.requests

theorem StepsKept.refl (s : State) : StepsKept s s := ⟨fun _ _ => rfl, rfl⟩
theorem StepsKept.trans {s t u : State} (h : StepsKept s t) (g : StepsKept t u) : StepsKept s u :=
  ⟨fun slot n => (g.steps slot n).trans (h.steps slot n), g.requests.trans h.requests⟩

theorem StepsKept.foldl {α : Type} (f : State → α → State) (l : List α) (s : State) (h : ∀ s a, StepsKept s (f s a)) : StepsKept s (l.foldl f s) :=
  List.foldlRecOn (motive := fun t => StepsKept s t) l f (.refl s) fun t ht a _ => ht.trans (h t a)

theorem Sends.stepsKept {s t : State} (h : Sends s t) : StepsKept s t := ⟨State.step?_jobs h.jobs, congrArg (β := List (Nat × FlitKind × List Byte)) (fun f => f.requests) h.still⟩

theorem RowsOnly.stepsKept {s t : State} (h : RowsOnly s t) (hfabric : t.fabric = s.fabric) : StepsKept s t := by
  refine ⟨fun slot n => ?_, by rw [hfabric]⟩
  have hstep (u : State) : u.step? slot n = ((u.jobs.map Job.lasting).find? fun j => j.slot == slot).bind fun j => j.step? n := by
    unfold State.step? State.job?
    rw [List.find?_map, Option.bind_map]
    rfl
  rw [hstep, hstep, h.jobs]

/-- A change of a job that leaves its steps. -/
theorem State.updJob_stepsKept (s : State) (slot : Nat) (f : Job → Job) (hslot : ∀ j, (f j).slot = j.slot) (hsteps : ∀ j, (f j).steps = j.steps) :
    StepsKept s (s.updJob slot f) := by
  refine ⟨fun r n => ?_, rfl⟩
  have hstep (j : Job) : (f j).step? n = j.step? n := by rw [Job.step?, Job.step?, hsteps]
  by_cases h : slot = r
  · subst h
    unfold State.step?
    rw [State.job?_updJob_self s slot f hslot, Option.bind_map]
    exact congrArg (fun g => (s.job? slot).bind g) (funext hstep)
  · unfold State.step?
    rw [State.job?_updJob_other s slot r f hslot h]

theorem State.sendKept_stepsKept (s : State) (slot dst : Nat) (k : FlitKind) (step : Nat) (b : List Byte) : StepsKept s (s.sendKept slot dst k step b) := by
  have hkept : StepsKept s (s.updJob slot fun j => { j with retained := j.retained ++ [{ dst := dst, kind := k.code, step := step, bytes := b }] }) :=
    s.updJob_stepsKept slot (fun j => { j with retained := j.retained ++ [{ dst := dst, kind := k.code, step := step, bytes := b }] }) (fun _ => rfl) fun _ => rfl
  unfold State.sendKept
  dsimp only
  split
  · exact hkept
  · exact hkept.trans (State.send_sends ..).stepsKept

theorem State.broadcastFrom_stepsKept (s : State) (slot t step at' written : Nat) : StepsKept s (s.broadcastFrom slot t step at' written) := by
  unfold State.broadcastFrom
  split
  · exact .refl s
  split
  · exact .refl s
  · exact .foldl _ _ _ fun s d => s.sendKept_stepsKept ..

theorem State.touchRows_stepsKept (s : State) (slot step id : Nat) : StepsKept s (s.touchRows slot step id) := by
  have hrows : RowsOnly s (s.touchRows slot step id) := by
    unfold State.touchRows
    split
    · split
      · exact .refl s
      · exact .foldl _ _ _ fun s r => s.writeRow_rowsOnly ..
    · exact .refl s
  exact hrows.stepsKept ((State.touchRows_only ..).eq .fabric rfl)

/-- Where no message of a peer waits, trying them again does nothing (R33). -/
theorem State.serveWaiting_of_none {s : State} (h : s.fabric.requests = []) : s.serveWaiting = s := by
  unfold State.serveWaiting
  rw [h]
  exact congrArg (fun l => { s with fabric := { s.fabric with requests := l } }) h.symm

/-! ### The release -/

/-- A layer's update at its end. -/
def LayerUpdate.ended (l : LayerUpdate) : LayerUpdate := { l with released := true, orth := [] }

/-- A step with a layer released: the ledgers of its units' gradients are freed (R219). -/
def StepRec.freed (layer : Nat) (gone : List (Nat × Nat)) (x : StepRec) : StepRec :=
  { x with updates := x.updates.map fun l => if l.layer = layer then l.ended else l
           ledgers := x.ledgers.map fun l => if gone.contains (l.space, l.id) then { l with rows := [] } else l }

theorem StepRec.freed_layers (layer : Nat) (gone : List (Nat × Nat)) (x : StepRec) : (x.freed layer gone).updates.map (·.layer) = x.updates.map (·.layer) := by
  unfold StepRec.freed
  rw [List.map_map]
  refine List.map_congr_left fun l _ => ?_
  simp only [Function.comp_apply]
  split <;> rfl

theorem StepRec.freed_released (layer : Nat) (gone : List (Nat × Nat)) (x : StepRec) : ∀ m ∈ (x.freed layer gone).updates, m.layer = layer → m.released = true := by
  intro m hm hlayer
  obtain ⟨l, -, rfl⟩ := List.mem_map.1 hm
  by_cases h : l.layer = layer
  · rw [if_pos h]
    rfl
  · rw [if_neg h] at hlayer
    exact absurd hlayer h

/-- A ledger of a released layer is found empty, any other as it was. -/
theorem StepRec.freed_ledger? (layer : Nat) (gone : List (Nat × Nat)) (x : StepRec) (g : Nat × Nat) :
    (x.freed layer gone).ledger? g.1 g.2 = (x.ledger? g.1 g.2).map fun l => if gone.contains g then { l with rows := [] } else l := by
  unfold StepRec.ledger? StepRec.freed
  dsimp only
  rw [List.find?_map]
  have hcomp : ((fun l : Ledger => l.space == g.1 && l.id == g.2) ∘ fun l => if gone.contains (l.space, l.id) then { l with rows := [] } else l) =
      fun l => l.space == g.1 && l.id == g.2 := by
    funext l
    simp only [Function.comp_apply]
    split <;> rfl
  rw [hcomp]
  cases hl : x.ledgers.find? fun l => l.space == g.1 && l.id == g.2 with
  | none => rfl
  | some l =>
    have hkey : (l.space, l.id) = g := by
      have hfound := List.find?_some hl
      simp only [Bool.and_eq_true, beq_iff_eq] at hfound
      exact Prod.ext hfound.1 hfound.2
    rw [Option.map_some, Option.map_some, hkey]

/-- An `UPDATE` of a step is in flight on some tile. -/
def State.updating (s : State) (slot step : Nat) : Bool :=
  s.tileUnits.any fun u => u.works.any fun w => w.id.slot == slot && w.id.step == step && w.flying.any fun i => i.kind == 0x0A

theorem State.updating_iff (s : State) (slot step : Nat) : s.updating slot step = true ↔
    ∃ u ∈ s.tileUnits, ∃ w ∈ u.works, w.id.slot = slot ∧ w.id.step = step ∧ ∃ i ∈ w.flying, i.kind = 0x0A := by
  simp only [State.updating, List.any_eq_true, Bool.and_eq_true, beq_iff_eq, and_assoc]

/-- A layer released: its step as it stands then, touch counters, and the working copies on their way. -/
def State.releaseLayer (s : State) (slot step layer : Nat) (us : List Unit') (gone : List (Nat × Nat)) (j : Job) : State :=
  (us.foldl (fun s u => match j.param? u.id with
      | some p => if u.kind = 0 then s.broadcastFrom slot u.id step (pRecOwner p.rec') 0 else s
      | none => s)
    (us.foldl (fun s u => if u.kind = 1 then s.touchRows slot step u.id else s) (s.updStep slot step (StepRec.freed layer gone)))).serveWaiting

theorem State.releaseLayer_stepsKept {s : State} (hnone : s.fabric.requests = []) (slot step layer : Nat) (us : List Unit') (gone : List (Nat × Nat)) (j : Job) :
    StepsKept (s.updStep slot step (StepRec.freed layer gone)) (s.releaseLayer slot step layer us gone j) := by
  have htouch (t : State) (u : Unit') : StepsKept t (if u.kind = 1 then t.touchRows slot step u.id else t) := by
    split
    · exact t.touchRows_stepsKept ..
    · exact .refl t
  have hcopy (t : State) (u : Unit') : StepsKept t (match j.param? u.id with
      | some p => if u.kind = 0 then t.broadcastFrom slot u.id step (pRecOwner p.rec') 0 else t
      | none => t) := by
    split
    · split
      · exact t.broadcastFrom_stepsKept ..
      · exact .refl t
    · exact .refl t
  have hall := (StepsKept.foldl _ us (s.updStep slot step (StepRec.freed layer gone)) htouch).trans (.foldl _ us _ hcopy)
  unfold State.releaseLayer
  rw [State.serveWaiting_of_none (hall.requests.trans hnone)]
  exact hall

section
variable {s : State} {slot step layer : Nat} {j : Job} {x : StepRec} {l : LayerUpdate} (hj : s.job? slot = some j) (hx : j.step? step = some x)
  (hl : x.updates.find? (fun l => l.layer == layer && !l.released) = some l)
include hj hx hl

theorem State.exec_layerRelease : exec (.layerRelease slot step layer) s = .next (
    if (s.layerUnits j x layer).all (j.unitDone x l) && !s.updating slot step
    then s.releaseLayer slot step layer (s.layerUnits j x layer) ((s.layerUnits j x layer).filterMap (j.unitGrad x)) j else s) := by
  change execLayerRelease slot step layer s = _
  unfold execLayerRelease
  rw [hj, State.step?_of_job hj, hx]
  dsimp only
  rw [hl]
  rfl

end

theorem layersAreReleased : Claims.LayersAreReleased := by
  intro s slot step layer j x l hj hx hl us flying
  have hexec := State.exec_layerRelease hj hx hl
  refine ⟨fun h => ?_, fun hidle hdone hnone => ?_⟩
  · refine hexec.trans (congrArg Host.Outcome.next (if_neg fun hready => ?_))
    obtain ⟨hall, hnot⟩ := Bool.and_eq_true_iff.1 hready
    obtain hfly | ⟨u, hu, hpart⟩ := h
    · rw [(s.updating_iff slot step).2 hfly] at hnot
      exact Bool.false_ne_true hnot
    · exact Bool.false_ne_true (hpart.symm.trans (List.all_eq_true.1 hall u hu))
  · have hready : (us.all (j.unitDone x l) && !s.updating slot step) = true := by
      rw [Bool.and_eq_true, Bool.not_eq_true', Bool.eq_false_iff]
      exact ⟨List.all_eq_true.2 hdone, fun h => hidle ((s.updating_iff slot step).1 h)⟩
    refine ⟨_, hexec.trans (congrArg Host.Outcome.next (if_pos hready)), x.freed layer (us.filterMap (j.unitGrad x)), ?_, x.freed_layers .., x.freed_released _ _,
      fun g hg m hm => ?_, fun g hg => ?_⟩
    · rw [(State.releaseLayer_stepsKept hnone ..).steps, State.step?_of_job (State.job?_updStep hj ..)]
      exact Job.step?_withStep_self hx _ fun _ => rfl
    · rw [x.freed_ledger?] at hm
      obtain ⟨n, -, rfl⟩ := Option.map_eq_some_iff.1 hm
      rw [if_pos (List.contains_iff_mem.2 hg)]
    · have hout : (us.filterMap (j.unitGrad x)).contains g = false := by simpa using hg
      rw [x.freed_ledger?, hout]
      exact Option.map_id' ..

/-- Settles O57: what a layer's update changes of its step, said for its start, its parts and its release. -/
theorem layersUpdate : Obligations.LayersUpdate := ⟨updatesStart, updatesTakeTheirPart, layersAreReleased⟩

end Sys2Proof.Machine
end

section
/-!
The binding of a step at its acceptance, and of one taken from a log that is replayed (R24, R28, R29, R38, R283, R372).
-/
namespace Sys2Proof.Machine
open Sys2Proof

/-! ### What takes effect before a step is bound -/

/-- A job but for its body and its log. -/
def Job.unlogged (j : Job) : Job := { j.shell with log := [], logEnd := 0 }

/-- The job in a slot has changed in its body, and its log has grown. -/
structure GrowsLog (slot : Nat) (s t : State) : Prop where
  job : ∀ j, s.job? slot = some j → ∃ k, t.job? slot = some k ∧ k.unlogged = j.unlogged ∧ j.log <+: k.log

theorem GrowsLog.refl (slot : Nat) (s : State) : GrowsLog slot s s := ⟨fun j hj => ⟨j, hj, rfl, List.prefix_rfl⟩⟩

theorem GrowsLog.trans {slot : Nat} {s t u : State} (h : GrowsLog slot s t) (g : GrowsLog slot t u) : GrowsLog slot s u := by
  refine ⟨fun j hj => ?_⟩
  obtain ⟨k, hk, hsame, hlog⟩ := h.job j hj
  obtain ⟨i, hi, hsame', hlog'⟩ := g.job k hk
  exact ⟨i, hi, hsame'.trans hsame, hlog.trans hlog'⟩

theorem ShellsKept.growsLog {s t : State} (h : ShellsKept s t) (slot : Nat) : GrowsLog slot s t := by
  refine ⟨fun j hj => ?_⟩
  obtain ⟨k, hk, hshell⟩ := h.job hj
  exact ⟨k, hk, congrArg (fun i : Job => { i with log := [], logEnd := 0 }) hshell, (Job.eq_of_shell hshell Job.log fun _ => rfl) ▸ List.prefix_rfl⟩

theorem Logged.isPrefix {j k : Job} {kind mb step accept : Nat} {body : List Byte} (h : Logged j k kind mb step accept body) : j.log <+: k.log := by
  unfold Logged at h
  split at h
  · rw [h]
  · obtain ⟨z, hz, -⟩ := h
    rw [hz]
    exact List.prefix_append ..

theorem State.logRecord_growsLog (s : State) (slot : Nat) {kind : Nat} (hkind : kind ≠ 1) (mb step accept : Nat) (body : List Byte) :
    GrowsLog slot s (s.logRecord slot kind 0 mb step accept body) := by
  refine ⟨fun j hj => ?_⟩
  obtain ⟨k, l, e, hk, rfl, hlogged⟩ := State.job?_logRecord hj hkind mb step accept body
  exact ⟨_, hk, rfl, hlogged.isPrefix⟩

theorem State.runDeferredPublishes_growsLog (s : State) (slot accept : Nat) : GrowsLog slot s (s.runDeferredPublishes slot accept) := by
  unfold State.runDeferredPublishes
  split
  · exact .refl slot s
  · refine GrowsLog.trans ?_ ((State.retireEditions_shells ..).growsLog slot)
    refine List.foldlRecOn (motive := fun t => GrowsLog slot s t) _ _ (.refl slot s) fun t ht a _ => ht.trans ?_
    have hpublish (c : Prop) [Decidable c] :
        GrowsLog slot t (if c then (t.publish slot a.id).logRecord slot 0x0A 0 0 0 accept (toLE 8 accept) else t) := by
      split
      · exact ((t.publish_shells slot a.id).growsLog slot).trans ((t.publish slot a.id).logRecord_growsLog slot (by decide) ..)
      · exact .refl slot t
    exact hpublish _

/-- A job with the freezes of its watch made (R223). -/
def Job.frozen (j : Job) : Job :=
  j.body.freezes.foldl (fun (j : Job) g =>
    let w := (j.group g).w
    if bit w 8 then j else j.setEntry (groupKey g).1 (groupKey g).2 (.blk (toLE 64 (w + 256)))) j

theorem Job.frozen_shell (j : Job) : j.frozen.shell = j.shell := by
  refine List.foldlRecOn (motive := fun k : Job => k.shell = j.shell) _ _ rfl fun k hk g _ => ?_
  dsimp only
  split
  · exact hk
  · exact hk

theorem State.runFreezes_growsLog (s : State) (slot : Nat) : GrowsLog slot s (s.runFreezes slot) := by
  refine ⟨fun j hj => ?_⟩
  let freeze (j : Job) : Job := { j.frozen with body := { j.frozen.body with freezes := [] } }
  have hshell (j : Job) : (freeze j).shell = j.shell := j.frozen_shell
  have hslot (j : Job) : (freeze j).slot = j.slot := Job.eq_of_shell (hshell j) Job.slot fun _ => rfl
  refine ⟨freeze j, State.job?_updJob_of hj freeze hslot, congrArg (fun i : Job => { i with log := [], logEnd := 0 }) (hshell j), ?_⟩
  rw [Job.eq_of_shell (hshell j) Job.log fun _ => rfl]

/-- The state in which a step is bound: publishes and freezes that its acceptance lets take effect have done so (R30, R136, R223). -/
def State.beforeStep (s : State) (slot accept : Nat) : State := (s.runDeferredPublishes slot accept).runFreezes slot

theorem State.beforeStep_growsLog (s : State) (slot accept : Nat) : GrowsLog slot s (s.beforeStep slot accept) :=
  (s.runDeferredPublishes_growsLog slot accept).trans (State.runFreezes_growsLog ..)

theorem State.beforeStep_only (s : State) (slot accept : Nat) : Only [.jobs, .tiers, .draws] s (s.beforeStep slot accept) :=
  (s.runDeferredPublishes_only slot accept).trans ((State.runFreezes_only ..).mono (by decide))

theorem Job.eq_of_unlogged {α : Type} {i j : Job} (h : i.unlogged = j.unlogged) (g : Job → α) (hg : ∀ j : Job, g j.unlogged = g j) : g i = g j := by
  rw [← hg i, h, hg]

/-! ### A step of a replayed log (R38, R372) -/

/-- What a replayed log gives a step besides its binding: rungs and windows it begins with. -/
def StepRec.withLog (x : StepRec) (cs : List LayerCheck) (ls : List Ledger) : StepRec := { x with checks := cs, ledgers := ls }

/-- The step of the Deposit whose binding a replayed step takes (R372). -/
def Job.boundBy (j : Job) (n : Nat) : Option StepRec := if j.filling then j.deposit.bind fun d => d.steps.find? fun y => y.num == n else none

theorem StepRec.replayed_unbound {x : StepRec} {j : Job} (h : j.boundBy x.num = none) : ∃ cs ls, x.replayed j = x.withLog cs ls := by
  unfold Job.boundBy at h
  unfold StepRec.replayed
  rw [h]
  exact ⟨_, _, rfl⟩

theorem StepRec.replayed_bound {x y : StepRec} {j : Job} (h : j.boundBy x.num = some y) :
    ∃ cs ls, x.replayed j = { x with bind := y.bind, editions := y.editions, roles := y.roles }.withLog cs ls := by
  unfold Job.boundBy at h
  unfold StepRec.replayed
  rw [h]
  exact ⟨_, _, rfl⟩

/-- Replaying keeps what a step is given by its command. -/
theorem StepRec.replayed_given (x : StepRec) (j : Job) : (x.replayed j).num = x.num ∧ (x.replayed j).seeds = x.seeds := by
  cases h : j.boundBy x.num with
  | none =>
    obtain ⟨cs, ls, hx⟩ := StepRec.replayed_unbound h
    rw [hx]
    exact ⟨rfl, rfl⟩
  | some y =>
    obtain ⟨cs, ls, hx⟩ := StepRec.replayed_bound h
    rw [hx]
    exact ⟨rfl, rfl⟩

/-! ### The step is bound (R29, R283) -/

/-- A job with a step accepted: the next step number follows it (R283). -/
def Job.withNext (j : Job) (x : StepRec) : Job := { j with steps := j.steps ++ [x], body := { j.body with nextStep := x.num + 1 } }

/-- The step is bound, its scales are fixed and its binding is logged (R29, R201, R359). -/
def State.bindStep (s : State) (slot : Nat) (j : Job) (x : StepRec) : State :=
  ((s.updJob slot fun j => j.withNext x).bindScales slot x.num).logRecord slot 3 0 0 x.num x.accept (bindingBody j.steps.getLast? x)

/-- What a job has become with a step bound: its watches have changed besides, and its log. -/
structure Job.Binds (j k : Job) (x : StepRec) : Prop where
  steps : k.steps = j.steps ++ [x]
  accepted : k.accepted = j.accepted
  next : k.body.nextStep = x.num + 1
  dict : k.body.dict = j.body.dict
  tables : k.body.tables = j.body.tables
  decisions : k.decisions = j.decisions
  log : j.log <+: k.log

theorem State.bindStep_only (s : State) (slot : Nat) (j : Job) (x : StepRec) : Only [.jobs] s (s.bindStep slot j x) :=
  ((State.updJob_only ..).trans (State.bindScales_only ..)).trans (State.logRecord_only ..)

/-- A job with its histories cut to a step's length and its exponents fixed (R201, R202). -/
def Job.boundScales (j : Job) (step : Nat) : Job :=
  let h := ((j.step? step).map fun x => x.num' 0x5110 1).getD 16
  let fix (w : Watch) : Watch :=
    if !(j.steps.filter fun y => decide (y.num < step)).all fun y => y.scaled.contains w.tensor then w else
    let hist := w.history.drop (w.history.length - h)
    let f := ElemType.top (((j.tensor? w.tensor).map tRecType).getD .fp32)
    let last := if step = 0 then 0 else j.exp w.tensor (step - 1)
    { w with history := hist, exps := w.exps.map fun p => if p.1 = step then (p.1, exponentOf hist h f last) else p }
  { j with body := { j.body with watches := j.body.watches.map fix } }

theorem State.bindStep_binds {s : State} {slot : Nat} {j : Job} (hj : s.job? slot = some j) (x : StepRec) :
    ∃ k, (s.bindStep slot j x).job? slot = some k ∧ j.Binds k x ∧
      ((∀ r ∈ j.decisions, r.step ≠ x.num) → ∃ r, k.log.getLast? = some r ∧ r.kind = 3 ∧ r.step = x.num) := by
  have hnext : (s.updJob slot fun j => j.withNext x).job? slot = some (j.withNext x) := State.job?_updJob_of hj (fun j => j.withNext x) fun _ => rfl
  have hscales : ((s.updJob slot fun j => j.withNext x).bindScales slot x.num).job? slot = some ((j.withNext x).boundScales x.num) :=
    State.job?_updJob_of hnext (fun j => j.boundScales x.num) fun _ => rfl
  obtain ⟨k, l, e, hk, rfl, hlogged⟩ := State.job?_logRecord hscales (show 3 ≠ 1 by decide) 0 x.num x.accept (bindingBody j.steps.getLast? x)
  refine ⟨_, hk, ⟨rfl, rfl, rfl, rfl, rfl, rfl, hlogged.isPrefix⟩, fun hnew => ?_⟩
  have hfresh : ¬ (((j.withNext x).boundScales x.num).decisions.any fun r =>
      r.kind == 3 && r.mb == 0 && r.step == x.num && r.accept == x.accept && r.body == bindingBody j.steps.getLast? x) = true := by
    intro hany
    obtain ⟨r, hr, h⟩ := List.any_eq_true.1 hany
    simp only [Bool.and_eq_true, beq_iff_eq] at h
    obtain ⟨⟨⟨-, hstep⟩, -⟩, -⟩ := h
    exact hnew r hr hstep
  unfold Logged at hlogged
  rw [if_neg hfresh] at hlogged
  obtain ⟨z, hz, hkind, -, hstep, -⟩ := hlogged
  exact ⟨z, by rw [hz]; exact List.getLast?_concat .., hkind, hstep⟩

/-- The rises of a replayed step leave its job's steps and index (Table 02-3). -/
theorem State.replayRises_shell {s : State} {slot : Nat} {k : Job} (hk : s.job? slot = some k) (step : Nat) :
    ∃ i, (s.replayRises slot step).job? slot = some i ∧ i.shell = k.shell := by
  have hrise (t : State) (code index sub a b c : Nat) : ShellsKept t ((t.raiseJob code slot step a b c).count slot step index sub 1) := by
    refine ShellsKept.trans (t := t.raiseJob code slot step a b c) (.of_jobs ((State.raiseJob_only ..).eq .jobs rfl)) ?_
    exact State.updBody_shells _ _ fun b => { b with counters := aUpd b.counters (step, entryKey index sub) 0 (· + 1) }
  have hshells : ShellsKept s (s.replayRises slot step) := by
    unfold State.replayRises
    rw [hk]
    exact (ShellsKept.foldl _ _ _ fun t r => hrise t ..).trans (.foldl _ _ _ fun t r => hrise t ..)
  exact hshells.job hk

/-- A step of which nothing is logged rises in nothing. -/
theorem State.replayRises_none {s : State} {slot step : Nat} {k : Job} (hk : s.job? slot = some k) (h : ∀ r ∈ k.decisions, r.step ≠ step) :
    s.replayRises slot step = s := by
  have hnone (kind : Nat) : k.logged kind step = [] := by
    unfold Job.logged
    rw [List.filter_eq_nil_iff]
    intro r hr
    simp [h r hr]
  unfold State.replayRises
  rw [hk]
  dsimp only
  rw [hnone, hnone]
  rfl

/-- What submitting a step does once its command is accepted (R283). -/
theorem State.submit_effect {u : State} (slot accept : Nat) (j1 : Job) (f : InFlight) (hnone : u.fabric.requests = []) :
    let x := ((u.beforeStep slot accept).newStep j1 f).replayed j1
    (((((u.beforeStep slot accept).updJob slot fun j => { j with steps := j.steps ++ [x], body := { j.body with nextStep := x.num + 1 } }).bindScales slot x.num).logRecord
      slot 3 0 0 x.num x.accept (bindingBody j1.steps.getLast? x)).replayRises slot x.num).serveWaiting =
      ((u.beforeStep slot accept).bindStep slot j1 x).replayRises slot x.num := by
  intro x
  let v := (u.beforeStep slot accept).bindStep slot j1 x
  have hbound : Only [.jobs] (u.beforeStep slot accept) v := State.bindStep_only ..
  have hfabric : (v.replayRises slot x.num).fabric = u.fabric :=
    ((State.replayRises_only ..).eq .fabric rfl).trans ((hbound.eq .fabric rfl).trans ((State.beforeStep_only ..).eq .fabric rfl))
  exact State.serveWaiting_of_none (s := v.replayRises slot x.num) (by rw [hfabric, hnone])

/-- A step is bound where its command is taken by its job (R283). -/
theorem exec_stepSubmit_of {s u : State} {q slot : Nat} {g : InFlight} {j1 : Job}
    (hrun : ∀ effect, s.runCommand q 0x20 (fun _ => true) State.submitBads effect = effect u g) (hslot : g.job = some slot)
    (hj1 : (u.beforeStep slot (g.accept.getD 0)).job? slot = some j1) (hnone : u.fabric.requests = []) :
    exec (.stepSubmit q) s = .next (((u.beforeStep slot (g.accept.getD 0)).bindStep slot j1
      (((u.beforeStep slot (g.accept.getD 0)).newStep j1 g).replayed j1)).replayRises slot g.cmd.step) := by
  have hnum : (((u.beforeStep slot (g.accept.getD 0)).newStep j1 g).replayed j1).num = g.cmd.step := (StepRec.replayed_given ..).1
  change execStepSubmit q s = _
  unfold execStepSubmit
  rw [hrun, hslot]
  change Host.Outcome.next (match (u.beforeStep slot (g.accept.getD 0)).job? slot with | none => _ | some j => _) = _
  rw [hj1, ← hnum]
  exact congrArg Host.Outcome.next (State.submit_effect slot (g.accept.getD 0) j1 g hnone)

/-! ### A step of the host (R283) -/

theorem State.jobRoles_dict {s t : State} (h : t.dict = s.dict) (slot : Nat) : t.jobRoles slot = s.jobRoles slot := by
  unfold State.jobRoles State.roleWord State.num State.entry
  rw [h]

/-- A step that passes its checks is the next of its job (R278). -/
theorem State.step_of_submitBads {s : State} {f : InFlight} {j : Job} (hj : s.jobOf f = some j) (h : s.submitBads f = []) : f.cmd.step = j.body.nextStep := by
  unfold State.submitBads at h
  rw [hj] at h
  dsimp only at h
  split at h
  · cases h
  split at h
  · cases h
  simp only [List.append_eq_nil_iff, need_eq_nil, beq_iff_eq] at h
  tauto

theorem stepSubmitBinds {s : State} {q : Nat} {f : InFlight} {j : Job} (h : s.Ready q 0x20 f j) (hbads : s.submitBads f = []) (hnone : s.fabric.requests = [])
    (hfill : j.filling = false) (hnew : ∀ r ∈ j.decisions, r.step ≠ f.cmd.step) :
    Runs (.stepSubmit q) s fun t => ∃ k x, t.job? j.slot = some k ∧ k.steps = j.steps ++ [x] ∧ k.accepted = j.accepted + 1 ∧
      k.body.nextStep = f.cmd.step + 1 ∧ f.cmd.step = j.body.nextStep ∧ s.commandRecord j f ∈ k.log ∧
      x.num = f.cmd.step ∧ x.accept = j.accepted + 1 ∧ x.asker = f.asker ∧ x.seeds = submitSeeds f.cmd.payload ∧
      x.editions = k.body.tables.map (fun a => (a.id, a.edition)) ∧ x.bind = k.body.dict ∧ x.roles = s.jobRoles j.slot ∧
      (∃ r, k.log.getLast? = some r ∧ r.kind = 3 ∧ r.step = x.num) ∧
      t.inFlight? f.cmd.session f.cmd.queue f.cmd.seq = some { f with stage := .waiting, accept := some (j.accepted + 1), logged := false } := by
  let u := s.begun f
  let g := f.taken (some j)
  let v := u.beforeStep j.slot (j.accepted + 1)
  obtain ⟨j1, hj1, hsame, hlog⟩ := (u.beforeStep_growsLog j.slot (j.accepted + 1)).job _ h.begun
  have hkept {α : Type} (p : Job → α) (hp : ∀ j : Job, p j.unlogged = p j) : p j1 = p (j.accepting (s.commandRecord j f)) := Job.eq_of_unlogged hsame p hp
  have hfill1 : j1.filling = false := (hkept Job.filling fun _ => rfl).trans hfill
  have hdecisions : j1.decisions = j.decisions := hkept Job.decisions fun _ => rfl
  obtain ⟨cs, ls, hx⟩ := StepRec.replayed_unbound (x := v.newStep j1 g) (j := j1) (by unfold Job.boundBy; rw [hfill1]; rfl)
  have hrun (effect : State → InFlight → State) : s.runCommand q 0x20 (fun _ => true) State.submitBads effect = effect u g := by
    rw [State.runCommand_front h.asFront rfl hbads, h.job]
  have hexec := exec_stepSubmit_of hrun h.slot.1 hj1 ((congrArg Fabric.requests ((s.begun_only f).eq .fabric rfl)).trans hnone)
  obtain ⟨k, hk, hbinds, hlast⟩ := State.bindStep_binds hj1 ((v.newStep j1 g).replayed j1)
  have hnum : ((v.newStep j1 g).replayed j1).num = f.cmd.step := (StepRec.replayed_given ..).1
  obtain ⟨hsteps, haccepted, hnext, hdict, htables, hdec, hgrown⟩ := hbinds
  have hquiet := State.replayRises_none hk (step := f.cmd.step) (by rw [hdec, hdecisions]; exact hnew)
  have hbound : Only [.jobs, .tiers, .draws] u ((u.beforeStep j.slot (j.accepted + 1)).bindStep j.slot j1 ((v.newStep j1 g).replayed j1)) :=
    (u.beforeStep_only ..).trans ((State.bindStep_only ..).mono (by decide))
  refine ⟨_, hexec.trans (congrArg Host.Outcome.next hquiet), k, _, hk, hsteps.trans (congrArg (· ++ _) (hkept Job.steps fun _ => rfl)),
    haccepted.trans (hkept Job.accepted fun _ => rfl), hnext.trans (congrArg (· + 1) hnum), State.step_of_submitBads h.job hbads, ?_, hnum, by rw [hx]; rfl,
    by rw [hx]; rfl, by rw [hx]; rfl, by rw [hx, htables]; rfl, by rw [hx, hdict]; rfl, ?_, ?_, ?_⟩
  · exact (hlog.trans hgrown).subset (List.mem_append_right _ (List.mem_singleton.2 rfl))
  · rw [hx]
    refine (congrArg v.jobRoles (hkept Job.slot fun _ => rfl)).trans ?_
    exact State.jobRoles_dict (t := v) (((u.beforeStep_only ..).eq .dict rfl).trans ((s.begun_only f).eq .dict rfl)) j.slot
  · exact hlast (by rw [hdecisions, hnum]; exact hnew)
  · rw [State.inFlight?_port (congrArg Port.inFlight (hbound.eq .port rfl)), State.inFlight?_begun h.sent h.mem, h.job]
    rfl

/-! ### A step of a replayed log (R372) -/

theorem State.job?_releaseReplay {s : State} {slot : Nat} {k : Job} (hk : s.job? slot = some k) :
    ∃ r, (s.releaseReplay slot).job? slot = some { k with replay := r } := by
  have hset (r : List LogRec) : (s.updJob slot fun j => { j with replay := r }).job? slot = some { k with replay := r } :=
    State.job?_updJob_of hk (fun j => { j with replay := r }) fun _ => rfl
  unfold State.releaseReplay
  rw [hk]
  dsimp only
  split
  · exact ⟨_, hset _⟩
  · split
    · exact ⟨_, hset _⟩
    · exact ⟨_, hset _⟩

section
variable {s : State} {f : InFlight} {j : Job} (hreplayed : f.replayed = true) (hj : f.job.bind s.job? = some j)
include hreplayed hj

/-- A command of a log takes its own index again, and the next one of the log follows it (R372). -/
theorem State.job?_begun_replayed : ∃ r, (s.begun f).job? j.slot = some { j with accepted := max j.accepted (f.accept.getD 0), replay := r } := by
  obtain ⟨-, hs⟩ := State.slot_of_bind hj
  let u := (s.updJob j.slot fun j => { j with accepted := max j.accepted (f.accept.getD 0) }).updInFlight f.cmd.session f.cmd.queue f.cmd.seq
    fun _ => { f with stage := .waiting }
  have hu : u.job? j.slot = some { j with accepted := max j.accepted (f.accept.getD 0) } :=
    State.job?_updJob_of hs (fun j => { j with accepted := max j.accepted (f.accept.getD 0) }) fun _ => rfl
  have hbegun : s.begun f = u.releaseReplay j.slot := by
    unfold State.begun State.accept
    dsimp only
    rw [hj]
    dsimp only
    rw [if_pos hreplayed]
  rw [hbegun]
  exact State.job?_releaseReplay hu

theorem State.accept_replayed (r : Option (Nat × List Byte)) : (s.accept { f with stage := .waiting } r).2 = { f with stage := .waiting } := by
  unfold State.accept
  dsimp only
  rw [hj]
  dsimp only
  rw [if_pos hreplayed]

end

/-- A command of a log that stands first on its queue is taken without a check (R372). -/
theorem State.runCommand_replayed {s : State} {q opcode : Nat} {f : InFlight} {j : Job} (hfront : s.arrivedOn q opcode = some f) (hreplayed : f.replayed = true)
    (hj : f.job.bind s.job? = some j) {form : Command → Bool} (hform : form f.cmd = true) (check : State → InFlight → List Bad) (effect : State → InFlight → State) :
    s.runCommand q opcode form check effect = effect (s.begun f) { f with stage := .waiting } := by
  have haccept := State.accept_replayed hreplayed hj (some (1, f.cmd.payload))
  unfold State.runCommand State.runLogged
  rw [hfront]
  dsimp only
  rw [if_pos hform, if_pos hreplayed]
  dsimp only
  rw [haccept]
  rfl

theorem stepSubmitReplays {s : State} {q : Nat} {f : InFlight} {j : Job} (hfront : s.arrivedOn q 0x20 = some f) (hreplayed : f.replayed = true)
    (hj : f.job.bind s.job? = some j) (hfill : j.filling = true) (hnone : s.fabric.requests = []) :
    Runs (.stepSubmit q) s fun t => ∃ k x, t.job? j.slot = some k ∧ k.steps = j.steps ++ [x] ∧ x.num = f.cmd.step ∧ x.seeds = submitSeeds f.cmd.payload ∧
      k.accepted = max j.accepted (f.accept.getD 0) ∧
      ∀ d y, j.deposit = some d → d.steps.find? (fun z => z.num == f.cmd.step) = some y → x.bind = y.bind ∧ x.editions = y.editions ∧ x.roles = y.roles := by
  let u := s.begun f
  let g : InFlight := { f with stage := .waiting }
  let v := u.beforeStep j.slot (f.accept.getD 0)
  obtain ⟨r, hbegun⟩ := State.job?_begun_replayed hreplayed hj
  obtain ⟨j1, hj1, hsame, -⟩ := (u.beforeStep_growsLog j.slot (f.accept.getD 0)).job _ hbegun
  have hkept {α : Type} (p : Job → α) (hp : ∀ j : Job, p j.unlogged = p j) := Job.eq_of_unlogged hsame p hp
  have hexec := exec_stepSubmit_of (fun effect => State.runCommand_replayed hfront hreplayed hj rfl State.submitBads effect) (State.slot_of_bind hj).1 hj1
    ((congrArg Fabric.requests ((s.begun_only f).eq .fabric rfl)).trans hnone)
  obtain ⟨k, hk, hbinds, -⟩ := State.bindStep_binds hj1 ((v.newStep j1 g).replayed j1)
  obtain ⟨i, hi, hshell⟩ := State.replayRises_shell hk f.cmd.step
  obtain ⟨hnum, hseeds⟩ := StepRec.replayed_given (v.newStep j1 g) j1
  refine ⟨_, hexec, i, _, hi, ?_, hnum, hseeds, ?_, fun d y hd hy => ?_⟩
  · exact (Job.eq_of_shell hshell Job.steps fun _ => rfl).trans (hbinds.steps.trans (congrArg (· ++ _) (hkept Job.steps fun _ => rfl)))
  · exact (Job.eq_of_shell hshell Job.accepted fun _ => rfl).trans (hbinds.accepted.trans (hkept Job.accepted fun _ => rfl))
  · have hbound : j1.boundBy (v.newStep j1 g).num = some y := by
      unfold Job.boundBy
      rw [if_pos ((hkept Job.filling fun _ => rfl).trans hfill), (hkept Job.deposit fun _ => rfl).trans hd]
      exact hy
    obtain ⟨cs, ls, hx⟩ := StepRec.replayed_bound hbound
    rw [show (v.newStep j1 g).replayed j1 = _ from hx]
    exact ⟨rfl, rfl, rfl⟩

theorem stepsAreBoundWhenAccepted : Claims.StepsAreBoundWhenAccepted :=
  ⟨fun _ _ _ _ h hbads hnone hfill hnew => stepSubmitBinds h hbads hnone hfill hnew,
    fun _ _ _ _ hfront hreplayed hj hfill hnone => stepSubmitReplays hfront hreplayed hj hfill hnone⟩

end Sys2Proof.Machine
end

section
/-!
A step's results: reading, releasing, and the answers of a step that has none yet (R286).
-/
namespace Sys2Proof.Machine
open Sys2Proof

section
variable {s : State} {q opcode : Nat} {f : InFlight} {j : Job} (h : s.Ready q opcode f j)
include h

/-- The job that a command serves once it is accepted. -/
theorem State.Ready.jobOf_begun : (s.begun f).jobOf (f.taken (some j)) = some (j.accepting (s.commandRecord j f)) := by
  change f.job.bind (s.begun f).job? = _
  rw [h.slot.1]
  exact h.begun

/-- A command that changes nothing of its job is answered with a hint of when to ask again (R278). -/
theorem State.Ready.notReady : ∃ n, 1 ≤ n ∧ n ≤ 1000000 ∧
    Accepted s ((s.begun f).notReady (f.taken (some j))) f j (j.accepting (s.commandRecord j f)) (.done .notReady [] n) := by
  let u : State := { s.begun f with draws := (s.begun f).draws + 1 }
  let n := retryHint (s.begun f).draws
  have hin : u.inFlight? f.cmd.session f.cmd.queue f.cmd.seq = some (f.taken (some j)) := by
    have hbegun := State.inFlight?_begun h.sent h.mem
    rw [h.job] at hbegun
    exact hbegun
  have hfinish : (s.begun f).notReady (f.taken (some j)) = u.updInFlight f.cmd.session f.cmd.queue f.cmd.seq fun g => { g with stage := .done .notReady [] n } :=
    State.finish_unlogged hin rfl .notReady [] n
  have hhint : 1 ≤ n ∧ n ≤ 1000000 := by
    have := Nat.mod_lt (Config.freeNat (s.begun f).draws) (show 0 < 1000000 by decide)
    exact ⟨Nat.le_add_left .., this⟩
  rw [hfinish]
  refine ⟨n, hhint.1, hhint.2, h.begun, rfl, rfl, fun r hr => h.others hr, ?_⟩
  rw [State.inFlight?_updInFlight u _ _ _ (fun g => { g with stage := .done .notReady [] n }) fun _ hg => hg, hin]
  rfl

end

section
variable {s : State} {q : Nat} {f : InFlight} {j : Job}

/-- A result some of whose bytes have been delivered. -/
def Result.marked (d : Nat × Nat) (r : Result) : Result := { r with delivered := r.delivered ++ [d] }

theorem resultReads (h : s.Ready q 0x22 f j) (hbads : s.resultBads f = []) {r : Result} (hr : j.result? f.cmd.step = some r) :
    let off := bits (leAt f.cmd.payload 0 16) 31 0
    let n := min (bits (leAt f.cmd.payload 0 16) 47 32) (r.image.length - off)
    Runs (.resultRead q) s fun t => ∃ k, (∃ u, k.result? f.cmd.step = some u ∧ u.image = r.image ∧ u.delivered = r.delivered ++ [(off, n)]) ∧
      Accepted s t f j k (.done (if r.delivered.any (fun d => decide (off < d.1 + d.2) && decide (d.1 < off + n)) then .okRepeat else .ok)
        (slice r.image off n) 0) := by
  intro off n
  let st : Status := if r.delivered.any (fun d => decide (off < d.1 + d.2) && decide (d.1 < off + n)) then .okRepeat else .ok
  let mark (b : JobBody) : JobBody := { b with results := b.results.map fun x => if x.step = r.step then x.marked (off, n) else x }
  have hstep : r.step = f.cmd.step := by simpa using List.find?_some (show j.body.results.find? _ = some r from hr)
  obtain ⟨k, hk, hbody⟩ := h.bodied mark st (slice r.image off n)
  have hexec : exec (.resultRead q) s = .next (((s.begun f).updBody j.slot mark).done (f.taken (some j)) st (slice r.image off n)) := by
    change execResultRead q s = _
    unfold execResultRead
    rw [State.runCommand_front h.asFront rfl hbads, h.job, h.jobOf_begun]
    dsimp only
    rw [show (j.accepting (s.commandRecord j f)).result? (f.taken (some j)).cmd.step = some r from hr]
    rfl
  refine ⟨_, hexec, k, ⟨r.marked (off, n), ?_, rfl, rfl⟩, hk⟩
  rw [← hstep] at hr ⊢
  rw [Job.result?, hbody]
  exact find?_map_update j.body.results Result.step r.step (Result.marked (off, n)) hr fun _ h => h

theorem resultReadWaits (h : s.Ready q 0x22 f j) (hbads : s.resultBads f = []) (hr : j.result? f.cmd.step = none) :
    Runs (.resultRead q) s fun t => ∃ k, k.body = j.body ∧
      if ((j.step? f.cmd.step).map (·.stalled)).getD false then Accepted s t f j k (.done .stalled [] 0)
      else ∃ n, 1 ≤ n ∧ n ≤ 1000000 ∧ Accepted s t f j k (.done .notReady [] n) := by
  have hexec : exec (.resultRead q) s = .next (if ((j.step? f.cmd.step).map (·.stalled)).getD false then (s.begun f).done (f.taken (some j)) .stalled []
      else (s.begun f).notReady (f.taken (some j))) := by
    change execResultRead q s = _
    unfold execResultRead
    rw [State.runCommand_front h.asFront rfl hbads, h.job, h.jobOf_begun]
    dsimp only
    rw [show (j.accepting (s.commandRecord j f)).result? (f.taken (some j)).cmd.step = none from hr]
    rfl
  refine ⟨_, hexec, j.accepting (s.commandRecord j f), rfl, ?_⟩
  split
  · exact h.done rfl h.begun rfl rfl (fun _ _ => rfl) .stalled []
  · exact h.notReady

theorem resultReleases (h : s.Ready q 0x23 f j) (hempty : f.cmd.payload = []) (hr : (j.result? f.cmd.step).isSome = true) :
    Runs (.resultRelease q) s fun t => ∃ k, Accepted s t f j k (.done .ok [] 0) ∧ k.result? f.cmd.step = none ∧
      ∀ n, n ≠ f.cmd.step → k.result? n = j.result? n := by
  let drop (b : JobBody) : JobBody := { b with results := b.results.filter fun r => r.step != f.cmd.step }
  obtain ⟨k, hk, hbody⟩ := h.bodied drop .ok []
  have hjob : s.jobOf f = some j := h.job
  have hexec : exec (.resultRelease q) s = .next (((s.begun f).updBody j.slot drop).done (f.taken (some j)) .ok []) := by
    change execResultRelease q s = _
    unfold execResultRelease
    rw [State.runCommand_front h.asFront rfl (by simp [hjob, hempty, Job.stepBad, hr, need]), h.job, h.jobOf_begun]
    exact congrArg Host.Outcome.next (if_pos hr)
  have hresult (n : Nat) : k.result? n = (j.body.results.filter fun r => r.step != f.cmd.step).find? fun r => r.step == n := by rw [Job.result?, hbody]
  refine ⟨_, hexec, k, hk, ?_, fun n hn => ?_⟩
  · rw [hresult, List.find?_filter]
    simp [List.find?_eq_none]
  · rw [hresult, List.find?_filter, Job.result?]
    congr 1
    funext r
    by_cases hr : r.step = n
    · simp [hr, hn]
    · simp [hr]

end

theorem resultsReadAndReleased : Claims.ResultsReadAndReleased :=
  fun _ _ _ _ => ⟨fun _ h hbads hr => resultReads h hbads hr, fun h hbads hr => resultReadWaits h hbads hr, fun h hempty hr => resultReleases h hempty hr⟩

end Sys2Proof.Machine
end

section
/-!
Annex rows supplied by the host, and the acknowledgement of a return (R99, R100, R284).
-/
namespace Sys2Proof.Machine
open Sys2Proof

/-! ### A command logged in a form of its own (R361) -/

/-- A record taken into a job's log changes the log alone, whatever its kind (R359). -/
theorem State.job?_logged {s : State} {slot : Nat} {j : Job} (hj : s.job? slot = some j) (kind opcode mb step accept : Nat) (body : List Byte) :
    ∃ l e, (s.logRecord slot kind opcode mb step accept body).job? slot = some { j with log := l, logEnd := e } := by
  unfold State.logRecord
  rw [State.job?_updJob_of hj _ fun k => by split <;> rfl]
  split
  · exact ⟨j.log, j.logEnd, rfl⟩
  · exact ⟨_, _, rfl⟩

section
variable {s : State} {q opcode : Nat} {f : InFlight} {j : Job} (h : s.Ready q opcode f j)
include h

/-- A command of the host that its job accepts, logged or not: its job has the next index, and its log may have a record more. -/
theorem State.Ready.accepts (r : Option (Nat × List Byte)) :
    (∃ l e, (s.accept { f with stage := .waiting } r).1.job? j.slot = some { j with accepted := j.accepted + 1, log := l, logEnd := e }) ∧
      (s.accept { f with stage := .waiting } r).2 = { f with stage := .waiting, accept := some (j.accepted + 1), logged := r.isNone } := by
  let g : InFlight := { f with stage := .waiting, accept := some (j.accepted + 1), logged := r.isNone }
  let u := (s.updJob j.slot fun k => { k with accepted := j.accepted + 1 }).updInFlight f.cmd.session f.cmd.queue f.cmd.seq fun _ => g
  have hu : u.job? j.slot = some { j with accepted := j.accepted + 1 } :=
    State.job?_updJob_of h.slot.2 (fun k => { k with accepted := j.accepted + 1 }) fun _ => rfl
  have haccept : s.accept { f with stage := .waiting } r =
      (match r with | some (k, b) => u.logRecord j.slot k (if k = 1 then f.cmd.opcode else 0) 0 f.cmd.step (j.accepted + 1) b | none => u, g) := by
    unfold State.accept
    dsimp only
    rw [h.job]
    dsimp only
    exact if_neg (by rw [h.sent]; exact Bool.false_ne_true)
  rw [haccept]
  refine ⟨?_, rfl⟩
  cases r with
  | none => exact ⟨j.log, j.logEnd, hu⟩
  | some p =>
    obtain ⟨l, e, hlog⟩ := State.job?_logged hu p.1 (if p.1 = 1 then f.cmd.opcode else 0) 0 f.cmd.step (j.accepted + 1) p.2
    exact ⟨l, e, hlog⟩

theorem State.Ready.runLogged {form : Command → Bool} {check : State → InFlight → List Bad} (rec' : State → InFlight → Option (Nat × List Byte))
    (effect : State → InFlight → State) (hform : form f.cmd = true) (hcheck : check s f = []) :
    s.runLogged q opcode form check rec' effect = effect (s.accept { f with stage := .waiting } (rec' s f)).1 (s.accept { f with stage := .waiting } (rec' s f)).2 := by
  unfold State.runLogged
  rw [h.front]
  dsimp only
  rw [if_pos hform, if_neg (by rw [h.sent]; exact Bool.false_ne_true), h.header, hcheck, h.job]
  dsimp only
  rw [h.takes]
  rfl

end

/-! ### Supplied rows (R99, R100, R284) -/

/-- The edition that holds a row's page for a call (R134). -/
def Job.pageOwner (j : Job) (c : Call) (row : Nat) : Nat := ((j.table? c.table).map fun t => t.owner c.edition (row / 32)).getD c.edition

/-- A supplied row as it is held for its call (R100). -/
def Job.heldFrom (j : Job) (c : Call) (r : Nat × RowData × List Byte) : HeldRow :=
  { call := c.id, table := c.table, edition := j.pageOwner c r.1, row := r.1, data := r.2.1, steps := c.steps, changed := false, returns := [], bound := c.edition }

/-- A row held already joins the steps of a call that names it. -/
def Job.joinedBy (j : Job) (c : Call) (rows : List (Nat × RowData × List Byte)) (x : HeldRow) : HeldRow :=
  if x.table = c.table ∧ rows.any fun r => r.1 == x.row && j.pageOwner c r.1 == x.edition then { x with steps := (x.steps ++ c.steps).eraseDups } else x

/-- A call some of whose rows have been supplied. -/
def Call.withRows (rows : List (Nat × RowData × List Byte)) (x : Call) : Call :=
  { x with rows := x.rows.map fun y => if rows.any fun r => r.1 == y.row then { y with supplied := true } else y }

/-- A job's body with rows supplied to a call of it. -/
def Job.suppliedBody (j : Job) (c : Call) (rows : List (Nat × RowData × List Byte)) : JobBody :=
  { j.body with
    held := j.body.held.map (j.joinedBy c rows) ++ (rows.filter fun r => (j.body.held? c.table (j.pageOwner c r.1) r.1).isNone).map (j.heldFrom c)
    calls := j.body.calls.map fun x => if x.id = c.id then x.withRows rows else x }

theorem State.takeSupply_body {s : State} {slot : Nat} {j : Job} (hj : s.job? slot = some j) {b : List Byte} {c : Call} (hc : j.call? (supplyHead b).call = some c) :
    ∃ k, (s.takeSupply slot b).job? slot = some k ∧ k.accepted = j.accepted ∧ k.body = j.suppliedBody c (j.newRows b) := by
  let u := s.updBody slot fun b' => { b' with
    held := b'.held.map (j.joinedBy c (j.newRows b)) ++ ((j.newRows b).filter fun r => (j.body.held? c.table (j.pageOwner c r.1) r.1).isNone).map (j.heldFrom c)
    calls := b'.calls.map fun x => if x.id = c.id then x.withRows (j.newRows b) else x }
  have hu : u.job? slot = some { j with body := j.suppliedBody c (j.newRows b) } := State.job?_updJob_of hj (fun k => { k with body := { k.body with
    held := k.body.held.map (j.joinedBy c (j.newRows b)) ++ ((j.newRows b).filter fun r => (j.body.held? c.table (j.pageOwner c r.1) r.1).isNone).map (j.heldFrom c)
    calls := k.body.calls.map fun x => if x.id = c.id then x.withRows (j.newRows b) else x } }) fun _ => rfl
  let v := if (j.newRows b).any fun r => j.unlikeRow r.1 r.2.2 then u.updJob slot fun j => { j with unlike := true } else u
  have hv : ∃ k, v.job? slot = some k ∧ k.accepted = j.accepted ∧ k.body = j.suppliedBody c (j.newRows b) := by
    by_cases hunlike : ((j.newRows b).any fun r => j.unlikeRow r.1 r.2.2) = true
    · rw [show v = _ from if_pos hunlike]
      exact ⟨_, State.job?_updJob_of hu (fun j => { j with unlike := true }) fun _ => rfl, rfl, rfl⟩
    · rw [show v = _ from if_neg hunlike]
      exact ⟨_, hu, rfl, rfl⟩
  obtain ⟨k, hk, haccepted, hbody⟩ := hv
  unfold State.takeSupply
  rw [hj]
  dsimp only
  rw [hc]
  dsimp only
  refine ⟨_, State.job?_updJob_of hk _ fun _ => rfl, haccepted, hbody⟩

/-- A supply that passes its checks answers a call of its table (R284). -/
theorem State.call_of_supplyBads {s : State} {f : InFlight} {j : Job} (hj : s.jobOf f = some j) (h : s.supplyBads f = []) (hack : (supplyHead f.cmd.payload).ack = false) :
    ∃ c, j.call? (supplyHead f.cmd.payload).call = some c ∧ c.table = (supplyHead f.cmd.payload).table := by
  unfold State.supplyBads at h
  rw [hj] at h
  dsimp only at h
  split at h
  · cases h
  rw [if_neg (by rw [hack]; exact Bool.false_ne_true)] at h
  split at h
  · cases h
  split at h
  · split at h
    · simp at h
    · next hfields => exact absurd (by simp) hfields
  next c hc =>
  split at h
  · next hfields => exact absurd h hfields
  next hfields =>
  replace hfields := not_not.1 hfields
  simp only [List.append_eq_nil_iff, need_eq_nil, beq_iff_eq] at hfields
  obtain ⟨-, ⟨htable, -⟩, -⟩ := hfields
  exact ⟨c, hc, htable⟩

/-- A row supplied to a call is held, where no copy of it was held before (R99, R100). -/
theorem Job.suppliedBody_held (j : Job) (c : Call) {rows : List (Nat × RowData × List Byte)} {r : Nat × RowData × List Byte} (hr : r ∈ rows) :
    (∃ y ∈ j.body.held, y.table = c.table ∧ y.row = r.1) ∨ ∃ x ∈ (j.suppliedBody c rows).held, x.call = c.id ∧ x.row = r.1 ∧ x.data = r.2.1 := by
  cases hheld : j.body.held? c.table (j.pageOwner c r.1) r.1 with
  | some y =>
    have hfound := List.find?_some (show j.body.held.find? _ = some y from hheld)
    simp only [Bool.and_eq_true, beq_iff_eq] at hfound
    obtain ⟨⟨htable, -⟩, hrow⟩ := hfound
    exact .inl ⟨y, List.mem_of_find?_eq_some hheld, htable, hrow⟩
  | none =>
    refine .inr ⟨j.heldFrom c r, List.mem_append_right _ (List.mem_map_of_mem (List.mem_filter.2 ⟨hr, ?_⟩)), rfl, rfl, rfl⟩
    rw [hheld]
    rfl

/-- Its call has it (R99). -/
theorem Job.suppliedBody_calls (j : Job) (c : Call) {rows : List (Nat × RowData × List Byte)} {r : Nat × RowData × List Byte} (hr : r ∈ rows) :
    ∀ d ∈ (j.suppliedBody c rows).calls, d.id = c.id → ∀ y ∈ d.rows, y.row = r.1 → y.supplied = true := by
  intro d hd hid y hy hrow
  obtain ⟨e, -, rfl⟩ := List.mem_map.1 hd
  by_cases he : e.id = c.id
  · rw [if_pos he] at hy
    obtain ⟨z, -, rfl⟩ := List.mem_map.1 hy
    split
    · rfl
    · next hnone =>
      rw [if_neg hnone] at hrow
      exact absurd (List.any_eq_true.2 ⟨r, hr, (beq_iff_eq (a := r.1) (b := z.row)).2 hrow.symm⟩) hnone
  · rw [if_neg he] at hid
    exact absurd hid he

theorem supplyTakes {s : State} {q : Nat} {f : InFlight} {j : Job} (h : s.Ready q 0x21 f j) (hbads : s.supplyBads f = []) (hnone : s.fabric.requests = [])
    (hack : (supplyHead f.cmd.payload).ack = false) :
    Runs (.rowSupply q) s fun t => ∃ k, t.job? j.slot = some k ∧ k.accepted = j.accepted + 1 ∧
      ∀ r ∈ j.newRows f.cmd.payload,
        ((∃ y ∈ j.body.held, y.table = (supplyHead f.cmd.payload).table ∧ y.row = r.1) ∨
          ∃ x ∈ k.body.held, x.call = (supplyHead f.cmd.payload).call ∧ x.row = r.1 ∧ x.data = r.2.1) ∧
        ∀ c ∈ k.body.calls, c.id = (supplyHead f.cmd.payload).call → ∀ y ∈ c.rows, y.row = r.1 → y.supplied = true := by
  obtain ⟨c, hc, htable⟩ := State.call_of_supplyBads h.job hbads hack
  have hid : c.id = (supplyHead f.cmd.payload).call := by
    have hfound := List.find?_some (show j.body.calls.find? _ = some c from hc)
    simp only [Bool.and_eq_true, beq_iff_eq] at hfound
    exact hfound.1
  obtain ⟨⟨l, e, hjob⟩, hcmd⟩ := h.accepts (s.supplyRecord f)
  let u := (s.accept { f with stage := .waiting } (s.supplyRecord f)).1
  let g : InFlight := { f with stage := .waiting, accept := some (j.accepted + 1), logged := (s.supplyRecord f).isNone }
  have hcall : ({ j with accepted := j.accepted + 1, log := l, logEnd := e } : Job).call? (supplyHead f.cmd.payload).call = some c := hc
  obtain ⟨k, hk, haccepted, hbody⟩ := State.takeSupply_body hjob hcall
  have hrequests : (u.takeSupply j.slot f.cmd.payload).fabric.requests = [] := by
    rw [(State.takeSupply_only ..).eq .fabric rfl, show u.fabric = s.fabric from (s.accept_only ..).eq .fabric rfl, hnone]
  have hexec : exec (.rowSupply q) s = .next ((u.takeSupply j.slot f.cmd.payload).done g .ok []) := by
    change execRowSupply q s = _
    unfold execRowSupply
    rw [h.runLogged _ _ (by simp [hack]) hbads, hcmd]
    change Host.Outcome.next (match g.job with
      | none => u
      | some slot => (if g.replayed then u.replaySupply slot f.cmd.payload else u.takeSupply slot f.cmd.payload).serveWaiting.done g .ok []) = _
    rw [show g.job = some j.slot from h.slot.1]
    dsimp only
    rw [if_neg (by rw [show g.replayed = false from h.sent]; exact Bool.false_ne_true), State.serveWaiting_of_none hrequests]
  refine ⟨_, hexec, k, (State.job?_jobs ((State.done_only ..).eq .jobs rfl) _).trans hk, haccepted, fun r hr => ?_⟩
  rw [hbody, ← htable, ← hid]
  exact ⟨Job.suppliedBody_held _ c hr, Job.suppliedBody_calls _ c hr⟩

/-! ### The acknowledgement of a return (R100, R284) -/

/-- A held row that waits for one acknowledgement less. -/
def HeldRow.acked (id : Nat) (r : HeldRow) : HeldRow := { r with returns := r.returns.filter (· != id) }

/-- What is left of the held rows and the calls of a job once those are gone that nothing needs (R99, R100). -/
def Job.freed (j : Job) : JobBody :=
  { j.body with
    held := (j.body.held.map fun r => { r with steps := r.steps.filter fun x => j.steps.any fun y => y.num == x }).filter fun r =>
      !(r.steps.isEmpty && !r.changed && r.returns.isEmpty)
    calls := j.body.calls.filter fun c => !(decide (0 < c.sends) && (c.rows.all (·.supplied)) && !(c.steps.any fun x => j.steps.any fun y => y.num == x)) }

/-- A row still held was held before, for the same call and with the same data. -/
theorem Job.mem_freed {j : Job} {x : HeldRow} (h : x ∈ j.freed.held) : ∃ y ∈ j.body.held, x.call = y.call ∧ x.row = y.row ∧ x.data = y.data ∧ x.returns = y.returns := by
  obtain ⟨y, hy, rfl⟩ := List.mem_map.1 (List.mem_filter.1 h).1
  exact ⟨y, hy, rfl, rfl, rfl, rfl⟩

theorem supplyAcks {s : State} {q : Nat} {f : InFlight} {j : Job} (h : s.Ready q 0x21 f j) (hbads : s.supplyBads f = [])
    (hack : (supplyHead f.cmd.payload).ack = true) :
    Runs (.rowSupplyAck q) s fun t => ∃ k, Accepted s t f j k (.done .ok [] 0) ∧
      (∀ x ∈ k.body.held, (supplyHead f.cmd.payload).call ∉ x.returns) ∧
      ∀ x ∈ k.body.held, ∃ y ∈ j.body.held, x.call = y.call ∧ x.row = y.row ∧ x.data = y.data := by
  let id := (supplyHead f.cmd.payload).call
  let ack (j : Job) : Job := { j with body := { j.body with held := j.body.held.map (HeldRow.acked id) } }
  let free (j : Job) : Job := { j with body := j.freed }
  let u := (s.begun f).updJob j.slot ack
  let i := j.accepting (s.commandRecord j f)
  have hu : u.job? j.slot = some (ack i) := State.job?_updJob_of h.begun ack fun _ => rfl
  have hv : (u.updJob j.slot free).job? j.slot = some (free (ack i)) := State.job?_updJob_of hu free fun _ => rfl
  have hexec : exec (.rowSupplyAck q) s = .next ((u.updJob j.slot free).done (f.taken (some j)) .ok []) := by
    change execRowSupplyAck q s = _
    unfold execRowSupplyAck
    rw [State.runCommand_front h.asFront hack hbads, h.job, show (f.taken (some j)).job = some j.slot from h.slot.1]
    rfl
  have hothers (n : Nat) (hn : n ≠ j.slot) : (u.updJob j.slot free).job? n = (s.begun f).job? n :=
    (State.job?_updJob_other _ _ _ free (fun _ => rfl) hn.symm).trans (State.job?_updJob_other _ _ _ ack (fun _ => rfl) hn.symm)
  refine ⟨_, hexec, free (ack i), h.done (u := u.updJob j.slot free) rfl hv rfl rfl hothers .ok [], fun x hx hin => ?_, fun x hx => ?_⟩
  · obtain ⟨y, hy, -, -, -, hreturns⟩ := Job.mem_freed (j := ack i) hx
    obtain ⟨z, -, rfl⟩ := List.mem_map.1 hy
    rw [hreturns] at hin
    exact absurd (List.mem_filter.1 hin).2 (by simp [id])
  · obtain ⟨y, hy, hcall, hrow, hdata, -⟩ := Job.mem_freed (j := ack i) hx
    obtain ⟨z, hz, rfl⟩ := List.mem_map.1 hy
    exact ⟨z, hz, hcall, hrow, hdata⟩

theorem suppliedRowsAreHeld : Claims.SuppliedRowsAreHeld :=
  ⟨fun _ _ _ _ h hbads hnone hack => supplyTakes h hbads hnone hack, fun _ _ _ _ h hbads hack => supplyAcks h hbads hack⟩

/-- Settles O17: what each command changes of its job, at acceptance and by its effect. -/
theorem stepsTakeSuppliesAndGiveResults : Obligations.StepsTakeSuppliesAndGiveResults :=
  ⟨stepsAreBoundWhenAccepted, suppliedRowsAreHeld, resultsReadAndReleased⟩

end Sys2Proof.Machine
end

section
/-!
Call slips are issued, and issued again where they were fenced (R89 to R93, R95, R101, R110, R112, R113).
-/
namespace Sys2Proof.Machine
open Sys2Proof

/-! ### Slips of a tile -/

theorem aGet_replaced {κ α : Type} [DecidableEq κ] (l : List (κ × α)) (k : κ) (a : α) (q : κ) :
    aGet (l.filter (fun p => p.1 != k) ++ [(k, a)]) q = if q = k then some a else aGet l q := by
  induction l with
  | nil =>
    by_cases h : q = k
    · simp [aGet, h]
    · simp [aGet, h, Ne.symm h]
  | cons p l ih =>
    obtain ⟨r, b⟩ := p
    by_cases hr : r = k
    · subst hr
      by_cases h : q = r
      · simpa [h] using ih
      · simpa [aGet, h, Ne.symm h] using ih
    · by_cases h : r = q
      · subst h
        simp [aGet, hr]
      · simpa [aGet, hr, h] using ih

/-- A tile one of whose slip numbers has been taken anew. -/
def Tile.withSlip (n : Nat) (z : Slip) (u : Tile) : Tile := { u with slips := u.slips.filter (fun q => q.1 != n) ++ [(n, z)] }

theorem Tile.slip?_withSlip (u : Tile) (n : Nat) (z : Slip) (m : Nat) : (u.withSlip n z).slip? m = if m = n then some z else u.slip? m := aGet_replaced ..

/-- A slip changed in its place is found changed. -/
theorem aGet_map_key {κ α : Type} [DecidableEq κ] (l : List (κ × α)) (k : κ) (f : α → α) (q : κ) :
    aGet (l.map fun p => if p.1 = k then (p.1, f p.2) else p) q = if q = k then (aGet l q).map f else aGet l q := by
  induction l with
  | nil => simp [aGet]
  | cons p l ih =>
    obtain ⟨r, b⟩ := p
    by_cases h : r = q
    · subst h
      by_cases hr : r = k
      · simp [aGet, hr]
      · simp [aGet, hr]
    · by_cases hr : r = k
      · subst hr
        simpa [aGet, h] using ih
      · simpa [aGet, h, hr] using ih

theorem State.lt_of_slip? {s : State} {tile n : Nat} {p : Slip} (h : (s.unit tile).slip? n = some p) : tile < s.tileUnits.length := by
  by_contra hlt
  unfold State.unit at h
  rw [List.getD_eq_default _ _ (not_lt.1 hlt)] at h
  cases h

theorem State.slip?_updSlip {s : State} {tile n : Nat} {p : Slip} (h : (s.unit tile).slip? n = some p) (f : Slip → Slip) :
    ((s.updSlip tile n f).unit tile).slip? n = some (f p) := by
  unfold State.updSlip
  rw [State.unit_updUnit_self _ _ (State.lt_of_slip? h)]
  refine (aGet_map_key (s.unit tile).slips n f n).trans ?_
  rw [if_pos rfl, show aGet (s.unit tile).slips n = some p from h]
  rfl

/-! ### A segment that asks for a slip (R89, R92, R93) -/

/-- The next segment of a work item's oldest instance that moves rows, and the slip number it takes. -/
structure SlipCase where
  s : State
  tile : Nat
  n : Nat
  w : WorkId
  k : Work
  j : Job
  x : StepRec
  i : Inst
  r : SlipReq
  rest : List SlipReq
  p : Program

/-- The segment is the next of what stands on the tile. -/
structure SlipCase.Stands (c : SlipCase) : Prop where
  work : (c.s.unit c.tile).work? c.w = some c.k
  job : c.s.job? c.w.slot = some c.j
  step : c.j.step? c.w.step = some c.x
  prog : c.j.programs[c.k.prog]? = some c.p
  inst : c.k.flying.find? (fun i => i.reqs ≠ []) = some c.i
  reqs : c.i.reqs = c.r :: c.rest
  slip : (c.s.unit c.tile).slipFor c.w c.i c.r = some c.n
  runs : c.s.tileRuns c.tile c.j = true

def SlipCase.desc (c : SlipCase) : Desc := c.p.at c.i.pos
def SlipCase.row (c : SlipCase) : Nat := c.r.index.getD 0 % 2 ^ 40
def SlipCase.space (c : SlipCase) : Nat := c.desc.f 133 132
def SlipCase.id (c : SlipCase) : Nat := c.desc.f 223 192
def SlipCase.scatter (c : SlipCase) : Bool := c.i.kind == 0x03

/-- Slips the work item's program holds, and C0 credits the tile's slips hold (R91, R92). -/
def SlipCase.used (c : SlipCase) : Nat :=
  ((c.s.unit c.tile).slips.filter fun q => q.2.state != .fenced && match (c.s.unit c.tile).work? q.2.work with | some v => v.half == c.k.half | none => false).length
def SlipCase.credit (c : SlipCase) : Nat := ((c.s.unit c.tile).slips.filter fun q => q.2.holdsCredit && q.1 != c.n).length

/-- The segment's row is of another position and asked for there (R95, R110). -/
def SlipCase.remote (c : SlipCase) : Bool :=
  c.space == 0 && !c.s.mine c.r.home && !(c.scatter && ((c.x.reduced c.space c.id).isSome || ((c.j.table? c.id).map fun t => t.placement == 1).getD false)) && !c.r.out

/-- The segment's effect was delivered before, or is not what its rerun is for (R63, R112). -/
def SlipCase.suppressed (c : SlipCase) : Bool :=
  c.scatter && (c.k.delivered.contains (c.i.seq, c.i.regs, 1 + 8 * c.r.row + c.r.seg) || (match c.k.only with | some o => o != (c.space, c.id) | none => false))

/-- Where the slip takes its row from (Table 05-3). -/
def SlipCase.source (c : SlipCase) : Nat := if c.r.out then 0 else if c.scatter then 6 else if c.remote then 4 else (c.s.served c.j c.x c.space c.id c.row).1

def SlipCase.slip (c : SlipCase) : Slip :=
  let base := c.j.regionBase (c.x.roleWord c.tile) c.k.half + c.desc.addr c.i.regs 328 312 351 336 139 138
  { state := if c.r.out then .zeroed else if c.suppressed then .done else .issued, work := c.w, pos := c.i.pos, regs := c.i.regs, seq := c.i.seq, scatter := c.scatter,
    space := c.space, id := c.id, at' := c.r.row, row := c.row, seg := c.r.seg, first := c.r.first, count := c.r.count,
    granules := segGranules (c.s.spaceInfo c.j c.x c.space c.id c.row).bits c.r.count, landed := 0, carrel := base,
    granule := base + slipGranule c.desc c.r.row c.r.first, source := c.source, remote := c.remote, peer := if c.remote then c.r.home else 0 }

/-- The segment finds ledger room, where it needs any (R106, R111). -/
def SlipCase.roomOk (c : SlipCase) : Bool :=
  !c.scatter || c.r.out || c.suppressed || c.s.ledgerRoom c.x c.space c.id c.row c.r.seg c.r.first c.r.count c.remote c.r.home

/-- The segment's row must be called from the annex (R97). -/
def SlipCase.calls (c : SlipCase) : Bool :=
  !c.scatter && c.source == 5
    && !(c.space == 0 && c.source == 5 && (match c.j.table? c.id with | some t => (c.j.body.held? c.id (t.owner ((c.x.edition? c.id).getD 0) (c.row / 32)) c.row).isSome | none => false))
    && !c.remote && !c.r.out

/-- The request a gather of another position's row sends (R95). -/
def SlipCase.request (c : SlipCase) : MsgHead :=
  { (c.j.head c.w.step c.id c.row) with mb := c.w.mb, piece := c.w.piece, tile := c.tile, slip := c.n, segFirst := c.r.seg, segCount := 1 }

/-- An instance that has one slip less to ask for. -/
def Work.asked (ord : Nat) (rest : List SlipReq) (v : Work) : Work := { v with flying := v.flying.map fun f => if f.ord = ord then { f with reqs := rest } else f }

/-- The slip is taken, and its instance has it no longer to ask for. -/
def SlipCase.taken (c : SlipCase) (t : State) : State := (t.updUnit c.tile (Tile.withSlip c.n c.slip)).updWork c.tile c.w (Work.asked c.i.ord c.rest)

/-- What the slip's issue sends or reads. -/
def SlipCase.follows (c : SlipCase) (t : State) : State :=
  if c.r.out then t
  else if c.remote && !c.scatter then t.send c.r.home .gatherReq c.request.bytes
  else if !c.scatter then t.noteRead c.j c.x c.w c.space c.id c.row c.r.first c.r.count c.source
  else t

section
variable {c : SlipCase} (h : c.Stands)
include h

/-- SLIP_ISSUE (R92, R93). -/
theorem SlipCase.exec_eq : exec (.slipIssue c.tile c.w) c.s = .next (
    if c.p.slips ≤ c.used ∨ c.s.tileRuns c.tile c.j = false ∨ slipCredits ≤ c.credit then c.s
    else if c.roomOk = false then c.s.raiseJob 0x6004 c.w.slot c.w.step (16 * c.r.count % 2 ^ 32) (16 * c.r.count / 2 ^ 32) 0
    else
      let q := c.s.callRowIf c.calls c.w.slot c.w.step c.id ((c.x.edition? c.id).getD 0) c.row c.r.seg
      if q.2 then c.follows (c.taken q.1) else q.1) := by
  obtain ⟨hwork, hjob, hstep, hprog, hinst, hreqs, hslip, -⟩ := h
  change execSlipIssue c.tile c.w c.s = _
  unfold execSlipIssue
  rw [hwork, hjob, State.step?_of_job hjob, hstep]
  dsimp only
  rw [hinst]
  dsimp only
  rw [hreqs, hprog]
  dsimp only [List.head?_cons, Option.bind_some]
  rw [hslip]
  rfl

/-- A segment that no slip or credit is left for waits (R91, R92). -/
theorem SlipCase.exec_full (hfull : c.p.slips ≤ c.used ∨ slipCredits ≤ c.credit) : exec (.slipIssue c.tile c.w) c.s = .next c.s := by
  rw [SlipCase.exec_eq h]
  exact congrArg Host.Outcome.next (if_pos (hfull.imp_right .inr))

/-- One with room, whose row need not be called, takes its slip. -/
theorem SlipCase.exec_taken (hused : c.used < c.p.slips) (hcredit : c.credit < slipCredits) (hroom : c.roomOk = true) (hcalls : c.calls = false) :
    exec (.slipIssue c.tile c.w) c.s = .next (c.follows (c.taken c.s)) := by
  have hfull : ¬ (c.p.slips ≤ c.used ∨ c.s.tileRuns c.tile c.j = false ∨ slipCredits ≤ c.credit) := by
    rw [h.runs]
    simp only [Bool.true_eq_false, false_or, not_or, not_le]
    exact ⟨hused, hcredit⟩
  rw [SlipCase.exec_eq h, if_neg hfull, if_neg (by rw [hroom]; exact Bool.noConfusion), hcalls]
  rfl

/-- A scatter's segment without ledger room is reported and waits (R106, R111). -/
theorem SlipCase.exec_noRoom (hused : c.used < c.p.slips) (hcredit : c.credit < slipCredits) (hroom : c.roomOk = false) :
    exec (.slipIssue c.tile c.w) c.s = .next (c.s.raiseJob 0x6004 c.w.slot c.w.step (16 * c.r.count % 2 ^ 32) (16 * c.r.count / 2 ^ 32) 0) := by
  have hfull : ¬ (c.p.slips ≤ c.used ∨ c.s.tileRuns c.tile c.j = false ∨ slipCredits ≤ c.credit) := by
    rw [h.runs]
    simp only [Bool.true_eq_false, false_or, not_or, not_le]
    exact ⟨hused, hcredit⟩
  rw [SlipCase.exec_eq h, if_neg hfull, if_pos hroom]

end

/-- A segment has left its instance's requests, its slip is taken, and every other slip is as it was. -/
structure SlipCase.Asks (c : SlipCase) (t : State) : Prop where
  slip : (t.unit c.tile).slip? c.n = some c.slip
  others : ∀ m, m ≠ c.n → (t.unit c.tile).slip? m = (c.s.unit c.tile).slip? m
  work : ∃ v, (t.unit c.tile).work? c.w = some v ∧ v.pos = c.k.pos ∧ v.flying.map (·.reqs) = c.k.flying.map fun f => if f.ord = c.i.ord then c.rest else f.reqs

theorem SlipCase.Asks.of_tiles {c : SlipCase} {t u : State} (h : c.Asks t) (htiles : u.tileUnits = t.tileUnits) : c.Asks u := by
  have hunit := State.unit_tileUnits htiles c.tile
  exact ⟨by rw [hunit, h.slip], fun m hm => by rw [hunit, h.others m hm], by rw [hunit]; exact h.work⟩

theorem Work.reqs_asked (v : Work) (ord : Nat) (rest : List SlipReq) :
    (v.asked ord rest).flying.map (·.reqs) = v.flying.map fun f => if f.ord = ord then rest else f.reqs := by
  unfold Work.asked
  rw [List.map_map]
  refine List.map_congr_left fun f _ => ?_
  simp only [Function.comp_apply]
  split <;> rfl

theorem SlipCase.taken_asks {c : SlipCase} (h : c.Stands) : c.Asks (c.taken c.s) := by
  have ht := State.lt_of_work? h.work
  have hunit : (c.taken c.s).unit c.tile = { (c.s.unit c.tile).withSlip c.n c.slip with
      works := (c.s.unit c.tile).works.map fun k => if k.id = c.w then k.asked c.i.ord c.rest else k } := by
    unfold SlipCase.taken
    rw [State.unit_updWork _ _ _ (by simpa [State.updUnit] using ht), State.unit_updUnit_self _ _ ht]
    rfl
  refine ⟨?_, fun m hm => ?_, c.k.asked c.i.ord c.rest, ?_, rfl, c.k.reqs_asked ..⟩
  · rw [hunit]
    exact ((c.s.unit c.tile).slip?_withSlip c.n c.slip c.n).trans (if_pos rfl)
  · rw [hunit]
    exact ((c.s.unit c.tile).slip?_withSlip c.n c.slip m).trans (if_neg hm)
  · rw [hunit]
    refine ((c.s.unit c.tile).work?_upd c.w (Work.asked c.i.ord c.rest) fun _ => rfl).trans ?_
    rw [h.work]
    rfl

theorem SlipCase.follows_tiles (c : SlipCase) (t : State) : (c.follows t).tileUnits = t.tileUnits := by
  unfold SlipCase.follows
  split
  · rfl
  split
  · exact (State.send_only ..).eq .tileUnits rfl
  split
  · exact (State.noteRead_only ..).eq .tileUnits rfl
  · rfl

theorem SlipCase.follows_asks {c : SlipCase} (h : c.Stands) : c.Asks (c.follows (c.taken c.s)) := (SlipCase.taken_asks h).of_tiles (c.follows_tiles _)

/-! ### What a slip is (R89 to R93, R110) -/

/-- A new slip is that of its segment. -/
theorem SlipCase.slip_new (c : SlipCase) : c.slip.work = c.w ∧ c.slip.pos = c.i.pos ∧ c.slip.regs = c.i.regs ∧ c.slip.space = c.desc.f 133 132 ∧
    c.slip.id = c.desc.f 223 192 ∧ c.slip.row = c.row ∧ c.slip.seg = c.r.seg ∧ c.slip.first = c.r.first ∧ c.slip.count = c.r.count ∧ c.slip.landed = 0 ∧
    c.slip.scatter = (c.i.kind == 0x03) ∧ c.slip.granule = c.slip.carrel + slipGranule c.desc c.r.row c.r.first :=
  ⟨rfl, rfl, rfl, rfl, rfl, rfl, rfl, rfl, rfl, rfl, rfl, rfl⟩

theorem SlipCase.state_out {c : SlipCase} (h : c.r.out = true) : c.slip.state = .zeroed := if_pos h

theorem SlipCase.state_in {c : SlipCase} (h : c.r.out = false) : c.slip.state = if c.suppressed then .done else .issued := if_neg (by rw [h]; exact Bool.false_ne_true)

theorem SlipCase.gather_unsuppressed {c : SlipCase} (h : c.i.kind = 0x02) : c.scatter = false ∧ c.suppressed = false := by
  have hs : c.scatter = false := by rw [SlipCase.scatter, h]; rfl
  exact ⟨hs, by rw [SlipCase.suppressed, hs, Bool.false_and]⟩

/-- A row of a table out of this position is asked for there by a gather (R95). -/
theorem SlipCase.remote_gather {c : SlipCase} (hkind : c.i.kind = 0x02) (hspace : c.space = 0) (hout : c.r.out = false) : c.remote = !c.s.mine c.r.home := by
  rw [SlipCase.remote, (SlipCase.gather_unsuppressed hkind).1, hspace, hout]
  simp

/-- A scatter into another position's rows goes there, but for one into a `COLUMN` table (R110). -/
theorem SlipCase.remote_scatter {c : SlipCase} (hkind : c.i.kind = 0x03) (hout : c.r.out = false) :
    c.remote = true ↔ c.desc.f 133 132 = 0 ∧ c.s.mine c.r.home = false ∧ ∀ t, c.j.table? (c.desc.f 223 192) = some t → t.placement ≠ 1 := by
  have hscatter : c.scatter = true := by rw [SlipCase.scatter, hkind]; rfl
  rw [SlipCase.remote, hscatter, hout]
  by_cases hspace : c.space = 0
  · have hnone : c.x.reduced c.space c.id = none := by rw [StepRec.reduced, hspace]; rfl
    rw [hnone]
    have hspace' : c.desc.f 133 132 = 0 := hspace
    cases ht : c.j.table? c.id with
    | none =>
      have ht' : c.j.table? (c.desc.f 223 192) = none := ht
      simp [hspace, hspace', ht']
    | some t =>
      have ht' : c.j.table? (c.desc.f 223 192) = some t := ht
      simp [hspace, hspace', ht']
  · have hspace' : ¬ c.desc.f 133 132 = 0 := hspace
    simp [hspace, hspace']

section
variable {c : SlipCase} (h : c.Stands) (hused : c.used < c.p.slips) (hcredit : c.credit < slipCredits)
include h hused hcredit

/-- A row out of its table takes a slip that reads zero (R101). -/
theorem SlipCase.issues_out (hout : c.r.out = true) :
    Runs (.slipIssue c.tile c.w) c.s fun t => c.Asks t ∧ t.fabric = c.s.fabric ∧ c.slip.state = .zeroed := by
  have hexec := SlipCase.exec_taken h hused hcredit (by simp [SlipCase.roomOk, hout]) (by simp [SlipCase.calls, hout])
  have hfollows : c.follows (c.taken c.s) = c.taken c.s := if_pos hout
  exact ⟨_, hexec, SlipCase.follows_asks h, by rw [hfollows]; rfl, SlipCase.state_out hout⟩

/-- A gather's row that stands here is read here (R93). -/
theorem SlipCase.issues_here (hout : c.r.out = false) (hkind : c.i.kind = 0x02) (hspace : c.space = 0) (hmine : c.s.mine c.r.home = true)
    (hserved : (c.s.served c.j c.x 0 c.id c.row).1 ≠ 5) :
    Runs (.slipIssue c.tile c.w) c.s fun t => c.Asks t ∧ t.fabric = c.s.fabric ∧ c.slip.state = .issued ∧ c.slip.remote = false ∧
      c.slip.source = (c.s.served c.j c.x 0 c.id c.row).1 := by
  have hremote : c.remote = false := by rw [SlipCase.remote_gather hkind hspace hout, hmine]; rfl
  obtain ⟨hscatter, hsuppressed⟩ := SlipCase.gather_unsuppressed hkind
  have hsource : c.source = (c.s.served c.j c.x 0 c.id c.row).1 := by
    rw [SlipCase.source, hscatter, hremote, hout, hspace]
    rfl
  have hcalls : c.calls = false := by
    rw [SlipCase.calls, show (c.source == 5) = false from beq_false_of_ne (hsource ▸ hserved)]
    simp
  have hexec := SlipCase.exec_taken h hused hcredit (by simp [SlipCase.roomOk, hscatter]) hcalls
  have hfollows : c.follows (c.taken c.s) = (c.taken c.s).noteRead c.j c.x c.w c.space c.id c.row c.r.first c.r.count c.source := by
    rw [SlipCase.follows, hout, hremote, hscatter]
    rfl
  have hfabric : (c.follows (c.taken c.s)).fabric = c.s.fabric := by
    rw [hfollows, (State.noteRead_only ..).eq .fabric rfl]
    rfl
  exact ⟨_, hexec, SlipCase.follows_asks h, hfabric, by rw [SlipCase.state_in hout, hsuppressed]; rfl, hremote, hsource⟩

/-- A gather's row of another position is asked for there (R95). -/
theorem SlipCase.issues_there (hout : c.r.out = false) (hkind : c.i.kind = 0x02) (hspace : c.space = 0) (hmine : c.s.mine c.r.home = false)
    (hholder : c.s.holderOf c.r.home = c.r.home) :
    Runs (.slipIssue c.tile c.w) c.s fun t => c.Asks t ∧ (c.slip.state = .issued ∧ c.slip.remote = true ∧ c.slip.peer = c.r.home) ∧
      OnItsWay t c.r.home .gatherReq c.request.bytes := by
  have hremote : c.remote = true := by rw [SlipCase.remote_gather hkind hspace hout, hmine]; rfl
  obtain ⟨hscatter, hsuppressed⟩ := SlipCase.gather_unsuppressed hkind
  have hexec := SlipCase.exec_taken h hused hcredit (by simp [SlipCase.roomOk, hscatter]) (by simp [SlipCase.calls, hremote])
  have hfollows : c.follows (c.taken c.s) = (c.taken c.s).send c.r.home .gatherReq c.request.bytes := by
    rw [SlipCase.follows, hout, hremote, hscatter]
    rfl
  refine ⟨_, hexec, SlipCase.follows_asks h, ⟨by rw [SlipCase.state_in hout, hsuppressed]; rfl, hremote, if_pos hremote⟩, ?_⟩
  rw [hfollows]
  exact State.send_onItsWay (s := c.taken c.s) _ _ hholder

/-- A scatter's segment delivered before is done at once (R112). -/
theorem SlipCase.issues_delivered (hout : c.r.out = false) (hkind : c.i.kind = 0x03)
    (hsent : c.k.delivered.contains (c.i.seq, c.i.regs, 1 + 8 * c.r.row + c.r.seg) = true) :
    Runs (.slipIssue c.tile c.w) c.s fun t => c.Asks t ∧ c.slip.state = .done := by
  have hscatter : c.scatter = true := by rw [SlipCase.scatter, hkind]; rfl
  have hsuppressed : c.suppressed = true := by rw [SlipCase.suppressed, hscatter, hsent]; rfl
  exact ⟨_, SlipCase.exec_taken h hused hcredit (by simp [SlipCase.roomOk, hsuppressed]) (by simp [SlipCase.calls, hscatter]), SlipCase.follows_asks h,
    by rw [SlipCase.state_in hout, hsuppressed]; rfl⟩

/-- Another one with ledger room is issued, and one without is reported and waits (R106, R110, R111). -/
theorem SlipCase.issues_scatter (hout : c.r.out = false) (hkind : c.i.kind = 0x03)
    (hsent : c.k.delivered.contains (c.i.seq, c.i.regs, 1 + 8 * c.r.row + c.r.seg) = false) (honly : c.k.only = none) :
    (c.s.ledgerRoom c.x c.space c.id c.row c.r.seg c.r.first c.r.count c.remote c.r.home = true →
      Runs (.slipIssue c.tile c.w) c.s fun t => c.Asks t ∧ c.slip.state = .issued) ∧
    (c.s.ledgerRoom c.x c.space c.id c.row c.r.seg c.r.first c.r.count c.remote c.r.home = false →
      Runs (.slipIssue c.tile c.w) c.s fun t => t.tileUnits = c.s.tileUnits ∧
        Raised c.s t 0x6004 .job c.w.slot c.w.step (16 * c.r.count % 2 ^ 32) (16 * c.r.count / 2 ^ 32) 0) := by
  have hscatter : c.scatter = true := by rw [SlipCase.scatter, hkind]; rfl
  have hsuppressed : c.suppressed = false := by rw [SlipCase.suppressed, hscatter, hsent, honly]; rfl
  refine ⟨fun hroom => ?_, fun hroom => ?_⟩
  · exact ⟨_, SlipCase.exec_taken h hused hcredit (by simp [SlipCase.roomOk, hroom]) (by simp [SlipCase.calls, hscatter]), SlipCase.follows_asks h,
      by rw [SlipCase.state_in hout, hsuppressed]; rfl⟩
  · have hfull : c.roomOk = false := by rw [SlipCase.roomOk, hscatter, hsuppressed, hroom, hout]; rfl
    exact ⟨_, SlipCase.exec_noRoom h hused hcredit hfull, (State.raiseJob_only ..).eq .tileUnits rfl, State.raiseJob_raised_of_log rfl⟩

end

theorem slipsAreIssued : Claims.SlipsAreIssued := by
  intro s tile n w k j x i r rest p hwork hjob hstep hprog hinst hreqs hslip hruns d row credit used isNew asks
  let c : SlipCase := ⟨s, tile, n, w, k, j, x, i, r, rest, p⟩
  have hc : c.Stands := ⟨hwork, hjob, hstep, hprog, hinst, hreqs, hslip, hruns⟩
  have hnew : isNew c.slip := c.slip_new
  refine ⟨fun h => SlipCase.exec_full hc h, fun hused hcredit hout => ?_, fun hused hcredit hout hkind hspace hmine hserved => ?_,
    fun hused hcredit hout hkind hspace hmine hholder => ?_, ?_⟩
  · obtain ⟨t, hexec, hasks, hfabric, hstate⟩ := SlipCase.issues_out hc hused hcredit hout
    exact ⟨t, hexec, ⟨hasks.others, hasks.work⟩, hfabric, c.slip, hasks.slip, hnew, hstate⟩
  · obtain ⟨t, hexec, hasks, hfabric, hstate⟩ := SlipCase.issues_here hc hused hcredit hout hkind hspace hmine hserved
    exact ⟨t, hexec, ⟨hasks.others, hasks.work⟩, hfabric, c.slip, hasks.slip, hnew, hstate⟩
  · obtain ⟨t, hexec, hasks, hstate, hsent⟩ := SlipCase.issues_there hc hused hcredit hout hkind hspace hmine hholder
    exact ⟨t, hexec, ⟨hasks.others, hasks.work⟩, ⟨c.slip, hasks.slip, hnew, hstate⟩, hsent⟩
  · intro remote hremote hused hcredit hout hkind sent room
    have hsame : c.remote = remote := Bool.eq_iff_iff.2 ((SlipCase.remote_scatter (c := c) hkind hout).trans hremote.symm)
    subst hsame
    refine ⟨fun h => ?_, fun h honly hroom => ?_, fun h honly hroom => (SlipCase.issues_scatter hc hused hcredit hout hkind h honly).2 hroom⟩
    · obtain ⟨t, hexec, hasks, hstate⟩ := SlipCase.issues_delivered hc hused hcredit hout hkind h
      exact ⟨t, hexec, ⟨hasks.others, hasks.work⟩, c.slip, hasks.slip, hnew, hstate⟩
    · obtain ⟨t, hexec, hasks, hstate⟩ := (SlipCase.issues_scatter hc hused hcredit hout hkind h honly).1 hroom
      exact ⟨t, hexec, ⟨hasks.others, hasks.work⟩, c.slip, hasks.slip, hnew, hstate, rfl⟩

end Sys2Proof.Machine
end

section
/-!
Calls of annex rows, and fenced slips that are issued again (R90, R97, R113).
-/
namespace Sys2Proof.Machine
open Sys2Proof

/-! ### Calls (R97) -/

/-- A call that a step waits on. -/
def Call.awaited (step : Nat) (c : Call) : Call := if c.steps.contains step then c else { c with steps := c.steps ++ [step] }

/-- A called row that covers another segment. -/
def CallRow.widened (row seg : Nat) (r : CallRow) : CallRow :=
  if r.row = row then
    let lo := min r.segFirst seg
    { r with segFirst := lo, segCount := max (r.segFirst + r.segCount) (seg + 1) - lo }
  else r

/-- A call joined for a row it names already: while it is open its row covers the segment. -/
def Call.joined (step row seg : Nat) (c : Call) : Call :=
  if c.sends = 0 then Call.awaited step { c with rows := c.rows.map (CallRow.widened row seg) } else c.awaited step

/-- An open call joined by a further row. -/
def Call.extended (step : Nat) (r : CallRow) (c : Call) : Call := Call.awaited step { c with rows := c.rows ++ [r] }

/-- A call that has a row of a table and edition for a step: not supplied yet and, while the call is open, covering the segment. -/
structure Call.Names (c : Call) (step tid ed row seg : Nat) : Prop where
  table : c.table = tid
  edition : c.edition = ed
  steps : step ∈ c.steps
  row : ∃ y ∈ c.rows, y.row = row ∧ y.supplied = false ∧ (c.sends = 0 → y.segFirst ≤ seg ∧ seg < y.segFirst + y.segCount)

theorem Call.awaited_kept (step : Nat) (c : Call) : step ∈ (c.awaited step).steps ∧ (c.awaited step).table = c.table ∧ (c.awaited step).edition = c.edition ∧
    (c.awaited step).rows = c.rows ∧ (c.awaited step).sends = c.sends := by
  unfold Call.awaited
  split
  · next h => exact ⟨List.contains_iff_mem.1 h, rfl, rfl, rfl, rfl⟩
  · exact ⟨List.mem_append_right _ (List.mem_singleton.2 rfl), rfl, rfl, rfl, rfl⟩

theorem Call.names_awaited {c : Call} {step tid ed row seg : Nat} (htable : c.table = tid) (hedition : c.edition = ed)
    (hrow : ∃ y ∈ c.rows, y.row = row ∧ y.supplied = false ∧ (c.sends = 0 → y.segFirst ≤ seg ∧ seg < y.segFirst + y.segCount)) :
    (c.awaited step).Names step tid ed row seg := by
  obtain ⟨hstep, ht, he, hrows, hsends⟩ := c.awaited_kept step
  exact ⟨ht.trans htable, he.trans hedition, hstep, by rw [hrows, hsends]; exact hrow⟩

theorem Call.names_joined {c : Call} {step tid ed row seg : Nat} (htable : c.table = tid) (hedition : c.edition = ed)
    (hrow : ∃ y ∈ c.rows, y.row = row ∧ y.supplied = false) : (c.joined step row seg).Names step tid ed row seg := by
  obtain ⟨y, hy, hyrow, hsupplied⟩ := hrow
  unfold Call.joined
  split
  · refine Call.names_awaited htable hedition ⟨y.widened row seg, List.mem_map_of_mem hy, ?_⟩
    rw [CallRow.widened, if_pos hyrow]
    dsimp only
    exact ⟨hyrow, hsupplied, fun _ => by omega⟩
  · next hsent => exact Call.names_awaited htable hedition ⟨y, hy, hyrow, hsupplied, fun h => absurd h hsent⟩

theorem Call.names_extended {c : Call} {step tid ed seg : Nat} {r : CallRow} (htable : c.table = tid) (hedition : c.edition = ed) (hsupplied : r.supplied = false)
    (hfirst : r.segFirst = seg) (hcount : r.segCount = 1) : (c.extended step r).Names step tid ed r.row seg := by
  refine Call.names_awaited htable hedition ⟨r, List.mem_append_right _ (List.mem_singleton.2 rfl), rfl, hsupplied, fun _ => ?_⟩
  omega

/-- A call changed in its place stands among its job's. -/
theorem State.job?_updCall {s : State} {slot : Nat} {j : Job} (hj : s.job? slot = some j) {c : Call} (hc : c ∈ j.body.calls) (f : Call → Call) :
    ∃ k, (s.updCall slot c.id f).job? slot = some k ∧ f c ∈ k.body.calls := by
  let g (j : Job) : Job := { j with body := { j.body with calls := j.body.calls.map fun d => if d.id = c.id then f d else d } }
  refine ⟨g j, State.job?_updJob_of hj g fun _ => rfl, List.mem_map.2 ⟨c, hc, if_pos rfl⟩⟩

/-- A call opened for a row. -/
def Job.newCall (j : Job) (step tid ed : Nat) (r : CallRow) : Call :=
  { id := j.body.nextCall, table := tid, edition := ed, rows := [r], sends := 0, stalled := false, steps := [step] }

/-- How a row is called: its call is joined, an open call takes it, a call is opened, or there is no room for one (R97). -/
theorem State.callRow_cases {s : State} {slot step tid ed row seg : Nat} {j : Job} (hj : s.job? slot = some j) :
    (∃ c ∈ j.body.calls, c.table = tid ∧ c.edition = ed ∧ (∃ y ∈ c.rows, y.row = row ∧ y.supplied = false) ∧
      s.callRow slot step tid ed row seg = (s.updCall slot c.id (Call.joined step row seg), true)) ∨
    (∃ r : CallRow, r.row = row ∧ r.supplied = false ∧ r.segFirst = seg ∧ r.segCount = 1 ∧
      ((∃ c ∈ j.body.calls, c.table = tid ∧ c.edition = ed ∧ s.callRow slot step tid ed row seg = (s.updCall slot c.id (Call.extended step r), true)) ∨
        s.callRow slot step tid ed row seg =
          ((s.updBody slot fun b => { b with calls := b.calls ++ [j.newCall step tid ed r], nextCall := (b.nextCall + 1) % 2 ^ 32 }).updQueue j.eventQueue
            fun q => { q with reserved := q.reserved + 18 }, true))) ∨
    (s.callRow slot step tid ed row seg = (s, false) ∧ (s.queue j.eventQueue).hasRoom 18 = false) := by
  unfold State.callRow
  rw [hj]
  dsimp only
  split
  · next c hc =>
    have hfound := List.find?_some hc
    simp only [Bool.and_eq_true, beq_iff_eq, List.any_eq_true, Bool.not_eq_true'] at hfound
    obtain ⟨⟨htable, hedition⟩, hrow⟩ := hfound
    exact .inl ⟨c, List.mem_of_find?_eq_some hc, htable, hedition, hrow, rfl⟩
  · refine .inr ?_
    let r : CallRow := { row := row, cls := ((j.table? tid).map fun t => t.cls ed (row / 32)).getD 0, segFirst := seg, segCount := 1, supplied := false }
    split
    · next c hc =>
      have hfound := List.find?_some hc
      simp only [Bool.and_eq_true, beq_iff_eq] at hfound
      obtain ⟨⟨⟨htable, hedition⟩, -⟩, -⟩ := hfound
      exact .inl ⟨r, rfl, rfl, rfl, rfl, .inl ⟨c, List.mem_of_find?_eq_some hc, htable, hedition, rfl⟩⟩
    · split
      · exact .inl ⟨r, rfl, rfl, rfl, rfl, .inr rfl⟩
      · next hroom => exact .inr ⟨rfl, by simpa using hroom⟩

theorem annexRowsAreCalled : Claims.AnnexRowsAreCalled := by
  intro s slot step tid ed row seg j hj _ r
  refine ⟨fun hcalled => ?_, fun hnot => ?_, (State.callRow_only ..).eq .tileUnits rfl, (State.callRow_only ..).eq .tiers rfl⟩
  · have hnames {k : Job} {c : Call} {t : State} (hr : r = (t, true)) (hk : t.job? slot = some k) (hc : c ∈ k.body.calls) (h : c.Names step tid ed row seg) :
        ∃ k c, r.1.job? slot = some k ∧ c ∈ k.body.calls ∧ c.table = tid ∧ c.edition = ed ∧ step ∈ c.steps ∧
          ∃ y ∈ c.rows, y.row = row ∧ y.supplied = false ∧ (c.sends = 0 → y.segFirst ≤ seg ∧ seg < y.segFirst + y.segCount) :=
      ⟨k, c, by rw [hr]; exact hk, hc, h.table, h.edition, h.steps, h.row⟩
    obtain ⟨c, hc, htable, hedition, hrow, hcall⟩ | ⟨y, rfl, hsupplied, hfirst, hcount, ⟨c, hc, htable, hedition, hcall⟩ | hcall⟩ | ⟨hcall, -⟩ :=
      State.callRow_cases (step := step) (tid := tid) (ed := ed) (row := row) (seg := seg) hj
    · obtain ⟨k, hk, hin⟩ := State.job?_updCall hj hc (Call.joined step row seg)
      exact hnames hcall hk hin (Call.names_joined htable hedition hrow)
    · obtain ⟨k, hk, hin⟩ := State.job?_updCall hj hc (Call.extended step y)
      exact hnames hcall hk hin (Call.names_extended htable hedition hsupplied hfirst hcount)
    · let open' (j' : Job) : Job := { j' with body := { j'.body with calls := j'.body.calls ++ [j.newCall step tid ed y], nextCall := (j'.body.nextCall + 1) % 2 ^ 32 } }
      have hk := State.job?_updJob_of hj open' fun _ => rfl
      refine hnames (k := open' j) (c := j.newCall step tid ed y) hcall hk (List.mem_append_right _ (List.mem_singleton.2 rfl)) ⟨rfl, rfl, List.mem_singleton.2 rfl, ?_⟩
      exact ⟨y, List.mem_singleton.2 rfl, rfl, hsupplied, fun _ => by omega⟩
    · rw [show r = _ from hcall] at hcalled
      cases hcalled
  · obtain ⟨c, -, -, -, -, hcall⟩ | ⟨y, -, -, -, -, ⟨c, -, -, -, hcall⟩ | hcall⟩ | ⟨hcall, hroom⟩ :=
      State.callRow_cases (step := step) (tid := tid) (ed := ed) (row := row) (seg := seg) hj
    · rw [show r = _ from hcall] at hnot
      cases hnot
    · rw [show r = _ from hcall] at hnot
      cases hnot
    · rw [show r = _ from hcall] at hnot
      cases hnot
    · exact ⟨congrArg Prod.fst hcall, hroom⟩

/-! ### Fenced slips (R90, R113) -/

/-- A slip issued again under its old identity. -/
def Slip.again (remote : Bool) (p : Slip) : Slip := { p with state := .issued, landed := 0, remote := remote, peer := if remote then p.peer else 0 }

section
variable {s : State} {tile n : Nat} {p : Slip} {j : Job} (hp : (s.unit tile).slip? n = some p) (hj : s.job? p.work.slot = some j)
include hp hj

theorem State.exec_slipReissue : exec (.slipReissue tile n) s = .next (
    if p.state == .fenced && (((s.unit tile).work? p.work).map fun k => k.holds p).getD false && s.tileRuns tile j
      && !(p.remote && s.fabric.fenced.contains (s.holderOf p.peer))
    then
      if (p.remote && !s.mine p.peer) && !p.scatter
      then (s.updSlip tile n (Slip.again (p.remote && !s.mine p.peer))).send p.peer .gatherReq (j.slipHead tile n p).bytes
      else s.updSlip tile n (Slip.again (p.remote && !s.mine p.peer))
    else s) := by
  change execSlipReissue tile n s = _
  unfold execSlipReissue
  rw [hp]
  dsimp only
  rw [hj]
  rfl

end

theorem fencedSlipsGoAgain : Claims.FencedSlipsGoAgain := by
  intro s tile n p j hp hj held
  have hexec := State.exec_slipReissue hp hj
  have hheld : (((s.unit tile).work? p.work).map fun k => k.holds p).getD false = true ↔ held := by
    cases hw : (s.unit tile).work? p.work with
    | none => simp [held, hw]
    | some k => simp [held, hw]
  refine ⟨fun h => hexec.trans (congrArg Host.Outcome.next (if_neg ?_)), fun hfenced hin hruns => ⟨fun hremote hpeer => ?_, fun hremote => ?_, fun hremote hgather hmine hholder hfree => ?_⟩⟩
  · intro hready
    simp only [Bool.and_eq_true, beq_iff_eq, hheld] at hready
    obtain ⟨⟨⟨hfenced, hin⟩, -⟩, -⟩ := hready
    exact h.elim (fun h => h hfenced) fun h => h hin
  · exact hexec.trans (congrArg Host.Outcome.next (if_neg (by rw [hremote, hpeer]; simp)))
  · rw [if_pos (by rw [hheld.2 hin, hruns, hfenced, hremote]; rfl), hremote] at hexec
    refine ⟨_, hexec, (State.slip?_updSlip hp (Slip.again false)).trans ?_, rfl⟩
    simp [Slip.again, hremote]
  · have hready : (p.state == .fenced && (((s.unit tile).work? p.work).map fun k => k.holds p).getD false && s.tileRuns tile j
        && !(p.remote && s.fabric.fenced.contains (s.holderOf p.peer))) = true := by
      rw [hheld.2 hin, hruns, hfenced, hholder, hfree, Bool.and_false]
      rfl
    rw [if_pos hready, hremote, hmine, hgather] at hexec
    refine ⟨_, hexec, ?_, State.send_onItsWay _ _ hholder⟩
    refine (congrArg (fun u : Tile => u.slip? n) (State.unit_tileUnits ((State.send_only ..).eq .tileUnits rfl) tile)).trans ?_
    refine (State.slip?_updSlip hp (Slip.again true)).trans ?_
    simp [Slip.again, hremote]

end Sys2Proof.Machine
end

section
/-!
Call slips land (R90, R93, R94, R96, R97).
-/
namespace Sys2Proof.Machine
open Sys2Proof

/-! ### Writes to a carrel, read back -/

theorem State.carrelRead_carrel {s t : State} (h : t.carrel = s.carrel) (tile a n : Nat) : t.carrelRead tile a n = s.carrelRead tile a n := by
  rw [State.carrelRead, State.carrelRead, h]

theorem State.carrelRead_carrelWrite_self (s : State) (tile a : Nat) (b : List Byte) : (s.carrelWrite tile a b).carrelRead tile a b.length = b := by
  rw [carrelRead_eq]
  refine List.ext_getElem (by simp) fun i hi hib => ?_
  have hbyte := carrelByte_putCells s.carrel (carrelAt tile a) b (carrelAt tile a + i)
  rw [List.getElem_map, List.getElem_range]
  refine hbyte.trans ?_
  rw [if_pos (by omega), Nat.add_sub_cancel_left, List.getD_eq_getElem _ _ hib]

theorem State.carrelRead_carrelWrite_apart (s : State) (tile : Nat) {a n c : Nat} {b : List Byte} (h : a + n ≤ c ∨ c + b.length ≤ a) :
    (s.carrelWrite tile c b).carrelRead tile a n = s.carrelRead tile a n := by
  rw [carrelRead_eq, carrelRead_eq]
  refine List.map_congr_left fun i hi => ?_
  have hi := List.mem_range.1 hi
  have hbyte := carrelByte_putCells s.carrel (carrelAt tile c) b (carrelAt tile a + i)
  refine hbyte.trans (if_neg ?_)
  unfold carrelAt
  omega

/-- Writes that do not touch one another all read back. -/
theorem State.carrelRead_writes (s : State) (tile w : Nat) (at' : Nat → Nat) (b : Nat → List Byte) (hlen : ∀ k, (b k).length = w) (n : Nat)
    (hapart : ∀ k m, k < n → m < n → k ≠ m → at' k + w ≤ at' m ∨ at' m + w ≤ at' k) (m : Nat) (hm : m < n) :
    ((List.range n).foldl (fun s k => s.carrelWrite tile (at' k) (b k)) s).carrelRead tile (at' m) w = b m := by
  induction n with
  | zero => omega
  | succ n ih =>
    rw [List.range_succ, List.foldl_append, List.foldl_cons, List.foldl_nil]
    by_cases h : m = n
    · subst h
      have hself := ((List.range m).foldl (fun s k => s.carrelWrite tile (at' k) (b k)) s).carrelRead_carrelWrite_self tile (at' m) (b m)
      rwa [hlen] at hself
    · rw [State.carrelRead_carrelWrite_apart]
      · exact ih (fun k l hk hl => hapart k l (by omega) (by omega)) (by omega)
      · rw [hlen]
        exact hapart m n hm (by omega) h

/-! ### Where a row's elements land (R94, R115, R165) -/

/-- Bytes of an element that lands. -/
def Desc.landBytes (d : Desc) : Nat := if d.b 134 then 2 else 4

theorem Desc.landBytes_eq (d : Desc) : d.landBytes = (if d.b 134 then 16 else 32) / 8 := by
  unfold Desc.landBytes
  split <;> rfl

theorem Desc.pow_landBytes (d : Desc) : 256 ^ d.landBytes = 2 ^ (if d.b 134 then 16 else 32) := by
  unfold Desc.landBytes
  split <;> rfl

/-- The elements of a row land apart. -/
theorem Desc.landAt_apart (d : Desc) (base row : Nat) {k m : Nat} (hk : d.f 171 160 ≤ k) (hm : d.f 171 160 ≤ m) (hne : k ≠ m) :
    d.landAt base row k + d.landBytes ≤ d.landAt base row m ∨ d.landAt base row m + d.landBytes ≤ d.landAt base row k := by
  have hrow (i : Nat) : (32 * (row % 32) + i % 32) / 32 = row % 32 := by omega
  have hcol (i : Nat) : (32 * (row % 32) + i % 32) % 32 = i % 32 := by omega
  unfold Desc.landAt Desc.landBytes elemAddr skew
  simp only [hrow, hcol]
  generalize row / 32 * ceilDiv (d.f 188 176) 32 = c
  split
  · generalize 16 / 8 * (row % 32) = r
    omega
  · generalize 32 / 8 * (row % 32) = r
    omega

/-- A value as it lands. -/
def Desc.landed (d : Desc) (v : Val) : List Byte := toLE d.landBytes (toElem (if d.b 134 then .bf16 else .fp32) 0 .nearest v).bits

/-- A row's values land where the row and their columns say (R94). -/
theorem State.carrelRead_landVals (s : State) (tile base : Nat) (d : Desc) (row first : Nat) (vs : List Val) (hfirst : d.f 171 160 ≤ first) (m : Nat) (hm : m < vs.length) :
    leNat ((s.landVals tile base d row first vs).carrelRead tile (d.landAt base row (first + m)) d.landBytes) =
      (toElem (if d.b 134 then .bf16 else .fp32) 0 .nearest (vs.getD m (.zero false))).bits % 256 ^ d.landBytes := by
  have hread := s.carrelRead_writes tile d.landBytes (fun k => d.landAt base row (first + k)) (fun k => d.landed (vs.getD k (.zero false)))
    (fun k => length_toLE ..) vs.length (fun k m _ _ hne => d.landAt_apart base row (by omega) (by omega) (by omega)) m hm
  calc leNat ((s.landVals tile base d row first vs).carrelRead tile (d.landAt base row (first + m)) d.landBytes)
      = leNat (d.landed (vs.getD m (.zero false))) := congrArg leNat hread
    _ = _ := leNat_toLE ..

/-! ### A granule of a slip (R90, R93) -/

/-- A slip that one more granule has landed of. -/
def Slip.onward (st : SlipState) (p : Slip) : Slip := { p with landed := p.landed + 1, state := st }

/-- How a slip stands after its next granule. -/
def Slip.nextState (p : Slip) : SlipState := if decide (p.granules ≤ p.landed + 1) then .done else .partly

/-- What a scatter's last granule leaves: its addition, and a note that it was delivered (R112). -/
def State.scattered (s : State) (tile : Nat) (x : StepRec) (d : Desc) (p : Slip) : State :=
  (s.updStep p.work.slot p.work.step fun y => { y with adds := y.adds ++ [s.scatterAdd x tile p.work d p] }).updWork tile p.work fun k =>
    { k with delivered := k.delivered ++ [(p.seq, p.regs, 1 + 8 * p.at' + p.seg)] }

/-- The columns of a slip's next granule: its first, and their values. -/
def Slip.nextFirst (p : Slip) : Nat := p.first + ceilDiv p.count p.granules * p.landed
def Slip.nextVals (p : Slip) (vs : List Val) : List Val := (vs.drop (ceilDiv p.count p.granules * p.landed)).take (ceilDiv p.count p.granules)

/-- The decode of the tiles that a gather's granule comes from, noted (R155, R157). -/
def State.readFor (s : State) (j : Job) (x : StepRec) (p : Slip) (n : Nat) : State :=
  if p.source = 1 then s else s.noteDecoded j x p.work p.space p.id p.row p.nextFirst n

/-- What a gather's granule leaves but for its slip: its values in the landing range, poisoned where their tiles are, and the row's hold (R94, R100, R113). -/
def State.landedGranule (s : State) (tile : Nat) (p : Slip) (j : Job) (x : StepRec) (d : Desc) (vs : List Val) : State :=
  let u := s.readFor j x p vs.length
  let v := u.landVals tile p.carrel d p.at' p.nextFirst vs
  let w := if p.source != 1 && u.rowPoison j x p.work p.space p.id p.row p.nextFirst vs.length
    then v.landPoison tile p.carrel d p.at' p.nextFirst vs.length else v
  if p.space = 0 then w.noteGather p.work.slot p.work.step p.id ((x.edition? p.id).getD 0) p.row else w

section
variable {s : State} {tile n : Nat} {p : Slip} {j : Job} {x : StepRec} {k : Work} {q : Program} (hp : (s.unit tile).slip? n = some p)
  (hj : s.job? p.work.slot = some j) (hx : j.step? p.work.step = some x) (hk : (s.unit tile).work? p.work = some k) (hq : j.programs[k.prog]? = some q)
include hp hj hx hk hq

/-- SLIP_LAND (R90, R93). -/
theorem State.exec_slipLand : exec (.slipLand tile n) s = .next (
    if !(p.state == .issued || p.state == .partly) || (p.remote && !p.scatter) then s
    else if p.scatter then
      if decide (p.granules ≤ p.landed + 1) then (s.updSlip tile n (Slip.onward p.nextState)).scattered tile x (q.at p.pos) p
      else s.updSlip tile n (Slip.onward p.nextState)
    else if s.updated j p.space p.id p.work.step then
      match s.rowVals j x p.work p.space p.id p.row p.first p.count with
      | none => (s.callRow p.work.slot p.work.step p.id ((x.edition? p.id).getD 0) p.row p.seg).1
      | some vs => ((s.landedGranule tile p j x (q.at p.pos) (p.nextVals vs)).updSlip tile n (Slip.onward p.nextState)).leaveShelf p.work.slot p.id p.row
    else s) := by
  change execSlipLand tile n s = _
  unfold execSlipLand
  rw [hp]
  dsimp only
  rw [hj, State.step?_of_job hj, hx, hk]
  dsimp only
  rw [hq]
  rfl

omit hq hx in
/-- A slip moved on by a granule leaves the work items and the carrels; a scatter's last granule adds its addition and notes its delivery (R112). -/
theorem State.scattered_last (hx : j.step? p.work.step = some x) (d : Desc) :
    let t := (s.updSlip tile n (Slip.onward p.nextState)).scattered tile x d p
    (t.unit tile).slip? n = some (p.onward p.nextState) ∧ t.carrel = s.carrel ∧
      (∃ y, t.step? p.work.slot p.work.step = some y ∧ y.adds = x.adds ++ [s.scatterAdd x tile p.work d p]) ∧
      ∃ v, (t.unit tile).work? p.work = some v ∧ v.delivered = k.delivered ++ [(p.seq, p.regs, 1 + 8 * p.at' + p.seg)] := by
  intro t
  let u := s.updSlip tile n (Slip.onward p.nextState)
  let deliver (k : Work) : Work := { k with delivered := k.delivered ++ [(p.seq, p.regs, 1 + 8 * p.at' + p.seg)] }
  let add (y : StepRec) : StepRec := { y with adds := y.adds ++ [s.scatterAdd x tile p.work d p] }
  have htile : tile < u.tileUnits.length := by simpa [u, State.updSlip, State.updUnit] using State.lt_of_slip? hp
  have hunit : t.unit tile = { u.unit tile with works := (u.unit tile).works.map fun k => if k.id = p.work then deliver k else k } :=
    State.unit_updWork (u.updStep p.work.slot p.work.step add) p.work deliver htile
  have hworks : (u.unit tile).works = (s.unit tile).works := by
    unfold u State.updSlip
    rw [State.unit_updUnit_self _ _ (State.lt_of_slip? hp)]
  refine ⟨?_, rfl, ⟨add x, ?_, rfl⟩, deliver k, ?_, rfl⟩
  · rw [hunit]
    exact State.slip?_updSlip hp _
  · refine (State.step?_of_job (s := u.updStep p.work.slot p.work.step add) (State.job?_updStep (s := u) hj p.work.step add) _).trans ?_
    exact Job.step?_withStep_self hx add fun _ => rfl
  · rw [hunit]
    refine ((u.unit tile).work?_upd p.work deliver fun _ => rfl).trans ?_
    rw [Tile.work?, hworks, show (s.unit tile).works.find? (fun w => w.id == p.work) = some k from hk]
    rfl

omit hj hx hk hq in
/-- A gather's granule moves its slip on and leaves its values where they land (R94). -/
theorem State.landedGranule_lands (d : Desc) (vs : List Val) :
    let t := ((s.landedGranule tile p j x d vs).updSlip tile n (Slip.onward p.nextState)).leaveShelf p.work.slot p.id p.row
    (t.unit tile).slip? n = some (p.onward p.nextState) ∧
      t.carrel = ((s.readFor j x p vs.length).landVals tile p.carrel d p.at' p.nextFirst vs).carrel := by
  intro t
  let u := s.readFor j x p vs.length
  let v := u.landVals tile p.carrel d p.at' p.nextFirst vs
  have hread : u.tileUnits = s.tileUnits := by
    unfold u State.readFor
    split
    · rfl
    · exact (State.noteDecoded_only ..).eq .tileUnits rfl
  have hland : (s.landedGranule tile p j x d vs).tileUnits = v.tileUnits ∧ (s.landedGranule tile p j x d vs).carrel = v.carrel := by
    have hpoison (c : Prop) [Decidable c] : Only [.carrelPoison] v (if c then v.landPoison tile p.carrel d p.at' p.nextFirst vs.length else v) := by
      split
      · exact State.landPoison_only ..
      · exact Only.refl ..
    have hnote (w : State) : Only [.jobs] w (if p.space = 0 then w.noteGather p.work.slot p.work.step p.id ((x.edition? p.id).getD 0) p.row else w) := by
      split
      · exact State.noteGather_only ..
      · exact Only.refl ..
    exact ⟨((hnote _).eq .tileUnits rfl).trans ((hpoison _).eq .tileUnits rfl), ((hnote _).eq .carrel rfl).trans ((hpoison _).eq .carrel rfl)⟩
  have htiles : (s.landedGranule tile p j x d vs).tileUnits = s.tileUnits := hland.1.trans (((State.landVals_only ..).eq .tileUnits rfl).trans hread)
  refine ⟨?_, ((State.leaveShelf_only ..).eq .carrel rfl).trans hland.2⟩
  rw [show t.unit tile = ((s.landedGranule tile p j x d vs).updSlip tile n (Slip.onward p.nextState)).unit tile from
    State.unit_tileUnits ((State.leaveShelf_only ..).eq .tileUnits rfl) tile]
  exact State.slip?_updSlip (by rw [State.unit_tileUnits htiles]; exact hp) _

end

theorem slipsLand : Claims.SlipsLand := by
  intro s tile n p j x k q hp hj hx hk hq _ isOpen d last on
  have hexec := State.exec_slipLand hp hj hx hk hq
  have hopen : (p.state == .issued || p.state == .partly) = true ↔ isOpen := by simp [isOpen]
  have hstate : p.onward p.nextState = on := by
    unfold Slip.onward Slip.nextState
    simp only [decide_eq_true_eq]
    rfl
  refine ⟨fun h => hexec.trans (congrArg Host.Outcome.next (if_pos ?_)), fun hgather hremote => hexec.trans (congrArg Host.Outcome.next (if_pos ?_)),
    fun hin hscatter => ?_, fun hgather hhere => ⟨fun hupd => ?_, fun hin hupd hvals => ?_, fun vs hin hupd hvals => ?_⟩⟩
  · rw [Bool.eq_false_iff.2 fun hin => h (hopen.1 hin)]
    rfl
  · rw [hgather, hremote]
    simp
  · rw [hopen.2 hin, hscatter] at hexec
    by_cases hlast : p.granules ≤ p.landed + 1
    · rw [decide_eq_true hlast] at hexec
      obtain ⟨hslip, hcarrel, ⟨y, hy, hadds⟩, v, hv, hdelivered⟩ := State.scattered_last hp hj hk hx d
      refine ⟨(s.updSlip tile n (Slip.onward p.nextState)).scattered tile x d p,
        hexec.trans (congrArg Host.Outcome.next ((if_neg (by simp)).trans ((if_pos rfl).trans (if_pos rfl)))), hslip.trans (congrArg some hstate), hcarrel, y, v, hy, hv, ?_⟩
      rw [if_pos hlast]
      exact ⟨hadds, hdelivered⟩
    · rw [decide_eq_false hlast] at hexec
      refine ⟨_, hexec.trans (by simp), (State.slip?_updSlip hp _).trans (congrArg some hstate), rfl, x, k, (State.step?_of_job hj _).trans hx, ?_, ?_⟩
      · unfold State.updSlip
        rw [State.unit_updUnit_self _ _ (State.lt_of_slip? hp)]
        exact hk
      · rw [if_neg hlast]
        exact ⟨rfl, rfl⟩
  · rw [hgather, hhere, hupd] at hexec
    rw [hexec]
    simp
  · rw [hopen.2 hin, hgather, hhere, hupd, hvals] at hexec
    exact hexec
  · rw [hopen.2 hin, hgather, hhere, hupd, hvals] at hexec
    obtain ⟨u, hrun, hslip, hcarrel⟩ : ∃ u, exec (.slipLand tile n) s = .next u ∧ (u.unit tile).slip? n = some (p.onward p.nextState) ∧
        u.carrel = ((s.readFor j x p (p.nextVals vs).length).landVals tile p.carrel d p.at' p.nextFirst (p.nextVals vs)).carrel :=
      ⟨_, hexec, State.landedGranule_lands hp d (p.nextVals vs)⟩
    refine ⟨u, hrun, hslip.trans (congrArg some hstate), fun hone hnone hfirst hcount m hm => ?_⟩
    have hceil : ceilDiv p.count 1 = p.count := by unfold ceilDiv; omega
    have hat : p.nextFirst = p.first := by rw [Slip.nextFirst, hnone, Nat.mul_zero, Nat.add_zero]
    have hvs : p.nextVals vs = vs := by
      rw [Slip.nextVals, hnone, hone, hceil, Nat.mul_zero, List.drop_zero, ← hcount, List.take_length]
    rw [hvs, hat] at hcarrel
    have hlanded := (s.readFor j x p vs.length).carrelRead_landVals tile p.carrel d p.at' p.first vs hfirst m (hcount ▸ hm)
    intro b
    rw [← d.landBytes_eq, ← d.pow_landBytes]
    exact (congrArg leNat (State.carrelRead_carrel hcarrel ..)).trans hlanded

/-- Settles O54: slips issue, call the annex rows they need, land granule by granule, and go again after a fence. -/
theorem slipsIssueAndLand : Obligations.SlipsIssueAndLand := ⟨slipsAreIssued, annexRowsAreCalled, slipsLand, fencedSlipsGoAgain⟩

end Sys2Proof.Machine
end

section
/-!
A spare takes a fenced position and fills its jobs from their Deposits (R370 to R372, R393).
-/
namespace Sys2Proof.Machine
open Sys2Proof

/-! ### One job changes -/

/-- Every job but the slot's stands as it stood. -/
structure OthersStand (slot : Nat) (s t : State) : Prop where
  job : ∀ n, n ≠ slot → t.job? n = s.job? n

theorem OthersStand.of_jobs {slot : Nat} {s t : State} (h : t.jobs = s.jobs) : OthersStand slot s t := ⟨fun n _ => State.job?_jobs h n⟩
theorem OthersStand.refl (slot : Nat) (s : State) : OthersStand slot s s := .of_jobs rfl
theorem OthersStand.trans {slot : Nat} {s t u : State} (h : OthersStand slot s t) (g : OthersStand slot t u) : OthersStand slot s u :=
  ⟨fun n hn => (g.job n hn).trans (h.job n hn)⟩

theorem OthersStand.foldl {α : Type} {slot : Nat} (f : State → α → State) (l : List α) (s : State) (h : ∀ s a, OthersStand slot s (f s a)) :
    OthersStand slot s (l.foldl f s) :=
  List.foldlRecOn (motive := fun t => OthersStand slot s t) l f (.refl slot s) fun t ht a _ => ht.trans (h t a)

theorem State.updJob_othersStand (s : State) (slot : Nat) (f : Job → Job) (hf : ∀ j, (f j).slot = j.slot) : OthersStand slot s (s.updJob slot f) :=
  ⟨fun n hn => State.job?_updJob_other s slot n f hf hn.symm⟩

theorem State.updBody_othersStand (s : State) (slot : Nat) (f : JobBody → JobBody) : OthersStand slot s (s.updBody slot f) :=
  State.updJob_othersStand s slot _ fun _ => rfl

theorem State.writePage_othersStand (s : State) (j : Job) (t : Table) (g : GroupRow) (own page cls : Nat) (rows : List RowData) (die : Option Nat) :
    OthersStand j.slot s (s.writePage j t g own page cls rows die) := by
  unfold State.writePage
  exact OthersStand.trans (.of_jobs (((State.putAll_only ..).eq .jobs rfl).trans ((State.freeTiles_only ..).eq .jobs rfl))) (State.updBody_othersStand ..)

theorem State.writeRow_othersStand (s : State) (slot : Nat) (g : GroupRow) (die : Option Nat) (tid ed row : Nat) (update : Bool) (f : RowData → RowData) :
    OthersStand slot s (s.writeRow slot g die tid ed row update f) := by
  unfold State.writeRow
  split
  · exact .refl ..
  · next j hj =>
    obtain rfl := State.slot_of_job? hj
    dsimp only
    split
    · exact .refl ..
    split
    · exact State.updBody_othersStand ..
    split
    · exact State.updBody_othersStand ..
    · exact State.writePage_othersStand ..

theorem State.standRows_othersStand (s : State) (slot : Nat) (rows : List ShelfRow) : OthersStand slot s (s.standRows slot rows) :=
  OthersStand.foldl _ _ _ fun t x => by
    split
    · exact t.writeRow_othersStand ..
    · exact .refl ..

theorem State.restoreJob_othersStand (s : State) (slot : Nat) (d : Deposit) : OthersStand slot s (s.restoreJob slot d) :=
  OthersStand.trans (State.updJob_othersStand s slot (fun j => j.restored d) fun _ => rfl)
    (OthersStand.trans (OthersStand.foldl _ _ _ fun _ _ => .of_jobs ((State.standTile_only ..).eq .jobs rfl)) (State.standRows_othersStand ..))

theorem State.releaseReplay_othersStand (s : State) (slot : Nat) : OthersStand slot s (s.releaseReplay slot) := by
  have hset (l : List LogRec) : OthersStand slot s (s.updJob slot fun j => { j with replay := l }) := State.updJob_othersStand s slot _ fun _ => rfl
  unfold State.releaseReplay
  split
  · exact .refl ..
  · dsimp only
    split
    · exact hset []
    · next r rest _ =>
      split
      · exact ⟨(hset rest).job⟩
      · exact hset (r :: rest)

/-! ### A job filled from its Deposit (R371, R372) -/

/-- The log that a filled job takes over: its records of the module's numerics generation. -/
def FillImage.ownLog (m : FillImage) (gen : Nat) : List LogRec :=
  (m.log.filter fun r => r.gen == gen).map fun r => { r with committed := true, mirrored := true }

/-- A job as it stands before its Deposit is restored. -/
def FillImage.standing (m : FillImage) (gen : Nat) : Job :=
  let d := { m.deposit with committed := true }
  let log := m.ownLog gen
  { m.job with
    holder := none, queues := [], fenced := false, filling := true, steps := [], fragments := [], signals := [], owed := [], taking := none, unlike := false,
    deferred := d.waiting.map fun w => { w with asker := .command 0 (1024 + m.job.slot) w.accept }, retained := d.retained, accepted := d.accepted,
    deposit := some d, log := log, logEnd := log.foldl (fun n r => max n (r.offset + 64 + r.body.length)) d.cut, replay := log.filter d.replays,
    decisions := log.filter fun r => r.kind != 1 && r.kind != 3 }

theorem FillImage.slot_standing (m : FillImage) (gen : Nat) : (m.standing gen).slot = m.job.slot := rfl

/-- A role map word with another slot. -/
def roleIn (slot w : Nat) : Nat := w - roleSlot w * 2 ^ 24 + slot * 2 ^ 24

/-- The state in which a filled job is restored. -/
def State.placed (s : State) (m : FillImage) : State :=
  m.roles.foldl (fun s p => s.setRole (p.1 % 256) (roleIn m.job.slot p.2)) { s with jobs := s.jobs ++ [m.standing s.sec.numericsGen] }

theorem State.jobs_placed (s : State) (m : FillImage) : (s.placed m).jobs = s.jobs ++ [m.standing s.sec.numericsGen] := by
  have honly (t : State) : Only [.dict, .tileUnits] t (m.roles.foldl (fun s p => s.setRole (p.1 % 256) (roleIn m.job.slot p.2)) t) :=
    Only.foldl _ _ _ fun s p => s.setRole_only (p.1 % 256) (roleIn m.job.slot p.2)
  exact (honly _).eq .jobs rfl

theorem State.placed_othersStand (s : State) (m : FillImage) : OthersStand m.job.slot s (s.placed m) := by
  refine ⟨fun n hn => ?_⟩
  unfold State.job?
  rw [State.jobs_placed, List.find?_append]
  simp [m.slot_standing, hn.symm]

section
variable {s : State} {m : FillImage} (hfree : s.job? m.job.slot = none)
include hfree

theorem State.job?_placed_self : (s.placed m).job? m.job.slot = some (m.standing s.sec.numericsGen) := by
  unfold State.job? at hfree ⊢
  rw [State.jobs_placed, List.find?_append, hfree]
  simp [m.slot_standing]

theorem State.fillJob_of_free (hnew : s.jobOfKey? m.job.key = none) (hroom : s.jobs.length < 4) (hslot : m.job.slot < 4) :
    s.fillJob m = ((s.placed m).restoreJob m.job.slot { m.deposit with committed := true }).releaseReplay m.job.slot := by
  unfold State.fillJob
  rw [if_neg (by simp [hnew, hroom]), if_pos ⟨hslot, by simp [hfree]⟩]
  rfl

end

/-- A command at the head of a replay is taken again (R372). -/
theorem State.releaseReplay_command {s : State} {slot : Nat} {k : Job} (hk : s.job? slot = some k) {r : LogRec} {rest : List LogRec} (hreplay : k.replay = r :: rest)
    (hkind : r.kind = 1) : ∃ f ∈ (s.releaseReplay slot).port.inFlight, f.replayed = true ∧ f.stage = .arrived ∧ f.job = some slot ∧ f.accept = some r.accept ∧
      f.cmd.opcode = r.opcode ∧ f.cmd.step = r.step ∧ f.cmd.payload = r.body := by
  unfold State.releaseReplay
  rw [hk]
  dsimp only
  rw [hreplay, List.dropWhile_cons_of_neg (by simp [hkind])]
  dsimp only
  rw [if_pos hkind]
  exact ⟨_, List.mem_append_right _ (List.mem_singleton.2 rfl), rfl, rfl, rfl, rfl, rfl, rfl, rfl⟩

/-- Whether a record is taken again does not depend on its own copies, nor on the Deposit's commit. -/
theorem FillImage.replay_standing (m : FillImage) (gen : Nat) : (m.standing gen).replay =
    (m.log.filter fun r => r.gen == gen && m.deposit.replays r).map fun r => { r with committed := true, mirrored := true } := by
  change ((m.log.filter fun r => r.gen == gen).map _).filter _ = _
  rw [List.filter_map, List.filter_filter]
  refine congrArg _ (List.filter_congr fun r _ => ?_)
  rw [Bool.and_comm]
  rfl

/-- What a filled job has of its Deposit and of its log (R371, R372). -/
structure Filled (m : FillImage) (gen : Nat) (k : Job) : Prop where
  key : k.key = m.job.key
  holder : k.holder = none
  filling : k.filling = true
  state : k.state = .running
  steps : k.steps = []
  nextStep : k.body.nextStep = match m.deposit.step with | some n => n + 1 | none => 0
  lastDone : k.body.lastDone = m.deposit.step
  params : k.body.params = m.deposit.body.params
  dict : k.body.dict = m.deposit.keptDict
  retained : k.retained = m.deposit.retained
  deposit : k.deposit = some { m.deposit with committed := true }
  log : k.log = m.ownLog gen

theorem State.fillJob_fills {s : State} {m : FillImage} (hfree : s.job? m.job.slot = none) (hnew : s.jobOfKey? m.job.key = none) (hroom : s.jobs.length < 4)
    (hslot : m.job.slot < 4) :
    (∃ k, (s.fillJob m).job? m.job.slot = some k ∧ Filled m s.sec.numericsGen k) ∧ OthersStand m.job.slot s (s.fillJob m) ∧
      ∀ r, (m.log.filter fun r => r.gen == s.sec.numericsGen && m.deposit.replays r).head? = some r → r.kind = 1 →
        ∃ f ∈ (s.fillJob m).port.inFlight, f.replayed = true ∧ f.stage = .arrived ∧ f.job = some m.job.slot ∧ f.accept = some r.accept ∧
          f.cmd.opcode = r.opcode ∧ f.cmd.step = r.step ∧ f.cmd.payload = r.body := by
  rw [State.fillJob_of_free hfree hnew hroom hslot]
  let d := { m.deposit with committed := true }
  let i := (m.standing s.sec.numericsGen).restored d
  obtain ⟨k, hk, hsame⟩ := State.job?_restoreJob d (State.job?_placed_self hfree)
  have hkept {α : Type} (g : Job → α) (hg : ∀ j, g j.lasting = g j) : g k = g i := by rw [← hg k, hsame, hg]
  obtain ⟨rest, hrest⟩ := State.job?_releaseReplay hk
  refine ⟨⟨_, hrest, ?_⟩, (s.placed_othersStand m).trans ((State.restoreJob_othersStand ..).trans (State.releaseReplay_othersStand ..)), fun r hhead hkind => ?_⟩
  · exact {
      key := hkept Job.key fun _ => rfl
      holder := hkept Job.holder fun _ => rfl
      filling := hkept Job.filling fun _ => rfl
      state := hkept Job.state fun _ => rfl
      steps := hkept Job.steps fun _ => rfl
      nextStep := hkept (·.body.nextStep) fun _ => rfl
      lastDone := hkept (·.body.lastDone) fun _ => rfl
      params := hkept (·.body.params) fun _ => rfl
      dict := hkept (·.body.dict) fun _ => rfl
      retained := hkept Job.retained fun _ => rfl
      deposit := hkept Job.deposit fun _ => rfl
      log := hkept Job.log fun _ => rfl }
  · have hreplay : k.replay = _ := (hkept Job.replay fun _ => rfl).trans (m.replay_standing s.sec.numericsGen)
    obtain ⟨tail, htail⟩ := List.head?_eq_some_iff.1 hhead
    rw [htail, List.map_cons] at hreplay
    exact State.releaseReplay_command (r := { r with committed := true, mirrored := true }) hk hreplay hkind

/-! ### The spare, the module it replaces, and the others (R370, R393) -/

/-- A spare is noted as assigned and reported (R370). -/
def State.assigning (s : State) (pos spare : Nat) : State :=
  ({ s with fabric := { s.fabric with assigned := s.fabric.assigned ++ [spare] } } : State).raise 0x7103 .module 0 pos spare 0

theorem State.assigning_raised (s : State) (pos spare : Nat) : Raised s (s.assigning pos spare) 0x7103 .module 0 0 pos spare 0 :=
  Raised.of_log (State.raise_raised ({ s with fabric := { s.fabric with assigned := s.fabric.assigned ++ [spare] } } : State) 0x7103 .module 0 pos spare 0) rfl

theorem State.fabric_assigning (s : State) (pos spare : Nat) : (s.assigning pos spare).fabric = { s.fabric with assigned := s.fabric.assigned ++ [spare] } :=
  (State.raise_only ..).eq .fabric rfl

/-- The module takes a position and begins to fill it; an armed switch is cancelled (R370, R371, Table 20-9). -/
def State.takingOver (s : State) (pos : Nat) : State :=
  { s.disarm with fabric := { s.disarm.fabric with position := pos, filling := some pos, fenced := s.disarm.fabric.fenced.filter (· != pos) } }

theorem State.takingOver_only (s : State) (pos : Nat) : Only [.sec, .fabric] s (s.takingOver pos) :=
  Only.upd ((State.disarm_only s).mono (by decide))

theorem State.exec_takeoverStarted_self {s : State} {pos spare : Nat} (hself : s.fabric.position = spare) (images : List FillImage) :
    exec (.takeoverStarted pos ⟨spare, images⟩) s = .next (images.foldl State.fillJob ((s.assigning pos spare).takingOver pos)) := by
  have hself' : (s.fabric.position == spare) = true := by simpa using hself
  change execTakeoverStarted pos ⟨spare, images⟩ s = _
  unfold execTakeoverStarted
  dsimp only
  rw [hself', if_neg (by simp), if_neg (by simp), if_pos rfl]
  rfl

theorem spareTakesPosition (s : State) (pos spare : Nat) (images : List FillImage) (hself : s.fabric.position = spare) :
    Runs (.takeoverStarted pos ⟨spare, images⟩) s fun t =>
      t.fabric.position = pos ∧ t.fabric.filling = some pos ∧ t.fabric.assigned = s.fabric.assigned ++ [spare] ∧ Raised s t 0x7103 .module 0 0 pos spare 0 ∧
        t.sec.standby = (if s.sec.standby = .armed then .verified else s.sec.standby) := by
  let u := s.assigning pos spare
  have honly : Only [.port, .jobs, .dict, .tiers, .tileUnits, .draws] (u.takingOver pos) (images.foldl State.fillJob (u.takingOver pos)) :=
    Only.foldl _ _ _ State.fillJob_only
  have hfabric := honly.eq .fabric rfl
  have hassigned : (u.takingOver pos).fabric.assigned = s.fabric.assigned ++ [spare] :=
    (congrArg Fabric.assigned ((State.disarm_only u).eq .fabric rfl)).trans (congrArg Fabric.assigned (s.fabric_assigning pos spare))
  have hsec : u.sec = s.sec := (State.raise_only ..).eq .sec rfl
  refine ⟨_, State.exec_takeoverStarted_self hself images, congrArg Fabric.position hfabric, congrArg Fabric.filling hfabric,
    (congrArg Fabric.assigned hfabric).trans hassigned, ?_, ?_⟩
  · exact (s.assigning_raised pos spare).then_log ((honly.eq .log rfl).trans ((u.takingOver_only pos).eq .log rfl))
  · refine (congrArg Security.standby (honly.eq .sec rfl)).trans ?_
    change u.disarm.sec.standby = _
    unfold State.disarm
    rw [← hsec]
    split
    · rfl
    · rfl

theorem spareFillsJob (s : State) (pos spare : Nat) (m : FillImage) (hself : s.fabric.position = spare) (hnew : s.jobOfKey? m.job.key = none)
    (hroom : s.jobs.length < 4) (hslot : m.job.slot < 4) (hfree : s.job? m.job.slot = none) :
    Runs (.takeoverStarted pos ⟨spare, [m]⟩) s fun t =>
      (∃ k, t.job? m.job.slot = some k ∧ Filled m s.sec.numericsGen k) ∧ OthersStand m.job.slot s t ∧
        ∀ r, (m.log.filter fun r => r.gen == s.sec.numericsGen && m.deposit.replays r).head? = some r → r.kind = 1 →
          ∃ f ∈ t.port.inFlight, f.replayed = true ∧ f.stage = .arrived ∧ f.job = some m.job.slot ∧ f.accept = some r.accept ∧
            f.cmd.opcode = r.opcode ∧ f.cmd.step = r.step ∧ f.cmd.payload = r.body := by
  let u := (s.assigning pos spare).takingOver pos
  have hjobs : u.jobs = s.jobs := ((State.takingOver_only ..).eq .jobs rfl).trans ((State.raise_only ..).eq .jobs rfl)
  have hgen : u.sec.numericsGen = s.sec.numericsGen := by
    have hsec : (s.assigning pos spare).sec = s.sec := (State.raise_only ..).eq .sec rfl
    change (s.assigning pos spare).disarm.sec.numericsGen = _
    unfold State.disarm
    rw [← hsec]
    split
    · rfl
    · rfl
  have hfill := State.fillJob_fills (s := u) ((State.job?_jobs hjobs _).trans hfree) (by rwa [State.jobOfKey?, hjobs]) (by rwa [hjobs]) hslot
  rw [hgen] at hfill
  obtain ⟨hjob, hothers, hreplay⟩ := hfill
  exact ⟨_, State.exec_takeoverStarted_self hself [m], hjob, (OthersStand.of_jobs hjobs).trans hothers, hreplay⟩

theorem State.exec_takeoverStarted_other {s : State} {pos spare : Nat} (hself : s.fabric.position ≠ spare) (hnext : s.sparesLeft.head? = some spare)
    (hknown : s.fabric.position = pos ∨ s.fabric.fenced.contains pos = true) (images : List FillImage) :
    exec (.takeoverStarted pos ⟨spare, images⟩) s = .next (
      if (s.assigning pos spare).fabric.position = pos then (s.assigning pos spare).sessions.foldl (fun s x => s.endSession x.id 3) (s.assigning pos spare)
      else { s.assigning pos spare with
        fabric := { (s.assigning pos spare).fabric with holders := aSet (s.assigning pos spare).fabric.holders pos pos } }) := by
  have hself' : (s.fabric.position == spare) = false := by simpa using hself
  change execTakeoverStarted pos ⟨spare, images⟩ s = _
  unfold execTakeoverStarted
  dsimp only
  rw [hself', if_neg (by simp [hnext]), if_neg ?_, if_neg (by simp)]
  · rfl
  · rintro ⟨hfenced, -, hpos⟩
    obtain h | h := hknown
    · exact hpos h
    · rw [h] at hfenced
      cases hfenced

/-! ### A module taken over keeps no session (R393) -/

/-- The identities of the module's sessions. -/
def State.sessionIds (s : State) : List Nat := s.sessions.map (·.id)

theorem State.sessionIds_raise (s : State) (code : Nat) (src : Source) (unit a b c : Nat) : (s.raise code src unit a b c).sessionIds = s.sessionIds := by
  have hids (u : State) : u.sessionIds = (u.sessions.map Session.core).map (·.id) := by
    rw [List.map_map]
    rfl
  rw [hids, hids, (State.raise_noticed ..).cores]

theorem State.sessionIds_endSession (s : State) (id cause : Nat) : (s.endSession id cause).sessionIds = s.sessionIds.filter (· ≠ id) := by
  unfold State.endSession
  split
  · next h =>
    refine (List.filter_eq_self.2 fun i hi => ?_).symm
    obtain ⟨x, hx, rfl⟩ := List.mem_map.1 hi
    simpa using List.find?_eq_none.1 h x hx
  · dsimp only
    rw [State.sessionIds_raise]
    generalize s.port.inFlight.filter _ = chains
    have hkept : (chains.foldl (fun t f => t.releaseRoom f.cmd.queue f.cmd.opcode) s).sessions = s.sessions :=
      (Only.foldl (w := [.port]) _ _ _ fun _ _ => State.releaseRoom_only ..).eq .sessions rfl
    change List.map _ (List.filter _ (List.foldl _ s chains).sessions) = _
    rw [hkept, State.sessionIds, List.filter_map]
    rfl

theorem State.sessionIds_endSessions (l : List Session) (cause : Nat) (s : State) :
    (l.foldl (fun s x => s.endSession x.id cause) s).sessionIds = s.sessionIds.filter fun i => i ∉ l.map (·.id) := by
  induction l generalizing s with
  | nil => exact (List.filter_eq_self.2 (by simp)).symm
  | cons x l ih =>
    rw [List.foldl_cons, ih, State.sessionIds_endSession, List.filter_filter]
    refine List.filter_congr fun i _ => ?_
    rw [← Bool.decide_and]
    exact decide_eq_decide.2 (by simp [and_comm])

theorem State.sessions_endAll (s : State) (cause : Nat) : (s.sessions.foldl (fun s x => s.endSession x.id cause) s).sessions = [] := by
  have hids := State.sessionIds_endSessions s.sessions cause s
  rw [List.filter_eq_nil_iff.2 fun i hi => by simpa using List.mem_map.1 hi] at hids
  exact List.map_eq_nil_iff.1 hids

theorem othersSeeTakeover (s : State) (pos spare : Nat) (images : List FillImage) (hself : s.fabric.position ≠ spare) (hnext : s.sparesLeft.head? = some spare) :
    (s.fabric.position = pos → Runs (.takeoverStarted pos ⟨spare, images⟩) s fun t => t.sessions = [] ∧ t.fabric.assigned = s.fabric.assigned ++ [spare]) ∧
    (s.fabric.position ≠ pos → s.fabric.fenced.contains pos = true → Runs (.takeoverStarted pos ⟨spare, images⟩) s fun t => t.holderOf pos = pos ∧
      t.fabric.assigned = s.fabric.assigned ++ [spare] ∧ Raised s t 0x7103 .module 0 0 pos spare 0) := by
  have hfabric := s.fabric_assigning pos spare
  refine ⟨fun hpos => ?_, fun hpos hfenced => ?_⟩
  · have hexec := State.exec_takeoverStarted_other hself hnext (.inl hpos) images
    rw [if_pos (by rw [hfabric]; exact hpos)] at hexec
    refine ⟨_, hexec, State.sessions_endAll .., (congrArg Fabric.assigned ?_).trans (congrArg Fabric.assigned hfabric)⟩
    exact (Only.foldl _ _ _ fun (t : State) (x : Session) => t.endSession_only x.id 3).eq .fabric rfl
  · have hexec := State.exec_takeoverStarted_other hself hnext (.inr hfenced) images
    rw [if_neg (by rw [hfabric]; exact hpos)] at hexec
    exact ⟨_, hexec, aGetD_aSet_self .., congrArg Fabric.assigned hfabric, (s.assigning_raised pos spare).then_log rfl⟩

end Sys2Proof.Machine
end

section
/-!
Takeovers complete, positions fold, jobs are restored in place, and recovery comes to its limits (R35, R37, R370 to R376).
-/
namespace Sys2Proof.Machine
open Sys2Proof

/-! ### The end of a takeover (R372) -/

/-- A key whose entries are gone has its default. -/
theorem aGetD_filter_ne {α : Type} (l : List (Nat × α)) (k : Nat) (d : α) : aGetD (l.filter fun p => p.1 != k) k d = d := by
  have hnone : aGet (l.filter fun p => p.1 != k) k = none := by
    induction l with
    | nil => rfl
    | cons p l ih =>
      rw [List.filter_cons]
      split
      · next h => simpa [aGet, bne_iff_ne.1 h] using ih
      · exact ih
  rw [aGetD, hnone]
  rfl

/-- What is kept for a position is sent, and nothing else happens (R362). -/
theorem State.resendKept_sends (s : State) (pos : Nat) (reached : List (Nat × Nat)) : Sends s (s.resendKept pos reached) := by
  unfold State.resendKept
  refine Sends.foldl _ _ _ fun t j => Sends.foldl _ _ _ fun u r => ?_
  split
  · exact State.send_sends ..
  · exact .refl u

theorem takeoverEndsOnSpare (s : State) (pos holder : Nat) (jobs : List (Nat × Nat)) (hfilling : s.fabric.filling = some pos) :
    let ended := s.jobs.all Job.replayDone = true ∧ ∀ f ∈ s.port.inFlight, f.replayed = true → f.stage ≠ .arrived
    (ended → Runs (.takeoverComplete pos holder jobs) s fun t => t.fabric.filling = none ∧ t.jobs = s.jobs.map (fun j => { j with filling := false }) ∧
      Raised s t 0x7104 .module 0 0 pos holder 0) ∧
    (¬ ended → exec (.takeoverComplete pos holder jobs) s = .next s) := by
  intro ended
  have htest : (s.jobs.all Job.replayDone && !(s.port.inFlight.any fun f => f.replayed && f.stage == .arrived)) = true ↔ ended := by
    simp [ended]
  have hexec : exec (.takeoverComplete pos holder jobs) s = .next _ := congrArg Host.Outcome.next (if_pos hfilling)
  let u : State := { s with fabric := { s.fabric with filling := none }, jobs := s.jobs.map fun j => { j with filling := false } }
  refine ⟨fun hended => ?_, fun hended => ?_⟩
  · rw [if_pos (htest.2 hended)] at hexec
    exact ⟨u.raise 0x7104 .module 0 pos holder 0, hexec, congrArg Fabric.filling ((State.raise_only ..).eq .fabric rfl), (State.raise_only ..).eq .jobs rfl,
      Raised.of_log (u.raise_raised 0x7104 .module 0 pos holder 0) rfl⟩
  · rw [if_neg fun h => hended (htest.1 h)] at hexec
    exact hexec

theorem takeoverEndsElsewhere (s : State) (pos holder : Nat) (jobs : List (Nat × Nat)) (hfilling : s.fabric.filling ≠ some pos)
    (hfenced : s.fabric.fenced.contains pos = true) (hheld : (s.fabric.holders.any fun h => h.1 == pos) = true) :
    Runs (.takeoverComplete pos holder jobs) s fun t => pos ∉ t.fabric.fenced ∧ t.holderOf pos = pos ∧ Raised s t 0x7104 .module 0 0 pos holder 0 := by
  let u : State := { s with fabric := { s.fabric with
    fenced := s.fabric.fenced.filter (· != pos), holders := s.fabric.holders.filter fun h => h.1 != pos, folded := s.fabric.folded.filter (· != pos) } }
  let v := u.resendKept pos jobs
  have hexec : exec (.takeoverComplete pos holder jobs) s = .next (v.raise 0x7104 .module 0 pos holder 0) := by
    refine congrArg Host.Outcome.next ((if_neg hfilling).trans (if_pos ?_))
    rw [hfenced, hheld]
    rfl
  have hsends : Sends u v := u.resendKept_sends pos jobs
  have hfabric : (v.raise 0x7104 .module 0 pos holder 0).fabric = v.fabric := (State.raise_only ..).eq .fabric rfl
  refine ⟨_, hexec, ?_, ?_, Raised.of_log (v.raise_raised 0x7104 .module 0 pos holder 0) (hsends.only.eq .log rfl)⟩
  · rw [hfabric, hsends.fenced]
    simp [u]
  · rw [State.holderOf, hfabric, hsends.holders]
    exact aGetD_filter_ne ..

/-! ### A folder answers for a position (R375) -/

theorem positionsFold (s : State) (pos folder : Nat) (images : List (Nat × Deposit)) (hfenced : s.fabric.fenced.contains pos = true) (hspares : s.sparesLeft = [])
    (hheld : (s.fabric.holders.any fun h => h.1 == pos) = false) (hroom : folder = s.fabric.position → s.canHold images = true) :
    Runs (.positionFolded pos folder images) s fun t => t.holderOf pos = folder ∧ Raised s t 0x7105 .module 0 0 pos folder 0 ∧
      (folder = s.fabric.position → pos ∈ t.fabric.folded) := by
  let u : State := { s with fabric := { s.fabric with holders := aSet s.fabric.holders pos folder } }
  let v := u.raise 0x7105 .module 0 pos folder 0
  have hfabric : v.fabric = u.fabric := (State.raise_only ..).eq .fabric rfl
  have hposition : v.fabric.position = s.fabric.position := (congrArg Fabric.position hfabric).trans rfl
  have hraised : Raised s v 0x7105 .module 0 0 pos folder 0 := Raised.of_log (u.raise_raised 0x7105 .module 0 pos folder 0) rfl
  have hholder : aGetD u.fabric.holders pos pos = folder := aGetD_aSet_self ..
  have hexec : exec (.positionFolded pos folder images) s = .next _ := congrArg Host.Outcome.next (if_neg (by
    rintro (h | h | h | ⟨hself, h⟩)
    · rw [hfenced] at h
      cases h
    · exact h hspares
    · rw [hheld] at h
      cases h
    · rw [hroom hself] at h
      cases h))
  by_cases hself : folder = s.fabric.position
  · let w : State := { v with fabric := { v.fabric with folded := insertOnce pos v.fabric.folded } }
    have honly (w : State) : Only [.jobs, .tiers, .draws] w (images.foldl (fun s p => s.foldIn pos p.1 p.2) w) := Only.foldl _ _ _ fun t p => t.foldIn_only pos p.1 p.2
    have hrun : exec (.positionFolded pos folder images) s = .next (images.foldl (fun s p => s.foldIn pos p.1 p.2) w) :=
      hexec.trans (congrArg Host.Outcome.next (if_pos (hself.trans hposition.symm)))
    have hfolded := (honly w).eq .fabric rfl
    refine ⟨_, hrun, ?_, hraised.then_log ((honly w).eq .log rfl), fun _ => ?_⟩
    · rw [State.holderOf, hfolded]
      exact (congrArg (fun f : Fabric => aGetD f.holders pos pos) hfabric).trans hholder
    · rw [hfolded]
      exact mem_insertOnce_self ..
  · have hsends : Sends v (v.resendKept pos []) := v.resendKept_sends pos []
    have hrun : exec (.positionFolded pos folder images) s = .next (v.resendKept pos []) :=
      hexec.trans (congrArg Host.Outcome.next (if_neg fun h => hself (h.trans hposition)))
    refine ⟨_, hrun, ?_, hraised.then_log (hsends.only.eq .log rfl), fun h => absurd h hself⟩
    rw [State.holderOf, hsends.holders, hfabric]
    exact hholder

/-- A position is taken over by a spare, and folded where no spare is left (R370 to R375, R393). -/
theorem positionsAreTakenOver : Claims.PositionsAreTakenOver := by
  refine ⟨spareTakesPosition, fun s pos spare m hself hnew hroom hslot hfree => ?_, othersSeeTakeover, takeoverEndsOnSpare, takeoverEndsElsewhere, positionsFold⟩
  obtain ⟨t, hexec, ⟨k, hk, hfilled⟩, hothers, hreplay⟩ := spareFillsJob s pos spare m hself hnew hroom hslot hfree
  obtain ⟨hkey, hholder, hfilling, hstate, hsteps, hnext, hlast, hparams, hdict, hretained, hdeposit, hlog⟩ := hfilled
  refine ⟨t, hexec, ⟨k, hk, hkey, hholder, hfilling, hstate, hsteps, hnext, hlast, hparams, fun p => ?_, hretained, hdeposit, hlog⟩, hothers.job, hreplay⟩
  rw [hdict]
  exact m.deposit.mem_keptDict p

/-! ### Restore in place (R373) -/

theorem jobIsRestoredInPlace (s : State) (slot : Nat) (j : Job) (hj : s.job? slot = some j) (hfenced : j.fenced = true) (hrequests : s.fabric.requests = []) :
    Runs (.restoreInPlace slot) s fun t => (∃ k, t.job? slot = some k ∧ k = { j with fenced := false }) ∧ (∀ x ∈ t.tiers.tiles, x.key.slot = slot → x.poison = []) ∧
      (∀ g ∈ t.carrelPoison, g < 256 * 2 ^ 17 → ¬ (roleA (s.roleWord (g / 2 ^ 17)) ≠ 0 ∧ roleSlot (s.roleWord (g / 2 ^ 17)) = slot)) := by
  let mine := (List.range 256).filter fun t => roleA (s.roleWord t) != 0 && roleSlot (s.roleWord t) == slot
  let u := s.updTiles fun l => l.map fun t => if t.key.slot = slot then { t with poison := [] } else t
  let v : State := { u with carrelPoison := u.carrelPoison.filter fun g => !mine.contains (g / 2 ^ 17) }
  let w := v.updJob slot fun j => { j with fenced := false }
  have hexec : exec (.restoreInPlace slot) s = .next w.serveWaiting := by
    change execRestoreInPlace slot s = _
    unfold execRestoreInPlace
    rw [hj]
    dsimp only
    rw [if_pos hfenced]
  rw [State.serveWaiting_of_none (s := w) hrequests] at hexec
  refine ⟨_, hexec, ⟨_, State.job?_updJob_of (s := v) hj (fun j => { j with fenced := false }) fun _ => rfl, rfl⟩, fun x hx hslot => ?_, fun g hg hrange hown => ?_⟩
  · obtain ⟨y, -, rfl⟩ := List.mem_map.1 (show x ∈ s.tiers.tiles.map _ from hx)
    split at hslot
    · next h => rw [if_pos h]
    · next h => exact absurd hslot h
  · have hclean : ¬ mine.contains (g / 2 ^ 17) = true := by simpa using (List.mem_filter.1 (show g ∈ u.carrelPoison.filter fun g => !mine.contains (g / 2 ^ 17) from hg)).2
    obtain ⟨hrole, hslot⟩ := hown
    refine hclean (List.contains_iff_mem.2 (List.mem_filter.2 ⟨List.mem_range.2 (by omega), ?_⟩))
    simpa using ⟨hrole, hslot⟩

/-! ### Recovery that is exhausted (R35, R376) -/

/-- A job whose recovery is impossible. -/
def Job.giveUp (j : Job) : Job :=
  { j with state := .exhausted, fenced := false, filling := false, unlike := false, replay := [], decisions := [], signals := [] }

/-- A job is exhausted, reported with the first step it does not complete (R376). -/
def State.givingUp (s : State) (slot : Nat) (j : Job) : State :=
  ((s.raiseJob 0x7106 slot (((j.steps.head?).map (·.num)).getD j.body.nextStep) (j.key % 2 ^ 32) (j.key / 2 ^ 32) 0).dropWorks fun w => w.slot == slot).updJob slot
    Job.giveUp

theorem State.givingUp_raised (s : State) (slot : Nat) (j : Job) :
    Raised s (s.givingUp slot j) 0x7106 .job slot (((j.steps.head?).map (·.num)).getD j.body.nextStep) (j.key % 2 ^ 32) (j.key / 2 ^ 32) 0 :=
  Raised.then_log (s.raiseJob_raised 0x7106 slot _ _ _ 0) (((State.updJob_only ..).eq .log rfl).trans ((State.dropWorks_only ..).eq .log rfl))

section
variable {s : State} {slot : Nat} {j : Job} (hj : s.job? slot = some j)
include hj

theorem State.exec_recoveryExhausted (hstate : j.state = .running ∨ j.state = .restoring)
    (hlost : j.fenced = true ∨ j.unlike = true ∨ ∃ p ∈ j.positions, s.fabric.fenced.contains p = true) :
    exec (.recoveryExhausted slot) s = .next (j.steps.foldl (fun s x => s.exhaustStep slot x.num) (s.givingUp slot j)) := by
  have hlost' : (j.fenced || j.unlike || j.positions.any fun p => s.fabric.fenced.contains p) = true := by simpa [or_assoc] using hlost
  change execRecoveryExhausted slot s = _
  unfold execRecoveryExhausted
  rw [hj]
  dsimp only
  rw [hlost']
  obtain h | h := hstate
  · rw [h]
    rfl
  · rw [h]
    rfl

theorem State.job?_givingUp : (s.givingUp slot j).job? slot = some j.giveUp :=
  State.job?_updJob_of ((State.job?_jobs (((State.dropWorks_only ..).eq .jobs rfl).trans ((State.raiseJob_only ..).eq .jobs rfl)) slot).trans hj) Job.giveUp fun _ => rfl

/-- A job that is exhausted waits for no close. -/
theorem State.tryClose_exhausted (hstate : j.state = .exhausted) : s.tryClose slot = s := by
  unfold State.tryClose
  rw [hj]
  dsimp only
  rw [hstate]

/-- A step ends without its values: its result is the summary alone (R35). -/
theorem State.job?_exhaustStep {x : StepRec} (hx : j.step? x.num = some x) (hstate : j.state = .exhausted) :
    ∃ k, (s.exhaustStep slot x.num).job? slot = some k ∧ k.state = .exhausted ∧ k.steps = j.steps.filter (fun y => y.num != x.num) ∧
      k.body.lastDone = j.body.lastDone ∧ k.body.health = j.body.health ∧
      k.body.results = j.body.results ++ [{ step := x.num, image := x.summary 64 Status.exhausted.code 0, delivered := [] }] := by
  let body (b : JobBody) : JobBody :=
    { b with results := b.results ++ [{ step := x.num, image := x.summary 64 Status.exhausted.code 0, delivered := [] }], counters := b.counters.filter fun c => c.1.1 != x.num }
  let u := (((s.updBody slot body).finishAsker x.asker .exhausted []).freeStepTiles slot x.num)
  let v := (u.updJob slot fun j => { j with steps := j.steps.filter fun y => y.num != x.num }).clearPhase slot (x.num % 4)
  let k : Job := { j with body := body j.body, steps := j.steps.filter fun y => y.num != x.num }
  have hu : u.job? slot = some { j with body := body j.body } :=
    (State.job?_jobs (((State.freeStepTiles_only ..).eq .jobs rfl).trans ((State.finishAsker_only ..).eq .jobs rfl)) slot).trans
      (State.job?_updJob_of hj (fun j => { j with body := body j.body }) fun _ => rfl)
  have hv : v.job? slot = some k := (State.job?_jobs ((State.clearPhase_only ..).eq .jobs rfl) slot).trans
    (State.job?_updJob_of hu (fun j => { j with steps := j.steps.filter fun y => y.num != x.num }) fun _ => rfl)
  have hrun : s.exhaustStep slot x.num = v := by
    unfold State.exhaustStep
    rw [State.step?_of_job hj, hx]
    exact State.tryClose_exhausted hv hstate
  rw [hrun]
  exact ⟨k, hv, hstate, rfl, rfl, rfl, rfl⟩

end

/-- Settles O40: a spare takes a fenced position and fills its jobs, a folder answers where none is left, and what cannot be recovered ends exhausted. -/
theorem positionsRecover : Obligations.PositionsRecover := by
  refine ⟨positionsAreTakenOver, jobIsRestoredInPlace, fun s slot j hj hstate hlost => ?_⟩
  have hexec := State.exec_recoveryExhausted hj hstate hlost
  have hk := State.job?_givingUp hj
  refine ⟨fun hsteps => ?_, fun x hsteps => ?_⟩
  · rw [hsteps] at hexec
    have hraised := s.givingUp_raised slot j
    rw [hsteps] at hraised
    exact ⟨_, hexec, ⟨_, hk, rfl, rfl, rfl⟩, hraised⟩
  · rw [hsteps] at hexec
    have hx : j.giveUp.step? x.num = some x := by
      rw [Job.step?, show j.giveUp.steps = [x] from hsteps]
      exact List.find?_cons_of_pos (by simp)
    obtain ⟨k, hkept, hgone, hnone, hlast, hhealth, hresults⟩ := State.job?_exhaustStep hk hx rfl
    refine ⟨_, hexec, k, hkept, hgone, ?_, hlast, hhealth, hresults⟩
    rw [hnone, show j.giveUp.steps = [x] from hsteps]
    simp

end Sys2Proof.Machine
end
